-- ==== Sys2Proof/Word.lean ====
section
/-!
DEFINITION. The word types of the model: bytes, 64-bit registers, and nothing else.
-/
namespace Sys2Proof

/-- Eight bits, the unit of device memory and of every frame and record. -/
abbrev Byte := BitVec 8

/-- A 64-bit register, general register or counter (R8, R14, R96). -/
abbrev Word := BitVec 64

end Sys2Proof
end

