-- ==== Sys2Proof/Syntax.lean ====
section
/-!
DEFINITION. The commands of the block: the operand records they carry and one constructor of `Instr` for each
row of the opcode table.
-/
namespace Sys2Proof

/-- What the reads of a command's parameters and data addresses returned (R516). -/
inductive HostData where
  /-- The bytes read, one string for each data address the command reads. -/
  | ok (a b : List Byte)
  /-- A read completed poisoned. -/
  | poisoned
  /-- A read met a completion timeout or an Unsupported Request. -/
  | failed
  /-- A read was refused under R433. -/
  | refused
deriving DecidableEq, Repr

/-- A mailbox command as Burin takes it (R514): its ring, its slot (or MSEQ) and its 64-byte descriptor. -/
structure Mbx where
  /-- 0 to 255 the ring of that function, 256 the management ring. -/
  input : BitVec 9
  slot : BitVec 32
  desc : BitVec 512
  data : HostData
deriving DecidableEq, Repr

/-- A command descriptor that Burin finds at the head of a function's command ring (R520). -/
structure Head where
  fn : BitVec 8
  desc : BitVec 512
deriving DecidableEq, Repr

/-- How a host read ended (R432): the bytes, with the poisoned 16-byte words of it marked, or the bytes received
before a completion timeout or an Unsupported Request. -/
inductive HostReadEnd where
  | ok (bytes : List Byte)
  | poisoned (bytes : List Byte) (words : List Nat)
  | failed (bytes : List Byte)
deriving DecidableEq, Repr

/-- A descriptor slot as fetched (R425, R427): its bytes 0 to 47 and the payload read with a FRAME or WRITE. -/
structure FetchedSlot where
  raw : BitVec 384
  payload : HostReadEnd
deriving DecidableEq, Repr

/-- The geometry that a chip enable's ONFI parameter page gives (R279): bytes of data and spare in a page, pages in a
block, blocks in a LUN, and LUNs. -/
structure FlashGeom where
  data : BitVec 32
  spare : BitVec 32
  pages : BitVec 32
  blocks : BitVec 32
  luns : BitVec 8
deriving DecidableEq, Repr

/-- What the receiver of one lane of an Abard port observes in a training phase: noise, error and signal powers by subcarrier
in 2^-40 of full scale, the peer's loading table for the other direction (bits by subcarrier, fine gains in 1/8 dB), and the FEC
lock (R328 to R330). -/
structure LaneObs where
  noise : List (BitVec 40)
  error : List (BitVec 40)
  signal : List (BitVec 40)
  peerLoad : List (BitVec 4)
  peerFine : List (BitVec 8)
  fecLock : Bool
deriving DecidableEq, Repr

/-- The stamps of VERIFY (R331): T1 to T4 of this device's own delay exchanges, and T2 and T3 of its answers to the peer's. -/
structure DelayStamps where
  own : List (BitVec 288)
  answers : List (BitVec 144)
deriving DecidableEq, Repr

/-- What a HELLO says of the far end (R328, R506): its wire revision, and the gain codes of its lanes, lane 0 in the lowest five
bits. -/
structure FarEnd where
  rev : BitVec 8
  gains : BitVec 40
deriving DecidableEq, Repr

/-- A part of the SPI NOR that the card holds (R552): the offset of its first byte, and its bytes. -/
structure NorPart where
  offset : BitVec 24
  bytes : List Byte
deriving DecidableEq, Repr

/-- What the card is fitted with: the parts of its NOR, where it is not the one held before (R552), and whether a chip enable of the
flash answers (`FLASH_STATUS`.PRESENT, R284). -/
structure Fitted where
  nor : List NorPart
  flash : Bool
deriving DecidableEq, Repr

/-- A BAR of a function (Table 22.2). -/
inductive Bar where
  | bar0 | bar2 | bar4
deriving DecidableEq, Repr

/-- A host write through a BAR: 64 or 32 bits wide (then the low half of `data`). -/
structure RegWrite where
  fn : BitVec 8
  bar : Bar
  off : BitVec 28
  wide : Bool
  data : BitVec 64
deriving DecidableEq, Repr

/-- A command of the block: one constructor for each row of the opcode table. -/
inductive Instr where
  /-- REGISTER_WRITE (R8): A host write to a register with no row of its own, with 64-bit halves held and committed as R8 states and W1C, W1S and WO actions applied. -/
  | registerWrite (w : RegWrite)
  /-- BAD_WIDTH_ACCESS (R9): A register access of the wrong width or alignment is ignored, reads return all ones, and the access is counted. -/
  | badWidthAccess (fn : BitVec 8) (read : Bool)
  /-- UNMAPPED_BAR_ACCESS (R572): An access to a BAR offset that holds no register of that function reads 0 or is ignored, and is counted in BAD_ACCESS. -/
  | unmappedBarAccess (fn : BitVec 8) (read : Bool) (bits : BitVec 8)
  /-- EPOCH_BOUNDARY (R537): At each epoch boundary the planned tier and pump and valve duties take effect on every die together. -/
  | epochBoundary
  /-- GOVERNOR_PLAN (R541): At the first TCLK edge of an epoch the governor plans the tier of the next epoch from its loop model. -/
  | governorPlan
  /-- WINDOW_START (R42): A plate window reaches its START, and its work begins at the first CCLK edge at or after it. -/
  | windowStart (handle : BitVec 16) (window : BitVec 12)
  /-- WINDOW_END (R52): A window reaches its end with work still running, which runs on and is counted as an overrun and reported. -/
  | windowEnd (handle : BitVec 16) (window : BitVec 12)
  /-- PARTITION_CLEAR_DONE (R27): Clearing of a core, way or HBM channel that changes partition completes. -/
  | partitionClearDone (kind : BitVec 2) (index : BitVec 11)
  /-- PLATE_LOAD (R38): Copies a plate image and checks its magic, format, revision, digest, fields and room. -/
  | plateLoad (m : Mbx)
  /-- PLATE_ADMIT (R50): Checks a loaded plate's claims, deadlines and capacities and admits it or returns a refusal report. -/
  | plateAdmit (m : Mbx)
  /-- PLATE_START (R60): Starts an admitted plate, or releases a held one, by ridge launch or fabric barrier. -/
  | plateStart (m : Mbx)
  /-- PLATE_SWAP (R58): Admits a new RAN plate to replace the one in force at a fixed swap epoch. -/
  | plateSwap (m : Mbx)
  /-- PLATE_RETIRE (R57): Retires a plate after its current impression, or at an epoch for a RAN plate. -/
  | plateRetire (m : Mbx)
  /-- PLATE_QUERY (R601): Returns a plate's state, flags, next impression number, deferrals and overruns. -/
  | plateQuery (m : Mbx)
  /-- PLATE_COMMAND_END (R100): A plate command ends when its contexts have ended and its engine queues have retired, and the next start record begins. -/
  | plateCommandEnd (handle : BitVec 16) (window : BitVec 12)
  /-- IMPRESSION_COMPLETE (R601): An impression completes, and a compute plate is held if its status is other than ST_OK or ST_POISON. -/
  | impressionComplete (handle : BitVec 16) (cell : BitVec 9) (impression : BitVec 64)
  /-- MANIFEST_RETIRE (R308): The manifest retires into its counter once every fetch of its joined and grown pages has completed. -/
  | manifestRetire (ctx : BitVec 8) (q : BitVec 3)
  /-- NOP (R102): Thread instruction that does nothing. -/
  | thNop (t : BitVec 12) (word : BitVec 64)
  /-- ADD (R102): Thread instruction gD = gA + gB + IMM. -/
  | thAdd (t : BitVec 12) (d a b : BitVec 5) (imm : BitVec 41)
  /-- SUB (R102): Thread instruction gD = gA - gB. -/
  | thSub (t : BitVec 12) (d a b : BitVec 5) (imm : BitVec 41)
  /-- AND (R102): Thread instruction bitwise AND of gA and gB. -/
  | thAnd (t : BitVec 12) (d a b : BitVec 5) (imm : BitVec 41)
  /-- OR (R102): Thread instruction bitwise OR of gA and gB. -/
  | thOr (t : BitVec 12) (d a b : BitVec 5) (imm : BitVec 41)
  /-- XOR (R102): Thread instruction bitwise XOR of gA and gB. -/
  | thXor (t : BitVec 12) (d a b : BitVec 5) (imm : BitVec 41)
  /-- SHL (R102): Thread instruction shifting gA left by (gB + IMM)[5:0]. -/
  | thShl (t : BitVec 12) (d a b : BitVec 5) (imm : BitVec 41)
  /-- SHR (R102): Thread instruction shifting gA right logically. -/
  | thShr (t : BitVec 12) (d a b : BitVec 5) (imm : BitVec 41)
  /-- SAR (R102): Thread instruction shifting gA right arithmetically. -/
  | thSar (t : BitVec 12) (d a b : BitVec 5) (imm : BitVec 41)
  /-- MUL (R102): Thread instruction taking the low 64 bits of gA × gB. -/
  | thMul (t : BitVec 12) (d a b : BitVec 5) (imm : BitVec 41)
  /-- MIN (R102): Thread instruction taking the signed minimum of gA and gB. -/
  | thMin (t : BitVec 12) (d a b : BitVec 5) (imm : BitVec 41)
  /-- MAX (R102): Thread instruction taking the signed maximum of gA and gB. -/
  | thMax (t : BitVec 12) (d a b : BitVec 5) (imm : BitVec 41)
  /-- LI (R102): Thread instruction loading a sign-extended immediate. -/
  | thLi (t : BitVec 12) (d a b : BitVec 5) (imm : BitVec 41)
  /-- LIH (R102): Thread instruction replacing bits [63:41] of gA with the immediate. -/
  | thLih (t : BitVec 12) (d a b : BitVec 5) (imm : BitVec 41)
  /-- LD (R102): Thread instruction loading from the scratchpad, zero-extended. -/
  | thLd (t : BitVec 12) (d a b : BitVec 5) (imm : BitVec 41)
  /-- ST (R102): Thread instruction storing low bytes of gD to the scratchpad. -/
  | thSt (t : BitVec 12) (d a b : BitVec 5) (imm : BitVec 41)
  /-- LDX (R118): Thread instruction loading 8 bytes at a device or rack address through the ME, marking the register pending. -/
  | thLdx (t : BitVec 12) (d a b : BitVec 5) (imm : BitVec 41)
  /-- STX (R118): Thread instruction storing 8 bytes at a device or rack address through the ME. -/
  | thStx (t : BitVec 12) (d a b : BitVec 5) (imm : BitVec 41)
  /-- BEQ (R102): Thread instruction branching if gA equals gB. -/
  | thBeq (t : BitVec 12) (d a b : BitVec 5) (imm : BitVec 41)
  /-- BNE (R102): Thread instruction branching if gA differs from gB. -/
  | thBne (t : BitVec 12) (d a b : BitVec 5) (imm : BitVec 41)
  /-- BLT (R102): Thread instruction branching if gA is signed less than gB. -/
  | thBlt (t : BitVec 12) (d a b : BitVec 5) (imm : BitVec 41)
  /-- BGE (R102): Thread instruction branching if gA is signed greater or equal to gB. -/
  | thBge (t : BitVec 12) (d a b : BitVec 5) (imm : BitVec 41)
  /-- JMP (R102): Thread instruction jumping by 8 × IMM. -/
  | thJmp (t : BitVec 12) (d a b : BitVec 5) (imm : BitVec 41)
  /-- CMD (R104): Thread instruction copying a 64-byte command block into the queue of TE0, TE1, SE or ME. -/
  | thCmd (t : BitVec 12) (d a b : BitVec 5) (imm : BitVec 41)
  /-- WAITC (R108): Thread instruction waiting until a counter has reached a value. -/
  | thWaitc (t : BitVec 12) (d a b : BitVec 5) (imm : BitVec 41)
  /-- SETC (R109): Thread instruction setting a counter's COUNT and clearing its status and flags. -/
  | thSetc (t : BitVec 12) (d a b : BitVec 5) (imm : BitVec 41)
  /-- RDC (R102): Thread instruction reading a counter word into a register. -/
  | thRdc (t : BitVec 12) (d a b : BitVec 5) (imm : BitVec 41)
  /-- BAR (R110): Thread instruction arriving at a cluster barrier and waiting for its release. -/
  | thBar (t : BitVec 12) (d a b : BitVec 5) (imm : BitVec 41)
  /-- WAITR (R111): Thread instruction waiting until the ridge count reaches a target. -/
  | thWaitr (t : BitVec 12) (d a b : BitVec 5) (imm : BitVec 41)
  /-- RIDGE_WAIT_RESUME (R111): The ridge count reaches a WAITR target and the context resumes in its next slot. -/
  | ridgeWaitResume (t : BitVec 12)
  /-- RDR (R111): Thread instruction reading the ridge count latched in the slot. -/
  | thRdr (t : BitVec 12) (d a b : BitVec 5) (imm : BitVec 41)
  /-- RDIMP (R102): Thread instruction reading the impression number. -/
  | thRdimp (t : BitVec 12) (d a b : BitVec 5) (imm : BitVec 41)
  /-- FENCE (R132): Thread instruction waiting until the context's queue has issued and its scoped outstanding requests are acknowledged. -/
  | thFence (t : BitVec 12) (d a b : BitVec 5) (imm : BitVec 41)
  /-- END (R449): Thread instruction ending the context's part of the plate command once no LDX result is owed. -/
  | thEnd (t : BitVec 12) (d a b : BitVec 5) (imm : BitVec 41)
  /-- TENSOR_COMMAND (R71): A tensor engine executes D = C + A × B over tiles with exact chunk accumulation and output conversion. -/
  | tensorCommand (core : BitVec 9) (engine : BitVec 1)
  /-- ENGINE_COMMAND_RETIRE (R108): An engine command retires, advancing its counter, ORing flags and recording the first non-OK status. -/
  | engineCommandRetire (core : BitVec 9) (engine : BitVec 2)
  /-- CMUL (R141): SE complex multiply per iteration, narrowed by YQ + OSHIFT. -/
  | seCmul (core : BitVec 9)
  /-- CADD (R141): SE complex add or subtract per iteration. -/
  | seCadd (core : BitVec 9)
  /-- CMAC (R141): SE complex multiply-accumulate over the level-0 reduction index. -/
  | seCmac (core : BitVec 9)
  /-- POWER (R141): SE sum of squared magnitudes over the level-0 reduction index. -/
  | sePower (core : BitVec 9)
  /-- RAD2 (R153): SE radix-2 Stockham transform stage. -/
  | seRad2 (core : BitVec 9)
  /-- RAD4 (R153): SE radix-4 Stockham transform stage. -/
  | seRad4 (core : BitVec 9)
  /-- MMSEW (R157): SE exact MMSE weight and gain computation per group. -/
  | seMmsew (core : BitVec 9)
  /-- DEMAP (R173): SE demapping of detected symbols to descrambled LLR8 values. -/
  | seDemap (core : BitVec 9)
  /-- SCAN (R148): SE measurement of the headroom of X blocks. -/
  | seScan (core : BitVec 9)
  /-- BXOP_SET (R151): BXOP SUB 0 sets a block-exponent register's EXP and marks headroom unmeasured. -/
  | bxopSet (core : BitVec 9)
  /-- BXOP_WRITE_OUT (R151): BXOP SUB 1 writes a block-exponent register to the scratchpad. -/
  | bxopWriteOut (core : BitVec 9)
  /-- MOVE (R123): ME copy of rows with an optional block-exponent scaling shift. -/
  | meMove (t : BitVec 12)
  /-- GATHER (R125): ME gather of entries by an index list. -/
  | meGather (t : BitVec 12)
  /-- SCATTER (R125): ME scatter of entries by an index list. -/
  | meScatter (t : BitVec 12)
  /-- TRANSPOSE (R126): ME transpose of a matrix of 1- to 8-byte elements. -/
  | meTranspose (t : BitVec 12)
  /-- CONVERT (R127): ME format conversion with round to nearest even. -/
  | meConvert (t : BitVec 12)
  /-- HASH_ONESHOT (R128): HASH mode 0 hashes bytes and writes the digest. -/
  | hashOneshot (t : BitVec 12)
  /-- HASH_APPEND (R128): HASH mode 1 appends bytes to a digest state block. -/
  | hashAppend (t : BitVec 12)
  /-- HASH_FINAL (R128): HASH mode 2 pads a state block, writes the digest and zeros the block. -/
  | hashFinal (t : BitVec 12)
  /-- WB (R115): ME write-back and or invalidation of cluster cache lines over rows. -/
  | meWb (t : BitVec 12)
  /-- FLOAD (R129): ME rack-level load into local memory. -/
  | meFload (t : BitVec 12)
  /-- FSTORE (R129): ME rack-level store from local memory. -/
  | meFstore (t : BitVec 12)
  /-- PUT (R129): ME hall-level put. -/
  | mePut (t : BitVec 12)
  /-- GET (R129): ME hall-level get. -/
  | meGet (t : BitVec 12)
  /-- ME_ATOMIC (R130): ME atomic operation at a device, rack or hall address. -/
  | meAtomic (t : BitVec 12)
  /-- ME_REQUEST_ISSUE (R131): The ME issues a request of a ready queue when its context has outstanding room. -/
  | meRequestIssue (core : BitVec 9)
  /-- ME_DESCRIPTOR_RETIRE (R118): A descriptor retires when every one of its requests has been acknowledged. -/
  | meDescriptorRetire (t : BitVec 12)
  /-- CELL_CONFIG (R169): Reads and checks a cell record and sets the cell CONFIGURED. -/
  | cellConfig (m : Mbx)
  /-- CELL_START (R167): Schedules a cell to go from CONFIGURED to ACTIVE. -/
  | cellStart (m : Mbx)
  /-- CELL_STOP (R167): Schedules a cell to go to CONFIGURED or UNCONFIGURED. -/
  | cellStop (m : Mbx)
  /-- CELL_SHADOW (R193): Schedules a cell to go from CONFIGURED to SHADOW. -/
  | cellShadow (m : Mbx)
  /-- CELL_TAKEOVER (R194): Schedules a shadow cell to become ACTIVE. -/
  | cellTakeover (m : Mbx)
  /-- CELL_QUERY (R168): Returns a cell's state and counters. -/
  | cellQuery (m : Mbx)
  /-- CELL_STATE_CHANGE (R167): A requested cell state change takes effect at its slot boundary. -/
  | cellStateChange (cell : BitVec 9)
  /-- LDPC_DECODE_JOB (R177): A decode job written to the decoder pool port is split into code blocks and dispatched. -/
  | ldpcDecodeJob
  /-- CODE_BLOCK_DECODED (R178): A decoder finishes a code block by layered min-sum with early termination and CRC check. -/
  | codeBlockDecoded (decoder : BitVec 6)
  /-- LDPC_ENCODE_JOB (R183): An ENCODE job codes, rate-matches, scrambles and modulates one PDSCH codeword. -/
  | ldpcEncodeJob
  /-- SIDE_JOB (R174): A SIDE job writes the demapping side words of one PUSCH layer. -/
  | sideJob
  /-- POLAR_JOB (R186): A polar block encodes PBCH or DCI or decodes UCI. -/
  | polarJob
  /-- PRACH_JOB (R187): A PRACH detector correlates an occasion and reports detections in a PRACH record. -/
  | prachJob
  /-- FIXED_FUNCTION_JOB_DONE (R184): An encoder, polar or PRACH job completes and retires into its counter. -/
  | fixedFunctionJobDone (pool : BitVec 2) (unit : BitVec 6)
  /-- FH_PORT_CONFIG (R198): Configures a fronthaul port's MAC, MAX_FRAME, multicast and exception queue. -/
  | fhPortConfig (m : Mbx)
  /-- FH_STREAM_CONFIG (R202): Writes a fronthaul stream record. -/
  | fhStreamConfig (m : Mbx)
  /-- FH_CELL_TIMING (R203): Writes a cell's fronthaul timing record. -/
  | fhCellTiming (m : Mbx)
  /-- FH_MIRROR (R219): Sets a cell's mirroring role and ring. -/
  | fhMirror (m : Mbx)
  /-- FH_QUERY (R224): Returns the counters of a port or stream. -/
  | fhQuery (m : Mbx)
  /-- FH_FRAME_RX (R212): A received fronthaul frame is sorted, checked and its sections landed, dropped or queued. -/
  | fhFrameRx (port : BitVec 3) (raw : BitVec 72) (fcsOk : Bool) (frame : List (BitVec 8))
  /-- FH_EGRESS_JOB (R206): An egress job builds and compresses eCPRI frames with transmit windows. -/
  | fhEgressJob (port : BitVec 3)
  /-- FH_TX_FRAME_BOUNDARY (R207): At a frame boundary the port picks PTP, the earliest ready eCPRI frame or a queued frame. -/
  | fhTxFrameBoundary (port : BitVec 3) (raw : BitVec 72)
  /-- SYMBOL_WINDOW_OPEN (R215): At E + UL_RX_MIN a symbol buffer of the landing ring is zeroed. -/
  | symbolWindowOpen (stream : BitVec 13) (air : BitVec 64)
  /-- SYMBOL_CLOSE (R217): A symbol closes and LAND_CNT retires one count. -/
  | symbolClose (stream : BitVec 13) (air : BitVec 64)
  /-- MIRROR_RECORD_RX (R221): A shadow lands a received mirror record. -/
  | mirrorRecordRx (source : BitVec 14) (bytes : List (BitVec 8))
  /-- MIRROR_DEADLINE (R221): A slot's mirror records are not complete by the deadline and the slot is treated as without metadata. -/
  | mirrorDeadline (cell : BitVec 9) (impression : BitVec 64)
  /-- FH_BLOCK_LOCK_LOSS (R223): A fronthaul port loses PCS block lock. -/
  | fhBlockLockLoss (port : BitVec 3) (fec : Bool)
  /-- FH_BLOCK_LOCK_REGAIN (R223): A fronthaul port regains PCS block lock. -/
  | fhBlockLockRegain (port : BitVec 3)
  /-- TIME_PORT_CONFIG (R229): Enables PTP on a port and names its queues. -/
  | timePortConfig (m : Mbx)
  /-- TIME_SERVO_CONFIG (R234): Sets the servo parameters. -/
  | timeServoConfig (m : Mbx)
  /-- TIME_REARM (R238): Returns the servo to FREE so that one new step is taken. -/
  | timeRearm (m : Mbx)
  /-- TIME_SYNCE (R240): Selects the SyncE source port. -/
  | timeSynce (m : Mbx)
  /-- TIME_QUERY (R597): Returns the servo state. -/
  | timeQuery (m : Mbx)
  /-- TXTS_HEAD_READ (R233): A read of TIME_TXTS_HEAD removes and returns the oldest transmit stamp. -/
  | txtsHeadRead (port : BitVec 4) (wide : Bool)
  /-- TIN_HEAD_READ (R243): A read of TIN_HEAD removes and returns the oldest input stamp. -/
  | tinHeadRead (n : BitVec 1) (wide : Bool)
  /-- MEAS_COMMIT (R234): A write of COMMIT commits an offset to the servo, which updates its state. -/
  | measCommit (frac : BitVec 8)
  /-- HOLDOVER_ENTRY (R236): No accepted commit for HOLD_MS moves the servo to HOLDOVER. -/
  | holdoverEntry
  /-- SYNCE_RESUME (R240): SYNCE_RCLK resumes 100 ms after both indications return. -/
  | synceResume
  /-- TOUT_ENABLE (R241): Writing EN from 0 to 1 arms a time output with its settings. -/
  | toutEnable (n : BitVec 2) (ctrl : BitVec 64)
  /-- TOUT_PULSE (R241): A time output drives a pulse at its scheduled ridge count. -/
  | toutPulse (n : BitVec 2)
  /-- TIN_EDGE (R243): A selected edge on TIN0 or TIN1 is stamped into its FIFO. -/
  | tinEdge (n : BitVec 1) (falling : Bool)
  /-- DEVICE_MEMORY_REQUEST (R17): A device-level request is performed at its home. -/
  | deviceMemoryRequest (n : BitVec 6)
  /-- REFRESH_SLOT (R256): A channel's refresh slot in a batten refreshes and scrubs one granule. -/
  | refreshSlot (h : BitVec 10)
  /-- MEM_QUOTA_SET (R269): Sets a context's limit in one tier. -/
  | memQuotaSet (m : Mbx)
  /-- MEM_ALLOC (R268): Gives a context a contiguous range of frames in one set. -/
  | memAlloc (m : Mbx)
  /-- MEM_FREE (R268): Zero-fills a range, frees its frames and returns the quota. -/
  | memFree (m : Mbx)
  /-- TIER_REGION_CREATE (R270): Creates a tier region of pages. -/
  | tierRegionCreate (m : Mbx)
  /-- TIER_REGION_DESTROY (R271): Destroys a tier region. -/
  | tierRegionDestroy (m : Mbx)
  /-- TIER_POOL_SET (R274): Names a context's tier cache pool with its LOW_WATER and PACE. -/
  | tierPoolSet (m : Mbx)
  /-- TIER_JOB (R278): Submits a tier job record from the mailbox. -/
  | tierJob (m : Mbx)
  /-- MEM_REMOTE_ATTACH (R269): Adds a lent range to rack-remote capacity. -/
  | memRemoteAttach (m : Mbx)
  /-- MEM_LEND (R267): Lends a range of compute HBM to the rack. -/
  | memLend (m : Mbx)
  /-- FLASH_FORMAT (R279): Checks the flash geometry and formats the flash tier. -/
  | flashFormat (m : Mbx) (geoms : List FlashGeom)
  /-- MEM_QUERY (R597): Returns a context's limits, usages and counters. -/
  | memQuery (m : Mbx)
  /-- TIER_REGION_ADOPT (R501): Adopts a committed rack-remote STEP home as a new region. -/
  | tierRegionAdopt (m : Mbx)
  /-- TIER_COMMIT (R276): Commits every STEP page of the named regions. -/
  | tierCommit (m : Mbx)
  /-- TIER_DISCARD (R277): Restores the dirty sectors of STEP pages to their last commit. -/
  | tierDiscard (m : Mbx)
  /-- TIER_FETCH (R273): A FETCH job brings pages into the cache pool, coalescing with fetches in progress. -/
  | tierFetch (ctx : BitVec 8)
  /-- TIER_UNPIN (R278): An UNPIN job lowers page pin counts. -/
  | tierUnpin (ctx : BitVec 8)
  /-- TIER_WRITEBACK (R275): A WRITEBACK job writes dirty sectors home. -/
  | tierWriteback (ctx : BitVec 8)
  /-- TIER_JOB_COMMIT (R276): A COMMIT job commits STEP regions. -/
  | tierJobCommit (ctx : BitVec 8)
  /-- TIER_JOB_DISCARD (R277): A DISCARD job discards the step state of STEP regions. -/
  | tierJobDiscard (ctx : BitVec 8)
  /-- TIER_FETCH_COMPLETE (R273): A page fetch completes and every waiting requester completes with one status. -/
  | tierFetchComplete (ctx : BitVec 8) (tpn : BitVec 32)
  /-- TIER_JOB_COMPLETE (R278): A tier job retires into its counter with the first non-OK status. -/
  | tierJobComplete (ctx : BitVec 8)
  /-- BACKGROUND_WRITEBACK (R274): When free frames fall below LOW_WATER the tier manager writes back unpinned dirty pages. -/
  | backgroundWriteback (ctx : BitVec 8)
  /-- SECTOR_WRITEBACK_DONE (R275): A sector copy home completes and the page moves from WRITING. -/
  | sectorWritebackDone (ctx : BitVec 8) (tpn : BitVec 32) (sector : BitVec 4)
  /-- FLASH_ROW_PROGRAM (R282): A full or committed open row is programmed to flash. -/
  | flashRowProgram
  /-- FLASH_COMPACTION (R282): When free block sets fall below 2 % the tier manager compacts and erases a block set. -/
  | flashCompaction
  /-- WEIGHT_INSTALL (R287): Creates a weight set, copies its blocks and computes its root. -/
  | weightInstall (m : Mbx)
  /-- WEIGHT_QUERY (R288): Returns a weight set's root and poisoned blocks, optionally rehashing. -/
  | weightQuery (m : Mbx)
  /-- WEIGHT_REPAIR (R291): Replaces weight blocks whose leaves match and clears their poison. -/
  | weightRepair (m : Mbx)
  /-- WEIGHT_REMOVE (R288): Removes a weight set. -/
  | weightRemove (m : Mbx)
  /-- THATCH_BEGIN (R292): A BEGIN job activates a thatch schedule for an impression. -/
  | thatchBegin (die : BitVec 2)
  /-- THATCH_LATEST_EXPIRY (R297): A held gate passes its LATEST and the impression is suspended. -/
  | thatchLatestExpiry (plate : BitVec 16)
  /-- SEQ_QUEUE_CONFIG (R303): Configures a batch queue. -/
  | seqQueueConfig (m : Mbx)
  /-- SEQ_SUBMIT (R302): Takes a FREE sequence entry and queues it. -/
  | seqSubmit (m : Mbx)
  /-- SEQ_RELEASE (R301): Requests release of a sequence. -/
  | seqRelease (m : Mbx)
  /-- SEQ_PAUSE (R301): Requests a pause of a sequence. -/
  | seqPause (m : Mbx)
  /-- SEQ_RESUME (R301): Returns a paused sequence to the join order. -/
  | seqResume (m : Mbx)
  /-- SEQ_QUERY (R300): Returns a sequence entry. -/
  | seqQuery (m : Mbx)
  /-- SEQ_ALLOT (R302): Sets a context's sequence allotment. -/
  | seqAllot (m : Mbx)
  /-- ABR_TRAIN (R328): Trains or retrains an Abard port. -/
  | abrTrain (m : Mbx)
  /-- ABR_CONTINUE (R333): Leaves PROBE_HOLD and restarts the probe measurement. -/
  | abrContinue (m : Mbx)
  /-- ABR_GAIN_SET (R333): Sets a lane's TIA gain code. -/
  | abrGainSet (m : Mbx)
  /-- ABR_MEASURE (R333): Returns per-lane RMS level, clipped samples and noise in PROBE_HOLD. -/
  | abrMeasure (m : Mbx) (lanes : List (BitVec 48))
  /-- ABR_DOWN (R338): Takes an Abard port down. -/
  | abrDown (m : Mbx)
  /-- ABR_QUERY (R330): Writes the per-subcarrier records of a port. -/
  | abrQuery (m : Mbx)
  /-- HELLO_RX (R328): A HELLO received in ACQUIRE, after which the lower-serial end sends START. -/
  | helloRx (port : BitVec 5) (serial : BitVec 64) (peerPort : BitVec 5) (mask : BitVec 8) (far : FarEnd)
  /-- TRAINING_PHASE_END (R328): A training phase ends at its superframe count and the port moves to the next phase. -/
  | trainingPhaseEnd (port : BitVec 5) (obs : List LaneObs) (delays : DelayStamps)
  /-- ACQUIRE_TIMEOUT (R328): No HELLO within 10 s of ACQUIRE fails the port with NO_PEER. -/
  | acquireTimeout (port : BitVec 5)
  /-- SLATE_RX (R324): A received slate is decoded, CRC checked and delivered in sequence or discarded with NACK. -/
  | slateRx (port : BitVec 5) (lane : BitVec 3) (body : BitVec 5108) (crc : BitVec 32) (parity : BitVec 300)
  /-- REPLAY_TIMEOUT (R325): ACK has not advanced for 3,933 ridge ticks and the lane replays from ACK + 1. -/
  | replayTimeout (port : BitVec 5) (lane : BitVec 3)
  /-- LANE_SYNC_LOSS (R338): A lane loses sync for 4 superframes and fails, reporting its unacknowledged packets lost. -/
  | laneSyncLoss (port : BitVec 5) (lane : BitVec 3) (dark : Bool)
  /-- PORT_PACKET_BOUNDARY (R368): At a packet boundary the port's VC scheduler picks the next packet by strict priority and DWRR. -/
  | portPacketBoundary (port : BitVec 5)
  /-- FAB_WINDOW_SET (R348): Writes an outbound window entry. -/
  | fabWindowSet (m : Mbx)
  /-- FAB_WINDOW_CLEAR (R349): Clears an outbound window entry. -/
  | fabWindowClear (m : Mbx)
  /-- FAB_INWIN_SET (R350): Writes an inbound hall window. -/
  | fabInwinSet (m : Mbx)
  /-- FAB_ROUTE_SET (R344): Writes route table entries. -/
  | fabRouteSet (m : Mbx)
  /-- FAB_LEDGER_SET (R361): Gives the device its atomic ledger. -/
  | fabLedgerSet (m : Mbx)
  /-- FAB_ID_SET (R342): Assigns the device's hall number. -/
  | fabIdSet (m : Mbx)
  /-- FAB_VC_DEFAULT (R368): Sets the default VC weights. -/
  | fabVcDefault (m : Mbx)
  /-- FAB_CONFIG (R364): Sets REQ_TIMEOUT. -/
  | fabConfig (m : Mbx)
  /-- FAB_QUERY (R369): Writes the window tables and fabric counters. -/
  | fabQuery (m : Mbx)
  /-- READ (R354): A READ request arriving at its home is epoch-checked and performed. -/
  | pktRead (port : BitVec 5) (words : List (BitVec 144))
  /-- WRITE (R354): A WRITE request arriving at its home is epoch-checked, policed and performed. -/
  | pktWrite (port : BitVec 5) (words : List (BitVec 144))
  /-- ATOMIC (R362): An ATOMIC request arriving at its home meets the ledger and is applied once. -/
  | pktAtomic (port : BitVec 5) (words : List (BitVec 144))
  /-- READ_DATA (R365): A READ_DATA response completes a request and writes its data locally. -/
  | pktReadData (port : BitVec 5) (words : List (BitVec 144))
  /-- WRITE_ACK (R365): A WRITE_ACK response acknowledges a write. -/
  | pktWriteAck (port : BitVec 5) (words : List (BitVec 144))
  /-- ATOMIC_RESULT (R365): An ATOMIC_RESULT response completes an atomic. -/
  | pktAtomicResult (port : BitVec 5) (words : List (BitVec 144))
  /-- NAK (R351): A NAK response completes a request with its status. -/
  | pktNak (port : BitVec 5) (words : List (BitVec 144))
  /-- TRANSIT_FORWARD (R346): A transit device forwards a packet toward its destination. -/
  | transitForward (port : BitVec 5) (words : List (BitVec 144))
  /-- REQUEST_TIMEOUT (R364): A request without response after REQ_TIMEOUT is resent. -/
  | requestTimeout (tag : BitVec 17)
  /-- COLL_GROUP_CREATE (R371): Creates a collective group and runs the JOIN exchange. -/
  | collGroupCreate (m : Mbx)
  /-- COLL_GROUP_DESTROY (R381): Destroys a collective group. -/
  | collGroupDestroy (m : Mbx)
  /-- COLL_GROUP_QUERY (R397): Returns a group's state, SEQ and abort counts. -/
  | collGroupQuery (m : Mbx)
  /-- COLL_GROUP_REBIND (R393): Replaces a hall number in a group's rank table and rejoins. -/
  | collGroupRebind (m : Mbx)
  /-- COLL_JOB (R381): Submits a collective job from the mailbox. -/
  | collJob (m : Mbx)
  /-- ALLREDUCE (R376): Collective job reducing every rank's source into every rank's destination. -/
  | opAllreduce (die : BitVec 2)
  /-- REDUCE_SCATTER (R376): Collective job reducing and scattering slices to ranks. -/
  | opReduceScatter (die : BitVec 2)
  /-- ALLGATHER (R376): Collective job gathering every rank's source to every rank. -/
  | opAllgather (die : BitVec 2)
  /-- BROADCAST (R376): Collective job copying the root's source to every rank. -/
  | opBroadcast (die : BitVec 2)
  /-- REDUCE (R376): Collective job reducing every rank's source to the root. -/
  | opReduce (die : BitVec 2)
  /-- ALLTOALL (R376): Collective job exchanging blocks between every pair of ranks. -/
  | opAlltoall (die : BitVec 2)
  /-- BARRIER (R396): Collective job completing when every rank has arrived. -/
  | opBarrier (die : BitVec 2)
  /-- COLL_RING_STEP_SEND (R386): A collective unit sends a ring-step packet of a group holding credit. -/
  | collRingStepSend (die : BitVec 2)
  /-- COLL_DATA (R384): A received COLL_DATA packet is checked and combined or staged. -/
  | collData (port : BitVec 5) (words : List (BitVec 144))
  /-- COLL_CREDIT (R385): A received COLL_CREDIT grants staging space for a ring step. -/
  | collCredit (port : BitVec 5) (words : List (BitVec 144))
  /-- COLL_ABORT (R390): A received COLL_ABORT aborts the named operation with the carried status. -/
  | collAbort (port : BitVec 5) (words : List (BitVec 144))
  /-- BARRIER_ARRIVE (R396): A received BARRIER_ARRIVE counts a member device's arrival at rank 0's device. -/
  | barrierArrive (port : BitVec 5) (words : List (BitVec 144))
  /-- BARRIER_RELEASE (R396): A received BARRIER_RELEASE completes the barrier jobs. -/
  | barrierRelease (port : BitVec 5) (words : List (BitVec 144)) (delays : BitVec 32)
  /-- FABRIC_BARRIER_RESUME (R247): A member resumes its held start-barrier threads at a + (B − d). -/
  | fabricBarrierResume (group : BitVec 12)
  /-- COLL_JOIN (R372): A received COLL_JOIN is compared for digest and revision. -/
  | collJoin (port : BitVec 5) (words : List (BitVec 144))
  /-- COLL_JOIN_TIMEOUT (R372): JOINs incomplete after TIMEOUT fail the create with ST_COLL_TIMEOUT. -/
  | collJoinTimeout (group : BitVec 12)
  /-- COLL_PROGRESS_TIMEOUT (R391): An operation's progress timer expires and it aborts with ST_COLL_TIMEOUT. -/
  | collProgressTimeout (group : BitVec 12)
  /-- Q_BIND (R399): Binds a hardware queue to a function, egress, level, weight, class and shaper. -/
  | qBind (m : Mbx)
  /-- Q_UNBIND (R398): Unbinds a hardware queue. -/
  | qUnbind (m : Mbx)
  /-- Q_SHAPER_SET (R410): Sets a queue shaper's rate and burst. -/
  | qShaperSet (m : Mbx)
  /-- Q_CLASS_SET (R409): Sets a class shaper and its egress. -/
  | qClassSet (m : Mbx)
  /-- POLICER_SET (R411): Sets a stream or fabric-source policer. -/
  | policerSet (m : Mbx)
  /-- STIPPLE_CONFIG (R414): Configures the stipple sampler. -/
  | stippleConfig (m : Mbx)
  /-- Q_QUERY (R405): Returns a queue's binding, depth, tokens and tags. -/
  | qQuery (m : Mbx)
  /-- Q_RING_SET (R423): Gives a queue its ring and index block and clears ERROR. -/
  | qRingSet (m : Mbx)
  /-- EGRESS_DECISION (R404): An egress scheduler picks the eligible queue of the highest level with the smallest finishing tag. -/
  | egressDecision (egress : BitVec 7)
  /-- SHAPER_REFILL (R408): Every 1,024 ridge ticks shapers and policers refill and pending changes apply. -/
  | shaperRefill
  /-- STIPPLE_SAMPLE (R415): The stipple sampler latches the queue range and writes a sample. -/
  | stippleSample
  /-- Q_DOORBELL (R430): A doorbell write gives a queue its new PI or CI, or puts it in ERROR. -/
  | qDoorbell (fn : BitVec 8) (hq : BitVec 13) (v : BitVec 32)
  /-- DESCRIPTOR_FETCH (R427): Jennum fetches host descriptors and payloads ahead of a queue's head. -/
  | descriptorFetch (hq : BitVec 13) (slots : List FetchedSlot)
  /-- TO_DEVICE (R428): Host descriptor copying host memory to device memory. -/
  | descToDevice (hq : BitVec 13) (index : BitVec 32)
  /-- MESSAGE (R427): Host descriptor appending a message to a landing ring. -/
  | descMessage (hq : BitVec 13) (index : BitVec 32)
  /-- TO_HOST (R428): Host descriptor copying device memory to host memory. -/
  | descToHost (hq : BitVec 13) (index : BitVec 32)
  /-- FRAME (R425): Host descriptor sending one Ethernet frame. -/
  | descFrame (hq : BitVec 13) (index : BitVec 32)
  /-- DESC_WRITE (R407): Host descriptor sending one fabric WRITE. -/
  | descWrite (hq : BitVec 13) (index : BitVec 32)
  /-- DESCRIPTOR_COMPLETE (R428): A host descriptor completes, its slot is written and CI advances in order. -/
  | descriptorComplete (hq : BitVec 13) (index : BitVec 32)
  /-- COALESCE_TIMEOUT (R435): The first unsignalled entry waits COAL_TIME and the queue signals its vector. -/
  | coalesceTimeout (hq : BitVec 13)
  /-- DMA_READ_COMPLETION (R432): A host read completion arrives, poisoned, timed out or normal. -/
  | dmaReadCompletion (hq : BitVec 13) (index : BitVec 32) (addr : BitVec 64) (e : HostReadEnd)
  /-- ATS_INVALIDATE (R433): An ATS Invalidate Request is answered once requests using it complete. -/
  | atsInvalidate (fn : BitVec 8) (page : BitVec 52)
  /-- FN_CONFIG (R434): Sets a function's vectors and ATS share. -/
  | fnConfig (m : Mbx)
  /-- FN_SHARE_SET (R422): Sets a function's core and way share. -/
  | fnShareSet (m : Mbx)
  /-- FN_QUERY (R597): Returns a function's state and share. -/
  | fnQuery (m : Mbx)
  /-- FN_RESET (R438): Tears down a VF. -/
  | fnReset (m : Mbx)
  /-- FLR (R437): A function-level reset starts the teardown of a function. -/
  | flr (fn : BitVec 8)
  /-- VF_ENABLE_SET (R421): Setting VF Enable makes the VFs READY. -/
  | vfEnableSet (n : BitVec 8)
  /-- VF_ENABLE_CLEAR (R421): Clearing VF Enable tears down every VF. -/
  | vfEnableClear
  /-- TEARDOWN_STEP_END (R438): A teardown step ends and the next one begins. -/
  | teardownStepEnd (fn : BitVec 9)
  /-- QUIESCE_ABANDON (R438): Requests still outstanding 100 ms into quiesce are abandoned. -/
  | quiesceAbandon (fn : BitVec 9)
  /-- SCRUB_FRAME_DONE (R439): The scrubber zero-fills a scrub-pending frame and marks it free. -/
  | scrubFrameDone (f : BitVec 24)
  /-- PCIE_LINK_TRAINED (R419): The PCIe link trains, and a degraded link sets DEGRADED. -/
  | pcieLinkTrained (speed : BitVec 3) (width : BitVec 5) (flit : Bool)
  /-- PCIE_SURPRISE_DOWN (R441): Link down, Hot Reset or link disable is taken as a PF teardown. -/
  | pcieSurpriseDown
  /-- CTX_SAVE_SET (R446): Names a context's save area. -/
  | ctxSaveSet (m : Mbx)
  /-- CTX_PREEMPT (R450): Stops a context in mode 0 or mode 1. -/
  | ctxPreempt (m : Mbx)
  /-- CTX_RESUME (R453): Resumes a held context at its next window. -/
  | ctxResume (m : Mbx)
  /-- CTX_QUERY (R460): Returns a context's state and counters. -/
  | ctxQuery (m : Mbx)
  /-- IMAGE_SAVE_DONE (R452): Writing a long image completes and the context is held. -/
  | imageSaveDone (ctx : BitVec 8)
  /-- IMAGE_RESTORE_DONE (R453): Reading back a long image completes and the context resumes. -/
  | imageRestoreDone (ctx : BitVec 8)
  /-- CTX_SEED_SET (R471): Sets a context seed or the RAN seed. -/
  | ctxSeedSet (m : Mbx)
  /-- SEED_REGEN (R472): Writes the Philox words of a range of logical element indices. -/
  | seedRegen (m : Mbx)
  /-- PROOF_JOB (R467): A proof job finalises digest state blocks and computes a proof. -/
  | proofJob (die : BitVec 2)
  /-- PROOF_DONE (R470): A proof job writes its proof and retires. -/
  | proofDone (die : BitVec 2) (engine : BitVec 4)
  /-- REC_CONFIG (R473): Configures the record unit. -/
  | recConfig (m : Mbx)
  /-- REC_START (R474): Starts capture and writes a start marker. -/
  | recStart (m : Mbx)
  /-- REC_STOP (R474): Stops capture and writes a stop marker. -/
  | recStop (m : Mbx)
  /-- REPLAY_START (R478): Starts replay of a ring with a shift. -/
  | replayStart (m : Mbx)
  /-- REPLAY_STOP (R480): Ends replay. -/
  | replayStop (m : Mbx)
  /-- REPLAY_INJECT (R479): A recorded record is injected at RIDGE + SHIFT. -/
  | replayInject (geoms : List FlashGeom)
  /-- DRY_ARM (R482): Arms the drypoint. -/
  | dryArm (m : Mbx)
  /-- DRY_FIRE (R482): Fires the drypoint from the mailbox. -/
  | dryFire (m : Mbx)
  /-- DRYPOINT_SNAPSHOT (R483): At the snapshot instant every block copies its registers into shadows. -/
  | drypointSnapshot
  /-- DRY_HELD_RELEASE (R484): Writing 1 to DRY_STATUS.HELD releases the shadows and rearms. -/
  | dryHeldRelease
  /-- REC_POST_STOP (R485): The record unit stops POST × 1,024 ridge ticks after a snapshot. -/
  | recPostStop
  /-- LEASE_CONFIG (R489): Sets REQUIRED, RENEW_MS and fault manager addressing. -/
  | leaseConfig (m : Mbx)
  /-- LEASE_KEY_SET (R488): Sets the lease key. -/
  | leaseKeySet (m : Mbx)
  /-- LEASE_RELEASE (R493): Releases the lease and fences the device. -/
  | leaseRelease (m : Mbx)
  /-- FAULT_PEER_SET (R499): Writes peer epoch entries, ending requests to retired peers. -/
  | faultPeerSet (m : Mbx)
  /-- HEALTH_CONFIG (R496): Sets a health category's thresholds. -/
  | healthConfig (m : Mbx)
  /-- TAKEOVER_ARM (R504): Arms or disarms a shadow cell's takeover. -/
  | takeoverArm (m : Mbx)
  /-- WIRE_COMPAT (R506): Sets whether the older wire revision is accepted. -/
  | wireCompat (m : Mbx)
  /-- FAULT_QUERY (R597): Returns lease state, health levels and fault counters. -/
  | faultQuery (m : Mbx)
  /-- LEASE_RENEW (R489): Every RENEW_MS the lease unit sends a REQUEST. -/
  | leaseRenew
  /-- GRANT (R490): A received GRANT renews the lease or lifts the fence. -/
  | rxGrant (payload : List (BitVec 8))
  /-- REVOKE (R491): A received REVOKE for the current epoch fences the device. -/
  | rxRevoke (payload : List (BitVec 8))
  /-- LEASE_EXPIRY (R491): The ridge count reaches X and the device fences with cause EXPIRY. -/
  | leaseExpiry
  /-- FATAL_CAUSE (R493): A fatal cause arises and fences the device. -/
  | fatalCause (cause : BitVec 3)
  /-- FAULT_EVENT_FLUSH (R487): A held-back fault event code is sent with its count at the next epoch. -/
  | faultEventFlush (code : BitVec 8)
  /-- HEALTH_WINDOW_END (R496): At each whole PTP second health levels are raised or lowered. -/
  | healthWindowEnd
  /-- FENCE_NOTICE (R504): A received FENCE_NOTICE is counted and may fire an armed takeover. -/
  | fenceNotice (port : BitVec 5) (words : List (BitVec 144))
  /-- LEASE_ECHO (R503): A received LEASE_ECHO is acknowledged with ECHO_ACK. -/
  | leaseEcho (port : BitVec 5) (words : List (BitVec 144))
  /-- ECHO_ACK (R503): A received ECHO_ACK updates X_ack for that shadow. -/
  | echoAck (port : BitVec 5) (words : List (BitVec 144))
  /-- ECHO_LAPSE (R503): The ridge count reaches X_ack and mirrored cells stop. -/
  | echoLapse (hall : BitVec 14)
  /-- TAKEOVER_TIMER (R504): The ridge count reaches X_echo + 64 and the armed cell fires. -/
  | takeoverTimer (cell : BitVec 9)
  /-- MBX_CMD_PI_WRITE (R511): A write of MBX_CMD_PI advances the command ring or stops it. -/
  | mbxCmdPiWrite (fn : BitVec 8) (v : BitVec 32)
  /-- MBX_CPL_CI_WRITE (R511): A write of MBX_CPL_CI frees completion slots or stops the ring. -/
  | mbxCplCiWrite (fn : BitVec 8) (v : BitVec 32)
  /-- MBX_ENABLE (R512): Writing MBX_CTRL.EN from 0 to 1 enables the ring. -/
  | mbxEnable (fn : BitVec 8)
  /-- MBX_DISABLE (R512): Writing MBX_CTRL.EN to 0 stops acceptance. -/
  | mbxDisable (fn : BitVec 8)
  /-- MBX_DRAINED (R512): The last accepted command completes and IDLE is set. -/
  | mbxDrained (fn : BitVec 8)
  /-- COMMAND_ACCEPT (R520): Burin accepts one head command of the rings by R29 rotation. -/
  | commandAccept (heads : List Head)
  /-- COMMAND_TIMEOUT (R522): A head command waits past its TIMEOUT and completes unperformed. -/
  | commandTimeout (input : BitVec 9) (desc : BitVec 512)
  /-- MGMT_COMMAND_FRAME (R526): A management command frame is verified and accepted, answered as a repeat or dropped. -/
  | mgmtCommandFrame (port : BitVec 1) (payload : List (BitVec 8))
  /-- DEV_QUERY (R565): Returns the device identity and status. -/
  | devQuery (m : Mbx)
  /-- DEV_CFG_QUERY (R565): Returns the configuration image description. -/
  | devCfgQuery (m : Mbx)
  /-- DEV_RESET (R561): Resets the device, optionally activating staged firmware. -/
  | devReset (m : Mbx)
  /-- COMPUTE_RESET (R562): Resets the compute partition. -/
  | computeReset (m : Mbx)
  /-- FW_STAGE (R563): Stages a firmware image in the inactive slot. -/
  | fwStage (m : Mbx)
  /-- CFG_WRITE (R564): Writes a new configuration image. -/
  | cfgWrite (m : Mbx)
  /-- COOLANT_CONFIG (R548): Sets the coolant record. -/
  | coolantConfig (m : Mbx)
  /-- GOV_CONFIG (R548): Sets the governor record. -/
  | govConfig (m : Mbx)
  /-- POWER_QUERY (R548): Returns power and thermal registers. -/
  | powerQuery (m : Mbx)
  /-- TRIP_CONFIG (R548): Sets the trip record. -/
  | tripConfig (m : Mbx)
  /-- COOLANT_SAMPLE (R539): Every 1 ms the coolant thermistors are measured and converted. -/
  | coolantSample (rIn rOut : BitVec 32)
  /-- THERMAL_SAMPLE (R544): Every 2,048 ridge ticks junction and stack sensors are sampled and a trip may enter. -/
  | thermalSample (junctions hbmTemps : List (BitVec 16))
  /-- TRIP_CLEAR (R458): Sensors stay below their clear thresholds for CLEAR_HOLD and parked contexts resume. -/
  | tripClear
  /-- THERMTRIP_ASSERT (R545): 1,966,080 ridge ticks after a critical fence THERMTRIP_N is driven low. -/
  | thermtripAssert
  /-- REGULATOR_POLL (R546): The regulators are read over PMBus every 983,040 ridge ticks. -/
  | regulatorPoll (rail : BitVec 4) (ack : Bool) (milliVolt : BitVec 16) (milliAmp : BitVec 32)
  /-- PMBUS_TARGET_READ (R533): A PMBus read of VOUT_MODE or a core set point is answered. -/
  | pmbusTargetRead (command : BitVec 8)
  /-- MCTP_MESSAGE (R547): An MCTP control or PLDM message is answered. -/
  | mctpMessage (msg : List (BitVec 8))
  /-- POWER_ON_RESET_ENTER (R550): VDD_AUX falls below 1.62 V and power-on reset is entered. -/
  | powerOnResetEnter
  /-- POWER_ON_RESET_END (R550): Power-on reset ends and the ridge counter starts from 0. -/
  | powerOnResetEnd (answers : Bool) (fitted : Fitted)
  /-- CONFIG_LOAD (R557): The configuration loader checks the image or applies factory defaults. -/
  | configLoad
  /-- RAIL_LOSS (R535): A rail other than VDD_AUX falls below tolerance. -/
  | railLoss
  /-- PERST_N_ASSERT (R560): A falling edge of PERST_N fences and resets the main domain. -/
  | perstNAssert
  /-- PERST_N_RELEASE (R559): PERST_N is released and bring-up begins. -/
  | perstNRelease (testen : Bool)
  /-- HBM_READY (R559): HBM bring-up completes, HBM_READY is set and COMMAND records are applied. -/
  | hbmReady (geoms : List FlashGeom)
  /-- EXTEST (R593): JTAG instruction EXTEST, effective only while PERST_N is low. -/
  | jtagExtest
  /-- IDCODE (R593): JTAG instruction selecting the IDCODE register. -/
  | jtagIdcode
  /-- SAMPLE_PRELOAD (R593): JTAG instruction SAMPLE/PRELOAD. -/
  | jtagSamplePreload (pins cells : List Bool)
  /-- CLAMP (R593): JTAG instruction CLAMP, effective only while PERST_N is low. -/
  | jtagClamp
  /-- HIGHZ (R593): JTAG instruction HIGHZ, effective only while PERST_N is low. -/
  | jtagHighz
  /-- BYPASS (R593): JTAG instruction BYPASS, also taken by every other code. -/
  | jtagBypass (code : BitVec 8)
  /-- TAP_RESET (R593): TRST_N low resets the test logic. -/
  | tapReset
  /-- SRAM_SCRUB (R266): The spare read port of an SRAM bank reads, decodes and rewrites a word so that every SRAM word is scrubbed at least every 100 ms. -/
  | sramScrub (word : BitVec 36)
  /-- ATS_TRANSLATION_COMPLETION (R433): A Translation Completion answers a Translation Request issued on an ATS cache miss, filling the cache or completing the descriptor with ST_BAD_PARAM. -/
  | atsTranslationCompletion (fn : BitVec 8) (page phys : BitVec 52) (read write : Bool)
  /-- MGMT_PTP_FRAME_RX (R229): A PTP frame arriving on MGMT0 or MGMT1 is stamped and written as a receive record to its queue, or dropped and counted. -/
  | mgmtPtpFrameRx (port : BitVec 1) (speed : BitVec 2) (raw : BitVec 72) (frame : List (BitVec 8))
  /-- MGMT_PTP_FRAME_TX (R230): A PTP frame from a management port's PTP transmit queue is sent, with its one-step time written and its transmit stamp queued. -/
  | mgmtPtpFrameTx (port : BitVec 1) (speed : BitVec 2) (raw : BitVec 72)
deriving DecidableEq, Repr

end Sys2Proof
end

