-- ==== Sys2Proof/Decode.lean ====
section
/-!
DEFINITION. The command that a word spells by the bits of the opcode table. The table gives no row any bits: commands
reach this block as operations of its interfaces, not as words, so no word spells one.
-/
namespace Sys2Proof

/-- The command spelt by the low `nbits` bits of `w`: none, as no row of the opcode table has a bit pattern. -/
def decodeTableWord (nbits w : Nat) : Option Instr :=
  match nbits, w with
  | _, _ => none

end Sys2Proof
end

