-- ==== Sys2Proof/Machine/Bits.lean ====
section
/-!
DEFINITION. Bit fields, sign extension, byte order (R3, R5, R6, R7) and the saturating counters of R14.
-/
namespace Sys2Proof.Machine
open Sys2Proof

/-- Bits [lo + n - 1 : lo] of a natural number (R5). -/
def bitsAt (v lo n : Nat) : Nat := (v >>> lo) % 2 ^ n

/-- One bit of a natural number. -/
def bitAt (v i : Nat) : Bool := bitsAt v i 1 == 1

/-- A Boolean as bit 0. -/
def bit (b : Bool) : Nat := if b then 1 else 0

/-- The two's complement reading of the low n bits (R3). -/
def signed (n v : Nat) : Int :=
  let u := v % 2 ^ n
  if 2 * u < 2 ^ n then (u : Int) else (u : Int) - (2 ^ n : Nat)

/-- The low n bits of an integer in two's complement. -/
def unsigned (n : Nat) (i : Int) : Nat := (i % ((2 ^ n : Nat) : Int)).toNat

/-- n bytes of a number, least significant first (R6). -/
def leBytes : Nat → Nat → List Byte
  | 0, _ => []
  | n + 1, v => BitVec.ofNat 8 v :: leBytes n (v / 256)

/-- n bytes of a number, most significant first: network headers (R7) and SHA-256 words (R6). -/
def beBytes (n v : Nat) : List Byte := (leBytes n v).reverse

/-- The number a little-endian byte string spells (R6). -/
def ofLE : List Byte → Nat
  | [] => 0
  | b :: r => b.toNat + 256 * ofLE r

/-- The number a big-endian byte string spells (R7). -/
def ofBE (l : List Byte) : Nat := ofLE l.reverse

/-- The n bytes at an offset of a record; bytes past its end read 0. -/
def sliceBytes (l : List Byte) (off n : Nat) : List Byte :=
  let p := (l.drop off).take n
  p ++ List.replicate (n - p.length) 0

/-- The little-endian field of n bytes at an offset of a record (R6). -/
def fld (l : List Byte) (off n : Nat) : Nat := ofLE (sliceBytes l off n)

/-- The big-endian field of n bytes at an offset of a network header (R7). -/
def fldBE (l : List Byte) (off n : Nat) : Nat := ofBE (sliceBytes l off n)

/-- A record with a byte string placed at an offset; bytes past its end are not placed. -/
def placeBytes (l : List Byte) (off : Nat) (v : List Byte) : List Byte :=
  l.take off ++ (v ++ l.drop (off + v.length)).take (l.length - off)

/-- The record whose little-endian fields are listed as (offset, bytes, value), in n bytes. -/
def record (n : Nat) (fs : List (Nat × Nat × Nat)) : List Byte :=
  fs.foldl (fun l f => placeBytes l f.1 (leBytes f.2.1 f.2.2)) (List.replicate n 0)

/-- Whether every byte of a record outside the listed (offset, length) fields is zero (R12). -/
def onlyFields (l : List Byte) (fs : List (Nat × Nat)) : Bool :=
  (List.range l.length).all fun i =>
    fs.any (fun f => f.1 ≤ i && i < f.1 + f.2) || (l.getD i 0 == 0)

/-- A 64-bit event counter takes n more events and saturates (R14). -/
def satAdd (c : Word) (n : Nat) : Word :=
  if c.toNat + n < 2 ^ 64 then BitVec.ofNat 64 (c.toNat + n) else BitVec.allOnes 64

/-- A 64-bit event counter takes one more event (R14). -/
def satInc (c : Word) : Word := satAdd c 1

/-- A saturating count of w bits takes n more events. -/
def satNat (w c n : Nat) : Nat := min (c + n) (2 ^ w - 1)

/-- Division rounded up. -/
def ceilDiv (a b : Nat) : Nat := (a + b - 1) / b

/-- The least multiple of b at or above a. -/
def alignUp (a b : Nat) : Nat := ceilDiv a b * b

/-- The number of set bits among the low n bits. -/
def popCount (n v : Nat) : Nat := (List.range n).foldl (fun c i => c + bitsAt v i 1) 0

/-- The exclusive or of the low n bits. -/
def parity (n v : Nat) : Bool := popCount n v % 2 == 1

/-- Whether a number is a power of two between 2^lo and 2^hi. -/
def isPow2Between (lo hi v : Nat) : Bool := (List.range (hi - lo + 1)).any fun i => v == 2 ^ (lo + i)

/-- The base-two logarithm of a power of two, rounded down. -/
def ilog2 (v : Nat) : Nat := Nat.log2 v

/-- Cuts a list into pieces of n, the last one shorter if it must be. -/
def chunksAux {α : Type} (n : Nat) : Nat → List α → List (List α)
  | 0, _ => []
  | _ + 1, [] => []
  | k + 1, l => l.take n :: chunksAux n k (l.drop n)

/-- Cuts a list into pieces of n. -/
def chunks {α : Type} (n : Nat) (l : List α) : List (List α) := chunksAux n l.length l

/-- The byte-wise exclusive or of two strings of one length. -/
def xorBytes (a b : List Byte) : List Byte := List.zipWith (· ^^^ ·) a b

/-- Integer division rounded down (toward minus infinity). -/
def floorDiv (a b : Int) : Int := Int.fdiv a b

/-- Round half up: floor((2 v + 2^s) / 2^(s+1)), for a right shift by s; a shift of 0 changes nothing. -/
def roundHalfUp (v : Int) (s : Nat) : Int := if s = 0 then v else (v + 2 ^ (s - 1)) >>> s

/-- An integer clamped to n-bit two's complement. -/
def clampSigned (n : Nat) (v : Int) : Int :=
  if v > 2 ^ (n - 1) - 1 then 2 ^ (n - 1) - 1 else if v < -(2 ^ (n - 1)) then -(2 ^ (n - 1)) else v

end Sys2Proof.Machine
end

