-- ==== Sys2Proof/Machine/F64.lean ====
section
/-!
DEFINITION. IEEE binary64 arithmetic with round to nearest even, for the loop model (R540) and the bit loading (R330):
finite values as an integer times a power of two, each result rounded once.
-/
namespace Sys2Proof.Machine

/-- A finite binary64 value: m × 2^e. -/
structure F64 where
  m : Int
  e : Int
deriving DecidableEq, Repr

/-- Rounds an integer quotient n ÷ d to nearest, ties to even. -/
def divEven (n d : Nat) : Nat :=
  let q := n / d
  let r := n % d
  if 2 * r < d then q else if d < 2 * r then q + 1 else q + q % 2

/-- n ÷ d × 2^e rounded to 53 significant bits (exponents below −1,074 lose bits, as subnormals do). -/
def F64.round (n : Int) (d : Nat) (e : Int) : F64 :=
  if n = 0 ∨ d = 0 then { m := 0, e := 0 }
  else
    let a := n.natAbs
    let l : Int := (Nat.log2 a : Int) - (Nat.log2 d : Int)
    let e0 : Int := max (l - 53) (-1074 - e)
    let q := if 0 ≤ e0 then divEven a (d * 2 ^ e0.toNat) else divEven (a * 2 ^ (-e0).toNat) d
    let big := decide (2 ^ 53 < q)
    let e1 := if big then e0 + 1 else e0
    let q1 := if ¬ big then q
      else if 0 ≤ e1 then divEven a (d * 2 ^ e1.toNat) else divEven (a * 2 ^ (-e1).toNat) d
    { m := if n < 0 then -(q1 : Int) else (q1 : Int), e := e + e1 }

/-- An integer as a binary64 value. -/
def F64.ofInt (n : Int) : F64 := F64.round n 1 0

/-- The binary64 value nearest to n ÷ d. -/
def F64.ofFrac (n : Int) (d : Nat) : F64 := F64.round n d 0

/-- m × 2^(e − f), for f at most e. -/
def F64.at_ (x : F64) (f : Int) : Int := x.m * 2 ^ (x.e - f).toNat

def F64.add (x y : F64) : F64 := let f := min x.e y.e; F64.round (x.at_ f + y.at_ f) 1 f
def F64.neg (x : F64) : F64 := { x with m := -x.m }
def F64.sub (x y : F64) : F64 := x.add y.neg
def F64.mul (x y : F64) : F64 := F64.round (x.m * y.m) 1 (x.e + y.e)
def F64.div (x y : F64) : F64 :=
  F64.round (if y.m < 0 then -x.m else x.m) y.m.natAbs (x.e - y.e)
def F64.le (x y : F64) : Bool := let f := min x.e y.e; decide (x.at_ f ≤ y.at_ f)
def F64.lt (x y : F64) : Bool := let f := min x.e y.e; decide (x.at_ f < y.at_ f)
def F64.larger (x y : F64) : F64 := if x.lt y then y else x

/-- The integer at or below a value. -/
def F64.floor (x : F64) : Int := if 0 ≤ x.e then x.m * 2 ^ x.e.toNat else Int.fdiv x.m (2 ^ (-x.e).toNat)

/-- The nearest integer, halves rounded up. -/
def F64.nearest (x : F64) : Int := ((x.mul (F64.ofInt 2)).add (F64.ofInt 1)).floor / 2

/-- The bits of a finite binary64 value. -/
def F64.bits (x : F64) : BitVec 64 :=
  if x.m = 0 then 0
  else
    let a := x.m.natAbs
    let l := Nat.log2 a
    let ex : Int := (l : Int) + x.e
    let sgn := if x.m < 0 then 2 ^ 63 else 0
    if ex < -1022 then BitVec.ofNat 64 (sgn + a * 2 ^ (x.e + 1074).toNat)
    else
      let frac := (if l ≤ 52 then a * 2 ^ (52 - l) else a / 2 ^ (l - 52)) % 2 ^ 52
      BitVec.ofNat 64 (sgn + (ex + 1023).toNat * 2 ^ 52 + frac)

/-- The finite value of a bit pattern. -/
def F64.ofBits (b : BitVec 64) : F64 :=
  let v : Nat := b.toNat
  let ex : Nat := bitsAt v 52 11
  let fr : Nat := v % 2 ^ 52
  let m : Int := Int.ofNat (if ex = 0 then fr else 2 ^ 52 + fr)
  { m := if bitAt v 63 then -m else m, e := ((Nat.max ex 1 : Nat) : Int) - 1075 }

end Sys2Proof.Machine
end

