-- ==== Sys2Proof/Config.lean ====
section
/-!
DEFINITION. What an implementation fixes and what the spec leaves open: constants without a body, so that no
proof can see what they are.
-/
namespace Sys2Proof
namespace Config

/-- Free values: the n-th value of a run that the spec leaves open. Log 6 (DESIGN CHOICE). -/
opaque freeValue : Nat → BitVec 64
/-- Free bytes: byte i of the n-th byte string of a run that the spec leaves open. Log 6 (DESIGN CHOICE). -/
opaque freeByte : Nat → Nat → BitVec 8
/-- Outputs of a signal engine command that overlaps itself (R146), which the spec leaves open but repeatable: the command block,
the words read for an output, and the component. Log 29 (DEDUCED). -/
opaque overlapValue : Nat → List Nat → Nat → BitVec 64
/-- The fused 64-bit device serial (R2, `DEV_SERIAL`). Log 7 (PRESUMED). -/
opaque serial : BitVec 64

/-- exp, natural logarithm and power of binary64 values, as bit patterns: the last bit of each is the part's own (R539
to R541, R330). Log 7 (PRESUMED). -/
opaque expF64 : BitVec 64 → BitVec 64
opaque lnF64 : BitVec 64 → BitVec 64
opaque powF64 : BitVec 64 → BitVec 64 → BitVec 64

/-- The fused set point of each die (R533), reduced to the codes 30 to 50. Log 7 (PRESUMED). -/
opaque vid : Nat → BitVec 8

/-- Tables of 3GPP TS 38.212 that the spec names and does not reproduce: the shift V of an entry of base graph 1 or 2 by set index,
row and column (Tables 5.3.2-2 and 5.3.2-3), the bit of each place of the reliability order, the least reliable first
(Table 5.3.1.2-1), and the interleaver of polar input bits (Table 5.3.1.1-1). Log 7 (PRESUMED). -/
opaque baseGraph : Bool → Nat → Nat → Nat → Option Nat
opaque polarOrder : Nat → Nat
opaque polarInterleaver : Nat → Nat
/-- UCI placeholder of a coded bit of a PUSCH PDU: none, or x (false) or y (true) (38.211 clause 6.3.1.1). Log 7 (PRESUMED). -/
opaque uciPlaceholder : List (BitVec 8) → Nat → Option Bool
/-- A bin of the power delay profile of a PRACH occasion, summed over antennas and repetitions: cell record, occasion index, samples
of each antenna, preamble index and bin (R187). Log 7 (PRESUMED). -/
opaque prachPdp : List (BitVec 8) → Nat → List (List (BitVec 8)) → Nat → Nat → BitVec 32

end Config
end Sys2Proof
end

