-- ==== Sys2Proof/Machine/Ecc.lean ====
section
/-!
DEFINITION. The 144/128 code of R259 to R264: columns, encoding, syndrome decoding and poison.
-/
namespace Sys2Proof.Machine
open Sys2Proof

/-- Multiplication by α in GF(16) under z^4 + z + 1 (R259). -/
def gfDouble (a : BitVec 4) : BitVec 4 := if a.msb then (a <<< 1) ^^^ 3#4 else a <<< 1

/-- The product in GF(16) (R259). -/
def gfMul (a b : BitVec 4) : BitVec 4 :=
  (if b.getLsbD 0 then a else 0) ^^^ (if b.getLsbD 1 then gfDouble a else 0) ^^^
  (if b.getLsbD 2 then gfDouble (gfDouble a) else 0) ^^^
  (if b.getLsbD 3 then gfDouble (gfDouble (gfDouble a)) else 0)

/-- The inverse in GF(16): a^14; the inverse of 0 is never used. -/
def gfInv (a : BitVec 4) : BitVec 4 :=
  let a2 := gfMul a a
  let a4 := gfMul a2 a2
  gfMul a2 (gfMul a4 (gfMul a4 a4))

/-- A vector over GF(16): a syndrome or a column (R260). -/
abbrev Gf4 := BitVec 4 × BitVec 4 × BitVec 4 × BitVec 4

/-- The sum of two vectors. -/
def gf4Add (a b : Gf4) : Gf4 := (a.1 ^^^ b.1, a.2.1 ^^^ b.2.1, a.2.2.1 ^^^ b.2.2.1, a.2.2.2 ^^^ b.2.2.2)

/-- A vector times a symbol. -/
def gf4Scale (k : BitVec 4) (a : Gf4) : Gf4 := (gfMul k a.1, gfMul k a.2.1, gfMul k a.2.2.1, gfMul k a.2.2.2)

/-- β of R260. -/
def gfBeta : BitVec 4 := 8#4

/-- The fourth coordinate of the quadric point (1, x, y, ·) (R260). -/
def quadric (x y : BitVec 4) : BitVec 4 := gfMul x x ^^^ gfMul x y ^^^ gfMul gfBeta (gfMul y y)

/-- The column of data symbol i (R260). -/
def dataColumn (i : Nat) : Gf4 :=
  let x := BitVec.ofNat 4 (i % 16)
  let y := BitVec.ofNat 4 (2 + i / 16)
  (1#4, x, y, quadric x y)

/-- The columns of the check symbols c_0 to c_3 (R260). -/
def checkColumn (j : Nat) : Gf4 :=
  match j with
  | 0 => (1#4, 0#4, 0#4, 0#4)
  | 1 => (0#4, 0#4, 0#4, 1#4)
  | 2 => (1#4, 1#4, 0#4, 1#4)
  | _ => (1#4, 0#4, 1#4, gfBeta)

/-- Data symbol i of a 128-bit word (R259). -/
def dataSymbol (d : BitVec 128) (i : Nat) : BitVec 4 := BitVec.ofNat 4 (d.toNat >>> (4 * i))

/-- The sum of the data symbols times their columns (R261). -/
def dataSyndrome (d : BitVec 128) : Gf4 :=
  (List.range 32).foldl (fun s i => gf4Add s (gf4Scale (dataSymbol d i) (dataColumn i))) (0, 0, 0, 0)

/-- The check bits [143:128] of a data word (R261). -/
def checkBits (d : BitVec 128) : BitVec 16 :=
  let s := dataSyndrome d
  let c2 := s.2.1
  let c3 := s.2.2.1
  let c0 := s.1 ^^^ s.2.1 ^^^ s.2.2.1
  let c1 := s.2.2.2 ^^^ s.2.1 ^^^ gfMul gfBeta s.2.2.1
  c3 ++ c2 ++ c1 ++ c0

/-- The 144-bit code word whose data is d and whose check bits differ from the code's by diff (R259). -/
def codeWord (d : BitVec 128) (diff : BitVec 16) : BitVec 144 := (checkBits d ^^^ diff) ++ d

/-- The syndrome of a word whose check bits differ from the code's by diff: the code is linear (R260, R262). -/
def syndrome (diff : BitVec 16) : Gf4 :=
  (List.range 4).foldl
    (fun s j => gf4Add s (gf4Scale (BitVec.ofNat 4 (diff.toNat >>> (4 * j))) (checkColumn j))) (0, 0, 0, 0)

/-- The check difference of poison (R264). Log 9 (DEDUCED). -/
def poisonDiff : BitVec 16 := 0x1190#16

/-- What the decoder finds in a word (Table 9.4). -/
inductive EccOutcome where
  /-- No error. -/
  | clean
  /-- A single symbol error of this value in this data symbol. -/
  | dataSym (i : Nat) (e : BitVec 4)
  /-- A single symbol error in a check symbol. -/
  | checkSym
  /-- Poison. -/
  | poison
  /-- Any other syndrome. -/
  | uncorrectable
deriving DecidableEq, Repr

/-- Syndrome decoding (Table 9.4). Log 9 (DEDUCED). -/
def eccDecode (diff : BitVec 16) : EccOutcome :=
  let s := syndrome diff
  if s = (0, 0, 0, 0) then .clean
  else if s = (0, 1, 1, 0) then .poison
  else if s.1 = 0 then (if s.2.1 = 0 ∧ s.2.2.1 = 0 then .checkSym else .uncorrectable)
  else
    let k := gfInv s.1
    let x := gfMul s.2.1 k
    let y := gfMul s.2.2.1 k
    if gfMul s.2.2.2 k ≠ quadric x y then .uncorrectable
    else if y = 2 then .dataSym x.toNat s.1
    else if y = 3 then .dataSym (16 + x.toNat) s.1
    else if (x = 0 ∧ y = 0) ∨ (x = 1 ∧ y = 0) ∨ (x = 0 ∧ y = 1) then .checkSym
    else .uncorrectable

/-- A data word with the error value of one symbol removed (R263). -/
def fixSymbol (d : BitVec 128) (i : Nat) (e : BitVec 4) : BitVec 128 :=
  d ^^^ BitVec.ofNat 128 (e.toNat <<< (4 * i))

end Sys2Proof.Machine
end

