-- ==== Sys2Proof/Machine/Hash.lean ====
section
/-!
DEFINITION. SHA-256 (FIPS 180-4), HMAC-SHA-256 (FIPS 198-1) and cyclic redundancy checks, as the digests,
tags, proofs and frame checks of the block use them (R6, R128, R488, R526).
-/
namespace Sys2Proof.Machine
open Sys2Proof

abbrev W32 := BitVec 32

/-- The initial chaining value of SHA-256. -/
def shaInit : List W32 :=
  [0x6a09e667#32, 0xbb67ae85#32, 0x3c6ef372#32, 0xa54ff53a#32,
   0x510e527f#32, 0x9b05688c#32, 0x1f83d9ab#32, 0x5be0cd19#32]

/-- The round constants of SHA-256. -/
def shaK : List W32 :=
  [0x428a2f98#32, 0x71374491#32, 0xb5c0fbcf#32, 0xe9b5dba5#32, 0x3956c25b#32, 0x59f111f1#32, 0x923f82a4#32, 0xab1c5ed5#32,
   0xd807aa98#32, 0x12835b01#32, 0x243185be#32, 0x550c7dc3#32, 0x72be5d74#32, 0x80deb1fe#32, 0x9bdc06a7#32, 0xc19bf174#32,
   0xe49b69c1#32, 0xefbe4786#32, 0x0fc19dc6#32, 0x240ca1cc#32, 0x2de92c6f#32, 0x4a7484aa#32, 0x5cb0a9dc#32, 0x76f988da#32,
   0x983e5152#32, 0xa831c66d#32, 0xb00327c8#32, 0xbf597fc7#32, 0xc6e00bf3#32, 0xd5a79147#32, 0x06ca6351#32, 0x14292967#32] ++
  [0x27b70a85#32, 0x2e1b2138#32, 0x4d2c6dfc#32, 0x53380d13#32, 0x650a7354#32, 0x766a0abb#32, 0x81c2c92e#32, 0x92722c85#32,
   0xa2bfe8a1#32, 0xa81a664b#32, 0xc24b8b70#32, 0xc76c51a3#32, 0xd192e819#32, 0xd6990624#32, 0xf40e3585#32, 0x106aa070#32,
   0x19a4c116#32, 0x1e376c08#32, 0x2748774c#32, 0x34b0bcb5#32, 0x391c0cb3#32, 0x4ed8aa4a#32, 0x5b9cca4f#32, 0x682e6ff3#32,
   0x748f82ee#32, 0x78a5636f#32, 0x84c87814#32, 0x8cc70208#32, 0x90befffa#32, 0xa4506ceb#32, 0xbef9a3f7#32, 0xc67178f2#32]

/-- Extends the message schedule: the window of the last 16 words, newest first. -/
def shaSchedule : Nat → List W32 → List W32
  | 0, w => w
  | n + 1, w =>
    let g := fun i => w.getD i 0
    let s0 := (g 14).rotateRight 7 ^^^ (g 14).rotateRight 18 ^^^ ((g 14) >>> 3)
    let s1 := (g 1).rotateRight 17 ^^^ (g 1).rotateRight 19 ^^^ ((g 1) >>> 10)
    shaSchedule n ((g 15 + s0 + g 6 + s1) :: w)

/-- One round over the working variables a to h. -/
def shaRound (v : List W32) (kw : W32 × W32) : List W32 :=
  match v with
  | [a, b, c, d, e, f, g, h] =>
    let t1 := h + (e.rotateRight 6 ^^^ e.rotateRight 11 ^^^ e.rotateRight 25) + ((e &&& f) ^^^ (~~~e &&& g)) + kw.1 + kw.2
    let t2 := (a.rotateRight 2 ^^^ a.rotateRight 13 ^^^ a.rotateRight 22) + ((a &&& b) ^^^ (a &&& c) ^^^ (b &&& c))
    [t1 + t2, a, b, c, d + t1, e, f, g]
  | o => o

/-- The compression of one 64-byte block into a chaining value. -/
def shaBlock (h : List W32) (block : List Byte) : List W32 :=
  let w0 := (chunks 4 block).map fun q => BitVec.ofNat 32 (ofBE q)
  let w := (shaSchedule 48 w0.reverse).reverse
  List.zipWith (· + ·) h ((shaK.zip w).foldl shaRound h)

/-- A chaining value as bytes, each word most significant byte first (R6). -/
def shaWordsBytes (h : List W32) : List Byte := h.flatMap fun w => beBytes 4 w.toNat

/-- A chaining value read back from its bytes. -/
def shaBytesWords (b : List Byte) : List W32 := (chunks 4 (sliceBytes b 0 32)).map fun q => BitVec.ofNat 32 (ofBE q)

/-- The padding of a message of n bytes. -/
def shaPad (n : Nat) : List Byte :=
  [0x80#8] ++ List.replicate ((119 - n % 64) % 64) 0 ++ beBytes 8 (8 * n)

/-- Blocks of whole 64 bytes folded into a chaining value. -/
def shaFold (h : List W32) (m : List Byte) : List W32 := (chunks 64 m).foldl shaBlock h

/-- The SHA-256 digest of a byte string. -/
def sha256 (m : List Byte) : List Byte := shaWordsBytes (shaFold shaInit (m ++ shaPad m.length))

/-- HMAC-SHA-256 under a key of at most 64 bytes. -/
def hmac (key m : List Byte) : List Byte :=
  let k := sliceBytes key 0 64
  sha256 (k.map (· ^^^ 0x5c#8) ++ sha256 (k.map (· ^^^ 0x36#8) ++ m))

/-- The first 16 bytes of HMAC-SHA-256: the TAG of Tables 18.3 and 19.3. -/
def frameTag (key m : List Byte) : List Byte := (hmac key m).take 16

/-- One bit into a CRC register of w bits, most significant bit first. -/
def crcBit (w poly r : Nat) (b : Bool) : Nat :=
  let fb := (bitAt r (w - 1)) != b
  let r' := (2 * r) % 2 ^ w
  if fb then r' ^^^ poly else r'

/-- A CRC of a bit string, most significant bit first. -/
def crcBits (w poly init : Nat) (bs : List Bool) : Nat := bs.foldl (crcBit w poly) init

/-- The bits of a byte, most significant first. -/
def bitsMSB (b : Byte) : List Bool := (List.range 8).map fun i => bitAt b.toNat (7 - i)

/-- The bits of a byte, least significant first. -/
def bitsLSB (b : Byte) : List Bool := (List.range 8).map fun i => bitAt b.toNat i

/-- A w-bit number mirrored. -/
def reflect (w v : Nat) : Nat := (List.range w).foldl (fun a i => 2 * a + bitsAt v i 1) 0

/-- The frame check sequence of an Ethernet frame, in the order of transmission (IEEE 802.3 clause 3.2.9). Log 42 (PRESUMED). -/
def frameCheck (bs : List Byte) : List Byte :=
  let c := crcBits 32 0x04C11DB7 0xFFFFFFFF (bs.flatMap bitsLSB) ^^^ 0xFFFFFFFF
  (beBytes 4 c).map fun b => BitVec.ofNat 8 (reflect 8 b.toNat)

/-- A frame as it leaves a MAC: padded to 60 bytes, with its frame check sequence. Log 42 (PRESUMED). -/
def wireFrame (bs : List Byte) : List Byte :=
  let b := sliceBytes bs 0 (max 60 bs.length)
  b ++ frameCheck b

/-- A reflected 32-bit CRC with all-ones start and final inversion: the Ethernet FCS form. -/
def crc32Reflected (poly : Nat) (m : List Byte) : Nat :=
  reflect 32 (crcBits 32 poly 0xFFFFFFFF (m.flatMap bitsLSB)) ^^^ 0xFFFFFFFF

end Sys2Proof.Machine
end

