-- ==== Sys2Proof/Machine/Tab.lean ====
section
/-!
DEFINITION. Sparse tables: a list of (key, entry) pairs, keys strictly rising and no entry equal to the
default. Every register file, counter bank and entry table of the block that has more than a few
entries is one, so that equal contents are equal data.
-/
namespace Sys2Proof.Machine

/-- A sparse table of entries by number. -/
abbrev Tab (α : Type) := List (Nat × α)

/-- The entry of a key: the listed one, or the default of unlisted keys. -/
def Tab.get {α : Type} (d : α) : Tab α → Nat → α
  | [], _ => d
  | (i, v) :: t, k => if i = k then v else Tab.get d t k

/-- Inserts a pair before the first larger key. -/
def Tab.insert {α : Type} (k : Nat) (v : α) : Tab α → Tab α
  | [] => [(k, v)]
  | (i, w) :: t => if k < i then (k, v) :: (i, w) :: t else (i, w) :: Tab.insert k v t

/-- The table without a key. -/
def Tab.erase {α : Type} (k : Nat) : Tab α → Tab α
  | [] => []
  | (i, w) :: t => if i = k then Tab.erase k t else (i, w) :: Tab.erase k t

/-- Writes an entry; writing the default removes the key, so that the form stays canonical. -/
def Tab.set {α : Type} [DecidableEq α] (d : α) (t : Tab α) (k : Nat) (v : α) : Tab α :=
  if v = d then Tab.erase k t else Tab.insert k v (Tab.erase k t)

/-- Changes one entry by a function. -/
def Tab.upd {α : Type} [DecidableEq α] (d : α) (t : Tab α) (k : Nat) (f : α → α) : Tab α :=
  Tab.set d t k (f (Tab.get d t k))

/-- Keys strictly rising from a bound. -/
def Tab.sortedFrom {α : Type} : Nat → Tab α → Bool
  | _, [] => true
  | b, (i, _) :: t => b ≤ i && Tab.sortedFrom (i + 1) t

/-- The canonical form: keys strictly rising and no listed default. -/
def Tab.wf {α : Type} [DecidableEq α] (d : α) (t : Tab α) : Bool :=
  Tab.sortedFrom 0 t && t.all (fun e => e.2 != d)

/-- The keys that hold an entry other than the default. -/
def Tab.keys {α : Type} (t : Tab α) : List Nat := t.map Prod.fst

/-- Every listed entry changed by a function of its key. -/
def Tab.mapEntries {α : Type} [DecidableEq α] (d : α) (f : Nat → α → α) (t : Tab α) : Tab α :=
  (t.keys).foldl (fun a k => Tab.upd d a k (f k)) t

end Sys2Proof.Machine
end

