-- ==== Sys2Proof/Machine/StateCore.lean ====
section
/-!
DEFINITION. The state of the cores, their threads, engines and queues (chapters 03, 04, 05), the cluster
buffers (chapter 04) and the compute contexts (chapter 16).
-/
namespace Sys2Proof.Machine
open Sys2Proof

/-- A thread context (Table 4.1) and what it waits for. -/
structure Thread where
  /-- g1 to g31; g0 is never listed (R96). -/
  regs : Tab Word
  pc : BitVec 32
  state : BitVec 3
  pendingMask : BitVec 32
  outstanding : BitVec 7
  /-- Of those, the rack and hall requests (R132). -/
  outRemote : BitVec 7
  fault : BitVec 16
  /-- The context belongs to the live plate command and has not ended. -/
  live : Bool
  /-- Barrier it waits at (R110). -/
  barrier : Option Nat
  /-- Ridge count it waits for (R111), or the value its counter must reach (R108), or the scope of its FENCE (R132). -/
  target : Nat
  /-- The counter it waits on. -/
  waitOn : Nat
deriving DecidableEq, Repr

/-- A counter word (`CORE_CNT`). -/
structure Cnt where
  count : BitVec 32
  status : BitVec 16
  nan : Bool
  ovf : Bool
deriving DecidableEq, Repr

/-- A block-exponent register (`CORE_BEXP`). -/
structure Bexp where
  exp : BitVec 16
  headroom : BitVec 6
deriving DecidableEq, Repr

/-- What one output of an SE command is: where it goes, its components, its block, and what it read. -/
structure SeOut where
  at_ : Nat
  comps : List Int
  width : Nat
  block : Nat
  poison : Bool
  sat : Nat
  /-- A group whose D is 0 (R157). -/
  singular : Bool
  /-- Scratchpad offsets of the 4-byte elements that its computation read. -/
  reads : List Nat
deriving DecidableEq, Repr

/-- A command in an engine queue of TE0, TE1 or SE (Table 4.4). -/
structure EngCmd where
  block : BitVec 512
  /-- The command has executed and waits to retire. -/
  done : Bool
  status : Nat
  nan : Bool
  ovf : Bool
  /-- Block exponent registers to set at retirement (R149): register, change of EXP, HEADROOM. -/
  bexps : List (Nat × Int × Nat)
  /-- The command was in progress when its core was told to stop (R450, R457). -/
  underWay : Bool
  /-- Units of work done before a suspension (R81, R162): chunks of a tensor command, tiles in order; groups of outputs of an SE
  command. -/
  pos : Nat
  /-- Headroom measured before a suspension, by block; none where every output of the block so far is poisoned (R162). -/
  mins : List (Nat × Option Nat)
  /-- Outputs of a suspended SE command, of the scratchpad as the command found it (R146, R162); none of one that has not been suspended. -/
  outs : List SeOut
deriving DecidableEq, Repr

/-- A request of a stream engine entry still to be issued (R119). -/
structure MeReq where
  /-- 0 read a remote granule, 1 write one, 2 atomic, 3 device load, 4 device store, 5 a row moved inside the device. -/
  kind : Nat
  remote : Nat
  loc : Nat
  len : Nat
deriving DecidableEq, Repr

/-- An entry of a context's stream engine queue: a descriptor, an LDX or an STX (R118). -/
structure MeEntry where
  id : Nat
  block : BitVec 512
  /-- 0 descriptor, 1 LDX, 2 STX. -/
  kind : Nat
  /-- Destination register of an LDX; address and data of an LDX or STX. -/
  reg : Nat
  addr : Nat
  data : Word
  started : Bool
  todo : List MeReq
  outstanding : Nat
  /-- Requests issued so far. -/
  sent : Nat
  status : Nat
  /-- Issue number of the request whose status is held (R120). -/
  statusAt : Nat
  nan : Bool
  ovf : Bool
  /-- Block exponent register and shift to apply at retirement (R123). -/
  bexp : Option (Nat × Int)
deriving DecidableEq, Repr

/-- The plate command that is live on a core (R100). -/
structure Live where
  plate : Nat
  window : Nat
  /-- Start of the window occurrence it belongs to. -/
  start : Nat
  variant : Nat
  cell : Nat
  impression : Nat
  /-- Program offset of its start record, and of the next one (0: none). -/
  record : Nat
  next : Nat
  /-- Program section bounds of the plate are those of the plate store. -/
  loan : Bool
deriving DecidableEq, Repr

/-- A context's switch state on a core (Table 16.2). -/
structure Slot where
  cnt : Tab Cnt
  bexp : Tab Bexp
  outstanding : List (BitVec 7)
  /-- Of those, the rack and hall requests (R132, R134). -/
  outRemote : List (BitVec 7)
  faults : List (BitVec 16)
  live : Option Live
  /-- The context has no plate on the core any more: the slot stays for the requests still on their way (R134). -/
  gone : Bool
deriving DecidableEq, Repr

/-- A core. -/
structure Core where
  live : Option Live
  te0 : List EngCmd
  te1 : List EngCmd
  se : List EngCmd
  me : Tab (List MeEntry)
  cnt : Tab Cnt
  bexp : Tab Bexp
  satCnt : BitVec 64
  singCnt : BitVec 64
  resident : Option Nat
  parked : Bool
  /-- Context store slots by context (R445). -/
  slots : Tab (Option Slot)
  /-- A launched start record waits for its ways to be zeroed or its gate to open: program offset. -/
  gateHeld : Option Nat
  /-- Identifier of the next stream engine entry. -/
  nextId : Nat
deriving DecidableEq, Repr

/-- A cluster buffer way (`CB_WAY`). -/
structure Way where
  cache : Bool
  ran : Bool
  ctx : Nat
  /-- A plate claims the way, or has held it. -/
  held : Bool
deriving DecidableEq, Repr

/-- A line of a cache way (R114). -/
structure Line where
  addr : Nat
  /-- Whose request filled it. -/
  who : Nat
  data : List Byte
  poison : BitVec 16
  /-- Bytes written since the line was filled: bit b for byte b. -/
  dirty : Bool
  /-- Order of last use. -/
  used : Nat
deriving DecidableEq, Repr

/-- A compute context (chapter 16). -/
structure Ctx where
  /-- 0 idle, 1 running, 2 stopping, 3 saving, 4 held, 5 restoring, 6 parked. -/
  state : BitVec 3
  image : Bool
  image4k : BitVec 28
  saveBase : Nat
  saveLen : Nat
  /-- Mode of the pre-emption in progress, its stop ridge count and the command that waits for it. -/
  mode : Nat
  stopRidge : Nat
  /-- Ridge count from which a save or a restore in progress is complete (R452). -/
  due : Nat
  waiter : Option (Nat × Nat)
  /-- Resume asked while still stopping or saving. -/
  resumeAsked : Bool
  /-- The cores of the long image, by number. -/
  saved : Tab (Option Core)
  savedThreads : Tab Thread
  /-- Cores and ways of the image. -/
  imgCores : Nat
  imgWays : Nat
  cnt : Tab (BitVec 64)
deriving DecidableEq, Repr

/-- A job written to a job port (R252) or given by `COLL_JOB`: its 64 bytes and the requester, a context or 256 for the RAN
partition. -/
structure Job where
  block : BitVec 512
  who : Nat
  /-- The core of the thread that wrote it, and the plate command it ran. -/
  core : Nat
  live : Option Live
  /-- The input and slot of the `COLL_JOB` that gave it (R381). -/
  waiter : Option (Nat × Nat)
deriving DecidableEq, Repr

/-- A device-level request of an ME on its way to its home (R17, R118): an LDX or STX of a thread. -/
structure DevReq where
  thread : Nat
  /-- Identifier of its queue entry. -/
  id : Nat
  store : Bool
  addr : Nat
  data : Word
  who : Nat
  /-- It waits for a refresh slot to end, and has been counted (R256). -/
  stalled : Bool
deriving DecidableEq, Repr

/-- Cores, cluster buffers and contexts. -/
structure Cores where
  cores : Tab Core
  threads : Tab Thread
  ways : Tab Way
  /-- Cache lines by (cluster × 16 + way) × 2048 + set. -/
  lines : Tab (Option Line)
  /-- Order of cache uses so far. -/
  useOrder : Nat
  ctxs : Tab Ctx
  /-- Jobs waiting at the job ports of Table 9.3, in arrival order, by (address − 0xF0_0000_0000) ÷ 0x1000. -/
  jobs : Tab (List Job)
  /-- Device-level requests issued and not yet performed, oldest first. -/
  devReqs : List DevReq
deriving DecidableEq, Repr

def Thread.reset : Thread :=
  { regs := [], pc := 0, state := 0, pendingMask := 0, outstanding := 0, outRemote := 0, fault := 0, live := false,
    barrier := none, target := 0, waitOn := 0 }
/-- A command as CMD places it in its queue (R104). -/
def EngCmd.queued (block : BitVec 512) : EngCmd :=
  { block := block, done := false, status := 0, nan := false, ovf := false, bexps := [], underWay := false, pos := 0, mins := [], outs := [] }
/-- PMARK of a command (R104, R105). -/
def EngCmd.pmark (e : EngCmd) : Bool := e.block.getLsbD 14
def Cnt.reset : Cnt := { count := 0, status := 0, nan := false, ovf := false }
def Bexp.reset : Bexp := { exp := 0, headroom := 0x3F }
def Core.reset : Core :=
  { live := none, te0 := [], te1 := [], se := [], me := [], cnt := [], bexp := [], satCnt := 0, singCnt := 0,
    resident := none, parked := false, slots := [],
    gateHeld := none, nextId := 1 }
def Way.reset : Way := { cache := false, ran := false, ctx := 0, held := false }
def Ctx.reset : Ctx :=
  { state := 0, image := false, image4k := 0, saveBase := 0, saveLen := 0, mode := 0, stopRidge := 0, due := 0, waiter := none,
    resumeAsked := false, saved := [], savedThreads := [], imgCores := 0, imgWays := 0, cnt := [] }
def Cores.reset : Cores := { cores := [], threads := [], ways := [], lines := [], useOrder := 0, ctxs := [], jobs := [], devReqs := [] }

end Sys2Proof.Machine
end

