-- ==== Sys2Proof/Machine/StateFabric.lean ====
section
/-!
DEFINITION. The state of the Abard links (chapter 11), the fabric (chapter 12) and the collective units (chapter 13).
-/
namespace Sys2Proof.Machine
open Sys2Proof

/-- An outbound window entry (Table 12.8). -/
structure FabWin where
  valid : Bool
  read : Bool
  write : Bool
  atomic : Bool
  level : Nat
  owner : Nat
  device : Nat
  window : Nat
  base : Nat
  length : Nat
deriving DecidableEq, Repr

/-- An inbound hall window (R350). -/
structure InWin where
  valid : Bool
  ctx : Nat
  base : Nat
  notify : Bool
  core : Nat
  cnt : Nat
deriving DecidableEq, Repr

/-- A peer epoch entry (`FAB_PEER_EPOCH`). -/
structure Peer where
  epoch : BitVec 16
  lost : Bool
deriving DecidableEq, Repr

/-- Who waits for the response to a fabric request. -/
inductive Requester where
  /-- A stream engine entry of a thread, by its identifier, and the issue number of the request. -/
  | me (thread id n : Nat)
  /-- A piece of a transfer of the tier manager. -/
  | tier (xfer piece : Nat)
  /-- A WRITE descriptor of a host queue (R407): queue and index. -/
  | desc (hq index : Nat)
  /-- The record unit (R473). -/
  | recUnit
  /-- A mirror record of a cell (R220). -/
  | mirror (cell : Nat)
deriving DecidableEq, Repr

/-- A request tracker entry in use (R131, R364). -/
structure Track where
  req : Requester
  owner : Nat
  gen : BitVec 8
  dst : Nat
  /-- 1 READ, 2 WRITE, 3 ATOMIC. -/
  op : Nat
  vc : Nat
  level : Nat
  window : Nat
  offset : Nat
  len : Nat
  /-- Local address that READ data or an atomic's old value goes to. -/
  loc : Nat
  size : Nat
  ret : Bool
  aseq : BitVec 16
  /-- The packet as sent. -/
  words : List (BitVec 144)
  port : Nat
  /-- Its packet has left the transmit queues (R352). -/
  sent : Bool
  sentAt : Nat
  timeouts : Nat
  resent : Bool
  /-- The payload held a poisoned word. -/
  poison : Bool
  /-- Request number of the recorded or replayed context (R479). -/
  num : Nat
  /-- A replayed context's request: numbered and not sent (R480). -/
  unsent : Bool
deriving DecidableEq, Repr

/-- A packet in a port's transmit queues. -/
structure Pkt where
  vc : Nat
  rsp : Bool
  words : List (BitVec 144)
  /-- The packet is this device's own request with this tag. -/
  tag : Option Nat
  /-- The partition or context whose traffic it is, where it is one's. -/
  owner : Option Nat
deriving DecidableEq, Repr

/-- A record of the atomic ledger (R361, R362). -/
structure LedgerRec where
  valid : Bool
  aseq : BitVec 16
  status : Nat
  result : BitVec 128
deriving DecidableEq, Repr

/-- A DATA slate kept until it is acknowledged (R325). -/
structure Slate where
  seq : BitVec 12
  sop : BitVec 35
  /-- Words 0 to 34. -/
  words : List (BitVec 144)
  /-- The packets that have a word in it. -/
  pkts : List Pkt
  /-- How often it has been replayed (R326). -/
  tries : Nat
deriving DecidableEq, Repr

/-- A lane of an Abard port, both directions (R316). -/
structure Lane where
  up : Bool
  gain : BitVec 5
  /-- Bits per symbol of the transmit direction (`ABR_LANE`.BITS). -/
  bits : Nat
  /-- Still passing in the training in progress. -/
  passing : Bool
  /-- Measured by subcarrier: dark noise N_k in 2^-40 of full scale, SNR codes in 1/16 dB, and the loading of the receive
  direction: bits and fine gains in 1/8 dB. -/
  noise : List Nat
  snr : List Int
  load : List Nat
  fine : List Int
  /-- The loading table of the transmit direction, the bits of its stream that no symbol has taken yet, and the place of the
  next symbol in its superframe (R320, R321). -/
  txLoad : List Nat
  txFine : List Int
  txBits : List Bool
  txPos : Nat
  /-- SEQ of the next DATA slate, and those not yet acknowledged, oldest first. -/
  txSeq : BitVec 12
  unacked : List Slate
  /-- Words that wait for room in the replay buffer: the word, whether it begins a packet, and its packet. -/
  waiting : List (BitVec 144 × Bool × Pkt)
  /-- Ridge count of the last ACK that advanced, or of the first slate outstanding since. -/
  ackAt : Nat
  /-- Ridge count of the last replay since an ACK advanced. -/
  replayAt : Option Nat
  /-- Last SEQ delivered, whether a NACK has been sent for the slates now being discarded, and the packet being received. -/
  rxSeq : BitVec 12
  discarding : Bool
  partialPkt : List (BitVec 144)
  /-- When the transmitter is next free, and when a VC0 packet was last sent, in 1/65,536 ridge tick. -/
  freeAt : Nat
  vc0At : Option Nat
  /-- Replays in the last span of R327: ridge count and slates; and the ridge count of the last episode. -/
  replays : List (Nat × Nat)
  episode : Option Nat
deriving DecidableEq, Repr

/-- An Abard port (R328, `ABR_PORT_STATUS`, `ABR_PORT_TRAIN`). -/
structure AbrPort where
  /-- Table 11.3. -/
  state : Nat
  /-- Table 11.4. -/
  fail : Nat
  degraded : BitVec 8
  hopDelay : Nat
  bitsSum : Nat
  /-- The command's lane mask, GAP and HOLD, and the mailbox command that waits. -/
  mask : BitVec 8
  gap : Nat
  hold : Bool
  waiter : Option (Nat × Nat)
  /-- Ridge count of entering ACQUIRE, and the peer's serial and wire revision once its HELLO has come. -/
  since : Nat
  peer : Option (BitVec 64 × Nat)
  /-- The gain codes of the peer's lanes that its HELLO gave, lane 0 in the lowest five bits (R328). -/
  peerGain : BitVec 40
  lanes : Tab Lane
  /-- Packets received whole and not yet acted on. -/
  arrived : List (List (BitVec 144))
deriving DecidableEq, Repr

/-- One element of a collective: its bits, whether it is poisoned and whether a reduction made here overflowed. -/
structure Elem where
  v : Nat
  p : Bool
  o : Bool
deriving DecidableEq, Repr

/-- A rank's job in an operation (Table 13.4). -/
structure CollJob where
  rank : Nat
  die : Nat
  core : Nat
  cnt : Nat
  src : Nat
  dst : Nat
  /-- OP, TYPE, ROP, FLAGS, ROOT and COUNT as the signature takes them (R388). -/
  op : Nat
  typ : Nat
  rop : Nat
  flags : Nat
  root : Nat
  count : Nat
  waiter : Option (Nat × Nat)
  /-- A word that it wrote is poisoned (R380); NAN_OUT and OVF_OUT. -/
  poison : Bool
  nan : Bool
  ovf : Bool
deriving DecidableEq, Repr

/-- A course of an operation at a die (R383 to R385). -/
structure CollRun where
  course : Nat
  die : Nat
  /-- The device stage's partials of the die's quarter, or the elements that this device's ranks give it. -/
  base : List (Option Elem)
  /-- Next transfer to send, the next packet of it, and whether it has waited for credit. -/
  pos : Nat
  pkt : Nat
  waited : Bool
  /-- Transfers to receive for which credit has been granted. -/
  granted : Nat
  /-- Elements received, by 4,096 × transfer + packet. -/
  got : Tab (List Elem)
  /-- The results have been written. -/
  written : Bool
deriving DecidableEq, Repr

/-- An operation of a group on this device (R381, R384). -/
structure CollOp where
  seq : Nat
  jobs : List CollJob
  /-- The plate whose start barrier it is (R247). -/
  plate : Option Nat
  started : Bool
  /-- Courses opened, and those whose results are written. -/
  opened : Nat
  closed : Nat
  runs : List CollRun
  /-- Credit held by course, stage, phase, step and granting peer and die, as one number; in bytes. -/
  credit : Tab Nat
  /-- Peers and stages that have been sent the signature: 4 × hall number + stage. -/
  signed : List Nat
  /-- Ridge count of the last progress (R391). -/
  progress : Nat
  /-- BARRIER: the arrivals seen at rank 0's device, and whether this device's own has been sent. -/
  arrivals : List Nat
  arriveSent : Bool
  /-- The operation has ended with this status; its jobs complete when the context resumes (R395). -/
  ended : Option Nat
deriving DecidableEq, Repr

/-- A collective group (Table 13.1). -/
structure Group where
  owner : Nat
  key : Nat
  fast : Bool
  /-- Bytes of a course. -/
  course : Nat
  timeout : Nat
  /-- Hall number + 2^14 × die, by rank. -/
  ranks : List Nat
  /-- The group record with STAGE0 to STAGE3 zero (R372), and the staging areas. -/
  record : List (BitVec 8)
  stages : List Nat
  /-- 1 joining, 2 ready, 5 broken. -/
  state : Nat
  /-- Devices whose JOIN has come, the ridge count at which the exchange began, and the command that waits for it. -/
  joined : List Nat
  joinAt : Nat
  waiter : Option (Nat × Nat)
  /-- SEQ as the group was created or rebound, and the jobs that the rank of each die has submitted since. -/
  seq : Nat
  submitted : Tab Nat
  ops : List CollOp
  /-- Aborts recorded for ranks whose jobs have not arrived: status by SEQ. -/
  aborted : Tab Nat
  /-- Packets that came before their operation started. -/
  early : List (List (BitVec 144))
  /-- Aborts by mismatch, timeout, peer lost and other. -/
  aborts : Tab Nat
  /-- The context is switched out (R395). -/
  paused : Bool
deriving DecidableEq, Repr

/-- A COLL_JOIN received for a group that does not wait for it yet (R372). -/
structure Join where
  key : Nat
  src : Nat
  digest : Nat
  arith : Nat
deriving DecidableEq, Repr

/-- The fabric. -/
structure Fabric where
  /-- `ABR_EPOCH`.HALL_ID (R342). -/
  hall : Nat
  wins : Tab FabWin
  inwins : Tab InWin
  /-- Route table: port mask by hall number (R344). -/
  routes : Tab (BitVec 24)
  peers : Tab Peer
  reqTimeout : Nat
  /-- Default weights of VC1 to VC7 (R368), as set. -/
  vcDefault : Tab Nat
  tracks : Tab (Option Track)
  /-- Generation of a tag's last use, and the ridge count until which a freed tag is held back (R365). -/
  gens : Tab (Option (BitVec 8))
  heldBack : Tab Nat
  /-- Next ASEQ by destination (R360). -/
  aseqs : Tab (BitVec 16)
  /-- The ledger: first frame, slots, and the source that holds each slot (R361). -/
  ledgerBase : Nat
  ledgerSlots : Nat
  ledgerOwners : Tab (Option Nat)
  ledger : Tab LedgerRec
  /-- Transmit queues by 16 × port + 2 × VC + (1 for requests), and deficits by 8 × port + VC (R347, R368). -/
  queues : Tab (List Pkt)
  deficits : Tab Nat
  /-- EV_STORE_RACE by owner of the frame. -/
  evStoreRace : Tab (BitVec 64)
  cnt : Tab (BitVec 64)
  ports : Tab AbrPort
  /-- Lane counters by 16 × (8 × port + lane) + index (Table 11.8), and EV_LINK_RETRY by owner (R326). -/
  laneCnt : Tab (BitVec 64)
  evLinkRetry : Tab (BitVec 64)
  /-- Collective counters by 16 × die + index (Table 13.10). -/
  collCnt : Tab (BitVec 64)
  groups : Tab (Option Group)
  joins : List Join
  /-- Start barriers that have been released: group, plate, and the instant of R247 in 1/256 ridge tick. -/
  releases : List (Nat × Nat × Nat)
deriving DecidableEq, Repr

def FabWin.reset : FabWin :=
  { valid := false, read := false, write := false, atomic := false, level := 0, owner := 0, device := 0, window := 0, base := 0,
    length := 0 }
def InWin.reset : InWin := { valid := false, ctx := 0, base := 0, notify := false, core := 0, cnt := 0 }
/-- After reset every peer is lost with epoch 0 (`FAB_PEER_EPOCH`). -/
def Peer.reset : Peer := { epoch := 0, lost := true }
def LedgerRec.reset : LedgerRec := { valid := false, aseq := 0, status := 0, result := 0 }
/-- Default weights after power-on reset: 1 for VC2 to VC7, 0 for VC1 (R368). -/
def vcResetWeight (v : Nat) : Nat := if 2 ≤ v ∧ v ≤ 7 then 1 else 0
/-- A lane before training; no SEQ has been delivered. -/
def Lane.reset : Lane :=
  { up := false, gain := 16, bits := 0, passing := false, noise := [], snr := [], load := [], fine := [], txLoad := [], txFine := [], txBits := [],
    txPos := 0, txSeq := 0, unacked := [],
    waiting := [], ackAt := 0, replayAt := none, rxSeq := 0xFFF, discarding := false, partialPkt := [], freeAt := 0,
    vc0At := none, replays := [], episode := none }
def AbrPort.reset : AbrPort :=
  { state := 0, fail := 0, degraded := 0, hopDelay := 0, bitsSum := 0, mask := 0, gap := 0, hold := false, waiter := none, since := 0,
    peer := none, peerGain := 0, lanes := [], arrived := [] }
/-- The port is UP (Table 11.3). -/
def AbrPort.up (p : AbrPort) : Bool := p.state == 7
def Fabric.reset : Fabric := 
  { hall := 0, wins := [], inwins := [], routes := [], peers := [], reqTimeout := 393216, vcDefault := [], tracks := [],
    gens := [], heldBack := [], aseqs := [], ledgerBase := 0, ledgerSlots := 0, ledgerOwners := [], ledger := [],
    queues := [], deficits := [], evStoreRace := [], cnt := [], ports := [], laneCnt := [], evLinkRetry := [], collCnt := [], groups := [],
    joins := [], releases := [] }

end Sys2Proof.Machine
end

