-- ==== Sys2Proof/Machine/StateOut.lean ====
section
/-!
DEFINITION. What leaves the block: writes to host memory, interrupt messages, frames, packets and serial
words, in the order they are sent. The list is the model's own record of its outputs.
-/
namespace Sys2Proof.Machine
open Sys2Proof

/-- A subcarrier of a DMT symbol (R320): the levels of its two axes, three times the mean power of its constellation, so that
the level over the root of a third of it has unit average power, and its fine gain in 1/8 dB. -/
structure Carrier where
  i : Int
  q : Int
  power : Nat
  gain : Int
deriving DecidableEq, Repr

/-- A subcarrier that carries nothing. -/
def Carrier.none : Carrier := { i := 0, q := 0, power := 0, gain := 0 }

/-- One thing the block sends to the world outside it. Log 5 (DESIGN CHOICE). -/
inductive Output where
  /-- A DMA write of a function to a host address; `ep` marks the TLP poisoned (R432). -/
  | hostWrite (fn addr : Nat) (bytes : List Byte) (ep : Bool)
  /-- A DMA read request of a function. -/
  | hostRead (fn addr len : Nat)
  /-- A DMA write and a DMA read request at an address that ATS translated (R433). -/
  | translatedWrite (fn addr : Nat) (bytes : List Byte) (ep : Bool)
  | translatedRead (fn addr len : Nat)
  /-- A report through AER, by the bit of `FN_ERR` that the error sets (R432). -/
  | aer (fn : Nat) (err : BitVec 5)
  /-- An ATS Translation Request (R433). -/
  | atsRequest (fn page : Nat)
  /-- The answer to an ATS Invalidate Request (R433). -/
  | atsInvalidated (fn page : Nat)
  /-- An MSI-X message (R435). -/
  | msix (fn vec addr data : Nat)
  /-- A frame on MGMT0 or MGMT1: destination address, VLAN field and payload. -/
  | mgmtFrame (port : Nat) (dst : Nat) (vlan : Nat) (payload : List Byte)
  /-- An Ethernet frame on a fronthaul port, destination address first, with its FCS. -/
  | fhFrame (port : Nat) (bytes : List Byte)
  /-- A PTP frame with its corrected transmit stamp and its FCS. -/
  | ptpFrame (port : Nat) (bytes : List Byte)
  /-- The payload of a slate's codeword on a lane of an Abard port. -/
  | slate (port lane : Nat) (bytes : List Byte)
  /-- A DMT symbol of a lane: what subcarriers 0 to 255 carry (R319 to R321). -/
  | symbol (port lane : Nat) (carriers : List Carrier)
  /-- Link training messages of an Abard port. -/
  | training (port : Nat) (bytes : List Byte)
  /-- The steering word of R239. -/
  | steer (w : BitVec 64)
  /-- An answer on the SMBus or PMBus. -/
  | smbus (bytes : List Byte)
  /-- A Completion with Unsupported Request status. -/
  | unsupported (fn : Nat)
  /-- Configuration Request Retry Status (R421, R437, R559). -/
  | configRetry (fn : Nat)
  /-- The data register that the test access port selects, as it is captured: its value and its bits (R593). -/
  | testData (value bits : Nat)
  /-- The pins of the boundary-scan chain are driven from its cells, or not driven at all (R593). -/
  | testPins (cells : Option (List Bool))
  /-- Data of a read of a register with a row of its own. -/
  | readData (fn : Nat) (value : Nat) (bits : Nat)
deriving DecidableEq, Repr

end Sys2Proof.Machine
end

