-- ==== Sys2Proof/Machine/StateHost.lean ====
section
/-!
DEFINITION. The state of the mailbox (chapter 19), the host interface (chapters 15, 22) and the hardware
queues, shapers, policers and sampler (chapter 14).
-/
namespace Sys2Proof.Machine
open Sys2Proof

/-- An accepted command not yet completed: where and how its completion is written (R514, R517). -/
structure Inflight where
  slot : Nat
  intr : Bool
  resAddr : Nat
  /-- Room at RESULT_ADDR in bytes. -/
  resLen : Nat
  /-- Ridge count of acceptance (R474). -/
  since : Nat
  /-- The device itself runs the command: its completion is kept and not sent (R479, R558). -/
  silent : Bool
  /-- Its opcode (R562, R565). -/
  opcode : Nat
deriving DecidableEq, Repr

/-- The mailbox rings of one function (R510 to R512, R530). -/
structure MbxRing where
  /-- `MBX_CMD_RING` and `MBX_CPL_RING` as last written. -/
  cmdRing : BitVec 64
  cplRing : BitVec 64
  /-- The ring registers in force since the last enable (R512). -/
  cmdBase : Nat
  cmdLog : Nat
  cplBase : Nat
  cplLog : Nat
  en : Bool
  err : BitVec 16
  cmdPI : BitVec 32
  cplCI : BitVec 32
  cplPI : BitVec 32
  /-- Commands taken from the ring (MBX_STATUS.CMD_CI shows it modulo 2^24). -/
  cmdCI : BitVec 32
  /-- Accepted commands not yet completed. -/
  inflight : List Inflight
  /-- An enable written before IDLE waits for it (R512). -/
  enablePending : Bool
  /-- No completion has been written since the host last advanced `MBX_CPL_CI` (R519). -/
  firstSinceCI : Bool
  /-- A doorbell written with EN to 0 is kept for the next enable (Table 19.19). -/
  keptPI : Option (BitVec 32)
  /-- The ridge count at which the present head command first waited (R522). -/
  headSince : Option Nat
deriving DecidableEq, Repr

/-- A completed or running command of the management ring (R526). -/
structure MgmtSeen where
  mseq : Nat
  /-- The cached completion payload, once it has completed. -/
  reply : Option (List Byte)
deriving DecidableEq, Repr

/-- A command of the management ring accepted from a frame and waiting for Burin (R526). -/
structure MgmtCmd where
  mseq : Nat
  desc : BitVec 512
  data : List Byte
deriving DecidableEq, Repr

/-- The mailbox. -/
structure Mailbox where
  rings : Tab MbxRing
  /-- The last 64 MSEQs accepted on the management ring, newest first. -/
  seen : List MgmtSeen
  lastMseq : Option Nat
  mgmtWaiting : List MgmtCmd
  /-- Ridge count since which the head of the management ring waits. -/
  mgmtHeadSince : Option Nat
  mgmtInflight : List Inflight
  /-- Root cycle of the last acceptance (R520). -/
  lastAccept : Option Nat
  /-- Status of the last command that the device itself ran (R558). -/
  silentStatus : Nat
  mgmtCnt : Tab (BitVec 64)
deriving DecidableEq, Repr

/-- One MSI-X table entry with its pending bit (R434, R435). -/
structure Msix where
  addr : BitVec 64
  data : BitVec 32
  masked : Bool
  pending : Bool
deriving DecidableEq, Repr

/-- A PCIe function (R420 to R422, R443). -/
structure Fn where
  /-- 0 ABSENT, 1 READY, 2 TEARDOWN. -/
  state : Nat
  step : Nat
  bme : Bool
  atsEn : Bool
  vectors : Nat
  atcShare : Nat
  mbxVector : Nat
  errVector : Nat
  coreMask : BitVec 512
  /-- Way masks of the share: way w of cluster c is bit 16 c + w. -/
  wayMask : BitVec 1024
  /-- `FN_ERR` [4:0]. -/
  err : BitVec 5
  /-- Ridge count at which the teardown step in progress began. -/
  tdStart : Nat
  /-- Mailbox commands waiting for the teardown: (input, slot). -/
  tdWaiters : List (Nat × Nat)
deriving DecidableEq, Repr

/-- A cached address translation (R433). -/
structure Atc where
  fn : Nat
  page : Nat
  phys : Nat
  read : Bool
  write : Bool
deriving DecidableEq, Repr

/-- A non-posted host read that has been sent and not yet completed (R418, R432). -/
structure HostReadReq where
  fn : Nat
  hq : Nat
  /-- Descriptor index the read belongs to. -/
  index : Nat
  addr : Nat
  len : Nat
  /-- Where in device memory its data goes. -/
  target : Nat
deriving DecidableEq, Repr

/-- The host interface. -/
structure HostIf where
  linkUp : Bool
  linkFlit : Bool
  linkDegraded : Bool
  linkSpeed : Nat
  linkWidth : Nat
  vfEnable : Bool
  numVFs : Nat
  fns : Tab Fn
  msix : Tab Msix
  atc : List Atc
  /-- Translation Requests sent and not answered: (function, page). -/
  atsPending : List (Nat × Nat)
  /-- Invalidations waiting for requests that use the translation: (function, page) (R433). -/
  invPending : List (Nat × Nat)
  reads : List HostReadReq
  cnt : Tab (BitVec 64)
  /-- Held low halves of 64-bit registers, by function × 2^28 + offset (R8). -/
  lowHeld : Tab (Option (BitVec 32))
  /-- Latched high halves of 64-bit registers, by function × 2^28 + offset (R8). -/
  highLatch : Tab (BitVec 32)
  /-- The batten of the last MSI-X message or mailbox completion write, how many were sent in it, and those that wait for a
  later one, oldest first (R436). -/
  msgBatten : Nat
  msgCount : Nat
  msgWait : List Output
deriving DecidableEq, Repr

/-- A host descriptor fetched ahead of its queue's head (R425, R427). -/
structure QDesc where
  index : Nat
  op : Nat
  intr : Bool
  order : Bool
  len : Nat
  host : Nat
  target : Nat
  /-- The payload staged with a FRAME or WRITE. -/
  payload : List Byte
  /-- 0 fetched, 1 in progress, 2 completed, 3 completed and written back. -/
  phase : Nat
  /-- Bytes already served of a descriptor of more than 4,096 bytes, and bytes of it already asked of the host. -/
  served : Nat
  asked : Nat
  /-- Device offset a MESSAGE was given in its landing ring. -/
  landAt : Nat
  /-- Worst status so far. -/
  status : Nat
deriving DecidableEq, Repr

/-- A record waiting to be written to a device-produced queue (R429); `owner` names the counter of a drop. -/
structure QRecord where
  bytes : List Byte
  poison : Bool
  /-- 0 uplink delivery (R182), 1 exception (R199), 2 PTP (R229), 3 sequence completion (R310). -/
  owner : Nat
  /-- What the owner's drop counter is indexed by (cell, port, context). -/
  owned : Nat
deriving DecidableEq, Repr

/-- A hardware queue: binding (Table 14.2), shaper (R408), tags (R405) and ring (Table 15.3). -/
structure Queue where
  en : Bool
  fn : Nat
  level : Nat
  ran : Bool
  egress : Nat
  weight : Nat
  cls : Nat
  rate : Nat
  burst : Nat
  tokens : Nat
  /-- RATE and BURST that the next refill applies (R410). -/
  change : Option (Nat × Nat)
  tagged : Bool
  tagS : Nat
  tagF : Nat
  fPrev : Nat
  /-- The queue stayed backlogged when its previous entry was sent. -/
  stayed : Bool
  /-- A shaper held the head and a refill has released it (R405). -/
  released : Bool
  held : Bool
  classHeld : Bool
  hasRing : Bool
  /-- 0 host-produced, 1 device-produced. -/
  producer : Nat
  logSlots : Nat
  ring : Nat
  index : Nat
  land : Nat
  landSize : Nat
  vector : Nat
  coalCount : Nat
  coalTime : Nat
  pi : BitVec 32
  ci : BitVec 32
  error : BitVec 16
  /-- Next descriptor index to fetch. -/
  fetchAt : Nat
  /-- Finishing tag of the queue's last fetch at egress 81 (R427). -/
  fetchF : Nat
  /-- Start and finishing tags of the queue's next fetch at egress 81, of a descriptor alone (R427). -/
  fetchTag : Option (Nat × Nat)
  descs : List QDesc
  records : List QRecord
  unsignalled : Nat
  firstUnsignalled : Nat
  /-- Ridge counts at which the entries counted in DEPTH were counted: (entries, ridge), oldest first. -/
  counted : List (Nat × Nat)
  /-- A descriptor completed since the function last wrote the ring's doorbell (FN_INTR.QUEUE). -/
  completedSince : Bool
  /-- The index block waits for a translation to be written (R431, R433). -/
  indexDue : Bool
  bytesSent : BitVec 64
  entriesSent : BitVec 64
deriving DecidableEq, Repr

/-- A shaper class (R409). -/
structure QClass where
  en : Bool
  egress : Nat
  rate : Nat
  burst : Nat
  tokens : Nat
  change : Option (Bool × Nat × Nat)
deriving DecidableEq, Repr

/-- A single-rate policer (R411). -/
structure Policer where
  en : Bool
  cir : Nat
  cbs : Nat
  tokens : Nat
  change : Option (Bool × Nat × Nat)
deriving DecidableEq, Repr

/-- The stipple sampler (R414 to R416). -/
structure Stipple where
  en : Bool
  n : Nat
  first : Nat
  count : Nat
  base : Nat
  size : Nat
  wp : Nat
  rp : Nat
  seq : Nat
  lost : Nat
  /-- Bytes of the ring that hold samples not yet read (R416). -/
  used : Nat
  /-- The ridge count at which the last sample was taken. -/
  last : Option Nat
deriving DecidableEq, Repr

/-- Queues, shapers, policers and sampler. -/
structure Traffic where
  queues : Tab Queue
  /-- Virtual time by 4 × egress + level. -/
  vtime : Tab Nat
  classes : Tab QClass
  /-- Policers: fronthaul stream n at n, fabric source h at 8192 + h. -/
  policers : Tab Policer
  stipple : Stipple
  cnt : Tab (BitVec 64)
  /-- Ridge count of the last refill (R408). -/
  lastRefill : Option Nat
deriving DecidableEq, Repr

def MbxRing.reset : MbxRing :=
  { cmdRing := 4, cplRing := 4, cmdBase := 0, cmdLog := 4, cplBase := 0, cplLog := 4, en := false, err := 0,
    cmdPI := 0, cplCI := 0, cplPI := 0, cmdCI := 0, inflight := [], enablePending := false, firstSinceCI := true,
    keptPI := none, headSince := none }

def Mailbox.reset : Mailbox :=
  { rings := [], seen := [], lastMseq := none, mgmtWaiting := [], mgmtHeadSince := none, mgmtInflight := [], lastAccept := none, silentStatus := 0, mgmtCnt := [] }

/-- After reset every vector is masked and none is pending. -/
def Msix.reset : Msix := { addr := 0, data := 0, masked := true, pending := false }

/-- A VF before it is set up: ABSENT, 16 vectors, 32 ATS entries, an empty share (Table 15.1 registers). Log 16 (DEDUCED). -/
def Fn.vf : Fn :=
  { state := 0, step := 0, bme := false, atsEn := false, vectors := 16, atcShare := 32, mbxVector := 0, errVector := 0,
    coreMask := 0, wayMask := 0, err := 0, tdStart := 0, tdWaiters := [] }

/-- The PF: READY with 2,048 vectors. Log 16 (DEDUCED). -/
def Fn.pf : Fn := { Fn.vf with state := 1, vectors := 2048 }

/-- The reset entry of each function. -/
def fnDefault (n : Nat) : Fn := if n = 0 then Fn.pf else Fn.vf

def HostIf.reset : HostIf :=
  { linkUp := false, linkFlit := false, linkDegraded := false, linkSpeed := 0, linkWidth := 0, vfEnable := false,
    numVFs := 0, fns := [], msix := [], atc := [], atsPending := [], invPending := [], reads := [], cnt := [], lowHeld := [],
    highLatch := [], msgBatten := 0, msgCount := 0, msgWait := [] }

def Queue.reset : Queue :=
  { en := false, fn := 0, level := 0, ran := false, egress := 0xFF, weight := 1, cls := 0xFFFF, rate := 0, burst := 0,
    tokens := 0, change := none, tagged := false, tagS := 0, tagF := 0, fPrev := 0, stayed := false, released := false, held := false,
    classHeld := false, hasRing := false, producer := 0, logSlots := 0, ring := 0, index := 0, land := 0, landSize := 0,
    vector := 0xFFFF, coalCount := 0, coalTime := 0, pi := 0, ci := 0, error := 0, fetchAt := 0, fetchF := 0, fetchTag := none, descs := [],
    records := [], unsignalled := 0, firstUnsignalled := 0, counted := [], completedSince := false, indexDue := false, bytesSent := 0,
    entriesSent := 0 }

def QClass.reset : QClass := { en := false, egress := 0, rate := 0, burst := 0, tokens := 0, change := none }
def Policer.reset : Policer := { en := false, cir := 0, cbs := 0, tokens := 0, change := none }
def Stipple.reset : Stipple :=
  { en := false, n := 0, first := 0, count := 0, base := 0, size := 0, wp := 0, rp := 0, seq := 0, lost := 0, used := 0,
    last := none }
def Traffic.reset : Traffic :=
  { queues := [], vtime := [], classes := [], policers := [], stipple := Stipple.reset, cnt := [], lastRefill := none }

end Sys2Proof.Machine
end

