-- ==== Sys2Proof/Machine/StateMem.lean ====
section
/-!
DEFINITION. The state of device memory and the memory tiers (chapter 09 of the spec).
-/
namespace Sys2Proof.Machine
open Sys2Proof

/-- Device memory: stored data bytes by device address, and per 16-byte word the difference between its
stored check bits and those its data encodes to (R259). An unlisted byte reads 0 and an unlisted word
has valid check bits, as zero-filling leaves them (R27, R559). -/
structure Mem where
  bytes : List Host.Cell
  diff : Tab (BitVec 16)
deriving DecidableEq, Repr

/-- An entry of the frame table (R267). -/
structure Frame where
  /-- 0-255 compute context, 256 RAN, 257 device, 258 lent, 259 free. -/
  owner : Nat
  /-- Sectors written while tracked. -/
  dirty : BitVec 16
  /-- The frame holds a tier page. -/
  track : Bool
deriving DecidableEq, Repr

/-- Limit and usage of a context in one tier (R269). -/
structure Quota where
  limit : Nat
  usage : Nat
deriving DecidableEq, Repr

/-- A `MEM_ALLOC` range of a context (R268). -/
structure Range where
  ctx : Nat
  base : Nat
  len : Nat
deriving DecidableEq, Repr

/-- A tier region (R270). `busy` is 1 while a commit and 2 while a discard of it is pending (Table 9.8). -/
structure Region where
  ctx : Nat
  firstTpn : Nat
  count : Nat
  /-- 0 HBM, 1 rack-remote, 2 flash. -/
  home : Nat
  step : Bool
  generation : BitVec 64
  /-- First lender offset of a rack-remote home area, and the lender's hall number. -/
  homeBase : Nat
  lender : Nat
  busy : Nat
deriving DecidableEq, Repr

/-- A tier directory entry (Table 9.6). -/
structure Page where
  /-- Table 9.7: 0 EMPTY, 1 HOME, 2 FETCHING, 3 CLEAN, 4 DIRTY, 5 WRITING. -/
  state : Nat
  home : Nat
  step : Bool
  slot : Bool
  pin : Nat
  poison : BitVec 16
  frame : Nat
  homeLoc : Nat
  /-- Home of the slot being written by a commit, and the sectors being written home. -/
  newLoc : Nat
  mask : BitVec 16
  /-- Nothing has been written to the page's home yet: it reads as zeros (R271, R277). -/
  wasEmpty : Bool
  /-- The batten in which the last of its copy in progress passes under PACE (R274, R294). -/
  due : Nat
deriving DecidableEq, Repr

/-- A tier cache pool (R274). -/
structure Pool where
  base : Nat
  frames : Nat
  lowWater : Nat
  pace : Nat
deriving DecidableEq, Repr

/-- A range of another device's HBM attached to rack-remote capacity (R269). -/
structure Remote where
  lender : Nat
  window : Nat
  offset : Nat
  len : Nat
deriving DecidableEq, Repr

/-- A tier job in its context's queue or in progress (Table 9.9). -/
structure TierJob where
  ctx : Nat
  op : Nat
  pin : Bool
  core : Nat
  cnt : Nat
  /-- The TPNs or region identifiers of its list, and those still to complete. -/
  list : List Nat
  todo : List Nat
  /-- FETCH: where the frame numbers go. -/
  result : Nat
  /-- First status other than ST_OK so far. -/
  status : Nat
  /-- Status of the first page that a commit could not bring to its new home, or ST_OK (R276). -/
  failed : Nat
  /-- The batten in which the last of the traffic for its list or result passes under PACE (R274). -/
  due : Nat
  /-- The mailbox input and slot that wait for it, for a job of the host. -/
  waiter : Option (Nat × Nat)
  started : Bool
  /-- Commits: 0 pages, 1 maps, 2 headers, 3 done. Fetches: 0, and 3 once the result has been written. -/
  phase : Nat
deriving DecidableEq, Repr

/-- Fabric transfers of the tier manager in progress: pieces of at most 256 bytes in order. -/
structure Xfer where
  /-- 0 page read, 1 sectors written home, 2 page written to its other slot, 3 sectors read back, 4 home area zeroed,
  5 map written, 6 header written, 7 header read, 8 map read, 9 an image written, 10 an image read. -/
  kind : Nat
  ctx : Nat
  /-- TPN, region identifier, or number of an adoption. -/
  subject : Nat
  /-- Lender hall number and first lender offset. -/
  lender : Nat
  base : Nat
  /-- Sectors concerned (kinds 1 and 3). -/
  sectors : Nat
  next : Nat
  count : Nat
  outstanding : Nat
  status : Nat
  /-- Sectors that carried a poisoned word. -/
  poison : Nat
  /-- What kinds 7, 8 and 10 have read, by piece; the image of kind 9 at 0. -/
  buf : Tab (List Byte)
deriving DecidableEq, Repr

/-- A `TIER_REGION_ADOPT` in progress (R501). -/
structure Adopt where
  number : Nat
  input : Nat
  slot : Nat
  ctx : Nat
  lender : Nat
  offset : Nat
  pages : Nat
  firstTpn : Nat
  expected : Nat
  generation : Nat
deriving DecidableEq, Repr

/-- A write-back of one sector in progress (R275). -/
structure SectorCopy where
  ctx : Nat
  tpn : Nat
  sector : Nat
deriving DecidableEq, Repr

/-- A programmed or open flash stripe: 16 KiB of data and the check differences of its words (R280). -/
structure Stripe where
  data : List Byte
  diff : List (BitVec 16)
  /-- The flash code of the stripe fails. -/
  failed : Bool
  live : Bool
deriving DecidableEq, Repr

/-- The flash tier (R279 to R283). -/
structure Flash where
  present : Bool
  formatted : Bool
  /-- Data capacity in bytes. -/
  capacity : Nat
  /-- Rows of one block set. -/
  rowsPerSet : Nat
  sets : Nat
  /-- Stripes by log stripe index. -/
  stripes : Tab Stripe
  /-- Parity stripes by 2 × row + group (R281). -/
  parity : Tab Stripe
  /-- Next log stripe index to write, in the open row. -/
  head : Nat
  /-- Rows programmed since their block set was erased. -/
  written : Tab Bool
  /-- A commit waits for the open row to be programmed. -/
  flush : Bool
  /-- Block sets that pages have left, with the rows these went to: such a set is not erased before those rows are programmed (R282). -/
  moves : List (Nat × Nat)
  cnt : Tab (BitVec 64)
deriving DecidableEq, Repr

/-- A `MEM_ALLOC` that waits for the scrub of its range: its command and the range (R439). -/
structure AllocWait where
  input : Nat
  slot : Nat
  ctx : Nat
  base : Nat
  len : Nat
deriving DecidableEq, Repr

/-- A gate of a thatch schedule (R293, R295). -/
structure Gate where
  off : Nat
  isOpen : Bool
deriving DecidableEq, Repr

/-- An entry of a thatch schedule (Table 10.2) and how far it has come. -/
structure ThatchEntry where
  gate : Nat
  die : Nat
  mode : Nat
  first : Nat
  count : Nat
  latest : Nat
  dst : Nat
  /-- Blocks asked for so far, the TPNs of those whose fetch is in progress, and the pages it has pinned. -/
  served : Nat
  waiting : List Nat
  pins : List Nat
  /-- The batten in which its copy to DST passes under PACE, once it has been made. -/
  copying : Option Nat
  landed : Bool
deriving DecidableEq, Repr

/-- An active thatch schedule (R292). -/
structure Thatch where
  ctx : Nat
  plate : Nat
  /-- Ridge count of the occurrence's start that names the impression, and of the compute window it now runs in. -/
  start : Nat
  windowStart : Nat
  wset : Nat
  dist : Nat
  pace : Nat
  /-- Dies whose engine a BEGIN of the impression has reached. -/
  dies : List Nat
  gates : List Gate
  entries : List ThatchEntry
  /-- Dies whose engine had a fetch refused for lack of frames: it waits for the next unpin in the context (R298). -/
  retry : List Nat
  /-- Bytes placed on each channel, where batten b begins at b × `pace` (R294). -/
  paced : Tab Nat
  /-- A status that ends the impression at its next command boundary (R298). -/
  status : Nat
deriving DecidableEq, Repr

/-- A weight set (R285 to R288). -/
structure WeightSet where
  ctx : Nat
  region : Nat
  blocks : Nat
  home : Nat
  /-- Its leaf table's range, 32 bytes per block. -/
  leafBase : Nat
  leafLen : Nat
  root : List Byte
deriving DecidableEq, Repr

/-- A weight command that waits for its blocks to reach their home, or to be read from it. -/
structure WeightWait where
  input : Nat
  slot : Nat
  set : Nat
  /-- 0 installation, 1 repair, 2 verification, 3 removal. -/
  kind : Nat
  first : Nat
  count : Nat
  /-- The root expected of an installation, if one is. -/
  expected : List Byte
  out : Nat
  /-- Number of its transfer, or 0. -/
  xfer : Nat
deriving DecidableEq, Repr

/-- A row of a manifest (R309). -/
structure SeqRow where
  seq : Nat
  nNew : Nat
  joined : Bool
  /-- Blocks that its join was granted, and nodes, to undo it (R312). -/
  blocks : List Nat
  nodes : List Nat
deriving DecidableEq, Repr

/-- Blocks and nodes of a sequence that left for want of a block: they return at the next boundary (R307). -/
structure HeldBlocks where
  region : Nat
  blocks : List Nat
  nodes : List Nat
deriving DecidableEq, Repr

/-- A page fetch that a manifest waits for (R308), by page key; 0xFFFF while it is in progress. -/
structure SeqWait where
  key : Nat
  seq : Nat
  status : Nat
deriving DecidableEq, Repr

/-- A batch queue (Table 10.5). -/
structure BatchQ where
  plate : Nat
  wset : Nat
  t : Nat
  ppb : Nat
  pool0 : Option Nat
  pool1 : Option Nat
  pool2 : Option Nat
  nodes : Nat
  nodeCount : Nat
  maxRows : Nat
  budget : Nat
  reserve : Nat
  manifest : Nat
  output : Nat
  proofs : Nat
  core : Nat
  cnt : Nat
  cplHq : Nat
  /-- QUEUED sequences in join order (R306). -/
  join : List Nat
  /-- Rows of the manifest in force, and the impression it is for. -/
  rows : List SeqRow
  /-- The sequences that joined with it, in join order (R306, R312). -/
  joiners : List Nat
  impression : Nat
  /-- A manifest has been formed and has not retired, and the pages that its joins and growth still fetch. -/
  forming : Bool
  waits : List SeqWait
  /-- Nodes in use. -/
  nodesUsed : List Nat
  /-- What returns at the next boundary (R307). -/
  held : List HeldBlocks
deriving DecidableEq, Repr

/-- The sequence unit (R300 to R313): entries are the 64-byte entries of Table 10.3 in the device area. -/
structure SeqUnit where
  /-- By 8 × context + queue. -/
  queues : Tab (Option BatchQ)
  allot : Tab Nat
  /-- 8 × context + queue of every entry that is not FREE (0xFFFF elsewhere). -/
  live : Tab Nat
  /-- Blocks in use of a pool region. -/
  taken : Tab (List Nat)
  /-- Prompt of a sequence that has not joined yet: address and tokens. -/
  prompts : Tab (Nat × Nat)
  /-- By 8 × context + index. -/
  cnt : Tab (BitVec 64)
deriving DecidableEq, Repr

/-- Memory and tiers. -/
structure MemTiers where
  mem : Mem
  frames : Tab Frame
  /-- Quotas by 3 × context + tier. -/
  quota : Tab Quota
  ranges : List Range
  remotes : List Remote
  regions : Tab Region
  nextRegion : Nat
  /-- Directory entries by context × 2^32 + TPN. -/
  pages : Tab Page
  pools : Tab Pool
  /-- Pages whose PIN fell to 0, oldest first, by page key (R274). -/
  unpinned : List Nat
  /-- Tier traffic of a context: bytes placed on each channel, where batten b begins at b × PACE (R274). -/
  paced : Tab (Tab Nat)
  jobs : List TierJob
  xfers : Tab (Option Xfer)
  nextXfer : Nat
  adopts : List Adopt
  copies : List SectorCopy
  flash : Flash
  /-- `MEM_SET_OWNER`.RAN by set. -/
  setRan : BitVec 32
  /-- `MEM_ECC_CNT` by 2 × stack + index. -/
  eccCnt : Tab (BitVec 64)
  /-- `MEM_UE_LOG`: VALID, SOURCE, ADDR. -/
  ueValid : Bool
  ueSource : BitVec 7
  ueAddr : BitVec 36
  /-- Next granule to scrub by 2 × channel + pseudo-channel (R266). -/
  scrub : Tab Nat
  /-- Next SRAM word to scrub by bank. -/
  sramScrub : Tab Nat
  /-- EV_CORRECTED and EV_REFRESH_STALL by owner: context, or 256 for RAN. -/
  evCorrected : Tab (BitVec 64)
  evStall : Tab (BitVec 64)
  /-- Scrub-pending frames of torn down contexts, waiting to be zero-filled (R439). -/
  scrubPending : List Nat
  /-- Allocations waiting for their range to be scrubbed (R439). -/
  allocWaiting : List AllocWait
  /-- Active thatch schedules, oldest first, and `THATCH_CNT`. -/
  thatch : List Thatch
  thatchCnt : Tab (BitVec 64)
  /-- EV_THATCH_LATE by context. -/
  evThatchLate : Tab (BitVec 64)
  weights : Tab (Option WeightSet)
  weightWaits : List WeightWait
  seqs : SeqUnit
deriving DecidableEq, Repr

/-- The frame table entry of an unlisted frame: the device area is the device's (R253), the rest is free. -/
def frameDefault (f : Nat) : Frame :=
  { owner := if 0xBFC000 ≤ f ∧ f < 0xC00000 then 257 else 259, dirty := 0, track := false }

def Quota.zero : Quota := { limit := 0, usage := 0 }
def Page.none : Page :=
  { state := 0, home := 0, step := false, slot := false, pin := 0, poison := 0, frame := 0, homeLoc := 0, newLoc := 0, mask := 0, wasEmpty := false, due := 0 }
def Pool.none : Pool := { base := 0, frames := 0, lowWater := 0, pace := 0 }
def Region.none : Region :=
  { ctx := 0, firstTpn := 0, count := 0, home := 0, step := false, generation := 0, homeBase := 0, lender := 0,
    busy := 0 }
def Stripe.blank : Stripe := { data := [], diff := [], failed := false, live := false }

def Flash.reset : Flash :=
  { present := false, formatted := false, capacity := 0, rowsPerSet := 0, sets := 0, stripes := [], parity := [], head := 0,
    written := [], flush := false, moves := [], cnt := [] }

def MemTiers.reset : MemTiers :=
  { mem := { bytes := [], diff := [] }, frames := [], quota := [], ranges := [], remotes := [], regions := [],
    nextRegion := 1, pages := [], pools := [], unpinned := [], paced := [], jobs := [], xfers := [], nextXfer := 1, adopts := [], copies := [],
    flash := Flash.reset, setRan := 0, eccCnt := [], ueValid := false, ueSource := 0, ueAddr := 0, scrub := [],
    sramScrub := [], evCorrected := [], evStall := [], scrubPending := [], allocWaiting := [], thatch := [], thatchCnt := [], evThatchLate := [],
    weights := [], weightWaits := [], seqs := { queues := [], allot := [], live := [], taken := [], prompts := [], cnt := [] } }

end Sys2Proof.Machine
end

