-- ==== Sys2Proof/Machine/StateRadio.lean ====
section
/-!
DEFINITION. The state of baseband processing (chapter 06) and the fronthaul ports (chapter 07).
-/
namespace Sys2Proof.Machine
open Sys2Proof

/-- Where a message lies in a landing ring (R427): the ring's data area, its bytes, and the message's offset and bytes in it. -/
structure Landed where
  base : Nat
  cap : Nat
  off : Nat
  len : Nat
deriving DecidableEq, Repr

/-- A slot message that came in time (R170, R171): where it lies in device memory. -/
structure SlotMsg where
  imp : Nat
  variant : Nat
  place : Landed
deriving DecidableEq, Repr

/-- A record waiting for its turn on UL_HQ (R182). -/
structure Delivery where
  imp : Nat
  /-- Place in the slot: the PDU's place in the slot message, or after every PDU. -/
  order : Nat
  /-- The PDU's own record, with which its place is done: not the UCI record of a PUSCH PDU. -/
  own : Bool
  bytes : List Byte
  poison : Bool
deriving DecidableEq, Repr

/-- HARQ metadata of a slot as a shadow received it (R193, R220): the mirror records told, and the slot message's uplink
part. -/
structure Meta where
  imp : Nat
  count : Nat
  body : List Byte
deriving DecidableEq, Repr

/-- A cell slot. -/
structure Cell where
  /-- 0 UNCONFIGURED, 1 CONFIGURED, 2 ACTIVE, 3 SHADOW. -/
  state : Nat
  /-- The cell record (Table 6.6) and the fronthaul timing record (Table 7.3); empty before they are written. -/
  record : List Byte
  timing : List Byte
  /-- A pending state change: the state and the ridge count of its effect (R167). -/
  change : Option (Nat × Nat)
  /-- The state before the last change, and the ridge count of that change (R167, R194). -/
  prev : Option (Nat × Nat)
  /-- Impressions below this number are discarded: a fence came while they were in flight (R195). -/
  cutoff : Nat
  /-- Its eCPRI egress has stopped because its shadow's echo lapsed (R503). -/
  muted : Bool
  /-- Hall number of the primary that `CELL_SHADOW` named. -/
  primary : Nat
  /-- `FH_MIRROR`: role, ring address and its size. -/
  role : Nat
  ring : Nat
  ringLog : Nat
  /-- Where the next mirror record goes in the ring, its sequence number, and the records sent by impression (R220). -/
  ringAt : Nat
  mseq : BitVec 16
  sent : Tab Nat
  /-- Of a shadow: the last MSEQ and its impression, the records landed by impression, and the impressions with a gap (R221). -/
  lastMseq : Option (BitVec 16)
  lastImp : Nat
  landed : Tab Nat
  gaps : List Nat
  metas : List Meta
  /-- Impressions treated as without metadata, or started without it (R193, R221). -/
  blind : List Nat
  /-- Variants named by slot messages, by impression number (R44, R170), and the messages. -/
  sel : Tab (Option Nat)
  msgs : List SlotMsg
  /-- The last impression number put on variant 0 with no message (R171). -/
  lastFallback : Option Nat
  /-- Impressions whose message came and was counted late. -/
  lateMsgs : List Nat
  /-- Uplink records that wait for their turn, and the PDUs of each impression whose record is written or dropped. -/
  held : List Delivery
  delivered : Tab (List Nat)
  /-- HARQ buffers named in a slot, with the PDU that named each first: (impression, buffer, PDU). -/
  bufs : List (Nat × Nat × Nat)
  /-- PDSCH PDUs that carry zero REs (R185): (impression, PDU, status). -/
  failed : List (Nat × Nat × Nat)
  msgLate : BitVec 16
  deliveryDrop : BitVec 16
  shadowGap : BitVec 16
  /-- The counters of a slot status record as the last one showed them, by the key of each (R181). -/
  shown : Tab Nat
  /-- Impressions whose windows have ended and whose slot status record waits its turn (R181, R182). -/
  closing : List Nat
deriving DecidableEq, Repr

/-- An uplink symbol of a stream whose window is open, or has closed: the PRBs landed as (first, count) (R215, R217). -/
structure SymbolBuf where
  air : Nat
  /-- It collects the sections of filterIndex 1 to 4, which go to PRACH_BASE (R218). -/
  prach : Bool
  prbs : List (Nat × Nat)
  closed : Bool
deriving DecidableEq, Repr

/-- A section of a C-plane message that was sent: the ridge count of its slot's start, its sectionId, and what it covers as (symbol,
first PRB, PRBs). -/
structure SentSection where
  slot : Nat
  id : Nat
  runs : List (Nat × Nat × Nat)
deriving DecidableEq, Repr

/-- A fronthaul stream (R202). -/
structure Stream where
  /-- The stream record (Table 7.2); empty before it is written. -/
  record : List Byte
  /-- Sequence identifiers of the next message of the U-plane and the C-plane (R205), and the last one received (R214). -/
  seqU : BitVec 8
  seqC : BitVec 8
  rxSeq : Option (BitVec 8)
  symbols : List SymbolBuf
  /-- Sections of C-plane messages sent (R205). -/
  sections : List SentSection
deriving DecidableEq, Repr

/-- An eCPRI frame waiting for its transmit window (R206). -/
structure TxFrame where
  stream : Nat
  rel : Nat
  dl : Nat
  seq : Nat
  /-- From the destination address to the last byte before the FCS. -/
  bytes : List Byte
  job : Nat
deriving DecidableEq, Repr

/-- A fronthaul port. -/
structure FhPort where
  link : Bool
  fecLock : Bool
  mac : BitVec 48
  maxFrame : Nat
  /-- Multicast enables: PTP, 01-80-C2-00-00-0E, other. -/
  multicast : BitVec 3
  excQ : Nat
  frames : List TxFrame
  /-- Ridge count at which block lock last returned: uplink windows that were open then take nothing (R223). -/
  upAt : Nat
deriving DecidableEq, Repr

/-- An egress job whose frames have not all left (R209): its counter and its status so far. -/
structure EgressJob where
  id : Nat
  core : Nat
  cnt : Nat
  who : Nat
  left : Nat
  status : Nat
deriving DecidableEq, Repr

/-- A code block of a decode job: waiting, on a decoder, or decoded. -/
structure DecBlock where
  index : Nat
  decoder : Option Nat
  done : Bool
  /-- Its information bits with CRC, whether its CRC passed, its iterations and whether the last syndrome was nonzero. -/
  bits : List Bool
  ok : Bool
  iters : Nat
  unmet : Bool
deriving DecidableEq, Repr

/-- A job of the decoder pool in progress (R177). -/
structure DecJob where
  id : Nat
  core : Nat
  cnt : Nat
  who : Nat
  cell : Nat
  imp : Nat
  pdu : Nat
  /-- Place of its PDU in the slot message. -/
  order : Nat
  buf : Nat
  tbs : Nat
  bg2 : Bool
  zc : Nat
  /-- Bits of a code block with and without filler, and largest iteration count. -/
  k : Nat
  kPrime : Nat
  iMax : Nat
  noCombine : Bool
  fhLate : Bool
  nanLlr : Bool
  poison : Bool
  sinr : List Byte
  /-- What each of its blocks decodes, by block: the columns reached and the soft bits as its combining left them (R176, R177). -/
  soft : Tab (List Int)
  /-- First code-block store. -/
  first : Nat
  blocks : List DecBlock
deriving DecidableEq, Repr

/-- A job of the encoder pool (1), the polar pool (2) or the PRACH pool (3): what it retires, its blocks that no unit has taken yet
and those on a unit (R177, R184, R186, R190). -/
structure PoolJob where
  id : Nat
  pool : Nat
  core : Nat
  cnt : Nat
  who : Nat
  status : Nat
  waiting : Nat
  running : Nat
deriving DecidableEq, Repr

/-- Cells, fixed-function pools and fronthaul. -/
structure Radio where
  cells : Tab Cell
  ports : Tab FhPort
  streams : Tab Stream
  /-- Port counters by 16 × port + index, and stream counters by 8 × stream + index. -/
  portCnt : Tab (BitVec 64)
  streamCnt : Tab (BitVec 64)
  egress : List EgressJob
  decJobs : List DecJob
  nextJob : Nat
  /-- Jobs of the encoder, polar and PRACH pools, in the order in which they came, and the job whose block each unit works on, by
  64 × pool + unit. -/
  poolJobs : List PoolJob
  units : Tab Nat
  poisonTb : BitVec 16
  bufClash : BitVec 16
  /-- Pieces of mirror records that wait for a tag, in order: (cell, ring address, bytes) (R220). -/
  mirrorOut : List (Nat × Nat × List Byte)
deriving DecidableEq, Repr

def Cell.reset : Cell :=
  { state := 0, record := [], timing := [], change := none, prev := none, cutoff := 0, muted := false, primary := 0, role := 0, ring := 0, ringLog := 0, ringAt := 0,
    mseq := 0, sent := [], lastMseq := none, lastImp := 0, landed := [], gaps := [], metas := [], blind := [], sel := [], msgs := [],
    lastFallback := none, lateMsgs := [], held := [], delivered := [], bufs := [], failed := [], msgLate := 0, deliveryDrop := 0,
    shadowGap := 0, shown := [], closing := [] }
def Stream.reset : Stream := { record := [], seqU := 0, seqC := 0, rxSeq := none, symbols := [], sections := [] }
def FhPort.reset : FhPort :=
  { link := false, fecLock := false, mac := 0, maxFrame := 1518, multicast := 0, excQ := 0, frames := [], upAt := 0 }
def Radio.reset : Radio :=
  { cells := [], ports := [], streams := [], portCnt := [], streamCnt := [], egress := [], decJobs := [], nextJob := 1,
    poolJobs := [], units := [], poisonTb := 0, bufClash := 0, mirrorOut := [] }

end Sys2Proof.Machine
end

