-- ==== Sys2Proof/Machine/StateTime.lean ====
section
/-!
DEFINITION. The state of the ridge counter, the clock tiers, the time unit (chapter 08), plates (chapter 02),
partitions (chapter 01) and the lease, health and fault reporting (chapter 18).
-/
namespace Sys2Proof.Machine
open Sys2Proof

/-- The ridge counter, its root phase (R226, R30) and the tier in force (R21). -/
structure Clock where
  ridge : BitVec 64
  phi : BitVec 3
  tier : BitVec 2
deriving DecidableEq, Repr

/-- A stamp: ridge count and fraction in 1/256 ridge tick (R228), with its tag (TS_ID) and flag (ONESTEP or EDGE). -/
structure Stamp where
  ridge : BitVec 64
  frac : BitVec 8
  id : BitVec 16
  flag : Bool
deriving DecidableEq, Repr

/-- PTP set-up of a port (R229, R230). -/
structure PtpPort where
  enable : Bool
  rxq : Nat
  txq : Nat
  mac : BitVec 48
  /-- Ridge count at which the transmit queue last released a frame. -/
  lastTx : Option Nat
deriving DecidableEq, Repr

/-- The servo (R234 to R238, Table 8.5). -/
structure Servo where
  state : BitVec 2
  enable : Bool
  kp : Nat
  ki : Nat
  nAcq : Nat
  settle : Nat
  alarm : Nat
  limit : Nat
  holdMs : Nat
  /-- HOLD_MS as the last accepted commit took it (Table 8.5). -/
  holdNow : Nat
  freqInit : Int
  i : Int
  w : Int
  /-- x of the last accepted commit, in 1/256 ridge tick. -/
  lastX : Int
  /-- AT of that commit, and the same instant on the count in force (they differ after a step). -/
  commitAt : Nat
  lastAt : Nat
  hasLast : Bool
  /-- The next accepted commit starts a new run. -/
  fresh : Bool
  settled : Nat
  n : Int
  sR : Nat
  /-- Ridge count at which the last accepted commit arrived. -/
  lastCommit : Nat
  stepDone : Bool
  stepped : Bool
  stepBlocked : Bool
  phaseAlarm : Bool
deriving DecidableEq, Repr

/-- A time output (R241, R242): registers, the copies in force while enabled, and the pin. -/
structure Tout where
  width : BitVec 32
  missed : Bool
  gate : Bool
  pol : Bool
  mode : Bool
  en : Bool
  start : BitVec 64
  period : BitVec 40
  aWidth : Nat
  aGate : Bool
  aMode : Bool
  aPol : Bool
  aStart : Nat
  aPeriod : Nat
  /-- The next leading edge, if one is scheduled. -/
  next : Option Nat
  /-- The pulses in progress, oldest first: the end of each, and its POL. -/
  pulses : List (Nat × Bool)
deriving DecidableEq, Repr

/-- A time input (R243). -/
structure Tin where
  edges : BitVec 2
  fifo : List Stamp
  last : BitVec 64
  ovf : Bool
  /-- Root cycle of the last stamped edge. -/
  lastEdge : Option Nat
deriving DecidableEq, Repr

/-- The time unit. -/
structure TimeUnit where
  ports : Tab PtpPort
  txts : Tab (List Stamp)
  txtsRidge : Tab (BitVec 64)
  txtsOvf : BitVec 10
  servo : Servo
  measAt : BitVec 64
  measOfs : BitVec 64
  /-- Selected SyncE source port, and the squelch of SYNCE_RCLK. -/
  synceSource : Option Nat
  squelched : Bool
  /-- Ridge count since which both indications of the source have been 1. -/
  synceGood : Option Nat
  tout : Tab Tout
  tin : Tab Tin
  cnt : Tab (BitVec 64)
deriving DecidableEq, Repr

/-- A claim record (R39). -/
structure Claim where
  type : Nat
  first : Nat
  count : Nat
  amount : Nat
deriving DecidableEq, Repr

/-- A window entry (Table 2.4). -/
structure Win where
  window : Nat
  kind : Nat
  grid : Nat
  variant : Nat
  fabric : Bool
  cell : Nat
  start : Nat
  length : Nat
  cclk : Nat
  fixed : Nat
  entry : Nat
deriving DecidableEq, Repr

/-- A timing entry (R45). -/
structure Timing where
  window : Nat
  variant : Nat
  res : Nat
  rate : Nat
deriving DecidableEq, Repr

/-- An occurrence of a window whose work runs. -/
structure Running where
  window : Nat
  variant : Nat
  cell : Nat
  /-- Ridge count of the occurrence's START, and of the start of its slot or epoch. -/
  start : Nat
  slot : Nat
  /-- Ridge count of the start of the window that the work now runs in, after a resumption a later one (R297, R453). -/
  winStart : Nat
  impression : Nat
  /-- First status other than ST_OK of its commands. -/
  status : Nat
  /-- Its end has passed and its overrun has been counted. -/
  overrun : Bool
  /-- Program offset of the start record of the plate command in progress or held, and of the one after it. -/
  record : Nat
  next : Nat
  /-- The start record has begun. -/
  begun : Bool
  /-- Why a record that has not begun is held: 0 its cores are not ready, 1 a thatch gate, 2 a stopped context,
  3 a thatch suspension (R297). -/
  hold : Nat
  /-- Every start record of the window has ended. -/
  ended : Bool
deriving DecidableEq, Repr

/-- A plate of the plate store. -/
structure Plate where
  owner : Nat
  kind : Nat
  partition : Nat
  tierLimit : Nat
  variants : Nat
  image : List Byte
  progOff : Nat
  progLen : Nat
  claims : List Claim
  windows : List Win
  timing : List Timing
  digest : List Byte
  /-- Table 2.7: 0 LOADED, 1 ADMITTED, 2 RUNNING, 3 RETIRING, 4 RETIRED. -/
  state : Nat
  held : Bool
  startPending : Bool
  mode : Nat
  group : Nat
  /-- Launch ridge count, and the ridge count at which the start was accepted. -/
  launch : Nat
  accepted : Nat
  nextImp : Nat
  deferrals : Nat
  overruns : Nat
  firstEpoch : Nat
  /-- The epoch at whose start a RAN plate retires. -/
  retireEpoch : Option Nat
  running : List Running
  /-- Epochs that R54 counted as deferred last: the epoch counted, so that each counts once. -/
  deferredEpoch : Option Nat
  /-- The ridge count of the last occurrence handled of each window. -/
  seen : Tab Nat
  /-- Frames of the plate store reserve that hold the image of a RAN or service plate (R600). -/
  frames : List Nat
deriving DecidableEq, Repr

/-- A resource being cleared for its new owner (R27): kind 1 core, 2 way, 3 hatch set. -/
structure Clearing where
  kind : Nat
  index : Nat
  toRan : Bool
  start : Nat
deriving DecidableEq, Repr

/-- The plate store, the admission registers and the partitions. -/
structure Plates where
  store : Tab (Option Plate)
  nextHandle : Nat
  /-- Owner + 1 of the last plate of a handle that has been RETIRED and is free again (Table 2.7). -/
  retired : Tab Nat
  /-- A pending RAN swap: handle and epoch (R58). -/
  swap : Option (Nat × Nat)
  /-- The RAN partition's cores and ways: core k is bit k, way w of cluster c is bit 16 c + w (R25). -/
  ranCores : BitVec 512
  ranWays : BitVec 1024
  clearing : List Clearing
deriving DecidableEq, Repr

/-- A fault event code's rate limit (R487). -/
structure EventCode where
  /-- Epoch in which a frame of the code was last sent. -/
  sent : Option Nat
  held : Nat
  firstRidge : Nat
  data : List Byte
deriving DecidableEq, Repr

/-- A health category (R496, Table 18.6). -/
structure Health where
  raise : Nat
  lower : Nat
  clear : Nat
  level : BitVec 2
  lastCount : BitVec 24
  /-- Events counted in the running window. -/
  count : Nat
  /-- Consecutive windows below LOWER. -/
  run : Nat
  /-- Ridge count of the last window end handled. -/
  lastEnd : Nat
deriving DecidableEq, Repr


/-- An armed takeover (R504). -/
structure Armed where
  cell : Nat
  primary : Nat
deriving DecidableEq, Repr

/-- The lease unit, health, peers' echoes and fault reporting. -/
structure Faults where
  epoch : BitVec 16
  expiry : BitVec 64
  leased : Bool
  fenced : Bool
  probation : Bool
  cause : BitVec 4
  fatal : BitVec 4
  retired : BitVec 16
  key : List Byte
  keySet : Bool
  required : Bool
  renewMs : BitVec 16
  fmMac : Tab (BitVec 48)
  fmVlan : Tab (BitVec 16)
  nonce : BitVec 32
  /-- NONCE and RIDGE of the last 4 requests, newest first. -/
  requests : List (Nat × Nat)
  lastRequest : Option Nat
  lastFence : BitVec 64
  events : Tab EventCode
  health : Tab Health
  /-- Echoes: X_ack by shadow, X_echo by primary (Tab entry none: no echo). -/
  acks : Tab (Option Nat)
  echoes : Tab (Option Nat)
  armed : List Armed
  wireOldest : BitVec 8
  firmware : BitVec 16
  cnt : Tab (BitVec 64)
deriving DecidableEq, Repr

def Clock.reset : Clock := { ridge := 0, phi := 0, tier := 3 }
def PtpPort.reset : PtpPort := { enable := false, rxq := 0, txq := 0, mac := 0, lastTx := none }
def Servo.reset : Servo :=
  { state := 0, enable := false, kp := 2, ki := 6, nAcq := 32, settle := 32, alarm := 64, limit := 100, holdMs := 2000, holdNow := 2000,
    freqInit := 0, i := 0, w := 0, lastX := 0, commitAt := 0, lastAt := 0, hasLast := false, fresh := true, settled := 0, n := 0,
    sR := 0, lastCommit := 0, stepDone := false, stepped := false, stepBlocked := false, phaseAlarm := false }
def Tout.reset : Tout :=
  { width := 0, missed := false, gate := false, pol := false, mode := false, en := false, start := 0, period := 0,
    aWidth := 0, aGate := false, aMode := false, aPol := false, aStart := 0, aPeriod := 0, next := none,
    pulses := [] }
def Tin.reset : Tin := { edges := 0, fifo := [], last := 0, ovf := false, lastEdge := none }
def TimeUnit.reset : TimeUnit :=
  { ports := [], txts := [], txtsRidge := [], txtsOvf := 0, servo := Servo.reset, measAt := 0, measOfs := 0,
    synceSource := none, squelched := true, synceGood := none, tout := [], tin := [], cnt := [] }
def Plates.reset : Plates :=
  { store := [], nextHandle := 1, retired := [], swap := none, ranCores := 0, ranWays := 0, clearing := [] }
def EventCode.reset : EventCode := { sent := none, held := 0, firstRidge := 0, data := [] }

/-- The default thresholds of Table 18.6. -/
def healthDefault (c : Nat) : Health :=
  let mk := fun r l k => ({ raise := r, lower := l, clear := k, level := 0, lastCount := 0, count := 0, run := 0,
                            lastEnd := 0 } : Health)
  match c with
  | 0 => mk 1000 100 60
  | 1 => mk 1 1 3600
  | 2 => mk 65536 4096 60
  | 4 => mk 100 10 60
  | _ => mk 1 1 600

def Faults.reset : Faults :=
  { epoch := 0, expiry := 0, leased := false, fenced := true, probation := false, cause := 6, fatal := 0, retired := 0,
    key := [], keySet := false, required := true, renewMs := 1000, fmMac := [], fmVlan := [], nonce := 0,
    requests := [], lastRequest := none, lastFence := 0, events := [], health := [], acks := [], echoes := [],
    armed := [], wireOldest := 3, firmware := 0, cnt := [] }

end Sys2Proof.Machine
end

