-- ==== Sys2Proof/Machine/StateDet.lean ====
section
/-!
DEFINITION. The state of seeds and proofs, the record unit, replay and the drypoint (chapter 17).
-/
namespace Sys2Proof.Machine
open Sys2Proof

/-- The record unit (R473 to R477). -/
structure RecUnit where
  configured : Bool
  ctx : Option Nat
  /-- Records go to a fabric address on VC7 instead of a ring. -/
  fabric : Bool
  entry : Nat
  base : Nat
  size : Nat
  /-- The ring's mode 1: the oldest records are overwritten. -/
  overwrite : Bool
  recording : Bool
  r0 : Nat
  /-- Record number of the next record, and records written and lost since `REC_START`. -/
  seq : Nat
  written : Nat
  lost : Nat
  /-- Records lost since the previous record written, and the ridge count of the first. -/
  lossPending : Nat
  lossAt : Nat
  wp : BitVec 36
  rp : BitVec 36
  lossFlag : Bool
  diverged : Bool
  /-- Records staged for export, as code words, and the address offset of the next one. -/
  staged : List (List (BitVec 144))
  exported : Nat
  /-- Request number of the context's next fabric request (R479). -/
  nextReq : Nat
  /-- Ridge count at which the drypoint stops capture (R485). -/
  stopAt : Option Nat
  cnt : Tab (BitVec 64)
deriving DecidableEq, Repr

/-- A replay in progress (R478 to R481). -/
structure Replay where
  ctx : Option Nat
  streams : Bool
  /-- Function that started it. -/
  fn : Nat
  base : Nat
  size : Nat
  shift : Nat
  /-- Ring offset of the next record, and the request number of the context's next fabric request. -/
  pos : Nat
  nextReq : Nat
  injected : Nat
deriving DecidableEq, Repr

/-- What a drypoint copies: the parts of the block that hold the registers of Table 17.7 (R483). -/
structure Snap where
  clk : Clock
  mem : MemTiers
  host : HostIf
  traf : Traffic
  time : TimeUnit
  plates : Plates
  flt : Faults
  fab : Fabric
  rad : Radio
  core : Cores
  /-- `ADM_TIER`.NEXT_TIER. -/
  nextTier : BitVec 2
  recUnit : RecUnit
  replaying : Bool
  proofCnt : Tab (BitVec 64)
deriving DecidableEq, Repr

/-- The drypoint trigger (R482 to R485). -/
structure Dry where
  ctrl : BitVec 64
  matchAt : BitVec 64
  /-- Ridge count at arming. -/
  armedAt : Nat
  /-- Snapshots to take: instant and source bits of `DRY_STATUS`.SOURCE. -/
  due : List (Nat × Nat)
  held : Bool
  source : BitVec 14
  missed : BitVec 8
  snapRidge : BitVec 64
  snap : Option Snap
deriving DecidableEq, Repr

/-- A proof job that holds a SHA-256 engine (R468, R470): its retirement, its destination and the record it proves. -/
structure Proof where
  who : Nat
  core : Nat
  cnt : Nat
  dst : Nat
  full : Bool
  poison : Bool
  record : List Byte
deriving DecidableEq, Repr

/-- Seeds, proofs, record unit, replay and drypoint. -/
structure Det where
  /-- Context seeds by context, and the RAN seed at 256 (R471). -/
  seeds : Tab Word
  /-- Jobs in progress by 16 × die + engine. -/
  proofs : Tab (Option Proof)
  proofCnt : Tab (BitVec 64)
  recUnit : RecUnit
  replay : Option Replay
  dry : Dry
deriving DecidableEq, Repr

def RecUnit.reset : RecUnit :=
  { configured := false, ctx := none, fabric := false, entry := 0, base := 0, size := 0, overwrite := false, recording := false,
    r0 := 0, seq := 0, written := 0, lost := 0, lossPending := 0, lossAt := 0, wp := 0, rp := 0, lossFlag := false,
    diverged := false, staged := [], exported := 0, nextReq := 0, stopAt := none, cnt := [] }
def Replay.blank : Replay :=
  { ctx := none, streams := false, fn := 0, base := 0, size := 0, shift := 0, pos := 0, nextReq := 0, injected := 0 }
def Dry.reset : Dry :=
  { ctrl := 0, matchAt := 0, armedAt := 0, due := [], held := false, source := 0, missed := 0,
    snapRidge := 0, snap := none }
def Det.reset : Det :=
  { seeds := [], proofs := [], proofCnt := [], recUnit := RecUnit.reset, replay := none, dry := Dry.reset }

end Sys2Proof.Machine
end

