-- ==== Sys2Proof/Machine/StateDev.lean ====
section
/-!
DEFINITION. The state of power, clocks and coolant (chapter 20), bring-up and resets (chapter 21), the record
unit, replay, drypoint and proofs (chapter 17) and the test access port (chapter 23).
-/
namespace Sys2Proof.Machine
open Sys2Proof

/-- The coolant record (Table 20.7). -/
structure Coolant where
  dMin : Nat
  dMax : Nat
  valveDuty : Nat
  valveTrip : Nat
  pRef : Nat
  rNom : Nat
  tNom : Nat
  beta : Nat
deriving DecidableEq, Repr

/-- The governor record (Table 20.7). -/
structure Governor where
  fixed : Bool
  fixedTier : Nat
  tierFast : Nat
  tPlan : Nat
  hyst : Nat
  h : Nat
  tau : Nat
  rJ : Nat
  pLeak : Nat
  pClk : Nat
  kDyn : Nat
  pCap : Nat
deriving DecidableEq, Repr

/-- The trip record (Table 20.7). -/
structure Trip where
  tTrip : Nat
  tClear : Nat
  hTrip : Nat
  hClear : Nat
  hold : Nat
deriving DecidableEq, Repr

/-- A coolant thermistor (R539): samples of the running epoch, the last good reading, the reading of the last
epoch and the fault. -/
structure Therm where
  samples : List Int
  last : Int
  reading : Int
  fault : Bool
  good : Nat
deriving DecidableEq, Repr

/-- A rail's telemetry (R546): the epoch's sums of power in microwatts and voltage in millivolts, the number of
readings, the last values read and the means of the last epoch. Log 76 (DESIGN CHOICE). -/
structure Rail where
  sumPower : Nat
  sumVolt : Nat
  count : Nat
  lastVolt : Nat
  lastPower : Nat
  volt : Nat
  power : Nat
deriving DecidableEq, Repr

/-- Power, clocks and coolant. -/
structure PowerUnit where
  coolant : Coolant
  gov : Governor
  /-- A governor record and the ridge count at which it was accepted (Table 20.8). -/
  govNew : Option (Governor × Nat)
  trip : Trip
  pump : BitVec 11
  valve : BitVec 11
  /-- The tier planned for the next epoch, and the epoch that the last plan covers. -/
  nextTier : BitVec 2
  planned : Option Nat
  /-- P_cur: the power planned for the current epoch, and for the next, in binary64. -/
  pCur : BitVec 64
  pNext : BitVec 64
  reason : BitVec 2
  xH : BitVec 16
  x0 : BitVec 16
  pPred : BitVec 16
  /-- Junction and stack temperatures in 1/16 °C by sensor. -/
  junctions : Tab Int
  hbmTemps : Tab Int
  tjMax : BitVec 16
  hbmMax : BitVec 16
  hot : BitVec 8
  tripOn : Bool
  /-- The ridge count since which every sensor has stayed below the clear thresholds, and the ridge count at which
  the trip entered. -/
  belowSince : Option Nat
  tripSince : Nat
  crit : Option Nat
  thermtrip : Bool
  thermIn : Therm
  thermOut : Therm
  rails : Tab Rail
  cnt : Tab (BitVec 64)
  /-- The readings the MCTP endpoint serves, taken at the last epoch boundary, and its endpoint identifier. -/
  shown : Tab Int
  eid : BitVec 8
deriving DecidableEq, Repr

/-- A compute-partition reset in progress: its step of Table 15.6, the ridge count at which the step began, and the command
that waits (R562). -/
structure ComputeReset where
  step : Nat
  start : Nat
  waiter : Nat × Nat
deriving DecidableEq, Repr

/-- The SPI NOR (R552): whether it answers the JESD216 discovery read, and its bytes; an unlisted byte is erased, 0xFF. -/
structure Nor where
  answers : Bool
  bytes : Tab (BitVec 8)
deriving DecidableEq, Repr

/-- The directory in force (R552): the copy it was read from, GENERATION, ACTIVE and STAGED (0xFF for none). -/
structure Directory where
  copy : Nat
  generation : Nat
  active : Nat
  staged : Nat
deriving DecidableEq, Repr

/-- The PLATFORM record in force (Table 21.3, Table 21.5). -/
structure Platform where
  mac0 : BitVec 48
  mac1 : BitVec 48
  mode : Nat
  mctp : Nat
  pmbus : List Nat
deriving DecidableEq, Repr

/-- The image last read: IMAGE_LEN, the check words read and computed, its GENERATION, and the COMMAND records still to
apply: index, descriptor and DATA (R557, R558, R565). -/
structure CfgImage where
  len : Nat
  word : Nat
  computed : Nat
  generation : Nat
  commands : List (Nat × BitVec 512 × List (BitVec 8))
  /-- A COMMAND record is being executed. -/
  applying : Option Nat
deriving DecidableEq, Repr

/-- The test access port (R593): the instruction, and the preloaded cells of the boundary register. Log 76 (DESIGN CHOICE). -/
structure Jtag where
  instr : Nat
  preload : List Bool
deriving DecidableEq, Repr

/-- Bring-up and resets (R550 to R565) and `DEV_STATUS`. Log 76 (DESIGN CHOICE). -/
structure Device where
  /-- Power-on reset is held. -/
  por : Bool
  /-- The configuration image has been checked since the last reset that reads it. -/
  cfgDone : Bool
  /-- A rail other than VDD_AUX has been lost since the last reset (R535). -/
  railLost : Bool
  /-- TESTEN is high (R589). -/
  testen : Bool
  /-- PERST_N is low, or the device is held as if it were; P, once it has been released. -/
  perst : Bool
  released : Option Nat
  lastReset : Nat
  cfgReason : Nat
  fwStaged : Bool
  fwFallback : Bool
  fwRecovery : Bool
  hostReady : Bool
  hbmReady : Bool
  cfgCmdFail : Bool
  cfgDefaulted : Bool
  /-- `DEV_CFG`.STATUS and RECORD. -/
  failStatus : Nat
  failRecord : Nat
  resetCnt : Tab (BitVec 64)
  compute : Option ComputeReset
  /-- A `COMPUTE_RESET` of the management ring that a device reset took over: it completes at HBM_READY (Table 21.10). -/
  afterReset : Option (Nat × Nat)
  nor : Nor
  dir : Directory
  platform : Platform
  image : CfgImage
  jtag : Jtag
  pwr : PowerUnit
deriving DecidableEq, Repr

def Coolant.reset : Coolant :=
  { dMin := 1024, dMax := 1024, valveDuty := 1024, valveTrip := 1024, pRef := 2500, rNom := 10000, tNom := 400, beta := 3435 }
def Governor.reset : Governor :=
  { fixed := false, fixedTier := 0, tierFast := 0, tPlan := 1440, hyst := 32, h := 100, tau := 2000, rJ := 20000,
    pLeak := 150, pClk := 200, kDyn := 900, pCap := 2500 }
def Trip.reset : Trip := { tTrip := 1600, tClear := 1520, hTrip := 1520, hClear := 1440, hold := 1000 }
def Therm.reset : Therm := { samples := [], last := 0, reading := 0, fault := false, good := 0 }
def Rail.reset : Rail :=
  { sumPower := 0, sumVolt := 0, count := 0, lastVolt := 0, lastPower := 0, volt := 0, power := 0 }
def PowerUnit.reset : PowerUnit :=
  { coolant := Coolant.reset, gov := Governor.reset, govNew := none, trip := Trip.reset,
    pump := 1024, valve := 1024, nextTier := 3, planned := none, pCur := 0, pNext := 0, reason := 3, xH := 0, x0 := 0, pPred := 0,
    junctions := [], hbmTemps := [], tjMax := 0, hbmMax := 0, hot := 0, tripOn := false, belowSince := none,
    tripSince := 0, crit := none, thermtrip := false, thermIn := Therm.reset, thermOut := Therm.reset, rails := [], cnt := [], shown := [],
    eid := 0 }
def Platform.reset : Platform := { mac0 := 0, mac1 := 0, mode := 0, mctp := 0x64, pmbus := [] }
def CfgImage.reset : CfgImage := { len := 0, word := 0, computed := 0, generation := 0, commands := [], applying := none }
def Jtag.reset : Jtag := { instr := 1, preload := [] }
def Device.reset : Device :=
  { por := true, cfgDone := false, railLost := false, testen := false, perst := true, released := none, lastReset := 1, cfgReason := 0, fwStaged := false, fwFallback := false,
    fwRecovery := false, hostReady := false, hbmReady := false, cfgCmdFail := false, cfgDefaulted := false, failStatus := 0,
    failRecord := 0xFFFF, resetCnt := [], compute := none, afterReset := none, nor := { answers := true, bytes := [] },
    dir := { copy := 1, generation := 0, active := 0, staged := 0xFF }, platform := Platform.reset, image := CfgImage.reset,
    jtag := Jtag.reset, pwr := PowerUnit.reset }

end Sys2Proof.Machine
end

