-- ==== Sys2Proof/Machine/State.lean ====
section
/-!
DEFINITION. The state of the block: everything the spec gives it, the queue of waiting commands, and the
reset state.
-/
namespace Sys2Proof.Machine
open Sys2Proof

/-- A reason for the machine to stop with a fault. There is none: the spec names no event that stops the whole block, and every
error of it is a status, a counter, an interrupt or a refusal that the block reports while it goes on. Nothing raises a fault, so
neither safety nor unsafety arises from one. Log 12 (DESIGN CHOICE). -/
inductive Fault where
deriving DecidableEq, Repr

/-- A reason for a command to be refused. Log 12 (DESIGN CHOICE). -/
inductive Refusal where
  /-- Raised by an arm of `exec` whose meaning has not been written: safe, the model says nothing of it. -/
  | notModelled (mnemonic : String)
deriving DecidableEq, Repr

/-- The state of the block. -/
structure State where
  /-- Commands waiting, first in, first out. -/
  pending : List Instr
  /-- The model's own counter of free values drawn so far. -/
  free : Nat
  /-- Everything sent to the outside, newest first (the model's own record). -/
  out : List Output
  clk : Clock
  mem : MemTiers
  mbx : Mailbox
  host : HostIf
  traf : Traffic
  time : TimeUnit
  plates : Plates
  flt : Faults
  fab : Fabric
  rad : Radio
  core : Cores
  dev : Device
  det : Det
deriving DecidableEq, Repr

/-- The machine right after power-on reset. Log 1 (DESIGN CHOICE), 3 (DESIGN CHOICE), 4 (DESIGN CHOICE). -/
def State.reset : State :=
  { pending := [], free := 0, out := [], clk := Clock.reset, mem := MemTiers.reset, mbx := Mailbox.reset,
    host := HostIf.reset, traf := Traffic.reset, time := TimeUnit.reset, plates := Plates.reset,
    flt := Faults.reset, fab := Fabric.reset, rad := Radio.reset, core := Cores.reset, dev := Device.reset, det := Det.reset }

end Sys2Proof.Machine
end

