-- ==== Sys2Proof/Machine/Status.lean ====
section
/-!
DEFINITION. The status codes of Table 19.17 (R528).
-/
namespace Sys2Proof.Machine

abbrev stOk : Nat := 0x0000
abbrev stBusy : Nat := 0x0001
abbrev stBadOpcode : Nat := 0x0002
abbrev stBadParam : Nat := 0x0003
abbrev stNotReady : Nat := 0x0004
abbrev stDeadline : Nat := 0x0010
abbrev stCapacity : Nat := 0x0011
abbrev stQuota : Nat := 0x0012
abbrev stPlateDigest : Nat := 0x0013
abbrev stPoison : Nat := 0x0020
abbrev stUncorrectable : Nat := 0x0021
abbrev stCollMismatch : Nat := 0x0030
abbrev stCollTimeout : Nat := 0x0031
abbrev stCollPeerLost : Nat := 0x0032
abbrev stCollLayout : Nat := 0x0033
abbrev stIndeterminate : Nat := 0x0040
abbrev stEpoch : Nat := 0x0041
abbrev stFenced : Nat := 0x0042
abbrev stWindow : Nat := 0x0043
abbrev stVersion : Nat := 0x0050
abbrev stPreempted : Nat := 0x0060
abbrev stDefaulted : Nat := 0x0070

/-- The codes of Table 19.17. -/
def statusCodes : List Nat :=
  [stOk, stBusy, stBadOpcode, stBadParam, stNotReady, stDeadline, stCapacity, stQuota, stPlateDigest, stPoison,
   stUncorrectable, stCollMismatch, stCollTimeout, stCollPeerLost, stCollLayout, stIndeterminate, stEpoch, stFenced,
   stWindow, stVersion, stPreempted, stDefaulted]

/-- The first status other than ST_OK of two, in order. -/
def firstStatus (a b : Nat) : Nat := if a = stOk then b else a

/-- Ridge ticks of a plate epoch, of a batten and of a millisecond. -/
abbrev epochTicks : Nat := 19660800
abbrev battenTicks : Nat := 512
abbrev msTicks : Nat := 1966080
/-- Ridge ticks of a PTP second (R227). -/
abbrev secTicks : Nat := 1966080000

end Sys2Proof.Machine
end

