-- ==== Sys2Proof/Machine/Ops.lean ====
section
/-!
DEFINITION. The named operations over the state that commands of every family share: time, free values,
outputs, device memory, fault events, interrupt vectors and mailbox completions.
-/
namespace Sys2Proof.Machine
open Sys2Proof

/-- The ridge count (R226). -/
def State.now (s : State) : Nat := s.clk.ridge.toNat

/-- The current epoch: epoch e begins at e × 19,660,800. -/
def State.epochNow (s : State) : Nat := s.now / epochTicks

/-- The root cycle count 8 × ridge + φ of R30. -/
def State.root (s : State) : Nat := 8 * s.now + s.clk.phi.toNat

/-- One root cycle passes: the phase advances and the ridge counter counts when it wraps (R226, R30). Log 2 (DESIGN CHOICE). -/
def Clock.tick (c : Clock) : Clock := { c with phi := c.phi + 1, ridge := if c.phi = 7 then c.ridge + 1 else c.ridge }

/-- A value that the spec leaves open, and the state whose counter has moved past it. Log 6 (DESIGN CHOICE), 29 (DEDUCED). -/
def State.draw (s : State) : BitVec 64 × State := (Config.freeValue s.free, { s with free := s.free + 1 })

/-- n bytes that the spec leaves open. Log 6 (DESIGN CHOICE), 29 (DEDUCED). -/
def State.drawBytes (n : Nat) (s : State) : List Byte × State :=
  ((List.range n).map (Config.freeByte s.free), { s with free := s.free + 1 })

/-- One more output. Log 5 (DESIGN CHOICE). -/
def emit (o : Output) (s : State) : State := { s with out := o :: s.out }

/-- Several outputs, in order. Log 5 (DESIGN CHOICE). -/
def emitAll (os : List Output) (s : State) : State := { s with out := os.reverse ++ s.out }

/-- One event in a bank of 64-bit counters (R14). -/
def bump (t : Tab Word) (i : Nat) : Tab Word := Tab.set 0 t i (satInc (Tab.get 0 t i))

/-- n events in a bank of 64-bit counters (R14). -/
def bumpBy (t : Tab Word) (i n : Nat) : Tab Word := Tab.set 0 t i (satAdd (Tab.get 0 t i) n)

/-! ### Arbitration (R29, R30) -/

/-- Root division of CCLK at a tier (Table 1.5). -/
def cclkDiv (tier : Nat) : Nat :=
  match tier with
  | 0 => 8
  | 1 => 10
  | 2 => 12
  | _ => 16

/-- The cycle number of an arbiter whose clock divides the root by d (R30). Log 75 (DEDUCED). -/
def cycleNumber (root d : Nat) : Nat := root / d

/-- The first requesting input at or after p among n, wrapping (R29). Log 75 (DEDUCED). -/
def rotate (n p : Nat) (req : Nat → Bool) : Option Nat :=
  (List.range n).findSome? fun i => if req ((p + i) % n) then some ((p + i) % n) else none

/-- The winner among n inputs of one class, for a clock of division d (R29). Log 75 (DEDUCED). -/
def arbitrate (root d n : Nat) (req : Nat → Bool) : Option Nat := rotate n (cycleNumber root d % n) req

/-- The winner among requests (input, class) of a clock of division d and n inputs: the lowest class present,
then rotation (R29). Log 75 (DEDUCED). -/
def arbitrateClasses (root d n : Nat) (reqs : List (Nat × Nat)) : Option Nat :=
  match (reqs.map Prod.snd).min? with
  | none => none
  | some c => arbitrate root d n fun i => reqs.any fun r => r.1 == i && r.2 == c

/-! ### Device memory -/

/-- The stored byte at a device address. Log 8 (DESIGN CHOICE). -/
def Mem.byte (m : Mem) (a : Nat) : Byte := Tab.get 0 m.bytes a

/-- One stored byte changed; the canonical form is kept. -/
def Mem.setByte (m : Mem) (a : Nat) (b : Byte) : Mem := { m with bytes := Tab.set 0 m.bytes a b }

/-- The canonical form of memory: addresses strictly rising and no entry equal to what an unlisted one reads as. Log 8 (DESIGN CHOICE). -/
def Mem.wf (m : Mem) : Bool := Tab.wf (0 : Byte) m.bytes && Tab.wf (0 : BitVec 16) m.diff

/-- n stored bytes from an address. -/
def Mem.raw (m : Mem) (a : Nat) (n : Nat) : List Byte := (List.range n).map fun i => m.byte (a + i)

/-- Bytes stored from an address on. -/
def Mem.setBytes (m : Mem) : Nat → List Byte → Mem
  | _, [] => m
  | a, b :: r => Mem.setBytes (m.setByte a b) (a + 1) r

/-- The check difference of word w. Log 9 (DEDUCED). -/
def Mem.diffAt (m : Mem) (w : Nat) : BitVec 16 := Tab.get 0 m.diff w

/-- Sets the check difference of word w. -/
def Mem.setDiff (m : Mem) (w : Nat) (d : BitVec 16) : Mem := { m with diff := Tab.set 0 m.diff w d }

/-- The stored data of word w. -/
def Mem.data (m : Mem) (w : Nat) : BitVec 128 := BitVec.ofNat 128 (ofLE (m.raw (16 * w) 16))

/-- The data word w as its decoder delivers it, and what the decoder found (R262, R263). Log 8 (DESIGN CHOICE), 9 (DEDUCED). -/
def Mem.decode (m : Mem) (w : Nat) : List Byte × EccOutcome :=
  match eccDecode (m.diffAt w) with
  | .dataSym i e => (leBytes 16 (fixSymbol (m.data w) i e).toNat, .dataSym i e)
  | o => (m.raw (16 * w) 16, o)

/-- Whether an outcome delivers poison to its consumer (R264). -/
def EccOutcome.isPoison : EccOutcome → Bool
  | .poison => true
  | .uncorrectable => true
  | _ => false

/-- Whether an outcome is a correction (R263). -/
def EccOutcome.isCorrected : EccOutcome → Bool
  | .dataSym _ _ => true
  | .checkSym => true
  | _ => false

/-- Poisons word w: its data as it stands under poisoned check bits (R264). -/
def Mem.poisonWord (m : Mem) (w : Nat) : Mem := m.setDiff w poisonDiff

/-- Writes bytes inside word w at an offset: a whole word replaces everything, a part merges at the home and
keeps poison (R265). Answers whether the stored word was poisoned under a merge. -/
def Mem.writePart (m : Mem) (w off : Nat) (bs : List Byte) : Mem × Bool :=
  if bs.length = 16 then ((m.setBytes (16 * w) bs).setDiff w 0, false)
  else
    let d := m.decode w
    let m1 := (m.setBytes (16 * w) d.1).setBytes (16 * w + off) bs
    if d.2.isPoison then (m1.setDiff w poisonDiff, true) else (m1.setDiff w 0, false)

/-- The pieces of a byte string by the words it covers: (word, offset, bytes). -/
def wordPieces : Nat → Nat → List Byte → List (Nat × Nat × List Byte)
  | 0, _, _ => []
  | _ + 1, _, [] => []
  | k + 1, a, bs =>
    let n := 16 - a % 16
    (a / 16, a % 16, bs.take n) :: wordPieces k (a + n) (bs.drop n)

/-- Writes a byte string at an address (R265); answers whether a partly written word was poisoned. -/
def Mem.write (m : Mem) (a : Nat) (bs : List Byte) : Mem × Bool :=
  (wordPieces (bs.length + 1) a bs).foldl
    (fun p q => let r := p.1.writePart q.1 q.2.1 q.2.2; (r.1, p.2 || r.2)) (m, false)

/-- The numbers of the words that n bytes at an address touch. -/
def wordsOf (a n : Nat) : List Nat :=
  if n = 0 then [] else (List.range ((a + n - 1) / 16 - a / 16 + 1)).map (a / 16 + ·)

/-- Poisons every word that n bytes at an address touch. -/
def Mem.poison (m : Mem) (a n : Nat) : Mem := (wordsOf a n).foldl Mem.poisonWord m

/-- n bytes at an address as their reader sees them. -/
def Mem.bytesAt (m : Mem) (a n : Nat) : List Byte :=
  (((wordsOf a n).flatMap fun w => (m.decode w).1).drop (a % 16)).take n

/-- Whether a read of n bytes at an address meets poison. -/
def Mem.poisonAt (m : Mem) (a n : Nat) : Bool := (wordsOf a n).any fun w => (m.decode w).2.isPoison

/-- The frame table entry of a frame (R267): every frame of a RAN hatch set is the RAN partition's (R254). -/
def MemTiers.frame (t : MemTiers) (f : Nat) : Frame :=
  if t.setRan.getLsbD (f / 0x60000) then { owner := 256, dirty := 0, track := false }
  else Tab.get (frameDefault f) t.frames f

/-- Sets a frame table entry. -/
def MemTiers.setFrame (t : MemTiers) (f : Nat) (e : Frame) : MemTiers :=
  { t with frames := Tab.set (frameDefault f) t.frames f e }

/-- The first address above HBM (Table 9.2). -/
abbrev hbmEnd : Nat := 0xC000000000

/-- Sets the dirty bits that a write of n bytes at an HBM address sets in tracked frames (R272). -/
def MemTiers.markDirty (t : MemTiers) (a n : Nat) : MemTiers :=
  if n = 0 ∨ hbmEnd ≤ a then t
  else
    (List.range ((a + n - 1) / 4096 - a / 4096 + 1)).foldl (fun t i =>
      let sec := a / 4096 + i
      let f := sec / 16
      let e := t.frame f
      if e.track then t.setFrame f { e with dirty := e.dirty ||| BitVec.ofNat 16 (2 ^ (sec % 16)) } else t) t

/-- Writes bytes to device memory, tracked frames marked (R265, R272). -/
def MemTiers.write (t : MemTiers) (a : Nat) (bs : List Byte) : MemTiers × Bool :=
  let r := t.mem.write a bs
  ({ t with mem := r.1 }.markDirty a bs.length, r.2)

/-! ### Drypoint triggers (R482, R484) -/

/-- Changes the record unit. -/
def updRec (f : RecUnit → RecUnit) (s : State) : State := { s with det := { s.det with recUnit := f s.det.recUnit } }

/-- Changes the drypoint. -/
def updDry (f : Dry → Dry) (s : State) : State := { s with det := { s.det with dry := f s.det.dry } }

/-- `DRY_CTRL`.OVERWRITE. -/
def Dry.overwrite (d : Dry) : Bool := d.ctrl.getLsbD 7

/-- `DRY_STATUS`.ARMED: the drypoint waits for a source. Log 47 (DESIGN CHOICE). -/
def Dry.waits (d : Dry) : Bool := d.ctrl.getLsbD 0 && (!d.held || d.overwrite)

/-- One more missed trigger, saturating (R484). Log 47 (DESIGN CHOICE). -/
def Dry.miss (d : Dry) : Dry := { d with missed := if d.missed = 255 then 255 else d.missed + 1 }

/-- The `DRY_CTRL` bit that enables a source, by its bit in SOURCE. -/
def dryEnable (src : Nat) : Nat := if src < 4 then src + 2 else src + 12

/-- The first multiple of 16 ridge ticks at or after t + 128 (R482). Log 47 (DESIGN CHOICE). -/
def snapInstant (t : Nat) : Nat := alignUp (t + 128) 16

/-- A drypoint source occurs (R482, R484): 0 ridge match, 1 and 2 TIN0 and TIN1, 3 mailbox, 4 + e event e of
Table 17.6. Log 47 (DESIGN CHOICE). -/
def dryTriggerAt (src t : Nat) (s : State) : State :=
  let d := s.det.dry
  if ¬ d.ctrl.getLsbD 0 ∨ ¬ d.ctrl.getLsbD (dryEnable src) then s
  else if d.held ∧ ¬ d.overwrite then updDry Dry.miss s
  else updDry (fun d => { d with due := d.due ++ [(snapInstant t, 2 ^ src)] }) s

/-- An event of Table 17.6 occurs. Log 47 (DESIGN CHOICE). -/
def dryEvent (e : Nat) (s : State) : State := dryTriggerAt (4 + e) s.now s

/-- Whether the fence stops the radio side: with `LEASE_CTRL`.REQUIRED at 0 a device that has no lease, or has been reset, still
runs its cells and its eCPRI egress (R495). Log 64 (DEDUCED). -/
def State.radioFenced (s : State) : Bool := s.flt.fenced && (s.flt.required || decide (2 ≤ s.flt.cause.toNat ∧ s.flt.cause.toNat ≤ 4))

/-! ### Fault reporting (R487, R496) -/

/-- One more event of a health category in the running window (R496). -/
def healthCount (c n : Nat) (s : State) : State :=
  { s with flt := { s.flt with
      health := Tab.upd (healthDefault c) s.flt.health c fun h => { h with count := h.count + n } } }

/-- Fields of a lease or fault event frame before its BODY and TAG (Table 18.3). -/
def leaseHeader (s : State) (type flags nonce ridge duration : Nat) : List (Nat × Nat × Nat) :=
  [(0, 1, type), (1, 1, 1), (2, 2, s.fab.hall), (4, 8, Config.serial.toNat), (12, 2, s.flt.epoch.toNat), (14, 2, flags),
   (16, 4, nonce), (20, 8, ridge), (28, 4, duration)]

/-- The TAG of a frame the device sends: HMAC-SHA-256 under the lease key; before a key is held, open bytes. Log 22 (DEDUCED). -/
def tagFor (s : State) (m : List Byte) : List Byte × State :=
  if s.flt.keySet then (frameTag s.flt.key m, s) else s.drawBytes 16

/-- Sends one payload on both management ports with the fault manager's addressing. -/
def sendMgmt (payload : List Byte) (s : State) : State :=
  emitAll ((List.range 2).map fun p =>
    Output.mgmtFrame p (Tab.get 0 s.flt.fmMac p).toNat (Tab.get 0 s.flt.fmVlan p).toNat payload) s

/-- A tagged lease or fault event frame of 80 bytes, sent on both management ports (R487, R488). -/
def sendLease (fields : List (Nat × Nat × Nat)) (s : State) : State :=
  let b := record 64 fields
  let t := tagFor s b
  sendMgmt (b ++ t.1) t.2

/-- Sends a fault event frame with its count, first ridge count and data (Table 18.3). -/
def sendEvent (code count first : Nat) (data : List Byte) (s : State) : State :=
  let s1 := { s with flt := { s.flt with
    cnt := bump s.flt.cnt 9,
    events := Tab.set EventCode.reset s.flt.events code
      { sent := some s.epochNow, held := 0, firstRidge := 0, data := [] } } }
  sendLease (leaseHeader s 4 0 0 s.now 0 ++
    [(32, 2, code), (34, 4, count), (40, 8, first), (48, 16, ofLE (sliceBytes data 0 16))]) (dryEvent 6 s1)

/-- A fault event (R487): sent at once if its code has not been sent in this epoch or is never held back,
otherwise counted until the next epoch. Log 47 (DESIGN CHOICE), 65 (DESIGN CHOICE). -/
def faultEvent (code : Nat) (data : List Byte) (s : State) : State :=
  let e := Tab.get EventCode.reset s.flt.events code
  if code = 1 ∨ code = 2 ∨ (e.sent ≠ some s.epochNow ∧ e.held = 0) then sendEvent code 1 s.now data s
  else
    let e' := { e with held := e.held + 1,
                       firstRidge := if e.held = 0 then s.now else e.firstRidge,
                       data := if e.held = 0 then data else e.data }
    { s with flt := { s.flt with cnt := bump s.flt.cnt 10, events := Tab.set EventCode.reset s.flt.events code e' } }

/-! ### Reading device memory with its corrections counted -/

/-- Records the first uncorrectable word since `MEM_UE_LOG`.VALID was cleared, and reports it (R265). -/
def logUncorrectable (source a : Nat) (s : State) : State :=
  let s := healthCount 1 1 s
  if s.mem.ueValid then s
  else
    let m := { s.mem with ueValid := true, ueSource := BitVec.ofNat 7 source, ueAddr := BitVec.ofNat 36 (a / 16) }
    faultEvent 3 (leBytes 8 (2 ^ 63 + (source % 128) * 2 ^ 56 + (a / 16 % 2 ^ 36) * 16)) (dryEvent 0 { s with mem := m })

/-- Who makes a request: 0 to 255 a compute context, 256 the RAN partition, 257 a device block, 258 the rack. -/
abbrev Who := Nat

/-- The context or partition of a core: RAN cores serve the RAN partition, a compute core its resident context. -/
def coreHolder (s : State) (k : Nat) : Who :=
  if s.plates.ranCores.getLsbD k then 256
  else (Tab.get Core.reset s.core.cores k).resident.getD 257

/-- A cluster buffer way. -/
def State.way (s : State) (c w : Nat) : Way := Tab.get Way.reset s.core.ways (16 * c + w)

/-- The cluster buffer way of an address (Table 9.2). -/
def wayOf (s : State) (a : Nat) : Way := s.way ((a - 0xE000000000) / 0x800000) ((a - 0xE000000000) / 0x80000 % 16)

/-- Whose the data at a device address is: its frame's owner, or the holder of its way or scratchpad (R251, R267). -/
def holderOf (s : State) (a : Nat) : Who :=
  if a < hbmEnd then (s.mem.frame (a / 65536)).owner
  else if 0xE000000000 ≤ a ∧ a < 0xE020000000 then
    (if (wayOf s a).ran then 256 else if (wayOf s a).held then (wayOf s a).ctx else 257)
  else if 0xE800000000 ≤ a ∧ a < 0xE810000000 then coreHolder s ((a - 0xE800000000) / 0x80000)
  else 257

/-- The granule of an HBM address within its set: g of R255. -/
def hatchGranule (a : Nat) : Nat := a % 0x600000000 / 256

/-- The channel member × 2 + pseudo-channel of an HBM address within its set: m of R255. -/
def hatchMember (a : Nat) : Nat :=
  let g := hatchGranule a
  (g ^^^ (g >>> 6) ^^^ (g >>> 12) ^^^ (g >>> 18) ^^^ (g >>> 24)) % 64

/-- The hatch set of an HBM address (R254). -/
def hatchSet (a : Nat) : Nat := a / 0x600000000

/-- The HBM channel of an address (R255). -/
def hatchChannel (a : Nat) : Nat := 256 * (hatchSet a / 8) + 8 * (hatchMember a / 2) + hatchSet a % 8

/-- The place of an HBM address in its channel (R255). -/
structure HatchPlace where
  pc : Nat
  bank : Nat
  row : Nat
  col : Nat
  byte : Nat
deriving DecidableEq, Repr

/-- Pseudo-channel, bank, row, column granule and byte of an HBM address (R255). -/
def hatchPlace (a : Nat) : HatchPlace :=
  let r := hatchGranule a >>> 6
  { pc := hatchMember a % 2, bank := ((r >>> 2) ^^^ (r >>> 6) ^^^ (r >>> 10) ^^^ (r >>> 14)) % 16, row := r >>> 6, col := r % 4,
    byte := a % 256 }

/-- Whether a channel is in its refresh slot (R256). -/
def refreshing (s : State) (h : Nat) : Bool :=
  decide (32 * (h % 16) ≤ s.now % battenTicks ∧ s.now % battenTicks < 32 * (h % 16) + 24)

/-- Whether a request to a device address waits at a refreshing channel (R256). -/
def waitsRefresh (s : State) (a : Nat) : Bool := decide (a < hbmEnd) && refreshing s (hatchChannel a)

/-- The granules that n bytes at a device address lie in. -/
def granulesOf (a n : Nat) : List Nat :=
  if n = 0 then [] else (List.range ((a + n - 1) / 256 - a / 256 + 1)).map fun i => 256 * (a / 256 + i)

/-- Counts a requester's requests for n bytes that wait for a refresh slot, one for each granule, in EV_REFRESH_STALL (R256).
Log 23 (DEDUCED). -/
def stall (who : Who) (a n : Nat) (s : State) : State :=
  let k := ((granulesOf a n).filter (waitsRefresh s)).length
  if k = 0 ∨ 257 ≤ who then s
  else { s with mem := { s.mem with evStall := bumpBy s.mem.evStall who k } }

/-- Accounts what the decoder found in word w when it is read (R263, R264): corrections count in EV_CORRECTED
and, in HBM, in `MEM_ECC_CNT`; an uncorrectable word is logged. -/
def accountWord (source : Nat) (w : Nat) (o : EccOutcome) (s : State) : State :=
  let a := 16 * w
  let stack := 2 * (hatchChannel a / 32)
  if o.isCorrected then
    let m := { s.mem with evCorrected := bump s.mem.evCorrected (holderOf s a) }
    if a < hbmEnd then healthCount 0 1 { s with mem := { m with eccCnt := bump m.eccCnt stack } }
    else { s with mem := m }
  else if o = .uncorrectable then
    let s1 := if a < hbmEnd then { s with mem := { s.mem with eccCnt := bump s.mem.eccCnt (stack + 1) } } else s
    logUncorrectable source a s1
  else s

/-- What a reader of n bytes at a device address gets: the bytes and whether poison is among them. -/
structure ReadOut where
  bytes : List Byte
  poison : Bool
deriving DecidableEq, Repr

/-- The decoder meets word w: what it finds is accounted, and an uncorrectable word is poisoned, so that it is found once (R263 to
R265). -/
def checkWord (source : Nat) (s : State) (w : Nat) : State :=
  let o := eccDecode (s.mem.mem.diffAt w)
  let s1 := accountWord source w o s
  if o = .uncorrectable then { s1 with mem := { s1.mem with mem := s1.mem.mem.poisonWord w } } else s1

/-- The source of an error found in a word of an address: an HBM read or the SRAM (`MEM_UE_LOG`). -/
def readSource (a : Nat) : Nat := if a < hbmEnd then 0 else 2

/-- The decoder meets the words of a range that hold anything but clean check bits. -/
def checkRange (source a n : Nat) (s : State) : State :=
  ((s.mem.mem.diff.map fun (e : Nat × BitVec 16) => e.1).filter fun w => decide (a ≤ 16 * w + 15 ∧ 16 * w < a + n)).foldl
    (checkWord source) s

/-- Reads n bytes at a device address (R263 to R265). -/
def readWords (a n : Nat) (s : State) : ReadOut × State :=
  ({ bytes := s.mem.mem.bytesAt a n, poison := s.mem.mem.poisonAt a n }, (wordsOf a n).foldl (checkWord (readSource a)) s)

/-- Reads n bytes at a device address for a requester (R256, R263 to R265). -/
def memRead (who : Who) (a n : Nat) (s : State) : ReadOut × State :=
  let r := readWords a n s
  (r.1, stall who a n r.2)

/-- The words that n bytes at an address cover only in part. -/
def edgeWords (a n : Nat) : List Nat :=
  (wordsOf a n).filter fun w => decide (16 * w < a ∨ a + n < 16 * w + 16)

/-- The home decodes the words that a write covers only in part before it merges (R263, R265). -/
def checkEdges (a n : Nat) (s : State) : State := (edgeWords a n).foldl (checkWord (readSource a)) s

/-- Writes bytes at a device address: a word covered in part is decoded and merged (R263, R265, R272). -/
def memWrite (a : Nat) (bs : List Byte) (s : State) : State :=
  let s1 := checkEdges a bs.length s
  { s1 with mem := (s1.mem.write a bs).1 }

/-- Whether writing n bytes at an address merges into a poisoned word (R265). -/
def mergesPoison (a : Nat) (bs : List Byte) (s : State) : Bool := (s.mem.write a bs).2

/-- Writes bytes at a device address for a requester (R256). -/
def memWriteFor (who : Who) (a : Nat) (bs : List Byte) (s : State) : State := memWrite a bs (stall who a bs.length s)

/-- Poisons the words that n bytes at a device address touch (R264). -/
def memPoison (a n : Nat) (s : State) : State :=
  { s with mem := ({ s.mem with mem := s.mem.mem.poison a n }.markDirty a n) }

/-- Writes bytes, poisoned if told so. -/
def memWriteP (a : Nat) (bs : List Byte) (poison : Bool) (s : State) : State :=
  let s1 := memWrite a bs s
  if poison then memPoison a bs.length s1 else s1

/-! ### Captures (R474 to R476) -/

/-- Bytes stored around a ring from an offset. -/
def ringWrite (base size off : Nat) (bs : List Byte) (s : State) : State :=
  let head := size - off % size
  memWrite base (bs.drop head) (memWrite (base + off % size) (bs.take head) s)

/-- A record with its header, payload and padding (Table 17.5). Log 48 (DESIGN CHOICE). -/
def recordBytes (type source ctx addr aux stamp seq : Nat) (poison : Bool) (payload : List Byte) : List Byte :=
  record 32 [(0, 1, type), (1, 1, bit poison), (2, 2, payload.length), (4, 2, source), (6, 2, ctx), (8, 8, stamp),
    (16, 8, addr), (24, 4, seq), (28, 4, aux)] ++ payload ++ List.replicate (alignUp payload.length 32 - payload.length) 0

/-- Bytes of staging still free: 16 MiB in all (R476). Log 48 (DESIGN CHOICE). -/
def stagingRoom (r : RecUnit) : Nat := 16777216 - 16 * (r.staged.map List.length).sum

/-- Whether n bytes of records find room: in the ring between `REC_WP` and `REC_RP`, or in the staging of an export
that is not stopped by the fence (R476). Log 48 (DESIGN CHOICE). -/
def recordRoom (s : State) (n : Nat) : Bool :=
  let r := s.det.recUnit
  if r.fabric then !s.flt.fenced && decide (n ≤ stagingRoom r)
  else if r.overwrite then decide (n ≤ r.size)
  else decide (n + 32 ≤ r.size - (r.wp.toNat + r.size - r.rp.toNat) % r.size)

/-- Writes one record where the unit puts its records; `poison` lists the poisoned 16-byte words of the payload. Log 48 (DESIGN CHOICE). -/
def putRecord (bs : List Byte) (poison : List Nat) (s : State) : State :=
  let r := s.det.recUnit
  let s1 := updRec (fun r => { r with
    seq := (r.seq + 1) % 2 ^ 32, written := satNat 64 r.written 1, cnt := bumpBy (bump r.cnt 0) 2 bs.length }) s
  if r.fabric then
    updRec (fun r => { r with staged := r.staged ++ [(chunks 16 bs).mapIdx fun i w =>
      codeWord (BitVec.ofNat 128 (ofLE w)) (if 2 ≤ i ∧ poison.contains (i - 2) then poisonDiff else 0)] }) s1
  else
    let s2 := ringWrite r.base r.size r.wp.toNat bs s1
    let s3 := poison.foldl (fun s j => memPoison (r.base + (r.wp.toNat + 32 + 16 * j) % r.size) 16 s) s2
    updRec (fun r => { r with wp := BitVec.ofNat 36 ((r.wp.toNat + bs.length) % r.size) }) s3

/-- Captures a record while the unit records, a loss marker before it if records were lost; without room it is lost
whole (R474 to R476). Log 11 (DESIGN CHOICE), 48 (DESIGN CHOICE). -/
def capture (type source ctx addr aux stamp : Nat) (payload : List Byte) (poison : List Nat) (s : State) : State :=
  let r := s.det.recUnit
  if ¬ r.recording then s
  else
    let loss := if r.lossPending = 0 then []
      else recordBytes 8 0 (r.ctx.getD 0xFFFF) 0 0 r.lossAt r.seq false (leBytes 8 r.lossPending)
    let seq := if loss = [] then r.seq else (r.seq + 1) % 2 ^ 32
    let bs := recordBytes type source ctx addr aux stamp seq (poison ≠ []) payload
    if recordRoom s (loss.length + bs.length) then
      let s1 := if loss = [] then s else updRec (fun r => { r with lossPending := 0 }) (putRecord loss [] s)
      putRecord bs poison s1
    else updRec (fun r => { r with
      lost := satNat 64 r.lost 1, lossPending := satNat 64 r.lossPending 1,
      lossAt := if r.lossPending = 0 then stamp else r.lossAt, lossFlag := true, cnt := bump r.cnt 1 }) s

/-- Whether a context is the one that the unit records. -/
def recordsCtx (s : State) (c : Nat) : Bool := s.det.recUnit.recording && s.det.recUnit.ctx == some c

/-- Whether a context is being replayed (R480). -/
def replaysCtx (s : State) (c : Nat) : Bool :=
  match s.det.replay with
  | some r => r.ctx == some c
  | none => false

/-- The aligned words that n bytes at an offset cover. -/
def coveredWords (o n : Nat) : Nat := (o % 16 + n + 15) / 16

/-- The poisoned words among n bytes at a device address, counted from the start. -/
def poisonWords (s : State) (a n : Nat) : List Nat :=
  (List.range (ceilDiv n 16)).filter fun i => s.mem.mem.poisonAt (a + 16 * i) (min 16 (n - 16 * i))

/-- Whether every frame that n bytes at an HBM address touch is owned by a compute context (R267). -/
def ctxOwns (s : State) (ctx a n : Nat) : Bool :=
  decide (a + n ≤ hbmEnd) && (List.range ((a + n - 1) / 65536 - a / 65536 + 1)).all fun i =>
    (s.mem.frame (a / 65536 + i)).owner == ctx

/-- A device address read that a command makes for a context (R515, R516): the bytes, or the status it ends with. -/
def deviceData (s : State) (ctx a n : Nat) : Nat × List Byte × State :=
  if ¬ ctxOwns s ctx a n then (stBadParam, [], s)
  else
    let r := memRead ctx a n s
    (if r.1.poison then stPoison else stOk, r.1.bytes, r.2)

/-! ### Functions, vectors and host writes -/

/-- A function's entry. -/
def State.fn (s : State) (n : Nat) : Fn := Tab.get (fnDefault n) s.host.fns n

/-- Sets a function's entry. -/
def State.setFn (s : State) (n : Nat) (f : Fn) : State :=
  { s with host := { s.host with fns := Tab.set (fnDefault n) s.host.fns n f } }

/-- One event of a host interface counter (Table 15.10). Log 10 (DESIGN CHOICE). -/
def hifCount (i : Nat) (s : State) : State := { s with host := { s.host with cnt := bump s.host.cnt i } }

/-- A write to the host cut into packets: none longer than the Max Payload Size of 512 bytes, none across a host page (R418). -/
def payloads : Nat → Nat → List Byte → List (Nat × List Byte)
  | 0, _, _ => []
  | k + 1, a, bs =>
    if bs = [] then []
    else
      let n := min 512 (4096 - a % 4096)
      (a, bs.take n) :: payloads k (a + n) (bs.drop n)

/-- The packets of a write at a host address. -/
def packetsOf (addr : Nat) (bytes : List Byte) : List (Nat × List Byte) :=
  payloads (ceilDiv bytes.length 512 + ceilDiv bytes.length 4096 + 2) addr bytes

/-- A DMA write of a function, in its packets (R418): none leaves during its teardown (R437). Log 10 (DESIGN CHOICE), 16 (DEDUCED), 20
(DESIGN CHOICE). -/
def hostWrite (fn addr : Nat) (bytes : List Byte) (ep : Bool) (s : State) : State :=
  if (s.fn fn).state = 2 then s else emitAll ((packetsOf addr bytes).map fun p => .hostWrite fn p.1 p.2 ep) s

/-! ### Addresses that ATS translates (R433) -/

/-- What the host address of a queue's function leads to (R433): itself while ATS is off, otherwise what the address translation
cache holds of its page. -/
inductive HostPlace where
  | direct
  | missing
  | refused
  | translated (addr : Nat)
deriving DecidableEq, Repr

/-- Where a read or a write at a host address of a function's queue goes (R433). -/
def hostPlace (s : State) (fn a : Nat) (write : Bool) : HostPlace :=
  if ¬ (s.fn fn).atsEn then .direct
  else
    match s.host.atc.find? (fun e => e.fn == fn && e.page == a / 4096) with
    | none => .missing
    | some e => if (if write then e.write else e.read) then .translated (4096 * e.phys + a % 4096) else .refused

/-- Whether an access may go now. -/
def HostPlace.usable : HostPlace → Bool
  | .direct => true
  | .translated _ => true
  | _ => false

/-- The pages that n bytes at a host address touch, by an address in each. -/
def pagesOf (a n : Nat) : List Nat := (List.range ((a + n - 1) / 4096 - a / 4096 + 1)).map fun i => max a (4096 * (a / 4096 + i))

/-- The first of some host ranges that meets a place of a kind, by an address in its page. -/
def firstPlace (s : State) (fn : Nat) (write : Bool) (kind : HostPlace) (ranges : List (Nat × Nat)) : Option Nat :=
  if ¬ (s.fn fn).atsEn then none
  else (ranges.flatMap fun r => pagesOf r.1 r.2).find? fun a => hostPlace s fn a write == kind

/-- The non-posted requests that the device has outstanding: DMA reads and Translation Requests (R418). -/
def nonPosted (s : State) : Nat := s.host.reads.length + s.host.atsPending.length

/-- Asks for a translation once (R433), if the device has fewer than 1,024 non-posted requests outstanding (R418). -/
def askTranslation (fn page : Nat) (s : State) : State :=
  if s.host.atsPending.contains (fn, page) ∨ 1024 ≤ nonPosted s then s
  else emit (.atsRequest fn page) { s with host := { s.host with atsPending := s.host.atsPending ++ [(fn, page)] } }

/-- Sends a DMA read of a queue, at its translation if it has one (R433). -/
def hostAsk (fn addr len : Nat) (s : State) : State :=
  match hostPlace s fn addr false with
  | .translated a => emit (.translatedRead fn a len) s
  | _ => emit (.hostRead fn addr len) s

/-- A DMA write of a queue (R433): each page's part goes to its translation; a part without permission is not written. -/
def queueWrite (fn addr : Nat) (bytes : List Byte) (ep : Bool) (s : State) : State :=
  if ¬ (s.fn fn).atsEn then hostWrite fn addr bytes ep s
  else if (s.fn fn).state = 2 then s
  else (pagesOf addr bytes.length).foldl (fun s a =>
    match hostPlace s fn a true with
    | .translated x =>
      emitAll ((packetsOf x ((bytes.drop (a - addr)).take (4096 - a % 4096))).map fun p => .translatedWrite fn p.1 p.2 ep) s
    | _ => s) s

/-! ### Messages of egress 80 (R436) -/

/-- Sends a message that waited or is new, and counts it in its batten (R436, R443). -/
def putMessage (o : Output) (s : State) : State :=
  let b := s.now / battenTicks
  let n := if s.host.msgBatten = b then s.host.msgCount + 1 else 1
  let s1 := emit o { s with host := { s.host with msgBatten := b, msgCount := n } }
  match o with
  | .msix .. => hifCount 6 s1
  | _ => s1

/-- How many messages may still be sent in this batten (R436). -/
def messageRoom (s : State) : Nat := 64 - (if s.host.msgBatten = s.now / battenTicks then s.host.msgCount else 0)

/-- Sends an MSI-X message or a mailbox completion write; one beyond 64 in a batten waits for the next (R436). -/
def sendMessage (o : Output) (s : State) : State :=
  if s.host.msgWait = [] ∧ 0 < messageRoom s then putMessage o s
  else { s with host := { s.host with msgWait := s.host.msgWait ++ [o] } }

/-- The function that a waiting message comes from. -/
def Output.sender : Output → Nat
  | .msix fn .. => fn
  | .hostWrite fn .. => fn
  | _ => 256

/-- Whether a message is an MSI-X message. -/
def Output.isMsix : Output → Bool
  | .msix .. => true
  | _ => false

/-- The place of the next message of a waiting list (R436): the first MSI-X message that announces no completion write still ahead
of it, else the first completion write. Log 83 (DEDUCED). -/
def nextMessage (l : List Output) : Nat :=
  let ok := fun (i : Nat) => match l[i]? with
    | some o => o.isMsix && !(l.take i).any fun x => !x.isMsix && x.sender == o.sender
    | none => false
  ((List.range l.length).find? ok).getD 0

/-- Sends up to n waiting messages. -/
def releaseMessages : Nat → State → State
  | 0, s => s
  | n + 1, s =>
    match s.host.msgWait[nextMessage s.host.msgWait]? with
    | none => s
    | some o => releaseMessages n (putMessage o { s with host := { s.host with
        msgWait := s.host.msgWait.eraseIdx (nextMessage s.host.msgWait) } })

/-- The messages that this batten has room for leave (R436). -/
def releaseDue (s : State) : State := if s.host.msgWait = [] then s else releaseMessages (messageRoom s) s

/-- The block with no command waiting: one root cycle passes, unless power-on reset is held (R550), and messages that waited for
the batten are sent (R436). Log 2 (DESIGN CHOICE). -/
def State.idle (s : State) : State := if s.dev.por then s else releaseDue { s with clk := s.clk.tick }

/-- The MSI-X table entry of a vector. -/
def State.vec (s : State) (fn v : Nat) : Msix := Tab.get Msix.reset s.host.msix (4096 * fn + v)

/-- Sets an MSI-X table entry. -/
def State.setVec (s : State) (fn v : Nat) (e : Msix) : State :=
  { s with host := { s.host with msix := Tab.set Msix.reset s.host.msix (4096 * fn + v) e } }

/-- Signals a vector of a function: a masked one becomes pending, another sends its message (R435). Log 16 (DEDUCED). -/
def raiseVector (fn v : Nat) (s : State) : State :=
  let f := s.fn fn
  if f.state = 2 ∨ f.vectors ≤ v then s
  else
    let e := s.vec fn v
    if e.masked then s.setVec fn v { e with pending := true }
    else sendMessage (.msix fn v e.addr.toNat e.data.toNat) s

/-- Sets bits of `FN_ERR` and raises the function's error vector. Log 15 (DEDUCED). -/
def raiseFnErr (fn : Nat) (bits : BitVec 5) (s : State) : State :=
  let f := s.fn fn
  raiseVector fn f.errVector (s.setFn fn { f with err := f.err ||| bits })

/-- A DMA error: it sets its bit of `FN_ERR` and is reported through AER (R432). -/
def dmaError (fn : Nat) (bits : BitVec 5) (s : State) : State := emit (.aer fn bits) (raiseFnErr fn bits s)

/-! ### Mailbox completions (R517 to R519) -/

/-- The rings of a function. -/
def State.ring (s : State) (fn : Nat) : MbxRing := Tab.get MbxRing.reset s.mbx.rings fn

/-- Sets the rings of a function. -/
def State.setRing (s : State) (fn : Nat) (r : MbxRing) : State :=
  { s with mbx := { s.mbx with rings := Tab.set MbxRing.reset s.mbx.rings fn r } }

/-- A little-endian field of a command descriptor (R515). -/
def mfld (m : Mbx) (off n : Nat) : Nat := (m.desc.toNat >>> (8 * off)) % 256 ^ n

/-- The 64 bytes of a command descriptor. -/
def mbytes (m : Mbx) : List Byte := leBytes 64 m.desc.toNat

/-- What a command returns: short and full result fields as (completion byte, bytes, value), and a block. -/
structure Result where
  fields : List (Nat × Nat × Nat)
  block : Option (List Byte)
deriving DecidableEq, Repr

def Result.none : Result := { fields := [], block := Option.none }

/-- The 32 bytes of a completion (Table 19.2). -/
def completionBytes (status slot flags : Nat) (r : Result) (blockLen : Option Nat) : List Byte :=
  record 32 ([(0, 2, status), (2, 2, slot % 65536), (4, 1, flags)] ++ r.fields ++
    (match blockLen with
     | some n => [(28, 4, n)]
     | Option.none => []))

/-- Writes a completion on a function's ring, its block first, and signals MBX_VECTOR where R519 says. -/
def completeFn (fn : Nat) (i : Inflight) (status : Nat) (r : Result) (s : State) : State :=
  let g := s.ring fn
  let idx := g.cplPI.toNat
  let slots := 2 ^ g.cplLog
  let phase := (idx / slots + 1) % 2
  let room := if i.resAddr = 0 then 0 else i.resLen
  let cut := match r.block with
    | some b => decide (room < b.length)
    | Option.none => false
  let written := match r.block with
    | some b => b.take room
    | Option.none => []
  let flags := phase + 2 * bit (written ≠ []) + 4 * bit cut
  let s1 := if written = [] then s else hostWrite fn i.resAddr written false s
  let blen := match r.block with
    | some b => if written = [] then Option.none else some b.length
    | Option.none => Option.none
  let entry := Output.hostWrite fn (g.cplBase + 32 * (idx % slots)) (completionBytes status i.slot flags r blen) false
  let s2 := if (s1.fn fn).state = 2 then s1 else sendMessage entry s1
  let rest := g.inflight.filter (· ≠ i)
  let s3 := s2.setRing fn { g with cplPI := g.cplPI + 1, inflight := rest, firstSinceCI := false }
  if i.intr ∨ g.firstSinceCI then raiseVector fn (s.fn fn).mbxVector s3 else s3

/-- Sends a completion of the management ring on both ports and caches it for repeats (R517, R518, R526). Log 14 (DEDUCED). -/
def completeMgmt (i : Inflight) (status : Nat) (r : Result) (s : State) : State :=
  let room := min 1024 (if i.resLen = 0 then 1024 else i.resLen)
  let data := match r.block with
    | some b => b.take room
    | Option.none => []
  let cut := match r.block with
    | some b => decide (room < b.length)
    | Option.none => false
  let flags := 2 * bit r.block.isSome + 4 * bit cut
  let body := completionBytes status i.slot flags r (r.block.map List.length)
  let head := record 32 [(0, 1, 7), (1, 1, 1), (2, 2, s.fab.hall), (4, 8, Config.serial.toNat), (12, 4, i.slot),
    (16, 2, data.length)] ++ body ++ List.replicate 32 0 ++ data
  let t := tagFor s head
  let payload := head ++ t.1
  let s1 := sendMgmt payload t.2
  let seen := s1.mbx.seen.map fun e => if e.mseq = i.slot then { e with reply := some payload } else e
  { s1 with mbx := { s1.mbx with
      seen := seen, mgmtInflight := s1.mbx.mgmtInflight.filter (· ≠ i), mgmtCnt := bumpBy s1.mbx.mgmtCnt 5 2 } }

/-- Ends a command that the device itself runs: its status is kept and nothing is sent. -/
def completeSilent (input : Nat) (i : Inflight) (status : Nat) (s : State) : State :=
  let s1 := { s with mbx := { s.mbx with silentStatus := status } }
  if input < 256 then
    let g := s1.ring input
    s1.setRing input { g with inflight := g.inflight.filter (· ≠ i) }
  else { s1 with mbx := { s1.mbx with mgmtInflight := s1.mbx.mgmtInflight.filter (· ≠ i) } }

/-- Completes an accepted command by its ring and slot: a command no longer in flight (its function was torn
down) completes without a completion (R512). -/
def completeSlot (input slot status : Nat) (r : Result) (s : State) : State :=
  if input < 256 then
    match (s.ring input).inflight.find? (·.slot == slot) with
    | some i => if i.silent then completeSilent input i status s else completeFn input i status r s
    | Option.none => s
  else
    match s.mbx.mgmtInflight.find? (·.slot == slot) with
    | some i => if i.silent then completeSilent input i status s else completeMgmt i status r s
    | Option.none => s

/-- The in-flight record of a command accepted now. -/
def inflightOf (m : Mbx) (s : State) : Inflight :=
  { slot := m.slot.toNat, intr := bitAt (mfld m 2 1) 0, resAddr := mfld m 8 8, resLen := 64 * mfld m 6 2, since := s.now,
    silent := false, opcode := mfld m 0 2 }

/-- Counts a command as accepted if its acceptance has not been seen (R520): a function's ring must be enabled
and its function READY. Log 10 (DESIGN CHOICE). -/
def beginCmd (m : Mbx) (s : State) : State :=
  let i := inflightOf m s
  let fn := m.input.toNat
  if fn < 256 then
    let g := s.ring fn
    if g.inflight.any (·.slot == i.slot) ∨ ¬ g.en ∨ (s.fn fn).state ≠ 1 then s
    else s.setRing fn { g with inflight := g.inflight ++ [i], cmdCI := g.cmdCI + 1 }
  else if s.mbx.mgmtInflight.any (·.slot == i.slot) then s
  else { s with mbx := { s.mbx with mgmtInflight := s.mbx.mgmtInflight ++ [i] } }

/-- Completes a command. -/
def complete (m : Mbx) (status : Nat) (r : Result) (s : State) : State :=
  completeSlot m.input.toNat m.slot.toNat status r (beginCmd m s)

/-- Who may issue a command (R524). Log 73 (DEDUCED). -/
inductive By where
  | pf
  | any
  | own
  | mgmt
  | pfMgmt
deriving DecidableEq, Repr

/-- Whether an issuer is allowed: P is the PF, or the management ring as if it were the PF; F any function;
M the management ring; A all (R524). Log 32 (DEDUCED). -/
def issuerOk (b : By) (input : Nat) : Bool :=
  match b with
  | .pf => input == 0 || input == 256
  | .any => true
  | .own => input < 256
  | .mgmt => input == 256
  | .pfMgmt => input == 0 || input == 256

/-- The bytes of a descriptor of which an opcode uses some bits only, each with the mask of those (Tables 19.5 to 19.16, 9.9, 12.8, 13.4,
14.2, 17.6). -/
def partBytes (opcode : Nat) : List (Nat × Nat) :=
  match opcode with
  | 0x0103 | 0x030A | 0x0C07 => [(16, 0x01)]
  | 0x0304 => [(21, 0x01)]
  | 0x0307 => [(17, 0x01)]
  | 0x0311 | 0x0319 | 0x0603 | 0x0A06 => [(18, 0x01)]
  | 0x0401 => [(32, 0x0F)]
  | 0x0403 => [(17, 0x03)]
  | 0x0404 => [(23, 0x00)]
  | 0x0420 => [(20, 0x03)]
  | 0x0505 => [(19, 0x01)]
  | 0x0610 => [(32, 0x07)]
  | 0x0701 | 0x0805 => [(17, 0x01)]
  | 0x0801 => [(35, 0x07)]
  | 0x0804 | 0x0C06 => [(20, 0x01)]
  | 0x0A08 => [(24, 0xFD), (27, 0x03)]
  | 0x0C04 => [(22, 0x01)]
  | _ => []

/-- Whether a descriptor's reserved bytes, flags and bits are zero (R12, R514, R515). `fields` lists the (offset, length)
parameters of its opcode. -/
def reservedClear (m : Mbx) (fields : List (Nat × Nat)) : Bool :=
  onlyFields (mbytes m) ([(0, 3), (4, 12)] ++ fields) && decide (mfld m 2 1 < 4) &&
    (partBytes (mfld m 0 2)).all fun e => decide (mfld m e.1 1 &&& (255 - e.2) = 0)

/-- The checks that come before a command's own: its reserved fields (R12), the issuer (R524) and the reads of R516.
Log 17 (DEDUCED), 73 (DEDUCED). -/
def precheck (m : Mbx) (b : By) (fields : List (Nat × Nat)) : Nat :=
  if ¬ reservedClear m fields then stBadParam
  else if ¬ issuerOk b m.input.toNat then stBadParam
  else
    match m.data with
    | .ok _ _ => stOk
    | .poisoned => stPoison
    | .failed => stUncorrectable
    | .refused => stBadParam

/-- The function a command acts for: its issuer, with the management ring as the PF (R524). -/
def issuer (m : Mbx) : Nat := if m.input.toNat < 256 then m.input.toNat else 0

/-- The first byte string a command read. -/
def mdata (m : Mbx) : List Byte :=
  match m.data with
  | .ok a _ => a
  | _ => []

/-- The second byte string a command read. -/
def mdata2 (m : Mbx) : List Byte :=
  match m.data with
  | .ok _ b => b
  | _ => []

/-- Captures an accepted mailbox command of the recorded context's function with what it read (Table 17.4, type 2). Log 48 (DESIGN CHOICE). -/
def captureCommand (fn slot opcode : Nat) (bs : List Byte) (s : State) : State :=
  if fn < 256 ∧ recordsCtx s fn then
    let t := ((s.ring fn).inflight.find? (·.slot == slot)).map Inflight.since
    capture 2 fn fn 0 opcode (t.getD s.now) bs [] s
  else s

/-- Whether a command comes from the ring of a function whose context is being replayed (R480); `REPLAY_STOP` is let
through. -/
def shutOut (m : Mbx) (s : State) : Bool :=
  decide (m.input.toNat < 256) && replaysCtx s m.input.toNat && mfld m 0 2 != 0x0A07 &&
    !(s.ring m.input.toNat).inflight.any fun i => i.slot == m.slot.toNat && i.silent

/-- Whether a command outside group 0x01 is turned away because Burin is in recovery (R553). -/
def recoveryRefuses (s : State) (opcode : Nat) : Bool := s.dev.fwRecovery && opcode / 256 != 1

/-- The acceptance of a command and the checks that come before its own: its status and the state (R12, R480, R524, R553). A reserved
field ends it first. Log 17 (DEDUCED). -/
def admitCmd (m : Mbx) (b : By) (fields : List (Nat × Nat)) (s : State) : Nat × State :=
  let s0 := beginCmd m s
  let clear := reservedClear m fields
  if clear ∧ recoveryRefuses s0 (mfld m 0 2) then (stNotReady, s0)
  else if clear ∧ shutOut m s0 then (stBusy, s0)
  else (precheck m b fields, captureCommand m.input.toNat m.slot.toNat (mfld m 0 2) (mbytes m ++ mdata m ++ mdata2 m) s0)

/-- The shape of every mailbox command: the common checks, then its own effect, which answers a status, a
result and the new state; nothing is done when a check fails (R524, R529). Log 10 (DESIGN CHOICE). -/
def runCmd (m : Mbx) (b : By) (fields : List (Nat × Nat)) (eff : State → Nat × Result × State) (s : State) :
    Host.Outcome State Fault Refusal :=
  let a := admitCmd m b fields s
  if a.1 ≠ stOk then .next (complete m a.1 Result.none a.2)
  else
    let r := eff a.2
    .next (complete m r.1 r.2.1 r.2.2)

/-- A refusal with a status: nothing is changed. Log 17 (DEDUCED). -/
def refuse (status : Nat) (s : State) : Nat × Result × State := (status, Result.none, s)

/-- Success without a result. -/
def done (s : State) : Nat × Result × State := (stOk, Result.none, s)

/-- The shape of a command that may wait: `none` leaves it in flight until a later command completes it. -/
def runCmdW (m : Mbx) (b : By) (fields : List (Nat × Nat)) (eff : State → Option (Nat × Result) × State) (s : State) :
    Host.Outcome State Fault Refusal :=
  let a := admitCmd m b fields s
  if a.1 ≠ stOk then .next (complete m a.1 Result.none a.2)
  else
    match eff a.2 with
    | (some r, s1) => .next (complete m r.1 r.2 s1)
    | (Option.none, s1) => .next s1

/-- A command's output through an address of its parameters: written to the host by the issuing function, or returned as the
result block on the management ring, where the address is not used (R515, R518). -/
def writeOut (m : Mbx) (addr : Nat) (bytes : List Byte) (s : State) : Nat × Result × State :=
  if m.input.toNat < 256 then (stOk, Result.none, hostWrite m.input.toNat addr bytes false s)
  else (stOk, { fields := [], block := some bytes }, s)

/-- A block of 8-byte items (R518). -/
def itemsBlock (vs : List Nat) : List Byte := vs.flatMap (leBytes 8)

/-! ### Records to device-produced queues (R429) -/

/-- A queue's entry. -/
def State.queue (s : State) (h : Nat) : Queue := Tab.get Queue.reset s.traf.queues h

/-- Sets a queue's entry. -/
def State.setQueue (s : State) (h : Nat) (q : Queue) : State :=
  { s with traf := { s.traf with queues := Tab.set Queue.reset s.traf.queues h q } }

/-- Whether a device-produced queue can take a record: bound, with a ring and not in ERROR. -/
def Queue.takesRecords (q : Queue) : Bool := q.en && q.hasRing && q.producer == 1 && q.error == 0

/-- The slots a record of n bytes takes at PI, the skip included (R429). -/
def Queue.slotsFor (q : Queue) (n : Nat) : Nat :=
  let slots := 2 ^ q.logSlots
  let need := ceilDiv n 64
  let at_ := q.pi.toNat % slots
  if at_ + need ≤ slots then need else slots - at_ + need

/-- Free slots of a queue's ring. -/
def Queue.room (q : Queue) : Nat := 2 ^ q.logSlots - (q.pi - q.ci).toNat

/-- Offers a record to a device-produced queue: it joins the queue's entries, or is dropped (`false`). -/
def postRecord (h : Nat) (r : QRecord) (s : State) : Bool × State :=
  let q := s.queue h
  let queued := (q.records.map fun x => ceilDiv x.bytes.length 64).sum
  if q.takesRecords ∧ q.slotsFor r.bytes.length + queued ≤ q.room then
    (true, s.setQueue h { q with records := q.records ++ [r] })
  else (false, s)

end Sys2Proof.Machine
end

