-- ==== Sys2Proof/Machine/Memory.lean ====
section
/-!
DEFINITION. Access to device memory, allocation, quotas, refresh and scrubbing (chapter 09).
-/
namespace Sys2Proof.Machine
open Sys2Proof

/-- Whether a requester holds the memory at one device address (R251, R253, R267). -/
def holds (s : State) (who : Who) (a : Nat) : Bool :=
  if a < hbmEnd then
    let o := (s.mem.frame (a / 65536)).owner
    if who = 257 then true else o == who
  else if 0xE000000000 ≤ a ∧ a < 0xE020000000 then
    let w := wayOf s a
    !w.cache && (who == 257 || (w.ran && who == 256) || (!w.ran && w.held && w.ctx == who))
  else if 0xE800000000 ≤ a ∧ a < 0xE810000000 then
    who == 257 || coreHolder s ((a - 0xE800000000) / 0x80000) == who
  else false

/-- Whether a requester may access n bytes at a device address: every frame, way and scratchpad they touch. -/
def mayAccess (s : State) (who : Who) (a n : Nat) : Bool :=
  n == 0 || (List.range ((a + n - 1) / 65536 - a / 65536 + 1)).all fun i => holds s who (max a (65536 * (a / 65536 + i)))

/-- Zero-fills n bytes under valid check bits (R27, R268). -/
def Mem.clear (m : Mem) (a n : Nat) : Mem :=
  { bytes := m.bytes.filter fun e => decide (e.1 < a ∨ a + n ≤ e.1),
    diff := m.diff.filter fun e => decide (16 * e.1 + 16 ≤ a ∨ a + n ≤ 16 * e.1) }

/-- Zero-fills a range of device memory. -/
def memClear (a n : Nat) (s : State) : State := { s with mem := { s.mem with mem := s.mem.mem.clear a n } }

/-- Quota of a context in a tier. -/
def State.quota (s : State) (ctx tier : Nat) : Quota := Tab.get Quota.zero s.mem.quota (3 * ctx + tier)

/-- Sets a quota. -/
def State.setQuota (s : State) (ctx tier : Nat) (q : Quota) : State :=
  { s with mem := { s.mem with quota := Tab.set Quota.zero s.mem.quota (3 * ctx + tier) q } }

/-- Whether a charge would pass a context's limit (R269). Log 23 (DEDUCED). -/
def overQuota (s : State) (ctx tier n : Nat) : Bool :=
  let q := s.quota ctx tier
  decide (q.limit < q.usage + n)

/-- Charges a context (R269). -/
def charge (ctx tier n : Nat) (s : State) : State :=
  let q := s.quota ctx tier
  s.setQuota ctx tier { q with usage := q.usage + n }

/-- Returns a charge. -/
def uncharge (ctx tier n : Nat) (s : State) : State :=
  let q := s.quota ctx tier
  s.setQuota ctx tier { q with usage := q.usage - n }

/-- Bytes of lent frames. Log 23 (DEDUCED). -/
def lentBytes (s : State) : Nat := 65536 * (s.mem.frames.filter fun e => e.2.owner == 258).length

/-- Capacity of a tier that limits divide (Table 9.5). -/
def tierCapacity (s : State) (tier : Nat) : Nat :=
  match tier with
  | 0 => (32 - popCount 32 s.mem.setRan.toNat) * 0x600000000 - 0x40000000
  | 1 => (s.mem.remotes.map Remote.len).sum
  | _ => s.mem.flash.capacity * 3 / 4

/-- MEM_QUOTA_SET (R269). -/
def execMemQuotaSet (m : Mbx) (s : State) : Host.Outcome State Fault Refusal :=
  runCmd m .pf [(16, 2), (24, 8)] (fun s =>
    let c := mfld m 16 1
    let t := mfld m 17 1
    let l := mfld m 24 8
    let others := ((List.range 256).filter (· != c)).foldl (fun a k => a + (s.quota k t).limit) 0
    if 3 ≤ t then refuse stBadParam s
    else if tierCapacity s t < others + l then refuse stCapacity s
    else done (s.setQuota c t { s.quota c t with limit := l })) s

/-- The lowest start at or above c from which n frames meet none of the blocked ones (R268). Log 23 (DEDUCED). -/
def firstFit (blocked : List Nat) (n lim : Nat) : Nat → Nat → Option Nat
  | 0, _ => none
  | k + 1, c =>
    if lim < c + n then none
    else
      match (blocked.filter fun b => decide (c ≤ b ∧ b < c + n)).max? with
      | none => some c
      | some b => firstFit blocked n lim k (b + 1)

/-- First and end frame of what a set can give: set 31 ends at the device area (R253). -/
def setFrames (set : Nat) : Nat × Nat := (set * 0x60000, if set = 31 then 0xBFC000 else (set + 1) * 0x60000)

/-- Frames that are neither free nor, if asked, scrub-pending. -/
def blockedFrames (s : State) (alsoPending : Bool) : List Nat :=
  (s.mem.frames.filter fun e =>
    e.2.owner != 259 && !(alsoPending && s.mem.scrubPending.contains e.1)).map Prod.fst

/-- The lowest range of n frames in a set (R268, R439). Log 23 (DEDUCED). -/
def findRange (s : State) (set n : Nat) (alsoPending : Bool) : Option Nat :=
  let b := blockedFrames s alsoPending
  firstFit b n (setFrames set).2 (b.length + 1) (setFrames set).1

/-- Gives the owner of n frames from f, leaving scrub-pending ones to the scrubber. -/
def ownFrames (owner f n : Nat) (s : State) : State :=
  (List.range n).foldl (fun s i =>
    if s.mem.scrubPending.contains (f + i) then s
    else { s with mem := s.mem.setFrame (f + i) { owner := owner, dirty := 0, track := false } }) s

/-- MEM_ALLOC (R268, R269, R439). -/
def execMemAlloc (m : Mbx) (s : State) : Host.Outcome State Fault Refusal :=
  runCmdW m .own [(16, 1), (24, 8)] (fun s =>
    let set := mfld m 16 1
    let n := mfld m 24 8
    let c := issuer m
    let fin := fun (st : Nat) => (some (st, Result.none), s)
    if 32 ≤ set ∨ s.mem.setRan.getLsbD set ∨ n = 0 ∨ n % 65536 ≠ 0 then fin stBadParam
    else if overQuota s c 0 n then fin stQuota
    else
      let take := fun (f : Nat) =>
        let s1 := charge c 0 n (ownFrames c f (n / 65536) s)
        { s1 with mem := { s1.mem with ranges := s1.mem.ranges ++ [{ ctx := c, base := 65536 * f, len := n }] } }
      match findRange s set (n / 65536) false with
      | some f => (some (stOk, { fields := [(8, 8, 65536 * f)], block := none }), take f)
      | none =>
        match findRange s set (n / 65536) true with
        | none => fin stCapacity
        | some f =>
          let s1 := take f
          (none, { s1 with mem := { s1.mem with allocWaiting := s1.mem.allocWaiting ++
            [{ input := m.input.toNat, slot := m.slot.toNat, ctx := c, base := 65536 * f, len := n }] } })) s

/-- Whether a range is in use as a tier cache pool or a save area. -/
def rangeInUse (s : State) (r : Range) : Bool :=
  s.mem.pools.any (fun e => e.1 == r.ctx && decide (e.2.frames ≠ 0 ∧ r.base ≤ e.2.base ∧ e.2.base < r.base + r.len)) ||
  s.core.ctxs.any (fun e => e.1 == r.ctx && decide (e.2.saveLen ≠ 0 ∧ r.base ≤ e.2.saveBase ∧ e.2.saveBase < r.base + r.len))

/-- Zero-fills a range and frees its frames (R268). -/
def freeRange (r : Range) (s : State) : State :=
  ownFrames 259 (r.base / 65536) (r.len / 65536) (memClear r.base r.len s)

/-- MEM_FREE (R268): the bytes return to the quota last. -/
def execMemFree (m : Mbx) (s : State) : Host.Outcome State Fault Refusal :=
  runCmd m .own [(16, 8)] (fun s =>
    match s.mem.ranges.find? (fun r => r.ctx == issuer m && r.base == mfld m 16 8) with
    | none => refuse stBadParam s
    | some r =>
      if rangeInUse s r then refuse stBusy s
      else
        let s1 := freeRange r s
        done (uncharge r.ctx 0 r.len { s1 with mem := { s1.mem with ranges := s1.mem.ranges.erase r } })) s

/-- MEM_LEND: a free range of a compute set becomes lent, if every granted limit stays available (R267, R269). Log 23 (DEDUCED). -/
def execMemLend (m : Mbx) (s : State) : Host.Outcome State Fault Refusal :=
  runCmd m .pf [(16, 1), (24, 16)] (fun s =>
    let set := mfld m 16 1
    let base := mfld m 24 8
    let n := mfld m 32 8
    let limits := (List.range 256).foldl (fun a k => a + (s.quota k 0).limit) 0
    if 32 ≤ set ∨ s.mem.setRan.getLsbD set ∨ n = 0 ∨ n % 65536 ≠ 0 ∨ base % 65536 ≠ 0 ∨
        base / 65536 < (setFrames set).1 ∨ 65536 * (setFrames set).2 < base + n then refuse stBadParam s
    else if tierCapacity s 0 < limits + lentBytes s + n ∨
        (blockedFrames s false).any (fun f => decide (base / 65536 ≤ f ∧ f < (base + n) / 65536)) then
      refuse stCapacity s
    else done (ownFrames 258 (base / 65536) (n / 65536) s)) s

/-- Free frames of a context's tier cache pool: those that hold no page. -/
def freePoolFrames (s : State) (ctx : Nat) : List Nat :=
  let p := Tab.get Pool.none s.mem.pools ctx
  ((List.range p.frames).map (p.base / 65536 + ·)).filter fun f => !(s.mem.frame f).track

/-- MEM_QUERY (R597). -/
def execMemQuery (m : Mbx) (s : State) : Host.Outcome State Fault Refusal :=
  runCmd m .own [(16, 1)] (fun s =>
    let c := mfld m 16 1
    if issuer m ≠ 0 ∧ issuer m ≠ c then refuse stBadParam s
    else
      let q := fun t => s.quota c t
      (stOk, { fields := [], block := some (itemsBlock [(q 0).limit, (q 0).usage, (q 1).limit, (q 1).usage, (q 2).limit,
        (q 2).usage, (Tab.get 0 s.mem.evCorrected c).toNat, (Tab.get 0 s.mem.evStall c).toNat,
        (freePoolFrames s c).length]) }, s)) s

/-- Scrubs word w: a corrected word is rewritten, an uncorrectable one is poisoned (R266). Log 23 (DEDUCED). -/
def scrubWord (source : Nat) (s : State) (w : Nat) : State :=
  let d := s.mem.mem.decode w
  let s1 := checkWord source s w
  if d.2.isCorrected then { s1 with mem := { s1.mem with mem := (s1.mem.mem.setBytes (16 * w) d.1).setDiff w 0 } } else s1

/-- The device address of granule r of a pseudo-channel: the inverse of the hatch function (R255). -/
def granuleAddress (h pc r : Nat) : Nat :=
  let m := 2 * (h % 256 / 8) + pc
  let low := (m ^^^ (r ^^^ (r >>> 6) ^^^ (r >>> 12) ^^^ (r >>> 18))) % 64
  (8 * (h / 256) + h % 8) * 0x600000000 + (64 * r + low) * 256

/-- REFRESH_SLOT (R256, R266): in a channel's refresh slot of a batten each pseudo-channel scrubs one granule. -/
def execRefreshSlot (h : BitVec 10) (s : State) : Host.Outcome State Fault Refusal :=
  let c := h.toNat
  if s.now % battenTicks ≠ 32 * (c % 16) then .next s
  else
    .next ((List.range 2).foldl (fun s pc =>
      let r := Tab.get 0 s.mem.scrub (2 * c + pc)
      let a := granuleAddress c pc r
      let s1 := (List.range 16).foldl (fun s i => scrubWord 1 s (a / 16 + i)) s
      { s1 with mem := { s1.mem with scrub := Tab.set 0 s1.mem.scrub (2 * c + pc) ((r + 1) % 1572864) } }) s)

/-- SRAM_SCRUB (R266): the spare read port of a bank reads, decodes and rewrites a word of a cluster buffer or a
scratchpad. -/
def execSramScrub (word : BitVec 36) (s : State) : Host.Outcome State Fault Refusal :=
  let a := 16 * word.toNat
  if (0xE000000000 ≤ a ∧ a < 0xE020000000) ∨ (0xE800000000 ≤ a ∧ a < 0xE810000000) then
    .next (scrubWord 2 s word.toNat)
  else .next s

/-- Completes the allocations whose range has no scrub-pending frame left (R439). Log 23 (DEDUCED). -/
def finishAllocs (s : State) : State :=
  let ready := s.mem.allocWaiting.filter fun w =>
    !s.mem.scrubPending.any fun f => decide (w.base / 65536 ≤ f ∧ f < (w.base + w.len) / 65536)
  ready.foldl (fun s w => completeSlot w.input w.slot stOk { fields := [(8, 8, w.base)], block := none } s)
    { s with mem := { s.mem with allocWaiting := s.mem.allocWaiting.filter fun w => !ready.contains w } }

/-- SCRUB_FRAME_DONE (R439): a scrub-pending frame is zero-filled and marked free, or goes to the allocation
that waits for it. -/
def execScrubFrameDone (f : BitVec 24) (s : State) : Host.Outcome State Fault Refusal :=
  let k := f.toNat
  if ¬ s.mem.scrubPending.contains k then .next s
  else
    let owner := match s.mem.allocWaiting.find? (fun w => decide (w.base / 65536 ≤ k ∧ k < (w.base + w.len) / 65536)) with
      | some w => w.ctx
      | none => 259
    let s1 := memClear (65536 * k) 65536 s
    let s2 := { s1 with mem := { s1.mem with scrubPending := s1.mem.scrubPending.erase k } }
    .next (finishAllocs { s2 with mem := s2.mem.setFrame k { owner := owner, dirty := 0, track := false } })

end Sys2Proof.Machine
end

