-- ==== Sys2Proof/Machine/PlateImage.lean ====
section
/-!
DEFINITION. The plate image (chapter 02): its header, claims, windows, timing entries and start records, and the
checks of R38 on them.
-/
namespace Sys2Proof.Machine
open Sys2Proof

/-- The header fields of Table 2.2. -/
structure Header where
  magic : Nat
  format : Nat
  kind : Nat
  partition : Nat
  tierLimit : Nat
  arith : Nat
  variants : Nat
  len : Nat
  progOff : Nat
  progLen : Nat
  claimOff : Nat
  claimCount : Nat
  winOff : Nat
  winCount : Nat
  ttOff : Nat
  ttCount : Nat
deriving DecidableEq, Repr

/-- Reads the header (R37). -/
def readHeader (b : List Byte) : Header :=
  { magic := fld b 0 4, format := fld b 4 2, kind := fld b 6 1, partition := fld b 7 1, tierLimit := fld b 8 1,
    arith := fld b 9 1, variants := fld b 0xA 2, len := fld b 0xC 4, progOff := fld b 0x10 4, progLen := fld b 0x14 4,
    claimOff := fld b 0x18 4, claimCount := fld b 0x1C 4, winOff := fld b 0x20 4, winCount := fld b 0x24 4,
    ttOff := fld b 0x28 4, ttCount := fld b 0x2C 4 }

/-- The image with DIGEST taken as zero. -/
def digestInput (b : List Byte) : List Byte := placeBytes b 0x40 (List.replicate 32 0)

/-- Whether the listed (offset, length) ranges lie in n bytes and no two of them share a byte. -/
def disjointIn (n : Nat) : List (Nat × Nat) → Bool
  | [] => true
  | r :: rs => decide (r.1 + r.2 ≤ n) && rs.all (fun q => decide (r.2 = 0 ∨ q.2 = 0 ∨ r.1 + r.2 ≤ q.1 ∨ q.1 + q.2 ≤ r.1)) &&
      disjointIn n rs

/-- Step 5 of R38: header fields in range, IMAGE_LEN the length copied, sections inside it and disjoint. -/
def headerOk (h : Header) (b : List Byte) (owner : Nat) : Bool :=
  decide (1 ≤ h.kind ∧ h.kind ≤ 3 ∧ h.partition ≤ 1 ∧ h.tierLimit ≤ 3 ∧ 1 ≤ h.variants ∧ h.variants ≤ 16) &&
  decide ((h.kind = 1 → h.partition = 0) ∧ (h.kind = 2 → h.partition = 1) ∧ (h.kind ≠ 1 → h.variants = 1)) &&
  decide (h.len = b.length ∧ h.len % 64 = 0) &&
  decide (1 ≤ h.claimCount ∧ h.claimCount ≤ 65536 ∧ 1 ≤ h.winCount ∧ h.winCount ≤ 4096 ∧ 1 ≤ h.ttCount ∧ h.ttCount ≤ 262144) &&
  decide (h.progOff % 64 = 0 ∧ h.claimOff % 64 = 0 ∧ h.winOff % 64 = 0 ∧ h.ttOff % 64 = 0) &&
  disjointIn h.len [(0, 128), (h.progOff, h.progLen), (h.claimOff, 16 * h.claimCount), (h.winOff, 32 * h.winCount),
    (h.ttOff, 16 * h.ttCount)] &&
  fld b 0x30 16 == 0 && fld b 0x60 32 == 0 && decide (h.kind = 2 ∨ owner = 0)

/-- Reads n records of a size from an offset. -/
def readRecords {α : Type} (b : List Byte) (off size n : Nat) (f : List Byte → α) : List α :=
  (chunks size ((b.drop off).take (size * n))).map f

/-- A claim record (R39). Log 26 (DEDUCED). -/
def readClaim (r : List Byte) : Claim :=
  { type := fld r 0 2, first := fld r 2 4, count := fld r 6 4, amount := fld r 10 6 }

/-- A window entry (Table 2.4). -/
def readWin (r : List Byte) : Win :=
  { window := fld r 0 2, kind := fld r 2 1, grid := fld r 3 1, variant := fld r 4 1, fabric := bitAt (fld r 5 1) 0,
    cell := fld r 6 2, start := fld r 8 4, length := fld r 12 4, cclk := fld r 16 4, fixed := fld r 20 4,
    entry := fld r 24 4 }

/-- A timing entry (R45). -/
def readTiming (r : List Byte) : Timing :=
  { window := fld r 0 2, variant := fld r 2 1, res := fld r 4 4, rate := fld r 8 8 }

/-- Ridge ticks of a grid period (R41). -/
def gridPeriod (g : Nat) : Nat :=
  match g with
  | 0 => epochTicks
  | 1 => 1966080
  | 2 => 983040
  | _ => 245760

/-- The number of resources of a claim type that is named by number. -/
def claimRange (t : Nat) : Nat :=
  match t with
  | 0x01 => 512
  | 0x02 => 1024
  | 0x03 => 64
  | 0x07 => 6144
  | 0x08 => 384
  | 0x09 => 4096
  | _ => 8192

/-- Whether a claim is well formed and allowed in a plate whose claims follow the RAN or the compute rules (Table 2.3). Log 26 (DEDUCED). -/
def claimOk (ran : Bool) (c : Claim) : Bool :=
  let numbered := decide (1 ≤ c.count ∧ c.first + c.count ≤ claimRange c.type)
  match c.type with
  | 0x01 => numbered && c.amount == 0
  | 0x02 => ran && numbered && c.amount == 0
  | 0x03 => numbered && decide (c.amount % 65536 ≠ 0 ∧ c.amount < 2 ^ 17)
  | 0x04 | 0x05 | 0x06 => !ran && c.first == 0 && c.count == 1
  | 0x07 | 0x08 => ran && numbered && c.amount == 0
  | 0x09 => numbered && c.amount == 0
  | 0x0A => c.count == 1 && decide (1 ≤ c.amount ∧ c.amount ≤ 65535) &&
      (if ran then c.first == 1 else decide (2 ≤ c.first ∧ c.first ≤ 7))
  | 0x0B => numbered && c.amount == 0
  | _ => false

/-- The numbers a list of claims names under a type, in order. -/
def claimed (t : Nat) (cs : List Claim) : List Nat :=
  (cs.filter (·.type == t)).flatMap fun c => (List.range c.count).map (c.first + ·)

/-- Insertion of a number into an ascending list without repeats. -/
def insertAsc (n : Nat) : List Nat → List Nat
  | [] => [n]
  | m :: r => if n < m then n :: m :: r else if n = m then m :: r else m :: insertAsc n r

/-- The numbers of a list in ascending order, each once. -/
def ascending (l : List Nat) : List Nat := l.foldr insertAsc []

/-- The ways of a way claim, as cluster × 16 + way. -/
def claimWays (c : Claim) : List Nat :=
  (List.range c.count).flatMap fun i =>
    ((List.range 16).filter fun w => bitAt c.amount w).map (16 * (c.first + i) + ·)

/-- Every way a list of claims names. -/
def claimedWays (cs : List Claim) : List Nat := (cs.filter (·.type == 3)).flatMap claimWays

/-- The hatch sets that a list of claims names: the sets of its channels (R254). -/
def claimedSets (cs : List Claim) : List Nat :=
  (List.range 32).filter fun st => (claimed 2 cs).any fun h => h / 256 * 8 + h % 8 == st

/-- The channels of a RAN plate's claims form whole sets without set 31 (R254). -/
def channelsOk (cs : List Claim) : Bool :=
  let hs := claimed 2 cs
  let sets := claimedSets cs
  !sets.contains 31 && sets.all fun st => (List.range 32).all fun i => hs.contains (256 * (st / 8) + 8 * i + st % 8)

/-- Whether a RAN plate's claims hold every core of cluster c. -/
def wholeCluster (cs : List Claim) (c : Nat) : Bool := (List.range 8).all fun k => (claimed 1 cs).contains (8 * c + k)

/-- The ways that the RAN partition holds under a RAN plate's claims: those it names, and all 16 of a cluster that it leaves no
compute core (Table 1.7). Log 77 (DESIGN CHOICE). -/
def partitionWays (cs : List Claim) : List Nat :=
  ascending (claimedWays cs ++ ((List.range 64).filter (wholeCluster cs)).flatMap fun c => (List.range 16).map (16 * c + ·))

/-- Whether a RAN plate's claims hold a core of cluster c. -/
def someCore (cs : List Claim) (c : Nat) : Bool := (List.range 8).any fun k => (claimed 1 cs).contains (8 * c + k)

/-- The way counts of Table 1.7 (R25, R39): a RAN plate leaves a way free in every cluster that keeps a compute core, and takes at
least one where it holds a core too. Log 77 (DESIGN CHOICE). -/
def ranWaysOk (cs : List Claim) : Bool :=
  let ways := claimedWays cs
  (List.range 64).all fun c => wholeCluster cs c || ((List.range 16).any (fun w => !ways.contains (16 * c + w)) &&
    (!someCore cs c || (List.range 16).any fun w => ways.contains (16 * c + w)))

/-- The ways of all-RAN clusters that a RAN plate's claims do not name, as claim records of their own (R26, Table 1.7).
Log 77 (DESIGN CHOICE). -/
def impliedWays (cs : List Claim) : List Claim :=
  let ways := claimedWays cs
  ((List.range 64).filter (wholeCluster cs)).filterMap fun c =>
    let m := ((List.range 16).map fun w => if ways.contains (16 * c + w) then 0 else 2 ^ w).sum
    if m = 0 then none else some { type := 3, first := c, count := 1, amount := m }

/-- A window entry is well formed (R41, R43). -/
def winOk (h : Header) (raw : List Byte) (w : Win) : Bool :=
  let p := gridPeriod w.grid
  decide (w.window < 4096 ∧ w.grid ≤ 3 ∧ w.variant < h.variants ∧ fld raw 5 1 ≤ 1 ∧ fld raw 28 4 = 0) &&
  (match h.kind with
   | 1 => decide (w.kind ≤ 1 ∧ w.cell < 384)
   | 2 => decide (w.kind = 2 ∧ w.cell = 0xFFFF)
   | _ => decide (w.kind = 3 ∧ w.cell = 0xFFFF)) &&
  decide (w.start % 512 = 0 ∧ w.length % 512 = 0 ∧ 512 ≤ w.length ∧ w.length ≤ epochTicks ∧ w.start < p) &&
  (if w.grid = 0 ∨ w.kind = 2 then decide (w.start + w.length ≤ p) else decide (w.start + w.length ≤ 2 * p))

/-- Entries that share a window agree and differ in VARIANT (R41). -/
def winsAgree (ws : List Win) : Bool :=
  match ws with
  | [] => true
  | w :: r => r.all (fun v => v.window != w.window || (v.kind == w.kind && v.grid == w.grid && v.cell == w.cell &&
      v.start == w.start && v.length == w.length && v.variant != w.variant)) && winsAgree r

/-- Resource numbers of Table 2.5, and whether only RAN and service plates may name them. -/
def resOk (computeKind : Bool) (r : Nat) : Bool :=
  let i := r % 2 ^ 24
  match r / 2 ^ 24 with
  | 0x01 => decide (i < 1024)
  | 0x02 => decide (i < 288)
  | 0x03 => decide (i < 12)
  | 0x04 => decide (i < 24)
  | 0x05 => decide (i < 16)
  | 0x06 => decide (i < 2)
  | 0x07 | 0x08 | 0x09 | 0x0A => i == 0 && !computeKind
  | 0x0B => decide (i < 4)
  | _ => false

/-- Timing entries name windows the plate holds, known resources, and no pair twice (R45). -/
def timingOk (h : Header) (ws : List Win) : List (List Byte × Timing) → Bool
  | [] => true
  | (raw, t) :: r =>
    ws.any (fun w => w.window == t.window && w.variant == t.variant) && resOk (h.kind == 2) t.res && fld raw 3 1 == 0 &&
    r.all (fun q => q.2.window != t.window || q.2.variant != t.variant || q.2.res != t.res) && timingOk h ws r

/-- A start record (R99): NEXT, first core, and its rows of 8 start offsets. -/
structure StartRecord where
  next : Nat
  first : Nat
  rows : List (List Nat)
deriving DecidableEq, Repr

/-- Reads the start record at an offset of a program section. -/
def readStart (prog : List Byte) (off : Nat) : StartRecord :=
  let n := fld prog (off + 6) 2
  { next := fld prog off 4, first := fld prog (off + 4) 2,
    rows := (List.range n).map fun j => (List.range 8).map fun k => fld prog (off + 16 + 32 * j + 4 * k) 4 }

/-- A start record obeys R99 with a plate's cores. Log 26 (DEDUCED). -/
def startOk (prog : List Byte) (cores : List Nat) (off : Nat) : Bool :=
  let r := readStart prog off
  decide (off % 16 = 0 ∧ off + 16 ≤ prog.length) && decide (off + 16 + 32 * r.rows.length ≤ prog.length) &&
  fld prog (off + 8) 8 == 0 &&
  (List.range r.rows.length).all (fun j => cores.contains (r.first + j)) &&
  r.rows.all fun row => row.all fun o => o == 0xFFFFFFFF || decide (o % 8 = 0 ∧ o < prog.length)

/-- Every start record of a chain obeys R99; a chain that returns to a record already checked ends there. -/
def chainOk (prog : List Byte) (cores : List Nat) : Nat → Nat → Bool
  | 0, _ => true
  | k + 1, off => startOk prog cores off &&
      (let n := (readStart prog off).next
       n == 0 || chainOk prog cores k n)

/-- The status of the checks of R38 on an image copied for an owner, steps 1 to 6 in order. -/
def checkImage (b : List Byte) (owner : Nat) (expected : List Byte) : Nat :=
  let h := readHeader b
  let dig := sha256 (digestInput b)
  if h.magic ≠ 0x504C4A5A then stBadParam
  else if h.format ≠ 2 ∨ h.arith ≠ 2 then stVersion
  else if dig ≠ sliceBytes b 0x40 32 ∨ dig ≠ expected then stPlateDigest
  else if ¬ headerOk h b owner then stBadParam
  else
    let ran := h.partition == 0
    let claims := readRecords b h.claimOff 16 h.claimCount readClaim
    let wins := readRecords b h.winOff 32 h.winCount fun r => (r, readWin r)
    let tts := readRecords b h.ttOff 16 h.ttCount fun r => (r, readTiming r)
    let prog := sliceBytes b h.progOff h.progLen
    let cores := claimed 1 claims
    if claims.all (claimOk ran) ∧ (h.kind = 1 → channelsOk claims ∧ ranWaysOk claims) ∧
        wins.all (fun p => winOk h p.1 p.2) ∧ winsAgree (wins.map Prod.snd) ∧ timingOk h (wins.map Prod.snd) tts ∧
        wins.all (fun p => chainOk prog cores (h.progLen / 16 + 1) p.2.entry) then stOk
    else stBadParam

/-- The loaded plate of an image that passed its checks. Log 24 (DESIGN CHOICE). -/
def plateOf (b : List Byte) (owner : Nat) : Plate :=
  let h := readHeader b
  { owner := owner, kind := h.kind, partition := h.partition, tierLimit := h.tierLimit, variants := h.variants, image := b,
    progOff := h.progOff, progLen := h.progLen, claims := readRecords b h.claimOff 16 h.claimCount readClaim,
    windows := readRecords b h.winOff 32 h.winCount readWin, timing := readRecords b h.ttOff 16 h.ttCount readTiming,
    digest := sliceBytes b 0x40 32, state := 0, held := false, startPending := false, mode := 0, group := 0, launch := 0,
    accepted := 0, nextImp := 0, deferrals := 0, overruns := 0, firstEpoch := 0, retireEpoch := none, running := [],
    deferredEpoch := none, seen := [], frames := [] }

/-- A plate's program section. -/
def Plate.prog (p : Plate) : List Byte := sliceBytes p.image p.progOff p.progLen

/-- Whether a plate's work runs in the RAN partition. -/
def Plate.isRan (p : Plate) : Bool := p.partition == 0

end Sys2Proof.Machine
end

