-- ==== Sys2Proof/Machine/Admission.lean ====
section
/-!
DEFINITION. The admission unit (R46 to R50, R336, R419, R444, R445): windows over battens, claims, deadlines and
capacities, all in exact arithmetic.
-/
namespace Sys2Proof.Machine
open Sys2Proof

/-- How much of a plate an epoch sees: all of it, only repetitions that start in the epoch, or only those running
over from the epoch before. -/
inductive Span where
  | full
  | fresh
  | over
deriving DecidableEq, Repr

/-- Whether a window covers batten b of an epoch (R43, R48). -/
def covers (sp : Span) (w : Win) (b : Nat) : Bool :=
  let p := gridPeriod w.grid / battenTicks
  let off := w.start / battenTicks
  let len := w.length / battenTicks
  match sp with
  | .full => decide ((b + 38400 - off) % p < len)
  | .fresh => decide (off ≤ b ∧ (b - off) % p < len)
  | .over => decide (b + p - off < len)

/-- Battens of an epoch at which a window's coverage begins. -/
def coverStarts (w : Win) : List Nat :=
  let p := gridPeriod w.grid / battenTicks
  (List.range (38400 / p)).map fun k => (k * p + w.start / battenTicks) % 38400

/-- A plate seen by an epoch, with the windows that stand for it: one entry of each window index. -/
abbrev Seen := Plate × Span

/-- One window entry of each index of a plate. -/
def onePerWindow (ws : List Win) : List Win :=
  ws.foldl (fun acc w => if acc.any (fun v => v.window == w.window) then acc else acc ++ [w]) []

/-- Largest rate of a resource among the variants of a window (R48). -/
def maxRate (p : Plate) (w r : Nat) : Nat :=
  ((p.timing.filter fun t => t.window == w && t.res == r).map Timing.rate).max?.getD 0

/-- What a plate seen by an epoch charges a resource in a batten. -/
def chargeAt (q : Seen) (r b : Nat) : Nat :=
  ((onePerWindow q.1.windows).map fun w => if covers q.2 w b then maxRate q.1 w.window r else 0).sum

/-- Data bytes per NCLK of a die network port (Table 1.3). -/
def portWidth (p : Nat) : Nat :=
  if p < 16 then 1024
  else if p < 24 then 1280
  else if p < 27 then 1536
  else
    match p with
    | 27 => 1024
    | 28 => 128
    | 29 => 128
    | 30 => 512
    | 31 => 1024
    | 32 => 256
    | 33 => 128
    | 34 => 256
    | _ => 64

/-- Twice the speed of the PCIe link in GT/s, by the code of `HIF_LINK.SPEED`: 2.5, 5, 8, 16, 32 and 64 GT/s. -/
def linkRate (code : Nat) : Nat :=
  match code with
  | 1 => 5
  | 2 => 10
  | 3 => 16
  | 4 => 32
  | 5 => 64
  | _ => 128

/-- C(r) as an exact fraction (R48, R49, R336, R419). -/
def capacityOf (s : State) (r : Nat) : Nat × Nat :=
  let i := r % 2 ^ 24
  match r / 2 ^ 24 with
  | 0x01 => (131072 * (65536 - 5243), 10 * 65536)
  | 0x02 => (portWidth (i % 72 / 2) * 1024, 3)
  | 0x03 => (524288, 1)
  | 0x04 => ((Tab.get AbrPort.reset s.fab.ports i).bitsSum * 4015625, 540672)
  | 0x05 => (78125, 6)
  | 0x06 => if s.host.linkDegraded then (184375 * linkRate s.host.linkSpeed * s.host.linkWidth, 6 * 2048) else (184375, 6)
  | 0x07 => (64, 1)
  | 0x08 => (64, 1)
  | 0x09 => (32, 1)
  | 0x0A => (16, 1)
  | _ => (16, 1)

/-- g(r) × 65,536 (R46, R48): the retry margin of Abard ports. -/
def derateOf (r : Nat) : Nat := if r / 2 ^ 24 = 4 then 65536 + 2048 else 65536

/-- A refusal: status and the report of Table 2.6. -/
structure Report where
  status : Nat
  res : Nat
  window : Nat
  variant : Nat
  batten : Nat
  required : Nat
  available : Nat
deriving DecidableEq, Repr

/-- The completion fields of a refusal report (Table 19.4). -/
def Report.result (r : Report) : Result :=
  { fields := [(5, 1, r.variant), (6, 2, r.window), (8, 4, r.res), (12, 2, r.batten), (16, 8, r.required),
      (24, 8, r.available)], block := none }

/-- The candidate's lowest window that covers a batten with a nonzero rate of the resources named, or 0xFFFF. -/
def reportWindow (c : Seen) (b : Nat) (res : Option Nat) : Nat :=
  let ok := (onePerWindow c.1.windows).filter fun w => covers c.2 w b &&
    c.1.timing.any fun t => t.window == w.window && decide (0 < t.rate) && (res.isNone || res == some t.res)
  ((ok.map Win.window).min?).getD 0xFFFF

/-- The battens at which a set of plates may first pass a capacity: batten 0 and every start of a window. Log 25 (DEDUCED). -/
def breakpoints (ps : List Seen) : List Nat :=
  ascending (0 :: ps.flatMap fun q => (onePerWindow q.1.windows).flatMap coverStarts)

/-- The resources that a set of plates names. -/
def resourcesOf (ps : List Seen) : List Nat := ascending (ps.flatMap fun q => q.1.timing.map Timing.res)

/-- The capacity check of R48 over one set of plates, the candidate first: the first failure in ascending batten and
RES_ID. Log 25 (DEDUCED). -/
def capacityCheck (s : State) (c : Seen) (ps : List Seen) : Option Report :=
  let all := c :: ps
  (breakpoints all).findSome? fun b =>
    (resourcesOf all).findSome? fun r =>
      let sum := ((all.map fun q => chargeAt q r b).sum) * derateOf r
      let cap := capacityOf s r
      if cap.1 * 65536 < sum * cap.2 then
        some { status := stCapacity, res := r, window := reportWindow c b (some r), variant := 0, batten := b,
               required := ceilDiv sum 65536, available := cap.1 / cap.2 }
      else none

/-- The left side of R47. -/
def deadlineSum (limit : Nat) (w : Win) : Nat :=
  ceilDiv (w.cclk * cclkDiv limit) 8 + (if limit = 0 then 0 else 2) + w.fixed + (if w.fabric then 3933 else 0)

/-- The deadline check of R47 in ascending window index; among the variants of one window the first in image order is reported.
Log 77 (DESIGN CHOICE). -/
def deadlineCheck (p : Plate) (limit : Nat) : Option Report :=
  (ascending (p.windows.map Win.window)).findSome? fun i =>
    (p.windows.filter fun w => w.window == i).findSome? fun w =>
      if w.length < deadlineSum limit w then
        some { status := stDeadline, res := 0, window := w.window, variant := w.variant, batten := 0xFFFF,
               required := deadlineSum limit w, available := w.length }
      else none

/-! ### Claims -/

/-- The plates of the store, by handle. -/
def plateList (s : State) : List (Nat × Plate) := s.plates.store.filterMap fun e => e.2.map fun p => (e.1, p)

/-- Whether a plate has been admitted and not yet retired. -/
def Plate.admitted (p : Plate) : Bool := decide (1 ≤ p.state ∧ p.state ≤ 3)

/-- Epochs that clearing takes by the bounds of R27. -/
def clearEpochs (channels hardware : Bool) : Nat := if channels then 2 else if hardware then 1 else 0

/-- Epochs of clearing that the cores, ways and sets of a RAN plate need, those that `keep` holds too excepted (R27). -/
def changingEpochs (cs keep : List Claim) : Nat :=
  let new := fun (items : List Claim → List Nat) => (items cs).any fun i => !(items keep).contains i
  clearEpochs (new claimedSets) (new (claimed 1) || new partitionWays)

/-- The claims of the RAN plate that takes over at an epoch, if one does (R58). -/
def successorClaims (s : State) (e : Nat) : List Claim :=
  (((plateList s).find? fun q => q.2.kind == 1 && q.2.admitted && q.2.firstEpoch == e).map fun q => q.2.claims).getD []

/-- The epoch from which the claims of a plate are free, if its retirement is scheduled: what its successor keeps needs no
clearing (R27, R57). -/
def freeEpoch (s : State) (p : Plate) : Option Nat :=
  p.retireEpoch.map fun e => if p.kind = 1 then e + changingEpochs p.claims (successorClaims s e) else e

/-- Whether a plate still holds its claims at or after an epoch. -/
def holdsFrom (s : State) (p : Plate) (e : Nat) : Bool :=
  match freeEpoch s p with
  | none => true
  | some f => decide (e < f)

/-- The admitted plates that a candidate admitted from an epoch on meets, without the one it replaces. -/
def rivals (s : State) (h e : Nat) (replaced : Option Nat) : List Plate :=
  (plateList s).filterMap fun q =>
    if q.1 ≠ h ∧ replaced ≠ some q.1 ∧ q.2.admitted ∧ holdsFrom s q.2 e then some q.2 else none

/-- Whether a plate holds a core or way in batten b: a compute plate a core or scratch way in its windows only, any other in every
batten (R444). -/
def holdsIn (p : Plate) (always : Bool) (b : Nat) : Bool := always || p.windows.any fun w => covers .full w b

/-- The battens at which the holders of a core or way can change. -/
def holdPoints (ps : List Plate) : List Nat := ascending (0 :: ps.flatMap fun q => q.windows.flatMap coverStarts)

/-- A refusal of an exclusive claim (Table 2.6). -/
def claimReport (c : Seen) (type index batten required available : Nat) : Report :=
  { status := stCapacity, res := (0x80 + type) * 2 ^ 24 + index, window := reportWindow c batten none, variant := 0,
    batten := batten, required := required, available := available }

/-- Whether a compute set is held by a context or lent (R26). -/
def setTaken (s : State) (st : Nat) : Bool :=
  s.mem.frames.any fun e => decide ((setFrames st).1 ≤ e.1 ∧ e.1 < (setFrames st).2) &&
    (decide (e.2.owner < 256) || e.2.owner == 258)

/-- Whether a claim uses a way in cache mode. -/
def Claim.cacheMode (c : Claim) : Bool := bitAt c.amount 16

/-- Whether a rival holds core k in batten b. -/
def coreTaken (rs : List Plate) (k b : Nat) : Bool :=
  rs.any fun q => (claimed 1 q.claims).contains k && holdsIn q q.isRan b

/-- Whether a rival holds way w in batten b. -/
def wayTaken (rs : List Plate) (w b : Nat) : Bool :=
  rs.any fun q => (q.kind == 1 && (partitionWays q.claims).contains w) || q.claims.any fun r =>
    r.type == 3 && (claimWays r).contains w && holdsIn q (q.isRan || r.cacheMode) b

/-- The sum of the weights that plates claim on a virtual channel. -/
def vcWeight (ps : List Plate) (v : Nat) : Nat :=
  (ps.flatMap fun p => (p.claims.filter fun c => c.type == 0xA && c.first == v).map Claim.amount).sum

/-- The RAN plate in force at an epoch (R53). -/
def ranInForce (s : State) (e : Nat) : Option Plate :=
  ((plateList s).find? fun q => q.2.kind == 1 && q.2.admitted && decide (q.2.firstEpoch ≤ e) &&
    (match q.2.retireEpoch with
     | none => true
     | some r => decide (e < r))).map Prod.snd

/-- The resources a claim record names, as indices of its report. -/
def claimItems (c : Claim) : List Nat :=
  if c.type = 3 then claimWays c
  else if c.type = 0xA then [c.first]
  else (List.range c.count).map (c.first + ·)

/-- Whether the RAN plate in force holds what a RAN service plate claims (R36). -/
def inherited (inForce : Option Plate) (c : Claim) (i : Nat) : Bool :=
  match inForce with
  | none => false
  | some q => (c.type == 3 && (partitionWays q.claims).contains i) ||
      q.claims.any fun r => r.type == c.type && (claimItems r).contains i

/-- Whether item i of a claim record is held against a candidate in batten b: outside its context's share (R40), not the RAN
plate's own (R36), held by another plate (R444, R445), a set that a context holds (R26), or a window entry of another (R349).
Plates of the RAN partition never meet one another here (R36, R58). -/
def itemTaken (s : State) (p : Plate) (rs : List Plate) (inForce : Option Plate) (c : Claim) (i b : Nat) : Bool :=
  let share := s.fn p.owner
  let others := if p.isRan then rs.filter fun q => !q.isRan else rs
  (p.kind == 3 && p.isRan && !inherited inForce c i) ||
  match c.type with
  | 0x01 => (!p.isRan && !share.coreMask.getLsbD i) || coreTaken others i b ||
      (!p.isRan && decide (8 ≤ (ascending ((rs.filter fun q => !q.isRan && q.owner != p.owner &&
        (claimed 1 q.claims).contains i).map Plate.owner)).length))
  | 0x02 => p.kind == 1 && setTaken s (i / 256 * 8 + i % 8)
  | 0x03 => (!p.isRan && !share.wayMask.getLsbD i) || wayTaken others i b
  | 0x09 =>
    let w := Tab.get FabWin.reset s.fab.wins i
    !w.valid || w.owner != (if p.isRan then 256 else p.owner)
  | 0x0A => decide (65535 < vcWeight (p :: others) i)
  | _ => others.any fun q => q.claims.any fun r => r.type == c.type && (claimItems r).contains i

/-- The first batten in which a candidate would hold item i of a claim record and finds it taken. Log 77 (DESIGN CHOICE). -/
def itemBlocked (s : State) (p : Plate) (rs : List Plate) (inForce : Option Plate) (c : Claim) (i : Nat) : Option Nat :=
  let always := p.isRan || c.cacheMode || (c.type != 1 && c.type != 3)
  (holdPoints (p :: rs)).find? fun b => holdsIn p always b && itemTaken s p rs inForce c i b

/-- Checks one claim record (R40, R349, R444, R445): its items one by one in the record's order, so the first item that is taken is
reported, whatever takes it; REQUIRED counts the ways that a way claim names. Log 77 (DESIGN CHOICE). -/
def claimCheck (s : State) (cand : Seen) (rs : List Plate) (inForce : Option Plate) (c : Claim) : Option Report :=
  let p := cand.1
  if 4 ≤ c.type ∧ c.type ≤ 6 then
    let t := c.type - 4
    let q := s.quota p.owner t
    let sum := ((p.claims.filter (·.type == c.type)).map Claim.amount).sum
    if q.limit - q.usage < sum then
      some { status := stQuota, res := 0, window := 0, variant := 0, batten := 0, required := 0, available := 0 }
    else none
  else
    let items := claimItems c
    items.findSome? fun i =>
      (itemBlocked s p rs inForce c i).map fun b =>
        if c.type = 0xA then
          claimReport cand 0xA i b c.amount (65535 - vcWeight (if p.isRan then rs.filter fun q => !q.isRan else rs) i)
        else
          let free := items.filter fun j => !itemTaken s p rs inForce c j b
          claimReport cand c.type i b items.length free.length

/-- The records that an admission checks one by one: a plate's own, and those of the ways that a RAN plate holds without naming them
(R26). Log 77 (DESIGN CHOICE). -/
def checkedClaims (p : Plate) : List Claim := p.claims ++ (if p.kind = 1 then impliedWays p.claims else [])

/-- The plates a set of epochs sees beside a candidate at an epoch: those whose demand lies in it. -/
def demandAt (s : State) (h e : Nat) : List Seen :=
  (plateList s).filterMap fun q =>
    let live : Bool := match q.2.retireEpoch with
      | none => true
      | some r => decide (e < r)
    if q.1 ≠ h ∧ q.2.admitted ∧ q.2.firstEpoch ≤ e ∧ live then some (q.2, if q.2.firstEpoch = e then .fresh else .full)
    else if q.1 ≠ h ∧ q.2.admitted ∧ q.2.retireEpoch = some e then some (q.2, .over) else none

/-- The epochs from e on at which the set of plates in force changes. -/
def changeEpochs (s : State) (e : Nat) : List Nat :=
  ascending (e :: (e + 1) :: (plateList s).flatMap fun q =>
    if q.2.admitted then
      ([q.2.firstEpoch, q.2.firstEpoch + 1] ++ (match q.2.retireEpoch with
        | none => []
        | some r => [r, r + 1])).filter fun x => decide (e ≤ x)
    else [])

/-- The whole admission check of a candidate from an epoch on: claims, deadlines, capacities (R50). `replaced` is the
RAN plate that a swap takes out at that epoch. With several sets of plates in force the sets are checked in order of epoch, so a
failure of an earlier set is reported before a lower batten of a later one. Log 77 (DESIGN CHOICE). -/
def admissionCheck (s : State) (h e : Nat) (p : Plate) (replaced : Option Nat) : Option Report :=
  let rs := rivals s h e replaced
  let inForce := ranInForce s e
  let limit := if p.kind = 3 ∧ p.isRan then (inForce.map Plate.tierLimit).getD p.tierLimit else p.tierLimit
  ((checkedClaims p).findSome? (claimCheck s (p, .full) rs inForce)) <|> deadlineCheck p limit <|>
    (changeEpochs s e).findSome? fun x =>
      let others := (demandAt s h x).filterMap fun q =>
        match replaced with
        | none => some q
        | some r => if Tab.get none s.plates.store r = some q.1 then (if x = e then some (q.1, .over) else none) else some q
      capacityCheck s (p, if x = e then .fresh else .full) others

/-- Whether a candidate can hold its claims from an epoch on. -/
def claimsFree (s : State) (h e : Nat) (p : Plate) : Bool :=
  ((checkedClaims p).findSome? (claimCheck s (p, .full) (rivals s h e none) (ranInForce s e))).isNone

/-- The earliest epoch from a bound on at which a plate's claims can be held, the bound itself or one at which a scheduled
retirement frees claims; the bound where there is none (R60). Log 25 (DEDUCED). -/
def earliestEpoch (s : State) (h lower : Nat) (p : Plate) : Nat :=
  let ends := ((plateList s).filterMap fun q => if q.1 ≠ h ∧ q.2.admitted then freeEpoch s q.2 else none).filter fun e => decide (lower < e)
  ((ascending (lower :: ends)).find? fun e => claimsFree s h e p).getD lower

end Sys2Proof.Machine
end

