-- ==== Sys2Proof/Machine/Groups.lean ====
section
/-!
DEFINITION. The members of collective groups (R370), and the pause of a context's groups when it is switched out (R395).
-/
namespace Sys2Proof.Machine
open Sys2Proof

/-- Changes the fabric. -/
def updFab (f : Fabric → Fabric) (s : State) : State := { s with fab := f s.fab }

/-! ### Members (R370) -/

/-- Hall number and die of a rank entry. -/
def rankHall (e : Nat) : Nat := e % 16384
def rankDie (e : Nat) : Nat := e / 16384 % 4

/-- The device and die of a rank. -/
def Group.hallOf (g : Group) (r : Nat) : Nat := rankHall (g.ranks.getD r 0)
def Group.dieOf (g : Group) (r : Nat) : Nat := rankDie (g.ranks.getD r 0)

/-- The member devices, by the lowest rank that each hosts. -/
def Group.devs (g : Group) : List Nat := (g.ranks.map rankHall).eraseDups

/-- The racks that hold member devices, by the lowest rank that each holds. -/
def Group.racks (g : Group) : List Nat := (g.devs.map (· / 64)).eraseDups

/-- The member devices of a rack, in order. -/
def Group.inRack (g : Group) (rack : Nat) : List Nat := g.devs.filter fun h => h / 64 == rack

/-- The ranks whose entries meet a condition, ascending. -/
def Group.ranksWhere (g : Group) (c : Nat → Bool) : List Nat := (List.range g.ranks.length).filter fun r => c (g.ranks.getD r 0)

/-- The ranks of a device. -/
def Group.ranksOf (g : Group) (hall : Nat) : List Nat := g.ranksWhere fun e => rankHall e == hall

/-- The lowest rank of a device. -/
def Group.lowest (g : Group) (hall : Nat) : Nat := (g.ranks.findIdx? fun e => rankHall e == hall).getD 0

/-- The rank on a die of a device. -/
def Group.rankAt (g : Group) (hall die : Nat) : Option Nat := g.ranks.findIdx? fun e => rankHall e == hall && rankDie e == die

/-- The half-open range that an ascending list of ranks spans. -/
def span (rs : List Nat) : Nat × Nat := (rs.headD 0, rs.getLastD 0 + 1)

/-- A group by its index. -/
def State.group (s : State) (i : Nat) : Option Group := Tab.get none s.fab.groups i

/-- Changes a group that is there. -/
def updGroup (i : Nat) (f : Group → Group) (s : State) : State :=
  match s.group i with
  | none => s
  | some g => updFab (fun x => { x with groups := Tab.set none x.groups i (some (f g)) }) s

/-- n events of a collective counter (Table 13.10). Log 60 (DESIGN CHOICE). -/
def collCount (die i n : Nat) (s : State) : State := updFab (fun x => { x with collCnt := bumpBy x.collCnt (16 * die + i) n }) s

/-- The ranks of this device, with their dies. -/
def localRanks (s : State) (g : Group) : List (Nat × Nat) := (g.ranksOf s.fab.hall).map fun r => (r, g.dieOf r)

/-- The indices of the groups that there are. -/
def groupIds (s : State) : List Nat := Tab.keys s.fab.groups

/-! ### Pauses (R395) -/

/-- A context is switched out: its groups take no further step and grant no further credit. Log 61 (DESIGN CHOICE). -/
def groupsPause (ctx : Nat) (s : State) : State :=
  (groupIds s).foldl (fun s i =>
    match s.group i with
    | none => s
    | some g =>
      if g.owner ≠ ctx ∨ g.paused then s
      else (localRanks s g).foldl (fun s r => collCount r.2 9 1 s) (updGroup i (fun g => { g with paused := true }) s)) s

/-- Whether no ring step of a context's groups is under way (R395). -/
def groupsQuiet (ctx : Nat) (s : State) : Bool :=
  s.fab.groups.all fun e => match e.2 with
    | some g => g.owner != ctx || g.ops.all fun o => o.runs.all fun r => r.pkt == 0
    | none => true

end Sys2Proof.Machine
end

