-- ==== Sys2Proof/Machine/Launch.lean ====
section
/-!
DEFINITION. Cores taking and leaving work: context store slots and switches (R445, R447), start records and plate
commands (R99, R100), cluster buffer ways (R27, R113, R114), retirement of plates (R57).
-/
namespace Sys2Proof.Machine
open Sys2Proof

/-- A core. -/
def State.coreAt (s : State) (k : Nat) : Core := Tab.get Core.reset s.core.cores k

/-- Sets a core. -/
def State.setCore (s : State) (k : Nat) (c : Core) : State :=
  { s with core := { s.core with cores := Tab.set Core.reset s.core.cores k c } }

/-- A thread context. -/
def State.thread (s : State) (t : Nat) : Thread := Tab.get Thread.reset s.core.threads t

/-- Sets a thread context. -/
def State.setThread (s : State) (t : Nat) (x : Thread) : State :=
  { s with core := { s.core with threads := Tab.set Thread.reset s.core.threads t x } }

/-- A compute context. -/
def State.ctx (s : State) (c : Nat) : Ctx := Tab.get Ctx.reset s.core.ctxs c

/-- Sets a compute context. -/
def State.setCtx (s : State) (c : Nat) (x : Ctx) : State :=
  { s with core := { s.core with ctxs := Tab.set Ctx.reset s.core.ctxs c x } }

/-- One event of a context counter (`CTX_CNT`). -/
def ctxCount (c i : Nat) (s : State) : State := s.setCtx c { s.ctx c with cnt := bump (s.ctx c).cnt i }

/-- The 32-bit value of a block exponent register (`CORE_BEXP`). -/
def Bexp.word (b : Bexp) : Nat := b.headroom.toNat + 2 ^ 16 * b.exp.toNat

/-- A plate by its handle. -/
def State.plate (s : State) (h : Nat) : Option Plate := Tab.get none s.plates.store h

/-- Sets a plate. -/
def State.setPlate (s : State) (h : Nat) (p : Option Plate) : State :=
  { s with plates := { s.plates with store := Tab.set none s.plates.store h p } }

/-- Changes a plate that is there. -/
def updPlate (h : Nat) (f : Plate → Plate) (s : State) : State :=
  match s.plate h with
  | none => s
  | some p => s.setPlate h (some (f p))

/-- Sets a cluster buffer way. -/
def State.setWay (s : State) (w : Nat) (x : Way) : State :=
  { s with core := { s.core with ways := Tab.set Way.reset s.core.ways w x } }

/-- A cluster buffer way by cluster × 16 + way. -/
def State.wayAt (s : State) (w : Nat) : Way := Tab.get Way.reset s.core.ways w

/-- The address of a way's scratch storage, and of a core's scratchpad (Table 9.1). -/
def wayBase (w : Nat) : Nat := 0xE000000000 + w * 0x80000
def scratchBase (k : Nat) : Nat := 0xE800000000 + k * 0x80000

/-! ### Cache ways (R114) -/

/-- A cache line. -/
def State.lineAt (s : State) (i : Nat) : Option Line := Tab.get none s.core.lines i

/-- Sets a cache line. -/
def State.setLine (s : State) (i : Nat) (l : Option Line) : State :=
  { s with core := { s.core with lines := Tab.set none s.core.lines i l } }

/-- Writes a line's data to its HBM address, poisoned words poisoned. -/
def storeLine (l : Line) (s : State) : State :=
  let s1 := memWrite l.addr l.data s
  (List.range 16).foldl (fun s i => if l.poison.getLsbD i then memPoison (l.addr + 16 * i) 16 s else s) s1

/-- Writes back line i if it is dirty. The interface refuses it, with nothing written, where the frame is not its holder's any more
(R251, R267). -/
def writeBackLine (s : State) (i : Nat) : State :=
  match s.lineAt i with
  | some l =>
    if l.dirty then
      (if (s.mem.frame (l.addr / 65536)).owner = l.who then storeLine l s else s).setLine i (some { l with dirty := false })
    else s
  | none => s

/-- The lines that way w holds. -/
def linesOf (s : State) (w : Nat) : List Nat :=
  (Tab.keys s.core.lines).filter fun i => decide (2048 * w ≤ i ∧ i < 2048 * (w + 1))

/-- Empties a cache way, its dirty lines written back first if told so. -/
def emptyWay (back : Bool) (w : Nat) (s : State) : State :=
  (linesOf s w).foldl (fun s i => (if back then writeBackLine s i else s).setLine i none) s

/-- Takes a way from its holder: dirty lines are written back unless it leaves the RAN partition, and its storage is
cleared (R27). -/
def clearWay (back : Bool) (w : Nat) (s : State) : State := memClear (wayBase w) 0x80000 (emptyWay back w s)

/-- Clears a core: scratchpad, thread contexts and engine queues (R27). -/
def clearCore (k : Nat) (s : State) : State :=
  let s1 := memClear (scratchBase k) 0x80000 s
  let s2 := (List.range 8).foldl (fun s i => s.setThread (8 * k + i) Thread.reset) s1
  let c := s2.coreAt k
  s2.setCore k { c with live := none, te0 := [], te1 := [], se := [], me := [], resident := none }

/-! ### Context store (R445, R447) -/

/-- The switch state of the resident context of core k (Table 16.2). -/
def takeSlot (s : State) (k : Nat) : Slot :=
  let c := s.coreAt k
  { cnt := c.cnt, bexp := c.bexp, outstanding := (List.range 8).map fun i => (s.thread (8 * k + i)).outstanding,
    outRemote := (List.range 8).map fun i => (s.thread (8 * k + i)).outRemote,
    faults := (List.range 8).map fun i => (s.thread (8 * k + i)).fault, live := c.live, gone := false }

/-- An empty context store slot. -/
def Slot.empty : Slot := { cnt := [], bexp := [], outstanding := List.replicate 8 0, outRemote := List.replicate 8 0,
                           faults := List.replicate 8 0, live := none, gone := false }

/-- What a context store slot keeps when its context has no plate on the core any more: the requests still on their way (R134). -/
def Slot.left (sl : Slot) : Option Slot :=
  if sl.outstanding.all (· == 0) then none
  else some { Slot.empty with outstanding := sl.outstanding, outRemote := sl.outRemote, gone := true }

/-- Keeps the stream engine queues of a core's resident context aside under its number, or takes them back (R134). -/
def moveQueues (c : Core) (a : Nat) (aside : Bool) : Core :=
  (List.range 8).foldl (fun (c : Core) i =>
    let src := if aside then i else 8 * (a + 1) + i
    let dst := if aside then 8 * (a + 1) + i else i
    { c with me := Tab.set [] (Tab.set [] c.me dst (Tab.get [] c.me src)) src [] }) c

/-- Saves core k's switch state in its resident context's slot, and leaves the core to no context; of one that has no slot any more
the requests still on their way stay. Log 74 (DEDUCED). -/
def saveResident (k : Nat) (s : State) : State :=
  let c := s.coreAt k
  match c.resident with
  | none => s
  | some a =>
    let sl := if (Tab.get none c.slots a).isSome then some (takeSlot s k) else (takeSlot s k).left
    s.setCore k (moveQueues { c with slots := Tab.set none c.slots a sl, resident := none } a true)

/-- Loads a context's switch state into core k; the slot stays assigned, and what it held is the core's now. Log 26 (DEDUCED). -/
def loadSlot (k b : Nat) (s : State) : State :=
  let c := s.coreAt k
  let sl := (Tab.get none c.slots b).getD Slot.empty
  let slots := if (Tab.get none c.slots b).isSome then Tab.set none c.slots b (some Slot.empty) else c.slots
  let s1 := s.setCore k (moveQueues { c with resident := some b, cnt := sl.cnt, bexp := sl.bexp, slots := slots } b false)
  (List.range 8).foldl (fun s i =>
    let t := s.thread (8 * k + i)
    s.setThread (8 * k + i) { t with outstanding := sl.outstanding.getD i 0, outRemote := sl.outRemote.getD i 0, fault := sl.faults.getD i 0 }) s1

/-- Gives the scratch ways that a plate claims in a cluster to its context, zeroing those another held (R447). -/
def takeWays (p : Plate) (cluster : Nat) (s : State) : State :=
  (p.claims.filter (fun c => c.type == 3 && !c.cacheMode)).foldl (fun s c =>
    ((claimWays c).filter fun w => w / 16 == cluster).foldl (fun s w =>
      let x := s.wayAt w
      if x.held && x.ctx == p.owner then s
      else (memClear (wayBase w) 0x80000 s).setWay w { cache := false, ran := false, ctx := p.owner, held := true }) s) s

/-- Makes a plate's context resident on core k: the switch of R447 when another context, or none, is. Log 74 (DEDUCED). -/
def switchCore (p : Plate) (k : Nat) (s : State) : State :=
  let c := s.coreAt k
  if c.resident = some p.owner then takeWays p (k / 8) s
  else
    let s1 := memClear (scratchBase k) 0x80000 (saveResident k s)
    ctxCount p.owner 0 (loadSlot k p.owner (takeWays p (k / 8) s1))

/-- Assigns context store slots on the cores a plate claims (R445). -/
def assignSlots (p : Plate) (s : State) : State :=
  (claimed 1 p.claims).foldl (fun s k =>
    let c := s.coreAt k
    match Tab.get none c.slots p.owner with
    | some sl => s.setCore k { c with slots := Tab.set none c.slots p.owner (some { sl with gone := false }) }
    | none => s.setCore k { c with slots := Tab.set none c.slots p.owner (some Slot.empty) }) s

/-! ### Start records and plate commands (R99, R100) -/

/-- The cores of a start record. -/
def recordCores (r : StartRecord) : List Nat := (List.range r.rows.length).map (r.first + ·)

/-- Whether a start record waits for its thatch gate (R296): the earliest schedule of the impression that names it and
has not opened it. -/
def gateClosed (s : State) (h start off : Nat) : Bool :=
  s.mem.thatch.any fun x => x.plate == h && x.start == start && x.gates.any fun g => g.off == off && !g.isOpen

/-- The status with which a fetch of its thatch schedule ends an impression at its next command boundary, ST_OK while none does (R298). -/
def thatchStatus (s : State) (h start : Nat) : Nat :=
  ((s.mem.thatch.find? fun x => x.plate == h && x.start == start).map Thatch.status).getD stOk

/-- Starts the contexts of a start record on its cores: registers, pending mask and fault cleared, OUTSTANDING kept;
in fabric barrier mode they hold at their start offsets (R100, R247). Scratchpads and scratch ways keep the bytes that an
earlier plate command of the same context left, which the spec leaves open (R101): log 79 (DESIGN CHOICE). Log 74 (DEDUCED). -/
def startContexts (rec : StartRecord) (l : Live) (hold : Bool) (s : State) : State :=
  (List.range rec.rows.length).foldl (fun s j =>
    let k := rec.first + j
    let s1 := s.setCore k { s.coreAt k with live := some l }
    (List.range 8).foldl (fun s i =>
      let off := ((rec.rows.getD j []).getD i 0xFFFFFFFF)
      let t := s.thread (8 * k + i)
      if off = 0xFFFFFFFF then s.setThread (8 * k + i) { t with live := false, state := 0 }
      else s.setThread (8 * k + i)
        { t with regs := [], pc := BitVec.ofNat 32 off, state := if hold then 3 else 1, pendingMask := 0, fault := 0,
                 live := true, barrier := if hold then some 32 else none, target := 0, waitOn := 0 }) s1) s

/-- Whether a context is held back from running (R450, R453). -/
def ctxHeld (s : State) (c : Nat) : Bool := decide (2 ≤ (s.ctx c).state ∧ (s.ctx c).state ≤ 5)

/-- Whether core k is in a long image being written or read back (R451, R453). -/
def inImage (s : State) (k : Nat) : Bool :=
  s.core.ctxs.any fun c => (c.2.state == 3 || c.2.state == 5) && (Tab.get none c.2.saved k).isSome

/-- The cores of the start records that an occurrence has still to run, from an offset on (R99, R100). -/
def chainCores (prog : List Byte) : Nat → Nat → List Nat
  | 0, _ => []
  | n + 1, off =>
    let r := readStart prog off
    recordCores r ++ (if r.next = 0 then [] else chainCores prog n r.next)

/-- Whether core k waits for the last plate command that an earlier occurrence of its resident context has on it (R448). -/
def awaitsLast (s : State) (p : Plate) (start k : Nat) : Bool :=
  match (s.coreAt k).resident with
  | none => false
  | some a => a != p.owner && (plateList s).any fun q => q.2.owner == a && !q.2.isRan && q.2.running.any fun r =>
      !r.ended && r.hold != 2 && r.hold != 3 && decide (r.winStart < start) && !(r.begun && r.next == 0) &&
        (chainCores q.2.prog q.2.prog.length (if r.begun then r.next else r.record)).contains k

/-- Whether the cores of a start record are free for an occurrence of a plate that started then: no plate command lives on them, no
earlier occurrence of another context has more to run on them (R448), no long image of them is under way, and no trip parks them. -/
def coresFree (s : State) (p : Plate) (start : Nat) (rec : StartRecord) : Bool :=
  (recordCores rec).all (fun k => (s.coreAt k).live.isNone && !inImage s k && (p.isRan || !awaitsLast s p start k)) &&
    (p.isRan || !s.dev.pwr.tripOn)

/-- The cores whose resident context is c. -/
def residentCores (s : State) (c : Nat) : List Nat := (List.range 512).filter fun k => (s.coreAt k).resident == some c

/-- The contexts that a switch of cores to an owner leaves without a core (R448). -/
def displaced (s : State) (owner : Nat) (cores : List Nat) : List Nat :=
  ((cores.filterMap fun k => (s.coreAt k).resident).eraseDups).filter fun c => c != owner && (residentCores s c).all cores.contains

/-- Tries to begin the start record that an occurrence has reached; one whose thatch fetch failed ends there (R298), and a switch
completes once the collective units have paused the contexts that it displaces (R395, R456). Log 74 (DEDUCED). -/
def tryBegin (h : Nat) (p : Plate) (r : Running) (s : State) : Running × State :=
  let rec_ := readStart p.prog r.record
  if r.begun ∨ r.ended then (r, s)
  else if ¬ p.isRan ∧ ctxHeld s p.owner then ({ r with hold := 2 }, s)
  else if thatchStatus s h r.start ≠ stOk then
    ({ r with begun := true, ended := true, next := 0, hold := 0, status := firstStatus r.status (thatchStatus s h r.start) }, s)
  else if gateClosed s h r.start r.record then ({ r with hold := 1 }, s)
  else if ¬ coresFree s p r.winStart rec_ then ({ r with hold := 0 }, s)
  else
    let outs := if p.isRan then [] else displaced s p.owner (recordCores rec_)
    let s0 := outs.foldl (fun s c => groupsPause c s) s
    if ¬ outs.all (groupsQuiet · s0) then ({ r with hold := 0 }, s0) else
    let s1 := if p.isRan then s0 else (recordCores rec_).foldl (fun s k => switchCore p k s) s0
    let l : Live := { plate := h, window := r.window, start := r.start, variant := r.variant, cell := r.cell,
                      impression := r.impression, record := r.record, next := rec_.next,
                      loan := p.windows.any fun w => w.window == r.window && w.kind == 1 }
    let first := p.mode == 1 && p.startPending
    ({ r with begun := true, next := rec_.next, hold := 0 }, startContexts rec_ l first s1)

/-- Tries to begin every start record that waits, plates in handle order and occurrences in order of start. -/
def retryHeld (s : State) : State :=
  (plateList s).foldl (fun s q =>
    match s.plate q.1 with
    | none => s
    | some p =>
      let a := p.running.foldl (fun (a : List Running × State) r =>
        if r.begun ∨ r.ended ∨ r.hold = 3 then (a.1 ++ [r], a.2)
        else
          let b := tryBegin q.1 p r a.2
          (a.1 ++ [b.1], b.2)) ([], s)
      updPlate q.1 (fun p => { p with running := a.1 }) a.2) s

/-! ### Retirement (R57) -/

/-- Whether another admitted plate than h of a context claims core k. -/
def othersClaimCore (s : State) (h ctx k : Nat) : Bool :=
  (plateList s).any fun q => q.1 != h && q.2.admitted && q.2.owner == ctx && !q.2.isRan && (claimed 1 q.2.claims).contains k

/-- Whether another admitted plate than h claims way w in the compute partition. -/
def othersClaimWay (s : State) (h w : Nat) (ctx : Option Nat) : Bool :=
  (plateList s).any fun q => q.1 != h && q.2.admitted && !q.2.isRan && (ctx.isNone || ctx == some q.2.owner) &&
    (claimedWays q.2.claims).contains w

/-- Frees the context store slots and ways of a compute plate that leaves. -/
def releaseCompute (h : Nat) (p : Plate) (s : State) : State :=
  let s1 := (claimed 1 p.claims).foldl (fun s k =>
    if othersClaimCore s h p.owner k then s
    else
      let c := s.coreAt k
      s.setCore k { c with slots := Tab.set none c.slots p.owner ((Tab.get none c.slots p.owner).bind Slot.left) }) s
  (claimedWays p.claims).foldl (fun s w =>
    let x := s.wayAt w
    if x.held ∧ x.ctx = p.owner ∧ ¬ othersClaimWay s h w (some p.owner) then
      (if x.cache then emptyWay true w s else s).setWay w { x with held := false, cache := false }
    else s) s1

/-- Frees a plate: its handle and image go, a compute image's bytes return to its quota. -/
def freePlate (h : Nat) (s : State) : State :=
  match s.plate h with
  | none => s
  | some p =>
    let s1 := if p.kind = 2 then uncharge p.owner 0 (alignUp p.image.length 65536) s else s
    let s2 := if p.admitted ∧ ¬ p.isRan then releaseCompute h p s1 else s1
    let s3 := s2.setPlate h none
    { s3 with
      plates := { s3.plates with retired := Tab.set 0 s3.plates.retired h (p.owner + 1) },
      fab := { s3.fab with releases := s3.fab.releases.filter (·.2.1 != h) } }

/-- A retiring compute or service plate that has no impression in progress is retired. Log 74 (DEDUCED). -/
def settleRetiring (h : Nat) (s : State) : State :=
  match s.plate h with
  | some p => if p.state = 3 ∧ p.running = [] ∧ ¬ (p.kind = 1) then freePlate h s else s
  | none => s

/-- A resource reaches its new partition (R27): it is cleared and its ownership changes. -/
def clearResource (c : Clearing) (s : State) : State :=
  match c.kind with
  | 1 => clearCore c.index s
  | 2 => clearWay c.toRan c.index s
  | _ => memClear (c.index * 0x600000000) 0x600000000 s

/-- Sets or clears the RAN ownership of a plate's cores, ways and sets, except those in `keep`. -/
def ownRan (toRan : Bool) (p : Plate) (keep : List Claim) (s : State) : State :=
  let upd := fun (n : Nat) (v : BitVec n) (l : List Nat) => l.foldl (fun (v : BitVec n) i =>
    if toRan then v ||| BitVec.ofNat n (2 ^ i) else v &&& ~~~ BitVec.ofNat n (2 ^ i)) v
  let cores := (claimed 1 p.claims).filter fun k => !(claimed 1 keep).contains k
  let ways := (partitionWays p.claims).filter fun w => !(partitionWays keep).contains w
  let sets := (claimedSets p.claims).filter fun t => !(claimedSets keep).contains t
  let s1 := { s with
    plates := { s.plates with ranCores := upd 512 s.plates.ranCores cores, ranWays := upd 1024 s.plates.ranWays ways },
    mem := { s.mem with setRan := upd 32 s.mem.setRan sets } }
  let inCache := fun (w : Nat) => p.claims.any fun c => c.type == 3 && c.cacheMode && (claimWays c).contains w
  ways.foldl (fun s w => s.setWay w { cache := toRan && inCache w, ran := toRan, ctx := 0, held := false }) s1

/-- A RAN plate whose epoch of retirement has begun is retired, its resources free for the compute partition again, once what clearing
they need has ended and no slot runs under it (R27, R57, R58). -/
def settleRan (h e : Nat) (s : State) : State :=
  match s.plate h with
  | some p =>
    let past := match freeEpoch s p with
      | some f => decide (f ≤ e)
      | none => false
    if p.kind = 1 ∧ p.state = 3 ∧ p.running = [] ∧ past = true then
      freePlate h (ownRan false p (((ranInForce s e).map Plate.claims).getD []) s)
    else s
  | none => s

/-- Starts clearing the resources of a plate that change partition, those in `keep` excepted (R27, R57). -/
def startClearing (toRan : Bool) (p : Plate) (keep : List Claim) (s : State) : State :=
  let cores := (claimed 1 p.claims).filter fun k => !(claimed 1 keep).contains k
  let ways := (partitionWays p.claims).filter fun w => !(partitionWays keep).contains w
  let sets := (claimedSets p.claims).filter fun t => !(claimedSets keep).contains t
  let mk := fun (kind : Nat) (i : Nat) => ({ kind := kind, index := i, toRan := toRan, start := s.now } : Clearing)
  { s with plates := { s.plates with clearing := s.plates.clearing ++ ((ascending cores).map (mk 1) ++
      (ascending ways).map (mk 2) ++ (ascending sets).map (mk 3)) } }

end Sys2Proof.Machine
end

