-- ==== Sys2Proof/Machine/Plates.lean ====
section
/-!
DEFINITION. Plate commands (chapter 02): loading, admission, start, swap, retirement and query, and the clearing of
resources that change partition (R27).
-/
namespace Sys2Proof.Machine
open Sys2Proof

/-- Bytes of the plate store reserve that an image takes (R600). Log 24 (DESIGN CHOICE). -/
def reserveBytes (p : Plate) : Nat := if p.kind = 2 then 0 else alignUp p.image.length 65536

/-- The first handle from a number on that names no plate. Log 24 (DESIGN CHOICE). -/
def freeHandle (s : State) : Nat :=
  let n := s.plates.nextHandle
  ((List.range 513).map fun i => (n + i - 1) % 65535 + 1).find? (fun h => (s.plate h).isNone) |>.getD n

/-- The frames of the plate store reserve that hold no image, lowest first (R600). -/
def reserveFrames (s : State) : List Nat :=
  ((List.range 4096).map (0xBFC000 + ·)).filter fun f => !(plateList s).any fun q => q.2.frames.contains f

/-- Copies an image into frames of 64 KiB, in order (R600). -/
def copyImage (image : List Byte) (frames : List Nat) (s : State) : State :=
  ((chunks 65536 image).zip frames).foldl (fun s e => memWrite (65536 * e.2) e.1 s) s

/-- PLATE_LOAD (R35, R38, R600). -/
def execPlateLoad (m : Mbx) (s : State) : Host.Outcome State Fault Refusal :=
  runCmd m .own [(16, 8), (24, 4), (28, 1), (32, 32)] (fun s =>
    let len := mfld m 24 4
    let owner := mfld m 28 1
    let img := sliceBytes (mdata m) 0 len
    if len < 128 ∨ 0x10000000 < len ∨ (s.fn owner).state ≠ 1 ∨ (issuer m ≠ 0 ∧ owner ≠ issuer m) then refuse stBadParam s
    else
      let c := checkImage img owner (sliceBytes (mbytes m) 32 32)
      if c ≠ stOk then refuse c s
      else
        let p := plateOf img owner
        let used := ((plateList s).map fun q => reserveBytes q.2).sum
        if 512 ≤ (plateList s).length ∨ 0x10000000 < used + reserveBytes p then refuse stCapacity s
        else if p.kind = 2 ∧ overQuota s owner 0 (alignUp len 65536) then refuse stQuota s
        else
          let h := freeHandle s
          let s1 := if p.kind = 2 then charge owner 0 (alignUp len 65536) s else s
          let frames := (reserveFrames s).take (reserveBytes p / 65536)
          let s2 := (copyImage img frames s1).setPlate h (some { p with frames := frames })
          (stOk, { fields := [(8, 2, h)], block := none }, { s2 with plates := { s2.plates with
            nextHandle := h % 65535 + 1, retired := Tab.set 0 s2.plates.retired h 0 } })) s

/-- The plate that a command names: it must belong to the issuer (R60). Log 32 (DEDUCED). -/
def namedPlate (m : Mbx) (s : State) : Option (Nat × Plate) :=
  match s.plate (mfld m 16 2) with
  | some p => if p.owner = issuer m then some (mfld m 16 2, p) else none
  | none => none

/-- The first epoch that begins at least n epochs after now (R27). Log 25 (DEDUCED). -/
def clearedEpoch (s : State) (n : Nat) : Nat := ceilDiv (s.now + n * epochTicks) epochTicks

/-- Sets the ways that a compute plate claims in cache mode (R444). Log 26 (DEDUCED). -/
def takeCacheWays (p : Plate) (s : State) : State :=
  ((p.claims.filter fun c => c.type == 3 && c.cacheMode).flatMap claimWays).foldl (fun s w =>
    let x := s.wayAt w
    if x.held ∧ x.cache ∧ x.ctx = p.owner then s
    else s.setWay w { cache := true, ran := false, ctx := p.owner, held := true }) s

/-- The effect of an admission that passed. Log 24 (DESIGN CHOICE). -/
def admitPlate (h e : Nat) (p : Plate) (keep : List Claim) (s : State) : State :=
  let s1 := s.setPlate h (some { p with state := 1, firstEpoch := e })
  if p.kind = 1 then startClearing true p keep (ownRan true p keep s1)
  else if p.isRan then s1
  else takeCacheWays p (assignSlots p s1)

/-- PLATE_ADMIT (R35, R36, R50, R51, R60, R497). -/
def execPlateAdmit (m : Mbx) (s : State) : Host.Outcome State Fault Refusal :=
  runCmd m .own [(16, 2), (24, 8)] (fun s =>
    match namedPlate m s with
    | none => refuse stBadParam s
    | some (h, p) =>
      let named := mfld m 24 8
      let e := s.epochNow
      if p.state ≠ 0 then refuse stBusy s
      else if named ≠ 0 ∧ named < e + 2 then refuse stBadParam s
      else if p.kind = 1 ∧ (plateList s).any (fun q => q.2.kind == 1 && q.2.admitted) then refuse stBusy s
      else if ¬ p.isRan ∧ s.flt.probation then refuse stFenced s
      else
        let lower := max (if named = 0 then e + 2 else named)
          (if p.kind = 1 then clearedEpoch s (changingEpochs p.claims []) else 0)
        let first := if named = 0 then earliestEpoch s h lower p else lower
        match admissionCheck s h first p none with
        | some r => (r.status, if r.status = stQuota then Result.none else r.result, s)
        | none => (stOk, { fields := [(8, 8, first)], block := none }, admitPlate h first p [] s)) s

/-- PLATE_SWAP (R58, R60): the old plate retires at the swap epoch, in place of an epoch that a PLATE_RETIRE named.
Log 78 (DESIGN CHOICE). -/
def execPlateSwap (m : Mbx) (s : State) : Host.Outcome State Fault Refusal :=
  runCmd m .pf [(16, 2), (24, 8)] (fun s =>
    match namedPlate m s with
    | none => refuse stBadParam s
    | some (h, p) =>
      let named := mfld m 24 8
      let e := s.epochNow
      if p.state ≠ 0 then refuse stBusy s
      else if p.kind ≠ 1 ∨ (named ≠ 0 ∧ named < e + 2) then refuse stBadParam s
      else if s.plates.swap ≠ none then refuse stBusy s
      else
        match (plateList s).find? fun q => q.2.kind == 1 && (q.2.state == 1 || q.2.state == 2) with
        | none => refuse stNotReady s
        | some (oh, old) =>
          let first := max (max (if named = 0 then e + 2 else named) old.firstEpoch)
            (clearedEpoch s (changingEpochs p.claims old.claims))
          match admissionCheck s h first p (some oh) with
          | some r => (r.status, r.result, s)
          | none =>
            let s1 := admitPlate h first p old.claims s
            let s2 := s1.setPlate oh (some { old with retireEpoch := some first })
            (stOk, { fields := [(8, 8, first)], block := none },
             { s2 with plates := { s2.plates with swap := some (h, first) } })) s

/-- The first START of a window at or after a ridge count. -/
def nextStart (w : Win) (t : Nat) : Nat :=
  let p := gridPeriod w.grid
  if t ≤ w.start then w.start else w.start + ceilDiv (t - w.start) p * p

/-- The start of the first of a plate's windows at or after a ridge count, in an epoch it is admitted for (R60). -/
def firstWindow (p : Plate) (t : Nat) : Nat :=
  ((p.windows.map fun w => nextStart w (max t (p.firstEpoch * epochTicks))).min?).getD t

/-- The cores and ways of a context's long image: those of its admitted plates (R451). -/
def imageCores (s : State) (ctx : Nat) : List Nat :=
  ascending ((plateList s).flatMap fun q => if q.2.admitted && q.2.owner == ctx && !q.2.isRan then claimed 1 q.2.claims else [])
def imageWays (s : State) (ctx : Nat) : List Nat :=
  ascending ((plateList s).flatMap fun q => if q.2.admitted && q.2.owner == ctx && !q.2.isRan then
    (q.2.claims.filter fun c => c.type == 3 && !c.cacheMode).flatMap claimWays else [])

/-- D of R451. Log 36 (DESIGN CHOICE). -/
def imageSize (s : State) (ctx : Nat) : Nat :=
  4096 + 602112 * (imageCores s ctx).length + 524288 * (imageWays s ctx).length

/-- A context's save area holds its image and every compute window of the plate can write it (R446). -/
def saveAreaOk (s : State) (p : Plate) : Bool :=
  let c := s.ctx p.owner
  let d := imageSize s p.owner
  let set := c.saveBase / 0x600000000
  let chans := (List.range 32).map fun i => 256 * (set / 8) + 8 * i + set % 8
  decide (d ≤ c.saveLen) && (onePerWindow p.windows).all fun w =>
    decide (d ≤ 1500 * (chans.map fun h => maxRate p w.window (2 ^ 24 + h)).sum)

/-- Whether a handle names a plate of the issuer that has been RETIRED (Table 2.7). -/
def retiredHandle (m : Mbx) (s : State) : Bool := Tab.get 0 s.plates.retired (mfld m 16 2) == issuer m + 1

/-- PLATE_START (R60, R61, R246, R446, R497, R601): a mode or group out of range is refused before the plate's state is looked at.
Log 25 (DEDUCED), 78 (DESIGN CHOICE). -/
def execPlateStart (m : Mbx) (s : State) : Host.Outcome State Fault Refusal :=
  runCmd m .own [(16, 3), (20, 2), (24, 16)] (fun s =>
    match namedPlate m s with
    | none => refuse (if retiredHandle m s then stNotReady else stBadParam) s
    | some (h, p) =>
      let mode := mfld m 18 1
      let held := decide (p.state = 2) && p.held
      if p.kind = 1 ∨ 1 < mode ∨ (mode = 0 ∧ mfld m 20 2 ≠ 0) ∨
          (mode = 1 ∧ ((Tab.get none s.fab.groups (mfld m 20 2)).map Group.owner) ≠ some p.owner) then refuse stBadParam s
      else if p.state = 0 ∨ p.state = 3 then refuse stNotReady s
      else if (p.state = 1 ∧ p.startPending) ∨ (p.state = 2 ∧ ¬ held) then refuse stBusy s
      else if ¬ p.isRan ∧ s.flt.probation then refuse stFenced s
      else if p.kind = 2 ∧ ¬ saveAreaOk s p then refuse stNotReady s
      else
        let p' := { p with held := false, startPending := true, mode := mode, group := mfld m 20 2,
                           launch := mfld m 32 8, accepted := s.now, nextImp := mfld m 24 8 }
        (stOk, { fields := [(8, 8, firstWindow p' (max p'.launch s.now))], block := none }, s.setPlate h (some p'))) s

/-- PLATE_RETIRE (R57, R61, R601): a LOADED plate is freed at once; a RAN plate retires at the epoch named, or at the next one if
that has begun, and keeps an epoch already set. Log 78 (DESIGN CHOICE). -/
def execPlateRetire (m : Mbx) (s : State) : Host.Outcome State Fault Refusal :=
  runCmd m .own [(16, 2), (24, 8)] (fun s =>
    match namedPlate m s with
    | none => refuse stBadParam s
    | some (h, p) =>
      if p.state = 0 then (stOk, { fields := [(8, 8, p.nextImp)], block := none }, freePlate h s)
      else if p.kind = 1 then
        if s.plates.swap ≠ none then refuse stBadParam s
        else
          let e := p.retireEpoch.getD (max (mfld m 24 8) (s.epochNow + 1))
          (stOk, { fields := [(8, 8, e)], block := none }, s.setPlate h (some { p with retireEpoch := some e }))
      else
        let imp := (p.running.map Running.impression).max?.getD p.nextImp
        (stOk, { fields := [(8, 8, imp)], block := none },
         settleRetiring h (s.setPlate h (some { p with state := 3, startPending := false })))) s

/-- PLATE_QUERY (R60, R601). -/
def execPlateQuery (m : Mbx) (s : State) : Host.Outcome State Fault Refusal :=
  runCmd m .own [(16, 2)] (fun s =>
    match namedPlate m s with
    | none => refuse stBadParam s
    | some (_, p) =>
      (stOk, { fields := [(5, 1, p.state), (6, 1, bit p.held + 2 * bit p.startPending), (8, 8, p.nextImp),
        (16, 8, p.deferrals), (24, 8, p.overruns)], block := none }, s)) s

/-- Clears one listed resource and takes it off the list. -/
def finishClearing (c : Clearing) (s : State) : State :=
  clearResource c { s with plates := { s.plates with clearing := s.plates.clearing.erase c } }

/-- PARTITION_CLEAR_DONE (R27): a resource that changes partition has been cleared; a core still at work of the plate
that leaves it is not. -/
def execPartitionClearDone (kind : BitVec 2) (index : BitVec 11) (s : State) : Host.Outcome State Fault Refusal :=
  match s.plates.clearing.find? fun c => c.kind == kind.toNat && c.index == index.toNat with
  | none => .next s
  | some c => if c.kind = 1 ∧ (s.coreAt c.index).live.isSome then .next s else .next (finishClearing c s)

/-- WINDOW_END (R52, R452): an occurrence still at work at its window's end, or whose image is still being saved, is counted and
reported. -/
def execWindowEnd (handle : BitVec 16) (window : BitVec 12) (s : State) : Host.Outcome State Fault Refusal :=
  let h := handle.toNat
  let w := window.toNat
  match s.plate h with
  | none => .next s
  | some p =>
    match p.windows.find? (·.window == w) with
    | none => .next s
    | some x =>
      let late := fun (r : Running) => r.window == w && r.winStart + x.length == s.now && !r.ended && !r.overrun && r.hold != 3 &&
        !(r.hold == 2 && !r.begun) && (p.isRan || (s.ctx p.owner).state != 4)
      if p.running.any late then
        let run := p.running.map fun r => if late r then { r with overrun := true } else r
        .next (faultEvent 4 (leBytes 2 h ++ leBytes 2 w) ((dryEvent 1 s).setPlate h (some { p with running := run, overruns := satNat 64 p.overruns 1 })))
      else .next s

/-- Whether the bound of R27 on a clearing ends with the beginning of epoch e: one epoch for a core or a way, two for a channel. -/
def Clearing.due (c : Clearing) (e : Nat) : Bool := decide (c.start + (if c.kind = 3 then 2 else 1) * epochTicks ≤ e * epochTicks)

/-- The plates' part of an epoch boundary (R27, R57, R58): clearing whose bound ends is done, RAN plates retire, those that nothing
holds any more are free, and a swap takes effect. -/
def epochPlates (e : Nat) (s : State) : State :=
  let s1 := (s.plates.clearing.filter (Clearing.due · e)).foldl (fun s c => finishClearing c s) s
  let s2 := (plateList s1).foldl (fun s q =>
    if q.2.kind = 1 ∧ q.2.retireEpoch = some e ∧ (q.2.state = 1 ∨ q.2.state = 2) then
      startClearing false q.2 (((ranInForce s e).map Plate.claims).getD []) (s.setPlate q.1 (some { q.2 with state := 3 }))
    else s) s1
  let s3 := (plateList s2).foldl (fun s q => settleRan q.1 e s) s2
  match s3.plates.swap with
  | some (_, f) => if f = e then { s3 with plates := { s3.plates with swap := none } } else s3
  | none => s3

end Sys2Proof.Machine
end

