-- ==== Sys2Proof/Machine/Power.lean ====
section
/-!
DEFINITION. Power, clocks and coolant (chapter 20): the records, the coolant and regulator readings, the loop model and
the governor, the epoch boundary, and the SMBus and PMBus answers.
-/
namespace Sys2Proof.Machine
open Sys2Proof

/-- Changes the power unit. -/
def updPwr (f : PowerUnit → PowerUnit) (s : State) : State := { s with dev := { s.dev with pwr := f s.dev.pwr } }

/-- One event of a power counter (`PWR_CNT`). -/
def pwrCount (i n : Nat) (s : State) : State := updPwr (fun p => { p with cnt := bumpBy p.cnt i n }) s

/-- Hands the record of n bytes that a command read at REC_A (R515) to a check and a use. -/
def withRecord (m : Mbx) (n : Nat) (f : List Byte → State → Nat × Result × State) (s : State) : Nat × Result × State :=
  f (sliceBytes (mdata m) 0 n) s

/-- COOLANT_CONFIG (R548, Table 20.7). -/
def execCoolantConfig (m : Mbx) (s : State) : Host.Outcome State Fault Refusal :=
  runCmd m .pfMgmt [(24, 8)] (withRecord m 64 fun r s =>
    let c : Coolant := { dMin := fld r 0 2, dMax := fld r 2 2, valveDuty := fld r 4 2, valveTrip := fld r 6 2,
                         pRef := fld r 8 4, rNom := fld r 12 4, tNom := fld r 16 2, beta := fld r 18 2 }
    if c.dMin ≤ c.dMax ∧ c.dMax ≤ 1024 ∧ c.valveDuty ≤ 1024 ∧ c.valveTrip ≤ 1024 ∧ 100 ≤ c.pRef ∧ c.pRef ≤ 2500 ∧
        1000 ≤ c.rNom ∧ c.rNom ≤ 1000000 ∧ c.tNom ≤ 1600 ∧ 1000 ≤ c.beta ∧ c.beta ≤ 10000 ∧ onlyFields r [(0, 20)] then
      done (updPwr (fun p => { p with coolant := c }) s)
    else refuse stBadParam s) s

/-- GOV_CONFIG (R548, Table 20.7): it applies from the next planning edge, never at the one it is accepted on
(Table 20.8). -/
def execGovConfig (m : Mbx) (s : State) : Host.Outcome State Fault Refusal :=
  runCmd m .pfMgmt [(24, 8)] (withRecord m 64 fun r s =>
    let g : Governor := { fixed := bitAt (fld r 0 1) 0, fixedTier := fld r 1 1, tierFast := fld r 2 1, tPlan := fld r 4 2,
                          hyst := fld r 6 2, h := fld r 8 2, tau := fld r 10 2, rJ := fld r 12 4, pLeak := fld r 16 4,
                          pClk := fld r 20 4, kDyn := fld r 24 4, pCap := fld r 28 4 }
    if fld r 0 1 ≤ 1 ∧ g.fixedTier ≤ 3 ∧ g.tierFast ≤ 3 ∧ 960 ≤ g.tPlan ∧ g.tPlan ≤ 1600 ∧ g.hyst ≤ 160 ∧ 1 ≤ g.h ∧
        g.h ≤ 1000 ∧ 100 ≤ g.tau ∧ g.tau ≤ 60000 ∧ 1000 ≤ g.rJ ∧ g.rJ ≤ 100000 ∧ g.pLeak ≤ 2500 ∧ g.pClk ≤ 2500 ∧
        g.kDyn ≤ 2500 ∧ 100 ≤ g.pCap ∧ g.pCap ≤ 2500 ∧ onlyFields r [(0, 3), (4, 28)] then
      done (updPwr (fun p => { p with
        gov := match p.govNew with
          | some (x, t) => if t < s.now then x else p.gov
          | none => p.gov,
        govNew := some (g, s.now) }) s)
    else refuse stBadParam s) s

/-- TRIP_CONFIG (R548, Table 20.7). -/
def execTripConfig (m : Mbx) (s : State) : Host.Outcome State Fault Refusal :=
  runCmd m .pfMgmt [(24, 8)] (withRecord m 64 fun r s =>
    let t : Trip := { tTrip := fld r 0 2, tClear := fld r 2 2, hTrip := fld r 4 2, hClear := fld r 6 2, hold := fld r 8 4 }
    if t.tTrip ≤ 1680 ∧ t.tClear + 16 ≤ t.tTrip ∧ t.hTrip ≤ 1600 ∧ t.hClear + 16 ≤ t.hTrip ∧ 100 ≤ t.hold ∧
        t.hold ≤ 1000000 ∧ onlyFields r [(0, 12)] then
      done (updPwr (fun p => { p with trip := t }) s)
    else refuse stBadParam s) s

/-- `PWR_VID`: the fused set point codes of the four dies (R533), each from 30 to 50. -/
def vidCode (d : Nat) : Nat := 30 + (Config.vid d).toNat % 21
def pwrVid : Nat := (List.range 4).foldl (fun a d => a + vidCode d * 2 ^ (8 * d)) 0

/-- `THERM_STATUS`, `COOLANT_STATUS`, `GOV_STATUS` and `PWR_RAIL` (R549). -/
def thermStatus (p : PowerUnit) : Nat :=
  p.tjMax.toNat * 2 ^ 48 + p.hbmMax.toNat * 2 ^ 32 + p.hot.toNat * 2 ^ 8 + 8 * bit p.crit.isSome + 4 * bit p.tripOn +
    2 * bit p.thermOut.fault + bit p.thermIn.fault
def coolantStatus (p : PowerUnit) : Nat :=
  unsigned 16 p.thermOut.reading * 2 ^ 48 + unsigned 16 p.thermIn.reading * 2 ^ 32 + p.valve.toNat * 2 ^ 11 + p.pump.toNat
def govStatus (p : PowerUnit) : Nat :=
  p.xH.toNat * 2 ^ 48 + p.x0.toNat * 2 ^ 32 + p.pPred.toNat * 2 ^ 16 + p.reason.toNat * 2 ^ 8
def railReg (p : PowerUnit) (i : Nat) : Nat :=
  let r := Tab.get Rail.reset p.rails i
  r.volt % 65536 * 2 ^ 32 + r.power % 2 ^ 32

/-- POWER_QUERY (R548). -/
def execPowerQuery (m : Mbx) (s : State) : Host.Outcome State Fault Refusal :=
  runCmd m .any [] (fun s =>
    let p := s.dev.pwr
    (stOk, { fields := [], block := some (itemsBlock ([pwrVid, thermStatus p, coolantStatus p, govStatus p] ++
      (List.range 12).map (railReg p) ++ (List.range 7).map fun i => (Tab.get 0 p.cnt i).toNat)) }, s)) s

/-- The temperature of a thermistor in 1/16 °C, nearest (R539). -/
def thermistor (c : Coolant) (r : Nat) : Int :=
  let tn := F64.add (F64.ofFrac c.tNom 16) (F64.ofFrac 27315 100)
  let ln := F64.ofBits (Config.lnF64 (F64.ofFrac r c.rNom).bits)
  let inv := ((F64.ofInt 1).div tn).add (ln.div (F64.ofInt c.beta))
  ((((F64.ofInt 1).div inv).sub (F64.ofFrac 27315 100)).mul (F64.ofInt 16)).nearest

/-- One sample of a thermistor (R539): a resistance out of range is a fault that keeps the last good reading. -/
def sampleTherm (c : Coolant) (r : Nat) (t : Therm) : Therm × Bool :=
  if 100 ≤ r ∧ r ≤ 1000000 then
    let v := thermistor c r
    ({ t with samples := t.samples ++ [v], last := v, good := t.good + 1, fault := t.fault && decide (t.good + 1 < 10) }, false)
  else ({ t with samples := t.samples ++ [t.last], good := 0, fault := true }, true)

/-- COOLANT_SAMPLE (R539): both thermistors are measured every 1,966,080 ridge ticks. -/
def execCoolantSample (rIn rOut : BitVec 32) (s : State) : Host.Outcome State Fault Refusal :=
  if s.now % msTicks ≠ 0 then .next s
  else
    let p := s.dev.pwr
    let a := sampleTherm p.coolant rIn.toNat p.thermIn
    let b := sampleTherm p.coolant rOut.toNat p.thermOut
    .next (pwrCount 3 (bit a.2 + bit b.2) (updPwr (fun p => { p with thermIn := a.1, thermOut := b.1 }) s))

/-- REGULATOR_POLL (R546): a reading of one regulator, in mV and mA, or a read that was not acknowledged. A rail without a
regulator address is not read (Table 21.3). -/
def execRegulatorPoll (rail : BitVec 4) (ack : Bool) (milliVolt : BitVec 16) (milliAmp : BitVec 32) (s : State) :
    Host.Outcome State Fault Refusal :=
  let i := rail.toNat
  if 12 ≤ i ∨ s.now % 983040 ≠ 0 ∨ s.dev.platform.pmbus.getD i 0 = 0 then .next s
  else
    let r := Tab.get Rail.reset s.dev.pwr.rails i
    let v := if ack then milliVolt.toNat else r.lastVolt
    let w := if ack then milliVolt.toNat * milliAmp.toNat else r.lastPower
    let r' := { r with sumPower := r.sumPower + w, sumVolt := r.sumVolt + v, count := r.count + 1, lastVolt := v, lastPower := w }
    .next (pwrCount 2 (bit (!ack)) (updPwr (fun p => { p with rails := Tab.set Rail.reset p.rails i r' }) s))

/-! ### The loop model and the governor (R540 to R542) -/

/-- What the governor plans from. -/
structure Loop where
  tIn : F64
  g : F64
  rJ : F64
  pTot : Nat
  pNc : F64
deriving DecidableEq, Repr

/-- Tss(P) of R540. -/
def Loop.tss (l : Loop) (p : F64) : F64 :=
  l.tIn.add (p.mul (l.rJ.add ((F64.ofInt 1).div ((F64.ofInt 2).mul l.g))))

/-- The measured inputs of the loop model at a planning edge (R540). -/
def loopOf (s : State) (gov : Governor) : Loop :=
  let p := s.dev.pwr
  let mw := fun (l : List Nat) => (l.map fun i => (Tab.get Rail.reset p.rails i).power).sum
  let tot := mw (List.range 12)
  let dT := F64.sub (F64.ofFrac p.thermOut.reading 16) (F64.ofFrac p.thermIn.reading 16)
  { tIn := F64.ofFrac p.thermIn.reading 16, g := (F64.ofFrac tot 1000).div (dT.larger (F64.ofFrac 1 2)),
    rJ := F64.ofFrac gov.rJ 1000000, pTot := tot, pNc := F64.ofFrac (mw ((List.range 8).map (4 + ·))) 1000 }

/-- The slowest tier the RAN plate in force allows (R53). -/
def ranLimit (s : State) (e : Nat) : Nat := ((ranInForce s e).map Plate.tierLimit).getD 3

/-- The tier planned for the current epoch, and the power predicted for it (R541); an epoch without a plan keeps those before it
(R542). -/
def planOfNow (s : State) : BitVec 2 × BitVec 64 :=
  if s.dev.pwr.planned = some s.epochNow then (s.dev.pwr.nextTier, s.dev.pwr.pNext) else (s.clk.tier, s.dev.pwr.pCur)

/-- U(t) × 512 × 19,660,800 of R540, before the cap: CCLK cycles × cores of the plates in force in an epoch that run at
tier t. Log 28 (DEDUCED). -/
def plannedWork (s : State) (e t : Nat) : Nat :=
  ((demandAt s 0x10000 e).map fun q =>
    if t ≤ (if q.1.kind = 3 ∧ q.1.isRan then ranLimit s e else q.1.tierLimit) ∧ q.2 ≠ .over then
      (claimed 1 q.1.claims).length * ((onePerWindow q.1.windows).map fun w =>
        epochTicks / gridPeriod w.grid * ((((q.1.windows.filter (·.window == w.window)).map Win.cclk).max?).getD 0)).sum
    else 0).sum

/-- P(t) of R540. Log 28 (DEDUCED). -/
def predictedPower (s : State) (gov : Governor) (l : Loop) (e t : Nat) : F64 :=
  let u := (F64.ofInt (min (plannedWork s e t) (512 * epochTicks))).div (F64.ofInt (512 * epochTicks))
  ((l.pNc.add (F64.ofInt gov.pLeak)).add (((F64.ofInt gov.pClk).mul (F64.ofInt 8)).div (F64.ofInt (cclkDiv t)))).add
    ((F64.ofInt gov.kDyn).mul u)

/-- The hottest junction at the planning edge in °C. -/
def planX0 (s : State) : F64 := F64.ofFrac (signed 16 s.dev.pwr.tjMax.toNat) 16

/-- xH of tier t for a predicted power (R541). -/
def predictedTemp (s : State) (gov : Governor) (l : Loop) (p : F64) : F64 :=
  let a := F64.ofBits (Config.expF64 ((F64.ofFrac (-1) 100).div (F64.ofFrac gov.tau 1000)).bits)
  let aH := F64.ofBits (Config.powF64 a.bits (F64.ofInt gov.h).bits)
  let t0 := l.tss (F64.ofBits (planOfNow s).2)
  let x1 := t0.add (((planX0 s).sub t0).mul a)
  (l.tss p).add ((x1.sub (l.tss p)).mul aH)

/-- The governor's choice: tier and reason (R541). A plan without any measured power fits nothing. Log 28 (DEDUCED). -/
def chooseTier (s : State) (gov : Governor) (l : Loop) (e : Nat) : Nat × Nat :=
  let lim := ranLimit s e
  if s.dev.pwr.tripOn ∨ s.dev.pwr.thermIn.fault ∨ s.dev.pwr.thermOut.fault then (lim, 3)
  else if gov.fixed then (min gov.fixedTier lim, 1)
  else
    let lo := min gov.tierFast lim
    let fits := fun (t : Nat) =>
      let p := predictedPower s gov l e t
      let bound := if t < (planOfNow s).1.toNat then gov.tPlan - gov.hyst else gov.tPlan
      l.pTot != 0 && p.le (F64.ofInt gov.pCap) && (predictedTemp s gov l p).le (F64.ofFrac bound 16)
    match ((List.range (lim + 1 - lo)).map (lo + ·)).find? fits with
    | some t => (t, 0)
    | none => (lim, 2)

/-- GOVERNOR_PLAN (R540 to R542): at the first TCLK edge of an epoch the tier of the next is planned. Log 28 (DEDUCED), 29 (DEDUCED). -/
def execGovernorPlan (s : State) : Host.Outcome State Fault Refusal :=
  if s.now % epochTicks ≠ 0 ∨ ¬ s.dev.hbmReady ∨ s.dev.pwr.planned = some (s.epochNow + 1) then .next s
  else
    let e := s.epochNow + 1
    let gov := match s.dev.pwr.govNew with
      | some (x, t) => if t < s.now then x else s.dev.pwr.gov
      | none => s.dev.pwr.gov
    let l := loopOf s gov
    let c := chooseTier s gov l e
    let p := predictedPower s gov l e c.1
    let xh := (predictedTemp s gov l p).mul (F64.ofInt 16)
    let d := s.draw
    let s1 := if l.pTot = 0 then d.2 else s
    let s2 := updPwr (fun u => { u with
      gov := gov, nextTier := BitVec.ofNat 2 c.1, planned := some e, pNext := p.bits, reason := BitVec.ofNat 2 c.2,
      xH := if l.pTot = 0 then BitVec.ofNat 16 d.1.toNat else BitVec.ofInt 16 xh.nearest, x0 := u.tjMax,
      pPred := BitVec.ofInt 16 p.nearest }) s1
    let s3 := if (planOfNow s).1.toNat < c.1 then pwrCount 4 1 s2 else s2
    .next (if c.2 = 2 then pwrCount 5 1 s3 else if c.2 = 3 then pwrCount 6 1 s3 else s3)

/-- The pump duty of a planned power (R542). Log 28 (DEDUCED). -/
def pumpDuty (c : Coolant) (p : F64) : Nat :=
  let x := ((F64.ofInt c.dMin).add (((F64.ofInt (c.dMax - c.dMin)).mul p).div (F64.ofInt c.pRef))).add (F64.ofFrac 1 2)
  max c.dMin (min c.dMax x.floor.toNat)

/-- The mean of samples in 1/16 °C, nearest; none keeps the reading. -/
def meanOf (t : Therm) : Therm :=
  match t.samples with
  | [] => t
  | l => { t with samples := [], reading := Int.fdiv (2 * l.foldl (· + ·) 0 + l.length) (2 * l.length) }

/-- The means of a rail's epoch (R546). -/
def meanRail (r : Rail) : Rail :=
  if r.count = 0 then r
  else { r with volt := r.sumVolt / r.count, power := r.sumPower / r.count / 1000, sumPower := 0, sumVolt := 0, count := 0 }

/-- The readings of Table 20.6 in the units of its sensors, by sensor identifier. Log 27 (PRESUMED). -/
def pldmReadings (s : State) : List Int :=
  let p := s.dev.pwr
  let hot := fun (t : Tab Int) (n d : Nat) => (((List.range n).map fun i => Tab.get 0 t (n * d + i)).max?).getD 0
  let watt := fun i => ((Tab.get Rail.reset p.rails i).power / 1000 : Nat)
  (List.range 4).map (hot p.junctions 24) ++ (List.range 4).map (hot p.hbmTemps 8) ++
    [p.thermIn.reading, p.thermOut.reading, (((List.range 12).map watt).sum : Nat)] ++
    (List.range 12).map (fun i => (watt i : Int)) ++
    [(s.clk.tier.toNat : Int), (p.pump.toNat * 100 / 1024 : Nat), (p.valve.toNat * 100 / 1024 : Nat),
     (if p.crit.isSome then 3 else if p.tripOn then 2 else 1),
     (if s.flt.fenced then 3 else if s.flt.probation then 2 else 1)]

/-- EPOCH_BOUNDARY (R21, R27, R57, R58, R537, R538, R542): the planned tier and duties, the readings of the epoch that
ended, and the plates' changes. -/
def execEpochBoundary (s : State) : Host.Outcome State Fault Refusal :=
  if s.now % epochTicks ≠ 0 then .next s
  else
    let e := s.epochNow
    let p := s.dev.pwr
    let on := p.planned = some e
    let tier := if on then p.nextTier else s.clk.tier
    let cur := if on then p.pNext else p.pCur
    let s1 := updPwr (fun p => { p with
      nextTier := tier, pCur := cur,
      pump := if p.tripOn then p.pump
        else if on then BitVec.ofNat 11 (pumpDuty p.coolant (F64.ofBits cur)) else BitVec.ofNat 11 (max p.coolant.dMin (min p.coolant.dMax p.pump.toNat)),
      valve := if p.tripOn then p.valve else BitVec.ofNat 11 p.coolant.valveDuty,
      thermIn := meanOf p.thermIn, thermOut := meanOf p.thermOut,
      rails := (List.range 12).foldl (fun t i => Tab.upd Rail.reset t i meanRail) p.rails }) { s with clk := { s.clk with tier := tier } }
    let s2 := epochPlates e s1
    .next (updPwr (fun p => { p with shown := (List.range 28).foldl (fun t i =>
      Tab.set 0 t (i + 1) ((pldmReadings s2).getD i 0)) p.shown }) s2)

/-! ### SMBus and PMBus (R533, R547) -/

/-- PMBUS_TARGET_READ (R533): VOUT_MODE and the four set points; no other command is answered. -/
def execPmbusTargetRead (command : BitVec 8) (s : State) : Host.Outcome State Fault Refusal :=
  let c := command.toNat
  if c = 0x20 then .next (emit (.smbus [0x14]) s)
  else if 0xD0 ≤ c ∧ c ≤ 0xD3 then
    .next (emit (.smbus (leBytes 2 ((2 * (500 + 5 * vidCode (c - 0xD0)) * 4096 + 1000) / 2000))) s)
  else .next s

/-- The answer of the MCTP endpoint to a message of a supported type, its message body first byte the type (R547). Log 27 (PRESUMED), 29 (DEDUCED). -/
def mctpAnswer (s : State) (msg : List Byte) : Option (List Byte) × State :=
  let b := fun i => fld msg i 1
  if b 0 = 0 then
    let head := [BitVec.ofNat 8 0, BitVec.ofNat 8 (b 1 % 128), BitVec.ofNat 8 (b 2)]
    match b 2 with
    | 1 => (some (head ++ [0, 0, BitVec.ofNat 8 (b 4), 0]),
            updPwr (fun p => { p with eid := BitVec.ofNat 8 (b 4) }) s)
    | 2 => (some (head ++ [0, s.dev.pwr.eid, 0, 0]), s)
    | 4 => (some (head ++ [0, 1, 0xF1, 0xF3, 0xFF, 0x00]), s)
    | 5 => (some (head ++ [0, 1, 1]), s)
    | _ => (some (head ++ [5]), s)
  else if b 0 = 1 then
    let head := [BitVec.ofNat 8 1, BitVec.ofNat 8 (b 1 % 128), BitVec.ofNat 8 (b 2), BitVec.ofNat 8 (b 3)]
    let id := fld msg 4 2
    let v := Tab.get 0 s.dev.pwr.shown id
    if b 2 % 64 ≠ 2 then (some (head ++ [5]), s)
    else if b 3 = 0x51 then
      let d := s.drawBytes 64
      (some (head ++ [0] ++ d.1), d.2)
    else if b 3 = 0x11 ∧ 1 ≤ id ∧ id ≤ 26 then
      (some (head ++ [0, 4, (if s.dev.pwr.shown = [] then 2 else 0), 0, 0, 0, 0] ++ leBytes 4 (unsigned 32 v)), s)
    else if b 3 = 0x21 ∧ 27 ≤ id ∧ id ≤ 28 then
      (some (head ++ [0, 1, (if s.dev.pwr.shown = [] then 2 else 0), BitVec.ofNat 8 v.toNat, 0, 0]), s)
    else if b 3 = 0x11 ∨ b 3 = 0x21 then (some (head ++ [0x80]), s)
    else (some (head ++ [5]), s)
  else (none, s)

/-- MCTP_MESSAGE (R547). -/
def execMctpMessage (msg : List Byte) (s : State) : Host.Outcome State Fault Refusal :=
  match mctpAnswer s msg with
  | (some a, s1) => .next (emit (.smbus a) s1)
  | (none, s1) => .next s1

end Sys2Proof.Machine
end

