-- ==== Sys2Proof/Machine/Dmt.lean ====
section
/-!
DEFINITION. The signal of an Abard lane (chapter 11, R319 to R322): the PRBS, the constellations, the symbols and the RS(544,514)
code.
-/
namespace Sys2Proof.Machine
open Sys2Proof

/-! ### The PRBS and the constellations (R319, R320) -/

/-- One bit of the PRBS x^31 + x^28 + 1: the last stage of the register leaves, stages 31 and 28 feed the first. Log 82 (DESIGN CHOICE). -/
def prbsNext (r : Nat) : Bool × Nat := (bitAt r 30, 2 * r % 2 ^ 31 + bit (bitAt r 30 != bitAt r 27))

/-- The next n bits of the PRBS from a register. -/
def prbsBits : Nat → Nat → List Bool
  | 0, _ => []
  | n + 1, r => (prbsNext r).1 :: prbsBits n (prbsNext r).2

/-- The number that the bits of an axis give as a Gray code, most significant bit first (R320). -/
def grayValue (l : List Bool) : Nat :=
  (l.foldl (fun (a : Bool × Nat) b => let v := a.1 != b
    (v, 2 * a.2 + bit v)) (false, 0)).2

/-- The level that an axis takes from its bits: 2n − (M − 1) (R320). -/
def axisLevel (l : List Bool) : Int := if l = [] then 0 else 2 * (grayValue l : Int) - (2 ^ l.length - 1)

/-- Bits of the I axis of a subcarrier that carries b bits: half of an even b, the greater half of an odd one (R320). -/
def axisBits (b : Nat) : Nat := (b + 1) / 2

/-- Three times the mean power of the points of b bits, to which the unit of average power refers (R320). -/
def pointPower (b : Nat) : Nat := (4 ^ axisBits b - 1) + (4 ^ (b - axisBits b) - 1)

/-- The point that bits take on a subcarrier, with its fine gain (R320). -/
def carrierOf (bits : List Bool) (gain : Int) : Carrier :=
  { i := axisLevel (bits.take (axisBits bits.length)), q := axisLevel (bits.drop (axisBits bits.length)),
    power := pointPower bits.length, gain := gain }

/-- The pilot: (+1, 0) at nominal power (Table 11.1). -/
def pilot : Carrier := { i := 1, q := 0, power := 3, gain := 0 }

/-- The subcarriers that carry data (Table 11.1). -/
def dataCarriers : List Nat := ((List.range 255).map (· + 1)).filter (· != 16)

/-- A symbol from what its data subcarriers carry: bits and fine gains by subcarrier (R319, R320). -/
def carriersOf (bits : Nat → List Bool) (gain : Nat → Int) : List Carrier :=
  (List.range 256).map fun k => if k = 16 then pilot else if bits k = [] then Carrier.none else carrierOf (bits k) (gain k)

/-- The sync symbol (R319): QPSK from the PRBS seeded with all ones, I bit then Q bit, in ascending subcarrier. -/
def syncSymbol : List Carrier :=
  let bits := prbsBits 508 (2 ^ 31 - 1)
  carriersOf (fun k => if k = 0 then [] else (bits.drop (2 * (if k < 16 then k - 1 else k - 2))).take 2) (fun _ => 0)

/-- Bits that a symbol of a loading table carries before subcarrier k. -/
def bitsBefore (load : List Nat) (k : Nat) : Nat := ((dataCarriers.filter (· < k)).map fun j => load.getD j 0).sum

/-- Bits that a symbol of a loading table carries. -/
def symbolBits (load : List Nat) : Nat := bitsBefore load 256

/-- A data symbol: bits of the stream in ascending subcarrier (R320, R321). -/
def dmtSymbol (load : List Nat) (fine : List Int) (bits : List Bool) : List Carrier :=
  carriersOf (fun k => if k = 0 then [] else (bits.drop (bitsBefore load k)).take (load.getD k 0)) (fun k => fine.getD k 0)

/-- The symbols that a bit stream fills: each superframe begins with its sync symbol, and a data symbol waits until the stream
holds all its bits. Answers the symbols, the bits left and the place in the superframe (R319, R321, Table 11.1). -/
def fillSymbols (load : List Nat) (fine : List Int) : Nat → List Bool → Nat → List (List Carrier) × List Bool × Nat
  | 0, bits, pos => ([], bits, pos)
  | k + 1, bits, pos =>
    if symbolBits load = 0 ∨ bits.length < symbolBits load then ([], bits, pos)
    else if pos = 0 then
      let r := fillSymbols load fine k bits 1
      (syncSymbol :: r.1, r.2)
    else
      let r := fillSymbols load fine k (bits.drop (symbolBits load)) ((pos + 1) % 256)
      (dmtSymbol load fine bits :: r.1, r.2)

/-! ### RS(544,514) (R322) -/

/-- A product in GF(2^10), of the field polynomial x^10 + x^3 + 1. Log 82 (PRESUMED). -/
def gf10Mul (a b : Nat) : Nat :=
  ((List.range 10).foldl (fun (p : Nat × Nat) i =>
    (if bitAt b i then p.1 ^^^ p.2 else p.1, if bitAt p.2 9 then (2 * p.2) ^^^ 0x409 else 2 * p.2)) (0, a)).1

/-- Multiplies a polynomial, highest coefficient first, by x + r. -/
def polyTimes (g : List Nat) (r : Nat) : List Nat :=
  List.zipWith (fun a b => a ^^^ b) (g ++ [0]) (0 :: g.map (gf10Mul r))

/-- The generator polynomial without its leading 1: the product of x + α^j for j = 0 to 29. Log 82 (PRESUMED). -/
def rsGenerator : List Nat :=
  (((List.range 30).foldl (fun (p : List Nat × Nat) _ => (polyTimes p.1 p.2, gf10Mul p.2 2)) ([1], 1)).1).drop 1

/-- The thirty parity symbols of 514 symbols. -/
def rsParity (m : List Nat) : List Nat :=
  m.foldl (fun r x =>
    let f := x ^^^ r.headD 0
    List.zipWith (fun a g => a ^^^ gf10Mul f g) (r.drop 1 ++ [0]) rsGenerator) (List.replicate 30 0)

/-- The codeword of a slate's 5,140 bits: its symbols in codeword order (R322). -/
def rsCodeword (payload : Nat) : List Nat :=
  let m := (List.range 514).map fun i => bitsAt payload (5130 - 10 * i) 10
  m ++ rsParity m

/-- A codeword as one number, first bit most significant: the 5,140 bits of its slate, then its parity. -/
def rsWord (payload : Nat) : Nat :=
  payload * 2 ^ 300 + (rsParity ((List.range 514).map fun i => bitsAt payload (5130 - 10 * i) 10)).foldl (fun a x => 1024 * a + x % 1024) 0

/-- A received codeword as one number: the bits of its slate before the CRC, the CRC and the parity, none of them trusted. -/
def receivedWord (body : BitVec 5108) (crc : BitVec 32) (parity : BitVec 300) : Nat :=
  (body.toNat * 2 ^ 32 + crc.toNat) * 2 ^ 300 + parity.toNat

/-- α^n. -/
def gf10Exp (n : Nat) : Nat := (List.range (n % 1023)).foldl (fun a _ => gf10Mul a 2) 1

/-- The inverse a^1022. -/
def gf10Inv (a : Nat) : Nat :=
  ((List.range 10).foldl (fun (p : Nat × Nat) i => (if i = 0 then p.1 else gf10Mul p.1 p.2, gf10Mul p.2 p.2)) (1, a)).1

/-- A polynomial, lowest coefficient first, at a point. -/
def polyAt (c : List Nat) (x : Nat) : Nat := c.foldr (fun a r => a ^^^ gf10Mul r x) 0

/-- The error locator, lowest coefficient first, of syndromes: the shortest recurrence that they obey. -/
def errorLocator (syn : List Nat) : List Nat :=
  let add := fun (c b : List Nat) (f k : Nat) => (List.range (max c.length (b.length + k))).map fun i =>
    c.getD i 0 ^^^ (if i < k then 0 else gf10Mul f (b.getD (i - k) 0))
  let r := (List.range syn.length).foldl (fun (p : List Nat × List Nat × Nat × Nat × Nat) n =>
    let (c, b, l, k, e) := p
    let d := (List.range (l + 1)).foldl (fun a i => a ^^^ gf10Mul (c.getD i 0) (syn.getD (n - i) 0)) 0
    if d = 0 then (c, b, l, k + 1, e)
    else if 2 * l ≤ n then (add c b (gf10Mul d (gf10Inv e)) k, c, n + 1 - l, 1, d)
    else (add c b (gf10Mul d (gf10Inv e)) k, b, l, k + 1, e)) ([1], [1], 0, 1, 1)
  r.1.take (r.2.2.1 + 1)

/-- Symbols found in error, by their number from the first: what to add to each. -/
def rsErrors (w : Nat) : List (Nat × Nat) :=
  let syms := (List.range 544).map fun i => bitsAt w (5430 - 10 * i) 10
  let syn := (List.range 30).map fun j => let a := gf10Exp j
    syms.foldl (fun r x => gf10Mul r a ^^^ x) 0
  let loc := errorLocator syn
  let omega := (List.range 30).map fun i => (List.range (i + 1)).foldl (fun a j => a ^^^ gf10Mul (loc.getD j 0) (syn.getD (i - j) 0)) 0
  let deriv := (List.range loc.length).map fun i => if i % 2 = 0 then loc.getD (i + 1) 0 else 0
  (List.range 544).filterMap fun i =>
    let x := gf10Exp (543 - i)
    let y := gf10Inv x
    if polyAt loc y = 0 then some (i, gf10Mul x (gf10Mul (polyAt omega y) (gf10Inv (polyAt deriv y)))) else none

/-- The decoder of RS(544,514) (R322): the payload of the codeword that differs from a received word in at most 15 symbols, and in how
many; none where there is no such codeword. -/
def rsDecode (w : Nat) : Option (Nat × Nat) :=
  if rsWord (w / 2 ^ 300) = w then some (w / 2 ^ 300, 0)
  else
    let e := rsErrors w
    let v := e.foldl (fun a q => a ^^^ q.2 * 2 ^ (5430 - 10 * q.1)) w
    if e.length ≤ 15 ∧ rsWord (v / 2 ^ 300) = v then some (v / 2 ^ 300, e.length) else none

/-- The bits of a codeword in the order of its lane's stream, each symbol most significant bit first (R321). -/
def codewordBits (l : List Nat) : List Bool := l.flatMap fun x => (List.range 10).map fun i => bitAt x (9 - i)

end Sys2Proof.Machine
end

