-- ==== Sys2Proof/Machine/Mailbox.lean ====
section
/-!
DEFINITION. The mailbox rings, acceptance and management frames (chapter 19), and accesses to a BAR that reach
no register (R9, R572).
-/
namespace Sys2Proof.Machine
open Sys2Proof

/-- A BAR write of a function: a function in TEARDOWN ignores it (R437), an ABSENT one does not decode it (R572). Log 71 (DEDUCED). -/
def barWrite (fn : Nat) (f : State → State) (s : State) : State :=
  match (s.fn fn).state with
  | 0 => emit (.unsupported fn) s
  | 2 => s
  | _ => f s

/-- BAD_WIDTH_ACCESS (R9): ignored and counted; a read returns all ones. A function in TEARDOWN reads 0
without a count, and an ABSENT one decodes nothing (R437, R572). -/
def execBadWidthAccess (fn : BitVec 8) (read : Bool) (s : State) : Host.Outcome State Fault Refusal :=
  let f := fn.toNat
  match (s.fn f).state with
  | 0 => .next (emit (.unsupported f) s)
  | 2 => .next (if read then emit (.readData f 0 32) s else s)
  | _ => .next (hifCount 0 (if read then emit (.readData f 0xFFFFFFFF 32) s else s))

/-- UNMAPPED_BAR_ACCESS (R572): a read returns 0 and a write is ignored, counted in BAD_ACCESS. -/
def execUnmappedBarAccess (fn : BitVec 8) (read : Bool) (bits : BitVec 8) (s : State) :
    Host.Outcome State Fault Refusal :=
  let f := fn.toNat
  match (s.fn f).state with
  | 0 => .next (emit (.unsupported f) s)
  | 2 => .next (if read then emit (.readData f 0 bits.toNat) s else s)
  | _ => .next (hifCount 0 (if read then emit (.readData f 0 bits.toNat) s else s))

/-- A bad index or ring size stops the ring (R511, R512). Log 15 (DEDUCED). -/
def ringError (fn : Nat) (s : State) : State :=
  let g := s.ring fn
  hifCount 2 (raiseFnErr fn 1 (s.setRing fn { g with err := BitVec.ofNat 16 stBadParam }))

/-- Applies a command ring doorbell (R511). -/
def applyCmdPI (fn : Nat) (v : BitVec 32) (s : State) : State :=
  let g := s.ring fn
  let slots := 2 ^ g.cmdLog
  if (v - g.cmdPI).toNat ≤ slots ∧ (v - g.cmdCI).toNat ≤ slots then
    s.setRing fn { g with cmdPI := v,
                          headSince := if g.cmdPI = g.cmdCI ∧ v ≠ g.cmdCI then some s.now else g.headSince }
  else ringError fn s

/-- A write of `MBX_CMD_PI` (R511, Table 19.19). Log 15 (DEDUCED). -/
def writeCmdPI (f : Nat) (v : BitVec 32) (s : State) : State :=
  let g := s.ring f
  if ¬ g.en then s.setRing f { g with keptPI := some v }
  else if g.err ≠ 0 then s
  else applyCmdPI f v s

/-- A write of `MBX_CPL_CI` (R511, R519). -/
def writeCplCI (f : Nat) (v : BitVec 32) (s : State) : State :=
  let g := s.ring f
  let slots := 2 ^ g.cplLog
  if (v - g.cplCI).toNat ≤ slots ∧ (g.cplPI - v).toNat ≤ slots then
    s.setRing f { g with cplCI := v, firstSinceCI := g.firstSinceCI || v != g.cplCI }
  else ringError f s

/-- MBX_CMD_PI_WRITE (R511). -/
def execMbxCmdPiWrite (fn : BitVec 8) (v : BitVec 32) (s : State) : Host.Outcome State Fault Refusal :=
  .next (barWrite fn.toNat (writeCmdPI fn.toNat v) s)

/-- MBX_CPL_CI_WRITE (R511, R519). -/
def execMbxCplCiWrite (fn : BitVec 8) (v : BitVec 32) (s : State) : Host.Outcome State Fault Refusal :=
  .next (barWrite fn.toNat (writeCplCI fn.toNat v) s)

/-- Takes the ring registers as they stand and starts the rings (R512). Log 15 (DEDUCED). -/
def enableRing (fn : Nat) (s : State) : State :=
  let g := s.ring fn
  let cl := bitsAt g.cmdRing.toNat 0 4
  let pl := bitsAt g.cplRing.toNat 0 4
  let fresh : MbxRing :=
    { g with cmdBase := g.cmdRing.toNat / 4096 * 4096, cmdLog := cl, cplBase := g.cplRing.toNat / 4096 * 4096,
             cplLog := pl, en := true, err := 0, cmdPI := 0, cplCI := 0, cplPI := 0, cmdCI := 0,
             enablePending := false, firstSinceCI := true, keptPI := none, headSince := none }
  if 4 ≤ cl ∧ cl ≤ 12 ∧ 4 ≤ pl ∧ pl ≤ 12 then
    let s1 := s.setRing fn fresh
    match g.keptPI with
    | some v => applyCmdPI fn v s1
    | none => s1
  else ringError fn (s.setRing fn { fresh with en := false })

/-- A write of `MBX_CTRL` (R512): EN. -/
def writeMbxCtrl (f : Nat) (en : Bool) (s : State) : State :=
  let g := s.ring f
  if ¬ en then s.setRing f { g with en := false, enablePending := false }
  else if g.en then s
  else if g.inflight = [] then enableRing f s
  else s.setRing f { g with enablePending := true }

/-- MBX_ENABLE (R512): EN written from 0 to 1; before IDLE it waits. -/
def execMbxEnable (fn : BitVec 8) (s : State) : Host.Outcome State Fault Refusal :=
  .next (barWrite fn.toNat (writeMbxCtrl fn.toNat true) s)

/-- MBX_DISABLE (R512): acceptance stops; accepted commands complete. -/
def execMbxDisable (fn : BitVec 8) (s : State) : Host.Outcome State Fault Refusal :=
  .next (barWrite fn.toNat (writeMbxCtrl fn.toNat false) s)

/-- MBX_DRAINED (R512): no accepted command remains, IDLE is set and a waiting enable takes effect. -/
def execMbxDrained (fn : BitVec 8) (s : State) : Host.Outcome State Fault Refusal :=
  let g := s.ring fn.toNat
  .next (if g.inflight = [] ∧ g.enablePending then enableRing fn.toNat s else s)

/-- The opcodes that Tables 19.5 to 19.16 list (R525). Log 13 (DEDUCED). -/
def opcodes : List Nat :=
  [0x0101, 0x0102, 0x0103, 0x0104, 0x0105, 0x0106, 0x0201, 0x0202, 0x0203, 0x0204, 0x0205, 0x0206,
   0x0301, 0x0302, 0x0303, 0x0304, 0x0305, 0x0306, 0x0307, 0x0308, 0x0309, 0x030A, 0x030B, 0x030C, 0x030D, 0x030E,
   0x0310, 0x0311, 0x0312, 0x0313, 0x0318, 0x0319, 0x031A, 0x031B, 0x031C, 0x031D, 0x031E] ++
  [0x0401, 0x0402, 0x0403, 0x0404, 0x0405, 0x0406, 0x0407, 0x0408, 0x0409, 0x0420, 0x0421, 0x0422, 0x0423, 0x0424,
   0x0425, 0x0501, 0x0502, 0x0503, 0x0504, 0x0505, 0x0601, 0x0602, 0x0603, 0x0604, 0x0605, 0x0606, 0x0610, 0x0611,
   0x0612, 0x0613, 0x0614, 0x0701, 0x0702, 0x0703, 0x0704, 0x0705] ++
  [0x0801, 0x0802, 0x0803, 0x0804, 0x0805, 0x0806, 0x0807, 0x0808, 0x0901, 0x0902, 0x0903, 0x0904, 0x0905, 0x0906,
   0x0907, 0x0908, 0x0A01, 0x0A02, 0x0A03, 0x0A04, 0x0A05, 0x0A06, 0x0A07, 0x0A08, 0x0A09, 0x0B01, 0x0B02, 0x0B03,
   0x0B04, 0x0C01, 0x0C02, 0x0C03, 0x0C04, 0x0C05, 0x0C06, 0x0C07, 0x0C08]

/-- A field of a raw descriptor. -/
def dfld (d : BitVec 512) (off n : Nat) : Nat := (d.toNat >>> (8 * off)) % 256 ^ n

/-- Whether a function's context is stopping, saving or held under `CTX_PREEMPT` (R521). -/
def ctxStopped (s : State) (fn : Nat) : Bool :=
  let c := Tab.get Ctx.reset s.core.ctxs fn
  (c.state == 2 || c.state == 3 || c.state == 4) && !c.resumeAsked

/-- Whether R521 holds a head command. -/
def heldByPreempt (s : State) (fn : Nat) (d : BitVec 512) : Bool :=
  (dfld d 0 2 == 0x0203 || dfld d 0 2 == 0x0505 || dfld d 0 2 == 0x0307) && ctxStopped s fn

/-- Whether a command in flight in any ring satisfies a condition. -/
def anyInflight (s : State) (f : Inflight → Bool) : Bool :=
  s.mbx.mgmtInflight.any f || s.mbx.rings.any fun e => e.2.inflight.any f

/-- What a compute-partition reset asks of an opcode's acceptance (R562): the reset itself waits for the groups that it clears, and
while it runs only groups that it does not touch are accepted. -/
def resetAllows (s : State) (opcode : Nat) : Bool :=
  (opcode != 0x0104 || !anyInflight s fun i => [2, 3, 5, 8, 9, 10].contains (i.opcode / 256)) &&
    (s.dev.compute.isNone || [1, 4, 6, 7, 11, 12].contains (opcode / 256))

/-- Whether a function's ring is served: after HOST_READY (R513), and in recovery only the PF's (R553). -/
def ringServed (s : State) (fn : Nat) : Bool := if s.dev.fwRecovery then fn == 0 else s.dev.hostReady

/-- Whether the head command of a function's ring is acceptable (R513, R520, R553, R562). -/
def headAcceptable (s : State) (h : Head) : Bool :=
  let fn := h.fn.toNat
  let g := s.ring fn
  g.en && g.err == 0 && (s.fn fn).state == 1 && ringServed s fn && resetAllows s (dfld h.desc 0 2) && g.cmdPI != g.cmdCI &&
  decide (g.inflight.length < 64) &&
  decide ((g.cplPI - g.cplCI).toNat + g.inflight.length < 2 ^ g.cplLog) &&
  (!bitAt (dfld h.desc 2 1) 1 || g.inflight == []) && !heldByPreempt s fn h.desc

/-- Whether the head of the management ring is acceptable (R520, R562). -/
def mgmtAcceptable (s : State) : Bool :=
  match s.mbx.mgmtWaiting with
  | [] => false
  | c :: _ => decide (s.mbx.mgmtInflight.length < 64) && resetAllows s (dfld c.desc 0 2) && (!bitAt (dfld c.desc 2 1) 1 || s.mbx.mgmtInflight == [])

/-- The in-flight record of a raw descriptor in a slot. -/
def inflightRaw (slot : Nat) (d : BitVec 512) (s : State) : Inflight :=
  { slot := slot, intr := bitAt (dfld d 2 1) 0, resAddr := dfld d 8 8, resLen := 64 * dfld d 6 2, since := s.now, silent := false,
    opcode := dfld d 0 2 }

/-- A command whose opcode no table lists completes with ST_BAD_OPCODE as it is accepted (R525), in recovery one outside group
0x01 with ST_NOT_READY (R553). Log 13 (DEDUCED). -/
def acceptFinish (input slot : Nat) (d : BitVec 512) (s : State) : State :=
  if opcodes.contains (dfld d 0 2) then s
  else completeSlot input slot (if recoveryRefuses s (dfld d 0 2) then stNotReady else stBadOpcode) Result.none
    (captureCommand input slot (dfld d 0 2) (leBytes 64 d.toNat) s)

/-- Accepts the head of a function's ring. Log 13 (DEDUCED). -/
def acceptFn (h : Head) (s : State) : State :=
  let fn := h.fn.toNat
  let g := s.ring fn
  let slot := g.cmdCI.toNat
  let ci := g.cmdCI + 1
  acceptFinish fn slot h.desc (s.setRing fn { g with
    cmdCI := ci, inflight := g.inflight ++ [inflightRaw slot h.desc s],
    headSince := if g.cmdPI = ci then none else some s.now })

/-- Accepts the head of the management ring. Log 13 (DEDUCED), 73 (DEDUCED). -/
def acceptMgmt (s : State) : State :=
  match s.mbx.mgmtWaiting with
  | [] => s
  | c :: r =>
    acceptFinish 256 c.mseq c.desc { s with mbx := { s.mbx with
      mgmtWaiting := r, mgmtInflight := s.mbx.mgmtInflight ++ [inflightRaw c.mseq c.desc s],
      mgmtHeadSince := if r = [] then none else some s.now } }

/-- Whether Burin may accept now: at most one command per 256 PCLK (R520). Log 84 (DEDUCED). -/
def mayAccept (s : State) : Bool :=
  match s.mbx.lastAccept with
  | none => true
  | some r => decide (r / 32 + 256 ≤ s.root / 32)

/-- COMMAND_ACCEPT (R520): Burin accepts at most one of the acceptable heads, by R29 at PCLK over 257 inputs. -/
def execCommandAccept (heads : List Head) (s : State) : Host.Outcome State Fault Refusal :=
  let ok := heads.filter (headAcceptable s)
  let reqs := (if mgmtAcceptable s then [(256, 0)] else []) ++
    ok.map fun h => (h.fn.toNat, if h.fn = 0 then 1 else 2)
  let s1 := { s with mbx := { s.mbx with lastAccept := some s.root } }
  if ¬ mayAccept s then .next s
  else
    match arbitrateClasses s.root 32 257 reqs with
    | none => .next s
    | some 256 => .next (acceptMgmt s1)
    | some w =>
      match ok.find? (·.fn.toNat == w) with
      | some h => .next (acceptFn h s1)
      | none => .next s

/-- Whether a head has waited its TIMEOUT (R522). -/
def timedOut (s : State) (since : Option Nat) (d : BitVec 512) : Bool :=
  match since with
  | none => false
  | some t => dfld d 4 2 != 0 && decide (t + dfld d 4 2 * msTicks ≤ s.now)

/-- COMMAND_TIMEOUT (R522): a head command that has waited its TIMEOUT completes unperformed as soon as a
completion slot is free. -/
def execCommandTimeout (input : BitVec 9) (desc : BitVec 512) (s : State) : Host.Outcome State Fault Refusal :=
  let fn := input.toNat
  if fn < 256 then
    let g := s.ring fn
    let slot := g.cmdCI.toNat
    let free := decide ((g.cplPI - g.cplCI).toNat + g.inflight.length < 2 ^ g.cplLog)
    if g.en ∧ g.err = 0 ∧ g.cmdPI ≠ g.cmdCI ∧ timedOut s g.headSince desc ∧ free then
      let st := if heldByPreempt s fn desc then stPreempted else stBusy
      let ci := g.cmdCI + 1
      .next (completeFn fn (inflightRaw slot desc s) st Result.none (s.setRing fn { g with
        cmdCI := ci, headSince := if g.cmdPI = ci then none else some s.now }))
    else .next s
  else
    match s.mbx.mgmtWaiting with
    | [] => .next s
    | c :: r =>
      if timedOut s s.mbx.mgmtHeadSince c.desc then
        .next (completeMgmt (inflightRaw c.mseq c.desc s) stBusy Result.none { s with mbx := { s.mbx with
          mgmtWaiting := r, mgmtHeadSince := if r = [] then none else some s.now } })
      else .next s

/-- One event of a management mailbox counter. Log 14 (DEDUCED). -/
def mgmtCount (i : Nat) (s : State) : State := { s with mbx := { s.mbx with mgmtCnt := bump s.mbx.mgmtCnt i } }

/-- Whether a command frame's header and TAG are right (R526, R527). Log 14 (DEDUCED). -/
def mgmtFrameOk (s : State) (p : List Byte) : Bool :=
  let n := p.length - 16
  let tag := p.drop n
  fld p 0 1 == 6 && fld p 1 1 == 1 && fld p 2 2 == s.fab.hall && fld p 4 8 == Config.serial.toNat &&
  decide (fld p 16 2 ≤ 1024) && p.length == 96 + fld p 16 2 + 16 &&
  (if s.flt.keySet then tag == frameTag s.flt.key (p.take n)
   else tag == List.replicate 16 0 && fld p 32 2 == 0x0C02)

/-- MGMT_COMMAND_FRAME (R526, R527): a command frame is taken as new, as a repeat, or dropped. -/
def execMgmtCommandFrame (port : BitVec 1) (payload : List Byte) (s : State) : Host.Outcome State Fault Refusal :=
  let mseq := fld payload 12 4
  if ¬ mgmtFrameOk s payload then .next (mgmtCount 1 s)
  else
    let isNew := match s.mbx.lastMseq with
      | none => true
      | some l => decide (l < mseq)
    if isNew then
      let c : MgmtCmd := { mseq := mseq, desc := BitVec.ofNat 512 (fld payload 32 64),
                           data := sliceBytes payload 96 (fld payload 16 2) }
      let s1 := { s with mbx := { s.mbx with
        seen := ({ mseq := mseq, reply := none } :: s.mbx.seen).take 64, lastMseq := some mseq,
        mgmtWaiting := s.mbx.mgmtWaiting ++ [c],
        mgmtHeadSince := if s.mbx.mgmtWaiting = [] then some s.now else s.mbx.mgmtHeadSince } }
      .next (mgmtCount 0 s1)
    else
      match s.mbx.seen.find? (·.mseq == mseq) with
      | none => .next (mgmtCount 4 s)
      | some e =>
        match e.reply with
        | none => .next (mgmtCount 3 s)
        | some b =>
          let p := port.toNat
          .next (mgmtCount 5 (mgmtCount 2 (emit (.mgmtFrame p (Tab.get 0 s.flt.fmMac p).toNat
            (Tab.get 0 s.flt.fmVlan p).toNat b) s)))

end Sys2Proof.Machine
end

