-- ==== Sys2Proof/Machine/Queues.lean ====
section
/-!
DEFINITION. Hardware queues, the egress scheduler, shapers, policers and the stipple sampler (chapter 14).
-/
namespace Sys2Proof.Machine
open Sys2Proof

/-- The largest L of an egress (Table 14.3). -/
def largestL (egress : Nat) : Nat := if egress < 8 then 2068 else if egress < 80 then 288 else 4096

/-- The length charged for n bytes at an egress, a WRITE's at an offset of its words (Table 14.3). -/
def chargeL (egress offset n : Nat) : Nat :=
  if egress < 8 then n + 24 else if egress < 80 then 16 * (2 + coveredWords offset n) else n

/-- The ridge count of the refill that applies a change accepted now (R408, R410). -/
def nextRefill (s : State) : Nat :=
  if s.now % 1024 = 0 ∧ s.traf.lastRefill ≠ some s.now then s.now else (s.now / 1024 + 1) * 1024

/-- A shaper class. -/
def State.qclass (s : State) (c : Nat) : QClass := Tab.get QClass.reset s.traf.classes c

/-- Sets a shaper class. -/
def State.setClass (s : State) (c : Nat) (q : QClass) : State :=
  { s with traf := { s.traf with classes := Tab.set QClass.reset s.traf.classes c q } }

/-- Sets a policer: fronthaul stream n at n, fabric source h at 8192 + h. -/
def State.setPolicer (s : State) (k : Nat) (p : Policer) : State :=
  { s with traf := { s.traf with policers := Tab.set Policer.reset s.traf.policers k p } }

/-- Virtual time of a level of an egress (R405). -/
def State.vtime (s : State) (egress level : Nat) : Nat := Tab.get 0 s.traf.vtime (4 * egress + level)

/-- DEPTH (R415): producer index minus consumer index. -/
def Queue.depth (q : Queue) : Nat := (q.pi - q.ci).toNat

/-- Whether the queue holds an entry: a record to send, or descriptors not completed. -/
def Queue.holdsEntry (q : Queue) : Bool := q.records != [] || (q.producer == 0 && q.hasRing && q.pi != q.ci)

/-- HOL_DELAY (R415). -/
def Queue.holDelay (q : Queue) (now : Nat) : Nat :=
  if q.depth = 0 then 0
  else
    match q.counted with
    | [] => 0
    | (_, t) :: _ => min (now - t) 0xFFFFFFFF

/-- Removes n counted entries, oldest first. -/
def popCounted : Nat → List (Nat × Nat) → List (Nat × Nat)
  | _, [] => []
  | 0, l => l
  | n + 1, (k, t) :: r => if k ≤ n + 1 then popCounted (n + 1 - k) r else (k - (n + 1), t) :: r

/-- The bytes of the next entry of a queue at its egress, or none: a record, or the next piece of the first
descriptor not yet wholly served (R404, R427). -/
def Queue.nextBytes (q : Queue) : Option Nat :=
  match q.records with
  | r :: _ => some r.bytes.length
  | [] =>
    match q.descs.find? (fun d => d.phase == 0) with
    | none => none
    | some d =>
      if d.order ∧ d.index ≠ q.ci.toNat then none
      else some (min 4096 (d.len - d.served))

/-- The first descriptor that its egress has not wholly served. -/
def Queue.headDesc (q : Queue) : Option QDesc := q.descs.find? (·.phase == 0)

/-- L of the next entry of a queue at its egress (Table 14.3). -/
def Queue.headL (q : Queue) : Option Nat :=
  let offset := if q.records = [] then (q.headDesc.map QDesc.target).getD 0 else 0
  q.nextBytes.map (chargeL q.egress offset)

/-- Bytes that a message takes in its landing ring (R427). -/
def landingRoom (len : Nat) : Nat := alignUp (8 + len) 64

/-- Whether a message of len bytes fits in the landing ring before ROFF, behind those that are on their way into it (R427). -/
def messageFits (s : State) (q : Queue) (len : Nat) : Bool :=
  let h := (memRead 257 q.land 8 s).1.bytes
  let cap := q.landSize - 64
  let used := (fld h 0 4 + cap - fld h 4 4 % cap) % cap
  let due := ((q.descs.filter fun d => d.op == 2 && d.phase == 1).map fun d => landingRoom d.len).sum
  decide (used + due + landingRoom len < cap)

/-- Whether a queue has an entry ready for its egress now. -/
def entryReady (s : State) (q : Queue) : Bool :=
  q.en && q.error == 0 && q.nextBytes.isSome &&
  (match q.headDesc with
   | some d => d.op != 2 || d.served != 0 || messageFits s q d.len
   | none => true)

/-- Whether the class of a queue holds at least n tokens, or places no limit (R404, R409). -/
def classAllows (s : State) (q : Queue) (n : Nat) : Bool :=
  q.cls == 0xFFFF || !(s.qclass q.cls).en || decide (n ≤ (s.qclass q.cls).tokens)

/-- Whether the queue's own shaper holds at least n tokens, or the queue is unshaped (R404). -/
def shaperAllows (q : Queue) (n : Nat) : Bool := q.rate == 0 || decide (n ≤ q.tokens)

/-- Gives the head its start and finishing tags if it has none (R405). -/
def tagHead (s : State) (q : Queue) : Queue :=
  if q.tagged then q
  else
    match q.headL with
    | none => q
    | some l =>
      let v := s.vtime q.egress q.level
      let st := if q.released then max q.fPrev v else if q.stayed then q.fPrev else v
      { q with tagged := true, released := false, tagS := st, tagF := st + ceilDiv (l * 65536) q.weight }

/-- A queue with other fetched descriptors: a tag belongs to the entry that has it (R405). -/
def Queue.withDescs (q : Queue) (ds : List QDesc) : Queue :=
  let key := fun (q : Queue) => q.headDesc.map fun d => (d.index, d.served)
  let q1 := { q with descs := ds }
  { q1 with tagged := q.tagged && (q.records != [] || key q == key q1) }

/-! ### Fetches at egress 81 (R427) -/

/-- How far a queue's fetch runs ahead of its head. -/
def Queue.fetchAhead (q : Queue) : Nat :=
  match q.headDesc with
  | none => 0
  | some d => (q.fetchAt + 2 ^ 32 - d.index) % 2 ^ 32

/-- Host address of the slot of the next descriptor to fetch. -/
def Queue.fetchSlot (q : Queue) : Nat := q.ring + 64 * (q.fetchAt % 2 ^ q.logSlots)

/-- Whether a queue has a descriptor to fetch: the host has produced it and it is at most 8 ahead of the head (R427). -/
def mayFetch (s : State) (q : Queue) : Bool :=
  q.en && q.hasRing && q.producer == 0 && q.error == 0 && (s.fn q.fn).state == 1 && !replaysCtx s q.fn && q.fetchAt != q.pi.toNat &&
    decide (q.fetchAhead ≤ 8)

/-- Gives the next fetch its tags if it has none: it competes at egress 81 with the 64 bytes of its descriptor, since its payload is
not known before. Log 19 (DESIGN CHOICE). -/
def tagFetch (s : State) (start : Nat) (q : Queue) : Queue :=
  if q.fetchTag.isSome ∨ ¬ mayFetch s q then q
  else { q with fetchTag := some (start, start + ceilDiv (64 * 65536) q.weight) }

/-- What became a head at an egress since the last decision there is tagged: its V has not moved since (R405). -/
def tagEgress (e : Nat) (s : State) : State :=
  { s with traf := { s.traf with queues := Tab.mapEntries Queue.reset (fun _ q =>
      let q1 := if q.en && q.egress == e then tagHead s q else q
      if e = 81 then tagFetch s (s.vtime 81 q.level) q1 else q1) s.traf.queues } }

/-- A queue named as a PTP transmit queue leaves its egress scheduler (R407). -/
def isPtpTx (s : State) (h : Nat) : Bool := s.time.ports.any fun p => p.2.enable && p.2.txq == h

/-- The host ranges that writing a queue's next record touches: skip marker, record and index block (R429). -/
def Queue.recordRanges (q : Queue) : List (Nat × Nat) :=
  match q.records with
  | [] => []
  | r :: _ =>
    let slots := 2 ^ q.logSlots
    let need := ceilDiv r.bytes.length 64
    let at_ := q.pi.toNat % slots
    if at_ + need ≤ slots then [(q.ring + 64 * at_, 64 * need), (q.index, 64)]
    else [(q.ring + 64 * at_, 8), (q.ring, 64 * need), (q.index, 64)]

/-- Whether a queue's own shaper, and its class's, hold its head back now (R404, R415). -/
def heldNow (s : State) (q : Queue) : Bool × Bool :=
  match q.headL with
  | none => (false, false)
  | some l => (q.en && !shaperAllows q (256 * l), q.en && !classAllows s q (256 * l))

/-- A competitor of a decision: its level, its finishing tag, its queue, and whether it is a fetch. -/
structure Rival where
  level : Nat
  tag : Nat
  hq : Nat
  fetch : Bool
deriving DecidableEq, Repr

/-- What competes at an egress: the queues that have an entry which no shaper holds, and at egress 81 the fetches (R404, R427). -/
def egressRivals (s : State) (egress : Nat) : List Rival :=
  let own := s.traf.queues.filter fun e => e.2.egress == egress && entryReady s e.2 && !isPtpTx s e.1 && heldNow s e.2 == (false, false) &&
    (firstPlace s e.2.fn true .missing e.2.recordRanges).isNone
  let fetches := if egress = 81 then s.traf.queues.filter fun e => mayFetch s e.2 && (hostPlace s e.2.fn e.2.fetchSlot false).usable else []
  own.map (fun e => { level := e.2.level, tag := e.2.tagF, hq := e.1, fetch := false }) ++
    fetches.map fun e => { level := e.2.level, tag := (e.2.fetchTag.getD (0, 0)).2, hq := e.1, fetch := true }

/-- The competitor a decision takes: of the highest level the smallest finishing tag, equal tags by R29 over the 8,192 queues at PCLK
(R404, R406); of one queue the entry before the fetch. Log 75 (DEDUCED). -/
def pickRival (s : State) (rs : List Rival) : Option Rival :=
  match (rs.map Rival.level).min? with
  | none => none
  | some l =>
    let at_ := rs.filter (·.level == l)
    match (at_.map Rival.tag).min? with
    | none => none
    | some f =>
      match arbitrate s.root 32 8192 fun i => at_.any fun r => r.hq == i && r.tag == f with
      | none => none
      | some h => at_.find? fun r => r.hq == h && r.tag == f

/-- Whether another entry waits behind the one just taken. -/
def Queue.more (q : Queue) : Bool := q.nextBytes.isSome

/-- Signals a queue's vector and clears its count (R435). -/
def signalQueue (h : Nat) (s : State) : State :=
  let q := s.queue h
  let s1 := s.setQueue h { q with unsignalled := 0 }
  if q.vector = 0xFFFF then s1 else raiseVector q.fn q.vector s1

/-- Counts an unsignalled entry, signals at COAL_COUNT or when told to (R435). -/
def countUnsignalled (h : Nat) (now : Bool) (s : State) : State :=
  let q := s.queue h
  let q1 := { q with unsignalled := q.unsignalled + 1,
                     firstUnsignalled := if q.unsignalled = 0 then s.now else q.firstUnsignalled }
  let s1 := s.setQueue h q1
  if now ∨ max 1 q.coalCount ≤ q1.unsignalled then signalQueue h s1 else s1

/-- The 64-byte index block of a queue (R424). -/
def indexBlock (q : Queue) : List Byte :=
  record 64 [(0, 4, if q.producer = 1 then q.pi.toNat else 0), (4, 4, if q.producer = 0 then q.ci.toNat else 0),
    (8, 2, q.error.toNat)]

/-- Writes a queue's index block to the host (R424); a translation that is missing is asked for first (R433). -/
def writeIndex (h : Nat) (s : State) : State :=
  let q := s.queue h
  if hostPlace s q.fn q.index true = .missing then
    askTranslation q.fn (q.index / 4096) (s.setQueue h { q with indexDue := true })
  else queueWrite q.fn q.index (indexBlock q) false (if q.indexDue then s.setQueue h { q with indexDue := false } else s)

/-- A translation without the needed permission (R433). -/
def atsFault (fn : Nat) (s : State) : State := hifCount 3 (raiseFnErr fn 2 s)

/-- Writes a record into a device-produced ring: the skip marker if it would cross the end, the record, then
PI (R429). The bytes of its last slot beyond the record are open. Log 20 (DESIGN CHOICE). -/
def writeRecord (h : Nat) (r : QRecord) (s : State) : State :=
  let q := s.queue h
  let slots := 2 ^ q.logSlots
  let need := ceilDiv r.bytes.length 64
  let at_ := q.pi.toNat % slots
  let skip := if at_ + need ≤ slots then 0 else slots - at_
  let s1 := if skip = 0 then s else queueWrite q.fn (q.ring + 64 * at_) (List.replicate 8 0xFF) false s
  let slot := (at_ + skip) % slots
  let pad := s1.drawBytes (64 * need - r.bytes.length)
  let s2 := queueWrite q.fn (q.ring + 64 * slot) (r.bytes ++ pad.1) r.poison pad.2
  let s3 := if r.poison then dmaError q.fn 8 (hifCount 4 s2) else s2
  let q3 := s3.queue h
  let s4 := s3.setQueue h { q3 with pi := q3.pi + BitVec.ofNat 32 (skip + need),
                                    counted := q3.counted ++ [(skip + need, s3.now)] }
  countUnsignalled h false (writeIndex h s4)

/-- A record that its queue has no room for is dropped and counted by its owner's rule (R182, R199, R229, R310, R429). -/
def countRecordDrop (r : QRecord) (s : State) : State :=
  match r.owner with
  | 0 => { s with rad := { s.rad with cells := Tab.upd Cell.reset s.rad.cells r.owned fun c =>
      { c with deliveryDrop := if c.deliveryDrop = 0xFFFF then c.deliveryDrop else c.deliveryDrop + 1 } } }
  | 1 => { s with rad := { s.rad with portCnt := bump s.rad.portCnt (16 * r.owned + 7) } }
  | 2 => { s with time := { s.time with cnt := bump s.time.cnt 1 } }
  | _ => { s with mem := { s.mem with seqs := { s.mem.seqs with cnt := bump s.mem.seqs.cnt (8 * r.owned + 3) } } }

/-- A translation that a queue's next record lacks is asked for (R433). -/
def askRecord (h : Nat) (s : State) : State :=
  let q := s.queue h
  match firstPlace s q.fn true .missing q.recordRanges with
  | some a => askTranslation q.fn (a / 4096) s
  | none => s

/-- The entry chosen by a decision leaves: a record is written, a descriptor's piece is served (R427, R429); `true` if it is sent. A
record that no permission lets be written is dropped (R433). -/
def serveHead (h : Nat) (s : State) : Bool × State :=
  let q := s.queue h
  match q.records with
  | r :: rest =>
    let s1 := s.setQueue h { q with records := rest }
    if (firstPlace s q.fn true .refused q.recordRanges).isSome then (false, countRecordDrop r (atsFault q.fn s1))
    else if q.slotsFor r.bytes.length ≤ q.room then (true, writeRecord h r s1)
    else (false, countRecordDrop r s1)
  | [] =>
    match q.descs.findIdx? (fun d => d.phase == 0) with
    | none => (false, s)
    | some i =>
      (true, s.setQueue h { q with descs := q.descs.modify i fun d =>
        let sv := min d.len (d.served + 4096)
        { d with served := sv, phase := if sv = d.len then 1 else 0 } })

/-- The virtual time of a queue's level moves to the tag of the entry chosen (R405). -/
def moveTime (q : Queue) (s : State) : State :=
  { s with traf := { s.traf with vtime := Tab.set 0 s.traf.vtime (4 * q.egress + q.level) q.tagF } }

/-- Takes 256 × L tokens from a queue's shapers and advances its tags and counters (R405, R408). -/
def chargeQueue (h l : Nat) (s : State) : State :=
  let q := s.queue h
  let s2 := moveTime q (s.setQueue h { q with
    tokens := q.tokens - 256 * l, fPrev := q.tagF, tagged := false, released := false, stayed := q.more,
    bytesSent := satAdd q.bytesSent l, entriesSent := satInc q.entriesSent })
  if q.cls = 0xFFFF then s2
  else
    let c := s2.qclass q.cls
    if c.en then s2.setClass q.cls { c with tokens := c.tokens - 256 * l } else s2

/-- An entry that is chosen and not sent is charged nothing. -/
def passQueue (h : Nat) (s : State) : State :=
  let q := s.queue h
  moveTime q (s.setQueue h { q with tagged := false })

/-- The entry that a decision chose: it leaves and is charged, or ends with a status instead (R407, R408). -/
def takeEntry (h st : Nat) (s : State) : State :=
  let q := s.queue h
  if st = stOk then
    let r := serveHead h s
    if r.1 then chargeQueue h (q.headL.getD 0) r.2 else passQueue h r.2
  else
    match q.descs.findIdx? (fun d => d.phase == 0) with
    | none => s
    | some i => passQueue h (s.setQueue h { q with descs := q.descs.modify i fun d => { d with phase := 2, status := st } })

/-- Ends every fetched entry of an egress' queues with a status (R407: while fenced). -/
def endEntries (egress st : Nat) (s : State) : State :=
  s.traf.queues.foldl (fun s e =>
    if e.2.egress == egress && e.2.en then
      s.setQueue e.1 (e.2.withDescs (e.2.descs.map fun d => if d.phase == 0 then { d with phase := 2, status := st } else d))
    else s) s

/-- Whether a fronthaul port has an eCPRI frame that is ready, which goes before queued frames (R207). -/
def radioFirst (s : State) (egress : Nat) : Bool :=
  decide (egress < 8) && (Tab.get FhPort.reset s.rad.ports egress).frames.any fun f => decide (f.rel ≤ s.now)

/-- Whether a fronthaul port's PTP transmit queue has a frame that may go (R207, R230). -/
def ptpWaits (s : State) (p : Nat) : Bool :=
  let q := Tab.get PtpPort.reset s.time.ports p
  let wait : Bool := match q.lastTx with
    | some t => decide (s.now < t + 4096)
    | none => false
  decide (p < 8) && q.enable && !wait && (s.queue q.txq).descs.any fun d => d.op == 4 && decide (d.phase < 2)

/-- The state of an egress at a decision: missing translations asked for, heads tagged, the holds of its shapers noted. -/
def atDecision (e : Nat) (s : State) : State :=
  let s1 := tagEgress e (s.traf.queues.foldl (fun s q => if q.2.egress = e then askRecord q.1 s else s) s)
  { s1 with traf := { s1.traf with queues := Tab.mapEntries Queue.reset (fun _ q =>
      if q.egress = e then { q with held := (heldNow s1 q).1, classHeld := (heldNow s1 q).2 } else q) s1.traf.queues } }

/-- What a refill leaves of a token count: clamped to a changed depth, then RATE added (R408, R410). Log 19 (DESIGN CHOICE). -/
def refilled (tokens burst rate : Nat) : Nat := min (256 * burst) (min tokens (256 * burst) + rate)

/-- A queue's shaper at a refill; a head that a shaper held is released to be tagged again (R405, R408, R410). -/
def refillQueue (q : Queue) : Queue :=
  let q1 := match q.change with
    | some (r, b) => { q with rate := r, burst := b, change := none }
    | none => q
  { q1 with tokens := refilled q1.tokens q1.burst q1.rate }

/-- A class shaper at a refill. -/
def refillClass (c : QClass) : QClass :=
  let c1 := match c.change with
    | some (e, r, b) => { c with en := e, rate := r, burst := b, change := none,
                                 tokens := if e ∧ ¬ c.en then 256 * b else c.tokens }
    | none => c
  { c1 with tokens := refilled c1.tokens c1.burst c1.rate }

/-- A policer at a refill; one that is enabled starts full (R411). -/
def refillPolicer (p : Policer) : Policer :=
  let p1 := match p.change with
    | some (e, r, b) => { p with en := e, cir := r, cbs := b, change := none,
                                 tokens := if e ∧ ¬ p.en then 256 * b else p.tokens }
    | none => p
  { p1 with tokens := refilled p1.tokens p1.cbs p1.cir }

/-- A queue after a refill: one whose head a shaper held before, and none holds now, is released to be tagged again (R405, R409). -/
def releaseQueue (before after : State) (h : Nat) (q : Queue) : Queue :=
  let now := heldNow after q
  let q1 := { q with held := now.1, classHeld := now.2 }
  if heldNow before (before.queue h) ≠ (false, false) ∧ now = (false, false) then { q1 with tagged := false, released := true } else q1

/-- SHAPER_REFILL (R408 to R411): at a ridge count that is a multiple of 1,024, once. -/
def execShaperRefill (s : State) : Host.Outcome State Fault Refusal :=
  if s.now % 1024 ≠ 0 ∨ s.traf.lastRefill = some s.now then .next s
  else
    let t := s.traf
    let s1 := { s with traf := { t with
      queues := Tab.mapEntries Queue.reset (fun _ => refillQueue) t.queues,
      classes := Tab.mapEntries QClass.reset (fun _ => refillClass) t.classes,
      policers := Tab.mapEntries Policer.reset (fun _ => refillPolicer) t.policers,
      lastRefill := some s.now } }
    .next { s1 with traf := { s1.traf with
      queues := Tab.mapEntries Queue.reset (releaseQueue s s1) s1.traf.queues } }

/-- A policer judges a packet of l bytes: whether it conforms, and the policer after it (R411). Log 54 (DEDUCED). -/
def police (p : Policer) (l : Nat) : Bool × Policer :=
  if ¬ p.en then (true, p)
  else if 256 * l ≤ p.tokens then (true, { p with tokens := p.tokens - 256 * l })
  else (false, p)

/-- The queue that Table 14.2's record binds: its shaper is full, and its RATE and BURST come into force at the next refill, as R410
says of Q_BIND (R408). Log 19 (DEDUCED). -/
def boundQueue (old : Queue) (fn level egress weight cls rate burst : Nat) (ran : Bool) : Queue :=
  { Queue.reset with
    en := true, fn := fn, level := level, ran := ran, egress := egress, weight := weight, cls := cls,
    tokens := 256 * burst, change := some (rate, burst), bytesSent := old.bytesSent, entriesSent := old.entriesSent }

/-- An unbound queue keeps its counters only. -/
def unboundQueue (old : Queue) : Queue :=
  { Queue.reset with bytesSent := old.bytesSent, entriesSent := old.entriesSent }

/-- Q_BIND (R399, R400): a head that is there keeps its tag, but for a change of LEVEL. -/
def execQBind (m : Mbx) (s : State) : Host.Outcome State Fault Refusal :=
  runCmd m .pf [(32, 10), (44, 8)] (fun s =>
    let r := (mbytes m).drop 32
    let hq := fld r 0 2
    let fn := fld r 2 1
    let level := fld r 3 1 % 4
    let ran := bitAt (fld r 3 1) 2
    let egress := fld r 4 2
    let weight := fld r 6 2
    let cls := fld r 8 2
    let rate := fld r 12 4
    let burst := fld r 16 4
    let q := s.queue hq
    let res : Result := { fields := [(8, 8, nextRefill s)], block := none }
    if 8192 ≤ hq ∨ (82 ≤ egress ∧ egress ≠ 0xFFFF) ∨ weight = 0 ∨ (512 ≤ cls ∧ cls ≠ 0xFFFF) ∨ 1048575 < burst ∨ (egress < 8 ∧ fn ≠ 0) ∨
        (ran ∧ fn ≠ 0) ∨ (ran ↔ level ≠ 0) ∨ (cls ≠ 0xFFFF ∧ (s.qclass cls).egress ≠ egress) ∨
        (egress ≠ 0xFFFF ∧ rate ≠ 0 ∧ burst < largestL egress) then refuse stBadParam s
    else if egress = 0xFFFF then
      if q.holdsEntry then refuse stBusy s else (stOk, res, s.setQueue hq (unboundQueue q))
    else if ¬ q.en then (stOk, res, s.setQueue hq (boundQueue q fn level egress weight cls rate burst ran))
    else if q.fn ≠ fn ∨ q.egress ≠ egress then
      if q.holdsEntry then refuse stBusy s
      else (stOk, res, s.setQueue hq (boundQueue q fn level egress weight cls rate burst ran))
    else
      let t := tagFetch s (s.vtime 81 q.level) (tagHead s q)
      let q1 := { t with level := level, ran := ran, weight := weight, cls := cls, change := some (rate, burst) }
      let q2 := if q.level = level then q1 else { q1 with tagged := false, stayed := false, released := false, fetchTag := none }
      (stOk, res, s.setQueue hq q2)) s

/-- Q_UNBIND (R398). -/
def execQUnbind (m : Mbx) (s : State) : Host.Outcome State Fault Refusal :=
  runCmd m .pf [(16, 2)] (fun s =>
    let hq := mfld m 16 2
    let q := s.queue hq
    if 8192 ≤ hq then refuse stBadParam s
    else if q.holdsEntry then refuse stBusy s
    else done (s.setQueue hq (unboundQueue q))) s

/-- Q_SHAPER_SET (R410). Log 19 (DESIGN CHOICE). -/
def execQShaperSet (m : Mbx) (s : State) : Host.Outcome State Fault Refusal :=
  runCmd m .pf [(16, 2), (20, 8)] (fun s =>
    let hq := mfld m 16 2
    let rate := mfld m 20 4
    let burst := mfld m 24 4
    let q := s.queue hq
    if 8192 ≤ hq ∨ ¬ q.en ∨ 1048575 < burst ∨ (rate ≠ 0 ∧ burst < largestL q.egress) then refuse stBadParam s
    else (stOk, { fields := [(8, 8, nextRefill s)], block := none },
          s.setQueue hq { q with change := some (rate, burst) })) s

/-- Q_CLASS_SET (R409, R410): a class that is bound to another egress starts full (R408). -/
def execQClassSet (m : Mbx) (s : State) : Host.Outcome State Fault Refusal :=
  runCmd m .pf [(16, 5), (24, 8)] (fun s =>
    let c := mfld m 16 2
    let egress := mfld m 18 2
    let en := bitAt (mfld m 20 1) 0
    let rate := mfld m 24 4
    let burst := mfld m 28 4
    let q := s.qclass c
    if 512 ≤ c ∨ 82 ≤ egress ∨ 2 ≤ mfld m 20 1 ∨ 1048575 < burst ∨ (rate ≠ 0 ∧ burst < largestL egress) then
      refuse stBadParam s
    else if q.egress ≠ egress ∧ s.traf.queues.any (fun e => e.2.en && e.2.cls == c) then refuse stBusy s
    else (stOk, { fields := [(8, 8, nextRefill s)], block := none },
          s.setClass c { q with
            egress := egress, tokens := if q.egress ≠ egress then 256 * burst else q.tokens, change := some (en, rate, burst) })) s

/-- STIPPLE_CONFIG (R414): the ring lies in the PF's own frames. -/
def execStippleConfig (m : Mbx) (s : State) : Host.Outcome State Fault Refusal :=
  runCmd m .pf [(16, 7), (24, 8)] (fun s =>
    let en := mfld m 16 1
    let n := mfld m 17 1
    let first := mfld m 18 2
    let count := mfld m 20 2
    let lg := mfld m 22 1
    let base := mfld m 24 8
    let w := ceilDiv (32 + 8 * count) 64
    let own := decide (base % 65536 = 0 ∧ base + 2 ^ lg ≤ hbmEnd) &&
      (List.range (2 ^ lg / 65536)).all fun i => (s.mem.frame (base / 65536 + i)).owner == 0
    if 2 ≤ en ∨ n < 10 ∨ 27 < n ∨ count = 0 ∨ 8192 < first + count ∨ lg < 16 ∨ 30 < lg ∨ ¬ own ∨ 2 * 2 ^ n < 3 * w then
      refuse stBadParam s
    else done { s with traf := { s.traf with stipple :=
      { en := en == 1, n := n, first := first, count := count, base := base, size := 2 ^ lg, wp := 0, rp := 0, seq := 0,
        lost := 0, used := 0, last := none } } }) s

/-- An entry of a stipple sample (Table 14.5). -/
def stippleEntry (s : State) (h : Nat) : List Byte :=
  let q := s.queue h
  let held := heldNow s q
  leBytes 8 (q.depth % 2 ^ 24 + 2 ^ 24 * bit q.en + 2 ^ 25 * bit held.1 + 2 ^ 26 * bit held.2 +
    2 ^ 32 * q.holDelay s.now)

/-- STIPPLE_SAMPLE (R415, R416): at a multiple of 16 × 2^N ridge ticks, once, a sample is written whole or lost. -/
def execStippleSample (s : State) : Host.Outcome State Fault Refusal :=
  let p := s.traf.stipple
  if ¬ p.en ∨ s.now % (16 * 2 ^ p.n) ≠ 0 ∨ p.last = some s.now then .next s
  else
    let head := record 32 [(0, 8, s.now), (8, 4, p.seq), (12, 2, p.first), (14, 2, p.count), (16, 4, p.lost)]
    let body := head ++ (List.range p.count).flatMap fun i => stippleEntry s (p.first + i)
    let len := alignUp body.length 64
    let bytes := sliceBytes body 0 len
    if p.size - p.used < len then
      .next { s with traf := { s.traf with cnt := bump s.traf.cnt 1,
                                           stipple := { p with
          seq := p.seq + 1, lost := p.lost + 1, last := some s.now } } }
    else
      let tail := p.size - p.wp
      let s1 := memWrite p.base (bytes.drop tail) (memWrite (p.base + p.wp) (bytes.take tail) s)
      .next { s1 with traf := { s1.traf with cnt := bump s1.traf.cnt 0,
                                             stipple := { p with
          wp := (p.wp + len) % p.size, seq := p.seq + 1, lost := 0, used := p.used + len, last := some s.now } } }

/-- A write of `STIPPLE_RP`: the bytes that the pointer passes are read (R416). Log 19 (DESIGN CHOICE). -/
def Stipple.readTo (p : Stipple) (rp : Nat) : Stipple :=
  let step := (rp + p.size - p.rp % p.size) % p.size
  { p with rp := rp, used := if step ≤ p.used then p.used - step else (p.wp + p.size - rp % p.size) % p.size }

/-- `Q_STATE` of a queue. -/
def qStateReg (s : State) (h : Nat) : Nat :=
  let q := s.queue h
  let held := heldNow s q
  2 ^ 48 * q.cls + 2 ^ 32 * q.weight + 2 ^ 24 * q.fn + 2 ^ 16 * (q.egress % 256) + 32 * bit (held.1 || held.2) +
    16 * bit q.holdsEntry + 8 * bit q.ran + 2 * q.level + bit q.en

/-- Q_QUERY: the binding, DEPTH, HOL_DELAY, both token counts, S, F and V of the queue's level. -/
def execQQuery (m : Mbx) (s : State) : Host.Outcome State Fault Refusal :=
  runCmd m .own [(16, 2)] (fun s =>
    let hq := mfld m 16 2
    let q := s.queue hq
    if 8192 ≤ hq ∨ (issuer m ≠ 0 ∧ (¬ q.en ∨ q.fn ≠ issuer m)) then refuse stBadParam s
    else
      let t := tagHead s q
      (stOk, { fields := [], block := some (itemsBlock [qStateReg s hq, q.depth, q.holDelay s.now, q.tokens,
        if q.cls = 0xFFFF then 0 else (s.qclass q.cls).tokens, t.tagS, t.tagF, s.vtime q.egress q.level]) }, s)) s

/-- Whether a descriptor's target lies where its queue may reach: HBM frames of the function's context, or for a
RAN queue frames of the RAN partition (R426). -/
def targetOk (s : State) (q : Queue) (a n : Nat) : Bool := ctxOwns s (if q.ran then 256 else q.fn) a n

/-- Q_RING_SET (R423): the function's own queue gets its ring; PI and CI become 0 and ERROR is cleared. The landing ring lies where the
queue's descriptors may write. Log 19 (DESIGN CHOICE). -/
def execQRingSet (m : Mbx) (s : State) : Host.Outcome State Fault Refusal :=
  runCmd m .own [(16, 4), (24, 36)] (fun s =>
    let r := (mbytes m).drop 16
    let hq := fld r 0 2
    let prod := fld r 2 1
    let lg := fld r 3 1
    let ring := fld r 8 8
    let index := fld r 16 8
    let land := fld r 24 8
    let lsz := fld r 32 4
    let q := s.queue hq
    let isMsg := q.egress == 81 && (land != 0 || lsz != 0)
    let landOk := if isMsg then land % 256 == 0 && isPow2Between 16 28 lsz && targetOk s q land lsz else land == 0 && lsz == 0
    let vec := fld r 36 2
    if 8192 ≤ hq ∨ ¬ q.en ∨ q.fn ≠ issuer m ∨ 2 ≤ prod ∨ lg < 6 ∨ 16 < lg ∨
        ring % 4096 ≠ 0 ∨ index % 64 ≠ 0 ∨ ¬ landOk ∨ (prod = 1 ∧ q.egress ≠ 80) ∨
        (vec ≠ 0xFFFF ∧ (s.fn q.fn).vectors ≤ vec) then refuse stBadParam s
    else if q.holdsEntry then refuse stBusy s
    else done (s.setQueue hq { q with
      hasRing := true, producer := prod, logSlots := lg, ring := ring, index := index, land := land, landSize := lsz,
      vector := vec, coalCount := fld r 38 2, coalTime := fld r 40 4, pi := 0, ci := 0, error := 0, fetchAt := 0, fetchTag := none,
      descs := [], records := [], unsignalled := 0, counted := [], completedSince := false, indexDue := false })) s

/-- POLICER_SET (R411): kind 0 an uplink stream, 1 a fabric source; the change is made at the next refill. -/
def execPolicerSet (m : Mbx) (s : State) : Host.Outcome State Fault Refusal :=
  runCmd m .pf [(16, 12)] (fun s =>
    let kind := mfld m 16 1
    let i := mfld m 18 2
    let burst := mfld m 24 4
    let record := (Tab.get Stream.reset s.rad.streams i).record
    let uplink := record != [] && fld record 1 1 == 0
    if 2 ≤ kind ∨ 2 ≤ mfld m 17 1 ∨ 1048575 < burst ∨ (kind = 0 ∧ (8192 ≤ i ∨ ¬ uplink)) ∨ (kind = 1 ∧ 16384 ≤ i) then
      refuse stBadParam s
    else
      let k := if kind = 0 then i else 8192 + i
      let q := Tab.get Policer.reset s.traf.policers k
      (stOk, { fields := [(8, 8, nextRefill s)], block := none },
        s.setPolicer k { q with change := some (bitAt (mfld m 17 1) 0, mfld m 20 4, burst) })) s

end Sys2Proof.Machine
end

