-- ==== Sys2Proof/Machine/RadioOps.lean ====
section
/-!
DEFINITION. Cells, their slots and symbols (R23, R166, R167, R204), slot messages (R170, R171) and the order of delivery to
the host (R182).
-/
namespace Sys2Proof.Machine
open Sys2Proof

/-- Changes the radio part. -/
def updRad (f : Radio → Radio) (s : State) : State := { s with rad := f s.rad }

/-- A cell slot. -/
def State.cell (s : State) (c : Nat) : Cell := Tab.get Cell.reset s.rad.cells c

/-- Changes a cell slot. -/
def updCell (c : Nat) (f : Cell → Cell) (s : State) : State :=
  updRad (fun r => { r with cells := Tab.upd Cell.reset r.cells c f }) s

/-- A fronthaul port. -/
def State.fhPort (s : State) (p : Nat) : FhPort := Tab.get FhPort.reset s.rad.ports p

/-- Changes a fronthaul port. -/
def updFhPort (p : Nat) (f : FhPort → FhPort) (s : State) : State :=
  updRad (fun r => { r with ports := Tab.upd FhPort.reset r.ports p f }) s

/-- A fronthaul stream. -/
def State.stream (s : State) (n : Nat) : Stream := Tab.get Stream.reset s.rad.streams n

/-- Changes a fronthaul stream. -/
def updStream (n : Nat) (f : Stream → Stream) (s : State) : State :=
  updRad (fun r => { r with streams := Tab.upd Stream.reset r.streams n f }) s

/-- n events of a fronthaul port counter (Table 7.12). -/
def portCountBy (p i n : Nat) (s : State) : State := updRad (fun r => { r with portCnt := bumpBy r.portCnt (16 * p + i) n }) s

/-- One event of a fronthaul port counter. Log 43 (DEDUCED). -/
def portCount (p i : Nat) (s : State) : State := portCountBy p i 1 s

/-- n events of a stream counter (Table 7.13). -/
def streamCountBy (x i n : Nat) (s : State) : State :=
  updRad (fun r => { r with streamCnt := bumpBy r.streamCnt (8 * x + i) n }) s

/-- One event of a stream counter. -/
def streamCount (x i : Nat) (s : State) : State := streamCountBy x i 1 s

/-- One more event of a 16-bit saturating count. -/
def satInc16 (c : BitVec 16) : BitVec 16 := if c = 0xFFFF then c else c + 1

/-! ### The cell record (Table 6.6) and its slots -/

def Cell.scs (c : Cell) : Nat := fld c.record 0 1
def Cell.nPrb (c : Cell) : Nat := fld c.record 4 2
def Cell.dlLead (c : Cell) : Nat := fld c.record 8 4
def Cell.txAdv (c : Cell) : Nat := fld c.record 12 4
def Cell.harqBase (c : Cell) : Nat := fld c.record 16 8
def Cell.bufCount (c : Cell) : Nat := fld c.record 24 2
def Cell.cbsCount (c : Cell) : Nat := fld c.record 26 4
def Cell.ulHq (c : Cell) : Nat := fld c.record 30 2
def Cell.dlHq (c : Cell) : Nat := fld c.record 32 2
def Cell.tbsLbrm (c : Cell) : Nat := fld c.record 34 4

/-- PRACH format of a cell record: 0 to 3 long, then A1, A2, A3, B1, B4, C0, C2. Log 44 (PRESUMED). -/
def Cell.prachFormat (c : Cell) : Nat := fld c.record 64 1

/-- N_CS, THR and DELAY_SEP of a cell record's PRACH part, and the first symbol of a slot's first occasion. Log 44 (PRESUMED). -/
def Cell.nCs (c : Cell) : Nat := fld c.record 68 2
def Cell.prachThr (c : Cell) : Nat := fld c.record 72 2
def Cell.delaySep (c : Cell) : Nat := fld c.record 74 2
def Cell.prachFirst (c : Cell) : Nat := fld c.record 76 1

/-- L_RA: the length of the cell's preamble sequences. -/
def Cell.prachLen (c : Cell) : Nat := if c.prachFormat ≤ 3 then 839 else 139

/-- Ridge ticks of a slot (R41). -/
def Cell.slotTicks (c : Cell) : Nat := gridPeriod (c.scs + if c.scs = 3 then 0 else 1)

/-- Start of symbol k of a slot, from the slot's start; k = 14 is the slot's end (R23, R204). -/
def symbolStart (slotTicks k : Nat) : Nat :=
  if k = 0 then 0 else (71168 + (k - 1) * 70144) * slotTicks / 983040

/-- The impression number of the slot that holds a ridge count (R55). -/
def Cell.impressionAt (c : Cell) (t : Nat) : Nat := t / c.slotTicks

/-- Symbol index of the symbol that begins at an air time, if one does. -/
def Cell.symbolAt (c : Cell) (air : Nat) : Option Nat :=
  (List.range 14).find? fun k => symbolStart c.slotTicks k == air % c.slotTicks

/-- The end on air of the symbol that begins at an air time. -/
def Cell.symbolEnd (c : Cell) (air : Nat) : Nat :=
  let s := air / c.slotTicks * c.slotTicks
  let k := ((List.range 15).find? fun k => decide (air < s + symbolStart c.slotTicks k)).getD 14
  s + symbolStart c.slotTicks k

/-- Twice the weight w of Table 6.2 for a TRX count and layer limit, if they are allowed (R166). -/
def cellWeight (trx layers : Nat) : Option Nat :=
  let pick := fun (l : List (Nat × Nat)) => (l.find? fun (e : Nat × Nat) => decide (layers ≤ e.1)).map Prod.snd
  match trx with
  | 1 => pick [(2, 1)]
  | 2 => pick [(2, 1)]
  | 4 => pick [(4, 2)]
  | 8 => pick [(4, 3), (8, 4)]
  | 16 => pick [(8, 5)]
  | 32 => pick [(8, 6), (16, 8)]
  | 64 => pick [(16, 10)]
  | _ => none

/-- The load of a cell record in 1/1,024 CE, rounded up (R166). -/
def cellLoad (record : List Byte) : Nat :=
  let w2 := (cellWeight (fld record 1 1) (fld record 2 1)).getD 0
  let khz := 15 * 2 ^ fld record 0 1
  ceilDiv (1024 * w2 * fld record 4 2 * khz) (2 * 273 * 30)

/-- `BB_CELL_LOAD`.CE. -/
def Cell.load (c : Cell) : Nat := if c.state = 0 then 0 else cellLoad c.record

/-- The RAN plate in force at the present epoch. -/
def ranNow (s : State) : Option Plate := ranInForce s s.epochNow

/-- Whether the RAN plate in force claims a resource. -/
def ranClaims (s : State) (type index : Nat) : Bool :=
  match ranNow s with
  | some p => (claimed type p.claims).contains index
  | none => false

/-- Whether a device address range lies in channels that the RAN plate in force holds. -/
def ranHolds (s : State) (a n : Nat) : Bool :=
  match ranNow s with
  | some p => decide (a + n ≤ hbmEnd) && (claimedSets p.claims).contains (hatchSet a) &&
      (claimedSets p.claims).contains (hatchSet (a + n - 1)) &&
      (List.range (hatchSet (a + n - 1) - hatchSet a)).all fun i => (claimedSets p.claims).contains (hatchSet a + i)
  | none => false

/-! ### Slot messages (R170, R171) -/

/-- The PDUs of a slot message: (offset, type, PDU_ID), in order; a transport block follows its PDSCH PDU, both on 64-byte
boundaries. -/
def slotPdus (msg : List Byte) : Nat → Nat → List (Nat × Nat × Nat)
  | 0, _ => []
  | n + 1, off =>
    let type := fld msg off 2
    let len := max 64 (fld msg (off + 2) 2)
    let tb := if type = 1 then fld msg (off + 40) 4 else 0
    (off, type, fld msg (off + 4) 2) :: slotPdus msg n (off + alignUp len 64 + alignUp tb 64)

/-- Every PDU of a slot message. -/
def pdusOf (msg : List Byte) : List (Nat × Nat × Nat) := slotPdus msg (fld msg 12 2) 64

/-- Whether a slot message schedules uplink only: its PDUs are all of types 2, 4 and 6, or it has none. Log 86 (DESIGN CHOICE). -/
def uplinkOnly (msg : List Byte) : Bool := (pdusOf msg).all fun p => p.2.1 == 2 || p.2.1 == 4 || p.2.1 == 6

/-- Whether a window of a RAN plate is an uplink one: a loan window, or one whose timing entries charge a fronthaul port's ingress,
the decoder pool or the PRACH pool (Table 2.5). Log 38 (DEDUCED). -/
def Plate.uplinkWindow (p : Plate) (w : Win) : Bool :=
  w.kind == 1 || p.timing.any fun t => t.window == w.window &&
    (t.res / 2 ^ 24 == 7 || t.res / 2 ^ 24 == 10 || (t.res / 2 ^ 24 == 5 && t.res % 2 == 1))

/-- The ridge count from which a slot of a cell is in its uplink windows: the START of the first of them, or of the cell's first
window where none is marked as uplink, or the slot's start (R171, R193). Log 38 (DEDUCED). -/
def firstUplink (s : State) (cn slot : Nat) : Nat :=
  let period := (s.cell cn).slotTicks
  let starts := fun (ws : List Win) => (ws.map fun w => w.start % period).min?
  match ranNow s with
  | none => slot
  | some p =>
    let ws := p.windows.filter fun w => w.cell == cn
    slot + (match starts (ws.filter p.uplinkWindow) with
      | some t => t
      | none => (starts ws).getD 0)

/-- Whether a message for an impression is still in time (R171): complete by the slot's start less DL_LEAD, or, for a slot of uplink
only, before the cell's first uplink window of it. Log 38 (DEDUCED). -/
def inTime (s : State) (cn imp : Nat) (msg : List Byte) : Bool :=
  let c := s.cell cn
  let fell := match c.lastFallback with
    | some f => decide (imp ≤ f)
    | none => false
  !fell && (decide (s.now + c.dlLead ≤ imp * c.slotTicks) ||
    (uplinkOnly msg && decide (s.now < firstUplink s cn (imp * c.slotTicks))))

/-- Whether a cell reads slot messages for an impression: it is ACTIVE, or becomes so by the slot's start (R170, R194). -/
def Cell.reads (c : Cell) (imp : Nat) : Bool :=
  c.state == 2 || (match c.change with
    | some (2, t) => decide (t ≤ imp * c.slotTicks)
    | _ => false)

/-- The bytes of a message in its landing ring, which wraps at its end (R427). Log 20 (DESIGN CHOICE). -/
def landedBytes (s : State) (l : Landed) : List Byte :=
  let o := l.off % l.cap
  let n := min l.len (l.cap - o)
  s.mem.mem.bytesAt (l.base + o) n ++ s.mem.mem.bytesAt l.base (l.len - n)

/-- Keeps a slot message for its impression, in place of an earlier one (R170). -/
def keepMessage (cn imp variant : Nat) (l : Landed) (s : State) : State :=
  updCell cn (fun c => { c with
    sel := Tab.set none c.sel imp (some variant),
    msgs := c.msgs.filter (·.imp != imp) ++ [{ imp := imp, variant := variant, place := l }] }) s

/-- A slot message has arrived whole on a hardware queue in its landing ring (R170, R171). A cell in SHADOW keeps those of the slots
after the current one, for a takeover, and counts none as late (R505). Log 38 (DEDUCED). -/
def takeSlotMessage (h : Nat) (l : Landed) (s : State) : State :=
  let msg := landedBytes s l
  let cn := fld msg 8 2
  let c := s.cell cn
  let imp := fld msg 0 8
  if 384 ≤ cn ∨ c.record = [] ∨ c.dlHq ≠ h then s
  else if ¬ c.reads imp then
    if c.state = 3 ∧ s.now / c.slotTicks < imp then keepMessage cn imp (fld msg 10 1) l s else s
  else if inTime s cn imp msg then keepMessage cn imp (fld msg 10 1) l s
  else updCell cn (fun c => { c with msgLate := satInc16 c.msgLate, lateMsgs := imp :: c.lateMsgs }) s

/-- The slot message of an impression. -/
def Cell.msg (c : Cell) (imp : Nat) : Option SlotMsg := c.msgs.find? (·.imp == imp)

/-- The uplink part of a slot message: its header and the PDUs of types 2, 4 and 6 (R193). -/
def uplinkPart (msg : List Byte) : List Byte :=
  let ps := (pdusOf msg).filter fun p => p.2.1 == 2 || p.2.1 == 4 || p.2.1 == 6
  let body := ps.flatMap fun p => sliceBytes msg p.1 (alignUp (max 64 (fld msg (p.1 + 2) 2)) 64)
  placeBytes (placeBytes (sliceBytes msg 0 64) 12 (leBytes 2 ps.length)) 16 (leBytes 4 (64 + body.length)) ++ body

/-- The state that a cell has for a slot, by the slot's start (R167): a slot keeps the state that it started in. -/
def cellStateFor (c : Cell) (slot : Nat) : Nat :=
  match c.change, c.prev with
  | some (st, t), p => if t ≤ slot then st else (match p with
      | some (old, u) => if slot < u then old else c.state
      | none => c.state)
  | none, some (old, u) => if slot < u then old else c.state
  | none, none => c.state

/-- The uplink configuration that a cell works from in a slot: the slot message of L2, or a shadow's metadata (R193). Log 38 (DEDUCED). -/
def slotConfig (s : State) (cn imp : Nat) : Option (List Byte) :=
  let c := s.cell cn
  if cellStateFor c (imp * c.slotTicks) = 3 then (c.metas.find? (·.imp == imp)).map Meta.body
  else (c.msg imp).map fun m => landedBytes s m.place

/-- A PDU of a slot by its type and PDU_ID: its place among the slot's PDUs, and its bytes. -/
def findPdu (msg : List Byte) (type id : Nat) : Option (Nat × List Byte) :=
  ((pdusOf msg).zipIdx.find? fun p => p.1.2.1 == type && p.1.2.2 == id).map fun p => (p.2, msg.drop p.1.1)

/-! ### Delivery (R181, R182) -/

/-- Whether the uplink of a slot is delivered: the cell was ACTIVE at the slot's start (R194), and no fence came since
(R195). -/
def delivers (c : Cell) (imp : Nat) : Bool := cellStateFor c (imp * c.slotTicks) == 2 && decide (c.cutoff ≤ imp)

/-- Whether an impression of a cell has work in progress. Log 35 (DESIGN CHOICE). -/
def impressionRuns (s : State) (cn imp : Nat) : Bool :=
  (plateList s).any fun q => q.2.kind == 1 && q.2.running.any fun r => r.cell == cn && r.impression == imp

/-- Whether a job of a slot of a cell that a condition names waits at a port of the RAN partition's pools (Table 9.3): the cell is in
bytes 2-3 of a job, the impression in bytes 16-23. -/
def slotQueued (s : State) (cn : Nat) (p : Nat → Bool) : Bool :=
  (List.range 4).any fun i => (Tab.get [] s.core.jobs i).any fun j =>
    let b := leBytes 64 j.block.toNat
    fld b 2 2 == cn && p (fld b 16 8)

/-- Whether an earlier impression of a cell than one still has work or records to come. -/
def earlierOpen (s : State) (cn imp : Nat) : Bool :=
  slotQueued s cn (fun i => decide (i < imp)) ||
    ((plateList s).any fun q => q.2.kind == 1 && q.2.running.any fun r => r.cell == cn && decide (r.impression < imp)) ||
    ((s.cell cn).held.any fun d => decide (d.imp < imp)) || ((s.cell cn).closing.any fun i => decide (i < imp)) ||
    s.rad.decJobs.any fun j => j.cell == cn && decide (j.imp < imp)

/-- Places of the PDUs of a slot before a place that have a record to write: PUSCH, PUCCH and SRS (R182). -/
def earlierPdus (s : State) (cn imp order : Nat) : List Nat :=
  match slotConfig s cn imp with
  | some m => ((pdusOf m).zipIdx.filter fun p =>
      (p.1.2.1 == 2 || p.1.2.1 == 4 || p.1.2.1 == 6) && decide (p.2 < order)).map Prod.snd
  | none => []

/-- Writes a record to a cell's UL_HQ, or drops and counts it (R182). -/
def postUplink (cn : Nat) (bytes : List Byte) (poison : Bool) (s : State) : State :=
  let r := postRecord (s.cell cn).ulHq { bytes := bytes, poison := poison, owner := 0, owned := cn } s
  if r.1 then r.2 else updCell cn (fun c => { c with deliveryDrop := satInc16 c.deliveryDrop }) r.2

/-- Whether a held record's turn has come. -/
def turnCome (s : State) (cn : Nat) (d : Delivery) : Bool :=
  !earlierOpen s cn d.imp && (earlierPdus s cn d.imp d.order).all fun o =>
    (Tab.get [] (s.cell cn).delivered d.imp).contains o

/-- Posts the held records of a cell whose turn has come, at most n of them. -/
def flushTurns (cn : Nat) : Nat → State → State
  | 0, s => s
  | n + 1, s =>
    match (s.cell cn).held.find? (turnCome s cn) with
    | none => s
    | some d =>
      flushTurns cn n (postUplink cn d.bytes d.poison (updCell cn (fun c => { c with
        held := c.held.erase d, delivered := if d.own then Tab.upd [] c.delivered d.imp fun l => d.order :: l else c.delivered }) s))

/-- Inserts a record by its place. -/
def insertDelivery (d : Delivery) : List Delivery → List Delivery
  | [] => [d]
  | e :: r => if d.order < e.order then d :: e :: r else e :: insertDelivery d r

/-- The streams of a cell. -/
def cellStreams (s : State) (cn : Nat) : List Nat :=
  (s.rad.streams.filter fun e => e.2.record != [] && fld e.2.record 2 2 == cn).map Prod.fst

/-- The counters of Table 6.15 that a slot status record carries, each with its key: MSG_LATE, DELIVERY_DROP, SHADOW_GAP, POISON_TB
and BUF_CLASH (0 to 4), the overruns of the RAN plate in force (5), and counter i of stream x of the cell (0x10 + i + 0x100 x).
Log 38 (DEDUCED). -/
def slotCounters (s : State) (cn : Nat) : List (Nat × Nat) :=
  let c := s.cell cn
  [(0, c.msgLate.toNat), (1, c.deliveryDrop.toNat), (2, c.shadowGap.toNat), (3, s.rad.poisonTb.toNat), (4, s.rad.bufClash.toNat),
    (5, ((ranNow s).map Plate.overruns).getD 0)] ++
    (cellStreams s cn).flatMap fun x =>
      (List.range 8).map fun i => (16 + i + 256 * x, (Tab.get 0 s.rad.streamCnt (8 * x + i)).toNat)

/-- The counters of a cell's slot status record that changed since the last one. -/
def changedCounters (s : State) (cn : Nat) : List (Nat × Nat) :=
  (slotCounters s cn).filter fun e => Tab.get 0 (s.cell cn).shown e.1 != e.2

/-- A slot status record (R181, R185): the counters that changed as 16 bytes each (key, value), and the PDSCH PDUs that carry zero
(0xFFFFFFFF, PDU_ID, status). Log 38 (DEDUCED). -/
def statusRecord (cn imp : Nat) (s : State) : List Byte :=
  let body := ((changedCounters s cn).flatMap fun e => record 16 [(0, 4, e.1), (8, 8, e.2)]) ++
    (((s.cell cn).failed.filter (·.1 == imp)).flatMap fun f => record 16 [(0, 4, 0xFFFFFFFF), (8, 2, f.2.1), (10, 2, f.2.2)])
  let n := alignUp (64 + body.length) 64
  sliceBytes (record 64 [(0, 2, 5), (2, 2, n / 64), (4, 2, cn), (8, 8, imp)] ++ body) 0 n

/-- Whether no message of a slot came, in time or late, although the slot fell back (R171, R197). -/
def Cell.missing (c : Cell) (imp : Nat) : Bool :=
  cellStateFor c (imp * c.slotTicks) == 2 && (match c.lastFallback with
    | some f => decide (imp ≤ f)
    | none => false) && (c.msg imp).isNone && !c.lateMsgs.contains imp

/-- What a cell keeps for a slot is forgotten, the slot being over. -/
def Cell.forget (c : Cell) (imp : Nat) : Cell :=
  { c with
    sel := c.sel.filter fun e => decide (imp < e.1), msgs := c.msgs.filter fun m => decide (imp < m.imp),
    metas := c.metas.filter fun m => decide (imp < m.imp), delivered := c.delivered.filter fun e => decide (imp < e.1),
    bufs := c.bufs.filter fun b => decide (imp < b.1), failed := c.failed.filter fun f => decide (imp < f.1),
    lateMsgs := c.lateMsgs.filter fun i => decide (imp < i), sent := c.sent.filter fun e => decide (imp < e.1),
    landed := c.landed.filter fun e => decide (imp < e.1), gaps := c.gaps.filter fun i => decide (imp < i),
    blind := c.blind.filter fun i => decide (imp < i) }

/-- The end of a slot whose turn has come (R171, R181, R182): what is still held of it goes out in the order of its PDUs, a missing
message is counted, the slot status record closes the slot, and what was kept for the slot is forgotten. -/
def finishSlot (cn imp : Nat) (s : State) : State :=
  let c := s.cell cn
  let mine := (c.held.filter (·.imp == imp)).foldr insertDelivery []
  let s1 := updCell cn (fun c => { c with
    held := c.held.filter (·.imp != imp), closing := c.closing.filter (· != imp),
    msgLate := if c.missing imp then satInc16 c.msgLate else c.msgLate }) s
  let s2 := mine.foldl (fun s d => postUplink cn d.bytes d.poison s) s1
  let s3 := if delivers c imp ∧ ¬ s.radioFenced then
      postUplink cn (statusRecord cn imp s2) false (updCell cn (fun c => { c with
        shown := (changedCounters s2 cn).foldl (fun t e => Tab.set 0 t e.1 e.2) c.shown }) s2)
    else s2
  let forget := fun (x : Stream) =>
    if fld x.record 2 2 = cn ∧ x.record ≠ [] then
      { x with symbols := x.symbols.filter fun b => decide (imp < b.air / c.slotTicks) || !b.closed }
    else x
  updRad (fun r => { r with streams := Tab.mapEntries Stream.reset (fun _ x => forget x) r.streams }) (updCell cn (fun c => c.forget imp) s3)

/-- Whether a slot whose windows have ended may close: nothing of an earlier slot is open, and no job of it waits or is being decoded. -/
def mayClose (s : State) (cn imp : Nat) : Bool :=
  !earlierOpen s cn imp && !slotQueued s cn (· == imp) && !s.rad.decJobs.any fun j => j.cell == cn && j.imp == imp

/-- Posts what a cell's turn has come to, and closes the slots whose turn has come, at most n of them (R182). -/
def settleSlots (cn : Nat) : Nat → State → State
  | 0, s => flushTurns cn ((s.cell cn).held.length) s
  | n + 1, s =>
    let s1 := flushTurns cn ((s.cell cn).held.length) s
    match (s1.cell cn).closing.find? (mayClose s1 cn) with
    | none => s1
    | some imp => settleSlots cn n (finishSlot cn imp s1)

/-- Posts and closes all that a cell's turn has come to (R182). -/
def settleCell (cn : Nat) (s : State) : State := settleSlots cn (s.cell cn).closing.length s

/-- The windows of a slot have ended: it closes in its turn. -/
def closeSlot (cn imp : Nat) (s : State) : State :=
  settleCell cn (updCell cn (fun c => { c with closing := c.closing ++ [imp] }) s)

/-- Offers an uplink record of a cell: it is written in its turn (R182); a slot whose uplink is not delivered writes
none (R194). -/
def deliverUplink (cn : Nat) (d : Delivery) (s : State) : State :=
  settleCell cn (if ¬ delivers (s.cell cn) d.imp ∨ s.radioFenced then s else updCell cn (fun c => { c with held := c.held ++ [d] }) s)

/-! ### HARQ validity (R193) -/

/-- Clears SOFT_VALID in every buffer entry of a cell (R193, Table 6.10). -/
def clearSoft (cn : Nat) (s : State) : State :=
  let c := s.cell cn
  (List.range c.bufCount).foldl (fun s i =>
    let a := c.harqBase + 32 * i + 11
    memWrite a [(s.mem.mem.bytesAt a 1).headD 0 &&& 0xFE] s) s

/-- A shadow has no metadata for a slot (R193): nothing of it is processed. Log 38 (DEDUCED). -/
def shadowGap (cn imp : Nat) (s : State) : State :=
  if (s.cell cn).blind.contains imp then s
  else clearSoft cn (updCell cn (fun c => { c with blind := imp :: c.blind, shadowGap := satInc16 c.shadowGap }) s)

end Sys2Proof.Machine
end

