-- ==== Sys2Proof/Machine/HostQueues.lean ====
section
/-!
DEFINITION. Queue rings, doorbells, host descriptors, DMA and translations (chapter 15).
-/
namespace Sys2Proof.Machine
open Sys2Proof

/-- Puts a queue in ERROR: it fetches and writes nothing further, the index block shows it, and the function's
error vector is raised (R431). -/
def queueError (h : Nat) (s : State) : State :=
  let q := s.queue h
  let s1 := s.setQueue h { q with error := BitVec.ofNat 16 stBadParam }
  dryEvent 5 (hifCount 2 (raiseFnErr q.fn 1 (writeIndex h s1)))

/-- Q_DOORBELL (R430, R431): a write counts only through the function the queue is bound to; while its context is
replayed it is ignored (R480). -/
def execQDoorbell (fn : BitVec 8) (hq : BitVec 13) (v : BitVec 32) (s : State) : Host.Outcome State Fault Refusal :=
  let f := fn.toNat
  let h := hq.toNat
  .next (barWrite f (fun s =>
    let q := s.queue h
    if ¬ q.en ∨ q.fn ≠ f then
      let e := s.fn f
      hifCount 1 (s.setFn f { e with err := e.err ||| 16 })
    else if ¬ q.hasRing ∨ q.error ≠ 0 ∨ replaysCtx s f then s
    else
      let slots := 2 ^ q.logSlots
      if q.producer = 0 then
        if (v - q.pi).toNat ≤ slots ∧ (v - q.ci).toNat ≤ slots then
          s.setQueue h { q with pi := v, completedSince := false,
                                counted := if v = q.pi then q.counted else q.counted ++ [((v - q.pi).toNat, s.now)] }
        else queueError h s
      else
        if (v - q.ci).toNat ≤ slots ∧ (q.pi - v).toNat ≤ slots then
          s.setQueue h { q with ci := v, completedSince := false, counted := popCounted (v - q.ci).toNat q.counted }
        else queueError h s) s)

/-- Whether a descriptor's operation fits its queue's egress (Table 15.5). -/
def opFits (op egress : Nat) : Bool :=
  (op == 1 && egress == 81) || (op == 2 && egress == 81) || (op == 3 && egress == 80) ||
  (op == 4 && decide (egress < 8)) || (op == 5 && decide (8 ≤ egress ∧ egress < 80))

/-- The LENGTH limits of Table 15.5. -/
def lenFits (op n : Nat) : Bool :=
  match op with
  | 1 => decide (1 ≤ n ∧ n ≤ 16777216)
  | 2 => decide (64 ≤ n ∧ n ≤ 16777216)
  | 3 => decide (1 ≤ n ∧ n ≤ 16777216)
  | 4 => decide (60 ≤ n ∧ n ≤ 2044)
  | 5 => decide (1 ≤ n ∧ n ≤ 256)
  | _ => false

/-- The bytes of a host read's end. -/
def readEndBytes : HostReadEnd → List Byte
  | .ok b => b
  | .poisoned b _ => b
  | .failed b => b

/-- A fetched descriptor, already ended if R426 or its payload's read ends it (R432). -/
def parseDesc (s : State) (q : Queue) (index : Nat) (f : FetchedSlot) : QDesc :=
  let b := leBytes 48 f.raw.toNat
  let op := fld b 0 1
  let len := fld b 4 4
  let target := fld b 16 8
  let bad := ¬ opFits op q.egress ∨ ¬ lenFits op len ∨ 4 ≤ fld b 1 1 ∨ ¬ onlyFields b [(0, 2), (4, 28)] ∨
    (op = 2 ∧ q.landSize = 0) ∨ ((op = 1 ∨ op = 3) ∧ ¬ targetOk s q target len)
  let st := if bad then stBadParam
    else if op = 4 ∨ op = 5 then
      (match f.payload with
       | .ok _ => stOk
       | .poisoned _ _ => stPoison
       | .failed _ => stUncorrectable)
    else stOk
  { index := index, op := op, intr := bitAt (fld b 1 1) 0, order := bitAt (fld b 1 1) 1, len := len,
    host := fld b 8 8, target := target, payload := if op = 4 ∨ op = 5 then readEndBytes f.payload else [],
    phase := if st = stOk then 0 else 2, served := 0, asked := 0, landAt := 0, status := st }

/-- Counts a FRAME that is too long for a fronthaul port (R208): its descriptor ends by R426. -/
def countOversize (egress : Nat) (d : QDesc) (s : State) : State :=
  if d.op = 4 ∧ egress < 8 ∧ 2044 < d.len then portCount egress 11 s else s

/-- What wins a decision at egress 81: an entry, or a fetch (R404, R427). -/
def winner81 (s : State) : Option Rival := pickRival s (egressRivals s 81)

/-- One descriptor joins its queue's fetched ones if its fetch wins at egress 81 (R427). A translation that its slot or its payload
lacks is asked for first, and a payload without permission ends it (R433). Log 16 (DEDUCED). -/
def fetchOne (h : Nat) (f : FetchedSlot) (s0 : State) : State :=
  let s := tagEgress 81 s0
  let q := s.queue h
  if ¬ mayFetch s q then s0
  else
    let raw := parseDesc s q q.fetchAt f
    let staged := decide ((raw.op = 4 ∨ raw.op = 5) ∧ raw.status ≠ stBadParam)
    let payload := if staged then [(raw.host, raw.len)] else []
    match hostPlace s q.fn q.fetchSlot false, firstPlace s q.fn false .missing payload with
    | .missing, _ => askTranslation q.fn (q.fetchSlot / 4096) s
    | .refused, _ => atsFault q.fn s
    | _, some a => askTranslation q.fn (a / 4096) s
    | _, none =>
    if (winner81 s).map (fun r => (r.hq, r.fetch)) ≠ some (h, true) then s else
    let denied := (firstPlace s q.fn false .refused payload).isSome
    let d := if denied then { raw with phase := 2, status := stBadParam, payload := [] } else raw
    let s := if denied then atsFault q.fn s else s
    let q := s.queue h
    let bytes := 64 + d.payload.length
    let f0 := (q.fetchTag.getD (0, 0)).1 + ceilDiv (bytes * 65536) q.weight
    let q1 := { q with fetchAt := (q.fetchAt + 1) % 2 ^ 32, fetchF := f0, fetchTag := none, descs := q.descs ++ [d] }
    let s1 := s.setQueue h (tagFetch s f0 q1)
    let s2 := countOversize q.egress d { s1 with traf := { s1.traf with vtime := Tab.set 0 s1.traf.vtime (4 * 81 + q.level) f0 } }
    match d.status, f.payload with
    | 0x0020, .poisoned _ _ => hifCount 4 (dmaError q.fn 8 s2)
    | 0x0021, .failed _ => healthCount 7 1 (hifCount 5 (dmaError q.fn 4 s2))
    | _, _ => s2

/-- DESCRIPTOR_FETCH (R427): descriptors, with the payloads of FRAME and WRITE, are fetched in index order, each as a decision of egress
81 takes its fetch. -/
def execDescriptorFetch (hq : BitVec 13) (slots : List FetchedSlot) (s : State) : Host.Outcome State Fault Refusal :=
  .next (slots.foldl (fun s f => fetchOne hq.toNat f s) s)

/-- Changes a fetched descriptor. -/
def updDesc (h index : Nat) (f : QDesc → QDesc) (s : State) : State :=
  let q := s.queue h
  s.setQueue h (q.withDescs (q.descs.map fun d => if d.index = index then f d else d))

/-- A fetched descriptor by its index. -/
def findDesc (s : State) (h index : Nat) : Option QDesc := (s.queue h).descs.find? (·.index == index)

/-- The parts of a host access of n bytes at an offset of a descriptor, as (offset, device address, bytes): none is longer than
`lim`, crosses a host page, or leaves the run of device bytes that `place` gives (R418, R427). -/
def hostParts (host lim : Nat) (place : Nat → Nat × Nat) : Nat → Nat → Nat → List (Nat × Nat × Nat)
  | 0, _, _ => []
  | k + 1, off, n =>
    if n = 0 then []
    else
      let p := place off
      let m := min (min n lim) (min (4096 - (host + off) % 4096) p.2)
      (off, p.1, m) :: hostParts host lim place k (off + m) (n - m)

/-- A descriptor ends for want of permission (R433). -/
def failDesc (h index fn : Nat) (s : State) : State :=
  atsFault fn (updDesc h index (fun e => { e with phase := 2, status := stBadParam }) s)

/-- What stops a descriptor at a host address: a translation is asked for, or its refusal ends the descriptor (R433). -/
def stopAt (h index a : Nat) (write : Bool) (s : State) : State :=
  let fn := (s.queue h).fn
  match hostPlace s fn a write with
  | .missing => askTranslation fn (a / 4096) s
  | .refused => failDesc h index fn s
  | _ => s

/-- Issues the host reads of the bytes of a descriptor that its egress has served, within the device's 1,024 outstanding
requests (R418, R427), up to the first byte that has no translation. -/
def askReads (h : Nat) (d : QDesc) (place : Nat → Nat × Nat) (s : State) : State :=
  let fn := (s.queue h).fn
  let n := d.served - d.asked
  let parts := (hostParts d.host 4096 place (2 * ceilDiv n 4096 + 2) d.asked n).take (1024 - nonPosted s)
  let go := parts.takeWhile fun p => (hostPlace s fn (d.host + p.1) false).usable
  let s1 := go.foldl (fun s p =>
    let r : HostReadReq := { fn := fn, hq := h, index := d.index, addr := d.host + p.1, len := p.2.2, target := p.2.1 }
    updDesc h d.index (fun e => { e with asked := p.1 + p.2.2 })
      (hostAsk fn r.addr r.len { s with host := { s.host with reads := s.host.reads ++ [r] } })) s
  match parts.drop go.length with
  | [] => s1
  | p :: _ => stopAt h d.index (d.host + p.1) false s1

/-- TO_DEVICE (R425, R428): the served bytes of the copy are asked of the host; they are written as they arrive. -/
def execDescToDevice (hq : BitVec 13) (index : BitVec 32) (s : State) : Host.Outcome State Fault Refusal :=
  let h := hq.toNat
  match findDesc s h index.toNat with
  | none => .next s
  | some d =>
    if d.op ≠ 1 ∨ 2 ≤ d.phase ∨ d.served ≤ d.asked ∨ (s.queue h).error ≠ 0 then .next s
    else .next (askReads h d (fun off => (d.target + off, 4096)) s)

/-- Where an offset of a landing ring's data lies, and the bytes from there to the ring's end (R427). Log 20 (DESIGN CHOICE). -/
def landPlace (q : Queue) (off : Nat) : Nat × Nat :=
  let cap := q.landSize - 64
  (q.land + 64 + off % cap, cap - off % cap)

/-- MESSAGE (R427): the message is given its place at WOFF behind an 8-byte length word, and asked of the host. Log 20
(DESIGN CHOICE). -/
def execDescMessage (hq : BitVec 13) (index : BitVec 32) (s : State) : Host.Outcome State Fault Refusal :=
  let h := hq.toNat
  let q := s.queue h
  match findDesc s h index.toNat with
  | none => .next s
  | some d =>
    if d.op ≠ 2 ∨ 2 ≤ d.phase ∨ d.served ≤ d.asked ∨ q.error ≠ 0 ∨ q.descs.any (fun e => e.op == 2 && e.asked != 0 &&
        e.index != d.index && decide (e.phase < 2)) then .next s
    else
      let woff := fld (memRead 257 q.land 4 s).1.bytes 0 4
      let at_ := if d.asked = 0 then woff else d.landAt
      let s1 := updDesc h d.index (fun e => { e with landAt := at_ }) s
      .next (askReads h { d with landAt := at_ } (fun off => landPlace q (at_ + 8 + off)) s1)

/-- Whether a device address range may still be reached by a queue's copies (R599). -/
def stillReachable (s : State) (h a n : Nat) : Bool := targetOk s (s.queue h) a n

/-- TO_HOST (R428, R432): the copy is sent in TLPs of 512 bytes, those that carry poison with EP set, up to the first byte that has
no translation (R433). Log 20 (DESIGN CHOICE). -/
def execDescToHost (hq : BitVec 13) (index : BitVec 32) (s : State) : Host.Outcome State Fault Refusal :=
  let h := hq.toNat
  let fn := (s.queue h).fn
  match findDesc s h index.toNat with
  | none => .next s
  | some d =>
    if d.op ≠ 3 ∨ d.phase ≠ 1 ∨ (s.queue h).error ≠ 0 then .next s
    else if ¬ stillReachable s h d.target d.len then
      .next (updDesc h d.index (fun e => { e with phase := 2, status := stBadParam }) s)
    else
      let n := d.len - d.asked
      let parts := hostParts d.host 512 (fun off => (d.target + off, 512)) (2 * ceilDiv n 512 + 2) d.asked n
      let go := parts.takeWhile fun p => (hostPlace s fn (d.host + p.1) true).usable
      let sent := (go.map fun p => p.2.2).sum
      let r := memRead fn (d.target + d.asked) sent s
      let s1 := go.foldl (fun s2 p => queueWrite fn (d.host + p.1) ((r.1.bytes.drop (p.1 - d.asked)).take p.2.2)
        (s.mem.mem.poisonAt p.2.1 p.2.2) s2) r.2
      let s2 := if r.1.poison then hifCount 4 (dmaError fn 8 s1) else s1
      let s3 := updDesc h d.index (fun e => { e with
        asked := d.asked + sent, phase := if d.asked + sent = d.len then 2 else 1,
        status := if r.1.poison then firstStatus e.status stPoison else e.status }) s2
      match parts.drop go.length with
      | [] => .next s3
      | p :: _ => .next (stopAt h d.index (d.host + p.1) true s3)

/-- FRAME (R208, R425, R428): the staged frame is transmitted on the queue's fronthaul port; one that is longer than 2,048
bytes with its FCS is dropped and counted. -/
def execDescFrame (hq : BitVec 13) (index : BitVec 32) (s : State) : Host.Outcome State Fault Refusal :=
  let h := hq.toNat
  match findDesc s h index.toNat with
  | none => .next s
  | some d =>
    if d.op ≠ 4 ∨ d.phase ≠ 1 then .next s
    else
      let port := (s.queue h).egress
      let s1 := if 2048 < d.payload.length + 4 then portCount port 11 s else portCount port 8 (emit (.fhFrame port (wireFrame d.payload)) s)
      .next (updDesc h d.index (fun e => { e with phase := 2 }) s1)

/-- Advances CI over completed entries that no earlier one holds back (R428). -/
def advanceCI : List QDesc → Nat × List QDesc
  | [] => (0, [])
  | d :: r => if d.phase = 3 then let p := advanceCI r; (p.1 + 1, p.2) else (0, d :: r)

/-- DESCRIPTOR_COMPLETE (R428): bytes 48 to 63 of the slot are written, CI advances in order, the index block
follows, and the queue's vector is counted or signalled (R435). -/
def execDescriptorComplete (hq : BitVec 13) (index : BitVec 32) (s : State) : Host.Outcome State Fault Refusal :=
  let h := hq.toNat
  let q := s.queue h
  match findDesc s h index.toNat with
  | none => .next s
  | some d =>
    if d.phase ≠ 2 ∨ q.error ≠ 0 then .next s
    else
      let slots := 2 ^ q.logSlots
      let tail := record 16 [(0, 2, d.status), (2, 1, (d.index / slots + 1) % 2), (8, 8, s.now)]
      let at_ := q.ring + 64 * (d.index % slots) + 48
      match firstPlace s q.fn true .missing [(at_, 16), (q.index, 64)] with
      | some a => .next (askTranslation q.fn (a / 4096) s)
      | none =>
      let s0 := if (firstPlace s q.fn true .refused [(at_, 16), (q.index, 64)]).isSome then atsFault q.fn s else s
      let s1 := queueWrite q.fn at_ tail false s0
      let s2 := updDesc h d.index (fun e => { e with phase := 3 }) s1
      let q2 := s2.queue h
      let adv := advanceCI q2.descs
      let s3 := s2.setQueue h { q2 with descs := adv.2, ci := q2.ci + BitVec.ofNat 32 adv.1, completedSince := true,
                                        counted := popCounted adv.1 q2.counted }
      .next (countUnsignalled h d.intr (writeIndex h s3))

/-- COALESCE_TIMEOUT (R435): on the refill grid, a queue whose first unsignalled entry has waited COAL_TIME signals. -/
def execCoalesceTimeout (hq : BitVec 13) (s : State) : Host.Outcome State Fault Refusal :=
  let h := hq.toNat
  let q := s.queue h
  if s.now % 1024 = 0 ∧ q.en ∧ q.coalTime ≠ 0 ∧ 0 < q.unsignalled ∧ q.firstUnsignalled + 1024 * q.coalTime ≤ s.now then
    .next (signalQueue h s)
  else .next s

/-- The index blocks that wait for a translation ask for it, where the limit of R418 had kept them from it. -/
def askDueIndices (s : State) : State :=
  s.traf.queues.foldl (fun s e =>
    if e.2.indexDue && hostPlace s e.2.fn e.2.index true == .missing then askTranslation e.2.fn (e.2.index / 4096) s else s) s

/-- A non-posted request has ended: index blocks ask for their translations, and the invalidations that no outstanding request uses any
more are answered (R418, R433). -/
def answerInvalidates (s0 : State) : State :=
  let s := askDueIndices s0
  let uses := fun (p : Nat × Nat) => s.host.reads.any fun r => r.fn == p.1 && decide (r.addr / 4096 ≤ p.2 ∧ p.2 ≤ (r.addr + r.len - 1) / 4096)
  let ready := s.host.invPending.filter fun p => !uses p
  let s1 := { s with host := { s.host with invPending := s.host.invPending.filter uses } }
  emitAll (ready.map fun p => Output.atsInvalidated p.1 p.2) s1

/-- A message has arrived whole: its length word is written, WOFF advances (R427), and a slot message is taken (R170). Log 20 (DESIGN CHOICE). -/
def finishMessage (h : Nat) (d : QDesc) (s : State) : State :=
  let q := s.queue h
  let cap := q.landSize - 64
  let s1 := memWrite (q.land + 64 + d.landAt) (leBytes 8 d.len) s
  takeSlotMessage h ⟨q.land + 64, cap, d.landAt + 8, d.len⟩
    (memWrite q.land (leBytes 4 ((d.landAt + alignUp (8 + d.len) 64) % cap)) s1)

/-- Writes what a read returned, poisoned words poisoned and missing granules poisoned (R432). Log 20 (DESIGN CHOICE). -/
def landRead (r : HostReadReq) (e : HostReadEnd) (s0 : State) : State :=
  let s := stall (holderOf s0 r.target) r.target r.len s0
  match e with
  | .ok b => memWrite r.target (b.take r.len) s
  | .poisoned b ws =>
    ws.foldl (fun s w => memPoison (r.target + 16 * w) 1 s) (memWrite r.target (b.take r.len) s)
  | .failed b =>
    let got := b.take r.len
    let s1 := memWrite r.target got s
    let from_ := max r.target ((r.target + got.length) / 256 * 256)
    if got.length < r.len then memPoison from_ (r.target + r.len - from_) s1 else s1

/-- Captures what a descriptor wrote into device memory for the recorded context (Table 17.4, type 3). -/
def captureWrite (ctx fn a n : Nat) (s : State) : State :=
  if recordsCtx s ctx then capture 3 fn ctx a 0 s.now (s.mem.mem.bytesAt a n) (poisonWords s a n) s else s

/-- The status a read's end gives its descriptor (R432). -/
def readEndStatus : HostReadEnd → Nat
  | .ok _ => stOk
  | .poisoned _ _ => stPoison
  | .failed _ => stUncorrectable

/-- DMA_READ_COMPLETION (R432): the oldest read at an address of a queue's descriptor ends. A read of a function
in TEARDOWN is discarded (R437), and one of a queue in ERROR writes nothing (R431). -/
def execDmaReadCompletion (hq : BitVec 13) (index : BitVec 32) (addr : BitVec 64) (e : HostReadEnd) (s : State) :
    Host.Outcome State Fault Refusal :=
  let h := hq.toNat
  match s.host.reads.find? (fun r => r.hq == h && r.index == index.toNat && r.addr == addr.toNat) with
  | none => .next s
  | some r =>
    let s0 := { s with host := { s.host with reads := s.host.reads.erase r } }
    if (s.fn r.fn).state ≠ 1 ∨ (s.queue h).error ≠ 0 then .next (answerInvalidates s0)
    else
      let reach := (match findDesc s h r.index with
        | some d => d.op == 2 || stillReachable s h r.target r.len
        | none => false)
      let own := if (s.queue h).ran then 256 else r.fn
      let s1 := if reach then captureWrite own r.fn r.target r.len (landRead r e s0) else s0
      let s2 := match e with
        | .ok _ => s1
        | .poisoned _ _ => healthCount 7 1 (hifCount 4 (dmaError r.fn 8 s1))
        | .failed _ => healthCount 7 1 (hifCount 5 (dmaError r.fn 4 s1))
      let st := if reach then readEndStatus e else stBadParam
      let s3 := updDesc h r.index (fun d => { d with status := firstStatus d.status st }) s2
      let left := s3.host.reads.any fun x => x.hq == h && x.index == r.index
      match findDesc s3 h r.index with
      | none => .next (answerInvalidates s3)
      | some d =>
        if left ∨ d.phase ≠ 1 ∨ d.asked < d.len then .next (answerInvalidates s3)
        else
          let s4 := if d.op = 2 then finishMessage h d s3 else s3
          .next (answerInvalidates (updDesc h r.index (fun d => { d with phase := 2 }) s4))

/-- ATS_INVALIDATE (R433): the translation is dropped; the request is answered once every request using it has
completed. -/
def execAtsInvalidate (fn : BitVec 8) (page : BitVec 52) (s : State) : Host.Outcome State Fault Refusal :=
  let p := (fn.toNat, page.toNat)
  let s1 := { s with host := { s.host with
    atc := s.host.atc.filter (fun e => e.fn != p.1 || e.page != p.2), invPending := s.host.invPending ++ [p] } }
  .next (answerInvalidates s1)

/-- Whether a descriptor waits to use a host page with a permission that a translation lacks (R433). -/
def lacks (page : Nat) (read write : Bool) (d : QDesc) : Bool :=
  d.op != 4 && d.op != 5 && decide (d.phase < 2 ∧ (d.host + d.asked) / 4096 ≤ page ∧ page ≤ (d.host + d.len - 1) / 4096) &&
    (if d.op == 3 then !write else !read)

/-- Ends the descriptors of a function that need a page it may not reach (R433). -/
def failPage (fn page : Nat) (read write : Bool) (s : State) : State :=
  s.traf.queues.foldl (fun s e =>
    if e.2.en && e.2.fn == fn && e.2.descs.any (lacks page read write) then
      s.setQueue e.1 (e.2.withDescs (e.2.descs.map fun d =>
        if lacks page read write d then { d with phase := 2, status := stBadParam } else d))
    else s) s

/-- The index blocks that waited for a translation of a page are written (R431). -/
def writeDueIndices (fn page : Nat) (s : State) : State :=
  s.traf.queues.foldl (fun s e =>
    if e.2.indexDue && e.2.fn == fn && e.2.index / 4096 == page then writeIndex e.1 s else s) s

/-- ATS_TRANSLATION_COMPLETION (R433): the translation enters the cache, with its permissions, within the function's share; the
descriptors that need one it does not give end and ATS_FAULT counts. Log 16 (DEDUCED). -/
def execAtsTranslationCompletion (fn : BitVec 8) (page phys : BitVec 52) (read write : Bool) (s : State) :
    Host.Outcome State Fault Refusal :=
  let f := fn.toNat
  let p := page.toNat
  if ¬ s.host.atsPending.contains (f, p) then .next s
  else
    let s1 := { s with host := { s.host with atsPending := s.host.atsPending.erase (f, p) } }
    let mine := s1.host.atc.filter (·.fn == f)
    let share := (s1.fn f).atcShare
    let keep := if mine.length < share then s1.host.atc
      else
        match mine with
        | [] => s1.host.atc
        | o :: _ => s1.host.atc.erase o
    let atc := if share = 0 then keep else keep ++ [{ fn := f, page := p, phys := phys.toNat, read := read, write := write }]
    let s2 := { s1 with host := { s1.host with atc := atc } }
    let s3 := if s2.traf.queues.any (fun e => e.2.en && e.2.fn == f && e.2.descs.any (lacks p read write)) ∨ (¬ read ∧ ¬ write) then
        atsFault f (failPage f p read write s2)
      else s2
    .next (askDueIndices (writeDueIndices f p s3))

/-- FN_CONFIG (R433, R434). -/
def execFnConfig (m : Mbx) (s : State) : Host.Outcome State Fault Refusal :=
  runCmd m .pf [(16, 1), (18, 8)] (fun s =>
    let n := mfld m 16 1
    let vecs := mfld m 18 2
    let mv := mfld m 20 2
    let ev := mfld m 22 2
    let share := mfld m 24 2
    let f := s.fn n
    let others := fun (g : Nat → Nat) => ((List.range 256).filter (· != n)).foldl (fun a k => a + g k) 0
    if vecs = 0 ∨ 2048 < vecs ∨ vecs ≤ mv ∨ vecs ≤ ev ∨ (n = 0 ∧ vecs ≠ 2048) ∨ 8192 < share then refuse stBadParam s
    else if vecs ≠ f.vectors ∧ f.state ≠ 0 then refuse stBusy s
    else if (n ≠ 0 ∧ 14336 < vecs + others (fun k => if k = 0 then 0 else (s.fn k).vectors)) ∨
        8192 < share + others (fun k => (s.fn k).atcShare) then refuse stCapacity s
    else done (s.setFn n { f with vectors := vecs, mbxVector := mv, errVector := ev, atcShare := share })) s

/-- The 512-bit core mask and 1,024-bit way mask that the ADMITTED, RUNNING or RETIRING plates of a function claim of its share; the
plates of the RAN partition are no part of it (R420). -/
def claimedBy (s : State) (fn : Nat) : Nat × Nat :=
  s.plates.store.foldl (fun a e =>
    match e.2 with
    | none => a
    | some p =>
      if p.owner == fn && !p.isRan && decide (1 ≤ p.state ∧ p.state ≤ 3) then
        p.claims.foldl (fun a c =>
          if c.type = 1 then (a.1 ||| ((2 ^ c.count - 1) <<< c.first), a.2)
          else if c.type = 3 then
            (a.1, (List.range c.count).foldl (fun w i => w ||| ((c.amount % 65536) <<< (16 * (c.first + i)))) a.2)
          else a) a
      else a) (0, 0)

/-- FN_SHARE_SET (R422): MASK_A is a device address in the PF's own frames; a core or way that it removes may not be claimed. -/
def execFnShareSet (m : Mbx) (s : State) : Host.Outcome State Fault Refusal :=
  runCmd m .pf [(16, 1), (24, 8)] (fun s =>
    let n := mfld m 16 1
    let d := deviceData s (issuer m) (mfld m 24 8) 192
    if d.1 ≠ stOk then refuse d.1 d.2.2
    else
      let cores := fld d.2.1 0 64
      let ways := fld d.2.1 64 128
      let cl := claimedBy s n
      let f := s.fn n
      let lost := fun (old new claim : Nat) => old &&& claim &&& new != old &&& claim
      if cores &&& s.plates.ranCores.toNat ≠ 0 ∨ ways &&& s.plates.ranWays.toNat ≠ 0 then refuse stBadParam d.2.2
      else if lost f.coreMask.toNat cores cl.1 ∨ lost f.wayMask.toNat ways cl.2 then refuse stBusy d.2.2
      else done (d.2.2.setFn n { f with coreMask := BitVec.ofNat 512 cores, wayMask := BitVec.ofNat 1024 ways })) s

/-- `HIF_FN` of a function (R443). -/
def hifFnReg (f : Fn) : Nat :=
  2 ^ 36 * f.atcShare + 2 ^ 24 * f.vectors + 2 ^ 16 * f.step + 8 * bit f.atsEn + 4 * bit f.bme + f.state

/-- `FN_ERR` of a function: its bits and the lowest of its queues in ERROR (R443). -/
def fnErrReg (s : State) (n : Nat) : Nat :=
  let bad := (s.traf.queues.filter fun e => e.2.en && e.2.fn == n && e.2.error != 0).map Prod.fst
  2 ^ 16 * (bad.min?.getD 0xFFFF) + (s.fn n).err.toNat

/-- FN_QUERY (R597). -/
def execFnQuery (m : Mbx) (s : State) : Host.Outcome State Fault Refusal :=
  runCmd m .own [(16, 1)] (fun s =>
    let n := mfld m 16 1
    let f := s.fn n
    if issuer m ≠ 0 ∧ issuer m ≠ n then refuse stBadParam s
    else
      (stOk, { fields := [], block := some (itemsBlock ([hifFnReg f] ++
        (List.range 8).map (fun k => bitsAt f.coreMask.toNat (64 * k) 64) ++
        (List.range 16).map (fun k => bitsAt f.wayMask.toNat (64 * k) 64) ++
        [f.mbxVector + 65536 * f.errVector, fnErrReg s n])) }, s)) s

end Sys2Proof.Machine
end

