-- ==== Sys2Proof/Machine/Packets.lean ====
section
/-!
DEFINITION. Packets of the fabric (chapter 12): their header words, where a request that arrives is performed, and the stores that
wait at their home.
-/
namespace Sys2Proof.Machine
open Sys2Proof

/-- One event of a fabric counter (Table 12.13). -/
def fabCount (i : Nat) (s : State) : State := updFab (fun f => { f with cnt := bump f.cnt i }) s

/-- Header word 0 (Table 12.3). -/
structure Hdr where
  opc : Nat
  vc : Nat
  rsp : Bool
  hops : Nat
  dst : Nat
  src : Nat
  epoch : Nat
  tag : Nat
  gen : Nat
  len : Nat
  status : Nat
deriving DecidableEq, Repr

/-- The bits of header word 0. -/
def Hdr.word (h : Hdr) : BitVec 144 :=
  codeWord (BitVec.ofNat 128 (h.opc + h.vc * 2 ^ 6 + bit h.rsp * 2 ^ 9 + h.hops * 2 ^ 10 + h.dst * 2 ^ 14 + h.src * 2 ^ 28 +
    h.epoch * 2 ^ 42 + h.tag * 2 ^ 58 + h.gen * 2 ^ 75 + (h.len - 1) % 256 * 2 ^ 83 + h.status * 2 ^ 91)) 0

/-- Header word 1 of a request (Table 12.4). -/
structure Hdr1 where
  offset : Nat
  window : Nat
  level : Nat
  atop : Nat
  size : Nat
  ret : Bool
  aseq : Nat
  firstBe : Nat
  lastBe : Nat
deriving DecidableEq, Repr

/-- The bits of header word 1. -/
def Hdr1.word (h : Hdr1) : BitVec 144 :=
  codeWord (BitVec.ofNat 128 (h.offset + h.window * 2 ^ 40 + h.level * 2 ^ 48 + h.atop * 2 ^ 50 + h.size * 2 ^ 58 +
    bit h.ret * 2 ^ 60 + h.aseq * 2 ^ 61 + h.firstBe * 2 ^ 77 + h.lastBe * 2 ^ 93)) 0

/-- What the decoder finds in a received code word (Table 9.4). -/
def receive (w : BitVec 144) : EccOutcome := eccDecode ((w >>> 128).truncate 16 ^^^ checkBits (w.truncate 128))

/-- A received code word as its decoder delivers it: its data and whether it is poison. -/
def readWord (w : BitVec 144) : BitVec 128 × Bool :=
  let d : BitVec 128 := w.truncate 128
  match receive w with
  | .dataSym i e => (fixSymbol d i e, false)
  | o => (d, o.isPoison)

/-- A data word as it travels. -/
def sendWord (d : BitVec 128) (poison : Bool) : BitVec 144 := codeWord d (if poison then poisonDiff else 0)

/-- A received code word as it goes on: corrected, or poisoned if it is uncorrectable (R263, R264). -/
def relayWord (w : BitVec 144) : BitVec 144 := let d := readWord w; sendWord d.1 d.2

/-- Reads header word 0 of a packet. -/
def readHdr (ws : List (BitVec 144)) : Hdr :=
  let v := (readWord (ws.getD 0 0)).1.toNat
  { opc := bitsAt v 0 6, vc := bitsAt v 6 3, rsp := bitAt v 9, hops := bitsAt v 10 4, dst := bitsAt v 14 14, src := bitsAt v 28 14,
    epoch := bitsAt v 42 16, tag := bitsAt v 58 17, gen := bitsAt v 75 8, len := bitsAt v 83 8 + 1, status := bitsAt v 91 16 }

/-- Reads header word 1 of a request. -/
def readHdr1 (ws : List (BitVec 144)) : Hdr1 :=
  let v := (readWord (ws.getD 1 0)).1.toNat
  { offset := bitsAt v 0 40, window := bitsAt v 40 8, level := bitsAt v 48 2, atop := bitsAt v 50 8, size := bitsAt v 58 2,
    ret := bitAt v 60, aseq := bitsAt v 61 16, firstBe := bitsAt v 77 16, lastBe := bitsAt v 93 16 }

/-- Whether every frame of n bytes at an address has an owner. -/
def framesOwned (s : State) (owner a n : Nat) : Bool :=
  decide (a + n ≤ hbmEnd) && (List.range ((a + n - 1) / 65536 - a / 65536 + 1)).all fun i =>
    (s.mem.frame (a / 65536 + i)).owner == owner

/-- Where a rack or hall request is performed, and the owner of the frames it may reach; none is refused (R350). -/
def homeAddress (s : State) (level window off len : Nat) : Option Nat :=
  if level = 1 then (if framesOwned s 258 off len then some off else none)
  else
    let w := Tab.get InWin.reset s.fab.inwins window
    if w.valid ∧ framesOwned s w.ctx (w.base + off) len then some (w.base + off) else none

/-- Whose request a rack or hall request is at its home: a hall request is performed as one of its window's context (R350). -/
def homeWho (s : State) (level window : Nat) : Who := if level = 2 then (Tab.get InWin.reset s.fab.inwins window).ctx else 257

/-! ### Racing stores (R367) -/

/-- A store that waits at its home: its source (a thread, or 2^14 + a hall number), address and length. -/
structure WaitingStore where
  source : Nat
  addr : Nat
  len : Nat
deriving DecidableEq, Repr

/-- The store that a packet which has arrived asks for, if it is a WRITE that this device performs (R350). -/
def packetStore (s : State) (words : List (BitVec 144)) : Option WaitingStore :=
  let h := readHdr words
  let h1 := readHdr1 words
  if h.opc ≠ 2 ∨ h.rsp ∨ h.dst ≠ s.fab.hall then none
  else (homeAddress s h1.level h1.window h1.offset h.len).map fun a => { source := 2 ^ 14 + h.src, addr := a, len := h.len }

/-- The stores that wait at this device's memory: those of threads, and those of packets that have arrived. -/
def waitingStores (s : State) : List WaitingStore :=
  ((s.core.devReqs.filter DevReq.store).map fun q => { source := q.thread, addr := q.addr, len := 8 }) ++
    (s.fab.ports.flatMap fun e => e.2.arrived.filterMap (packetStore s))

/-- Whether two byte ranges share a 16-byte word. -/
def sameWord (a n b m : Nat) : Bool := decide (a / 16 ≤ (b + m - 1) / 16 ∧ b / 16 ≤ (a + n - 1) / 16)

/-- A store of n bytes in HBM is performed: if a store of another source to one of its words waits, it counts one EV_STORE_RACE
for the frame's owner (R367). `mine` are the sources that are the store's own. Log 31 (DEDUCED). -/
def storeRace (mine : Nat → Bool) (a n : Nat) (s : State) : State :=
  if decide (a < hbmEnd) && (waitingStores s).any fun w => !mine w.source && sameWord a n w.addr w.len then
    fabCount 13 (updFab (fun f => { f with evStoreRace := bump f.evStoreRace (s.mem.frame (a / 65536)).owner }) s)
  else s

end Sys2Proof.Machine
end

