-- ==== Sys2Proof/Machine/Cache.lean ====
section
/-!
DEFINITION. Requests of a core to device addresses: who may make them (R251, R252, R267), the cluster cache (R114, R115)
and the job ports (Table 9.3).
-/
namespace Sys2Proof.Machine
open Sys2Proof

/-- The cache ways of a cluster that a requester owns, in ascending order (R114). -/
def cacheWays (s : State) (cluster : Nat) (who : Who) : List Nat :=
  ((List.range 16).map (16 * cluster + ·)).filter fun w =>
    let x := s.wayAt w
    x.cache && ((x.ran && who == 256) || (!x.ran && x.held && x.ctx == who))

/-- Number of a way's line for an address. -/
def lineIndex (w a : Nat) : Nat := 2048 * w + a / 256 % 2048

/-- The way that holds the line of an address, if one of the ways does. -/
def findLine (s : State) (ways : List Nat) (a : Nat) : Option Nat :=
  ways.find? fun w => match s.lineAt (lineIndex w a) with
    | some l => l.addr == a / 256 * 256
    | none => false

/-- The way a miss replaces: an empty one, else the least recently used, ties by lowest number (R114). -/
def victim (s : State) (ways : List Nat) (a : Nat) : Option Nat :=
  match ways.find? fun w => (s.lineAt (lineIndex w a)).isNone with
  | some w => some w
  | none =>
    ways.foldl (fun b w =>
      let u := fun (v : Nat) => match s.lineAt (lineIndex v a) with
        | some l => l.used
        | none => 0
      match b with
      | none => some w
      | some v => if u w < u v then some w else some v) none

/-- Marks a line as the last one used. -/
def touchLine (i : Nat) (s : State) : State :=
  match s.lineAt i with
  | none => s
  | some l =>
    let s1 := s.setLine i (some { l with used := s.core.useOrder })
    { s1 with core := { s1.core with useOrder := s1.core.useOrder + 1 } }

/-- Brings the line of an address into a cluster's cache and answers its number (R114). -/
def fillLine (cluster : Nat) (who : Who) (a : Nat) (s : State) : Option Nat × State :=
  let ways := cacheWays s cluster who
  match findLine s ways a with
  | some w => (some (lineIndex w a), touchLine (lineIndex w a) s)
  | none =>
    match victim s ways a with
    | none => (none, s)
    | some w =>
      let i := lineIndex w a
      let base := a / 256 * 256
      let s1 := writeBackLine s i
      let r := memRead who base 256 s1
      let pois := (List.range 16).foldl (fun (v : BitVec 16) j =>
        if s1.mem.mem.poisonAt (base + 16 * j) 16 then v ||| BitVec.ofNat 16 (2 ^ j) else v) 0
      (some i, touchLine i (r.2.setLine i (some { addr := base, who := who, data := r.1.bytes, poison := pois, dirty := false, used := 0 })))

/-- The pieces of n bytes at an address that lie in one 256-byte line each: (address, length). -/
def linePieces (a n : Nat) : List (Nat × Nat) :=
  if n = 0 then []
  else (List.range ((a + n - 1) / 256 - a / 256 + 1)).map fun i =>
    let lo := max a (256 * (a / 256 + i))
    (lo, min (a + n) (256 * (a / 256 + i + 1)) - lo)

/-- Whether a request of a core in a cluster goes through the cluster cache. -/
def cached (s : State) (cluster : Nat) (who : Who) (a : Nat) : Bool := decide (a < hbmEnd) && cacheWays s cluster who != []

/-- Counts the requests of a core of a cluster for n bytes that wait for a refresh slot: those that no cache way serves (R256). -/
def coreStall (cluster : Nat) (who : Who) (a n : Nat) (s : State) : State :=
  if cached s cluster who a then s else stall who a n s

/-- Reads n bytes for a core of a cluster. -/
def coreRead (cluster : Nat) (who : Who) (a n : Nat) (s : State) : ReadOut × State :=
  if ¬ cached s cluster who a then readWords a n s
  else
    (linePieces a n).foldl (fun (p : ReadOut × State) q =>
      let f := fillLine cluster who q.1 p.2
      match f.1 with
      | none => p
      | some i =>
        match f.2.lineAt i with
        | none => p
        | some l =>
          let o := q.1 % 256
          let pois := (List.range 16).any fun j => l.poison.getLsbD j && decide (o / 16 ≤ j ∧ 16 * j < o + q.2)
          ({ bytes := p.1.bytes ++ sliceBytes l.data o q.2, poison := p.1.poison || pois }, f.2))
      ({ bytes := [], poison := false }, s)

/-- Poison bits of a line after a write of n bytes at an offset: whole words take the new one, parts keep poison (R265). -/
def linePoison (p : BitVec 16) (o n : Nat) (poison : Bool) : BitVec 16 :=
  (List.range 16).foldl (fun v j =>
    let b := BitVec.ofNat 16 (2 ^ j)
    if 16 * j + 16 ≤ o ∨ o + n ≤ 16 * j then v
    else if poison then v ||| b
    else if o ≤ 16 * j ∧ 16 * j + 16 ≤ o + n then v &&& ~~~ b
    else v) p

/-- Stores bytes for a core of a cluster, poisoned if told so. -/
def coreStore (cluster : Nat) (who : Who) (a : Nat) (bs : List Byte) (poison : Bool) (s : State) : State :=
  if ¬ cached s cluster who a then memWriteP a bs poison s
  else
    ((linePieces a bs.length).foldl (fun (p : List Byte × State) q =>
      let f := fillLine cluster who q.1 p.2
      match f.1 with
      | none => (p.1.drop q.2, f.2)
      | some i =>
        match f.2.lineAt i with
        | none => (p.1.drop q.2, f.2)
        | some l =>
          (p.1.drop q.2, f.2.setLine i (some { l with
            data := placeBytes l.data (q.1 % 256) (p.1.take q.2),
            poison := linePoison l.poison (q.1 % 256) q.2 poison, dirty := true }))) (bs, s)).2

/-- Writes bytes for a core of a cluster; what goes to the home may race with the stores of other clusters and devices (R367). -/
def coreWrite (cluster : Nat) (who : Who) (a : Nat) (bs : List Byte) (poison : Bool) (s : State) : State :=
  coreStore cluster who a bs poison
    (if cached s cluster who a then s else storeRace (fun x => decide (x < 2 ^ 14) && x / 64 == cluster) a bs.length s)

/-- Job ports and the partition that may write them: the port number, if an address begins one (Table 9.3). -/
def jobPort (a : Nat) : Option (Nat × Bool) :=
  let p := (a - 0xF000000000) / 0x1000
  if a < 0xF000000000 ∨ a % 0x1000 ≠ 0 then none
  else if p ≤ 3 ∨ (0x10 ≤ p ∧ p ≤ 0x17) then some (p, true)
  else if p = 0x20 ∨ (0x30 ≤ p ∧ p ≤ 0x33) ∨ (0x40 ≤ p ∧ p ≤ 0x43) ∨ (0x50 ≤ p ∧ p ≤ 0x53) then some (p, false)
  else none

/-- Whether a write of n bytes at an address is a job for a port that a requester may use (R252). -/
def jobWrite (who : Who) (a n : Nat) : Option Nat :=
  match jobPort a with
  | some (p, ran) => if n = 64 ∧ ((ran ∧ who = 256) ∨ (¬ ran ∧ who < 256)) then some p else none
  | none => none

/-- Jobs that a die's collective unit holds (R381). -/
def queuedJobs (s : State) (die : Nat) : Nat :=
  (s.fab.groups.map fun e => match e.2 with
    | some g => (g.ops.map fun o => (o.jobs.filter fun j => j.die == die).length).sum
    | none => 0).sum

/-- Whether a write to a port has to wait there (R252, R381): a collective unit takes 1,024 jobs. The spec bounds no other port. -/
def portFull (s : State) (p : Nat) : Bool :=
  decide (0x40 ≤ p ∧ p < 0x44 ∧ 1024 ≤ queuedJobs s (p - 0x40) + (Tab.get [] s.core.jobs p).length)

/-- A 64-byte job joins its port's queue. -/
def pushJob (p core : Nat) (who : Who) (block : List Byte) (s : State) : State :=
  let j : Job := { block := BitVec.ofNat 512 (ofLE block), who := who, core := core, live := (s.coreAt core).live, waiter := none }
  { s with core := { s.core with jobs := Tab.upd [] s.core.jobs p fun q => q ++ [j] } }

/-- The record of a `COLL_JOB` waits at a port for room in the unit (R381). -/
def pushMailboxJob (p : Nat) (who : Who) (waiter : Nat × Nat) (record : List Byte) (s : State) : State :=
  let j : Job := { block := BitVec.ofNat 512 (ofLE record), who := who, core := 0, live := none, waiter := some waiter }
  { s with core := { s.core with jobs := Tab.upd [] s.core.jobs p fun q => q ++ [j] } }

/-- The job at the head of a port. -/
def headJob (p : Nat) (s : State) : Option Job := (Tab.get [] s.core.jobs p).head?

/-- Takes the job at the head of a port. -/
def popJob (p : Nat) (s : State) : State :=
  { s with core := { s.core with jobs := Tab.upd [] s.core.jobs p List.tail } }

end Sys2Proof.Machine
end

