-- ==== Sys2Proof/Machine/FabricOps.lean ====
section
/-!
DEFINITION. The fabric's shared operations (chapter 12): addresses, windows, packets, routes, the request tracker, and
what a home does with a read, a write or an atomic.
-/
namespace Sys2Proof.Machine
open Sys2Proof

/-- A fabric address taken apart (Table 12.2). -/
structure FabAddr where
  level : Nat
  device : Nat
  window : Nat
  offset : Nat
deriving DecidableEq, Repr

/-- Reads a rack or hall address; the device of a rack address is its rack device number. -/
def readFabAddr (a : Nat) : FabAddr :=
  if a / 2 ^ 62 = 1 then { level := 1, device := bitsAt a 56 6, window := bitsAt a 40 16, offset := a % 2 ^ 40 }
  else { level := a / 2 ^ 62, device := bitsAt a 48 14, window := bitsAt a 40 8, offset := a % 2 ^ 40 }

/-- Whether a rack or hall address is well formed (Table 12.2). Log 56 (DEDUCED). -/
def fabAddrOk (a : Nat) : Bool :=
  let f := readFabAddr a
  match f.level with
  | 1 => f.window == 0 && decide (f.offset < hbmEnd)
  | 2 => true
  | _ => false

/-- The hall number that a fabric address names (R342). -/
def targetHall (s : State) (f : FabAddr) : Nat := if f.level = 1 then s.fab.hall / 64 * 64 + f.device else f.device

/-- Whether a window entry lets an owner make a request (R348): op 1 read, 2 write, 3 atomic. -/
def winAllows (w : FabWin) (owner : Nat) (f : FabAddr) (len op : Nat) : Bool :=
  w.valid && w.owner == owner && w.level == f.level && w.device == f.device && (f.level == 1 || w.window == f.window) &&
    decide (w.base ≤ f.offset ∧ f.offset + len ≤ w.base + w.length) &&
    (match op with
     | 1 => w.read
     | 2 => w.write
     | _ => w.atomic)

/-- The sender's window check of R348. -/
def windowCheck (s : State) (owner : Nat) (f : FabAddr) (len op : Nat) : Bool :=
  s.fab.wins.any fun e => winAllows e.2 owner f len op

/-- A peer's epoch entry. -/
def State.peer (s : State) (h : Nat) : Peer := Tab.get Peer.reset s.fab.peers h

/-- Whether an owner's fabric requests stop at the fence: the device is fenced, or on probation outside the RAN
partition (R121, R353, R497). -/
def fabFenced (s : State) (owner : Nat) : Bool := s.flt.fenced || (s.flt.probation && owner != 256)

/-- The status with which a rack or hall request is refused before it is sent (R121, R341, R348, R352); ST_OK lets it go.
A request to the device itself is served locally (R342). -/
def issueCheck (s : State) (owner a len op : Nat) : Nat :=
  let f := readFabAddr a
  let h := targetHall s f
  if ¬ fabAddrOk a then stBadParam
  else if fabFenced s owner then stFenced
  else if h ≠ s.fab.hall ∧ (s.peer h).lost then stEpoch
  else if windowCheck s owner f len op then stOk
  else stWindow

/-- The check of an LDX or STX at issue: device-level addresses pass (R103). -/
def rackCheck (s : State) (owner a len : Nat) (store : Bool) : Nat :=
  if a / 2 ^ 62 = 0 then stOk else issueCheck s owner a len (if store then 2 else 1)

/-! ### Packets -/

/-- Byte enables of the first and the last word of n bytes at an offset (R343). -/
def byteEnables (o n : Nat) : Nat × Nat :=
  let m := coveredWords o n
  let first := (2 ^ 16 - 1) - (2 ^ (o % 16) - 1)
  let e := (o + n - 1) % 16 + 1
  let last := 2 ^ e - 1
  if m = 1 then (first &&& last, first &&& last) else (first, last)

/-- The n-th set bit of a 24-bit mask. Log 31 (DEDUCED). -/
def nthSetBit (mask n : Nat) : Option Nat := ((List.range 24).filter fun i => bitAt mask i)[n]?

/-- The port of R344, and if that port is not UP the next set port that is (R364). Log 31 (DEDUCED). -/
def routePort (s : State) (dst off : Nat) (avoid : Option Nat) : Option Nat :=
  let mask := (Tab.get 0 s.fab.routes dst).toNat
  let n := popCount 24 mask
  if n = 0 then none
  else
    let g := off / 256
    let f := ((g ^^^ (g >>> 16) ^^^ (g >>> 32)) % 65536 ^^^ (dst * 0x9E37 % 65536)) % n
    let isUp := fun (p : Nat) => (Tab.get AbrPort.reset s.fab.ports p).up
    let order := (List.range n).filterMap fun i => nthSetBit mask ((f + i) % n)
    match order.filter (fun p => isUp p && avoid != some p) with
    | p :: _ => some p
    | [] => order.find? isUp

/-- Key of a port's queue of a virtual channel and class: responses before requests (R347, R368). -/
def queueKey (port vc : Nat) (rsp : Bool) : Nat := 16 * port + 2 * vc + bit (!rsp)

/-- A packet joins the queue of its class on a port. -/
def queuePacket (port : Nat) (p : Pkt) (s : State) : State :=
  updFab (fun f => { f with queues := Tab.upd [] f.queues (queueKey port p.vc p.rsp) fun q => q ++ [p] }) s

/-- Sends a packet toward a device by its route; a destination that cannot be reached gets nothing (R345). Log 56 (DEDUCED). -/
def routePacket (dst off : Nat) (p : Pkt) (avoid : Option Nat) (s : State) : Option Nat × State :=
  match routePort s dst off avoid with
  | some port => (some port, queuePacket port p s)
  | none => (none, s)

/-- Sends a response of a status and words to a request's sender, on the request's VC, or a NAK on VC0 (R347, R354). -/
def respond (h : Hdr) (off opc status : Nat) (words : List (BitVec 144)) (s : State) : State :=
  let vc := if opc = 0x1F then 0 else h.vc
  let w0 := ({ opc := opc, vc := vc, rsp := true, hops := 0, dst := h.src, src := s.fab.hall, epoch := s.flt.epoch.toNat,
               tag := h.tag, gen := h.gen, len := h.len, status := status } : Hdr).word
  (routePacket h.src off { vc := vc, rsp := true, words := w0 :: words, tag := none, owner := none } none s).2

/-! ### The home (R350, R354, R356 to R359) -/

/-- Reads for a requester the aligned words that n bytes at an address cover, poison and all. -/
def homeRead (who : Who) (a n : Nat) (s : State) : List (BitVec 144) × Bool × State :=
  let base := a / 16 * 16
  let m := coveredWords a n
  let r := memRead who base (16 * m) s
  let ws := (List.range m).map fun i =>
    sendWord (BitVec.ofNat 128 (ofLE (sliceBytes r.1.bytes (16 * i) 16))) (s.mem.mem.poisonAt (base + 16 * i) 16)
  (ws, r.1.poison, r.2)

/-- Writes one aligned word under byte enables (R265, R343). -/
def homeWriteWord (a be : Nat) (w : BitVec 144) (s : State) : Bool × State :=
  let d := readWord w
  let bs := leBytes 16 d.1.toNat
  if be = 0xFFFF then (false, memWriteP a bs d.2 s)
  else
    let was := s.mem.mem.poisonAt a 16
    let s1 := (List.range 16).foldl (fun s i => if bitAt be i then memWrite (a + i) [bs.getD i 0] s else s) s
    (was, if d.2 then memPoison a 16 s1 else s1)

/-- Writes n bytes at an address for a requester from the words of a request; answers whether a stored word stayed poisoned. -/
def homeWrite (who : Who) (a n firstBe lastBe : Nat) (ws : List (BitVec 144)) (s : State) : Bool × State :=
  let m := coveredWords a n
  (List.range m).foldl (fun p i =>
    let be := (if i = 0 then firstBe else 0xFFFF) &&& (if i + 1 = m then lastBe else 0xFFFF)
    let r := homeWriteWord (a / 16 * 16 + 16 * i) be (ws.getD i 0) p.2
    (p.1 || r.1, r.2)) (false, stall who a n s)

/-- A hall WRITE through a window with NOTIFY advances its counter (R356). -/
def notifyWindow (upd : Nat → Nat → Nat → State → State) (level window : Nat) (s : State) : State :=
  let w := Tab.get InWin.reset s.fab.inwins window
  if level = 2 ∧ w.notify then upd w.ctx w.core w.cnt s else s

/-- minimumNumber or maximumNumber of two floating-point patterns with the given exponent and fraction widths (R357). -/
def fpPick (ew fw : Nat) (wantMax : Bool) (canonical a b : Nat) : Nat :=
  let mag := fun (v : Nat) => v % 2 ^ (ew + fw)
  let isNaN := fun (v : Nat) => decide ((2 ^ ew - 1) * 2 ^ fw < mag v)
  let key := fun (v : Nat) => if bitAt v (ew + fw) then -(mag v : Int) - 1 else (mag v : Int)
  if isNaN a ∧ isNaN b then canonical
  else if isNaN a then b
  else if isNaN b then a
  else if (key a ≤ key b) = wantMax then b else a

/-- Bits of an atomic of a SIZE code. -/
def atomBits (size : Nat) : Nat := 32 * 2 ^ size

/-- Whether an ATOP takes a SIZE (Table 12.7). -/
def atopOk (atop size : Nat) : Bool :=
  if 1 ≤ atop ∧ atop ≤ 5 then decide (size ≤ 1)
  else if 6 ≤ atop ∧ atop ≤ 9 then size == 0
  else atop == 0xA && decide (size ≤ 2)

/-- The new value of a target (Table 12.7). -/
def atomNew (atop size t cmp op : Nat) : Nat :=
  let n := atomBits size
  let half := fun (mx : Bool) => fpPick 8 7 mx 0x7FC0 (t % 65536) (op % 65536) +
    65536 * fpPick 8 7 mx 0x7FC0 (t / 65536) (op / 65536)
  match atop with
  | 1 => (t + op) % 2 ^ n
  | 2 => if signed n t ≤ signed n op then t else op
  | 3 => if signed n t ≤ signed n op then op else t
  | 4 => min t op
  | 5 => max t op
  | 6 => fpPick 8 23 false 0x7FC00000 t op
  | 7 => fpPick 8 23 true 0x7FC00000 t op
  | 8 => half false
  | 9 => half true
  | _ => if t = cmp then op else t

/-- Performs an atomic at an address for a requester: status, old value, and the state (R357, R358). -/
def performAtomic (who : Who) (a atop size cmp op : Nat) (s : State) : Nat × Nat × State :=
  let n := 4 * 2 ^ size
  let r := memRead who a n s
  if r.1.poison then (stPoison, 0, r.2)
  else
    let t := ofLE r.1.bytes
    (stOk, t, memWrite a (leBytes n (atomNew atop size t (cmp % 256 ^ n) (op % 256 ^ n))) r.2)

/-! ### The request tracker (R131, R364, R365) -/

/-- A tracker entry. -/
def State.track (s : State) (tag : Nat) : Option Track := Tab.get none s.fab.tracks tag

/-- Whether a tag may be taken: not in use and not held back. Log 31 (DEDUCED). -/
def tagFree (s : State) (tag : Nat) : Bool := (s.track tag).isNone && decide (Tab.get 0 s.fab.heldBack tag ≤ s.now)

/-- A free tag for a requester: an ME takes the lowest of its own 256, a device block the highest. Log 31 (DEDUCED). -/
def pickTag (s : State) (req : Requester) : Option Nat :=
  match req with
  | .me t _ _ => ((List.range 256).map (256 * (t / 8) + ·)).find? (tagFree s)
  | _ => ((List.range 512).map (131071 - ·)).find? (tagFree s)

/-- Atomics outstanding to a destination (R360). -/
def atomicsTo (s : State) (dst : Nat) : Nat :=
  (s.fab.tracks.filter fun e => match e.2 with
    | some t => t.op == 3 && t.dst == dst
    | none => false).length

/-- A request number is used up by a recorded or replayed context (R479). -/
def numberRequest (owner : Nat) (s : State) : State :=
  match s.det.replay with
  | some r =>
    if r.ctx = some owner then { s with det := { s.det with replay := some { r with nextReq := r.nextReq + 1 } } }
    else s
  | none => if recordsCtx s owner then updRec (fun r => { r with nextReq := r.nextReq + 1 }) s else s

/-- Builds and sends a request to another device: it takes a tag, a generation and, for an atomic, a sequence number.
`via` names the port of an
Abard-bound queue (Table 14.1). None is sent while no tag is free or 512 atomics are outstanding to the destination. -/
def sendRequestVia (via : Option Nat) (req : Requester) (owner vc a len op loc atop size : Nat) (ret : Bool) (payload : List (BitVec 144))
    (poison : Bool) (s : State) : Option State :=
  let f := readFabAddr a
  let dst := targetHall s f
  match pickTag s req with
  | none => none
  | some tag =>
    if op = 3 ∧ 512 ≤ atomicsTo s dst then none
    else
      let gen := match Tab.get none s.fab.gens tag with
        | none => (0 : BitVec 8)
        | some g => g + 1
      let aseq := Tab.get 0 s.fab.aseqs dst
      let be := if op = 2 then byteEnables f.offset len else (0, 0)
      let w0 := ({ opc := op, vc := vc, rsp := false, hops := 0, dst := dst, src := s.fab.hall, epoch := s.flt.epoch.toNat,
                   tag := tag, gen := gen.toNat, len := len, status := 0 } : Hdr).word
      let w1 := ({ offset := f.offset, window := if f.level = 2 then f.window else 0, level := f.level,
                   atop := if op = 3 then atop else 0, size := if op = 3 then size else 0, ret := ret,
                   aseq := if op = 3 then aseq.toNat else 0, firstBe := be.1, lastBe := be.2 } : Hdr1).word
      let words := w0 :: w1 :: payload
      let replayed := replaysCtx s owner
      let r := if replayed then (none, s)
        else
          let p : Pkt := { vc := vc, rsp := false, words := words, tag := some tag, owner := some owner }
          match via with
          | some port => (some port, queuePacket port p s)
          | none => routePacket dst f.offset p none s
      let num := if replayed then (s.det.replay.map Replay.nextReq).getD 0 else s.det.recUnit.nextReq
      let t : Track := {
        req := req, owner := owner, gen := gen, dst := dst, op := op, vc := vc, level := f.level,
        window := f.window, offset := f.offset, len := len, loc := loc, size := size, ret := ret, aseq := aseq,
        words := words, port := r.1.getD 24, sent := false, sentAt := s.now, timeouts := 0, resent := false, poison := poison,
        num := num, unsent := replayed }
      some (fabCount 0 (numberRequest owner (updFab (fun f => { f with
        tracks := Tab.set none f.tracks tag (some t), gens := Tab.set none f.gens tag (some gen),
        aseqs := if op = 3 then Tab.set 0 f.aseqs dst (aseq + 1) else f.aseqs }) r.2)))

/-- Sends a request by the route of its destination. -/
def sendRequest (req : Requester) (owner vc a len op loc atop size : Nat) (ret : Bool) (payload : List (BitVec 144))
    (poison : Bool) (s : State) : Option State :=
  sendRequestVia none req owner vc a len op loc atop size ret payload poison s

/-- The words of a payload at an offset of its first word. -/
def bytesWords (off : Nat) (bs : List Byte) : List (BitVec 144) :=
  (chunks 16 (List.replicate (off % 16) 0 ++ bs)).map fun w => sendWord (BitVec.ofNat 128 (ofLE w)) false

/-- Frees a tracker entry; a resent one is held back for REQ_TIMEOUT (R365). -/
def freeTrack (tag : Nat) (t : Track) (s : State) : State :=
  updFab (fun f => { f with
    tracks := Tab.set none f.tracks tag none,
    heldBack := if t.resent then Tab.set 0 f.heldBack tag (s.now + f.reqTimeout) else f.heldBack }) s

/-- Sends a tracked request again, on another port if one is UP (R364). -/
def resend (tag : Nat) (s : State) : State :=
  match s.track tag with
  | none => s
  | some t =>
    let r := routePacket t.dst t.offset { vc := t.vc, rsp := false, words := t.words, tag := some tag, owner := some t.owner } (some t.port) s
    let t' := { t with port := r.1.getD t.port, sentAt := s.now, resent := true }
    fabCount 4 (updFab (fun f => { f with tracks := Tab.set none f.tracks tag (some t') }) r.2)

end Sys2Proof.Machine
end

