-- ==== Sys2Proof/Machine/Threads.lean ====
section
/-!
DEFINITION. Thread instructions (chapter 04, R96 to R111, R132): issue, faults, registers, the scratchpad, branches,
commands to the engines, counters, barriers, waits and END.
-/
namespace Sys2Proof.Machine
open Sys2Proof

/-- The core and the context of a thread (Table 1.4). -/
def coreOfThread (t : Nat) : Nat := t / 8

/-- The general register of a thread: g0 reads 0 (R96). -/
def Thread.reg (x : Thread) (r : Nat) : Word := if r = 0 then 0 else Tab.get 0 x.regs r

/-- A register write: one to g0 is ignored (R96). -/
def Thread.setReg (x : Thread) (r : Nat) (v : Word) : Thread :=
  if r = 0 then x else { x with regs := Tab.set 0 x.regs r v }

/-- Whether a register awaits an LDX result. -/
def Thread.isPending (x : Thread) (r : Nat) : Bool := r != 0 && x.pendingMask.getLsbD r

/-- Whether two cores' plate commands are one (R110): the same start record of the same occurrence. -/
def sameCommand (a b : Option Live) : Bool :=
  match a, b with
  | some x, some y => x.plate == y.plate && x.window == y.window && x.start == y.start && x.record == y.record
  | _, _ => false

/-- The threads of a cluster that belong to the plate command of a core and have not ended (R110). -/
def commandThreads (s : State) (k : Nat) : List Nat :=
  let l := (s.coreAt k).live
  ((List.range 8).map (8 * (k / 8) + ·)).flatMap fun j =>
    if sameCommand (s.coreAt j).live l then ((List.range 8).map (8 * j + ·)).filter fun t => (s.thread t).live else []

/-- The length of the program section that a thread runs. Log 30 (DEDUCED). -/
def progLenOf (s : State) (t : Nat) : Nat :=
  match (s.coreAt (t / 8)).live with
  | none => 0
  | some l => ((s.plate l.plate).map Plate.progLen).getD 0

/-- A context halted with a status (R103). -/
def Thread.halted (x : Thread) (status : Nat) : Thread :=
  { x with state := 7, fault := BitVec.ofNat 16 status, live := false, barrier := none }

/-- A waiting context goes on past the BAR it waited at; past the last byte of its section it halts (R103, R110). -/
def passBarrier (t : Nat) (s : State) : State :=
  let x := s.thread t
  if progLenOf s t < x.pc.toNat + 16 then (dryEvent 9 s).setThread t (x.halted stBadParam)
  else s.setThread t { x with state := 1, barrier := none, pc := x.pc + 8 }

/-- Releases the barriers of a core's plate command at which every live context has arrived (R110). -/
def releaseBarriers (k : Nat) (s : State) : State :=
  let ts := commandThreads s k
  match ts with
  | [] => s
  | t :: _ =>
    match (s.thread t).barrier with
    | none => s
    | some b =>
      if b < 32 ∧ ts.all (fun u => (s.thread u).barrier == some b) then
        ts.foldl (fun s u => passBarrier u s) s
      else s

/-- A context halts on a fault (R103): its barriers may release. -/
def haltThread (t : Nat) (status : Nat) (s : State) : State :=
  releaseBarriers (t / 8) ((dryEvent 9 s).setThread t ((s.thread t).halted status))

/-- The instruction has finished and the PC goes to an offset of the program section; leaving it faults (R103). -/
def goTo (t : Nat) (pc : Int) (x : Thread) (s : State) : State :=
  if pc < 0 ∨ (progLenOf s t : Int) < pc + 8 then haltThread t stBadParam (s.setThread t x)
  else s.setThread t { x with pc := BitVec.ofInt 32 pc, state := 1 }

/-- The instruction has finished: the PC goes to the next one. Log 30 (DEDUCED). -/
def goNext (t : Nat) (x : Thread) (s : State) : State := goTo t (x.pc.toNat + 8) x s

/-- The slot stays empty: the context waits in a state of `CORE_THREAD`.STATE (R97). Log 30 (DEDUCED). -/
def waitIn (t : Nat) (st : BitVec 3) (x : Thread) (s : State) : State := s.setThread t { x with state := st }

/-- Whether a context may issue (R97, R450, R457): it is live, not at a barrier, and neither parked nor stopped. -/
def mayIssue (s : State) (t : Nat) : Bool :=
  let k := t / 8
  let x := s.thread t
  let c := s.coreAt k
  x.live && x.state != 0 && x.state != 3 && x.state != 7 &&
    (s.plates.ranCores.getLsbD k || (!s.dev.pwr.tripOn && (match c.resident with
      | none => true
      | some r => !decide (3 ≤ (s.ctx r).state ∧ (s.ctx r).state ≤ 5) &&
          !((s.ctx r).state == 2 && (s.ctx r).mode == 1))))

/-- An instruction word (Table 4.2). -/
def insnWord (opc : Nat) (d a b : BitVec 5) (imm : BitVec 41) : BitVec 64 := BitVec.ofNat 8 opc ++ d ++ a ++ b ++ imm

/-- The instruction word at a thread's PC in the program section that it runs (R102). -/
def fetched (s : State) (t : Nat) : Option (BitVec 64) :=
  match (s.coreAt (t / 8)).live with
  | none => none
  | some l => (s.plate l.plate).map fun p => BitVec.ofNat 64 (ofLE (sliceBytes p.prog (s.thread t).pc.toNat 8))

/-- The shape of every thread instruction: the context issues it if it may and its word stands at the PC; it waits on a pending
register that it reads or writes, and faults where an unused field is not zero (R97, R102, R103). A row whose word is not the one
at the PC changes nothing. Log 30 (DEDUCED). -/
def thread (t : BitVec 12) (w : BitVec 64) (regs : List (BitVec 5)) (unusedZero : Bool) (f : Thread → State → State) (s : State) :
    Host.Outcome State Fault Refusal :=
  let n := t.toNat
  if ¬ mayIssue s n ∨ fetched s n ≠ some w then .next s
  else
    let x := s.thread n
    if ¬ unusedZero then .next (haltThread n stBadParam s)
    else if regs.any fun r => x.isPending r.toNat then .next (waitIn n 5 x s)
    else .next (f x s)

/-- An instruction that writes one register from two (R102). -/
def arith (t : BitVec 12) (opc : Nat) (d a b : BitVec 5) (imm : BitVec 41) (ok : Bool) (f : Word → Word → Word) (s : State) :
    Host.Outcome State Fault Refusal :=
  thread t (insnWord opc d a b imm) [d, a, b] ok (fun x s => goNext t.toNat (x.setReg d.toNat (f (x.reg a.toNat) (x.reg b.toNat))) s) s

/-- The sign-extended immediate (Table 4.2). -/
def immWord (imm : BitVec 41) : Word := imm.signExtend 64

/-- The shift amount (gB + IMM)[5:0]. -/
def shiftOf (b : Word) (imm : BitVec 41) : Nat := ((b + immWord imm).toNat) % 64

/-- NOP, and every word whose opcode Table 4.3 does not list (R102, R103). -/
def execThNop (t : BitVec 12) (word : BitVec 64) (s : State) : Host.Outcome State Fault Refusal :=
  let opc := word.toNat / 2 ^ 56
  let known := decide ((1 ≤ opc ∧ opc ≤ 0xD) ∨ (0x10 ≤ opc ∧ opc ≤ 0x13) ∨ (0x18 ≤ opc ∧ opc ≤ 0x1C) ∨
    (0x20 ≤ opc ∧ opc ≤ 0x29))
  if known then .next s
  else if opc = 0 then thread t word [] (word == 0) (fun x s => goNext t.toNat x s) s
  else thread t word [] true (fun _ s => haltThread t.toNat stBadOpcode s) s

/-- ADD: gD = gA + gB + IMM. Log 30 (DEDUCED). -/
def execThAdd (t : BitVec 12) (d a b : BitVec 5) (imm : BitVec 41) (s : State) : Host.Outcome State Fault Refusal :=
  arith t 0x01 d a b imm true (fun x y => x + y + immWord imm) s

/-- SUB: gD = gA − gB. -/
def execThSub (t : BitVec 12) (d a b : BitVec 5) (imm : BitVec 41) (s : State) : Host.Outcome State Fault Refusal :=
  arith t 0x02 d a b imm (imm == 0) (fun x y => x - y) s

/-- AND. -/
def execThAnd (t : BitVec 12) (d a b : BitVec 5) (imm : BitVec 41) (s : State) : Host.Outcome State Fault Refusal :=
  arith t 0x03 d a b imm (imm == 0) (fun x y => x &&& y) s

/-- OR. -/
def execThOr (t : BitVec 12) (d a b : BitVec 5) (imm : BitVec 41) (s : State) : Host.Outcome State Fault Refusal :=
  arith t 0x04 d a b imm (imm == 0) (fun x y => x ||| y) s

/-- XOR. -/
def execThXor (t : BitVec 12) (d a b : BitVec 5) (imm : BitVec 41) (s : State) : Host.Outcome State Fault Refusal :=
  arith t 0x05 d a b imm (imm == 0) (fun x y => x ^^^ y) s

/-- SHL: gA shifted left by (gB + IMM)[5:0]. -/
def execThShl (t : BitVec 12) (d a b : BitVec 5) (imm : BitVec 41) (s : State) : Host.Outcome State Fault Refusal :=
  arith t 0x06 d a b imm true (fun x y => x <<< shiftOf y imm) s

/-- SHR: gA shifted right logically. -/
def execThShr (t : BitVec 12) (d a b : BitVec 5) (imm : BitVec 41) (s : State) : Host.Outcome State Fault Refusal :=
  arith t 0x07 d a b imm true (fun x y => x >>> shiftOf y imm) s

/-- SAR: gA shifted right arithmetically. -/
def execThSar (t : BitVec 12) (d a b : BitVec 5) (imm : BitVec 41) (s : State) : Host.Outcome State Fault Refusal :=
  arith t 0x08 d a b imm true (fun x y => x.sshiftRight (shiftOf y imm)) s

/-- MUL: the low 64 bits of gA × gB. -/
def execThMul (t : BitVec 12) (d a b : BitVec 5) (imm : BitVec 41) (s : State) : Host.Outcome State Fault Refusal :=
  arith t 0x09 d a b imm (imm == 0) (fun x y => x * y) s

/-- MIN: the signed minimum. -/
def execThMin (t : BitVec 12) (d a b : BitVec 5) (imm : BitVec 41) (s : State) : Host.Outcome State Fault Refusal :=
  arith t 0x0A d a b imm (imm == 0) (fun x y => if x.toInt ≤ y.toInt then x else y) s

/-- MAX: the signed maximum. -/
def execThMax (t : BitVec 12) (d a b : BitVec 5) (imm : BitVec 41) (s : State) : Host.Outcome State Fault Refusal :=
  arith t 0x0B d a b imm (imm == 0) (fun x y => if x.toInt ≤ y.toInt then y else x) s

/-- LI: gD = IMM, sign-extended. -/
def execThLi (t : BitVec 12) (d a b : BitVec 5) (imm : BitVec 41) (s : State) : Host.Outcome State Fault Refusal :=
  thread t (insnWord 0x0C d a b imm) [d] (a == 0 && b == 0) (fun x s => goNext t.toNat (x.setReg d.toNat (immWord imm)) s) s

/-- LIH: gD = gA[40:0] with bits [63:41] replaced by IMM[22:0]. -/
def execThLih (t : BitVec 12) (d a b : BitVec 5) (imm : BitVec 41) (s : State) : Host.Outcome State Fault Refusal :=
  thread t (insnWord 0x0D d a b imm) [d, a] (b == 0 && decide (imm.toNat < 2 ^ 23)) (fun x s =>
    goNext t.toNat (x.setReg d.toNat (BitVec.ofNat 64 ((x.reg a.toNat).toNat % 2 ^ 41 + imm.toNat * 2 ^ 41))) s) s

/-- The scratchpad offset gA + IMM of a load or store of a width code, if it is aligned and in range (R102). -/
def scratchAddr (x : Thread) (a b : BitVec 5) (imm : BitVec 41) : Option (Nat × Nat) :=
  let off := (x.reg a.toNat + immWord imm).toNat
  let n := 2 ^ b.toNat
  if b.toNat ≤ 3 ∧ off % n = 0 ∧ off + n ≤ 0x80000 then some (off, n) else none

/-- LD: gD = scratchpad at gA + IMM, zero-extended. A poisoned word gives a value the spec leaves open. Log 29 (DEDUCED). -/
def execThLd (t : BitVec 12) (d a b : BitVec 5) (imm : BitVec 41) (s : State) : Host.Outcome State Fault Refusal :=
  thread t (insnWord 0x10 d a b imm) [d, a] true (fun x s =>
    match scratchAddr x a b imm with
    | none => haltThread t.toNat stBadParam s
    | some (off, n) =>
      let r := memRead (coreHolder s (t.toNat / 8)) (scratchBase (t.toNat / 8) + off) n s
      let v := r.2.draw
      if r.1.poison then goNext t.toNat (x.setReg d.toNat (BitVec.ofNat 64 (v.1.toNat % 256 ^ n))) v.2
      else goNext t.toNat (x.setReg d.toNat (BitVec.ofNat 64 (ofLE r.1.bytes))) r.2) s

/-- ST: scratchpad at gA + IMM = low bytes of gD (R102, R265). -/
def execThSt (t : BitVec 12) (d a b : BitVec 5) (imm : BitVec 41) (s : State) : Host.Outcome State Fault Refusal :=
  thread t (insnWord 0x11 d a b imm) [d, a] true (fun x s =>
    match scratchAddr x a b imm with
    | none => haltThread t.toNat stBadParam s
    | some (off, n) =>
      goNext t.toNat x (memWrite (scratchBase (t.toNat / 8) + off) (leBytes n (x.reg d.toNat).toNat) s)) s

/-- The descriptor queue of a thread. -/
def State.meQueue (s : State) (t : Nat) : List MeEntry := Tab.get [] (s.coreAt (t / 8)).me (t % 8)

/-- Sets the descriptor queue of a thread. -/
def State.setMeQueue (s : State) (t : Nat) (q : List MeEntry) : State :=
  let c := s.coreAt (t / 8)
  s.setCore (t / 8) { c with me := Tab.set [] c.me (t % 8) q }

/-- A new entry of a descriptor queue. -/
def newEntry (s : State) (t kind : Nat) (block : BitVec 512) (reg addr : Nat) (data : Word) : MeEntry :=
  { id := (s.coreAt (t / 8)).nextId, block := block, kind := kind, reg := reg, addr := addr, data := data, started := false,
    todo := [], outstanding := 0, sent := 0, status := 0, statusAt := 0, nan := false, ovf := false, bexp := none }

/-- An entry joins a thread's descriptor queue. -/
def enqueue (t : Nat) (e : MeEntry) (s : State) : State :=
  let c := s.coreAt (t / 8)
  let s1 := s.setCore (t / 8) { c with nextId := c.nextId + 1 }
  s1.setMeQueue t (s1.meQueue t ++ [e])

/-- Whether the 8 bytes of an LDX or STX lie where its context may reach them (R103, R113, R251, R341): 0 yes, otherwise
the status it halts with. -/
def extAddrStatus (s : State) (t a : Nat) : Nat :=
  let who := coreHolder s (t / 8)
  let dev := a % 2 ^ 40
  match a / 2 ^ 62 with
  | 0 => if a % 8 = 0 ∧ a < 2 ^ 40 ∧ mayAccess s who dev 8 then stOk else stBadParam
  | 1 => if a % 8 ≠ 0 then stBadParam else stOk
  | _ => stBadParam

/-- LDX: 8 bytes at address gA, through the ME. -/
def execThLdx (t : BitVec 12) (d a b : BitVec 5) (imm : BitVec 41) (s : State) : Host.Outcome State Fault Refusal :=
  thread t (insnWord 0x12 d a b imm) [d, a] (b == 0 && imm == 0) (fun x s =>
    let n := t.toNat
    let addr := (x.reg a.toNat).toNat
    let st := extAddrStatus s n addr
    let w := rackCheck s (coreHolder s (n / 8)) addr 8 false
    if st ≠ stOk then haltThread n st s
    else if w ≠ stOk then haltThread n w s
    else if 8 ≤ (s.meQueue n).length then waitIn n 5 x s
    else
      let x' := if d.toNat = 0 then x else { x with pendingMask := x.pendingMask ||| BitVec.ofNat 32 (2 ^ d.toNat) }
      goNext n x' (enqueue n (newEntry s n 1 0 d.toNat addr 0) s)) s

/-- STX: 8 bytes at address gA = gB, through the ME. -/
def execThStx (t : BitVec 12) (d a b : BitVec 5) (imm : BitVec 41) (s : State) : Host.Outcome State Fault Refusal :=
  thread t (insnWord 0x13 d a b imm) [a, b] (d == 0 && imm == 0) (fun x s =>
    let n := t.toNat
    let addr := (x.reg a.toNat).toNat
    let st := extAddrStatus s n addr
    let w := rackCheck s (coreHolder s (n / 8)) addr 8 true
    if st ≠ stOk then haltThread n st s
    else if w ≠ stOk then haltThread n w s
    else if 8 ≤ (s.meQueue n).length then waitIn n 5 x s
    else goNext n x (enqueue n (newEntry s n 2 0 0 addr (x.reg b.toNat)) s)) s

/-- A conditional branch by 8 × IMM (R102, R103). -/
def branch (t : BitVec 12) (opc : Nat) (d a b : BitVec 5) (imm : BitVec 41) (c : Word → Word → Bool) (s : State) :
    Host.Outcome State Fault Refusal :=
  thread t (insnWord opc d a b imm) [a, b] (d == 0) (fun x s =>
    if c (x.reg a.toNat) (x.reg b.toNat) then goTo t.toNat (x.pc.toNat + 8 * imm.toInt) x s
    else goNext t.toNat x s) s

/-- BEQ. -/
def execThBeq (t : BitVec 12) (d a b : BitVec 5) (imm : BitVec 41) (s : State) : Host.Outcome State Fault Refusal :=
  branch t 0x18 d a b imm (fun x y => x == y) s

/-- BNE. -/
def execThBne (t : BitVec 12) (d a b : BitVec 5) (imm : BitVec 41) (s : State) : Host.Outcome State Fault Refusal :=
  branch t 0x19 d a b imm (fun x y => x != y) s

/-- BLT: signed less. -/
def execThBlt (t : BitVec 12) (d a b : BitVec 5) (imm : BitVec 41) (s : State) : Host.Outcome State Fault Refusal :=
  branch t 0x1A d a b imm (fun x y => decide (x.toInt < y.toInt)) s

/-- BGE: signed greater or equal. -/
def execThBge (t : BitVec 12) (d a b : BitVec 5) (imm : BitVec 41) (s : State) : Host.Outcome State Fault Refusal :=
  branch t 0x1B d a b imm (fun x y => decide (y.toInt ≤ x.toInt)) s

/-- JMP. -/
def execThJmp (t : BitVec 12) (d a b : BitVec 5) (imm : BitVec 41) (s : State) : Host.Outcome State Fault Refusal :=
  thread t (insnWord 0x1C d a b imm) [] (d == 0 && a == 0 && b == 0) (fun x s => goTo t.toNat (x.pc.toNat + 8 * imm.toInt) x s) s

/-- The queue of TE0, TE1 or SE (0, 1, 2). -/
def Core.engine (c : Core) (e : Nat) : List EngCmd :=
  match e with
  | 0 => c.te0
  | 1 => c.te1
  | _ => c.se

/-- Sets the queue of TE0, TE1 or SE. -/
def Core.setEngine (c : Core) (e : Nat) (q : List EngCmd) : Core :=
  match e with
  | 0 => { c with te0 := q }
  | 1 => { c with te1 := q }
  | _ => { c with se := q }

/-- Whether a plate command's loan window is still open (R44). -/
def loanOpen (s : State) (l : Live) : Bool :=
  l.loan && match s.plate l.plate with
    | some p => p.windows.any fun w => w.window == l.window && w.variant == l.variant && decide (s.now < l.start + w.length)
    | none => false

/-- Whether a core's tensor engines refuse commands: a RAN core outside a loan window (R44, R106). -/
def teClosed (s : State) (k : Nat) : Bool :=
  s.plates.ranCores.getLsbD k && !(match (s.coreAt k).live with
    | some l => loanOpen s l
    | none => false)

/-- CMD: the command block at scratchpad offset gA joins an engine's queue (R104, R106). -/
def execThCmd (t : BitVec 12) (d a b : BitVec 5) (imm : BitVec 41) (s : State) : Host.Outcome State Fault Refusal :=
  thread t (insnWord 0x20 d a b imm) [a] (d == 0 && b == 0 && decide (imm.toNat < 4)) (fun x s =>
    let n := t.toNat
    let k := n / 8
    let off := (x.reg a.toNat).toNat
    let e := imm.toNat
    if off % 64 ≠ 0 ∨ 0x80000 < off + 64 ∨ (e < 2 ∧ teClosed s k) then haltThread n stBadParam s
    else
      let r := memRead (coreHolder s k) (scratchBase k + off) 64 s
      let block := BitVec.ofNat 512 (ofLE r.1.bytes)
      if e = 3 then
        if 8 ≤ (s.meQueue n).length then waitIn n 5 x s
        else goNext n x (enqueue n (newEntry r.2 n 0 block 0 0 0) r.2)
      else if 8 ≤ ((s.coreAt k).engine e).length then waitIn n 5 x s
      else
        let c := r.2.coreAt k
        goNext n x (r.2.setCore k (c.setEngine e (c.engine e ++
          [.queued block])))) s

/-- Whether a counter has reached a value (R108). -/
def reached (count : BitVec 32) (v : Word) : Bool := decide ((count - v.truncate 32).toNat < 2 ^ 31)

/-- A counter of a core. -/
def Core.counter (c : Core) (i : Nat) : Cnt := Tab.get Cnt.reset c.cnt i

/-- WAITC: wait until counter IMM[5:0] has reached gA[31:0] (R108). -/
def execThWaitc (t : BitVec 12) (d a b : BitVec 5) (imm : BitVec 41) (s : State) : Host.Outcome State Fault Refusal :=
  thread t (insnWord 0x21 d a b imm) [a] (d == 0 && b == 0 && decide (imm.toNat < 64)) (fun x s =>
    let v := x.reg a.toNat
    if reached ((s.coreAt (t.toNat / 8)).counter imm.toNat).count v then goNext t.toNat x s
    else waitIn t.toNat 2 { x with waitOn := imm.toNat, target := v.toNat } s) s

/-- The counter word (`CORE_CNT`). -/
def Cnt.word (c : Cnt) : Word :=
  BitVec.ofNat 64 (c.count.toNat + c.status.toNat * 2 ^ 32 + bit c.nan * 2 ^ 48 + bit c.ovf * 2 ^ 49)

/-- Contexts of a core whose counter has reached what they wait for go on (R108). Log 30 (DEDUCED). -/
def wakeCounters (k : Nat) (s : State) : State :=
  (List.range 8).foldl (fun s i =>
    let x := s.thread (8 * k + i)
    if x.live ∧ x.state = 2 ∧ reached ((s.coreAt k).counter x.waitOn).count (BitVec.ofNat 64 x.target) then
      goNext (8 * k + i) x s
    else s) s

/-- SETC: COUNT = gA[31:0]; STATUS and the flags are cleared. -/
def execThSetc (t : BitVec 12) (d a b : BitVec 5) (imm : BitVec 41) (s : State) : Host.Outcome State Fault Refusal :=
  thread t (insnWord 0x22 d a b imm) [a] (d == 0 && b == 0 && decide (imm.toNat < 64)) (fun x s =>
    let k := t.toNat / 8
    let c := s.coreAt k
    let w : Cnt := { count := (x.reg a.toNat).truncate 32, status := 0, nan := false, ovf := false }
    let s1 := s.setCore k { c with cnt := Tab.set Cnt.reset c.cnt imm.toNat w }
    wakeCounters k (goNext t.toNat x s1)) s

/-- RDC: gD = counter word IMM[5:0]. -/
def execThRdc (t : BitVec 12) (d a b : BitVec 5) (imm : BitVec 41) (s : State) : Host.Outcome State Fault Refusal :=
  thread t (insnWord 0x23 d a b imm) [d] (a == 0 && b == 0 && decide (imm.toNat < 64)) (fun x s =>
    goNext t.toNat (x.setReg d.toNat ((s.coreAt (t.toNat / 8)).counter imm.toNat).word) s) s

/-- BAR: arrive at cluster barrier IMM[4:0] and wait for its release (R110). -/
def execThBar (t : BitVec 12) (d a b : BitVec 5) (imm : BitVec 41) (s : State) : Host.Outcome State Fault Refusal :=
  thread t (insnWord 0x24 d a b imm) [] (d == 0 && a == 0 && b == 0 && decide (imm.toNat < 32)) (fun x s =>
    releaseBarriers (t.toNat / 8) (s.setThread t.toNat { x with state := 3, barrier := some imm.toNat })) s

/-- WAITR: wait until the ridge count is at least gA (R111). -/
def execThWaitr (t : BitVec 12) (d a b : BitVec 5) (imm : BitVec 41) (s : State) : Host.Outcome State Fault Refusal :=
  thread t (insnWord 0x25 d a b imm) [a] (d == 0 && b == 0 && imm == 0) (fun x s =>
    let v := (x.reg a.toNat).toNat
    if v ≤ s.now then goNext t.toNat x s else waitIn t.toNat 4 { x with target := v } s) s

/-- RIDGE_WAIT_RESUME (R111): a context waiting for a ridge count goes on in its first issue slot at or after it. -/
def execRidgeWaitResume (t : BitVec 12) (s : State) : Host.Outcome State Fault Refusal :=
  let x := s.thread t.toNat
  if mayIssue s t.toNat ∧ x.state = 4 ∧ x.target ≤ s.now then .next (goNext t.toNat x s) else .next s

/-- RDR: gD = the ridge count latched in this slot. -/
def execThRdr (t : BitVec 12) (d a b : BitVec 5) (imm : BitVec 41) (s : State) : Host.Outcome State Fault Refusal :=
  thread t (insnWord 0x26 d a b imm) [d] (a == 0 && b == 0 && imm == 0) (fun x s => goNext t.toNat (x.setReg d.toNat s.clk.ridge) s) s

/-- RDIMP: gD = the impression number of the running impression. -/
def execThRdimp (t : BitVec 12) (d a b : BitVec 5) (imm : BitVec 41) (s : State) : Host.Outcome State Fault Refusal :=
  thread t (insnWord 0x27 d a b imm) [d] (a == 0 && b == 0 && imm == 0) (fun x s =>
    let n := ((s.coreAt (t.toNat / 8)).live.map Live.impression).getD 0
    goNext t.toNat (x.setReg d.toNat (BitVec.ofNat 64 n)) s) s

/-- Whether a FENCE of a scope may go on (R132): every descriptor has issued all its requests, and none of the scope is
outstanding. -/
def fenceOpen (s : State) (t : Nat) (remote : Bool) : Bool :=
  (s.meQueue t).all (fun e => e.started && e.todo == []) &&
    (if remote then (s.thread t).outRemote == 0 else (s.thread t).outstanding == 0)

/-- A context waiting at a FENCE goes on if it may (R132). Log 30 (DEDUCED). -/
def wakeFence (t : Nat) (s : State) : State :=
  let x := s.thread t
  if x.live ∧ x.state = 6 ∧ fenceOpen s t (x.target == 1) then goNext t x s else s

/-- FENCE: wait for this context's requests; IMM[0] selects rack and hall requests only (R132). -/
def execThFence (t : BitVec 12) (d a b : BitVec 5) (imm : BitVec 41) (s : State) : Host.Outcome State Fault Refusal :=
  thread t (insnWord 0x28 d a b imm) [] (d == 0 && a == 0 && b == 0 && decide (imm.toNat < 2)) (fun x s =>
    if fenceOpen s t.toNat (imm == 1) then goNext t.toNat x s
    else waitIn t.toNat 6 { x with target := imm.toNat } s) s

/-- END: the context ends its part of the plate command; it waits while a register is pending (R449). -/
def execThEnd (t : BitVec 12) (d a b : BitVec 5) (imm : BitVec 41) (s : State) : Host.Outcome State Fault Refusal :=
  thread t (insnWord 0x29 d a b imm) [] (d == 0 && a == 0 && b == 0 && imm == 0) (fun x s =>
    if x.pendingMask ≠ 0 then waitIn t.toNat 5 x s
    else releaseBarriers (t.toNat / 8) (s.setThread t.toNat { x with state := 0, live := false, barrier := none, pc := x.pc + 8 })) s

/-- A retirement into a counter (R108). -/
def retireCnt (status : Nat) (nan ovf : Bool) (x : Cnt) : Cnt :=
  { count := x.count + 1, status := if x.status = 0 then BitVec.ofNat 16 status else x.status, nan := x.nan || nan,
    ovf := x.ovf || ovf }

/-- A retirement into a counter of a core (R108). -/
def retireInto (i status : Nat) (nan ovf : Bool) (c : Core) : Core :=
  { c with cnt := Tab.upd Cnt.reset c.cnt i (retireCnt status nan ovf) }

/-- The block exponent registers of a command at its retirement (R149). -/
def retireBexps (e : EngCmd) (c : Core) : Core :=
  { c with bexp := e.bexps.foldl (fun t u => Tab.upd Bexp.reset t u.1 fun b =>
      { exp := BitVec.ofInt 16 (clampSigned 16 (b.exp.toInt + u.2.1)), headroom := BitVec.ofNat 6 u.2.2 }) c.bexp }

/-- The first command of a queue that has not executed is in progress as its core is told to stop. -/
def markUnderWay : List EngCmd → List EngCmd
  | [] => []
  | e :: r => if e.done then e :: markUnderWay r else { e with underWay := true } :: r

/-- The commands that the engines of core k run are marked as in progress: they stop at their points of Table 16.3, and no other
starts (R450, R457). -/
def stopEngines (k : Nat) (s : State) : State :=
  let c := s.coreAt k
  s.setCore k { c with te0 := markUnderWay c.te0, te1 := markUnderWay c.te1, se := markUnderWay c.se }

end Sys2Proof.Machine
end

