-- ==== Sys2Proof/Machine/MeOps.lean ====
section
/-!
DEFINITION. The stream engine's shared operations (chapter 04, R116 to R134; chapter 16, R454): descriptors, local copies,
request lists, and responses that reach an entry in residence or out of it.
-/
namespace Sys2Proof.Machine
open Sys2Proof

/-- A descriptor taken apart (Table 4.6). -/
structure Desc where
  op : Nat
  cnt : Nat
  ctl : Nat
  len : Nat
  rows : Nat
  cols : Nat
  aux32 : Nat
  src : Nat
  dst : Nat
  srcStride : Nat
  dstStride : Nat
  aux : Nat
  /-- Reserved bits are zero. -/
  clean : Bool
deriving DecidableEq, Repr

/-- Reads a descriptor. -/
def readDesc (b : BitVec 512) : Desc :=
  let v := b.toNat
  { op := bitsAt v 0 8, cnt := bitsAt v 8 6, ctl := bitsAt v 16 16, len := bitsAt v 32 32, rows := bitsAt v 64 16,
    cols := bitsAt v 80 16, aux32 := bitsAt v 96 32, src := bitsAt v 128 64, dst := bitsAt v 192 64, srcStride := bitsAt v 256 32,
    dstStride := bitsAt v 288 32, aux := bitsAt v 320 64, clean := bitsAt v 384 128 == 0 && !bitAt v 15 }

/-- A count where 0 is read as 1. -/
def oneIfZero (n : Nat) : Nat := if n = 0 then 1 else n

/-- Whether a fabric-form address is a device address (R116). -/
def isDevAddr (a : Nat) : Bool := decide (a < 2 ^ 40)

/-- The requester that a thread's core serves. -/
def whoOf (s : State) (t : Nat) : Who := coreHolder s (t / 8)

/-- Copies at most 16 bytes that lie in one source word, with its poison (R122). -/
def copySeg (cluster : Nat) (who : Who) (src dst n : Nat) (s : State) : Bool × State :=
  let r := coreRead cluster who src n s
  let merged := mergesPoison dst r.1.bytes r.2 && !cached s cluster who dst
  (r.1.poison || merged, coreWrite cluster who dst r.1.bytes r.1.poison r.2)

/-- The segments of n bytes at an address that lie in one 16-byte word each, as (offset, length). -/
def wordSegs (a n : Nat) : List (Nat × Nat) :=
  if n = 0 then []
  else (List.range ((a + n - 1) / 16 - a / 16 + 1)).map fun i =>
    let lo := max a (16 * (a / 16 + i))
    (lo - a, min (a + n) (16 * (a / 16 + i + 1)) - lo)

/-- Copies n bytes word by word; answers whether poison was met. -/
def copyBytes (cluster : Nat) (who : Who) (src dst n : Nat) (s : State) : Bool × State :=
  (wordSegs src n).foldl (fun p q =>
    let r := copySeg cluster who (src + q.1) (dst + q.1) q.2 p.2
    (p.1 || r.1, r.2)) (false, coreStall cluster who dst n (coreStall cluster who src n s))

/-- The status of a descriptor after a further request, in issue order: the first failure, else poison (R120, R122). Log 79 (DESIGN CHOICE). -/
def nextStatus (a b : Nat) : Nat := if a = stOk ∨ (a = stPoison ∧ b ≠ stOk) then b else a

/-- One write request of a move from device memory (R251, R252, R599): bytes to memory, or a job for a port. -/
def movePiece (t : Nat) (who : Who) (src dst n : Nat) (s : State) : Nat × State :=
  match jobWrite who dst n with
  | some p =>
    if ¬ mayAccess s who src n then (stBadParam, s)
    else
      let r := coreRead (t / 64) who src n (coreStall (t / 64) who src n s)
      (if r.1.poison then stPoison else stOk, pushJob p (t / 8) who r.1.bytes r.2)
  | none =>
    if ¬ mayAccess s who src n ∨ ¬ mayAccess s who dst n then (stBadParam, s)
    else
      let r := copyBytes (t / 64) who src dst n s
      (if r.1 then stPoison else stOk, r.2)

/-- Moves n bytes of a thread in requests of at most 256 bytes of one source granule (R119): each is checked as it is performed
(R599), and the move stops at the first that is refused (R120). -/
def moveRow (t : Nat) (who : Who) (src dst n : Nat) (p : Nat × State) : Nat × State :=
  (linePieces src n).foldl (fun p q =>
    if p.1 ≠ stOk ∧ p.1 ≠ stPoison then p
    else
      let r := movePiece t who q.1 (dst + (q.1 - src)) q.2 p.2
      (nextStatus p.1 r.1, r.2)) p

/-! ### Entries, in residence and out of it (R134, R454) -/

/-- Where an entry is: in a live queue, in a queue kept aside for a context, or in a long image. -/
inductive Home where
  | live
  | aside (ctx : Nat)
  | image (ctx : Nat)
deriving DecidableEq, Repr

/-- The entry of an identifier among the queues of a core, and its queue key. -/
def findIn (c : Core) (id : Nat) : Option (Nat × MeEntry) :=
  c.me.findSome? fun q => (q.2.find? (·.id == id)).map fun e => (q.1, e)

/-- Finds an entry of core k by its identifier. -/
def findEntry (s : State) (k id : Nat) : Option (Home × Nat × MeEntry) :=
  match findIn (s.coreAt k) id with
  | some (key, e) => some (if key < 8 then .live else .aside (key / 8 - 1), key, e)
  | none => s.core.ctxs.findSome? fun c =>
      match Tab.get none c.2.saved k with
      | some core => (findIn core id).map fun q => (.image c.1, q.1, q.2)
      | none => none

/-- Changes the core that a home names. -/
def updHomeCore (k : Nat) (h : Home) (f : Core → Core) (s : State) : State :=
  match h with
  | .image c =>
    match Tab.get none (s.ctx c).saved k with
    | some core => s.setCtx c { s.ctx c with saved := Tab.set none (s.ctx c).saved k (some (f core)) }
    | none => s
  | _ => s.setCore k (f (s.coreAt k))

/-- Changes the thread context that a home names. -/
def updHomeThread (t : Nat) (h : Home) (f : Thread → Thread) (s : State) : State :=
  match h with
  | .live => s.setThread t (f (s.thread t))
  | .image c =>
    let x := s.ctx c
    s.setCtx c { x with savedThreads := Tab.upd Thread.reset x.savedThreads t f }
  | .aside c =>
    let k := t / 8
    let core := s.coreAt k
    let sl := (Tab.get none core.slots c).getD Slot.empty
    let i := t % 8
    let x := f { Thread.reset with
      outstanding := sl.outstanding.getD i 0, outRemote := sl.outRemote.getD i 0, fault := sl.faults.getD i 0 }
    let sl' := { sl with outstanding := sl.outstanding.set i x.outstanding, outRemote := sl.outRemote.set i x.outRemote,
                         faults := sl.faults.set i x.fault }
    s.setCore k { core with slots := Tab.set none core.slots c (if sl.gone then sl'.left else some sl') }

/-- Replaces or removes an entry of a queue. -/
def putEntry (k : Nat) (h : Home) (key id : Nat) (e : Option MeEntry) (s : State) : State :=
  updHomeCore k h (fun c =>
    let q := Tab.get [] c.me key
    { c with me := Tab.set [] c.me key (match e with
        | some x => q.map fun y => if y.id = id then x else y
        | none => q.filter (·.id != id)) }) s

/-- A retirement into a counter of the context at home h. -/
def homeRetire (k : Nat) (h : Home) (i status : Nat) (nan ovf : Bool) (s : State) : State :=
  match h with
  | .aside c =>
    let core := s.coreAt k
    let sl := (Tab.get none core.slots c).getD Slot.empty
    s.setCore k { core with slots := Tab.set none core.slots c (some { sl with
      cnt := Tab.upd Cnt.reset sl.cnt i (retireCnt status nan ovf) }) }
  | _ => updHomeCore k h (retireInto i status nan ovf) s

/-- Whether an entry may retire: all its requests are issued and acknowledged (R118). -/
def MeEntry.finished (e : MeEntry) : Bool := e.started && e.todo == [] && e.outstanding == 0

/-- Retires the head entry of a queue (R118, R123): a descriptor advances its counter and its block exponent. -/
def retireHead (t key : Nat) (h : Home) (e : MeEntry) (s : State) : State :=
  let k := t / 8
  let s1 := putEntry k h key e.id none s
  if e.kind ≠ 0 then s1
  else
    let s2 := homeRetire k h (readDesc e.block).cnt e.status e.nan e.ovf s1
    match e.bexp with
    | some (i, sh) => updHomeCore k h (fun c => { c with bexp := Tab.upd Bexp.reset c.bexp i fun b =>
        { exp := BitVec.ofInt 16 (b.exp.toInt - sh), headroom := 0x3F } }) s2
    | none => s2

/-- Retires finished heads of a queue that is out of residence, each one update of the saved state (R454). -/
def retireAside (t key : Nat) (h : Home) : Nat → State → State
  | 0, s => s
  | n + 1, s =>
    let q := match h with
      | .image c => ((Tab.get none (s.ctx c).saved (t / 8)).map fun (x : Core) => Tab.get [] x.me key).getD []
      | _ => Tab.get [] (s.coreAt (t / 8)).me key
    match q with
    | e :: _ => if e.finished then retireAside t key h n (retireHead t key h e s) else s
    | [] => s

/-- One update applied to a context's saved state (R454). -/
def countSaved (h : Home) (s : State) : State :=
  match h with
  | .live => s
  | .aside c => ctxCount c 5 s
  | .image c => ctxCount c 5 s

/-- Where a context's switch state for core k is: on the core, in the long image, or in its slot. -/
def ctxHome (s : State) (k ctx : Nat) : Option Home :=
  if (s.coreAt k).resident = some ctx then some .live
  else if ctx = 256 ∧ s.plates.ranCores.getLsbD k then some .live
  else if (Tab.get none (s.ctx ctx).saved k).isSome then some (.image ctx)
  else if (Tab.get none (s.coreAt k).slots ctx).isSome then some (.aside ctx)
  else none

/-- A retirement with its flags into one of the 64 counters of a context's core, in residence or out of it. -/
def retireFlags (ctx k cnt status : Nat) (nan ovf : Bool) (s : State) : State :=
  match (if cnt < 64 then ctxHome s k ctx else none) with
  | none => s
  | some h => (if h = .live then wakeCounters k else countSaved h) (homeRetire k h cnt status nan ovf s)

/-- A retirement into a counter of a context's core. -/
def retireFor (ctx k cnt status : Nat) (s : State) : State := retireFlags ctx k cnt status false false s

/-! ### Writes to fabric addresses (R342, R356) -/

/-- A write that names this device's own hall number is performed here (R342): whether a stored word stayed poisoned, or none where the
home refuses it. `mine` are the sources of stores that are the writer's own. -/
def ownWrite (f : FabAddr) (n : Nat) (ws : List (BitVec 144)) (mine : Nat → Bool) (s : State) : Option (Bool × State) :=
  (homeAddress s f.level f.window f.offset n).map fun a =>
    let be := byteEnables f.offset n
    let r := homeWrite (homeWho s f.level f.window) a n be.1 be.2 ws (storeRace mine a n s)
    (r.1, notifyWindow (fun ctx core cnt s => retireFor ctx core cnt stOk s) f.level f.window r.2)

/-- A write of a device block (R342): performed here when it names this device, where a refused one is dropped, else sent. -/
def deviceWrite (req : Requester) (owner vc a n : Nat) (ws : List (BitVec 144)) (s : State) : Option State :=
  let f := readFabAddr a
  if targetHall s f = s.fab.hall then some (((ownWrite f n ws (fun _ => false) s).map Prod.snd).getD s)
  else sendRequest req owner vc a n 2 0 0 0 false ws false s

/-- Sends the mirrored piece that is first in line; none if there is none or no tag is free. One whose request is not permitted is
dropped (R220, R348). -/
def sendPiece (s : State) : Option State :=
  match s.rad.mirrorOut with
  | [] => none
  | (cn, a, bs) :: rest =>
    let s1 := { s with rad := { s.rad with mirrorOut := rest } }
    if issueCheck s 256 a bs.length 2 ≠ stOk then some s1
    else deviceWrite (.mirror cn) 256 1 a bs.length (bytesWords a bs) s1

/-- Sends the pieces of mirror records that wait, in order, while tags are free (R220): at most n of them. A piece whose window or
peer forbids it is not sent (R341, R352). Log 45 (DESIGN CHOICE). -/
def pumpMirror : Nat → State → State
  | 0, s => s
  | n + 1, s =>
    match sendPiece s with
    | none => s
    | some t => pumpMirror n t

/-- The status of an entry with that of its request of issue number n: of several failures the one issued first is held, and a
failure before poison (R120). Log 79 (DESIGN CHOICE). -/
def MeEntry.note (n st : Nat) (e : MeEntry) : MeEntry :=
  if st = stOk ∨ (st = stPoison ∧ e.status ≠ stOk) then e
  else if e.status = stOk ∨ e.status = stPoison ∨ n < e.statusAt then { e with status := st, statusAt := n }
  else e

/-- An LDX or STX ends with a status (R103): its register is written and its pending bit clears, or its context halts. A response
that comes after its context halted, when the context runs a later plate command, acts on that command: log 79 (DESIGN CHOICE). -/
def finishLd (t : Nat) (h : Home) (e : MeEntry) (status : Nat) (v : Word) (s : State) : State :=
  let clear := fun (x : Thread) => { x with pendingMask := x.pendingMask &&& ~~~ BitVec.ofNat 32 (2 ^ e.reg) }
  if status = stOk then
    (if e.kind = 1 then updHomeThread t h (fun x => (clear x).setReg e.reg v) s else s)
  else
    let s1 := if e.kind = 1 then updHomeThread t h clear s else s
    match h with
    | .live => haltThread t status s1
    | _ => updHomeThread t h (fun x => { x with state := 7, fault := BitVec.ofNat 16 status, live := false }) s1

/-- The request of issue number n of an entry has been acknowledged (R118, R132, R454): its counts fall, its status is recorded, and what
waits for it goes on. -/
def acknowledge (t id n status : Nat) (remote : Bool) (v : Word) (s : State) : State :=
  let k := t / 8
  match findEntry s k id with
  | none => s
  | some (h, key, e) =>
    let stop := status ≠ stOk ∧ status ≠ stPoison
    let e' := ({ e with outstanding := e.outstanding - 1, todo := if stop then [] else e.todo } : MeEntry).note n status
    let s1 := putEntry k h key id (some e') s
    let s2 := updHomeThread t h (fun x =>
      { x with outstanding := x.outstanding - 1, outRemote := if remote then x.outRemote - 1 else x.outRemote }) s1
    let s3 := countSaved h s2
    let s4 := if e.kind = 0 then s3 else finishLd t h e status v (putEntry k h key id none s3)
    if h = .live then wakeFence t s4 else retireAside t key h 8 s4

/-- Writes data that a response brought for a thread's entry, if the requester still holds the place (R599). -/
def landMemory (who : Who) (t loc off len : Nat) (words : List (BitVec 144)) (s : State) : Nat × State :=
  let cluster := t / 64
  if ¬ mayAccess s who loc len then (stBadParam, s)
  else
    let m := coveredWords off len
    (List.range m).foldl (fun p i =>
      let d := readWord (words.getD i 0)
      let lo := if i = 0 then off % 16 else 0
      let hi := if i + 1 = m then (off + len - 1) % 16 + 1 else 16
      let at_ := loc + (16 * i + lo - off % 16)
      let bs := sliceBytes (leBytes 16 d.1.toNat) lo (hi - lo)
      (firstStatus p.1 (if d.2 then stPoison else stOk), coreWrite cluster who at_ bs d.2 p.2)) (stOk, coreStall cluster who loc len s)

/-- Lands the data of a response: in memory, or as a job at a port (R252). -/
def landData (who : Who) (t loc off len : Nat) (words : List (BitVec 144)) (s : State) : Nat × State :=
  match jobWrite who loc len with
  | none => landMemory who t loc off len words s
  | some p =>
    let ds := (List.range (coveredWords off len)).map fun i => readWord (words.getD i 0)
    let bs := sliceBytes (ds.flatMap fun d => leBytes 16 d.1.toNat) (off % 16) len
    (if ds.any Prod.snd then stPoison else stOk, pushJob p (t / 8) who bs s)

/-- The value of 8 bytes at an offset of a response's words, and whether it is poisoned. -/
def wordsValue (off : Nat) (words : List (BitVec 144)) : Word × Bool :=
  let d := readWord (words.getD 0 0)
  (BitVec.ofNat 64 (ofLE (sliceBytes (leBytes 16 d.1.toNat) (off % 16) 8)), d.2)

/-! ### Starting descriptors -/

/-- The first entry of a thread's queue that has not started, if every entry before it has issued its last request
(R118). -/
def nextEntry (s : State) (t : Nat) : Option MeEntry :=
  match (s.meQueue t).find? fun e => !e.started || e.todo != [] with
  | some e => if e.started then none else some e
  | none => none

/-- Whether the engines of a core may start or issue anything (R450). -/
def coreRuns (s : State) (k : Nat) : Bool :=
  match (s.coreAt k).resident with
  | none => true
  | some c => !(decide (3 ≤ (s.ctx c).state ∧ (s.ctx c).state ≤ 5) || ((s.ctx c).state == 2 && (s.ctx c).mode == 1))

/-- Whether a TE or the SE of a core may start a queued command: not on a parked compute core either (R457). Log 33 (DEDUCED). -/
def engineRuns (s : State) (k : Nat) : Bool := coreRuns s k && (!s.dev.pwr.tripOn || s.plates.ranCores.getLsbD k)

/-- Whether an engine of a core may execute a command of its queue: one with PMARK 0 that was in progress at a stop completes
(R450, R457, Table 16.3). -/
def cmdRuns (s : State) (k : Nat) (e : EngCmd) : Bool := engineRuns s k || (e.underWay && !e.pmark)

/-- Whether a thread's ME may start or issue anything (R450). A descriptor with PMARK 0 that has issued some of its requests stops
in mode 1 like any other: log 85 (DESIGN CHOICE). -/
def meRuns (s : State) (t : Nat) : Bool := coreRuns s (t / 8)

/-- A descriptor starts and has no request left to issue: its status and flags stand. -/
def finishDesc (t : Nat) (e : MeEntry) (status : Nat) (s : State) : State :=
  putEntry (t / 8) .live (t % 8) e.id (some { e with started := true, todo := [], status := firstStatus e.status status }) s

/-- A descriptor starts with requests to issue; a status that it already has comes after theirs in issue order (R120). -/
def startDesc (t : Nat) (e : MeEntry) (todo : List MeReq) (status : Nat) (s : State) : State :=
  putEntry (t / 8) .live (t % 8) e.id
    (some { e with started := true, todo := todo, status := status, statusAt := e.sent + todo.length }) s

/-- The opcodes of Table 4.7. -/
def meOps : List Nat := [0x20, 0x21, 0x22, 0x23, 0x24, 0x25, 0x26, 0x30, 0x31, 0x32, 0x33, 0x34]

/-- Whether a device-level request that a thread issued earlier still waits at its home: a later descriptor starts after it, so
that requests of one source to one address keep program order (R17). -/
def devWaits (s : State) (t : Nat) : Bool := s.core.devReqs.any fun q => q.thread == t

/-- The shape of a descriptor's start: the next entry of the thread's queue is a descriptor of this operation; a
field out of range completes it unperformed (R117, R598). `unknown` also takes opcodes that Table 4.7 does not list. -/
def runDesc (t : BitVec 12) (op : Nat) (unknown : Bool) (ok : State → Desc → Bool)
    (f : Nat → MeEntry → Desc → State → State) (s : State) : Host.Outcome State Fault Refusal :=
  let n := t.toNat
  match nextEntry s n with
  | none => .next s
  | some e =>
    let d := readDesc e.block
    if e.kind ≠ 0 ∨ ¬ meRuns s n ∨ devWaits s n then .next s
    else if unknown ∧ ¬ meOps.contains d.op then .next (finishDesc n e stBadOpcode s)
    else if d.op ≠ op then .next s
    else if ¬ d.clean ∨ ¬ ok s d then .next (finishDesc n e stBadParam s)
    else .next (f n e d s)

end Sys2Proof.Machine
end

