-- ==== Sys2Proof/Machine/StreamEngine.lean ====
section
/-!
DEFINITION. Stream engine descriptors (chapter 04, R117 to R131): moves, gathers, scatters, transposes, hashes, cache
maintenance, fabric transfers, atomics, the issue of requests and the retirement of descriptors.
-/
namespace Sys2Proof.Machine
open Sys2Proof

/-- Whether no row of one strided range meets a row of another, unless they begin together (R124). -/
def rowsDisjoint (src sStride dst dStride rows len : Nat) : Bool :=
  src == dst || (List.range rows).all fun i => (List.range rows).all fun j =>
    let a := src + i * sStride
    let b := dst + j * dStride
    decide (a + len ≤ b ∨ b + len ≤ a)

/-- Scales one component of n bits (R123). -/
def scaleComponent (n : Nat) (sh : Int) (v : Nat) : Nat :=
  let x := signed n v
  unsigned n (if 0 ≤ sh then x * 2 ^ sh.toNat else roundHalfUp x (-sh).toNat)

/-- The bytes of one row scaled component by component, each with its poison (R123). -/
def scaledRow (cluster : Nat) (who : Who) (comp : Nat) (sh : Int) (src n : Nat) (s : State) : List (List Byte × Bool) × State :=
  (List.range (n / comp)).foldl (fun (a : List (List Byte × Bool) × State) i =>
    let r := coreRead cluster who (src + comp * i) comp a.2
    (a.1 ++ [(leBytes comp (scaleComponent (8 * comp) sh (ofLE r.1.bytes)), r.1.poison)], r.2)) ([], coreStall cluster who src n s)

/-- The bytes of a row whose requests, from the first on, a requester may make at both ends (R119, R599). -/
def reachable (s : State) (who : Who) (src dst n : Nat) : Nat :=
  (((linePieces src n).takeWhile fun q => mayAccess s who q.1 q.2 && mayAccess s who (dst + (q.1 - src)) q.2).map Prod.snd).sum

/-- Moves one row of a thread with a scaling shift (R123): a component of a poisoned word is written poisoned, and a job goes to
its port in one request (R252). -/
def scaleRow (t : Nat) (who : Who) (comp : Nat) (sh : Int) (src dst n : Nat) (p : Nat × State) : Nat × State :=
  match jobWrite who dst n with
  | some port =>
    if ¬ mayAccess p.2 who src n ∨ src % 256 + n > 256 then (nextStatus p.1 stBadParam, p.2)
    else
      let r := scaledRow (t / 64) who comp sh src n p.2
      (nextStatus p.1 (if r.1.any Prod.snd then stPoison else stOk), pushJob port (t / 8) who (r.1.flatMap Prod.fst) r.2)
  | none =>
    let m := reachable p.2 who src dst n
    let parts := scaledRow (t / 64) who comp sh src m p.2
    let s1 := coreWrite (t / 64) who dst (parts.1.flatMap Prod.fst) false (coreStall (t / 64) who dst m parts.2)
    let r := (List.range (m / comp)).foldl (fun (q : Nat × State) i =>
      match parts.1[i]? with
      | some (bs, true) => (nextStatus q.1 stPoison, coreWrite (t / 64) who (dst + comp * i) bs true q.2)
      | _ => q) (p.1, s1)
    if m < n then (nextStatus r.1 stBadParam, r.2) else r

/-- The fields of a MOVE (R117, Table 4.8): with SHIFT 0 it uses neither BEXP nor GUARD nor ELEM. -/
def moveOk (d : Desc) : Bool :=
  isDevAddr d.src && isDevAddr d.dst && d.cols == 0 && d.aux32 == 0 && d.aux == 0 &&
    (d.ctl == 0 || (bitsAt d.ctl 0 2 == 1 && decide (d.ctl < 2 ^ 11) && d.len % (if bitAt d.ctl 2 then 4 else 2) == 0))

/-- The scaling shift of a MOVE (R123): HEADROOM less GUARD, or 0 where HEADROOM is not measured. -/
def moveShift (s : State) (n : Nat) (d : Desc) : Int :=
  let bx := Tab.get Bexp.reset (s.coreAt (n / 8)).bexp (bitsAt d.ctl 7 4)
  if bx.headroom = 0x3F then 0 else (bx.headroom.toNat : Int) - (bitsAt d.ctl 3 4 : Nat)

/-- Whether a row of n bytes at an address is a job for a port that is full (R252). -/
def jobHeld (s : State) (who : Who) (a n : Nat) : Bool :=
  match jobWrite who a n with
  | some p => portFull s p
  | none => false

/-- Moves one row of a descriptor inside the device: scaled by the shift that a MOVE holds for its retirement, or as it is (R122, R123). -/
def localRow (t : Nat) (who : Who) (e : MeEntry) (q : MeReq) (p : Nat × State) : Nat × State :=
  match e.bexp with
  | some (_, sh) => if sh = 0 then moveRow t who q.remote q.loc q.len p
      else scaleRow t who (if bitAt (readDesc e.block).ctl 2 then 4 else 2) sh q.remote q.loc q.len p
  | none => moveRow t who q.remote q.loc q.len p

/-- Moves rows in order until one waits at a full port (R252) or fails (R120): the rows left, the status and the state. -/
def moveRows (t : Nat) (who : Who) (e : MeEntry) : List MeReq → Nat × State → List MeReq × Nat × State
  | [], p => ([], p)
  | q :: l, p =>
    if p.1 ≠ stOk ∧ p.1 ≠ stPoison then ([], p)
    else if jobHeld p.2 who q.loc q.len then (q :: l, p)
    else moveRows t who e l (localRow t who e q p)

/-- A descriptor of rows inside the device starts: those that a full port makes wait go on as requests. `st` is the status of
what ended its list. -/
def startRows (t : Nat) (e : MeEntry) (rows : List MeReq) (st : Nat) (s : State) : State :=
  let r := moveRows t (whoOf s t) e rows (stOk, s)
  startDesc t e r.1 (nextStatus r.2.1 st) r.2.2

/-- A move that overlaps itself leaves bytes the spec does not state (R124): every row it may write is free. -/
def overlapRows (t : Nat) (who : Who) (d : Desc) (s : State) : Nat × State :=
  (List.range (oneIfZero d.rows)).foldl (fun (p : Nat × State) i =>
    let a := d.src + i * d.srcStride
    let b := d.dst + i * d.dstStride
    let f := p.2.drawBytes d.len
    if mayAccess p.2 who a d.len ∧ mayAccess p.2 who b d.len then
      (p.1, coreWrite (t / 64) who b f.1 false (coreStall (t / 64) who b d.len f.2))
    else (nextStatus p.1 stBadParam, p.2)) (stOk, s)

/-- MOVE (R117, R122 to R124, R252): rows of bytes, scaled blocks, or jobs for a port; a row waits while its port is full. -/
def execMeMove (t : BitVec 12) (s : State) : Host.Outcome State Fault Refusal :=
  runDesc t 0x20 true (fun _ d => moveOk d)
    (fun n e d s =>
      let e1 := if bitsAt d.ctl 0 2 = 1 then { e with bexp := some (bitsAt d.ctl 7 4, moveShift s n d) } else e
      if ¬ rowsDisjoint d.src d.srcStride d.dst d.dstStride (oneIfZero d.rows) d.len then
        let r := overlapRows n (whoOf s n) d s
        finishDesc n e1 r.1 r.2
      else
        startRows n e1 ((List.range (oneIfZero d.rows)).map fun i =>
          { kind := 5, remote := d.src + i * d.srcStride, loc := d.dst + i * d.dstStride, len := d.len }) stOk s) s

/-- The index list of a gather or scatter (R125): the indices before the first poisoned one, and whether there is one. -/
def readIndices (cl : Nat) (who : Who) (d : Desc) (s : State) : List Nat × Nat × State :=
  let w := if bitAt d.ctl 0 then 8 else 4
  (List.range d.aux32).foldl (fun (a : List Nat × Nat × State) i =>
    if a.2.1 ≠ stOk then a
    else if ¬ mayAccess a.2.2 who (d.aux + w * i) w then (a.1, stBadParam, a.2.2)
    else
      let r := coreRead cl who (d.aux + w * i) w (coreStall cl who (d.aux + w * i) w a.2.2)
      if r.1.poison then (a.1, stPoison, r.2) else (a.1 ++ [ofLE r.1.bytes], stOk, r.2)) ([], stOk, s)

/-- Requests of n bytes between a remote address and a local one, none across a 256-byte remote boundary (R119). -/
def remotePieces (kind remote loc n : Nat) : List MeReq :=
  (linePieces remote n).map fun q => { kind := kind, remote := q.1, loc := loc + (q.1 - remote), len := q.2 }

/-- Common fields of GATHER and SCATTER. -/
def indexedOk (d : Desc) : Bool :=
  isDevAddr d.aux && d.cols == 0 && decide (d.rows ≤ 1 ∧ 1 ≤ d.aux32 ∧ d.aux32 ≤ 1048576 ∧ d.ctl ≤ 1)

/-- GATHER (R125): list entries are processed in order and the first poisoned index ends it. -/
def execMeGather (t : BitVec 12) (s : State) : Host.Outcome State Fault Refusal :=
  runDesc t 0x21 false (fun _ d => indexedOk d && isDevAddr d.dst && (isDevAddr d.src || d.src / 2 ^ 62 == 1)) (fun n e d s =>
    let who := whoOf s n
    let cl := n / 64
    let ix := readIndices cl who d s
    let pairs := (List.range ix.1.length).map fun i => (d.src + ix.1.getD i 0 * d.srcStride, d.dst + i * d.dstStride)
    if isDevAddr d.src then
      startRows n e (pairs.map fun q => { kind := 5, remote := q.1, loc := q.2, len := d.len }) ix.2.1 ix.2.2
    else startDesc n e (pairs.flatMap fun q => remotePieces 0 q.1 q.2 d.len) ix.2.1 ix.2.2) s

/-- SCATTER (R125). -/
def execMeScatter (t : BitVec 12) (s : State) : Host.Outcome State Fault Refusal :=
  runDesc t 0x22 false (fun _ d => indexedOk d && isDevAddr d.src && (isDevAddr d.dst || d.dst / 2 ^ 62 == 1)) (fun n e d s =>
    let who := whoOf s n
    let cl := n / 64
    let ix := readIndices cl who d s
    let pairs := (List.range ix.1.length).map fun i => (d.src + i * d.srcStride, d.dst + ix.1.getD i 0 * d.dstStride)
    if isDevAddr d.dst then
      startRows n e (pairs.map fun q => { kind := 5, remote := q.1, loc := q.2, len := d.len }) ix.2.1 ix.2.2
    else startDesc n e (pairs.flatMap fun q => remotePieces 1 q.2 q.1 d.len) ix.2.1 ix.2.2) s

/-- TRANSPOSE (R126). -/
def execMeTranspose (t : BitVec 12) (s : State) : Host.Outcome State Fault Refusal :=
  runDesc t 0x23 false (fun _ d =>
    let es := 2 ^ d.ctl
    isDevAddr d.src && isDevAddr d.dst && d.len == 0 && d.aux32 == 0 && d.aux == 0 && decide (d.ctl < 4) &&
      decide (oneIfZero d.rows * es ≤ d.dstStride ∧ oneIfZero d.cols * es ≤ d.srcStride)) (fun n e d s =>
    let who := whoOf s n
    let cl := n / 64
    let es := 2 ^ d.ctl
    let r := (List.range (oneIfZero d.rows)).foldl (fun (p : Nat × State) i =>
      (List.range (oneIfZero d.cols)).foldl (fun (p : Nat × State) j =>
        let a := d.src + i * d.srcStride + j * es
        let b := d.dst + j * d.dstStride + i * es
        if p.1 = stBadParam then p
        else if ¬ mayAccess p.2 who a es ∨ ¬ mayAccess p.2 who b es then (nextStatus p.1 stBadParam, p.2)
        else
          let c := copyBytes cl who a b es p.2
          (nextStatus p.1 (if c.1 then stPoison else stOk), c.2)) p) (stOk, s)
    finishDesc n e r.1 r.2) s

/-- Reads a byte string for a thread's stream engine, if it may. -/
def meBytes (n a len : Nat) (s : State) : Option ReadOut × State :=
  if ¬ mayAccess s (whoOf s n) a len then (none, s)
  else
    let r := coreRead (n / 64) (whoOf s n) a len (coreStall (n / 64) (whoOf s n) a len s)
    (some r.1, r.2)

/-- Writes a byte string for a thread's stream engine, if it may; answers a status. -/
def putFor (who : Who) (n a : Nat) (bs : List Byte) (poison : Bool) (s : State) : Nat × State :=
  if ¬ mayAccess s who a bs.length then (stBadParam, s)
  else (stOk, coreWrite (n / 64) who a bs poison (coreStall (n / 64) who a bs.length s))

/-- Writes a byte string for the thread's own holder. -/
def mePut (n a : Nat) (bs : List Byte) (poison : Bool) (s : State) : Nat × State := putFor (whoOf s n) n a bs poison s

/-- The fields a HASH of a mode uses (R128). -/
def hashOk (mode : Nat) (d : Desc) : Bool :=
  isDevAddr d.src && isDevAddr d.dst && isDevAddr d.aux && d.cols == 0 && d.aux32 == 0 && d.srcStride == 0 && d.dstStride == 0 &&
    decide (d.rows ≤ 1) && d.ctl == mode &&
    (match mode with
     | 0 => d.aux == 0
     | 1 => d.dst == 0
     | _ => d.src == 0 && d.len == 0)

/-- A descriptor of HASH in one mode, the modes above 2 taken as bad parameters by the first. -/
def runHash (t : BitVec 12) (mode : Nat) (f : Nat → MeEntry → Desc → State → State) (s : State) :
    Host.Outcome State Fault Refusal :=
  match nextEntry s t.toNat with
  | none => .next s
  | some e =>
    let d := readDesc e.block
    let m := d.ctl % 4
    if d.op = 0x25 ∧ m ≠ mode ∧ ¬ (mode = 0 ∧ m = 3) then .next s
    else runDesc t 0x25 false (fun _ d => hashOk mode d) f s

/-- HASH of mode 0: the digest of LEN bytes at SRC. -/
def execHashOneshot (t : BitVec 12) (s : State) : Host.Outcome State Fault Refusal :=
  runHash t 0 (fun n e d s =>
    match meBytes n d.src d.len s with
    | (none, s1) => finishDesc n e stBadParam s1
    | (some r, s1) =>
      let w := mePut n d.dst (sha256 r.bytes) r.poison s1
      finishDesc n e (firstStatus w.1 (if r.poison then stPoison else stOk)) w.2) s

/-- The chaining value, length and partial block of a digest state block (Table 4.9). -/
def readState (b : List Byte) : List (BitVec 32) × Nat × List Byte :=
  let len := fld b 32 8
  (if len = 0 then shaInit else (List.range 8).map fun i => BitVec.ofNat 32 (fldBE b (4 * i) 4), len,
   sliceBytes b 40 (len % 64))

/-- The digest state block of a chaining value, length and partial block. -/
def writeState (h : List (BitVec 32)) (len : Nat) (part : List Byte) : List Byte :=
  placeBytes (placeBytes (placeBytes (List.replicate 128 0) 0 (h.flatMap fun w => beBytes 4 w.toNat)) 32 (leBytes 8 len)) 40 part

/-- HASH of mode 1: appends LEN bytes at SRC to the message of the state block at AUX. -/
def execHashAppend (t : BitVec 12) (s : State) : Host.Outcome State Fault Refusal :=
  runHash t 1 (fun n e d s =>
    match meBytes n d.src d.len s with
    | (none, s1) => finishDesc n e stBadParam s1
    | (some r, s1) =>
      match meBytes n d.aux 128 s1 with
      | (none, s2) => finishDesc n e stBadParam s2
      | (some b, s2) =>
        let st := readState b.bytes
        let msg := st.2.2 ++ r.bytes
        let whole := msg.length / 64 * 64
        let h := shaFold st.1 (msg.take whole)
        let poison := r.poison || b.poison
        let w := mePut n d.aux (writeState h (st.2.1 + d.len) (msg.drop whole)) poison s2
        finishDesc n e (firstStatus w.1 (if poison then stPoison else stOk)) w.2) s

/-- HASH of mode 2: pads the message, writes the digest and clears the state block. -/
def execHashFinal (t : BitVec 12) (s : State) : Host.Outcome State Fault Refusal :=
  runHash t 2 (fun n e d s =>
    match meBytes n d.aux 128 s with
    | (none, s1) => finishDesc n e stBadParam s1
    | (some b, s1) =>
      let st := readState b.bytes
      let tail := st.2.2 ++ shaPad st.2.1
      let dig := (shaFold st.1 tail).flatMap fun w => beBytes 4 w.toNat
      let w := mePut n d.dst dig b.poison s1
      let z := mePut n d.aux (List.replicate 128 0) false w.2
      finishDesc n e (firstStatus w.1 (firstStatus z.1 (if b.poison then stPoison else stOk))) z.2) s

/-- WB (R115): every cache line that a byte of a row touches is written back, invalidated or both. -/
def execMeWb (t : BitVec 12) (s : State) : Host.Outcome State Fault Refusal :=
  runDesc t 0x26 false (fun _ d =>
    isDevAddr d.dst && d.src == 0 && d.srcStride == 0 && d.cols == 0 && d.aux32 == 0 && d.aux == 0 && decide (d.ctl ≤ 2))
    (fun n e d s =>
      let who := whoOf s n
      let cl := n / 64
      let back := d.ctl != 1
      let drop := d.ctl != 0
      let lines := (List.range (oneIfZero d.rows)).flatMap fun i => linePieces (d.dst + i * d.dstStride) d.len
      finishDesc n e stOk (lines.foldl (fun s q =>
        match findLine s (cacheWays s cl who) q.1 with
        | none => s
        | some w =>
          let i := lineIndex w q.1
          let s1 := if back then writeBackLine s i else s
          if drop then s1.setLine i none else s1) s)) s

/-- Common fields of a fabric transfer (R129, R343): `r` is the side that is remote, at a level. -/
def transferOk (d : Desc) (remote loc level : Nat) : Bool :=
  isDevAddr loc && remote / 2 ^ 62 == level && fabAddrOk remote && remote % 16 == loc % 16 && d.cols == 0 && d.aux32 == 0 &&
    d.aux == 0 && d.ctl == 0

/-- A fabric transfer's requests, rows in ascending order (R118, R119). -/
def transfer (kind : Nat) (n : Nat) (e : MeEntry) (d : Desc) (remote loc rStride lStride : Nat) (s : State) : State :=
  startDesc n e ((List.range (oneIfZero d.rows)).flatMap fun i =>
    remotePieces kind (remote + i * rStride) (loc + i * lStride) d.len) stOk s

/-- FLOAD (R129): a rack load. -/
def execMeFload (t : BitVec 12) (s : State) : Host.Outcome State Fault Refusal :=
  runDesc t 0x30 false (fun _ d => transferOk d d.src d.dst 1)
    (fun n e d s => transfer 0 n e d d.src d.dst d.srcStride d.dstStride s) s

/-- FSTORE (R129): a rack store. -/
def execMeFstore (t : BitVec 12) (s : State) : Host.Outcome State Fault Refusal :=
  runDesc t 0x31 false (fun _ d => transferOk d d.dst d.src 1)
    (fun n e d s => transfer 1 n e d d.dst d.src d.dstStride d.srcStride s) s

/-- PUT (R129). -/
def execMePut (t : BitVec 12) (s : State) : Host.Outcome State Fault Refusal :=
  runDesc t 0x32 false (fun _ d => transferOk d d.dst d.src 2)
    (fun n e d s => transfer 1 n e d d.dst d.src d.dstStride d.srcStride s) s

/-- GET (R129). -/
def execMeGet (t : BitVec 12) (s : State) : Host.Outcome State Fault Refusal :=
  runDesc t 0x33 false (fun _ d => transferOk d d.src d.dst 2)
    (fun n e d s => transfer 0 n e d d.src d.dst d.srcStride d.dstStride s) s

/-- ATOMIC (R130, R357): one request. -/
def execMeAtomic (t : BitVec 12) (s : State) : Host.Outcome State Fault Refusal :=
  runDesc t 0x34 false (fun _ d =>
    let size := bitsAt d.ctl 8 2
    let ret := bitAt d.ctl 10
    d.len == 0 && decide (d.rows ≤ 1) && d.cols == 0 && d.aux32 == 0 && d.srcStride == 0 && d.dstStride == 0 &&
      decide (d.ctl < 2 ^ 11 ∧ size ≤ 2) && isDevAddr d.src && isDevAddr d.aux && (ret || d.src == 0) &&
      atopOk (d.ctl % 256) size && d.dst % (4 * 2 ^ size) == 0 &&
      (if d.dst / 2 ^ 62 = 0 then decide (d.dst < hbmEnd) else fabAddrOk d.dst)) (fun n e d s =>
    startDesc n e [{ kind := 2, remote := d.dst, loc := d.src, len := 4 * 2 ^ bitsAt d.ctl 8 2 }] stOk s) s

/-! ### Issue and retirement -/

/-- The request a thread's queue has ready (R118, R131): the first of the first entry that has one, LDX and STX starting
as they issue. A row for a full port waits (R252), and a function in TEARDOWN issues no fabric request (R438). -/
def readyRequest (s : State) (t : Nat) : Option (MeEntry × MeReq) :=
  let x := s.thread t
  if ¬ meRuns s t ∨ 64 ≤ x.outstanding.toNat then none
  else
    match (s.meQueue t).find? fun e => !e.started || e.todo != [] with
    | none => none
    | some e =>
      let r := if e.kind = 0 then e.todo.head?
        else some ({ kind := 2 + e.kind, remote := e.addr, loc := 0, len := 8 } : MeReq)
      match r with
      | none => none
      | some q =>
        let far := q.remote / 2 ^ 62 ≠ 0
        let who := whoOf s t
        if far ∧ (32 ≤ x.outRemote.toNat ∨ (who < 256 ∧ ((s.fn who).state = 2 ∨ s.dev.compute.isSome))) then none
        else if (q.kind = 5 ∨ q.kind = 0) ∧ jobHeld s who q.loc q.len then none
        else some (e, q)

/-- Requests that a core's ME holds outstanding, those of contexts out of residence included (R131, R134). -/
def meOutstanding (s : State) (k : Nat) : Nat :=
  let c := s.coreAt k
  ((List.range 8).map fun i => (s.thread (8 * k + i)).outstanding.toNat).sum +
    (c.slots.map fun e => match e.2 with
      | some sl => if c.resident = some e.1 then 0 else (sl.outstanding.map BitVec.toNat).sum
      | none => 0).sum +
    (s.core.ctxs.map fun e => if (Tab.get none e.2.saved k).isSome then
      ((List.range 8).map fun i => (Tab.get Thread.reset e.2.savedThreads (8 * k + i)).outstanding.toNat).sum else 0).sum

/-- The entry after its first request has been issued. -/
def issued (e : MeEntry) : MeEntry := { e with started := true, todo := e.todo.tail, outstanding := e.outstanding + 1, sent := e.sent + 1 }

/-- Counts a request as outstanding and takes it off its entry. -/
def issueOne (t : Nat) (e : MeEntry) (remote : Bool) (s : State) : State :=
  let x := s.thread t
  putEntry (t / 8) .live (t % 8) e.id (some (issued e)) (s.setThread t
    { x with outstanding := x.outstanding + 1, outRemote := if remote then x.outRemote + 1 else x.outRemote })

/-- A request refused at issue (R103, R120): a descriptor stops there, an LDX or STX halts its context. -/
def refuseIssue (t : Nat) (e : MeEntry) (status : Nat) (s : State) : State :=
  if e.kind = 0 then
    putEntry (t / 8) .live (t % 8) e.id (some (({ e with started := true, todo := [] } : MeEntry).note e.sent status)) s
  else finishLd t .live e status 0 (putEntry (t / 8) .live (t % 8) e.id none s)

/-- The words that carry n local bytes to an offset (R343). -/
def payloadWords (t loc off len : Nat) (s : State) : Option (List (BitVec 144) × Bool × State) :=
  match meBytes t loc len s with
  | (none, _) => none
  | (some r, s1) =>
    let m := coveredWords off len
    let who := whoOf s t
    let bytes := List.replicate (off % 16) 0 ++ r.bytes
    let ws := (List.range m).map fun i =>
      let lo := if i = 0 then off % 16 else 0
      let a := loc + (16 * i + lo - off % 16)
      let n := min (16 - lo) (len - (16 * i + lo - off % 16))
      let p := r.poison && (coreRead (t / 64) who a n s).1.poison
      sendWord (BitVec.ofNat 128 (ofLE (sliceBytes bytes (16 * i) 16))) p
    some (ws, r.poison, s1)

/-- The virtual channel of a thread's fabric request (R121). -/
def meVc (s : State) (t : Nat) (level : Nat) (atomic : Bool) : Nat :=
  if s.plates.ranCores.getLsbD (t / 8) then 1 else if atomic then 5 else if level = 1 then 3 else 4

/-- The address level that a descriptor's remote side has throughout: the hall level only in PUT and GET (R341, Table 4.7). -/
def remoteLevel (op : Nat) : Nat := if op = 0x32 ∨ op = 0x33 then 2 else 1

/-- The status with which an entry's fabric request is refused before it is sent; ST_OK lets it go. An index or a stride that
carries the address into another level is refused (R341). -/
def meCheck (s : State) (who : Who) (e : MeEntry) (q : MeReq) : Nat :=
  if e.kind = 0 ∧ q.remote / 2 ^ 62 ≠ remoteLevel (readDesc e.block).op then stBadParam
  else issueCheck s who q.remote q.len (if q.kind = 1 ∨ q.kind = 4 then 2 else 1)

/-- A fabric read or write of an entry: served here when it names this device, else sent (R342). -/
def issueRemote (t : Nat) (e : MeEntry) (q : MeReq) (s : State) : State :=
  let who := whoOf s t
  let f := readFabAddr q.remote
  let wr := q.kind == 1 || q.kind == 4
  let st := meCheck s who e q
  if st ≠ stOk then refuseIssue t e st s
  else
    let data : Option (List (BitVec 144) × Bool × State) :=
      if q.kind = 1 then payloadWords t q.loc f.offset q.len s
      else if q.kind = 4 then
        some ([sendWord (BitVec.ofNat 128 (e.data.toNat * 2 ^ (8 * (f.offset % 16)))) false], false, s)
      else some ([], false, s)
    match data with
    | none => refuseIssue t e stBadParam s
    | some (ws, poison, s1) =>
      let e1 := e.note e.sent (if poison then stPoison else stOk)
      let s2 := putEntry (t / 8) .live (t % 8) e.id (some e1) s1
      if targetHall s f = s.fab.hall then
        match homeAddress s2 f.level f.window f.offset q.len with
        | none => refuseIssue t e1 stWindow s2
        | some a =>
          let s3 := issueOne t e1 true s2
          if wr then
            match ownWrite f q.len ws (· == t) s3 with
            | none => s3
            | some r => acknowledge t e.id e.sent (if r.1 then stPoison else stOk) true 0 r.2
          else
            let r := homeRead (homeWho s f.level f.window) a q.len s3
            if q.kind = 3 then
              let v := wordsValue f.offset r.1
              acknowledge t e.id e.sent (if v.2 then stPoison else stOk) true v.1 r.2.2
            else
              let w := landData who t q.loc f.offset q.len r.1 r.2.2
              acknowledge t e.id e.sent w.1 true 0 w.2
      else
        match sendRequest (.me t e.id e.sent) who (meVc s t f.level false) q.remote q.len (if wr then 2 else 1) q.loc 0 0 false ws poison s2 with
        | none => s
        | some s3 => issueOne t e1 true s3

/-- Whether an atomic's status comes with a value of its target: a poisoned target gives ST_POISON with zero (R130, R358). -/
def hasResult (status : Nat) : Bool := status == stOk || status == stPoison

/-- The effect of an atomic's result at its sender (R130): the old value goes to SRC if RET asks for it. -/
def atomicResult (who : Who) (t id status old : Nat) (size : Nat) (ret : Bool) (loc : Nat) (remote : Bool) (s : State) : State :=
  let w := if ret ∧ hasResult status then putFor who t loc (leBytes (4 * 2 ^ size) old) false s else (stOk, s)
  acknowledge t id 0 (firstStatus status w.1) remote 0 w.2

/-- The atomic of an entry (R121, R130, R355, R358): performed here, or sent. -/
def issueAtomic (t : Nat) (e : MeEntry) (q : MeReq) (s : State) : State :=
  let who := whoOf s t
  let d := readDesc e.block
  let size := bitsAt d.ctl 8 2
  let atop := d.ctl % 256
  let ret := bitAt d.ctl 10
  let dev := isDevAddr q.remote
  let st := if dev then (if mayAccess s who q.remote q.len then stOk else stBadParam) else issueCheck s who q.remote q.len 3
  if st ≠ stOk then refuseIssue t e st s
  else
    match meBytes t d.aux 32 s with
    | (none, s1) => refuseIssue t e stBadParam s1
    | (some r, s1) =>
      let cmp := fld r.bytes 0 16
      let op := fld r.bytes 16 16
      if r.poison then refuseIssue t e stPoison s1
      else if dev then
        let s2 := issueOne t e false s1
        let a := performAtomic who q.remote atop size cmp op s2
        atomicResult who t e.id a.1 a.2.1 size ret d.src false a.2.2
      else
        let f := readFabAddr q.remote
        if targetHall s f = s.fab.hall then
          match homeAddress s1 f.level f.window f.offset q.len with
          | none => refuseIssue t e stWindow s1
          | some addr =>
            let s2 := issueOne t e true s1
            let a := performAtomic (homeWho s f.level f.window) addr atop size cmp op s2
            atomicResult who t e.id a.1 a.2.1 size ret d.src true a.2.2
        else
          match sendRequest (.me t e.id e.sent) who (meVc s t f.level true) q.remote q.len 3 d.src atop size ret
              [sendWord (BitVec.ofNat 128 cmp) false, sendWord (BitVec.ofNat 128 op) false] false s1 with
          | none => s
          | some s2 => issueOne t e true s2

/-- A row that waited at a full port is moved (R252). -/
def issueRow (t : Nat) (e : MeEntry) (q : MeReq) (s : State) : State :=
  let r := localRow t (whoOf s t) e q (stOk, s)
  let more := r.1 = stOk ∨ r.1 = stPoison
  putEntry (t / 8) .live (t % 8) e.id
    (some (({ e with todo := if more then e.todo.tail else [], sent := e.sent + 1 } : MeEntry).note e.sent r.1)) r.2

/-- A device-level LDX or STX goes to its home (R17). -/
def issueDevice (t : Nat) (e : MeEntry) (s : State) : State :=
  let s1 := issueOne t e false s
  { s1 with core := { s1.core with devReqs := s1.core.devReqs ++
      [{ thread := t, id := e.id, store := e.kind == 2, addr := e.addr, data := e.data, who := whoOf s t, stalled := false }] } }

/-- ME_REQUEST_ISSUE (R118, R119, R131): the ME of a core issues one request, of the context queue that R29 picks. Log 75 (DEDUCED). -/
def execMeRequestIssue (core : BitVec 9) (s : State) : Host.Outcome State Fault Refusal :=
  let k := core.toNat
  if 512 ≤ meOutstanding s k then .next s
  else
    match arbitrate s.root (cclkDiv s.clk.tier.toNat) 8 fun i => (readyRequest s (8 * k + i)).isSome with
    | none => .next s
    | some i =>
      match readyRequest s (8 * k + i) with
      | none => .next s
      | some (e, q) =>
        let t := 8 * k + i
        if q.kind = 2 then .next (issueAtomic t e q s)
        else if q.kind = 5 then .next (issueRow t e q s)
        else if isDevAddr q.remote then .next (issueDevice t e s)
        else .next (issueRemote t e q s)

/-- ME_DESCRIPTOR_RETIRE (R108, R118, R123): the finished entry at the head of a thread's queue retires. -/
def execMeDescriptorRetire (t : BitVec 12) (s : State) : Host.Outcome State Fault Refusal :=
  let n := t.toNat
  match s.meQueue n with
  | [] => .next s
  | e :: _ =>
    if e.finished then .next (wakeFence n (wakeCounters (n / 8) (retireHead n (n % 8) .live e s))) else .next s

/-- Performs one device-level request at its home (R17, R251, R265, R272). -/
def performDevice (q : DevReq) (s : State) : State :=
  let cl := q.thread / 64
  if ¬ mayAccess s q.who q.addr 8 then acknowledge q.thread q.id 0 stBadParam false 0 s
  else if q.store then
    let merged := mergesPoison q.addr (leBytes 8 q.data.toNat) s && !cached s cl q.who q.addr
    acknowledge q.thread q.id 0 (if merged then stPoison else stOk) false 0
      (coreStore cl q.who q.addr (leBytes 8 q.data.toNat) false
        (if cached s cl q.who q.addr then s else storeRace (· == q.thread) q.addr 8 s))
  else
    let r := coreRead cl q.who q.addr 8 s
    acknowledge q.thread q.id 0 (if r.1.poison then stPoison else stOk) false (BitVec.ofNat 64 (ofLE r.1.bytes)) r.2

/-- The die of a thread's core, and of a device address's home (Tables 1.4 and 9.2). -/
def dieOfThread (t : Nat) : Nat := t / 1024
def homeDie (a : Nat) : Nat :=
  if a < hbmEnd then hatchChannel a / 256
  else if a < 0xE800000000 then (a - 0xE000000000) / 0x8000000
  else (a - 0xE800000000) / 0x4000000

/-- The arbiter at which requests to a device address meet: that of its HBM channel, or the die network's output to its cluster. -/
def homeArbiter (a : Nat) : Nat :=
  if a < hbmEnd then hatchChannel a
  else if a < 0xE800000000 then 1024 + (a - 0xE000000000) / 0x800000
  else 1024 + (a - 0xE800000000) / 0x400000

/-- The die network port at which a thread's request enters a die: its cluster's, or that of the purlin link from its die, ports 24
to 26 in ascending die order (Table 1.3). -/
def portOf (t die : Nat) : Nat :=
  let x := dieOfThread t
  if x = die then t / 64 % 16 else 24 + (if x < die then x else x - 1)

/-- The class of a device-level request (R29). -/
def DevReq.class (q : DevReq) : Nat := if q.who = 256 then 1 else 2

/-- Requests in the order in which an arbiter of 36 inputs grants them, one each cycle of its clock (R18, R29); requests of one port
keep their order. Log 75 (DEDUCED). -/
def grants (d : Nat) (port : DevReq → Nat) : Nat → Nat → List DevReq → List DevReq
  | 0, _, _ => []
  | n + 1, root, l =>
    match arbitrateClasses root d 36 (l.map fun q => (port q, q.class)) with
    | none => []
    | some p =>
      match l.find? fun q => port q == p && l.all fun r => decide (q.class ≤ r.class) with
      | none => []
      | some q => q :: grants d port n (root + d) (l.erase q)

/-- The order in which requests that meet are granted (R18, R29, R31, R32): those of other dies first by their purlin link, then all
by the home's arbiter, at MCLK for an HBM channel and at NCLK for a cluster. Log 75 (DEDUCED). -/
def grantOrder (s : State) (l : List DevReq) : List DevReq :=
  (ascending (l.map fun q => homeArbiter q.addr)).flatMap fun h =>
    let mine := l.filter fun q => homeArbiter q.addr == h
    let die := (mine.head?.map fun q => homeDie q.addr).getD 0
    let link := fun (x : Nat) => (grants 12 (fun q => portOf q.thread x) l.length s.root
      (l.filter fun q => dieOfThread q.thread == x && homeDie q.addr == die)).filter fun q => homeArbiter q.addr == h
    let arrived := (mine.filter fun q => dieOfThread q.thread == die) ++ ((List.range 4).filter (· != die)).flatMap link
    grants (if h < 1024 then 5 else 12) (fun q => portOf q.thread die) arrived.length s.root arrived

/-- Whether a device-level request reaches its channel in the channel's refresh slot: it waits until the slot ends (R256). -/
def DevReq.held (s : State) (q : DevReq) : Bool := waitsRefresh s q.addr && !cached s (q.thread / 64) q.who q.addr

/-- Performs requests in order, those still to come waiting meanwhile (R367). -/
def performAll : List DevReq → State → State
  | [], s => s
  | q :: l, s =>
    performAll l (performDevice q { s with core := { s.core with devReqs := s.core.devReqs.erase q } })

/-- DEVICE_MEMORY_REQUEST (R17, R18, R31, R256): the n oldest device-level requests, which meet at their homes in one cycle,
are performed in the order of their grants, but for those that a refresh slot makes wait, each counted once. -/
def execDeviceMemoryRequest (n : BitVec 6) (s : State) : Host.Outcome State Fault Refusal :=
  let l := s.core.devReqs.take n.toNat
  let wait := l.filter (DevReq.held s)
  let s1 := (wait.filter fun q => !q.stalled).foldl (fun s q => stall q.who q.addr 1 s) s
  let s2 := { s1 with core := { s1.core with
    devReqs := l.map (fun q => { q with stalled := q.stalled || q.held s }) ++ s.core.devReqs.drop n.toNat } }
  .next (performAll (grantOrder s (l.filter fun q => !q.held s)) s2)

end Sys2Proof.Machine
end

