-- ==== Sys2Proof/Machine/TierOps.lean ====
section
/-!
DEFINITION. The tier manager's shared operations (chapter 09): pages, frames, the flash log and its rebuilds, rack-remote
transfers, fetches and write-backs.
-/
namespace Sys2Proof.Machine
open Sys2Proof

/-- Changes memory and tiers. -/
def updMem (f : MemTiers → MemTiers) (s : State) : State := { s with mem := f s.mem }

/-- Key of a page. -/
def pageKey (ctx tpn : Nat) : Nat := ctx * 2 ^ 32 + tpn

/-- A directory entry. -/
def State.page (s : State) (key : Nat) : Page := Tab.get Page.none s.mem.pages key

/-- Sets a directory entry. -/
def State.setPage (s : State) (key : Nat) (p : Page) : State := updMem (fun m => { m with pages := Tab.set Page.none m.pages key p }) s

/-- The region of a context that a TPN lies in, with its identifier. -/
def regionOf (s : State) (ctx tpn : Nat) : Option (Nat × Region) :=
  s.mem.regions.find? fun e => e.2.ctx == ctx && decide (e.2.firstTpn ≤ tpn ∧ tpn < e.2.firstTpn + e.2.count)

/-- The keys of a region's pages. -/
def regionKeys (r : Region) : List Nat := (List.range r.count).map fun i => pageKey r.ctx (r.firstTpn + i)

/-- The directory's DIRTY field: the dirty mask of the page's frame (R272). -/
def pageDirty (s : State) (p : Page) : BitVec 16 :=
  if p.state = 3 ∨ p.state = 5 then (s.mem.frame p.frame).dirty else 0

/-- STATE of a page (Table 9.7): a CLEAN page with a dirty sector is DIRTY. -/
def pageState (s : State) (p : Page) : Nat := if p.state = 3 ∧ pageDirty s p ≠ 0 then 4 else p.state

/-- Sets the dirty mask of a page's frame. -/
def setDirty (f : Nat) (d : BitVec 16) (s : State) : State := updMem (fun m => m.setFrame f { m.frame f with dirty := d }) s

/-- A frame of a pool takes a page (`true`) or is free again. -/
def trackFrame (f : Nat) (on : Bool) (s : State) : State :=
  updMem (fun m => m.setFrame f { m.frame f with track := on, dirty := 0 }) s

/-- Whether a page of an HBM home without STEP is plain memory (R270). -/
def Page.plain (p : Page) : Bool := p.home == 0 && !p.step

/-- Puts a page at the end of the eviction order. Log 51 (DEDUCED). -/
def noteUnpinned (key : Nat) (s : State) : State := updMem (fun m => { m with unpinned := m.unpinned.erase key ++ [key] }) s

/-! ### Home areas (R500) -/

/-- Frames of a map pair of a STEP home area: M of R500. -/
def mapFrames (pages : Nat) : Nat := 2 * ceilDiv pages 524288

/-- Bytes of a region's rack-remote home area. -/
def areaLen (pages : Nat) (step : Bool) : Nat := 65536 * (if step then 1 + mapFrames pages + 2 * pages else pages)

/-- The lender offset of a page's slot (R500). -/
def slotOffset (r : Region) (i slot : Nat) : Nat :=
  if r.step then r.homeBase + 65536 * (1 + mapFrames r.count + 2 * i + slot) else r.homeBase + 65536 * i

/-! ### The directory entry (Table 9.6) -/

/-- Where a page's home is, as its directory entry names it: the home frame of a STEP page homed in HBM, the lender and the frame
offset there of a rack-remote page, the first log stripe of a flash page. -/
def homeField (s : State) (key : Nat) : Nat :=
  let p := s.page key
  match regionOf s (key / 2 ^ 32) (key % 2 ^ 32) with
  | some (_, r) =>
    if p.home = 1 then r.lender % 64 * 2 ^ 42 + slotOffset r (key % 2 ^ 32 - r.firstTpn) (bit p.slot) / 65536 % 2 ^ 42 else p.homeLoc
  | none => 0

/-- The 16-byte tier directory entry of a page (Table 9.6). -/
def dirEntry (s : State) (key : Nat) : BitVec 128 :=
  let p := s.page key
  BitVec.ofNat 128 (pageState s p + p.home * 2 ^ 3 + bit p.step * 2 ^ 5 + bit p.slot * 2 ^ 6 + p.pin * 2 ^ 8 +
    (pageDirty s p).toNat * 2 ^ 16 + p.poison.toNat * 2 ^ 32 + p.frame % 2 ^ 24 * 2 ^ 48 + homeField s key % 2 ^ 48 * 2 ^ 72)

/-! ### Pacing (R274, R294) -/

/-- The batten in progress. -/
def State.batten (s : State) : Nat := s.now / battenTicks

/-- Where the next byte on a channel goes in a ledger whose batten b begins at b × pace. -/
def paceNext (pace b : Nat) (t : Tab Nat) (h : Nat) : Nat := max (pace * b) (Tab.get 0 t h)

/-- Whether one more granule fits on its channel in batten b. -/
def paceFits (pace b : Nat) (t : Tab Nat) (a : Nat) : Bool := decide (paceNext pace b t (hatchChannel a) + 256 ≤ pace * (b + 1))

/-- Places granules on their channels from batten b on: the batten in which the last of them passes, and the ledger. -/
def paceSpend (pace b : Nat) (t : Tab Nat) (l : List Nat) : Nat × Tab Nat :=
  l.foldl (fun (p : Nat × Tab Nat) a =>
    let d := paceNext pace b p.2 (hatchChannel a) + 256
    (max p.1 (ceilDiv d (max 1 pace) - 1), Tab.set 0 p.2 (hatchChannel a) d)) (b, t)

/-- PACE of a context's pool. -/
def tierPace (s : State) (ctx : Nat) : Nat := (Tab.get Pool.none s.mem.pools ctx).pace

/-- Whether traffic placed up to a batten has passed under the PACE of a context's pool: nothing passes with PACE 0, and a context
without a pool has no PACE (R274). Log 51 (DEDUCED). -/
def pacePassed (s : State) (ctx due : Nat) : Bool :=
  due == 0 || (Tab.get Pool.none s.mem.pools ctx).frames == 0 || (tierPace s ctx != 0 && decide (due ≤ s.batten))

/-- Places tier traffic of a context; answers the batten in which the last of it passes (R274). -/
def tierSpend (ctx : Nat) (l : List Nat) (s : State) : Nat × State :=
  let r := paceSpend (tierPace s ctx) s.batten (Tab.get [] s.mem.paced ctx) l
  (r.1, updMem (fun m => { m with paced := Tab.set [] m.paced ctx r.2 }) s)

/-- A copy of a page places its traffic, and the page waits for it. Log 51 (DEDUCED). -/
def spendPage (key : Nat) (l : List Nat) (s : State) : State :=
  let r := tierSpend (key / 2 ^ 32) l s
  r.2.setPage key { r.2.page key with due := max (r.2.page key).due r.1 }

/-- Whether a page's copy has passed under PACE (R274). -/
def pageReady (s : State) (key : Nat) : Bool := pacePassed s (key / 2 ^ 32) (s.page key).due

/-- The granules of a frame, and of some of its sectors. -/
def frameGranules (f : Nat) : List Nat := granulesOf (65536 * f) 65536
def sectorGranules (f mask : Nat) : List Nat :=
  ((List.range 16).filter (bitAt mask)).flatMap fun i => granulesOf (65536 * f + 4096 * i) 4096

/-- The HBM traffic of a copy of sectors between a page's frame and its home: both ends of a home in HBM, else the frame. -/
def copyTraffic (p : Page) (mask : Nat) : List Nat :=
  sectorGranules p.frame mask ++ (if p.home = 0 then sectorGranules p.homeLoc mask else [])

/-! ### Copies -/

/-- Copies n bytes word by word, poison with them; answers whether poison was met (R275). -/
def copyWords (src dst n : Nat) (s : State) : Bool × State :=
  let r := memRead 257 src n s
  let bad := poisonWords s src n
  (bad ≠ [], bad.foldl (fun s i => memPoison (dst + 16 * i) 16 s) (memWrite dst r.1.bytes r.2))

/-- Copies the named sectors of one frame to another; answers those that carried poison. -/
def copySectors (src dst : Nat) (mask : Nat) (s : State) : Nat × State :=
  ((List.range 16).filter (bitAt mask)).foldl (fun p i =>
    let c := copyWords (65536 * src + 4096 * i) (65536 * dst + 4096 * i) 4096 p.2
    (p.1 + (if c.1 then 2 ^ i else 0), c.2)) (0, s)

/-- POISON after sectors have been copied: set where poison was met, cleared elsewhere; sticky if told so (R275, R290). -/
def mergePoison (old : BitVec 16) (mask found : Nat) (sticky : Bool) : BitVec 16 :=
  let keep := if sticky then old else old &&& ~~~ BitVec.ofNat 16 mask
  keep ||| BitVec.ofNat 16 found

/-- Whether a region holds a weight set, whose POISON bits no fetch clears (R290). -/
def weightRegion (s : State) (region : Nat) : Bool :=
  s.mem.weights.any fun e => match e.2 with
    | some w => w.region == region
    | none => false

/-! ### The flash log (R280 to R283) -/

/-- Changes the flash. -/
def updFlash (f : Flash → Flash) (s : State) : State := updMem (fun m => { m with flash := f m.flash }) s

/-- n events of a flash counter. -/
def flashCountBy (i n : Nat) (s : State) : State := updFlash (fun f => { f with cnt := bumpBy f.cnt i n }) s

/-- One event of a flash counter. -/
def flashCount (i : Nat) (s : State) : State := updFlash (fun f => { f with cnt := bump f.cnt i }) s

/-- Rows of the tier. -/
def Flash.rows (f : Flash) : Nat := f.sets * f.rowsPerSet

/-- The block set of a row (R281). -/
def Flash.setOf (f : Flash) (row : Nat) : Nat := row / 8 / f.rowsPerSet * 8 + row % 8

/-- Whether a row holds stripes or has been programmed. -/
def Flash.rowTaken (f : Flash) (row : Nat) : Bool :=
  Tab.get false f.written row || f.stripes.any fun e => e.1 / 30 == row

/-- The next row after r, in ascending cyclic order, that is free. Log 52 (DESIGN CHOICE). -/
def Flash.nextRow (f : Flash) (r : Nat) : Option Nat :=
  ((List.range f.rows).map fun i => (r + 1 + i) % f.rows).find? fun w => !f.rowTaken w

/-- Where 4 consecutive stripes go (R281): at the head, or at the start of a free row where the head's row cannot go on. Log 52 (DESIGN CHOICE). -/
def Flash.place (f : Flash) : Option Nat :=
  let row := f.head / 30
  if f.rows = 0 then none
  else if f.head % 30 = 0 ∧ Tab.get false f.written row then (f.nextRow row).map (30 * ·)
  else if f.head % 30 ≤ 26 then some f.head
  else if row + 1 < f.rows ∧ ¬ f.rowTaken (row + 1) then some f.head
  else (f.nextRow row).map (30 * ·)

/-- Appends a 64 KiB page to the log (R282): its first log stripe. Log 52 (DESIGN CHOICE). -/
def flashAppend (ws : List (BitVec 128 × BitVec 16)) (s : State) : Option (Nat × State) :=
  (s.mem.flash.place).map fun at_ =>
    (at_, updFlash (fun f => (List.range 4).foldl (fun (f : Flash) i =>
      let part := (ws.drop (1024 * i)).take 1024
      { f with stripes := Tab.set Stripe.blank f.stripes (at_ + i)
                 { data := part.flatMap fun w => leBytes 16 w.1.toNat, diff := part.map Prod.snd, failed := false, live := true },
               head := at_ + i + 1 }) f) s)

/-- A word as it goes on from a decoder: corrected, or poisoned if it is uncorrectable (R263, R264). -/
def settleWord (w : BitVec 128 × BitVec 16) : BitVec 128 × BitVec 16 :=
  match eccDecode w.2 with
  | .dataSym i e => (fixSymbol w.1 i e, 0)
  | .checkSym => (w.1, 0)
  | .uncorrectable => (w.1, poisonDiff)
  | _ => w

/-- The words of a frame as a copy of it carries them. -/
def frameWords (s : State) (frame : Nat) : List (BitVec 128 × BitVec 16) :=
  (List.range 4096).map fun i => settleWord (s.mem.mem.data (4096 * frame + i), s.mem.mem.diffAt (4096 * frame + i))

/-- Reads a frame's words for a copy (R263, R275). -/
def readFrame (frame : Nat) (s : State) : List (BitVec 128 × BitVec 16) × State :=
  (frameWords s frame, checkRange 0 (65536 * frame) 65536 s)

/-- The stripes of a page become dead. -/
def killStripes (loc : Nat) (s : State) : State :=
  updFlash (fun f => (List.range 4).foldl (fun (f : Flash) i =>
    { f with stripes := Tab.upd Stripe.blank f.stripes (loc + i) fun x => { x with live := false } }) f) s

/-- Word i of a stripe: data and check difference. -/
def Stripe.word (x : Stripe) (i : Nat) : BitVec 128 × BitVec 16 :=
  (BitVec.ofNat 128 (ofLE (sliceBytes x.data (16 * i) 16)), x.diff.getD i 0)

/-- Whether the words of a stripe outside the sectors in `skip` cannot be read: its flash code fails or one of them decodes as
uncorrectable (R280). -/
def Stripe.bad (x : Stripe) (skip : Nat) : Bool :=
  skip % 16 != 15 && (x.failed || x.diff.zipIdx.any fun d => !bitAt skip (d.2 / 256) && eccDecode d.1 == .uncorrectable)

/-- The other stripes of a stripe's group: the data stripes and the parity (R281). -/
def groupOthers (f : Flash) (loc : Nat) : List Stripe :=
  let row := loc / 30
  let g := loc % 30 / 15
  (((List.range 15).map fun i => 30 * row + 15 * g + i).filter (· != loc)).map (Tab.get Stripe.blank f.stripes) ++
    [Tab.get Stripe.blank f.parity (2 * row + g)]

/-- Word i of the exclusive or of stripes. -/
def xorWord (l : List Stripe) (i : Nat) : BitVec 128 × BitVec 16 :=
  l.foldl (fun a x => let w := x.word i; (a.1 ^^^ w.1, a.2 ^^^ w.2)) (0, 0)

/-- Rebuilds a stripe from its group (R283): words that fail are poisoned. -/
def rebuildStripe (f : Flash) (loc : Nat) : List (BitVec 128 × BitVec 16) :=
  let o := groupOthers f loc
  let second := o.any Stripe.failed
  (List.range 1024).map fun i =>
    let w := xorWord o i
    match eccDecode w.2 with
    | .uncorrectable => (w.1, poisonDiff)
    | _ => if second then (w.1, poisonDiff) else w

/-- Words with those of the sectors in `skip` poisoned as they stand (R290). -/
def skipSectors (skip : Nat) (raw ws : List (BitVec 128 × BitVec 16)) : List (BitVec 128 × BitVec 16) :=
  if skip % 16 = 0 then ws
  else (raw.zip ws).zipIdx.map fun e => if bitAt skip (e.2 / 256) then (e.1.1.1, poisonDiff) else e.1.2

/-- The words of a stripe outside the sectors in `skip`. -/
def readSectors (skip : Nat) (ws : List (BitVec 128 × BitVec 16)) : List (BitVec 128 × BitVec 16) :=
  if skip % 16 = 0 then ws else (ws.zipIdx.filter fun w => !bitAt skip (w.2 / 256)).map Prod.fst

/-- Corrected words count for the owner of the data (R263). -/
def countCorrected (own : Who) (ws : List (BitVec 128 × BitVec 16)) (s : State) : State :=
  let n := (ws.filter fun w => (eccDecode w.2).isCorrected).length
  if n = 0 then s else updMem (fun m => { m with evCorrected := bumpBy m.evCorrected own n }) s

/-- Reads one stripe of an owner's data, rebuilt if it must be: its words, whether it was rebuilt, and the state with its counts. The
words of the sectors in `skip` are neither decoded nor rebuilt (R283, R290); a rebuild reads 15 other stripes. -/
def readStripe (own : Who) (loc skip : Nat) (s : State) : List (BitVec 128 × BitVec 16) × Bool × State :=
  let f := s.mem.flash
  let x := Tab.get Stripe.blank f.stripes loc
  let raw := (List.range 1024).map x.word
  let s1 := flashCount 0 s
  if x.bad skip ∧ Tab.get false f.written (loc / 30) then
    let ws := rebuildStripe f loc
    let left := ws.zipIdx.any fun w => w.1.2 == poisonDiff && !bitAt skip (w.2 / 256)
    (skipSectors skip raw (ws.map settleWord), true,
     (if left then flashCount 3 else id) (flashCount 2 (countCorrected own (readSectors skip ws) (flashCountBy 0 15 s1))))
  else (skipSectors skip raw (raw.map settleWord), false, countCorrected own (readSectors skip raw) s1)

/-- Stores words in a frame as they are. -/
def storeFrameWords (frame : Nat) (ws : List (BitVec 128 × BitVec 16)) (s : State) : State :=
  updMem (fun m => { m with mem := (ws.zipIdx.foldl (fun (mem : Mem) w =>
    (mem.setBytes (65536 * frame + 16 * w.2) (leBytes 16 w.1.1.toNat)).setDiff (4096 * frame + w.2) w.1.2) m.mem) }) s

/-- Sectors of a frame that hold a poisoned word. -/
def poisonSectors (s : State) (frame : Nat) : Nat :=
  ((List.range 16).map fun i => if s.mem.mem.poisonAt (65536 * frame + 4096 * i) 4096 then 2 ^ i else 0).sum

/-- Reads a page's 4 stripes into a frame, the sectors in `skip` poisoned unread (R283, R290); answers whether a stripe was rebuilt.
The first word that a rebuild leaves poisoned is logged. -/
def readFlashPage (loc frame skip : Nat) (s : State) : Bool × State :=
  (List.range 4).foldl (fun p i =>
    let sk := skip / 16 ^ i % 16
    let r := readStripe (holderOf s (65536 * frame)) (loc + i) sk p.2
    let s1 := updMem (fun m => { m with mem := (r.1.zipIdx.foldl (fun (mem : Mem) w =>
      (mem.setBytes (65536 * frame + 16384 * i + 16 * w.2) (leBytes 16 w.1.1.toNat)).setDiff (4096 * frame + 1024 * i + w.2) w.1.2)
      m.mem) }) r.2.2
    let bad := if r.2.1 then r.1.zipIdx.find? fun w => w.1.2 == poisonDiff && !bitAt sk (w.2 / 256) else none
    (p.1 || r.2.1, match bad with
      | some w => logUncorrectable 6 (65536 * frame + 16384 * i + 16 * w.2) s1
      | none => s1)) (false, s)

/-- A page that moves to new stripes leaves the block sets of its old ones, which stay until the new rows are programmed (R282). -/
def noteMove (old new : Nat) (f : Flash) : Flash :=
  { f with moves := f.moves ++ [old / 30, (old + 3) / 30].flatMap fun w => [(f.setOf w, new / 30), (f.setOf w, (new + 3) / 30)] }

/-- A page rebuilt without poison moves to a new row, and its old stripes become dead (R283). -/
def rehome (key : Nat) (ws : List (BitVec 128 × BitVec 16)) (s : State) : State :=
  match flashAppend ws s with
  | some (loc, s1) =>
    let old := (s.page key).homeLoc
    killStripes old (updFlash (noteMove old loc) (s1.setPage key { s1.page key with homeLoc := loc }))
  | none => s

/-! ### Rack-remote homes (R269, R500) -/

/-- The rack-level address of a lender offset. -/
def lenderAddress (lender off : Nat) : Nat := 2 ^ 62 + lender % 64 * 2 ^ 56 + off

/-- A transfer of a number. -/
def State.xfer (s : State) (n : Nat) : Option Xfer := Tab.get none s.mem.xfers n

/-- Sets a transfer. -/
def State.setXfer (s : State) (n : Nat) (x : Option Xfer) : State :=
  updMem (fun m => { m with xfers := Tab.set none m.xfers n x }) s

/-- Whether a transfer has ended: every piece sent and answered, or stopped by a status. -/
def Xfer.ended (x : Xfer) : Bool := x.next == x.count && x.outstanding == 0

/-- The bytes of the slot map that a commit of region r writes (R500): bit p the slot of page p after it. -/
def mapBytes (s : State) (r : Region) : List Byte :=
  let bits := (List.range r.count).map fun i =>
    let p := s.page (pageKey r.ctx (r.firstTpn + i))
    bit (if p.newLoc = 0 then p.slot else !p.slot)
  let bytes := (chunks 8 bits).map fun c => BitVec.ofNat 8 (c.foldr (fun b a => b + 2 * a) 0)
  bytes ++ List.replicate (mapFrames r.count / 2 * 65536 - bytes.length) 0

/-- The header word of a home area (R500). -/
def headerBytes (g pages : Nat) : List Byte := leBytes 8 g ++ leBytes 4 pages ++ leBytes 4 0x53544550

/-- Where the n-th sector of a mask lies. -/
def nthSector (mask n : Nat) : Nat := ((List.range 16).filter (bitAt mask)).getD n 0

/-- Piece i of a transfer: lender offset, length, and the device address of its data if a frame holds it. -/
def pieceOf (s : State) (x : Xfer) (i : Nat) : Nat × Nat × Option Nat :=
  let frame := (s.page (pageKey x.ctx x.subject)).frame
  match x.kind with
  | 0 => (x.base + 256 * i, 256, some (65536 * frame + 256 * i))
  | 2 => (x.base + 256 * i, 256, some (65536 * frame + 256 * i))
  | 1 | 3 =>
    let o := 4096 * nthSector x.sectors (i / 16) + 256 * (i % 16)
    (x.base + o, 256, some (65536 * frame + o))
  | 6 | 7 => (x.base, 16, none)
  | _ => (x.base + 256 * i, 256, none)

/-- The bytes that a piece without a frame writes. -/
def pieceBytes (s : State) (x : Xfer) (i : Nat) : List Byte :=
  match x.kind with
  | 5 => sliceBytes (mapBytes s (Tab.get Region.none s.mem.regions x.subject)) (256 * i) 256
  | 6 =>
    let r := Tab.get Region.none s.mem.regions x.subject
    headerBytes (r.generation + 1).toNat r.count
  | 9 => sliceBytes (Tab.get [] x.buf 0) (256 * i) 256
  | _ => List.replicate 256 0

/-- Whether a kind of transfer reads. -/
def readsKind (k : Nat) : Bool := k == 0 || k == 3 || k == 7 || k == 8 || k == 10

/-- The payload words of a piece, and whether poison is among them. -/
def pieceWords (s : State) (x : Xfer) (i : Nat) : List (BitVec 144) × Bool :=
  let q := pieceOf s x i
  match q.2.2 with
  | some a =>
    ((List.range (q.2.1 / 16)).map fun j => sendWord (BitVec.ofNat 128 (ofLE (s.mem.mem.bytesAt (a + 16 * j) 16)))
      (s.mem.mem.poisonAt (a + 16 * j) 16), s.mem.mem.poisonAt a q.2.1)
  | none => ((chunks 16 (pieceBytes s x i)).map fun w => sendWord (BitVec.ofNat 128 (ofLE w)) false, false)

/-- Takes what a read of a piece brought: into the frame, where its traffic is placed and the page waits for it (R274), or aside. -/
def landPiece (s : State) (n : Nat) (x : Xfer) (i : Nat) (ws : List (BitVec 144)) : State :=
  let q := pieceOf s x i
  match q.2.2 with
  | some a =>
    ws.zipIdx.foldl (fun s w =>
      let d := readWord w.1
      memWriteP (a + 16 * w.2) (leBytes 16 d.1.toNat) d.2 s) (spendPage (pageKey x.ctx x.subject) [a] s)
  | none =>
    s.setXfer n (some { x with buf := Tab.set [] x.buf i ((ws.flatMap fun w => leBytes 16 (readWord w).1.toNat).take q.2.1) })

/-- A transfer stops at a status other than ST_OK or ST_POISON. -/
def stopXfer (n : Nat) (st : Nat) (s : State) : State :=
  match s.xfer n with
  | some x => s.setXfer n (some { x with status := firstStatus x.status st, next := x.count })
  | none => s

/-- The sector of its page that a frame address lies in, as a mask. -/
def sectorBit (a : Nat) : Nat := 2 ^ (a % 65536 / 4096)

/-- Whether a transfer of a weight set's image may go: one of an earlier command on the set goes first (R523). -/
def weightTurn (s : State) (n : Nat) (x : Xfer) : Bool :=
  (x.kind != 9 && x.kind != 10) || (s.mem.weightWaits.takeWhile fun q => q.xfer != n).all fun q =>
    q.xfer == 0 || ((s.xfer q.xfer).map Xfer.subject) != some x.subject

/-- Whether the next piece of a transfer has room under the PACE of its context's pool: one that takes its data from a frame (R274). -/
def pieceFits (s : State) (x : Xfer) : Bool :=
  match (pieceOf s x x.next).2.2 with
  | some a => readsKind x.kind || (Tab.get Pool.none s.mem.pools x.ctx).frames == 0 ||
      paceFits (tierPace s x.ctx) s.batten (Tab.get [] s.mem.paced x.ctx) a
  | none => true

/-- A piece goes: the words it takes from its frame are decoded, and that traffic is placed. -/
def spendPiece (x : Xfer) (s : State) : State :=
  match (pieceOf s x x.next).2.2 with
  | some a => if readsKind x.kind then s else (tierSpend x.ctx [a] (checkRange 0 a 256 s)).2
  | none => s

/-- Sends the next piece of a transfer, or performs it here when the lender is this device (R342); `false` when it must
wait or has none left. -/
def pumpOne (n : Nat) (s : State) : Bool × State :=
  match s.xfer n with
  | none => (false, s)
  | some x =>
    if x.next = x.count ∨ ¬ weightTurn s n x ∨ ¬ pieceFits s x then (false, s)
    else
      let q := pieceOf s x x.next
      let a := lenderAddress x.lender q.1
      let rd := readsKind x.kind
      let st := issueCheck s 257 a q.2.1 (if rd then 1 else 2)
      if st ≠ stOk then (false, stopXfer n st s)
      else
        let ws := if rd then ([], false) else pieceWords s x x.next
        let x1 := { x with next := x.next + 1, status := firstStatus x.status (if ws.2 then stPoison else stOk),
                           poison := if ws.2 then x.poison ||| sectorBit (q.2.2.getD 0) else x.poison }
        if x.lender = s.fab.hall then
          if ¬ framesOwned s 258 q.1 q.2.1 then (false, stopXfer n stWindow s)
          else if rd then
            let r := homeRead 257 q.1 q.2.1 (spendPiece x s)
            (true, landPiece (r.2.2.setXfer n (some x1)) n x1 x.next r.1)
          else (true, ((homeWrite 257 q.1 q.2.1 0xFFFF 0xFFFF ws.1 (storeRace (fun _ => false) q.1 q.2.1 (spendPiece x s))).2).setXfer n (some x1))
        else
          match sendRequest (.tier n x.next) 257 6 a q.2.1 (if rd then 1 else 2) (q.2.2.getD 0) 0 0 false ws.1 ws.2 s with
          | none => (false, s)
          | some s1 => (true, (spendPiece x s1).setXfer n (some { x1 with outstanding := x1.outstanding + 1 }))

/-- Sends pieces of a transfer while tags last. -/
def pumpXfer : Nat → Nat → State → State
  | 0, _, s => s
  | k + 1, n, s =>
    match pumpOne n s with
    | (true, s1) => pumpXfer k n s1
    | (false, s1) => s1

/-- Starts a transfer and sends what it can. -/
def startXfer (x : Xfer) (s : State) : State :=
  let n := s.mem.nextXfer
  pumpXfer 65536 n (updMem (fun m => { m with xfers := Tab.set none m.xfers n (some x), nextXfer := n + 1 }) s)

/-- The transfers that wait for room or for their turn go on. -/
def pumpAll (s : State) : State := (Tab.keys s.mem.xfers).foldl (fun s n => pumpXfer 65536 n s) s

/-- A transfer that has not sent anything. -/
def newXfer (kind ctx subject lender base sectors count : Nat) : Xfer :=
  { kind := kind, ctx := ctx, subject := subject, lender := lender, base := base, sectors := sectors, next := 0, count := count,
    outstanding := 0, status := stOk, poison := 0, buf := [] }

/-- Transfers of some kinds that concern a subject of a context. -/
def xfersFor (s : State) (ctx : Nat) (kinds : List Nat) (subject : Nat) : List (Nat × Xfer) :=
  s.mem.xfers.filterMap fun e => match e.2 with
    | some x => if x.ctx = ctx ∧ kinds.contains x.kind ∧ x.subject = subject then some (e.1, x) else none
    | none => none

/-- Forgets transfers. -/
def dropXfers (l : List (Nat × Xfer)) (s : State) : State := l.foldl (fun s e => s.setXfer e.1 none) s

/-- The status of transfers that have ended. -/
def xferStatus (l : List (Nat × Xfer)) : Nat := l.foldl (fun a e => firstStatus a e.2.status) stOk

/-- Answers every transfer that has not ended with a status (R353, Table 9.8). -/
def failXfers (st : Nat) (s : State) : State :=
  s.mem.xfers.foldl (fun s e => match e.2 with
    | some x => if x.ended then s else stopXfer e.1 st s
    | none => s) s

/-! ### Frames and fetches (R271 to R274) -/

/-- The page in a frame of a context's pool that is evicted next: CLEAN, PIN 0, unpinned longest ago (R274). Log 51 (DEDUCED). -/
def evictable (s : State) (ctx : Nat) : Option Nat :=
  let pool := Tab.get Pool.none s.mem.pools ctx
  s.mem.unpinned.find? fun k =>
    let p := s.page k
    k / 2 ^ 32 == ctx && pageState s p == 3 && p.pin == 0 && !p.plain &&
      decide (pool.base / 65536 ≤ p.frame ∧ p.frame < pool.base / 65536 + pool.frames)

/-- Evicts a page: CLEAN to HOME, its frame free. -/
def evict (key : Nat) (s : State) : State :=
  let p := s.page key
  updMem (fun m => { m with unpinned := m.unpinned.erase key })
    (trackFrame p.frame false (s.setPage key { p with state := 1, frame := 0 }))

/-- A frame for a page: the lowest free one of the pool, or an evicted one. -/
def takeFrame (ctx : Nat) (s : State) : Option (Nat × State) :=
  match freePoolFrames s ctx with
  | f :: _ => some (f, trackFrame f true s)
  | [] =>
    match evictable s ctx with
    | some k =>
      let f := (s.page k).frame
      some (f, trackFrame f true (evict k s))
    | none => none

/-- PIN raised by a fetch with PIN set. Log 51 (DEDUCED). -/
def pinned (pin : Bool) (p : Page) : Page := if pin then { p with pin := min 255 (p.pin + 1) } else p

/-- A fetch of a page (R271, R273): answered at once, or by the completion of the page's fetch. Log 51 (DEDUCED). -/
def fetchPage (ctx tpn : Nat) (pin : Bool) (s : State) : Option Nat × State :=
  let key := pageKey ctx tpn
  let p := s.page key
  match regionOf s ctx tpn with
  | none => (some stBadParam, s)
  | some (_, r) =>
    match p.state with
    | 0 =>
      match takeFrame ctx s with
      | none => (some stCapacity, s)
      | some (f, s1) =>
        let s2 := trackFrame f true (memClear (65536 * f) 65536 s1)
        let s3 := s2.setPage key (pinned pin { p with state := 3, frame := f, home := r.home, step := r.step, wasEmpty := true })
        (some stOk, if pin then s3 else noteUnpinned key s3)
    | 1 =>
      match takeFrame ctx s with
      | none => (some stCapacity, s)
      | some (f, s1) =>
        let s2 := s1.setPage key (pinned pin { p with state := 2, frame := f })
        if p.wasEmpty then (none, s2)
        else if p.home = 1 then
          (none, startXfer (newXfer 0 ctx tpn r.lender (slotOffset r (tpn - r.firstTpn) (bit p.slot)) 0 256) s2)
        else (none, spendPage key (copyTraffic { p with frame := f } 0xFFFF) s2)
    | 2 => (none, s.setPage key (pinned pin p))
    | _ =>
      let s1 := s.setPage key (pinned pin p)
      (some (if p.poison = 0 then stOk else stPoison), if pin then updMem (fun m => { m with unpinned := m.unpinned.erase key }) s1 else s1)

/-- An unpin in a context has its refused thatch fetches tried again; `THATCH_CNT` of their dies counts them (R298). -/
def retryThatch (ctx : Nat) (s : State) : State :=
  let dies := (s.mem.thatch.filter fun x => x.ctx == ctx).flatMap Thatch.retry
  if dies = [] then s
  else updMem (fun m => { m with
    thatch := m.thatch.map fun x => if x.ctx = ctx then { x with retry := [] } else x,
    thatchCnt := dies.foldl (fun t d => bump t (8 * d + 4)) m.thatchCnt }) s

/-- PIN lowered; false when it was 0. -/
def unpinPage (key : Nat) (s : State) : Bool × State :=
  let p := s.page key
  if p.pin = 0 then (false, s)
  else
    let s1 := retryThatch (key / 2 ^ 32) (s.setPage key { p with pin := p.pin - 1 })
    (true, if p.pin = 1 then noteUnpinned key s1 else s1)

/-- The end of a page's fetch, if its home has been read: its status and the state. -/
def finishFetch (ctx tpn : Nat) (s : State) : Option (Nat × State) :=
  let key := pageKey ctx tpn
  let p := s.page key
  let xs := xfersFor s ctx [0] tpn
  match regionOf s ctx tpn with
  | none => none
  | some (id, _) =>
    if p.state ≠ 2 ∨ xs.any (fun e => !e.2.ended) ∨ ¬ pageReady s key then none
    else
      let st := xferStatus xs
      let s0 := dropXfers xs s
      if st ≠ stOk ∧ st ≠ stPoison then
        some (st, trackFrame p.frame false (s0.setPage key { p with state := 1, frame := 0, pin := 0 }))
      else
        let sticky := weightRegion s id
        let r := if p.wasEmpty then (false, memClear (65536 * p.frame) 65536 s0)
          else if p.home = 2 then readFlashPage p.homeLoc p.frame (if sticky then p.poison.toNat else 0) s0
          else if p.home = 0 then (false, (copySectors p.homeLoc p.frame 0xFFFF s0).2)
          else (false, s0)
        let s1 := if sticky then
            ((List.range 16).filter fun i => p.poison.getLsbD i).foldl (fun s i =>
              memPoison (65536 * p.frame + 4096 * i) 4096 s) r.2
          else r.2
        let found := poisonSectors s1 p.frame
        let p1 := { p with state := 3, poison := mergePoison p.poison 0xFFFF found sticky }
        let s2 := trackFrame p.frame true s1
        let s3 := if r.1 ∧ found = 0 then rehome key (frameWords s2 p.frame) (s2.setPage key p1) else s2.setPage key p1
        some (if found = 0 then stOk else stPoison, if p.pin = 0 then noteUnpinned key s3 else s3)

/-! ### Write-back (R275) -/

/-- Starts writing a page's dirty sectors home: WRITING, its dirty bits cleared first. Log 51 (DEDUCED). -/
def startWriteback (ctx tpn : Nat) (s : State) : State :=
  let key := pageKey ctx tpn
  let p := s.page key
  match regionOf s ctx tpn with
  | none => s
  | some (_, r) =>
    let mask := if p.wasEmpty then 0xFFFF else pageDirty s p
    let s1 := setDirty p.frame 0 (s.setPage key { p with state := 5, mask := mask })
    let secs := (List.range 16).filter fun i => mask.getLsbD i
    let s2 := updMem (fun m => { m with copies := m.copies ++ secs.map fun i => { ctx := ctx, tpn := tpn, sector := i } }) s1
    if p.home = 1 then startXfer (newXfer 1 ctx tpn r.lender (slotOffset r (tpn - r.firstTpn) 0) mask.toNat (16 * secs.length)) s2
    else spendPage key (copyTraffic p (if p.home = 2 then 0xFFFF else mask.toNat)) s2

/-- The end of a page's write-back: CLEAN, or DIRTY if a sector was written meanwhile; the status it gives. -/
def finishWriteback (ctx tpn : Nat) (s : State) : Nat × State :=
  let key := pageKey ctx tpn
  let p := s.page key
  let xs := xfersFor s ctx [1] tpn
  let st := xferStatus xs
  let s0 := dropXfers xs s
  let back := fun (s : State) => setDirty p.frame ((s.mem.frame p.frame).dirty ||| p.mask) (s.setPage key { p with state := 3, mask := 0 })
  if st ≠ stOk ∧ st ≠ stPoison then (st, back s0)
  else
    let found := if p.home = 1 then xs.foldl (fun a e => a ||| e.2.poison) 0 else poisonSectors s0 p.frame
    let mask := if p.home = 2 then 0xFFFF else p.mask.toNat
    let p1 := { p with state := 3, mask := 0, wasEmpty := false, poison := mergePoison p.poison mask (found &&& mask) false }
    let end_ := if found &&& mask = 0 then stOk else stPoison
    if p.home = 2 then
      let w := readFrame p.frame s0
      match flashAppend w.1 w.2 with
      | none => (stCapacity, back w.2)
      | some (loc, s1) =>
        let s2 := if p.wasEmpty then s1 else killStripes p.homeLoc s1
        (end_, s2.setPage key { p1 with homeLoc := loc })
    else (end_, s0.setPage key p1)

/-! ### Retirement into a context's counter (R108, R278, R454) -/

end Sys2Proof.Machine
end

