-- ==== Sys2Proof/Machine/ThatchOps.lean ====
section
/-!
DEFINITION. The thatch engine's shared operations (chapter 10, R292 to R298): serving entries, landing, opening gates.
-/
namespace Sys2Proof.Machine
open Sys2Proof

/-- One event of a thatch counter of a die. -/
def thatchCount (die i : Nat) (s : State) : State := updMem (fun m => { m with thatchCnt := bump m.thatchCnt (8 * die + i) }) s

/-- Whether a schedule is that of an impression, named by its plate and the start of its occurrence. -/
def Thatch.is (x : Thatch) (plate start : Nat) : Bool := x.plate == plate && x.start == start

/-- The schedule of an impression. -/
def State.schedule (s : State) (plate start : Nat) : Option Thatch := s.mem.thatch.find? fun x => x.is plate start

/-- Changes the schedule of an impression. -/
def updThatch (plate start : Nat) (f : Thatch → Thatch) (s : State) : State :=
  updMem (fun m => { m with thatch := m.thatch.map fun x => if x.is plate start then f x else x }) s

/-- Changes an entry of a schedule. -/
def updEntry (plate start j : Nat) (f : ThatchEntry → ThatchEntry) (s : State) : State :=
  updThatch plate start (fun x => { x with entries := x.entries.mapIdx fun i e => if i = j then f e else e }) s

/-- The number of a gate in the order of its start records (R293). -/
def Thatch.gateIndex (x : Thatch) (off : Nat) : Nat := x.gates.findIdx fun g => g.off == off

/-- Whether an entry has started (R294): its die has had a BEGIN, and its gate is one of the first DIST or the gate DIST
before it has opened. -/
def Thatch.started (x : Thatch) (e : ThatchEntry) : Bool :=
  let k := x.gateIndex e.gate
  x.dies.contains e.die && (decide (k < x.dist) || ((x.gates[k - x.dist]?).map Gate.isOpen).getD false)

/-- Whether what the schedule has placed on its channels passes by the end of batten b (R294). -/
def Thatch.hasRoom (x : Thatch) (b : Nat) : Bool := x.paced.all fun e => decide (e.2 ≤ x.pace * (b + 1))

/-- Places traffic of a schedule; answers the batten in which the last of it passes (R294). -/
def thatchSpend (plate start : Nat) (l : List Nat) (s : State) : Nat × State :=
  match s.schedule plate start with
  | none => (0, s)
  | some x =>
    let r := paceSpend x.pace s.batten x.paced l
    (r.1, updThatch plate start (fun x => { x with paced := r.2 }) s)

/-- A fetch that the engine began places its frame's traffic, and the page waits for it. -/
def thatchCharge (plate start key : Nat) (s : State) : State :=
  let r := thatchSpend plate start (frameGranules (s.page key).frame) s
  r.2.setPage key { r.2.page key with due := max (r.2.page key).due r.1 }

/-- First TPN of a weight set's region. -/
def weightFirst (s : State) (wset : Nat) : Nat :=
  match Tab.get none s.mem.weights wset with
  | some w => (Tab.get Region.none s.mem.regions w.region).firstTpn
  | none => 0

/-- A block lands with a status (R298). -/
def landBlock (die st : Nat) (s : State) : State :=
  let s1 := thatchCount die 0 s
  if st = stPoison then thatchCount die 3 s1 else s1

/-- The entry whose next block a die's engine asks for: of the started ones with blocks left the first in schedule order, if PACE leaves
room, no refused fetch waits for an unpin and none has failed (R294, R298). -/
def Thatch.nextServe (x : Thatch) (batten die : Nat) : Option Nat :=
  if x.status ≠ stOk ∨ x.retry.contains die ∨ ¬ x.hasRoom batten then none
  else x.entries.findIdx? fun e => e.die == die && x.started e && decide (e.served < e.count)

/-- Serves the next block of an entry (R294, R298). -/
def serveBlock (plate start j : Nat) (s : State) : State :=
  match s.schedule plate start with
  | none => s
  | some x =>
    match x.entries[j]? with
    | none => s
    | some e =>
      let tpn := weightFirst s x.wset + e.first + e.served
      let fresh := (s.page (pageKey x.ctx tpn)).state == 1
      let r := fetchPage x.ctx tpn true s
      let took := fun (e : ThatchEntry) => { e with served := e.served + 1, pins := e.pins ++ [pageKey x.ctx tpn] }
      match r.1 with
      | none =>
        let s1 := updEntry plate start j (fun e => { took e with waiting := e.waiting ++ [tpn] }) r.2
        if fresh then thatchCharge plate start (pageKey x.ctx tpn) s1 else s1
      | some st =>
        if st = stCapacity then updThatch plate start (fun x => { x with retry := x.retry ++ [e.die] }) r.2
        else if st = stOk ∨ st = stPoison then updEntry plate start j took (landBlock e.die st r.2)
        else updThatch plate start (fun x => { x with status := firstStatus x.status st }) r.2

/-- Copies a block to DST; one that carries poison is marked in its page's POISON (R290). -/
def copyBlock (ctx tpn dst : Nat) (s : State) : State :=
  let p := s.page (pageKey ctx tpn)
  let c := copyWords (65536 * p.frame) dst 65536 s
  if c.1 then c.2.setPage (pageKey ctx tpn) { p with poison := p.poison ||| BitVec.ofNat 16 (poisonSectors s p.frame) } else c.2

/-- An entry lands once every block is in a frame, pinned (R295): its list is written, or its blocks are copied to DST, which takes the
battens that PACE asks for (R294). -/
def landEntry (plate start j : Nat) (s : State) : State :=
  match s.schedule plate start with
  | none => s
  | some x =>
    match x.entries[j]? with
    | none => s
    | some e =>
      let land := updEntry plate start j (fun e => { e with landed := true })
      let held := (List.range e.count).all fun i =>
        let p := s.page (pageKey x.ctx (weightFirst s x.wset + e.first + i))
        decide (3 ≤ p.state ∧ 0 < p.pin)
      if e.landed ∨ e.served ≠ e.count ∨ e.waiting ≠ [] ∨ ¬ held then s
      else
        match e.copying with
        | some d => if d ≤ s.batten then land s else s
        | none =>
          let first := weightFirst s x.wset + e.first
          let frame := fun (i : Nat) => (s.page (pageKey x.ctx (first + i))).frame
          let n := if e.mode = 0 then 4 * e.count else 65536 * e.count
          if ¬ mayAccess s x.ctx e.dst n then
            updThatch plate start (fun x => { x with status := firstStatus x.status stBadParam }) s
          else if e.mode = 0 then land (memWrite e.dst ((List.range e.count).flatMap fun i => leBytes 4 (frame i)) s)
          else
            let s1 := (List.range e.count).foldl (fun s i => copyBlock x.ctx (first + i) (e.dst + 65536 * i) s) s
            let r := thatchSpend plate start ((List.range e.count).flatMap fun i => frameGranules (frame i)) s1
            if r.1 ≤ s.batten then land r.2 else updEntry plate start j (fun e => { e with copying := some r.1 }) r.2

/-- Whether every entry that names a gate has landed. -/
def Thatch.gateReady (x : Thatch) (off : Nat) : Bool := x.entries.all fun e => e.gate != off || e.landed

/-- The pins that the entries of a gate hold. -/
def Thatch.pinsOf (x : Thatch) (off : Nat) : List Nat := (x.entries.filter fun e => e.gate == off).flatMap ThatchEntry.pins

/-- Releases pins. -/
def releasePins (l : List Nat) (s : State) : State := l.foldl (fun s k => (unpinPage k s).2) s

/-- Opens the gates of a schedule whose entries have landed (R295); the pins of the gate before it are released. -/
def openGates (plate start : Nat) (s : State) : State :=
  match s.schedule plate start with
  | none => s
  | some x =>
    let ready := (List.range x.gates.length).filter fun k =>
      match x.gates[k]? with
      | some g => !g.isOpen && x.gateReady g.off
      | none => false
    ready.foldl (fun s k =>
      let s1 := updThatch plate start (fun x => { x with
        gates := x.gates.mapIdx fun i g => if i = k then { g with isOpen := true } else g }) s
      if k = 0 then s1
      else
        match x.gates[k - 1]? with
        | none => s1
        | some g =>
          let s2 := releasePins (x.pinsOf g.off) s1
          updThatch plate start (fun x => { x with
            entries := x.entries.map fun e => if e.gate = g.off then { e with pins := [] } else e }) s2) s

/-- A die's engine serves its active schedules, which share its die network port one block at a time (R29, R294). Log 53 (DEDUCED). -/
def thatchGrants (die : Nat) : Nat → Nat → State → State
  | 0, _, s => s
  | n + 1, root, s =>
    let act := s.mem.thatch.filter fun x => x.dies.contains die
    let next := fun (i : Nat) => (act[i]?).bind fun x => (x.nextServe s.batten die).map fun j => (x, j)
    match (arbitrate root 12 64 fun i => (next i).isSome).bind next with
    | none => s
    | some (x, j) => thatchGrants die n (root + 12) (landEntry x.plate x.start j (serveBlock x.plate x.start j s))

/-- The grants that the schedules can use: their blocks, and for each a fetch that is refused. -/
def thatchWork (s : State) : Nat :=
  s.mem.thatch.length + ((s.mem.thatch.flatMap Thatch.entries).map fun e => e.count - e.served).sum

/-- One round of the engines: each die's serves what it can; landings and gates follow (R294, R295). -/
def thatchRound (s : State) : State :=
  let s1 := (List.range 4).foldl (fun s d => thatchGrants d (thatchWork s) s.root s) s
  s1.mem.thatch.foldl (fun s x =>
    openGates x.plate x.start ((List.range x.entries.length).foldl (fun s j => landEntry x.plate x.start j s) s)) s1

/-- The engines go on until no gate opens any more, and what waited for a gate starts (R296). -/
def thatchGo (s : State) : State :=
  retryHeld ((List.range ((s.mem.thatch.map fun x => x.gates.length).sum + 1)).foldl (fun s _ => thatchRound s) s)

/-- The end of a page's fetch reaches the schedules that wait for it (R298). -/
def thatchFetched (ctx tpn st : Nat) (s : State) : State :=
  (s.mem.thatch.filter fun x => x.ctx == ctx).foldl (fun s x =>
    (List.range x.entries.length).foldl (fun s j =>
      match (s.schedule x.plate x.start).bind fun x => x.entries[j]? with
      | none => s
      | some e =>
        if ¬ e.waiting.contains tpn then s
        else
          let s1 := updEntry x.plate x.start j (fun e => { e with waiting := e.waiting.filter (· != tpn) }) s
          if st = stOk ∨ st = stPoison then landBlock e.die st s1
          else updEntry x.plate x.start j (fun e => { e with pins := e.pins.filter (· != pageKey ctx tpn) })
            (updThatch x.plate x.start (fun x => { x with status := firstStatus x.status st }) s1)) s) s

/-- A schedule ends with its impression: its pins are released (R292, R295). -/
def endThatch (plate start : Nat) (s : State) : State :=
  match s.schedule plate start with
  | none => s
  | some x =>
    let s1 := updMem (fun m => { m with thatch := m.thatch.filter fun y => !y.is plate start }) s
    releasePins (x.entries.flatMap ThatchEntry.pins) s1

/-- The end of a page's fetch is noted for the manifests that wait for it (R308). -/
def manifestFetched (key st : Nat) (s : State) : State :=
  updMem (fun m => { m with seqs := { m.seqs with
    queues := m.seqs.queues.map fun e => (e.1, e.2.map fun q => { q with
      waits := q.waits.map fun w => if w.key = key ∧ w.status = 0xFFFF then { w with status := st } else w }) } }) s

end Sys2Proof.Machine
end

