-- ==== Sys2Proof/Machine/RegionOps.lean ====
section
/-!
DEFINITION. Tier regions as they are created and freed (chapter 09, R269, R270; R500).
-/
namespace Sys2Proof.Machine
open Sys2Proof

/-- The lowest TPN of a context from which n are in no region (R270). Log 51 (DEDUCED). -/
def freeTpns (s : State) (ctx n : Nat) : Option Nat :=
  let mine := (s.mem.regions.filter fun e => e.2.ctx == ctx).map Prod.snd
  let starts := 0 :: mine.map fun r => r.firstTpn + r.count
  (starts.filter fun a => decide (a + n ≤ 2 ^ 32) && mine.all fun r =>
    decide (a + n ≤ r.firstTpn ∨ r.firstTpn + r.count ≤ a)).min?

/-- The lender and the lowest offset of an attached range that has n bytes for a home area (R269). -/
def freeArea (s : State) (n : Nat) : Option (Remote × Nat) :=
  s.mem.remotes.findSome? fun a =>
    let used := (s.mem.regions.filter fun e => e.2.home == 1 && e.2.lender == a.lender).map fun e =>
      (e.2.homeBase, e.2.homeBase + areaLen e.2.count e.2.step)
    let starts := a.offset :: (used.map Prod.snd).filter fun o => decide (a.offset ≤ o)
    ((starts.filter fun o => decide (o + n ≤ a.offset + a.len) &&
      used.all fun u => decide (o + n ≤ u.1 ∨ u.2 ≤ o)).min?).map fun o => (a, o)

/-- The n lowest free frames of the compute sets. -/
def freeFrames (s : State) (n : Nat) : Option (List Nat) :=
  let step := fun (p : List Nat) (set : Nat) =>
    if s.mem.setRan.getLsbD set ∨ p.length = n then p
    else
      let r := setFrames set
      (List.range (n - p.length)).foldl (fun (p : List Nat) _ =>
        match findRange s set 1 false with
        | some _ =>
          let from_ := match p.getLast? with
            | some l => max r.1 (l + 1)
            | none => r.1
          match firstFit (blockedFrames s false) 1 r.2 ((blockedFrames s false).length + 1) from_ with
          | some f => p ++ [f]
          | none => p
        | none => p) p
  let l := (List.range 32).foldl step []
  if l.length = n then some l else none

/-- Charge of a region: one slot per page, two for a STEP page with a home away from HBM (Table 9.5). Log 51 (DEDUCED). -/
def regionCharge (pages home : Nat) (step : Bool) : Nat := 65536 * pages * (if step ∧ home ≠ 0 then 2 else 1)

/-- Creates a region (R270, R500): its identifier, or the status that refuses it. Log 51 (DEDUCED). -/
def createRegion (ctx pages home : Nat) (step : Bool) (tpn : Option Nat) (s : State) : Nat × Nat × State :=
  match (match tpn with
    | some t => some t
    | none => freeTpns s ctx pages) with
  | none => (stBadParam, 0, s)
  | some first =>
    if home = 2 ∧ ¬ s.mem.flash.formatted then (stNotReady, 0, s)
    else if home = 1 ∧ s.mem.remotes = [] then (stNotReady, 0, s)
    else if overQuota s ctx home (regionCharge pages home step) then (stQuota, 0, s)
    else
      let area := if home = 1 then freeArea s (areaLen pages step) else none
      let frames := if home = 0 then freeFrames s pages else some []
      match frames with
      | none => (stQuota, 0, s)
      | some fs =>
        if home = 1 ∧ area.isNone then (stNotReady, 0, s)
        else
          let id := s.mem.nextRegion
          let r : Region := { Region.none with
            ctx := ctx, firstTpn := first, count := pages, home := home, step := step,
            homeBase := (area.map Prod.snd).getD 0, lender := (area.map fun a => a.1.lender).getD 0 }
          let s1 := charge ctx home (regionCharge pages home step) (updMem (fun m => { m with
            regions := Tab.set Region.none m.regions id r, nextRegion := id + 1 }) s)
          let s2 := fs.zipIdx.foldl (fun s f =>
            let s' := ownFrames ctx f.1 1 (memClear (65536 * f.1) 65536 s)
            s'.setPage (pageKey ctx (first + f.2)) (if step then { Page.none with step := true, homeLoc := f.1 }
              else { Page.none with state := 3, frame := f.1 })) s1
          let s3 := if home = 0 then s2
            else (List.range pages).foldl (fun s i => s.setPage (pageKey ctx (first + i)) { Page.none with home := home, step := step }) s2
          (stOk, id, s3)

/-- A STEP home area is zero-filled, with generation 0 (R500). -/
def zeroArea (id : Nat) (s : State) : State :=
  let r := Tab.get Region.none s.mem.regions id
  if r.home = 1 ∧ r.step then
    let n := areaLen r.count true / 256
    let s1 := startXfer (newXfer 4 r.ctx id r.lender r.homeBase 0 n) s
    s1
  else s

/-- A page's storage is given back: its frame, its home frame, its stripes. -/
def dropPage (key : Nat) (s : State) : State :=
  let p := s.page key
  let s1 := if 2 ≤ p.state ∧ ¬ p.plain then trackFrame p.frame false s else s
  let s2 := if p.home = 0 then
      let f := if p.step then p.homeLoc else p.frame
      ownFrames 259 f 1 (memClear (65536 * f) 65536 s1)
    else if p.home = 2 ∧ p.state ≠ 0 ∧ ¬ p.wasEmpty then killStripes p.homeLoc s1
    else s1
  updMem (fun m => { m with unpinned := m.unpinned.erase key }) (s2.setPage key Page.none)

/-- Frees a region. -/
def dropRegion (id : Nat) (s : State) : State :=
  let r := Tab.get Region.none s.mem.regions id
  let s1 := (regionKeys r).foldl (fun s k => dropPage k s) s
  uncharge r.ctx r.home (regionCharge r.count r.home r.step)
    (updMem (fun m => { m with regions := Tab.set Region.none m.regions id Region.none }) s1)

end Sys2Proof.Machine
end

