-- ==== Sys2Proof/Machine/WeightOps.lean ====
section
/-!
DEFINITION. Weight sets' shared operations (chapter 10, R285 to R291): leaves, roots, and commands that wait for their blocks.
-/
namespace Sys2Proof.Machine
open Sys2Proof

/-- A weight set of the device. -/
def State.weight (s : State) (n : Nat) : Option WeightSet := Tab.get none s.mem.weights n

/-- Sets a weight set. -/
def State.setWeight (s : State) (n : Nat) (w : Option WeightSet) : State :=
  updMem (fun m => { m with weights := Tab.set none m.weights n w }) s

/-- Leaf i of a set (R286). -/
def leafHash (i : Nat) (block : List Byte) : List Byte := sha256 (0 :: leBytes 8 i ++ block)

/-- One level of the tree: pairs hashed, an odd last node carried (R286). -/
def nextLevel : List (List Byte) → List (List Byte)
  | a :: b :: r => sha256 (1 :: a ++ b) :: nextLevel r
  | [a] => [a]
  | [] => []

/-- The top of the tree. -/
def treeTop : Nat → List (List Byte) → List Byte
  | 0, l => l.headD []
  | k + 1, l => match l with
    | [a] => a
    | _ => treeTop k (nextLevel l)

/-- The weight root of n leaves (R286). -/
def weightRoot (leaves : List (List Byte)) : List Byte :=
  sha256 (2 :: leBytes 8 leaves.length ++ treeTop 32 leaves)

/-- The leaf table of a set as it stands in memory. -/
def leafTable (s : State) (w : WeightSet) : List (List Byte) :=
  (List.range w.blocks).map fun i => s.mem.mem.bytesAt (w.leafBase + 32 * i) 32

/-- Counts compressions of the proof units' engines during an installation or repair: blocks and nodes dealt to the dies
in turn. Log 53 (DEDUCED). -/
def countCompressions (blocks : Nat) (tree : Bool) (s : State) : State :=
  (List.range 4).foldl (fun s d =>
    let mine := fun (n : Nat) => (n + 3 - d) / 4
    let c := 1025 * mine blocks + (if tree then 2 * mine (blocks - 1) + (if d = 0 then 1 else 0) else 0)
    { s with det := { s.det with proofCnt := bumpBy s.det.proofCnt (8 * d + 2) c } }) s

/-- Block i of an image, padded with zeros (R285). -/
def imageBlock (img : List Byte) (i : Nat) : List Byte := sliceBytes img (65536 * i) 65536

/-- The words of a block under valid check bits. -/
def blockWords (b : List Byte) : List (BitVec 128 × BitVec 16) := (chunks 16 b).map fun w => (BitVec.ofNat 128 (ofLE w), 0)

/-- Writes blocks to the home of a set, from block `first` on (R287, step 4): an HBM home at once, flash into the log, a
rack-remote home by a transfer. `none` when the log is full. -/
def writeBlocks (n first count : Nat) (img : List Byte) (s : State) : Option State :=
  match s.weight n with
  | none => some s
  | some w =>
    let r := Tab.get Region.none s.mem.regions w.region
    if w.home = 1 then
      some (startXfer { newXfer 9 w.ctx w.region r.lender (slotOffset r first 0) 0 (256 * count) with
        buf := Tab.set [] [] 0 (sliceBytes img 0 (65536 * count)) } s)
    else
      (List.range count).foldl (fun (o : Option State) i =>
        o.bind fun s =>
          let key := pageKey w.ctx (r.firstTpn + first + i)
          let p := s.page key
          if w.home = 0 then some (memWrite (65536 * p.frame) (imageBlock img i) s)
          else
            (flashAppend (blockWords (imageBlock img i)) s).map fun q =>
              let s1 := if p.state = 0 then q.2 else killStripes p.homeLoc q.2
              updFlash (fun f => { f with flush := true })
                (s1.setPage key { p with state := if p.state = 0 then 1 else p.state, homeLoc := q.1, wasEmpty := false })) (some s)

/-- Whether the blocks of a waiting command are at their home, or have been read from it by its transfer. -/
def blocksHome (s : State) (w : WeightSet) (xfer first count : Nat) : Bool :=
  let r := Tab.get Region.none s.mem.regions w.region
  ((s.xfer xfer).map Xfer.ended).getD true &&
    (w.home != 2 || (List.range count).all fun i =>
      let p := s.page (pageKey w.ctx (r.firstTpn + first + i))
      (List.range 4).all fun j => Tab.get false s.mem.flash.written ((p.homeLoc + j) / 30))

/-- Frees a weight set: its leaf table, its region and its number. -/
def dropWeight (n : Nat) (s : State) : State :=
  match s.weight n with
  | none => s
  | some w =>
    let s1 := freeRange { ctx := w.ctx, base := w.leafBase, len := w.leafLen } (dropRegion w.region s)
    (uncharge w.ctx 0 w.leafLen s1).setWeight n none

/-- An installation ends once its blocks are home: the root is compared and written (R287, steps 4 and 5). -/
def finishInstall (q : WeightWait) (w : WeightSet) (st : Nat) (s : State) : Nat × Result × State :=
  if st ≠ stOk then (st, Result.none, dropWeight q.set s)
  else
    let root := weightRoot (leafTable s w)
    let s1 := countCompressions w.blocks true s
    if q.expected ≠ [] ∧ q.expected ≠ root then (stPlateDigest, Result.none, dropWeight q.set s1)
    else
      let r := Tab.get Region.none s1.mem.regions w.region
      let s2 := if w.home = 0 then s1
        else (regionKeys r).foldl (fun s k => s.setPage k { s.page k with state := 1, wasEmpty := false }) s1
      (stOk, { fields := [(8, 2, q.set), (12, 4, w.blocks)], block := none },
       memWrite q.out root (s2.setWeight q.set (some { w with root := root })))

/-- A page's fetch begins again from its home. -/
def refetch (key : Nat) (s : State) : State :=
  let xs := xfersFor s (key / 2 ^ 32) [0] (key % 2 ^ 32)
  match regionOf s (key / 2 ^ 32) (key % 2 ^ 32) with
  | some (_, r) =>
    if xs = [] then s
    else startXfer (newXfer 0 (key / 2 ^ 32) (key % 2 ^ 32) r.lender (slotOffset r (key % 2 ^ 32 - r.firstTpn) (bit (s.page key).slot)) 0 256)
      (dropXfers xs s)
  | none => s

/-- A repair ends: the repaired pages lose their POISON bits, and cached copies their frames; a fetch in progress reads the repaired
home (R291). Log 53 (DEDUCED). -/
def finishRepair (q : WeightWait) (w : WeightSet) (st : Nat) (s : State) : Nat × Result × State :=
  if st ≠ stOk then (st, Result.none, s)
  else
    let r := Tab.get Region.none s.mem.regions w.region
    let s1 := (List.range q.count).foldl (fun s i =>
      let key := pageKey w.ctx (r.firstTpn + q.first + i)
      let p := s.page key
      if w.home = 0 then s.setPage key { p with poison := 0 }
      else if p.state = 2 then refetch key (s.setPage key { p with poison := 0 })
      else
        let s' := if 2 ≤ p.state then trackFrame p.frame false s else s
        updMem (fun m => { m with unpinned := m.unpinned.erase key })
          (s'.setPage key { p with state := 1, frame := 0, pin := 0, poison := 0, mask := 0 })) s
    (stOk, { fields := [(8, 4, q.count)], block := none }, countCompressions q.count false s1)

/-- What `WEIGHT_QUERY` returns. -/
def weightReport (w : WeightSet) (s : State) : List Byte :=
  let r := Tab.get Region.none s.mem.regions w.region
  let bad := (List.range w.blocks).filter fun i => (s.page (pageKey w.ctx (r.firstTpn + i))).poison != 0
  w.root ++ itemsBlock ([w.blocks, w.home, bad.length] ++ bad)

/-- Reads the cached copy of block i of a set that is not homed in HBM, if a frame holds one (R288). -/
def cachedBlock (w : WeightSet) (i : Nat) (s : State) : Option ReadOut × State :=
  let p := s.page (pageKey w.ctx ((Tab.get Region.none s.mem.regions w.region).firstTpn + i))
  if w.home = 0 ∨ p.state < 3 then (none, s)
  else
    let r := readWords (65536 * p.frame) 65536 s
    (some r.1, r.2)

/-- A verification ends: blocks of which the home or a cached copy has another leaf are marked poisoned (R288, Table 10.8). Log 53 (DEDUCED). -/
def finishVerify (w : WeightSet) (st : Nat) (blocks : List (List Byte)) (poison : Bool) (s : State) : Nat × Result × State :=
  if st ≠ stOk ∧ st ≠ stPoison then (st, Result.none, s)
  else
    let r := Tab.get Region.none s.mem.regions w.region
    let leaves := leafTable s w
    let q := blocks.zipIdx.foldl (fun (q : Bool × State) b =>
      let c := cachedBlock w b.2 q.2
      let same := fun (x : List Byte) => leafHash b.2 x == leaves.getD b.2 []
      let key := pageKey w.ctx (r.firstTpn + b.2)
      (q.1 || (c.1.map ReadOut.poison).getD false,
       if same b.1 ∧ (c.1.map fun o => same o.bytes).getD true then c.2 else c.2.setPage key { c.2.page key with poison := 0xFFFF }))
      (poison, s)
    (if q.1 ∨ st = stPoison then stPoison else stOk, { fields := [], block := some (weightReport w q.2) }, q.2)

/-- Whether an active thatch schedule uses a weight set (R291, Table 10.7). -/
def weightBusy (s : State) (n : Nat) : Bool := s.mem.thatch.any fun x => x.wset == n

/-- Removes a weight set that no schedule uses and of which no page is pinned or on its way (Table 10.7). -/
def removeWeight (n : Nat) (w : WeightSet) (s : State) : Nat × State :=
  let held := (regionKeys (Tab.get Region.none s.mem.regions w.region)).any fun k =>
    let p := s.page k
    p.pin != 0 || p.state == 2 || p.state == 5
  if weightBusy s n ∨ held then (stBusy, s) else (stOk, dropWeight n s)

/-- Ends the weight commands whose blocks have arrived, in the order of their acceptance; those after them go on (R523). -/
def weightProgress (s : State) : State :=
  s.mem.weightWaits.foldl (fun s q =>
    match s.weight q.set with
    | none => s
    | some w =>
      let first := (s.mem.weightWaits.find? fun p => p.set == q.set) == some q
      let s0 := if q.xfer = 0 then s else pumpXfer 65536 q.xfer s
      if ¬ first ∨ ¬ blocksHome s0 w q.xfer q.first q.count then s0
      else
        let st := ((s0.xfer q.xfer).map Xfer.status).getD stOk
        let bytes := match s0.xfer q.xfer with
          | some x => (List.range x.count).flatMap fun i => Tab.get [] x.buf i
          | none => []
        let s1 := s0.setXfer q.xfer none
        let s2 := updMem (fun m => { m with weightWaits := m.weightWaits.erase q }) s1
        let r := match q.kind with
          | 0 => finishInstall q w st s2
          | 1 => finishRepair q w st s2
          | 3 => let x := removeWeight q.set w s2; (x.1, Result.none, x.2)
          | _ => finishVerify w st (chunks 65536 bytes) false s2
        completeSlot q.input q.slot r.1 r.2.1 r.2.2) s

end Sys2Proof.Machine
end

