-- ==== Sys2Proof/Machine/Tiers.lean ====
section
/-!
DEFINITION. Tier regions, pools, jobs, commits and discards, and the flash tier (chapter 09, R269 to R283; R500, R501).
-/
namespace Sys2Proof.Machine
open Sys2Proof

/-! ### Regions and pools -/

/-- TIER_REGION_CREATE (R269, R270, R500). -/
def execTierRegionCreate (m : Mbx) (s : State) : Host.Outcome State Fault Refusal :=
  runCmd m .own [(16, 6)] (fun s =>
    let pages := mfld m 16 4
    let home := mfld m 20 1
    if pages = 0 ∨ 3 ≤ home ∨ 2 ≤ mfld m 21 1 then refuse stBadParam s
    else
      let r := createRegion (issuer m) pages home (bitAt (mfld m 21 1) 0) none s
      if r.1 ≠ stOk then refuse r.1 s
      else
        let s1 := zeroArea r.2.1 r.2.2
        (stOk, { fields := [(8, 4, r.2.1), (12, 4, (Tab.get Region.none s1.mem.regions r.2.1).firstTpn)], block := none }, s1)) s

/-- Whether a weight set or a batch queue lives in a region. -/
def regionUsed (s : State) (id : Nat) : Bool :=
  weightRegion s id || s.mem.seqs.queues.any fun e => match e.2 with
    | some q => q.pool0 == some id || q.pool1 == some id || q.pool2 == some id
    | none => false

/-- A region of a context by its identifier. -/
def ownRegion (s : State) (ctx id : Nat) : Option Region :=
  (s.mem.regions.find? fun e => e.1 == id && e.2.ctx == ctx).map Prod.snd

/-- TIER_REGION_DESTROY (R271, Table 9.8). -/
def execTierRegionDestroy (m : Mbx) (s : State) : Host.Outcome State Fault Refusal :=
  runCmd m .own [(16, 4)] (fun s =>
    match ownRegion s (issuer m) (mfld m 16 4) with
    | none => refuse stBadParam s
    | some r =>
      let bad := fun (k : Nat) => let p := s.page k; p.pin != 0 || p.state == 5 || p.state == 2
      if (regionKeys r).any bad ∨ r.busy ≠ 0 ∨ regionUsed s (mfld m 16 4) then refuse stBusy s
      else done (dropRegion (mfld m 16 4) s)) s

/-- TIER_POOL_SET (R274): a `MEM_ALLOC` range of the context, or part of one. Its PACE holds from then on. -/
def execTierPoolSet (m : Mbx) (s : State) : Host.Outcome State Fault Refusal :=
  runCmd m .own [(16, 20)] (fun s =>
    let c := issuer m
    let base := mfld m 16 8
    let n := mfld m 24 4
    let old := Tab.get Pool.none s.mem.pools c
    let within := s.mem.ranges.any fun r => r.ctx == c && decide (r.base ≤ base ∧ base + 65536 * n ≤ r.base + r.len)
    if base % 65536 ≠ 0 ∨ ¬ within then refuse stBadParam s
    else if ((List.range old.frames).any fun i => (s.mem.frame (old.base / 65536 + i)).track) then refuse stBusy s
    else done (updMem (fun m' => { m' with
      pools := Tab.set Pool.none m'.pools c { base := base, frames := n, lowWater := mfld m 28 4, pace := mfld m 32 4 },
      paced := Tab.set [] m'.paced c [] }) s)) s

/-- MEM_REMOTE_ATTACH (R269): a range of a rack device's lent memory, covered by a window entry of the device. -/
def execMemRemoteAttach (m : Mbx) (s : State) : Host.Outcome State Fault Refusal :=
  runCmd m .pf [(16, 4), (24, 16)] (fun s =>
    let h := mfld m 16 2
    let e := Tab.get FabWin.reset s.fab.wins (mfld m 18 2)
    let off := mfld m 24 8
    let n := mfld m 32 8
    if 16384 ≤ h ∨ h / 64 ≠ s.fab.hall / 64 ∨ 4096 ≤ mfld m 18 2 ∨ off % 65536 ≠ 0 ∨ n = 0 ∨ n % 65536 ≠ 0 ∨ hbmEnd < off + n then
      refuse stBadParam s
    else if ¬ (e.valid ∧ e.owner = 257 ∧ e.level = 1 ∧ e.device = h % 64 ∧ e.base ≤ off ∧ off + n ≤ e.base + e.length) then
      refuse stWindow s
    else done (updMem (fun m' => { m' with
      remotes := m'.remotes ++ [{ lender := h, window := mfld m 18 2, offset := off, len := n }] }) s)) s

/-! ### Jobs (R278) -/

/-- The kind of pending work that a job's operation is for a region (Table 9.8). Log 51 (DEDUCED). -/
def busyKind (op : Nat) : Nat := if op = 4 then 1 else if op = 5 then 2 else 0

/-- A job that ends with a status without being performed. -/
def deadJob (ctx core cnt status : Nat) (waiter : Option (Nat × Nat)) : TierJob :=
  { ctx := ctx, op := 0, pin := false, core := core, cnt := cnt, list := [], todo := [], result := 0, status := status, failed := stOk, due := 0,
    waiter := waiter, started := true, phase := 3 }

/-- Reads a job record (Table 9.9) and puts the job in its context's queue. The job waits for its list, which is read under PACE (R274). -/
def submitJob (b : List Byte) (ctx : Nat) (waiter : Option (Nat × Nat)) (s : State) : State :=
  let op := fld b 0 1
  let count := fld b 8 4
  let list := fld b 16 8
  let result := fld b 24 8
  let core := fld b 2 2
  let cnt := fld b 4 1
  let add := fun (j : TierJob) (s : State) => updMem (fun m => { m with jobs := m.jobs ++ [j] }) s
  let place := if waiter.isSome then core == 0xFFFF && cnt == 0 else decide (core < 512 ∧ cnt < 64)
  let ok := place ∧ onlyFields b [(0, 5), (8, 4), (16, 16)] ∧ 1 ≤ op ∧ op ≤ 5 ∧ fld b 1 1 ≤ (if op = 1 then 1 else 0) ∧
    1 ≤ count ∧ count ≤ 65536 ∧ ctxOwns s ctx list (4 * count) ∧
    (if op = 1 then ctxOwns s ctx result (4 * count) = true else result = 0)
  if ¬ ok then add (deadJob ctx core cnt stBadParam waiter) s
  else
    let q := tierSpend ctx (granulesOf list (4 * count)) s
    let r := memRead ctx list (4 * count) q.2
    if r.1.poison then add (deadJob ctx core cnt stPoison waiter) r.2
    else
      let items := (List.range count).map fun i => fld r.1.bytes (4 * i) 4
      let k := busyKind op
      let regs := items.filterMap fun id => (ownRegion r.2 ctx id).map fun g => (id, g)
      if k ≠ 0 ∧ regs.any (fun e => e.2.busy ≠ 0 ∧ e.2.busy ≠ k) then add (deadJob ctx core cnt stBusy waiter) r.2
      else
        let s1 := if k = 0 then r.2
          else regs.foldl (fun s e => updMem (fun m => { m with regions := Tab.set Region.none m.regions e.1 { e.2 with busy := k } }) s) r.2
        add { ctx := ctx, op := op, pin := fld b 1 1 == 1, core := core, cnt := cnt, list := items, todo := items, result := result,
              status := stOk, failed := stOk, due := q.1, waiter := waiter, started := false, phase := 0 } s1

/-- Takes the jobs that threads have written to the tier manager's port into their contexts' queues (R252, R278). -/
def tierIntake (s : State) : State :=
  (Tab.get [] s.core.jobs 0x20).foldl (fun s j => popJob 0x20 (submitJob (leBytes 64 j.block.toNat) j.who none s)) s

/-- The job of a context that is in progress or next. -/
def headTierJob (s : State) (ctx : Nat) : Option TierJob := s.mem.jobs.find? (·.ctx == ctx)

/-- Replaces or removes a context's first job. -/
def putHead (ctx : Nat) (j : Option TierJob) (s : State) : State :=
  updMem (fun m => { m with jobs := match m.jobs.findIdx? (·.ctx == ctx) with
    | none => m.jobs
    | some i => match j with
      | some x => m.jobs.set i x
      | none => m.jobs.eraseIdx i }) s

/-- A step of the head job of a context when it is of an operation and has not started. -/
def startJob (ctx : BitVec 8) (op : Nat) (f : TierJob → State → State) (s : State) : Host.Outcome State Fault Refusal :=
  let s0 := tierIntake s
  match headTierJob s0 ctx.toNat with
  | none => .next s0
  | some j => if j.op = op ∧ ¬ j.started ∧ pacePassed s0 j.ctx j.due then .next (f j s0) else .next s0

/-- TIER_JOB (R278): completes when the job retires. -/
def execTierJob (m : Mbx) (s : State) : Host.Outcome State Fault Refusal :=
  runCmdW m .own [(16, 5), (24, 4), (32, 16)] (fun s =>
    let b := (mbytes m).drop 16 |>.take 32
    (none, submitJob (b ++ List.replicate 32 0) (issuer m) (some (m.input.toNat, m.slot.toNat)) s)) s

/-- TIER_COMMIT and TIER_DISCARD submit a job of the regions they list. -/
def submitRegions (m : Mbx) (op : Nat) (s : State) : State :=
  submitJob (record 64 [(0, 1, op), (2, 2, 0xFFFF), (8, 4, mfld m 16 4), (16, 8, mfld m 24 8)]) (issuer m)
    (some (m.input.toNat, m.slot.toNat)) s

/-- TIER_COMMIT (R276). -/
def execTierCommit (m : Mbx) (s : State) : Host.Outcome State Fault Refusal :=
  runCmdW m .own [(16, 4), (24, 8)] (fun s => (none, submitRegions m 4 s)) s

/-- TIER_DISCARD (R277). -/
def execTierDiscard (m : Mbx) (s : State) : Host.Outcome State Fault Refusal :=
  runCmdW m .own [(16, 4), (24, 8)] (fun s => (none, submitRegions m 5 s)) s

/-- TIER_FETCH (R273): the pages of a FETCH job, those that need their home read left waiting. -/
def execTierFetch (ctx : BitVec 8) (s : State) : Host.Outcome State Fault Refusal :=
  startJob ctx 1 (fun j s =>
    let r := j.list.foldl (fun (p : List Nat × Nat × State) t =>
      let q := fetchPage j.ctx t j.pin p.2.2
      match q.1 with
      | none => (p.1 ++ [t], p.2.1, q.2)
      | some st => (p.1, firstStatus p.2.1 st, q.2)) ([], stOk, s)
    putHead j.ctx (some { j with started := true, todo := r.1, status := r.2.1 }) r.2.2) s

/-- TIER_UNPIN (R278): pins fall; a page with PIN 0 gives ST_BAD_PARAM. Thatch fetches are tried again (R298). -/
def execTierUnpin (ctx : BitVec 8) (s : State) : Host.Outcome State Fault Refusal :=
  startJob ctx 2 (fun j s =>
    let r := j.list.foldl (fun (p : Nat × State) t =>
      let q := unpinPage (pageKey j.ctx t) p.2
      (firstStatus p.1 (if q.1 then stOk else stBadParam), q.2)) (stOk, s)
    thatchGo (putHead j.ctx (some { j with started := true, todo := [], status := r.1 }) r.2)) s

/-- TIER_WRITEBACK (R274, R275): the dirty pages of the list without STEP go home; a page already on its way is waited
for. -/
def execTierWriteback (ctx : BitVec 8) (s : State) : Host.Outcome State Fault Refusal :=
  startJob ctx 3 (fun j s =>
    let r := j.list.foldl (fun (p : List Nat × Nat × State) t =>
      let g := p.2.2.page (pageKey j.ctx t)
      if (regionOf p.2.2 j.ctx t).isNone then (p.1, firstStatus p.2.1 stBadParam, p.2.2)
      else if g.state = 5 then (p.1 ++ [t], p.2.1, p.2.2)
      else if pageState p.2.2 g = 4 ∧ ¬ g.step then (p.1 ++ [t], p.2.1, startWriteback j.ctx t p.2.2)
      else p) ([], stOk, s)
    putHead j.ctx (some { j with started := true, todo := r.1, status := r.2.1 }) r.2.2) s

/-- A status of a TPN that jobs of a context wait for (R273). -/
def jobsDone (ctx op tpn st : Nat) (s : State) : State :=
  updMem (fun m => { m with jobs := m.jobs.map fun j =>
    if j.ctx = ctx ∧ j.op = op ∧ j.started ∧ j.todo.contains tpn then
      { j with todo := j.todo.filter (· != tpn), status := firstStatus j.status st }
    else j }) s

/-- TIER_FETCH_COMPLETE (R271, R273, R283): every requester that waits for the page completes with one status. What waits for room
under PACE goes on first. -/
def execTierFetchComplete (ctx : BitVec 8) (tpn : BitVec 32) (s0 : State) : Host.Outcome State Fault Refusal :=
  let c := ctx.toNat
  let t := tpn.toNat
  let s := pumpAll s0
  match finishFetch c t s with
  | none => .next (thatchGo s)
  | some (st, s1) =>
    .next (thatchGo (thatchFetched c t st (manifestFetched (pageKey c t) st (jobsDone c 1 t st s1))))

/-- BACKGROUND_WRITEBACK (R274): with fewer free frames than LOW_WATER, the unpinned dirty page without STEP that has
been unpinned longest goes home. -/
def execBackgroundWriteback (ctx : BitVec 8) (s : State) : Host.Outcome State Fault Refusal :=
  let c := ctx.toNat
  let pool := Tab.get Pool.none s.mem.pools c
  if pool.lowWater ≤ (freePoolFrames s c).length then .next s
  else
    match s.mem.unpinned.find? fun k =>
      let p := s.page k
      k / 2 ^ 32 == c && pageState s p == 4 && p.pin == 0 && !p.step with
    | none => .next s
    | some k => .next (startWriteback c (k % 2 ^ 32) s)

/-- SECTOR_WRITEBACK_DONE (R271, R275): a sector has reached home; after the last one the page leaves WRITING. -/
def execSectorWritebackDone (ctx : BitVec 8) (tpn : BitVec 32) (sector : BitVec 4) (s0 : State) :
    Host.Outcome State Fault Refusal :=
  let c := ctx.toNat
  let t := tpn.toNat
  let q : SectorCopy := { ctx := c, tpn := t, sector := sector.toNat }
  let s := pumpAll s0
  if ¬ s.mem.copies.contains q ∨ (xfersFor s c [1] t).any (fun e => !e.2.ended) ∨ ¬ pageReady s (pageKey c t) then .next s
  else
    let s1 := updMem (fun m => { m with copies := m.copies.erase q }) s
    if s1.mem.copies.any fun k => k.ctx == c && k.tpn == t then .next s1
    else
      let r := finishWriteback c t s1
      .next (jobsDone c 3 t r.1 r.2)

/-! ### Commit and discard (R276, R277, R500) -/

/-- The regions of a commit or discard job, with their identifiers. -/
def jobRegions (s : State) (j : TierJob) : List (Nat × Region) :=
  j.list.filterMap fun id => (ownRegion s j.ctx id).map fun r => (id, r)

/-- The STEP pages of a region with dirty sectors. Log 51 (DEDUCED). -/
def dirtyStep (s : State) (r : Region) : List Nat :=
  if ¬ r.step then []
  else ((List.range r.count).map (r.firstTpn + ·)).filter fun t => pageState s (s.page (pageKey r.ctx t)) == 4

/-- Starts the commit of one page: a home in HBM takes its dirty sectors when the commit completes, another home gets a new slot. Log 51 (DEDUCED). -/
def commitPage (r : Region) (t : Nat) (s : State) : Nat × State :=
  let key := pageKey r.ctx t
  let p := s.page key
  let d := pageDirty s p
  let going := fun (loc : Nat) (s : State) => setDirty p.frame 0 (s.setPage key { s.page key with state := 5, mask := d, newLoc := loc })
  if p.home = 0 then
    (if poisonSectors s p.frame &&& d.toNat = 0 then stOk else stPoison, spendPage key (copyTraffic p d.toNat) (going 1 s))
  else if p.home = 1 then
    (stOk, startXfer (newXfer 2 r.ctx t r.lender (slotOffset r (t - r.firstTpn) (1 - bit p.slot)) 0 256) (going 1 s))
  else
    let found := poisonSectors s p.frame
    let w := readFrame p.frame s
    match flashAppend w.1 w.2 with
    | none => (stCapacity, w.2)
    | some (loc, s1) =>
      (if found = 0 then stOk else stPoison,
       updFlash (fun f => { f with flush := true }) (spendPage key (copyTraffic p 0xFFFF)
         (going (loc + 1) (s1.setPage key { p with poison := mergePoison p.poison 0xFFFF found false }))))

/-- TIER_JOB_COMMIT (R276): waits for the fetches of its regions, then writes every dirty STEP page to its new home. -/
def execTierJobCommit (ctx : BitVec 8) (s : State) : Host.Outcome State Fault Refusal :=
  startJob ctx 4 (fun j s =>
    let regs := jobRegions s j
    if regs.any fun e => (regionKeys e.2).any fun k => (s.page k).state == 2 then s
    else
      let bad := if regs.length = j.list.length then stOk else stBadParam
      let r := regs.foldl (fun (p : Nat × Nat × State) e =>
        (dirtyStep p.2.2 e.2).foldl (fun (p : Nat × Nat × State) t =>
          let q := commitPage e.2 t p.2.2
          (firstStatus p.1 q.1, firstStatus p.2.1 (if q.1 = stPoison then stOk else q.1), q.2)) p) (bad, stOk, s)
      putHead j.ctx (some { j with started := true, status := r.1, failed := r.2.1 }) r.2.2) s

/-- The pages of a region that a commit is writing. -/
def committing (s : State) (r : Region) : List Nat :=
  ((List.range r.count).map (r.firstTpn + ·)).filter fun t => (s.page (pageKey r.ctx t)).newLoc != 0

/-- Whether every page of a commit can be at its new home: its transfer answered, its copy passed, its flash row programmed. -/
def pagesHome (s : State) (r : Region) : Bool :=
  (committing s r).all fun t =>
    let p := s.page (pageKey r.ctx t)
    pageReady s (pageKey r.ctx t) &&
      if p.home = 0 then true
      else if p.home = 1 then (xfersFor s r.ctx [2] t).all fun e => e.2.ended
      else (List.range 4).all fun i => Tab.get false s.mem.flash.written ((p.newLoc - 1 + i) / 30)

/-- A committed page takes its new slot or its home frame the dirty sectors, or it goes back to DIRTY when the commit failed. -/
def settlePage (r : Region) (ok : Bool) (s : State) (t : Nat) : State :=
  let key := pageKey r.ctx t
  let p := s.page key
  let xs := xfersFor s r.ctx [2] t
  let s1 := dropXfers xs s
  let done := { p with state := 3, newLoc := 0, mask := 0, wasEmpty := false }
  if ¬ ok then
    let s2 := if p.home = 2 then killStripes (p.newLoc - 1) s1 else s1
    setDirty p.frame ((s2.mem.frame p.frame).dirty ||| p.mask) (s2.setPage key { p with state := 3, newLoc := 0, mask := 0 })
  else if p.home = 0 then
    let c := copySectors p.frame p.homeLoc p.mask.toNat s1
    c.2.setPage key { done with poison := mergePoison p.poison p.mask.toNat c.1 false }
  else if p.home = 1 then
    s1.setPage key { done with slot := !p.slot, poison := mergePoison p.poison 0xFFFF (xs.foldl (fun a e => a ||| e.2.poison) 0) false }
  else
    (if p.wasEmpty then s1 else killStripes p.homeLoc s1).setPage key { done with slot := !p.slot, homeLoc := p.newLoc - 1 }

/-- A commit ends: generations advance and slots flip, or everything stays as it was. -/
def endCommit (regs : List (Nat × Region)) (ok : Bool) (s : State) : State :=
  regs.foldl (fun s e =>
    let s1 := (committing s e.2).foldl (settlePage e.2 ok) s
    updMem (fun m => { m with regions := Tab.upd Region.none m.regions e.1 fun r =>
      { r with generation := if ok ∧ e.2.step then r.generation + 1 else r.generation, busy := 0 } }) s1) s

/-- The transfers of some kinds of a job's rack-remote STEP regions. -/
def regionXfers (s : State) (regs : List (Nat × Region)) (kind : Nat) : List (Nat × Xfer) :=
  regs.flatMap fun e => xfersFor s e.2.ctx [kind] e.1

/-- Starts one transfer for each rack-remote STEP region of a commit: its map or its header, which a commit without a dirty page
writes too. -/
def startRegionXfers (regs : List (Nat × Region)) (kind : Nat) (s : State) : State :=
  regs.foldl (fun s e =>
    let r := e.2
    if r.home = 1 ∧ r.step then
      let half := mapFrames r.count / 2
      if kind = 5 then
        startXfer (newXfer 5 r.ctx e.1 r.lender (r.homeBase + 65536 * (1 + half * ((r.generation.toNat + 1) % 2))) 0 (256 * half)) s
      else startXfer (newXfer 6 r.ctx e.1 r.lender r.homeBase 0 1) s
    else s) s

/-- One phase of a started commit job (R276, R500): pages, then maps, then headers, then the new state. -/
def commitPhase (j : TierJob) (s : State) : State :=
  let regs := jobRegions s j
  let fail := fun (st : Nat) (s : State) =>
    putHead j.ctx (some { j with phase := 3, todo := [], status := firstStatus j.status st }) (endCommit regs false s)
  match j.phase with
  | 0 =>
    if ¬ regs.all (fun e => pagesHome s e.2) then s
    else
      let st := xferStatus (regs.flatMap fun e => (committing s e.2).flatMap fun t => xfersFor s e.2.ctx [2] t)
      if st ≠ stOk ∧ st ≠ stPoison then fail st s
      else if j.failed ≠ stOk then fail j.failed s
      else putHead j.ctx (some { j with phase := 1 }) (startRegionXfers regs 5 s)
  | 1 =>
    let xs := regionXfers s regs 5
    if xs.any fun e => !e.2.ended then s
    else if xferStatus xs ≠ stOk then fail (xferStatus xs) (dropXfers xs s)
    else putHead j.ctx (some { j with phase := 2 }) (startRegionXfers regs 6 (dropXfers xs s))
  | 2 =>
    let xs := regionXfers s regs 6
    if xs.any fun e => !e.2.ended then s
    else if xferStatus xs ≠ stOk then fail (xferStatus xs) (dropXfers xs s)
    else putHead j.ctx (some { j with phase := 3, todo := [] }) (endCommit regs true (dropXfers xs s))
  | _ => s

/-- Restores one page from its last commit (R277); a rack-remote slot is read back first. -/
def discardPage (r : Region) (t : Nat) (s : State) : State :=
  let key := pageKey r.ctx t
  let p := s.page key
  let d := pageDirty s p
  let clean := fun (s : State) => setDirty p.frame 0 s
  if p.wasEmpty then
    clean (((List.range 16).filter fun i => d.getLsbD i).foldl (fun s i => memClear (65536 * p.frame + 4096 * i) 4096 s) s)
  else if p.home = 0 then
    let c := copySectors p.homeLoc p.frame d.toNat s
    spendPage key (copyTraffic p d.toNat) (clean (c.2.setPage key { p with poison := mergePoison p.poison d.toNat c.1 false }))
  else if p.home = 1 then
    let secs := ((List.range 16).filter fun i => d.getLsbD i).length
    startXfer (newXfer 3 r.ctx t r.lender (slotOffset r (t - r.firstTpn) (bit p.slot)) d.toNat (16 * secs)) s
  else
    let keep := frameWords s p.frame
    let home := readFlashPage p.homeLoc p.frame 0 s
    let back := frameWords home.2 p.frame
    let s1 := if home.1 ∧ ¬ back.any (fun w => w.2 == poisonDiff) then rehome key back home.2 else home.2
    let mix := ((keep.zip back).zipIdx).map fun e => if d.getLsbD (e.2 / 256) then e.1.2 else e.1.1
    let s2 := storeFrameWords p.frame mix s1
    spendPage key (copyTraffic p 0xFFFF) (clean (s2.setPage key { s2.page key with
      poison := mergePoison p.poison d.toNat (poisonSectors s2 p.frame &&& d.toNat) false }))

/-- TIER_JOB_DISCARD (R277). -/
def execTierJobDiscard (ctx : BitVec 8) (s : State) : Host.Outcome State Fault Refusal :=
  startJob ctx 5 (fun j s =>
    let regs := jobRegions s j
    let bad := if regs.length = j.list.length then stOk else stBadParam
    let s1 := regs.foldl (fun s e => (dirtyStep s e.2).foldl (fun s t => discardPage e.2 t s) s) s
    putHead j.ctx (some { j with started := true, status := bad }) s1) s

/-- The read-backs of a discard's regions. -/
def discardXfers (s : State) (regs : List (Nat × Region)) : List (Nat × Xfer) :=
  regs.flatMap fun e => (List.range e.2.count).flatMap fun i => xfersFor s e.2.ctx [3] (e.2.firstTpn + i)

/-- A started discard ends once every sector has been read back. -/
def discardPhase (j : TierJob) (s : State) : State :=
  let regs := jobRegions s j
  let xs := discardXfers s regs
  if j.phase = 3 ∨ xs.any (fun e => !e.2.ended) ∨ ¬ regs.all (fun e => (regionKeys e.2).all (pageReady s)) then s
  else
    let s1 := xs.foldl (fun s e =>
      let p := s.page (pageKey e.2.ctx e.2.subject)
      if e.2.status = stOk ∨ e.2.status = stPoison then
        setDirty p.frame 0 (s.setPage (pageKey e.2.ctx e.2.subject)
          { p with poison := mergePoison p.poison e.2.sectors (poisonSectors s p.frame &&& e.2.sectors) false })
      else s) s
    let s2 := regs.foldl (fun s e => updMem (fun m => { m with
      regions := Tab.upd Region.none m.regions e.1 fun r => { r with busy := 0 } }) s) (dropXfers xs s1)
    putHead j.ctx (some { j with phase := 3, todo := [], status := firstStatus j.status (xferStatus xs) }) s2

/-- Writes the frame numbers of a FETCH job, in list order (Table 9.9), and places that traffic under PACE (R274). -/
def writeResult (j : TierJob) (s : State) : State :=
  let q := tierSpend j.ctx (granulesOf j.result (4 * j.list.length)) s
  putHead j.ctx (some { j with phase := 3, due := q.1 }) (j.list.zipIdx.foldl (fun s t =>
    let p := s.page (pageKey j.ctx t.1)
    if 3 ≤ p.state ∧ ctxOwns s j.ctx (j.result + 4 * t.2) 4 then memWrite (j.result + 4 * t.2) (leBytes 4 p.frame) s else s) q.2)

/-- Takes the head job of a context as far as it can go. -/
def jobProgress (ctx : Nat) (s : State) : State :=
  (List.range 3).foldl (fun s _ =>
    match headTierJob s ctx with
    | some j =>
      if ¬ j.started then s
      else match j.op with
        | 1 => if j.todo = [] ∧ j.phase = 0 then writeResult j s else s
        | 4 => commitPhase j s
        | 5 => discardPhase j s
        | _ => s
    | none => s) s

/-- Whether a job has done everything. -/
def TierJob.finished (j : TierJob) : Bool :=
  j.started && (if j.op = 1 ∨ j.op = 4 ∨ j.op = 5 then j.phase == 3 else j.todo == [])

/-- TIER_JOB_COMPLETE (R278): what waits for room under PACE goes on; the job retires into its counter, or completes its mailbox command, with the first status
other than ST_OK. -/
def execTierJobComplete (ctx : BitVec 8) (s : State) : Host.Outcome State Fault Refusal :=
  let c := ctx.toNat
  let s0 := jobProgress c (pumpAll (tierIntake s))
  match headTierJob s0 c with
  | none => .next s0
  | some j =>
    if ¬ j.finished ∨ ¬ pacePassed s0 c j.due then .next s0
    else
      let s1 := putHead c none s0
      match j.waiter with
      | some w => .next (completeSlot w.1 w.2 j.status Result.none s1)
      | none => .next (retireFor c j.core j.cnt j.status s1)

/-! ### Adoption (R501) -/

/-- TIER_REGION_ADOPT (R501): the header of the home area is read first. -/
def execTierRegionAdopt (m : Mbx) (s : State) : Host.Outcome State Fault Refusal :=
  runCmdW m .own [(16, 32)] (fun s =>
    let c := issuer m
    let h := mfld m 16 2
    let off := mfld m 24 8
    let n := mfld m 32 8
    let first := mfld m 20 4
    let f := n / 65536
    -- the page count whose area has the length given
    let guess := (f - 1) / 2
    let pages := ((List.range (guess / 262144 + 3)).filterMap fun i =>
      if areaLen (guess - i) true = n then some (guess - i) else none).head?.getD 0
    let mine := (s.mem.regions.filter fun e => e.2.ctx == c).map Prod.snd
    let e := Tab.get FabWin.reset s.fab.wins (mfld m 18 2)
    if 16384 ≤ h ∨ h / 64 ≠ s.fab.hall / 64 ∨ 4096 ≤ mfld m 18 2 ∨ off % 65536 ≠ 0 ∨ n % 65536 ≠ 0 ∨ pages = 0 ∨
        2 ^ 32 < first + pages ∨ hbmEnd < off + n then (some (stBadParam, Result.none), s)
    else if mine.any fun r => decide (first < r.firstTpn + r.count ∧ r.firstTpn < first + pages) then
      (some (stBadParam, Result.none), s)
    else if overQuota s c 1 (regionCharge pages 1 true) then (some (stQuota, Result.none), s)
    else if ¬ (e.valid ∧ e.owner = 257 ∧ e.level = 1 ∧ e.device = h % 64 ∧ e.base ≤ off ∧ off + n ≤ e.base + e.length) then
      (some (stWindow, Result.none), s)
    else
      let k := s.mem.nextXfer
      let a : Adopt := { number := k, input := m.input.toNat, slot := m.slot.toNat, ctx := c, lender := h, offset := off, pages := pages,
                         firstTpn := first, expected := mfld m 40 8, generation := 0 }
      (none, startXfer (newXfer 7 c k h off 0 1) (updMem (fun m => { m with adopts := m.adopts ++ [a] }) s))) s

/-- An adoption ends with a status. -/
def endAdopt (a : Adopt) (st : Nat) (r : Result) (s : State) : State :=
  completeSlot a.input a.slot st r (updMem (fun m => { m with adopts := m.adopts.filter fun b => b.number != a.number }) s)

/-- The region of an adoption: every page HOME in the slot that the map names (R501). -/
def adoptRegion (a : Adopt) (bits : List Byte) (s : State) : State :=
  let id := s.mem.nextRegion
  let r : Region := { Region.none with
    ctx := a.ctx, firstTpn := a.firstTpn, count := a.pages, home := 1, step := true, generation := BitVec.ofNat 64 a.generation,
    homeBase := a.offset, lender := a.lender }
  let s1 := charge a.ctx 1 (regionCharge a.pages 1 true) (updMem (fun m => { m with
    regions := Tab.set Region.none m.regions id r, nextRegion := id + 1 }) s)
  let s2 := (List.range a.pages).foldl (fun s i => s.setPage (pageKey a.ctx (a.firstTpn + i))
    { Page.none with state := 1, home := 1, step := true, slot := (bits.getD (i / 8) 0).getLsbD (i % 8) }) s1
  endAdopt a stOk { fields := [(8, 4, id), (16, 8, a.generation)], block := none } s2

/-- Takes an adoption further: the header is judged, then the map is read. -/
def adoptProgress (a : Adopt) (s : State) : State :=
  let hs := xfersFor s a.ctx [7] a.number
  let ms := xfersFor s a.ctx [8] a.number
  if (hs ++ ms).any fun e => !e.2.ended then s
  else
    match hs, ms with
    | (_, x) :: _, [] =>
      let b := Tab.get [] x.buf 0
      let g := fld b 0 8
      let s1 := dropXfers hs s
      if x.status ≠ stOk then endAdopt a x.status Result.none s1
      else if fld b 12 4 ≠ 0x53544550 ∨ fld b 8 4 ≠ a.pages ∨ (a.expected ≠ 2 ^ 64 - 1 ∧ g ≠ a.expected) then
        endAdopt a stNotReady Result.none s1
      else
        let half := mapFrames a.pages / 2
        let s2 := updMem (fun m => { m with adopts := m.adopts.map fun b => if b.number = a.number then { b with generation := g } else b }) s1
        startXfer (newXfer 8 a.ctx a.number a.lender (a.offset + 65536 * (1 + half * (g % 2))) 0 (256 * half)) s2
    | _, (_, x) :: _ =>
      let s1 := dropXfers ms s
      if x.status ≠ stOk then endAdopt a x.status Result.none s1
      else adoptRegion a ((List.range x.count).flatMap fun i => Tab.get [] x.buf i) s1
    | [], [] => s

/-- What follows when transfers have ended: adoptions go on and the zeroing of areas is forgotten. -/
def settleXfers (s : State) : State :=
  let s1 := (List.range 2).foldl (fun s _ => s.mem.adopts.foldl (fun s a => adoptProgress a s) s) s
  weightProgress (dropXfers (s1.mem.xfers.filterMap fun e => match e.2 with
    | some x => if x.kind = 4 ∧ x.ended then some (e.1, x) else none
    | none => none) s1)

/-- A response to a piece of a transfer (R364, R365): its data lands, and the transfer goes on. -/
def xferResponse (n i st : Nat) (ws : List (BitVec 144)) (s : State) : State :=
  match s.xfer n with
  | none => s
  | some x =>
    let poisoned := ws.any fun w => (readWord w).2
    let x1 := { x with outstanding := x.outstanding - 1, status := firstStatus x.status (if st = stOk ∧ poisoned then stPoison else st),
                       next := if st = stOk ∨ st = stPoison then x.next else x.count }
    let s1 := s.setXfer n (some x1)
    let s2 := if readsKind x.kind ∧ (st = stOk ∨ st = stPoison) then landPiece s1 n x1 i ws else s1
    settleXfers (pumpXfer 512 n s2)

/-! ### Flash (R279 to R282) -/

/-- What the ONFI parameter page of a chip enable says (R279). Log 52 (DESIGN CHOICE). -/
def geomOk (g : FlashGeom) : Bool := decide (16384 ≤ g.data.toNat ∧ 2560 ≤ g.spare.toNat)

/-- Bytes of one chip enable. -/
def geomBytes (g : FlashGeom) : Nat := g.data.toNat * g.pages.toNat * g.blocks.toNat * g.luns.toNat

/-- FLASH_FORMAT (R279): the parameter pages of all 256 chip enables, in channel order, are checked; the log begins
empty. Log 52 (DESIGN CHOICE). -/
def execFlashFormat (m : Mbx) (geoms : List FlashGeom) (s : State) : Host.Outcome State Fault Refusal :=
  runCmd m .pf [(16, 1)] (fun s =>
    match geoms with
    | [] => refuse stBadParam s
    | g :: _ =>
      let sets := 8 * g.blocks.toNat * g.luns.toNat
      let cap := 30 * 16384 * sets * g.pages.toNat
      if 2 ≤ mfld m 16 1 then refuse stBadParam s
      else if (List.range 256).any fun c => (s.quota c 2).usage ≠ 0 then refuse stBusy s
      else if geoms.length ≠ 256 ∨ geoms.any (· != g) ∨ ¬ geomOk g ∨ 64 * 10 ^ 12 < 256 * geomBytes g ∨ sets * g.pages.toNat = 0 then
        (stBadParam, Result.none, updFlash (fun f => { f with formatted := false }) s)
      else
        let s1 := updFlash (fun f => { f with
          formatted := true, capacity := cap, rowsPerSet := g.pages.toNat, sets := sets, stripes := [], parity := [], head := 0,
          written := [], flush := false, moves := [], cnt := if bitAt (mfld m 16 1) 0 then bumpBy f.cnt 4 sets else f.cnt }) s
        (stOk, { fields := [(8, 8, cap)], block := none }, s1)) s

/-- Rows that hold stripes and are not programmed. -/
def openRows (f : Flash) : List Nat :=
  ascending ((f.stripes.map fun e => e.1 / 30).filter fun w => !Tab.get false f.written w)

/-- The parity of a group of a row (R281). -/
def parityStripe (f : Flash) (row g : Nat) : Stripe :=
  let l := (List.range 15).map fun i => Tab.get Stripe.blank f.stripes (30 * row + 15 * g + i)
  let ws := (List.range 1024).map (xorWord l)
  { data := ws.flatMap fun w => leBytes 16 w.1.toNat, diff := ws.map Prod.snd, failed := false, live := false }

/-- FLASH_ROW_PROGRAM (R281, R282): the first row that is full, or the open row at a commit, is programmed with its
parity. -/
def execFlashRowProgram (s : State) : Host.Outcome State Fault Refusal :=
  let f := s.mem.flash
  let full := (openRows f).find? fun w => decide (w ≠ f.head / 30)
  let row := match full with
    | some w => some w
    | none => if f.flush ∧ f.head % 30 ≠ 0 ∧ (openRows f).contains (f.head / 30) then some (f.head / 30) else none
  match row with
  | none => .next (updFlash (fun f => { f with flush := false }) s)
  | some w =>
    let padded := w = f.head / 30
    .next (weightProgress (flashCount 1 (updFlash (fun f => { f with
      written := Tab.set false f.written w true,
      parity := Tab.set Stripe.blank (Tab.set Stripe.blank f.parity (2 * w) (parityStripe f w 0)) (2 * w + 1) (parityStripe f w 1),
      head := if padded then 30 * w else f.head,
      flush := if padded then false else f.flush }) s)))

/-- The block sets that hold a programmed row or stripes. -/
def usedSets (f : Flash) : List Nat :=
  ascending (((f.written.map fun (e : Nat × Bool) => e.1) ++ (f.stripes.map fun (e : Nat × Stripe) => e.1 / 30)).map f.setOf)

/-- Live stripes of a block set. -/
def liveIn (f : Flash) (b : Nat) : Nat := (f.stripes.filter fun e => e.2.live && f.setOf (e.1 / 30) == b).length

/-- Erases a block set (R282). -/
def eraseSet (b : Nat) (s : State) : State :=
  flashCount 4 (updFlash (fun f => { f with
    stripes := f.stripes.filter fun (e : Nat × Stripe) => f.setOf (e.1 / 30) != b,
    parity := f.parity.filter fun (e : Nat × Stripe) => f.setOf (e.1 / 2) != b,
    written := f.written.filter fun (e : Nat × Bool) => f.setOf e.1 != b,
    moves := f.moves.filter fun q => q.1 != b }) s)

/-- Whether a block set may be erased: no live stripe is in it, and the rows that its pages went to are programmed (R282). -/
def mayErase (f : Flash) (b : Nat) : Bool :=
  liveIn f b == 0 && f.moves.all fun q => q.1 != b || Tab.get false f.written q.2

/-- Moves the page whose stripes begin at a location to the head of the log. -/
def movePage (key : Nat) (s : State) : State :=
  let p := s.page key
  let r := (List.range 4).foldl (fun (a : List (BitVec 128 × BitVec 16) × State) i =>
    let x := readStripe (key / 2 ^ 32) (p.homeLoc + i) 0 a.2
    (a.1 ++ x.1, x.2.2)) ([], s)
  rehome key r.1 r.2

/-- FLASH_COMPACTION (R282): below 2 % free block sets, the set with the fewest live stripes is emptied; sets without a
live stripe are erased, once what left them is programmed. -/
def execFlashCompaction (s : State) : Host.Outcome State Fault Refusal :=
  let f := s.mem.flash
  let used := usedSets f
  let open_ := (f.head / 30 :: openRows f).map f.setOf
  let full := used.filter fun b => !open_.contains b
  let s1 := if 50 * (f.sets - used.length) < f.sets then
      match full.foldl (fun (best : Option Nat) b => match best with
        | none => some b
        | some a => if liveIn f b < liveIn f a then some b else best) none with
      | none => s
      | some b =>
        (s.mem.pages.filter fun e => e.2.home == 2 && e.2.state != 0 && !e.2.wasEmpty &&
          ((List.range 4).any fun i => f.setOf ((e.2.homeLoc + i) / 30) == b)).foldl (fun s e => movePage e.1 s) s
    else s
  .next (full.foldl (fun s b => if mayErase s.mem.flash b then eraseSet b s else s) s1)

end Sys2Proof.Machine
end

