-- ==== Sys2Proof/Machine/Fabric.lean ====
section
/-!
DEFINITION. The fabric's rows (chapter 12): packets that arrive, responses, transit, timeouts, the fabric commands and the
WRITE descriptors of Abard-bound queues (R407).
-/
namespace Sys2Proof.Machine
open Sys2Proof

/-! ### Ends of requests (R118, R352, R353, R365) -/

/-- Captures a response that ends a request of the recorded context (Table 17.4, type 4): the effect word, then what was
written, and the address it was written at. A poisoned word of the data marks the payload word after its own. -/
def captureResponse (t : Track) (core cnt st addr : Nat) (data : List Byte) (s : State) : State :=
  if recordsCtx s t.owner then
    let bad := if addr = 0 then [] else (poisonWords s (addr / 16 * 16) (addr % 16 + data.length)).map (· + 1)
    capture 4 t.dst t.owner addr t.num s.now (leBytes 8 (core + cnt * 2 ^ 16 + st * 2 ^ 24) ++ data) bad s
  else s

/-- The counter of the descriptor that a request belongs to. -/
def entryCnt (s : State) (t id : Nat) : Nat :=
  match findEntry s (t / 8) id with
  | some (_, _, e) => (readDesc e.block).cnt
  | none => 0

/-- Whether a request is an LDX. -/
def isLdx (s : State) (t id : Nat) : Bool :=
  match findEntry s (t / 8) id with
  | some (_, _, e) => e.kind == 1
  | none => false

/-- A descriptor of a host queue ends with a status (R428). -/
def endDesc (hq index st : Nat) (s : State) : State := updDesc hq index (fun e => { e with phase := 2, status := st }) s

/-- A tracked request ends with a status and the words of its response: its data lands, its requester goes on, and its
entry is freed. -/
def completeTrack (tag : Nat) (t : Track) (st : Nat) (words : List (BitVec 144)) (s : State) : State :=
  let s0 := freeTrack tag t s
  let good := st = stOk ∨ st = stPoison
  match t.req with
  | .me th id n =>
    let k := th / 8
    let cnt := entryCnt s th id
    if t.op = 1 ∧ good ∧ isLdx s th id then
      let v := wordsValue t.offset words
      let st' := firstStatus st (if v.2 then stPoison else stOk)
      acknowledge th id n st' true v.1 (captureResponse t k cnt st' 0 (leBytes 8 v.1.toNat) s0)
    else if t.op = 1 ∧ good then
      let w := landData t.owner th t.loc t.offset t.len words s0
      let st' := firstStatus w.1 st
      acknowledge th id n st' true 0 (captureResponse t k cnt st' t.loc (w.2.mem.mem.bytesAt t.loc t.len) w.2)
    else if t.op = 3 then
      let m := 4 * 2 ^ t.size
      let old := (readWord (words.getD 0 0)).1.toNat % 256 ^ m
      let s1 := atomicResult t.owner th id st old t.size t.ret t.loc true s0
      captureResponse t k cnt st t.loc (if t.ret ∧ hasResult st then s1.mem.mem.bytesAt t.loc m else []) s1
    else acknowledge th id n st true 0 (captureResponse t k cnt st 0 [] s0)
  | .tier x piece => pumpMirror s0.rad.mirrorOut.length (xferResponse x piece st words s0)
  | .desc hq index => endDesc hq index (firstStatus st (if t.poison then stPoison else stOk)) (captureResponse t 0 0 st 0 [] s0)
  | .recUnit => pumpMirror s0.rad.mirrorOut.length s0
  | .mirror _ => pumpMirror s0.rad.mirrorOut.length s0

/-- Takes a request's packets out of the transmit queues. -/
def unqueue (tag : Nat) (s : State) : State :=
  updFab (fun f => { f with queues := Tab.mapEntries [] (fun _ q => q.filter fun p => p.tag != some tag) f.queues }) s

/-- Ends every outstanding request that a condition names (R352, R353): loads and stores with a status, atomics that were sent
with ST_INDETERMINATE. -/
def endTracks (p : Track → Bool) (st : Nat) (s : State) : State :=
  s.fab.tracks.foldl (fun s e => match s.track e.1 with
    | none => s
    | some t =>
      if ¬ p t ∨ t.unsent then s
      else
        completeTrack e.1 t (if t.op = 3 ∧ t.sent then stIndeterminate else st) [] (unqueue e.1 s)) s

/-! ### Packets that arrive -/

/-- Whose data a packet that arrives carries, and the device address it is for: a response's is its request's, the tier manager's that of
the context it works for, a hall request's the window's context's. Log 54 (DEDUCED). -/
def packetPlace (s : State) (words : List (BitVec 144)) : Who × Nat :=
  let h := readHdr words
  let h1 := readHdr1 words
  if h.dst ≠ s.fab.hall then (257, 0)
  else if h.rsp then
    match s.track h.tag with
    | some t =>
      match t.req with
      | .tier n _ => (((s.xfer n).map Xfer.ctx).getD t.owner, t.loc)
      | _ => (t.owner, t.loc)
    | none => (257, 0)
  else if h.opc < 16 ∧ h1.level = 2 then
    ((Tab.get InWin.reset s.fab.inwins h1.window).ctx, (Tab.get InWin.reset s.fab.inwins h1.window).base + h1.offset)
  else (257, if h.opc < 16 then h1.offset else 0)

/-- What the fabric ingress finds in a word (R263, R265): a correction counts for the data's owner, an uncorrectable word is logged. -/
def accountIngress (p : Who × Nat) (s : State) (w : BitVec 144) : State :=
  match receive w with
  | .poison | .clean => s
  | .uncorrectable => logUncorrectable 5 p.2 s
  | _ => updMem (fun m => { m with evCorrected := bump m.evCorrected p.1 }) s

/-- Takes a received packet out of its port's buffer, its words decoded (R263). Log 54 (DEDUCED). -/
def takeArrived (port : Nat) (words : List (BitVec 144)) (s : State) : State :=
  words.foldl (accountIngress (packetPlace s words))
    (updFab (fun f => { f with ports := Tab.upd AbrPort.reset f.ports port fun p => { p with arrived := p.arrived.erase words } }) s)

/-- Whether the header words of a packet decode without poison. Log 31 (DEDUCED), 54 (DEDUCED). -/
def headersGood (words : List (BitVec 144)) (n : Nat) : Bool :=
  decide (n ≤ words.length) && (words.take n).all fun w => !(readWord w).2

/-- Forwards a packet of another device (R344 to R346): its HOPS rises, and its words go on as its decoder leaves them: corrected
where one symbol is in error, poisoned where they are uncorrectable (R263, R264). Log 11 (DESIGN CHOICE), 56 (DEDUCED). -/
def forwardPacket (words : List (BitVec 144)) (s : State) : State :=
  let h := readHdr words
  if h.hops = 15 then faultEvent 8 (leBytes 2 h.dst) (fabCount 9 s)
  else
    let w0 := readWord (words.getD 0 0)
    let next := sendWord (BitVec.ofNat 128 (w0.1.toNat + 2 ^ 10)) w0.2
    let off := if h.rsp then 0 else (readHdr1 words).offset
    let r := routePacket h.dst off { vc := h.vc, rsp := h.rsp, words := next :: (words.drop 1).map relayWord, tag := none, owner := none } none s
    if r.1.isSome then fabCount 11 r.2 else r.2

/-- Whether a packet's EPOCH is the one its sender holds (R351). -/
def epochOk (s : State) (h : Hdr) : Bool := !(s.peer h.src).lost && (s.peer h.src).epoch.toNat == h.epoch

/-- The form of every request that arrives: packets that are malformed are dropped and counted, those of another device go
on, the epoch is checked (R351) and the source is policed (R413) before the home acts. Log 54 (DEDUCED). -/
def requestIn (port opc : Nat) (words : List (BitVec 144)) (home : Hdr → Hdr1 → State → State) (s : State) :
    Host.Outcome State Fault Refusal :=
  let s1 := takeArrived port words s
  let h := readHdr words
  let h1 := readHdr1 words
  let n := if opc = 2 then 2 + coveredWords h1.offset h.len else if opc = 3 then 4 else 2
  if ¬ headersGood words 2 ∨ h.opc ≠ opc ∨ h.rsp then .next (fabCount 10 s1)
  else if h.dst ≠ s.fab.hall then .next (forwardPacket words s1)
  else if words.length ≠ n ∨ h1.level = 0 ∨ h1.level = 3 then .next (fabCount 10 s1)
  else
    let s2 := fabCount 1 s1
    if ¬ epochOk s h then .next (respond h h1.offset 0x1F stEpoch [] (fabCount 2 s2))
    else
      let p := police (Tab.get Policer.reset s2.traf.policers (8192 + h.src)) (16 * words.length)
      if 3 ≤ h.vc ∧ ¬ p.1 then
        .next { s2 with traf := { s2.traf with cnt := bumpBy (bump s2.traf.cnt 2) 3 (16 * words.length) } }
      else .next (home h h1 (if 3 ≤ h.vc then s2.setPolicer (8192 + h.src) p.2 else s2))

/-- A refused request is answered with NAK ST_WINDOW and counted (R350). Log 54 (DEDUCED). -/
def refuseIn (h : Hdr) (h1 : Hdr1) (s : State) : State := respond h h1.offset 0x1F stWindow [] (fabCount 3 s)

/-- READ (R350, R354): the aligned words that the request covers are read and returned. -/
def execPktRead (port : BitVec 5) (words : List (BitVec 144)) (s : State) : Host.Outcome State Fault Refusal :=
  requestIn port.toNat 1 words (fun h h1 s =>
    match homeAddress s h1.level h1.window h1.offset h.len with
    | none => refuseIn h h1 s
    | some a =>
      let r := homeRead (homeWho s h1.level h1.window) a h.len s
      respond h h1.offset 0x11 stOk r.1 r.2.2) s

/-- Whether the context of an inbound window is being replayed: hall writes into it are shut out (R480). -/
def windowReplayed (s : State) (h1 : Hdr1) : Bool :=
  h1.level == 2 && replaysCtx s (Tab.get InWin.reset s.fab.inwins h1.window).ctx

/-- Captures a hall write into a window of the recorded context (Table 17.4, type 5). Log 48 (DESIGN CHOICE). -/
def captureInbound (h : Hdr) (h1 : Hdr1) (a : Nat) (s : State) : State :=
  let c := (Tab.get InWin.reset s.fab.inwins h1.window).ctx
  if h1.level = 2 ∧ recordsCtx s c then
    capture 5 h.src c a 0 s.now (s.mem.mem.bytesAt a h.len) (poisonWords s a h.len) s
  else s

/-- WRITE (R343, R350, R354, R356): the words are written under their byte enables, a window with NOTIFY counts the write, and
WRITE_ACK goes back. -/
def execPktWrite (port : BitVec 5) (words : List (BitVec 144)) (s : State) : Host.Outcome State Fault Refusal :=
  requestIn port.toNat 2 words (fun h h1 s =>
    match (if windowReplayed s h1 then none else homeAddress s h1.level h1.window h1.offset h.len) with
    | none => refuseIn h h1 s
    | some a =>
      let r := homeWrite (homeWho s h1.level h1.window) a h.len h1.firstBe h1.lastBe (words.drop 2) (storeRace (· == 2 ^ 14 + h.src) a h.len s)
      let s1 := notifyWindow (fun ctx core cnt s => retireFor ctx core cnt stOk s) h1.level h1.window r.2
      respond h h1.offset 0x12 (if r.1 then stPoison else stOk) [] (captureInbound h h1 a s1)) s

/-- The ledger slot of a source: the one it holds, or the lowest that no source holds (R361). Log 55 (DEDUCED). -/
def ledgerSlot (s : State) (src : Nat) : Option Nat :=
  let held := s.fab.ledgerOwners
  match (held.find? fun e => e.2 == some src) with
  | some e => some e.1
  | none => (List.range (held.length + 1)).find? fun i =>
      decide (i < s.fab.ledgerSlots) && (Tab.get none held i).isNone

/-- Answers an atomic with a status and its old value. -/
def atomicAnswer (h : Hdr) (h1 : Hdr1) (st old : Nat) (s : State) : State :=
  respond h h1.offset 0x13 st [sendWord (BitVec.ofNat 128 old) false] s

/-- Whether an ATOMIC is well formed at its home (R357). Log 54 (DEDUCED). -/
def atomicOk (h : Hdr) (h1 : Hdr1) : Bool :=
  atopOk h1.atop h1.size && h1.offset % (4 * 2 ^ h1.size) == 0 && h.len == 4 * 2 ^ h1.size

/-- The ADD that a packet which has arrived asks for, if it is one that this device performs: its address and SIZE. -/
def packetAdd (s : State) (words : List (BitVec 144)) : Option (Nat × Nat) :=
  let h := readHdr words
  let h1 := readHdr1 words
  if h.opc ≠ 3 ∨ h.rsp ∨ h.dst ≠ s.fab.hall ∨ h1.atop ≠ 1 then none
  else (homeAddress s h1.level h1.window h1.offset h.len).map fun a => (a, h1.size)

/-- An ADD that is performed while another of its SIZE to its word waits counts as combined with it (R359). Log 31 (DEDUCED). -/
def countCombined (a atop size : Nat) (s : State) : State :=
  if atop == 1 && (s.fab.ports.flatMap fun e => e.2.arrived.filterMap (packetAdd s)).any fun x => x.2 == size && x.1 / 16 == a / 16 then
    fabCount 12 s
  else s

/-- Applies an atomic and logs it in its record (R358, R362). Log 55 (DEDUCED). -/
def applyAtomic (h : Hdr) (h1 : Hdr1) (a rec_ : Nat) (words : List (BitVec 144)) (s : State) : State :=
  let cmp := readWord (words.getD 2 0)
  let op := readWord (words.getD 3 0)
  let r := if cmp.2 ∨ op.2 then (stPoison, 0, s)
    else performAtomic (homeWho s h1.level h1.window) a h1.atop h1.size cmp.1.toNat op.1.toNat (countCombined a h1.atop h1.size s)
  let logged : LedgerRec := { valid := true, aseq := BitVec.ofNat 16 h1.aseq, status := r.1, result := BitVec.ofNat 128 r.2.1 }
  atomicAnswer h h1 r.1 r.2.1 (updFab (fun f => { f with ledger := Tab.set LedgerRec.reset f.ledger rec_ logged }) r.2.2)

/-- ATOMIC (R357, R358, R361, R362): the source's slot is given at its first atomic, and the ledger is met before anything else, so
that an atomic is applied once. -/
def execPktAtomic (port : BitVec 5) (words : List (BitVec 144)) (s : State) : Host.Outcome State Fault Refusal :=
  requestIn port.toNat 3 words (fun h h1 s =>
    if s.fab.ledgerSlots = 0 then respond h h1.offset 0x1F stNotReady [] s
    else
      match ledgerSlot s h.src with
      | none => respond h h1.offset 0x1F stCapacity [] (fabCount 8 s)
      | some slot =>
        let key := 1024 * slot + h1.aseq % 1024
        let l := Tab.get LedgerRec.reset s.fab.ledger key
        let age := (BitVec.ofNat 16 h1.aseq - l.aseq).toNat
        let s1 := updFab (fun f => { f with ledgerOwners := Tab.set none f.ledgerOwners slot (some h.src) }) s
        if l.valid ∧ age = 0 then atomicAnswer h h1 l.status l.result.toNat s1
        else if l.valid ∧ 2 ^ 15 ≤ age then fabCount 7 s1
        else if ¬ atomicOk h h1 then respond h h1.offset 0x1F stBadParam [] s1
        else
          match homeAddress s1 h1.level h1.window h1.offset h.len with
          | none => refuseIn h h1 s1
          | some a => applyAtomic h h1 a key words s1) s

/-- Whether the data of a response waits at a full port (R252). -/
def landingHeld (t : Track) (st : Nat) (s : State) : Bool :=
  t.op == 1 && (st == stOk || st == stPoison) && jobHeld s t.owner t.loc t.len

/-- The form of every response that arrives: it ends the request of its TAG and GEN, or is dropped (R351, R365). One whose data goes
to a full port stays in its buffer until the port has room (R252). -/
def responseIn (port opc : Nat) (words : List (BitVec 144)) (fits : Track → Bool) (s : State) : Host.Outcome State Fault Refusal :=
  let s1 := takeArrived port words s
  let h := readHdr words
  if ¬ headersGood words 1 ∨ h.opc ≠ opc ∨ ¬ h.rsp then .next (fabCount 10 s1)
  else if h.dst ≠ s.fab.hall then .next (forwardPacket words s1)
  else if ¬ epochOk s h then .next (fabCount 2 s1)
  else
    match s1.track h.tag with
    | none => .next (fabCount 6 s1)
    | some t =>
      if t.gen.toNat ≠ h.gen ∨ t.unsent then .next (fabCount 6 s1)
      else if ¬ fits t then .next (fabCount 10 s1)
      else if landingHeld t h.status s then .next s
      else .next (completeTrack h.tag t h.status (words.drop 1) (unqueue h.tag s1))

/-- READ_DATA (R354, R365, R599). -/
def execPktReadData (port : BitVec 5) (words : List (BitVec 144)) (s : State) : Host.Outcome State Fault Refusal :=
  responseIn port.toNat 0x11 words (fun t => t.op == 1 && words.length == 1 + coveredWords t.offset t.len) s

/-- WRITE_ACK (R354, R365). -/
def execPktWriteAck (port : BitVec 5) (words : List (BitVec 144)) (s : State) : Host.Outcome State Fault Refusal :=
  responseIn port.toNat 0x12 words (fun t => t.op == 2 && words.length == 1) s

/-- ATOMIC_RESULT (R357, R365). -/
def execPktAtomicResult (port : BitVec 5) (words : List (BitVec 144)) (s : State) : Host.Outcome State Fault Refusal :=
  responseIn port.toNat 0x13 words (fun t => t.op == 3 && words.length == 2) s

/-- NAK (R351, R362): the request ends with the NAK's status. -/
def execPktNak (port : BitVec 5) (words : List (BitVec 144)) (s : State) : Host.Outcome State Fault Refusal :=
  responseIn port.toNat 0x1F words (fun _ => words.length == 1) s

/-- TRANSIT_FORWARD (R344 to R346): a packet of another device goes on toward it. -/
def execTransitForward (port : BitVec 5) (words : List (BitVec 144)) (s : State) : Host.Outcome State Fault Refusal :=
  if (readHdr words).dst = s.fab.hall then .next s else .next (forwardPacket words (takeArrived port.toNat words s))

/-- REQUEST_TIMEOUT (R364): a request whose response is overdue is resent; every fourth time in a row is reported. -/
def execRequestTimeout (tag : BitVec 17) (s : State) : Host.Outcome State Fault Refusal :=
  match s.track tag.toNat with
  | none => .next s
  | some t =>
    if t.unsent ∨ s.now < t.sentAt + s.fab.reqTimeout then .next s
    else
      let n := t.timeouts + 1
      let s1 := updFab (fun f => { f with tracks := Tab.set none f.tracks tag.toNat (some { t with timeouts := n }) }) s
      let s2 := if n % 4 = 0 then faultEvent 9 (leBytes 2 t.dst) (fabCount 5 s1) else s1
      .next (resend tag.toNat s2)

/-! ### WRITE descriptors (R407) -/

/-- The VC of an Abard egress (Table 14.1). -/
def egressVc (egress : Nat) : Nat :=
  let j := (egress - 8) % 3
  if j = 0 then 3 else if j = 1 then 4 else 7

/-- The status with which a WRITE entry ends when its egress chooses it; ST_OK sends it (R407). -/
def writeStatus (s : State) (q : Queue) : Nat :=
  match q.headDesc with
  | none => stOk
  | some d =>
    let vc := egressVc q.egress
    let level := d.target / 2 ^ 62
    if (vc = 3 ∧ level ≠ 1) ∨ (vc = 4 ∧ level ≠ 2) ∨ ¬ fabAddrOk d.target ∨ 256 < (readFabAddr d.target).offset % 256 + d.len then
      stBadParam
    else issueCheck s q.fn d.target d.len 2

/-- EGRESS_DECISION (R404 to R407): one decision of an egress scheduler. One that a fetch wins leaves it to DESCRIPTOR_FETCH. -/
def execEgressDecision (egress : BitVec 7) (s : State) : Host.Outcome State Fault Refusal :=
  let e := egress.toNat
  if radioFirst s e ∨ ptpWaits s e then .next s
  else if 8 ≤ e ∧ e < 80 ∧ s.flt.fenced then .next (endEntries e stFenced s)
  else
    let s1 := atDecision e s
    match pickRival s1 (egressRivals s1 e) with
    | none => .next s1
    | some r =>
      if r.fetch then .next s1
      else .next (takeEntry r.hq (if 8 ≤ e ∧ e < 80 then writeStatus s1 (s1.queue r.hq) else stOk) s1)

/-- DESC_WRITE (R407): the entry that its egress chose goes out as one WRITE request on the queue's port and VC, unless the device or
its compute partition has been fenced since or its peer is lost (R352, R353). -/
def execDescWrite (hq : BitVec 13) (index : BitVec 32) (s : State) : Host.Outcome State Fault Refusal :=
  let h := hq.toNat
  match findDesc s h index.toNat with
  | none => .next s
  | some d =>
    let q := s.queue h
    let sent := s.fab.tracks.any fun e => match e.2 with
      | some t => t.req == .desc h d.index
      | none => false
    if d.op ≠ 5 ∨ d.phase ≠ 1 ∨ sent then .next s
    else
      let vc := egressVc q.egress
      let f := readFabAddr d.target
      let dst := targetHall s f
      let st := if fabFenced s q.fn then stFenced else if dst ≠ s.fab.hall ∧ (s.peer dst).lost then stEpoch else stOk
      if st ≠ stOk then .next (endDesc h d.index st s)
      else if dst = s.fab.hall then
        match ownWrite f d.len (bytesWords f.offset d.payload) (fun _ => false) s with
        | none => .next (endDesc h d.index stWindow s)
        | some r => .next (endDesc h d.index (if r.1 then stPoison else stOk) r.2)
      else
        match sendRequestVia (some ((q.egress - 8) / 3)) (.desc h d.index) q.fn vc d.target d.len 2 0 0 0 false
            (bytesWords f.offset d.payload) false s with
        | none => .next s
        | some s1 => .next s1

/-! ### Commands (Table 12.12) -/

/-- Whether a plate that is ADMITTED, RUNNING or RETIRING claims an item of a type (R349). -/
def claimsItem (s : State) (type item : Nat) : Bool :=
  (plateList s).any fun p => p.2.admitted && (claimed type p.2.claims).contains item

/-- Reads the record of Table 12.8. -/
def readFabWin (b : List Byte) : FabWin :=
  let fl := fld b 0 1
  { valid := bitAt fl 0, read := bitAt fl 1, write := bitAt fl 2, atomic := bitAt fl 3, level := fld b 1 1, owner := fld b 2 2,
    device := fld b 4 2, window := fld b 6 1, base := fld b 8 8, length := fld b 16 8 }

/-- The bytes of an outbound window entry (Table 12.8). -/
def FabWin.bytes (w : FabWin) : List Byte :=
  record 32 [(0, 1, bit w.valid + 2 * bit w.read + 4 * bit w.write + 8 * bit w.atomic), (1, 1, w.level), (2, 2, w.owner),
    (4, 2, w.device), (6, 1, w.window), (8, 8, w.base), (16, 8, w.length)]

/-- Whether the record of Table 12.8 has its fields in range. Log 56 (DEDUCED). -/
def fabWinOk (b : List Byte) : Bool :=
  let w := readFabWin b
  decide (w.base < 2 ^ 40 ∧ w.length < 2 ^ 40) &&
    (!w.valid || ((w.level == 1 || w.level == 2) && decide (w.owner ≤ 257) && w.base % 256 == 0 && w.length % 256 == 0 &&
      decide (256 ≤ w.length) &&
      (if w.level = 1 then decide (w.device < 64) && w.window == 0 else decide (w.device < 16384))))

/-- FAB_WINDOW_SET (R348, R349). Log 56 (DEDUCED). -/
def execFabWindowSet (m : Mbx) (s : State) : Host.Outcome State Fault Refusal :=
  runCmd m .pf [(16, 2), (32, 7), (40, 16)] (fun s =>
    let e := mfld m 16 2
    let b := (mbytes m).drop 32
    if 4096 ≤ e ∨ ¬ fabWinOk b then refuse stBadParam s
    else if claimsItem s 0x09 e then refuse stBusy s
    else done (updFab (fun f => { f with wins := Tab.set FabWin.reset f.wins e (readFabWin b) }) s)) s

/-- FAB_WINDOW_CLEAR (R349). -/
def execFabWindowClear (m : Mbx) (s : State) : Host.Outcome State Fault Refusal :=
  runCmd m .pf [(16, 2)] (fun s =>
    let e := mfld m 16 2
    if 4096 ≤ e then refuse stBadParam s
    else if claimsItem s 0x09 e then refuse stBusy s
    else done (updFab (fun f => { f with wins := Tab.set FabWin.reset f.wins e FabWin.reset }) s)) s

/-- FAB_INWIN_SET (R350). -/
def execFabInwinSet (m : Mbx) (s : State) : Host.Outcome State Fault Refusal :=
  runCmd m .pf [(16, 3), (20, 3), (24, 8)] (fun s =>
    let fl := mfld m 17 1
    let w : InWin := { valid := bitAt fl 0, notify := bitAt fl 1, ctx := mfld m 18 1, core := mfld m 20 2, cnt := mfld m 22 1,
                       base := mfld m 24 8 }
    if 4 ≤ fl ∨ 512 ≤ w.core ∨ 64 ≤ w.cnt ∨ w.base % 65536 ≠ 0 ∨ hbmEnd ≤ w.base then refuse stBadParam s
    else done (updFab (fun f => { f with inwins := Tab.set InWin.reset f.inwins (mfld m 16 1) w }) s)) s

/-- FAB_ROUTE_SET (R344). Log 56 (DEDUCED). -/
def execFabRouteSet (m : Mbx) (s : State) : Host.Outcome State Fault Refusal :=
  runCmd m .pf [(16, 8)] (fun s =>
    let first := mfld m 16 2
    let n := mfld m 18 2
    let mask := mfld m 20 4
    if n = 0 ∨ 16384 < first + n ∨ 2 ^ 24 ≤ mask then refuse stBadParam s
    else done (updFab (fun f => { f with
      routes := (List.range n).foldl (fun t i => Tab.set 0 t (first + i) (BitVec.ofNat 24 mask)) f.routes }) s)) s

/-- FAB_LEDGER_SET (R361): whole frames of a compute set become the ledger, 32 KiB for each slot. Log 55 (DEDUCED). -/
def execFabLedgerSet (m : Mbx) (s : State) : Host.Outcome State Fault Refusal :=
  runCmd m .pf [(16, 1), (18, 2), (24, 8)] (fun s =>
    let set := mfld m 16 1
    let n := mfld m 18 2
    let base := mfld m 24 8
    let frames := ceilDiv (32768 * n) 65536
    if 32 ≤ set ∨ s.mem.setRan.getLsbD set ∨ n < 64 ∨ 16384 < n ∨ base % 65536 ≠ 0 ∨ base / 65536 < (setFrames set).1 ∨
        (setFrames set).2 < base / 65536 + frames then refuse stBadParam s
    else if s.fab.ledgerOwners ≠ [] then refuse stBusy s
    else
      let s1 := ownFrames 259 s.fab.ledgerBase (ceilDiv (32768 * s.fab.ledgerSlots) 65536) s
      if (blockedFrames s1 false).any (fun f => decide (base / 65536 ≤ f ∧ f < base / 65536 + frames)) then refuse stCapacity s
      else done (updFab (fun f => { f with ledgerBase := base / 65536, ledgerSlots := n, ledger := [] })
        (ownFrames 257 (base / 65536) frames s1))) s

/-- FAB_ID_SET (R342). -/
def execFabIdSet (m : Mbx) (s : State) : Host.Outcome State Fault Refusal :=
  runCmd m .pf [(16, 2)] (fun s =>
    if 16384 ≤ mfld m 16 2 then refuse stBadParam s
    else if s.fab.ports.any (fun e => e.2.state != 0) then refuse stBusy s
    else done (updFab (fun f => { f with hall := mfld m 16 2 }) s)) s

/-- FAB_VC_DEFAULT (R368). -/
def execFabVcDefault (m : Mbx) (s : State) : Host.Outcome State Fault Refusal :=
  runCmd m .pf [(16, 14)] (fun s =>
    done (updFab (fun f => { f with
      vcDefault := (List.range 7).foldl (fun t j => Tab.set (vcResetWeight (j + 1)) t (j + 1) (mfld m (16 + 2 * j) 2)) f.vcDefault }) s)) s

/-- FAB_CONFIG (R364). -/
def execFabConfig (m : Mbx) (s : State) : Host.Outcome State Fault Refusal :=
  runCmd m .pf [(16, 4)] (fun s =>
    let t := mfld m 16 4
    if t < 65536 ∨ 16777216 < t then refuse stBadParam s
    else done (updFab (fun f => { f with reqTimeout := t }) s)) s

/-- The bytes of an inbound window: FLAGS, CONTEXT, CORE, CNT and BASE. Log 56 (DEDUCED). -/
def InWin.bytes (w : InWin) : List Byte :=
  record 16 [(0, 1, bit w.valid + 2 * bit w.notify), (1, 1, w.ctx), (2, 2, w.core), (4, 1, w.cnt), (8, 8, w.base)]

/-- FAB_QUERY (Table 12.12): the window table, the inbound windows and the counters. -/
def execFabQuery (m : Mbx) (s : State) : Host.Outcome State Fault Refusal :=
  runCmd m .pf [(24, 8)] (fun s =>
    writeOut m (mfld m 24 8)
      (((List.range 4096).flatMap fun i => (Tab.get FabWin.reset s.fab.wins i).bytes) ++
       ((List.range 256).flatMap fun i => (Tab.get InWin.reset s.fab.inwins i).bytes) ++
       ((List.range 14).flatMap fun i => leBytes 8 (Tab.get 0 s.fab.cnt i).toNat)) s) s

end Sys2Proof.Machine
end

