-- ==== Sys2Proof/Machine/Links.lean ====
section
/-!
DEFINITION. The Abard links (chapter 11): slates, replay, training, bit loading, the port scheduler of R368 and the link
commands.
-/
namespace Sys2Proof.Machine
open Sys2Proof

/-- A port's entry. -/
def State.port (s : State) (p : Nat) : AbrPort := Tab.get AbrPort.reset s.fab.ports p

/-- Changes a port's entry. -/
def updPort (p : Nat) (f : AbrPort → AbrPort) (s : State) : State :=
  updFab (fun x => { x with ports := Tab.upd AbrPort.reset x.ports p f }) s

/-- A lane of a port. -/
def AbrPort.lane (p : AbrPort) (l : Nat) : Lane := Tab.get Lane.reset p.lanes l

/-- Changes a lane of a port. -/
def updLane (p l : Nat) (f : Lane → Lane) (s : State) : State :=
  updPort p (fun x => { x with lanes := Tab.upd Lane.reset x.lanes l f }) s

/-- n events of a lane counter (Table 11.8). -/
def laneCount (p l i n : Nat) (s : State) : State :=
  updFab (fun x => { x with laneCnt := bumpBy x.laneCnt (16 * (8 * p + l) + i) n }) s

/-- The lanes of a port that are UP. -/
def AbrPort.upLanes (p : AbrPort) : List Nat := (List.range 8).filter fun l => (p.lane l).up

/-! ### Slates (R322 to R325) -/

/-- The first 5,108 bits of a slate, first bit most significant (Table 11.2). -/
def slateHead (type seq ack : Nat) (nack : Bool) (sop : Nat) (words : List (BitVec 144)) : Nat :=
  let ws := (List.range 35).foldl (fun a w => a + (words.getD w 0).toNat * 2 ^ (144 * w)) 0
  ((((type * 2 ^ 12 + seq) * 2 ^ 12 + ack) * 2 + bit nack) * 2 ^ 4 * 2 ^ 35 + sop) * 2 ^ 5040 + ws

/-- The CRC of a slate's first 5,108 bits. -/
def slateCrc (head : Nat) : Nat :=
  crcBits 32 0x04C11DB7 0xFFFFFFFF ((List.range 5108).map fun i => bitAt head (5107 - i)) ^^^ 0xFFFFFFFF

/-- The 643 bytes that hold a slate's 5,140 bits, first bit first, the last four bits 0. Log 57 (DESIGN CHOICE). -/
def slateBytes (head : Nat) : List Byte := beBytes 643 ((head * 2 ^ 32 + slateCrc head) * 16)

/-- A slate's codeword joins its lane's bit stream, and the symbols that the stream then fills are sent (R319 to R322). -/
def sendCodeword (p l head : Nat) (s : State) : State :=
  let x := (s.port p).lane l
  let r := fillSymbols x.txLoad x.txFine 512 (x.txBits ++ codewordBits (rsCodeword (head * 2 ^ 32 + slateCrc head))) x.txPos
  r.1.foldl (fun s y => emit (.symbol p l y) s) (updLane p l (fun x => { x with txBits := r.2.1, txPos := r.2.2 }) s)

/-- Sends a slate on a lane with the ACK and NACK of its reverse direction (R324). Log 57 (DESIGN CHOICE). -/
def sendSlate (p l type seq sop : Nat) (nack : Bool) (words : List (BitVec 144)) (s : State) : State :=
  let head := slateHead type seq ((s.port p).lane l).rxSeq.toNat nack sop words
  laneCount p l 0 1 (sendCodeword p l head (emit (.slate p l (slateBytes head)) s))

/-- Sends an IDLE slate, which carries the present ACK. Log 57 (DESIGN CHOICE). -/
def sendIdle (p l : Nat) (nack : Bool) (s : State) : State :=
  let s1 := sendSlate p l 0 ((s.port p).lane l).txSeq.toNat 0 nack [] s
  if nack then laneCount p l 11 1 s1 else s1

/-- The time of one slate at a lane's rate, in 1/65,536 ridge tick (R334). Log 57 (DESIGN CHOICE). -/
def slateTime (bits : Nat) : Nat :=
  ceilDiv (65536 * 5140 * 1966080000 * (528 * 256 * 544)) (max 1 bits * (128 * 10 ^ 9) * (255 * 514))

/-- Packs the words that wait on a lane into DATA slates while the replay buffer has room; with a full one IDLE slates go (R322, R323,
R325). Log 11 (DESIGN CHOICE), 57 (DESIGN CHOICE). -/
def pumpLane (p l : Nat) : Nat → State → State
  | 0, s => s
  | k + 1, s =>
    let x := (s.port p).lane l
    if x.waiting = [] then s
    else if 128 ≤ x.unacked.length then sendIdle p l false s
    else
      let w := x.waiting.take 35
      let sop := (List.range w.length).foldl (fun a i => a + bit ((w.map fun e => e.2.1).getD i false) * 2 ^ i) 0
      let d : Slate := {
        seq := x.txSeq, sop := BitVec.ofNat 35 sop, words := w.map Prod.fst,
        pkts := (w.map fun e => e.2.2).eraseDups, tries := 0 }
      let s1 := sendSlate p l 1 x.txSeq.toNat sop false d.words s
      pumpLane p l k (updLane p l (fun x => { x with
        waiting := x.waiting.drop 35, unacked := x.unacked ++ [d], txSeq := x.txSeq + 1,
        ackAt := if x.unacked = [] then s.now else x.ackAt,
        freeAt := max x.freeAt (65536 * s.now) + slateTime x.bits }) s1)

/-- The UP lane whose transmit queue empties soonest, the lower one of two alike (R323). -/
def soonestLane (s : State) (p : Nat) : Option Nat :=
  let x := s.port p
  let at_ := fun (l : Nat) => max (x.lane l).freeAt (65536 * s.now) + ceilDiv (x.lane l).waiting.length 35 * slateTime (x.lane l).bits
  match (x.upLanes.map at_).min? with
  | none => none
  | some t => x.upLanes.find? fun l => at_ l == t

/-- Puts a packet on a lane. -/
def sendPacket (p l : Nat) (k : Pkt) (s : State) : State :=
  let ws := k.words.mapIdx fun i w => (w, i == 0, k)
  pumpLane p l 256 (updLane p l (fun x => { x with waiting := x.waiting ++ ws }) s)

/-! ### Lane loss and replay (R325 to R327, R338) -/

/-- Whether the admitted plates charge a port more in some batten than it carries now: those of each RAN plate with all others
(R336, R337). -/
def chargesExceed (s : State) (p : Nat) : Bool :=
  let ps := ((plateList s).map Prod.snd).filter Plate.admitted
  let rest := (ps.filter fun q => q.kind != 1).map fun q => ((q, .full) : Seen)
  let rans := ps.filter fun q => q.kind == 1
  let sets := if rans = [] then [rest] else rans.map fun q => (q, .full) :: rest
  let r := 0x04000000 + p
  sets.any fun l => (breakpoints l).any fun b =>
    decide ((capacityOf s r).1 * 65536 < (l.map fun q => chargeAt q r b).sum * derateOf r * (capacityOf s r).2)

/-- RETRAIN_SHORT, where a port's training ends below what its admitted plates charge (R337). -/
def retrainShort (p : Nat) (s : State) : State :=
  if chargesExceed s p then faultEvent 7 (leBytes 1 p ++ leBytes 2 (s.port p).bitsSum) s else s

/-- A port enters FAILED: its transmitters go dark and a command that trains it ends (Table 11.3, Table 11.7). Log 58 (DESIGN CHOICE). -/
def failPort (p reason : Nat) (s : State) : State :=
  let x := s.port p
  let s1 := updPort p (fun x => { x with
    state := 8, fail := reason, bitsSum := 0, waiter := none, lanes := Tab.mapEntries Lane.reset (fun _ l => { l with up := false }) x.lanes }) s
  let s2 := if 1 ≤ x.state ∧ x.state ≤ 6 then retrainShort p s1 else s1
  match x.waiter with
  | some w => completeSlot w.1 w.2 stNotReady { fields := [(5, 1, 8), (6, 1, reason)], block := none } s2
  | none => s2

/-- A packet that a link reports lost: this device's own request is sent again at once (R364); a collective packet of its own,
which holds no tracker entry, by its route (Table 13.8). Log 58 (DESIGN CHOICE). -/
def sendLost (k : Pkt) (s : State) : State :=
  let h := readHdr k.words
  match k.tag with
  | some t => resend t s
  | none => if 0x20 ≤ h.opc ∧ h.src = s.fab.hall then (routePacket h.dst 0 k none s).2 else s

/-- The packets of a lane's unacknowledged slates and of its queue are lost (R338). -/
def loseLane (p l : Nat) (s : State) : State :=
  let x := (s.port p).lane l
  let ks := (x.unacked.flatMap Slate.pkts ++ x.waiting.map fun e => e.2.2).eraseDups
  ks.foldl (fun s k => sendLost k s) (updLane p l (fun x => { x with
    unacked := [], waiting := [], replayAt := none, discarding := false, partialPkt := [] }) s)

/-- A lane fails (R338): it goes dark, its packets are lost, and the last lane to fail takes its port down. -/
def failLane (p l reason : Nat) (s : State) : State :=
  let s1 := updLane p l (fun x => { x with up := false }) s
  let s2 := faultEvent 6 [BitVec.ofNat 8 p, BitVec.ofNat 8 l] (dryEvent 8 (healthCount 3 1 (laneCount p l 8 1 s1)))
  let s3 := loseLane p l (updPort p (fun x => { x with bitsSum := x.bitsSum - (x.lane l).bits }) s2)
  if (s3.port p).upLanes = [] then failPort p reason s3 else s3

/-- Whether a replay that starts now is the second in a window of an admitted plate: one that had begun, on its grid, when the last one
started and has not ended (R327). -/
def secondEpisode (s : State) (before : Option Nat) : Bool :=
  match before with
  | none => false
  | some t => (plateList s).any fun q => q.2.admitted && q.2.windows.any fun w =>
      let b := s.now - (s.now - w.start) % gridPeriod w.grid
      decide (w.start ≤ s.now ∧ q.2.firstEpoch * epochTicks ≤ b ∧ b ≤ t ∧ s.now < b + w.length)

/-- A lane that breaks R327 is marked, counted and reported. -/
def degradeLane (p l : Nat) (s : State) : State :=
  faultEvent 5 [BitVec.ofNat 8 p, BitVec.ofNat 8 l]
    (laneCount p l 7 1 (updPort p (fun x => { x with degraded := x.degraded ||| BitVec.ofNat 8 (2 ^ l) }) s))

/-- Go-back-N from ACK + 1 (R325, R326): every unacknowledged slate is sent again and counted; the eighth replay of one slate
without an ACK fails the lane. -/
def replayLane (p l : Nat) (s : State) : State :=
  let x := (s.port p).lane l
  if x.unacked = [] ∨ x.replayAt = some s.now then s
  else
    let n := x.unacked.length
    let s1 := x.unacked.foldl (fun s d => sendSlate p l 1 d.seq.toNat d.sop.toNat false d.words s) s
    let s2 := healthCount 2 n (laneCount p l 5 n s1)
    let s3 := updFab (fun f => { f with
      evLinkRetry := x.unacked.foldl (fun t d => (d.pkts.filterMap Pkt.owner).eraseDups.foldl bump t) f.evLinkRetry }) s2
    let span := 65536 * slateTime x.bits / 65536
    let recent := (x.replays ++ [(s.now, n)]).filter fun e => decide (s.now < e.1 + span)
    let bad := decide (2048 < (recent.map Prod.snd).sum) || secondEpisode s x.episode
    let s4 := updLane p l (fun x => { x with
      unacked := x.unacked.map fun d => { d with tries := d.tries + 1 }, replayAt := some s.now, ackAt := s.now, replays := recent, episode := some s.now,
      freeAt := max x.freeAt (65536 * s.now) + n * slateTime x.bits }) s3
    let s5 := if bad then degradeLane p l s4 else s4
    if x.unacked.any (fun d => decide (8 ≤ d.tries + 1)) then failLane p l 2 s5 else s5

/-- REPLAY_TIMEOUT (R325): ACK has not advanced for 3,933 ridge ticks while slates are outstanding. -/
def execReplayTimeout (port : BitVec 5) (lane : BitVec 3) (s : State) : Host.Outcome State Fault Refusal :=
  let p := port.toNat
  let l := lane.toNat
  let x := (s.port p).lane l
  if ¬ (s.port p).up ∨ ¬ x.up ∨ x.unacked = [] ∨ s.now < x.ackAt + 3933 then .next s
  else .next (replayLane p l (laneCount p l 6 1 s))

/-- LANE_SYNC_LOSS (R328, R338): a lane that is UP fails; in training a lane that loses sync takes no further part, and the last
one fails the port; of LOAD and VERIFY it is counted. -/
def execLaneSyncLoss (port : BitVec 5) (lane : BitVec 3) (dark : Bool) (s : State) : Host.Outcome State Fault Refusal :=
  let p := port.toNat
  let l := lane.toNat
  let x := s.port p
  let reason := if dark then 7 else 2
  if x.up ∧ (x.lane l).up then .next (failLane p l reason (laneCount p l 9 1 s))
  else if 2 ≤ x.state ∧ x.state ≤ 6 ∧ (x.lane l).passing then
    let s0 := if 5 ≤ x.state then laneCount p l 8 1 s else s
    let s1 := updLane p l (fun y => { y with passing := false }) (laneCount p l 9 1 s0)
    if (List.range 8).any (fun i => ((s1.port p).lane i).passing) then .next s1 else .next (failPort p reason s1)
  else .next s

/-! ### Receiving (R323, R324) -/

/-- The least and the most words of a packet that its words so far tell. -/
def packetWords (ws : List (BitVec 144)) : Nat × Nat :=
  let h := readHdr ws
  let data := ceilDiv h.len 16
  let sig := bit (bitAt (readWord (ws.getD 1 0)).1.toNat 117)
  let n := match h.opc with
    | 0x01 => 2
    | 0x02 => if ws.length < 2 then 3 else 2 + coveredWords (readHdr1 ws).offset h.len
    | 0x03 => 4
    | 0x11 => 1 + data
    | 0x13 => 2
    | 0x20 => if ws.length < 2 then 3 else 2 + sig + data
    | 0x21 => 3
    | 0x22 => 3
    | 0x23 => if ws.length < 2 then 2 else 2 + sig
    | 0x24 => 2
    | 0x25 => 3
    | 0x30 => 3
    | 0x31 => 3
    | 0x32 => 3
    | _ => 1
  (n, if h.opc = 0x11 ∧ h.len % 16 ≠ 1 then n + 1 else n)

/-- The least and the most words of a packet that arrives: READ_DATA that answers a request of this device has the words that the
request covers. -/
def packetSpan (s : State) (ws : List (BitVec 144)) : Nat × Nat :=
  let h := readHdr ws
  match (if h.opc = 0x11 ∧ h.dst = s.fab.hall then s.track h.tag else none) with
  | some t => (1 + coveredWords t.offset h.len, 1 + coveredWords t.offset h.len)
  | none => packetWords ws

/-- One delivered word joins the packet being received on a lane; a packet that is whole goes to the port. Log 57 (DESIGN CHOICE). -/
def takeWord (span : List (BitVec 144) → Nat × Nat) (ps : List (BitVec 144) × List (List (BitVec 144))) (w : BitVec 144) (sop : Bool) :
    List (BitVec 144) × List (List (BitVec 144)) :=
  let cur := ps.1
  if sop then
    let out := if cur = [] then ps.2 else ps.2 ++ [cur]
    if (span [w]).2 ≤ 1 then ([], out ++ [[w]]) else ([w], out)
  else if cur = [] then ps
  else
    let next := cur ++ [w]
    if (span next).2 ≤ next.length then ([], ps.2 ++ [next]) else (next, ps.2)

/-- A DATA slate in sequence is delivered: its words make packets, which wait at the port. -/
def deliver (p l : Nat) (seq : BitVec 12) (sop : Nat) (words : List (BitVec 144)) (s : State) : State :=
  let x := (s.port p).lane l
  let r := (List.range 35).foldl (fun a i => takeWord (packetSpan s) a (words.getD i 0) (bitAt sop i)) (x.partialPkt, [])
  updPort p (fun y => { y with arrived := y.arrived ++ r.2 })
    (updLane p l (fun x => { x with rxSeq := seq, discarding := false, partialPkt := r.1 }) s)

/-- What a slate's ACK covers leaves the replay buffer (R325). -/
def acceptAck (p l : Nat) (ack : BitVec 12) (s : State) : State :=
  let x := (s.port p).lane l
  match x.unacked.findIdx? fun d => d.seq == ack with
  | none => s
  | some i => pumpLane p l 256 (updLane p l (fun x => { x with
      unacked := x.unacked.drop (i + 1), replayAt := none, ackAt := s.now }) s)

/-- Sends a training message of a port, and the loading table of a lane in LOAD (R328). Log 58 (DESIGN CHOICE). -/
def tableMessage (p l : Nat) (x : Lane) : Output :=
  .training p ([3, BitVec.ofNat 8 p, BitVec.ofNat 8 l, 0] ++ x.load.map (BitVec.ofNat 8) ++ x.fine.map fun g => BitVec.ofNat 8 (unsigned 8 g))

/-- Starts training of a port (R328): its lanes are taken and send sync symbols, and ACQUIRE begins. Log 58 (DESIGN CHOICE). -/
def startTraining (p mask gap : Nat) (hold : Bool) (waiter : Option (Nat × Nat)) (s : State) : State :=
  let s1 := (List.range 8).foldl (fun s l => loseLane p l (updLane p l (fun x => { x with
    up := false, passing := bitAt mask l, txSeq := 0, rxSeq := 0xFFF, txBits := [], txPos := 0 }) s)) s
  let s0 := (List.range 8).foldl (fun s l => if bitAt mask l then emit (.symbol p l syncSymbol) s else s) s1
  let s2 := updPort p (fun x => { x with
    state := 1, fail := 0, bitsSum := 0, mask := BitVec.ofNat 8 mask, gap := gap, hold := hold, waiter := waiter, since := s.now,
    peer := none }) s0
  let gains := (List.range 8).map fun l => BitVec.ofNat 8 ((s.port p).lane l).gain.toNat
  emit (.training p (record 16 [(0, 1, 1), (1, 1, p), (2, 1, mask), (3, 1, 4), (8, 8, Config.serial.toNat)] ++ gains)) s2

/-- A slate with a bad codeword or CRC is discarded; the first of a run answers with NACK (R324). -/
def discardSlate (p l : Nat) (s : State) : State :=
  if ((s.port p).lane l).discarding then s
  else sendIdle p l true (updLane p l (fun x => { x with discarding := true }) s)

/-- SLATE_RX (R322 to R326, R337): a DATA slate out of sequence is discarded. Log 57 (DEDUCED). `body`, `crc` and
`parity` are the codeword as the lane's symbols gave it, errors and all, first bit most significant. -/
def execSlateRx (port : BitVec 5) (lane : BitVec 3) (body : BitVec 5108) (crc : BitVec 32) (parity : BitVec 300) (s : State) :
    Host.Outcome State Fault Refusal :=
  let p := port.toNat
  let l := lane.toNat
  if ¬ (s.port p).up ∨ ¬ ((s.port p).lane l).up then .next s
  else
    let s0 := laneCount p l 1 1 s
    match rsDecode (receivedWord body crc parity) with
    | none => .next (discardSlate p l (laneCount p l 3 1 s0))
    | some (v, corrected) =>
      let s1 := laneCount p l 2 corrected s0
      let head := v / 2 ^ 32
      if slateCrc head ≠ v % 2 ^ 32 then .next (discardSlate p l (laneCount p l 4 1 s1))
      else
        let type := bitsAt head 5104 4
        let seq : BitVec 12 := BitVec.ofNat 12 (bitsAt head 5092 12)
        let words := (List.range 35).map fun w => BitVec.ofNat 144 (bitsAt head (144 * w) 144)
        let s2 := acceptAck p l (BitVec.ofNat 12 (bitsAt head 5080 12)) s1
        let s3 := if bitAt head 5079 then replayLane p l s2 else s2
        if type = 2 ∧ (words.getD 0 0).toNat % 256 = 1 ∧ (s3.port p).up then
          .next (startTraining p 0xFF 0 false none (laneCount p l 10 1 s3))
        else if type = 1 ∧ ((s3.port p).lane l).up then
          (if seq = ((s3.port p).lane l).rxSeq + 1 then
            .next (sendIdle p l false (deliver p l seq (bitsAt head 5040 35) words s3))
          else .next (sendIdle p l false s3))
        else .next s3

/-! ### The port scheduler (R339, R368) -/

/-- The weight in force of a virtual channel (R368). -/
def weightInForce (s : State) (v : Nat) : Nat :=
  let ps := ((plateList s).map Prod.snd).filter Plate.admitted
  if ps.any (fun p => p.claims.any fun c => c.type == 0xA && c.first == v) then vcWeight ps v
  else Tab.get (vcResetWeight v) s.fab.vcDefault v

/-- Whether a virtual channel may send: a fenced device sends VC0 only, one on probation VC0 and VC1 (R339, R497). Log 57 (DESIGN CHOICE). -/
def vcOpen (s : State) (v : Nat) : Bool := v == 0 || (!s.flt.fenced && (v == 1 || !s.flt.probation))

/-- The head packet of a virtual channel of a port: responses before requests. -/
def vcHead (s : State) (p v : Nat) : Option (Nat × Pkt) :=
  [queueKey p v true, queueKey p v false].findSome? fun k => ((Tab.get [] s.fab.queues k).head?).map fun x => (k, x)

/-- Sends the head packet of a virtual channel on a lane. Log 57 (DESIGN CHOICE). -/
def sendHead (p l v : Nat) (s : State) : State :=
  match vcHead s p v with
  | none => s
  | some (k, x) =>
    let s1 := updFab (fun f => { f with
      queues := Tab.set [] f.queues k ((Tab.get [] f.queues k).drop 1),
      tracks := match x.tag with
        | some t => Tab.upd none f.tracks t (Option.map fun y => { y with sent := true })
        | none => f.tracks }) s
    let s2 := if v = 0 then updLane p l (fun y => { y with vc0At := some (max y.freeAt (65536 * s.now)) }) s1 else s1
    sendPacket p l x s2

/-- A port's deficit of a virtual channel. Log 57 (DESIGN CHOICE). -/
def State.deficit (s : State) (p v : Nat) : Nat := Tab.get 0 s.fab.deficits (8 * p + v)

/-- Sets a port's deficit of a virtual channel. -/
def setDeficit (p v n : Nat) (s : State) : State := updFab (fun f => { f with deficits := Tab.set 0 f.deficits (8 * p + v) n }) s

/-- Words of the next write of an export: no write crosses a 256-byte line. -/
def pieceWordsAt (a : Nat) (ws : List (BitVec 144)) : Nat := min ws.length ((256 - a % 256) / 16)

/-- One write of an export on VC7 (R477); irreducible, so that no proof about `exportPieces` looks into the request. -/
@[irreducible] def exportPiece (a n : Nat) (ws : List (BitVec 144)) (s : State) : Option State :=
  deviceWrite .recUnit 257 7 a (16 * n) ws s

/-- Staged records of an export go out as writes on VC7 (R477) while tags last. Log 48 (DESIGN CHOICE). -/
def exportPieces (a : Nat) : Nat → List (BitVec 144) → State → Option State
  | 0, _, s => some s
  | k + 1, ws, s =>
    if ws = [] then some s
    else
      let n := pieceWordsAt a ws
      match exportPiece a n (ws.take n) s with
      | none => none
      | some s1 => exportPieces (a + 16 * n) k (ws.drop n) s1

/-- Whether each write that n words at an address make may be issued (R348, R477). -/
def exportOk (s : State) (a : Nat) : Nat → List (BitVec 144) → Bool
  | 0, _ => true
  | k + 1, ws =>
    let n := pieceWordsAt a ws
    ws == [] || (issueCheck s 257 a (16 * n) 2 == stOk && exportOk s (a + 16 * n) k (ws.drop n))

/-- The oldest staged record is exported; one with a write that may not be issued is lost. Log 48 (DESIGN CHOICE). -/
def exportRecord (s : State) : State :=
  let r := s.det.recUnit
  match r.staged with
  | [] => s
  | ws :: rest =>
    let a := r.base + r.exported
    let n := 16 * ws.length
    let gone := fun (s : State) => updRec (fun r => { r with staged := rest, exported := r.exported + n }) s
    if ¬ exportOk s a 4096 ws then
      updRec (fun r => { r with lost := satNat 64 r.lost 1, lossFlag := true, cnt := bump r.cnt 1 }) (gone s)
    else
      match exportPieces a 4096 ws s with
      | none => s
      | some s1 => gone s1

/-- PORT_PACKET_BOUNDARY (R323, R368): strict VC0 at most one slate in 64, then the deficits; a VC of weight 0 sends only when every
other VC is empty. -/
def execPortPacketBoundary (port : BitVec 5) (s : State) : Host.Outcome State Fault Refusal :=
  let p := port.toNat
  let s0 := if s.flt.fenced then s else exportRecord s
  match (if (s0.port p).up then soonestLane s0 p else none) with
  | none => .next s0
  | some l =>
    let x := (s0.port p).lane l
    let t := max x.freeAt (65536 * s0.now)
    let budget : Bool := match x.vc0At with
      | none => true
      | some a => decide (a + 64 * slateTime x.bits ≤ t)
    let words := fun (s : State) (v : Nat) => ((vcHead s p v).map fun e => e.2.words.length).getD 0
    let backlog := fun (s : State) => ((List.range 7).map (· + 1)).filter fun v => vcOpen s v && (vcHead s p v).isSome
    let cls := fun (v : Nat) => if v = 1 then 1 else 2
    let s1 :=
      if (vcHead s0 p 0).isSome ∧ budget then sendHead p l 0 s0
      else
        let b := backlog s0
        let fit := b.filter fun v => decide (words s0 v ≤ s0.deficit p v) && weightInForce s0 v != 0
        match (fit.map (s0.deficit p)).max? with
        | some d =>
          match arbitrateClasses s0.root 12 7 ((fit.filter fun v => s0.deficit p v == d).map fun v => (v - 1, cls v)) with
          | some i => sendHead p l (i + 1) (setDeficit p (i + 1) (d - words s0 (i + 1)) s0)
          | none => s0
        | none =>
          if b.any (fun v => weightInForce s0 v != 0) then
            b.foldl (fun s v => setDeficit p v (s.deficit p v + 8 * weightInForce s v) s) s0
          else
            match (List.range 8).filter fun v => (vcHead s0 p v).isSome with
            | [v] => if b.contains v then sendHead p l v s0 else s0
            | _ => s0
    let left := backlog s1
    .next (((List.range 7).map (· + 1)).foldl (fun s v => if left.contains v then s else setDeficit p v 0 s) s1)

/-! ### Training (R328 to R333) -/

/-- floor(n × log10(a ÷ b) + 1/2), exactly, for positive a and b: the largest k (of 16 bits) with 10^(2k − 1) × b^(2n) at most
a^(2n). -/
def decibels (n a b : Nat) : Int :=
  let le := fun (k : Int) =>
    if 0 ≤ 2 * k - 1 then decide (10 ^ (2 * k - 1).toNat * b ^ (2 * n) ≤ a ^ (2 * n))
    else decide (b ^ (2 * n) ≤ a ^ (2 * n) * 10 ^ (1 - 2 * k).toNat)
  ((List.range 16).map fun i => 2 ^ (15 - i)).foldl (fun (k : Int) (d : Nat) => if le (k + d) then k + d else k) (-32768)

/-- Loads one more bit on a subcarrier. -/
def addBit (b : List Nat) (k : Nat) : List Nat := b.modify k (· + 1)

/-- The loading of R330: bits by subcarrier and the power used. -/
def loadBits (x : List F64) : Nat → List Nat → F64 → Nat → List Nat × F64
  | 0, b, used, _ => (b, used)
  | n + 1, b, used, total =>
    let cost := fun (k : Nat) => (F64.ofInt (2 ^ b.getD k 0)).div (x.getD k (F64.ofInt 1))
    let may := fun (k : Nat) => k != 16 && b.getD k 0 != 8 &&
      !(F64.ofInt 2).lt ((F64.ofInt (2 ^ (b.getD k 0 + 1) - 1)).div (x.getD k (F64.ofInt 1)))
    let best := ((List.range 255).map (· + 1)).foldl (fun (o : Option (Nat × F64)) k =>
      if ¬ may k then o
      else
        match o with
        | none => some (k, cost k)
        | some (_, d) => if (cost k).lt d then some (k, cost k) else o) none
    match best with
    | none => (b, used)
    | some (k, d) =>
      if (F64.ofInt 254).lt (used.add d) ∨ total = 1122 then (b, used)
      else loadBits x n (addBit b k) (used.add d) (total + 1)

/-- The numerator and denominator of a positive binary64 value. -/
def F64.frac (x : F64) : Nat × Nat := if 0 ≤ x.e then (x.m.toNat * 2 ^ x.e.toNat, 1) else (x.m.toNat, 2 ^ (-x.e).toNat)

/-- The loading table of a lane from its SNR codes and the gap code: bits and fine gains by subcarrier (R330). Log 58 (DESIGN CHOICE). -/
def loadTable (snr : List Int) (gap : Nat) : List Nat × List Int :=
  let g : Int := if gap = 0 then 112 else gap
  let ten := (F64.ofInt 10).bits
  let x := snr.map fun q => F64.ofBits (Config.powF64 ten ((F64.ofInt (q - g)).div (F64.ofInt 160)).bits)
  let r := loadBits x 1123 (List.replicate 256 0) (F64.ofInt 0) 0
  let gain := fun (k : Nat) =>
    if r.1.getD k 0 = 0 then (0 : Int)
    else
      let e := (F64.ofInt (2 ^ r.1.getD k 0 - 1)).div (x.getD k (F64.ofInt 1))
      let v := ((e.mul (F64.ofInt 254)).div r.2).frac
      if v.1 = 0 then -128 else max (-128) (decibels 80 v.1 v.2)
  (r.1, (List.range 256).map gain)

/-- What a receiver observes of a lane in the phase that ends. Log 58 (DESIGN CHOICE). -/
def recordDark (o : LaneObs) (x : Lane) : Lane := { x with noise := o.noise.map BitVec.toNat }

/-- PROBE measures the SNR of every subcarrier: S_k ÷ max(N_k, E_k) in 1/16 dB (R329). -/
def recordProbe (o : LaneObs) (x : Lane) : Lane :=
  { x with snr := (List.range 256).map fun k =>
      decibels 160 (max 1 ((o.signal.getD k 0).toNat)) (max 1 (max (x.noise.getD k 0) ((o.error.getD k 0).toNat))) }

/-- LOAD computes the receive direction's table; a lane of fewer than 64 bits in either direction fails (R330). -/
def recordLoad (gap : Nat) (o : LaneObs) (x : Lane) : Lane :=
  let t := loadTable x.snr gap
  let peer := o.peerLoad.map BitVec.toNat
  { x with load := t.1, fine := t.2, txLoad := peer, txFine := o.peerFine.map BitVec.toInt, bits := symbolBits peer,
           passing := x.passing && decide (64 ≤ t.1.sum ∧ 64 ≤ symbolBits peer) }

/-- The hop delay of R331, in 1/256 ridge tick: the mean over the exchanges, rounded half up. -/
def hopDelay (ts : List (BitVec 288)) : Nat :=
  let sum := ts.foldl (fun (a : Int) t =>
    let f := fun (i : Nat) => (bitsAt t.toNat (72 * i) 72 : Int)
    a + ((f 3 - f 0) - (f 2 - f 1))) 0
  (floorDiv (sum + 16) 32).toNat

/-- Applies a phase's observations to the lanes that still take part. Log 58 (DESIGN CHOICE). -/
def observe (p : Nat) (obs : List LaneObs) (f : LaneObs → Lane → Lane) (s : State) : State :=
  (List.range 8).foldl (fun s l => match obs[l]? with
    | some o => if ((s.port p).lane l).passing then updLane p l (f o) s else s
    | none => s) s

/-- The lanes of a port that still take part in its training. -/
def passingLanes (s : State) (p : Nat) : List Nat := (List.range 8).filter fun l => ((s.port p).lane l).passing

/-- Lanes that drop out of LOAD or VERIFY are counted (R328). -/
def countDropped (p : Nat) (before : List Nat) (s : State) : State :=
  before.foldl (fun s l => if ((s.port p).lane l).passing then s else laneCount p l 8 1 s) s

/-- The result of a training command: STATE, FAIL_REASON and BITS_SUM. Log 58 (DESIGN CHOICE). -/
def trainResult (x : AbrPort) : Result := { fields := [(5, 1, x.state), (6, 1, x.fail), (8, 2, x.bitsSum)], block := none }

/-- A training command ends with its port. Log 58 (DESIGN CHOICE). -/
def endTrainCommand (p : Nat) (s : State) : State :=
  match (s.port p).waiter with
  | none => s
  | some w => completeSlot w.1 w.2 stOk (trainResult (s.port p)) (updPort p (fun x => { x with waiter := none }) s)

/-- A port comes UP with the lanes that passed (R328, R331, R332, R337). -/
def portUp (p : Nat) (delays : List (BitVec 288)) (s : State) : State :=
  let d := hopDelay delays
  if 3933 * 256 < 2 * d + 400 * 256 then failPort p 4 s
  else
    let sum := ((passingLanes s p).map fun l => ((s.port p).lane l).bits).sum
    let s1 := (passingLanes s p).foldl (fun s l => updLane p l (fun x => { x with up := true, passing := false, ackAt := s.now }) s) s
    let s2 := updPort p (fun x => { x with state := 7, fail := 0, hopDelay := d, bitsSum := sum }) s1
    endTrainCommand p (retrainShort p s2)

/-- HELLO_RX (R328, R506): a HELLO of the peer; a port in ACQUIRE takes it, or fails on its own serial or on a wire revision it
does not accept. -/
def execHelloRx (port : BitVec 5) (serial : BitVec 64) (peerPort : BitVec 5) (mask : BitVec 8) (far : FarEnd)
    (s : State) : Host.Outcome State Fault Refusal :=
  let p := port.toNat
  let x := s.port p
  if x.state ≠ 1 then .next s
  else if serial = Config.serial then .next (failPort p 8 s)
  else if far.rev ≠ 4 ∧ far.rev ≠ s.flt.wireOldest then .next (failPort p 6 s)
  else
    let both := x.mask &&& mask
    let s1 := updPort p (fun x => { x with peer := some (serial, far.rev.toNat), peerGain := far.gains, mask := both }) s
    let s2 := (List.range 8).foldl (fun s l => updLane p l (fun y => { y with passing := both.getLsbD l }) s) s1
    .next (if Config.serial.toNat < serial.toNat then emit (.training p (record 16 [(0, 1, 2), (1, 1, p), (2, 1, peerPort.toNat)])) s2
      else s2)

/-- The sixteen DELAY_REQ messages of VERIFY (R331). Log 58 (DESIGN CHOICE). -/
def delayRequests (p : Nat) (s : State) : State :=
  (List.range 16).foldl (fun s i => emit (.training p (record 16 [(0, 1, 4), (1, 1, p), (2, 1, i)])) s) s

/-- The answers to the peer's DELAY_REQ messages, with the stamps T2 and T3 of each (R331). Log 58 (DESIGN CHOICE). -/
def delayResponses (p : Nat) (answers : List (BitVec 144)) (s : State) : State :=
  answers.zipIdx.foldl (fun s e => emit (.training p (record 21 [(0, 1, 5), (1, 1, p), (2, 1, e.2),
    (3, 9, bitsAt e.1.toNat 0 72), (12, 9, bitsAt e.1.toNat 72 72)])) s) s

/-- TRAINING_PHASE_END (R328): the phase ends with what the receivers saw in it; VERIFY not before all 16 delay exchanges (R331). -/
def execTrainingPhaseEnd (port : BitVec 5) (obs : List LaneObs) (delays : DelayStamps) (s : State) :
    Host.Outcome State Fault Refusal :=
  let p := port.toNat
  let x := s.port p
  let go := fun (n : Nat) (s : State) => updPort p (fun x => { x with state := n }) s
  match x.state with
  | 1 => if x.peer.isNone then .next s else .next (go 2 s)
  | 2 => .next (go 3 (observe p obs recordDark s))
  | 3 =>
    let s1 := observe p obs recordProbe s
    if x.hold then .next (endTrainCommand p (go 4 s1)) else .next (go 5 s1)
  | 5 =>
    let before := passingLanes s p
    let s0 := observe p obs (recordLoad x.gap) s
    let s1 := countDropped p before (before.foldl (fun s l => emit (tableMessage p l ((s0.port p).lane l)) s) s0)
    if passingLanes s1 p = [] then .next (failPort p 3 s1) else .next (go 6 (delayRequests p s1))
  | 6 =>
    let before := passingLanes s p
    let s1 := countDropped p before (observe p obs (fun o y => { y with passing := y.passing && o.fecLock }) s)
    if passingLanes s1 p = [] then .next (failPort p 5 s1)
    else if delays.own.length ≠ 16 ∨ delays.answers.length ≠ 16 then .next s
    else .next (portUp p delays.own (delayResponses p delays.answers s1))
  | _ => .next s

/-- ACQUIRE_TIMEOUT (Table 11.4): no HELLO within 10 s of entering ACQUIRE. -/
def execAcquireTimeout (port : BitVec 5) (s : State) : Host.Outcome State Fault Refusal :=
  let x := s.port port.toNat
  if x.state ≠ 1 ∨ x.peer.isSome ∨ s.now < x.since + 10 * secTicks then .next s
  else .next (failPort port.toNat 1 s)

/-! ### Commands (Table 11.7) -/

/-- Whether an admitted plate charges a port (R337). -/
def plateCharges (s : State) (p : Nat) : Bool :=
  (plateList s).any fun q => q.2.admitted && q.2.timing.any fun t => t.res == 0x04000000 + p && t.rate != 0

/-- A CONTROL slate that asks the peer to retrain, on every lane that is UP (R322). -/
def askRetrain (p : Nat) (s : State) : State :=
  (s.port p).upLanes.foldl (fun s l => sendSlate p l 2 ((s.port p).lane l).txSeq.toNat 0 false [codeWord 1 0] s) s

/-- ABR_TRAIN (R328, R337): the command completes when the port is UP, FAILED or in PROBE_HOLD. Log 58 (DESIGN CHOICE). -/
def execAbrTrain (m : Mbx) (s : State) : Host.Outcome State Fault Refusal :=
  runCmdW m .pf [(16, 5)] (fun s =>
    let p := mfld m 16 1
    let mask := mfld m 17 1
    let fl := mfld m 20 1
    let x := s.port p
    if 24 ≤ p ∨ mask = 0 ∨ 4 ≤ fl then (some (stBadParam, Result.none), s)
    else if (1 ≤ x.state ∧ x.state ≤ 6) ∨ (x.up ∧ plateCharges s p ∧ ¬ bitAt fl 1) then (some (stBusy, Result.none), s)
    else (none, startTraining p mask (mfld m 18 2) (bitAt fl 0) (some (m.input.toNat, m.slot.toNat)) (if x.up then askRetrain p s else s))) s

/-- ABR_CONTINUE (R333): the probe measurement restarts and training goes on. -/
def execAbrContinue (m : Mbx) (s : State) : Host.Outcome State Fault Refusal :=
  runCmdW m .pf [(16, 1)] (fun s =>
    let p := mfld m 16 1
    if 24 ≤ p ∨ (s.port p).state ≠ 4 then (some (stNotReady, Result.none), s)
    else (none, updPort p (fun x => { x with state := 3, hold := false, waiter := some (m.input.toNat, m.slot.toNat) }) s)) s

/-- ABR_GAIN_SET (R333). -/
def execAbrGainSet (m : Mbx) (s : State) : Host.Outcome State Fault Refusal :=
  runCmd m .pf [(16, 3)] (fun s =>
    let p := mfld m 16 1
    let l := mfld m 17 1
    let st := (s.port p).state
    if 24 ≤ p ∨ 8 ≤ l ∨ 32 ≤ mfld m 18 1 then refuse stBadParam s
    else if st ≠ 0 ∧ st ≠ 8 ∧ st ≠ 4 then refuse stBusy s
    else done (updLane p l (fun x => { x with gain := BitVec.ofNat 5 (mfld m 18 1) }) s)) s

/-- The mean of N_k over the data subcarriers, in 1/16 dBFS. -/
def meanNoise (x : Lane) : Int :=
  let ks := ((List.range 255).map (· + 1)).filter (· != 16)
  decibels 160 (max 1 ((ks.map fun k => x.noise.getD k 0).sum)) (254 * 2 ^ 40)

/-- ABR_MEASURE (R333): in PROBE_HOLD only; `lanes` are the levels and the clipped samples at the ADC. -/
def execAbrMeasure (m : Mbx) (lanes : List (BitVec 48)) (s : State) : Host.Outcome State Fault Refusal :=
  runCmd m .pf [(16, 1)] (fun s =>
    let p := mfld m 16 1
    if 24 ≤ p ∨ (s.port p).state ≠ 4 then refuse stNotReady s
    else
      let item := fun (l : Nat) =>
        let o := (lanes.getD l 0).toNat
        leBytes 2 (o % 65536) ++ leBytes 4 (o / 65536) ++ leBytes 2 (unsigned 16 (meanNoise ((s.port p).lane l)))
      (stOk, { fields := [], block := some ((List.range 8).flatMap item) }, s)) s

/-- ABR_DOWN (R338): the port goes DOWN and its transmitters dark. -/
def execAbrDown (m : Mbx) (s : State) : Host.Outcome State Fault Refusal :=
  runCmd m .pf [(16, 1)] (fun s =>
    let p := mfld m 16 1
    if 24 ≤ p then refuse stBadParam s
    else
      let w := (s.port p).waiter
      let s1 := (List.range 8).foldl (fun s l => loseLane p l (updLane p l (fun x => { x with up := false, passing := false }) s)) s
      let s2 := updPort p (fun x => { x with state := 0, fail := 0, bitsSum := 0, waiter := none, peer := none }) s1
      done (match w with
        | some e => completeSlot e.1 e.2 stNotReady (trainResult (s2.port p)) s2
        | none => s2)) s

/-- One 8-byte record of a subcarrier (Table 11.7). -/
def subcarrierRecord (x : Lane) (k : Nat) : List Byte :=
  record 8 [(0, 2, unsigned 16 (x.snr.getD k 0)),
    (2, 2, if x.noise = [] then 0 else unsigned 16 (decibels 160 (max 1 (x.noise.getD k 0)) (2 ^ 40))),
    (4, 1, unsigned 8 (x.fine.getD k 0)), (5, 1, x.load.getD k 0)]

/-- ABR_QUERY (Table 11.7). -/
def execAbrQuery (m : Mbx) (s : State) : Host.Outcome State Fault Refusal :=
  runCmd m .pf [(16, 1), (24, 8)] (fun s =>
    let p := mfld m 16 1
    if 24 ≤ p then refuse stBadParam s
    else writeOut m (mfld m 24 8)
      ((List.range 8).flatMap fun l => (List.range 256).flatMap fun k => subcarrierRecord ((s.port p).lane l) k) s) s

end Sys2Proof.Machine
end

