-- ==== Sys2Proof/Machine/Num.lean ====
section
/-!
DEFINITION. The number formats and roundings of chapter 03: exact values, rounding to nearest even and stochastic rounding,
binary32 addition and multiplication, MX blocks and the random words of Philox-4x32-10 (R62 to R67, R76, R83 to R88).
-/
namespace Sys2Proof.Machine

/-- The value of an element: ±m × 2^e (zero keeps its sign), an infinity, or NaN. -/
inductive Num where
  | fin (neg : Bool) (m : Nat) (e : Int)
  | inf (neg : Bool)
  | nan
deriving DecidableEq, Repr

/-- What the top codes of a floating-point format name: IEEE infinities and NaNs, E4M3's NaN alone, or nothing (Table 3.2). -/
inductive Special where
  | ieee
  | e4m3
  | none
deriving DecidableEq, Repr

/-- A floating-point format: exponent and mantissa widths, bias and special codes. -/
structure Fmt where
  ew : Nat
  mw : Nat
  bias : Int
  special : Special
deriving DecidableEq, Repr

def fp32 : Fmt := { ew := 8, mw := 23, bias := 127, special := .ieee }
def bf16 : Fmt := { ew := 8, mw := 7, bias := 127, special := .ieee }
def fp16 : Fmt := { ew := 5, mw := 10, bias := 15, special := .ieee }
def e4m3 : Fmt := { ew := 4, mw := 3, bias := 7, special := .e4m3 }
def e5m2 : Fmt := { ew := 5, mw := 2, bias := 15, special := .ieee }
def e3m2 : Fmt := { ew := 3, mw := 2, bias := 3, special := .none }
def e2m3 : Fmt := { ew := 2, mw := 3, bias := 1, special := .none }
def e2m1 : Fmt := { ew := 2, mw := 1, bias := 1, special := .none }

/-- The floating-point format of a code, or of the elements of an MX code (Table 3.1). -/
def floatFmt (code : Nat) : Option Fmt :=
  match code with
  | 0x0 => some fp32
  | 0x1 => some bf16
  | 0x2 => some fp16
  | 0x3 => some e4m3
  | 0x4 => some e5m2
  | 0x5 => some e3m2
  | 0x6 => some e2m3
  | 0x7 => some e2m1
  | 0xB => some e4m3
  | 0xC => some e5m2
  | 0xD => some e3m2
  | 0xE => some e2m3
  | 0xF => some e2m1
  | _ => none

/-- Bits per element of a format code (Table 3.1). -/
def fmtBits (code : Nat) : Nat :=
  match code with
  | 0x0 => 32
  | 0x9 => 32
  | 0x1 => 16
  | 0x2 => 16
  | 0x5 => 6
  | 0x6 => 6
  | 0xD => 6
  | 0xE => 6
  | 0x7 => 4
  | 0xF => 4
  | _ => 8

/-- Whether a code names an MX format. -/
def isMx (code : Nat) : Bool := decide (10 ≤ code)

/-- The value of a code of a floating-point format (R63, Table 3.2). -/
def Fmt.decode (f : Fmt) (v : Nat) : Num :=
  let m := bitsAt v 0 f.mw
  let e := bitsAt v f.mw f.ew
  let neg := bitAt v (f.ew + f.mw)
  let top := 2 ^ f.ew - 1
  if f.special = .ieee ∧ e = top then (if m = 0 then .inf neg else .nan)
  else if f.special = .e4m3 ∧ e = top ∧ m = 2 ^ f.mw - 1 then .nan
  else if e = 0 then .fin neg m (1 - f.bias - f.mw)
  else .fin neg (2 ^ f.mw + m) (e - f.bias - f.mw)

/-- The largest finite code of a format, without its sign. -/
def Fmt.maxCode (f : Fmt) : Nat :=
  match f.special with
  | .ieee => (2 ^ f.ew - 1) * 2 ^ f.mw - 1
  | .e4m3 => 2 ^ (f.ew + f.mw) - 2
  | .none => 2 ^ (f.ew + f.mw) - 1

/-- The canonical NaN of a format (R67); formats without one have 0 (R127). -/
def Fmt.nanCode (f : Fmt) : Nat :=
  match f.special with
  | .ieee => if f.mw = 2 then 0x7E else (2 ^ f.ew - 1) * 2 ^ f.mw + 2 ^ (f.mw - 1)
  | .e4m3 => 0x7F
  | .none => 0

/-- The code of a sign and a magnitude code. -/
def Fmt.signed (f : Fmt) (neg : Bool) (c : Nat) : Nat := c + bit neg * 2 ^ (f.ew + f.mw)

/-- How a value between two neighbours is rounded: to nearest even, or by a random word (R86). -/
inductive Rnd where
  | even
  | random (r : Nat)
deriving DecidableEq, Repr

/-- The grid exponent of a format for m × 2^e, m positive: normal values have mw + 1 significant bits. -/
def Fmt.grid (f : Fmt) (m : Nat) (e : Int) : Int := max ((Nat.log2 m : Int) + e - f.mw) (1 - f.bias - f.mw)

/-- m × 2^e as a multiple of 2^q, rounded. -/
def roundTo (rnd : Rnd) (m : Nat) (e q : Int) : Nat :=
  if q ≤ e then m * 2 ^ (e - q).toNat
  else
    let d := 2 ^ (q - e).toNat
    let lo := m / d
    let r := m % d
    if r = 0 then lo
    else
      match rnd with
      | .even => if 2 * r < d then lo else if d < 2 * r then lo + 1 else lo + lo % 2
      | .random w => if w < r * 2 ^ 32 / d then lo + 1 else lo

/-- The magnitude code of n × 2^q on a format's grid, extended beyond its largest finite value. -/
def Fmt.encodeMag (f : Fmt) (n : Nat) (q : Int) : Nat :=
  if n < 2 ^ f.mw then n
  else
    let up := decide (2 ^ (f.mw + 1) ≤ n)
    let n1 := if up then n / 2 else n
    let e := (q + (if up then 1 else 0) + f.bias + f.mw).toNat
    e * 2 ^ f.mw + (n1 - 2 ^ f.mw)

/-- What a conversion writes: the code, whether it overflowed or saturated, and whether it wrote NaN. -/
structure Conv where
  code : Nat
  ovf : Bool
  nan : Bool
deriving DecidableEq, Repr

/-- The code of an overflow or an infinity under OVF (Table 3.7). -/
def Fmt.overflow (f : Fmt) (sat neg : Bool) : Nat :=
  if sat then f.signed neg f.maxCode
  else
    match f.special with
    | .ieee => f.signed neg ((2 ^ f.ew - 1) * 2 ^ f.mw)
    | .e4m3 => f.nanCode
    | .none => f.signed neg f.maxCode

/-- Rounds ±m × 2^e to a format (R83, R84, R86). -/
def Fmt.round (f : Fmt) (rnd : Rnd) (sat : Bool) (neg : Bool) (m : Nat) (e : Int) : Conv :=
  if m = 0 then { code := f.signed neg 0, ovf := false, nan := false }
  else
    let q := f.grid m e
    let c := f.encodeMag (roundTo rnd m e q) q
    if f.maxCode < c then
      { code := f.overflow sat neg, ovf := true, nan := !sat && f.special == .e4m3 }
    else { code := f.signed neg c, ovf := false, nan := false }

/-- Converts a value to a format of Table 3.7 (R83, R84). -/
def Fmt.convert (f : Fmt) (rnd : Rnd) (sat : Bool) (x : Num) : Conv :=
  match x with
  | .nan => { code := f.nanCode, ovf := false, nan := true }
  | .inf neg => { code := f.overflow sat neg, ovf := sat, nan := !sat && f.special == .e4m3 }
  | .fin neg m e => f.round rnd sat neg m e

/-! ### binary32 (R76, R77, R82) -/

/-- A finite value from a signed integer times a power of two; zero is +0. -/
def numOf (i : Int) (e : Int) : Num := .fin (decide (i < 0)) i.natAbs e

/-- The signed integer that ±m × 2^e is at exponent f, f at most e. -/
def atExp (neg : Bool) (m : Nat) (e f : Int) : Int :=
  let v : Int := m * 2 ^ (e - f).toNat
  if neg then -v else v

/-- The exact sum of two values (IEEE 754-2019 signs of zero and infinities). -/
def Num.add (a b : Num) : Num :=
  match a, b with
  | .nan, _ => .nan
  | _, .nan => .nan
  | .inf x, .inf y => if x = y then .inf x else .nan
  | .inf x, _ => .inf x
  | _, .inf y => .inf y
  | .fin x m e, .fin y n g =>
    if m = 0 ∧ n = 0 then .fin (x && y) 0 0
    else
      let f := min e g
      numOf (atExp x m e f + atExp y n g f) f

/-- The exact product of two values (R74, R75). The product of two infinities, which R75 does not name, is the infinity of the
product's sign: log 79 (DESIGN CHOICE). -/
def Num.mul (a b : Num) : Num :=
  let zero := fun (x : Num) => match x with
    | .fin _ 0 _ => true
    | _ => false
  let sign := fun (x : Num) => match x with
    | .fin s _ _ => s
    | .inf s => s
    | .nan => false
  match a, b with
  | .nan, _ => .nan
  | _, .nan => .nan
  | .fin x m e, .fin y n g => .fin (x != y) (m * n) (e + g)
  | p, q => if zero p || zero q then .nan else .inf (sign p != sign q)

/-- The binary32 value of a code. -/
def f32 (v : Nat) : Num := fp32.decode v

/-- Rounds a value to binary32, to nearest even. -/
def toF32 (x : Num) : Nat := (fp32.convert .even false x).code

/-- binary32 addition. -/
def f32Add (a b : Nat) : Nat := toF32 ((f32 a).add (f32 b))

/-- binary32 multiplication. -/
def f32Mul (a b : Nat) : Nat := toF32 ((f32 a).mul (f32 b))

/-! ### Elements of every code -/

/-- The value of an element of a code, its MX scale not applied (Table 3.1, R66). -/
def elemNum (code v : Nat) : Num :=
  match floatFmt code with
  | some f => f.decode v
  | none =>
    if code = 0x9 then numOf (signed 32 v) 0
    else if code = 0xA then numOf (signed 8 v) (-6)
    else numOf (signed 8 v) 0

/-- A value times 2^k. -/
def Num.scale (x : Num) (k : Int) : Num :=
  match x with
  | .fin s m e => .fin s m (e + k)
  | y => y

/-- A value under an E8M0 scale (R66): 0xFF makes it NaN. -/
def scaled (x : Num) (scale : Nat) : Num := if scale = 0xFF then .nan else x.scale (scale - 127)

/-- The element at an index of a packed row (R68). -/
def elemAt (code : Nat) (row : Nat) (i : Nat) : Nat := bitsAt row (fmtBits code * i) (fmtBits code)

/-- The packed row of elements of a code, in whole bytes (R68). -/
def packRow (code : Nat) (es : List Nat) : List Byte :=
  let w := fmtBits code
  leBytes (ceilDiv (w * es.length) 8) ((es.foldr (fun v a => a * 2 ^ w + v % 2 ^ w) 0))

/-! ### MX blocks (R85) -/

/-- emax of an MX code. -/
def mxEmax (code : Nat) : Int :=
  match code with
  | 0xA => 0
  | 0xB => 8
  | 0xC => 15
  | 0xD => 4
  | _ => 2

/-- floor(log2 |x|) of a nonzero finite value. -/
def magLog (m : Nat) (e : Int) : Int := (Nat.log2 m : Int) + e

/-- The largest floor(log2 |x|) of a block, none if every value is zero. -/
def blockLog (xs : List Num) : Option Int :=
  (xs.filterMap fun x => match x with
    | .fin _ m e => if m = 0 then none else some (magLog m e)
    | _ => none).max?

/-- Rounds one element of an MX block, saturating whatever OVF says. -/
def mxElem (code : Nat) (rnd : Rnd) (x : Num) : Conv :=
  match x with
  | .fin neg m e =>
    (match floatFmt code with
     | some f => f.round rnd true neg m e
     | none =>
       let n := roundTo rnd m e (-6)
       let c := min n 127
       { code := unsigned 8 (if neg then -(c : Int) else (c : Int)), ovf := decide (127 < n), nan := false })
  | _ => { code := 0, ovf := false, nan := false }

/-- Converts a block of 32 values to an MX format: the scale, the elements and the flags OVF and NAN (R85, R90). A block with a NaN
or an infinity becomes 32 NaN values, its finite ones too. -/
def mxBlock (code : Nat) (rnds : List Rnd) (xs : List Num) : Nat × List Nat × Bool × Bool :=
  let special := xs.any fun x => match x with
    | .fin _ _ _ => false
    | _ => true
  if special then (0xFF, xs.map fun _ => 0, !xs.all (fun x => match x with
    | .fin _ _ _ => false
    | _ => true), true)
  else
    match blockLog xs with
    | none => (0, xs.map fun _ => 0, false, false)
    | some l =>
      let k := max (-127) (min 127 (l - mxEmax code))
      let cs := xs.mapIdx fun i x => mxElem code (rnds.getD i .even) (x.scale (-k))
      ((k + 127).toNat, cs.map Conv.code, cs.any Conv.ovf, false)

/-! ### Philox-4x32-10 (R87, R88) -/

/-- One round. -/
def philoxRound (c : Nat × Nat × Nat × Nat) (k0 k1 : Nat) : Nat × Nat × Nat × Nat :=
  let p0 := 0xD2511F53 * c.1
  let p1 := 0xCD9E8D57 * c.2.2.1
  (p1 / 2 ^ 32 ^^^ c.2.1 ^^^ k0, p1 % 2 ^ 32, p0 / 2 ^ 32 ^^^ c.2.2.2 ^^^ k1, p0 % 2 ^ 32)

/-- Ten rounds from a counter and a key. -/
def philox (c : Nat × Nat × Nat × Nat) (k0 k1 : Nat) : List Nat :=
  let r := (List.range 10).foldl (fun c i =>
    philoxRound c ((k0 + i * 0x9E3779B9) % 2 ^ 32) ((k1 + i * 0xBB67AE85) % 2 ^ 32)) c
  [r.1, r.2.1, r.2.2.1, r.2.2.2]

/-- The random word of logical element i of a tensor (R87). -/
def randomWord (seed imp tensorId i : Nat) : Nat :=
  let g := i / 4
  (philox (g % 2 ^ 32, tensorId * 2 ^ 16 + bitsAt g 32 16, bitsAt imp 0 32, bitsAt imp 32 32) (bitsAt seed 0 32)
    (bitsAt seed 32 32)).getD (i % 4) 0

end Sys2Proof.Machine
end

