-- ==== Sys2Proof/Machine/CollOps.lean ====
section
/-!
DEFINITION. The arithmetic and the layout of collectives (chapter 13): the canonical tree, pairwise reductions, ownership, ring
steps and the values that move in them.
-/
namespace Sys2Proof.Machine
open Sys2Proof

/-! ### The canonical tree (R373, R374) -/

/-- The split point of a node: the largest power of two below its length, from its start. -/
def splitAt (lo hi : Nat) : Nat := lo + 2 ^ Nat.log2 (hi - lo - 1)

/-- Whether the recursion from [lo, hi) reaches [a, b). -/
def isNode : Nat → Nat → Nat → Nat → Nat → Bool
  | 0, _, _, _, _ => false
  | k + 1, lo, hi, a, b =>
    if lo = a ∧ hi = b then true
    else if hi - lo ≤ 1 then false
    else if b ≤ splitAt lo hi then isNode k lo (splitAt lo hi) a b
    else if splitAt lo hi ≤ a then isNode k (splitAt lo hi) hi a b
    else false

/-- The part of red(lo, hi) above the leaves that are known. -/
def redTree (op : Elem → Elem → Elem) (leaf : Nat → Nat → Option Elem) : Nat → Nat → Nat → Option Elem
  | 0, _, _ => none
  | k + 1, lo, hi =>
    match leaf lo hi with
    | some e => some e
    | none =>
      if hi - lo ≤ 1 then none
      else
        match redTree op leaf k lo (splitAt lo hi), redTree op leaf k (splitAt lo hi) hi with
        | some a, some b => some (op a b)
        | _, _ => none

/-- Whether ranks form one node of the tree over P ranks. -/
def formsNode (p : Nat) (rs : List Nat) : Bool :=
  let x := span rs
  rs.length == x.2 - x.1 && isNode 40 0 p x.1 x.2

/-- The first device, then the first rack, whose ranks break the layout rule: its lowest and highest ranks (R371, R374). -/
def Group.layoutFault (g : Group) : Option (Nat × Nat) :=
  let p := g.ranks.length
  let sets := g.devs.map g.ranksOf ++ g.racks.map fun k => g.ranksWhere fun e => rankHall e / 64 == k
  (sets.find? fun rs => !formsNode p rs).map fun rs => ((span rs).1, (span rs).2 - 1)

/-! ### Pairwise reduction (R378) -/

/-- Bytes of an element (Table 13.3); none for a TYPE that the table does not list. -/
def elemSize (typ : Nat) : Option Nat :=
  match typ with
  | 0x00 => some 4
  | 0x01 => some 2
  | 0x02 => some 2
  | 0x03 => some 1
  | 0x04 => some 1
  | 0x09 => some 4
  | 0x10 => some 8
  | _ => none

/-- minimumNumber or maximumNumber of two codes of a format (R357). -/
def pickCode (f : Fmt) (wantMax : Bool) (a b : Nat) : Nat :=
  let key := fun (v : Nat) =>
    let m := v % 2 ^ (f.ew + f.mw)
    if bitAt v (f.ew + f.mw) then -(m : Int) - 1 else (m : Int)
  if f.decode a = .nan then (if f.decode b = .nan then f.nanCode else b)
  else if f.decode b = .nan then a
  else if (key a ≤ key b) = wantMax then b else a

/-- The sum of two signed integers of n bits: wrapped, or saturated. -/
def intSum (n : Nat) (sat : Bool) (a b : Nat) : Nat × Bool :=
  let x := signed n a + signed n b
  let top : Int := 2 ^ (n - 1)
  if sat ∧ top ≤ x then (2 ^ (n - 1) - 1, true)
  else if sat ∧ x < -top then (2 ^ (n - 1), true)
  else (unsigned n x, false)

/-- One pairwise reduction a ⊕ b: the bits and whether they overflowed. -/
def reduceBits (typ rop : Nat) (sat : Bool) (a b : Nat) : Nat × Bool :=
  if typ = 9 ∨ typ = 0x10 then
    let n := if typ = 9 then 32 else 64
    match rop with
    | 0 => intSum n sat a b
    | 1 => (if signed n a ≤ signed n b then a else b, false)
    | _ => (if signed n a ≤ signed n b then b else a, false)
  else
    let f := (floatFmt typ).getD fp32
    match rop with
    | 0 =>
      let c := f.convert .even sat ((f.decode a).add (f.decode b))
      (c.code, c.ovf)
    | 1 => (pickCode f false a b, false)
    | _ => (pickCode f true a b, false)

/-- a ⊕ b of a job's TYPE, ROP and OVF; poison of either spreads (R380). -/
def CollJob.combine (j : CollJob) (a b : Elem) : Elem :=
  let r := reduceBits j.typ j.rop (bitAt j.flags 0) a.v b.v
  { v := r.1, p := a.p || b.p, o := a.o || b.o || r.2 }

/-- An element is NaN. -/
def CollJob.isNan (j : CollJob) (v : Nat) : Bool :=
  match floatFmt j.typ with
  | some f => decide (j.typ < 5) && f.decode v == .nan
  | none => false

/-! ### Courses and transfers (R383 to R385) -/

/-- Bytes of an element of a job. -/
def CollJob.size (j : CollJob) : Nat := (elemSize j.typ).getD 1

/-- Elements of the combined vector; for ALLGATHER and ALLTOALL the P × COUNT elements that a rank receives or gives. -/
def CollJob.total (j : CollJob) (p : Nat) : Nat :=
  if j.op = 7 then 0 else if j.op = 2 ∨ j.op = 3 ∨ j.op = 6 then p * j.count else j.count

/-- Elements of a course, and the courses of an operation. Log 60 (DESIGN CHOICE). -/
def courseElems (g : Group) (j : CollJob) : Nat := g.course / j.size
def courseCount (g : Group) (j : CollJob) : Nat := ceilDiv (j.total g.ranks.length) (courseElems g j)

/-- Elements of a packet: up to 256 bytes of whole elements. -/
def CollJob.perPkt (j : CollJob) : Nat := 256 / j.size

/-- Start of part j of a length cut for n members (`own`). -/
def cut (l n j : Nat) : Nat := j * l / n

/-- A transfer of a ring step between this device and a peer: indices lo to hi − 1 of the run, and its place in the order of
phases. -/
structure Tr where
  stage : Nat
  phase : Nat
  step : Nat
  peer : Nat
  die : Nat
  lo : Nat
  hi : Nat
  level : Nat
deriving DecidableEq, Repr

/-- Where a run works: the vector index of its first element, its length, and this device's place. -/
structure Place where
  first : Nat
  len : Nat
  me : Nat
  /-- Position in its rack, members of the rack, position of the rack, racks. -/
  j : Nat
  mates : List Nat
  h : Nat
  racks : List Nat
deriving DecidableEq, Repr

/-- The place of a run: a quarter of a course, cut by the course size that the last course may fall short of (R383), or for
ALLTOALL the whole course. Log 60 (DEDUCED). -/
def placeOf (g : Group) (job : CollJob) (me course die : Nat) : Place :=
  let c := courseElems g job
  let l := min c (job.total g.ranks.length - course * c)
  let mates := g.inRack (me / 64)
  let lo := min l (cut c 4 die)
  let q := if job.op = 6 then (0, l) else (lo, min l (cut c 4 (die + 1)) - lo)
  { first := course * c + q.1, len := q.2, me := me, j := mates.idxOf me, mates := mates, h := g.racks.idxOf (me / 64),
    racks := g.racks }

/-- Indices that both of two ranges hold. -/
def meet (a b : Nat × Nat) : Nat × Nat := (max a.1 b.1, min a.2 b.2)

/-- What a device owns of a place at its rack stage. -/
def rackRange (g : Group) (p : Place) (hall : Nat) : Nat × Nat :=
  let m := g.inRack (hall / 64)
  let j := m.idxOf hall
  (cut p.len m.length j, cut p.len m.length (j + 1))

/-- What a rack owns of a place at the hall stage. -/
def hallRange (p : Place) (rack : Nat) : Nat × Nat :=
  let h := p.racks.idxOf rack
  (cut p.len p.racks.length h, cut p.len p.racks.length (h + 1))

/-- What a device owns of a place in the end. -/
def finalRange (g : Group) (p : Place) (hall : Nat) : Nat × Nat := meet (rackRange g p hall) (hallRange p (hall / 64))

/-- A rank's block of the combined vector, as indices of a place. -/
def blockRange (p : Place) (count r : Nat) : Nat × Nat :=
  let x := meet (r * count, (r + 1) * count) (p.first, p.first + p.len)
  (x.1 - p.first, x.2 - p.first)

/-- A transfer of a range, if it is not empty. -/
def mkTr (stage phase step peer die level : Nat) (r : Nat × Nat) : List Tr :=
  if r.1 < r.2 then [{ stage := stage, phase := phase, step := step, peer := peer, die := die, lo := r.1, hi := r.2, level := level }]
  else []

/-- Ring steps 1 to n − 1. -/
def ring (n : Nat) : List Nat := (List.range (n - 1)).map (· + 1)

/-- Rack stage: the transfers that this device sends, or receives (`back`), in a phase. -/
def rackTrs (g : Group) (p : Place) (die phase level : Nat) (back : Bool) : List Tr :=
  let n := p.mates.length
  (ring n).flatMap fun t =>
    let peer := p.mates.getD ((if back then p.j + n - t else p.j + t) % n) 0
    mkTr 1 phase t peer die level (rackRange g p (if (phase == 0) == back then p.me else peer))

/-- Hall stage: the transfers that this device sends, or receives (`back`), in a phase. -/
def hallTrs (g : Group) (p : Place) (die phase level : Nat) (back : Bool) : List Tr :=
  let n := p.racks.length
  (ring n).flatMap fun t =>
    let rack := p.racks.getD ((if back then p.h + n - t else p.h + t) % n) 0
    (g.inRack rack).flatMap fun peer =>
      let owner := if (phase == 0) == back then p.me else peer
      let other := if owner = p.me then peer else p.me
      mkTr 2 phase t peer die level (meet (finalRange g p owner) (rackRange g p other))

/-- Direct transfers from a final owner to the ranks that take its results (REDUCE_SCATTER, REDUCE), in ring steps over ranks. Log 59 (DESIGN CHOICE). -/
def directOut (g : Group) (p : Place) (job : CollJob) (die level : Nat) (back : Bool) : List Tr :=
  let n := g.ranks.length
  let low := g.lowest p.me
  let block := fun (r : Nat) => if job.op = 2 then blockRange p job.count r else if r = job.root then (0, p.len) else (0, 0)
  (ring n).flatMap fun t =>
    if back then
      (g.ranksOf p.me).flatMap fun r =>
        let s := (r + n - t) % n
        let x := g.hallOf s
        if g.lowest x = s ∧ x ≠ p.me then mkTr 3 0 t x die level (meet (finalRange g p x) (block r)) else []
    else
      let r := (low + t) % n
      if g.hallOf r ≠ p.me then mkTr 3 0 t (g.hallOf r) die level (meet (finalRange g p p.me) (block r)) else []

/-- Direct transfers from the ranks that hold source elements to their final owners (ALLGATHER, BROADCAST). -/
def directIn (g : Group) (p : Place) (job : CollJob) (die level : Nat) (back : Bool) : List Tr :=
  let n := g.ranks.length
  let block := fun (s : Nat) => if job.op = 3 then blockRange p job.count s else if s = job.root then (0, p.len) else (0, 0)
  (ring n).flatMap fun t =>
    if back then
      let s := (g.lowest p.me + n - t) % n
      if g.hallOf s ≠ p.me then mkTr 3 0 t (g.hallOf s) die level (meet (finalRange g p p.me) (block s)) else []
    else
      (g.ranksOf p.me).flatMap fun s =>
        let r := (s + t) % n
        let x := g.hallOf r
        if g.lowest x = r ∧ x ≠ p.me then mkTr 3 0 t x die level (meet (finalRange g p x) (block s)) else []

/-- ALLTOALL: the blocks that the rank of a die sends, or receives. -/
def exchange (g : Group) (p : Place) (job : CollJob) (rank : Nat) (back : Bool) : List Tr :=
  let n := g.ranks.length
  (ring n).flatMap fun t =>
    let r := if back then (rank + n - t) % n else (rank + t) % n
    if g.hallOf r ≠ p.me then
      mkTr 3 0 t (g.hallOf r) (g.dieOf r) 1 (blockRange p job.count (if back then rank else r)) else []

/-- What a run sends, or receives (`back`), in order (Table 13.5). -/
def transfers (g : Group) (p : Place) (job : CollJob) (die : Nat) (back : Bool) : List Tr :=
  match job.op with
  | 1 => rackTrs g p die 0 1 back ++ hallTrs g p die 0 2 back ++ hallTrs g p die 1 3 back ++ rackTrs g p die 1 4 back
  | 2 => rackTrs g p die 0 1 back ++ hallTrs g p die 0 2 back ++ directOut g p job die 3 back
  | 5 => rackTrs g p die 0 1 back ++ hallTrs g p die 0 2 back ++ directOut g p job die 3 back
  | 6 =>
    (match g.rankAt p.me die with
     | some r => exchange g p job r back
     | none => [])
  | 7 => []
  | _ => directIn g p job die 1 back ++ hallTrs g p die 1 2 back ++ rackTrs g p die 1 3 back

/-- The stage and phase of a level of an operation's transfers (Table 13.5). -/
def levelAt (op level : Nat) : Nat × Nat :=
  let order := match op with
    | 1 => [(1, 0), (2, 0), (2, 1), (1, 1)]
    | 2 | 5 => [(1, 0), (2, 0), (3, 0)]
    | 6 => [(3, 0)]
    | _ => [(3, 0), (2, 1), (1, 1)]
  if level = 0 then (0, 0) else order.getD (level - 1) (0, 0)

/-- Packets of a transfer. -/
def Tr.pkts (t : Tr) (job : CollJob) : Nat := ceilDiv (t.hi - t.lo) job.perPkt

/-- Whether every packet of the n-th transfer to receive has come. -/
def CollRun.received (r : CollRun) (job : CollJob) (n : Nat) (t : Tr) : Bool :=
  (List.range (t.pkts job)).all fun k => Tab.get [] r.got (4096 * n + k) != []

/-- The element at index i that came in the n-th transfer to receive. -/
def CollRun.elemIn (r : CollRun) (job : CollJob) (n : Nat) (t : Tr) (i : Nat) : Option Elem :=
  (Tab.get [] r.got (4096 * n + (i - t.lo) / job.perPkt))[(i - t.lo) % job.perPkt]?

/-- The element at index i from a transfer of a stage and phase, from a peer if one is named. -/
def CollRun.recvElem (r : CollRun) (job : CollJob) (ins : List Tr) (stage phase : Nat) (peer : Option Nat) (i : Nat) :
    Option Elem :=
  match ins.findIdx? fun t => t.stage == stage && t.phase == phase && decide (t.lo ≤ i ∧ i < t.hi) &&
      (peer.isNone || peer == some t.peer) with
  | none => none
  | some n =>
    match ins[n]? with
    | some t => r.elemIn job n t i
    | none => none

/-- Combines the partials of a stage's members: by the canonical tree over their ranges of ranks, or own first and then
those of members j − 1, j − 2, … (R384). -/
def combineStage (g : Group) (job : CollJob) (members : List Nat) (ranges : Nat → Nat × Nat) (j : Nat) (whole : Nat × Nat)
    (part : Nat → Option Elem) : Option Elem :=
  let n := members.length
  if g.fast then
    (ring n).foldl (fun (a : Option Elem) t =>
      match a, part (members.getD ((j + n - t) % n) 0) with
      | some x, some y => some (job.combine x y)
      | _, _ => none) (part (members.getD j 0))
  else
    redTree job.combine (fun lo hi => match members.find? fun m => ranges m == (lo, hi) with
      | some m => part m
      | none => none) 40 whole.1 whole.2

/-- What the values of a run are computed from. -/
structure Work where
  g : Group
  job : CollJob
  p : Place
  run : CollRun
  ins : List Tr

/-- The range of ranks of a rack. -/
def Group.rackSpan (g : Group) (rack : Nat) : Nat × Nat := span (g.ranksWhere fun e => rankHall e / 64 == rack)

/-- The device's partial of index i. -/
def Work.part (w : Work) (i : Nat) : Option Elem := (w.run.base.getD i none)

/-- The rack's partial of index i at its rack-stage owner. -/
def Work.rackVal (w : Work) (i : Nat) : Option Elem :=
  combineStage w.g w.job w.p.mates (fun m => span (w.g.ranksOf m)) w.p.j (w.g.rackSpan (w.p.me / 64)) fun m =>
    if m = w.p.me then w.part i else w.run.recvElem w.job w.ins 1 0 (some m) i

/-- The final value of index i at its final owner. -/
def Work.finalVal (w : Work) (i : Nat) : Option Elem :=
  if w.job.op = 3 ∨ w.job.op = 4 then
    (match w.part i with
     | some e => some e
     | none => w.run.recvElem w.job w.ins 3 0 none i)
  else
    combineStage w.g w.job w.p.racks w.g.rackSpan w.p.h (0, w.g.ranks.length) fun k =>
      if k = w.p.me / 64 then w.rackVal i
      else
        match (w.g.inRack k).find? fun m => let r := rackRange w.g w.p m; decide (r.1 ≤ i ∧ i < r.2) with
        | some m => w.run.recvElem w.job w.ins 2 0 (some m) i
        | none => none

/-- Whether an index lies in a range. -/
def within (r : Nat × Nat) (i : Nat) : Bool := decide (r.1 ≤ i ∧ i < r.2)

/-- The final value of index i at its rack-stage owner in the gather phase. -/
def Work.known (w : Work) (i : Nat) : Option Elem :=
  if within (finalRange w.g w.p w.p.me) i then w.finalVal i else w.run.recvElem w.job w.ins 2 1 none i

/-- The result of index i on this device. -/
def Work.result (w : Work) (i : Nat) : Option Elem :=
  if w.job.op = 2 ∨ w.job.op = 5 then
    (if within (finalRange w.g w.p w.p.me) i then w.finalVal i else w.run.recvElem w.job w.ins 3 0 none i)
  else if within (rackRange w.g w.p w.p.me) i then w.known i
  else w.run.recvElem w.job w.ins 1 1 none i

/-- The element of index i that a transfer sends. -/
def Work.outgoing (w : Work) (t : Tr) (i : Nat) : Option Elem :=
  match t.stage, t.phase with
  | 1, 0 => w.part i
  | 2, 0 => w.rackVal i
  | 2, _ => w.finalVal i
  | 1, _ => w.known i
  | _, _ => if w.job.op = 2 ∨ w.job.op = 5 then w.finalVal i else w.part i

end Sys2Proof.Machine
end

