-- ==== Sys2Proof/Machine/CollRun.lean ====
section
/-!
DEFINITION. The collective units at work (R381 to R396): jobs, operations, courses, credit, aborts, barriers and pauses.
-/
namespace Sys2Proof.Machine
open Sys2Proof

/-- The lowest die of this device that hosts a rank of a group: its unit speaks for the device (R372). -/
def speaker (s : State) (g : Group) : Nat := (((localRanks s g).map Prod.snd).min?).getD 0

/-- The other member devices. -/
def otherDevs (s : State) (g : Group) : List Nat := g.devs.filter (· != s.fab.hall)

/-- An operation of a group by its SEQ. -/
def Group.op (g : Group) (seq : Nat) : Option CollOp := g.ops.find? (·.seq == seq)

/-- Changes an operation of a group. -/
def updOp (i seq : Nat) (f : CollOp → CollOp) (s : State) : State :=
  updGroup i (fun g => { g with ops := g.ops.map fun o => if o.seq = seq then f o else o }) s

/-- Changes a run of an operation. -/
def updRun (i seq course die : Nat) (f : CollRun → CollRun) (s : State) : State :=
  updOp i seq (fun o => { o with runs := o.runs.map fun r => if r.course = course ∧ r.die = die then f r else r }) s

/-- Next SEQ of the rank of a die, and the highest that any has (R381). -/
def Group.nextSeq (g : Group) (die : Nat) : Nat := (g.seq + Tab.get 0 g.submitted die) % 2 ^ 24
def Group.topSeq (g : Group) : Nat := (g.seq + ((g.submitted.map Prod.snd).max?).getD 0) % 2 ^ 24

/-- Whether a SEQ is one that no job here has taken yet. -/
def Group.isFuture (g : Group) (seq : Nat) : Bool := decide ((seq + 2 ^ 24 - g.topSeq) % 2 ^ 24 < 2 ^ 23)

/-! ### Packets (Tables 13.6 and 13.7) -/

/-- Header word 1 of a collective packet. -/
structure CHdr where
  key : Nat
  seq : Nat
  course : Nat
  stage : Nat
  phase : Nat
  step : Nat
  pkt : Nat
  die : Nat
  sigf : Bool
deriving DecidableEq, Repr

/-- The bits of header word 1. Log 59 (DESIGN CHOICE). -/
def CHdr.word (h : CHdr) : BitVec 144 :=
  codeWord (BitVec.ofNat 128 (h.key + h.seq * 2 ^ 32 + h.course * 2 ^ 56 + h.stage * 2 ^ 84 + h.phase * 2 ^ 86 + h.step * 2 ^ 87 +
    h.pkt * 2 ^ 103 + h.die * 2 ^ 115 + bit h.sigf * 2 ^ 117)) 0

/-- Reads header word 1 of a collective packet. -/
def readCHdr (ws : List (BitVec 144)) : CHdr :=
  let v := (readWord (ws.getD 1 0)).1.toNat
  { key := bitsAt v 0 32, seq := bitsAt v 32 24, course := bitsAt v 56 28, stage := bitsAt v 84 2, phase := bitsAt v 86 1,
    step := bitsAt v 87 16, pkt := bitsAt v 103 12, die := bitsAt v 115 2, sigf := bitAt v 117 }

/-- A header word 1 with a group, an operation and a die alone. -/
def plainCHdr (key seq die : Nat) : CHdr :=
  { key := key, seq := seq, course := 0, stage := 0, phase := 0, step := 0, pkt := 0, die := die, sigf := false }

/-- Sends a collective packet (R387): VC2 for data and credit, VC0 for the others; TAG, GEN and STATUS are 0. Log 59 (DESIGN CHOICE). -/
def sendColl (opc dst owner len : Nat) (h : CHdr) (payload : List (BitVec 144)) (s : State) : State :=
  let vc := if opc = 0x20 ∨ opc = 0x21 then 2 else 0
  let rsp := opc == 0x21
  let w0 := ({ opc := opc, vc := vc, rsp := rsp, hops := 0, dst := dst, src := s.fab.hall, epoch := s.flt.epoch.toNat, tag := 0,
               gen := 0, len := len, status := 0 } : Hdr).word
  (routePacket dst 0 { vc := vc, rsp := rsp, words := w0 :: h.word :: payload, tag := none, owner := some owner } none s).2

/-! ### Signatures (R388) -/

/-- The signature of an operation. Log 59 (DESIGN CHOICE). -/
def signature (key seq op typ rop flags root count : Nat) : Nat :=
  ofLE ((sha256 (record 32 [(0, 4, key), (4, 4, seq), (8, 1, op), (9, 1, typ), (10, 1, rop), (11, 1, flags), (12, 4, root),
    (16, 8, count)])).take 8)

/-- The signature of an operation at this device; a start barrier has that of a BARRIER without elements. -/
def opSignature (g : Group) (o : CollOp) : Nat :=
  match o.jobs with
  | j :: _ => signature g.key o.seq j.op j.typ j.rop j.flags j.root j.count
  | [] => signature g.key o.seq 7 0 0 0 0 0

/-- Whether the jobs of this device's ranks agree. -/
def jobsAgree (o : CollOp) : Bool :=
  match o.jobs with
  | [] => true
  | j :: rest => rest.all fun k => (k.op, k.typ, k.rop, k.flags, k.root, k.count) == (j.op, j.typ, j.rop, j.flags, j.root, j.count)

/-- Whether an operation is a barrier. -/
def CollOp.isBarrier (o : CollOp) : Bool :=
  match o.jobs with
  | j :: _ => j.op == 7
  | [] => true

/-! ### Jobs end (R108, R390, R395) -/

/-- A job completes with a status and its flags. -/
def endCollJob (owner : Nat) (j : CollJob) (status : Nat) (s : State) : State :=
  match j.waiter with
  | some w => completeSlot w.1 w.2 status Result.none s
  | none => retireFlags owner j.core j.cnt status j.nan j.ovf s

/-- A plate's first impression ends with a status and runs nothing: its threads leave their start offsets (R247). -/
def endHeldStart (h status : Nat) (s : State) : State :=
  match s.plate h with
  | none => s
  | some p =>
    let held := (List.range 512).filter fun k => match (s.coreAt k).live with
      | some l => l.plate == h && (List.range 8).any fun i => (s.thread (8 * k + i)).barrier == some 32
      | none => false
    let s1 := held.foldl (fun s k =>
      (List.range 8).foldl (fun s i => s.setThread (8 * k + i) { s.thread (8 * k + i) with live := false, state := 0, barrier := none })
        (s.setCore k { s.coreAt k with live := none })) s
    s1.setPlate h (some { p with
      startPending := false,
      running := p.running.map fun r =>
        if r.impression = p.nextImp then { r with status := firstStatus r.status status, begun := true, next := 0, ended := true } else r })

/-- The jobs of an operation that has ended complete, and the operation leaves the group. -/
def retireOp (i : Nat) (o : CollOp) (status : Nat) (s : State) : State :=
  match s.group i with
  | none => s
  | some g =>
    let s1 := updGroup i (fun g => { g with ops := g.ops.filter (·.seq != o.seq) }) s
    let s2 := o.jobs.foldl (fun s j => endCollJob g.owner j (if status = stOk ∧ j.poison then stPoison else status) s) s1
    match o.plate with
    | some h => if status = stOk then s2 else endHeldStart h status s2
    | none => s2

/-- An operation ends; while its context is switched out its jobs wait for the resumption (R395). -/
def endOp (i seq status : Nat) (s : State) : State :=
  match s.group i with
  | none => s
  | some g =>
    match g.op seq with
    | none => s
    | some o =>
      if o.ended.isSome then s
      else if g.paused then updOp i seq (fun o => { o with ended := some status, runs := [] }) s
      else retireOp i o status s

/-! ### Aborts (R390) -/

/-- Index of an abort status among a group's counts: mismatch, timeout, peer lost, other. -/
def abortKind (status : Nat) : Nat :=
  if status = stCollMismatch then 0 else if status = stCollTimeout then 1 else if status = stCollPeerLost then 2 else 3

/-- COLL_ABORT to every other member device. Log 59 (DESIGN CHOICE). -/
def sendAborts (g : Group) (seq status : Nat) (s : State) : State :=
  let rank := (((localRanks s g).map Prod.fst).head?).getD 0
  let w := sendWord (BitVec.ofNat 128 (g.key + seq * 2 ^ 32 + status * 2 ^ 56 + rank * 2 ^ 72)) false
  (otherDevs s g).foldl (fun s d => collCount (speaker s g) 2 1 (sendColl 0x22 d g.owner 16 (plainCHdr g.key seq (speaker s g)) [w] s)) s

/-- Records an abort for the ranks of this device whose jobs have not come. -/
def recordAbort (i seq status : Nat) (s : State) : State :=
  updGroup i (fun g => { g with aborted := Tab.set 0 g.aborted seq status }) s

/-- Elements of SRC and DST (Table 13.2). -/
def srcElems (op count p : Nat) : Nat := if op = 7 then 0 else if op = 2 ∨ op = 6 then p * count else count
def dstElems (op count p : Nat) : Nat := if op = 7 then 0 else if op = 3 ∨ op = 6 then p * count else count

/-- What an abort leaves at a rank's DST (R390): bytes that the spec leaves open, where the owner still owns the range.
BARRIER has no DST, and REDUCE has one at ROOT only. -/
def openDst (g : Group) (j : CollJob) (s : State) : State :=
  let n := dstElems j.op j.count g.ranks.length * j.size
  if n = 0 ∨ (j.op = 5 ∧ j.rank ≠ j.root) ∨ ¬ ctxOwns s g.owner j.dst n then s
  else
    let d := s.drawBytes n
    memWrite j.dst d.1 d.2

/-- Aborts an operation with a status, sending COLL_ABORT if this device is the one that detects (R390); `own` is the status
of its own jobs. -/
def abortOp (i seq status own : Nat) (send : Bool) (s : State) : State :=
  match s.group i with
  | none => s
  | some g =>
    match g.op seq with
    | none => s
    | some o =>
      if o.ended.isSome then s
      else
        let k := abortKind status
        let s1 := if send then sendAborts g seq status s else s
        let s2 := dryEvent 4 (if k < 3 then collCount (speaker s g) (4 + k) 1 s1 else s1)
        let s3 := updGroup i (fun g => { g with
          aborts := Tab.upd 0 g.aborts k (· + 1),
          early := g.early.filter fun ws => (readCHdr ws).seq != seq }) s2
        let s4 := if o.plate.isNone ∧ o.jobs.length < (localRanks s g).length then recordAbort i seq own s3 else s3
        endOp i seq own (o.jobs.foldl (fun s j => openDst g j s) s4)

/-- Aborts every operation of a group. -/
def abortAll (i status own : Nat) (send : Bool) (s : State) : State :=
  match s.group i with
  | none => s
  | some g => g.ops.foldl (fun s o => abortOp i o.seq status own send s) s

/-! ### Courses -/

/-- What the values of a run are computed from. Log 60 (DESIGN CHOICE). -/
def workOf (s : State) (g : Group) (j : CollJob) (r : CollRun) : Work :=
  let p := placeOf g j s.fab.hall r.course r.die
  { g := g, job := j, p := p, run := r, ins := transfers g p j r.die true }

/-- Reads n elements of a job's source from an element index on. -/
def readElems (owner : Nat) (j : CollJob) (first n : Nat) (s : State) : List Elem × State :=
  let a := j.src + first * j.size
  let r := memRead owner a (n * j.size) s
  ((List.range n).map fun i =>
    { v := ofLE (sliceBytes r.1.bytes (i * j.size) j.size), p := s.mem.mem.poisonAt (a + i * j.size) j.size, o := false }, r.2)

/-- The device stage of a course (R384): the partials of this device's ranks, or the elements that they give. -/
def deviceStage (g : Group) (o : CollOp) (p : Place) (die : Nat) (s : State) : List (Option Elem) × State :=
  match o.jobs with
  | [] => ([], s)
  | j0 :: _ =>
    let jobs := (g.ranksOf s.fab.hall).filterMap fun r => o.jobs.find? (·.rank == r)
    if j0.op = 3 then
      jobs.foldl (fun (a : List (Option Elem) × State) j =>
        let b := blockRange p j.count j.rank
        if b.1 < b.2 then
          let r := readElems g.owner j (p.first + b.1 - j.rank * j.count) (b.2 - b.1) a.2
          (a.1.take b.1 ++ r.1.map some ++ a.1.drop b.2, r.2)
        else a) (List.replicate p.len none, s)
    else if j0.op = 4 then
      (match jobs.find? (·.rank == j0.root) with
       | some j =>
         let r := readElems g.owner j p.first p.len s
         (r.1.map some, r.2)
       | none => (List.replicate p.len none, s))
    else if j0.op = 6 then
      (match jobs.find? (·.die == die) with
       | some j =>
         let r := readElems g.owner j p.first p.len s
         (r.1.map some, r.2)
       | none => (List.replicate p.len none, s))
    else
      let r := jobs.foldl (fun (a : List (Nat × List Elem) × State) j =>
        let x := readElems g.owner j p.first p.len a.2
        (a.1 ++ [(j.rank, x.1)], x.2)) ([], s)
      let elem := fun (rank i : Nat) => match r.1.find? (·.1 == rank) with
        | some x => x.2[i]?
        | none => none
      let ranks := r.1.map Prod.fst
      let whole := span ranks
      ((List.range p.len).map fun i =>
        if g.fast then
          ranks.tail.foldl (fun (a : Option Elem) k => match a, elem k i with
            | some x, some y => some (j0.combine x y)
            | _, _ => none) (elem (ranks.headD 0) i)
        else redTree j0.combine (fun lo hi => if hi = lo + 1 then elem lo i else none) 40 whole.1 whole.2, r.2)

/-- The dies that work on an operation: all four, or for ALLTOALL those that host a rank (R383). -/
def workDies (s : State) (g : Group) (j : CollJob) : List Nat := if j.op = 6 then (localRanks s g).map Prod.snd else List.range 4

/-- Opens the next course of an operation: its runs take their device stage. Log 60 (DESIGN CHOICE). -/
def openCourse (i : Nat) (g : Group) (o : CollOp) (j : CollJob) (s : State) : State :=
  let r := (workDies s g j).foldl (fun (a : List CollRun × State) (die : Nat) =>
    let p := placeOf g j s.fab.hall o.opened die
    let b := deviceStage g o p die a.2
    (a.1 ++ [{ course := o.opened, die := die, base := b.1, pos := 0, pkt := 0, waited := false, granted := 0, got := [],
               written := false }], b.2)) ([], s)
  updOp i o.seq (fun o => { o with opened := o.opened + 1, runs := o.runs ++ r.1 }) r.2

/-- Key of the credit of a step that a peer grants. -/
def creditKey (course stage phase step peer die : Nat) : Nat :=
  ((((course * 4 + stage) * 2 + phase) * 65536 + step) * 16384 + peer) * 4 + die

/-- Sends the credit of a transfer to receive (R385): its course, stage, phase and step, and the bytes of it. Log 59 (DESIGN CHOICE). -/
def sendCredit (g : Group) (o : CollOp) (j : CollJob) (r : CollRun) (t : Tr) (s : State) : State :=
  let bytes := (t.hi - t.lo) * j.size
  let w := sendWord (BitVec.ofNat 128 (r.course + t.stage * 2 ^ 32 + t.phase * 2 ^ 40 + t.step * 2 ^ 48 + bytes * 2 ^ 64)) false
  sendColl 0x21 t.peer g.owner 16
    { plainCHdr g.key o.seq r.die with
      course := r.course, stage := t.stage, phase := t.phase, step := t.step } [w] s

/-- The stage and phase that a run could be in: that of the first transfer it has not sent or received, none once all are done. -/
def runLevel (s : State) (g : Group) (j : CollJob) (r : CollRun) : Option Nat :=
  let p := placeOf g j s.fab.hall r.course r.die
  let sends := ((transfers g p j r.die false).drop r.pos).map Tr.level
  let takes := ((transfers g p j r.die true).zipIdx.filter fun e => !r.received j e.2 e.1).map fun e => e.1.level
  (sends ++ takes).min?

/-- Where a die holds an unfinished run: its operation and course, and the level that it has entered (0 before the first). -/
structure Held where
  seq : Nat
  op : Nat
  course : Nat
  level : Nat
deriving DecidableEq, Repr

/-- Where a die holds the unfinished runs of a group (R385): courses enter each stage and phase in ascending order, and one that finds
two in it stays in the one before. Log 60 (DESIGN CHOICE). -/
def heldRuns (s : State) (g : Group) (die : Nat) : List Held :=
  g.ops.foldl (fun a o =>
    match o.jobs with
    | [] => a
    | j :: _ =>
      if ¬ o.started ∨ o.ended.isSome then a
      else (o.runs.filter (·.die == die)).foldl (fun a r =>
        match runLevel s g j r with
        | none => a
        | some l =>
          let m := (((a.filter (·.seq == o.seq)).map Held.level).min?).elim l (min l)
          let full := decide (2 ≤ (a.filter fun e => levelAt e.op e.level == levelAt j.op m).length)
          a ++ [{ seq := o.seq, op := j.op, course := r.course, level := if full then m - 1 else m }]) a) []

/-- The level that a run has entered; every level once its transfers are done. -/
def heldLevel (s : State) (g : Group) (o : CollOp) (r : CollRun) : Option Nat :=
  ((heldRuns s g r.die).find? fun e => e.seq == o.seq && e.course == r.course).map Held.level

/-- Whether a run is still in the first of its stages and phases. -/
def inFirst (s : State) (g : Group) (o : CollOp) (j : CollJob) (r : CollRun) : Bool :=
  let p := placeOf g j s.fab.hall r.course r.die
  let first := (((transfers g p j r.die false) ++ transfers g p j r.die true).map Tr.level).min?
  !r.written && (match heldLevel s g o r, first with
    | some l, some f => decide (l ≤ f)
    | _, f => f.isNone)

/-- Whether the next course of an operation may open: fewer than two are in its first stage and phase (R385). -/
def mayOpen (s : State) (g : Group) (o : CollOp) (j : CollJob) : Bool :=
  decide (o.opened < courseCount g j ∧ (((o.runs.filter (inFirst s g o j)).map CollRun.course).eraseDups).length < 2)

/-- The transfers to receive that a run may have granted: those of the stages and phases that it has entered, and for ALLTOALL two
beyond those that are complete, so that two courses stay within the staging area (R385). Log 60 (DESIGN CHOICE). -/
def grantLimit (s : State) (o : CollOp) (w : Work) : Nat :=
  let n := match heldLevel s w.g o w.run with
    | some l => (w.ins.takeWhile fun t => decide (t.level ≤ l)).length
    | none => w.ins.length
  if w.job.op = 6 then min n (2 + (w.ins.zipIdx.filter fun e => w.run.received w.job e.2 e.1).length) else n

/-- Writes elements from a destination index on, poisoned words poisoned. -/
def writeCollElems (j : CollJob) (first : Nat) (es : List Elem) (s : State) : State :=
  let a := j.dst + first * j.size
  let s1 := memWriteFor (holderOf s a) a (es.flatMap fun e => leBytes j.size e.v) s
  es.zipIdx.foldl (fun s e => if e.1.p then memPoison (a + e.2 * j.size) j.size s else s) s1

/-- What a run writes into a rank's destination: first index, and the elements. Log 60 (DESIGN CHOICE). -/
def resultsFor (o : CollOp) (w : Work) (j : CollJob) : List (Nat × List Elem) :=
  let row := fun (lo hi : Nat) => (List.range (hi - lo)).filterMap fun k => w.result (lo + k)
  match j.op with
  | 2 =>
    let b := blockRange w.p j.count j.rank
    [(w.p.first + b.1 - j.rank * j.count, row b.1 b.2)]
  | 5 => if j.rank = j.root then [(w.p.first, row 0 w.p.len)] else []
  | 6 =>
    if j.die ≠ w.run.die then []
    else
      let b := blockRange w.p j.count j.rank
      (List.range w.g.ranks.length).map fun r =>
        let es := match w.ins.findIdx? fun t => t.peer == w.g.hallOf r && t.die == w.g.dieOf r with
          | some n =>
            (match w.ins[n]? with
             | some t => (List.range (b.2 - b.1)).filterMap fun k => w.run.elemIn j n t (b.1 + k)
             | none => [])
          | none =>
            (match o.runs.find? fun x => x.course == w.run.course && x.die == w.g.dieOf r with
             | some x => (List.range (b.2 - b.1)).filterMap fun k => x.base.getD (b.1 + k) none
             | none => [])
        (r * j.count + (w.p.first + b.1 - j.rank * j.count), es)
  | _ => [(w.p.first, row 0 w.p.len)]

/-- A run whose transfers are all sent and received writes its results (R384); its jobs take the flags. Log 60 (DESIGN CHOICE). -/
def writeRun (i : Nat) (o : CollOp) (w : Work) (s : State) : State :=
  let out := o.jobs.map fun j => (j, resultsFor o w j)
  let s1 := out.foldl (fun s e => e.2.foldl (fun s x => if x.2 = [] then s else writeCollElems e.1 x.1 x.2 s) s) s
  let flag := fun (j : CollJob) =>
    let es := ((out.find? fun e => e.1.rank == j.rank).map fun e => e.2.flatMap Prod.snd).getD []
    { j with poison := j.poison || es.any Elem.p, nan := j.nan || es.any (fun e => j.isNan e.v), ovf := j.ovf || es.any Elem.o }
  let s2 := updOp i o.seq (fun o => { o with jobs := o.jobs.map flag }) s1
  collCount w.run.die 1 1 (updRun i o.seq w.run.course w.run.die (fun r => { r with written := true }) s2)

/-- Whether an operation has sent its last transfer. -/
def sentLast (s : State) (g : Group) (o : CollOp) : Bool :=
  match o.jobs with
  | [] => o.arriveSent
  | j :: _ =>
    if j.op = 7 then o.arriveSent
    else o.started && o.opened == courseCount g j && o.runs.all fun r =>
      r.pos == (transfers g (placeOf g j s.fab.hall r.course r.die) j r.die false).length

/-! ### Barriers (R247, R396) -/

/-- B of R247, in 1/256 ridge tick. -/
def barrierB (g : Group) : Nat := 256 * (if g.racks.length = 1 then 4096 else 131072)

/-- A barrier is released here at an instant in 1/256 ridge tick: jobs complete, or a start barrier's threads are to resume
then. Log 61 (DESIGN CHOICE). -/
def releaseBarrier (i : Nat) (o : CollOp) (instant : Nat) (s : State) : State :=
  let s1 := match o.plate with
    | some h => updFab (fun f => { f with releases := f.releases ++ [(i, h, instant)] }) s
    | none => s
  match s.group i with
  | none => s
  | some g => endOp i o.seq stOk (collCount (speaker s g) 0 1 s1)

/-- At rank 0's device: when every member has arrived the barrier is released everywhere. -/
def tryRelease (i seq : Nat) (s : State) : State :=
  match s.group i with
  | none => s
  | some g =>
    match g.op seq with
    | none => s
    | some o =>
      if g.devs.all o.arrivals.contains then
        let s1 := (otherDevs s g).foldl (fun s d => sendColl 0x24 d g.owner 1 (plainCHdr g.key seq (speaker s g)) [] s) s
        releaseBarrier i o (256 * s.now + barrierB g) s1
      else s

/-- This device arrives at a barrier: at rank 0's device, or by BARRIER_ARRIVE with the signature. -/
def arrive (i : Nat) (g : Group) (o : CollOp) (s : State) : State :=
  let s1 := updOp i o.seq (fun o => { o with arriveSent := true }) s
  if g.hallOf 0 = s.fab.hall then
    tryRelease i o.seq (updOp i o.seq (fun o => { o with arrivals := s.fab.hall :: o.arrivals }) s1)
  else
    sendColl 0x23 (g.hallOf 0) g.owner 16 { plainCHdr g.key o.seq (speaker s g) with sigf := true }
      [sendWord (BitVec.ofNat 128 (opSignature g o)) false] s1

/-! ### Packets of an operation -/

/-- Bounds and receiving die of a data packet: for ALLTOALL that of the rank STEP after the sender's (R384). -/
def receivingDie (g : Group) (j : CollJob) (src : Nat) (h : CHdr) : Nat :=
  if j.op = 6 then
    match g.rankAt src h.die with
    | some r => g.dieOf ((r + h.step) % g.ranks.length)
    | none => 0
  else h.die

/-- Whether a reduction of a job can overflow (R378). -/
def CollJob.mayOverflow (j : CollJob) : Bool :=
  (j.op == 1 || j.op == 2 || j.op == 5) && j.rop == 0 && ((j.typ != 9 && j.typ != 0x10) || bitAt j.flags 0)

/-- The elements of a data packet's words. Whether a reduction made elsewhere overflowed is in no field of the packet (Table 13.7):
`ovf` gives a free bit for each. Log 60 (DESIGN CHOICE). -/
def packetElems (j : CollJob) (n ovf : Nat) (words : List (BitVec 144)) : List Elem :=
  let ds := words.map readWord
  let bytes := ds.flatMap fun d => leBytes 16 d.1.toNat
  (List.range n).map fun k =>
    { v := ofLE (sliceBytes bytes (k * j.size) j.size), p := (ds.getD (k * j.size / 16) (0, false)).2,
      o := j.mayOverflow && bitAt ovf k }

/-- A packet that the unit drops (R387, R390). Log 59 (DESIGN CHOICE). -/
def staleDrop (die : Nat) (s : State) : State := collCount die 7 1 s

/-- A data packet of an operation that runs is checked and staged (R384, R389). -/
def takeData (i : Nat) (g : Group) (o : CollOp) (words : List (BitVec 144)) (s : State) : State :=
  let h0 := readHdr words
  let h := readCHdr words
  let sig := (readWord (words.getD 2 0)).1.toNat % 2 ^ 64
  if h.sigf ∧ sig ≠ opSignature g o then abortOp i o.seq stCollMismatch stCollMismatch true s
  else
    match o.jobs with
    | [] => staleDrop h.die s
    | j :: _ =>
      let die := receivingDie g j h0.src h
      match o.runs.find? fun r => r.course == h.course && r.die == die with
      | none => staleDrop die s
      | some r =>
        let w := workOf s g j r
        match w.ins.findIdx? fun t => t.stage == h.stage && t.phase == h.phase && t.step == h.step && t.peer == h0.src with
        | none => staleDrop die s
        | some n =>
          match w.ins[n]? with
          | none => s
          | some t =>
            let k := min j.perPkt (t.hi - t.lo - h.pkt * j.perPkt)
            if t.pkts j ≤ h.pkt ∨ h0.len ≠ k * j.size ∨ r.granted ≤ n then staleDrop die s
            else
              let d := if j.mayOverflow then s.drawBytes 32 else ([], s)
              updOp i o.seq (fun o => { o with progress := s.now })
                (updRun i o.seq r.course r.die (fun r => { r with
                  got := Tab.set [] r.got (4096 * n + h.pkt) (packetElems j k (ofLE d.1) (words.drop (2 + bit h.sigf))) }) d.2)

/-- A credit packet of an operation that runs (R385). Log 59 (DESIGN CHOICE). -/
def takeCredit (i : Nat) (o : CollOp) (words : List (BitVec 144)) (s : State) : State :=
  let h0 := readHdr words
  let h := readCHdr words
  let v := (readWord (words.getD 2 0)).1.toNat
  let key := creditKey (bitsAt v 0 32) (bitsAt v 32 8) (bitsAt v 40 8) (bitsAt v 48 16) h0.src h.die
  updOp i o.seq (fun o => { o with credit := Tab.upd 0 o.credit key (· + bitsAt v 64 32), progress := s.now }) s

/-- An arrival of a member at rank 0's device (R396); it restarts no progress timer (R391). -/
def takeArrival (i : Nat) (g : Group) (o : CollOp) (words : List (BitVec 144)) (s : State) : State :=
  let h0 := readHdr words
  let sig := (readWord (words.getD 2 0)).1.toNat % 2 ^ 64
  if ¬ o.isBarrier ∨ ((readCHdr words).sigf ∧ sig ≠ opSignature g o) then abortOp i o.seq stCollMismatch stCollMismatch true s
  else
    tryRelease i o.seq (updOp i o.seq (fun o => { o with
      arrivals := if o.arrivals.contains h0.src then o.arrivals else h0.src :: o.arrivals }) s)

/-- A packet of an operation that has started. -/
def takePacket (i seq : Nat) (words : List (BitVec 144)) (s : State) : State :=
  match s.group i with
  | none => s
  | some g =>
    match g.op seq with
    | none => staleDrop (readCHdr words).die s
    | some o =>
      if o.ended.isSome then staleDrop (readCHdr words).die s
      else
        match (readHdr words).opc with
        | 0x20 => takeData i g o words s
        | 0x21 => takeCredit i o words s
        | _ => takeArrival i g o words s

/-! ### What a group does next -/

/-- Starts the first operation that may start (R381): the jobs of all ranks here have come and the one before it has sent its
last. -/
def tryStart (i : Nat) (g : Group) (s : State) : Option State :=
  let n := (localRanks s g).length
  let rec go : Bool → List CollOp → Option CollOp
    | _, [] => none
    | ready, o :: rest =>
      if o.started then go (sentLast s g o) rest
      else if ready ∧ (o.plate.isSome ∨ o.jobs.length = n) then some o
      else none
  match go true g.ops with
  | none => none
  | some o =>
    let early := g.early.filter fun ws => (readCHdr ws).seq == o.seq
    let s1 := updGroup i (fun g => { g with early := g.early.filter fun ws => (readCHdr ws).seq != o.seq })
      (updOp i o.seq (fun o => { o with started := true, progress := s.now }) s)
    if ¬ jobsAgree o then some (abortOp i o.seq stCollMismatch stCollMismatch true s1)
    else
      let s2 := if o.isBarrier then arrive i g o s1 else s1
      some (early.foldl (fun s ws => takePacket i o.seq ws s) s2)

/-- The run of a started operation that meets a condition. -/
def findRun (g : Group) (c : CollOp → CollJob → CollRun → Bool) : Option (CollOp × CollJob × CollRun) :=
  g.ops.findSome? fun o =>
    match o.jobs with
    | [] => none
    | j :: _ => if o.started ∧ o.ended.isNone then ((o.runs.find? (c o j)).map fun r => (o, j, r)) else none

/-- One thing that a group's units do without a packet to send on VC2: an operation starts, a run is granted credit or writes
its results, a course closes or opens, an operation completes. -/
def groupStep (i : Nat) (s : State) : Option State :=
  match s.group i with
  | none => none
  | some g =>
    if g.paused ∨ g.state ≠ 2 then none
    else
      match tryStart i g s with
      | some s1 => some s1
      | none =>
        let work := fun (j : CollJob) (r : CollRun) => workOf s g j r
        match findRun g fun o j r => decide (r.granted < grantLimit s o (work j r)) with
        | some (o, j, r) =>
          let w := work j r
          let n := grantLimit s o w
          some (updRun i o.seq r.course r.die (fun r => { r with granted := n })
            (((w.ins.take n).drop r.granted).foldl (fun s t => sendCredit g o j r t s) s))
        | none =>
          match findRun g fun _ j r =>
              let w := work j r
              !r.written && r.pos == (transfers g w.p j r.die false).length && w.ins.zipIdx.all fun e => r.received j e.2 e.1 with
          | some (o, j, r) => some (writeRun i o (work j r) s)
          | none =>
            let done := g.ops.find? fun o => o.started && o.ended.isNone && !o.isBarrier && decide (o.closed < o.opened) &&
              (o.runs.filter fun r => r.course == o.closed).all CollRun.written
            match done with
            | some o =>
              some (updOp i o.seq (fun o => { o with closed := o.closed + 1, runs := o.runs.filter (·.course != o.closed) }) s)
            | none =>
              match g.ops.find? fun o => o.started && o.ended.isNone && !o.isBarrier with
              | none => none
              | some o =>
                match o.jobs with
                | [] => none
                | j :: _ =>
                  if mayOpen s g o j then some (openCourse i g o j s)
                  else if o.closed = courseCount g j then some (endOp i o.seq stOk (collCount (speaker s g) 0 1 s))
                  else
                    match (g.ops.dropWhile (·.seq != o.seq)).tail.find? fun o => o.started && o.ended.isNone && !o.isBarrier with
                    | none => none
                    | some o2 =>
                      match o2.jobs with
                      | [] => none
                      | j2 :: _ =>
                        if mayOpen s g o2 j2 then some (openCourse i g o2 j2 s) else none

/-- A group's units go on while they can. -/
def pumpGroup (i : Nat) : Nat → State → State
  | 0, s => s
  | n + 1, s =>
    match groupStep i s with
    | none => s
    | some s1 => pumpGroup i n s1

/-- Steps enough for every course of every operation of a group. -/
def pumpBound (s : State) (i : Nat) : Nat :=
  match s.group i with
  | none => 0
  | some g => 16 + (g.ops.map fun o => match o.jobs with
      | j :: _ => 32 * (courseCount g j + 2)
      | [] => 16).sum

/-- A group's units go on as far as they can. -/
def pump (i : Nat) (s : State) : State := pumpGroup i (pumpBound s i) s

/-! ### Joining (R372) -/

/-- The digest of a JOIN: the group record without its staging areas, followed by the rank table. -/
def Group.digest (g : Group) : Nat := ofLE ((sha256 (g.record ++ g.ranks.flatMap (leBytes 4))).take 8)

/-- The arithmetic revision of the block (R94) and its wire revision. -/
abbrev arithRev : Nat := 2
abbrev wireRev : Nat := 4

/-- The result of a create or rebind. -/
def joinResult (i : Nat) : Result := { fields := [(8, 2, i)], block := none }

/-- A JOIN exchange fails: the entry is freed, its command completes and jobs that wait complete with the same status. Log 61 (DESIGN CHOICE). -/
def failJoin (i status : Nat) (s : State) : State :=
  match s.group i with
  | none => s
  | some g =>
    let s1 := g.ops.foldl (fun s o => retireOp i o status s) s
    let s2 := updFab (fun x => { x with groups := Tab.set none x.groups i none }) s1
    match g.waiter with
    | some w => completeSlot w.1 w.2 status Result.none s2
    | none => s2

/-- A member's JOIN is compared; with every other member's the group is ready. Log 61 (DESIGN CHOICE). -/
def takeJoin (i : Nat) (e : Join) (s : State) : State :=
  match s.group i with
  | none => s
  | some g =>
    if e.digest ≠ g.digest then failJoin i stCollMismatch s
    else if ¬ g.fast ∧ e.arith ≠ arithRev then failJoin i stVersion s
    else
      let joined := if g.joined.contains e.src then g.joined else e.src :: g.joined
      if (otherDevs s g).all joined.contains then
        let s1 := updGroup i (fun g => { g with joined := joined, state := 2, waiter := none }) s
        let s2 := match g.waiter with
          | some w => completeSlot w.1 w.2 stOk (joinResult i) s1
          | none => s1
        pump i s2
      else updGroup i (fun g => { g with joined := joined }) s

/-- The JOIN exchange begins: this device's JOINs go out, and those that have come are compared. Log 61 (DESIGN CHOICE). -/
def beginJoin (i : Nat) (s : State) : State :=
  match s.group i with
  | none => s
  | some g =>
    let w := sendWord (BitVec.ofNat 128 (g.key + g.digest * 2 ^ 32 + arithRev * 2 ^ 96 + wireRev * 2 ^ 104)) false
    let s1 := (otherDevs s g).foldl (fun s d => sendColl 0x25 d g.owner 16 (plainCHdr g.key 0 (speaker s g)) [w] s) s
    let mine := s1.fab.joins.filter fun e => e.key == g.key && (otherDevs s g).contains e.src
    let s2 := updFab (fun x => { x with joins := x.joins.filter fun e => !mine.contains e }) s1
    if otherDevs s g = [] then
      let s3 := updGroup i (fun g => { g with state := 2, waiter := none }) s2
      let s4 := match g.waiter with
        | some c => completeSlot c.1 c.2 stOk (joinResult i) s3
        | none => s3
      pump i s4
    else mine.foldl (fun s e => if (s.group i).map Group.state = some 1 then takeJoin i e s else s) s2

/-! ### Submitting (R381, R382) -/

/-- Whether a job keeps Table 13.4, R376 and R377 for a group of its context. Log 60 (DESIGN CHOICE). -/
def collJobOk (s : State) (g : Group) (b : List Byte) (mbx : Bool) : Bool :=
  let op := fld b 0 1
  let rop := fld b 2 1
  let count := fld b 16 8
  let root := fld b 12 4
  let src := fld b 24 8
  let dst := fld b 32 8
  let p := g.ranks.length
  match elemSize (fld b 1 1) with
  | none => false
  | some z =>
    let n := srcElems op count p * z
    let m := dstElems op count p * z
    let apart : Bool := decide (src + n ≤ dst ∨ dst + m ≤ src)
    let same : Bool := src == dst && (op == 1 || op == 4 || op == 5)
    onlyFields b [(0, 9), (12, 28)] && decide (1 ≤ op ∧ op ≤ 7) && decide (fld b 3 1 ≤ 1) &&
      (if op = 3 ∨ op = 4 ∨ op = 6 then rop == 0 else decide (rop ≤ 2)) &&
      (if op = 4 ∨ op = 5 then decide (root < p) else root == 0) &&
      (if mbx then fld b 6 2 == 0xFFFF else decide (fld b 6 2 < 512)) && decide (fld b 8 1 < 64) &&
      decide (1 ≤ count ∧ n ≤ 2 ^ 40 ∧ m ≤ 2 ^ 40) &&
      (op == 7 || (src % z == 0 && ctxOwns s g.owner src n && dst % z == 0 && ctxOwns s g.owner dst m && (apart || same)))

/-- An operation that has not started. -/
def CollOp.new (seq : Nat) (jobs : List CollJob) (plate : Option Nat) (now : Nat) : CollOp :=
  { seq := seq, jobs := jobs, plate := plate, started := false, opened := 0, closed := 0, runs := [], credit := [],
    signed := [], progress := now, arrivals := [], arriveSent := false, ended := none }

/-- Jobs of a group that wait at a die's port. -/
def waitingJobs (s : State) (i die : Nat) : Nat :=
  ((Tab.get [] s.core.jobs (0x40 + die)).filter fun j => fld (leBytes 64 j.block.toNat) 4 2 == i).length

/-- The die that a mailbox job goes to: of this device's ranks the one with the fewest submitted and waiting. Log 60 (DESIGN CHOICE). -/
def mailboxDie (s : State) (i : Nat) : Option Nat :=
  match s.group i with
  | none => none
  | some g =>
    let load := fun (d : Nat) => Tab.get 0 g.submitted d + waitingJobs s i d
    let dies := (localRanks s g).map Prod.snd
    (List.range 4).find? fun d => dies.contains d && dies.all fun e => decide (load d ≤ load e)

/-- Submits a job record for the rank of a die (R381, R382). Log 60 (DESIGN CHOICE). -/
def submitColl (b : List Byte) (who : Nat) (die : Option Nat) (waiter : Option (Nat × Nat)) (s : State) : State :=
  let i := fld b 4 2
  let early : CollJob := {
    rank := 0, die := 0, core := fld b 6 2, cnt := fld b 8 1, src := fld b 24 8, dst := fld b 32 8, op := fld b 0 1,
    typ := fld b 1 1, rop := fld b 2 1, flags := fld b 3 1, root := fld b 12 4, count := fld b 16 8, waiter := waiter,
    poison := false, nan := false, ovf := false }
  match s.group i with
  | none => endCollJob who early stBadParam s
  | some g =>
    let ranks : List (Nat × Nat) := localRanks s g
    match ranks.find? (fun (r : Nat × Nat) => some r.2 == die) with
    | none => endCollJob who early stBadParam s
    | some (rank, d) =>
      if g.owner ≠ who ∨ ¬ collJobOk s g b waiter.isSome then endCollJob who early stBadParam s
      else if g.state = 5 then endCollJob who early stCollPeerLost s
      else
        let j := { early with rank := rank, die := d }
        let seq := g.nextSeq d
        let s1 := updGroup i (fun g => { g with submitted := Tab.upd 0 g.submitted d (· + 1) }) s
        let st := Tab.get 0 g.aborted seq
        if st ≠ 0 then
          let s2 := updGroup i (fun g =>
            { g with
              aborted := if ranks.all (fun (r : Nat × Nat) => g.nextSeq r.2 != seq) then Tab.set 0 g.aborted seq 0 else g.aborted }) s1
          endCollJob who j st (openDst g j s2)
        else
          let s2 := updGroup i (fun g =>
            if (g.op seq).isSome then
              { g with ops := g.ops.map fun (o : CollOp) => if o.seq = seq then { o with jobs := o.jobs ++ [j] } else o }
            else { g with ops := g.ops ++ [CollOp.new seq [j] none s.now] }) s1
          pump i s2

/-- This device arrives at the start barrier of a plate in a group (R247): the barrier takes the group's next SEQ. -/
def startBarrier (h i : Nat) (s : State) : State :=
  match s.group i with
  | none => endHeldStart h stCollPeerLost s
  | some g =>
    if g.state = 5 then endHeldStart h stCollPeerLost s
    else
      let seq := g.nextSeq (speaker s g)
      let st := Tab.get 0 g.aborted seq
      let s1 := updGroup i (fun g => { g with
        submitted := (localRanks s g).foldl (fun t r => Tab.upd 0 t r.2 (· + 1)) g.submitted }) s
      if st ≠ 0 then endHeldStart h st (updGroup i (fun g => { g with aborted := Tab.set 0 g.aborted seq 0 }) s1)
      else
        pump i (updGroup i (fun g => { g with ops := g.ops ++ [CollOp.new seq [] (some h) s.now] }) s1)

/-! ### Lost peers, the fence, teardown and pauses (R392, R395) -/

/-- A peer's entry changes epoch or becomes LOST. -/
def groupsPeerLost (hall : Nat) (s : State) : State :=
  (groupIds s).foldl (fun s i =>
    match s.group i with
    | none => s
    | some g =>
      if ¬ g.devs.contains hall ∨ hall = s.fab.hall then s
      else if g.state = 1 then failJoin i stCollPeerLost s
      else updGroup i (fun g => { g with state := 5 }) (abortAll i stCollPeerLost stCollPeerLost true s)) s

/-- The device is fenced: jobs complete with ST_FENCED, peers learn ST_COLL_PEER_LOST, and groups are BROKEN (R392); a create or
rebind that still waits for its JOINs completes with ST_COLL_PEER_LOST. Log 61 (DESIGN CHOICE). -/
def groupsFenced (s : State) : State :=
  (groupIds s).foldl (fun s i =>
    match s.group i with
    | none => s
    | some g =>
      let s1 := updGroup i (fun g => { g with state := 5, waiter := none }) (abortAll i stCollPeerLost stFenced true s)
      match g.waiter with
      | some w => completeSlot w.1 w.2 stCollPeerLost Result.none s1
      | none => s1) s

/-- A function-level reset destroys the groups of its context. Log 61 (DESIGN CHOICE). -/
def groupsDestroy (ctx : Nat) (s : State) : State :=
  (groupIds s).foldl (fun s i =>
    match s.group i with
    | none => s
    | some g =>
      if g.owner ≠ ctx then s
      else updFab (fun x => { x with groups := Tab.set none x.groups i none }) (abortAll i stCollPeerLost stCollPeerLost true s)) s

/-- A context resumes: operations that ended meanwhile complete their jobs, the others go on. Log 61 (DESIGN CHOICE). -/
def groupsResume (ctx : Nat) (s : State) : State :=
  (groupIds s).foldl (fun s i =>
    match s.group i with
    | none => s
    | some g =>
      if g.owner ≠ ctx ∨ ¬ g.paused then s
      else
        let s1 := updGroup i (fun g => { g with paused := false }) s
        pump i (g.ops.foldl (fun s o => match o.ended with
          | some st => retireOp i o st s
          | none => s) s1)) s

end Sys2Proof.Machine
end

