-- ==== Sys2Proof/Machine/Tensor.lean ====
section
/-!
DEFINITION. The tensor engines (chapter 03, R104 to R107, R598) and the stream engine's CONVERT (R127).
-/
namespace Sys2Proof.Machine
open Sys2Proof

/-! ### Local addresses (R107) -/

/-- The device address of a local address of a core; none where the encoding has a nonzero spare bit. -/
def localAddr (k a : Nat) : Option Nat :=
  if bitAt a 19 then some (0xE000000000 + k / 8 * 0x800000 + bitsAt a 15 4 * 0x80000 + 16 * bitsAt a 0 15)
  else if bitsAt a 15 4 = 0 then some (scratchBase k + 16 * bitsAt a 0 15)
  else none

/-- Whether n bytes from a local address lie inside the scratchpad, or where told so inside a scratch way that the core's
holder may use (R69). -/
def localOk (s : State) (k a n : Nat) (wayToo : Bool) : Bool :=
  match localAddr k a with
  | none => false
  | some d => (wayToo || !bitAt a 19) && decide (16 * bitsAt a 0 15 + n ≤ 0x80000) && mayAccess s (coreHolder s k) d n

/-- The device address that a local address stands for, once it has been checked. -/
def localOf (k a : Nat) : Nat := (localAddr k a).getD 0

/-! ### Engine commands -/

/-- The first command of an engine's queue that has not executed, if every command before it has (R104). -/
def nextCmd (q : List EngCmd) : Option EngCmd := q.find? fun e => !e.done

/-- The first command that has not executed is marked as executed with its status and flags. -/
def markDone (st : Nat) (nan ovf : Bool) : List EngCmd → List EngCmd
  | [] => []
  | e :: r => if e.done then e :: markDone st nan ovf r else { e with done := true, status := st, nan := nan, ovf := ovf } :: r

/-- Ends the running command of an engine of a core; it waits to retire (R108). -/
def endCmd (k e st : Nat) (nan ovf : Bool) (s : State) : State :=
  let c := s.coreAt k
  s.setCore k (c.setEngine e (markDone st nan ovf (c.engine e)))

/-! ### The tensor command (R71, R72) -/

/-- A tensor command taken apart (Table 4.5). -/
structure TeCmd where
  aFmt : Nat
  bFmt : Nat
  cFmt : Nat
  dFmt : Nat
  acc : Bool
  rnd : Bool
  ovf : Bool
  m : Nat
  n : Nat
  k : Nat
  m0 : Nat
  n0 : Nat
  nTotal : Nat
  tensorId : Nat
  perRow : Bool
  sA : Nat
  sB : Nat
  sC : Nat
  sD : Nat
  sSA : Nat
  sSB : Nat
  sSD : Nat
  /-- Local addresses of A, B, C, D, SA, SB, SD and the seeds. -/
  addrs : List Nat
  clean : Bool
deriving DecidableEq, Repr

/-- Reads a tensor command block (Table 4.5). -/
def readTe (b : BitVec 512) : TeCmd :=
  let v := b.toNat
  let k := bitsAt v 64 21
  { aFmt := bitsAt v 16 4, bFmt := bitsAt v 20 4, cFmt := bitsAt v 28 2, dFmt := bitsAt v 24 4, acc := bitAt v 30, rnd := bitAt v 31,
    ovf := bitAt v 15, m := bitsAt v 32 16, n := bitsAt v 48 16, k := if k = 0 then 1048576 else k, m0 := bitsAt v 96 32,
    n0 := bitsAt v 128 32, nTotal := bitsAt v 160 32, tensorId := bitsAt v 192 16, perRow := bitAt v 85,
    sA := 16 * bitsAt v 208 16, sB := 16 * bitsAt v 224 16, sC := 16 * bitsAt v 240 16, sD := 16 * bitsAt v 256 16,
    sSA := 16 * bitsAt v 272 16, sSB := 16 * bitsAt v 288 16, sSD := 16 * bitsAt v 304 16,
    addrs := (List.range 8).map fun j => bitsAt v (320 + 20 * j) 20,
    clean := bitsAt v 86 10 == 0 && bitsAt v 480 32 == 0 }

/-- The local address of operand j. -/
def TeCmd.addr (c : TeCmd) (j : Nat) : Nat := c.addrs.getD j 0

/-- Bytes of a row of n elements of a code. -/
def rowBytes (code n : Nat) : Nat := ceilDiv (fmtBits code * n) 8

/-- Bytes from the first to the last byte of rows of a stride. -/
def extent (rows stride bytes : Nat) : Nat := (rows - 1) * stride + bytes

/-- Whether A and B formats are an allowed pair (R72). -/
def pairOk (a b : Nat) : Bool :=
  let narrow := fun (x : Nat) => decide (3 ≤ x ∧ x ≤ 7)
  let mxf := fun (x : Nat) => decide (11 ≤ x)
  (narrow a && narrow b) || (mxf a && mxf b) || (a == b && (a == 8 || a == 10 || decide (a ≤ 2)))

/-- The element code of C. -/
def TeCmd.cCode (c : TeCmd) : Nat := if c.cFmt = 2 then 9 else 0

/-- Whether the fields of a tensor command are in range, apart from its operands' places (R71, R72). Log 33 (DEDUCED). -/
def TeCmd.fieldsOk (c : TeCmd) : Bool :=
  pairOk c.aFmt c.bFmt && c.clean && decide (1 ≤ c.m ∧ 1 ≤ c.n ∧ c.k ≤ 1048576 ∧ c.cFmt ≤ 2 ∧ c.n0 + c.n ≤ c.nTotal) &&
    (!isMx c.aFmt || c.k % 32 == 0) && (!c.acc || c.aFmt == 8) && (if c.acc then c.cFmt != 1 else c.cFmt != 2) &&
    (if c.acc then c.dFmt == 9 || c.dFmt == 0 else c.dFmt != 9) && (!isMx c.dFmt || c.n % 32 == 0) &&
    (decide (c.dFmt ≤ 4) || decide (9 ≤ c.dFmt)) && (!c.rnd || (c.dFmt != 0 && c.dFmt != 9)) &&
    decide ((c.m0 + c.m - 1) * c.nTotal + c.nTotal - 1 < 2 ^ 50)

/-- Whether every operand that a tensor command uses lies where R69 allows. Log 33 (DEDUCED). -/
def TeCmd.placesOk (s : State) (k : Nat) (c : TeCmd) : Bool :=
  let used := fun (b : Bool) (x : Bool) => !b || x
  localOk s k (c.addr 0) (extent c.m c.sA (rowBytes c.aFmt c.k)) false &&
  localOk s k (c.addr 1) (extent c.n c.sB (rowBytes c.bFmt c.k)) true &&
  used (c.cFmt != 0) (localOk s k (c.addr 2) (extent c.m c.sC (4 * c.n)) false) &&
  localOk s k (c.addr 3) (extent c.m c.sD (rowBytes c.dFmt c.n)) false &&
  used (isMx c.aFmt) (localOk s k (c.addr 4) (extent c.m c.sSA (c.k / 32)) false) &&
  used (isMx c.bFmt) (localOk s k (c.addr 5) (extent c.n c.sSB (c.k / 32)) true) &&
  used (isMx c.dFmt) (localOk s k (c.addr 6) (extent c.m c.sSD (c.n / 32)) false) &&
  used (c.rnd && c.perRow) (localOk s k (c.addr 7) (8 * (c.m0 + c.m)) true)

/-- The elements of a row of an operand: its bytes as one little-endian integer, and whether a word of them is poisoned. -/
def rowRead (s : State) (base stride bytes row : Nat) : Nat × Bool :=
  let a := base + row * stride
  (ofLE (s.mem.mem.bytesAt a bytes), s.mem.mem.poisonAt a bytes)

/-- The K indices of a chunk of a command (R73), as (first, count). -/
def TeCmd.chunkSize (c : TeCmd) : Nat := if c.aFmt ≤ 2 then 1 else if isMx c.aFmt then 32 else 256

/-- The pairs of elements of chunk j of one output element (R73). -/
def TeCmd.chunkPairs (c : TeCmd) (a b j : Nat) : List (Num × Num) :=
  (List.range (min c.chunkSize (c.k - j * c.chunkSize))).map fun i =>
    (elemNum c.aFmt (elemAt c.aFmt a (j * c.chunkSize + i)), elemNum c.bFmt (elemAt c.bFmt b (j * c.chunkSize + i)))

/-- Whether a scale of chunk j of an MX operand is 0xFF (R75). -/
def TeCmd.scaleNan (c : TeCmd) (sa sb j : Nat) : Bool :=
  isMx c.aFmt && (bitsAt sa (8 * j) 8 == 0xFF || bitsAt sb (8 * j) 8 == 0xFF)

/-- The exact sum and the flags of a chunk (R74, R75): the value, or NaN or an infinity. -/
def chunkSum (xs : List (Num × Num)) : Num :=
  xs.foldl (fun a p => a.add (p.1.mul p.2)) (.fin false 0 0)

/-- The binary32 value of chunk j of one output element (R76, R82). A chunk sum that is exactly zero is +0 (R64). -/
def TeCmd.chunkValue (c : TeCmd) (a b sa sb j : Nat) : Nat :=
  if c.aFmt ≤ 2 then
    match c.chunkPairs a b j with
    | [] => 0
    | p :: _ => toF32 (p.1.mul p.2)
  else
    let x := chunkSum (c.chunkPairs a b j)
    let v := if ¬ isMx c.aFmt then x else if c.scaleNan sa sb j then Num.nan
      else x.scale ((bitsAt sa (8 * j) 8 : Int) + bitsAt sb (8 * j) 8 - 254)
    match v with
    | .fin _ 0 _ => 0
    | y => toF32 y

/-- The final value of one output element (R77, R78, R82). -/
def TeCmd.element (c : TeCmd) (a b sa sb cv : Nat) : Num :=
  if c.acc then
    let sum := (List.range c.k).foldl (fun (t : Int) i =>
      t + signed 8 (elemAt 8 a i) * signed 8 (elemAt 8 b i)) (if c.cFmt = 2 then signed 32 cv else 0)
    numOf sum 0
  else
    let n := ceilDiv c.k c.chunkSize
    let vs := (List.range n).map (c.chunkValue a b sa sb)
    match (if c.cFmt = 1 then cv :: vs else vs) with
    | [] => .fin false 0 0
    | v :: r => f32 (r.foldl f32Add v)

/-- An integer result saturated to INT32 (R78). -/
def toInt32 (x : Num) : Conv :=
  match x with
  | .fin neg m e =>
    let v := atExp neg m e 0
    let c := clampSigned 32 v
    { code := unsigned 32 c, ovf := c != v, nan := false }
  | _ => { code := 0, ovf := false, nan := false }

/-- The random word of an output element of a command (R86, R87). -/
def TeCmd.rounding (c : TeCmd) (seed imp m n : Nat) : Rnd :=
  if c.rnd then .random (randomWord seed imp c.tensorId ((c.m0 + m) * c.nTotal + (c.n0 + n))) else .even

/-- What a tile of a row writes: element codes, scales and the flags (R83 to R85). -/
def TeCmd.convertRow (c : TeCmd) (seed imp m n0 : Nat) (xs : List Num) : List Nat × List Nat × Bool × Bool :=
  if isMx c.dFmt then
    let bs := (chunks 32 xs).mapIdx fun j b =>
      mxBlock c.dFmt ((List.range 32).map fun i => c.rounding seed imp m (n0 + 32 * j + i)) b
    (bs.flatMap fun b => b.2.1, bs.map Prod.fst, bs.any fun b => b.2.2.2, bs.any fun b => b.2.2.1)
  else
    let cs := xs.mapIdx fun i x =>
      match floatFmt c.dFmt with
      | some f => if c.dFmt = 0 ∧ ¬ c.acc then { code := toF32 x, ovf := false, nan := x == .nan }
          else f.convert (c.rounding seed imp m (n0 + i)) c.ovf x
      | none => toInt32 x
    (cs.map Conv.code, [], cs.any Conv.nan, cs.any Conv.ovf)

/-- The seed of a command's random words (R87, R471). -/
def contextSeed (s : State) (k : Nat) : Nat := (Tab.get 0 s.det.seeds (coreHolder s k)).toNat

/-- The impression that a core runs. -/
def impressionOf (s : State) (k : Nat) : Nat := ((s.coreAt k).live.map Live.impression).getD 0

/-- Writes the part of an output row that a tile covers, element bits in place (R68). -/
def writeElems (code base n0 : Nat) (es : List Nat) (s : State) : State :=
  let lo := fmtBits code * n0
  memWrite (base + lo / 8) (packRow code es) s

/-- Memory as a tile reads it whose operands lie in 16-byte words that another command in flight writes: R91 leaves open whether each
is read before or after that write, so what it holds, and whether it is poisoned, is free. Log 33 (DEDUCED). -/
def overlapView (ws : List Nat) (s : State) : State × State :=
  if ws = [] then (s, s)
  else
    let d := s.drawBytes (17 * ws.length)
    let v := (ws.mapIdx fun i w => (i, w)).foldl (fun v p =>
      let v1 := memWrite (16 * p.2) (sliceBytes d.1 (17 * p.1) 16) v
      if bitAt (d.1.getD (17 * p.1 + 16) 0).toNat 0 then memPoison (16 * p.2) 16 v1 else v1) d.2
    (v, d.2)

/-- One tile (R70, R89): its outputs, written poisoned if it read a poisoned word. `ws` are the words it reads that another
command in flight writes (R91). NAN_OUT and OVF_OUT of a tile that read poison are those of the data as it stands: log 85 (DESIGN
CHOICE). -/
def teTile (k : Nat) (c : TeCmd) (ws : List Nat) (m0 n0 : Nat) (p : Nat × Bool × Bool × State) : Nat × Bool × Bool × State :=
  let w := overlapView ws p.2.2.2
  let s := w.1
  let rows := min 64 (c.m - m0)
  let cols := min 32 (c.n - n0)
  let at_ := fun (j : Nat) => localOf k (c.addr j)
  let bRows := (List.range cols).map fun j => rowRead s (at_ 1) c.sB (rowBytes c.bFmt c.k) (n0 + j)
  let sbRows := (List.range cols).map fun j => if isMx c.bFmt then rowRead s (at_ 5) c.sSB (c.k / 32) (n0 + j) else (0, false)
  let outs := (List.range rows).map fun i =>
    let m := m0 + i
    let a := rowRead s (at_ 0) c.sA (rowBytes c.aFmt c.k) m
    let sa := if isMx c.aFmt then rowRead s (at_ 4) c.sSA (c.k / 32) m else (0, false)
    let cr := if c.cFmt = 0 then (0, false) else
      (ofLE (s.mem.mem.bytesAt (at_ 2 + m * c.sC + 4 * n0) (4 * cols)), s.mem.mem.poisonAt (at_ 2 + m * c.sC + 4 * n0) (4 * cols))
    let sd := if c.rnd ∧ c.perRow then rowRead s (at_ 7) 8 8 (c.m0 + m) else (contextSeed s k, false)
    let xs := (List.range cols).map fun j =>
      c.element a.1 (bRows.getD j (0, false)).1 sa.1 (sbRows.getD j (0, false)).1 (elemAt 0 cr.1 j)
    (c.convertRow sd.1 (impressionOf s k) m n0 xs, a.2 || sa.2 || cr.2 || sd.2)
  let poison := bRows.any Prod.snd || sbRows.any Prod.snd || outs.any Prod.snd
  let s1 := (outs.mapIdx fun i r => (i, r.1)).foldl (fun s r =>
    let m := m0 + r.1
    let dst := at_ 3 + m * c.sD
    let s1 := writeElems c.dFmt dst n0 r.2.1 s
    let lo := dst + fmtBits c.dFmt * n0 / 8
    let s2 := if poison then memPoison lo (rowBytes c.dFmt cols) s1 else s1
    if isMx c.dFmt then
      let a := at_ 6 + m * c.sSD + n0 / 32
      let s3 := memWrite a (r.2.2.1.map (BitVec.ofNat 8)) s2
      if poison then memPoison a r.2.2.1.length s3 else s3
    else s2) w.2
  (firstStatus p.1 (if poison then stPoison else stOk), p.2.1 || outs.any fun r => r.1.2.2.1,
    p.2.2.1 || outs.any fun r => r.1.2.2.2, s1)

/-- The tiles of a command, n0 ascending within m0 ascending (R70). Log 33 (DEDUCED). -/
def teTiles (c : TeCmd) : List (Nat × Nat) :=
  (List.range (ceilDiv c.m 64)).flatMap fun i => (List.range (ceilDiv c.n 32)).map fun j => (64 * i, 32 * j)

/-! ### CONVERT (R127) -/

/-- The elements of a CONVERT's source with what is poisoned: the value of each, and whether a word it depends on is poisoned. -/
def convertSource (code len addr : Nat) (bytes : List Byte) (poison : Nat → Nat → Bool) : List (Num × Bool) :=
  let row := ofLE (bytes.take (rowBytes code len))
  let sc := alignUp (addr + rowBytes code len) 16 - addr
  (List.range len).map fun i =>
    let v := elemNum code (elemAt code row i)
    let bit0 := fmtBits code * i
    let p := poison (bit0 / 8) ((bit0 + fmtBits code - 1) / 8)
    if isMx code then
      (scaled v (bytes.getD (sc + i / 32) 0).toNat, p || poison (sc + i / 32) (sc + i / 32))
    else (v, p)

/-- Saturation of a value to an integer destination (R127). -/
def toInt (w : Nat) (sym : Bool) (x : Num) : Conv :=
  let top : Int := 2 ^ (w - 1) - 1
  let low : Int := if sym then -top else -top - 1
  match x with
  | .nan => { code := 0, ovf := true, nan := false }
  | .inf neg => { code := unsigned w (if neg then low else top), ovf := true, nan := false }
  | .fin neg m e =>
    let n : Int := roundTo .even m e 0
    let v := if neg then -n else n
    let c := max low (min top v)
    { code := unsigned w c, ovf := c != v, nan := false }

/-- Converts one value to a plain destination of CONVERT. -/
def convertElem (dst : Nat) (ovf sym : Bool) (x : Num) : Conv :=
  if dst = 8 then toInt 8 sym x
  else if dst = 9 then toInt 32 false x
  else
    match floatFmt dst with
    | some f =>
      if f.special = .none then
        (match x with
         | .fin neg m e => f.round .even true neg m e
         | _ => { code := 0, ovf := true, nan := false })
      else f.convert .even ovf x
    | none => { code := 0, ovf := false, nan := false }

/-- Offset from an operand's address of its scales: the next 16-byte boundary after the last element byte (R127). -/
def scalesAt (code len addr : Nat) : Nat := alignUp (addr + rowBytes code len) 16 - addr

/-- Bytes of a CONVERT operand of LEN elements at an address, its scales included. -/
def convertBytes (code len addr : Nat) : Nat :=
  if isMx code then scalesAt code len addr + len / 32 else rowBytes code len

/-- What a CONVERT writes: its elements, its scales, the poisoned byte positions of each, and the flags. -/
def convertOut (dst : Nat) (ovf sym : Bool) (xs : List (Num × Bool)) :
    List Byte × List Byte × List Nat × List Nat × Bool × Bool :=
  let n := xs.length
  let w := fmtBits dst
  if isMx dst then
    let bs := (chunks 32 xs).map fun b => (mxBlock dst [] (b.map Prod.fst), b.any Prod.snd)
    let es := bs.flatMap fun b => b.1.2.1
    let bad := ((bs.mapIdx fun j b => (j, b.2)).filter Prod.snd).map Prod.fst
    (packRow dst es, bs.map (fun b => BitVec.ofNat 8 b.1.1), bad.flatMap (fun j => (List.range (4 * w)).map (4 * w * j + ·)), bad,
      bs.any fun b => b.1.2.2.2, bs.any fun b => b.1.2.2.1)
  else
    let cs := xs.map fun x => convertElem dst ovf sym x.1
    (packRow dst (cs.map Conv.code), [],
      (List.range n).flatMap (fun i => if (xs.getD i (.nan, false)).2 then [w * i / 8, (w * i + w - 1) / 8] else []), [],
      cs.any Conv.nan, cs.any Conv.ovf)

/-- Whether a CONVERT's fields are in range (R117, R127). -/
def convertOk (d : Desc) : Bool :=
  let src := bitsAt d.ctl 0 4
  let dst := bitsAt d.ctl 4 4
  isDevAddr d.src && isDevAddr d.dst && d.cols == 0 && d.aux32 == 0 && d.aux == 0 && d.srcStride == 0 && d.dstStride == 0 &&
    decide (d.rows ≤ 1 ∧ d.ctl < 2 ^ 10) && ((!isMx src && !isMx dst) || d.len % 32 == 0) && (!bitAt d.ctl 9 || dst == 8)

/-- Writes bytes of a thread's stream engine, those at the positions named poisoned. -/
def putMarked (n a : Nat) (bs : List Byte) (bad : List Nat) (p : Nat × State) : Nat × State :=
  if bs = [] ∨ p.1 ≠ stOk then p
  else
    let w := mePut n a bs false p.2
    if w.1 ≠ stOk then w
    else (stOk, bad.foldl (fun s i => coreWrite (n / 64) (whoOf s n) (a + i) [bs.getD i 0] true s) w.2)

/-- CONVERT (R127): elements are converted once from their exact values, to nearest even. -/
def execMeConvert (t : BitVec 12) (s : State) : Host.Outcome State Fault Refusal :=
  runDesc t 0x24 false (fun _ d => convertOk d) (fun n e d s =>
    let src := bitsAt d.ctl 0 4
    let dst := bitsAt d.ctl 4 4
    match meBytes n d.src (convertBytes src d.len d.src) s with
    | (none, s1) => finishDesc n e stBadParam s1
    | (some r, s1) =>
      let poison := fun (lo hi : Nat) => r.poison && (List.range (hi - lo + 1)).any fun i =>
        (coreRead (n / 64) (whoOf s n) (d.src + lo + i) 1 s).1.poison
      let xs := convertSource src d.len d.src r.bytes poison
      let o := convertOut dst (bitAt d.ctl 8) (bitAt d.ctl 9) xs
      let w := putMarked n (d.dst + scalesAt dst d.len d.dst) o.2.1 o.2.2.2.1 (putMarked n d.dst o.1 o.2.2.1 (stOk, s1))
      let e1 := { e with nan := o.2.2.2.2.1, ovf := o.2.2.2.2.2 }
      finishDesc n e1 (nextStatus w.1 (if xs.any Prod.snd then stPoison else stOk)) w.2) s

end Sys2Proof.Machine
end

