-- ==== Sys2Proof/Machine/SignalEngine.lean ====
section
/-!
DEFINITION. The signal engine (chapter 05) and DEMAP (R172, R173).
-/
namespace Sys2Proof.Machine
open Sys2Proof

/-! ### Complex integers, narrowing and the twiddle ROM (R137, R138, R154) -/

/-- A complex integer. -/
structure Cx where
  re : Int
  im : Int
deriving DecidableEq, Repr

def Cx.zero : Cx := ⟨0, 0⟩
def Cx.add (a b : Cx) : Cx := ⟨a.re + b.re, a.im + b.im⟩
def Cx.sub (a b : Cx) : Cx := ⟨a.re - b.re, a.im - b.im⟩
/-- The exact complex product (R137). -/
def Cx.mul (a b : Cx) : Cx := ⟨a.re * b.re - a.im * b.im, a.re * b.im + a.im * b.re⟩
def Cx.conj (a : Cx) : Cx := ⟨a.re, -a.im⟩
def Cx.smul (k : Int) (a : Cx) : Cx := ⟨k * a.re, k * a.im⟩

/-- A value brought into a range, and whether it saturated (R138). -/
def saturate (lo hi v : Int) : Int × Bool := if v < lo then (lo, true) else if hi < v then (hi, true) else (v, false)

/-- One narrowing by n bits into a range (R138). -/
def narrowTo (n : Nat) (lo hi v : Int) : Int × Bool := saturate lo hi (roundHalfUp v n)

/-- The component range of an output format (Table 5.1). -/
def fmtRange (ofmt : Nat) : Int × Int :=
  match ofmt with
  | 0 => (-32768, 32767)
  | 3 => (-127, 127)
  | _ => (-2147483648, 2147483647)

/-- Bytes of one component of an output format. -/
def compBytes (ofmt : Nat) : Nat :=
  match ofmt with
  | 0 => 2
  | 3 => 1
  | _ => 4

/-- Bytes of one element of an output format (Table 5.1). -/
def elemBytes (ofmt : Nat) : Nat :=
  match ofmt with
  | 1 => 8
  | 3 => 1
  | _ => 4

/-- 2π ÷ 65,536 in units of 2^-80. -/
def twoPiStep : Nat := 115904311329233965478

/-- Alternating series of the cosine (from = 0) or sine (from = 1) of x × 2^-80, n terms on. -/
def trigSeries (x2 first : Nat) : Nat → Nat → Int → Int
  | 0, _, _ => 0
  | n + 1, i, term =>
    let next := (term * x2) >>> 80 / (((2 * i + first + 1) * (2 * i + first + 2) : Nat) : Int)
    (if i % 2 = 0 then term else -term) + trigSeries x2 first n (i + 1) next

/-- 16,384 × cos and sin of 2π t ÷ 65,536 to the nearest integer, for t up to an eighth of a turn. -/
def trigEighth (t : Nat) : Int × Int :=
  let x := t * twoPiStep
  let x2 := x * x / 2 ^ 80
  let near := fun (v : Int) => (v * 32768 + 2 ^ 80) >>> 81
  (near (trigSeries x2 0 12 0 (2 ^ 80)), near (trigSeries x2 1 12 0 x))

/-- RC(t) and RS(t) of the twiddle ROM (R154). -/
def twiddleRom (t : Nat) : Int × Int :=
  let r := t % 16384
  let cs := if r ≤ 8192 then trigEighth r else (trigEighth (16384 - r)).swap
  match t % 65536 / 16384 with
  | 0 => cs
  | 1 => (-cs.2, cs.1)
  | 2 => (-cs.1, -cs.2)
  | _ => (cs.2, -cs.1)

/-- tw(k, n, sg) (R154). -/
def twiddle (k n : Nat) (inv : Bool) : Cx :=
  let e := twiddleRom (k * 65536 / n % 65536)
  ⟨e.1, if inv then e.2 else -e.2⟩

/-! ### The command block (Table 5.2) -/

/-- A stream of an SE command. -/
structure SeStream where
  base : Nat
  mode : Nat
  rbits : Nat
  span : Nat
deriving DecidableEq, Repr

/-- An SE command taken apart. -/
structure SeCmd where
  op : Nat
  oshift : Nat
  ofmt : Nat
  bexpEn : Bool
  blk : Nat
  bexp : Nat
  param : Nat
  counts : List Nat
  streams : List SeStream
  /-- INC[k][m] at 3 k + m. -/
  incs : List Int
  /-- Every reserved field of the block is zero. -/
  clean : Bool
  /-- The block itself. -/
  block : Nat
deriving DecidableEq, Repr

/-- Reads an SE command block. -/
def readSe (b : BitVec 512) : SeCmd :=
  let v := b.toNat
  let w := fun (i : Nat) => bitsAt v (32 * i) 32
  let one := fun (n : Nat) => if n = 0 then 1 else n
  let inc := bitsAt v 320 192
  { op := bitsAt (w 0) 0 8, oshift := bitsAt (w 0) 19 5, ofmt := bitsAt (w 0) 17 2, bexpEn := bitAt (w 0) 24, blk := bitsAt (w 0) 25 3,
    bexp := bitsAt (w 0) 28 4, param := w 1,
    counts := [one (bitsAt (w 2) 0 16), one (bitsAt (w 2) 16 16), one (bitsAt (w 3) 0 16), one (bitsAt (w 3) 16 16)],
    streams := (List.range 3).map fun i =>
      { base := bitsAt (w (4 + i)) 0 20, mode := bitsAt (w (4 + i)) 20 2, rbits := bitsAt (w (4 + i)) 22 4, span := bitsAt (w (7 + i)) 0 16 },
    incs := (List.range 12).map fun n => signed 16 (inc >>> (16 * n)),
    clean := bitsAt (w 0) 15 2 == 0 && (List.range 3).all fun i => bitsAt (w (4 + i)) 26 6 == 0 && bitsAt (w (7 + i)) 16 16 == 0,
    block := v }

def SeCmd.count (c : SeCmd) (k : Nat) : Nat := c.counts.getD k 1
def SeCmd.stream (c : SeCmd) (m : Nat) : SeStream := c.streams.getD m { base := 0, mode := 0, rbits := 0, span := 0 }
def SeCmd.inc (c : SeCmd) (k m : Nat) : Int := c.incs.getD (3 * k + m) 0

/-- YQ of the commands that have it. -/
def SeCmd.yq (c : SeCmd) : Nat := if c.op = 0x40 ∨ c.op = 0x42 then bitsAt c.param 0 4 else 0
def SeCmd.conj (c : SeCmd) : Bool := bitAt c.param 4

/-- n = 2^LOG2_N and s = 2^LOG2_S of a transform stage (R153). -/
def SeCmd.radN (c : SeCmd) : Nat := 2 ^ (if bitsAt c.param 0 4 = 0 then 16 else bitsAt c.param 0 4)
def SeCmd.radS (c : SeCmd) : Nat := 2 ^ bitsAt c.param 4 4

/-- NR and L of MMSEW. -/
def SeCmd.nr (c : SeCmd) : Nat := if bitsAt c.param 0 4 = 0 then 16 else bitsAt c.param 0 4
def SeCmd.layers (c : SeCmd) : Nat := bitsAt c.param 4 4

/-- QM of DEMAP. -/
def SeCmd.qm (c : SeCmd) : Nat := bitsAt c.param 0 4

/-- PARAM bits that an operation uses (Table 5.3). -/
def paramMask (op : Nat) : Nat :=
  match op with
  | 0x40 => 0x1F
  | 0x41 => 1
  | 0x42 => 0x1F
  | 0x44 => 0x1FF
  | 0x45 => 0x1FF
  | 0x46 => 0x3FFF
  | 0x47 => 0x1F
  | 0x4F => 0xFFFF0003
  | _ => 0

/-- Output formats that an operation allows. -/
def ofmtsOf (op : Nat) : List Nat :=
  match op with
  | 0x43 => [2]
  | 0x46 => [0]
  | 0x47 => [3]
  | 0x48 => [0]
  | 0x4F => [0]
  | _ => [0, 1]

/-- Streams that an operation of a PARAM uses: 0 X, 1 Y, 2 Z. BXOP of SUB 1 writes at Z's BASE (R151). -/
def streamsOf (op param : Nat) : List Nat :=
  match op with
  | 0x43 => [0, 2]
  | 0x44 => [0, 2]
  | 0x45 => [0, 2]
  | 0x46 => [0, 2]
  | 0x48 => [0]
  | 0x4F => if param % 4 = 1 then [2] else []
  | _ => [0, 1, 2]

/-- Whether level 0 of a stream must have no increment. -/
def noInner (op m : Nat) : Bool := (decide (0x44 ≤ op ∧ op ≤ 0x46)) || ((op == 0x42 || op == 0x43) && m == 2)

/-- Blocks of a command (R148). -/
def SeCmd.blocks (c : SeCmd) : Nat :=
  if c.blk = 0 then 1 else ((List.range 4).filter (fun k => decide (c.blk ≤ k))).foldl (fun n k => n * c.count k) 1

/-- Number of the block of an iteration (R148). -/
def SeCmd.blockOf (c : SeCmd) (i : List Nat) : Nat :=
  if c.blk = 0 then 0
  else ((List.range 4).filter (fun k => decide (c.blk ≤ k))).foldr (fun k n => i.getD k 0 + c.count k * n) 0

/-! ### Addresses (R142, R143) -/

/-- The smallest and largest logical index of a stream over the nest. -/
def SeCmd.jRange (c : SeCmd) (m : Nat) : Int × Int :=
  (List.range 4).foldl (fun (a : Int × Int) k =>
    let e := ((c.count k : Int) - 1) * c.inc k m
    (a.1 + min 0 e, a.2 + max 0 e)) (0, 0)

/-- The smallest and largest offset that the address check takes for a stream, or none where the stream is refused. -/
def SeCmd.offsets (c : SeCmd) (m : Nat) : Option (Int × Int) :=
  let st := c.stream m
  let j := c.jRange m
  match st.mode with
  | 0 => if st.span ≠ 0 then none else some j
  | 1 => if st.span = 0 then none else some (j.1 * st.span, j.2 * st.span)
  | 2 => if st.span = 0 then none else some (0, (st.span : Int) - 1)
  | _ => if st.span ≠ 0 ∨ st.rbits = 0 ∨ j.1 < 0 then none
         else some (j.1 / 2 ^ st.rbits * 2 ^ st.rbits, j.2 / 2 ^ st.rbits * 2 ^ st.rbits + (2 ^ st.rbits - 1))

/-- Bytes of one element of a stream. -/
def SeCmd.width (c : SeCmd) (m : Nat) : Nat := if m = 2 then elemBytes c.ofmt else 4

/-- Elements that one index of a stream stands for. -/
def SeCmd.run (c : SeCmd) (m : Nat) : Nat :=
  if c.op = 0x44 ∨ c.op = 0x45 then c.radN * c.radS
  else if c.op = 0x46 then (if m = 0 then c.nr * c.layers + 1 else c.layers * c.nr + (c.layers + 1) / 2)
  else if c.op = 0x47 ∧ m = 2 then c.qm
  else 1

/-- Whether every element of a stream lies in the scratchpad. -/
def SeCmd.inPad (c : SeCmd) (m : Nat) : Bool :=
  let st := c.stream m
  !bitAt st.base 19 && (match c.offsets m with
    | none => false
    | some (lo, hi) =>
      decide (0 ≤ (16 * st.base : Int) + lo * c.width m ∧ (16 * st.base : Int) + (hi + c.run m) * c.width m ≤ 0x80000))

/-- The reversal of the low b bits of a number. -/
def reverseBits (b v : Nat) : Nat := (List.range b).foldl (fun r i => 2 * r + bitsAt v i 1) 0

/-- The scratchpad offset of a stream's element for an iteration (R143). -/
def SeCmd.place (c : SeCmd) (m : Nat) (i : List Nat) : Nat :=
  let st := c.stream m
  let j := (List.range 4).foldl (fun (a : Int) k => a + (i.getD k 0 : Int) * c.inc k m) 0
  let o : Int := match st.mode with
    | 0 => j
    | 1 => j * st.span
    | 2 => j % (st.span : Int)
    | _ => j / 2 ^ st.rbits * 2 ^ st.rbits + reverseBits st.rbits (j.toNat % 2 ^ st.rbits)
  ((16 * st.base : Int) + o * c.width m).toNat

/-- Whether a command's fields and streams are allowed (R142). Log 34 (DEDUCED). -/
def SeCmd.ok (c : SeCmd) : Bool :=
  let used := streamsOf c.op c.param
  let rad := c.op == 0x44 || c.op == 0x45
  let n := c.radN * c.radS
  let radix := if c.op = 0x45 then 4 else 2
  c.clean && c.param &&& (0xFFFFFFFF - paramMask c.op) == 0 && (ofmtsOf c.op).contains c.ofmt &&
    (List.range 3).all (fun m => (List.range 4).all fun k =>
      c.inc k m == 0 || (used.contains m && !(k == 0 && noInner c.op m))) &&
    !(c.bexpEn && decide (2 ≤ c.ofmt)) && (c.op != 0x48 || c.bexpEn) && decide (c.blk ≤ 3) &&
    (!c.bexpEn || decide (c.bexp + c.blocks ≤ 16)) &&
    used.all c.inPad &&
    (!rad || (decide (c.count 0 = 1 ∧ 16 ≤ n ∧ n ≤ 65536 ∧ radix ≤ c.radN) && (c.stream 0).mode == 0 && (c.stream 2).mode == 0 &&
      (c.stream 0).base % 4 == 0 && (c.stream 2).base % 4 == 0)) &&
    (c.op != 0x46 || (decide (c.count 0 = 1 ∧ 1 ≤ c.layers ∧ c.layers ≤ 8) && (c.stream 0).mode == 0 && (c.stream 2).mode == 0)) &&
    (c.op != 0x47 || [1, 2, 4, 6, 8].contains c.qm) &&
    (c.op != 0x4F || (decide (bitsAt c.param 0 2 ≤ 1) && c.counts.all (· == 1) &&
      (bitsAt c.param 0 2 == 0 || decide (16 * (c.stream 2).base + 4 ≤ 0x80000))))

/-! ### Reading the scratchpad -/

/-- The scratchpad as a command reads it: 4 bytes at an offset, and whether they are poisoned. -/
def padWord (s : State) (k o : Nat) : Nat × Bool :=
  (ofLE (s.mem.mem.bytesAt (scratchBase k + o) 4), s.mem.mem.poisonAt (scratchBase k + o) 4)

/-- A CI16 element. -/
def ofCi16 (v : Nat) : Cx := ⟨signed 16 v, signed 16 (v / 65536)⟩

/-! ### Outputs -/

/-- The bytes of an output. -/
def SeOut.bytes (o : SeOut) : List Byte := o.comps.flatMap fun v => leBytes o.width (unsigned (8 * o.width) v)

/-- A narrowed list of components with the number that saturated. -/
def narrowAll (n ofmt : Nat) (vs : List Int) : List Int × Nat :=
  let r := vs.map (narrowTo n (fmtRange ofmt).1 (fmtRange ofmt).2)
  (r.map Prod.fst, r.countP Prod.snd)

/-- One output of exact components, narrowed by n bits. -/
def SeCmd.out (c : SeCmd) (at_ n : Nat) (vs : List Int) (i : List Nat) (poison : Bool) (extra : Nat) (reads : List Nat) : SeOut :=
  let r := narrowAll n c.ofmt vs
  { at_ := at_, comps := r.1, width := compBytes c.ofmt, block := c.blockOf i, poison := poison, sat := r.2 + extra,
    singular := false, reads := reads }

/-- The iterations of levels lo to 3 in nest order; level 0 is 0 where lo is 1 (R144). -/
def SeCmd.nest (c : SeCmd) (lo : Nat) : List (List Nat) :=
  (List.range (c.count 3)).flatMap fun i3 => (List.range (c.count 2)).flatMap fun i2 => (List.range (c.count 1)).flatMap fun i1 =>
    (List.range (if lo = 0 then c.count 0 else 1)).map fun i0 => [i0, i1, i2, i3]

/-- An addition into a 40-bit accumulator, and whether it saturated (R137). -/
def accAdd (a : Int × Nat) (v : Int) : Int × Nat :=
  let r := saturate (-549755813888) 549755813887 (a.1 + v)
  (r.1, a.2 + bit r.2)

/-- CMUL and CADD (Table 5.3). -/
def seElement (s : State) (k : Nat) (c : SeCmd) (i : List Nat) : SeOut :=
  let xa := c.place 0 i
  let ya := c.place 1 i
  let x := padWord s k xa
  let y := padWord s k ya
  let b := ofCi16 y.1
  let v := if c.op = 0x40 then (ofCi16 x.1).mul (if c.conj then b.conj else b)
    else if bitAt c.param 0 then (ofCi16 x.1).sub b else (ofCi16 x.1).add b
  c.out (c.place 2 i) (c.yq + c.oshift) [v.re, v.im] i (x.2 || y.2) 0 [xa, ya]

/-- CMAC and POWER: one output over the reduction index (Table 5.3). POWER adds xI² and xQ² one after the other, so each addition may
saturate and count: log 79 (DESIGN CHOICE). -/
def seReduce (s : State) (k : Nat) (c : SeCmd) (i : List Nat) : SeOut :=
  let idx := (List.range (c.count 0)).map fun i0 => i0 :: i.drop 1
  let xs := idx.map (c.place 0)
  if c.op = 0x43 then
    let e := xs.map (padWord s k)
    let acc := e.foldl (fun a w =>
      let x := ofCi16 w.1
      accAdd (accAdd a (x.re * x.re)) (x.im * x.im)) (0, 0)
    c.out (c.place 2 i) c.oshift [acc.1] i (e.any Prod.snd) acc.2 xs
  else
    let ys := idx.map (c.place 1)
    let e := (xs.map (padWord s k)).zip (ys.map (padWord s k))
    let acc := e.foldl (fun (a : (Int × Nat) × (Int × Nat)) (w : (Nat × Bool) × (Nat × Bool)) =>
      let b := ofCi16 w.2.1
      let p := (ofCi16 w.1.1).mul (if c.conj then b.conj else b)
      (accAdd a.1 p.re, accAdd a.2 p.im)) ((0, 0), (0, 0))
    c.out (c.place 2 i) (c.yq + c.oshift) [acc.1.1, acc.2.1] i (e.any fun w => w.1.2 || w.2.2) (acc.1.2 + acc.2.2) (xs ++ ys)

/-- j × a × sg. -/
def Cx.mulj (a : Cx) (inv : Bool) : Cx := if inv then ⟨-a.im, a.re⟩ else ⟨a.im, -a.re⟩

/-- The outputs of one stage over N elements (R153). -/
def seStage (s : State) (k : Nat) (c : SeCmd) (i : List Nat) : List SeOut :=
  let n := c.radN
  let sz := c.radS
  let inv := bitAt c.param 8
  let radix := if c.op = 0x45 then 4 else 2
  let xb := c.place 0 i
  let zb := c.place 2 i
  let w := elemBytes c.ofmt
  (List.range (n / radix)).flatMap fun p => (List.range sz).flatMap fun q =>
    let offs := (List.range radix).map fun r => xb + 4 * (q + sz * (p + r * (n / radix)))
    let e := offs.map (padWord s k)
    let x := fun (r : Nat) => ofCi16 ((e.getD r (0, false)).1)
    let vs := if radix = 4 then
        let apc := (x 0).add (x 2)
        let amc := (x 0).sub (x 2)
        let bpd := (x 1).add (x 3)
        let jb := ((x 1).sub (x 3)).mulj inv
        [(apc.add bpd).mul (twiddle 0 n inv), (amc.add jb).mul (twiddle p n inv), (apc.sub bpd).mul (twiddle (2 * p) n inv),
         (amc.sub jb).mul (twiddle (3 * p) n inv)]
      else [((x 0).add (x 1)).mul (twiddle 0 n inv), ((x 0).sub (x 1)).mul (twiddle p n inv)]
    vs.mapIdx fun r v => c.out (zb + w * (q + sz * (radix * p + r))) (14 + c.oshift) [v.re, v.im] i (e.any Prod.snd) 0 offs

/-! ### Detection weights (R157) -/

/-- The matrix without a row and a column. -/
def minorOf (m : List (List Cx)) (i j : Nat) : List (List Cx) := (m.eraseIdx i).map fun r => r.eraseIdx j

/-- The determinant by expansion along the first row, of a matrix of n rows. -/
def detCx : Nat → List (List Cx) → Cx
  | 0, _ => ⟨1, 0⟩
  | n + 1, m =>
    (List.range (n + 1)).foldl (fun (a : Cx) j =>
      let t := ((m.headD []).getD j Cx.zero).mul (detCx n (minorOf m 0 j))
      if j % 2 = 0 then a.add t else a.sub t) Cx.zero

/-- The adjugate of a matrix of n rows. -/
def adjCx (n : Nat) (m : List (List Cx)) : List (List Cx) :=
  (List.range n).map fun i => (List.range n).map fun j =>
    let d := detCx (n - 1) (minorOf m j i)
    if (i + j) % 2 = 0 then d else Cx.zero.sub d

/-- rhuq(p, q) (R157). -/
def rhuq (p q : Int) : Int := floorDiv (2 * p + q) (2 * q)

/-- The weights and gains of one channel: components of W and β, the saturations, and whether D = 0 (R157). A gain that saturates
counts among the saturations: log 85 (DESIGN CHOICE). -/
def mmseWeights (nr l f : Nat) (h : Nat → Nat → Cx) (s2 : Nat) : List Int × Nat × Bool :=
  let sum := fun (n : Nat) (g : Nat → Cx) => (List.range n).foldl (fun (a : Cx) k => a.add (g k)) Cx.zero
  let a := (List.range l).map fun i => (List.range l).map fun j =>
    let g := sum nr fun k => (h k i).conj.mul (h k j)
    if i = j then g.add ⟨(s2 : Int), 0⟩ else g
  let d := (detCx l a).re
  let b := adjCx l a
  let bAt := fun (i j : Nat) => (b.getD i []).getD j Cx.zero
  let pad := if l % 2 = 1 then [0] else []
  if d ≤ 0 then (List.replicate (2 * l * nr + l) 0 ++ pad, 0, true)
  else
    let w := (List.range l).flatMap fun i => (List.range nr).flatMap fun k =>
      let m := sum l fun j => (bAt i j).mul (h k j).conj
      [saturate (-32768) 32767 (rhuq (m.re * 2 ^ f) d), saturate (-32768) 32767 (rhuq (m.im * 2 ^ f) d)]
    let g := (List.range l).map fun i => saturate 0 65535 (rhuq ((d - s2 * (bAt i i).re) * 65536) d)
    let r := w ++ g
    (r.map Prod.fst ++ pad, r.countP Prod.snd, false)

/-- MMSEW on one group: its record. -/
def seWeights (s : State) (k : Nat) (c : SeCmd) (i : List Nat) : SeOut :=
  let nr := c.nr
  let l := c.layers
  let xb := c.place 0 i
  let offs := (List.range (nr * l + 1)).map fun e => xb + 4 * e
  let e := offs.map (padWord s k)
  let r := mmseWeights nr l (bitsAt c.param 8 6) (fun (a : Nat) b => ofCi16 ((e.getD (a * l + b) (0, false)).1)) ((e.getD (nr * l) (0, false)).1)
  { at_ := c.place 2 i, comps := r.1, width := 2, block := c.blockOf i, poison := e.any Prod.snd, sat := r.2.1, singular := r.2.2,
    reads := offs }

/-! ### Demapping (R173) -/

/-- The terms g₀, g₁, … of one component. -/
def pamTerms (t : Int) : Nat → Int → Int → List Int
  | 0, _, _ => []
  | n + 1, a, g => g :: pamTerms t n (a / 2) (a * t - (g.natAbs : Int))

/-- The LLR terms of a resource element before the weight, in bit order (R173). -/
def llrTerms (qm : Nat) (t uI uQ : Int) (even : Bool) : List Int :=
  if qm = 1 then [if even then uI + uQ else uQ - uI]
  else
    let n := qm / 2
    let a : Int := 2 ^ (n - 1)
    let gi := pamTerms t n a uI
    let gq := pamTerms t n a uQ
    (gi.zip gq).flatMap fun p => [p.1, p.2]

/-- The norm of a constellation. -/
def qamNorm (qm : Nat) : Int :=
  match qm with
  | 4 => 10
  | 6 => 42
  | 8 => 170
  | _ => 2

/-- DEMAP of one resource element, the n-th of its command. -/
def seDemap (s : State) (k : Nat) (c : SeCmd) (i : List Nat) (n : Nat) : SeOut :=
  let xa := c.place 0 i
  let ya := c.place 1 i
  let x := padWord s k xa
  let y := padWord s k ya
  let v := ofCi16 x.1
  let t : Int := bitsAt y.1 0 16
  let w := rhuq (2 ^ 30) (qamNorm c.qm * (65536 - t))
  let gs := llrTerms c.qm t (32 * v.re) (32 * v.im) (n % 2 == 0)
  let ps := gs.mapIdx fun q g => if bitAt c.param 4 && bitAt y.1 (16 + q) then -(g * w) else g * w
  c.out (c.place 2 i) c.oshift ps i (x.2 || y.2) 0 [xa, ya]

/-! ### Running a command -/

/-- What SCAN measures: each X element as an output that is not written (R148). -/
def scanOuts (s : State) (k : Nat) (c : SeCmd) : List SeOut :=
  (c.nest 0).map fun i =>
    let a := c.place 0 i
    let x := padWord s k a
    let v := ofCi16 x.1
    { at_ := a, comps := [v.re, v.im], width := 2, block := c.blockOf i, poison := x.2, sat := 0, singular := false, reads := [a] }

/-- The outputs of a command; of SCAN, what it measures. -/
def seOuts (s : State) (k : Nat) (c : SeCmd) : List SeOut :=
  match c.op with
  | 0x40 => (c.nest 0).map (seElement s k c)
  | 0x41 => (c.nest 0).map (seElement s k c)
  | 0x42 => (c.nest 1).map (seReduce s k c)
  | 0x43 => (c.nest 1).map (seReduce s k c)
  | 0x44 => (c.nest 1).flatMap (seStage s k c)
  | 0x45 => (c.nest 1).flatMap (seStage s k c)
  | 0x46 => (c.nest 1).map (seWeights s k c)
  | 0x47 => (c.nest 0).mapIdx fun n i => seDemap s k c i n
  | 0x48 => scanOuts s k c
  | _ => []

/-- Outputs between two suspension points of a command (R162). -/
def SeCmd.unit (c : SeCmd) : Nat :=
  if c.op = 0x44 ∨ c.op = 0x45 then c.radN * c.radS else if c.op = 0x46 then 1 else 16

/-- Whether Z elements overlap elements that X or Y read, the element-for-element exception of R146 apart. Log 34 (DEDUCED). -/
def seOverlap (c : SeCmd) (outs : List SeOut) : Bool :=
  let each := c.op == 0x40 || c.op == 0x41
  outs.zipIdx.any fun (z : SeOut × Nat) => outs.zipIdx.any fun (r : SeOut × Nat) => r.1.reads.any fun a =>
    decide (a < z.1.at_ + z.1.width * z.1.comps.length ∧ z.1.at_ < a + 4) &&
      !(each && z.2 == r.2 && a == z.1.at_ && c.ofmt == 0)

/-- An output whose components the spec leaves open but repeatable (R146): a function of the command, of the words that its
computation read and of the component. Log 29 (DEDUCED). -/
def freeOut (s : State) (k : Nat) (c : SeCmd) (o : SeOut) : SeOut :=
  { o with comps := o.comps.mapIdx fun i _ =>
      (narrowTo 0 (fmtRange c.ofmt).1 (fmtRange c.ofmt).2
        (signed (8 * o.width) (Config.overlapValue c.block (o.reads.map fun a => (padWord s k a).1) i).toNat)).1 }

/-- The headroom of a component of w bits (R147). A gain of MMSEW above the component range has headroom 0: log 85 (DESIGN CHOICE). -/
def headroomOf (w : Nat) (x : Int) : Nat :=
  ((List.range w).reverse.find? fun s => decide (-(2 ^ (w - 1) : Int) ≤ x * 2 ^ s ∧ x * 2 ^ s < 2 ^ (w - 1))).getD 0

/-- What outputs tell of their blocks' headroom: nothing where an output is poisoned (R147, R161). -/
def measured (outs : List SeOut) : List (Nat × Option Nat) :=
  outs.map fun o => (o.block, if o.poison then none else (o.comps.map (headroomOf (8 * o.width))).min?)

/-- The measurements of each block as one, its smallest (R162). -/
def condense (blocks : Nat) (ms : List (Nat × Option Nat)) : List (Nat × Option Nat) :=
  (List.range blocks).filterMap fun b =>
    let mine := ms.filter fun m => m.1 == b
    if mine = [] then none else some (b, (mine.filterMap Prod.snd).min?)

/-- The headroom of a block: of its outputs that are not poisoned; 0 where all are (R147, R161). -/
def blockHeadroom (ms : List (Nat × Option Nat)) (b : Nat) : Nat :=
  let mine := ms.filter fun m => m.1 == b
  ((mine.filterMap Prod.snd).min?).getD (if mine = [] then 15 else 0)

/-- Whether outputs write every byte of a 16-byte word of the scratchpad. -/
def coversWord (outs : List SeOut) (w : Nat) : Bool :=
  (List.range 16).all fun j => outs.any fun o => decide (o.at_ ≤ 16 * w + j ∧ 16 * w + j < o.at_ + o.bytes.length)

/-- The scratchpad words that outputs touch. -/
def outWords (outs : List SeOut) : List Nat :=
  ascending (outs.flatMap fun o => if o.bytes = [] then [] else
    (List.range ((o.at_ + o.bytes.length - 1) / 16 - o.at_ / 16 + 1)).map (o.at_ / 16 + ·))

/-- Writes a part of a command's outputs (R161): a word that the outputs up to the part's end write whole loses its old poison (R265),
and the words of outputs that read poison are poisoned. `done` are the outputs up to the part's end. Log 34 (DEDUCED). -/
def writeOuts (k : Nat) (done part : List SeOut) (s : State) : State :=
  let ws := outWords part
  let s1 := part.foldl (fun s o => memWrite (scratchBase k + o.at_) o.bytes s) s
  let s2 := (ws.filter (coversWord done)).foldl (fun s w =>
    memWrite (scratchBase k + 16 * w) (s.mem.mem.bytesAt (scratchBase k + 16 * w) 16) s) s1
  (done.filter SeOut.poison).foldl (fun s o => ((outWords [o]).filter ws.contains).foldl (fun s w =>
    memPoison (scratchBase k + 16 * w) 16 s) s) s2

/-- The updates of a command's block exponent registers at its retirement (R149). Log 34 (DEDUCED). -/
def bexpUpdates (c : SeCmd) (ms : List (Nat × Option Nat)) : List (Nat × Int × Nat) :=
  if ¬ c.bexpEn then []
  else (List.range c.blocks).map fun b => (c.bexp + b, (c.oshift : Int) - c.yq, blockHeadroom ms b)

/-- Ends the running SE command, its block exponents waiting for its retirement. -/
def endSe (k st : Nat) (bexps : List (Nat × Int × Nat)) (s : State) : State :=
  let c := s.coreAt k
  let upd := match c.se.findIdx? fun e => !e.done with
    | some i => c.se.modify i fun e => { e with done := true, status := st, bexps := bexps }
    | none => c.se
  s.setCore k { c with se := upd }

/-- Counts the corrected and uncorrectable words that a command reads (R263, R264). -/
def accountReads (k : Nat) (offs : List Nat) (s : State) : State :=
  ((offs.map (· / 16)).foldl (fun (l : List Nat) w => if l.contains w then l else w :: l) []).foldl (fun s w =>
    (memRead (coreHolder s k) (scratchBase k + 16 * w) 16 s).2) s

/-- The outputs of an SE command in progress: those it was suspended with, or those of the scratchpad as it starts, free but
repeatable where it overlaps itself (R146, R162). Log 34 (DEDUCED). -/
def EngCmd.seOutputs (s : State) (k : Nat) (c : SeCmd) (e : EngCmd) : List SeOut :=
  if e.outs ≠ [] then e.outs
  else
    let all := seOuts s k c
    if c.op ≠ 0x48 ∧ seOverlap c all then all.map (freeOut s k c) else all

/-- A part of an SE command, from unit a to unit b of its work (R162): the outputs of the part, written and counted. Saturations and
groups of D = 0 count in outputs that read poison too: log 85 (DESIGN CHOICE). -/
def sePart (k : Nat) (c : SeCmd) (all : List SeOut) (a b : Nat) (s : State) : List SeOut × State :=
  let outs := (all.take (b * c.unit)).drop (a * c.unit)
  let s1 := accountReads k (outs.flatMap SeOut.reads) s
  if c.op = 0x48 then (outs, s1)
  else
    let s2 := writeOuts k (all.take (b * c.unit)) outs s1
    let core := s2.coreAt k
    (outs, s2.setCore k { core with satCnt := satAdd core.satCnt (outs.map SeOut.sat).sum,
                                    singCnt := satAdd core.singCnt (outs.countP SeOut.singular) })

/-- Units of work of an SE command of so many outputs. -/
def SeCmd.units (c : SeCmd) (outs : List SeOut) : Nat := ceilDiv outs.length c.unit

/-- Runs an SE command whose fields are allowed to its end, from the unit at which it was suspended, if it was (R162). Log 34 (DEDUCED). -/
def runSe (k : Nat) (e : EngCmd) (c : SeCmd) (s : State) : State :=
  let all := e.seOutputs s k c
  let r := sePart k c all e.pos (c.units all) s
  endSe k (firstStatus e.status (if r.1.any SeOut.poison then stPoison else stOk)) (bexpUpdates c (e.mins ++ measured r.1)) r.2

/-- The opcodes of Table 5.3. -/
def seOps : List Nat := [0x40, 0x41, 0x42, 0x43, 0x44, 0x45, 0x46, 0x47, 0x48, 0x4F]

/-- The shape of every SE row (R104, R141, R142, R598): the next command of the core's SE queue, if it is this operation and the
engine may start it (R450, R457). `unknown` also takes opcodes that Table 5.3 does not list. -/
def seCommand (core : BitVec 9) (op : Nat) (unknown : Bool) (f : Nat → EngCmd → SeCmd → State → State) (s : State) :
    Host.Outcome State Fault Refusal :=
  let k := core.toNat
  match nextCmd (s.coreAt k).se with
  | none => .next s
  | some e =>
    let c := readSe e.block
    if ¬ cmdRuns s k e then .next s
    else if unknown ∧ ¬ seOps.contains c.op then .next (endSe k stBadOpcode [] s)
    else if c.op ≠ op then .next s
    else if ¬ c.ok then .next (endSe k stBadParam [] s)
    else .next (f k e c s)

/-- CMUL (R141); it also takes the commands whose opcode no row names (R142). -/
def execSeCmul (core : BitVec 9) (s : State) : Host.Outcome State Fault Refusal := seCommand core 0x40 true runSe s

/-- CADD (R141). -/
def execSeCadd (core : BitVec 9) (s : State) : Host.Outcome State Fault Refusal := seCommand core 0x41 false runSe s

/-- CMAC (R141). -/
def execSeCmac (core : BitVec 9) (s : State) : Host.Outcome State Fault Refusal := seCommand core 0x42 false runSe s

/-- POWER (R141). -/
def execSePower (core : BitVec 9) (s : State) : Host.Outcome State Fault Refusal := seCommand core 0x43 false runSe s

/-- RAD2 (R153). -/
def execSeRad2 (core : BitVec 9) (s : State) : Host.Outcome State Fault Refusal := seCommand core 0x44 false runSe s

/-- RAD4 (R153). -/
def execSeRad4 (core : BitVec 9) (s : State) : Host.Outcome State Fault Refusal := seCommand core 0x45 false runSe s

/-- MMSEW (R157). -/
def execSeMmsew (core : BitVec 9) (s : State) : Host.Outcome State Fault Refusal := seCommand core 0x46 false runSe s

/-- DEMAP (R173). -/
def execSeDemap (core : BitVec 9) (s : State) : Host.Outcome State Fault Refusal := seCommand core 0x47 false runSe s

/-- SCAN (R148). -/
def execSeScan (core : BitVec 9) (s : State) : Host.Outcome State Fault Refusal := seCommand core 0x48 false runSe s

/-- The SUB of the next BXOP of a core; the SUB 0 row also takes commands whose SUB is not allowed. Log 34 (DEDUCED). -/
def bxopSub (s : State) (core : BitVec 9) : Option Nat :=
  match nextCmd (s.coreAt core.toNat).se with
  | some e => if (readSe e.block).op = 0x4F then some (bitsAt (readSe e.block).param 0 2) else none
  | none => none

/-- Whether every SE command before the next one of a core has retired, so that a BXOP sees the registers that they leave
(R149, R151, Table 4.4). -/
def seAlone (s : State) (core : BitVec 9) : Bool := (s.coreAt core.toNat).se.head?.all fun e => !e.done

/-- BXOP with SUB 0 (R151): EXP takes VALUE and HEADROOM is unmeasured. BXOP makes no update of R149, whatever its BEXP_EN: log 85
(DESIGN CHOICE). -/
def execSeBxopSet (core : BitVec 9) (s : State) : Host.Outcome State Fault Refusal :=
  if bxopSub s core = some 1 ∨ ¬ seAlone s core then .next s
  else seCommand core 0x4F false (fun k _ c s =>
    let x := s.coreAt k
    endSe k stOk [] (s.setCore k { x with
      bexp := Tab.set Bexp.reset x.bexp c.bexp { exp := BitVec.ofNat 16 (bitsAt c.param 16 16), headroom := 0x3F } })) s

/-- BXOP with SUB 1 (R151): the register's value goes to the scratchpad. -/
def execSeBxopWriteOut (core : BitVec 9) (s : State) : Host.Outcome State Fault Refusal :=
  if bxopSub s core ≠ some 1 ∨ ¬ seAlone s core then .next s
  else seCommand core 0x4F false (fun k _ c s =>
    endSe k stOk [] (memWrite (scratchBase k + 16 * (c.stream 2).base)
      (leBytes 4 (Tab.get Bexp.reset (s.coreAt k).bexp c.bexp).word) s)) s

end Sys2Proof.Machine
end

