-- ==== Sys2Proof/Machine/Engines.lean ====
section
/-!
DEFINITION. Engine commands in progress: the tensor command's run and the words it shares with others in flight (R91), and the
suspension of tensor and SE commands inside themselves (R81, R105, R162, R450).
-/
namespace Sys2Proof.Machine
open Sys2Proof

/-! ### Words read and written by commands in flight (R91) -/

/-- Rows of a stride, as (address, bytes). -/
def rowRanges (base rows stride bytes : Nat) : List (Nat × Nat) := (List.range rows).map fun i => (base + i * stride, bytes)

/-- What a tensor command reads for the tile at (m0, n0). -/
def TeCmd.tileReads (k : Nat) (c : TeCmd) (m0 n0 : Nat) : List (Nat × Nat) :=
  let at_ := fun (j : Nat) => localOf k (c.addr j)
  let rows := min 64 (c.m - m0)
  let cols := min 32 (c.n - n0)
  rowRanges (at_ 0 + m0 * c.sA) rows c.sA (rowBytes c.aFmt c.k) ++ rowRanges (at_ 1 + n0 * c.sB) cols c.sB (rowBytes c.bFmt c.k) ++
    (if c.cFmt = 0 then [] else rowRanges (at_ 2 + m0 * c.sC + 4 * n0) rows c.sC (4 * cols)) ++
    (if isMx c.aFmt then rowRanges (at_ 4 + m0 * c.sSA) rows c.sSA (c.k / 32) else []) ++
    (if isMx c.bFmt then rowRanges (at_ 5 + n0 * c.sSB) cols c.sSB (c.k / 32) else []) ++
    (if c.rnd ∧ c.perRow then [(at_ 7 + 8 * (c.m0 + m0), 8 * rows)] else [])

/-- What a tensor command writes. -/
def TeCmd.writes (k : Nat) (c : TeCmd) : List (Nat × Nat) :=
  let at_ := fun (j : Nat) => localOf k (c.addr j)
  rowRanges (at_ 3) c.m c.sD (rowBytes c.dFmt c.n) ++ (if isMx c.dFmt then rowRanges (at_ 6) c.m c.sSD (c.n / 32) else [])

/-- The commands of a queue in flight: those executed and not retired, and the next one. -/
def inFlight (q : List EngCmd) : List EngCmd := q.filter EngCmd.done ++ (nextCmd q).toList

/-- What the commands in flight of engine e of core k write: 0 TE0, 1 TE1, 2 SE. -/
def engineWrites (s : State) (k e : Nat) : List (Nat × Nat) :=
  (inFlight ((s.coreAt k).engine e)).flatMap fun q =>
    if e < 2 then
      let c := readTe q.block
      if bitsAt q.block.toNat 0 8 = 0x10 ∧ c.fieldsOk ∧ c.placesOk s k then c.writes k else []
    else
      let c := readSe q.block
      if c.op ≠ 0x48 ∧ c.ok then (seOuts s k c).map fun o => (scratchBase k + o.at_, o.bytes.length) else []

/-- What a stream engine descriptor writes in device memory (Table 4.7). -/
def Desc.writes (d : Desc) : List (Nat × Nat) :=
  let rows := oneIfZero d.rows
  match d.op with
  | 0x21 => rowRanges d.dst d.aux32 d.dstStride d.len
  | 0x23 => rowRanges d.dst (oneIfZero d.cols) d.dstStride (rows * 2 ^ d.ctl)
  | 0x24 => [(d.dst, convertBytes (bitsAt d.ctl 4 4) d.len d.dst)]
  | 0x25 => if d.ctl = 0 then [(d.dst, 32)] else if d.ctl = 1 then [(d.aux, 128)] else [(d.dst, 32), (d.aux, 128)]
  | 0x34 => if bitAt d.ctl 10 then [(d.src, 4 * 2 ^ bitsAt d.ctl 8 2)] else []
  | 0x20 => rowRanges d.dst rows d.dstStride d.len
  | 0x30 => rowRanges d.dst rows d.dstStride d.len
  | 0x33 => rowRanges d.dst rows d.dstStride d.len
  | _ => []

/-- What the descriptors in progress of every core's ME write: a B operand may lie in a scratch way that other cores of the cluster write. -/
def meWrites (s : State) : List (Nat × Nat) :=
  s.core.cores.flatMap fun c => c.2.me.flatMap fun q =>
    (q.2.filter fun e => e.kind == 0 && e.started).flatMap fun e => (readDesc e.block).writes

/-- The 16-byte words that two lists of ranges share, by number. -/
def sharedWords (a b : List (Nat × Nat)) : List Nat :=
  (a.flatMap fun x => b.flatMap fun y =>
    let lo := max (x.1 / 16) (y.1 / 16)
    let hi := min ((x.1 + x.2 - 1) / 16) ((y.1 + y.2 - 1) / 16)
    if 0 < x.2 ∧ 0 < y.2 ∧ lo ≤ hi then (List.range (hi + 1 - lo)).map (lo + ·) else []).eraseDups

/-- What other engine commands in flight write, seen by tensor engine e of core k. -/
def otherWrites (s : State) (k e : Nat) : List (Nat × Nat) := engineWrites s k (1 - e) ++ engineWrites s k 2 ++ meWrites s

/-! ### The tensor command (R71, R72, R81, R598) -/

/-- Chunks of one tile of a command (R73). -/
def TeCmd.chunkCount (c : TeCmd) : Nat := max 1 (ceilDiv c.k c.chunkSize)

/-- Runs the tiles of a command from tile a to tile b; the answer is status, NAN_OUT and OVF_OUT so far. -/
def teRun (k e : Nat) (c : TeCmd) (a b : Nat) (p : Nat × Bool × Bool × State) : Nat × Bool × Bool × State :=
  let others := otherWrites p.2.2.2 k e
  (((teTiles c).drop a).take (b - a)).foldl (fun p t => teTile k c (sharedWords (c.tileReads k t.1 t.2) others) t.1 t.2 p) p

/-- TENSOR_COMMAND (R71, R72, R598): the next command of TE0 or TE1 of a core runs to its end and waits to retire; one that was
suspended goes on from the tile it had reached (R81). Log 18 (DEDUCED), 33 (DEDUCED). -/
def execTensorCommand (core : BitVec 9) (engine : BitVec 1) (s : State) : Host.Outcome State Fault Refusal :=
  let k := core.toNat
  let e := engine.toNat
  match nextCmd ((s.coreAt k).engine e) with
  | none => .next s
  | some q =>
    if ¬ cmdRuns s k q then .next s
    else if bitsAt q.block.toNat 0 8 ≠ 0x10 then .next (endCmd k e stBadOpcode false false s)
    else
      let c := readTe q.block
      if ¬ c.fieldsOk ∨ ¬ c.placesOk s k then .next (endCmd k e stBadParam false false s)
      else
        let r := teRun k e c (q.pos / c.chunkCount) (teTiles c).length (q.status, q.nan, q.ovf, s)
        .next (endCmd k e r.1 r.2.1 r.2.2.1 r.2.2.2)

/-! ### Suspension (R81, R105, R162, R450) -/

/-- Whether every command of a core's engines stands at a stop point (Table 16.3): none waits to retire, and none with PMARK 0 is in
progress. -/
def enginesStopped (s : State) (k : Nat) : Bool :=
  (List.range 3).all fun e => ((s.coreAt k).engine e).all fun q => !q.done && !(q.underWay && !q.pmark)

/-- Changes the next command of an engine of a core. -/
def updCmd (k e : Nat) (f : EngCmd → EngCmd) (s : State) : State :=
  let c := s.coreAt k
  let q := c.engine e
  s.setCore k (c.setEngine e (match q.findIdx? fun x => !x.done with
    | some i => q.modify i f
    | none => q))

/-- The unit of work at which a command in progress is suspended, between those done and the last: the spec leaves it to timing, so
it is free. Log 18 (DEDUCED). -/
def suspendAt (done units : Nat) (s : State) : Nat × State :=
  let d := s.draw
  (done + d.1.toNat % max 1 (units - done), d.2)

/-- Suspends a tensor command in progress: the tiles before the one reached are written (R81). -/
def suspendTe (k e : Nat) (q : EngCmd) (s : State) : State :=
  let c := readTe q.block
  if bitsAt q.block.toNat 0 8 ≠ 0x10 ∨ ¬ c.fieldsOk ∨ ¬ c.placesOk s k then s
  else
    let n := c.chunkCount
    let p := suspendAt q.pos ((teTiles c).length * n) s
    let r := teRun k e c (q.pos / n) (p.1 / n) (q.status, q.nan, q.ovf, p.2)
    updCmd k e (fun q => { q with pos := p.1, status := r.1, nan := r.2.1, ovf := r.2.2.1 }) r.2.2.2

/-- Suspends an SE command in progress: the groups of outputs before the one reached are written (R162). -/
def suspendSe (k : Nat) (q : EngCmd) (s : State) : State :=
  let c := readSe q.block
  if ¬ seOps.contains c.op ∨ c.op = 0x4F ∨ ¬ c.ok then s
  else
    let all := q.seOutputs s k c
    let p := suspendAt q.pos (c.units all) s
    let r := sePart k c all q.pos p.1 p.2
    updCmd k 2 (fun q => { q with pos := p.1, outs := all, status := firstStatus q.status (if r.1.any SeOut.poison then stPoison else stOk),
                                  mins := condense c.blocks (q.mins ++ measured r.1) }) r.2

/-- Suspends what the engines of a core have in progress (R450). -/
def suspendEngines (k : Nat) (s : State) : State :=
  (List.range 3).foldl (fun s e =>
    match nextCmd ((s.coreAt k).engine e) with
    | some q => if q.underWay ∧ q.pmark then (if e < 2 then suspendTe k e q s else suspendSe k q s) else s
    | none => s) s

/-! ### The saved state of suspended commands (R81, R162, Table 16.4) -/

/-- The suspended command of a queue: the one in progress at the stop. -/
def suspended (q : List EngCmd) : Option EngCmd := q.head?.filter fun e => e.underWay && !e.done

/-- X and the flags NAN, PINF and NINF of the cell after chunk j (R74, R75): special operands set flags and add nothing to X. On the
IEEE path (R82), which has no accumulator, both are zero: log 36 (DESIGN CHOICE). -/
def TeCmd.cellChunk (c : TeCmd) (a b sa sb j : Nat) : Int × Nat :=
  if c.aFmt ≤ 2 then (0, 0)
  else
    let ps := (c.chunkPairs a b j).map fun p => p.1.mul p.2
    (ps.foldl (fun (x : Int) p => match p with
        | .fin neg m e => x + atExp neg m e (-32)
        | _ => x) 0,
      (if ps.contains Num.nan || c.scaleNan sa sb j then 1 else 0) + (if ps.contains (Num.inf false) then 2 else 0) +
        (if ps.contains (Num.inf true) then 4 else 0))

/-- The 16 bytes of a cell (R81): the chunk accumulator at the end of the last chunk done, its flags NAN, PINF and NINF, and the
running sum. Log 36 (DESIGN CHOICE). -/
def cellImage (c : TeCmd) (a b sa sb cv chunks : Nat) : List Byte :=
  if c.acc then
    let x := (List.range (min c.k (chunks * c.chunkSize))).foldl (fun (t : Int) i =>
      t + signed 8 (elemAt 8 a i) * signed 8 (elemAt 8 b i)) (if c.cFmt = 2 then signed 32 cv else 0)
    leBytes 10 (unsigned 80 x) ++ List.replicate 6 0
  else
    let last := if chunks = 0 then (0, 0) else c.cellChunk a b sa sb (chunks - 1)
    let vs := (List.range chunks).map (c.chunkValue a b sa sb)
    let sum := match (if c.cFmt = 1 then cv :: vs else vs) with
      | [] => 0
      | v :: r => r.foldl f32Add v
    leBytes 10 (unsigned 80 last.1) ++ leBytes 2 last.2 ++ leBytes 4 sum

/-- The cell state of a tensor engine of core k: 64 rows of 32 cells of the tile in progress; zeros where none is. Log 36 (DESIGN CHOICE). -/
def cellsImage (s : State) (k : Nat) (q : List EngCmd) : List Byte :=
  match suspended q with
  | none => List.replicate 32768 0
  | some e =>
    let c := readTe e.block
    match (teTiles c)[e.pos / c.chunkCount]? with
    | none => List.replicate 32768 0
    | some (m0, n0) =>
      if bitsAt e.block.toNat 0 8 ≠ 0x10 ∨ ¬ c.fieldsOk then List.replicate 32768 0
      else
        let at_ := fun (j : Nat) => localOf k (c.addr j)
        (List.range 64).flatMap fun i => (List.range 32).flatMap fun j =>
          if c.m ≤ m0 + i ∨ c.n ≤ n0 + j then List.replicate 16 0
          else
            let row := fun (o stride bytes r : Nat) => (rowRead s (at_ o) stride bytes r).1
            cellImage c (row 0 c.sA (rowBytes c.aFmt c.k) (m0 + i)) (row 1 c.sB (rowBytes c.bFmt c.k) (n0 + j))
              (if isMx c.aFmt then row 4 c.sSA (c.k / 32) (m0 + i) else 0) (if isMx c.bFmt then row 5 c.sSB (c.k / 32) (n0 + j) else 0)
              (if c.cFmt = 0 then 0 else ofLE (s.mem.mem.bytesAt (at_ 2 + (m0 + i) * c.sC + 4 * (n0 + j)) 4)) (e.pos % c.chunkCount)

/-- The block and the position of a suspended tensor command: the reserved word of the block holds the chunks done. Log 36 (DESIGN CHOICE). -/
def teImage (q : List EngCmd) : List Byte :=
  match suspended q with
  | none => List.replicate 64 0
  | some e => sliceBytes (leBytes 64 e.block.toNat) 0 60 ++ leBytes 4 e.pos

/-- The suspension state of an SE command (R162): the four level indices, the headroom minimum of each block and the count of blocks
measured, and the command block. Log 36 (DESIGN CHOICE). -/
def seImage (q : List EngCmd) : List Byte :=
  match suspended q with
  | none => List.replicate 320 0
  | some e =>
    let c := readSe e.block
    let inner := if c.op = 0x40 ∨ c.op = 0x41 ∨ c.op = 0x47 ∨ c.op = 0x48 then c.count 0 else 1
    let n := e.pos * (if decide (0x44 ≤ c.op ∧ c.op ≤ 0x46) then 1 else 16)
    let at_ := [n % inner, n / inner % c.count 1, n / inner / c.count 1 % c.count 2, n / inner / c.count 1 / c.count 2]
    sliceBytes (at_.flatMap (leBytes 2) ++
      ((List.range 16).flatMap fun b => leBytes 1 (((e.mins.find? (·.1 == b)).bind Prod.snd).getD 0x3F)) ++ leBytes 1 e.mins.length) 0 256 ++
      leBytes 64 e.block.toNat

/-- The blocks of an engine queue that wait behind a suspended command, in 8 slots of 64 bytes. Log 36 (DESIGN CHOICE). -/
def queueImage (q : List EngCmd) : List Byte :=
  sliceBytes ((q.filter fun e => !e.underWay).flatMap fun c => leBytes 64 c.block.toNat) 0 512

end Sys2Proof.Machine
end

