-- ==== Sys2Proof/Machine/SeqOps.lean ====
section
/-!
DEFINITION. The sequence unit's shared operations (chapter 10, R300 to R313): entries, blocks, the step boundary.
-/
namespace Sys2Proof.Machine
open Sys2Proof

/-- Changes the sequence unit. -/
def updSeq (f : SeqUnit → SeqUnit) (s : State) : State := updMem (fun m => { m with seqs := f m.seqs }) s

/-- One event of a context's sequence counter. -/
def seqCount (ctx i : Nat) (s : State) : State := updSeq (fun u => { u with cnt := bump u.cnt (8 * ctx + i) }) s

/-- A batch queue. -/
def State.batchQ (s : State) (ctx q : Nat) : Option BatchQ := Tab.get none s.mem.seqs.queues (8 * ctx + q)

/-- Changes a batch queue that is there. -/
def updQ (ctx q : Nat) (f : BatchQ → BatchQ) (s : State) : State :=
  updSeq (fun u => { u with queues := Tab.upd none u.queues (8 * ctx + q) (Option.map f) }) s

/-- A sequence entry taken apart (Table 10.3). -/
structure SeqEntry where
  state : Nat
  release : Bool
  pause : Bool
  ctx : Nat
  queue : Nat
  placement : Nat
  proof : Bool
  position : Nat
  head : Nat
  blocks : Nat
  limit : Nat
  last : Nat
  seed : Nat
  chain : List Byte
deriving DecidableEq, Repr

/-- The address of an entry (R253, R300). -/
def seqAddress (n : Nat) : Nat := 0xBFD0000000 + 64 * n

/-- Reads an entry. -/
def State.seq (s : State) (n : Nat) : SeqEntry :=
  let b := s.mem.mem.bytesAt (seqAddress n) 64
  { state := bitsAt (fld b 0 1) 0 4, release := bitAt (fld b 0 1) 4, pause := bitAt (fld b 0 1) 5, ctx := fld b 1 1,
    queue := bitsAt (fld b 2 1) 0 3, placement := bitsAt (fld b 2 1) 3 2, proof := bitAt (fld b 2 1) 5, position := fld b 4 4,
    head := fld b 8 4, blocks := fld b 12 4, limit := fld b 16 4, last := fld b 20 4, seed := fld b 24 8,
    chain := sliceBytes b 32 32 }

/-- The 64 bytes of an entry. -/
def SeqEntry.bytes (e : SeqEntry) : List Byte :=
  record 32 [(0, 1, e.state + 16 * bit e.release + 32 * bit e.pause), (1, 1, e.ctx), (2, 1, e.queue + 8 * e.placement + 32 * bit e.proof),
    (4, 4, e.position), (8, 4, e.head), (12, 4, e.blocks), (16, 4, e.limit), (20, 4, e.last), (24, 8, e.seed)] ++ e.chain

/-- Writes an entry. -/
def State.setSeq (s : State) (n : Nat) (e : SeqEntry) : State := memWrite (seqAddress n) e.bytes s

/-- An entry becomes FREE. -/
def freeSeq (n : Nat) (s : State) : State :=
  updSeq (fun u => { u with live := Tab.set 0xFFFF u.live n 0xFFFF, prompts := Tab.set (0, 0) u.prompts n (0, 0) })
    (memWrite (seqAddress n) (List.replicate 64 0) s)

/-- The sequences of a queue that are not FREE, in ascending number. -/
def queueSeqs (s : State) (ctx q : Nat) : List Nat := (s.mem.seqs.live.filter fun e => e.2 == 8 * ctx + q).map Prod.fst

/-- The sequences that a context holds. -/
def ctxSeqs (s : State) (ctx : Nat) : List Nat := (s.mem.seqs.live.filter fun e => e.2 / 8 == ctx).map Prod.fst

/-! ### KV blocks (R304) -/

/-- The pool of a placement. -/
def BatchQ.pool (q : BatchQ) (placement : Nat) : Option Nat :=
  match placement with
  | 0 => q.pool0
  | 1 => q.pool1
  | _ => q.pool2

/-- Blocks of a pool region. -/
def poolBlocks (s : State) (q : BatchQ) (region : Nat) : Nat := (Tab.get Region.none s.mem.regions region).count / q.ppb

/-- Free blocks of a pool region. -/
def freeBlocks (s : State) (q : BatchQ) (region : Nat) : Nat :=
  poolBlocks s q region - (Tab.get [] s.mem.seqs.taken region).length

/-- The lowest number below n that a list does not hold. -/
def lowestFree (used : List Nat) (n : Nat) : Option Nat := (List.range (used.length + 1)).find? fun i => i < n && !used.contains i

/-- Word i of a KV node. -/
def nodeWord (s : State) (q : BatchQ) (node i : Nat) : Nat := ofLE (s.mem.mem.bytesAt (q.nodes + 64 * node + 4 * i) 4)

/-- Sets word i of a KV node. -/
def setNodeWord (q : BatchQ) (node i v : Nat) (s : State) : State := memWrite (q.nodes + 64 * node + 4 * i) (leBytes 4 v) s

/-- The chain of nodes of a sequence, from its head. -/
def nodeChain (s : State) (q : BatchQ) : Nat → Nat → List Nat
  | 0, _ => []
  | k + 1, n => if q.nodeCount ≤ n then [] else n :: nodeChain s q k (nodeWord s q n 15)

/-- The nodes of a sequence. -/
def seqNodes (s : State) (q : BatchQ) (e : SeqEntry) : List Nat := nodeChain s q (ceilDiv e.blocks 15) e.head

/-- The blocks of a sequence. -/
def seqBlocks (s : State) (q : BatchQ) (e : SeqEntry) : List Nat :=
  let ns := seqNodes s q e
  (List.range e.blocks).map fun k => nodeWord s q (ns.getD (k / 15) 0) (k % 15)

/-- Grants a sequence one block (R304): the block and the node it needed, or nothing. -/
def grantBlock (ctx qn n : Nat) (s : State) : Option (Nat × List Nat × State) :=
  match s.batchQ ctx qn with
  | none => none
  | some q =>
    let e := s.seq n
    match q.pool e.placement with
    | none => none
    | some region =>
      match lowestFree (Tab.get [] s.mem.seqs.taken region) (poolBlocks s q region) with
      | none => none
      | some b =>
        let needNode := e.blocks % 15 = 0
        let node := if needNode then lowestFree q.nodesUsed q.nodeCount else (seqNodes s q e).getLast?
        match node with
        | none => none
        | some nd =>
          let s1 := updSeq (fun u => { u with taken := Tab.upd [] u.taken region fun l => l ++ [b] }) s
          let s2 := setNodeWord q nd (e.blocks % 15) b s1
          let s3 := if needNode then
              let s' := updQ ctx qn (fun q => { q with nodesUsed := q.nodesUsed ++ [nd] }) (setNodeWord q nd 15 0xFFFFFFFF s2)
              match (seqNodes s q e).getLast? with
              | some l => if e.blocks = 0 then s' else setNodeWord q l 15 nd s'
              | none => s'
            else s2
          some (b, if needNode then [nd] else [],
            s3.setSeq n { e with blocks := e.blocks + 1, head := if e.blocks = 0 then nd else e.head })

/-- Returns blocks and nodes to their pool. -/
def returnBlocks (ctx qn region : Nat) (blocks nodes : List Nat) (s : State) : State :=
  updQ ctx qn (fun q => { q with nodesUsed := q.nodesUsed.filter fun x => !nodes.contains x })
    (updSeq (fun u => { u with taken := Tab.upd [] u.taken region fun l => l.filter fun b => !blocks.contains b }) s)

/-- The TPNs of a block (R304). -/
def blockTpns (s : State) (q : BatchQ) (region b : Nat) : List Nat :=
  (List.range q.ppb).map fun i => (Tab.get Region.none s.mem.regions region).firstTpn + b * q.ppb + i

/-- Fetches with PIN every page of a block of a sequence (R308), for a pool away from HBM. -/
def fetchBlock (ctx qn n region b : Nat) (s : State) : State :=
  match s.batchQ ctx qn with
  | none => s
  | some q =>
    (blockTpns s q region b).foldl (fun s t =>
      let r := fetchPage ctx t true s
      let w : SeqWait := { key := pageKey ctx t, seq := n, status := r.1.getD 0xFFFF }
      updQ ctx qn (fun q => { q with waits := q.waits ++ [w] }) r.2) s

/-- Releases the pins of a sequence that leaves the batch (R308). -/
def unpinSeq (ctx qn n : Nat) (s : State) : State :=
  match s.batchQ ctx qn with
  | none => s
  | some q =>
    let e := s.seq n
    match q.pool e.placement with
    | none => s
    | some region =>
      if e.placement = 0 then s
      else (seqBlocks s q e).foldl (fun s b => (blockTpns s q region b).foldl (fun s t => (unpinPage (pageKey ctx t) s).2) s) s

/-- A sequence gives back everything and becomes FREE. -/
def dropSeq (ctx qn n : Nat) (s : State) : State :=
  match s.batchQ ctx qn with
  | none => freeSeq n s
  | some q =>
    let e := s.seq n
    let s1 := match q.pool e.placement with
      | some region => returnBlocks ctx qn region (seqBlocks s q e) (seqNodes s q e) s
      | none => s
    updQ ctx qn (fun q => { q with join := q.join.filter (· != n) }) (freeSeq n s1)

/-! ### Completions (R310) -/

/-- Writes a row's completion; one that finds no room is dropped and counted. Log 53 (DEDUCED). -/
def seqCompletion (ctx : Nat) (q : BatchQ) (n pos token status : Nat) (left joined : Bool) (imp : Nat) (proof : Option (List Byte))
    (s : State) : State :=
  let b := record 32 [(0, 4, n), (4, 4, pos), (8, 4, token), (12, 2, status),
    (14, 1, bit left + 2 * bit joined + 4 * bit proof.isSome), (16, 8, imp)] ++ proof.getD []
  let r := postRecord q.cplHq { bytes := b, poison := false, owner := 3, owned := ctx } s
  if r.1 then r.2 else seqCount ctx 3 r.2

/-! ### The step boundary (R305) -/

/-- Step 1: settles row r of a manifest (R305, R310, R311, R313). Answers whether the sequence left. -/
def settleRow (ctx qn imp : Nat) (r : Nat) (row : SeqRow) (s : State) : Bool × State :=
  match s.batchQ ctx qn with
  | none => (false, s)
  | some q =>
    let e := s.seq row.seq
    let out := memRead ctx (q.output + 8 * r) 8 s
    let s1 := updSeq (fun u => { u with prompts := Tab.set (0, 0) u.prompts row.seq (0, 0) }) out.2
    let pr := memRead ctx (q.proofs + 32 * r) 32 s1
    let s2 := if e.proof then pr.2 else s1
    let chain := if e.proof then sha256 (e.chain ++ pr.1.bytes) else e.chain
    let proof := if e.proof then some (pr.1.bytes ++ chain) else none
    if out.1.poison then
      let s3 := seqCount ctx 4 (s2.setSeq row.seq { e with state := 4, chain := chain, pause := false })
      (false, seqCompletion ctx q row.seq e.position e.last stPoison false row.joined imp proof (unpinSeq ctx qn row.seq s3))
    else
      let pos := e.position + row.nNew
      let token := fld out.1.bytes 0 4
      let left := bitAt (fld out.1.bytes 4 1) 0 || (e.limit != 0 && decide (e.limit ≤ pos)) || e.release
      let e1 := { e with position := pos, last := token, chain := chain }
      let s3 := s2.setSeq row.seq (if ¬ left ∧ e.pause then { e1 with state := 3, pause := false } else e1)
      let s4 := if left ∨ e.pause then unpinSeq ctx qn row.seq s3 else s3
      (left, seqCompletion ctx q row.seq pos token stOk left row.joined imp proof s4)

/-- Step 2: a HALTED sequence whose RELEASE is requested goes too, at the boundary that halted it (log 81);
blocks and nodes of leavers, of released sequences outside the batch and of those held back return (R305). -/
def returnStep (ctx qn : Nat) (left : List Nat) (s : State) : State :=
  let s0 := (((s.batchQ ctx qn).map BatchQ.held).getD []).foldl (fun s x => returnBlocks ctx qn x.region x.blocks x.nodes s) s
  let idle := (queueSeqs s ctx qn).filter fun n =>
    let e := s.seq n
    (e.release && (e.state == 1 || e.state == 3 || e.state == 4)) || (e.state == 1 && e.pause && e.blocks == 0)
  let gone := left ++ idle.filter fun n => !left.contains n
  updQ ctx qn (fun q => { q with held := [] }) (gone.foldl (fun s n => dropSeq ctx qn n s) s0)

/-- A continuing sequence leaves for want of a block (R307): ST_QUOTA, FREE at once, its blocks return at the next boundary. -/
def growthFails (ctx qn n imp : Nat) (s : State) : State :=
  match s.batchQ ctx qn with
  | none => s
  | some q =>
    let e := s.seq n
    let s1 := seqCount ctx 2 (seqCompletion ctx q n e.position e.last stQuota true false imp none (unpinSeq ctx qn n s))
    let held := (q.pool e.placement).toList.map fun region =>
      ({ region := region, blocks := seqBlocks s q e, nodes := seqNodes s q e } : HeldBlocks)
    updQ ctx qn (fun q => { q with held := q.held ++ held }) (freeSeq n s1)

/-- Step 3: each sequence that stays ACTIVE takes a block if its next token needs one. Answers the rows that go on. Log 53 (DEDUCED). -/
def growStep (ctx qn imp : Nat) (s : State) : List SeqRow × State :=
  ((queueSeqs s ctx qn).filter fun n => (s.seq n).state == 2).foldl (fun (p : List SeqRow × State) n =>
    match p.2.batchQ ctx qn with
    | none => p
    | some q =>
      let e := p.2.seq n
      let row : SeqRow := { seq := n, nNew := 1, joined := false, blocks := [], nodes := [] }
      if e.position < e.blocks * q.t then (p.1 ++ [row], p.2)
      else
        match grantBlock ctx qn n p.2 with
        | none => (p.1, growthFails ctx qn n imp p.2)
        | some (b, _, s1) =>
          let s2 := match q.pool e.placement with
            | some region => if e.placement = 0 then s1 else fetchBlock ctx qn n region b s1
            | none => s1
          (p.1 ++ [row], s2)) ([], s)

/-- Grants k blocks, or none: the blocks, the nodes taken, and the state. -/
def grantMany (ctx qn n : Nat) : Nat → State → Option (List Nat × List Nat × State)
  | 0, s => some ([], [], s)
  | k + 1, s =>
    match grantBlock ctx qn n s with
    | none => none
    | some (b, nd, s1) =>
      match grantMany ctx qn n k s1 with
      | none => none
      | some (bs, nds, s2) => some (b :: bs, nd ++ nds, s2)

/-- Step 4: joins in order until the first that fails a condition (R306). -/
def joinStep (ctx qn : Nat) : List Nat → List SeqRow → State → List SeqRow × State
  | [], rows, s => (rows, s)
  | n :: rest, rows, s =>
    match s.batchQ ctx qn with
    | none => (rows, s)
    | some q =>
      let e := s.seq n
      let pr := Tab.get (0, 0) s.mem.seqs.prompts n
      let nNew := if pr.2 = 0 then 1 else pr.2
      let need := ceilDiv (e.position + nNew) q.t - e.blocks
      let tokens := (rows.map SeqRow.nNew).sum
      let deferred := (rows, seqCount ctx 1 s)
      match q.pool e.placement with
      | none => deferred
      | some region =>
        if q.maxRows < rows.length + 1 ∨ q.budget < tokens + nNew ∨ freeBlocks s q region < q.reserve + need then deferred
        else
          match grantMany ctx qn n need s with
          | none => deferred
          | some (bs, nds, s1) =>
            let e1 := s1.seq n
            let s2 := updQ ctx qn (fun q => { q with join := q.join.filter (· != n) }) (s1.setSeq n { e1 with state := 2 })
            let s3 := if e.placement = 0 then s2
              else (seqBlocks s2 q e1).foldl (fun s b => fetchBlock ctx qn n region b s) s2
            joinStep ctx qn rest (rows ++ [{ seq := n, nNew := nNew, joined := true, blocks := bs, nodes := nds }]) (seqCount ctx 0 s3)

/-- Inserts a row by its sequence number. -/
def insertRow (r : SeqRow) : List SeqRow → List SeqRow
  | [] => [r]
  | x :: l => if r.seq ≤ x.seq then r :: x :: l else x :: insertRow r l

/-- Rows in ascending sequence number (R309). -/
def sortRows (l : List SeqRow) : List SeqRow := l.foldr insertRow []

/-- Step 5: writes the manifest of an impression (R309). -/
def writeManifest (ctx qn : Nat) (s : State) : State :=
  match s.batchQ ctx qn with
  | none => s
  | some q =>
    let rows := q.rows
    let head := record 64 [(0, 8, q.impression), (8, 4, rows.length), (12, 4, (rows.map SeqRow.nNew).sum),
      (16, 4, (rows.filter SeqRow.joined).length)]
    let recs := rows.flatMap fun r =>
      let e := s.seq r.seq
      let pr := Tab.get (0, 0) s.mem.seqs.prompts r.seq
      record 32 [(0, 4, r.seq), (4, 4, e.position), (8, 4, r.nNew), (12, 4, e.head), (16, 4, e.last),
        (24, 8, if r.joined ∧ pr.2 ≠ 0 then pr.1 else 0)]
    let seeds := rows.flatMap fun r => leBytes 8 (s.seq r.seq).seed
    memWrite (q.manifest + 64 + 32 * q.maxRows) seeds (memWrite q.manifest (head ++ recs) s)

/-- Steps 2 to 5 of a boundary: the manifest of an impression is formed (R305). -/
def formManifest (ctx qn imp : Nat) (left : List Nat) (s : State) : State :=
  let s1 := returnStep ctx qn left s
  let g := growStep ctx qn imp s1
  let joiners := ((g.2.batchQ ctx qn).map BatchQ.join).getD []
  let j := joinStep ctx qn joiners g.1 g.2
  writeManifest ctx qn (updQ ctx qn (fun q => { q with
    rows := sortRows j.1, joiners := (j.1.filter SeqRow.joined).map SeqRow.seq, impression := imp, forming := true }) j.2)

/-- The batch queues of a plate, by context and ascending number. -/
def plateQueues (s : State) (h : Nat) : List Nat :=
  (s.mem.seqs.queues.filter fun e => match e.2 with
    | some q => q.plate == h
    | none => false).map Prod.fst

/-- The boundary after an impression that completed with ST_OK or ST_POISON (R305). -/
def stepBoundary (h imp next : Nat) (s : State) : State :=
  (plateQueues s h).foldl (fun s k =>
    let ctx := k / 8
    let qn := k % 8
    match s.batchQ ctx qn with
    | none => s
    | some q =>
      let rows := if q.impression = imp then q.rows else []
      let st := rows.zipIdx.foldl (fun (p : List Nat × State) r =>
        let x := settleRow ctx qn imp r.2 r.1 p.2
        (if x.1 then p.1 ++ [r.1.seq] else p.1, x.2)) ([], s)
      formManifest ctx qn next st.1 st.2) s

/-- A granted join is undone (R308, R312): its pins, blocks and nodes return, its chain ends where it did, and the sequence is QUEUED
again. -/
def undoJoin (ctx qn : Nat) (q : BatchQ) (row : SeqRow) (s : State) : State :=
  let e := s.seq row.seq
  let s1 := unpinSeq ctx qn row.seq s
  let s2 := match q.pool e.placement with
    | some region => returnBlocks ctx qn region row.blocks row.nodes s1
    | none => s1
  let kept := (seqNodes s q e).filter fun x => !row.nodes.contains x
  let s3 := match (if row.nodes = [] then none else kept.getLast?) with
    | some l => setNodeWord q l 15 0xFFFFFFFF s2
    | none => s2
  s3.setSeq row.seq { e with
    state := 1, blocks := e.blocks - row.blocks.length, head := if e.blocks = row.blocks.length then 0xFFFFFFFF else e.head }

/-- Another status: no row settles, and the joins of the impression are undone, the joiners back at the head of the join order
in their order (R312). -/
def undoJoins (h imp : Nat) (s : State) : State :=
  (plateQueues s h).foldl (fun s k =>
    let ctx := k / 8
    let qn := k % 8
    match s.batchQ ctx qn with
    | none => s
    | some q =>
      if q.impression ≠ imp then s
      else
        let js := q.rows.filter SeqRow.joined
        let back := q.joiners.filter fun n => js.any fun r => r.seq == n
        updQ ctx qn (fun q => { q with join := back ++ q.join, rows := [], joiners := [], forming := false, waits := [] })
          (js.foldl (fun s r => undoJoin ctx qn q r s) s)) s

/-- The first manifest of a plate that has been started is formed as its first impression starts (R305, R312). -/
def firstManifest (h imp : Nat) (s : State) : State :=
  (plateQueues s h).foldl (fun s k => formManifest (k / 8) (k % 8) imp [] s) s

/-- Every fetch of a manifest has completed; a fetch that failed takes its sequence out of the batch (R308). Log 81. -/
def settleFetches (ctx qn : Nat) (s : State) : State :=
  match s.batchQ ctx qn with
  | none => s
  | some q =>
    let bad := q.waits.filter fun w => w.status != stOk
    let firstBad := bad.foldl (fun (l : List SeqWait) w => if l.any (fun x => x.seq == w.seq) then l else l ++ [w]) []
    let s1 := firstBad.foldl (fun s w =>
      match q.rows.find? (·.seq == w.seq) with
      | none => s
      | some row =>
        let e := s.seq w.seq
        if w.status = stCapacity ∧ row.joined then seqCount ctx 1 (undoJoin ctx qn q row s)
        else if w.status = stCapacity then growthFails ctx qn w.seq q.impression s
        else
          let s2 := seqCount ctx 4 ((unpinSeq ctx qn w.seq s).setSeq w.seq { e with state := 4 })
          seqCompletion ctx q w.seq e.position e.last w.status false row.joined q.impression none s2) s
    let gone := firstBad.map SeqWait.seq
    let back := q.joiners.filter fun n => firstBad.any fun w => w.seq == n && w.status == stCapacity
    let s2 := updQ ctx qn (fun q => { q with
      join := back ++ q.join, rows := q.rows.filter fun r => !gone.contains r.seq,
      joiners := q.joiners.filter fun n => !gone.contains n, waits := [] }) s1
    if gone = [] then s2 else writeManifest ctx qn s2

end Sys2Proof.Machine
end

