-- ==== Sys2Proof/Machine/Sequences.lean ====
section
/-!
DEFINITION. The sequence commands and the retirement of a manifest (chapter 10, R300 to R310).
-/
namespace Sys2Proof.Machine
open Sys2Proof

/-- SEQ_ALLOT (R302). -/
def execSeqAllot (m : Mbx) (s : State) : Host.Outcome State Fault Refusal :=
  runCmd m .pf [(16, 1), (20, 4)] (fun s =>
    let c := mfld m 16 1
    let n := mfld m 20 4
    let others := ((s.mem.seqs.allot.filter fun e => e.1 != c).map Prod.snd).sum
    if 1048576 < others + n then refuse stCapacity s
    else done (updSeq (fun u => { u with allot := Tab.set 0 u.allot c n }) s)) s

/-- Reads the record of Table 19.8. -/
def readBatchQ (b : List Byte) : BatchQ :=
  let pool := fun (o : Nat) => if fld b o 4 = 0xFFFFFFFF then none else some (fld b o 4)
  { plate := fld b 0 2, wset := fld b 2 2, t := 2 ^ fld b 4 1, ppb := fld b 6 2, pool0 := pool 8, pool1 := pool 12, pool2 := pool 16,
    nodes := fld b 24 8, nodeCount := fld b 20 4, maxRows := fld b 32 2, budget := fld b 36 4, reserve := fld b 40 4,
    manifest := fld b 56 8, output := fld b 64 8, proofs := fld b 72 8, core := fld b 44 2, cnt := fld b 46 1, cplHq := fld b 48 2,
    join := [], rows := [], joiners := [], impression := 0, forming := false, waits := [], nodesUsed := [], held := [] }

/-- Whether a pool is a region of the context with the right home and whole blocks. -/
def poolOk (s : State) (ctx ppb home : Nat) (p : Option Nat) : Bool :=
  match p with
  | none => true
  | some id => s.mem.regions.any fun e => e.1 == id && e.2.ctx == ctx && e.2.home == home && e.2.count % ppb == 0

/-- Whether a batch queue record is in range (R303, Table 10.5). -/
def batchOk (s : State) (c : Nat) (b : List Byte) (q : BatchQ) : Bool :=
  onlyFields b [(0, 5), (6, 28), (36, 11), (48, 2), (56, 24)] &&
  (match s.plate q.plate with
   | some p => p.kind == 2 && p.owner == c
   | none => false) &&
  (match Tab.get none s.mem.weights q.wset with
   | some w => w.ctx == c
   | none => false) &&
  decide (4 ≤ fld b 4 1 ∧ fld b 4 1 ≤ 10 ∧ 1 ≤ q.ppb ∧ q.ppb ≤ 1024 ∧ 1 ≤ q.nodeCount ∧ q.nodeCount ≤ 16777216 ∧
    1 ≤ q.maxRows ∧ q.maxRows ≤ 8192 ∧ 1 ≤ q.budget ∧ q.budget ≤ 1048576 ∧ q.core < 512 ∧ q.cnt < 64 ∧ q.cplHq < 8192 ∧
    q.manifest % 64 = 0) && (s.queue q.cplHq).en && (s.queue q.cplHq).fn == c &&
  poolOk s c q.ppb 0 q.pool0 && poolOk s c q.ppb 1 q.pool1 && poolOk s c q.ppb 2 q.pool2 &&
  ctxOwns s c q.nodes (64 * q.nodeCount) && ctxOwns s c q.manifest (64 + 40 * q.maxRows) && ctxOwns s c q.output (8 * q.maxRows) &&
  ctxOwns s c q.proofs (32 * q.maxRows)

/-- SEQ_QUEUE_CONFIG (R303). A queue configured again keeps its sequences, its manifest and its blocks. Log 81. -/
def execSeqQueueConfig (m : Mbx) (s : State) : Host.Outcome State Fault Refusal :=
  runCmd m .own [(16, 1), (24, 8)] (fun s =>
    let c := issuer m
    let n := mfld m 16 1
    let r := deviceData s c (mfld m 24 8) 128
    if r.1 ≠ stOk then refuse r.1 r.2.2
    else
      let q := readBatchQ r.2.1
      let s1 := r.2.2
      let running := fun (h : Nat) => match s1.plate h with
        | some p => p.state == 2
        | none => false
      let old := s1.batchQ c n
      let oldRuns : Bool := match old with
        | some o => running o.plate
        | none => false
      let rows := ((List.range 8).map fun i => if i = n then 0 else ((s1.batchQ c i).map BatchQ.maxRows).getD 0).sum
      if 8 ≤ n ∨ ¬ batchOk s1 c r.2.1 q then refuse stBadParam s1
      else if 8192 < rows + q.maxRows then refuse stCapacity s1
      else if running q.plate ∨ oldRuns then refuse stBusy s1
      else
        let q' := match old with
          | some o => { q with join := o.join, rows := o.rows, joiners := o.joiners, impression := o.impression, nodesUsed := o.nodesUsed,
                               held := o.held }
          | none => q
        done (updSeq (fun u => { u with queues := Tab.set none u.queues (8 * c + n) (some q') }) s1)) s

/-- SEQ_SUBMIT (R302): the lowest FREE entry is taken and joins the end of its queue's join order. -/
def execSeqSubmit (m : Mbx) (s : State) : Host.Outcome State Fault Refusal :=
  runCmd m .own [(16, 3), (20, 24)] (fun s =>
    let c := issuer m
    let n := mfld m 16 1
    let place := mfld m 17 1
    let tokens := mfld m 20 4
    let addr := mfld m 24 8
    match (if 8 ≤ n then none else s.batchQ c n) with
    | none => refuse stBadParam s
    | some q =>
      if 3 ≤ place ∨ (q.pool place).isNone ∨ 2 ≤ mfld m 18 1 ∨ tokens = 0 ∨ q.budget < tokens ∨ ¬ ctxOwns s c addr (4 * tokens) then
        refuse stBadParam s
      else if Tab.get 0 s.mem.seqs.allot c ≤ (ctxSeqs s c).length then refuse stQuota s
      else
        match (List.range 1048576).find? fun i => Tab.get 0xFFFF s.mem.seqs.live i == 0xFFFF with
        | none => refuse stQuota s
        | some k =>
          let e : SeqEntry := { state := 1, release := false, pause := false, ctx := c, queue := n, placement := place,
                                proof := bitAt (mfld m 18 1) 0, position := 0, head := 0xFFFFFFFF, blocks := 0, limit := mfld m 40 4,
                                last := 0, seed := mfld m 32 8, chain := List.replicate 32 0 }
          let s1 := updSeq (fun u => { u with
            live := Tab.set 0xFFFF u.live k (8 * c + n), prompts := Tab.set (0, 0) u.prompts k (addr, tokens) }) (s.setSeq k e)
          (stOk, { fields := [(8, 4, k)], block := none }, updQ c n (fun q => { q with join := q.join ++ [k] }) s1)) s

/-- A command on a sequence of the issuer's context. -/
def seqCmd (m : Mbx) (f : Nat → SeqEntry → State → Nat × Result × State) (s : State) : Host.Outcome State Fault Refusal :=
  runCmd m .own [(16, 4)] (fun s =>
    let n := mfld m 16 4
    let held := Tab.get 0xFFFF s.mem.seqs.live n
    let e := s.seq n
    if held = 0xFFFF ∨ held / 8 ≠ issuer m ∨ e.state = 0 then refuse stBadParam s else f n e s) s

/-- SEQ_RELEASE (R301). -/
def execSeqRelease (m : Mbx) (s : State) : Host.Outcome State Fault Refusal :=
  seqCmd m (fun n e s => done (s.setSeq n { e with release := true })) s

/-- SEQ_PAUSE (R301): of an ACTIVE or QUEUED sequence. -/
def execSeqPause (m : Mbx) (s : State) : Host.Outcome State Fault Refusal :=
  seqCmd m (fun n e s => if e.state = 1 ∨ e.state = 2 then done (s.setSeq n { e with pause := true }) else refuse stBadParam s) s

/-- SEQ_RESUME (R301): a PAUSED sequence goes to the back of the join order. -/
def execSeqResume (m : Mbx) (s : State) : Host.Outcome State Fault Refusal :=
  seqCmd m (fun n e s =>
    if e.state ≠ 3 then refuse stBadParam s
    else done (updQ (issuer m) e.queue (fun q => { q with join := q.join ++ [n] }) (s.setSeq n { e with state := 1, pause := false }))) s

/-- SEQ_QUERY (R300): the entry of Table 10.3; a FREE entry is no sequence of any context. -/
def execSeqQuery (m : Mbx) (s : State) : Host.Outcome State Fault Refusal :=
  seqCmd m (fun n _ s => (stOk, { fields := [], block := some (s.mem.mem.bytesAt (seqAddress n) 64) }, s)) s

/-- MANIFEST_RETIRE (R308): once every fetch of its joined and grown pages has completed, the manifest retires into CNT of
CORE. -/
def execManifestRetire (ctx : BitVec 8) (q : BitVec 3) (s : State) : Host.Outcome State Fault Refusal :=
  let c := ctx.toNat
  let n := q.toNat
  match s.batchQ c n with
  | none => .next s
  | some x =>
    if ¬ x.forming ∨ x.waits.any (fun w => w.status == 0xFFFF) then .next s
    else
      let s1 := updQ c n (fun q => { q with forming := false }) (settleFetches c n s)
      .next (retireFor c x.core x.cnt stOk (thatchGo s1))

end Sys2Proof.Machine
end

