-- ==== Sys2Proof/Machine/Windows.lean ====
section
/-!
DEFINITION. Windows, plate commands and impressions as they run (chapter 02), and pre-emption of compute contexts
(chapter 16).
-/
namespace Sys2Proof.Machine
open Sys2Proof

/-! ### Stopping a context (R450 to R456) -/

/-- Changes a compute context. -/
def updCtx (c : Nat) (f : Ctx → Ctx) (s : State) : State := s.setCtx c (f (s.ctx c))

/-- Whether an impression of a context is in progress and not suspended. -/
def ctxRuns (s : State) (c : Nat) : Bool :=
  (plateList s).any fun q => q.2.owner == c && !q.2.isRan && q.2.running.any fun r => !r.ended && r.hold != 3

/-- The record that a context's occurrences have reached is held until the resumption (R450, R453). -/
def holdImpressions (c : Nat) (s : State) : State :=
  (plateList s).foldl (fun s q =>
    if q.2.owner = c ∧ ¬ q.2.isRan then
      updPlate q.1 (fun p => { p with running := p.running.map fun r =>
        if r.begun ∨ r.ended ∨ r.hold = 3 then r else { r with hold := 2 } }) s
    else s) s

/-- Moves a core with a live plate command into its context's long image, its engines suspended (R450, R451). -/
def takeCore (c k : Nat) (s0 : State) : State :=
  let s := suspendEngines k s0
  let core := s.coreAt k
  let threads := (List.range 8).map fun i => 8 * k + i
  let s1 := updCtx c (fun x => { x with
    saved := Tab.set none x.saved k (some core),
    savedThreads := threads.foldl (fun t i => Tab.set Thread.reset t i (s.thread i)) x.savedThreads }) s
  let s2 := threads.foldl (fun s i => s.setThread i Thread.reset) s1
  s2.setCore k { core with live := none, te0 := [], te1 := [], se := [], me := core.me.filter fun e => decide (8 ≤ e.1),
                           cnt := [], bexp := [], resident := none }

/-- The summed RATE of a context's running plates on its save area's channels in one batten (R446, R452). Log 36 (DESIGN CHOICE). -/
def saveRate (s : State) (c : Nat) : Nat :=
  let set := (s.ctx c).saveBase / 0x600000000
  let chans := (List.range 32).map fun i => 256 * (set / 8) + 8 * i + set % 8
  ((plateList s).map fun q =>
    if q.2.owner = c ∧ ¬ q.2.isRan then
      ((onePerWindow q.2.windows).map fun w =>
        if q.2.running.any (·.window == w.window) then (chans.map fun h => maxRate q.2 w.window (2 ^ 24 + h)).sum else 0).sum
    else 0).sum

/-- The ridge count at which an image of D bytes has passed, in whole battens from the next batten edge (R452). -/
def imageDue (s : State) (c d : Nat) : Nat := alignUp s.now battenTicks + battenTicks * ceilDiv d (max 1 (saveRate s c))

/-- The completion of `CTX_PREEMPT`. -/
def preemptResult (form stop bytes : Nat) : Result := { fields := [(5, 1, form), (8, 8, stop), (16, 8, bytes)], block := none }

/-- Ends a context's stop: the command that waits for it completes. Log 36 (DESIGN CHOICE). -/
def endStop (c form bytes : Nat) (s : State) : State :=
  let x := s.ctx c
  let s1 := s.setCtx c { x with state := 4, waiter := none }
  match x.waiter with
  | some w => completeSlot w.1 w.2 stOk (preemptResult form x.stopRidge bytes) s1
  | none => s1

/-- Takes a stopping context further: at command boundaries on every core it is held with its slots; under mode 1 the cores
that run a plate command go into the long image once every engine stands at its stop point (R450, R456). -/
def settleStop (c : Nat) (s : State) : State :=
  let x := s.ctx c
  if x.state ≠ 2 ∨ ¬ groupsQuiet c s then s
  else
    let cores := residentCores s c
    let live := cores.filter fun k => (s.coreAt k).live.isSome
    if live ≠ [] ∧ x.mode = 0 then s
    else if ¬ live.all (enginesStopped s) then s
    else
      let s1 := (cores.filter fun k => !live.contains k).foldl (fun s k => saveResident k s) (holdImpressions c s)
      if live = [] then endStop c 0 0 s1
      else
        let d := imageSize s c
        let s2 := updCtx c (fun x => { x with
          state := 3, stopRidge := s.now, due := imageDue s c d, saved := [], savedThreads := [],
          imgCores := (imageCores s c).length, imgWays := (imageWays s c).length }) s1
        live.foldl (fun s k => takeCore c k s) s2

/-- A context has nothing in progress any more and is idle. -/
def settleIdle (c : Nat) (s : State) : State :=
  if (s.ctx c).state = 1 ∧ ¬ (plateList s).any (fun q => q.2.owner == c && !q.2.isRan && q.2.running != []) then
    updCtx c (fun x => { x with state := 0 }) s
  else s

/-! ### Windows (R42, R44, R54 to R56, R60, R448, R453, R601) -/

/-- Counts a deferral of a plate (R54, R453, R601). -/
def deferPlate (h : Nat) (s : State) : State := updPlate h (fun p => { p with deferrals := satNat 64 p.deferrals 1 }) s

/-- Counts an epoch as deferred, once (R54, R497). Log 35 (DESIGN CHOICE). -/
def deferEpoch (h : Nat) (s : State) : State :=
  updPlate h (fun p => if p.deferredEpoch = some s.epochNow then p
    else { p with deferrals := satNat 64 p.deferrals 1, deferredEpoch := some s.epochNow }) s

/-- The groups of contexts that run a plate command again go on (R395). -/
def resumeGroups (s : State) : State :=
  let runs := fun (c : Nat) => !ctxHeld s c && s.core.cores.any fun e => e.2.resident == some c && e.2.live.isSome
  let owners := (s.fab.groups.filterMap fun e => e.2.bind fun g => if g.paused then some g.owner else none).eraseDups
  (owners.filter runs).foldl (fun s c => groupsResume c s) s

/-- What waits for a collective unit's pause goes on: stops, and the switches of cores (R395, R456). -/
def unitsDone (s : State) : State :=
  if s.fab.groups.all fun e => e.2.all fun g => !g.paused then s
  else resumeGroups (retryHeld ((Tab.keys s.core.ctxs).foldl (fun s c => settleStop c s) s))

/-- Begins the record that an occurrence of plate h has reached, if it can; the groups of its context go on (R395, R447, R448). -/
def beginOccurrence (h window start : Nat) (s : State) : State :=
  match s.plate h with
  | none => s
  | some p =>
    match p.running.find? (fun r => r.start == start && r.window == window) with
    | none => s
    | some r =>
      let b := tryBegin h p r s
      let s1 := updPlate h (fun p => { p with running := p.running.map fun x => if x = r then b.1 else x }) b.2
      if ¬ b.1.begun ∨ p.isRan then s1 else groupsResume p.owner s1

/-- A new occurrence of a window. Log 35 (DESIGN CHOICE). -/
def newRunning (x : Win) (variant slot impression : Nat) (now : Nat) : Running :=
  { window := x.window, variant := variant, cell := x.cell, start := now, slot := slot, winStart := now, impression := impression,
    status := stOk, overrun := false, record := x.entry, next := 0, begun := false, hold := 0, ended := false }

/-- Takes up an occurrence: it joins the plate's running work and begins if it can. Log 11 (DESIGN CHOICE), 35 (DESIGN CHOICE). -/
def runOccurrence (h : Nat) (r : Running) (s : State) : State :=
  beginOccurrence h r.window r.start (updPlate h (fun p => { p with
    state := if p.state = 1 then 2 else p.state, running := p.running ++ [r] }) s)

/-- The variant of a cell's slot, falling back to variant 0 (R44, R171), or none where nothing of the slot runs: a cell that
processes nothing (Table 6.4), or a shadow without metadata, whose gap is declared at the slot's first uplink window (R193).
Log 35 (DESIGN CHOICE). -/
def slotVariant (cn imp slot : Nat) (s : State) : Option Nat × State :=
  let c := s.cell cn
  match cellStateFor c slot with
  | 2 =>
    match Tab.get none c.sel imp with
    | some v => (some v, s)
    | none => (some 0, updCell cn (fun c => { c with lastFallback := some (max imp (c.lastFallback.getD 0)) }) s)
  | 3 =>
    match c.metas.find? (·.imp == imp) with
    | some m => if c.blind.contains imp then (none, s) else (some (fld m.body 10 1), s)
    | none => (none, if s.now < firstUplink s cn slot then s else shadowGap cn imp s)
  | _ => (none, s)

/-- A window of a RAN plate (R44, R55, R192), in the slot of its cell's numerology that its START falls in:
its slot's variant, if it carries it. Log 35 (DESIGN CHOICE). -/
def startRanWindow (h : Nat) (p : Plate) (ws : List Win) (x : Win) (s : State) : State :=
  let period := (s.cell x.cell).slotTicks
  let slot := s.now / period * period
  let inForce := decide (p.firstEpoch * epochTicks ≤ slot) && (match p.retireEpoch with
    | some e => decide (slot < e * epochTicks)
    | none => true)
  if ¬ inForce ∨ (p.state ≠ 1 ∧ p.state ≠ 2) ∨ s.now < x.start then s
  else
    let imp := (s.cell x.cell).impressionAt slot
    let v := slotVariant x.cell imp slot s
    match v.1 with
    | none => v.2
    | some v0 =>
      match ws.find? (·.variant == v0) with
      | none => v.2
      | some w => runOccurrence h (newRunning w v0 slot imp s.now) v.2

/-- Resumes the impression that was held (R297, R453): its record begins in this window, from its slot, or its image is
read back. -/
def resumeImpression (h : Nat) (r : Running) (s : State) : State :=
  let s1 := updThatch h r.start (fun x => { x with windowStart := s.now }) s
  let s2 := updPlate h (fun p => { p with running := p.running.map fun y =>
    if y = r then { y with winStart := s.now, hold := if y.begun then y.hold else 0 } else y }) s1
  if r.begun then s2 else beginOccurrence h r.window r.start s2

/-- A held context that has been resumed takes up its work at a window: with a long image it is read back first (R453). -/
def takeUp (c : Nat) (s : State) : State :=
  let x := s.ctx c
  if x.image then s.setCtx c { x with state := 5, due := imageDue s c (imageSize s c) }
  else groupsResume c (s.setCtx c { x with state := 1, resumeAsked := false })

/-- The first impression of a started plate (R60, R246, R247, R312). -/
def firstImpression (h : Nat) (p : Plate) (x : Win) (s : State) : State :=
  let s1 := firstManifest h p.nextImp (updPlate h (fun p => { p with startPending := p.mode == 1 }) s)
  let s2 := runOccurrence h (newRunning x 0 (s.now - x.start) p.nextImp s.now) s1
  if p.mode = 1 then startBarrier h p.group s2 else s2

/-- The tier limit that a plate's windows obey: a RAN service plate shares the limit of the RAN plate in force (R36, R54). -/
def limitOf (p : Plate) (s : State) : Nat := if p.isRan then ((ranNow s).map Plate.tierLimit).getD p.tierLimit else p.tierLimit

/-- Whether an occurrence waits for a window of its plate to go on in: its record was held, or its image is to be read back (R297,
R453). -/
def Running.waits (r : Running) (ctx : Ctx) : Bool := !r.ended && (r.hold == 2 || r.hold == 3 || (ctx.state == 4 && r.begun))

/-- A window of a compute or service plate at its START; a RETIRING plate only finishes the impression it has begun (Table 2.7). -/
def startComputeWindow (h : Nat) (p : Plate) (x : Win) (s : State) : State :=
  let ctx := s.ctx p.owner
  let starts := p.startPending && decide (p.launch ≤ s.now ∧ p.accepted ≤ s.now) && p.running.all fun r => decide (r.start < s.now)
  if s.now < p.firstEpoch * epochTicks + x.start ∨ (p.state ≠ 1 ∧ p.state ≠ 2 ∧ ¬ (p.state = 3 ∧ p.running.any (Running.waits · ctx))) then s
  else if p.state = 1 ∧ ¬ starts then s
  else if p.held ∧ ¬ starts then deferPlate h s
  else if (¬ p.isRan ∧ s.flt.probation) ∨ limitOf p s < s.clk.tier.toNat then deferEpoch h s
  else if ¬ p.isRan ∧ ctxHeld s p.owner ∧ ¬ (ctx.state = 4 ∧ ctx.resumeAsked) then ctxCount p.owner 3 (deferPlate h s)
  else
    let s1 := if ¬ p.isRan ∧ ctx.state = 4 then takeUp p.owner s
      else if ¬ p.isRan ∧ ctx.state = 0 then updCtx p.owner (fun c => { c with state := 1 }) s else s
    match p.running.find? (Running.waits · ctx) with
    | some r => resumeImpression h r s1
    | none =>
      if starts ∧ ¬ (p.mode = 1 ∧ p.running ≠ []) then firstImpression h p x s1
      else if p.startPending then s1
      else runOccurrence h (newRunning x 0 (s.now - x.start) (p.nextImp + p.running.length) s.now) s1

/-- WINDOW_START (R42): a window of a plate reaches its START on its grid. -/
def execWindowStart (handle : BitVec 16) (window : BitVec 12) (s : State) : Host.Outcome State Fault Refusal :=
  let h := handle.toNat
  let w := window.toNat
  match s.plate h with
  | none => .next s
  | some p =>
    let ws := p.windows.filter (·.window == w)
    match ws with
    | [] => .next s
    | x :: _ =>
      if s.now < x.start ∨ (s.now - x.start) % gridPeriod x.grid ≠ 0 ∨ Tab.get 0 p.seen w = s.now + 1 then .next s
      else
        let s1 := updPlate h (fun p => { p with seen := Tab.set 0 p.seen w (s.now + 1) }) s
        .next (if p.kind = 1 then startRanWindow h p ws x s1 else startComputeWindow h p x s1)

/-! ### Plate commands (R100, R103, R296) -/

/-- ENGINE_COMMAND_RETIRE (R108, R109, R149): the executed head command of an engine retires into its counter, and its block
exponents are written; a context that waits for it to stop goes further (R450). -/
def execEngineCommandRetire (core : BitVec 9) (engine : BitVec 2) (s : State) : Host.Outcome State Fault Refusal :=
  let k := core.toNat
  let c := s.coreAt k
  match c.engine engine.toNat with
  | [] => .next s
  | e :: r =>
    if ¬ e.done ∨ engine.toNat = 3 then .next s
    else
      let s1 := wakeCounters k (s.setCore k ((retireInto (bitsAt e.block.toNat 8 6) e.status e.nan e.ovf (retireBexps e c)).setEngine engine.toNat r))
      .next (match c.resident with
        | some a => settleStop a s1
        | none => s1)

/-- Whether the plate command of a start record has ended on its cores (R100). -/
def commandEnded (s : State) (r : StartRecord) : Bool :=
  (recordCores r).all fun k =>
    let c := s.coreAt k
    (List.range 8).all (fun i => !(s.thread (8 * k + i)).live && (Tab.get [] c.me i).all fun e => e.started && e.todo == []) &&
      c.te0 == [] && c.te1 == [] && c.se == []

/-- The contexts that a start record begins (R99, R100). -/
def recordThreads (r : StartRecord) : List Nat :=
  (List.range r.rows.length).flatMap fun j => ((List.range 8).filter fun i => (r.rows.getD j []).getD i 0xFFFFFFFF != 0xFFFFFFFF).map
    fun i => 8 * (r.first + j) + i

/-- The first fault status of a plate command, in ascending thread number, of the contexts that it began (R103). Log 61 (DESIGN CHOICE). -/
def commandStatus (s : State) (r : StartRecord) : Nat :=
  (recordThreads r).foldl (fun a t => firstStatus a (s.thread t).fault.toNat) stOk

/-- What an occurrence does after a plate command: it ends, is held, or goes on to its next start record (R100, R296, R298,
R450). -/
def afterCommand (h : Nat) (p : Plate) (r : Running) (st : Nat) (s : State) : State :=
  let th := thatchStatus s h r.start
  let bad := decide (th ≠ stOk)
  let status := firstStatus (firstStatus r.status st) th
  let stops := !p.isRan && (s.ctx p.owner).state == 2
  let closed := gateClosed s h r.start r.next
  let r' := if r.next = 0 ∨ bad then { r with status := status, ended := true, begun := true, next := 0 }
    else { r with status := status, record := r.next, next := 0, begun := false, hold := if stops then 2 else if closed then 1 else 0 }
  let s1 := updPlate h (fun p => { p with running := p.running.map fun x => if x = r then r' else x }) s
  if r'.ended ∨ ¬ closed then s1
  else
    let die := match s.schedule h r.start with
      | some x => ((x.entries.find? fun e => e.gate == r.next).map ThatchEntry.die).getD 0
      | none => 0
    thatchCount die 1 (updMem (fun m => { m with evThatchLate := bump m.evThatchLate p.owner }) s1)

/-- PLATE_COMMAND_END (R100): the plate command of a plate's window ends and the next start record begins. -/
def execPlateCommandEnd (handle : BitVec 16) (window : BitVec 12) (s : State) : Host.Outcome State Fault Refusal :=
  let h := handle.toNat
  match s.plate h with
  | none => .next s
  | some p =>
    match p.running.find? fun r => r.window == window.toNat && r.begun && !r.ended with
    | none => .next s
    | some r =>
      let rec_ := readStart p.prog r.record
      let mine := (recordCores rec_).all fun k => match (s.coreAt k).live with
        | some l => l.plate == h && l.start == r.start && l.window == r.window
        | none => false
      if ¬ mine ∨ ¬ commandEnded s rec_ then .next s
      else
        let st := commandStatus s rec_
        let s1 := (recordCores rec_).foldl (fun s k => s.setCore k { s.coreAt k with live := none }) s
        let s2 := resumeGroups (retryHeld (afterCommand h p r st s1))
        .next (if p.isRan then s2 else thatchGo (settleStop p.owner s2))

/-! ### Impressions (R57, R182, R305, R312, R601) -/

/-- The end of a compute or service plate's impression; the pins that it releases let refused fetches be tried again (R298). -/
def endImpression (h : Nat) (r : Running) (s : State) : State :=
  let good := decide (r.status = stOk ∨ r.status = stPoison)
  let s1 := endThatch h r.start s
  let s2 := updPlate h (fun p => { p with
    running := p.running.filter (· != r), nextImp := (p.nextImp + 1) % 2 ^ 64, held := p.held || (!good && p.kind == 2) }) s1
  let s3 := if good then stepBoundary h r.impression (r.impression + 1) s2 else undoJoins h r.impression s2
  let owner := ((s.plate h).map Plate.owner).getD 0
  thatchGo (settleIdle owner (settleStop owner (settleRetiring h s3)))

/-- IMPRESSION_COMPLETE (R601): an impression of a plate whose every start record has ended completes; of a RAN plate it is a
cell's slot. -/
def execImpressionComplete (handle : BitVec 16) (cell : BitVec 9) (impression : BitVec 64) (s : State) :
    Host.Outcome State Fault Refusal :=
  let h := handle.toNat
  let imp := impression.toNat
  match s.plate h with
  | none => .next s
  | some p =>
    if p.kind = 1 then
      let cn := cell.toNat
      let mine := fun (r : Running) => r.cell == cn && r.impression == imp
      let last := (p.windows.filter fun w => w.cell == cn).foldl (fun (a : Nat) w => max a (w.start % (s.cell cn).slotTicks)) 0
      let ready := p.running.any mine && (p.running.filter mine).all (·.ended) &&
        decide (((p.running.find? mine).map Running.slot).getD 0 + last ≤ s.now)
      if ¬ ready then .next s
      else .next (settleRan h s.epochNow (closeSlot cn imp (updPlate h (fun p => { p with running := p.running.filter fun r => !mine r }) s)))
    else
      match p.running.find? fun r => r.impression == imp && r.ended with
      | some r => .next (endImpression h r s)
      | none => .next s

/-! ### Context commands (chapter 16) -/

/-- CTX_SAVE_SET (R446): the area is part of one range of the context, in one set. -/
def execCtxSaveSet (m : Mbx) (s : State) : Host.Outcome State Fault Refusal :=
  runCmd m .pf [(16, 1), (24, 16)] (fun s =>
    let c := mfld m 16 1
    let base := mfld m 24 8
    let len := mfld m 32 8
    let inRange := s.mem.ranges.any fun r => r.ctx == c && decide (r.base ≤ base ∧ base + len ≤ r.base + r.len)
    if len = 0 ∨ ¬ inRange ∨ hatchSet base ≠ hatchSet (base + len - 1) then refuse stBadParam s
    else if (plateList s).any (fun q => q.2.owner == c && q.2.kind == 2 && q.2.state == 2) ∨ ctxHeld s c then refuse stBusy s
    else done (updCtx c (fun x => { x with saveBase := base, saveLen := len }) s)) s

/-- CTX_PREEMPT (R450, R456): the context stops; one with nothing in progress is held at once, but for a ring step that its groups
finish first. -/
def execCtxPreempt (m : Mbx) (s : State) : Host.Outcome State Fault Refusal :=
  runCmdW m .pf [(16, 2)] (fun s =>
    let c := mfld m 16 1
    let mode := mfld m 17 1
    if 1 < mode then (some (stBadParam, Result.none), s)
    else if ctxHeld s c then (some (stBusy, Result.none), s)
    else
      let s0 := groupsPause c (updCtx c (fun x => { x with mode := mode, stopRidge := s.now, resumeAsked := false }) s)
      let s1 := updCtx c (fun x => { x with state := 2, waiter := some (m.input.toNat, m.slot.toNat) }) s0
      (none, settleStop c (if mode = 1 then (residentCores s1 c).foldl (fun s k => stopEngines k s) s1 else s1))) s

/-- The first window in which a context's plates run again. -/
def resumeWindow (s : State) (c : Nat) : Nat :=
  (((plateList s).filterMap fun q =>
    if q.2.owner = c ∧ ¬ q.2.isRan ∧ (q.2.state = 2 ∨ (q.2.state = 1 ∧ q.2.startPending)) then some (firstWindow q.2 s.now)
    else none).min?).getD s.now

/-- CTX_RESUME (R453): the context runs again from its next window; one with nothing held is released at once. -/
def execCtxResume (m : Mbx) (s : State) : Host.Outcome State Fault Refusal :=
  runCmd m .pf [(16, 1)] (fun s =>
    let c := mfld m 16 1
    let x := s.ctx c
    let busy := (plateList s).any fun q => q.2.owner == c && !q.2.isRan && q.2.running != []
    if x.state ≠ 2 ∧ x.state ≠ 3 ∧ x.state ≠ 4 then refuse stBadParam s
    else
      let s1 := if x.state = 4 ∧ ¬ busy then groupsResume c (s.setCtx c { x with state := 0, resumeAsked := false })
        else s.setCtx c { x with resumeAsked := true }
      (stOk, { fields := [(8, 8, resumeWindow s c)], block := none }, s1)) s

/-- `CTX_STATE` of a context. -/
def ctxStateReg (x : Ctx) : Nat := x.state.toNat + 8 * bit x.image + 2 ^ 8 * x.image4k.toNat

/-- CTX_QUERY (R460). -/
def execCtxQuery (m : Mbx) (s : State) : Host.Outcome State Fault Refusal :=
  runCmd m .pf [(16, 1)] (fun s =>
    let x := s.ctx (mfld m 16 1)
    (stOk, { fields := [], block := some (itemsBlock ([ctxStateReg x, if x.image then x.imgCores else 0, if x.image then x.imgWays else 0] ++
      (List.range 6).map fun i => (Tab.get 0 x.cnt i).toNat)) }, s)) s

/-! ### The long image (R451, R452, Table 16.4) -/

/-- The 272 bytes of a thread context in a long image. Log 36 (DESIGN CHOICE). -/
def threadImage (x : Thread) : List Byte :=
  (List.range 32).flatMap (fun r => leBytes 8 (x.reg r).toNat) ++
    record 16 [(0, 4, x.pc.toNat), (4, 4, x.pendingMask.toNat), (8, 1, x.state.toNat), (9, 1, x.outstanding.toNat), (10, 2, x.fault.toNat)]

/-- The progress of a context's partly issued ME descriptor: requests still to issue. Log 36 (DESIGN CHOICE). -/
def meProgress (c : Core) : List Byte :=
  (List.range 8).flatMap fun i =>
    let q := Tab.get [] c.me i
    record 16 [(0, 4, ((q.find? fun e => e.started && e.todo != []).map fun e => e.todo.length).getD 0)]

/-- The record of one core in a long image before its scratchpad (Table 16.4). Log 36 (DESIGN CHOICE). -/
def coreImage (s : State) (c : Core) (threads : Nat → Thread) (k : Nat) : List Byte :=
  let l := c.live
  (List.range 64).flatMap (fun i => leBytes 8 (c.counter i).word.toNat) ++
  (List.range 16).flatMap (fun i => leBytes 4 (Tab.get Bexp.reset c.bexp i).word) ++
  (List.range 8).flatMap (fun i => threadImage (threads (8 * k + i))) ++
  seImage c.se ++
  record 64 [(0, 2, (l.map Live.plate).getD 0), (8, 8, (l.map Live.impression).getD 0), (16, 4, (l.map Live.record).getD 0)] ++
  meProgress c ++ teImage c.te0 ++ teImage c.te1 ++ List.replicate 704 0 ++
  sliceBytes ((List.range 8).flatMap fun i => sliceBytes ((Tab.get [] c.me i).flatMap fun e => leBytes 64 e.block.toNat) 0 512) 0 4096 ++
  queueImage c.te0 ++ queueImage c.te1 ++ queueImage c.se ++ List.replicate 2560 0 ++
  cellsImage s k c.te0 ++ cellsImage s k c.te1

/-- The header of a long image: its cores and scratch ways. Log 36 (DESIGN CHOICE). -/
def imageHeader (cores ways : List Nat) : List Byte :=
  sliceBytes (leBytes 4 cores.length ++ leBytes 4 ways.length ++ (cores ++ ways).flatMap (leBytes 2)) 0 4096

/-- Writes a context's long image into its save area, code words with their poison (R122, R452). Log 36 (DESIGN CHOICE). -/
def writeImage (c : Nat) (s : State) : State :=
  let x := s.ctx c
  let cores := imageCores s c
  let ways := imageWays s c
  let s1 := memWrite x.saveBase (imageHeader cores ways) s
  let s2 := cores.zipIdx.foldl (fun s e =>
    let at_ := x.saveBase + 4096 + 602112 * e.2
    let core := (Tab.get none x.saved e.1).getD Core.reset
    let s' := memWrite at_ (coreImage s core (fun t => Tab.get Thread.reset x.savedThreads t) e.1) s
    (copyWords (scratchBase e.1) (at_ + 0x13000) 0x80000 s').2) s1
  ways.zipIdx.foldl (fun s e =>
    (copyWords (wayBase e.1) (x.saveBase + 4096 + 602112 * cores.length + 524288 * e.2) 0x80000 s).2) s2

/-- IMAGE_SAVE_DONE (R452): the long image of a saving context is written whole, and the context is held. -/
def execImageSaveDone (ctx : BitVec 8) (s : State) : Host.Outcome State Fault Refusal :=
  let c := ctx.toNat
  let x := s.ctx c
  if x.state ≠ 3 ∨ s.now < x.due then .next s
  else
    let d := 4096 + 602112 * x.imgCores + 524288 * x.imgWays
    let s1 := writeImage c s
    .next (endStop c 1 d (ctxCount c 1 (updCtx c (fun x => { x with image := true, image4k := BitVec.ofNat 28 (ceilDiv d 4096) }) s1)))

/-- Puts a saved core back on its core, its scratchpad from the image; the core's own counters go on from where they stand (R164). -/
def giveBack (c k at_ : Nat) (s : State) : State :=
  let x := s.ctx c
  match Tab.get none x.saved k with
  | none => s
  | some core =>
    let s0 := saveResident k s
    let s1 := (copyWords (at_ + 0x13000) (scratchBase k) 0x80000 (memClear (scratchBase k) 0x80000 s0)).2
    let now := s1.coreAt k
    let s2 := s1.setCore k { core with slots := now.slots, satCnt := now.satCnt, singCnt := now.singCnt, nextId := now.nextId,
                                       me := core.me.filter (fun e => decide (e.1 < 8)) ++ now.me.filter (fun e => decide (8 ≤ e.1)),
                                       resident := some c, parked := now.parked }
    (List.range 8).foldl (fun s i => s.setThread (8 * k + i) (Tab.get Thread.reset x.savedThreads (8 * k + i))) s2

/-- IMAGE_RESTORE_DONE (R453): the long image has been read back, and engines and threads resume where they stopped; a halt applied
to the image takes effect at the barriers (R103, R110). -/
def execImageRestoreDone (ctx : BitVec 8) (s : State) : Host.Outcome State Fault Refusal :=
  let c := ctx.toNat
  let x := s.ctx c
  if x.state ≠ 5 ∨ s.now < x.due then .next s
  else
    let cores := imageCores s c
    let s1 := cores.zipIdx.foldl (fun s e => giveBack c e.1 (x.saveBase + 4096 + 602112 * e.2) s) s
    let s2 := (imageWays s c).zipIdx.foldl (fun s e =>
      (copyWords (x.saveBase + 4096 + 602112 * cores.length + 524288 * e.2) (wayBase e.1) 0x80000
        (s.setWay e.1 { s.wayAt e.1 with ctx := c, held := true })).2) s1
    let s3 := updCtx c (fun x => { x with state := 1, image := false, resumeAsked := false, saved := [], savedThreads := [] }) s2
    let s4 := cores.foldl (fun s k => releaseBarriers k s) s3
    .next (retryHeld (groupsResume c (ctxCount c 2 s4)))

end Sys2Proof.Machine
end

