-- ==== Sys2Proof/Machine/Cells.lean ====
section
/-!
DEFINITION. The cell commands of group 0x06 and the changes of a cell's state (chapter 06, R166 to R169, R193 to R195).
-/
namespace Sys2Proof.Machine
open Sys2Proof

/-- Whether the RAN plate in force has windows for a cell slot (R168). -/
def hasWindows (s : State) (cn : Nat) : Bool :=
  match ranNow s with
  | some p => p.windows.any fun w => w.kind == 0 && w.cell == cn
  | none => false

/-- A cell has a state change pending (R168). -/
def Cell.changing (c : Cell) : Bool := c.change.isSome

/-- A cell is ACTIVE or SHADOW, or has a state change pending (R202). -/
def Cell.engaged (c : Cell) : Bool := c.state == 2 || c.state == 3 || c.changing

/-- The bytes of a cell's HARQ area: the entries rounded up to 256 bytes, and the stores (Table 6.10). -/
def Cell.harqLen (c : Cell) : Nat := alignUp (32 * c.bufCount) 256 + 25600 * c.cbsCount

/-- Whether the SSB part of a cell record is in its ranges: byte 38 is the pattern, A to D as 0 to 3 (Table 6.1). Log 37 (DEDUCED). -/
def ssbOk (r : List Byte) : Bool := decide (fld r 38 1 ≤ 3)

/-- Whether the PRACH part of a cell record is in its ranges: one of the eleven formats of Table 6.1, a root index below L_RA − 1, at
most L_RA for N_CS, restricted sets A and B (1 and 2) of long formats only, and occasions that begin in the slot. Log 37 (DEDUCED). -/
def prachOk (r : List Byte) : Bool :=
  let c : Cell := { Cell.reset with record := r }
  decide (c.prachFormat ≤ 10) && decide (fld r 66 2 + 1 < c.prachLen) && decide (c.nCs ≤ c.prachLen) &&
    decide (fld r 70 1 ≤ if c.prachFormat ≤ 3 then 2 else 0) && decide (c.prachFirst < 14)

/-- Whether the fields of a cell record are in their ranges (Tables 6.1, 6.2 and 6.6). Log 37 (DEDUCED). -/
def cellRecordOk (r : List Byte) : Bool :=
  let c : Cell := { Cell.reset with record := r }
  let maxPrb := if c.scs = 0 then 270 else if c.scs = 1 then 273 else 264
  (c.scs == 0 || c.scs == 1 || c.scs == 3) && decide (1 ≤ fld r 2 1) && (cellWeight (fld r 1 1) (fld r 2 1)).isSome &&
    decide (fld r 3 1 ≤ 1) && decide (1 ≤ c.nPrb ∧ c.nPrb ≤ maxPrb) && decide (fld r 6 2 ≤ 1007) &&
    !(c.scs == 3 && fld r 3 1 == 1) && decide (c.slotTicks ≤ c.dlLead) && c.harqBase % 256 == 0 &&
    decide (1 ≤ c.bufCount ∧ c.bufCount ≤ 1024) && decide (1 ≤ c.cbsCount ∧ c.cbsCount ≤ 65536) &&
    decide (c.ulHq < 8192 ∧ c.dlHq < 8192) && ssbOk r && prachOk r && onlyFields r [(0, 96)]

/-- Whether two byte ranges meet. -/
def meets (a n b m : Nat) : Bool := decide (a < b + m ∧ b < a + n)

/-- Whether a cell's HARQ area meets another cell's (R169). -/
def harqClash (s : State) (cn : Nat) (c : Cell) : Bool :=
  s.rad.cells.any fun e => e.1 != cn && e.2.state != 0 && meets c.harqBase c.harqLen e.2.harqBase e.2.harqLen

/-- The sum of the loads of the other cells, in 1/1,024 CE (R166). -/
def otherLoads (s : State) (cn : Nat) : Nat := ((s.rad.cells.filter (·.1 != cn)).map fun e => e.2.load).sum

/-- CELL_CONFIG (R166, R169): a cell that is UNCONFIGURED or CONFIGURED takes its record. -/
def execCellConfig (m : Mbx) (s : State) : Host.Outcome State Fault Refusal :=
  runCmd m .pf [(16, 2), (24, 8)] (fun s =>
    let cn := mfld m 16 2
    let c := s.cell cn
    let r := sliceBytes (mdata m) 0 256
    let c' := { c with record := r, state := 1 }
    if 384 ≤ cn then refuse stBadParam s
    else if c.engaged then refuse stBusy s
    else if ¬ cellRecordOk r ∨ ¬ ranHolds s c'.harqBase c'.harqLen ∨ harqClash s cn c' then refuse stBadParam s
    else if 262144 < otherLoads s cn + c'.load then refuse stCapacity s
    else done (updCell cn (fun _ => c') s)) s

/-- The ridge count at which a change asked for T takes effect (R167): the first slot boundary at or after T and at least one
slot period from now. Log 37 (DEDUCED). -/
def effectAt (c : Cell) (t now : Nat) : Nat := alignUp (max t (now + c.slotTicks)) c.slotTicks

/-- The result of a cell command: the ridge count of effect. Log 37 (DEDUCED). -/
def effectResult (t : Nat) : Result := { fields := [(8, 8, t)], block := none }

/-- Schedules a change of a cell's state (R167), after the checks that every cell command makes. Log 37 (DEDUCED). -/
def scheduleChange (m : Mbx) (from_ : List Nat) (to_ : Nat) (wrong : Nat) (windows : Bool) (also : Cell → Cell) (s : State) :
    Nat × Result × State :=
  let cn := mfld m 16 2
  let c := s.cell cn
  if 384 ≤ cn then refuse stBadParam s
  else if c.changing then refuse stBusy s
  else if ¬ from_.contains c.state then refuse wrong s
  else if windows ∧ ¬ hasWindows s cn then refuse stNotReady s
  else
    let t := effectAt c (mfld m 24 8) s.now
    (stOk, effectResult t, updCell cn (fun c => { also c with change := some (to_, t) }) s)

/-- CELL_START (R167): CONFIGURED to ACTIVE. -/
def execCellStart (m : Mbx) (s : State) : Host.Outcome State Fault Refusal :=
  runCmd m .pf [(16, 2), (24, 8)] (scheduleChange m [1] 2 stNotReady true id) s

/-- CELL_STOP (R167): ACTIVE or SHADOW to CONFIGURED, or to UNCONFIGURED. -/
def execCellStop (m : Mbx) (s : State) : Host.Outcome State Fault Refusal :=
  runCmd m .pf [(16, 3), (24, 8)] (fun s =>
    if 2 ≤ mfld m 18 1 then refuse stBadParam s
    else scheduleChange m [2, 3] (if mfld m 18 1 = 1 then 0 else 1) stBadParam false id s) s

/-- CELL_SHADOW (R167, R193): CONFIGURED to SHADOW, of a named primary. -/
def execCellShadow (m : Mbx) (s : State) : Host.Outcome State Fault Refusal :=
  runCmd m .pf [(16, 4), (24, 8)] (fun s =>
    if 16384 ≤ mfld m 18 2 then refuse stBadParam s
    else scheduleChange m [1] 3 stNotReady true (fun c => { c with primary := mfld m 18 2 }) s) s

/-- CELL_TAKEOVER (R167, R194): SHADOW to ACTIVE. -/
def execCellTakeover (m : Mbx) (s : State) : Host.Outcome State Fault Refusal :=
  runCmd m .pf [(16, 2), (24, 8)] (scheduleChange m [3] 2 stNotReady true id) s

/-- `BB_CELL_STATE` (R197). -/
def cellStateReg (c : Cell) : Nat :=
  2 ^ 48 * c.msgLate.toNat + 2 ^ 32 * c.deliveryDrop.toNat + 2 ^ 16 * c.shadowGap.toNat + c.state

/-- The fronthaul counters of a cell (Table 6.15): each of the eight stream counters, summed over its streams. Log 38 (DEDUCED). -/
def cellFronthaul (s : State) (cn : Nat) : List Nat :=
  (List.range 8).map fun i => satNat 64 0 ((cellStreams s cn).map fun x => (Tab.get 0 s.rad.streamCnt (8 * x + i)).toNat).sum

/-- CELL_QUERY (R168): the state and its counters, those of the pools, the overruns of the RAN plate in force and the cell's fronthaul
counters. -/
def execCellQuery (m : Mbx) (s : State) : Host.Outcome State Fault Refusal :=
  runCmd m .pf [(16, 2)] (fun s =>
    let c := s.cell (mfld m 16 2)
    if 384 ≤ mfld m 16 2 then refuse stBadParam s
    else (stOk, { fields := [], block := some (itemsBlock ([c.state, c.msgLate.toNat, c.deliveryDrop.toNat, c.shadowGap.toNat,
      s.rad.poisonTb.toNat, s.rad.bufClash.toNat, ((ranNow s).map Plate.overruns).getD 0] ++ cellFronthaul s (mfld m 16 2))) }, s)) s

/-- A cell's state changes at a slot boundary (R167); slots that began before it finish in the state they started in. A shadow
begins without mirror records seen, and a cell that the fence stopped sends nothing before it is started again (R195). Log 37 (DEDUCED). -/
def changeCell (cn st t : Nat) (s : State) : State :=
  let s1 := { s with flt := { s.flt with armed := s.flt.armed.filter fun a => a.cell != cn } }
  updCell cn (fun c => { c with
    state := st, change := none, prev := some (c.state, t), muted := c.muted && st != 2 && st != 3,
    lastMseq := if st = 3 then none else c.lastMseq }) s1

/-- CELL_STATE_CHANGE (R167): a requested change takes effect at its slot boundary. -/
def execCellStateChange (cell : BitVec 9) (s : State) : Host.Outcome State Fault Refusal :=
  match (s.cell cell.toNat).change with
  | some (st, t) => .next (if t ≤ s.now then changeCell cell.toNat st t s else s)
  | none => .next s

/-- The fence stops a cell (R195): uplink in flight is discarded, a pending change is cancelled, and an ACTIVE or SHADOW cell stops
transmitting now, a new lease notwithstanding, and moves to CONFIGURED at its next slot boundary. Log 38 (DEDUCED). -/
def fenceCell (cn : Nat) (s : State) : State :=
  updCell cn (fun c =>
    if c.state = 2 ∨ c.state = 3 then
      let next := s.now / c.slotTicks + 1
      { c with held := [], cutoff := next, change := some (1, next * c.slotTicks), muted := true }
    else { c with held := [], change := none }) s

/-- The fence stops every cell (R195). -/
def fenceCells (s : State) : State := (Tab.keys s.rad.cells).foldl (fun s cn => fenceCell cn s) s

end Sys2Proof.Machine
end

