-- ==== Sys2Proof/Machine/Time.lean ====
section
/-!
DEFINITION. The time unit: PTP frames and stamps, the servo and its step, SyncE, time outputs and inputs
(chapter 08).
-/
namespace Sys2Proof.Machine
open Sys2Proof

/-- One event of a time counter (Table 8.8). -/
def timeCount (i : Nat) (s : State) : State := { s with time := { s.time with cnt := bump s.time.cnt i } }

/-- Sets the servo. -/
def State.setServo (s : State) (v : Servo) : State := { s with time := { s.time with servo := v } }

/-- A PTP port's set-up. -/
def State.ptp (s : State) (p : Nat) : PtpPort := Tab.get PtpPort.reset s.time.ports p

/-- Sets a PTP port's set-up. -/
def State.setPtp (s : State) (p : Nat) (v : PtpPort) : State :=
  { s with time := { s.time with ports := Tab.set PtpPort.reset s.time.ports p v } }

/-- A time output. -/
def State.tout (s : State) (n : Nat) : Tout := Tab.get Tout.reset s.time.tout n

/-- Sets a time output. -/
def State.setTout (s : State) (n : Nat) (v : Tout) : State :=
  { s with time := { s.time with tout := Tab.set Tout.reset s.time.tout n v } }

/-- A time input. -/
def State.tin (s : State) (n : Nat) : Tin := Tab.get Tin.reset s.time.tin n

/-- Sets a time input. -/
def State.setTin (s : State) (n : Nat) (v : Tin) : State :=
  { s with time := { s.time with tin := Tab.set Tin.reset s.time.tin n v } }

/-! ### PTP frames -/

/-- Receive and transmit corrections of a port's speed, in 1/256 ridge tick (Table 8.1). -/
def stampCorr (speed : Nat) (tx : Bool) : Int :=
  match speed, tx with
  | 0, false => -55936
  | 0, true => 24640
  | 1, false => -10752
  | 1, true => 7360
  | 2, false => -78208
  | 2, true => 50432
  | _, false => -757056
  | _, true => 489472

/-- A raw stamp, in 1/256 ridge tick, corrected (R228): ridge count and fraction. -/
def correctStamp (raw : Nat) (speed : Nat) (tx : Bool) : Nat × Nat :=
  let c := ((raw : Int) + stampCorr speed tx) % (2 ^ 72 : Nat)
  (c.toNat / 256, c.toNat % 256)

/-- Ridge count and fraction to PTP seconds, nanoseconds and 2^-16 ns (R227). -/
def ridgeToPtp (r frac : Nat) : Nat × Nat × Nat :=
  let n := ((r % secTicks) * 256 + frac) * 3125
  (315964819 + r / secTicks, n / 1572864, n % 1572864 * 65536 / 1572864)

/-- The destination addresses of R225. -/
def ptpDestination (p : PtpPort) (dst : Nat) : Bool :=
  dst == 0x011B19000000 || dst == 0x0180C200000E || dst == p.mac.toNat

/-- A PTP frame received on a port: a receive record to the port's queue, or dropped and counted (R229). -/
def ptpReceive (port speed raw : Nat) (frame : List Byte) (s : State) : State :=
  let p := s.ptp port
  if ¬ p.enable ∨ ¬ ptpDestination p (fldBE frame 0 6) then timeCount 1 s
  else
    let st := correctStamp raw speed false
    let head := record 32 [(0, 1, port), (1, 1, speed), (2, 2, frame.length), (4, 1, st.2), (8, 8, st.1)]
    let body := sliceBytes frame 0 (alignUp frame.length 32)
    let r := postRecord p.rxq { bytes := head ++ body, poison := false, owner := 2, owned := port } s
    timeCount (if r.1 then 0 else 1) r.2

/-- Where the PTP header begins: behind the Ethernet header or an 802.1Q tag (R231). -/
def ptpOffset (f : List Byte) : Nat := if fldBE f 12 2 = 0x8100 then 18 else 14

/-- Whether a frame is a Sync message (R231). -/
def isSync (f : List Byte) : Bool := fld f (ptpOffset f) 1 % 16 == 0

/-- Writes the transmit stamp into originTimestamp and correctionField (R231). -/
def oneStep (f : List Byte) (ridge frac : Nat) : List Byte :=
  let o := ptpOffset f
  let t := ridgeToPtp ridge frac
  let f1 := placeBytes f (o + 34) (beBytes 6 t.1 ++ beBytes 4 t.2.1)
  placeBytes f1 (o + 8) (beBytes 8 ((fldBE f (o + 8) 8 + t.2.2) % 2 ^ 64))

/-- A transmit stamp joins its port's queue of 64, or is lost (R232). -/
def pushStamp (port : Nat) (st : Stamp) (s : State) : State :=
  let q := Tab.get [] s.time.txts port
  if q.length < 64 then { s with time := { s.time with txts := Tab.set [] s.time.txts port (q ++ [st]) } }
  else timeCount 4 { s with time := { s.time with txtsOvf := s.time.txtsOvf ||| BitVec.ofNat 10 (2 ^ port) } }

/-- Sends one entry of a port's PTP transmit queue, prefix and frame (R230 to R232): at most one in any 4,096
ridge ticks. -/
def ptpTransmit (port speed raw : Nat) (s : State) : State :=
  let p := s.ptp port
  let wait : Bool := match p.lastTx with
    | some t => decide (s.now < t + 4096)
    | none => false
  match (s.queue p.txq).descs.find? (fun d => d.op == 4 && decide (d.phase < 2)) with
  | none => s
  | some d =>
    if ¬ p.enable ∨ wait then s
    else
      let b := d.payload
      let len := fld b 4 2
      let flags := fld b 2 1
      let s0 := updDesc p.txq d.index (fun e => { e with phase := 2 }) s
      if len < 60 ∨ 256 < len ∨ b.length ≠ 16 + len ∨ 4 ≤ flags ∨ fld b 3 1 ≠ 0 ∨ fld b 6 10 ≠ 0 then timeCount 3 s0
      else
        let st := correctStamp raw speed true
        let frame := b.drop 16
        let one := bitAt flags 1
        let sync := isSync frame
        let sent := if one ∧ sync then oneStep frame st.1 st.2 else frame
        let s1 := timeCount 2 (emit (.ptpFrame port (wireFrame sent)) (s0.setPtp port { p with lastTx := some s.now }))
        let s2 := if one ∧ ¬ sync then timeCount 5 s1 else s1
        if bitAt flags 0 then
          pushStamp port { ridge := BitVec.ofNat 64 st.1, frac := BitVec.ofNat 8 st.2, id := BitVec.ofNat 16 (fld b 0 2),
                           flag := one && sync } s2
        else s2

/-- MGMT_PTP_FRAME_RX (R229): ports 8 and 9 are MGMT0 and MGMT1; speed 1 to 3 as in Table 8.2. -/
def execMgmtPtpFrameRx (port : BitVec 1) (speed : BitVec 2) (raw : BitVec 72) (frame : List Byte) (s : State) :
    Host.Outcome State Fault Refusal :=
  if fldBE frame 12 2 = 0x88F7 ∨ (fldBE frame 12 2 = 0x8100 ∧ fldBE frame 16 2 = 0x88F7) then
    .next (ptpReceive (8 + port.toNat) (max 1 speed.toNat) raw.toNat frame s)
  else .next s

/-- MGMT_PTP_FRAME_TX (R230 to R232). -/
def execMgmtPtpFrameTx (port : BitVec 1) (speed : BitVec 2) (raw : BitVec 72) (s : State) :
    Host.Outcome State Fault Refusal :=
  .next (ptpTransmit (8 + port.toNat) (max 1 speed.toNat) raw.toNat s)

/-- A read of a 64-bit register with a row of its own: whole, or its low half with the high half latched (R8). -/
def readOut64 (fn off v : Nat) (wide : Bool) (s : State) : State :=
  if wide then emit (.readData fn v 64) s
  else
    emit (.readData fn (v % 2 ^ 32) 32) { s with host := { s.host with
      highLatch := Tab.set 0 s.host.highLatch (2 ^ 28 * fn + off) (BitVec.ofNat 32 (v / 2 ^ 32)) } }

/-- TXTS_HEAD_READ (R233): the oldest stamp is removed and returned, its ridge count latched. -/
def execTxtsHeadRead (port : BitVec 4) (wide : Bool) (s : State) : Host.Outcome State Fault Refusal :=
  let p := port.toNat
  let off := 0x02800100 + 16 * p
  match Tab.get [] s.time.txts p with
  | [] => .next (readOut64 0 off 0 wide s)
  | e :: r =>
    let v := 2 ^ 48 * e.frac.toNat + 2 ^ 32 * e.id.toNat + 2 * bit e.flag + 1
    .next (readOut64 0 off v wide { s with time := { s.time with
      txts := Tab.set [] s.time.txts p r, txtsRidge := Tab.set 0 s.time.txtsRidge p e.ridge } })

/-- TIN_HEAD_READ (R243). -/
def execTinHeadRead (n : BitVec 1) (wide : Bool) (s : State) : Host.Outcome State Fault Refusal :=
  let k := n.toNat
  let off := 0x02800300 + 16 * k
  let t := s.tin k
  match t.fifo with
  | [] => .next (readOut64 0 off 0 wide s)
  | e :: r =>
    let v := 2 ^ 48 * e.frac.toNat + 2 * bit e.flag + 1
    .next (readOut64 0 off v wide (s.setTin k { t with fifo := r, last := e.ridge }))

/-! ### The servo -/

/-- ⌊LIMIT × 2^48 ÷ 10^6⌋ (Table 8.5). -/
def servoBound (limit : Nat) : Int := ((limit * 2 ^ 48 / 1000000 : Nat) : Int)

/-- Limits a value to ±B_L. -/
def servoClamp (limit : Nat) (v : Int) : Int := max (-(servoBound limit)) (min (servoBound limit) v)

/-- Whether a plate or a cell is in force: the step waits (R237). -/
def stepBlockers (s : State) : Bool :=
  s.plates.store.any (fun e =>
    match e.2 with
    | some p => decide (1 ≤ p.state ∧ p.state ≤ 3)
    | none => false) ||
  s.rad.cells.any (fun e => decide (2 ≤ e.2.state))

/-- The first leading edge of an output armed at a ridge count (R242). -/
def firstEdge (start period now : Nat) (mode : Bool) : Option Nat :=
  if now + 256 ≤ start then some start
  else if mode ∧ period ≠ 0 then some (start + ceilDiv (now + 256 - start) period * period)
  else none

/-- An enabled output evaluated against a ridge count: a one-shot START that has passed sets MISSED (R242). Log 21 (DESIGN CHOICE). -/
def evalTout (now : Nat) (t : Tout) : Tout :=
  match firstEdge t.aStart t.aPeriod now t.aMode with
  | some e => { t with next := some e }
  | none => { t with next := none, missed := true }

/-- An instant on the count before a step by n, on the count after it. -/
def afterStep (n : Int) (t : Nat) : Nat := ((t : Int) - n).toNat

/-- An output at a step by n to count r (R241, R242): a pulse in progress keeps its length, and an enabled output is evaluated again. -/
def stepTout (n : Int) (r : Nat) (t : Tout) : Tout :=
  let t1 := { t with pulses := t.pulses.map fun p => (afterStep n p.1, p.2) }
  if t.en then evalTout r t1 else t1

/-- The instants from which the mailbox counts (R520, R522), over a step by n. -/
def stepMailbox (n : Int) (m : Mailbox) : Mailbox :=
  { m with
    rings := Tab.mapEntries MbxRing.reset (fun _ g => { g with headSince := g.headSince.map (afterStep n) }) m.rings,
    mgmtHeadSince := m.mgmtHeadSince.map (afterStep n),
    lastAccept := m.lastAccept.map (fun r => 8 * afterStep n (r / 8) + r % 8) }

/-- The step of the ridge counter by n (R237): the count, the stamps taken before it, the outputs and the servo; spans that run on go on
over the step (the transmit limit of R230, the wait of R240, the 2 ns of R243, request timeouts and hold-backs, the mailbox and the lease's
renewal).
Log 21 (DESIGN CHOICE). -/
def takeStep (n : Int) (s : State) : State :=
  let r := BitVec.ofInt 64 ((s.now : Int) - n)
  let v := s.time.servo
  let v1 := { v with state := 2, n := n, sR := r.toNat, stepDone := true, stepped := true, stepBlocked := false,
                     fresh := false, settled := 0, lastAt := afterStep n v.lastAt, lastCommit := afterStep n v.lastCommit }
  { s with
    clk := { s.clk with ridge := r },
    fab := { s.fab with
      tracks := Tab.mapEntries none (fun _ t => t.map fun t => { t with sentAt := afterStep n t.sentAt }) s.fab.tracks,
      heldBack := Tab.mapEntries 0 (fun _ t => afterStep n t) s.fab.heldBack },
    rad := { s.rad with ports := Tab.mapEntries FhPort.reset (fun _ p => { p with upAt := afterStep n p.upAt }) s.rad.ports },
    mbx := stepMailbox n s.mbx,
    flt := { s.flt with lastRequest := s.flt.lastRequest.map (afterStep n) },
    time := { s.time with
      servo := v1, txts := [],
      ports := Tab.mapEntries PtpPort.reset (fun _ p => { p with lastTx := p.lastTx.map (afterStep n) }) s.time.ports,
      synceGood := s.time.synceGood.map (afterStep n),
      tin := Tab.mapEntries Tin.reset (fun _ t => { t with
        fifo := [], lastEdge := t.lastEdge.map fun e => 8 * afterStep n (e / 8) + e % 8 }) s.time.tin,
      tout := Tab.mapEntries Tout.reset (fun _ t => stepTout n r.toNat t) s.time.tout } }

/-- Sends W if it has changed (R239). -/
def steerIfChanged (old : Int) (s : State) : State :=
  if s.time.servo.w = old then s else emit (.steer (BitVec.ofInt 64 s.time.servo.w)) s

/-- The servo after an accepted commit of x (in 1/256 ridge tick) at AT, before any step (R235, R236). Log 21 (DESIGN CHOICE). -/
def servoCommit (v : Servo) (x : Int) (at_ now : Nat) : Servo :=
  let delta := at_ - v.lastAt
  let newRun := v.fresh || v.state == 0 || v.state == 3 || decide (2 ^ 33 < delta)
  let v0 := { v with lastX := x, lastAt := at_, commitAt := at_, hasLast := true, lastCommit := now, fresh := false,
                     holdNow := v.holdMs }
  if newRun then
    let st : BitVec 2 := if v.state = 0 then 1 else if v.state = 3 then 2 else v.state
    { v0 with state := st, settled := 0 }
  else if v.state = 1 then
    let f := floorDiv ((x - v.lastX) * 2 ^ 40) delta
    let i := servoClamp v.limit (v.i - roundHalfUp f 1)
    let settled := if (x - v.lastX).natAbs ≤ 256 * v.settle then v.settled + 1 else 0
    { v0 with i := i, w := i, settled := settled }
  else
    let q := floorDiv (x * 2 ^ 40) delta
    let i := servoClamp v.limit (v.i - roundHalfUp q v.ki)
    let w := servoClamp v.limit (i - roundHalfUp q v.kp)
    { v0 with i := i, w := max (v.w - 2814749767) (min (v.w + 2814749767) w) }

/-- MEAS_COMMIT (R234 to R237): a write of COMMIT judges the offset, updates the servo and takes the step when
it is due. -/
def execMeasCommit (frac : BitVec 8) (s : State) : Host.Outcome State Fault Refusal :=
  let v := s.time.servo
  let at_ := s.time.measAt.toNat
  let x := s.time.measOfs.toInt * 256 + frac.toNat
  if ¬ v.enable ∨ (v.hasLast ∧ at_ ≤ v.lastAt) ∨ s.now < at_ ∨ at_ < v.sR then .next (timeCount 6 s)
  else
    let alarm := (v.state == 2 || v.state == 3) && decide (256 * v.alarm < x.natAbs)
    let v1 := servoCommit v x at_ s.now
    let v2 := { v1 with phaseAlarm := v1.phaseAlarm || alarm }
    let s1 := s.setServo v2
    let s2 := if alarm then dryEvent 7 (timeCount 7 s1) else s1
    let due := v2.state = 1 ∧ v2.nAcq ≤ v2.settled
    let s3 :=
      if due then
        if stepBlockers s2 then s2.setServo { v2 with stepBlocked := true }
        else takeStep (floorDiv (x + 128) 256) s2
      else s2.setServo { v2 with stepBlocked := false }
    .next (steerIfChanged v.w s3)

/-- HOLDOVER_ENTRY (R236, Table 8.4): no accepted commit for HOLD_MS in LOCKED; a change of HOLD_MS counts from an accepted commit on. -/
def execHoldoverEntry (s : State) : Host.Outcome State Fault Refusal :=
  let v := s.time.servo
  if v.state = 2 ∧ v.lastCommit + v.holdNow * msTicks ≤ s.now then
    .next (steerIfChanged v.w (timeCount 8 (s.setServo { v with state := 3, w := v.i, fresh := true })))
  else .next s

/-- TIME_PORT_CONFIG (R229, R230). -/
def execTimePortConfig (m : Mbx) (s : State) : Host.Outcome State Fault Refusal :=
  runCmd m .pf [(16, 6), (24, 6)] (fun s =>
    let p := mfld m 16 1
    let rx := mfld m 18 2
    let tx := mfld m 20 2
    if 10 ≤ p ∨ 2 ≤ mfld m 17 1 ∨ 8192 ≤ rx ∨ 8192 ≤ tx ∨
        (mfld m 17 1 = 1 ∧ ((s.queue rx).fn ≠ 0 ∨ (s.queue tx).fn ≠ 0)) then refuse stBadParam s
    else done (s.setPtp p { s.ptp p with
      enable := mfld m 17 1 == 1, rxq := rx, txq := tx, mac := BitVec.ofNat 48 (mfld m 24 6) })) s

/-- TIME_SERVO_CONFIG (Table 8.5): FREQ_INIT takes effect at once in FREE. -/
def execTimeServoConfig (m : Mbx) (s : State) : Host.Outcome State Fault Refusal :=
  runCmd m .pf [(16, 9), (28, 2), (32, 8)] (fun s =>
    let v := s.time.servo
    let fi := signed 64 (mfld m 32 8)
    let lim := mfld m 24 1
    if 2 ≤ mfld m 16 1 ∨ 32 ≤ mfld m 17 1 ∨ 32 ≤ mfld m 18 1 ∨ mfld m 19 1 < 8 ∨ mfld m 20 2 = 0 ∨ mfld m 22 2 = 0 ∨
        lim = 0 ∨ 200 < lim ∨ mfld m 28 2 < 100 ∨ 60000 < mfld m 28 2 ∨ servoBound lim < fi ∨ fi < -(servoBound lim) then
      refuse stBadParam s
    else
      let v1 := { v with enable := mfld m 16 1 == 1, kp := mfld m 17 1, ki := mfld m 18 1, nAcq := mfld m 19 1,
                         settle := mfld m 20 2, alarm := mfld m 22 2, limit := lim, holdMs := mfld m 28 2,
                         freqInit := fi, w := if v.state = 0 then fi else v.w }
      done (steerIfChanged v.w (s.setServo v1))) s

/-- TIME_REARM (R238). -/
def execTimeRearm (m : Mbx) (s : State) : Host.Outcome State Fault Refusal :=
  runCmd m .pf [] (fun s =>
    if stepBlockers s then refuse stBusy s
    else done (s.setServo { s.time.servo with state := 0, stepDone := false, stepBlocked := false, settled := 0,
                                              fresh := true })) s

/-- A fronthaul port gives both indications that SyncE needs (R240). -/
def synceOk (s : State) (p : Nat) : Bool :=
  let q := Tab.get FhPort.reset s.rad.ports p
  q.link && q.fecLock

/-- Squelches SYNCE_RCLK, counting a new squelch (R240). -/
def squelch (s : State) : State :=
  if s.time.squelched then s else timeCount 11 { s with time := { s.time with squelched := true } }

/-- The ports lose their indications: a selected source is squelched and must return for 100 ms (R240). -/
def loseSynce (s : State) : State :=
  if s.time.synceSource.isSome then squelch { s with time := { s.time with synceGood := none } } else s

/-- TIME_SYNCE (R240): a source whose indications have stood at 1 for 100 ms drives the output at once; any other squelches it. -/
def execTimeSynce (m : Mbx) (s : State) : Host.Outcome State Fault Refusal :=
  runCmd m .pf [(16, 1)] (fun s =>
    let p := mfld m 16 1
    if 8 ≤ p ∧ p ≠ 0xFF then refuse stBadParam s
    else if p = 0xFF then done (squelch { s with time := { s.time with synceSource := none, synceGood := none } })
    else
      let up := (Tab.get FhPort.reset s.rad.ports p).upAt
      let s1 := { s with time := { s.time with synceSource := some p, synceGood := if synceOk s p then some up else none } }
      if synceOk s p ∧ up + 196608000 ≤ s.now then done { s1 with time := { s1.time with squelched := false } }
      else done (squelch s1)) s

/-- SYNCE_RESUME (R240): 100 ms after both indications returned to 1. -/
def execSynceResume (s : State) : Host.Outcome State Fault Refusal :=
  match s.time.synceSource, s.time.synceGood with
  | some p, some t =>
    if synceOk s p ∧ t + 196608000 ≤ s.now then .next { s with time := { s.time with squelched := false } } else .next s
  | _, _ => .next s

/-- TIME_QUERY (R597). -/
def execTimeQuery (m : Mbx) (s : State) : Host.Outcome State Fault Refusal :=
  runCmd m .pf [] (fun s =>
    let v := s.time.servo
    (stOk, { fields := [], block := some (itemsBlock [v.state.toNat, unsigned 64 v.w, unsigned 64 v.i,
      unsigned 64 v.lastX, v.commitAt, v.settled, unsigned 64 v.n, v.sR]) }, s)) s

/-! ### Time outputs and inputs -/

/-- What a write of `TOUT_CTRL` does to an output (R241, R242): EN written from 0 to 1 takes the settings as they stand, unless
they are out of range; while EN is 1 a write is held until the next such write; EN written to 0 stops new pulses. Log 21 (DESIGN CHOICE), 71 (DEDUCED). -/
def toutWrite (now : Nat) (t : Tout) (c : Nat) : Tout :=
  let t1 := { t with width := BitVec.ofNat 32 (c / 2 ^ 32), missed := t.missed && !bitAt c 7, gate := bitAt c 4,
                     pol := bitAt c 3, mode := bitAt c 2 }
  if ¬ bitAt c 0 then { t1 with en := false, next := none }
  else if t.en ∨ t1.period.toNat < 512 ∨ t1.width = 0 ∨ (t1.mode ∧ t1.period.toNat ≤ t1.width.toNat) then t1
  else
    evalTout now { t1 with
      en := true, aWidth := t1.width.toNat, aGate := t1.gate, aMode := t1.mode, aPol := t1.pol,
      aStart := t1.start.toNat, aPeriod := t1.period.toNat }

/-- TOUT_ENABLE (R241, R242): a write of `TOUT_CTRL`. -/
def execToutEnable (n : BitVec 2) (ctrl : BitVec 64) (s : State) : Host.Outcome State Fault Refusal :=
  .next (s.setTout n.toNat (toutWrite s.now (s.tout n.toNat) ctrl.toNat))

/-- TOUT_PULSE (R241): at its scheduled ridge count an output drives a pulse, unless its gate suppresses it; a pulse in progress
completes. -/
def execToutPulse (n : BitVec 2) (s : State) : Host.Outcome State Fault Refusal :=
  let k := n.toNat
  let t := s.tout k
  match t.next with
  | none => .next s
  | some e =>
    if ¬ t.en ∨ s.now < e then .next s
    else
      let t1 := { t with next := if t.aMode then some (e + t.aPeriod) else none }
      if t.aGate ∧ ¬ s.time.servo.stepDone then .next (s.setTout k t1)
      else .next (s.setTout k { t1 with pulses := (t.pulses.filter fun p => decide (s.now < p.1)) ++ [(e + t.aWidth, t.aPol)] })

/-- The level of a time output's pin (R241, R242): active as its oldest pulse in progress is, or inactive. -/
def toutLevel (t : Tout) (now : Nat) : Bool :=
  match t.pulses.find? fun p => decide (now < p.1) with
  | some p => !p.2
  | none => t.aPol

/-- Stamps an edge of a time input (R243): only selected edges, and not one less than 2 ns after the last. -/
def stampEdge (k : Nat) (falling : Bool) (s : State) : State :=
  let t := s.tin k
  let sel := if falling then bitAt t.edges.toNat 1 else bitAt t.edges.toNat 0
  let close : Bool := match t.lastEdge with
    | some e => decide (s.root < e + 32)
    | none => false
  if ¬ sel ∨ close then s
  else
    let st : Stamp := { ridge := s.clk.ridge, frac := BitVec.ofNat 8 (32 * s.clk.phi.toNat), id := 0, flag := falling }
    let t1 := { t with lastEdge := some s.root }
    if t.fifo.length < 16 then s.setTin k { t1 with fifo := t.fifo ++ [st] }
    else timeCount 9 (s.setTin k { t1 with ovf := true })

/-- TIN_EDGE (R243, R482): a selected edge is stamped and counted or dropped, and it is a drypoint source. -/
def execTinEdge (n : BitVec 1) (falling : Bool) (s : State) : Host.Outcome State Fault Refusal :=
  let s1 := stampEdge n.toNat falling s
  .next (if (s1.tin n.toNat).lastEdge = (s.tin n.toNat).lastEdge then s1
    else dryTriggerAt (1 + n.toNat) s.now s1)

end Sys2Proof.Machine
end

