-- ==== Sys2Proof/Machine/FhOps.lean ====
section
/-!
DEFINITION. Fronthaul shared operations (chapter 07): stream and timing records, compression (R211, R216), frame formats
(R200, R204, R205), landing (R215 to R218) and mirror records (R220).
-/
namespace Sys2Proof.Machine
open Sys2Proof

/-! ### The stream and timing records (Tables 7.2 and 7.3) -/

def Stream.port (x : Stream) : Nat := fld x.record 0 1
def Stream.dir (x : Stream) : Nat := fld x.record 1 1
def Stream.cell (x : Stream) : Nat := fld x.record 2 2
def Stream.eaxc (x : Stream) : Nat := fld x.record 4 2
def Stream.vlan (x : Stream) : Nat := fld x.record 6 2
def Stream.vid (x : Stream) : Nat := x.vlan % 4096
def Stream.mac (x : Stream) : Nat := fld x.record 8 6
def Stream.ant (x : Stream) : Nat := fld x.record 14 1
def Stream.comp (x : Stream) : Nat := fld x.record 15 1
def Stream.dyn (x : Stream) : Bool := bitAt x.comp 3
def Stream.inShift (x : Stream) : Nat := fld x.record 16 1
def Stream.flag (x : Stream) (i : Nat) : Bool := bitAt (fld x.record 17 1) i
def Stream.core (x : Stream) : Nat := fld x.record 18 2
def Stream.landBase (x : Stream) : Nat := fld x.record 20 3
def Stream.landSyms (x : Stream) : Nat := fld x.record 23 1
def Stream.landCnt (x : Stream) : Nat := fld x.record 24 1
def Stream.prachBase (x : Stream) : Nat := fld x.record 32 8
/-- Bits of a mantissa by COMP [2:0]. -/
def compWidth (comp : Nat) : Nat := [16, 9, 12, 14].getD (comp % 8) 16

def Cell.ulRxMin (c : Cell) : Int := signed 32 (fld c.timing 0 4)
def Cell.ulRxMax (c : Cell) : Nat := fld c.timing 4 4
def Cell.txWin (c : Cell) : Nat := fld c.timing 8 4
def Cell.cpDlAdv (c : Cell) : Nat := fld c.timing 12 4
def Cell.cpUlAdv (c : Cell) : Nat := fld c.timing 16 4
def Cell.prachRxMax (c : Cell) : Nat := fld c.timing 20 4
def Cell.mirrorDelay (c : Cell) : Nat := fld c.timing 24 4

/-- PRBs that a PRACH section carries at most: L_RA 839 or 139 samples. Log 44 (PRESUMED). -/
def Cell.prachPrbs (c : Cell) : Nat := if c.prachFormat ≤ 3 then 70 else 12

/-- Symbols of a short PRACH occasion by format (38.211 Table 6.3.3.1-2). Log 44 (PRESUMED). -/
def Cell.prachSymbols (c : Cell) : Nat := [2, 4, 6, 2, 12, 2, 6].getD (c.prachFormat - 4) 2

/-- Preamble repetitions of an occasion by format, one symbol of samples each (38.211 Tables 6.3.3.1-1 and 6.3.3.1-2). Log 44 (PRESUMED). -/
def Cell.prachReps (c : Cell) : Nat := [1, 2, 4, 4, 2, 4, 6, 2, 12, 1, 4].getD c.prachFormat 1

/-- Whether a symbol of a slot carries samples of occasion i. Log 44 (PRESUMED). -/
def Cell.inOccasion (c : Cell) (i k : Nat) : Bool :=
  let first := c.prachFirst + if c.prachFormat ≤ 3 then 0 else i * c.prachSymbols
  decide (first ≤ k ∧ k < first + c.prachReps)

/-- Whether a symbol of a slot carries samples of an occasion (R218). -/
def Cell.prachUses (c : Cell) (k : Nat) : Bool := (List.range 14).any fun i => c.inOccasion i k

/-- The start of the PRACH occasion that holds the symbol at an air time: short occasions follow one another from the record's first
symbol on, a long one begins there. Log 44 (PRESUMED). -/
def occasionStart (c : Cell) (air : Nat) : Nat :=
  let k := (c.symbolAt air).getD 0
  let n := if c.prachFormat ≤ 3 then 14 else c.prachSymbols
  if k < c.prachFirst then air
  else air / c.slotTicks * c.slotTicks + symbolStart c.slotTicks (c.prachFirst + (k - c.prachFirst) / n * n)

/-- Length of a PRACH occasion in ridge ticks, by format (38.211 Tables 6.3.3.1-1 and 6.3.3.1-2), the short ones scaled by the
numerology. Log 44 (PRESUMED). -/
def prachTicks (c : Cell) : Nat :=
  match c.prachFormat with
  | 0 => 64 * (24576 + 3168)
  | 1 => 64 * (2 * 24576 + 21024)
  | 2 => 64 * (4 * 24576 + 4688)
  | 3 => 64 * (4 * 6144 + 3168)
  | f => 64 * [2 * 2048 + 288, 4 * 2048 + 576, 6 * 2048 + 864, 2 * 2048 + 216, 12 * 2048 + 936, 2048 + 1240,
      4 * 2048 + 2048].getD (f - 4) 0 / 2 ^ c.scs

/-- The filterIndex of a cell's PRACH sections (Table 7.1). Log 44 (PRESUMED). -/
def prachFilter (c : Cell) : Nat := if c.prachFormat ≤ 2 then 1 else if c.prachFormat = 3 then 2 else 3

/-- The end E on air of what a section covers: its symbol, or its PRACH occasion (R213). -/
def airEnd (c : Cell) (air : Nat) (prach : Bool) : Nat := if prach then occasionStart c air + prachTicks c else c.symbolEnd air

/-- The last arrival that is in time (R213). -/
def lastArrival (c : Cell) (air : Nat) (prach : Bool) : Nat := airEnd c air prach + if prach then c.prachRxMax else c.ulRxMax

/-! ### Compression (R211, R216) -/

/-- Bytes of a PRB with mantissas of w bits (Table 7.6). -/
def prbBytes (w : Nat) : Nat := if w = 16 then 48 else 1 + 3 * w

/-- n fields of w bits, the most significant first. -/
def unpackBits (w n : Nat) (bs : List Byte) : List Int :=
  let v := ofBE bs
  (List.range n).map fun i => signed w (bitsAt v (8 * bs.length - w * (i + 1)) w)

/-- Fields of w bits packed the most significant first into whole bytes. -/
def packBits (w : Nat) (xs : List Int) : List Byte :=
  beBytes (w * xs.length / 8) (xs.foldl (fun v x => v * 2 ^ w + unsigned w x) 0)

/-- A PRB of 24 components compressed (R211). -/
def compressPrb (w : Nat) (xs : List Int) : List Byte :=
  if w = 16 then packBits 16 xs
  else
    let fits := fun (e : Nat) => xs.all fun x => clampSigned w (roundHalfUp x e) == roundHalfUp x e
    let e := ((List.range 16).find? fits).getD 15
    BitVec.ofNat 8 e :: packBits w (xs.map fun x => roundHalfUp x e)

/-- The components of a PRB as it is landed, and how many were saturated (R216). -/
def decompressPrb (w shift : Nat) (bs : List Byte) : List Int × Nat :=
  let e := if w = 16 then 0 else (bs.headD 0).toNat % 16
  let raw := (unpackBits w 24 (if w = 16 then bs else bs.drop 1)).map fun m => roundHalfUp (m * 2 ^ e) shift
  (raw.map (clampSigned 16), (raw.filter fun v => clampSigned 16 v != v).length)

/-- Components as CI16 bytes (Table 5.1). -/
def componentBytes (xs : List Int) : List Byte := xs.flatMap fun x => leBytes 2 (unsigned 16 x)

/-- CI16 bytes as components. -/
def bytesComponents (bs : List Byte) : List Int := (chunks 2 bs).map fun b => signed 16 (ofLE b)

/-! ### Landing (R215 to R218) -/

/-- Bytes of a symbol buffer. -/
def symbolBytes (c : Cell) : Nat := alignUp (48 * c.nPrb) 64

/-- Where a symbol of a stream lands: its buffer of the ring, or its place in the PRACH landing area. Log 44 (PRESUMED). -/
def landAddress (c : Cell) (x : Stream) (air : Nat) (prach : Bool) : Nat :=
  let k := (c.symbolAt air).getD 0
  if prach then x.prachBase + 48 * c.prachPrbs * k
  else scratchBase x.core + 16 * x.landBase + (air / c.slotTicks * 14 + k) % max 1 x.landSyms * symbolBytes c

/-- The symbol buffer of a stream, if its window has opened. -/
def Stream.symbol (x : Stream) (air : Nat) (prach : Bool) : Option SymbolBuf :=
  x.symbols.find? fun b => b.air == air && b.prach == prach

/-- Opens a symbol of a stream: its buffer is zeroed (R215), and a PRACH symbol's samples are (R218). -/
def openSymbol (n air : Nat) (prach : Bool) (s : State) : State :=
  let x := s.stream n
  let c := s.cell x.cell
  if (x.symbol air prach).isSome then s
  else
    let s1 := memClear (landAddress c x air prach) (if prach then 48 * c.prachPrbs else symbolBytes c) s
    updStream n (fun x => { x with symbols := x.symbols ++ [{ air := air, prach := prach, prbs := [], closed := false }] }) s1

/-- Whether a PRB range has a PRB that has landed. -/
def SymbolBuf.overlaps (b : SymbolBuf) (first n : Nat) : Bool := b.prbs.any fun r => meets r.1 r.2 first n

/-- PRBs of a symbol that landed in no accepted section. -/
def SymbolBuf.missing (b : SymbolBuf) (nPrb : Nat) : Nat := nPrb - (b.prbs.map Prod.snd).sum

/-- A section of a U-plane message. -/
structure Section where
  /-- Symbols after the one that the application header names (symInc). -/
  inc : Nat
  first : Nat
  count : Nat
  width : Nat
  body : List Byte
  /-- The section as received, header and all. -/
  raw : List Byte
deriving DecidableEq, Repr

/-- Lands a section: its REs are decompressed into the symbol's buffer (R215, R216, R218). -/
def landSection (n air : Nat) (prach : Bool) (x : Section) (s : State) : State :=
  let s1 := openSymbol n air prach s
  let r := s1.stream n
  let c := s1.cell r.cell
  let prbs := (chunks (prbBytes x.width) x.body).map (decompressPrb x.width r.inShift)
  let s2 := memWriteFor 256 (landAddress c r air prach + 48 * x.first) (prbs.flatMap fun p => componentBytes p.1) s1
  let s3 := portCountBy r.port 12 (prbs.map Prod.snd).sum s2
  streamCount n 0 (updStream n (fun r => { r with symbols := r.symbols.map fun b =>
    if b.air == air && b.prach == prach then { b with prbs := b.prbs ++ [(x.first, x.count)] } else b }) s3)

/-! ### Message formats (R200, R204, R205, Table 7.1) -/

/-- The eCPRI common header with its identifier and sequence words: 8 bytes. Log 42 (PRESUMED). -/
def ecpriHeader (type len eaxc seq : Nat) : List Byte :=
  [0x10, BitVec.ofNat 8 type] ++ beBytes 2 len ++ beBytes 2 eaxc ++ [BitVec.ofNat 8 seq, 0x80]

/-- frameId, subframeId, slotId and symbolId of an air time (R204): 3 bytes. -/
def airIds (c : Cell) (air : Nat) : List Byte :=
  let sub := air % epochTicks / msTicks
  let slot := air % msTicks / c.slotTicks
  BitVec.ofNat 8 (air / epochTicks) :: beBytes 2 (sub * 4096 + slot * 64 + (c.symbolAt air).getD 0)

/-- The air time that identifiers name nearest an arrival, within 128 epochs (R213). Log 42 (PRESUMED). -/
def airOf (c : Cell) (arrival frame ids : Nat) : Nat :=
  let e := arrival / epochTicks
  let off := ids / 4096 * msTicks + ids / 64 % 64 * c.slotTicks + symbolStart c.slotTicks (ids % 64)
  let back := (e % 256 + 256 - frame) % 256
  let t1 := (e - back) * epochTicks + off
  let t2 := (e + 256 - back) * epochTicks + off
  let dist := fun (t : Nat) => (t - arrival) + (arrival - t)
  if e < back ∨ dist t2 < dist t1 then t2 else t1

/-- Whether identifiers are in range for a numerology. -/
def idsOk (c : Cell) (ids : Nat) : Bool :=
  decide (ids / 4096 < 10) && decide (ids / 64 % 64 * c.slotTicks < msTicks) && decide (ids % 64 < 14)

/-- The width that a dynamic compression header names (Table 7.1). -/
def dynWidth (h : Nat) : Option Nat :=
  match h with
  | 0x00 => some 16
  | 0x91 => some 9
  | 0xC1 => some 12
  | 0xE1 => some 14
  | _ => none

/-- The compression header of a width. -/
def compHeader (w : Nat) : Nat := if w = 16 then 0 else 16 * w + 1

/-- Reads the sections of a U-plane message, at most n of them; `false` if one breaks Table 7.1. Log 42 (PRESUMED). -/
def readSections (x : Stream) (nPrb : Nat) : Nat → Nat → List Byte → List Section × Bool
  | 0, _, _ => ([], true)
  | _ + 1, _, [] => ([], true)
  | n + 1, inc0, bs =>
    let h := fldBE bs 0 4
    let inc := inc0 + bitsAt h 18 1
    let first := bitsAt h 8 10
    let count := if h % 256 = 0 then nPrb - first else h % 256
    let head := if x.dyn then 6 else 4
    match (if x.dyn then dynWidth (fld bs 4 1) else some (compWidth x.comp)) with
    | none => ([], false)
    | some w =>
      let len := head + count * prbBytes w
      if bs.length < len ∨ bitAt h 19 ∨ nPrb < first + count ∨ count = 0 ∨ (x.dyn ∧ fld bs 5 1 ≠ 0) then ([], false)
      else
        let r := readSections x nPrb n inc (bs.drop len)
        ({ inc := inc, first := first, count := count, width := w, body := (bs.take len).drop head, raw := bs.take len } :: r.1, r.2)

/-- A message that carries one received section: the common header, the application header and the section; its symbolId counts the
symInc of the sections before it. Log 45 (DESIGN CHOICE). -/
def oneSection (msg : List Byte) (x : Section) : List Byte :=
  let ids := fldBE msg 10 2 + (x.inc - bitsAt (fldBE x.raw 0 4) 18 1)
  placeBytes (placeBytes (msg.take 12) 2 (beBytes 2 (8 + x.raw.length))) 10 (beBytes 2 ids) ++ x.raw

/-! ### Control packets of the lease (R494, R503) -/

/-- Sends a packet of VC0 with one payload word: an epoch in bytes 0-1 and a ridge count in bytes 8-15. Log 42 (PRESUMED). -/
def sendControl (opc dst e x : Nat) (s : State) : State :=
  let w0 := ({ opc := opc, vc := 0, rsp := false, hops := 0, dst := dst, src := s.fab.hall, epoch := s.flt.epoch.toNat, tag := 0,
               gen := 0, len := 16, status := 0 } : Hdr).word
  let p : Pkt := { vc := 0, rsp := false, words := [w0, codeWord 0 0, codeWord (BitVec.ofNat 128 (e + x * 2 ^ 64)) 0], tag := none,
                   owner := none }
  (routePacket dst 0 p none s).2

/-- The device that holds a primary-role cell's mirror ring (R219). -/
def shadowOf (s : State) (c : Cell) : Nat := targetHall s (readFabAddr c.ring)

/-- The devices named as shadow by primary-role cells. -/
def shadows (s : State) : List Nat :=
  ((s.rad.cells.filter fun e => e.2.role == 1).map fun e => shadowOf s e.2).eraseDups

/-- LEASE_ECHO to a shadow device (R503): E and X. -/
def sendEcho (dst : Nat) (s : State) : State :=
  if s.flt.leased then sendControl 0x31 dst s.flt.epoch.toNat s.flt.expiry.toNat s else s

/-! ### Mirror records (R220, R221) -/

/-- The STREAM of the record that carries a slot's metadata (R193). Log 45 (DESIGN CHOICE). -/
abbrev metaStream : Nat := 0xFFFF

/-- Queues bytes for a cell's mirror ring in pieces of at most one 256-byte granule, none across the ring's end. Log 45 (DESIGN CHOICE). -/
def queueMirror (cn : Nat) : Nat → List Byte → State → State
  | 0, _, s => s
  | _ + 1, [], s => s
  | k + 1, bs, s =>
    let c := s.cell cn
    let size := 2 ^ c.ringLog
    let a := c.ring + c.ringAt % size
    let n := min (min bs.length (256 - a % 256)) (size - c.ringAt % size)
    queueMirror cn k (bs.drop n) (updCell cn (fun c => { c with ringAt := (c.ringAt + n) % size })
      (updRad (fun r => { r with mirrorOut := r.mirrorOut ++ [(cn, a, bs.take n)] }) s))

/-- Sends bytes to a cell's mirror ring on VC1, behind the pieces that wait (R220). -/
def mirrorPieces (cn k : Nat) (bs : List Byte) (s : State) : State :=
  let s1 := queueMirror cn k bs s
  pumpMirror s1.rad.mirrorOut.length s1

/-- A mirror record of a cell: its 32-byte header and content, padded to 32 bytes. Log 45 (DESIGN CHOICE). -/
def mirrorRecord (stream cn mseq arrival imp : Nat) (content : List Byte) : List Byte :=
  let n := alignUp content.length 32
  record 32 [(0, 2, stream), (2, 2, cn), (4, 2, content.length), (6, 2, mseq), (8, 8, arrival), (16, 8, imp)] ++
    sliceBytes content 0 n

/-- A primary sends a copy of an accepted section (R220). -/
def sendMirror (n arrival imp : Nat) (content : List Byte) (s : State) : State :=
  let cn := (s.stream n).cell
  let c := s.cell cn
  if c.role ≠ 1 ∨ ¬ (s.stream n).flag 0 ∨ s.flt.fenced then s
  else
    let r := mirrorRecord n cn c.mseq.toNat arrival imp content
    mirrorPieces cn (r.length + 1) r (updCell cn (fun c => { c with
      mseq := c.mseq + 1, sent := Tab.upd 0 c.sent imp (· + 1) }) s)

/-- The HARQ metadata of a slot (R193, R220): the count of the mirror records sent, and the uplink part of the slot message as it
was received. Log 45 (DESIGN CHOICE). -/
def sendMeta (cn imp : Nat) (s : State) : State :=
  let c := s.cell cn
  let body := match c.msg imp with
    | some m => uplinkPart (landedBytes s m.place)
    | none => record 64 [(0, 8, imp), (8, 2, cn), (16, 4, 64)]
  let r := mirrorRecord metaStream cn 0 s.now imp (leBytes 8 (Tab.get 0 c.sent imp) ++ body)
  if c.role ≠ 1 ∨ s.flt.fenced then s else mirrorPieces cn (r.length + 1) r s

/-- Whether the mirror records of a slot are complete (R221). -/
def mirrorComplete (c : Cell) (imp : Nat) : Bool :=
  match c.metas.find? (·.imp == imp) with
  | some m => m.count == Tab.get 0 c.landed imp && !c.gaps.contains imp
  | none => false

/-- When a shadow gives up a slot's mirror records (R221). Log 45 (DESIGN CHOICE). -/
def mirrorLimit (c : Cell) (imp : Nat) : Nat := (imp + 1) * c.slotTicks + c.ulRxMax + c.mirrorDelay

/-! ### Transmit queues (R206 to R210, R222, R223) -/

/-- One frame of an egress job has left or been dropped with a status: the job retires with its last one (R209). -/
def frameGone (job status : Nat) (s : State) : State :=
  match s.rad.egress.find? (·.id == job) with
  | none => s
  | some j =>
    let j' := { j with left := j.left - 1, status := firstStatus j.status status }
    if j'.left = 0 then
      retireFor j.who j.core j.cnt j'.status (updRad (fun r => { r with egress := r.egress.filter (·.id != job) }) s)
    else updRad (fun r => { r with egress := r.egress.map fun x => if x.id = job then j' else x }) s

/-- Takes a frame out of its port's queue. -/
def takeFrameOut (p : Nat) (f : TxFrame) (s : State) : State := updFhPort p (fun q => { q with frames := q.frames.erase f }) s

/-- The fence drops the queued eCPRI frames of some cells (R222). -/
def fenceFrames (mine : Nat → Bool) (s : State) : State :=
  (List.range 8).foldl (fun s p =>
    (s.fhPort p).frames.foldl (fun s f =>
      if mine (s.stream f.stream).cell then frameGone f.job stDeadline (portCount p 9 (takeFrameOut p f s)) else s) s) s

/-- The fence drops every queued eCPRI frame, and mirror records stop with the rest of VC1 (R222). -/
def fenceFronthaul (s : State) : State := updRad (fun r => { r with mirrorOut := [] }) (fenceFrames (fun _ => true) s)

end Sys2Proof.Machine
end

