-- ==== Sys2Proof/Machine/Coding.lean ====
section
/-!
DEFINITION. The channel codes of baseband processing (chapter 06) over the tables of 3GPP TS 38.211 and 38.212 that the spec
names: segmentation, rate matching, the layered decoder of R178, the encoder of R183, scrambling, modulation, and the search of
R187 to R189.
-/
namespace Sys2Proof.Machine
open Sys2Proof

/-! ### Bits, CRCs and the Gold sequence -/

/-- Bits of bytes, the most significant of each first. -/
def bytesBits (bs : List Byte) : List Bool := bs.flatMap bitsMSB

/-- Bytes of bits, the last one padded with zeros. -/
def bitsBytes (l : List Bool) : List Byte :=
  (chunks 8 l).map fun c => BitVec.ofNat 8 ((c ++ List.replicate (8 - c.length) false).foldl (fun v b => 2 * v + bit b) 0)

/-- The low n bits of a number, the most significant first. -/
def natBits (n v : Nat) : List Bool := (List.range n).map fun i => bitAt v (n - 1 - i)

/-- A CRC of 38.212 clause 5.1: its length and polynomial. -/
structure Crc where
  len : Nat
  poly : Nat
deriving DecidableEq, Repr

def crc24A : Crc := ⟨24, 0x864CFB⟩
def crc24B : Crc := ⟨24, 0x800063⟩
def crc16 : Crc := ⟨16, 0x1021⟩
def crc11 : Crc := ⟨11, 0x621⟩
def crc6 : Crc := ⟨6, 0x21⟩

/-- The parity bits of a CRC. -/
def Crc.of (c : Crc) (l : List Bool) : List Bool := natBits c.len (crcBits c.len c.poly 0 l)

/-- Whether bits with their CRC behind them check. -/
def Crc.ok (c : Crc) (l : List Bool) : Bool := crcBits c.len c.poly 0 l == 0

/-- The transport-block CRC: CRC24A above 3,824 bits, else CRC16 (38.212 clause 7.2.1). -/
def tbCrc (a : Nat) : Crc := if 3824 < a then crc24A else crc16

/-- n bits from position k of the sequence c of 38.211 clause 5.2.1. Log 39 (PRESUMED). -/
def goldBits (cInit k n : Nat) : List Bool :=
  let step := fun (s : Nat × Nat) =>
    (s.1 / 2 + 2 ^ 30 * ((bitsAt s.1 3 1 + s.1) % 2),
     s.2 / 2 + 2 ^ 30 * ((bitsAt s.2 3 1 + bitsAt s.2 2 1 + bitsAt s.2 1 1 + s.2) % 2))
  let start := (List.range (1600 + k)).foldl (fun s _ => step s) (1, cInit % 2 ^ 31)
  ((List.range n).foldl (fun (p : List Bool × (Nat × Nat)) _ => (((p.2.1 + p.2.2) % 2 == 1) :: p.1, step p.2)) ([], start)).1.reverse

/-! ### Segmentation and rate matching (38.212 clauses 5.2.2 and 5.4.2) -/

/-- The lifting sizes of Table 5.3.2-1, rising, with the set index of each. -/
def liftSizes : List (Nat × Nat) :=
  let sets := [(2, 7), (3, 7), (5, 6), (7, 5), (9, 5), (11, 5), (13, 4), (15, 4)]
  let all := sets.zipIdx.flatMap fun (e : (Nat × Nat) × Nat) => (List.range (e.1.2 + 1)).map fun j => (e.1.1 * 2 ^ j, e.2)
  (List.range 385).filterMap fun z => all.find? fun e => e.1 == z

/-- How a transport block is cut: C blocks of K' bits (K with filler) of lifting size Z_c. -/
structure Cut where
  bg2 : Bool
  c : Nat
  kPrime : Nat
  k : Nat
  zc : Nat
deriving DecidableEq, Repr

/-- The segmentation of a transport block of A bits; none where its blocks are not equal or no lifting size fits. Log 39 (PRESUMED). -/
def segment (bg2 : Bool) (a : Nat) : Option Cut :=
  let b := a + (tbCrc a).len
  let kcb := if bg2 then 3840 else 8448
  let c := if b ≤ kcb then 1 else ceilDiv b (kcb - 24)
  let b' := if c = 1 then b else b + 24 * c
  let kb := if ¬ bg2 then 22 else if 640 < b then 10 else if 560 < b then 9 else if 192 < b then 8 else 6
  if a = 0 ∨ b' % c ≠ 0 then none
  else (liftSizes.find? fun e => decide (b' / c ≤ kb * e.1)).map fun e =>
    { bg2 := bg2, c := c, kPrime := b' / c, k := (if bg2 then 10 else 22) * e.1, zc := e.1 }

/-- Columns of the base graph, and rows. -/
def Cut.cols (u : Cut) : Nat := if u.bg2 then 52 else 68
def Cut.rows (u : Cut) : Nat := if u.bg2 then 42 else 46
/-- Bits of the whole circular buffer. -/
def Cut.n (u : Cut) : Nat := (u.cols - 2) * u.zc
/-- N_cb under limited buffer rate matching (clause 5.4.2.1); TBS_LBRM 0 disables it. -/
def Cut.ncb (u : Cut) (lbrm : Nat) : Nat := if lbrm = 0 then u.n else min u.n (3 * lbrm / (2 * u.c))
/-- k0 of a redundancy version (Table 5.4.2.1-2). -/
def Cut.k0 (u : Cut) (rv ncb : Nat) : Nat :=
  let f := (if u.bg2 then [0, 13, 25, 43] else [0, 17, 33, 56]).getD rv 0
  f * ncb / u.n * u.zc
/-- Filler positions of the circular buffer. -/
def Cut.filler (u : Cut) (p : Nat) : Bool := decide (u.kPrime ≤ p + 2 * u.zc ∧ p + 2 * u.zc < u.k)
/-- Set index of the lifting size, and its place in Table 5.3.2-1. -/
def Cut.iLS (u : Cut) : Nat := ((liftSizes.find? fun e => e.1 == u.zc).map Prod.snd).getD 0
def Cut.zIndex (u : Cut) : Nat := liftSizes.findIdx fun e => e.1 == u.zc

/-- Coded bits of block r among C' blocks of G bits (clause 5.4.2.1). -/
def codedBits (g nl qm c' r : Nat) : Nat :=
  let s := g / (nl * qm)
  if r + s % c' < c' then nl * qm * (s / c') else nl * qm * ceilDiv s c'

/-- Positions that E transmitted bits take in the circular buffer, from k0 on, fillers skipped. -/
def bufferPositions (u : Cut) (ncb k0 : Nat) : Nat → Nat → Nat → List Nat
  | 0, _, _ => []
  | _ + 1, _, 0 => []
  | fuel + 1, i, e + 1 =>
    let p := (k0 + i) % ncb
    if u.filler p then bufferPositions u ncb k0 fuel (i + 1) (e + 1) else p :: bufferPositions u ncb k0 fuel (i + 1) e

/-- The positions of E bits: at most 1,000 turns of the buffer. -/
def positionsOf (u : Cut) (lbrm rv e : Nat) : List Nat :=
  let ncb := u.ncb lbrm
  if ncb = 0 then [] else bufferPositions u ncb (u.k0 rv ncb) ((e + 1) * 16 + ncb) 0 e

/-- The place in the interleaved block of bit k of the rate-matched block of E bits (clause 5.4.2.2). -/
def interleaved (e qm k : Nat) : Nat := k / (e / qm) + k % (e / qm) * qm

/-- The code-block groups' blocks that a CBGTI names among C, in M groups (38.214 clause 5.1.7.1). -/
def groupOf (groups c r : Nat) : Nat :=
  let m := max 1 (min groups c)
  let k1 := ceilDiv c m
  let k2 := c / m
  let m1 := c % m
  if r < m1 * k1 then r / k1 else m1 + (r - m1 * k1) / max 1 k2

/-! ### The decoder (R176, R178) -/

/-- An LLR sum saturated to −127 to 127. -/
def satLlr (v : Int) : Int := max (-127) (min 127 v)

/-- A posterior saturated to −511 to 511. -/
def satApp (v : Int) : Int := max (-511) (min 511 v)

/-- Combines received LLRs of a block, de-interleaved, into its circular buffer (R176). -/
def combine (u : Cut) (lbrm rv qm : Nat) (soft rx : List Int) : List Int :=
  let e := rx.length
  ((positionsOf u lbrm rv e).zipIdx).foldl (fun l (q : Nat × Nat) =>
    l.set q.1 (satLlr (l.getD q.1 0 + rx.getD (interleaved e qm q.2) 0))) soft

/-- A cleared buffer: zeros, and +127 at filler positions (R175). -/
def clearedSoft (u : Cut) : List Int := (List.range u.n).map fun p => if u.filler p then 127 else 0

/-- A cleared store: every LLR that it holds, those behind the buffer of the code included (R175). -/
def clearedStore (u : Cut) : List Int := clearedSoft u ++ List.replicate (25344 - u.n) 0

/-- Columns that transmitted bits reach: those of the information bits and up to the highest position. Log 39 (PRESUMED). -/
def columnsReached (u : Cut) (positions : List Nat) : Nat :=
  match positions.max? with
  | some p => max (u.k / u.zc) (p / u.zc + 3)
  | none => u.k / u.zc

/-- The base graph rows that a block of so many columns uses: the four core rows, and each whose own parity column is reached. -/
def usedRows (u : Cut) (cols : Nat) : List Nat :=
  (List.range u.rows).filter fun r => decide (r < 4 ∨ (if u.bg2 then 10 else 22) + r < cols)

/-- The variables of lifted row i of a base graph row. -/
def rowVars (u : Cut) (r i : Nat) : List Nat :=
  (List.range u.cols).filterMap fun j => (Config.baseGraph u.bg2 u.iLS r j).map fun v => j * u.zc + (i + v) % u.zc

/-- A zero counts as positive. -/
def signOf (v : Int) : Int := if v < 0 then -1 else 1

/-- The new check messages of a row from its variable messages (R178). -/
def checkMessages (qs : List Int) : List Int :=
  let mags := qs.map Int.natAbs
  let pos1 := mags.findIdx fun a => some a == mags.min?
  let min1 := (mags.min?).getD 0
  let min2 := ((mags.eraseIdx pos1).min?).getD min1
  let sgn := qs.foldl (fun s q => s * signOf q) 1
  qs.zipIdx.map fun (e : Int × Nat) =>
    let mag := ((if e.2 = pos1 then min2 else min1) : Int) - 1
    sgn * signOf e.1 * max 0 (min 127 mag)

/-- One lifted row: posteriors and its messages after it. -/
def decodeRow (vars : List Nat) (app msgs : List Int) : List Int × List Int :=
  let qs := vars.zipIdx.map fun (e : Nat × Nat) => satApp (app.getD e.1 0 - msgs.getD e.2 0)
  let ms := checkMessages qs
  ((vars.zip (qs.zip ms)).foldl (fun a (e : Nat × Int × Int) => a.set e.1 (satApp (e.2.1 + e.2.2))) app, ms)

/-- One iteration over all lifted rows, in order. -/
def decodePass (rows : List (List Nat)) (st : List Int × List (List Int)) : List Int × List (List Int) :=
  let r := (rows.zip st.2).foldl (fun (p : List Int × List (List Int)) (e : List Nat × List Int) =>
    let q := decodeRow e.1 p.1 e.2
    (q.1, q.2 :: p.2)) (st.1, [])
  (r.1, r.2.reverse)

/-- Whether every used row's parity holds for hard decisions. -/
def syndromeZero (rows : List (List Nat)) (app : List Int) : Bool :=
  rows.all fun vs => (vs.filter fun v => decide (app.getD v 0 < 0)).length % 2 == 0

/-- Iterations until the syndrome is zero or none is left: posteriors, iterations run, and whether the last syndrome was
nonzero. -/
def decodeLoop (rows : List (List Nat)) : Nat → Nat → List Int × List (List Int) → List Int × Nat × Bool
  | 0, k, st => (st.1, k, true)
  | n + 1, k, st =>
    let st1 := decodePass rows st
    if syndromeZero rows st1.1 then (st1.1, k + 1, false) else decodeLoop rows n (k + 1) st1

/-- Decodes a block (R178): its K' information bits, the iterations run, and whether the last syndrome was nonzero. Log 39 (PRESUMED). -/
def ldpcDecode (u : Cut) (cols iMax : Nat) (soft : List Int) : List Bool × Nat × Bool :=
  let rows := (usedRows u cols).flatMap fun r => (List.range u.zc).map (rowVars u r)
  let app := List.replicate (2 * u.zc) 0 ++ soft
  let r := decodeLoop rows iMax 0 (app, rows.map fun _ => [])
  (((List.range u.kPrime).map fun v => decide (r.1.getD v 0 < 0)), r.2.1, r.2.2)

/-! ### The encoder (R183) -/

/-- The code blocks of a transport block with their CRCs (steps 1 and 2). -/
def codeBlocks (u : Cut) (tb : List Bool) : List (List Bool) :=
  let all := tb ++ (tbCrc tb.length).of tb
  if u.c = 1 then [all]
  else (chunks (u.kPrime - 24) all).map fun b => b ++ crc24B.of b

/-- One step of the elimination of a linear system over bits, for unknown j: an equation that has it becomes its own, and leaves every
other. -/
def eliminate (st : List (Nat × Nat) × List Nat) (j : Nat) : List (Nat × Nat) × List Nat :=
  match st.2.find? fun e => bitAt e j with
  | none => st
  | some p =>
    let clear := fun (e : Nat) => if bitAt e j then e ^^^ p else e
    ((j, p) :: st.1.map fun e => (e.1, clear e.2), (st.2.erase p).map clear)

/-- A solution of a linear system over n bits: equation e has unknown j where its bit j is set, and its bit n is the right side. An
unknown that no equation fixes is zero. -/
def solveBits (n : Nat) (eqs : List Nat) : List Bool :=
  let own := ((List.range n).foldl eliminate ([], eqs)).1
  (List.range n).map fun j => match own.find? fun e => e.1 == j with
    | some e => bitAt e.2 n
    | none => false

/-- The parity bits of a code block (clause 5.3.2): those for which every lifted row of the base graph checks. -/
def ldpcParity (u : Cut) (info : List Bool) : List Bool :=
  let n := (u.cols - u.k / u.zc) * u.zc
  let eqs := (List.range u.rows).flatMap fun r => (List.range u.zc).map fun i =>
    (rowVars u r i).foldl (fun e v => e ^^^ (if v < u.k then 2 ^ n * bit (info.getD v false) else 2 ^ (v - u.k))) 0
  solveBits n eqs

/-- The circular buffer of an encoded block (clause 5.3.2): information bits with filler as 0, then parity, without the first
2 Z_c. -/
def encodedBuffer (u : Cut) (b : List Bool) : List Bool :=
  let info := b ++ List.replicate (u.k - b.length) false
  (info ++ ldpcParity u info).drop (2 * u.zc)

/-- A block rate matched to E bits and interleaved (clause 5.4.2). Log 39 (PRESUMED). -/
def rateMatch (u : Cut) (lbrm rv qm e : Nat) (b : List Bool) : List Bool :=
  let d := encodedBuffer u b
  let sel := (positionsOf u lbrm rv e).map fun p => d.getD p false
  (List.range e).map fun f => sel.getD (f / qm + f % qm * (e / qm)) false

/-- The PAM level of a component's bits (38.211 clause 5.1). -/
def pamLevel : List Bool → Int
  | [] => 0
  | b :: r =>
    let sg : Int := if b then -1 else 1
    match r with
    | [] => sg
    | _ => sg * (2 ^ r.length - pamLevel r)

/-- A modulation symbol: the even bits give I, the odd ones Q. -/
def symbolOf (bs : List Bool) : Int × Int :=
  let pick := fun (o : Nat) => (bs.zipIdx.filter fun (e : Bool × Nat) => e.2 % 2 == o).map Prod.fst
  (pamLevel (pick 0), pamLevel (pick 1))

/-- The level of largest magnitude of a modulation order. -/
def maxLevel (qm : Nat) : Nat := 2 ^ (qm / 2) - 1

/-! ### The PRACH search (R187 to R189) -/

/-- A detection: preamble, bin, value and whether a rejected candidate lay within DELAY_SEP of it. -/
structure Detection where
  preamble : Nat
  bin : Nat
  p : Nat
  overlap : Bool
deriving DecidableEq, Repr

/-- The local maxima of a zone: above the bin before and not below the bin after. Log 41 (DEDUCED). -/
def localMaxima (zone : List Nat) : List (Nat × Nat) :=
  zone.zipIdx.filterMap fun (e : Nat × Nat) =>
    let left := e.2 = 0 ∨ zone.getD (e.2 - 1) 0 < e.1
    let right := zone.getD (e.2 + 1) 0 ≤ e.1
    if left ∧ right then some (e.2, e.1) else none

/-- Inserts by descending value, equal values by the lower delay. -/
def insertPeak (x : Nat × Nat) : List (Nat × Nat) → List (Nat × Nat)
  | [] => [x]
  | y :: r => if y.2 < x.2 ∨ (y.2 = x.2 ∧ x.1 < y.1) then x :: y :: r else y :: insertPeak x r

/-- Accepts candidates in order unless one lies within `sep` bins of an accepted one, which is then marked (R188);
of two accepted ones that near, the first accepted is marked: log 86 (DESIGN CHOICE). Log 41 (DEDUCED). -/
def acceptPeaks (preamble sep : Nat) (cs : List (Nat × Nat)) : List Detection :=
  cs.foldl (fun acc (c : Nat × Nat) =>
    match acc.findIdx? fun (d : Detection) => decide ((d.bin - c.1) + (c.1 - d.bin) < sep) with
    | some i => acc.modify i fun d => { d with overlap := true }
    | none => acc ++ [{ preamble := preamble, bin := c.1, p := c.2, overlap := false }]) []

/-- Whether a detection is written before another (R189). -/
def Detection.before (a b : Detection) : Bool :=
  decide (b.p < a.p ∨ (a.p = b.p ∧ (a.preamble < b.preamble ∨ (a.preamble = b.preamble ∧ a.bin < b.bin))))

/-- Inserts a detection in the order of the report. -/
def insertDetection (x : Detection) : List Detection → List Detection
  | [] => [x]
  | y :: r => if x.before y then x :: y :: r else y :: insertDetection x r

/-- The search of an occasion over the zones of its preambles: detections in order, the sum and the number of all bins, and
whether some were dropped (R187 to R189). Log 41 (DEDUCED). -/
def prachSearch (zones : List (List Nat)) (thr sep : Nat) : List Detection × Nat × Nat × Bool :=
  let sum := (zones.map List.sum).sum
  let n := (zones.map List.length).sum
  let found := zones.zipIdx.map fun (e : List Nat × Nat) =>
    acceptPeaks e.2 sep (((localMaxima e.1).filter fun c => decide (thr * sum ≤ c.2 * 256 * n)).foldr insertPeak [])
  let kept := (found.flatMap fun l => l.take 4).foldr insertDetection []
  (kept.take 256, sum, n, found.any (fun l => decide (4 < l.length)) || decide (256 < kept.length))

end Sys2Proof.Machine
end

