-- ==== Sys2Proof/Machine/Polar.lean ====
section
/-!
DEFINITION. The polar and small block codes of R186: 38.212 clauses 5.3.1, 5.3.3, 5.4.1, 6.3.1, 7.1 and 7.3 as generally known, with
the two long tables of clause 5.3.1 left to Config, and the list decoder as R186 gives it. Log 80 (PRESUMED).
-/
namespace Sys2Proof.Machine
open Sys2Proof

/-! ### The shape of a code (clauses 5.3.1, 5.4.1) -/

/-- CRC24C (38.212 clause 5.1). -/
def crc24C : Crc := ⟨24, 0xB2B117⟩

/-- The least n with v ≤ 2^n. -/
def ceilLog2 (v : Nat) : Nat := ((List.range 24).find? fun n => decide (v ≤ 2 ^ n)).getD 24

/-- A polar code: K input bits with their CRC, E coded bits, mother code length 2^n, parity-check bits and how many of them are
placed by row weight (clauses 5.3.1 and 6.3.1.3.1). -/
structure PolarCode where
  k : Nat
  e : Nat
  n : Nat
  nPc : Nat
  nWm : Nat
deriving DecidableEq, Repr

/-- The code of K bits on E coded bits, downlink (n at most 9) or uplink (n at most 10, with parity-check bits for 18 to 25 bits). Log 80 (PRESUMED). -/
def polarCodeOf (down : Bool) (k e : Nat) : PolarCode :=
  let l := ceilLog2 e
  let n1 := if 8 * e ≤ 9 * 2 ^ (l - 1) ∧ 16 * k < 9 * e then l - 1 else l
  let n := max 5 (min (min n1 (ceilLog2 (8 * k))) (if down then 9 else 10))
  let pc := !down && decide (18 ≤ k ∧ k ≤ 25)
  { k := k, e := e, n := n, nPc := if pc then 3 else 0, nWm := if pc ∧ 192 + k < e + 3 then 1 else 0 }

/-- Mother code length N. -/
def PolarCode.len (c : PolarCode) : Nat := 2 ^ c.n

/-- The sub-block interleaver pattern (Table 5.4.1.1-1). Log 80 (PRESUMED). -/
def subBlocks : List Nat :=
  [0, 1, 2, 4, 3, 5, 6, 7, 8, 16, 9, 17, 10, 18, 11, 19, 12, 20, 13, 21, 14, 22, 15, 23, 24, 25, 26, 28, 27, 29, 30, 31]

/-- J(i) of clause 5.4.1.1. -/
def PolarCode.sub (c : PolarCode) (i : Nat) : Nat :=
  subBlocks.getD (32 * i / c.len) 0 * (c.len / 32) + i % (c.len / 32)

/-- The coded bits are punctured from the front (else shortened at the end) where E is less than N (clause 5.4.1.2). -/
def PolarCode.punctures (c : PolarCode) : Bool := decide (16 * c.k ≤ 7 * c.e)

/-- The place in the mother code of coded bit i, before channel interleaving (clause 5.4.1.2). -/
def PolarCode.place (c : PolarCode) (i : Nat) : Nat :=
  if c.len ≤ c.e then c.sub (i % c.len) else if c.punctures then c.sub (i + c.len - c.e) else c.sub i

/-- The places that rate matching freezes (clause 5.4.1.1). -/
def PolarCode.dropped (c : PolarCode) : List Nat :=
  if c.len ≤ c.e then []
  else if c.punctures then
    (List.range (c.len - c.e)).map c.sub ++
      List.range (if 3 * c.len ≤ 4 * c.e then ceilDiv (3 * c.len - 2 * c.e) 4 else ceilDiv (9 * c.len - 4 * c.e) 16)
  else (List.range (c.len - c.e)).map fun i => c.sub (c.e + i)

/-- The places of information and parity-check bits, from the most reliable one down (clause 5.3.1.2). -/
def PolarCode.best (c : PolarCode) : List Nat :=
  let out := c.dropped
  ((((List.range 1024).map Config.polarOrder).reverse.filter fun i => decide (i < c.len)).filter fun i => !out.contains i).take (c.k + c.nPc)

/-- Ones of an index: the row weight of its generator row is two to this power. -/
def onesOf (i : Nat) : Nat := ((List.range 10).filter fun b => bitAt i b).length

/-- The places of parity-check bits: the least reliable ones, and one of least row weight among the others, ties to the more reliable
(clause 5.3.1.2). -/
def PolarCode.parity (c : PolarCode) : List Nat :=
  let b := c.best
  let low := b.reverse.take (c.nPc - c.nWm)
  let rest := b.take c.k
  let least := (rest.map onesOf).min?
  low ++ if c.nWm = 0 then [] else ((rest.find? fun i => some (onesOf i) == least).map fun i => [i]).getD []

/-- The value of a parity-check bit at a place: the sum of the information bits before it at the same distance modulo 5. -/
def pcValue (parity : List Nat) (us : List Bool) (i : Nat) : Bool :=
  us.zipIdx.foldl (fun v (e : Bool × Nat) => if e.2 % 5 = i % 5 ∧ ¬ parity.contains e.2 then xor v e.1 else v) false

/-! ### Encoding -/

/-- u G of the n-th Kronecker power. -/
def polarTransform : Nat → List Bool → List Bool
  | 0, us => us
  | n + 1, us =>
    let a := polarTransform n (us.take (2 ^ n))
    let b := polarTransform n (us.drop (2 ^ n))
    List.zipWith xor a b ++ b

/-- The input word u of the transform: information and parity-check bits at their places, frozen zeros elsewhere. -/
def PolarCode.word (c : PolarCode) (msg : List Bool) : List Bool :=
  let best := c.best
  let parity := c.parity
  ((List.range c.len).foldl (fun (st : List Bool × List Bool) i =>
    if ¬ best.contains i then (st.1 ++ [false], st.2)
    else if parity.contains i then (st.1 ++ [pcValue parity st.1 i], st.2)
    else (st.1 ++ [st.2.headD false], st.2.drop 1)) ([], msg)).1

/-- The E coded bits of K bits, without channel interleaving. -/
def PolarCode.encode (c : PolarCode) (msg : List Bool) : List Bool :=
  let d := polarTransform c.n (c.word msg)
  (List.range c.e).map fun i => d.getD (c.place i) false

/-- The interleaving of downlink bits before coding (clause 5.3.1.1): place i of K takes this bit. -/
def inputOrder (k : Nat) : List Nat :=
  ((List.range 164).map Config.polarInterleaver).filterMap fun v => if 164 - k ≤ v then some (v - (164 - k)) else none

/-- The payload of PBCH interleaved (clause 7.1.1): bits 1 to 6 and 24 to 27 are the frame number, 28 the half frame, 29 to 31 the
block index. Log 80 (PRESUMED). -/
def pbchPayload (a : List Bool) : List Bool :=
  let g := [16, 23, 18, 17, 8, 30, 10, 6, 24, 7, 0, 5, 3, 2, 1, 4, 9, 11, 12, 13, 14, 15, 19, 20, 21, 22, 25, 26, 27, 28, 29, 31]
  let sfn := [1, 2, 3, 4, 5, 6, 24, 25, 26, 27]
  let order := sfn ++ [28, 29, 30, 31] ++ (List.range 24).filter fun i => !sfn.contains i
  (g.zip order).foldl (fun l (e : Nat × Nat) => l.set e.1 (a.getD e.2 false)) (List.replicate 32 false)

/-- The scrambling of an interleaved PBCH payload (clause 7.1.2) for a cell identity; the second and third bits of the frame number,
the half frame and, in FR2, the block index stay as they are. Log 80 (PRESUMED). -/
def pbchScramble (pci : Nat) (fr2 : Bool) (a : List Bool) : List Bool :=
  let v := 2 * bit (a.getD 6 false) + bit (a.getD 24 false)
  let clear := [6, 24, 0] ++ if fr2 then [5, 3, 2] else []
  let m := if fr2 then 26 else 29
  (a.zipIdx.foldl (fun (st : List Bool × List Bool) (e : Bool × Nat) =>
    if clear.contains e.2 then (st.1 ++ [e.1], st.2)
    else (st.1 ++ [xor e.1 (st.2.headD false)], st.2.drop 1)) ([], goldBits pci (v * m) m)).1

/-- The coded bits of a PBCH payload (clause 7.1), or of a DCI for an RNTI (clause 7.3). -/
def downlinkPolar (pbch : Bool) (pci : Nat) (fr2 : Bool) (rnti : Nat) (a : List Bool) (e : Nat) : List Bool :=
  let b := if pbch then
      let p := pbchScramble pci fr2 (pbchPayload a)
      p ++ crc24C.of p
    else
      let c := crc24C.of (List.replicate 24 true ++ a)
      a ++ c.take 8 ++ List.zipWith xor (c.drop 8) (natBits 16 rnti)
  (polarCodeOf true b.length e).encode ((inputOrder b.length).map fun i => b.getD i false)

/-! ### The list decoder (R186) -/

/-- The triangle of the channel interleaver (clause 5.4.1.3): the coded bits in the order in which they are sent. -/
def channelOrder (e : Nat) : List Nat :=
  let t := ((List.range (e + 1)).find? fun t => decide (2 * e ≤ t * (t + 1))).getD e
  let start := fun (i : Nat) => (List.range i).foldl (fun a j => a + (t - j)) 0
  (List.range t).flatMap fun j => (List.range (t - j)).filterMap fun i =>
    let p := start i + j
    if p < e then some p else none

/-- The soft bits of the mother code: repeated ones are added, punctured ones are 0, shortened ones are known zeros. Log 80 (PRESUMED). -/
def PolarCode.soften (c : PolarCode) (llr : List Int) : List Int :=
  let known : Int := 32767
  let base := (List.range c.len).map fun i =>
    if c.e < c.len ∧ ¬ c.punctures ∧ (((List.range (c.len - c.e)).map fun j => c.sub (c.e + j)).contains i) then known else 0
  ((channelOrder c.e).zip llr).foldl (fun l (q : Nat × Int) => l.modify (c.place q.1) (· + q.2)) base

/-- The integer min-sum of two soft bits. -/
def minSum (a b : Int) : Int := signOf a * signOf b * (min a.natAbs b.natAbs : Nat)

/-- The soft bit of the next input bit of a path, from the decided ones. -/
def polarSoft : Nat → List Int → List Bool → Int
  | 0, l, _ => l.headD 0
  | n + 1, l, us =>
    let a := l.take (2 ^ n)
    let b := l.drop (2 ^ n)
    if us.length < 2 ^ n then polarSoft n (List.zipWith minSum a b) us
    else
      let x := polarTransform n (us.take (2 ^ n))
      polarSoft n (List.zipWith (fun (v : Int) (e : Int × Bool) => v + if e.2 then -e.1 else e.1) b (a.zip x)) (us.drop (2 ^ n))

/-- A path of the decoder: its bits so far and its metric, saturated to 16 bits. -/
abbrev PolarPath := List Bool × BitVec 16

/-- A path extended by a bit, its metric raised by the soft bit's size where the bit goes against it. -/
def PolarPath.extend (p : PolarPath) (l : Int) (u : Bool) : PolarPath :=
  (p.1 ++ [u], if u = decide (l < 0) then p.2 else BitVec.ofNat 16 (min 65535 (p.2.toNat + l.natAbs)))

/-- Inserts a path by its metric, behind those of an equal one. -/
def insertPath (p : PolarPath × Nat) : List (PolarPath × Nat) → List (PolarPath × Nat)
  | [] => [p]
  | q :: r => if p.1.2.toNat < q.1.2.toNat then p :: q :: r else q :: insertPath p r

/-- The eight best of the extended paths, in the order of their indices: path p's children are 2p (bit 0) and 2p + 1. Log 80 (DESIGN CHOICE). -/
def keepPaths (ps : List PolarPath) : List PolarPath :=
  let kept := ((ps.zipIdx.foldl (fun l p => insertPath p l) []).take 8).map Prod.snd
  (ps.zipIdx.filter fun e => kept.contains e.2).map Prod.fst

/-- The paths of list size 8 over all input bits (R186). -/
def PolarCode.paths (c : PolarCode) (llr : List Int) : List PolarPath :=
  let soft := c.soften llr
  let best := c.best
  let parity := c.parity
  (List.range c.len).foldl (fun (ps : List PolarPath) i =>
    if ¬ best.contains i then ps.map fun p => p.extend (polarSoft c.n soft p.1) false
    else if parity.contains i then ps.map fun p => p.extend (polarSoft c.n soft p.1) (pcValue parity p.1 i)
    else keepPaths (ps.flatMap fun p =>
      let l := polarSoft c.n soft p.1
      [p.extend l false, p.extend l true])) [([], 0)]

/-- The K bits of a path. -/
def PolarCode.message (c : PolarCode) (us : List Bool) : List Bool :=
  let best := c.best
  let parity := c.parity
  (us.zipIdx.filter fun e => best.contains e.2 && !parity.contains e.2).map Prod.fst

/-- The path of the lowest metric, ties to the lower index. -/
def bestPath (ps : List PolarPath) : Option (List Bool) :=
  (ps.foldl (fun (b : Option PolarPath) p => match b with
    | none => some p
    | some q => if p.2.toNat < q.2.toNat then some p else some q) none).map Prod.fst

/-- The decision of the list decoder: the best path that passes its CRC, else the best of all; and whether it passed. -/
def polarDecision (c : Crc) (ps : List PolarPath) : List Bool × Bool :=
  match bestPath (ps.filter fun p => c.ok p.1) with
  | some b => (b, true)
  | none => ((bestPath ps).getD [], false)

/-- The CRC of a UCI payload of K bits (38.212 clause 6.3.1.2). -/
def uciCrc (k : Nat) : Crc := if k ≤ 19 then crc6 else crc11

/-- A segment of UCI decoded: its bits with their CRC, and whether it passed. -/
def decodeSegment (c : Crc) (k : Nat) (llr : List Int) : List Bool × Bool :=
  let u := polarCodeOf false (k + c.len) llr.length
  polarDecision c ((u.paths llr).map fun p => (u.message p.1, p.2))

/-! ### Small block codes (clause 5.3.3) -/

/-- The rows of Table 5.3.3.3-1: bit i of row j is M(j, i). Log 80 (PRESUMED). -/
def smallRows : List Nat :=
  [0x403, 0x607, 0x749, 0x50D, 0x48F, 0x5D3, 0x755, 0x599, 0x69B, 0x65D, 0x6E5, 0x567, 0x7A9, 0x6AB, 0x4B1, 0x6F3,
   0x277, 0x139, 0x0FB, 0x061, 0x445, 0x60B, 0x591, 0x717, 0x3DF, 0x4E3, 0x32D, 0x3AF, 0x175, 0x1FD, 0x7FF, 0x001]

/-- Bit `pos` of the coded bits of codeword `cw` of K bits, its most significant bit first, on a modulation of qm bits; a placeholder
y repeats the bit before it, and x is the same for every codeword. Log 80 (PRESUMED). -/
def smallCode (k qm cw pos : Nat) : Bool :=
  let c := fun (i : Nat) => bitAt cw (k - 1 - i)
  if k = 1 then decide (2 ≤ pos % qm) || c 0
  else if k = 2 then
    let pick := fun (i : Nat) => if i % 3 = 2 then xor (c 0) (c 1) else c (i % 3)
    if qm ≤ 1 then pick pos else decide (2 ≤ pos % qm) || pick (2 * (pos / qm % 3) + pos % qm)
  else ((List.range k).filter fun i => bitAt (smallRows.getD (pos % 32) 0) i && c i).length % 2 == 1

/-- Maximum-likelihood decision over all 2^K codewords, ties to the lower index (R186). -/
def smallDecision (k qm : Nat) (llr : List Int) : Nat :=
  let score := fun (cw : Nat) => (llr.zipIdx.foldl (fun (a : Int) (e : Int × Nat) =>
    a + (if smallCode k qm cw e.2 then -e.1 else e.1)) 0)
  ((List.range (2 ^ k)).foldl (fun (b : Nat × Int) cw => if b.2 < score cw then (cw, score cw) else b) (0, score 0)).1

end Sys2Proof.Machine
end

