-- ==== Sys2Proof/Machine/Baseband.lean ====
section
/-!
DEFINITION. The fixed-function pools of baseband processing (chapter 06, R174 to R190): the LDPC decoder and encoder pools, the
polar blocks and the PRACH detectors. A job is 64 bytes: OP (byte 0), flags (1: base graph 2, NAN_LLR), CELL (2-3), PDU_ID (4-5),
CORE (6-7), counter (8), code-block groups or layer (9), IMPRESSION (16-23), source (24-31), G or REs (32-35), E or first RE
(36-39), destination (40-47), and SINR (48-63; of a SIDE job the REs per PRB of each symbol of its range, 0 for 12). Log 39 (PRESUMED).
-/
namespace Sys2Proof.Machine
open Sys2Proof

/-- A fixed-function job's fields. -/
structure FxJob where
  op : Nat
  flags : Nat
  cell : Nat
  pdu : Nat
  core : Nat
  cnt : Nat
  sub : Nat
  imp : Nat
  src : Nat
  g : Nat
  e : Nat
  dst : Nat
  sinr : List Byte
deriving DecidableEq, Repr

/-- Reads a job. -/
def readFxJob (j : Job) : FxJob :=
  let b := leBytes 64 j.block.toNat
  { op := fld b 0 1, flags := fld b 1 1, cell := fld b 2 2, pdu := fld b 4 2, core := fld b 6 2, cnt := fld b 8 1, sub := fld b 9 1,
    imp := fld b 16 8, src := fld b 24 8, g := fld b 32 4, e := fld b 36 4, dst := fld b 40 8, sinr := sliceBytes b 48 16 }

/-- The PDU fields that PUSCH and PDSCH share (Table 6.7). -/
structure Pdu where
  order : Nat
  bytes : List Byte
deriving DecidableEq, Repr

def Pdu.bufId (p : Pdu) : Nat := fld p.bytes 6 2
def Pdu.isNew (p : Pdu) : Bool := fld p.bytes 8 1 == 1
def Pdu.rv (p : Pdu) : Nat := fld p.bytes 9 1
def Pdu.qm (p : Pdu) : Nat := fld p.bytes 10 1
def Pdu.layers (p : Pdu) : Nat := fld p.bytes 11 1
def Pdu.tbs (p : Pdu) : Nat := fld p.bytes 12 4
def Pdu.cbsFirst (p : Pdu) : Nat := fld p.bytes 16 4
def Pdu.cInit (p : Pdu) : Nat := fld p.bytes 20 4
def Pdu.prbStart (p : Pdu) : Nat := fld p.bytes 24 2
def Pdu.prbCount (p : Pdu) : Nat := fld p.bytes 26 2
def Pdu.symbols (p : Pdu) : Nat := fld p.bytes 28 2
def Pdu.iMax (p : Pdu) : Nat := if fld p.bytes 30 1 = 0 then 8 else fld p.bytes 30 1
def Pdu.cbgtiValid (p : Pdu) : Bool := bitAt (fld p.bytes 31 1) 1
def Pdu.cbgti (p : Pdu) : Nat := fld p.bytes 32 4
/-- A PDSCH PDU's AMP_UNIT, and the offset and length of its transport block. Log 39 (PRESUMED). -/
def Pdu.ampUnit (p : Pdu) : Nat := fld p.bytes 6 2
def Pdu.tbOffset (p : Pdu) : Nat := fld p.bytes 36 4
def Pdu.tbLength (p : Pdu) : Nat := fld p.bytes 40 4

/-- The PDU of a job among a slot's PDUs of a type. Log 39 (PRESUMED). -/
def pduOf (s : State) (cn imp type id : Nat) : Option Pdu :=
  match slotConfig s cn imp with
  | none => none
  | some m => (findPdu m type id).map fun q => { order := q.1, bytes := q.2.take 64 }

/-- Whether a PDU's modulation, layers and redundancy version are ones that Tables 6.1 and 6.7 allow in a cell: π/2-BPSK is for PUSCH
with transform precoding, and a PUSCH has up to 4 layers, or 8 in cells of 32 TRX and more. -/
def Pdu.ok (p : Pdu) (c : Cell) (down : Bool) : Bool :=
  decide (p.rv ≤ 3) && (p.qm == 2 || p.qm == 4 || p.qm == 6 || p.qm == 8 || (!down && p.qm == 1 && bitAt (fld p.bytes 31 1) 0)) &&
    decide (1 ≤ p.layers ∧ p.layers ≤ if down ∨ 32 ≤ fld c.record 1 1 then 8 else 4) && decide (p.iMax ≤ 32)

/-! ### HARQ soft buffers (Table 6.10, R175, R176) -/

/-- Device address of a buffer entry, and of a code-block store. -/
def harqEntry (c : Cell) (b : Nat) : Nat := c.harqBase + 32 * b
def harqStore (c : Cell) (n : Nat) : Nat := c.harqBase + alignUp (32 * c.bufCount) 256 + 25600 * n

/-- The soft bits of a store, and the columns that its transmissions have reached, kept in its header. -/
def readSoft (c : Cell) (n len : Nat) (s : State) : List Int × Nat × Bool × State :=
  let r := memRead 256 (harqStore c n) (256 + len) s
  ((r.1.bytes.drop 256).map fun b => b.toInt, fld r.1.bytes 0 2, r.1.poison, r.2)

/-- Writes a store: its header and soft bits, poisoned if told so. -/
def writeSoft (c : Cell) (n cols : Nat) (soft : List Int) (poison : Bool) (s : State) : State :=
  let bs := record 256 [(0, 2, cols)] ++ soft.map fun v => BitVec.ofInt 8 v
  memWriteP (harqStore c n) bs poison (stall 256 (harqStore c n) bs.length s)

/-- A PDU's symbols that lost PRBs (R217): whether a stream of the cell misses a PRB of the PDU in one of its symbols. -/
def pduLate (s : State) (cn imp : Nat) (p : Pdu) : Bool :=
  let c := s.cell cn
  s.rad.streams.any fun e => e.2.record != [] && e.2.dir == 0 && e.2.cell == cn && (List.range 14).any fun k =>
    bitAt p.symbols k && (match e.2.symbol (imp * c.slotTicks + symbolStart c.slotTicks k) false with
      | some b => (List.range p.prbCount).any fun i => !b.overlaps (p.prbStart + i) 1
      | none => true)

/-! ### The decoder pool (R177 to R181) -/

/-- Decoders with a block. -/
def busyDecoders (s : State) : List Nat :=
  s.rad.decJobs.flatMap fun j => j.blocks.filterMap fun b => if b.done then none else b.decoder

/-- The next block to issue: the first waiting one of the first job that has one. -/
def nextBlock (s : State) : Option (Nat × Nat) :=
  s.rad.decJobs.findSome? fun j => (j.blocks.find? fun b => !b.done && b.decoder.isNone).map fun b => (j.id, b.index)

/-- Changes a block of a decode job. -/
def updBlock (id index : Nat) (f : DecBlock → DecBlock) (s : State) : State :=
  updRad (fun r => { r with decJobs := r.decJobs.map fun j =>
    if j.id = id then { j with blocks := j.blocks.map fun b => if b.index = index then f b else b } else j }) s

/-- Issues waiting blocks to idle decoders chosen by R29 (R177). -/
def dispatchBlocks : Nat → State → State
  | 0, s => s
  | n + 1, s =>
    let busy := busyDecoders s
    match nextBlock s, arbitrate s.root 12 64 (fun d => !busy.contains d) with
    | some (id, i), some d => dispatchBlocks n (updBlock id i (fun b => { b with decoder := some d }) s)
    | _, _ => s

/-- What a decode job does with its buffer (R175, Table 6.15). -/
structure BufUse where
  first : Nat
  clear : Bool
  noCombine : Bool
  /-- The job decodes from a cleared copy and leaves the buffer alone. -/
  copy : Bool
deriving DecidableEq, Repr

/-- How a PDU uses its buffer. -/
def bufUse (s : State) (c : Cell) (imp : Nat) (p : Pdu) (u : Cut) : BufUse × Bool :=
  let e := s.mem.mem.bytesAt (harqEntry c p.bufId) 32
  let state := fld e 11 1
  let clash := c.bufs.any fun b => b.1 == imp && b.2.1 == p.bufId && b.2.2 != p.order
  if clash then ({ first := fld e 4 4, clear := true, noCombine := true, copy := true }, false)
  else if p.isNew then ({ first := p.cbsFirst, clear := true, noCombine := false, copy := false }, false)
  else
    let stale := ¬ bitAt state 0 ∨ fld e 0 4 ≠ p.tbs ∨ fld e 8 2 ≠ u.c ∨ bitAt state 1
    ({ first := fld e 4 4, clear := stale, noCombine := stale, copy := false }, bitAt state 1)

/-- Rewrites a buffer entry after combining (R175, Table 6.10). -/
def writeEntry (c : Cell) (imp : Nat) (p : Pdu) (u : Cut) (w : BufUse) (poison : Bool) (s : State) : State :=
  let a := harqEntry c p.bufId
  let old := fld (s.mem.mem.bytesAt a 32) 11 1
  let rvs := (if w.clear then 0 else bitsAt old 2 4) ||| 2 ^ p.rv
  let pois := poison || (!w.clear && bitAt old 1)
  memWriteFor 256 a (record 32 [(0, 4, p.tbs), (4, 4, w.first), (8, 2, u.c), (10, 1, 128 * bit u.bg2 + u.zIndex),
    (11, 1, 1 + 2 * bit pois + 4 * rvs), (12, 8, imp)]) s

/-- Whether a block of a PDU is transmitted (R175). -/
def blockSent (p : Pdu) (groups c r : Nat) : Bool := !p.cbgtiValid || bitAt p.cbgti (groupOf groups c r)

/-- Combines the blocks of a job into their stores or into a cleared copy, in ascending order (R176): (block, where its LLRs
begin, E) for each, what is to be decoded of each, and what is poisoned. Log 39 (PRESUMED). -/
def combineBlocks (c : Cell) (j : FxJob) (p : Pdu) (u : Cut) (w : BufUse) :
    List (Nat × Nat × Nat) → Tab (List Int) × Bool × State → Tab (List Int) × Bool × State
  | [], st => st
  | (r, at_, e) :: rest, st =>
    let s := st.2.2
    let rx := memRead 256 (j.src + at_) e s
    let llr := rx.1.bytes.map fun b => b.toInt
    let old := if w.clear then (clearedSoft u, 0, false, rx.2) else readSoft c (w.first + r) u.n rx.2
    let soft := combine u c.tbsLbrm p.rv p.qm old.1 llr
    let cols := max old.2.1 (columnsReached u (positionsOf u c.tbsLbrm p.rv e))
    let pois := rx.1.poison || old.2.2.1
    let s1 := if w.copy then old.2.2.2 else writeSoft c (w.first + r) cols soft pois old.2.2.2
    combineBlocks c j p u w rest (Tab.set [] st.1 r ((cols : Int) :: soft), st.2.1 || pois, s1)

/-- Where the LLRs of each sent block of a job lie: (block, offset, E). -/
def blockSpans (g nl qm : Nat) : List Nat → Nat → Nat → Nat → List (Nat × Nat × Nat)
  | [], _, _, _ => []
  | r :: rest, k, n, at_ =>
    let e := codedBits g nl qm n k
    (r, at_, e) :: blockSpans g nl qm rest (k + 1) n (at_ + e)

/-- Bits of a block that is not decoded now: open ones. Log 40 (DEDUCED). -/
def openBits (n : Nat) (s : State) : List Bool × State :=
  let d := s.drawBytes (ceilDiv n 8)
  ((bytesBits d.1).take n, d.2)

/-- The blocks of a new decode job, those that are not sent already closed with open bits. Log 40 (DEDUCED). -/
def newBlocks (u : Cut) (sent : Nat → Bool) : List Nat → State → List DecBlock × State
  | [], s => ([], s)
  | r :: rest, s =>
    let d := if sent r then ([], s) else openBits u.kPrime s
    let t := newBlocks u sent rest d.2
    ({ index := r, decoder := none, done := !sent r, bits := d.1, ok := !sent r && crc24B.ok d.1, iters := 0, unmet := false } :: t.1, t.2)

/-- The information bits of a transport block and its CRC, from its decoded blocks. Log 40 (DEDUCED). -/
def joinBlocks (c : Nat) (bs : List DecBlock) : List Bool :=
  bs.flatMap fun b => if c = 1 then b.bits else b.bits.take (b.bits.length - 24)

/-- The uplink record of a decode job (Table 6.11). -/
def puschRecord (j : DecJob) : List Byte :=
  let tb := joinBlocks j.blocks.length j.blocks
  let crc := (tbCrc j.tbs).ok tb && !j.poison
  let passing := if j.blocks.length = 1 then bit ((tbCrc j.tbs).ok tb) else (j.blocks.filter (·.ok)).length
  let data := bitsBytes (tb.take j.tbs)
  let n := alignUp (64 + data.length) 64
  let unmet := j.blocks.any (·.unmet)
  let flags := bit crc + 2 * bit j.noCombine + 4 * bit j.fhLate + 8 * bit j.nanLlr + 16 * bit unmet
  let h := record 64 [(0, 2, 1), (2, 2, n / 64), (4, 2, j.cell), (6, 2, if j.poison then stPoison else stOk), (8, 8, j.imp),
    (16, 2, j.pdu), (18, 2, j.buf), (20, 1, flags), (21, 1, (j.blocks.map DecBlock.iters).foldl max 0), (22, 2, j.blocks.length),
    (24, 2, passing), (28, 4, j.tbs)]
  sliceBytes (placeBytes h 32 j.sinr ++ data) 0 n

/-- A decode job whose every block is decoded ends (R181): its record goes to UL_HQ in its turn and the job retires. -/
def endDecode (id : Nat) (s : State) : State :=
  match s.rad.decJobs.find? fun j => j.id == id && j.blocks.all (·.done) with
  | none => s
  | some j =>
    let s1 := updRad (fun r => { r with decJobs := r.decJobs.filter (·.id != id),
                                        poisonTb := if j.poison then satInc16 r.poisonTb else r.poisonTb }) s
    retireFor j.who j.core j.cnt (if j.poison then stPoison else stOk)
      (deliverUplink j.cell { imp := j.imp, order := j.order, own := true, bytes := puschRecord j, poison := false } s1)

/-- Retires a job at once with a status; a slot that waited for it goes on (R182). -/
def refuseJob (j : Job) (f : FxJob) (st : Nat) (s : State) : State := settleCell f.cell (retireFor j.who f.core (f.cnt % 64) st s)

/-- A decode job that fits its PDU is taken (R175 to R177). -/
def takeDecode (j : Job) (f : FxJob) (p : Pdu) (u : Cut) (s : State) : State :=
  let c := s.cell f.cell
  let w := bufUse s c f.imp p u
  let sent := blockSent p f.sub u.c
  let idx := (List.range u.c).filter sent
  let s1 := updCell f.cell (fun c => { c with
    bufs := if c.bufs.any (fun b => b.1 == f.imp && b.2.1 == p.bufId) then c.bufs else (f.imp, p.bufId, p.order) :: c.bufs }) s
  let s2 := updRad (fun r => { r with
    bufClash := if w.1.copy then satInc16 r.bufClash else r.bufClash,
    poisonTb := if w.2 then satInc16 r.poisonTb else r.poisonTb, nextJob := r.nextJob + 1 }) s1
  let s3 := if w.1.clear ∧ ¬ w.1.copy then idx.foldl (fun s r => writeSoft c (w.1.first + r) 0 (clearedStore u) false s) s2 else s2
  let r := combineBlocks c f p u w.1 (blockSpans f.g p.layers p.qm idx 0 idx.length 0) ([], false, s3)
  let s4 := if w.1.copy then r.2.2 else writeEntry c f.imp p u w.1 r.2.1 r.2.2
  let bs := newBlocks u sent (List.range u.c) s4
  let job : DecJob := {
    id := s.rad.nextJob, core := f.core, cnt := f.cnt, who := j.who, cell := f.cell, imp := f.imp, pdu := f.pdu, order := p.order,
    buf := p.bufId, tbs := p.tbs, bg2 := u.bg2, zc := u.zc, k := u.k, kPrime := u.kPrime, iMax := p.iMax, noCombine := w.1.noCombine,
    fhLate := pduLate s f.cell f.imp p, nanLlr := bitAt f.flags 1, poison := r.2.1, sinr := f.sinr, soft := r.1, first := w.1.first,
    blocks := bs.1 }
  endDecode job.id (dispatchBlocks 64 (updRad (fun r => { r with decJobs := r.decJobs ++ [job] }) bs.2))

/-- Whether a decode job's buffer, stores and sizes are ones its cell has. -/
def decodeOk (s : State) (f : FxJob) (p : Pdu) (u : Cut) : Bool :=
  let c := s.cell f.cell
  let w := (bufUse s c f.imp p u).1
  p.ok c false && decide (p.bufId < c.bufCount) && decide (w.first + u.c ≤ c.cbsCount) && decide (f.g % (p.layers * p.qm) = 0) &&
    decide (0 < f.g) && mayAccess s 256 f.src f.g

/-- LDPC_DECODE_JOB (R175 to R177): the job at the head of the decoder pool's port. -/
def execLdpcDecodeJob (s : State) : Host.Outcome State Fault Refusal :=
  match headJob 0 s with
  | none => .next s
  | some j =>
    let f := readFxJob j
    let s1 := popJob 0 s
    match pduOf s f.cell f.imp 2 f.pdu with
    | none => .next (refuseJob j f stBadParam s1)
    | some p =>
      match segment (bitAt f.flags 0) p.tbs with
      | none => .next (refuseJob j f stBadParam s1)
      | some u => .next (if decodeOk s f p u then takeDecode j f p u s1 else refuseJob j f stBadParam s1)

/-- The block that a decoder works on. -/
def decoderBlock (s : State) (d : Nat) : Option (DecJob × Nat) :=
  s.rad.decJobs.findSome? fun j => (j.blocks.find? fun b => !b.done && b.decoder == some d).map fun b => (j, b.index)

/-- CODE_BLOCK_DECODED (R178, R181): a decoder finishes its block; the next waiting one is issued, and a job whose last block
this is ends. -/
def execCodeBlockDecoded (decoder : BitVec 6) (s : State) : Host.Outcome State Fault Refusal :=
  match decoderBlock s decoder.toNat with
  | none => .next s
  | some (j, i) =>
    let u : Cut := { bg2 := j.bg2, c := j.blocks.length, kPrime := j.kPrime, k := j.k, zc := j.zc }
    let soft := Tab.get [] j.soft i
    let r := ldpcDecode u (soft.headD 0).toNat j.iMax (soft.drop 1)
    let ok := if j.blocks.length = 1 then (tbCrc j.tbs).ok r.1 else crc24B.ok r.1
    let s1 := updBlock j.id i (fun b => { b with done := true, bits := r.1, ok := ok, iters := r.2.1, unmet := r.2.2 }) s
    .next (endDecode j.id (dispatchBlocks 64 s1))

/-! ### Units of the other pools (R184, R186, R190) -/

/-- Pools: 1 encoders, 2 polar blocks, 3 PRACH detectors, with their sizes. -/
def poolSize (pool : Nat) : Nat := if pool = 1 then 64 else if pool = 2 then 32 else 16

/-- An idle unit of a pool, chosen by R29. -/
def idleUnit (s : State) (pool : Nat) : Option Nat :=
  arbitrate s.root 12 (poolSize pool) fun d => Tab.get 0 s.rad.units (64 * pool + d) == 0

/-- The first job of a pool with a block that no unit has taken. -/
def nextPoolJob (s : State) (pool : Nat) : Option PoolJob := s.rad.poolJobs.find? fun j => j.pool == pool && decide (0 < j.waiting)

/-- Changes a job of the pools. -/
def updPoolJob (id : Nat) (f : PoolJob → PoolJob) (s : State) : State :=
  updRad (fun r => { r with poolJobs := r.poolJobs.map fun j => if j.id = id then f j else j }) s

/-- Issues the waiting blocks of a pool's jobs in order to idle units chosen by R29 (R177, R184, R186). Log 39 (PRESUMED). -/
def dispatchUnits (pool : Nat) : Nat → State → State
  | 0, s => s
  | n + 1, s =>
    match nextPoolJob s pool, idleUnit s pool with
    | some j, some d =>
      dispatchUnits pool n (updRad (fun r => { r with units := Tab.set 0 r.units (64 * pool + d) j.id })
        (updPoolJob j.id (fun j => { j with waiting := j.waiting - 1, running := j.running + 1 }) s))
    | _, _ => s

/-- A job joins its pool with so many blocks, and retires with a status once they are done. -/
def joinPool (pool : Nat) (j : Job) (f : FxJob) (blocks st : Nat) (s : State) : State :=
  let x : PoolJob := { id := s.rad.nextJob, pool := pool, core := f.core, cnt := f.cnt % 64, who := j.who, status := st,
                       waiting := max 1 blocks, running := 0 }
  dispatchUnits pool 64 (updRad (fun r => { r with poolJobs := r.poolJobs ++ [x], nextJob := r.nextJob + 1 }) s)

/-- The shape of a job of these pools: the job at the head of a port, if it is this row's, has its effect and joins the pool. The
effect answers the blocks that its units work on, and its status. -/
def unitJob (port pool : Nat) (mine : FxJob → Bool) (eff : FxJob → State → Nat × Nat × State) (s : State) :
    Host.Outcome State Fault Refusal :=
  match headJob port s with
  | some j =>
    let f := readFxJob j
    if ¬ mine f then .next s
    else
      let r := eff f (popJob port s)
      .next (joinPool pool j f r.1 r.2.1 (settleCell f.cell r.2.2))
  | none => .next s

/-- A block of a job is done: the job retires with its last one. -/
def blockDone (id : Nat) (s : State) : State :=
  match s.rad.poolJobs.find? (·.id == id) with
  | none => s
  | some j =>
    if j.waiting = 0 ∧ j.running ≤ 1 then
      retireFor j.who j.core j.cnt j.status (updRad (fun r => { r with poolJobs := r.poolJobs.filter (·.id != id) }) s)
    else updPoolJob id (fun j => { j with running := j.running - 1 }) s

/-- FIXED_FUNCTION_JOB_DONE (R184, R186, R190): a unit ends its block, and takes the next one that waits. -/
def execFixedFunctionJobDone (pool : BitVec 2) (unit : BitVec 6) (s : State) : Host.Outcome State Fault Refusal :=
  let k := 64 * pool.toNat + unit.toNat
  match Tab.get 0 s.rad.units k with
  | 0 => .next s
  | id => .next (dispatchUnits pool.toNat 64 (blockDone id (updRad (fun r => { r with units := Tab.set 0 r.units k 0 }) s)))

/-! ### The encoder pool (R174, R183 to R185) -/

/-- A PDSCH that is not transmitted: its symbols are zero and the slot status record names it (R185). Log 40 (DEDUCED). -/
def failPdsch (f : FxJob) (n st : Nat) (s : State) : Nat × Nat × State :=
  let s1 := updCell f.cell (fun c => { c with failed := c.failed ++ [(f.imp, f.pdu, st)] }) s
  (1, st, if mayAccess s1 256 f.dst (4 * n) then memWriteFor 256 f.dst (List.replicate (4 * n) 0) s1 else s1)

/-- The symbols of a codeword (R183). -/
def encodeSymbols (c : Cell) (p : Pdu) (u : Cut) (g : Nat) (tb : List Bool) : List Byte :=
  let blocks := codeBlocks u tb
  let coded := blocks.zipIdx.flatMap fun (e : List Bool × Nat) => rateMatch u c.tbsLbrm p.rv p.qm (codedBits g p.layers p.qm u.c e.2) e.1
  let scr := (coded.zip (goldBits p.cInit 0 coded.length)).map fun (e : Bool × Bool) => xor e.1 e.2
  (chunks p.qm scr).flatMap fun bs =>
    let v := symbolOf bs
    componentBytes [v.1 * p.ampUnit, v.2 * p.ampUnit]

/-- The effect of an ENCODE job, over its code blocks (R184). Log 40 (DEDUCED). -/
def encodeEffect (f : FxJob) (s : State) : Nat × Nat × State :=
  let c := s.cell f.cell
  match pduOf s f.cell f.imp 1 f.pdu, c.msg f.imp with
  | some p, some m =>
    match segment (bitAt f.flags 0) p.tbs with
    | none => failPdsch f (f.g / max 1 p.qm) stBadParam s
    | some u =>
      let n := f.g / max 1 p.qm
      let len := ceilDiv p.tbs 8
      if ¬ p.ok c true ∨ f.g % (p.layers * p.qm) ≠ 0 ∨ 32767 < maxLevel p.qm * p.ampUnit ∨ p.tbLength < len ∨
          m.place.len < p.tbOffset + p.tbLength ∨ ¬ mayAccess s 256 f.dst (4 * n) then failPdsch f n stBadParam s
      else
        let o := (m.place.off + p.tbOffset) % m.place.cap
        let k := min len (m.place.cap - o)
        let r0 := memRead 256 (m.place.base + o) k s
        let r1 := if len = k then (⟨[], false⟩, r0.2) else memRead 256 m.place.base (len - k) r0.2
        let r : ReadOut × State := ({ bytes := r0.1.bytes ++ r1.1.bytes, poison := r0.1.poison || r1.1.poison }, r1.2)
        if r.1.poison then failPdsch f n stPoison r.2
        else (u.c, stOk, memWriteFor 256 f.dst (encodeSymbols c p u f.g ((bytesBits r.1.bytes).take p.tbs)) r.2)
  | _, _ => (1, stBadParam, updCell f.cell (fun c => { c with failed := c.failed ++ [(f.imp, f.pdu, stBadParam)] }) s)

/-- LDPC_ENCODE_JOB (R183 to R185): OP 1 of the encoder pool; every OP but SIDE ends here. -/
def execLdpcEncodeJob (s : State) : Host.Outcome State Fault Refusal :=
  unitJob 1 1 (fun f => f.op != 2) (fun f s => if f.op = 1 then encodeEffect f s else (1, stBadParam, s)) s

/-- Whether a PUSCH PDU multiplexes UCI: its UCI field is not zero (Table 6.7). -/
def Pdu.hasUci (p : Pdu) : Bool := (sliceBytes p.bytes 36 28).any (· != 0)

/-- The scrambling bit of a coded bit of a PUSCH PDU, with the rule of placeholder bits where it has UCI (R174; 38.211 clause 6.3.1.1). -/
def sideBit (p : Pdu) (scr : List Bool) (base i : Nat) : Bool :=
  match if p.hasUci then Config.uciPlaceholder p.bytes i else none with
  | some false => false
  | some true => scr.getD (i - 1 - base) false
  | none => scr.getD (i - base) false

/-- The PRB of RE i of a range that begins with a symbol, from the REs per PRB of its symbols, on n PRBs. -/
def rePrb (n : Nat) : List Nat → Nat → Nat
  | [], i => i / 12 % max 1 n
  | w :: r, i =>
    let per := if w = 0 then 12 else w
    if i < per * n then i / per else rePrb n r (i - per * n)

/-- The effect of a SIDE job (R174): `sub` names the layer, `e` the first RE of the range in the layer's order, `g` its REs; the
source holds one MMSEW record for each PRB of the PDU, of NR (flags [7:4]) receive streams. Log 41 (DEDUCED). -/
def sideEffect (f : FxJob) (s : State) : Nat × Nat × State :=
  match pduOf s f.cell f.imp 2 f.pdu with
  | none => (1, stBadParam, s)
  | some p =>
    let nr := if f.flags / 16 = 0 then 16 else f.flags / 16
    let rec_ := 4 * (nr * p.layers + ceilDiv p.layers 2)
    if ¬ p.ok (s.cell f.cell) false ∨ p.layers ≤ f.sub ∨ ¬ mayAccess s 256 f.src (rec_ * p.prbCount) ∨ ¬ mayAccess s 256 f.dst (4 * f.g) then
      (1, stBadParam, s)
    else
      let r := memRead 256 f.src (rec_ * p.prbCount) s
      let first := p.qm * (p.layers * f.e + f.sub)
      let base := first - 1
      let scr := goldBits p.cInit base (p.qm * (p.layers * f.g) + p.qm + 1)
      let word := fun (i : Nat) =>
        let prb := rePrb p.prbCount (f.sinr.map fun b => b.toNat) i
        let beta := fld r.1.bytes (rec_ * prb + 4 * (nr * p.layers) + 2 * f.sub) 2
        let at_ := first + p.qm * p.layers * i
        let bits := (List.range p.qm).foldl (fun v q => v + bit (sideBit p scr base (at_ + q)) * 2 ^ q) 0
        leBytes 4 (beta + 2 ^ 16 * bits)
      (1, if r.1.poison then stPoison else stOk, memWriteP f.dst ((List.range f.g).flatMap word) r.1.poison (stall 256 f.dst (4 * f.g) r.2))

/-- SIDE_JOB (R174): OP 2 of the encoder pool. -/
def execSideJob (s : State) : Host.Outcome State Fault Refusal := unitJob 1 1 (fun f => f.op == 2) sideEffect s

/-! ### Polar and small block codes (R186) -/

/-- A UCI or SRS record (Table 6.11): FLAGS [0] is the CRC or confidence flag, [2] FH_LATE, and the contents follow the header.
Log 41 (DEDUCED). -/
def plateRecord (type : Nat) (f : FxJob) (st : Nat) (late ok : Bool) (bits : Nat) (data : List Byte) : List Byte :=
  let n := alignUp (64 + data.length) 64
  sliceBytes (record 64 [(0, 2, type), (2, 2, n / 64), (4, 2, f.cell), (6, 2, st), (8, 8, f.imp), (16, 2, f.pdu),
    (20, 1, bit ok + 4 * bit late), (28, 4, bits)] ++ data) 0 n

/-- The uplink PDU that a job's record belongs to: PUCCH, SRS, or PUSCH with its UCI. -/
def recordPdu (s : State) (f : FxJob) : Option Pdu :=
  ((pduOf s f.cell f.imp 4 f.pdu).or (pduOf s f.cell f.imp 6 f.pdu)).or (pduOf s f.cell f.imp 2 f.pdu)

/-- Whether the PDU of a record read a missing PRB (R217). -/
def recordLate (s : State) (f : FxJob) : Bool := ((recordPdu s f).map (pduLate s f.cell f.imp)).getD false

/-- The decoded bits of a UCI payload of K bits from its LLRs (R186): two segments for 360 bits and more that fill 1,088 coded bits,
or 1,013 and more. Log 41 (DEDUCED). -/
def decodeUci (k qm : Nat) (llr : List Int) : List Bool × Bool :=
  if k ≤ 11 then (natBits k (smallDecision k qm llr), true)
  else
    let c := uciCrc k
    if (360 ≤ k ∧ 1088 ≤ llr.length) ∨ 1013 ≤ k then
      let half := ceilDiv k 2
      let a := decodeSegment c half (llr.take (llr.length / 2))
      let b := decodeSegment c half (llr.drop (llr.length / 2))
      let first := (a.1.take half).drop (2 * half - k)
      (first ++ b.1.take half, a.2 && b.2)
    else
      let r := decodeSegment c k llr
      (r.1.take k, r.2)

/-- Delivers the UCI or SRS record of a job at its PDU's place, with contents and their poison (R181). -/
def deliverRecord (type : Nat) (f : FxJob) (ok : Bool) (bits : Nat) (data : List Byte) (poison : Bool) (s : State) : Nat × State :=
  let st := if poison then stPoison else stOk
  (st, deliverUplink f.cell {
    imp := f.imp, order := ((recordPdu s f).map Pdu.order).getD 0xFFFF,
    own := (pduOf s f.cell f.imp 4 f.pdu).isSome || (pduOf s f.cell f.imp 6 f.pdu).isSome,
    bytes := plateRecord type f st (recordLate s f) (ok && !poison) bits data, poison := false } s)

/-- Coded bits of a PDCCH of aggregation levels 1, 2, 4, 8 and 16, of 108 bits each (Table 6.1, 38.211 clause 7.3.2.1). -/
def aggregations : List Nat := [108, 216, 432, 864, 1728]

/-- The effect of a polar job: OP 1 encodes PBCH, OP 2 DCI (`g` payload bits, `e` coded bits, `pdu` the RNTI), OP 3 decodes UCI of
`g` bits from `e` LLRs into a UCI record; OP 4 and 5 write a UCI or SRS record of `g` bytes that the RAN plate supplies, `sub` its
confidence flag (R181). Log 41 (DEDUCED). -/
def polarEffect (f : FxJob) (s : State) : Nat × Nat × State :=
  if f.op = 1 ∨ f.op = 2 then
    let c := s.cell f.cell
    let ok := (if f.op = 1 then f.g == 32 && f.e == 864 else decide (12 ≤ f.g ∧ f.g ≤ 140) && aggregations.contains f.e) &&
      mayAccess s 256 f.src (ceilDiv f.g 8) && mayAccess s 256 f.dst (ceilDiv f.e 8)
    if ¬ ok then (1, stBadParam, s)
    else
      let r := memRead 256 f.src (ceilDiv f.g 8) s
      let out := bitsBytes (downlinkPolar (f.op == 1) (fld c.record 6 2) (c.scs == 3) f.pdu ((bytesBits r.1.bytes).take f.g) f.e)
      (1, if r.1.poison then stPoison else stOk, memWriteP f.dst (sliceBytes out 0 (ceilDiv f.e 8)) r.1.poison (stall 256 f.dst (ceilDiv f.e 8) r.2))
  else if f.op = 3 ∧ 1 ≤ f.g ∧ f.g ≤ 1706 ∧ 1 ≤ f.e ∧ f.e ≤ 16384 ∧ mayAccess s 256 f.src f.e then
    let r := memRead 256 f.src f.e s
    let d := decodeUci f.g (max 1 f.sub) (r.1.bytes.map fun b => b.toInt)
    (if (360 ≤ f.g ∧ 1088 ≤ f.e) ∨ 1013 ≤ f.g then 2 else 1, deliverRecord 2 f d.2 d.1.length (bitsBytes d.1) r.1.poison r.2)
  else if (f.op = 4 ∨ f.op = 5) ∧ 1 ≤ f.g ∧ f.g ≤ 65536 ∧ mayAccess s 256 f.src f.g then
    let r := memRead 256 f.src f.g s
    (1, deliverRecord (if f.op = 4 then 2 else 4) f (f.sub % 2 == 1) (8 * f.g) r.1.bytes r.1.poison r.2)
  else (1, stBadParam, s)

/-- POLAR_JOB (R186). -/
def execPolarJob (s : State) : Host.Outcome State Fault Refusal := unitJob 2 2 (fun _ => true) polarEffect s

/-! ### PRACH detection (R187 to R190) -/

/-- Subcarrier spacing of the preamble in Hz. -/
def Cell.prachHz (c : Cell) : Nat := if c.prachFormat ≤ 2 then 1250 else if c.prachFormat = 3 then 5000 else 15000 * 2 ^ c.scs

/-- A 16-byte detection entry (Table 6.14). -/
def detectionEntry (c : Cell) (sum n : Nat) (d : Detection) (s : State) : List Byte × State :=
  let perBin := 4 * c.prachLen * c.prachHz
  let delay := (2 * d.bin * secTicks + perBin) / (2 * perBin)
  let unit := 1024 / 2 ^ c.scs
  let ta := (2 * delay + unit) / (2 * unit)
  let r := if sum = 0 ∨ d.p = 0 then (let v := s.draw; (v.1.toNat % 65536, v.2)) else (unsigned 16 (decibels 2560 (d.p * n) sum), s)
  (record 16 [(0, 1, d.preamble), (1, 1, bit d.overlap), (2, 2, ta), (4, 4, delay), (8, 2, r.1)], r.2)

/-- The PRACH record of an occasion (R189): bytes 16-17 the occasion, 20 FLAGS ([2] FH_LATE, [5] TRUNC), 22-23 the number of
detections, 24-31 the noise estimate, rounded half up. Log 41 (DEDUCED). -/
def prachRecord (c : Cell) (f : FxJob) (st : Nat) (late : Bool) (r : List Detection × Nat × Nat × Bool) (s : State) : List Byte × State :=
  let es := r.1.foldl (fun (p : List Byte × State) d => let e := detectionEntry c r.2.1 r.2.2.1 d p.2; (p.1 ++ e.1, e.2)) ([], s)
  let noise := (2 * r.2.1 + r.2.2.1) / (2 * max 1 r.2.2.1)
  let n := alignUp (64 + es.1.length) 64
  let h := record 64 [(0, 2, 3), (2, 2, n / 64), (4, 2, f.cell), (6, 2, st), (8, 8, f.imp), (16, 2, f.pdu),
    (20, 1, 4 * bit late + 32 * bit r.2.2.2), (22, 2, r.1.length), (24, 8, noise)]
  (sliceBytes (h ++ es.1) 0 n, es.2)

/-- The effect of a PRACH job: the samples of each antenna are read from its stream's landing area, and the detections go to UL_HQ
in a PRACH record. -/
def prachEffect (f : FxJob) (s : State) : Nat × Nat × State :=
  let c := s.cell f.cell
  let ants := s.rad.streams.filter fun e => e.2.record != [] && e.2.dir == 0 && e.2.cell == f.cell && e.2.flag 2
  if c.record = [] ∨ ants = [] then (1, stBadParam, s)
  else
    let len := 14 * 48 * c.prachPrbs
    let rs := ants.foldl (fun (p : List (List Byte) × Bool × State) e =>
      let r := memRead 256 e.2.prachBase len p.2.2
      (p.1 ++ [r.1.bytes], p.2.1 || r.1.poison, r.2)) ([], false, s)
    let bins := if c.nCs = 0 then c.prachLen else c.nCs
    let zones := (List.range 64).map fun v => (List.range bins).map fun b => (Config.prachPdp c.record f.pdu rs.1 v b).toNat
    let st := if rs.2.1 then stPoison else stOk
    let late := ants.any fun e => e.2.symbols.any fun b => b.prach && c.impressionAt b.air == f.imp &&
      c.inOccasion f.pdu ((c.symbolAt b.air).getD 0) && decide (0 < b.missing c.prachPrbs)
    let r := prachRecord c f st late (prachSearch zones c.prachThr c.delaySep) rs.2.2
    (1, st, deliverUplink f.cell { imp := f.imp, order := 0xFFFF, own := true, bytes := r.1, poison := false } r.2)

/-- PRACH_JOB (R187 to R190). -/
def execPrachJob (s : State) : Host.Outcome State Fault Refusal := unitJob 3 3 (fun _ => true) prachEffect s

end Sys2Proof.Machine
end

