-- ==== Sys2Proof/Machine/RecOps.lean ====
section
/-!
DEFINITION. The ends of capture and of replay (chapter 17): markers, rings that are lost, and requests that were numbered and
not sent.
-/
namespace Sys2Proof.Machine
open Sys2Proof

/-- The payload of a start (0) or stop (1) marker (Table 17.4, type 7): R0, the configuration and the loss count. Log 48 (DESIGN CHOICE). -/
def markerBytes (r : RecUnit) (kind : Nat) : List Byte :=
  record 48 [(0, 8, r.r0), (8, 2, r.ctx.getD 0xFFFF), (10, 1, bit r.fabric), (11, 1, bit r.overwrite), (12, 2, r.entry), (14, 1, kind),
    (16, 8, r.base), (24, 8, r.size), (32, 8, r.lost)]

/-- Writes a start or stop marker. Log 48 (DESIGN CHOICE). -/
def putMarker (kind : Nat) (s : State) : State :=
  capture 7 0 (s.det.recUnit.ctx.getD 0xFFFF) 0 0 s.now (markerBytes s.det.recUnit kind) [] s

/-- Capture ends with a stop marker (R474). -/
def stopCapture (s : State) : State := updRec (fun r => { r with recording := false, stopAt := none }) (putMarker 1 s)

/-- Capture of a context ends with a stop marker; the streams are captured on (Table 17.8). -/
def stopContext (c : Nat) (s : State) : State :=
  if recordsCtx s c then updRec (fun r => { r with ctx := none }) (putMarker 1 s) else s

/-- One replay counter and the DIVERGED flag (R481). -/
def diverge (n : Nat) (s : State) : State :=
  if n = 0 then s else updRec (fun r => { r with diverged := true, cnt := bumpBy r.cnt 5 n }) s

/-- Requests of the replayed context that nothing has answered yet. Log 49 (DESIGN CHOICE). -/
def unanswered (s : State) : Nat :=
  (s.fab.tracks.filter fun e => match e.2 with
    | some t => t.unsent
    | none => false).length

/-- Replay ends and live inputs are taken again (R480): what was not answered is left to its timeout (R364). Log 49 (DESIGN CHOICE). -/
def endReplay (s : State) : State :=
  let live := fun (o : Option Track) => o.map fun t => { t with unsent := false }
  { updFab (fun f => { f with tracks := Tab.mapEntries none (fun _ o => live o) f.tracks }) s with
    det := { s.det with replay := none } }

/-- Replay of a context ends. -/
def stopReplayOf (c : Nat) (s : State) : State := if replaysCtx s c then endReplay s else s

/-- Whether n bytes at an address lie in a frame that a context loses. Log 48 (DESIGN CHOICE). -/
def inFramesOf (s : State) (c a n : Nat) : Bool :=
  (List.range ((a + n - 1) / 65536 - a / 65536 + 1)).any fun i => (s.mem.frame (a / 65536 + i)).owner == c

/-- Record, stipple and replay rings in a context's frames are lost with them (R562). -/
def loseRings (c : Nat) (s : State) : State :=
  let r := s.det.recUnit
  let s1 := if r.configured ∧ ¬ r.fabric ∧ inFramesOf s c r.base r.size then
      updRec (fun r => { r with recording := false, configured := false, stopAt := none }) s
    else s
  let p := s.traf.stipple
  let s2 := if p.en ∧ inFramesOf s c p.base p.size then
      { s1 with traf := { s1.traf with stipple := { p with en := false } } }
    else s1
  match s.det.replay with
  | some x => if inFramesOf s c x.base x.size then endReplay s2 else s2
  | none => s2

/-- A context's proof jobs are dropped with its engines' work. -/
def dropProofs (c : Nat) (s : State) : State :=
  { s with det := { s.det with proofs := Tab.mapEntries none (fun _ o => o.filter fun p => p.who != c) s.det.proofs } }

end Sys2Proof.Machine
end

