-- ==== Sys2Proof/Machine/Teardown.lean ====
section
/-!
DEFINITION. The teardown of a function (R437 to R441, Table 15.6), the steps of which a compute-partition reset shares (R562),
VF Enable, and the PCIe link.
-/
namespace Sys2Proof.Machine
open Sys2Proof

/-! ### The steps of Table 15.6 -/

/-- Step 1: the context's window entries are cleared and its inbound windows are made invalid; its capture and its replay end
(Table 17.8). -/
def revokeWindows (c : Nat) (s0 : State) : State :=
  let s := stopReplayOf c (stopContext c s0)
  updFab (fun f => { f with
    wins := Tab.mapEntries FabWin.reset (fun _ w => if w.valid ∧ w.owner = c then FabWin.reset else w) f.wins,
    inwins := Tab.mapEntries InWin.reset (fun _ w => if w.valid ∧ w.ctx = c then InWin.reset else w) f.inwins }) s

/-- A context's plates retire with no further impression; their claims and images stay held until step 6 (R59). -/
def retirePlates (c : Nat) (s : State) : State :=
  (plateList s).foldl (fun s q =>
    if q.2.owner = c ∧ ¬ q.2.isRan ∧ q.2.admitted then
      updPlate q.1 (fun p => { p with state := 3, startPending := false, held := false, running := [] }) s
    else s) s

/-- A context leaves a core: its threads stop, its engine queues and its slot are emptied; it keeps the storage. -/
def haltCore (c k : Nat) (s : State) : State :=
  let core := s.coreAt k
  let mine := core.resident == some c
  let me := core.me.filter fun e => !(mine && decide (e.1 < 8)) && !decide (8 * (c + 1) ≤ e.1 ∧ e.1 < 8 * (c + 2))
  let core1 := { core with me := me, slots := Tab.set none core.slots c none }
  if ¬ mine then s.setCore k core1
  else
    let s1 := s.setCore k { core1 with live := none, te0 := [], te1 := [], se := [], cnt := [], bexp := [], gateHeld := none }
    (List.range 8).foldl (fun s i => s.setThread (8 * k + i) Thread.reset) s1

/-- The cores that know a context. -/
def coresKnowing (s : State) (c : Nat) : List Nat :=
  (Tab.keys s.core.cores).filter fun k => (s.coreAt k).resident == some c || (Tab.get none (s.coreAt k).slots c).isSome

/-- A context's image is discarded and its save stops (Table 16.6); a command that waits for its stop ends with ST_BAD_PARAM
(R599). -/
def dropImage (c : Nat) (s : State) : State :=
  let x := s.ctx c
  let s1 := s.setCtx c { Ctx.reset with saveBase := x.saveBase, saveLen := x.saveLen, cnt := x.cnt }
  match x.waiter with
  | some w => completeSlot w.1 w.2 stBadParam Result.none s1
  | none => s1

/-- Clears a context's batch queues and sets its sequence entries to FREE, pins released (R314). -/
def clearSequences (c : Nat) (s : State) : State :=
  (List.range 8).foldl (fun s qn =>
    let s1 := (queueSeqs s c qn).foldl (fun s n =>
      let s1 := if (s.seq n).placement = 0 then s else unpinSeq c qn n s
      dropSeq c qn n s1) s
    updSeq (fun u => { u with queues := Tab.set none u.queues (8 * c + qn) none }) s1) s

/-- Removes a context's weight sets and ends its thatch schedules. -/
def clearWeights (c : Nat) (s : State) : State :=
  let s1 := (s.mem.thatch.filter fun x => x.ctx == c).foldl (fun s x => endThatch x.plate x.start s) s
  s1.mem.weights.foldl (fun s e => match e.2 with
    | some w => if w.ctx = c then
        updMem (fun m => { m with weightWaits := m.weightWaits.filter fun q => q.set != e.1 }) (dropWeight e.1 s)
      else s
    | none => s) s1

/-- Step 2: everything of the context that runs stops. Log 62 (DEDUCED). -/
def haltContext (c : Nat) (s : State) : State :=
  let s1 := groupsDestroy c s
  let s2 := clearWeights c (clearSequences c s1)
  let s3 := retirePlates c s2
  let s4 := dropProofs c (dropImage c ((coresKnowing s3 c).foldl (fun s k => haltCore c k s) s3))
  { s4 with core := { s4.core with jobs := Tab.mapEntries [] (fun _ l => l.filter fun j => j.who != c) s4.core.jobs } }

/-- Step 3 has ended: no request of the context is outstanding. Log 62 (DEDUCED). -/
def quiesced (s : State) (c : Nat) : Bool :=
  !(s.fab.tracks.any fun e => match e.2 with
    | some t => t.owner == c
    | none => false) && !s.core.devReqs.any fun q => q.who == c

/-- Requests still outstanding are abandoned: their tracker entries are freed and each counts (R438). Log 62 (DEDUCED). -/
def abandonRequests (c : Nat) (s : State) : State :=
  let s1 := { s with core := { s.core with devReqs := s.core.devReqs.filter fun q => q.who != c } }
  s1.fab.tracks.foldl (fun s e => match e.2 with
    | some t => if t.owner = c then hifCount 8 (freeTrack e.1 t (unqueue e.1 s)) else s
    | none => s) s1

/-- A bound queue without its ring and what it held (R438, R440). -/
def Queue.ringless (q : Queue) : Queue :=
  let b := boundQueue q q.fn q.level q.egress q.weight q.cls q.rate q.burst q.ran
  { b with rate := q.rate, burst := q.burst, tokens := q.tokens, change := q.change }

/-- Step 4: the function's queues lose what they hold; RAN queues, and all of them in a compute-partition reset, keep their
bindings. The function's translations and reads are dropped. -/
def drainQueues (fn : Nat) (keep : Bool) (s : State) : State :=
  let drained := fun (q : Queue) =>
    if ¬ q.en ∨ q.fn ≠ fn ∨ (keep ∧ q.ran) then q
    else if q.ran ∨ keep then q.ringless
    else unboundQueue q
  let t := { s.traf with queues := Tab.mapEntries Queue.reset (fun _ q => drained q) s.traf.queues }
  let h := if keep then s.host else { s.host with
    atc := s.host.atc.filter fun e => e.fn != fn,
    atsPending := s.host.atsPending.filter fun e => e.1 != fn,
    invPending := s.host.invPending.filter fun e => e.1 != fn }
  { s with traf := t, host := { h with reads := h.reads.filter fun r => r.fn != fn || (keep && (s.queue r.hq).ran) } }

/-- Step 5: the function's vectors are masked with nothing pending, and its mailbox ring and registers are reset. A latched high
half stays (R8). -/
def resetInterrupts (fn : Nat) (s : State) : State :=
  let mine := fun (base n : Nat) => decide (base / n = fn)
  let h := { s.host with
    msix := s.host.msix.filter fun e => !mine e.1 4096,
    lowHeld := s.host.lowHeld.filter fun e => !mine e.1 (2 ^ 28) }
  let s1 := { s with host := h }.setRing fn MbxRing.reset
  s1.setFn fn { s1.fn fn with err := 0 }

/-- A region goes without a word of its frames changing: they are scrubbed afterwards. -/
def forgetRegion (id : Nat) (s : State) : State :=
  let r := Tab.get Region.none s.mem.regions id
  let s1 := (regionKeys r).foldl (fun s k =>
    let p := s.page k
    (if p.home = 2 ∧ p.state ≠ 0 ∧ ¬ p.wasEmpty then killStripes p.homeLoc s else s).setPage k Page.none) s
  updMem (fun m => { m with regions := Tab.set Region.none m.regions id Region.none }) s1

/-- Step 6: what the context holds is cleared or scrub-pending, its plates give up their claims and images (R59), and its pages are
freed (R27, R439); rings in its frames are lost (R562). -/
def releaseMemory (c : Nat) (s0 : State) : State :=
  let s := loseRings c s0
  let s1 := (Tab.keys s.core.cores).foldl (fun s k =>
    if (s.coreAt k).resident = some c ∧ ¬ s.plates.ranCores.getLsbD k then clearCore k s else s) s
  let s2 := (Tab.keys s1.core.ways).foldl (fun s w =>
    let x := s.wayAt w
    if x.held ∧ x.ctx = c ∧ ¬ x.ran then (clearWay false w s).setWay w { x with held := false, cache := false } else s) s1
  let s3 := (plateList s2).foldl (fun s q => if q.2.owner = c ∧ ¬ q.2.isRan then freePlate q.1 s else s) s2
  let s4 := s3.mem.regions.foldl (fun s e => if e.2.ctx = c ∧ e.2.count ≠ 0 then forgetRegion e.1 s else s) s3
  let frames := (s4.mem.frames.filter fun e => e.2.owner == c).map Prod.fst
  let s5 := frames.foldl (fun s f => { s with mem := s.mem.setFrame f { owner := 257, dirty := 0, track := false } }) s4
  let gone := (s5.mem.xfers.filter fun e => match e.2 with
    | some x => x.ctx == c
    | none => false).map Prod.fst
  let s6 := gone.foldl (fun s n => s.setXfer n none) s5
  updMem (fun m => { m with
    scrubPending := m.scrubPending ++ frames,
    ranges := m.ranges.filter fun r => r.ctx != c,
    pools := Tab.set Pool.none m.pools c Pool.none,
    unpinned := m.unpinned.filter fun k => k / 2 ^ 32 != c,
    jobs := m.jobs.filter fun j => j.ctx != c,
    adopts := m.adopts.filter fun a => a.ctx != c,
    copies := m.copies.filter fun x => x.ctx != c,
    allocWaiting := m.allocWaiting.filter fun w => w.ctx != c }) (s6.setCtx c { s6.ctx c with saveBase := 0, saveLen := 0 })

/-- What a context uses of its quotas falls to nothing (R562). -/
def clearUsage (c : Nat) (s : State) : State :=
  (List.range 3).foldl (fun s t => s.setQuota c t { s.quota c t with usage := 0 }) s

/-- The counters that are kept by context (Table 21.8), and its seed (R471). Log 62 (DEDUCED). -/
def clearCounters (c : Nat) (s : State) : State :=
  let drop := fun (t : Tab (BitVec 64)) => Tab.set 0 t c 0
  let s1 := updMem (fun m => { m with
    evCorrected := drop m.evCorrected, evStall := drop m.evStall, evThatchLate := drop m.evThatchLate,
    seqs := { m.seqs with cnt := m.seqs.cnt.filter fun e => decide (e.1 / 8 ≠ c) } }) s
  let s2 := updFab (fun f => { f with evStoreRace := drop f.evStoreRace, evLinkRetry := drop f.evLinkRetry }) s1
  let s3 := s2.setCtx c { s2.ctx c with cnt := [] }
  { s3 with det := { s3.det with seeds := Tab.set 0 s3.det.seeds c 0 } }

/-- Step 7: the context's limits, share, allotment and ATS share return, and the function leaves TEARDOWN. Log 62 (DEDUCED). -/
def returnFunction (fn : Nat) (s : State) : State :=
  let s1 := (List.range 3).foldl (fun s t => s.setQuota fn t Quota.zero) (clearCounters fn s)
  let s2 := updSeq (fun u => { u with allot := Tab.set 0 u.allot fn 0 }) s1
  let f := s2.fn fn
  let back : Nat := if fn = 0 ∨ (s2.host.vfEnable ∧ fn ≤ s2.host.numVFs) then 1 else 0
  let s3 := s2.setFn fn { f with
    state := back, step := 0, bme := false, atsEn := false, atcShare := 32, coreMask := 0, wayMask := 0, tdStart := 0, tdWaiters := [] }
  f.tdWaiters.foldl (fun s w => completeSlot w.1 w.2 stOk Result.none s) s3

/-! ### Starting and stepping a teardown -/

/-- A teardown begins (R437). Log 62 (DEDUCED). -/
def beginTeardown (fn : Nat) (s : State) : State :=
  let s1 := { s with host := { s.host with msgWait := s.host.msgWait.filter fun o => o.sender != fn } }
  s1.setFn fn { s1.fn fn with state := 2, step := 1, tdStart := s.now }

/-- Every READY VF is torn down (R421). -/
def tearVFs (s : State) : State :=
  let s1 := { s with host := { s.host with vfEnable := false, numVFs := 0 } }
  (List.range 255).foldl (fun s i => if (s.fn (i + 1)).state = 1 then beginTeardown (i + 1) s else s) s1

/-- The teardown of a function that is not in one; the PF's clears VF Enable (R440). Log 62 (DEDUCED). -/
def tearDown (fn : Nat) (s : State) : State :=
  let s1 := if fn = 0 then tearVFs s else s
  if (s1.fn fn).state = 1 then beginTeardown fn s1 else s1

/-- Whether a configuration request to a function is answered with Configuration Request Retry Status: in TEARDOWN (R421, R437), and
before HBM_READY (R559). -/
def retriesConfig (s : State) (fn : Nat) : Bool := !s.dev.hbmReady || (s.fn fn).state == 2

/-- FLR (R437, R438): a function in TEARDOWN ignores it and answers retry status; each counts (Table 15.7). Before HBM_READY it is
answered so too, and has no effect (R559). -/
def execFlr (fn : BitVec 8) (s : State) : Host.Outcome State Fault Refusal :=
  let f := fn.toNat
  if (s.fn f).state = 0 then .next (emit (.unsupported f) s)
  else if retriesConfig s f then .next (emit (.configRetry f) (if s.dev.hbmReady then hifCount 7 s else s))
  else .next (tearDown f (hifCount 7 s))

/-- FN_RESET (Table 15.9): completes when the teardown of the VF completes. -/
def execFnReset (m : Mbx) (s : State) : Host.Outcome State Fault Refusal :=
  runCmdW m .pf [(16, 1)] (fun s =>
    let n := mfld m 16 1
    let f := s.fn n
    if n = 0 ∨ f.state = 0 then (some (stBadParam, Result.none), s)
    else
      let s1 := hifCount 7 (s.setFn n { f with tdWaiters := f.tdWaiters ++ [(m.input.toNat, m.slot.toNat)] })
      (none, if f.state = 1 then beginTeardown n s1 else s1)) s

/-- VF_ENABLE_SET (R421): VFs 1 to NumVFs become READY; while the factory defaults are in force NumVFs is held at 0 (R557), and
a PF in TEARDOWN or before HBM_READY answers retry status (R421, R559). Log 62 (DEDUCED). -/
def execVfEnableSet (n : BitVec 8) (s : State) : Host.Outcome State Fault Refusal :=
  if retriesConfig s 0 then .next (emit (.configRetry 0) s)
  else if s.dev.cfgDefaulted ∨ s.host.vfEnable ∨ n = 0 then .next s
  else
    let s1 := { s with host := { s.host with vfEnable := true, numVFs := n.toNat } }
    .next ((List.range n.toNat).foldl (fun s i =>
      let f := s.fn (i + 1)
      if f.state = 0 then s.setFn (i + 1) { f with state := 1 } else s) s1)

/-- VF_ENABLE_CLEAR (R421, R438, R559). -/
def execVfEnableClear (s : State) : Host.Outcome State Fault Refusal :=
  .next (if retriesConfig s 0 then emit (.configRetry 0) s else if s.host.vfEnable then tearVFs s else s)

/-- The end of step k of a function's teardown: its actions are done and the next step begins. Log 62 (DEDUCED). -/
def endStep (fn : Nat) (f : Fn) (s : State) : State :=
  let s1 := match f.step with
    | 1 => revokeWindows fn s
    | 2 => haltContext fn s
    | 3 => s
    | 4 => drainQueues fn false s
    | 5 => resetInterrupts fn s
    | _ => releaseMemory fn s
  s1.setFn fn { s1.fn fn with step := f.step + 1, tdStart := s.now }

/-- The end of a step of a compute-partition reset: steps 1 to 4 and 6 for every compute context at once (R562). Log 62 (DEDUCED). -/
def endComputeStep (r : ComputeReset) (s : State) : State :=
  let all := fun (g : Nat → State → State) => (List.range 256).foldl (fun s c => g c s) s
  match r.step with
  | 1 =>
    { all revokeWindows with dev := { s.dev with compute := some { r with step := 2, start := s.now } } }
  | 2 =>
    let s1 := all haltContext
    { s1 with dev := { s1.dev with compute := some { r with step := 3, start := s.now } } }
  | 3 => { s with dev := { s.dev with compute := some { r with step := 4, start := s.now } } }
  | 4 =>
    let s1 := all (fun c => drainQueues c true)
    let quiet := fun (k : Nat) => !s1.traf.queues.any fun e => e.2.en && e.2.ran && e.2.fn == k / 4096 && e.2.vector == k % 4096
    let h := { s1.host with msix := Tab.mapEntries Msix.reset (fun k e => if quiet k then { e with pending := false } else e) s1.host.msix }
    { s1 with host := h, dev := { s1.dev with compute := some { r with step := 6, start := s.now } } }
  | _ =>
    let s1 := all (fun c s => clearCounters c (clearUsage c (releaseMemory c s)))
    completeSlot r.waiter.1 r.waiter.2 stOk Result.none { s1 with dev := { s1.dev with compute := none } }

/-- TEARDOWN_STEP_END (R438, R562): the step in progress of a function's teardown ends, and with 256 that of the
compute-partition reset. Step 3 ends once nothing is outstanding; a function's teardown waits for a compute-partition reset. -/
def execTeardownStepEnd (fn : BitVec 9) (s : State) : Host.Outcome State Fault Refusal :=
  let n := fn.toNat
  let f := s.fn n
  match s.dev.compute with
  | some r =>
    if n ≠ 256 ∨ (r.step = 3 ∧ ¬ (List.range 256).all (quiesced s)) then .next s else .next (endComputeStep r s)
  | none =>
    if 256 ≤ n ∨ f.state ≠ 2 ∨ (f.step = 3 ∧ ¬ quiesced s n) then .next s
    else if f.step = 7 then .next (returnFunction n s)
    else .next (endStep n f s)

/-- 100 ms in ridge ticks. -/
abbrev quiesceTicks : Nat := 100 * msTicks

/-- QUIESCE_ABANDON (R438): requests still outstanding 100 ms into step 3 are abandoned. -/
def execQuiesceAbandon (fn : BitVec 9) (s : State) : Host.Outcome State Fault Refusal :=
  let n := fn.toNat
  match s.dev.compute with
  | some r =>
    if n = 256 ∧ r.step = 3 ∧ r.start + quiesceTicks ≤ s.now then .next ((List.range 256).foldl (fun s c => abandonRequests c s) s)
    else .next s
  | none =>
    let f := s.fn n
    if n < 256 ∧ f.state = 2 ∧ f.step = 3 ∧ f.tdStart + quiesceTicks ≤ s.now then .next (abandonRequests n s) else .next s

/-! ### The PCIe link (R419, R441) -/

/-- `HIF_LINK` (R443). -/
def hifLinkReg (h : HostIf) : Nat :=
  2048 * h.linkWidth + 256 * h.linkSpeed + 4 * bit h.linkDegraded + 2 * bit h.linkFlit + bit h.linkUp

/-- PCIE_LINK_TRAINED (R419): a link below 64 GT/s or 16 lanes is DEGRADED and reported. -/
def execPcieLinkTrained (speed : BitVec 3) (width : BitVec 5) (flit : Bool) (s : State) : Host.Outcome State Fault Refusal :=
  let slow := decide (speed.toNat < 6 ∨ width.toNat < 16)
  let s1 := { s with host := { s.host with
    linkUp := true, linkFlit := flit, linkDegraded := slow, linkSpeed := speed.toNat, linkWidth := width.toNat } }
  .next (if slow then faultEvent 10 (leBytes 4 (hifLinkReg s1.host)) s1 else s1)

/-- The Data Link Layer is down. Log 62 (DEDUCED). -/
def linkDown (s : State) : State :=
  { s with host := { s.host with linkUp := false, linkFlit := false, linkDegraded := false, linkSpeed := 0, linkWidth := 0 } }

/-- PCIE_SURPRISE_DOWN (R441): taken as a teardown of the PF, counted and reported. -/
def execPcieSurpriseDown (s : State) : Host.Outcome State Fault Refusal :=
  .next (tearDown 0 (faultEvent 11 [] (healthCount 7 1 (hifCount 9 (linkDown s)))))

end Sys2Proof.Machine
end

