-- ==== Sys2Proof/Machine/Coll.lean ====
section
/-!
DEFINITION. The rows of the collectives (chapter 13): the commands of Table 13.9, the jobs of the four units, ring steps,
packets, barriers and timeouts.
-/
namespace Sys2Proof.Machine
open Sys2Proof

/-! ### Commands (Table 13.9) -/

/-- Reads a group record and its rank table (Table 13.1). -/
def readGroup (ctx : Nat) (waiter : Option (Nat × Nat)) (now : Nat) (b table : List Byte) : Group :=
  let log := fld b 5 1
  { owner := ctx, key := fld b 0 4, fast := fld b 4 1 == 1, course := 2 ^ (if log = 0 then 16 else log), timeout := fld b 12 4,
    ranks := (List.range (fld b 8 4)).map fun r => fld table (4 * r) 4, record := b.take 24 ++ List.replicate 32 0 ++ b.drop 56,
    stages := (List.range 4).map fun d => fld b (24 + 8 * d) 8, state := 1, joined := [], joinAt := now, waiter := waiter, seq := 0,
    submitted := [], ops := [], aborted := [], early := [], aborts := [], paused := false }

/-- Whether the fixed fields of a group record are in range (R371, step 1). -/
def groupRecordOk (b : List Byte) : Bool :=
  onlyFields b [(0, 6), (8, 48)] && decide (fld b 4 1 ≤ 1) && (fld b 5 1 == 0 || decide (12 ≤ fld b 5 1 ∧ fld b 5 1 ≤ 20)) &&
    decide (1 ≤ fld b 8 4 ∧ fld b 8 4 ≤ 65536 ∧ 8 ≤ fld b 12 4)

/-- Whether no two ranks share a die. -/
def distinctDies (ranks : List Nat) : Bool := ranks.eraseDups.length == ranks.length

/-- Whether a group's ranks and areas pass step 1 of R371: entries in range, a rank on this device, no die with two ranks,
and each staging area held by the context in a compute set of its die. -/
def groupPlaceOk (s : State) (g : Group) : Bool :=
  g.ranks.all (fun e => decide (e < 65536)) && g.ranks.any (fun e => rankHall e == s.fab.hall) && distinctDies g.ranks &&
    g.stages.zipIdx.all fun e =>
      let last := e.1 + 4 * g.course - 1
      ctxOwns s g.owner e.1 (4 * g.course) && hatchSet e.1 / 8 == e.2 && hatchSet last / 8 == e.2 &&
        !s.mem.setRan.getLsbD (hatchSet e.1) && !s.mem.setRan.getLsbD (hatchSet last)

/-- COLL_GROUP_CREATE (R371, R372): the four checks in order; the command completes when every JOIN has come. -/
def execCollGroupCreate (m : Mbx) (s : State) : Host.Outcome State Fault Refusal :=
  runCmdW m .own [(24, 8)] (fun s =>
    let c := issuer m
    let r := deviceData s c (mfld m 24 8) 64
    if r.1 ≠ stOk then (some (r.1, Result.none), r.2.2)
    else
      let b := r.2.1
      let t := deviceData r.2.2 c (fld b 16 8) (4 * fld b 8 4)
      if ¬ groupRecordOk b then (some (stBadParam, Result.none), r.2.2)
      else if t.1 ≠ stOk then (some (t.1, Result.none), t.2.2)
      else
        let g := readGroup c (some (m.input.toNat, m.slot.toNat)) s.now b t.2.1
        let s1 := t.2.2
        let slot := (List.range 4096).find? fun i => (s1.group i).isNone
        let used := s1.fab.groups.any fun e => (e.2.map Group.key) == some g.key
        if ¬ groupPlaceOk s1 g then (some (stBadParam, Result.none), s1)
        else
          match slot with
          | none => (some (stCapacity, Result.none), s1)
          | some i =>
            if used then (some (stCapacity, Result.none), s1)
            else
              match (if g.fast then none else g.layoutFault) with
              | some f => (some (stCollLayout, { fields := [(8, 4, f.1), (12, 4, f.2)], block := none }), s1)
              | none => (none, beginJoin i (updFab (fun x => { x with groups := Tab.set none x.groups i (some g) }) s1))) s

/-- A group that a command names, if it belongs to the issuing function's context. -/
def namedGroup (m : Mbx) (s : State) : Option (Nat × Group) :=
  match s.group (mfld m 16 2) with
  | some g => if g.owner = issuer m then some (mfld m 16 2, g) else none
  | none => none

/-- COLL_GROUP_DESTROY (Table 13.8): refused while a job is queued or running, or the JOIN exchange runs. -/
def execCollGroupDestroy (m : Mbx) (s : State) : Host.Outcome State Fault Refusal :=
  runCmd m .own [(16, 2)] (fun s =>
    match namedGroup m s with
    | none => refuse stBadParam s
    | some (i, g) =>
      if g.ops ≠ [] ∨ g.state = 1 then refuse stBusy s
      else done (updFab (fun x => { x with groups := Tab.set none x.groups i none }) s)) s

/-- STATE of `COLL_GROUP` (R397). -/
def Group.shownState (g : Group) : Nat :=
  if g.state ≠ 2 then g.state else if g.paused then 4 else if g.ops.any CollOp.started then 3 else 2

/-- COLL_GROUP_QUERY (R397). -/
def execCollGroupQuery (m : Mbx) (s : State) : Host.Outcome State Fault Refusal :=
  runCmd m .own [(16, 2)] (fun s =>
    match namedGroup m s with
    | none => refuse stBadParam s
    | some (_, g) =>
      let n := fun (k : Nat) => min (Tab.get 0 g.aborts k) (2 ^ 32 - 1)
      (stOk, { fields := [(5, 1, g.shownState), (8, 4, g.topSeq), (16, 4, n 0), (20, 4, n 1), (24, 4, n 2), (28, 4, n 3)],
               block := none }, s)) s

/-- COLL_GROUP_REBIND (R393): a ready or BROKEN group takes new rank entries and its SEQ, and joins again. -/
def execCollGroupRebind (m : Mbx) (s : State) : Host.Outcome State Fault Refusal :=
  runCmdW m .own [(16, 6), (24, 4)] (fun s =>
    let old := mfld m 18 2
    let new := mfld m 20 2
    match namedGroup m s with
    | none => (some (stBadParam, Result.none), s)
    | some (i, g) =>
      let ranks := g.ranks.map fun e => if rankHall e = old then e - old + new else e
      let g' := { g with
        ranks := ranks, seq := mfld m 24 4, submitted := [], aborted := [], early := [], state := 1, joined := [],
        joinAt := s.now, waiter := some (m.input.toNat, m.slot.toNat) }
      if 16384 ≤ old ∨ 16384 ≤ new ∨ 2 ^ 24 ≤ mfld m 24 4 ∨ ¬ distinctDies ranks ∨
          ¬ g'.devs.contains s.fab.hall ∨ (¬ g.fast ∧ g'.layoutFault.isSome) then (some (stBadParam, Result.none), s)
      else if g.ops ≠ [] ∨ g.state = 1 then (some (stBusy, Result.none), s)
      else (none, beginJoin i (updGroup i (fun _ => g') s))) s

/-- COLL_JOB (R381): the record of Table 13.4 by mailbox; it completes when the job retires, and waits at the port of its die while
the unit holds 1,024 jobs. -/
def execCollJob (m : Mbx) (s : State) : Host.Outcome State Fault Refusal :=
  runCmdW m .own [(16, 9), (28, 28)] (fun s =>
    let b := (mbytes m).drop 16 |>.take 40
    let w := (m.input.toNat, m.slot.toNat)
    let die := mailboxDie s (fld b 4 2)
    match die with
    | some d =>
      if portFull s (0x40 + d) then (none, pushMailboxJob (0x40 + d) (issuer m) w b s)
      else (none, submitColl b (issuer m) die (some w) s)
    | none => (none, submitColl b (issuer m) none (some w) s)) s

/-! ### Jobs of the units (R376, R381) -/

/-- Takes the job at the head of a die's port when it is of an operation; the port waits while the unit holds 1,024. -/
def takeCollJob (die : BitVec 2) (op : Nat) (unknown : Bool) (s : State) : Host.Outcome State Fault Refusal :=
  let p := 0x40 + die.toNat
  match headJob p s with
  | none => .next s
  | some j =>
    let b := leBytes 64 j.block.toNat
    let o := fld b 0 1
    if (o = op ∨ (unknown ∧ (o = 0 ∨ 7 < o))) ∧ queuedJobs s die.toNat < 1024 then
      .next (submitColl b j.who (some die.toNat) j.waiter (popJob p s))
    else .next s

/-- ALLREDUCE; it also takes jobs whose OP Table 13.2 does not list, which complete with ST_BAD_PARAM (R382). -/
def execOpAllreduce (die : BitVec 2) (s : State) : Host.Outcome State Fault Refusal := takeCollJob die 1 true s
/-- REDUCE_SCATTER. -/
def execOpReduceScatter (die : BitVec 2) (s : State) : Host.Outcome State Fault Refusal := takeCollJob die 2 false s
/-- ALLGATHER. -/
def execOpAllgather (die : BitVec 2) (s : State) : Host.Outcome State Fault Refusal := takeCollJob die 3 false s
/-- BROADCAST. -/
def execOpBroadcast (die : BitVec 2) (s : State) : Host.Outcome State Fault Refusal := takeCollJob die 4 false s
/-- REDUCE. -/
def execOpReduce (die : BitVec 2) (s : State) : Host.Outcome State Fault Refusal := takeCollJob die 5 false s
/-- ALLTOALL. -/
def execOpAlltoall (die : BitVec 2) (s : State) : Host.Outcome State Fault Refusal := takeCollJob die 6 false s
/-- BARRIER (R396). -/
def execOpBarrier (die : BitVec 2) (s : State) : Host.Outcome State Fault Refusal := takeCollJob die 7 false s

/-! ### Ring steps (R384 to R386) -/

/-- The next transfer of a run whose data is ready: the run has entered its stage and phase, and every transfer of an earlier one has
been received (R385). -/
def readyTr (s : State) (g : Group) (o : CollOp) (j : CollJob) (r : CollRun) : Option Tr :=
  let p := placeOf g j s.fab.hall r.course r.die
  match (transfers g p j r.die false)[r.pos]? with
  | none => none
  | some t =>
    let ins := transfers g p j r.die true
    let entered := r.pkt != 0 || (heldLevel s g o r).any fun l => decide (t.level ≤ l)
    if (ins.zipIdx.all fun e => decide (t.level ≤ e.1.level) || r.received j e.2 e.1) && entered then some t else none

/-- Whether credit is held for all data of a transfer. -/
def CollOp.credited (o : CollOp) (j : CollJob) (r : CollRun) (t : Tr) : Bool :=
  decide ((t.hi - t.lo) * j.size ≤ Tab.get 0 o.credit (creditKey r.course t.stage t.phase t.step t.peer t.die))

/-- A die's next packet in a group: the run of a started operation whose next step is ready and credited. A paused group only
finishes the steps in progress (R395). -/
def nextSend (s : State) (g : Group) (die : Nat) : Option (CollOp × CollJob × CollRun × Tr) :=
  g.ops.findSome? fun o =>
    match o.jobs with
    | [] => none
    | j :: _ =>
      if o.started ∧ o.ended.isNone ∧ g.state = 2 then
        o.runs.findSome? fun r =>
          if r.die ≠ die ∨ (g.paused ∧ r.pkt = 0) then none
          else
            match readyTr s g o j r with
            | some t => if o.credited j r t then some (o, j, r, t) else none
            | none => none
      else none

/-- Marks and counts the ready steps of a die that wait for credit. -/
def countWaits (die i : Nat) (s : State) : State :=
  match s.group i with
  | none => s
  | some g => g.ops.foldl (fun s o => match o.jobs with
      | [] => s
      | j :: _ => o.runs.foldl (fun s r =>
          match (if o.started ∧ r.die = die ∧ ¬ r.waited then readyTr s g o j r else none) with
          | some t =>
            if o.credited j r t then s
            else collCount die 8 1 (updRun i o.seq r.course r.die (fun r => { r with waited := true }) s)
          | none => s) s) s

/-- The packed words of elements, poisoned where one of a word is. -/
def elemWords (j : CollJob) (es : List Elem) : List (BitVec 144) :=
  let bytes := es.flatMap fun e => leBytes j.size e.v
  let per := 16 / j.size
  (chunks 16 bytes).mapIdx fun w b => sendWord (BitVec.ofNat 128 (ofLE b)) (((es.drop (w * per)).take per).any Elem.p)

/-- Sends one packet of a transfer (R384, R387, R389): the first to a peer in a stage carries the signature. -/
def sendData (i : Nat) (g : Group) (o : CollOp) (j : CollJob) (r : CollRun) (t : Tr) (s : State) : State :=
  let w := workOf s g j r
  let lo := t.lo + r.pkt * j.perPkt
  let n := min j.perPkt (t.hi - lo)
  let es := (List.range n).map fun k => (w.outgoing t (lo + k)).getD { v := 0, p := false, o := false }
  let tag := 4 * t.peer + t.stage
  let first := !o.signed.contains tag
  let sig := if first then [sendWord (BitVec.ofNat 128 (opSignature g o)) false] else []
  let h : CHdr := { key := g.key, seq := o.seq, course := r.course, stage := t.stage, phase := t.phase, step := t.step, pkt := r.pkt,
                    die := r.die, sigf := first }
  let s1 := sendColl 0x20 t.peer g.owner (n * j.size) h (sig ++ elemWords j es) s
  let last := r.pkt + 1 == t.pkts j
  let s2 := updRun i o.seq r.course r.die (fun r =>
    if last then { r with pos := r.pos + 1, pkt := 0, waited := false } else { r with pkt := r.pkt + 1 }) s1
  updOp i o.seq (fun o => { o with
    signed := if first then tag :: o.signed else o.signed, progress := if last then s.now else o.progress }) s2

/-- COLL_RING_STEP_SEND (R385, R386): a die's unit sends one packet of the group that R29 chooses among its table entries; a
stop that waits for the ring step goes on (R456). -/
def execCollRingStepSend (die : BitVec 2) (s : State) : Host.Outcome State Fault Refusal :=
  let d := die.toNat
  let s0 := (groupIds s).foldl (fun s i => countWaits d i s) s
  let ready := (groupIds s0).filter fun i => match s0.group i with
    | some g => (nextSend s0 g d).isSome
    | none => false
  match arbitrate s0.root 12 4096 ready.contains with
  | none => .next s0
  | some i =>
    match s0.group i with
    | none => .next s0
    | some g =>
      match nextSend s0 g d with
      | none => .next s0
      | some (o, j, r, t) => .next (unitsDone (pump i (sendData i g o j r t s0)))

/-! ### Packets (R387, R390, R396) -/

/-- The group that holds a key. -/
def groupByKey (s : State) (key : Nat) : Option (Nat × Group) :=
  s.fab.groups.findSome? fun e => match e.2 with
    | some g => if g.key = key then some (e.1, g) else none
    | none => none

/-- The form of every collective packet that arrives: the epoch check of R351 and no window check. -/
def collIn (port opc : Nat) (rsp : Bool) (words : List (BitVec 144)) (home : State → State) (s : State) :
    Host.Outcome State Fault Refusal :=
  let s1 := takeArrived port words s
  let h := readHdr words
  if ¬ headersGood words 2 ∨ h.opc ≠ opc ∨ h.rsp ≠ rsp then .next (fabCount 10 s1)
  else if h.dst ≠ s.fab.hall then .next (forwardPacket words s1)
  else if (packetWords words).1 ≠ words.length then .next (fabCount 10 s1)
  else if ¬ epochOk s h then
    .next (if rsp then fabCount 2 s1 else respond h 0 0x1F stEpoch [] (fabCount 2 s1))
  else .next (home (if rsp then s1 else fabCount 1 s1))

/-- A packet of an operation: taken if the operation has started, held if its jobs have not all come, and otherwise dropped
and counted (R387, R389, R390). -/
def groupPacket (words : List (BitVec 144)) (s : State) : State :=
  let h := readCHdr words
  match groupByKey s h.key with
  | none => staleDrop h.die s
  | some (i, g) =>
    let live := match g.op h.seq with
      | some o => if o.started then 2 else 1
      | none => if g.isFuture h.seq ∧ Tab.get 0 g.aborted h.seq = 0 then 1 else 0
    if ¬ g.devs.contains (readHdr words).src ∨ g.state = 5 ∨ live = 0 then staleDrop h.die s
    else if live = 1 then updGroup i (fun g => { g with early := g.early ++ [words] }) s
    else unitsDone (pump i (takePacket i h.seq words s))

/-- COLL_DATA (R384, R387, R389). -/
def execCollData (port : BitVec 5) (words : List (BitVec 144)) (s : State) : Host.Outcome State Fault Refusal :=
  collIn port.toNat 0x20 false words (groupPacket words) s

/-- COLL_CREDIT (R385, R387). -/
def execCollCredit (port : BitVec 5) (words : List (BitVec 144)) (s : State) : Host.Outcome State Fault Refusal :=
  collIn port.toNat 0x21 true words (groupPacket words) s

/-- COLL_ABORT (R390): the operation aborts with the carried status, or the abort is recorded for its jobs. -/
def execCollAbort (port : BitVec 5) (words : List (BitVec 144)) (s : State) : Host.Outcome State Fault Refusal :=
  collIn port.toNat 0x22 false words (fun s =>
    let h := readCHdr words
    let st := bitsAt (readWord (words.getD 2 0)).1.toNat 56 16
    match groupByKey s h.key with
    | none => staleDrop h.die s
    | some (i, g) =>
      if ¬ g.devs.contains (readHdr words).src then staleDrop h.die s
      else
        let s1 := collCount (speaker s g) 3 1 s
        if (g.op h.seq).isSome then unitsDone (pump i (abortOp i h.seq st st false s1))
        else if g.isFuture h.seq ∧ Tab.get 0 g.aborted h.seq = 0 then
          recordAbort i h.seq st (updGroup i (fun g => { g with
            aborts := Tab.upd 0 g.aborts (abortKind st) (· + 1),
            early := g.early.filter fun ws => (readCHdr ws).seq != h.seq }) s1)
        else s1) s

/-- BARRIER_ARRIVE (R396): an arrival at rank 0's device. -/
def execBarrierArrive (port : BitVec 5) (words : List (BitVec 144)) (s : State) : Host.Outcome State Fault Refusal :=
  collIn port.toNat 0x23 false words (groupPacket words) s

/-- The one-way delay of a release's path, in 1/256 ridge tick (R247): the hop delay of the port it came by, those of the links
before it, and 192 ridge ticks for each device it crossed. Log 61 (DESIGN CHOICE). -/
def pathDelay (s : State) (port hops earlier : Nat) : Nat := (s.port port).hopDelay + earlier + 192 * 256 * hops

/-- BARRIER_RELEASE (R247, R396): jobs complete; a start barrier's threads resume at a + (B − d). `delays` is the sum of the hop
delays of the links that the release crossed before this device's, in 1/256 ridge tick. -/
def execBarrierRelease (port : BitVec 5) (words : List (BitVec 144)) (delays : BitVec 32) (s : State) :
    Host.Outcome State Fault Refusal :=
  collIn port.toNat 0x24 false words (fun s =>
    let h := readCHdr words
    match groupByKey s h.key with
    | none => staleDrop h.die s
    | some (i, g) =>
      match g.op h.seq with
      | none => staleDrop h.die s
      | some o =>
        if (readHdr words).src ≠ g.hallOf 0 ∨ ¬ o.isBarrier ∨ ¬ o.arriveSent ∨ o.ended.isSome then staleDrop h.die s
        else
          let d := pathDelay s port.toNat (readHdr words).hops delays.toNat
          let b := barrierB g
          let late : Bool := o.plate.isSome && decide (b < d)
          let s1 := if late then { s with time := { s.time with cnt := bump s.time.cnt 10 } } else s
          pump i (releaseBarrier i o (256 * s.now + (b - d)) s1)) s

/-- A thread that its start barrier holds goes on. -/
def leaveBarrier (t : Thread) : Thread := if t.barrier = some 32 then { t with state := 1, barrier := none } else t

/-- The threads of a plate leave their start offsets (R247): those on its cores, and those of its context's long image. -/
def resumePlate (h : Nat) (s : State) : State :=
  let mine := fun (c : Core) => c.live.map Live.plate == some h
  let s1 := (List.range 4096).foldl (fun s t => if mine (s.coreAt (t / 8)) then s.setThread t (leaveBarrier (s.thread t)) else s) s
  let s2 := (Tab.keys s1.core.ctxs).foldl (fun s c =>
    let x := s.ctx c
    s.setCtx c { x with savedThreads := Tab.mapEntries Thread.reset (fun t y =>
      if (Tab.get none x.saved (t / 8)).any mine then leaveBarrier y else y) x.savedThreads }) s1
  updPlate h (fun p => { p with startPending := false }) s2

/-- FABRIC_BARRIER_RESUME (R247): the threads of a group's released plates leave their start offsets once their instants have come. -/
def execFabricBarrierResume (group : BitVec 12) (s : State) : Host.Outcome State Fault Refusal :=
  let due := s.fab.releases.filter fun r => r.1 == group.toNat && decide (r.2.2 ≤ 256 * s.now)
  .next (due.foldl (fun s r => resumePlate r.2.1 s) (updFab (fun f => { f with releases := f.releases.filter fun r => !due.contains r }) s))

/-- COLL_JOIN (R372): compared with the group that waits for it; a JOIN that comes before its group is kept for it. -/
def execCollJoin (port : BitVec 5) (words : List (BitVec 144)) (s : State) : Host.Outcome State Fault Refusal :=
  collIn port.toNat 0x25 false words (fun s =>
    let v := (readWord (words.getD 2 0)).1.toNat
    let e : Join := { key := bitsAt v 0 32, src := (readHdr words).src, digest := bitsAt v 32 64, arith := bitsAt v 96 8 }
    let keep := updFab (fun x => { x with joins := x.joins.filter (fun o => o.key != e.key || o.src != e.src) ++ [e] }) s
    match groupByKey s e.key with
    | some (i, g) => if g.state = 1 ∧ (otherDevs s g).contains e.src then takeJoin i e s else keep
    | none => keep) s

/-! ### Timeouts (R372, R391) -/

/-- COLL_JOIN_TIMEOUT (R372): the JOINs are incomplete after TIMEOUT. -/
def execCollJoinTimeout (group : BitVec 12) (s : State) : Host.Outcome State Fault Refusal :=
  match s.group group.toNat with
  | none => .next s
  | some g =>
    if g.state ≠ 1 ∨ s.now < g.joinAt + 512 * g.timeout then .next s else .next (failJoin group.toNat stCollTimeout s)

/-- COLL_PROGRESS_TIMEOUT (R391): an operation in progress has seen none for TIMEOUT. -/
def execCollProgressTimeout (group : BitVec 12) (s : State) : Host.Outcome State Fault Refusal :=
  let i := group.toNat
  match s.group i with
  | none => .next s
  | some g =>
    match g.ops.find? fun o => o.started && o.ended.isNone && decide (o.progress + 512 * g.timeout ≤ s.now) with
    | none => .next s
    | some o => .next (unitsDone (pump i (abortOp i o.seq stCollTimeout stCollTimeout true s)))

end Sys2Proof.Machine
end

