-- ==== Sys2Proof/Machine/Fronthaul.lean ====
section
/-!
DEFINITION. The fronthaul ports (chapter 07): their commands, ingress, egress, mirroring and link events.
-/
namespace Sys2Proof.Machine
open Sys2Proof

/-! ### Commands (Table 7.11) -/

/-- FH_PORT_CONFIG (R198, R199): the exception queue is not one that is bound to a VF. -/
def execFhPortConfig (m : Mbx) (s : State) : Host.Outcome State Fault Refusal :=
  runCmd m .pf [(16, 1), (18, 4), (24, 6), (32, 1)] (fun s =>
    let p := mfld m 16 1
    let f := mfld m 18 2
    if 8 ≤ p ∨ f < 1518 ∨ 9216 < f ∨ 8192 ≤ mfld m 20 2 ∨ 8 ≤ mfld m 32 1 ∨
        ((s.queue (mfld m 20 2)).en ∧ (s.queue (mfld m 20 2)).fn ≠ 0) then refuse stBadParam s
    else if s.rad.streams.any fun e => e.2.record != [] && e.2.port == p &&
        ((s.cell e.2.cell).state == 2 || (s.cell e.2.cell).state == 3) then refuse stBusy s
    else done (updFhPort p (fun q => { q with
      maxFrame := f, excQ := mfld m 20 2, mac := BitVec.ofNat 48 (mfld m 24 6), multicast := BitVec.ofNat 3 (mfld m 32 1) }) s)) s

/-- Whether a stream record's fields are in their ranges and its addresses where R202 says. -/
def streamOk (s : State) (n : Nat) (x : Stream) : Bool :=
  let c := s.cell x.cell
  decide (x.port < 8) && decide (x.dir < 2) && decide (x.cell < 384) && !bitAt x.vlan 12 && decide (x.ant < 64) &&
    decide (x.comp % 8 < 4) && decide (x.comp < 16) && decide (x.inShift < 16) && decide (fld x.record 17 1 < 8) &&
    decide (x.landCnt < 64) && decide (1 ≤ x.landSyms ∧ x.landSyms ≤ 28) &&
    onlyFields x.record [(0, 25), (32, 8)] && x.prachBase % 256 == 0 && decide (x.core < 512) && ranClaims s 1 x.core &&
    decide (x.landBase < 32768 ∧ 16 * x.landBase + x.landSyms * symbolBytes c ≤ 0x80000) &&
    ranHolds s x.prachBase 1 &&
    !s.rad.streams.any fun e => e.1 != n && e.2.record != [] && e.2.port == x.port && e.2.dir == x.dir && e.2.vid == x.vid &&
      e.2.eaxc == x.eaxc

/-- FH_STREAM_CONFIG (R202, R205, R411): the sequence counters start at 0 and the stream's policer is disabled. -/
def execFhStreamConfig (m : Mbx) (s : State) : Host.Outcome State Fault Refusal :=
  runCmd m .pf [(16, 2), (24, 8)] (fun s =>
    let n := mfld m 16 2
    let x := { Stream.reset with record := sliceBytes (mdata m) 0 64 }
    if 6144 ≤ n ∨ ¬ streamOk s n x then refuse stBadParam s
    else if ¬ ranClaims s 7 n then refuse stNotReady s
    else if (s.cell x.cell).engaged ∨ ((s.stream n).record ≠ [] ∧ (s.cell (s.stream n).cell).engaged) then refuse stBusy s
    else done ((updStream n (fun _ => x) s).setPolicer n Policer.reset)) s

/-- Whether a cell's fronthaul timing record is in its ranges and fits the cell record (Table 7.3, R203). -/
def fhTimingOk (c : Cell) : Bool :=
  decide (c.ulRxMin < Int.ofNat c.ulRxMax) && decide (c.ulRxMax ≤ 196608) && decide (4096 ≤ c.txWin ∧ c.txWin ≤ 196608) &&
    decide (c.txAdv + c.txWin + c.cpDlAdv < c.dlLead)

/-- FH_CELL_TIMING (R203). -/
def execFhCellTiming (m : Mbx) (s : State) : Host.Outcome State Fault Refusal :=
  runCmd m .pf [(16, 2), (32, 28)] (fun s =>
    let cn := mfld m 16 2
    let c := { s.cell cn with timing := sliceBytes (mbytes m) 32 28 }
    if 384 ≤ cn ∨ ¬ fhTimingOk c then refuse stBadParam s
    else if c.engaged then refuse stBusy s
    else done (updCell cn (fun _ => c) s)) s

/-- Whether a mirror ring's size and address fit the role (R219). -/
def mirrorRingOk (s : State) (role lg a : Nat) : Bool :=
  decide (20 ≤ lg ∧ lg ≤ 28) && a % 32 == 0 && (if role = 1 then fabAddrOk a else ranHolds s a (2 ^ lg))

/-- FH_MIRROR (R219, R503): a new primary sends its shadow an echo of the lease. A primary's ring is a fabric address,
a shadow's lies in the RAN partition's HBM. -/
def execFhMirror (m : Mbx) (s : State) : Host.Outcome State Fault Refusal :=
  runCmd m .pf [(16, 4), (24, 8)] (fun s =>
    let cn := mfld m 16 2
    let role := mfld m 18 1
    let lg := mfld m 19 1
    let a := mfld m 24 8
    if 384 ≤ cn ∨ 3 ≤ role ∨ (role ≠ 0 ∧ ¬ mirrorRingOk s role lg a) then refuse stBadParam s
    else if (s.cell cn).engaged then refuse stBusy s
    else
      let s1 := updCell cn (fun c => { c with role := role, ring := a, ringLog := lg, ringAt := 0, mseq := 0 }) s
      done (if role = 1 then sendEcho (shadowOf s1 (s1.cell cn)) s1 else s1)) s

/-- FH_QUERY (R224): the counters of a port or of a stream. -/
def execFhQuery (m : Mbx) (s : State) : Host.Outcome State Fault Refusal :=
  runCmd m .pf [(16, 1), (18, 2)] (fun s =>
    let n := mfld m 18 2
    let items := fun (t : Tab Word) (w : Nat) =>
      (stOk, ({ fields := [], block := some (itemsBlock ((List.range w).map fun i => (Tab.get 0 t (w * n + i)).toNat)) } : Result), s)
    if mfld m 16 1 = 0 ∧ n < 8 then items s.rad.portCnt 16
    else if mfld m 16 1 = 1 ∧ n < 6144 then items s.rad.streamCnt 8
    else refuse stBadParam s) s

/-! ### Ingress (R199, R212 to R218) -/

/-- One section of a frame that passed checks 1 to 6 (R212, R213): its window, its PRBs, its landing, its copies. A window that was
open when block lock returned takes nothing (R223). Log 43 (DEDUCED). -/
def takeSection (n arrival frame ids filter : Nat) (msg : List Byte) (x : Section) (s : State) : State :=
  let r := s.stream n
  let c := s.cell r.cell
  let prach := decide (filter ≠ 0)
  let air := airOf c arrival frame (ids + x.inc)
  let e := airEnd c air prach
  let closed : Bool := match r.symbol air prach with
    | some b => b.closed
    | none => false
  if (arrival : Int) < e + c.ulRxMin then streamCount n 1 s
  else if lastArrival c air prach < arrival ∨ closed then streamCount n 2 s
  else if (e : Int) + c.ulRxMin < (s.fhPort r.port).upAt then s
  else if ((r.symbol air prach).map fun b => b.overlaps x.first x.count).getD false then streamCount n 3 s
  else
    let one := oneSection msg x
    let s1 := landSection n air prach x s
    let s2 := if r.flag 1 then capture 1 n 256 0 0 arrival one [] s1 else s1
    sendMirror n arrival (c.impressionAt air) one s2

/-- Whether a U-plane message's application header is valid for a stream (Table 7.1). -/
def appHeaderOk (c : Cell) (x : Stream) (msg : List Byte) : Bool :=
  let b := fld msg 8 1
  let filter := b % 16
  decide (b / 128 = 0) && decide (b / 16 % 8 = 1) && idsOk c (fldBE msg 10 2) &&
    (filter == 0 || (x.flag 2 && filter == prachFilter c))

/-- The uplink stream that a message's port, VLAN and identifier name. -/
def findStream (s : State) (port vid eaxc : Nat) : Option Nat :=
  (s.rad.streams.find? fun e => e.2.record != [] && e.2.dir == 0 && e.2.port == port && e.2.vid == vid && e.2.eaxc == eaxc).map
    Prod.fst

/-- Counts a gap of the sequence identifiers of a stream (R214). Log 43 (DEDUCED). -/
def checkSeq (n : Nat) (seq : BitVec 8) (s : State) : State :=
  let x := s.stream n
  let gap := match x.rxSeq with
    | some q => seq != q + 1
    | none => false
  let s1 := updStream n (fun x => { x with rxSeq := some seq }) s
  if gap then streamCount n 6 s1 else s1

/-- Whether an eCPRI message of type 0 keeps the rules of R200. -/
def ecpriOk (msg : List Byte) : Bool :=
  decide (12 ≤ msg.length) && fld msg 0 1 % 2 == 0 && decide (fld msg 0 1 / 16 = 1) && bitAt (fld msg 7 1) 7 && decide (fld msg 7 1 % 128 = 0) &&
    decide (8 ≤ fldBE msg 2 2 ∧ fldBE msg 2 2 + 4 ≤ msg.length)

/-- Sends a frame to its port's exception queue, a queue of the PF, or drops it (R199). -/
def exceptionFrame (port : Nat) (frame : List Byte) (s : State) : State :=
  let h := (s.fhPort port).excQ
  if (s.queue h).fn ≠ 0 then portCount port 7 s
  else
    let r := postRecord h { bytes := frame, poison := false, owner := 1, owned := port } s
    portCount port (if r.1 then 6 else 7) r.2

/-- Whether a stream is being replayed, so that live frames are shut out (R480). Log 49 (DESIGN CHOICE). -/
def streamReplayed (s : State) (n : Nat) : Bool :=
  (s.stream n).flag 1 && (match s.det.replay with
    | some r => r.streams
    | none => false)

/-- The state of a stream's cell for the slot that a message names (R167), or its present one where it names none. Once a cell that
the fence stopped has moved to CONFIGURED, the slots before that boundary are inactive too (R222). -/
def messageState (c : Cell) (arrival : Nat) (msg : List Byte) : Nat :=
  let ids := fldBE msg 10 2
  let slot := airOf c arrival (fld msg 9 1) ids / c.slotTicks
  if idsOk c ids ∧ (c.cutoff ≤ slot ∨ c.state = 2 ∨ c.state = 3) then cellStateFor c (slot * c.slotTicks) else c.state

/-- A received eCPRI message of a port from step 2 of Table 7.7 on; `len` is the frame's length with its FCS, and `live` tells a
frame from a replayed record. Log 43 (DEDUCED). -/
def ingress (live : Bool) (port vid src len arrival : Nat) (frame msg : List Byte) (s : State) : State :=
  let type := fld msg 1 1
  if type ≠ 0 ∧ type ≠ 2 then exceptionFrame port frame s
  else if type = 2 ∨ ¬ ecpriOk msg then portCount port 4 s
  else
    match findStream s port vid (fldBE msg 4 2) with
    | none => portCount port 3 s
    | some n =>
      let x := s.stream n
      let c := s.cell x.cell
      if x.mac ≠ src ∨ (live ∧ streamReplayed s n) then portCount port 3 s
      else if messageState c arrival msg ≠ 2 then portCount port 5 s
      else
        let p := police (Tab.get Policer.reset s.traf.policers n) len
        let s1 := s.setPolicer n p.2
        if ¬ p.1 then streamCount n 4 s1
        else
          let s2 := checkSeq n (BitVec.ofNat 8 (fld msg 6 1)) s1
          let body := (msg.take (fldBE msg 2 2 + 4)).drop 12
          if ¬ appHeaderOk c x msg ∨ body = [] then portCount port 4 s2
          else
            let filter := fld msg 8 1 % 16
            let r := readSections x (if filter = 0 then c.nPrb else c.prachPrbs) body.length 0 body
            let s3 := r.1.foldl (fun s y => takeSection n arrival (fld msg 9 1) (fldBE msg 10 2) filter msg y s) s2
            if r.2 then s3 else portCount port 4 s3

/-- Whether a port takes a frame of another EtherType (R199): its own address, broadcast, or an enabled multicast one. -/
def exceptionAddress (q : FhPort) (dst : Nat) : Bool :=
  dst == q.mac.toNat || dst == 0xFFFFFFFFFFFF ||
    (if dst = 0x011B19000000 then q.multicast.getLsbD 0
     else if dst = 0x0180C200000E then q.multicast.getLsbD 1
     else bitAt dst 40 && q.multicast.getLsbD 2)

/-- FH_FRAME_RX (R198, R199, R212, R229): a frame from its destination address to its last byte before the FCS, whose last byte
passes the receive plane now; `raw` is the raw stamp of its first bit, in 1/256 ridge tick. A port without block lock receives
nothing (R223). -/
def execFhFrameRx (port : BitVec 3) (raw : BitVec 72) (fcsOk : Bool) (frame : List Byte) (s : State) : Host.Outcome State Fault Refusal :=
  let p := port.toNat
  let q := s.fhPort p
  let s0 := portCount p 0 s
  let len := frame.length + 4
  if ¬ q.link then .next s
  else if ¬ fcsOk ∨ len < 64 then .next (portCount p 1 s0)
  else if q.maxFrame < len then .next (portCount p 2 s0)
  else
    let tagged := fldBE frame 12 2 == 0x8100
    let off := if tagged then 18 else 14
    let vid := if tagged then fldBE frame 14 2 % 4096 else 0
    match fldBE frame (off - 2) 2 with
    | 0xAEFE => .next (ingress true p vid (fldBE frame 6 6) len s.now frame (frame.drop off) s0)
    | 0x88F7 => .next (ptpReceive p 0 raw.toNat frame s0)
    | _ =>
      if exceptionAddress q (fldBE frame 0 6) then .next (exceptionFrame p frame s0)
      else .next (portCount p 3 s0)

/-- The cell states in which a symbol of an uplink stream is collected (Table 6.4). -/
def collects (c : Cell) (air : Nat) : Bool :=
  let st := cellStateFor c (air / c.slotTicks * c.slotTicks)
  st == 2 || st == 3

/-- SYMBOL_WINDOW_OPEN (R215): from E + UL_RX_MIN on a symbol's buffer is zeroed, once. -/
def execSymbolWindowOpen (stream : BitVec 13) (air : BitVec 64) (s : State) : Host.Outcome State Fault Refusal :=
  let n := stream.toNat
  let t := air.toNat
  let x := s.stream n
  let c := s.cell x.cell
  if x.record ≠ [] ∧ x.dir = 0 ∧ (c.symbolAt t).isSome ∧ collects c t ∧ (c.symbolEnd t : Int) + c.ulRxMin ≤ s.now then
    let s1 := openSymbol n t false s
    .next (if x.flag 2 ∧ c.prachUses ((c.symbolAt t).getD 0) then openSymbol n t true s1 else s1)
  else .next s

/-- The highest stream of a cell that a primary mirrors. -/
def lastMirrored (s : State) (cn : Nat) : Option Nat :=
  ((s.rad.streams.filter fun e => e.2.record != [] && e.2.dir == 0 && e.2.cell == cn && e.2.flag 0).map Prod.fst).max?

/-- SYMBOL_CLOSE (R217, R221): after the last arrival of a symbol's window, MIRROR_DELAY later on a shadow, the symbol closes: its
missing PRBs are counted and LAND_CNT retires one count. A primary sends the slot's metadata with its last symbol. -/
def execSymbolClose (stream : BitVec 13) (air : BitVec 64) (s : State) : Host.Outcome State Fault Refusal :=
  let n := stream.toNat
  let t := air.toNat
  let x := s.stream n
  let c := s.cell x.cell
  let shadow := cellStateFor c (t / c.slotTicks * c.slotTicks) == 3
  let limit := c.symbolEnd t + c.ulRxMax + if shadow then c.mirrorDelay else 0
  if x.record = [] ∨ x.dir ≠ 0 ∨ (c.symbolAt t).isNone ∨ ¬ collects c t ∨ s.now ≤ limit then .next s
  else
    let s1 := openSymbol n t false s
    match (s1.stream n).symbol t false with
    | none => .next s1
    | some b =>
      if b.closed then .next s1
      else
        let s2 := updStream n (fun x => { x with symbols := x.symbols.map fun y =>
          if y.air == t && !y.prach then { y with closed := true } else y }) s1
        let s3 := retireFor 256 x.core x.landCnt stOk (streamCountBy n 5 (b.missing c.nPrb) s2)
        .next (if ¬ shadow ∧ c.symbolAt t = some 13 ∧ lastMirrored s x.cell = some n then sendMeta x.cell (c.impressionAt t) s3 else s3)

/-! ### Mirrored uplink at a shadow (R193, R221) -/

/-- Lands the section of a mirror record in every uplink stream of its cell with the ANT of the stream that it names. Log 45 (DESIGN CHOICE). -/
def landMirrored (cn n arrival : Nat) (msg : List Byte) (s : State) : State :=
  let x := s.stream n
  let c := s.cell cn
  let filter := fld msg 8 1 % 16
  let prach := decide (filter ≠ 0)
  let targets := (s.rad.streams.filter fun e => e.2.record != [] && e.2.dir == 0 && e.2.cell == cn && e.2.ant == x.ant).map Prod.fst
  let ss := (readSections x (if filter = 0 then c.nPrb else c.prachPrbs) 1 0 ((msg.take (fldBE msg 2 2 + 4)).drop 12)).1
  targets.foldl (fun s k => ss.foldl (fun s y =>
    let air := airOf c arrival (fld msg 9 1) (fldBE msg 10 2 + y.inc)
    match (s.stream k).symbol air prach with
    | some b => if b.closed then streamCount k 6 s else if b.overlaps y.first y.count then streamCount k 3 s else landSection k air prach y s
    | none => landSection k air prach y s) s) s

/-- A mirror record as a shadow takes it (R221). A gap of MSEQ marks a slot where both records beside it are that slot's; one between
two slots shows in the counts. Log 45 (DESIGN CHOICE). -/
def takeMirror (bytes : List Byte) (s : State) : State :=
  let n := fld bytes 0 2
  let cn := fld bytes 2 2
  let imp := fld bytes 16 8
  let content := sliceBytes bytes 32 (fld bytes 4 2)
  let c := s.cell cn
  if n = metaStream then
    updCell cn (fun c => { c with metas := c.metas.filter (·.imp != imp) ++
      [{ imp := imp, count := fld content 0 8, body := content.drop 8 }] }) s
  else
    let mseq := BitVec.ofNat 16 (fld bytes 6 2)
    let gap := match c.lastMseq with
      | some q => c.lastImp == imp && mseq != q + 1
      | none => false
    let s1 := updCell cn (fun c => { c with lastMseq := some mseq, lastImp := imp, gaps := if gap then imp :: c.gaps else c.gaps }) s
    if mirrorLimit c imp < s.now ∨ c.blind.contains imp then streamCount n 6 s1
    else
      let s2 := updCell cn (fun c => { c with landed := Tab.upd 0 c.landed imp (· + 1) }) s1
      let s3 := if (s.stream n).flag 1 then capture 1 n 256 0 0 s.now bytes [] s2 else s2
      landMirrored cn n (fld bytes 8 8) content s3

/-- MIRROR_RECORD_RX (R219, R221): a shadow takes records only from the primary that CELL_SHADOW named. -/
def execMirrorRecordRx (source : BitVec 14) (bytes : List Byte) (s : State) : Host.Outcome State Fault Refusal :=
  let c := s.cell (fld bytes 2 2)
  .next (if cellStateFor c (fld bytes 16 8 * c.slotTicks) = 3 ∧ c.role = 2 ∧ c.primary = source.toNat then takeMirror bytes s else s)

/-- MIRROR_DEADLINE (R221): a slot whose mirror records are not complete is treated as one without metadata. -/
def execMirrorDeadline (cell : BitVec 9) (impression : BitVec 64) (s : State) : Host.Outcome State Fault Refusal :=
  let cn := cell.toNat
  let imp := impression.toNat
  let c := s.cell cn
  .next (if cellStateFor c (imp * c.slotTicks) = 3 ∧ mirrorLimit c imp ≤ s.now ∧ ¬ mirrorComplete c imp then shadowGap cn imp s else s)

/-! ### Egress (R205 to R211) -/

/-- The Ethernet and VLAN header of a stream's frames (R205). Log 43 (DEDUCED). -/
def ethHeader (q : FhPort) (x : Stream) : List Byte :=
  beBytes 6 x.mac ++ beBytes 6 q.mac.toNat ++ (if x.vlan = 0 then [] else beBytes 2 0x8100 ++ beBytes 2 x.vlan) ++ beBytes 2 0xAEFE

/-- One section extension of a C-plane section: its type and its bytes. -/
abbrev Extension := Nat × List Byte

/-- The section extensions of a C-plane section, a chain of (ef, extType, extLen in words), and the bytes that they take; none where one
has no length. Log 42 (PRESUMED). -/
def readExtensions : Nat → List Byte → Option (List Extension × Nat)
  | 0, _ => none
  | n + 1, bs =>
    let t := fld bs 0 1
    let len := 4 * (if t % 128 = 11 then fldBE bs 1 2 else fld bs 1 1)
    if len = 0 then none
    else if bitAt t 7 then (readExtensions n (bs.drop len)).map fun r => ((t % 128, bs.take len) :: r.1, len + r.2)
    else some ([(t % 128, bs.take len)], len)

/-- Whether a section extension is one of Table 7.1: 11 carries no weights, or weights in block floating point. Log 42 (PRESUMED). -/
def extensionOk (e : Extension) : Bool :=
  [1, 6, 10, 11, 12, 13].contains e.1 && (e.1 != 11 || bitAt (fld e.2 3 1) 7 || fld e.2 5 1 % 16 == 1)

/-- The further ports that a section's beam is for: extension 10 counts those that follow the message's own. Log 42 (PRESUMED). -/
def groupPorts (es : List Extension) : Nat := ((es.find? (·.1 == 10)).map fun e => fld e.2 2 1 % 64).getD 0

/-- What a section covers, as (symbol, first PRB, PRBs), after an extension that changes it: 6 keeps the resource block groups and symbols
of its masks, 12 adds ranges of PRBs, each from the end of the one before, in the symbols of its mask, and 13 moves the section to
another PRB from a symbol on. Log 42 (PRESUMED). -/
def extendRuns (first count : Nat) (runs : List (Nat × Nat × Nat)) (e : Extension) : List (Nat × Nat × Nat) :=
  let b := e.2
  match e.1 with
  | 6 =>
    let size := [1, 1, 2, 3, 4, 6, 8, 16].getD (fld b 2 1 / 16 % 8) 1
    let mask := fldBE b 2 4 % 2 ^ 28
    let symbols := fldBE b 6 2 % 2 ^ 14
    (runs.filter fun r => bitAt symbols r.1).flatMap fun r => (List.range count).filterMap fun i =>
      if bitAt mask ((first + i) / size - first / size) then some (r.1, first + i, 1) else none
  | 12 =>
    let symbols := fldBE b 2 2 % 2 ^ 14
    let pairs := (chunks 2 (b.drop 4)).map fun p => (fld p 0 1, fld p 1 1)
    let more := (pairs.foldl (fun (st : Nat × List (Nat × Nat)) p =>
      if p.2 = 0 then st else (st.1 + p.1 + p.2, st.2 ++ [(st.1 + p.1, p.2)])) (first + count, [])).2
    (runs.filter fun r => bitAt symbols r.1).flatMap fun r => r :: more.map fun m => (r.1, m.1, m.2)
  | 13 =>
    ((chunks 2 (b.drop 2)).map fun p => fldBE p 0 2).foldl (fun rs h =>
      rs.map fun r => if h / 1024 ≤ r.1 ∧ h ≠ 0 then (r.1, h % 1024, count) else r) runs
  | _ => runs

/-- Sections of a C-plane message from a symbol on, at most n of them, as (further ports, sectionId, what it covers); none where one
uses a feature that Table 7.1 does not list (rb, another extension) or names PRBs outside the carrier. Log 42 (PRESUMED). -/
def cSections (nPrb size : Nat) : Nat → Nat → List Byte → Option (List (Nat × Nat × List (Nat × Nat × Nat)))
  | 0, _, bs => if bs = [] then some [] else none
  | n + 1, k, bs =>
    let h := fldBE bs 0 4
    let first := bitsAt h 8 10
    let count := if h % 256 = 0 then nPrb - first else h % 256
    let k1 := k + bitsAt h 18 1
    let symbols := fldBE bs 4 2 % 16
    let runs := (List.range (if symbols = 0 then 14 - k1 else min symbols (14 - k1))).map fun i => (k1 + i, first, count)
    let ext := if bitAt (fld bs 6 1) 7 then readExtensions 64 (bs.drop size) else some ([], 0)
    match ext with
    | none => none
    | some (es, len) =>
      if bs.length < size + len ∨ bitAt h 19 ∨ nPrb < first + count ∨ ¬ es.all extensionOk then none
      else (cSections nPrb size n k1 (bs.drop (size + len))).map fun r => (groupPorts es, h / 2 ^ 20, es.foldl (extendRuns first count) runs) :: r

/-- The sectionId of the C-plane section sent that covers a PRB of a symbol (R205). -/
def sectionAt (c : Cell) (x : Stream) (air p : Nat) : Option Nat :=
  let slot := air / c.slotTicks * c.slotTicks
  let k := (c.symbolAt air).getD 0
  (x.sections.find? fun e => e.slot == slot && e.runs.any fun r => r.1 == k && decide (r.2.1 ≤ p ∧ p < r.2.1 + r.2.2)).map SentSection.id

/-- The runs of PRBs from first to last that one frame may carry: cut where the C-plane's sections change, where a PRB may not be
sent, at most `room` PRBs and at most 255 unless the run is the whole carrier. Each as (first, count). Log 46 (DEDUCED). -/
def prbRuns (nPrb room : Nat) (send : Nat → Bool) (sec : Nat → Option Nat) : List Nat → List (Nat × Nat) → List (Nat × Nat)
  | [], acc => acc.reverse
  | p :: r, acc =>
    if ¬ send p then prbRuns nPrb room send sec r acc
    else
      match acc with
      | (a, k) :: t =>
        if a + k = p ∧ sec a = sec p ∧ k < room ∧ (k < 255 ∨ (a = 0 ∧ nPrb ≤ room)) then prbRuns nPrb room send sec r ((a, k + 1) :: t)
        else prbRuns nPrb room send sec r ((p, 1) :: acc)
      | [] => prbRuns nPrb room send sec r [(p, 1)]

/-- Cuts a run of more than 255 PRBs that is not the whole carrier. Log 46 (DEDUCED). -/
def cutRun (nPrb : Nat) (r : Nat × Nat) : List (Nat × Nat) :=
  if r.2 ≤ 255 ∨ r.2 = nPrb then [r] else [(r.1, 255), (r.1 + 255, r.2 - 255)]

/-- Queues a frame of an egress job with its window (R206). -/
def queueFrame (port : Nat) (f : TxFrame) (s : State) : State := updFhPort port (fun q => { q with frames := q.frames ++ [f] }) s

/-- The next sequence identifier of a stream's plane (R205). -/
def nextSeq (n : Nat) (cplane : Bool) (s : State) : BitVec 8 × State :=
  let x := s.stream n
  if cplane then (x.seqC, updStream n (fun x => { x with seqC := x.seqC + 1 }) s)
  else (x.seqU, updStream n (fun x => { x with seqU := x.seqU + 1 }) s)

/-- Adds a message of a stream to its port's queue, its window [REL, DL]. -/
def queueMessage (n : Nat) (cplane : Bool) (rel dl job : Nat) (payload : List Byte) (s : State) : State :=
  let x := s.stream n
  let q := nextSeq n cplane s
  let msg := ecpriHeader (if cplane then 2 else 0) (4 + payload.length) x.eaxc q.1.toNat ++ payload
  queueFrame x.port { stream := n, rel := rel, dl := dl, seq := q.1.toNat, bytes := ethHeader (s.fhPort x.port) x ++ msg, job := job } q.2

/-- The number of frames that wait for a job. Log 42 (PRESUMED). -/
def jobFrames (s : State) (job : Nat) : Nat := ((List.range 8).map fun p => ((s.fhPort p).frames.filter (·.job == job)).length).sum

/-- Registers a job whose frames are queued with the status it has so far; a job without a frame retires at once (R209). Log 46 (DEDUCED). -/
def closeJob (job core cnt who status : Nat) (s : State) : State :=
  let left := jobFrames s job
  if left = 0 then retireFor who core cnt status s
  else updRad (fun r => { r with egress := r.egress ++ [{ id := job, core := core, cnt := cnt, who := who, left := left, status := status }] }) s

/-- A U-plane job (R205, R206, R210, R211): the PRBs of one symbol, in frames of one section each. -/
def egressUser (n air src first count job : Nat) (s : State) : Nat × State :=
  let x := s.stream n
  let c := s.cell x.cell
  let w := compWidth x.comp
  let r := memRead 256 src (48 * count) s
  let tainted := fun (p : Nat) => s.mem.mem.poisonAt (src + 48 * (p - first)) 48
  let sec := sectionAt c x air
  let head := (ethHeader (s.fhPort x.port) x).length + 8 + 4 + (if x.dyn then 6 else 4) + 4
  let room := ((s.fhPort x.port).maxFrame - head) / prbBytes w
  let runs := (prbRuns c.nPrb room (fun p => !tainted p) sec ((List.range count).map (first + ·)) []).flatMap (cutRun c.nPrb)
  let rel := air - c.txAdv - c.txWin
  let s1 := runs.foldl (fun s e =>
    let d := (match sec e.1 with
      | some i => (i, s)
      | none => let v := s.draw; (v.1.toNat % 4096, v.2) : Nat × State)
    let prbs := (chunks 48 (sliceBytes r.1.bytes (48 * (e.1 - first)) (48 * e.2))).flatMap fun b => compressPrb w (bytesComponents b)
    let h := d.1 * 2 ^ 20 + e.1 * 2 ^ 8 + (if e.2 = c.nPrb then 0 else e.2 % 256)
    let body := [(0x90 : Byte)] ++ airIds c air ++ beBytes 4 h ++ (if x.dyn then [BitVec.ofNat 8 (compHeader w), 0] else []) ++ prbs
    queueMessage n false rel (air - c.txAdv) job body d.2) r.2
  (if r.1.poison then stPoison else stOk, s1)

/-- The compression header of a C-plane message of a section type, whose bytes begin after sectionType. Log 42 (PRESUMED). -/
def cplaneComp (sectType : Nat) (bs : List Byte) : Nat := fld bs (if sectType = 3 then 5 else 0) 1

/-- The streams of the k ports that follow a stream's own: those of its port, direction and VLAN with the next identifiers. -/
def groupStreams (s : State) (n k : Nat) : List Nat :=
  let x := s.stream n
  (s.rad.streams.filter fun e => e.2.record != [] && e.2.port == x.port && e.2.dir == x.dir && e.2.vid == x.vid &&
    decide (x.eaxc < e.2.eaxc ∧ e.2.eaxc ≤ x.eaxc + k)).map Prod.fst

/-- Keeps a C-plane section for the U-plane of a stream (R205). -/
def keepSection (air : Nat) (c : Cell) (id : Nat) (runs : List (Nat × Nat × Nat)) (n : Nat) (s : State) : State :=
  updStream n (fun x => { x with
    sections := (x.sections.filter fun e => decide (air ≤ e.slot + epochTicks)) ++
      [{ slot := air / c.slotTicks * c.slotTicks, id := id, runs := runs }] }) s

/-- A C-plane job (R201, R205, R206): one message; its sections are kept to number the U-plane's, those of a group of ports for each of
its streams. One that uses a feature which Table 7.1 does not list is refused. -/
def egressControl (n sectType air src len nSect job : Nat) (s : State) : Nat × State :=
  let x := s.stream n
  let c := s.cell x.cell
  let r := memRead 256 src len s
  if r.1.poison then (stPoison, r.2)
  else
    let down := x.dir == 1
    let filter := if sectType = 3 ∧ x.flag 2 then prachFilter c else 0
    let rel := if down then air - c.txAdv - c.txWin - c.cpDlAdv else air - c.cpUlAdv - c.txWin
    let dl := if down then air - c.txAdv - c.cpDlAdv else air - c.cpUlAdv
    let body := [BitVec.ofNat 8 (128 * bit down + 16 + filter)] ++ airIds c air ++ [BitVec.ofNat 8 nSect, BitVec.ofNat 8 sectType] ++ r.1.bytes
    match cSections c.nPrb (if sectType = 3 then 12 else 8) nSect ((c.symbolAt air).getD 0) (r.1.bytes.drop (if sectType = 3 then 6 else 2)) with
    | none => (stBadParam, r.2)
    | some secs =>
      if (dynWidth (cplaneComp sectType r.1.bytes)).isNone then (stBadParam, r.2)
      else
        let s1 := secs.foldl (fun s e => (n :: groupStreams s n e.1).foldl (fun s k => keepSection air c e.2.1 e.2.2 k s) s) r.2
        (stOk, queueMessage n true rel dl job body s1)

/-- Whether an egress job's fields are right (Table 7.4). Log 46 (DEDUCED). -/
def egressOk (s : State) (b : List Byte) : Bool :=
  let x := s.stream (fld b 0 2)
  let c := s.cell x.cell
  let user := fld b 2 1 == 0
  let n := if user then 48 * fld b 26 2 else fld b 28 2
  x.record != [] && decide (fld b 2 1 ≤ 1) && onlyFields b [(0, 4), (8, 24)] && decide (fld b 31 1 < 64) &&
    (c.symbolAt (fld b 8 8)).isSome && mayAccess s 256 (fld b 16 8) n &&
    (if user then x.dir == 1 && fld b 3 1 == 0 && fld b 28 3 == 0 && decide (1 ≤ fld b 26 2 ∧ fld b 24 2 + fld b 26 2 ≤ c.nPrb)
     else fld b 24 4 == 0 && (fld b 3 1 == 1 || fld b 3 1 == 3) && decide (1 ≤ fld b 30 1 ∧ fld b 30 1 ≤ 64 ∧ 1 ≤ n))

/-- FH_EGRESS_JOB (R205, R206, R210): the job at the head of a port's egress job port. -/
def execFhEgressJob (port : BitVec 3) (s : State) : Host.Outcome State Fault Refusal :=
  let p := port.toNat
  match headJob (0x10 + p) s with
  | none => .next s
  | some j =>
    let b := leBytes 64 j.block.toNat
    let n := fld b 0 2
    let x := s.stream n
    let s1 := popJob (0x10 + p) s
    if ¬ egressOk s b ∨ x.port ≠ p then .next (retireFor 256 (if x.record = [] then j.core else x.core) (fld b 31 1 % 64) stBadParam s1)
    else
      let id := s.rad.nextJob
      let s2 := updRad (fun r => { r with nextJob := id + 1 }) s1
      let r := if fld b 2 1 = 0 then egressUser n (fld b 8 8) (fld b 16 8) (fld b 24 2) (fld b 26 2) id s2
        else egressControl n (fld b 3 1) (fld b 8 8) (fld b 16 8) (fld b 28 2) (fld b 30 1) id s2
      .next (closeJob id x.core (fld b 31 1) j.who r.1 r.2)

/-- Whether frame a goes before frame b (R207): earlier DL, then earlier REL, lower stream, lower sequence identifier. -/
def frameBefore (a b : TxFrame) : Bool :=
  decide (a.dl < b.dl ∨ (a.dl = b.dl ∧ (a.rel < b.rel ∨ (a.rel = b.rel ∧ (a.stream < b.stream ∨
    (a.stream = b.stream ∧ a.seq < b.seq))))))

/-- The ready frame that a port sends next (R207). -/
def readyFrame (s : State) (p : Nat) : Option TxFrame :=
  ((s.fhPort p).frames.filter fun f => decide (f.rel ≤ s.now)).foldl (fun b f => match b with
    | none => some f
    | some g => if frameBefore f g then some f else some g) none

/-- Ridge ticks that a frame of n bytes with its FCS takes on the wire at 400 Gb/s, with 20 bytes of preamble and gap (R208). Log 46 (DEDUCED). -/
def wireTicks (n : Nat) : Nat := ceilDiv ((n + 20) * 3072) 78125

/-- Why a ready frame may not leave: the port counter or stream counter that counts it, if one does. -/
inductive FrameDrop where
  | fenced
  | linkDown
  | inactive
  | late
deriving DecidableEq, Repr

/-- Whether a ready frame is dropped (R209, R210, R222, R223); its cell's state is that of its REL, and its length on the wire that of
the padded frame. Where several reasons hold at once, the fence goes before a lost link, that before an inactive cell and that before
lateness: log 86 (DESIGN CHOICE). Log 46 (DEDUCED). -/
def frameDrop (s : State) (p : Nat) (f : TxFrame) : Option FrameDrop :=
  if s.radioFenced ∨ (s.cell (s.stream f.stream).cell).muted then some .fenced
  else if ¬ (s.fhPort p).link then some .linkDown
  else if cellStateFor (s.cell (s.stream f.stream).cell) f.rel ≠ 2 then some .inactive
  else if f.dl < s.now + wireTicks (wireFrame f.bytes).length then some .late
  else none

/-- Counts a dropped frame. Log 46 (DEDUCED). -/
def countDrop (p : Nat) (f : TxFrame) (d : FrameDrop) (s : State) : State :=
  match d with
  | .fenced => portCount p 9 s
  | .linkDown => portCount p 10 s
  | .inactive => s
  | .late => streamCount f.stream 7 s

/-- Sends the earliest ready eCPRI frame that may leave, dropping those before it that may not; `true` if one was sent. -/
def sendRadio (p : Nat) : Nat → State → Bool × State
  | 0, s => (false, s)
  | k + 1, s =>
    match readyFrame s p with
    | none => (false, s)
    | some f =>
      let s1 := takeFrameOut p f s
      match frameDrop s p f with
      | some d => sendRadio p k (frameGone f.job stDeadline (countDrop p f d s1))
      | none => (true, frameGone f.job stOk (portCount p 8 (emit (.fhFrame p (wireFrame f.bytes)) s1)))

/-- FH_TX_FRAME_BOUNDARY (R207): a PTP frame first, then the ready eCPRI frame of the earliest DL, then a frame that the egress
scheduler chooses among the port's queues; `raw` is the raw stamp of a PTP frame. -/
def execFhTxFrameBoundary (port : BitVec 3) (raw : BitVec 72) (s : State) : Host.Outcome State Fault Refusal :=
  let p := port.toNat
  if ptpWaits s p then .next (ptpTransmit p 0 raw.toNat s)
  else
    let r := sendRadio p (s.fhPort p).frames.length s
    if r.1 then .next r.2
    else
      let s1 := atDecision p r.2
      match pickRival s1 (egressRivals s1 p) with
      | none => .next s1
      | some x => .next (takeEntry x.hq stOk s1)

/-! ### Block lock (R223, R240) -/

/-- FH_BLOCK_LOCK_LOSS (R223, R240): the loss is counted once, and a SyncE source without its indications is squelched; `fec`
says whether the FEC keeps its lock. Log 43 (DEDUCED). -/
def execFhBlockLockLoss (port : BitVec 3) (fec : Bool) (s : State) : Host.Outcome State Fault Refusal :=
  let p := port.toNat
  let s1 := updFhPort p (fun q => { q with link := false, fecLock := fec }) s
  let s2 := if (s.fhPort p).link then portCount p 13 s1 else s1
  .next (if s.time.synceSource = some p then squelch { s2 with time := { s2.time with synceGood := none } } else s2)

/-- The frames whose REL passed while a port had no lock are dropped, each counted in TX_LINKDOWN whatever its cell's state was (R223).
Log 86 (DESIGN CHOICE). -/
def dropMissed (p : Nat) (s : State) : State :=
  (s.fhPort p).frames.foldl (fun s f =>
    if f.rel ≤ s.now then frameGone f.job stDeadline (portCount p 10 (takeFrameOut p f s)) else s) s

/-- FH_BLOCK_LOCK_REGAIN (R223, R240): lock stands on a FEC that is locked; frames go from the next REL, and windows that are open take
nothing. -/
def execFhBlockLockRegain (port : BitVec 3) (s : State) : Host.Outcome State Fault Refusal :=
  let p := port.toNat
  let s0 := if (s.fhPort p).link then s else dropMissed p s
  let s1 := updFhPort p (fun q => { q with link := true, fecLock := true, upAt := if q.link then q.upAt else s.now }) s0
  .next (if s.time.synceSource = some p ∧ s.time.synceGood = none then
    { s1 with time := { s1.time with synceGood := some s.now } } else s1)

end Sys2Proof.Machine
end

