-- ==== Sys2Proof/Machine/Lease.lean ====
section
/-!
DEFINITION. The lease, fencing, fault reporting, health, the peer epoch table and cell takeover (chapter 18).
-/
namespace Sys2Proof.Machine
open Sys2Proof

/-- Changes the lease unit. -/
def updFlt (f : Faults → Faults) (s : State) : State := { s with flt := f s.flt }

/-- One event of a fault counter (Table 18.12). -/
def fltCount (i : Nat) (s : State) : State := updFlt (fun f => { f with cnt := bump f.cnt i }) s

/-! ### Registers (R508) -/

/-- `LEASE_STATUS`. -/
def leaseStatusReg (f : Faults) : Nat :=
  2 ^ 16 * f.cause.toNat + 2 ^ 8 * f.fatal.toNat + 4 * bit f.probation + 2 * bit f.fenced + bit f.leased

/-- `FLT_HEALTH` of a category. -/
def healthReg (f : Faults) (c : Nat) : Nat :=
  let h := Tab.get (healthDefault c) f.health c
  2 ^ 8 * h.lastCount.toNat + h.level.toNat

/-! ### The fence (R493 to R495, R497) -/

/-- Ends the fabric work of the owners that a condition names (R353, R497). -/
def endFabricWork (owners : Nat → Bool) (s : State) : State :=
  settleXfers (failXfers stFenced (endTracks (fun t => owners t.owner) stFenced s))

/-- Only VC0 leaves a fenced device (R339, R353): the words of other packets that wait on a lane are taken back. -/
def stopLanes (s : State) : State :=
  updFab (fun f => { f with ports := Tab.mapEntries AbrPort.reset (fun _ p => { p with
    lanes := Tab.mapEntries Lane.reset (fun _ l => { l with waiting := l.waiting.filter fun e => e.2.2.vc == 0 }) p.lanes }) f.ports }) s

/-- What the fence does to every part of the device (Table 18.5), with the fence in force. -/
def fenceParts (s : State) : State :=
  let s1 := unitsDone (groupsFenced (endFabricWork (fun _ => true) (stopLanes s)))
  let s2 := (List.range 72).foldl (fun s i => endEntries (8 + i) stFenced s) s1
  let s3 := if s2.radioFenced then fenceCells (fenceFronthaul s2) else s2
  updRec (fun r => { r with staged := [] }) (updFlt (fun f => { f with armed := [] }) s3)

/-- The FENCED event, and FENCE_NOTICE to every shadow (R494). -/
def tellFence (s : State) : State :=
  let s1 := faultEvent 2 (leBytes 8 s.flt.cause.toNat ++ leBytes 8 s.flt.lastFence.toNat) s
  (shadows s1).foldl (fun s d => sendControl 0x30 d s.flt.epoch.toNat s.flt.lastFence.toNat s) s1

/-- The device fences for a cause (R493, R494): a fence that is already in force takes a fatal cause or a reset as its cause
(Table 18.10, Table 21.8). Log 64 (DEDUCED), 65 (DESIGN CHOICE). -/
def fence (cause : Nat) (s : State) : State :=
  if s.flt.fenced then
    let s1 := if cause = 4 ∨ cause = 5 then updFlt (fun f => { f with cause := BitVec.ofNat 4 cause }) s else s
    if s1.radioFenced ∧ ¬ s.radioFenced then fenceCells (fenceFronthaul s1) else s1
  else
    let s1 := updFlt (fun f => { f with
      leased := false, fenced := true, cause := BitVec.ofNat 4 cause, retired := f.epoch,
      lastFence := BitVec.ofNat 64 s.now }) s
    tellFence (dryEvent 3 (fenceParts s1))

/-! ### Requests and grants (R488 to R491, R498) -/

/-- The REQUEST of Table 18.3 and its body (Table 18.7). Log 63 (DEDUCED). -/
def sendRequestFrame (s : State) : State :=
  let f := s.flt
  let levels := ((List.range 8).map fun c => (Tab.get (healthDefault c) f.health c).level.toNat * 4 ^ c).sum
  let sat := fun i => min (Tab.get 0 f.cnt i).toNat 0xFFFF
  let flags := bit f.leased + 2 * bit f.probation + 4 * bit f.fenced
  sendLease (leaseHeader s 1 flags f.nonce.toNat s.now 0 ++
    [(32, 2, levels), (34, 2, sat 3), (36, 2, sat 4), (38, 2, sat 7), (40, 2, sat 6), (42, 2, sat 8), (48, 8, f.lastFence.toNat),
     (56, 4, f.firmware.toNat), (60, 1, wireRev), (61, 1, f.wireOldest.toNat), (62, 1, arithRev)]) s

/-- LEASE_RENEW (R489): a REQUEST is due every RENEW_MS; none is sent while a fatal cause stands. -/
def execLeaseRenew (s : State) : Host.Outcome State Fault Refusal :=
  let f := s.flt
  let due : Bool := match f.lastRequest with
    | none => true
    | some t => decide (t + f.renewMs.toNat * msTicks ≤ s.now)
  if ¬ due then .next s
  else
    let s1 := updFlt (fun f => { f with lastRequest := some s.now }) s
    if f.fatal ≠ 0 then .next s1
    else
      let s2 := fltCount 0 (sendRequestFrame s1)
      .next (updFlt (fun f => { f with
        nonce := f.nonce + 1, requests := ((f.nonce.toNat, s.now) :: f.requests).take 4 }) s2)

/-- Whether a received lease frame is the device's own and genuine (R488). Log 63 (DEDUCED). -/
def leaseFrameOk (s : State) (p : List Byte) : Bool :=
  p.length == 80 && fld p 1 1 == 1 && fld p 2 2 == s.fab.hall && fld p 4 8 == Config.serial.toNat && s.flt.keySet &&
    p.drop 64 == frameTag s.flt.key (p.take 64)

/-- The form of every lease frame that arrives: one that R488 discards is counted, one of another TYPE does nothing. Log 63 (DEDUCED). -/
def leaseFrame (type : Nat) (p : List Byte) (f : State → State) (s : State) : Host.Outcome State Fault Refusal :=
  if ¬ leaseFrameOk s p then .next (fltCount 2 s)
  else .next (if fld p 0 1 = type then f s else s)

/-- The lease that a GRANT gives (R490): X is counted from the request answered, and PROBATION takes the GRANT's flag; on
entering it the compute partition is fenced (R497). A first echo goes to every shadow (R503). Log 63 (DEDUCED). -/
def takeGrant (p : List Byte) (sentAt : Nat) (s : State) : State :=
  let prob := bitAt (fld p 14 2) 0
  let x := sentAt + fld p 28 4 * msTicks
  let lift := s.flt.fenced
  let s1 := updFlt (fun f => { f with
    leased := true, fenced := false, probation := prob, expiry := BitVec.ofNat 64 (max f.expiry.toNat x),
    epoch := if lift then BitVec.ofNat 16 (fld p 12 2) else f.epoch }) s
  let s2 := fltCount 1 (if lift then fltCount 7 s1 else s1)
  let s3 := if prob ∧ ¬ s.flt.probation then fltCount 8 (endFabricWork (fun o => o != 256) s2) else s2
  (shadows s3).foldl (fun s d => sendEcho d s) s3

/-- GRANT (R490, R498): it answers one of the last 4 requests; a LEASED device takes one without NEW for its epoch, a FENCED one
takes one with NEW and a fresh epoch, unless a fatal cause stands (R493). -/
def execRxGrant (payload : List (BitVec 8)) (s : State) : Host.Outcome State Fault Refusal :=
  leaseFrame 2 payload (fun s =>
    let f := s.flt
    let isNew := bitAt (fld payload 14 2) 1
    let epoch := fld payload 12 2
    let dur := fld payload 28 4
    let ok := if f.fenced then isNew && epoch != 0 && epoch != f.retired.toNat && f.fatal == 0
      else !isNew && epoch == f.epoch.toNat
    match f.requests.find? fun r => r.1 == fld payload 16 4 with
    | some r => if ok ∧ 100 ≤ dur ∧ dur ≤ 60000 then takeGrant payload r.2 s else fltCount 2 s
    | none => fltCount 2 s) s

/-- REVOKE (R491): one for the current epoch fences the device, and is acknowledged with the fence ridge count. -/
def execRxRevoke (payload : List (BitVec 8)) (s : State) : Host.Outcome State Fault Refusal :=
  leaseFrame 3 payload (fun s =>
    if fld payload 12 2 ≠ s.flt.epoch.toNat ∨ s.flt.epoch = 0 then s
    else
      let s1 := if s.flt.fenced then s else fence 2 (fltCount 4 s)
      sendLease (leaseHeader s1 5 0 0 s1.now 0 ++ [(40, 8, s1.flt.lastFence.toNat)]) s1) s

/-- LEASE_EXPIRY (R491, R495): at a TCLK edge at which the ridge count is at least X. Log 64 (DEDUCED). -/
def execLeaseExpiry (s : State) : Host.Outcome State Fault Refusal :=
  if s.flt.leased ∧ s.flt.required ∧ s.flt.expiry.toNat ≤ s.now ∧ s.now % 16 = 0 then .next (fence 1 (fltCount 3 s))
  else .next s

/-- A fatal cause of Table 18.4 (R493): its event is sent and the device fences; a device that is FENCED takes FATAL as its cause. Log 65 (DESIGN CHOICE). -/
def fatalCause (cause : Nat) (s : State) : State :=
  let s1 := fltCount 6 (updFlt (fun f => { f with fatal := BitVec.ofNat 4 cause }) s)
  fence 4 (faultEvent 1 (leBytes 1 cause) s1)

/-- FATAL_CAUSE (R493). -/
def execFatalCause (cause : BitVec 3) (s : State) : Host.Outcome State Fault Refusal :=
  .next (if cause = 0 ∨ 4 < cause.toNat then s else fatalCause cause.toNat s)

/-! ### Fault events and health (R487, R496) -/

/-- FAULT_EVENT_FLUSH (R487): a held-back code is sent with its count in a later epoch. -/
def execFaultEventFlush (code : BitVec 8) (s : State) : Host.Outcome State Fault Refusal :=
  let e := Tab.get EventCode.reset s.flt.events code.toNat
  .next (if e.held = 0 ∨ e.sent = some s.epochNow then s else sendEvent code.toNat e.held e.firstRidge e.data s)

/-- The end of a health category's window (R496). Log 64 (DEDUCED), 66 (DEDUCED). -/
def endWindow (c : Nat) (s : State) : State :=
  let h := Tab.get (healthDefault c) s.flt.health c
  let up := if h.raise ≤ h.count ∧ h.level ≠ 3 then h.level + 1 else h.level
  let run := if h.count < h.lower then h.run + 1 else 0
  let falls := decide (h.clear ≤ run ∧ 0 < run)
  let level := if falls ∧ up ≠ 0 then up - 1 else up
  let h' : Health := { h with level := level, lastCount := BitVec.ofNat 24 (min h.count 0xFFFFFF), count := 0,
                              run := if falls then 0 else run, lastEnd := s.now }
  let s1 := updFlt (fun f => { f with health := Tab.set (healthDefault c) f.health c h' }) s
  if level ≠ h.level then faultEvent 13 [BitVec.ofNat 8 c, h.level.zeroExtend 8, level.zeroExtend 8] s1 else s1

/-- HEALTH_WINDOW_END (R496): at a whole PTP second, once. -/
def execHealthWindowEnd (s : State) : Host.Outcome State Fault Refusal :=
  if s.now % secTicks ≠ 0 ∨ (List.range 8).any (fun c => (Tab.get (healthDefault c) s.flt.health c).lastEnd == s.now) then .next s
  else .next ((List.range 8).foldl (fun s c => endWindow c s) s)

/-! ### Armed takeover (R503, R504) -/

/-- An armed cell fires on a trigger (R504): it takes over at its first slot boundary at or after the trigger + 64; a firing while
a change is pending is ignored and counted (Table 18.10). Log 66 (DEDUCED). -/
def fireTakeover (cn letter : Nat) (s : State) : State :=
  let c := s.cell cn
  let s1 := fltCount 12 (updFlt (fun f => { f with armed := f.armed.filter fun a => a.cell != cn }) s)
  if c.changing ∨ c.state ≠ 3 then s1
  else
    let t := alignUp (s.now + 64) c.slotTicks
    faultEvent 17 (leBytes 2 cn ++ leBytes 6 letter ++ leBytes 8 t) (updCell cn (fun c => { c with change := some (2, t) }) s1)

/-- Fires every cell armed for a primary. Log 66 (DEDUCED). -/
def fireFor (primary letter : Nat) (s : State) : State :=
  (s.flt.armed.filter fun a => a.primary == primary).foldl (fun s a => fireTakeover a.cell letter s) s

/-- Trigger (b): the ridge count has reached X_echo + 64. Log 66 (DEDUCED). -/
def echoPassed (s : State) (primary : Nat) : Bool :=
  match Tab.get none s.flt.echoes primary with
  | some x => decide (x + 64 ≤ s.now)
  | none => false

/-- TAKEOVER_TIMER (R504): trigger (b) of an armed cell. -/
def execTakeoverTimer (cell : BitVec 9) (s : State) : Host.Outcome State Fault Refusal :=
  match s.flt.armed.find? fun a => a.cell == cell.toNat with
  | some a => .next (if echoPassed s a.primary then fireTakeover a.cell 2 s else s)
  | none => .next s

/-- The payload word of a lease control packet: E and a ridge count. Log 66 (DEDUCED). -/
def controlWord (words : List (BitVec 144)) : Nat × Nat :=
  let v := (readWord (words.getD 2 0)).1.toNat
  (bitsAt v 0 16, bitsAt v 64 64)

/-- FENCE_NOTICE (R499, R504): counted and reported; it is trigger (a) of the cells armed for its sender. -/
def execFenceNotice (port : BitVec 5) (words : List (BitVec 144)) (s : State) : Host.Outcome State Fault Refusal :=
  collIn port.toNat 0x30 false words (fun s =>
    let h := readHdr words
    fireFor h.src 1 (faultEvent 16 (leBytes 2 h.src ++ leBytes 2 h.epoch) (fltCount 11 s))) s

/-- LEASE_ECHO (R503): acknowledged with the same X, the latest of which is X_echo. -/
def execLeaseEcho (port : BitVec 5) (words : List (BitVec 144)) (s : State) : Host.Outcome State Fault Refusal :=
  collIn port.toNat 0x31 false words (fun s =>
    let h := readHdr words
    let c := controlWord words
    let old := (Tab.get none s.flt.echoes h.src).getD 0
    sendControl 0x32 h.src s.flt.epoch.toNat c.2
      (updFlt (fun f => { f with echoes := Tab.set none f.echoes h.src (some (max old c.2)) }) s)) s

/-- ECHO_ACK (R503): X_ack of a shadow device is the largest X that it acknowledged. -/
def execEchoAck (port : BitVec 5) (words : List (BitVec 144)) (s : State) : Host.Outcome State Fault Refusal :=
  collIn port.toNat 0x32 false words (fun s =>
    let h := readHdr words
    let old := (Tab.get none s.flt.acks h.src).getD 0
    updFlt (fun f => { f with acks := Tab.set none f.acks h.src (some (max old (controlWord words).2)) }) s) s

/-- A primary-role cell whose shadow's acknowledgement has lapsed stops alone (R503). -/
def lapseCell (cn x : Nat) (s : State) : State :=
  let s1 := fenceFrames (· == cn) (fenceCell cn s)
  faultEvent 18 (leBytes 8 cn ++ leBytes 8 x) (fltCount 13 (updCell cn (fun c => { c with muted := true }) s1))

/-- ECHO_LAPSE (R503): at a TCLK edge at which the ridge count is at least X_ack of a shadow device, the cells mirrored to it stop;
a fenced device has stopped them already (Table 18.10). -/
def execEchoLapse (hall : BitVec 14) (s : State) : Host.Outcome State Fault Refusal :=
  match Tab.get none s.flt.acks hall.toNat with
  | none => .next s
  | some x =>
    if s.now < x ∨ s.now % 16 ≠ 0 ∨ s.flt.fenced then .next s
    else
      let cells := (s.rad.cells.filter fun e =>
        e.2.role == 1 && shadowOf s e.2 == hall.toNat && (e.2.state == 2 || e.2.state == 3) && !e.2.muted).map Prod.fst
      .next (cells.foldl (fun s cn => lapseCell cn x s) s)

/-! ### Commands of group 0x0C (Table 18.11) -/

/-- LEASE_CONFIG (R489, R495): a device that begins to require a lease it does not hold stops its radio side. Log 63 (DEDUCED). -/
def execLeaseConfig (m : Mbx) (s : State) : Host.Outcome State Fault Refusal :=
  runCmd m .mgmt [(16, 1), (18, 2), (24, 16)] (fun s =>
    let req := mfld m 16 1
    let renew := mfld m 18 2
    if 2 ≤ req ∨ renew < 100 ∨ 20000 < renew ∨ bitAt (mfld m 30 2) 12 ∨ bitAt (mfld m 38 2) 12 then refuse stBadParam s
    else
      let s1 := updFlt (fun f => { f with
        required := req == 1, renewMs := BitVec.ofNat 16 renew,
        fmMac := Tab.set 0 (Tab.set 0 f.fmMac 0 (BitVec.ofNat 48 (mfld m 24 6))) 1 (BitVec.ofNat 48 (mfld m 32 6)),
        fmVlan := Tab.set 0 (Tab.set 0 f.fmVlan 0 (BitVec.ofNat 16 (mfld m 30 2))) 1 (BitVec.ofNat 16 (mfld m 38 2)) }) s
      done (if s1.radioFenced ∧ ¬ s.radioFenced then fenceCells (fenceFronthaul s1) else s1)) s

/-- LEASE_KEY_SET (R488). Log 63 (DEDUCED). -/
def execLeaseKeySet (m : Mbx) (s : State) : Host.Outcome State Fault Refusal :=
  runCmd m .mgmt [(24, 8)] (fun s =>
    if (mdata m).length < 32 then refuse stBadParam s
    else done (updFlt (fun f => { f with key := (mdata m).take 32, keySet := true }) s)) s

/-- LEASE_RELEASE (R493): the device fences with cause 3. -/
def execLeaseRelease (m : Mbx) (s : State) : Host.Outcome State Fault Refusal :=
  runCmd m .pfMgmt [] (fun s =>
    if ¬ s.flt.leased then refuse stNotReady s
    else
      let s1 := fence 3 (fltCount 5 s)
      (stOk, { fields := [(8, 8, s1.flt.lastFence.toNat)], block := none }, s1)) s

/-- The slot of a source in the ledger is freed (R361). Log 55 (DEDUCED). -/
def freeLedger (src : Nat) (s : State) : State :=
  match s.fab.ledgerOwners.find? fun e => e.2 == some src with
  | none => s
  | some e => updFab (fun f => { f with
      ledgerOwners := Tab.set none f.ledgerOwners e.1 none,
      ledger := f.ledger.filter fun x => decide (x.1 / 1024 ≠ e.1) }) s

/-- The work with a peer whose entry has changed epoch or become LOST ends (R352, R361, R392, R504). -/
def peerChanged (hall : Nat) (s : State) : State :=
  fireFor hall 3 (unitsDone (groupsPeerLost hall (freeLedger hall (endTracks (fun t => t.dst == hall) stEpoch s))))

/-- FAULT_PEER_SET (R352, R499): a range of entries takes EPOCH and LOST together. -/
def execFaultPeerSet (m : Mbx) (s : State) : Host.Outcome State Fault Refusal :=
  runCmd m .mgmt [(16, 7)] (fun s =>
    let first := mfld m 16 2
    let count := mfld m 18 2
    let new : Peer := { epoch := BitVec.ofNat 16 (mfld m 20 2), lost := bitAt (mfld m 22 1) 0 }
    if count = 0 ∨ 16384 < first + count ∨ 2 ≤ mfld m 22 1 then refuse stBadParam s
    else
      let halls := (List.range count).map (first + ·)
      let changed := halls.filter fun h => (s.peer h).epoch != new.epoch || (new.lost && !(s.peer h).lost)
      let s1 := updFab (fun f => { f with peers := halls.foldl (fun t h => Tab.set Peer.reset t h new) f.peers }) s
      done (changed.foldl (fun s h => peerChanged h s) s1)) s

/-- HEALTH_CONFIG (R496). -/
def execHealthConfig (m : Mbx) (s : State) : Host.Outcome State Fault Refusal :=
  runCmd m .mgmt [(16, 1), (20, 10)] (fun s =>
    let c := mfld m 16 1
    if 8 ≤ c ∨ mfld m 28 2 = 0 then refuse stBadParam s
    else done (updFlt (fun f => { f with
      health := Tab.upd (healthDefault c) f.health c fun h =>
        { h with raise := mfld m 20 4, lower := mfld m 24 4, clear := mfld m 28 2 } }) s)) s

/-- TAKEOVER_ARM (R504): a cell in SHADOW is armed for the primary that `CELL_SHADOW` named; arming needs the ridge step done and a
lease. Log 66 (DEDUCED). -/
def execTakeoverArm (m : Mbx) (s : State) : Host.Outcome State Fault Refusal :=
  runCmd m .pfMgmt [(16, 5)] (fun s =>
    let cn := mfld m 16 2
    let primary := mfld m 18 2
    let c := s.cell cn
    let others := s.flt.armed.filter fun a => a.cell != cn
    if 384 ≤ cn ∨ 16384 ≤ primary ∨ 2 ≤ mfld m 20 1 then refuse stBadParam s
    else if c.changing then refuse stBusy s
    else if mfld m 20 1 = 1 then done (updFlt (fun f => { f with armed := others }) s)
    else if c.state ≠ 3 ∨ ¬ s.time.servo.stepDone ∨ ¬ s.flt.leased then refuse stNotReady s
    else if c.primary ≠ primary then refuse stBadParam s
    else
      let s1 := updFlt (fun f => { f with armed := others ++ [{ cell := cn, primary := primary }] }) s
      done (if echoPassed s1 primary then fireTakeover cn 2 s1 else s1)) s

/-- WIRE_COMPAT (R506). -/
def execWireCompat (m : Mbx) (s : State) : Host.Outcome State Fault Refusal :=
  runCmd m .mgmt [(16, 1)] (fun s =>
    let older := s.fab.ports.any fun e => e.2.up && (match e.2.peer with
      | some p => p.2 == wireRev - 1
      | none => false)
    if 2 ≤ mfld m 16 1 then refuse stBadParam s
    else if mfld m 16 1 = 0 ∧ older then refuse stBusy s
    else done (updFlt (fun f => { f with wireOldest := BitVec.ofNat 8 (wireRev - 1 + (1 - mfld m 16 1)) }) s)) s

/-- FAULT_QUERY (R597). -/
def execFaultQuery (m : Mbx) (s : State) : Host.Outcome State Fault Refusal :=
  runCmd m .any [] (fun s =>
    let f := s.flt
    (stOk, { fields := [], block := some (itemsBlock ([leaseStatusReg f, f.epoch.toNat, f.expiry.toNat] ++
      (List.range 8).map (healthReg f) ++ (List.range 14).map fun i => (Tab.get 0 f.cnt i).toNat)) }, s)) s

end Sys2Proof.Machine
end

