-- ==== Sys2Proof/Machine/Thermal.lean ====
section
/-!
DEFINITION. Junction and stack sensors, emergency trips and the critical shutdown (chapter 20, R543 to R545; chapter 16, R457 and
R458).
-/
namespace Sys2Proof.Machine
open Sys2Proof

/-- The compute cores that hold a resident context, and the contexts. -/
def residents (s : State) : List (Nat × Nat) :=
  s.core.cores.filterMap fun e =>
    if s.plates.ranCores.getLsbD e.1 then none else e.2.resident.map fun c => (e.1, c)

/-- Every compute core parks its resident context in place (R457): a running context counts its park. Log 67 (DEDUCED). -/
def parkContexts (s : State) : State :=
  (residents s).foldl (fun s q =>
    let s0 := stopEngines q.1 s
    let s1 := s0.setCore q.1 { s0.coreAt q.1 with parked := true }
    if (s1.ctx q.2).state = 1 then ctxCount q.2 4 (s1.setCtx q.2 { s1.ctx q.2 with state := 6 }) else s1) s

/-- Parked contexts resume in place, and held starts begin (R458). -/
def resumeParked (s : State) : State :=
  let s1 := (Tab.keys s.core.cores).foldl (fun s k => s.setCore k { s.coreAt k with parked := false }) s
  let s2 := (Tab.keys s1.core.ctxs).foldl (fun s c =>
    if (s.ctx c).state = 6 then settleIdle c (s.setCtx c { s.ctx c with state := 1 }) else s) s1
  resumeGroups (retryHeld s2)

/-- An emergency trip enters (R544). Log 11 (DESIGN CHOICE), 65 (DESIGN CHOICE), 67 (DEDUCED). -/
def enterTrip (s : State) : State :=
  let s1 := parkContexts (pwrCount 0 1 (updPwr (fun p => { p with
    tripOn := true, tripSince := s.now, belowSince := none, pump := BitVec.ofNat 11 p.coolant.dMax,
    valve := BitVec.ofNat 11 p.coolant.valveTrip }) s))
  faultEvent 14 [] (healthCount 5 1 (dryEvent 2 s1))

/-- The hottest of n readings and its first index. -/
def hottest (l : List Int) : Int × Nat :=
  let m := (l.max?).getD 0
  (m, l.findIdx (· == m))

/-- Ridge ticks of n microseconds, rounded up. Log 67 (DEDUCED). -/
def usTicks (n : Nat) : Nat := ceilDiv (n * 196608) 100

/-- What a sample changes in the power unit: the readings shown, and the count since which all are below the clear thresholds. Log 67 (DEDUCED). -/
def recordSample (now : Nat) (junctions hbmTemps : List Int) (p : PowerUnit) : PowerUnit :=
  let j := hottest junctions
  let h := hottest hbmTemps
  let cool := decide (j.1 < p.trip.tClear ∧ h.1 < p.trip.hClear)
  { p with
    junctions := (List.range 96).foldl (fun t i => Tab.set 0 t i (junctions.getD i 0)) [],
    hbmTemps := (List.range 32).foldl (fun t i => Tab.set 0 t i (hbmTemps.getD i 0)) [],
    tjMax := BitVec.ofInt 16 j.1, hbmMax := BitVec.ofInt 16 h.1, hot := BitVec.ofNat 8 j.2,
    belowSince := if p.tripOn ∧ cool then some (p.belowSince.getD now) else none }

/-- THERMAL_SAMPLE (R543 to R545): every 2,048 ridge ticks from the release of PERST_N the 96 junctions and 32 hbmTemps are sampled,
in 1/16 °C. A critical reading fences, and a reading at a trip threshold enters the trip. -/
def execThermalSample (junctions hbmTemps : List (BitVec 16)) (s : State) : Host.Outcome State Fault Refusal :=
  if s.now % 2048 ≠ 0 ∨ s.dev.released.isNone then .next s
  else
    let js := (List.range 96).map fun i => (junctions.getD i 0).toInt
    let hs := (List.range 32).map fun i => (hbmTemps.getD i 0).toInt
    let s1 := updPwr (recordSample s.now js hs) s
    let j := (hottest js).1
    let h := (hottest hs).1
    let s2 := if (1760 ≤ j ∨ 1680 ≤ h) ∧ s.dev.pwr.crit.isNone then
        fatalCause 4 (updPwr (fun p => { p with crit := some s.now }) s1)
      else s1
    let t := s.dev.pwr.trip
    .next (if ¬ s.dev.pwr.tripOn ∧ ((t.tTrip : Int) ≤ j ∨ (t.hTrip : Int) ≤ h) then enterTrip s2 else s2)

/-- TRIP_CLEAR (R458, R544): every sensor has stayed below its clear threshold for CLEAR_HOLD; the duties return at the next epoch
boundary. -/
def execTripClear (s : State) : Host.Outcome State Fault Refusal :=
  let p := s.dev.pwr
  match p.belowSince with
  | none => .next s
  | some b =>
    if ¬ p.tripOn ∨ s.now < b + usTicks p.trip.hold then .next s
    else
      .next (resumeParked (pwrCount 1 ((s.now - p.tripSince) * 100 / 196608)
        (updPwr (fun p => { p with tripOn := false, belowSince := none }) s)))

/-- THERMTRIP_ASSERT (R545): THERMTRIP_N is driven low 1,966,080 ridge ticks after the fence, which the TCLK edge after the critical
sample makes. -/
def execThermtripAssert (s : State) : Host.Outcome State Fault Refusal :=
  match s.dev.pwr.crit with
  | none => .next s
  | some d => .next (if d + 16 + msTicks ≤ s.now then updPwr (fun p => { p with thermtrip := true }) s else s)

end Sys2Proof.Machine
end

