-- ==== Sys2Proof/Machine/Bringup.lean ====
section
/-!
DEFINITION. Power-up, the boot ROM, the configuration image, resets, and the commands of group 0x01 (chapter 21).
-/
namespace Sys2Proof.Machine
open Sys2Proof

/-- Changes bring-up and resets. -/
def updDev (f : Device → Device) (s : State) : State := { s with dev := f s.dev }

/-- One event of `DEV_RESET_CNT`. -/
def resetCount (i : Nat) (s : State) : State := updDev (fun d => { d with resetCnt := bump d.resetCnt i }) s

/-! ### The SPI NOR (R552) -/

/-- n bytes of the NOR; an erased byte reads 0xFF. -/
def Nor.read (n : Nor) (a len : Nat) : List Byte := (List.range len).map fun i => Tab.get 0xFF n.bytes (a + i)

/-- Erases a range of the NOR. -/
def Nor.erase (n : Nor) (a len : Nat) : Nor := { n with bytes := n.bytes.filter fun e => !decide (a ≤ e.1 ∧ e.1 < a + len) }

/-- Programs bytes of the NOR. -/
def Nor.program (n : Nor) (a : Nat) (bs : List Byte) : Nor :=
  { n with bytes := (bs.foldl (fun (p : Nat × Tab Byte) b => (p.1 + 1, Tab.set 0xFF p.2 p.1 b)) (a, n.bytes)).2 }

/-- The check word of R556. -/
def imageCrc (bs : List Byte) : Nat := crc32Reflected 0x04C11DB7 bs

/-- A directory copy, if it is valid (R552). Log 68 (DESIGN CHOICE). -/
def readDir (n : Nor) (copy : Nat) : Option Directory :=
  let b := n.read (4096 * copy) 32
  if fld b 0 4 = 0x5249445A ∧ fld b 28 4 = imageCrc (b.take 28) ∧ fld b 8 1 ≤ 1 ∧ (fld b 9 1 ≤ 1 ∨ fld b 9 1 = 0xFF) then
    some { copy := copy, generation := fld b 4 4, active := fld b 8 1, staged := fld b 9 1 }
  else none

/-- The directory that the boot ROM uses (R553, step 1). Log 68 (DESIGN CHOICE). -/
def pickDir (n : Nor) : Directory :=
  match readDir n 0, readDir n 1 with
  | some a, some b => if a.generation < b.generation then b else a
  | some a, none => a
  | none, some b => b
  | none, none => { copy := 1, generation := 0, active := 0, staged := 0xFF }

/-- The bytes of a directory copy. -/
def Directory.bytes (d : Directory) : List Byte :=
  let b := record 28 [(0, 4, 0x5249445A), (4, 4, d.generation), (8, 1, d.active), (9, 1, d.staged)]
  b ++ leBytes 4 (imageCrc b)

/-- Writes a directory with the next GENERATION into the copy that holds the lower one (R563). -/
def writeDir (active staged : Nat) (s : State) : State :=
  let d : Directory := { copy := 1 - s.dev.dir.copy, generation := (s.dev.dir.generation + 1) % 2 ^ 32, active := active, staged := staged }
  updDev (fun v => { v with dir := d, nor := (v.nor.erase (4096 * d.copy) 4096).program (4096 * d.copy) d.bytes }) s

/-- The first byte of a firmware slot. -/
def slotBase (k : Nat) : Nat := 0x100000 + 0x400000 * k

/-- Whether a firmware image's header is well formed (R552). Log 68 (DESIGN CHOICE). -/
def fwHeaderOk (h : List Byte) : Bool := fld h 0 4 == 0x5752465A && decide (1 ≤ fld h 8 4 ∧ fld h 8 4 ≤ 4194240)

/-- The VERSION of a slot whose digest matches. Log 68 (DESIGN CHOICE). -/
def goodSlot (n : Nor) (k : Nat) : Option Nat :=
  let h := n.read (slotBase k) 64
  if fwHeaderOk h ∧ sha256 (n.read (slotBase k + 64) (fld h 8 4)) = sliceBytes h 32 32 then some (fld h 4 2) else none

/-- The boot ROM (R553): the directory, the active slot, then the other, else recovery. Log 68 (DESIGN CHOICE). -/
def bootRom (s : State) : State :=
  let n := s.dev.nor
  let d := pickDir n
  let set := fun (back rec : Bool) (ver : Nat) =>
    let s1 := updDev (fun v => { v with
      dir := d, fwFallback := back, fwRecovery := rec, fwStaged := decide (d.staged ≤ 1 ∧ d.staged ≠ d.active) }) s
    if rec then s1 else { s1 with flt := { s1.flt with firmware := BitVec.ofNat 16 ver } }
  match goodSlot n d.active with
  | some v => set false false v
  | none =>
    match goodSlot n (1 - d.active) with
    | some v => resetCount 5 (set true false v)
    | none => set false true 0

/-! ### The configuration image (R554 to R558) -/

/-- The bytes that a command of an opcode reads at a data address (R515): the address and their number. -/
def dataSpan (d : BitVec 512) : Option (Nat × Nat) :=
  match dfld d 0 2 with
  | 0x0105 | 0x0106 | 0x0201 => some (dfld d 16 8, dfld d 24 4)
  | 0x0310 => if dfld d 32 1 = 0 then some (dfld d 16 8, dfld d 24 8) else none
  | 0x0312 => if dfld d 18 1 = 0 then some (dfld d 32 8, 65536 * dfld d 24 4) else none
  | 0x0601 => some (dfld d 24 8, 256)
  | 0x0611 | 0x0B01 | 0x0B02 | 0x0B04 => some (dfld d 24 8, 64)
  | 0x0C02 => some (dfld d 24 8, 32)
  | _ => none

/-- Whether a COMMAND's data addresses lie within its DATA (Table 21.4, step 7). -/
def dataInside (d : BitVec 512) (data : List Byte) : Bool :=
  match dataSpan d with
  | some (a, n) => decide (a + n ≤ data.length)
  | none => true

/-- The records of an image: the PLATFORM body and the COMMANDs by index; none if a record is wrong or they do not fill the image
exactly. Log 68 (DESIGN CHOICE). -/
def readConfig (img : List Byte) (stop : Nat) : Nat → Nat → Nat → Option (List Byte) → List (Nat × BitVec 512 × List Byte) →
    Option (Option (List Byte) × List (Nat × BitVec 512 × List Byte))
  | 0, _, off, p, cs => if off = stop then some (p, cs.reverse) else none
  | k + 1, i, off, p, cs =>
    if stop < off + 8 then none
    else
      let type := fld img off 2
      let len := fld img (off + 2) 2
      let next := off + 8 + alignUp len 8
      let body := sliceBytes img (off + 8) len
      let pad := sliceBytes img (off + 8 + len) (next - (off + 8 + len))
      if fld img (off + 4) 4 ≠ 0 ∨ stop < next ∨ pad.any (· != 0) then none
      else if type = 1 then
        if i = 0 ∧ len = 32 ∧ fld body 26 6 = 0 then readConfig img stop k (i + 1) next (some body) cs else none
      else if type = 2 ∧ 64 ≤ len ∧ dataInside (BitVec.ofNat 512 (ofLE (body.take 64))) (body.drop 64) then
        readConfig img stop k (i + 1) next p ((i, BitVec.ofNat 512 (ofLE (body.take 64)), body.drop 64) :: cs)
      else none

/-- What the checks of an image find: CFG_REASON (0 when it passes), what DEV_CFG_QUERY reports, and its records. -/
structure ImageCheck where
  reason : Nat
  len : Nat
  word : Nat
  computed : Nat
  generation : Nat
  platform : Option (List Byte)
  commands : List (Nat × BitVec 512 × List Byte)
deriving DecidableEq, Repr

/-- A check that failed before the check words were read. -/
def ImageCheck.early (reason len generation : Nat) : ImageCheck :=
  { reason := reason, len := len, word := 0, computed := 0, generation := generation, platform := none, commands := [] }

/-- Steps 2 to 7 of Table 21.4 on an image whose first n bytes `read n` gives. Log 68 (DESIGN CHOICE). -/
def checkConfig (read : Nat → List Byte) : ImageCheck :=
  let h := read 64
  let len := fld h 8 4
  let gen := fld h 24 4
  if fld h 0 4 ≠ 0x4746435A then .early 1 len gen
  else if fld h 4 2 ≠ 1 then .early 2 len gen
  else if len % 8 ≠ 4 ∨ len < 68 ∨ 1048572 < len then .early 3 len gen
  else
    let img := read len
    let word := fld img (len - 4) 4
    let crc := imageCrc (img.take (len - 4))
    let c : ImageCheck := { ImageCheck.early 0 len gen with word := word, computed := crc }
    if word ≠ crc then { c with reason := 4 }
    else if fld h 16 8 ≠ 0 ∧ fld h 16 8 ≠ Config.serial.toNat then { c with reason := 5 }
    else
      match (if fld h 6 2 ≠ 0 ∨ (sliceBytes h 28 36).any (· != 0) then none
             else readConfig img (len - 4) (fld h 12 4) 0 64 none []) with
      | none => { c with reason := 6 }
      | some (p, cs) => { c with platform := p, commands := cs }

/-- The PLATFORM record as a body gives it (Table 21.3). Log 68 (DESIGN CHOICE). -/
def readPlatform (b : List Byte) : Platform :=
  { mac0 := BitVec.ofNat 48 (fld b 0 6), mac1 := BitVec.ofNat 48 (fld b 6 6), mode := fld b 12 1, mctp := fld b 13 1 % 128,
    pmbus := (List.range 12).map fun i => fld b (14 + i) 1 % 128 }

/-- The factory defaults of the MGMT ports, MCTP and PMBus (Table 21.5). -/
def defaultPlatform : Platform :=
  let mac := 2 * 2 ^ 40 + Config.serial.toNat % 2 ^ 40 / 2 * 2
  { mac0 := BitVec.ofNat 48 mac, mac1 := BitVec.ofNat 48 (mac + 1), mode := 0, mctp := 0x64, pmbus := [] }

/-- Applies the factory defaults (Table 21.5) that differ from what a reset leaves. Log 68 (DESIGN CHOICE). -/
def applyDefaults (reason : Nat) (s : State) : State :=
  let fixed := fun (g : Governor) => { g with fixed := true, fixedTier := 3 }
  let s1 := updDev (fun d => { d with
    cfgDefaulted := true, cfgReason := reason, platform := defaultPlatform,
    pwr := { d.pwr with gov := fixed Governor.reset, govNew := none } }) s
  resetCount 3 { s1 with flt := { s1.flt with required := true, keySet := false, key := [], renewMs := 1000 } }

/-- CONFIG_LOAD (R557, R558): the loader checks the image once after each reset that reads it; PLATFORM takes effect at once, and in
recovery no COMMAND is kept. Log 68 (DESIGN CHOICE). -/
def execConfigLoad (s : State) : Host.Outcome State Fault Refusal :=
  if s.dev.por ∨ s.dev.cfgDone then .next s
  else
    let c := if s.dev.nor.answers then checkConfig (s.dev.nor.read 0x900000) else .early 7 0 0
    let s1 := updDev (fun d => { d with
      cfgDone := true, cfgDefaulted := false, cfgReason := 0, cfgCmdFail := false, failStatus := 0, failRecord := 0xFFFF,
      image := { len := c.len, word := c.word, computed := c.computed, generation := c.generation,
                 commands := if d.fwRecovery then [] else c.commands, applying := none } }) s
    if c.reason ≠ 0 then .next (applyDefaults c.reason (updDev (fun d => { d with image := { d.image with commands := [] } }) s1))
    else
      .next (updDev (fun d => { d with platform := (c.platform.map readPlatform).getD defaultPlatform }) s1)

/-! ### Resets (R550, R551, R560, R561, Table 21.8) -/

/-- The flash tier after a reset: the NAND keeps its contents, and no directory refers to them; the stripes of rows not yet programmed
lay in HBM and are lost (R282). Log 52 (DESIGN CHOICE). -/
def Flash.afterReset (f : Flash) : Flash :=
  { f with formatted := false, flush := false, moves := [], cnt := [],
           stripes := f.stripes.filter fun (e : Nat × Stripe) => Tab.get false f.written (e.1 / 30) }

/-- The record unit after a reset: it lies in the always-on domain and keeps its state (R19), but a ring in HBM is lost with its
frames, so that capture into it stops (R562). Log 69 (DEDUCED). -/
def RecUnit.afterReset (r : RecUnit) : RecUnit :=
  if r.fabric then r else { r with configured := false, recording := false, stopAt := none }

/-- The power unit after a reset: records and counters return, a critical shutdown and the MCTP endpoint stay. -/
def PowerUnit.afterReset (p : PowerUnit) : PowerUnit :=
  { PowerUnit.reset with crit := p.crit, thermtrip := p.thermtrip, eid := p.eid, shown := p.shown }

/-- Management commands that wait for a unit which the reset clears: a function's teardown and a context's stop end, and a port that
is taken DOWN ends the command that trains it; a compute-partition reset is kept for HBM_READY (Table 21.10). Log 69 (DEDUCED). -/
def endMgmtWaiters (s : State) : State :=
  let s1 := s.host.fns.foldl (fun s e => e.2.tdWaiters.foldl (fun s w =>
    if w.1 = 256 then completeSlot 256 w.2 stOk Result.none s else s) s) s
  let s2 := s1.core.ctxs.foldl (fun s e => match e.2.waiter with
    | some (256, slot) => completeSlot 256 slot stBadParam Result.none s
    | _ => s) s1
  let s3 := s2.fab.ports.foldl (fun s e => match e.2.waiter with
    | some (256, slot) => completeSlot 256 slot stNotReady Result.none s
    | _ => s) s2
  match s3.dev.compute with
  | some { waiter := (256, slot), .. } => updDev (fun d => { d with afterReset := some (256, slot) }) s3
  | _ => s3

/-- The fabric after a device reset: everything is cleared but the gain codes, which only ABR_GAIN_SET changes (R333). -/
def Fabric.afterReset (f : Fabric) : Fabric :=
  { Fabric.reset with ports := Tab.mapEntries AbrPort.reset (fun _ p => { AbrPort.reset with
      lanes := Tab.mapEntries Lane.reset (fun _ l => { Lane.reset with gain := l.gain }) p.lanes }) f.ports }

/-- Every block outside the always-on domain is reset (R560, step 5; Table 21.8). The fronthaul ports lose their lock, which squelches
SYNCE_RCLK (R240). Log 69 (DEDUCED). -/
def resetMain (s : State) : State :=
  loseSynce { s with
    mem := { MemTiers.reset with flash := s.mem.flash.afterReset },
    mbx := { s.mbx with rings := [] },
    host := { HostIf.reset with highLatch := s.host.highLatch }, traf := Traffic.reset, plates := Plates.reset, fab := s.fab.afterReset, rad := Radio.reset,
    core := Cores.reset, clk := { s.clk with tier := 3 },
    flt := { s.flt with armed := [] },
    det := { Det.reset with recUnit := s.det.recUnit.afterReset },
    dev := { s.dev with
      cfgDone := false, railLost := false, hostReady := false, hbmReady := false, failStatus := 0, failRecord := 0xFFFF, compute := none,
      released := none, image := { s.dev.image with generation := 0, commands := [], applying := none },
      pwr := s.dev.pwr.afterReset } }

/-- The fence of a reset and its events (R495, R560, steps 1 and 2): `kind` is 1 for a device reset and 2 for PERST_N. -/
def resetFence (kind : Nat) (s : State) : State :=
  let s1 := if s.flt.fenced then
      faultEvent 2 (leBytes 8 5 ++ leBytes 8 s.now) { s with flt := { s.flt with cause := 5, retired := s.flt.epoch } }
    else fence 5 s
  faultEvent 15 [BitVec.ofNat 8 kind] s1

/-- A PERST_N reset or a device reset (R560): `kind` is that of the RESET event. Log 69 (DEDUCED). -/
def deviceReset (kind : Nat) (s : State) : State :=
  let s1 := resetMain (endMgmtWaiters (resetFence kind s))
  let s2 := if kind = 1 ∧ s.dev.pwr.crit.isNone then { s1 with flt := { s1.flt with fatal := 0 } } else s1
  resetCount (if kind = 1 then 1 else 0) (updDev (fun d => { d with lastReset := if kind = 1 then 3 else 2 }) s2)

/-- PERST_N_ASSERT (R551, R560): a falling edge, longer than the debounce, resets everything outside the always-on domain. -/
def execPerstNAssert (s : State) : Host.Outcome State Fault Refusal :=
  if s.dev.por ∨ s.dev.perst then .next s
  else .next (updDev (fun d => { d with perst := true }) (deviceReset 2 s))

/-- PERST_N_RELEASE (R559, R589): bring-up begins at P; with TESTEN high the release is ignored. -/
def execPerstNRelease (testen : Bool) (s : State) : Host.Outcome State Fault Refusal :=
  if s.dev.por ∨ ¬ s.dev.perst then .next s
  else
    let s1 := updDev (fun d => { d with testen := testen }) s
    .next (if testen then s1 else updDev (fun d => { d with perst := false, released := some s.now }) s1)

/-- POWER_ON_RESET_ENTER (R550): VDD_AUX below 1.62 V clears the whole device but the contents of the NAND and the NOR. -/
def execPowerOnResetEnter (s : State) : Host.Outcome State Fault Refusal :=
  .next { State.reset with
    pending := s.pending, free := s.free, out := s.out,
    mem := { MemTiers.reset with flash := s.mem.flash.afterReset },
    dev := { Device.reset with nor := s.dev.nor } }

/-- POWER_ON_RESET_END (R226, R239, R550, R553): the ridge counter starts from 0, the steering word is sent and the boot ROM runs. Log 4 (DESIGN CHOICE), 68 (DESIGN CHOICE). -/
def execPowerOnResetEnd (answers : Bool) (fitted : Fitted) (s : State) :
    Host.Outcome State Fault Refusal :=
  if ¬ s.dev.por then .next s
  else
    let blank : Nor := { answers := answers, bytes := [] }
    let nor := if fitted.nor = [] then { s.dev.nor with answers := answers }
      else fitted.nor.foldl (fun n q => n.program q.offset.toNat q.bytes) blank
    let s1 := updDev (fun d => { d with por := false, lastReset := 1, nor := nor })
      (updFlash (fun f => { f with present := fitted.flash }) { s with clk := Clock.reset })
    .next (emit (.steer (BitVec.ofInt 64 s.time.servo.w)) (bootRom s1))

/-- A RAN core stops: its command, its threads and its engines' queues are gone. Log 69 (DEDUCED). -/
def stopCore (k : Nat) (s : State) : State :=
  let s1 := s.setCore k { s.coreAt k with live := none, te0 := [], te1 := [], se := [], me := [], gateHeld := none }
  (List.range 8).foldl (fun s i => s.setThread (8 * k + i) Thread.reset) s1

/-- RAIL_LOSS (R535, Table 1.8): a rail other than VDD_AUX falls below its tolerance, and the RAN partition stops. Log 69 (DEDUCED). -/
def execRailLoss (s : State) : Host.Outcome State Fault Refusal :=
  let s1 := updDev (fun d => { d with railLost := true }) (fenceFronthaul s)
  let s2 := (Tab.keys s1.rad.cells).foldl (fun s cn => updCell cn (fun c =>
    if c.state = 0 then c else { c with state := 1, held := [], change := none }) s) s1
  let s3 := (plateList s2).foldl (fun s q =>
    if q.2.isRan then updPlate q.1 (fun p => { p with running := [] }) s else s) s2
  .next (((List.range 512).filter fun k => s.plates.ranCores.getLsbD k).foldl (fun s k => stopCore k s) s3)

/-! ### Group 0x01 (R561 to R565, R568) -/

/-- `DEV_STATUS`. -/
def devStatus (d : Device) : Nat :=
  d.lastReset * 2 ^ 16 + d.cfgReason * 2 ^ 8 + 128 * bit d.compute.isSome + 64 * bit d.fwStaged + 32 * bit d.fwFallback +
    16 * bit d.fwRecovery + 8 * bit d.hostReady + 4 * bit d.hbmReady + 2 * bit d.cfgCmdFail + bit d.cfgDefaulted

/-- `DEV_CFG`. -/
def devCfg (d : Device) : Nat := d.image.generation * 2 ^ 32 + d.failStatus * 2 ^ 16 + d.failRecord

/-- DEV_QUERY (R565, Table 19.5). -/
def execDevQuery (m : Mbx) (s : State) : Host.Outcome State Fault Refusal :=
  runCmd m .any [] (fun s =>
    (stOk, { fields := [(8, 8, Config.serial.toNat), (16, 2, s.flt.firmware.toNat), (18, 1, wireRev), (19, 1, arithRev), (20, 1, 0xB1),
                        (21, 1, devStatus s.dev % 256)], block := none }, s)) s

/-- DEV_CFG_QUERY (R557, R565). -/
def execDevCfgQuery (m : Mbx) (s : State) : Host.Outcome State Fault Refusal :=
  runCmd m .pfMgmt [] (fun s =>
    let c := s.dev.image
    (if s.dev.cfgDefaulted then stDefaulted else stOk,
     { fields := [(8, 4, c.len), (12, 4, c.word), (16, 4, c.computed)], block := none }, s)) s

/-- Whether another of FW_STAGE, CFG_WRITE and DEV_RESET is in flight (R565). -/
def updateBusy (m : Mbx) (s : State) : Bool :=
  let other := fun (ring : Nat) (i : Inflight) =>
    [0x0103, 0x0105, 0x0106].contains i.opcode && !(ring == m.input.toNat && i.slot == m.slot.toNat)
  s.mbx.mgmtInflight.any (other 256) || s.mbx.rings.any fun e => e.2.inflight.any (other e.1)

/-- DEV_RESET (R561, R563): the completion comes first; with ACTIVATE the staged slot becomes active and Burin restarts through the
ROM before the device reset. The PCIe link goes down, and P is the end of the reset unless PERST_N is low. Log 69 (DEDUCED). -/
def execDevReset (m : Mbx) (s : State) : Host.Outcome State Fault Refusal :=
  let a := admitCmd m .pfMgmt [(16, 1)] s
  let act := mfld m 16 1
  let st := if a.1 ≠ stOk then a.1
    else if 1 < act then stBadParam
    else if updateBusy m a.2 then stBusy
    else if act = 1 ∧ ¬ a.2.dev.fwStaged then stNotReady
    else stOk
  let s1 := complete m st Result.none a.2
  if st ≠ stOk then .next s1
  else
    let s2 := if act = 1 then bootRom (writeDir s1.dev.dir.staged 0xFF s1) else s1
    let s3 := deviceReset 1 s2
    .next (if s.dev.perst then s3 else updDev (fun d => { d with released := some s.now }) s3)

/-- COMPUTE_RESET (R562): the steps follow by TEARDOWN_STEP_END of 256. One that finds another in progress is turned away. -/
def execComputeReset (m : Mbx) (s : State) : Host.Outcome State Fault Refusal :=
  runCmdW m .pfMgmt [] (fun s =>
    if s.dev.compute.isSome then (some (stBusy, Result.none), s)
    else
      let r : ComputeReset := { step := 1, start := s.now, waiter := (m.input.toNat, m.slot.toNat) }
      let s1 := match s.det.replay with
        | some x => if x.ctx.isSome then endReplay s else s
        | none => s
      (none, resetCount 2 (updDev (fun d => { d with compute := some r }) s1))) s

/-- FW_STAGE (R563). -/
def execFwStage (m : Mbx) (s : State) : Host.Outcome State Fault Refusal :=
  runCmd m .pfMgmt [(16, 12), (32, 32)] (fun s =>
    let n := mfld m 24 4
    let img := sliceBytes (mdata m) 0 n
    let body := img.drop 64
    let d := sha256 body
    if updateBusy m s then refuse stBusy s
    else if n < 64 ∨ 4194304 < n ∨ ¬ fwHeaderOk img ∨ fld img 8 4 ≠ body.length then refuse stBadParam s
    else if d ≠ sliceBytes img 32 32 ∨ d ≠ (mbytes m).drop 32 then refuse stPlateDigest s
    else
      let k := 1 - s.dev.dir.active
      let s1 := updDev (fun v => { v with nor := (v.nor.erase (slotBase k) 0x400000).program (slotBase k) img }) s
      done (updDev (fun v => { v with fwStaged := true }) (writeDir s.dev.dir.active k s1))) s

/-- CFG_WRITE (R564). Log 68 (DESIGN CHOICE). -/
def execCfgWrite (m : Mbx) (s : State) : Host.Outcome State Fault Refusal :=
  runCmd m .pfMgmt [(16, 12)] (fun s =>
    let n := mfld m 24 4
    let img := sliceBytes (mdata m) 0 n
    let c := checkConfig (fun k => sliceBytes img 0 k)
    if updateBusy m s then refuse stBusy s
    else if c.reason ≠ 0 ∨ n < c.len then refuse stBadParam s
    else done (updDev (fun v => { v with nor := (v.nor.erase 0x900000 0x100000).program 0x900000 (img.take c.len) }) s)) s

end Sys2Proof.Machine
end

