-- ==== Sys2Proof/Machine/Weights.lean ====
section
/-!
DEFINITION. Weight sets and the thatch engine's jobs (chapter 10, R285 to R298).
-/
namespace Sys2Proof.Machine
open Sys2Proof

/-- The source of a weight command: the bytes read from the host, or those of device memory (R287). -/
def weightSource (m : Mbx) (s : State) (kind a n : Nat) : Nat × List Byte × State :=
  if kind = 0 then (stOk, sliceBytes (mdata m) 0 n, s) else deviceData s (issuer m) a n

/-- Weight sets that a context holds. -/
def ctxWeights (s : State) (ctx : Nat) : Nat :=
  (s.mem.weights.filter fun e => match e.2 with
    | some w => w.ctx == ctx
    | none => false).length

/-- The lowest range of n frames in the lowest compute set that has one. -/
def anyRange (s : State) (n : Nat) : Option Nat :=
  (List.range 32).findSome? fun set => if s.mem.setRan.getLsbD set then none else findRange s set n false

/-- WEIGHT_INSTALL (R285 to R287): everything taken is given back at the first failure. -/
def execWeightInstall (m : Mbx) (s : State) : Host.Outcome State Fault Refusal :=
  runCmdW m .own [(16, 18), (40, 16)] (fun s =>
    let c := issuer m
    let len := mfld m 24 8
    let kind := mfld m 32 1
    let home := mfld m 33 1
    let n := ceilDiv len 65536
    let leafLen := alignUp (32 * n) 65536
    let fin := fun (st : Nat) (s : State) => (some (st, Result.none), s)
    let rootA := mfld m 40 8
    let out := mfld m 48 8
    let want := if rootA = 0 then (stOk, [], s) else deviceData s c rootA 32
    let set := (List.range 4096).find? fun i => (s.weight i).isNone
    if len = 0 ∨ 4194304 < n ∨ 2 ≤ kind ∨ 3 ≤ home ∨ ¬ ctxOwns s c out 32 ∨ (kind = 1 ∧ ¬ ctxOwns s c (mfld m 16 8) len) then
      fin stBadParam s
    else if want.1 ≠ stOk then fin want.1 want.2.2
    else
      match set with
      | none => fin stCapacity want.2.2
      | some k =>
        if 64 ≤ ctxWeights s c then fin stCapacity want.2.2
        else
          let r := createRegion c n home false none want.2.2
          if r.1 ≠ stOk then fin r.1 r.2.2
          else
            match (if overQuota r.2.2 c 0 leafLen then none else anyRange r.2.2 (leafLen / 65536)) with
            | none => fin stQuota (dropRegion r.2.1 r.2.2)
            | some f =>
              let s1 := charge c 0 leafLen (ownFrames c f (leafLen / 65536) r.2.2)
              let w : WeightSet := { ctx := c, region := r.2.1, blocks := n, home := home, leafBase := 65536 * f, leafLen := leafLen,
                                     root := [] }
              let s2 := s1.setWeight k (some w)
              let src := weightSource m s2 kind (mfld m 16 8) len
              if src.1 ≠ stOk then fin src.1 (dropWeight k src.2.2)
              else
                let leaves := (List.range n).flatMap fun i => leafHash i (imageBlock src.2.1 i)
                match writeBlocks k 0 n src.2.1 (memWrite w.leafBase leaves src.2.2) with
                | none => fin stCapacity (dropWeight k src.2.2)
                | some s3 =>
                  let q : WeightWait := { input := m.input.toNat, slot := m.slot.toNat, set := k, kind := 0, first := 0, count := n,
                                          expected := want.2.1, out := out, xfer := if home = 1 then s3.mem.nextXfer - 1 else 0 }
                  (none, weightProgress (updMem (fun m => { m with weightWaits := m.weightWaits ++ [q] }) s3))) s

/-- A weight set of the issuer's context. -/
def ownWeight (m : Mbx) (s : State) (n : Nat) : Option WeightSet :=
  match s.weight n with
  | some w => if w.ctx = issuer m then some w else none
  | none => none

/-- The blocks of an HBM or flash set as they are read for a verification, and whether poison was met. -/
def readBlocks (w : WeightSet) (s : State) : List (List Byte) × Bool × State :=
  let r := Tab.get Region.none s.mem.regions w.region
  (List.range w.blocks).foldl (fun (p : List (List Byte) × Bool × State) i =>
    let g := p.2.2.page (pageKey w.ctx (r.firstTpn + i))
    if w.home = 0 then
      let x := memRead w.ctx (65536 * g.frame) 65536 p.2.2
      (p.1 ++ [x.1.bytes], p.2.1 || x.1.poison, x.2)
    else
      let ws := (List.range 4).foldl (fun (a : List (BitVec 128 × BitVec 16) × State) j =>
        let x := readStripe w.ctx (g.homeLoc + j) 0 a.2
        (a.1 ++ x.1, x.2.2)) ([], p.2.2)
      (p.1 ++ [ws.1.flatMap fun x => leBytes 16 (readWord (codeWord x.1 x.2)).1.toNat],
       p.2.1 || ws.1.any (fun x => (eccDecode x.2).isPoison), ws.2)) ([], false, s)

/-- WEIGHT_QUERY (R288, Table 10.8); with VERIFY every block is read from its home and rehashed. -/
def execWeightQuery (m : Mbx) (s : State) : Host.Outcome State Fault Refusal :=
  runCmdW m .own [(16, 3)] (fun s =>
    let n := mfld m 16 2
    match ownWeight m s n with
    | none => (some (stBadParam, Result.none), s)
    | some w =>
      if 2 ≤ mfld m 18 1 then (some (stBadParam, Result.none), s)
      else if mfld m 18 1 = 0 then (some (stOk, { fields := [], block := some (weightReport w s) }), s)
      else if w.home = 1 then
        let r := Tab.get Region.none s.mem.regions w.region
        let q : WeightWait := { input := m.input.toNat, slot := m.slot.toNat, set := n, kind := 2, first := 0, count := w.blocks,
                                expected := [], out := 0, xfer := s.mem.nextXfer }
        (none, startXfer (newXfer 10 w.ctx w.region r.lender (slotOffset r 0 0) 0 (256 * w.blocks))
          (updMem (fun m => { m with weightWaits := m.weightWaits ++ [q] }) s))
      else
        let b := readBlocks w s
        let r := finishVerify w stOk b.1 b.2.1 b.2.2
        (some (r.1, r.2.1), r.2.2)) s

/-- WEIGHT_REPAIR (R291): every leaf must match before anything is written. -/
def execWeightRepair (m : Mbx) (s : State) : Host.Outcome State Fault Refusal :=
  runCmdW m .own [(16, 3), (20, 8), (32, 8)] (fun s =>
    let n := mfld m 16 2
    let first := mfld m 20 4
    let count := mfld m 24 4
    let kind := mfld m 18 1
    let fin := fun (st : Nat) (s : State) => (some (st, Result.none), s)
    match ownWeight m s n with
    | none => fin stBadParam s
    | some w =>
      if 2 ≤ kind ∨ count = 0 ∨ w.blocks < first + count ∨ (kind = 1 ∧ ¬ ctxOwns s (issuer m) (mfld m 32 8) (65536 * count)) then
        fin stBadParam s
      else if weightBusy s n then fin stBusy s
      else
        let src := weightSource m s kind (mfld m 32 8) (65536 * count)
        let leaves := leafTable src.2.2 w
        if src.1 ≠ stOk then fin src.1 src.2.2
        else if (List.range count).any fun i => leafHash (first + i) (imageBlock src.2.1 i) != leaves.getD (first + i) [] then
          fin stPlateDigest src.2.2
        else
          match writeBlocks n first count src.2.1 src.2.2 with
          | none => fin stCapacity src.2.2
          | some s1 =>
            let q : WeightWait := { input := m.input.toNat, slot := m.slot.toNat, set := n, kind := 1, first := first, count := count,
                                    expected := [], out := 0, xfer := if w.home = 1 then s1.mem.nextXfer - 1 else 0 }
            (none, weightProgress (updMem (fun m => { m with weightWaits := m.weightWaits ++ [q] }) s1))) s

/-- WEIGHT_REMOVE (R288, Table 10.7): after the commands on the set that were accepted before it (R523). -/
def execWeightRemove (m : Mbx) (s : State) : Host.Outcome State Fault Refusal :=
  runCmdW m .own [(16, 2)] (fun s =>
    let n := mfld m 16 2
    match ownWeight m s n with
    | none => (some (stBadParam, Result.none), s)
    | some w =>
      if s.mem.weightWaits.any fun q => q.set == n then
        let q : WeightWait := { input := m.input.toNat, slot := m.slot.toNat, set := n, kind := 3, first := 0, count := 0, expected := [],
                                out := 0, xfer := 0 }
        (none, updMem (fun t => { t with weightWaits := t.weightWaits ++ [q] }) s)
      else
        let r := removeWeight n w s
        (some (r.1, Result.none), r.2)) s

/-! ### The thatch engine (R292, R293, R297) -/

/-- The start records of a window in the order in which they run. -/
def recordChain (p : Plate) : Nat → Nat → List Nat
  | 0, _ => []
  | k + 1, off =>
    let n := (readStart p.prog off).next
    off :: (if n = 0 then [] else recordChain p k n)

/-- Reads an entry of a schedule (Table 10.2). -/
def readThatchEntry (b : List Byte) : ThatchEntry :=
  { gate := fld b 0 4, die := fld b 4 1, mode := fld b 5 1, first := fld b 8 4, count := fld b 12 4, latest := fld b 16 4,
    dst := fld b 24 8, served := 0, waiting := [], pins := [], copying := none, landed := false }

/-- Whether an entry is in range (R293). -/
def thatchEntryOk (s : State) (ctx blocks length : Nat) (chain : List Nat) (b : List Byte) : Bool :=
  let e := readThatchEntry b
  let n := if e.mode = 0 then 4 * e.count else 65536 * e.count
  onlyFields b [(0, 6), (8, 12), (24, 8)] && decide (e.die < 4 ∧ e.mode < 2 ∧ 1 ≤ e.count ∧ e.count ≤ 65536 ∧
    e.first + e.count ≤ blocks ∧ e.latest < length) && chain.contains e.gate && mayAccess s ctx e.dst n &&
    (if e.mode = 0 then decide (e.dst + n ≤ hbmEnd)
     else decide (0xE000000000 ≤ e.dst ∧ e.dst + n ≤ 0xE020000000) && (e.dst - 0xE000000000) / 0x8000000 == e.die)

/-- The gates of entries in order, each once. -/
def distinctGates (l : List Nat) : List Nat := l.foldl (fun a g => if a.contains g then a else a ++ [g]) []

/-- Whether numbers never fall. -/
def nonDecreasing : List Nat → Bool
  | a :: b :: r => decide (a ≤ b) && nonDecreasing (b :: r)
  | _ => true

/-- Reads and checks the schedule of a BEGIN (R293). -/
def readSchedule (s : State) (ctx : Nat) (l : Live) (a : Nat) : Nat × Option Thatch × State :=
  if a % 64 ≠ 0 ∨ ¬ ctxOwns s ctx a 32 then (stBadParam, none, s)
  else
    let h := memRead ctx a 32 s
    let n := fld h.1.bytes 4 4
    if h.1.poison then (stPoison, none, h.2)
    else if n = 0 ∨ 65536 < n ∨ ¬ ctxOwns s ctx a (32 + 32 * n) then (stBadParam, none, h.2)
    else
      let b := memRead ctx (a + 32) (32 * n) h.2
      let wset := fld h.1.bytes 0 2
      let dist := fld h.1.bytes 2 1
      let pace := fld h.1.bytes 8 4
      match s.weight wset, s.plate l.plate with
      | some w, some p =>
        match p.windows.find? fun x => x.window == l.window && x.variant == l.variant with
        | none => (stBadParam, none, b.2)
        | some win =>
          let chain := recordChain p p.prog.length win.entry
          let recs := chunks 32 b.1.bytes
          let es := recs.map readThatchEntry
          let order := es.map fun e => chain.findIdx (· == e.gate)
          if b.1.poison then (stPoison, none, b.2)
          else if w.ctx ≠ ctx ∨ ¬ onlyFields h.1.bytes [(0, 3), (4, 8)] ∨ dist = 0 ∨ 8 < dist ∨ pace < 256 ∨ 12058 < pace ∨
              ¬ recs.all (thatchEntryOk s ctx w.blocks win.length chain) ∨ ¬ nonDecreasing order then (stBadParam, none, b.2)
          else
            let now := (p.running.find? fun r => r.start == l.start && r.window == l.window).map Running.winStart
            (stOk, some { ctx := ctx, plate := l.plate, start := l.start, windowStart := now.getD l.start, wset := wset, dist := dist,
                          pace := pace, dies := [], gates := (distinctGates (es.map ThatchEntry.gate)).map fun g =>
                            { off := g, isOpen := false }, entries := es, retry := [], paced := [], status := stOk }, b.2)
      | _, _ => (stBadParam, none, b.2)

/-- Accepts a BEGIN on a die (R292): its status. A schedule ends with its impression, at once when that has ended. Log 53 (DEDUCED). -/
def beginThatch (die : Nat) (j : Job) (s : State) : Nat × State :=
  let b := leBytes 64 j.block.toNat
  if fld b 0 1 ≠ 1 ∨ ¬ onlyFields b [(0, 1), (2, 3), (8, 8)] ∨ 512 ≤ fld b 2 2 ∨ 64 ≤ fld b 4 1 then (stBadParam, s)
  else
    match j.live with
    | none => (stBadParam, s)
    | some l =>
      if 64 ≤ (s.mem.thatch.filter fun x => x.dies.contains die).length then (stCapacity, s)
      else
        let r := readSchedule s j.who l (fld b 8 8)
        match r.2.1 with
        | none => (r.1, r.2.2)
        | some x =>
          let runs := ((s.plate l.plate).map Plate.running).getD []
          match r.2.2.schedule l.plate l.start with
          | some y =>
            if y.dies.contains die then (stBadParam, r.2.2)
            else (stOk, thatchGo (updThatch l.plate l.start (fun x => { x with dies := x.dies ++ [die] }) r.2.2))
          | none =>
            if ¬ runs.any (fun q => q.start == l.start && q.window == l.window) then (stOk, r.2.2)
            else (stOk, thatchGo (updMem (fun m => { m with thatch := m.thatch ++ [{ x with dies := [die] }] }) r.2.2))

/-- THATCH_BEGIN (R292, R293): the job at the head of a die's port retires as it is accepted. -/
def execThatchBegin (die : BitVec 2) (s : State) : Host.Outcome State Fault Refusal :=
  let p := 0x30 + die.toNat
  match headJob p s with
  | none => .next s
  | some j =>
    let b := leBytes 64 j.block.toNat
    let r := beginThatch die.toNat j (popJob p s)
    .next (retireFor j.who (fld b 2 2) (fld b 4 1) r.1 r.2)

/-- The smallest LATEST of a gate. -/
def gateLatest (x : Thatch) (off : Nat) : Nat :=
  (((x.entries.filter fun e => e.gate == off).map ThatchEntry.latest).min?).getD 0

/-- THATCH_LATEST_EXPIRY (R297): an impression whose gate is still held at its window's start + LATEST is suspended, its
context saved as at a command boundary. -/
def execThatchLatestExpiry (plate : BitVec 16) (s : State) : Host.Outcome State Fault Refusal :=
  let h := plate.toNat
  match s.plate h with
  | none => .next s
  | some p =>
    let due := fun (r : Running) => !r.begun && !r.ended && r.hold == 1 &&
      (match s.schedule h r.start with
       | some x => decide (x.windowStart + gateLatest x r.record ≤ s.now)
       | none => false)
    match p.running.find? due with
    | none => .next s
    | some r =>
      let die := match s.schedule h r.start with
        | some x => ((x.entries.find? fun e => e.gate == r.record && !e.landed).map ThatchEntry.die).getD 0
        | none => 0
      let s1 := thatchCount die 2 (updPlate h (fun p => { p with
        running := p.running.map fun x => if x = r then { x with hold := 3 } else x }) s)
      .next ((claimed 1 p.claims).foldl (fun s k =>
        if (s.coreAt k).resident = some p.owner ∧ (s.coreAt k).live.isNone then saveResident k s else s) s1)

end Sys2Proof.Machine
end

