-- ==== Sys2Proof/Machine/Diag.lean ====
section
/-!
DEFINITION. Seeds, proofs, the record unit, replay's commands and the drypoint (chapter 17).
-/
namespace Sys2Proof.Machine
open Sys2Proof

/-- Changes seeds, proofs, the record unit, replay and the drypoint. -/
def updDet (f : Det → Det) (s : State) : State := { s with det := f s.det }

/-! ### Seeds (R471, R472) -/

/-- Whether a seed may not change now: a plate of the context runs, or a RAN plate is admitted, runs or retires. -/
def seedBusy (s : State) (c : Nat) : Bool :=
  (plateList s).any fun q =>
    if c = 256 then q.2.isRan && q.2.admitted else q.2.owner == c && !q.2.isRan && q.2.state == 2

/-- CTX_SEED_SET (R471): a function sets its own context's seed, the PF any and the RAN seed. -/
def execCtxSeedSet (m : Mbx) (s : State) : Host.Outcome State Fault Refusal :=
  runCmd m .own [(16, 2), (24, 8)] (fun s =>
    let c := mfld m 16 2
    if 256 < c ∨ (issuer m ≠ 0 ∧ c ≠ issuer m) then refuse stBadParam s
    else if seedBusy s c then refuse stBusy s
    else done (updDet (fun d => { d with seeds := Tab.set 0 d.seeds c (BitVec.ofNat 64 (mfld m 24 8)) }) s)) s

/-- SEED_REGEN (R472): the random words of indices i0 to i0 + count − 1 (R87). -/
def execSeedRegen (m : Mbx) (s : State) : Host.Outcome State Fault Refusal :=
  runCmd m .own [(18, 38)] (fun s =>
    let n := mfld m 20 4
    let i0 := mfld m 40 8
    let dst := mfld m 48 8
    if n = 0 ∨ 1048576 < n ∨ 2 ^ 50 ≤ i0 ∨ ¬ ctxOwns s (issuer m) dst (4 * n) then refuse stBadParam s
    else
      done (memWrite dst ((List.range n).flatMap fun j =>
        leBytes 4 (randomWord (mfld m 24 8) (mfld m 32 8) (mfld m 18 2) (i0 + j))) s)) s

/-! ### Proofs (R467 to R470) -/

/-- Finalises a digest state block as HASH mode 2 does and writes it to zeros (R468): the digest, and whether a word of the
block was poisoned. The unit hashes the data bits of a poisoned word as they are stored (R469). Log 50 (DEDUCED). -/
def finalState (who a : Nat) (s : State) : List Byte × Bool × State :=
  let r := memRead who a 128 s
  let st := readState r.1.bytes
  (shaWordsBytes (shaFold st.1 (st.2.2 ++ shaPad st.2.1)), r.1.poison, memWrite a (List.replicate 128 0) r.2)

/-- The proof record (Table 17.3). -/
def proofRecord (digest root input output : List Byte) (imp rank : Nat) (poison : Bool) : List Byte :=
  sliceBytes digest 0 32 ++ sliceBytes root 0 32 ++ input ++ output ++ leBytes 8 imp ++ leBytes 4 rank ++
    [BitVec.ofNat 8 arithRev, BitVec.ofNat 8 (bit poison), 0, 0]

/-- Whether the directory of a weight set marks a sector poisoned (R290). -/
def weightPoisoned (s : State) (w : WeightSet) : Bool :=
  (regionKeys (Tab.get Region.none s.mem.regions w.region)).any fun k => (s.page k).poison != 0

/-- Bytes a proof job writes at its destination. -/
def proofLen (full : Bool) : Nat := if full then 176 else 32

/-- Whether a proof job's fields are in range (R467). Log 50 (DEDUCED). -/
def proofJobOk (s : State) (j : Job) (b : List Byte) : Bool :=
  let wset := fld b 6 2
  let full := bitAt (fld b 1 1) 1
  fld b 0 1 == 1 && decide (fld b 1 1 < 4) && onlyFields b [(0, 5), (6, 6), (16, 24)] && decide (fld b 4 1 < 64) &&
    (wset == 0xFFFF || ((s.weight wset).map WeightSet.ctx) == some j.who) && decide (fld b 32 8 % 32 = 0) &&
    ctxOwns s j.who (fld b 16 8) 128 && ctxOwns s j.who (fld b 24 8) 128 && ctxOwns s j.who (fld b 32 8) (proofLen full)

/-- The engine of a die that a job takes: the lowest free one. Log 50 (DEDUCED). -/
def freeEngine (s : State) (die : Nat) : Option Nat :=
  ((List.range 16).map (16 * die + ·)).find? fun e => (Tab.get none s.det.proofs e).isNone

/-- Starts a proof job on an engine (R468, R469). Log 50 (DEDUCED). -/
def startProof (e : Nat) (j : Job) (l : Live) (b : List Byte) (s : State) : State :=
  let i := finalState j.who (fld b 16 8) s
  let o := finalState j.who (fld b 24 8) i.2.2
  let w := if fld b 6 2 = 0xFFFF then none else s.weight (fld b 6 2)
  let root := (w.map WeightSet.root).getD []
  let bad := bitAt (fld b 1 1) 0 || i.2.1 || o.2.1 || (w.map (weightPoisoned s)).getD false
  let digest := ((s.plate l.plate).map Plate.digest).getD []
  let p : Proof := { who := j.who, core := fld b 2 2, cnt := fld b 4 1, dst := fld b 32 8, full := bitAt (fld b 1 1) 1, poison := bad,
                     record := proofRecord digest root i.1 o.1 l.impression (fld b 8 4) bad }
  updDet (fun d => { d with proofs := Tab.set none d.proofs e (some p) }) o.2.2

/-- PROOF_JOB (R467, R468): the job at the head of a die's proof port takes an engine, or retires with ST_BAD_PARAM. -/
def execProofJob (die : BitVec 2) (s : State) : Host.Outcome State Fault Refusal :=
  let port := 0x50 + die.toNat
  match headJob port s, freeEngine s die.toNat with
  | some j, some e =>
    let b := leBytes 64 j.block.toNat
    let s1 := popJob port s
    match j.live with
    | some l =>
      if proofJobOk s j b then .next (startProof e j l b s1)
      else .next (retireFor j.who (fld b 2 2) (fld b 4 1 % 64) stBadParam s1)
    | none => .next (retireFor j.who (fld b 2 2) (fld b 4 1 % 64) stBadParam s1)
  | _, _ => .next s

/-- PROOF_DONE (R469, R470): an engine's proof is written, its record after it if asked for, and the job retires. Log 50 (DEDUCED). -/
def execProofDone (die : BitVec 2) (engine : BitVec 4) (s : State) : Host.Outcome State Fault Refusal :=
  let e := 16 * die.toNat + engine.toNat
  match Tab.get none s.det.proofs e with
  | none => .next s
  | some p =>
    let s1 := updDet (fun d => { d with proofs := Tab.set none d.proofs e none }) s
    if ¬ ctxOwns s p.who p.dst (proofLen p.full) then .next (retireFor p.who p.core p.cnt stBadParam s1)
    else
      let s2 := memWrite p.dst (sha256 p.record ++ if p.full then p.record else []) s1
      let i := 8 * die.toNat
      let s3 := updDet (fun d => { d with proofCnt := if p.poison then bump (bump d.proofCnt i) (i + 1) else bump d.proofCnt i }) s2
      .next (retireFor p.who p.core p.cnt (if p.poison then stPoison else stOk) s3)

/-! ### The record unit (R473 to R477) -/

/-- Whether a size is a power of two from 1 MiB to 64 GiB (R473). Log 48 (DESIGN CHOICE). -/
def ringSizeOk (n : Nat) : Bool := isPow2Between 20 36 n

/-- Whether a ring lies in the frames of an owner. -/
def ringHeld (s : State) (owner base size : Nat) : Bool := base % 65536 == 0 && ctxOwns s owner base size

/-- REC_CONFIG (R473). -/
def execRecConfig (m : Mbx) (s : State) : Host.Outcome State Fault Refusal :=
  runCmd m .pf [(16, 6), (24, 16)] (fun s =>
    let c := mfld m 16 2
    let kind := mfld m 18 1
    let base := mfld m 24 8
    let size := mfld m 32 8
    let w := Tab.get FabWin.reset s.fab.wins (mfld m 20 2)
    let held := if kind = 0 then ringSizeOk size && (ringHeld s 0 base size || ringHeld s 256 base size)
      else fabAddrOk base && base % 16 == 0 && winAllows w 257 (readFabAddr base) 1 2
    if s.det.recUnit.recording ∨ s.det.replay.isSome then refuse stBusy s
    else if (255 < c ∧ c ≠ 0xFFFF) ∨ 1 < kind ∨ 1 < mfld m 19 1 ∨ ¬ held then refuse stBadParam s
    else
      done (updRec (fun r => { r with
        configured := true, ctx := if c = 0xFFFF then none else some c, fabric := kind == 1, entry := mfld m 20 2, base := base,
        size := size, overwrite := mfld m 19 1 == 1 }) s)) s

/-- REC_START (R474): the ring begins empty and the start marker is its first record. Log 48 (DESIGN CHOICE). -/
def execRecStart (m : Mbx) (s : State) : Host.Outcome State Fault Refusal :=
  runCmd m .pf [] (fun s =>
    if ¬ s.det.recUnit.configured then refuse stNotReady s
    else if s.det.recUnit.recording ∨ s.det.replay.isSome then refuse stBusy s
    else
      let s1 := updRec (fun r => { r with
        recording := true, r0 := s.now, seq := 0, written := 0, lost := 0, lossPending := 0, lossAt := 0, wp := 0, rp := 0, staged := [],
        exported := 0, nextReq := 0, stopAt := none }) s
      (stOk, { fields := [(8, 8, s.now)], block := none }, putMarker 0 s1)) s

/-- REC_STOP (R474). -/
def execRecStop (m : Mbx) (s : State) : Host.Outcome State Fault Refusal :=
  runCmd m .pf [] (fun s =>
    if ¬ s.det.recUnit.recording then refuse stNotReady s
    else
      let s1 := stopCapture s
      (stOk, { fields := [(8, 8, s1.det.recUnit.written), (16, 8, s1.det.recUnit.lost)], block := none }, s1)) s

/-- REC_POST_STOP (R485): POST × 1,024 ridge ticks after a snapshot the unit stops as by REC_STOP. -/
def execRecPostStop (s : State) : Host.Outcome State Fault Refusal :=
  match s.det.recUnit.stopAt with
  | none => .next s
  | some t =>
    if s.now < t then .next s
    else if s.det.recUnit.recording then .next (stopCapture s)
    else .next (updRec (fun r => { r with stopAt := none }) s)

/-! ### Replay's commands (R478, R480) -/

/-- n bytes of a ring from an offset on, around its end. -/
def ringBytes (s : State) (base size off n : Nat) : List Byte :=
  let o := off % size
  let head := min n (size - o)
  s.mem.mem.bytesAt (base + o) head ++ s.mem.mem.bytesAt base (n - head)

/-- What a scan of a ring found: whether it begins with a start marker, R0, a type 1 record, and the offset of a loss marker. -/
structure RingScan where
  start : Bool
  r0 : Nat
  streams : Bool
  loss : Option Nat
deriving DecidableEq, Repr

/-- Whether the bytes of a record's header are those of a stop marker whose payload kind is given. Log 49 (DESIGN CHOICE). -/
def isStop (type kind : Nat) : Bool := type == 7 && kind == 1

/-- Scans a ring's records from an offset up to its stop marker, at most `fuel` records. Log 49 (DESIGN CHOICE). -/
def scanRing (s : State) (base size : Nat) : Nat → Nat → RingScan → RingScan
  | 0, _, x => x
  | k + 1, off, x =>
    if size ≤ off then x
    else
      let h := ringBytes s base size off 48
      let type := fld h 0 1
      let kind := fld h 46 1
      if type = 0 ∨ 8 < type ∨ isStop type kind then x
      else
        let next := off + 32 + alignUp (fld h 2 2) 32
        scanRing s base size k next
          { start := x.start || (off == 0 && type == 7), r0 := if off = 0 then fld h 32 8 else x.r0,
            streams := x.streams || type == 1, loss := if type = 8 ∧ x.loss = none then some off else x.loss }

/-- Whether a function may start this replay (R478): its own context and no streams, or anything for the PF. Log 49 (DESIGN CHOICE). -/
def mayReplay (fn c : Nat) (streams : Bool) : Bool :=
  if fn = 0 then decide (c ≤ 256) || (c == 0xFFFF && streams) else c == fn && !streams

/-- REPLAY_START (R478). Log 49 (DESIGN CHOICE). -/
def execReplayStart (m : Mbx) (s : State) : Host.Outcome State Fault Refusal :=
  runCmd m .own [(16, 3), (24, 24)] (fun s =>
    let fn := issuer m
    let c := mfld m 16 2
    let streams := mfld m 18 1 == 1
    let base := mfld m 24 8
    let size := mfld m 32 8
    let shift := mfld m 40 8
    let held := if fn = 0 then ringHeld s 0 base size || ringHeld s 256 base size else ringHeld s fn base size
    if s.det.recUnit.recording ∨ s.det.replay.isSome then refuse stBusy s
    else if 1 < mfld m 18 1 ∨ ¬ mayReplay fn c streams ∨ ¬ ringSizeOk size ∨ ¬ held then refuse stBadParam s
    else
      let x := scanRing s base size (size / 32) 0 { start := false, r0 := 0, streams := false, loss := none }
      match x.loss with
      | some off => (stBadParam, { fields := [(8, 8, off)], block := none }, s)
      | none =>
        if ¬ x.start ∨ shift % epochTicks ≠ 0 ∨ (x.streams ∧ shift % (256 * epochTicks) ≠ 0) ∨
            x.r0 + shift < s.now + epochTicks then refuse stBadParam s
        else
          let r : Replay := { ctx := if c = 0xFFFF then none else some c, streams := streams, fn := fn, base := base, size := size,
                              shift := shift, pos := 0, nextReq := 0, injected := 0 }
          (stOk, { fields := [(8, 8, x.r0 + shift)], block := none }, updDet (fun d => { d with replay := some r }) s)) s

/-- REPLAY_STOP (R480): the function that started the replay, or the PF, ends it. Log 49 (DESIGN CHOICE). -/
def execReplayStop (m : Mbx) (s : State) : Host.Outcome State Fault Refusal :=
  runCmd m .own [] (fun s =>
    match s.det.replay with
    | none => refuse stNotReady s
    | some r =>
      if issuer m ≠ 0 ∧ issuer m ≠ r.fn then refuse stBadParam s
      else
        (stOk, { fields := [(8, 8, r.injected), (16, 8, (Tab.get 0 s.det.recUnit.cnt 5).toNat)], block := none }, endReplay s)) s

/-! ### The drypoint (R482 to R485) -/

/-- Takes a value of `DRY_CTRL` and `DRY_MATCH` (R482, R486): ARM reads 0 with RIDGE set and bits [3:0] of the match not zero;
a match that is too near never fires and counts one miss. The reserved bits of EVENTS (Table 17.6) read 0. Log 47 (DESIGN CHOICE). -/
def setDry (ctrl matchAt : BitVec 64) (s : State) : State :=
  let bad := ctrl.getLsbD 2 && decide (matchAt.toNat % 16 ≠ 0)
  let c := (if bad then ctrl &&& ~~~ 1 else ctrl) &&& 0xFFFFFFFF03FF00FD
  let armed := c.getLsbD 0 && c.getLsbD 2
  updDry (fun d =>
    let d1 := { d with ctrl := c, matchAt := matchAt, armedAt := s.now, due := d.due.filter fun e => e.2 != 1 }
    if ¬ armed then d1
    else if matchAt.toNat < s.now + 128 then d1.miss
    else { d1 with due := d1.due ++ [(matchAt.toNat, 1)] }) s

/-- DRY_ARM (R482, R486). -/
def execDryArm (m : Mbx) (s : State) : Host.Outcome State Fault Refusal :=
  runCmd m .pf [(24, 1), (26, 14)] (fun s =>
    let ctrl := BitVec.ofNat 64 (mfld m 24 8)
    let at_ := BitVec.ofNat 64 (mfld m 32 8)
    if ctrl.getLsbD 2 ∧ at_.toNat % 16 ≠ 0 then refuse stBadParam s
    else done (setDry ctrl at_ s)) s

/-- DRY_FIRE (R482): the snapshot is due at the first multiple of 16 at or after t + 128. -/
def execDryFire (m : Mbx) (s : State) : Host.Outcome State Fault Refusal :=
  runCmd m .pf [] (fun s =>
    if ¬ s.det.dry.waits ∨ ¬ s.det.dry.ctrl.getLsbD 5 then refuse stNotReady s
    else (stOk, { fields := [(8, 8, snapInstant s.now)], block := none }, dryTriggerAt 3 s.now s)) s

/-- What the shadows copy at a snapshot (Table 17.7). -/
def takeSnap (s : State) : Snap :=
  { clk := s.clk, mem := s.mem, host := s.host, traf := s.traf, time := s.time, plates := s.plates, flt := s.flt, fab := s.fab,
    rad := s.rad, core := s.core,
    nextTier := s.dev.pwr.nextTier, recUnit := s.det.recUnit, replaying := s.det.replay.isSome, proofCnt := s.det.proofCnt }

/-- The snapshot of an instant with its sources (R483 to R485). -/
def snapshot (t src : Nat) (s : State) : State :=
  let d := s.det.dry
  if d.held ∧ ¬ d.overwrite then updDry Dry.miss s
  else
    let copy := takeSnap s
    let s1 := updDry (fun d => { d with
      held := true, source := BitVec.ofNat 14 src, snapRidge := BitVec.ofNat 64 t, snap := some copy }) s
    if ¬ s.det.recUnit.recording then s1
    else
      let s2 := capture 6 0 (s.det.recUnit.ctx.getD 0xFFFF) 0 0 t (leBytes 2 src) [] s1
      if d.ctrl.getLsbD 6 then updRec (fun r => { r with stopAt := some (t + d.ctrl.toNat / 2 ^ 32 * 1024) }) s2 else s2

/-- DRYPOINT_SNAPSHOT (R482 to R484): the earliest instant that is due takes one snapshot for all its sources. -/
def execDrypointSnapshot (s : State) : Host.Outcome State Fault Refusal :=
  match (s.det.dry.due.map Prod.fst).min? with
  | none => .next s
  | some t =>
    if s.now < t then .next s
    else
      let src := ((s.det.dry.due.filter fun e => e.1 == t).map Prod.snd).foldl (· ||| ·) 0
      .next (snapshot t src (updDry (fun d => { d with due := d.due.filter fun e => e.1 != t }) s))

/-- DRY_HELD_RELEASE (R484, R575): writing 1 to HELD releases the shadows and clears MISSED; they keep their values until the next
snapshot. With ARM still set the drypoint is armed again. Log 47 (DESIGN CHOICE). -/
def execDryHeldRelease (s : State) : Host.Outcome State Fault Refusal :=
  if ¬ s.det.dry.held then .next s
  else
    let s1 := updDry (fun d => { d with held := false, missed := 0 }) s
    .next (setDry s1.det.dry.ctrl s1.det.dry.matchAt s1)

end Sys2Proof.Machine
end

