-- ==== Sys2Proof/Machine/Jtag.lean ====
section
/-!
DEFINITION. The test access port (chapter 23, R593): the instructions of Table 23.11 as they are loaded.
-/
namespace Sys2Proof.Machine
open Sys2Proof

/-- IDCODE: version 0xB, part 0x0960, manufacturer 0x51E, bit 0 set (Table 23.11). -/
abbrev idCode : Nat := 0xB0960A3D

/-- Loads an instruction. Log 70 (DEDUCED). -/
def loadInstr (code : Nat) (s : State) : State := { s with dev := { s.dev with jtag := { s.dev.jtag with instr := code } } }

/-- The bypass register is selected: one bit, captured as 0. -/
def selectBypass (s : State) : State := emit (.testData 0 1) s

/-- The number whose bits are those of the boundary-scan cells, the first lowest. Log 70 (DEDUCED). -/
def cellsValue : List Bool → Nat
  | [] => 0
  | b :: r => bit b + 2 * cellsValue r

/-- Whether EXTEST, CLAMP and HIGHZ take effect: only while PERST_N is low. Log 70 (DEDUCED). -/
def testActs (s : State) : Bool := s.dev.perst

/-- EXTEST: the pins are driven from the preloaded cells and the boundary register, which captures them, is selected. -/
def execExtest (s : State) : Host.Outcome State Fault Refusal :=
  let c := s.dev.jtag.preload
  .next (if testActs s then emitAll [.testPins (some c), .testData (cellsValue c) c.length] (loadInstr 0 s)
    else selectBypass (loadInstr 0 s))

/-- IDCODE: the identification register is selected. -/
def execIdcode (s : State) : Host.Outcome State Fault Refusal := .next (emit (.testData idCode 32) (loadInstr 1 s))

/-- SAMPLE/PRELOAD: the pins are sampled, `pins` holding their values, and the cells take the bits that are shifted in. -/
def execSamplePreload (pins cells : List Bool) (s : State) : Host.Outcome State Fault Refusal :=
  let s1 := loadInstr 2 s
  .next (emit (.testData (cellsValue pins) pins.length)
    { s1 with dev := { s1.dev with jtag := { s1.dev.jtag with preload := cells } } })

/-- CLAMP: the pins are driven from the preloaded cells, the bypass register selected. -/
def execClamp (s : State) : Host.Outcome State Fault Refusal :=
  let s1 := loadInstr 4 s
  .next (selectBypass (if testActs s then emit (.testPins (some s.dev.jtag.preload)) s1 else s1))

/-- HIGHZ: the pins are not driven, the bypass register selected. -/
def execHighz (s : State) : Host.Outcome State Fault Refusal :=
  let s1 := loadInstr 5 s
  .next (selectBypass (if testActs s then emit (.testPins none) s1 else s1))

/-- BYPASS, and every code that Table 23.11 does not list. -/
def execBypass (code : BitVec 8) (s : State) : Host.Outcome State Fault Refusal := .next (selectBypass (loadInstr code.toNat s))

/-- TAP_RESET: test logic reset selects IDCODE. -/
def execTapReset (s : State) : Host.Outcome State Fault Refusal := .next (loadInstr 1 s)

end Sys2Proof.Machine
end

