-- ==== Sys2Proof/Machine/RegTable.lean ====
section
/-!
DEFINITION. The register index (R577, Table 22.4): every register in BAR0 by offset, its width and its copies.
-/
namespace Sys2Proof.Machine
open Sys2Proof

/-- A register of Table 22.4. -/
inductive Reg where
  | devIdent | devSerial | devStatus | devCfg | devResetCnt | fnErr | fnIntr
  | mbxCmdRing | mbxCplRing | mbxCtrl | mbxCmdPI | mbxCplCI | mbxStatus | mbxMgmtCnt
  | admGuard | admTier | teRev | abrEpoch
  | coreThread | coreCnt | coreBexp | seState | seSatCnt | seSingCnt | coreCtx | cbWay
  | bbCellState | bbCellLoad | bbPool | fhPortStatus | fhPortCnt | fhStreamCnt
  | timeStatus | timeNow | timeMeasAt | timeMeasOfs | timeMeasCtl | txtsHead | txtsRidge
  | toutCtrl | toutStart | toutPeriod | tinHead | tinRidge | tinCtrl | timeCnt
  | memSetOwner | memEccCnt | memUeLog | flashStatus | flashCnt | thatchStatus | thatchCnt | seqCtx | seqCnt
  | abrPortStatus | abrPortTrain | abrLane | abrLaneCnt | fabPeerEpoch | fabCnt | fabLedger | fabVcWeight
  | collGroup | collCnt
  | qState | qDepth | qCnt | qClass | stippleCtrl | stippleWp | stippleRp | trafficCnt
  | hifLink | hifFn | hifCnt | ctxState | ctxCnt
  | dryCtrl | dryMatch | dryStatus | drySnapRidge | recStatus | recWp | recRp | recCnt | proofCnt
  | leaseStatus | leaseExpiry | leaseCtrl | fltHealth | fltRev | fltCnt
  | pwrVid | thermStatus | coolantStatus | govStatus | pwrRail | pwrCnt
deriving DecidableEq, Repr

/-- A row of the index: `n1` copies `s1` bytes apart, each of `n2` registers `s2` bytes apart. -/
structure RegRow where
  reg : Reg
  base : Nat
  n1 : Nat
  s1 : Nat
  n2 : Nat
  s2 : Nat
  wide : Bool
deriving DecidableEq, Repr

/-- One register of an offset. -/
def regOne (r : Reg) (base : Nat) (wide : Bool) : RegRow := { reg := r, base := base, n1 := 1, s1 := 8, n2 := 1, s2 := 8, wide := wide }
/-- A register with one index. -/
def regMany (r : Reg) (base n s : Nat) (wide : Bool) : RegRow := { reg := r, base := base, n1 := n, s1 := s, n2 := 1, s2 := 8, wide := wide }
/-- A register with two indices. -/
def regGrid (r : Reg) (base n1 s1 n2 s2 : Nat) (wide : Bool) : RegRow :=
  { reg := r, base := base, n1 := n1, s1 := s1, n2 := n2, s2 := s2, wide := wide }

/-- The registers that every function holds for itself (Table 22.3). -/
def localRows : List RegRow :=
  [regOne .devIdent 0 false, regOne .devSerial 8 true, regOne .fnErr 0x100 false, regOne .fnIntr 0x104 false,
   regOne .mbxCmdRing 0x200 true,
   regOne .mbxCplRing 0x208 true, regOne .mbxCtrl 0x210 false, regOne .mbxCmdPI 0x218 false, regOne .mbxCplCI 0x21C false,
   regOne .mbxStatus 0x220 true]

def deviceRows1 : List RegRow :=
  [regOne .devStatus 0x10 false, regOne .devCfg 0x18 true, regMany .devResetCnt 0x20 6 8 true, regMany .mbxMgmtCnt 0x300 6 8 true,
   regOne .admGuard 0x10000 true, regOne .admTier 0x10008 false, regOne .teRev 0x20000 false, regOne .abrEpoch 0x42000 false,
   regGrid .coreThread 0x1000000 512 0x4000 8 8 true, regGrid .coreCnt 0x1000100 512 0x4000 64 8 true,
   regGrid .coreBexp 0x1000400 512 0x4000 16 4 false, regMany .seState 0x1000600 512 0x4000 false,
   regMany .seSatCnt 0x1000608 512 0x4000 true,
   regMany .seSingCnt 0x1000610 512 0x4000 true, regMany .coreCtx 0x1000800 512 0x4000 false,
   regGrid .cbWay 0x1800000 64 0x100 16 4 false,
   regMany .bbCellState 0x2000000 384 0x40 true, regMany .bbCellLoad 0x2000008 384 0x40 false, regOne .bbPool 0x2006000 true,
   regMany .fhPortStatus 0x2200000 8 0x100 false, regGrid .fhPortCnt 0x2200080 8 0x100 16 8 true,
   regGrid .fhStreamCnt 0x2400000 6144 0x40 8 8 true]
def deviceRows2 : List RegRow :=
  [regOne .timeStatus 0x2800000 false, regOne .timeNow 0x2800008 true, regOne .timeMeasAt 0x2800010 true,
   regOne .timeMeasOfs 0x2800018 true,
   regOne .timeMeasCtl 0x2800020 false, regMany .txtsHead 0x2800100 10 16 true, regMany .txtsRidge 0x2800108 10 16 true,
   regMany .toutCtrl 0x2800200 4 32 true, regMany .toutStart 0x2800208 4 32 true, regMany .toutPeriod 0x2800210 4 32 true,
   regMany .tinHead 0x2800300 2 16 true, regMany .tinRidge 0x2800308 2 16 true, regMany .tinCtrl 0x2800380 2 4 false,
   regMany .timeCnt 0x2800400 12 8 true, regMany .memSetOwner 0x3000000 32 4 false, regGrid .memEccCnt 0x3000100 32 16 2 8 true,
   regOne .memUeLog 0x3000400 true, regOne .flashStatus 0x3000800 false, regMany .flashCnt 0x3000810 5 8 true,
   regMany .thatchStatus 0x3100000 4 0x100 false, regGrid .thatchCnt 0x3100080 4 0x100 5 8 true,
   regMany .seqCtx 0x3200000 256 0x20 true,
   regGrid .seqCnt 0x3202000 256 0x40 5 8 true]
def deviceRows3 : List RegRow :=
  [regMany .abrPortStatus 0x4000000 24 0x100 false, regMany .abrPortTrain 0x4000008 24 0x100 true,
   regGrid .abrLane 0x4000040 24 0x100 8 4 false,
   regGrid .abrLaneCnt 0x4100000 192 0x100 12 8 true, regMany .fabPeerEpoch 0x4200000 16384 4 false,
   regMany .fabCnt 0x4210000 14 8 true,
   regOne .fabLedger 0x4211000 true, regGrid .fabVcWeight 0x4212000 24 0x20 8 4 false, regMany .collGroup 0x4600000 4096 16 true,
   regGrid .collCnt 0x4610000 4 0x100 10 8 true, regMany .qState 0x5000000 8192 0x20 true, regMany .qDepth 0x5000008 8192 0x20 true,
   regGrid .qCnt 0x5000010 8192 0x20 2 8 true, regMany .qClass 0x5080000 512 16 true, regOne .stippleCtrl 0x50C0000 true,
   regOne .stippleWp 0x50C0008 false, regOne .stippleRp 0x50C000C false, regMany .trafficCnt 0x50C0100 4 8 true,
   regOne .hifLink 0x6000000 false,
   regMany .hifFn 0x6001000 256 16 true, regMany .hifCnt 0x6002000 10 8 true]
def deviceRows4 : List RegRow :=
  [regMany .ctxState 0x7000000 256 16 true, regGrid .ctxCnt 0x7001000 256 0x40 6 8 true, regOne .dryCtrl 0x7400000 true,
   regOne .dryMatch 0x7400008 true, regOne .dryStatus 0x7400010 false, regOne .drySnapRidge 0x7400018 true,
   regOne .recStatus 0x7400100 false,
   regOne .recWp 0x7400108 true, regOne .recRp 0x7400110 true, regMany .recCnt 0x7400200 6 8 true,
   regGrid .proofCnt 0x7400400 4 0x40 3 8 true,
   regOne .leaseStatus 0x7800000 false, regOne .leaseExpiry 0x7800008 true, regOne .leaseCtrl 0x7800010 false,
   regMany .fltHealth 0x7800100 8 4 false, regOne .fltRev 0x7800200 false, regMany .fltCnt 0x7800400 14 8 true,
   regOne .pwrVid 0x7C00000 false,
   regOne .thermStatus 0x7C00008 true, regOne .coolantStatus 0x7C00010 true, regOne .govStatus 0x7C00018 true,
   regMany .pwrRail 0x7C00100 12 8 true, regMany .pwrCnt 0x7C00200 7 8 true]

/-- A register that an offset reaches: the register, its indices and whether it is 64 bits wide. -/
structure RegAt where
  reg : Reg
  i : Nat
  j : Nat
  wide : Bool
deriving DecidableEq, Repr

/-- Whether a row holds a register at an offset, and which. -/
def RegRow.at? (r : RegRow) (off : Nat) : Option RegAt :=
  let d := off - r.base
  if r.base ≤ off ∧ d / r.s1 < r.n1 ∧ d % r.s1 % r.s2 = 0 ∧ d % r.s1 / r.s2 < r.n2 then
    some { reg := r.reg, i := d / r.s1, j := d % r.s1 / r.s2, wide := r.wide }
  else none

/-- The register that begins at an offset of a function's BAR0 below the shadow window: the PF holds all, a VF its page (R571,
R572). Log 72 (DESIGN CHOICE). -/
def regAt (fn off : Nat) : Option RegAt :=
  let rows := if fn = 0 then localRows ++ deviceRows1 ++ deviceRows2 ++ deviceRows3 ++ deviceRows4 else localRows
  rows.findSome? fun r => r.at? off

end Sys2Proof.Machine
end

