-- ==== Sys2Proof/Machine/RegView.lean ====
section
/-!
DEFINITION. What each register reads as (chapter 22 and the register table of each chapter), and the shadow window (R483, R575).
-/
namespace Sys2Proof.Machine
open Sys2Proof

/-- A counter of a counter bank. -/
def cntReg (t : Tab (BitVec 64)) (i : Nat) : Nat := (Tab.get 0 t i).toNat

/-- Bits of a list of Bools, the first in bit 0. -/
def maskOf (l : List Bool) : Nat := ofBits l
where
  ofBits : List Bool → Nat
  | [] => 0
  | b :: r => bit b + 2 * ofBits r

/-! ### The local page and bring-up -/

/-- `FN_INTR`.QUEUE: a ring of the function has something for its host. -/
def queueTells (q : Queue) (f : Nat) : Bool :=
  q.en && q.fn == f && q.hasRing && (if q.producer = 1 then q.pi != q.ci else q.completedSince)

/-- `FN_INTR` (R574). -/
def fnIntrReg (s : State) (f : Nat) : Nat :=
  let pend := (s.host.msix.filter fun e => e.1 / 4096 == f && e.2.pending).length
  let g := s.ring f
  2 ^ 16 * pend + 4 * bit ((s.fn f).err != 0) + 2 * bit (g.cplPI != g.cplCI) +
    bit (s.traf.queues.any fun e => queueTells e.2 f)

def mbxCtrlReg (g : MbxRing) : Nat := 2 ^ 16 * g.err.toNat + bit g.en
def mbxStatusReg (g : MbxRing) : Nat :=
  2 ^ 32 * g.cplPI.toNat + 2 ^ 8 * (g.cmdCI.toNat % 2 ^ 24) + 2 * (g.inflight.length % 128) + bit (g.inflight == [])

/-- Registers of the function-local page and of bring-up. -/
def localReg (s : State) (f : Nat) (r : Reg) (i : Nat) : Nat :=
  match r with
  | .devIdent => 0x0960B100 + f
  | .devSerial => Config.serial.toNat
  | .fnErr => fnErrReg s f
  | .fnIntr => fnIntrReg s f
  | .mbxCmdRing => (s.ring f).cmdRing.toNat
  | .mbxCplRing => (s.ring f).cplRing.toNat
  | .mbxCtrl => mbxCtrlReg (s.ring f)
  | .mbxCmdPI => (s.ring f).cmdPI.toNat
  | .mbxCplCI => (s.ring f).cplCI.toNat
  | .mbxStatus => mbxStatusReg (s.ring f)
  | .mbxMgmtCnt => cntReg s.mbx.mgmtCnt i
  | .devStatus => devStatus s.dev
  | .devCfg => devCfg s.dev
  | .devResetCnt => cntReg s.dev.resetCnt i
  | .admGuard => 0x0F5D0800147B
  | .admTier => 16 * ranLimit s s.epochNow + 4 * s.dev.pwr.nextTier.toNat + s.clk.tier.toNat
  | .teRev => arithRev
  | .abrEpoch => 2 ^ 31 * bit s.flt.leased + 2 ^ 16 * s.fab.hall + s.flt.epoch.toNat
  | _ => 0

/-! ### Cores -/

def threadReg (t : Thread) : Nat :=
  2 ^ 48 * t.fault.toNat + 2 ^ 40 * t.state.toNat + 2 ^ 32 * t.outstanding.toNat + t.pc.toNat
def coreCntReg (c : Cnt) : Nat := 2 ^ 49 * bit c.ovf + 2 ^ 48 * bit c.nan + 2 ^ 32 * c.status.toNat + c.count.toNat
def bexpReg (b : Bexp) : Nat := 2 ^ 16 * b.exp.toNat + b.headroom.toNat
/-- `SE_STATE` (R164): a command that is suspended is busy, and one that has executed until it retires. Log 34 (DEDUCED). -/
def seStateReg (c : Core) : Nat :=
  let busy := c.se.filter fun e => e.done || e.underWay
  2 ^ 8 * ((busy.head?.map fun e => e.block.toNat % 256).getD 0) + 16 * ((c.se.length - busy.length) % 16) + bit (busy != [])
def coreCtxReg (c : Core) : Nat :=
  2 ^ 16 * (c.slots.length % 16) + 2 ^ 9 * bit c.parked + 2 ^ 8 * bit c.resident.isSome + c.resident.getD 0 % 256
def wayReg (w : Way) : Nat := 2 ^ 17 * bit w.cache + 2 ^ 16 * bit w.ran + w.ctx % 256

/-- Registers of the cores and the cluster buffers. -/
def coreReg (s : State) (r : Reg) (i j : Nat) : Nat :=
  let c := s.coreAt i
  match r with
  | .coreThread => threadReg (s.thread (8 * i + j))
  | .coreCnt => coreCntReg (Tab.get Cnt.reset c.cnt j)
  | .coreBexp => bexpReg (Tab.get Bexp.reset c.bexp j)
  | .seState => seStateReg c
  | .seSatCnt => c.satCnt.toNat
  | .seSingCnt => c.singCnt.toNat
  | .coreCtx => coreCtxReg c
  | .cbWay => wayReg (s.wayAt (16 * i + j))
  | _ => 0

/-! ### Radio and time -/

def cellReg (c : Cell) : Nat :=
  2 ^ 48 * c.msgLate.toNat + 2 ^ 32 * c.deliveryDrop.toNat + 2 ^ 16 * c.shadowGap.toNat + c.state
/-- `BB_POOL`. -/
def poolReg (s : State) : Nat :=
  let enc := (s.rad.units.filter fun e => e.1 / 64 == 1).length
  let dec := (s.rad.decJobs.map fun j => (j.blocks.filter fun b => b.decoder.isSome && !b.done).length).sum
  2 ^ 48 * s.rad.poisonTb.toNat + 2 ^ 32 * s.rad.bufClash.toNat + 2 ^ 16 * (enc % 65536) + dec % 65536
/-- `FH_PORT_STATUS`. FENCED shows a fence; the one that a reset leaves (cause 6) shows once the link is up, so that the bit reads 0 at
reset as its Reset column says (R10). Log 43 (DEDUCED). -/
def fhStatusReg (s : State) (p : Nat) : Nat :=
  let x := s.fhPort p
  let n := (s.rad.streams.filter fun e => e.2.record != [] && fld e.2.record 0 1 == p).length
  2 ^ 16 * (n % 65536) + 4 * bit (s.radioFenced && (s.flt.cause != 6 || x.link)) + 2 * bit x.fecLock + bit x.link
/-- `TIME_STATUS`. -/
def timeStatusReg (s : State) : Nat :=
  let t := s.time
  let v := t.servo
  2 ^ 16 * t.txtsOvf.toNat + 2 ^ 11 * bit (s.tin 1).ovf + 2 ^ 10 * bit (s.tin 0).ovf + 2 ^ 9 * bit t.squelched +
    2 ^ 8 * bit (v.stepBlocked && stepBlockers s) + 2 ^ 7 * bit v.phaseAlarm + 2 ^ 6 * bit v.stepped + 2 ^ 5 * bit v.stepDone + v.state.toNat
def toutCtrlReg (t : Tout) : Nat :=
  2 ^ 32 * t.width.toNat + 2 ^ 7 * bit t.missed + 16 * bit t.gate + 8 * bit t.pol + 4 * bit t.mode + bit t.en
/-- What a read of a head register would remove and return. -/
def headReg (l : List Stamp) (withId : Bool) : Nat :=
  match l with
  | [] => 0
  | e :: _ => 2 ^ 48 * e.frac.toNat + (if withId then 2 ^ 32 * e.id.toNat else 0) + 2 * bit e.flag + 1

/-- Registers of baseband, fronthaul and time. -/
def radioReg (s : State) (r : Reg) (i j : Nat) : Nat :=
  match r with
  | .bbCellState => cellReg (s.cell i)
  | .bbCellLoad => (s.cell i).load
  | .bbPool => poolReg s
  | .fhPortStatus => fhStatusReg s i
  | .fhPortCnt => cntReg s.rad.portCnt (16 * i + j)
  | .fhStreamCnt => cntReg s.rad.streamCnt (8 * i + j)
  | .timeStatus => timeStatusReg s
  | .timeNow => s.now
  | .timeMeasAt => s.time.measAt.toNat
  | .timeMeasOfs => s.time.measOfs.toNat
  | .txtsHead => headReg (Tab.get [] s.time.txts i) true
  | .txtsRidge => cntReg s.time.txtsRidge i
  | .toutCtrl => toutCtrlReg (s.tout i)
  | .toutStart => (s.tout i).start.toNat
  | .toutPeriod => (s.tout i).period.toNat
  | .tinHead => headReg (s.tin i).fifo false
  | .tinRidge => (s.tin i).last.toNat
  | .tinCtrl => (s.tin i).edges.toNat
  | .timeCnt => cntReg s.time.cnt i
  | _ => 0

/-! ### Memory, links and the fabric -/

def flashStatusReg (f : Flash) : Nat :=
  2 ^ 16 * (if f.formatted then (f.sets - (usedSets f).length) * 1000 / max 1 f.sets else 0) + 2 * bit f.formatted + bit f.present
/-- `THATCH_STATUS`: start records held at a gate whose blocks the die fetches, and the schedules that reached it. Log 71 (DEDUCED). -/
def thatchReg (s : State) (die : Nat) : Nat :=
  let held := (plateList s).map fun p => (p.2.running.filter fun r => r.hold == 1 && !r.begun && !r.ended &&
    ((s.schedule p.1 r.start).any fun x => (x.entries.find? fun e => e.gate == r.record).any fun e => e.die == die)).length
  2 ^ 16 * (held.sum % 65536) + (s.mem.thatch.filter fun x => x.dies.contains die).length % 128
def seqCtxReg (s : State) (c : Nat) : Nat :=
  2 ^ 21 * (s.mem.seqs.live.filter fun e => e.2 / 8 == c).length + Tab.get 0 s.mem.seqs.allot c
def portStatusReg (p : AbrPort) : Nat :=
  2 ^ 24 * maskOf ((List.range 8).map fun l => (Tab.get Lane.reset p.lanes l).up) + 2 ^ 16 * p.degraded.toNat +
    2 ^ 8 * (p.fail % 256) + p.state % 16
def laneReg (l : Lane) : Nat := 2 ^ 16 * l.gain.toNat + l.bits % 2048
def ledgerReg (f : Fabric) : Nat := 2 ^ 39 * f.ledgerOwners.length + 2 ^ 24 * f.ledgerSlots + f.ledgerBase % 2 ^ 24
def groupReg (g : Option Group) : Nat :=
  match g with
  | none => 0
  | some g => 2 ^ 32 * (g.key % 2 ^ 32) + 2 ^ 8 * (g.topSeq % 2 ^ 24) + 16 * bit g.fast + g.shownState

/-- Registers of the memory tiers, weights and sequences. `MEM_SET_OWNER`.DEVICE_AREA of set 31 reads 1 from reset on.
Log 87 (DESIGN CHOICE). -/
def memReg (s : State) (r : Reg) (i j : Nat) : Nat :=
  let m := s.mem
  match r with
  | .memSetOwner => 2 * bit (i == 31) + bit (m.setRan.getLsbD i)
  | .memEccCnt => cntReg m.eccCnt (2 * i + j)
  | .memUeLog => 2 ^ 63 * bit m.ueValid + 2 ^ 56 * m.ueSource.toNat + 16 * m.ueAddr.toNat
  | .flashStatus => flashStatusReg m.flash
  | .flashCnt => cntReg m.flash.cnt i
  | .thatchStatus => thatchReg s i
  | .thatchCnt => cntReg m.thatchCnt (8 * i + j)
  | .seqCtx => seqCtxReg s i
  | .seqCnt => cntReg m.seqs.cnt (8 * i + j)
  | _ => 0

/-- Registers of the links, the fabric and the collective units. -/
def fabricReg (s : State) (r : Reg) (i j : Nat) : Nat :=
  let f := s.fab
  match r with
  | .abrPortStatus => portStatusReg (s.port i)
  | .abrPortTrain => 2 ^ 16 * ((s.port i).hopDelay % 2 ^ 32) + (s.port i).bitsSum % 65536
  | .abrLane => laneReg (Tab.get Lane.reset (s.port i).lanes j)
  | .abrLaneCnt => cntReg f.laneCnt (16 * i + j)
  | .fabPeerEpoch => 2 ^ 16 * bit (s.peer i).lost + (s.peer i).epoch.toNat
  | .fabCnt => cntReg f.cnt i
  | .fabLedger => ledgerReg f
  | .fabVcWeight => if j = 0 then 0 else weightInForce s j % 65536
  | .collGroup => groupReg (s.group i)
  | .collCnt => cntReg f.collCnt (16 * i + j)
  | _ => 0

/-! ### Traffic, host, contexts and the rest -/

def qDepthReg (q : Queue) (now : Nat) : Nat := 2 ^ 32 * q.holDelay now + q.depth % 2 ^ 24
def qClassReg (c : QClass) : Nat := 2 ^ 32 * c.rate + 2 ^ 12 * c.burst + 2 * c.egress + bit c.en
def stippleReg (p : Stipple) : Nat := 2 ^ 37 * p.count + 2 ^ 24 * p.first + 2 ^ 8 * p.n + bit p.en
def linkReg (h : HostIf) : Nat :=
  2 ^ 11 * h.linkWidth + 2 ^ 8 * h.linkSpeed + 4 * bit h.linkDegraded + 2 * bit h.linkFlit + bit h.linkUp

/-- Registers of traffic, the host interface and the contexts. -/
def trafficReg (s : State) (r : Reg) (i j : Nat) : Nat :=
  match r with
  | .qState => qStateReg s i
  | .qDepth => qDepthReg (s.queue i) s.now
  | .qCnt => if j = 0 then (s.queue i).bytesSent.toNat else (s.queue i).entriesSent.toNat
  | .qClass => qClassReg (s.qclass i)
  | .stippleCtrl => stippleReg s.traf.stipple
  | .stippleWp => s.traf.stipple.wp
  | .stippleRp => s.traf.stipple.rp
  | .trafficCnt => cntReg s.traf.cnt i
  | .hifLink => linkReg s.host
  | .hifFn => hifFnReg (s.fn i)
  | .hifCnt => cntReg s.host.cnt i
  | .ctxState => ctxStateReg (s.ctx i)
  | .ctxCnt => cntReg (s.ctx i).cnt j
  | _ => 0

def dryStatusReg (d : Dry) : Nat := 2 ^ 16 * d.source.toNat + 2 ^ 8 * d.missed.toNat + 2 * bit d.held + bit d.waits
def recStatusReg (d : Det) : Nat :=
  8 * bit d.recUnit.diverged + 4 * bit d.recUnit.lossFlag + 2 * bit d.replay.isSome + bit d.recUnit.recording

/-- Registers of determinism, faults, power and coolant. -/
def diagReg (s : State) (r : Reg) (i j : Nat) : Nat :=
  match r with
  | .dryCtrl => s.det.dry.ctrl.toNat
  | .dryMatch => s.det.dry.matchAt.toNat
  | .dryStatus => dryStatusReg s.det.dry
  | .drySnapRidge => s.det.dry.snapRidge.toNat
  | .recStatus => recStatusReg s.det
  | .recWp => s.det.recUnit.wp.toNat
  | .recRp => s.det.recUnit.rp.toNat
  | .recCnt => cntReg s.det.recUnit.cnt i
  | .proofCnt => cntReg s.det.proofCnt (8 * i + j)
  | .leaseStatus => leaseStatusReg s.flt
  | .leaseExpiry => s.flt.expiry.toNat
  | .leaseCtrl => 2 ^ 16 * s.flt.renewMs.toNat + 2 * bit s.flt.keySet + bit s.flt.required
  | .fltHealth => healthReg s.flt i
  | .fltRev => 2 ^ 16 * s.flt.firmware.toNat + 2 ^ 8 * s.flt.wireOldest.toNat + wireRev
  | .fltCnt => cntReg s.flt.cnt i
  | .pwrVid => pwrVid
  | .thermStatus => thermStatus s.dev.pwr
  | .coolantStatus => coolantStatus s.dev.pwr
  | .govStatus => govStatus s.dev.pwr
  | .pwrRail => railReg s.dev.pwr i
  | .pwrCnt => cntReg s.dev.pwr.cnt i
  | _ => 0

/-- The block whose table defines a register. -/
def Reg.group (r : Reg) : Nat :=
  match r with
  | .coreThread | .coreCnt | .coreBexp | .seState | .seSatCnt | .seSingCnt | .coreCtx | .cbWay => 1
  | .bbCellState | .bbCellLoad | .bbPool | .fhPortStatus | .fhPortCnt | .fhStreamCnt | .timeStatus | .timeNow | .timeMeasAt
  | .timeMeasOfs | .timeMeasCtl | .txtsHead | .txtsRidge | .toutCtrl | .toutStart | .toutPeriod | .tinHead | .tinRidge | .tinCtrl
  | .timeCnt => 2
  | .memSetOwner | .memEccCnt | .memUeLog | .flashStatus | .flashCnt | .thatchStatus | .thatchCnt | .seqCtx | .seqCnt => 3
  | .abrPortStatus | .abrPortTrain | .abrLane | .abrLaneCnt | .fabPeerEpoch | .fabCnt | .fabLedger | .fabVcWeight | .collGroup
  | .collCnt => 4
  | .qState | .qDepth | .qCnt | .qClass | .stippleCtrl | .stippleWp | .stippleRp | .trafficCnt | .hifLink | .hifFn | .hifCnt
  | .ctxState | .ctxCnt => 5
  | .dryCtrl | .dryMatch | .dryStatus | .drySnapRidge | .recStatus | .recWp | .recRp | .recCnt | .proofCnt | .leaseStatus
  | .leaseExpiry | .leaseCtrl | .fltHealth | .fltRev | .fltCnt | .pwrVid | .thermStatus | .coolantStatus | .govStatus | .pwrRail
  | .pwrCnt => 6
  | _ => 0

/-- What a register of a function shows (its live value; nothing is removed by looking). Log 72 (DESIGN CHOICE). -/
def regValue (s : State) (f : Nat) (a : RegAt) : Nat :=
  match a.reg.group with
  | 0 => localReg s f a.reg a.i
  | 1 => coreReg s a.reg a.i a.j
  | 2 => radioReg s a.reg a.i a.j
  | 3 => memReg s a.reg a.i a.j
  | 4 => fabricReg s a.reg a.i a.j
  | 5 => trafficReg s a.reg a.i a.j
  | _ => diagReg s a.reg a.i a.j

/-! ### The shadow window (R483, R575) -/

/-- Table 17.7. -/
def Reg.inSnapshot (r : Reg) : Bool :=
  match r with
  | .coreThread | .coreCnt | .coreBexp | .coreCtx | .seState | .seSatCnt | .seSingCnt | .cbWay
  | .bbCellState | .bbCellLoad | .bbPool | .fhPortStatus | .fhPortCnt | .fhStreamCnt | .timeStatus | .timeNow | .timeCnt
  | .memSetOwner | .memEccCnt | .memUeLog | .flashStatus | .flashCnt | .thatchStatus | .thatchCnt | .seqCtx | .seqCnt
  | .abrPortStatus | .abrPortTrain | .abrLane | .abrLaneCnt | .abrEpoch | .fabPeerEpoch | .fabCnt | .collGroup | .collCnt
  | .qState | .qDepth | .qCnt | .trafficCnt | .hifLink | .hifFn | .hifCnt | .ctxState | .ctxCnt
  | .admTier | .recStatus | .recCnt | .proofCnt => true
  | _ => false

/-- The state with the copied parts in place of the live ones. -/
def Snap.over (p : Snap) (s : State) : State :=
  { s with clk := p.clk, mem := p.mem, host := p.host, traf := p.traf, time := p.time, plates := p.plates, flt := p.flt, fab := p.fab,
           rad := p.rad, core := p.core,
           dev := { s.dev with pwr := { s.dev.pwr with nextTier := p.nextTier } },
           det := { s.det with recUnit := p.recUnit, proofCnt := p.proofCnt,
                               replay := if p.replaying then some (s.det.replay.getD Replay.blank) else none } }

/-- What the shadow of a register shows: the value at the snapshot instant, 0 before the first and outside the set. Log 72 (DESIGN CHOICE). -/
def shadowValue (s : State) (a : RegAt) : Nat :=
  match s.det.dry.snap with
  | none => 0
  | some p => if a.reg.inSnapshot then (if a.reg = .timeNow then s.det.dry.snapRidge.toNat else regValue (p.over s) 0 a) else 0

/-- A host read of BAR0: the width and the value of the register at an offset, or of its shadow (R570 to R575). Log 71 (DEDUCED), 72 (DESIGN CHOICE). -/
def barValue (s : State) (f off : Nat) : Option (Nat × Nat) :=
  let shadow := decide (f = 0 ∧ 0x8000000 ≤ off)
  (regAt f (if shadow then off - 0x8000000 else off)).map fun a =>
    (if a.wide then 64 else 32, if shadow then shadowValue s a else regValue s f a)

end Sys2Proof.Machine
end

