-- ==== Sys2Proof/Machine/Registers.lean ====
section
/-!
DEFINITION. Host writes to registers (R8, R9, R571, R572): halves held and committed, access codes, and the MSI-X table (R570).
-/
namespace Sys2Proof.Machine
open Sys2Proof

/-- Part of a register's bits replaced: those of the mask (R8). -/
def putBits {w : Nat} (old v mask : BitVec w) : BitVec w := (old &&& ~~~ mask) ||| (v &&& mask)

/-- Whether a write sets bit i to 1 where it writes it: the action of a W1C bit (Table 0.4). -/
def clears (v mask : BitVec 64) (i : Nat) : Bool := v.getLsbD i && mask.getLsbD i

/-- Ring registers keep their base and size bits (R510). -/
def ringMask : BitVec 64 := 0xFFFFFFFFFFFFF00F

/-- A committed write of a function's own register (Table 22.3). -/
def writeLocal (f : Nat) (r : Reg) (v mask : BitVec 64) (s : State) : State :=
  let g := s.ring f
  match r with
  | .fnErr => s.setFn f { s.fn f with err := (s.fn f).err &&& ~~~ v.setWidth 5 }
  | .mbxCmdRing => s.setRing f { g with cmdRing := putBits g.cmdRing v (mask &&& ringMask) }
  | .mbxCplRing => s.setRing f { g with cplRing := putBits g.cplRing v (mask &&& ringMask) }
  | .mbxCtrl => writeMbxCtrl f (v.getLsbD 0) s
  | .mbxCmdPI => writeCmdPI f (v.setWidth 32) s
  | .mbxCplCI => writeCplCI f (v.setWidth 32) s
  | _ => s

/-- A committed write of a register of the time unit (R234, R241 to R243, `TIME_STATUS`). -/
def writeTime (r : Reg) (i : Nat) (v mask : BitVec 64) (s : State) : State :=
  let t := s.time
  match r with
  | .timeStatus =>
    let keep := fun (b : Bool) (k : Nat) => b && !v.getLsbD k
    let s1 := { s with time := { t with
      txtsOvf := t.txtsOvf &&& ~~~ (v >>> 16).setWidth 10,
      servo := { t.servo with phaseAlarm := keep t.servo.phaseAlarm 7, stepped := keep t.servo.stepped 6 } } }
    let s2 := s1.setTin 0 { s1.tin 0 with ovf := keep (s1.tin 0).ovf 10 }
    s2.setTin 1 { s2.tin 1 with ovf := keep (s2.tin 1).ovf 11 }
  | .timeMeasAt => { s with time := { t with measAt := putBits t.measAt v mask } }
  | .timeMeasOfs => { s with time := { t with measOfs := putBits t.measOfs v mask } }
  | .toutCtrl =>
    let o := s.tout i
    if mask.getLsbD 0 then s.setTout i (toutWrite s.now o v.toNat)
    else s.setTout i { o with width := BitVec.ofNat 32 (v.toNat / 2 ^ 32) }
  | .toutStart => s.setTout i { s.tout i with start := putBits (s.tout i).start v mask }
  | .toutPeriod =>
    s.setTout i { s.tout i with period := putBits (s.tout i).period (v.setWidth 40) (mask.setWidth 40) }
  | .tinCtrl => s.setTin i { s.tin i with edges := v.setWidth 2 }
  | _ => s

/-- A committed write of a register of the drypoint or the record unit (R482 to R486). Log 47 (DESIGN CHOICE). -/
def writeDiag (r : Reg) (v mask : BitVec 64) (s : State) : State :=
  let d := s.det.dry
  match r with
  | .dryCtrl =>
    if mask.getLsbD 0 then setDry v d.matchAt s else updDry (fun d => { d with ctrl := putBits d.ctrl v mask }) s
  | .dryMatch => setDry d.ctrl (putBits d.matchAt v mask) s
  | .recStatus =>
    updRec (fun x => { x with diverged := x.diverged && !v.getLsbD 3, lossFlag := x.lossFlag && !v.getLsbD 2 }) s
  | .recRp => updRec (fun x => { x with rp := putBits x.rp (v.setWidth 36) (mask.setWidth 36) }) s
  | _ => s

/-- A committed write of any other register that the host may write. -/
def writeOther (r : Reg) (i : Nat) (v mask : BitVec 64) (s : State) : State :=
  match r with
  | .memUeLog =>
    if clears v mask 63 then { s with mem := { s.mem with ueValid := false, ueSource := 0, ueAddr := 0 } } else s
  | .abrPortStatus =>
    updPort i (fun p => { p with degraded := p.degraded &&& ~~~ (v >>> 16).setWidth 8 }) s
  | .stippleRp => { s with traf := { s.traf with stipple := s.traf.stipple.readTo (v.toNat % 2 ^ 30) } }
  | _ => s

/-- The register's bits of the mask take the value of a write; a register that no code writes ignores it (R572). Log 71 (DEDUCED). -/
def writeReg (f : Nat) (a : RegAt) (v mask : BitVec 64) (s : State) : Host.Outcome State Fault Refusal :=
  match a.reg with
  | .timeMeasCtl => if v.getLsbD 8 then execMeasCommit (v.setWidth 8) s else .next s
  | .dryStatus => if v.getLsbD 1 then execDryHeldRelease s else .next s
  | r =>
    match r.group with
    | 0 => .next (writeLocal f r v mask s)
    | 2 => .next (writeTime r a.i v mask s)
    | 6 => .next (writeDiag r v mask s)
    | _ => .next (writeOther r a.i v mask s)

/-- The held low half of a function's 64-bit register (R8). Log 69 (DEDUCED), 71 (DEDUCED). -/
def heldLow (s : State) (key : Nat) : Option (BitVec 32) := Tab.get none s.host.lowHeld key

/-- Holds or forgets a low half. -/
def setHeldLow (key : Nat) (v : Option (BitVec 32)) (s : State) : State :=
  { s with host := { s.host with lowHeld := Tab.set none s.host.lowHeld key v } }

/-- The bits of the high half of a register. -/
def highMask : BitVec 64 := 0xFFFFFFFF00000000

/-- A write of BAR0 (R8, R9, R572): by width and alignment, to a register, to half of one, or to no register. A shadow ignores
it. Log 71 (DEDUCED). -/
def writeBar0 (f off : Nat) (wide : Bool) (v : BitVec 64) (s : State) : Host.Outcome State Fault Refusal :=
  if off % (if wide then 8 else 4) ≠ 0 then .next (hifCount 0 s)
  else
    let shadow := decide (f = 0 ∧ 0x8000000 ≤ off)
    let x := if shadow then off - 0x8000000 else off
    let key := 2 ^ 28 * f + x
    match regAt f x with
    | some a =>
      if shadow then (if wide ∧ ¬ a.wide then .next (hifCount 0 s) else .next s)
      else if wide then (if a.wide then writeReg f a v (~~~ 0) (setHeldLow key none s) else .next (hifCount 0 s))
      else if a.wide then .next (setHeldLow key (some (v.setWidth 32)) s)
      else writeReg f a ((v.setWidth 32).setWidth 64) (~~~ 0) s
    | none =>
      let hi : Option RegAt := if 4 ≤ x then (regAt f (x - 4)).filter fun a => a.wide && !wide else none
      match hi with
      | none => .next (hifCount 0 s)
      | some a =>
        if shadow then .next s
        else
          let top := (v.setWidth 32).setWidth 64 <<< 32
          match heldLow s (key - 4) with
          | some lo => writeReg f a (top ||| lo.setWidth 64) (~~~ 0) (setHeldLow (key - 4) none s)
          | none => writeReg f a top highMask s

/-- Word k of an MSI-X table entry written (R435): a pending vector that is unmasked sends its message. Log 71 (DEDUCED). -/
def writeMsix (f vec k : Nat) (v : BitVec 32) (s : State) : State :=
  let e := s.vec f vec
  match k with
  | 0 => s.setVec f vec { e with addr := putBits e.addr (v.setWidth 64) 0xFFFFFFFC }
  | 1 => s.setVec f vec { e with addr := putBits e.addr (v.setWidth 64 <<< 32) highMask }
  | 2 => s.setVec f vec { e with data := v }
  | _ =>
    let masked := v.getLsbD 0
    let s1 := s.setVec f vec { e with masked := masked, pending := e.pending && masked }
    if e.pending ∧ ¬ masked then sendMessage (.msix f vec e.addr.toNat e.data.toNat) s1 else s1

/-- A write of BAR4 (R570): entries beyond VECTORS and the PBA ignore writes. Log 71 (DEDUCED). -/
def writeBar4 (f off : Nat) (wide : Bool) (v : BitVec 64) (s : State) : State :=
  if off % (if wide then 8 else 4) ≠ 0 then hifCount 0 s
  else if 0x8000 ≤ off ∨ (s.fn f).vectors ≤ off / 16 then s
  else
    let s1 := writeMsix f (off / 16) (off % 16 / 4) (v.setWidth 32) s
    if wide then writeMsix f (off / 16) (off % 16 / 4 + 1) ((v >>> 32).setWidth 32) s1 else s1

/-- REGISTER_WRITE (R8): a host write through a BAR of a function. -/
def execRegisterWrite (w : RegWrite) (s : State) : Host.Outcome State Fault Refusal :=
  let f := w.fn.toNat
  let off := w.off.toNat
  match (s.fn f).state with
  | 0 => .next (emit (.unsupported f) s)
  | 2 => .next s
  | _ =>
    match w.bar with
    | .bar0 => writeBar0 f off w.wide w.data s
    | .bar2 =>
      if off % 4 ≠ 0 ∨ w.wide then .next (hifCount 0 s)
      else if off % 4096 ≠ 0 ∨ 8192 ≤ off / 4096 then .next (hifCount 0 s)
      else execQDoorbell w.fn (BitVec.ofNat 13 (off / 4096)) (w.data.setWidth 32) s
    | .bar4 => .next (writeBar4 f off w.wide w.data s)

/-! ### Reads (R8, R9, R572, R576) -/

/-- What a read of a register removes: the RC fields of the two head registers (Table 0.4, R233, R243). -/
def takeRead (a : RegAt) (s : State) : State :=
  match a.reg with
  | .txtsHead =>
    match Tab.get [] s.time.txts a.i with
    | [] => s
    | e :: r => { s with time := { s.time with txts := Tab.set [] s.time.txts a.i r, txtsRidge := Tab.set 0 s.time.txtsRidge a.i e.ridge } }
  | .tinHead =>
    match (s.tin a.i).fifo with
    | [] => s
    | e :: r => s.setTin a.i { s.tin a.i with fifo := r, last := e.ridge }
  | _ => s

/-- Latches the high half of a 64-bit register for the function that read its low half (R8). -/
def latchHigh (key v : Nat) (s : State) : State :=
  { s with host := { s.host with highLatch := Tab.set 0 s.host.highLatch key (BitVec.ofNat 32 (v / 2 ^ 32)) } }

/-- A host read of BAR0 (R8, R9, R437, R572, R576): the value returned, none where no function claims the request, and the state
after it. A low half latches the high half, of a shadow too; a high half returns the latch as it stands. Log 71 (DEDUCED). -/
def barRead (f off : Nat) (wide : Bool) (s : State) : Option Nat × State :=
  match (s.fn f).state with
  | 0 => (none, s)
  | 2 => (some 0, s)
  | _ =>
    if off % (if wide then 8 else 4) ≠ 0 then (some 0xFFFFFFFF, hifCount 0 s)
    else
      let shadow := decide (f = 0 ∧ 0x8000000 ≤ off)
      let x := if shadow then off - 0x8000000 else off
      match regAt f x with
      | some a =>
        if wide ∧ ¬ a.wide then (some 0xFFFFFFFF, hifCount 0 s)
        else
          let v := if shadow then shadowValue s a else regValue s f a
          let s1 := if shadow then s else takeRead a s
          if wide ∨ ¬ a.wide then (some v, s1) else (some (v % 2 ^ 32), latchHigh (2 ^ 28 * f + off) v s1)
      | none =>
        if ¬ wide ∧ 4 ≤ x ∧ ((regAt f (x - 4)).any RegAt.wide) then (some (Tab.get 0 s.host.highLatch (2 ^ 28 * f + off - 4)).toNat, s)
        else (some 0, hifCount 0 s)

/-- A function's identity in configuration space (R569, Table 22.1). -/
structure ConfigIdentity where
  vendor : BitVec 16
  device : BitVec 16
  revision : BitVec 8
  classCode : BitVec 24
  subVendor : BitVec 16
  subsystem : BitVec 16
deriving DecidableEq, Repr

/-- The identity of the PF and of a VF (R569). -/
def configIdentity (f : Nat) : ConfigIdentity :=
  { vendor := 0x1E8A, device := if f = 0 then 0x0960 else 0x0961, revision := 0xB1, classCode := 0x120000, subVendor := 0x1E8A,
    subsystem := 0x0001 }

end Sys2Proof.Machine
end

