-- ==== Sys2Proof/Machine/RunCommand.lean ====
section
/-!
DEFINITION. Commands that the device itself runs: the COMMAND records of the configuration image (R558) and the records of a
replay (R479).
-/
namespace Sys2Proof.Machine
open Sys2Proof

/-- The meaning of a mailbox command: the ONFI geometries that the flash chips answer with come from outside (R279). -/
abbrev Meaning := List FlashGeom → Mbx → State → Host.Outcome State Fault Refusal

/-- A command that asks the flash chips nothing. -/
def plain (f : Mbx → State → Host.Outcome State Fault Refusal) : Meaning := fun _ => f

/-- `ABR_MEASURE` with readings that nothing states. Log 29 (DEDUCED), 58 (DESIGN CHOICE). -/
def runMeasure (m : Mbx) (s : State) : Host.Outcome State Fault Refusal :=
  execAbrMeasure m ((List.range 8).map fun i => (Config.freeValue (s.free + i)).truncate 48) { s with free := s.free + 8 }

/-- Commands by opcode (Tables 19.5 to 19.16), part 1. -/
def commandTable1 : List (Nat × Meaning) :=
  [(0x0101, plain execDevQuery), (0x0102, plain execDevCfgQuery), (0x0103, plain execDevReset), (0x0104, plain execComputeReset),
   (0x0105, plain execFwStage), (0x0106, plain execCfgWrite), (0x0201, plain execPlateLoad), (0x0202, plain execPlateAdmit),
   (0x0203, plain execPlateStart), (0x0204, plain execPlateSwap), (0x0205, plain execPlateRetire), (0x0206, plain execPlateQuery),
   (0x0301, plain execMemQuotaSet), (0x0302, plain execMemAlloc), (0x0303, plain execMemFree), (0x0304, plain execTierRegionCreate),
   (0x0305, plain execTierRegionDestroy), (0x0306, plain execTierPoolSet), (0x0307, plain execTierJob), (0x0308, plain execMemRemoteAttach),
   (0x0309, plain execMemLend), (0x030A, fun g m => execFlashFormat m g), (0x030B, plain execMemQuery), (0x030C, plain execTierRegionAdopt),
   (0x030D, plain execTierCommit), (0x030E, plain execTierDiscard), (0x0310, plain execWeightInstall), (0x0311, plain execWeightQuery),
   (0x0312, plain execWeightRepair), (0x0313, plain execWeightRemove)]

/-- Commands by opcode (Tables 19.5 to 19.16), part 2. -/
def commandTable2 : List (Nat × Meaning) :=
  [(0x0318, plain execSeqQueueConfig), (0x0319, plain execSeqSubmit), (0x031A, plain execSeqRelease), (0x031B, plain execSeqPause),
   (0x031C, plain execSeqResume), (0x031D, plain execSeqQuery), (0x031E, plain execSeqAllot), (0x0401, plain execFabWindowSet),
   (0x0402, plain execFabWindowClear), (0x0403, plain execFabInwinSet), (0x0404, plain execFabRouteSet), (0x0405, plain execFabLedgerSet),
   (0x0406, plain execFabIdSet), (0x0407, plain execFabVcDefault), (0x0408, plain execFabConfig), (0x0409, plain execFabQuery),
   (0x0420, plain execAbrTrain), (0x0421, plain execAbrContinue), (0x0422, plain execAbrGainSet), (0x0423, plain runMeasure),
   (0x0424, plain execAbrDown), (0x0425, plain execAbrQuery), (0x0501, plain execCollGroupCreate), (0x0502, plain execCollGroupDestroy),
   (0x0503, plain execCollGroupQuery), (0x0504, plain execCollGroupRebind), (0x0505, plain execCollJob), (0x0601, plain execCellConfig),
   (0x0602, plain execCellStart), (0x0603, plain execCellStop)]

/-- Commands by opcode (Tables 19.5 to 19.16), part 3. -/
def commandTable3 : List (Nat × Meaning) :=
  [(0x0604, plain execCellShadow), (0x0605, plain execCellTakeover), (0x0606, plain execCellQuery), (0x0610, plain execFhPortConfig),
   (0x0611, plain execFhStreamConfig), (0x0612, plain execFhCellTiming), (0x0613, plain execFhMirror), (0x0614, plain execFhQuery),
   (0x0701, plain execTimePortConfig), (0x0702, plain execTimeServoConfig), (0x0703, plain execTimeRearm), (0x0704, plain execTimeSynce),
   (0x0705, plain execTimeQuery), (0x0801, plain execQBind), (0x0802, plain execQUnbind), (0x0803, plain execQShaperSet),
   (0x0804, plain execQClassSet), (0x0805, plain execPolicerSet), (0x0806, plain execStippleConfig), (0x0807, plain execQQuery),
   (0x0808, plain execQRingSet), (0x0901, plain execFnConfig), (0x0902, plain execFnShareSet), (0x0903, plain execFnQuery),
   (0x0904, plain execFnReset), (0x0905, plain execCtxSaveSet), (0x0906, plain execCtxPreempt), (0x0907, plain execCtxResume),
   (0x0908, plain execCtxQuery), (0x0A01, plain execCtxSeedSet)]

/-- Commands by opcode (Tables 19.5 to 19.16), part 4. -/
def commandTable4 : List (Nat × Meaning) :=
  [(0x0A02, plain execSeedRegen), (0x0A03, plain execRecConfig), (0x0A04, plain execRecStart), (0x0A05, plain execRecStop),
   (0x0A06, plain execReplayStart), (0x0A07, plain execReplayStop), (0x0A08, plain execDryArm), (0x0A09, plain execDryFire),
   (0x0B01, plain execCoolantConfig), (0x0B02, plain execGovConfig), (0x0B03, plain execPowerQuery), (0x0B04, plain execTripConfig),
   (0x0C01, plain execLeaseConfig), (0x0C02, plain execLeaseKeySet), (0x0C03, plain execLeaseRelease), (0x0C04, plain execFaultPeerSet),
   (0x0C05, plain execHealthConfig), (0x0C06, plain execTakeoverArm), (0x0C07, plain execWireCompat), (0x0C08, plain execFaultQuery)]

/-- The meaning of an opcode, if a table lists it. -/
def commandOf (opcode : Nat) : Option Meaning :=
  ((commandTable1 ++ commandTable2 ++ commandTable3 ++ commandTable4).find? (·.1 == opcode)).map Prod.snd

/-- The slot of a command that the device runs itself. -/
abbrev silentSlot : Nat := 0xFFFFFFFF

/-- The commands in flight on an input. -/
def inflightOn (input : Nat) (s : State) : List Inflight := if input < 256 then (s.ring input).inflight else s.mbx.mgmtInflight

/-- Whether the command that the device runs itself on an input is still in flight. -/
def silentRuns (input : Nat) (s : State) : Bool := (inflightOn input s).any fun i => i.silent && i.slot == silentSlot

/-- Puts a silent command in flight. -/
def beginSilent (input : Nat) (d : BitVec 512) (s : State) : State :=
  let i : Inflight := { slot := silentSlot, intr := false, resAddr := 0, resLen := 0, since := s.now, silent := true,
                        opcode := dfld d 0 2 }
  if input < 256 then s.setRing input { s.ring input with inflight := (s.ring input).inflight ++ [i] }
  else { s with mbx := { s.mbx with mgmtInflight := s.mbx.mgmtInflight ++ [i] } }

/-- Runs a command without a completion: its meaning acts, and its status is kept (R479, R558). Log 49 (DESIGN CHOICE). -/
def runSilent (geoms : List FlashGeom) (input : Nat) (d : BitVec 512) (data : List Byte) (s : State) : State :=
  let m : Mbx := { input := BitVec.ofNat 9 input, slot := BitVec.ofNat 32 silentSlot, desc := d, data := .ok data [] }
  let s1 := beginSilent input d s
  match commandOf (dfld d 0 2) with
  | none => completeSlot input silentSlot stBadOpcode Result.none s1
  | some f =>
    match f geoms m s1 with
    | .next s2 => s2
    | _ => s1

/-! ### The COMMAND records (R558, R559) -/

/-- A COMMAND record failed: no further one is applied. -/
def failConfig (index status : Nat) (s : State) : State :=
  resetCount 4 (updDev (fun d => { d with
    cfgCmdFail := true, failStatus := status, failRecord := index, image := { d.image with commands := [], applying := none } }) s)

/-- Applies one COMMAND record: those of the device group that reset or write, and FN_RESET, end with ST_BAD_PARAM. -/
def applyRecord (geoms : List FlashGeom) (index : Nat) (d : BitVec 512) (data : List Byte) (s : State) : State :=
  let s1 := updDev (fun v => { v with image := { v.image with commands := v.image.commands.drop 1, applying := some index } }) s
  let op := dfld d 0 2
  if (0x0103 ≤ op ∧ op ≤ 0x0106) ∨ op = 0x0904 then { s1 with mbx := { s1.mbx with silentStatus := stBadParam } }
  else
    let bytes := match dataSpan d with
      | some (a, n) => (data.drop a).take n
      | none => []
    runSilent geoms 256 d bytes s1

/-- Takes the status of a COMMAND record that has completed. -/
def settleRecord (s : State) : State :=
  match s.dev.image.applying with
  | none => s
  | some i =>
    if silentRuns 256 s then s
    else if s.mbx.silentStatus ≠ stOk then failConfig i s.mbx.silentStatus s
    else updDev (fun v => { v with image := { v.image with applying := none } }) s

/-- Applies COMMAND records in image order, one at a time, up to one that waits; after the last the host rings open. -/
def applyRecords (geoms : List FlashGeom) : Nat → State → State
  | 0, s => s
  | k + 1, s =>
    let s1 := settleRecord s
    if s1.dev.image.applying.isSome then s1
    else
      match s1.dev.image.commands with
      | [] => updDev (fun v => { v with hostReady := true }) s1
      | c :: _ => applyRecords geoms k (applyRecord geoms c.1 c.2.1 c.2.2 s1)

/-- HBM_READY (R558, R559): HBM bring-up is complete and the COMMAND records are applied; when one of them waits, the row runs again
once it has completed. `geoms` answers a flash format among them. -/
def execHbmReady (geoms : List FlashGeom) (s : State) : Host.Outcome State Fault Refusal :=
  if s.dev.por ∨ s.dev.released.isNone ∨ ¬ s.dev.cfgDone ∨ s.dev.hostReady then .next s
  else
    let s1 := updDev (fun d => { d with hbmReady := true, afterReset := none }) s
    let s2 := match s.dev.afterReset with
      | some w => completeSlot w.1 w.2 stOk Result.none s1
      | none => s1
    .next (applyRecords geoms (s2.dev.image.commands.length + 2) s2)

/-! ### Replay (R479 to R481) -/

/-- A record's header taken apart (Table 17.5). -/
structure RecHeader where
  type : Nat
  poison : Bool
  len : Nat
  source : Nat
  ctx : Nat
  stamp : Nat
  addr : Nat
  aux : Nat
deriving DecidableEq, Repr

/-- Reads a record's header. -/
def readRecHeader (b : List Byte) : RecHeader :=
  { type := fld b 0 1, poison := bitAt (fld b 1 1) 0, len := fld b 2 2, source := fld b 4 2, ctx := fld b 6 2, stamp := fld b 8 8,
    addr := fld b 16 8, aux := fld b 28 4 }

/-- The poisoned 16-byte words of a payload in its ring. -/
def payloadPoison (s : State) (r : Replay) (pos len : Nat) : List Nat :=
  (List.range (ceilDiv len 16)).filter fun i => s.mem.mem.poisonAt (r.base + (pos + 32 + 16 * i) % r.size) 16

/-- One record has been injected (`REC_CNT` 3). -/
def injected (s : State) : State :=
  updDet (fun d => { d with replay := d.replay.map fun r => { r with injected := satNat 64 r.injected 1 } })
    (updRec (fun r => { r with cnt := bump r.cnt 3 }) s)

/-- The words of a response that brings bytes to an offset, the poisoned words among them poisoned. -/
def responseWords (off : Nat) (bs : List Byte) (poison : List Nat) : List (BitVec 144) :=
  (chunks 16 (List.replicate (off % 16) 0 ++ bs)).mapIdx fun i w => sendWord (BitVec.ofNat 128 (ofLE w)) (poison.contains (i + 1))

/-- Injects a fabric response (R479, R481): the request of its number must wait, with its address and length. -/
def injectResponse (h : RecHeader) (payload : List Byte) (poison : List Nat) (s : State) : State :=
  let mine := fun (e : Nat × Option Track) => match e.2 with
    | some t => t.unsent && t.owner == h.ctx && t.num == h.aux
    | none => false
  let st := bitsAt (fld payload 0 8) 24 16
  let data := payload.drop 8
  match s.fab.tracks.find? mine with
  | some (tag, some t) =>
    let ldx : Bool := match t.req with
      | .me th id _ => isLdx s th id
      | _ => false
    let n := if t.op = 3 then 4 * 2 ^ t.size else t.len
    if data = [] ∨ (ldx ∧ h.addr = 0 ∧ data.length = 8) ∨ (h.addr = t.loc ∧ data.length = n) then
      injected (completeTrack tag t st (responseWords (if t.op = 3 then 0 else t.offset) data poison) s)
    else diverge 1 s
  | _ => diverge 1 s

/-- Injects a section as a frame that arrives at an instant, or a mirror record on a shadow (R479). -/
def injectSection (h : RecHeader) (arrival : Nat) (payload : List Byte) (s : State) : State :=
  let x := s.stream h.source
  if x.record = [] then s
  else
    let c := s.cell x.cell
    if c.role = 2 ∧ cellStateFor c (fld payload 16 8 * c.slotTicks) = 3 then injected (takeMirror payload s)
    else
      let len := payload.length + if x.vlan = 0 then 18 else 22
      injected (ingress false x.port x.vid x.mac len arrival payload payload s)

/-- Injects one record if the replay takes it. Log 49 (DESIGN CHOICE). -/
def injectRecord (geoms : List FlashGeom) (r : Replay) (h : RecHeader) (payload : List Byte) (poison : List Nat) (s : State) : State :=
  let mine := r.ctx = some h.ctx
  match h.type with
  | 1 => if r.streams then injectSection h (h.stamp + r.shift) payload s else s
  | 2 =>
    if mine ∧ h.ctx < 256 then injected (runSilent geoms h.ctx (BitVec.ofNat 512 (ofLE (payload.take 64))) (payload.drop 64) s) else s
  | 3 | 5 =>
    if mine then
      injected (poison.foldl (fun s i => memPoison (h.addr + 16 * i) (min 16 (payload.length - 16 * i)) s) (memWrite h.addr payload s))
    else s
  | 4 => if mine then injectResponse h payload poison s else s
  | _ => s

/-- REPLAY_INJECT (R479 to R481): the next record of the ring is due at RIDGE + SHIFT; one that is past is injected at once and counted
as late. After the stop marker the replay ends, and a request still unanswered counts as a divergence. -/
def execReplayInject (geoms : List FlashGeom) (s : State) : Host.Outcome State Fault Refusal :=
  match s.det.replay with
  | none => .next s
  | some r =>
    let hb := ringBytes s r.base r.size r.pos 48
    let h := readRecHeader hb
    let due := h.stamp + r.shift
    if h.type = 0 ∨ 8 < h.type ∨ r.size ≤ r.pos then .next (endReplay s)
    else if s.now < due then .next s
    else if isStop h.type (fld hb 46 1) then .next (endReplay (diverge (unanswered s) s))
    else
      let payload := ringBytes s r.base r.size (r.pos + 32) h.len
      let bad := payloadPoison s r r.pos h.len
      let s1 := updDet (fun d => { d with replay := some { r with pos := r.pos + 32 + alignUp h.len 32 } }) s
      let s2 := if due < s.now ∧ h.type ≤ 5 then updRec (fun x => { x with cnt := bump x.cnt 4 }) s1 else s1
      .next (injectRecord geoms r h payload bad s2)

end Sys2Proof.Machine
end

