-- ==== Sys2Proof/Machine/Dispatch.lean ====
section
/-!
DEFINITION. The dispatch of every command to its meaning, one arm per constructor.
-/
namespace Sys2Proof.Machine
open Sys2Proof

/-- The effect of a command on everything but the queue. -/
def exec (i : Instr) (s : State) : Host.Outcome State Fault Refusal :=
  match i with
  | .registerWrite w => Sys2Proof.Machine.execRegisterWrite w s
  | .badWidthAccess fn read => Sys2Proof.Machine.execBadWidthAccess fn read s
  | .unmappedBarAccess fn read bits => Sys2Proof.Machine.execUnmappedBarAccess fn read bits s
  | .epochBoundary => Sys2Proof.Machine.execEpochBoundary s
  | .governorPlan => Sys2Proof.Machine.execGovernorPlan s
  | .windowStart handle window => Sys2Proof.Machine.execWindowStart handle window s
  | .windowEnd handle window => Sys2Proof.Machine.execWindowEnd handle window s
  | .partitionClearDone kind index => Sys2Proof.Machine.execPartitionClearDone kind index s
  | .plateLoad m => Sys2Proof.Machine.execPlateLoad m s
  | .plateAdmit m => Sys2Proof.Machine.execPlateAdmit m s
  | .plateStart m => Sys2Proof.Machine.execPlateStart m s
  | .plateSwap m => Sys2Proof.Machine.execPlateSwap m s
  | .plateRetire m => Sys2Proof.Machine.execPlateRetire m s
  | .plateQuery m => Sys2Proof.Machine.execPlateQuery m s
  | .plateCommandEnd handle window => Sys2Proof.Machine.execPlateCommandEnd handle window s
  | .impressionComplete handle cell impression => Sys2Proof.Machine.execImpressionComplete handle cell impression s
  | .manifestRetire ctx q => Sys2Proof.Machine.execManifestRetire ctx q s
  | .thNop t word => Sys2Proof.Machine.execThNop t word s
  | .thAdd t d a b imm => Sys2Proof.Machine.execThAdd t d a b imm s
  | .thSub t d a b imm => Sys2Proof.Machine.execThSub t d a b imm s
  | .thAnd t d a b imm => Sys2Proof.Machine.execThAnd t d a b imm s
  | .thOr t d a b imm => Sys2Proof.Machine.execThOr t d a b imm s
  | .thXor t d a b imm => Sys2Proof.Machine.execThXor t d a b imm s
  | .thShl t d a b imm => Sys2Proof.Machine.execThShl t d a b imm s
  | .thShr t d a b imm => Sys2Proof.Machine.execThShr t d a b imm s
  | .thSar t d a b imm => Sys2Proof.Machine.execThSar t d a b imm s
  | .thMul t d a b imm => Sys2Proof.Machine.execThMul t d a b imm s
  | .thMin t d a b imm => Sys2Proof.Machine.execThMin t d a b imm s
  | .thMax t d a b imm => Sys2Proof.Machine.execThMax t d a b imm s
  | .thLi t d a b imm => Sys2Proof.Machine.execThLi t d a b imm s
  | .thLih t d a b imm => Sys2Proof.Machine.execThLih t d a b imm s
  | .thLd t d a b imm => Sys2Proof.Machine.execThLd t d a b imm s
  | .thSt t d a b imm => Sys2Proof.Machine.execThSt t d a b imm s
  | .thLdx t d a b imm => Sys2Proof.Machine.execThLdx t d a b imm s
  | .thStx t d a b imm => Sys2Proof.Machine.execThStx t d a b imm s
  | .thBeq t d a b imm => Sys2Proof.Machine.execThBeq t d a b imm s
  | .thBne t d a b imm => Sys2Proof.Machine.execThBne t d a b imm s
  | .thBlt t d a b imm => Sys2Proof.Machine.execThBlt t d a b imm s
  | .thBge t d a b imm => Sys2Proof.Machine.execThBge t d a b imm s
  | .thJmp t d a b imm => Sys2Proof.Machine.execThJmp t d a b imm s
  | .thCmd t d a b imm => Sys2Proof.Machine.execThCmd t d a b imm s
  | .thWaitc t d a b imm => Sys2Proof.Machine.execThWaitc t d a b imm s
  | .thSetc t d a b imm => Sys2Proof.Machine.execThSetc t d a b imm s
  | .thRdc t d a b imm => Sys2Proof.Machine.execThRdc t d a b imm s
  | .thBar t d a b imm => Sys2Proof.Machine.execThBar t d a b imm s
  | .thWaitr t d a b imm => Sys2Proof.Machine.execThWaitr t d a b imm s
  | .ridgeWaitResume t => Sys2Proof.Machine.execRidgeWaitResume t s
  | .thRdr t d a b imm => Sys2Proof.Machine.execThRdr t d a b imm s
  | .thRdimp t d a b imm => Sys2Proof.Machine.execThRdimp t d a b imm s
  | .thFence t d a b imm => Sys2Proof.Machine.execThFence t d a b imm s
  | .thEnd t d a b imm => Sys2Proof.Machine.execThEnd t d a b imm s
  | .tensorCommand core engine => Sys2Proof.Machine.execTensorCommand core engine s
  | .engineCommandRetire core engine => Sys2Proof.Machine.execEngineCommandRetire core engine s
  | .seCmul core => Sys2Proof.Machine.execSeCmul core s
  | .seCadd core => Sys2Proof.Machine.execSeCadd core s
  | .seCmac core => Sys2Proof.Machine.execSeCmac core s
  | .sePower core => Sys2Proof.Machine.execSePower core s
  | .seRad2 core => Sys2Proof.Machine.execSeRad2 core s
  | .seRad4 core => Sys2Proof.Machine.execSeRad4 core s
  | .seMmsew core => Sys2Proof.Machine.execSeMmsew core s
  | .seDemap core => Sys2Proof.Machine.execSeDemap core s
  | .seScan core => Sys2Proof.Machine.execSeScan core s
  | .bxopSet core => Sys2Proof.Machine.execSeBxopSet core s
  | .bxopWriteOut core => Sys2Proof.Machine.execSeBxopWriteOut core s
  | .meMove t => Sys2Proof.Machine.execMeMove t s
  | .meGather t => Sys2Proof.Machine.execMeGather t s
  | .meScatter t => Sys2Proof.Machine.execMeScatter t s
  | .meTranspose t => Sys2Proof.Machine.execMeTranspose t s
  | .meConvert t => Sys2Proof.Machine.execMeConvert t s
  | .hashOneshot t => Sys2Proof.Machine.execHashOneshot t s
  | .hashAppend t => Sys2Proof.Machine.execHashAppend t s
  | .hashFinal t => Sys2Proof.Machine.execHashFinal t s
  | .meWb t => Sys2Proof.Machine.execMeWb t s
  | .meFload t => Sys2Proof.Machine.execMeFload t s
  | .meFstore t => Sys2Proof.Machine.execMeFstore t s
  | .mePut t => Sys2Proof.Machine.execMePut t s
  | .meGet t => Sys2Proof.Machine.execMeGet t s
  | .meAtomic t => Sys2Proof.Machine.execMeAtomic t s
  | .meRequestIssue core => Sys2Proof.Machine.execMeRequestIssue core s
  | .meDescriptorRetire t => Sys2Proof.Machine.execMeDescriptorRetire t s
  | .cellConfig m => Sys2Proof.Machine.execCellConfig m s
  | .cellStart m => Sys2Proof.Machine.execCellStart m s
  | .cellStop m => Sys2Proof.Machine.execCellStop m s
  | .cellShadow m => Sys2Proof.Machine.execCellShadow m s
  | .cellTakeover m => Sys2Proof.Machine.execCellTakeover m s
  | .cellQuery m => Sys2Proof.Machine.execCellQuery m s
  | .cellStateChange cell => Sys2Proof.Machine.execCellStateChange cell s
  | .ldpcDecodeJob => Sys2Proof.Machine.execLdpcDecodeJob s
  | .codeBlockDecoded decoder => Sys2Proof.Machine.execCodeBlockDecoded decoder s
  | .ldpcEncodeJob => Sys2Proof.Machine.execLdpcEncodeJob s
  | .sideJob => Sys2Proof.Machine.execSideJob s
  | .polarJob => Sys2Proof.Machine.execPolarJob s
  | .prachJob => Sys2Proof.Machine.execPrachJob s
  | .fixedFunctionJobDone pool unit => Sys2Proof.Machine.execFixedFunctionJobDone pool unit s
  | .fhPortConfig m => Sys2Proof.Machine.execFhPortConfig m s
  | .fhStreamConfig m => Sys2Proof.Machine.execFhStreamConfig m s
  | .fhCellTiming m => Sys2Proof.Machine.execFhCellTiming m s
  | .fhMirror m => Sys2Proof.Machine.execFhMirror m s
  | .fhQuery m => Sys2Proof.Machine.execFhQuery m s
  | .fhFrameRx port raw fcsOk frame => Sys2Proof.Machine.execFhFrameRx port raw fcsOk frame s
  | .fhEgressJob port => Sys2Proof.Machine.execFhEgressJob port s
  | .fhTxFrameBoundary port raw => Sys2Proof.Machine.execFhTxFrameBoundary port raw s
  | .symbolWindowOpen stream air => Sys2Proof.Machine.execSymbolWindowOpen stream air s
  | .symbolClose stream air => Sys2Proof.Machine.execSymbolClose stream air s
  | .mirrorRecordRx source bytes => Sys2Proof.Machine.execMirrorRecordRx source bytes s
  | .mirrorDeadline cell impression => Sys2Proof.Machine.execMirrorDeadline cell impression s
  | .fhBlockLockLoss port fec => Sys2Proof.Machine.execFhBlockLockLoss port fec s
  | .fhBlockLockRegain port => Sys2Proof.Machine.execFhBlockLockRegain port s
  | .timePortConfig m => Sys2Proof.Machine.execTimePortConfig m s
  | .timeServoConfig m => Sys2Proof.Machine.execTimeServoConfig m s
  | .timeRearm m => Sys2Proof.Machine.execTimeRearm m s
  | .timeSynce m => Sys2Proof.Machine.execTimeSynce m s
  | .timeQuery m => Sys2Proof.Machine.execTimeQuery m s
  | .txtsHeadRead port wide => Sys2Proof.Machine.execTxtsHeadRead port wide s
  | .tinHeadRead n wide => Sys2Proof.Machine.execTinHeadRead n wide s
  | .measCommit frac => Sys2Proof.Machine.execMeasCommit frac s
  | .holdoverEntry => Sys2Proof.Machine.execHoldoverEntry s
  | .synceResume => Sys2Proof.Machine.execSynceResume s
  | .toutEnable n ctrl => Sys2Proof.Machine.execToutEnable n ctrl s
  | .toutPulse n => Sys2Proof.Machine.execToutPulse n s
  | .tinEdge n falling => Sys2Proof.Machine.execTinEdge n falling s
  | .deviceMemoryRequest n => Sys2Proof.Machine.execDeviceMemoryRequest n s
  | .refreshSlot h => Sys2Proof.Machine.execRefreshSlot h s
  | .memQuotaSet m => Sys2Proof.Machine.execMemQuotaSet m s
  | .memAlloc m => Sys2Proof.Machine.execMemAlloc m s
  | .memFree m => Sys2Proof.Machine.execMemFree m s
  | .tierRegionCreate m => Sys2Proof.Machine.execTierRegionCreate m s
  | .tierRegionDestroy m => Sys2Proof.Machine.execTierRegionDestroy m s
  | .tierPoolSet m => Sys2Proof.Machine.execTierPoolSet m s
  | .tierJob m => Sys2Proof.Machine.execTierJob m s
  | .memRemoteAttach m => Sys2Proof.Machine.execMemRemoteAttach m s
  | .memLend m => Sys2Proof.Machine.execMemLend m s
  | .flashFormat m geoms => Sys2Proof.Machine.execFlashFormat m geoms s
  | .memQuery m => Sys2Proof.Machine.execMemQuery m s
  | .tierRegionAdopt m => Sys2Proof.Machine.execTierRegionAdopt m s
  | .tierCommit m => Sys2Proof.Machine.execTierCommit m s
  | .tierDiscard m => Sys2Proof.Machine.execTierDiscard m s
  | .tierFetch ctx => Sys2Proof.Machine.execTierFetch ctx s
  | .tierUnpin ctx => Sys2Proof.Machine.execTierUnpin ctx s
  | .tierWriteback ctx => Sys2Proof.Machine.execTierWriteback ctx s
  | .tierJobCommit ctx => Sys2Proof.Machine.execTierJobCommit ctx s
  | .tierJobDiscard ctx => Sys2Proof.Machine.execTierJobDiscard ctx s
  | .tierFetchComplete ctx tpn => Sys2Proof.Machine.execTierFetchComplete ctx tpn s
  | .tierJobComplete ctx => Sys2Proof.Machine.execTierJobComplete ctx s
  | .backgroundWriteback ctx => Sys2Proof.Machine.execBackgroundWriteback ctx s
  | .sectorWritebackDone ctx tpn sector => Sys2Proof.Machine.execSectorWritebackDone ctx tpn sector s
  | .flashRowProgram => Sys2Proof.Machine.execFlashRowProgram s
  | .flashCompaction => Sys2Proof.Machine.execFlashCompaction s
  | .weightInstall m => Sys2Proof.Machine.execWeightInstall m s
  | .weightQuery m => Sys2Proof.Machine.execWeightQuery m s
  | .weightRepair m => Sys2Proof.Machine.execWeightRepair m s
  | .weightRemove m => Sys2Proof.Machine.execWeightRemove m s
  | .thatchBegin die => Sys2Proof.Machine.execThatchBegin die s
  | .thatchLatestExpiry plate => Sys2Proof.Machine.execThatchLatestExpiry plate s
  | .seqQueueConfig m => Sys2Proof.Machine.execSeqQueueConfig m s
  | .seqSubmit m => Sys2Proof.Machine.execSeqSubmit m s
  | .seqRelease m => Sys2Proof.Machine.execSeqRelease m s
  | .seqPause m => Sys2Proof.Machine.execSeqPause m s
  | .seqResume m => Sys2Proof.Machine.execSeqResume m s
  | .seqQuery m => Sys2Proof.Machine.execSeqQuery m s
  | .seqAllot m => Sys2Proof.Machine.execSeqAllot m s
  | .abrTrain m => Sys2Proof.Machine.execAbrTrain m s
  | .abrContinue m => Sys2Proof.Machine.execAbrContinue m s
  | .abrGainSet m => Sys2Proof.Machine.execAbrGainSet m s
  | .abrMeasure m lanes => Sys2Proof.Machine.execAbrMeasure m lanes s
  | .abrDown m => Sys2Proof.Machine.execAbrDown m s
  | .abrQuery m => Sys2Proof.Machine.execAbrQuery m s
  | .helloRx port serial peerPort mask far => Sys2Proof.Machine.execHelloRx port serial peerPort mask far s
  | .trainingPhaseEnd port obs delays => Sys2Proof.Machine.execTrainingPhaseEnd port obs delays s
  | .acquireTimeout port => Sys2Proof.Machine.execAcquireTimeout port s
  | .slateRx port lane body crc parity => Sys2Proof.Machine.execSlateRx port lane body crc parity s
  | .replayTimeout port lane => Sys2Proof.Machine.execReplayTimeout port lane s
  | .laneSyncLoss port lane dark => Sys2Proof.Machine.execLaneSyncLoss port lane dark s
  | .portPacketBoundary port => Sys2Proof.Machine.execPortPacketBoundary port s
  | .fabWindowSet m => Sys2Proof.Machine.execFabWindowSet m s
  | .fabWindowClear m => Sys2Proof.Machine.execFabWindowClear m s
  | .fabInwinSet m => Sys2Proof.Machine.execFabInwinSet m s
  | .fabRouteSet m => Sys2Proof.Machine.execFabRouteSet m s
  | .fabLedgerSet m => Sys2Proof.Machine.execFabLedgerSet m s
  | .fabIdSet m => Sys2Proof.Machine.execFabIdSet m s
  | .fabVcDefault m => Sys2Proof.Machine.execFabVcDefault m s
  | .fabConfig m => Sys2Proof.Machine.execFabConfig m s
  | .fabQuery m => Sys2Proof.Machine.execFabQuery m s
  | .pktRead port words => Sys2Proof.Machine.execPktRead port words s
  | .pktWrite port words => Sys2Proof.Machine.execPktWrite port words s
  | .pktAtomic port words => Sys2Proof.Machine.execPktAtomic port words s
  | .pktReadData port words => Sys2Proof.Machine.execPktReadData port words s
  | .pktWriteAck port words => Sys2Proof.Machine.execPktWriteAck port words s
  | .pktAtomicResult port words => Sys2Proof.Machine.execPktAtomicResult port words s
  | .pktNak port words => Sys2Proof.Machine.execPktNak port words s
  | .transitForward port words => Sys2Proof.Machine.execTransitForward port words s
  | .requestTimeout tag => Sys2Proof.Machine.execRequestTimeout tag s
  | .collGroupCreate m => Sys2Proof.Machine.execCollGroupCreate m s
  | .collGroupDestroy m => Sys2Proof.Machine.execCollGroupDestroy m s
  | .collGroupQuery m => Sys2Proof.Machine.execCollGroupQuery m s
  | .collGroupRebind m => Sys2Proof.Machine.execCollGroupRebind m s
  | .collJob m => Sys2Proof.Machine.execCollJob m s
  | .opAllreduce die => Sys2Proof.Machine.execOpAllreduce die s
  | .opReduceScatter die => Sys2Proof.Machine.execOpReduceScatter die s
  | .opAllgather die => Sys2Proof.Machine.execOpAllgather die s
  | .opBroadcast die => Sys2Proof.Machine.execOpBroadcast die s
  | .opReduce die => Sys2Proof.Machine.execOpReduce die s
  | .opAlltoall die => Sys2Proof.Machine.execOpAlltoall die s
  | .opBarrier die => Sys2Proof.Machine.execOpBarrier die s
  | .collRingStepSend die => Sys2Proof.Machine.execCollRingStepSend die s
  | .collData port words => Sys2Proof.Machine.execCollData port words s
  | .collCredit port words => Sys2Proof.Machine.execCollCredit port words s
  | .collAbort port words => Sys2Proof.Machine.execCollAbort port words s
  | .barrierArrive port words => Sys2Proof.Machine.execBarrierArrive port words s
  | .barrierRelease port words delays => Sys2Proof.Machine.execBarrierRelease port words delays s
  | .fabricBarrierResume group => Sys2Proof.Machine.execFabricBarrierResume group s
  | .collJoin port words => Sys2Proof.Machine.execCollJoin port words s
  | .collJoinTimeout group => Sys2Proof.Machine.execCollJoinTimeout group s
  | .collProgressTimeout group => Sys2Proof.Machine.execCollProgressTimeout group s
  | .qBind m => Sys2Proof.Machine.execQBind m s
  | .qUnbind m => Sys2Proof.Machine.execQUnbind m s
  | .qShaperSet m => Sys2Proof.Machine.execQShaperSet m s
  | .qClassSet m => Sys2Proof.Machine.execQClassSet m s
  | .policerSet m => Sys2Proof.Machine.execPolicerSet m s
  | .stippleConfig m => Sys2Proof.Machine.execStippleConfig m s
  | .qQuery m => Sys2Proof.Machine.execQQuery m s
  | .qRingSet m => Sys2Proof.Machine.execQRingSet m s
  | .egressDecision egress => Sys2Proof.Machine.execEgressDecision egress s
  | .shaperRefill => Sys2Proof.Machine.execShaperRefill s
  | .stippleSample => Sys2Proof.Machine.execStippleSample s
  | .qDoorbell fn hq v => Sys2Proof.Machine.execQDoorbell fn hq v s
  | .descriptorFetch hq slots => Sys2Proof.Machine.execDescriptorFetch hq slots s
  | .descToDevice hq index => Sys2Proof.Machine.execDescToDevice hq index s
  | .descMessage hq index => Sys2Proof.Machine.execDescMessage hq index s
  | .descToHost hq index => Sys2Proof.Machine.execDescToHost hq index s
  | .descFrame hq index => Sys2Proof.Machine.execDescFrame hq index s
  | .descWrite hq index => Sys2Proof.Machine.execDescWrite hq index s
  | .descriptorComplete hq index => Sys2Proof.Machine.execDescriptorComplete hq index s
  | .coalesceTimeout hq => Sys2Proof.Machine.execCoalesceTimeout hq s
  | .dmaReadCompletion hq index addr e => Sys2Proof.Machine.execDmaReadCompletion hq index addr e s
  | .atsInvalidate fn page => Sys2Proof.Machine.execAtsInvalidate fn page s
  | .fnConfig m => Sys2Proof.Machine.execFnConfig m s
  | .fnShareSet m => Sys2Proof.Machine.execFnShareSet m s
  | .fnQuery m => Sys2Proof.Machine.execFnQuery m s
  | .fnReset m => Sys2Proof.Machine.execFnReset m s
  | .flr fn => Sys2Proof.Machine.execFlr fn s
  | .vfEnableSet n => Sys2Proof.Machine.execVfEnableSet n s
  | .vfEnableClear => Sys2Proof.Machine.execVfEnableClear s
  | .teardownStepEnd fn => Sys2Proof.Machine.execTeardownStepEnd fn s
  | .quiesceAbandon fn => Sys2Proof.Machine.execQuiesceAbandon fn s
  | .scrubFrameDone f => Sys2Proof.Machine.execScrubFrameDone f s
  | .pcieLinkTrained speed width flit => Sys2Proof.Machine.execPcieLinkTrained speed width flit s
  | .pcieSurpriseDown => Sys2Proof.Machine.execPcieSurpriseDown s
  | .ctxSaveSet m => Sys2Proof.Machine.execCtxSaveSet m s
  | .ctxPreempt m => Sys2Proof.Machine.execCtxPreempt m s
  | .ctxResume m => Sys2Proof.Machine.execCtxResume m s
  | .ctxQuery m => Sys2Proof.Machine.execCtxQuery m s
  | .imageSaveDone ctx => Sys2Proof.Machine.execImageSaveDone ctx s
  | .imageRestoreDone ctx => Sys2Proof.Machine.execImageRestoreDone ctx s
  | .ctxSeedSet m => Sys2Proof.Machine.execCtxSeedSet m s
  | .seedRegen m => Sys2Proof.Machine.execSeedRegen m s
  | .proofJob die => Sys2Proof.Machine.execProofJob die s
  | .proofDone die engine => Sys2Proof.Machine.execProofDone die engine s
  | .recConfig m => Sys2Proof.Machine.execRecConfig m s
  | .recStart m => Sys2Proof.Machine.execRecStart m s
  | .recStop m => Sys2Proof.Machine.execRecStop m s
  | .replayStart m => Sys2Proof.Machine.execReplayStart m s
  | .replayStop m => Sys2Proof.Machine.execReplayStop m s
  | .replayInject geoms => Sys2Proof.Machine.execReplayInject geoms s
  | .dryArm m => Sys2Proof.Machine.execDryArm m s
  | .dryFire m => Sys2Proof.Machine.execDryFire m s
  | .drypointSnapshot => Sys2Proof.Machine.execDrypointSnapshot s
  | .dryHeldRelease => Sys2Proof.Machine.execDryHeldRelease s
  | .recPostStop => Sys2Proof.Machine.execRecPostStop s
  | .leaseConfig m => Sys2Proof.Machine.execLeaseConfig m s
  | .leaseKeySet m => Sys2Proof.Machine.execLeaseKeySet m s
  | .leaseRelease m => Sys2Proof.Machine.execLeaseRelease m s
  | .faultPeerSet m => Sys2Proof.Machine.execFaultPeerSet m s
  | .healthConfig m => Sys2Proof.Machine.execHealthConfig m s
  | .takeoverArm m => Sys2Proof.Machine.execTakeoverArm m s
  | .wireCompat m => Sys2Proof.Machine.execWireCompat m s
  | .faultQuery m => Sys2Proof.Machine.execFaultQuery m s
  | .leaseRenew => Sys2Proof.Machine.execLeaseRenew s
  | .rxGrant payload => Sys2Proof.Machine.execRxGrant payload s
  | .rxRevoke payload => Sys2Proof.Machine.execRxRevoke payload s
  | .leaseExpiry => Sys2Proof.Machine.execLeaseExpiry s
  | .fatalCause cause => Sys2Proof.Machine.execFatalCause cause s
  | .faultEventFlush code => Sys2Proof.Machine.execFaultEventFlush code s
  | .healthWindowEnd => Sys2Proof.Machine.execHealthWindowEnd s
  | .fenceNotice port words => Sys2Proof.Machine.execFenceNotice port words s
  | .leaseEcho port words => Sys2Proof.Machine.execLeaseEcho port words s
  | .echoAck port words => Sys2Proof.Machine.execEchoAck port words s
  | .echoLapse hall => Sys2Proof.Machine.execEchoLapse hall s
  | .takeoverTimer cell => Sys2Proof.Machine.execTakeoverTimer cell s
  | .mbxCmdPiWrite fn v => Sys2Proof.Machine.execMbxCmdPiWrite fn v s
  | .mbxCplCiWrite fn v => Sys2Proof.Machine.execMbxCplCiWrite fn v s
  | .mbxEnable fn => Sys2Proof.Machine.execMbxEnable fn s
  | .mbxDisable fn => Sys2Proof.Machine.execMbxDisable fn s
  | .mbxDrained fn => Sys2Proof.Machine.execMbxDrained fn s
  | .commandAccept heads => Sys2Proof.Machine.execCommandAccept heads s
  | .commandTimeout input desc => Sys2Proof.Machine.execCommandTimeout input desc s
  | .mgmtCommandFrame port payload => Sys2Proof.Machine.execMgmtCommandFrame port payload s
  | .devQuery m => Sys2Proof.Machine.execDevQuery m s
  | .devCfgQuery m => Sys2Proof.Machine.execDevCfgQuery m s
  | .devReset m => Sys2Proof.Machine.execDevReset m s
  | .computeReset m => Sys2Proof.Machine.execComputeReset m s
  | .fwStage m => Sys2Proof.Machine.execFwStage m s
  | .cfgWrite m => Sys2Proof.Machine.execCfgWrite m s
  | .coolantConfig m => Sys2Proof.Machine.execCoolantConfig m s
  | .govConfig m => Sys2Proof.Machine.execGovConfig m s
  | .powerQuery m => Sys2Proof.Machine.execPowerQuery m s
  | .tripConfig m => Sys2Proof.Machine.execTripConfig m s
  | .coolantSample rIn rOut => Sys2Proof.Machine.execCoolantSample rIn rOut s
  | .thermalSample junctions hbmTemps => Sys2Proof.Machine.execThermalSample junctions hbmTemps s
  | .tripClear => Sys2Proof.Machine.execTripClear s
  | .thermtripAssert => Sys2Proof.Machine.execThermtripAssert s
  | .regulatorPoll rail ack milliVolt milliAmp => Sys2Proof.Machine.execRegulatorPoll rail ack milliVolt milliAmp s
  | .pmbusTargetRead command => Sys2Proof.Machine.execPmbusTargetRead command s
  | .mctpMessage msg => Sys2Proof.Machine.execMctpMessage msg s
  | .powerOnResetEnter => Sys2Proof.Machine.execPowerOnResetEnter s
  | .powerOnResetEnd answers fitted => Sys2Proof.Machine.execPowerOnResetEnd answers fitted s
  | .configLoad => Sys2Proof.Machine.execConfigLoad s
  | .railLoss => Sys2Proof.Machine.execRailLoss s
  | .perstNAssert => Sys2Proof.Machine.execPerstNAssert s
  | .perstNRelease testen => Sys2Proof.Machine.execPerstNRelease testen s
  | .hbmReady geoms => Sys2Proof.Machine.execHbmReady geoms s
  | .jtagExtest => Sys2Proof.Machine.execExtest s
  | .jtagIdcode => Sys2Proof.Machine.execIdcode s
  | .jtagSamplePreload pins cells => Sys2Proof.Machine.execSamplePreload pins cells s
  | .jtagClamp => Sys2Proof.Machine.execClamp s
  | .jtagHighz => Sys2Proof.Machine.execHighz s
  | .jtagBypass code => Sys2Proof.Machine.execBypass code s
  | .tapReset => Sys2Proof.Machine.execTapReset s
  | .sramScrub word => Sys2Proof.Machine.execSramScrub word s
  | .atsTranslationCompletion fn page phys read write => Sys2Proof.Machine.execAtsTranslationCompletion fn page phys read write s
  | .mgmtPtpFrameRx port speed raw frame => Sys2Proof.Machine.execMgmtPtpFrameRx port speed raw frame s
  | .mgmtPtpFrameTx port speed raw => Sys2Proof.Machine.execMgmtPtpFrameTx port speed raw s

end Sys2Proof.Machine
end

