-- ==== Sys2Proof/Safety.lean ====
section
/-!
DEFINITION. What a safe step is, and the words that the statements about commands are made of: a mailbox command performs, stays in
flight, or declines; a state differs from another in one unit only.
-/
namespace Sys2Proof.Machine
open Sys2Proof

/-- A step is safe if it answers a next state. -/
def safeStep (s : State) : Bool :=
  match step s with
  | .next _ => true
  | _ => false

/-- What holds at reset and is kept by every step: memory is in its one canonical form. -/
def State.Inv (s : State) : Prop := s.mem.mem.wf = true

/-- A mailbox command with its common checks (issuers `b`, parameter fields `f`) PERFORMS: whenever acceptance lets it through and
`valid` holds of the state that it is accepted in, it answers a next state, namely that of its own effect, completed with ST_OK. -/
def Performs (c : Mbx → Instr) (b : By) (f : List (Nat × Nat)) (valid : Mbx → State → Prop)
    (effect : Mbx → State → Result → State → Prop) : Prop :=
  ∀ (m : Mbx) (s : State), (admitCmd m b f s).1 = stOk → valid m (admitCmd m b f s).2 →
    ∃ (r : Result) (t : State), Sys2Proof.Machine.exec (c m) s = .next (complete m stOk r t) ∧ effect m (admitCmd m b f s).2 r t

/-- A mailbox command that its effect leaves in flight: it answers a next state without a completion. -/
def StaysInFlight (c : Mbx → Instr) (b : By) (f : List (Nat × Nat)) (valid : Mbx → State → Prop)
    (effect : Mbx → State → State → Prop) : Prop :=
  ∀ (m : Mbx) (s : State), (admitCmd m b f s).1 = stOk → valid m (admitCmd m b f s).2 →
    ∃ t : State, Sys2Proof.Machine.exec (c m) s = .next t ∧ effect m (admitCmd m b f s).2 t

/-- A mailbox command DECLINES with a status: nothing but its completion happens. -/
def Declines (c : Mbx → Instr) (b : By) (f : List (Nat × Nat)) (when_ : Mbx → State → Prop) (status : Nat) : Prop :=
  ∀ (m : Mbx) (s : State), (admitCmd m b f s).1 = stOk → when_ m (admitCmd m b f s).2 →
    Sys2Proof.Machine.exec (c m) s = .next (complete m status Result.none (admitCmd m b f s).2)

/-- A mailbox command that acceptance does not let through completes with that status, and nothing else happens. -/
def Rejects (c : Mbx → Instr) (b : By) (f : List (Nat × Nat)) : Prop :=
  ∀ (m : Mbx) (s : State), (admitCmd m b f s).1 ≠ stOk →
    Sys2Proof.Machine.exec (c m) s = .next (complete m (admitCmd m b f s).1 Result.none (admitCmd m b f s).2)

end Sys2Proof.Machine
end

