-- ==== Sys2Proof/Certificates/Slice0/Obligations.lean ====
section
/-!
DEFINITION. The statements about the block, one per obligation.
-/
open Sys2Proof Sys2Proof.Machine

/-- A step takes the front command and runs it on the state that holds the rest of the queue (the queue is the model's own: log
entry 1). -/
def Obligations.StepRunsFrontCommand : Prop :=
  ∀ (c : Instr) (rest : List Instr) (s : State),
    Sys2Proof.Machine.step { s with pending := c :: rest } = Sys2Proof.Machine.exec c { s with pending := rest }

/-- On an empty queue one root cycle passes (the model's choice, log entry 2), and messages that waited for a batten's room leave
(R436); in power-on reset the clock stands. -/
def Obligations.EmptyQueueIdlesOneRootCycle : Prop :=
  ∀ s : State, s.pending = [] →
    ∃ u : State, u = { s with clk := u.clk } ∧
      (s.dev.por = true → u.clk = s.clk) ∧
      (s.dev.por = false →
        u.clk.phi.toNat = (s.clk.phi.toNat + 1) % 8 ∧ u.clk.tier = s.clk.tier ∧
        u.clk.ridge = if s.clk.phi.toNat = 7 then s.clk.ridge + 1 else s.clk.ridge) ∧
      ((s.dev.por = true ∨ s.host.msgWait = []) → Sys2Proof.Machine.step s = .next u) ∧
      (s.dev.por = false → s.host.msgWait ≠ [] →
        Sys2Proof.Machine.step s = .next (releaseMessages (messageRoom u) u))

/-- No command stops the block: a step answers a next state with exactly the rest of the queue, all that was sent stands, and the
count of free values drawn does not fall. Where the rules leave a choice it states the model's, log entries 1, 2, 5, 6 and 12. -/
def Obligations.EveryCommandAnswersAndSentDataStands : Prop :=
  ∀ (s : State) (c : Instr) (rest : List Instr), s.pending = c :: rest →
    ∃ t : State, Sys2Proof.Machine.step s = .next t ∧ t.pending = rest ∧ s.out <:+ t.out ∧ s.free ≤ t.free

/-- Every step keeps the canonical form of memory. Where the rules leave a choice it states the model's, log entry 8. -/
def Obligations.MemoryStaysCanonical : Prop :=
  ∀ s t : State, s.Inv → Sys2Proof.Machine.step s = .next t → t.Inv

/-- The state right after reset meets the invariant; the device is held in power-on reset with nothing waiting and nothing sent. Where the rules leave a choice it states the model's, log entries 3, 4 and 8. -/
def Obligations.ResetMemoryIsCanonical : Prop :=
  State.reset.Inv ∧ State.reset.pending = [] ∧ State.reset.out = [] ∧ State.reset.dev.por = true ∧
    State.reset.clk.ridge = 0 ∧ State.reset.clk.phi = 0

/-- Right after reset the registers read the reset values of their register tables: (offset in the PF's BAR0, width, value); and
the identity that configuration space gives for the PF and for a VF (R569). Where the rules leave a choice it states the model's, log entries 3 and 43. -/
def Obligations.RegistersReadTheirResetValues : Prop :=
  (∀ e ∈ ([(0x10000, 64, 0xF5D0800147B), (0x10008, 32, 0x3F), (0x20000, 32, 2), (0x1000100, 64, 0), (0x1000400, 32, 0x3F),
      (0x1000000, 64, 0), (0x2000000, 64, 0), (0x2800000, 32, 0x200), (0x2800008, 64, 0), (0x2800200, 64, 0), (0x3000400, 64, 0),
      (0x3000800, 32, 0)] ++
    [(0x4000040, 32, 0x100000), (0x4200000, 32, 0x10000), (0x4212008, 32, 1), (0x4600000, 64, 0), (0x5000000, 64, 0xFFFF000100FF0000),
      (0x5080000, 64, 0), (0x6000000, 32, 0), (0x6001000, 64, 0x20800000001), (0x6001010, 64, 0x20010000000), (0x100, 32, 0xFFFF0000),
      (0x1000800, 32, 0), (0x7000000, 64, 0)] ++
    [(0x7400010, 32, 0), (0x7400100, 32, 0), (0x7800000, 32, 0x60002), (0x7800010, 32, 0x3E80001), (0x7800200, 32, 0x304), (0x200, 64, 4),
      (0x208, 64, 4), (0x210, 32, 0), (0x218, 32, 0), (0x220, 64, 1), (0x7C00010, 64, 0x200400), (0x7C00018, 64, 0x300),
      (0x10, 32, 0x10000), (0x18, 64, 0xFFFF)] : List (Nat × Nat × Nat)),
    barValue State.reset 0 e.1 = some (e.2.1, e.2.2)) ∧
  (∀ f : Nat, let c := configIdentity f
    c.vendor = 0x1E8A ∧ (f = 0 → c.device = 0x0960) ∧ (f ≠ 0 → c.device = 0x0961) ∧ c.revision = 0xB1 ∧ c.classCode = 0x120000 ∧
    c.subVendor = 0x1E8A ∧ c.subsystem = 0x0001)

/-- A mailbox command that its common checks turn away only completes with their status (R524, R529). Where the rules leave a choice it states the model's, log entries 10, 13 and 32. -/
def Obligations.RejectedCommandsOnlyComplete : Prop :=
  Rejects .plateLoad .own [(16, 8), (24, 4), (28, 1), (32, 32)] ∧ Rejects .plateAdmit .own [(16, 2), (24, 8)] ∧
    Rejects .plateStart .own [(16, 3), (20, 2), (24, 16)] ∧ Rejects .plateSwap .pf [(16, 2), (24, 8)] ∧
    Rejects .plateRetire .own [(16, 2), (24, 8)] ∧ Rejects .plateQuery .own [(16, 2)] ∧ Rejects .cellConfig .pf [(16, 2), (24, 8)] ∧
    Rejects .cellStart .pf [(16, 2), (24, 8)] ∧ Rejects .cellStop .pf [(16, 3), (24, 8)] ∧ Rejects .cellShadow .pf [(16, 4), (24, 8)] ∧
    Rejects .cellTakeover .pf [(16, 2), (24, 8)] ∧ Rejects .cellQuery .pf [(16, 2)] ∧
    Rejects .fhPortConfig .pf [(16, 1), (18, 4), (24, 6), (32, 1)] ∧ Rejects .fhStreamConfig .pf [(16, 2), (24, 8)] ∧
    Rejects .fhCellTiming .pf [(16, 2), (32, 28)] ∧ Rejects .fhMirror .pf [(16, 4), (24, 8)] ∧ Rejects .fhQuery .pf [(16, 1), (18, 2)] ∧
    Rejects .timePortConfig .pf [(16, 6), (24, 6)] ∧ Rejects .timeServoConfig .pf [(16, 9), (28, 2), (32, 8)] ∧
    Rejects .timeRearm .pf [] ∧ Rejects .timeSynce .pf [(16, 1)] ∧ Rejects .timeQuery .pf [] ∧
    Rejects .memQuotaSet .pf [(16, 2), (24, 8)] ∧ Rejects .memAlloc .own [(16, 1), (24, 8)] ∧ Rejects .memFree .own [(16, 8)] ∧
    Rejects .tierRegionCreate .own [(16, 6)] ∧ Rejects .tierRegionDestroy .own [(16, 4)] ∧ Rejects .tierPoolSet .own [(16, 20)] ∧
    Rejects .tierJob .own [(16, 5), (24, 4), (32, 16)] ∧ Rejects .memRemoteAttach .pf [(16, 4), (24, 16)] ∧ Rejects .memLend .pf [(16, 1), (24, 16)] ∧
    (∀ geoms : List FlashGeom, Rejects (fun m => .flashFormat m geoms) .pf [(16, 1)]) ∧ Rejects .memQuery .own [(16, 1)] ∧
    Rejects .tierRegionAdopt .own [(16, 32)] ∧ Rejects .tierCommit .own [(16, 4), (24, 8)] ∧
    Rejects .tierDiscard .own [(16, 4), (24, 8)] ∧ Rejects .weightInstall .own [(16, 18), (40, 16)] ∧
    Rejects .weightQuery .own [(16, 3)] ∧ Rejects .weightRepair .own [(16, 3), (20, 8), (32, 8)] ∧ Rejects .weightRemove .own [(16, 2)] ∧
    Rejects .seqQueueConfig .own [(16, 1), (24, 8)] ∧ Rejects .seqSubmit .own [(16, 3), (20, 24)] ∧ Rejects .seqRelease .own [(16, 4)] ∧
    Rejects .seqPause .own [(16, 4)] ∧ Rejects .seqResume .own [(16, 4)] ∧ Rejects .seqQuery .own [(16, 4)] ∧
    Rejects .seqAllot .pf [(16, 1), (20, 4)] ∧ Rejects .abrTrain .pf [(16, 5)] ∧ Rejects .abrContinue .pf [(16, 1)] ∧
    Rejects .abrGainSet .pf [(16, 3)] ∧ (∀ lanes : List (BitVec 48), Rejects (fun m => .abrMeasure m lanes) .pf [(16, 1)]) ∧
    Rejects .abrDown .pf [(16, 1)] ∧ Rejects .abrQuery .pf [(16, 1), (24, 8)] ∧ Rejects .fabWindowSet .pf [(16, 2), (32, 7), (40, 16)] ∧
    Rejects .fabWindowClear .pf [(16, 2)] ∧ Rejects .fabInwinSet .pf [(16, 3), (20, 3), (24, 8)] ∧ Rejects .fabRouteSet .pf [(16, 8)] ∧
    Rejects .fabLedgerSet .pf [(16, 1), (18, 2), (24, 8)] ∧ Rejects .fabIdSet .pf [(16, 2)] ∧ Rejects .fabVcDefault .pf [(16, 14)] ∧
    Rejects .fabConfig .pf [(16, 4)] ∧ Rejects .fabQuery .pf [(24, 8)] ∧ Rejects .collGroupCreate .own [(24, 8)] ∧
    Rejects .collGroupDestroy .own [(16, 2)] ∧ Rejects .collGroupQuery .own [(16, 2)] ∧ Rejects .collGroupRebind .own [(16, 6), (24, 4)] ∧
    Rejects .collJob .own [(16, 9), (28, 28)] ∧ Rejects .qBind .pf [(32, 10), (44, 8)] ∧ Rejects .qUnbind .pf [(16, 2)] ∧
    Rejects .qShaperSet .pf [(16, 2), (20, 8)] ∧ Rejects .qClassSet .pf [(16, 5), (24, 8)] ∧ Rejects .policerSet .pf [(16, 12)] ∧
    Rejects .stippleConfig .pf [(16, 7), (24, 8)] ∧ Rejects .qQuery .own [(16, 2)] ∧ Rejects .qRingSet .own [(16, 4), (24, 36)] ∧
    Rejects .fnConfig .pf [(16, 1), (18, 8)] ∧ Rejects .fnShareSet .pf [(16, 1), (24, 8)] ∧ Rejects .fnQuery .own [(16, 1)] ∧
    Rejects .fnReset .pf [(16, 1)] ∧ Rejects .ctxSaveSet .pf [(16, 1), (24, 16)] ∧ Rejects .ctxPreempt .pf [(16, 2)] ∧
    Rejects .ctxResume .pf [(16, 1)] ∧ Rejects .ctxQuery .pf [(16, 1)] ∧ Rejects .ctxSeedSet .own [(16, 2), (24, 8)] ∧
    Rejects .seedRegen .own [(18, 38)] ∧ Rejects .recConfig .pf [(16, 6), (24, 16)] ∧ Rejects .recStart .pf [] ∧ Rejects .recStop .pf [] ∧
    Rejects .replayStart .own [(16, 3), (24, 24)] ∧ Rejects .replayStop .own [] ∧ Rejects .dryArm .pf [(24, 1), (26, 14)] ∧
    Rejects .dryFire .pf [] ∧ Rejects .leaseConfig .mgmt [(16, 1), (18, 2), (24, 16)] ∧ Rejects .leaseKeySet .mgmt [(24, 8)] ∧
    Rejects .leaseRelease .pfMgmt [] ∧ Rejects .faultPeerSet .mgmt [(16, 7)] ∧ Rejects .healthConfig .mgmt [(16, 1), (20, 10)] ∧
    Rejects .takeoverArm .pfMgmt [(16, 5)] ∧ Rejects .wireCompat .mgmt [(16, 1)] ∧ Rejects .faultQuery .any [] ∧
    Rejects .devQuery .any [] ∧ Rejects .devCfgQuery .pfMgmt [] ∧ Rejects .devReset .pfMgmt [(16, 1)] ∧ Rejects .computeReset .pfMgmt [] ∧
    Rejects .fwStage .pfMgmt [(16, 12), (32, 32)] ∧ Rejects .cfgWrite .pfMgmt [(16, 12)] ∧ Rejects .coolantConfig .pfMgmt [(24, 8)] ∧
    Rejects .govConfig .pfMgmt [(24, 8)] ∧ Rejects .powerQuery .any [] ∧ Rejects .tripConfig .pfMgmt [(24, 8)]

/-- The common checks of a mailbox command (R514, R516, R524, R480, R553). Where the rules leave a choice it states the model's, log entries 17, 32 and 73. -/
def Obligations.CommonChecksOfACommand : Prop :=
  ∀ (m : Mbx) (b : By) (f : List (Nat × Nat)) (s : State),
    (reservedClear m f = true ↔ onlyFields (mbytes m) ([(0, 3), (4, 12)] ++ f) = true ∧ mfld m 2 1 < 4 ∧
      ∀ e ∈ partBytes (mfld m 0 2), mfld m e.1 1 &&& (255 - e.2) = 0) ∧
    (reservedClear m f = false → (admitCmd m b f s).1 = stBadParam) ∧
    (reservedClear m f = true → recoveryRefuses (beginCmd m s) (mfld m 0 2) = true → (admitCmd m b f s).1 = stNotReady) ∧
    (reservedClear m f = true → recoveryRefuses (beginCmd m s) (mfld m 0 2) = false → shutOut m (beginCmd m s) = true →
      (admitCmd m b f s).1 = stBusy) ∧
    (reservedClear m f = true → recoveryRefuses (beginCmd m s) (mfld m 0 2) = false → shutOut m (beginCmd m s) = false →
      (issuerOk b m.input.toNat = false → (admitCmd m b f s).1 = stBadParam) ∧
      (issuerOk b m.input.toNat = true →
        (m.data = .poisoned → (admitCmd m b f s).1 = stPoison) ∧ (m.data = .failed → (admitCmd m b f s).1 = stUncorrectable) ∧
        (m.data = .refused → (admitCmd m b f s).1 = stBadParam) ∧ (∀ x y, m.data = .ok x y → (admitCmd m b f s).1 = stOk))) ∧
    (recordsCtx (beginCmd m s) m.input.toNat = false → (admitCmd m b f s).2 = beginCmd m s) ∧
    (issuerOk .pf m.input.toNat = true ↔ m.input = 0 ∨ m.input = 256) ∧ (issuerOk .own m.input.toNat = true ↔ m.input.toNat < 256) ∧
    (issuerOk .mgmt m.input.toNat = true ↔ m.input = 256) ∧ (issuerOk .pfMgmt m.input.toNat = true ↔ m.input = 0 ∨ m.input = 256)

/-- A completion without a result, and the room of a batten for messages (R510, R517, R519, R436). Where the rules leave a choice it states the model's, log entries 10 and 14. -/
def Obligations.CompletionEntryOfARing : Prop :=
  (∀ (s : State) (fn : Nat) (i : Inflight) (st : Nat), st < 65536 → (s.fn fn).state ≠ 2 →
    ∃ bytes : List Byte, bytes.length = 32 ∧ fld bytes 0 2 = st ∧ fld bytes 2 2 = i.slot % 65536 ∧
      fld bytes 4 1 = ((s.ring fn).cplPI.toNat / 2 ^ (s.ring fn).cplLog + 1) % 2 ∧ fld bytes 5 27 = 0 ∧
      Output.hostWrite fn ((s.ring fn).cplBase + 32 * ((s.ring fn).cplPI.toNat % 2 ^ (s.ring fn).cplLog)) bytes false
        ∈ (completeFn fn i st Result.none s).out ++ (completeFn fn i st Result.none s).host.msgWait ∧
      (s.host.msgWait = [] → 0 < messageRoom s →
        Output.hostWrite fn ((s.ring fn).cplBase + 32 * ((s.ring fn).cplPI.toNat % 2 ^ (s.ring fn).cplLog)) bytes false
          ∈ (completeFn fn i st Result.none s).out) ∧
      ((completeFn fn i st Result.none s).ring fn).cplPI = (s.ring fn).cplPI + 1 ∧
      ((completeFn fn i st Result.none s).ring fn).inflight = (s.ring fn).inflight.filter (· ≠ i) ∧
      (∀ k, k ≠ fn → (completeFn fn i st Result.none s).ring k = s.ring k) ∧
      (completeFn fn i st Result.none s).mem = s.mem ∧
      (i.intr = false → (s.ring fn).firstSinceCI = false → s.host.msgWait = [] → 0 < messageRoom s →
        (completeFn fn i st Result.none s).out =
          Output.hostWrite fn ((s.ring fn).cplBase + 32 * ((s.ring fn).cplPI.toNat % 2 ^ (s.ring fn).cplLog)) bytes false :: s.out)) ∧
  (∀ (o : Output) (s : State),
    messageRoom s ≤ 64 ∧
    (s.host.msgWait = [] → 0 < messageRoom s → (sendMessage o s).out = o :: s.out ∧ (sendMessage o s).host.msgWait = [] ∧
      messageRoom (sendMessage o s) + 1 = messageRoom s) ∧
    ((s.host.msgWait ≠ [] ∨ messageRoom s = 0) →
      sendMessage o s = { s with host := { s.host with msgWait := s.host.msgWait ++ [o] } }))

/-- An access of another width or alignment is ignored and counted; a read returns all ones (R9). -/
def Obligations.AccessesOfWrongWidthOrAlignment : Prop :=
  ∀ (s : State) (fn : BitVec 8), (s.fn fn.toNat).state ≠ 0 → (s.fn fn.toNat).state ≠ 2 →
    Sys2Proof.Machine.exec (.badWidthAccess fn false) s = .next { s with host := { s.host with cnt := bump s.host.cnt 0 } } ∧
    Sys2Proof.Machine.exec (.badWidthAccess fn true) s =
      .next { s with host := { s.host with cnt := bump s.host.cnt 0 }, out := .readData fn.toNat 0xFFFFFFFF 32 :: s.out } ∧
    (∀ w : RegWrite, w.fn = fn →
      (w.bar ≠ .bar2 ∧ (w.off.toNat % 4 ≠ 0 ∨ (w.wide = true ∧ w.off.toNat % 8 ≠ 0)) ∨
        w.bar = .bar2 ∧ (w.off.toNat % 4 ≠ 0 ∨ w.wide = true)) →
      Sys2Proof.Machine.exec (.registerWrite w) s = .next { s with host := { s.host with cnt := bump s.host.cnt 0 } })

/-- Register writes and reads: halves, shadows, W1C bits, MSI-X entries, unmapped offsets, and functions that decode nothing (R8, R572,
R576, R435, R437). Where the rules leave a choice it states the model's, log entries 71 and 72. -/
def Obligations.RegisterWritesReachTheirRegisters : Prop :=
  ∀ (s : State) (fn : BitVec 8),
    ((s.fn fn.toNat).state = 1 → ∀ bits : BitVec 8,
      Sys2Proof.Machine.exec (.unmappedBarAccess fn false bits) s = .next { s with host := { s.host with cnt := bump s.host.cnt 0 } } ∧
      Sys2Proof.Machine.exec (.unmappedBarAccess fn true bits) s =
        .next { s with host := { s.host with cnt := bump s.host.cnt 0 }, out := .readData fn.toNat 0 bits.toNat :: s.out }) ∧
    ((s.fn fn.toNat).state = 2 → ∀ bits : BitVec 8,
      Sys2Proof.Machine.exec (.unmappedBarAccess fn true bits) s = .next { s with out := .readData fn.toNat 0 bits.toNat :: s.out } ∧
      Sys2Proof.Machine.exec (.unmappedBarAccess fn false bits) s = .next s ∧
      (∀ w : RegWrite, w.fn = fn → Sys2Proof.Machine.exec (.registerWrite w) s = .next s)) ∧
    ((s.fn fn.toNat).state = 0 → ∀ (rd : Bool) (bits : BitVec 8),
      Sys2Proof.Machine.exec (.unmappedBarAccess fn rd bits) s = .next { s with out := .unsupported fn.toNat :: s.out } ∧
      (∀ w : RegWrite, w.fn = fn → Sys2Proof.Machine.exec (.registerWrite w) s = .next { s with out := .unsupported fn.toNat :: s.out })) ∧
    ((s.fn fn.toNat).state = 1 → ∀ w : RegWrite, w.fn = fn → w.bar = .bar0 → w.off.toNat < 0x8000000 →
      (∀ a, regAt fn.toNat w.off.toNat = some a → a.wide = true → w.wide = false → w.off.toNat % 4 = 0 →
        Sys2Proof.Machine.exec (.registerWrite w) s = .next { s with host := { s.host with
          lowHeld := Tab.set none s.host.lowHeld (2 ^ 28 * fn.toNat + w.off.toNat) (some (w.data.setWidth 32)) } }) ∧
      (∀ (a : RegAt) (lo : BitVec 32) (v : RegWrite), regAt fn.toNat w.off.toNat = none → 4 ≤ w.off.toNat → w.wide = false →
        w.off.toNat % 8 = 4 → regAt fn.toNat (w.off.toNat - 4) = some a → a.wide = true →
        Tab.get none s.host.lowHeld (2 ^ 28 * fn.toNat + (w.off.toNat - 4)) = some lo →
        v = { w with off := w.off - 4, wide := true, data := (w.data.setWidth 32).setWidth 64 <<< 32 ||| lo.setWidth 64 } →
        Sys2Proof.Machine.exec (.registerWrite w) s = Sys2Proof.Machine.exec (.registerWrite v) s) ∧
      (w.off = 0x100 → w.wide = false → Sys2Proof.Machine.exec (.registerWrite w) s =
        .next (s.setFn fn.toNat { s.fn fn.toNat with err := (s.fn fn.toNat).err &&& ~~~ w.data.setWidth 5 })) ∧
      (w.off.toNat % 8 = 0 → regAt fn.toNat w.off.toNat = none → (w.off.toNat < 4 ∨ regAt fn.toNat (w.off.toNat - 4) = none) →
        Sys2Proof.Machine.exec (.registerWrite w) s = .next { s with host := { s.host with cnt := bump s.host.cnt 0 } })) ∧
    ((s.fn fn.toNat).state = 1 → ∀ (w : RegWrite) (vec : Nat), w.fn = fn → w.bar = .bar4 → w.wide = false →
      w.off.toNat = 16 * vec + 12 → vec < 2048 → vec < (s.fn fn.toNat).vectors → (s.vec fn.toNat vec).pending = true →
      (w.data.getLsbD 0 = false → Sys2Proof.Machine.exec (.registerWrite w) s = .next
        (sendMessage (.msix fn.toNat vec (s.vec fn.toNat vec).addr.toNat (s.vec fn.toNat vec).data.toNat)
          (s.setVec fn.toNat vec { s.vec fn.toNat vec with masked := false, pending := false }))) ∧
      (w.data.getLsbD 0 = true → Sys2Proof.Machine.exec (.registerWrite w) s = .next
        (s.setVec fn.toNat vec { s.vec fn.toNat vec with masked := true, pending := true }))) ∧
    ((s.fn fn.toNat).state = 1 → ∀ (off : Nat) (a : RegAt), regAt fn.toNat off = some a → off < 0x8000000 →
      (a.wide = false → off % 4 = 0 →
        barRead fn.toNat off false s = (some (regValue s fn.toNat a), takeRead a s) ∧
        (off % 8 = 0 → barRead fn.toNat off true s = (some 0xFFFFFFFF, hifCount 0 s))) ∧
      (a.wide = true → off % 8 = 0 →
        barRead fn.toNat off true s = (some (regValue s fn.toNat a), takeRead a s) ∧
        ∃ t : State, barRead fn.toNat off false s = (some (regValue s fn.toNat a % 2 ^ 32), t) ∧
          t = { takeRead a s with host := { (takeRead a s).host with highLatch := t.host.highLatch } } ∧
          (regAt fn.toNat (off + 4) = none → ∀ u : State, u.host.highLatch = t.host.highLatch → (u.fn fn.toNat).state = 1 →
            barRead fn.toNat (off + 4) false u = (some (regValue s fn.toNat a / 2 ^ 32 % 2 ^ 32), u))) ∧
      (fn = 0 → a.wide = true → off % 8 = 0 →
        barRead 0 (0x8000000 + off) true s = (some (shadowValue s a), s) ∧
        ∃ t : State, barRead 0 (0x8000000 + off) false s = (some (shadowValue s a % 2 ^ 32), t) ∧
          t = { s with host := { s.host with highLatch := t.host.highLatch } } ∧
          (regAt 0 (off + 4) = none → ∀ u : State, u.host.highLatch = t.host.highLatch → (u.fn 0).state = 1 →
            barRead 0 (0x8000000 + off + 4) false u = (some (shadowValue s a / 2 ^ 32 % 2 ^ 32), u)))) ∧
    (∀ (off : Nat) (wide : Bool), ((s.fn fn.toNat).state = 0 → barRead fn.toNat off wide s = (none, s)) ∧
      ((s.fn fn.toNat).state = 2 → barRead fn.toNat off wide s = (some 0, s)))

/-- Event counters saturate (R14). -/
def Obligations.CountersSaturate : Prop :=
  ∀ (t : Tab Word) (i n : Nat),
    (Tab.get 0 (bump t i) i).toNat = min ((Tab.get 0 t i).toNat + 1) 0xFFFFFFFFFFFFFFFF ∧
    (∀ k, k ≠ i → Tab.get 0 (bump t i) k = Tab.get 0 t k) ∧
    (Tab.get 0 (bumpBy t i n) i).toNat = min ((Tab.get 0 t i).toNat + n) 0xFFFFFFFFFFFFFFFF ∧
    (∀ k, k ≠ i → Tab.get 0 (bumpBy t i n) k = Tab.get 0 t k)

/-- The rows of the ring registers (R511, R512). Where the rules leave a choice it states the model's, log entries 15 and 71. -/
def Obligations.MailboxRingRegisters : Prop :=
  ∀ (s : State) (fn : BitVec 8) (v : BitVec 32) (g : MbxRing), (s.fn fn.toNat).state = 1 → g = s.ring fn.toNat →
    (g.en = true → g.err = 0 → (v - g.cmdPI).toNat ≤ 2 ^ g.cmdLog → (v - g.cmdCI).toNat ≤ 2 ^ g.cmdLog →
      Sys2Proof.Machine.exec (.mbxCmdPiWrite fn v) s = .next (s.setRing fn.toNat { g with
        cmdPI := v, headSince := if g.cmdPI = g.cmdCI ∧ v ≠ g.cmdCI then some s.now else g.headSince })) ∧
    (g.en = true → g.err = 0 → (2 ^ g.cmdLog < (v - g.cmdPI).toNat ∨ 2 ^ g.cmdLog < (v - g.cmdCI).toNat) →
      Sys2Proof.Machine.exec (.mbxCmdPiWrite fn v) s = .next (hifCount 2 (raiseFnErr fn.toNat 1 (s.setRing fn.toNat { g with
        err := BitVec.ofNat 16 stBadParam })))) ∧
    (g.en = false → Sys2Proof.Machine.exec (.mbxCmdPiWrite fn v) s = .next (s.setRing fn.toNat { g with keptPI := some v })) ∧
    (g.en = true → g.err ≠ 0 → Sys2Proof.Machine.exec (.mbxCmdPiWrite fn v) s = .next s) ∧
    ((v - g.cplCI).toNat ≤ 2 ^ g.cplLog → (g.cplPI - v).toNat ≤ 2 ^ g.cplLog →
      Sys2Proof.Machine.exec (.mbxCplCiWrite fn v) s = .next (s.setRing fn.toNat { g with
        cplCI := v, firstSinceCI := g.firstSinceCI || v != g.cplCI })) ∧
    ((2 ^ g.cplLog < (v - g.cplCI).toNat ∨ 2 ^ g.cplLog < (g.cplPI - v).toNat) →
      Sys2Proof.Machine.exec (.mbxCplCiWrite fn v) s = .next (hifCount 2 (raiseFnErr fn.toNat 1 (s.setRing fn.toNat { g with
        err := BitVec.ofNat 16 stBadParam })))) ∧
    (g.en = false → g.keptPI = none → 4 ≤ g.cmdRing.toNat % 16 → g.cmdRing.toNat % 16 ≤ 12 → 4 ≤ g.cplRing.toNat % 16 →
      g.cplRing.toNat % 16 ≤ 12 → ∃ t, t = s.setRing fn.toNat { g with
        cmdBase := g.cmdRing.toNat / 4096 * 4096, cmdLog := g.cmdRing.toNat % 16, cplBase := g.cplRing.toNat / 4096 * 4096,
        cplLog := g.cplRing.toNat % 16, en := true, err := 0, cmdPI := 0, cplCI := 0, cplPI := 0, cmdCI := 0,
        enablePending := false, firstSinceCI := true, keptPI := none, headSince := none } ∧
      (g.inflight = [] → Sys2Proof.Machine.exec (.mbxEnable fn) s = .next t) ∧
      (g.inflight = [] → g.enablePending = true → Sys2Proof.Machine.exec (.mbxDrained fn) s = .next t)) ∧
    (g.en = false → g.inflight = [] →
      (g.cmdRing.toNat % 16 < 4 ∨ 12 < g.cmdRing.toNat % 16 ∨ g.cplRing.toNat % 16 < 4 ∨ 12 < g.cplRing.toNat % 16) →
      ∃ t, Sys2Proof.Machine.exec (.mbxEnable fn) s = .next t ∧ (t.ring fn.toNat).en = false ∧
        (t.ring fn.toNat).err = BitVec.ofNat 16 stBadParam ∧ (t.fn fn.toNat).err.getLsbD 0 = true ∧ t.mem = s.mem ∧
        (∀ k, k ≠ fn.toNat → t.ring k = s.ring k)) ∧
    (g.en = false → g.inflight ≠ [] →
      Sys2Proof.Machine.exec (.mbxEnable fn) s = .next (s.setRing fn.toNat { g with enablePending := true })) ∧
    ((g.inflight ≠ [] ∨ g.enablePending = false) → Sys2Proof.Machine.exec (.mbxDrained fn) s = .next s) ∧
    Sys2Proof.Machine.exec (.mbxDisable fn) s = .next (s.setRing fn.toNat { g with en := false, enablePending := false })

/-- Acceptance and time-out of head commands (R520, R522, R525). Where the rules leave a choice it states the model's, log entries 10, 13 and 73. -/
def Obligations.CommandsAreAcceptedAndTimedOut : Prop :=
  ∀ (s : State) (h : Head) (g : MbxRing), g = s.ring h.fn.toNat →
    (mayAccept s = true ↔ ∀ r, s.mbx.lastAccept = some r → r / 32 + 256 ≤ s.root / 32) ∧
    (∀ hs : List Head, mayAccept s = false → Sys2Proof.Machine.exec (.commandAccept hs) s = .next s) ∧
    (mayAccept s = true → headAcceptable s h = true → s.mbx.mgmtWaiting = [] →
      ∃ t, t = ({ s with mbx := { s.mbx with lastAccept := some s.root } } : State).setRing h.fn.toNat { g with
          cmdCI := g.cmdCI + 1,
          inflight := g.inflight ++
            [{ slot := g.cmdCI.toNat, intr := bitAt (dfld h.desc 2 1) 0, resAddr := dfld h.desc 8 8,
               resLen := 64 * dfld h.desc 6 2, since := s.now, silent := false, opcode := dfld h.desc 0 2 }],
          headSince := if g.cmdPI = g.cmdCI + 1 then none else some s.now } ∧
        (opcodes.contains (dfld h.desc 0 2) = true → Sys2Proof.Machine.exec (.commandAccept [h]) s = .next t) ∧
        (opcodes.contains (dfld h.desc 0 2) = false → recoveryRefuses s (dfld h.desc 0 2) = false → recordsCtx s h.fn.toNat = false →
          Sys2Proof.Machine.exec (.commandAccept [h]) s =
            .next (completeSlot h.fn.toNat g.cmdCI.toNat stBadOpcode Result.none t))) ∧
    (∀ hs : List Head, hs.filter (headAcceptable s) = [] → mgmtAcceptable s = false →
      Sys2Proof.Machine.exec (.commandAccept hs) s = .next s) ∧
    (∀ (c : MgmtCmd) (rest : List MgmtCmd), mayAccept s = true → s.mbx.mgmtWaiting = c :: rest → mgmtAcceptable s = true →
      opcodes.contains (dfld c.desc 0 2) = true → ∃ t, Sys2Proof.Machine.exec (.commandAccept []) s = .next t ∧
        t = { s with mbx := { s.mbx with mgmtWaiting := rest, mgmtInflight := t.mbx.mgmtInflight,
                                         lastAccept := some s.root, mgmtHeadSince := if rest = [] then none else some s.now } } ∧
        t.mbx.mgmtInflight.map Inflight.slot = s.mbx.mgmtInflight.map Inflight.slot ++ [c.mseq]) ∧
    (∀ (n since : Nat) (input : BitVec 9), input.toNat = h.fn.toNat → g.en = true → g.err = 0 → g.cmdPI ≠ g.cmdCI →
      g.headSince = some since → n = dfld h.desc 4 2 → n ≠ 0 → since + 1966080 * n ≤ s.now →
      (g.cplPI - g.cplCI).toNat + g.inflight.length < 2 ^ g.cplLog →
      Sys2Proof.Machine.exec (.commandTimeout input h.desc) s = .next (completeFn h.fn.toNat (inflightRaw g.cmdCI.toNat h.desc s)
        (if heldByPreempt s h.fn.toNat h.desc then stPreempted else stBusy) Result.none (s.setRing h.fn.toNat { g with
          cmdCI := g.cmdCI + 1, headSince := if g.cmdPI = g.cmdCI + 1 then none else some s.now }))) ∧
    (∀ input : BitVec 9, input.toNat = h.fn.toNat →
      (g.en = false ∨ g.cmdPI = g.cmdCI ∨ dfld h.desc 4 2 = 0 ∨ g.headSince = none ∨
        (∃ since, g.headSince = some since ∧ s.now < since + 1966080 * dfld h.desc 4 2)) →
      Sys2Proof.Machine.exec (.commandTimeout input h.desc) s = .next s)

/-- MGMT_COMMAND_FRAME (R526, R527). Where the rules leave a choice it states the model's, log entries 14 and 22. -/
def Obligations.ManagementCommandFrames : Prop :=
  ∀ (s : State) (port : BitVec 1) (p : List (BitVec 8)) (x : Nat), x = fld p 12 4 →
    (mgmtFrameOk s p = false → Sys2Proof.Machine.exec (.mgmtCommandFrame port p) s =
      .next { s with mbx := { s.mbx with mgmtCnt := bump s.mbx.mgmtCnt 1 } }) ∧
    (mgmtFrameOk s p = true → (∀ l, s.mbx.lastMseq = some l → l < x) →
      Sys2Proof.Machine.exec (.mgmtCommandFrame port p) s = .next { s with mbx := { s.mbx with
        seen := ({ mseq := x, reply := none } :: s.mbx.seen).take 64, lastMseq := some x,
        mgmtWaiting := s.mbx.mgmtWaiting ++
          [{ mseq := x, desc := BitVec.ofNat 512 (fld p 32 64), data := sliceBytes p 96 (fld p 16 2) }],
        mgmtHeadSince := if s.mbx.mgmtWaiting = [] then some s.now else s.mbx.mgmtHeadSince,
        mgmtCnt := bump s.mbx.mgmtCnt 0 } }) ∧
    (∀ l, mgmtFrameOk s p = true → s.mbx.lastMseq = some l → x ≤ l →
      (s.mbx.seen.find? (·.mseq == x) = none → Sys2Proof.Machine.exec (.mgmtCommandFrame port p) s =
        .next { s with mbx := { s.mbx with mgmtCnt := bump s.mbx.mgmtCnt 4 } }) ∧
      (∀ e, s.mbx.seen.find? (·.mseq == x) = some e → e.reply = none → Sys2Proof.Machine.exec (.mgmtCommandFrame port p) s =
        .next { s with mbx := { s.mbx with mgmtCnt := bump s.mbx.mgmtCnt 3 } }) ∧
      (∀ e b, s.mbx.seen.find? (·.mseq == x) = some e → e.reply = some b →
        ∃ t dst vlan, Sys2Proof.Machine.exec (.mgmtCommandFrame port p) s = .next t ∧ t.out = .mgmtFrame port.toNat dst vlan b :: s.out ∧
          t = { s with out := t.out, mbx := { s.mbx with mgmtCnt := bump (bump s.mbx.mgmtCnt 2) 5 } })) ∧
    (s.flt.keySet = false → mgmtFrameOk s p = true → fld p 32 2 = 0x0C02 ∧ p.drop (p.length - 16) = List.replicate 16 0)

/-- The commands of group 0x08 (R398 to R400, R409 to R411, R414, R423). Where the rules leave a choice it states the model's, log entry 19. -/
def Obligations.QueueCommandsPerform : Prop :=
  Performs .qBind .pf [(32, 10), (44, 8)] (fun m a => let r := (mbytes m).drop 32; fld r 0 2 < 8192 ∧ fld r 4 2 = 0xFFFF ∧
      fld r 6 2 ≠ 0 ∧ (fld r 8 2 < 512 ∨ fld r 8 2 = 0xFFFF) ∧ fld r 16 4 ≤ 1048575 ∧ (bitAt (fld r 3 1) 2 = true → fld r 2 1 = 0) ∧
      (bitAt (fld r 3 1) 2 = true ↔ fld r 3 1 % 4 = 0) ∧ (fld r 8 2 ≠ 0xFFFF → (a.qclass (fld r 8 2)).egress = 0xFFFF) ∧
      (a.queue (fld r 0 2)).holdsEntry = false)
    (fun m a x t => let r := (mbytes m).drop 32; x = { fields := [(8, 8, nextRefill a)], block := none } ∧
      t = a.setQueue (fld r 0 2) { Queue.reset with bytesSent := (a.queue (fld r 0 2)).bytesSent,
                                                    entriesSent := (a.queue (fld r 0 2)).entriesSent }) ∧
  Performs .qBind .pf [(32, 10), (44, 8)] (fun m a => let r := (mbytes m).drop 32; let q := a.queue (fld r 0 2); fld r 0 2 < 8192 ∧
      fld r 4 2 < 82 ∧ fld r 6 2 ≠ 0 ∧ (fld r 8 2 < 512 ∨ fld r 8 2 = 0xFFFF) ∧
      fld r 16 4 ≤ 1048575 ∧ (fld r 4 2 < 8 → fld r 2 1 = 0) ∧ (bitAt (fld r 3 1) 2 = true → fld r 2 1 = 0) ∧
      (bitAt (fld r 3 1) 2 = true ↔ fld r 3 1 % 4 = 0) ∧ (fld r 8 2 ≠ 0xFFFF → (a.qclass (fld r 8 2)).egress = fld r 4 2) ∧
      (fld r 12 4 ≠ 0 → largestL (fld r 4 2) ≤ fld r 16 4) ∧
      (q.en = false ∨ (q.holdsEntry = false ∧ (q.fn ≠ fld r 2 1 ∨ q.egress ≠ fld r 4 2))))
    (fun m a x t => let r := (mbytes m).drop 32; let q := a.queue (fld r 0 2);
      x = { fields := [(8, 8, nextRefill a)], block := none } ∧ t = a.setQueue (fld r 0 2) { Queue.reset with
        en := true, fn := fld r 2 1, level := fld r 3 1 % 4, ran := bitAt (fld r 3 1) 2, egress := fld r 4 2, weight := fld r 6 2,
        cls := fld r 8 2, change := some (fld r 12 4, fld r 16 4), tokens := 256 * fld r 16 4, bytesSent := q.bytesSent,
        entriesSent := q.entriesSent }) ∧
  Performs .qBind .pf [(32, 10), (44, 8)] (fun m a => let r := (mbytes m).drop 32; let q := a.queue (fld r 0 2); fld r 0 2 < 8192 ∧
      fld r 4 2 < 82 ∧ fld r 6 2 ≠ 0 ∧ (fld r 8 2 < 512 ∨ fld r 8 2 = 0xFFFF) ∧
      fld r 16 4 ≤ 1048575 ∧ (fld r 4 2 < 8 → fld r 2 1 = 0) ∧ (bitAt (fld r 3 1) 2 = true → fld r 2 1 = 0) ∧
      (bitAt (fld r 3 1) 2 = true ↔ fld r 3 1 % 4 = 0) ∧ (fld r 8 2 ≠ 0xFFFF → (a.qclass (fld r 8 2)).egress = fld r 4 2) ∧
      (fld r 12 4 ≠ 0 → largestL (fld r 4 2) ≤ fld r 16 4) ∧ q.en = true ∧ q.fn = fld r 2 1 ∧ q.egress = fld r 4 2)
    (fun m a x t => let r := (mbytes m).drop 32; let q := a.queue (fld r 0 2);
      let q1 := { tagFetch a (a.vtime 81 q.level) (tagHead a q) with
        level := fld r 3 1 % 4, ran := bitAt (fld r 3 1) 2, weight := fld r 6 2, cls := fld r 8 2,
        change := some (fld r 12 4, fld r 16 4) };
      x = { fields := [(8, 8, nextRefill a)], block := none } ∧ t = a.setQueue (fld r 0 2)
        (if q.level = fld r 3 1 % 4 then q1 else { q1 with tagged := false, stayed := false, released := false, fetchTag := none })) ∧
  Performs .qUnbind .pf [(16, 2)] (fun m a => mfld m 16 2 < 8192 ∧ (a.queue (mfld m 16 2)).holdsEntry = false)
    (fun m a x t => x = Result.none ∧ t = a.setQueue (mfld m 16 2) { Queue.reset with
      bytesSent := (a.queue (mfld m 16 2)).bytesSent, entriesSent := (a.queue (mfld m 16 2)).entriesSent }) ∧
  Declines .qUnbind .pf [(16, 2)] (fun m a => mfld m 16 2 < 8192 ∧ (a.queue (mfld m 16 2)).holdsEntry = true) stBusy ∧
  Performs .qShaperSet .pf [(16, 2), (20, 8)] (fun m a => mfld m 16 2 < 8192 ∧ (a.queue (mfld m 16 2)).en = true ∧ mfld m 24 4 ≤ 1048575 ∧
      (mfld m 20 4 ≠ 0 → largestL (a.queue (mfld m 16 2)).egress ≤ mfld m 24 4))
    (fun m a x t => x = { fields := [(8, 8, nextRefill a)], block := none } ∧
      t = a.setQueue (mfld m 16 2) { a.queue (mfld m 16 2) with change := some (mfld m 20 4, mfld m 24 4) }) ∧
  Performs .qClassSet .pf [(16, 5), (24, 8)] (fun m a => mfld m 16 2 < 512 ∧ mfld m 18 2 < 82 ∧ mfld m 20 1 < 2 ∧ mfld m 28 4 ≤ 1048575 ∧
      (mfld m 24 4 ≠ 0 → largestL (mfld m 18 2) ≤ mfld m 28 4) ∧
      ((a.qclass (mfld m 16 2)).egress = mfld m 18 2 ∨ a.traf.queues.any (fun e => e.2.en && e.2.cls == mfld m 16 2) = false))
    (fun m a x t => x = { fields := [(8, 8, nextRefill a)], block := none } ∧ t = a.setClass (mfld m 16 2)
      { a.qclass (mfld m 16 2) with
        egress := mfld m 18 2, change := some (mfld m 20 1 == 1, mfld m 24 4, mfld m 28 4),
        tokens := if (a.qclass (mfld m 16 2)).egress = mfld m 18 2 then (a.qclass (mfld m 16 2)).tokens else 256 * mfld m 28 4 }) ∧
  Performs .policerSet .pf [(16, 12)] (fun m a => mfld m 17 1 < 2 ∧ mfld m 24 4 ≤ 1048575 ∧
      ((mfld m 16 1 = 0 ∧ mfld m 18 2 < 8192 ∧ (Tab.get Stream.reset a.rad.streams (mfld m 18 2)).record ≠ [] ∧
          fld (Tab.get Stream.reset a.rad.streams (mfld m 18 2)).record 1 1 = 0) ∨ (mfld m 16 1 = 1 ∧ mfld m 18 2 < 16384)))
    (fun m a x t => let k := if mfld m 16 1 = 0 then mfld m 18 2 else 8192 + mfld m 18 2;
      x = { fields := [(8, 8, nextRefill a)], block := none } ∧ t = a.setPolicer k
        { Tab.get Policer.reset a.traf.policers k with change := some (bitAt (mfld m 17 1) 0, mfld m 20 4, mfld m 24 4) }) ∧
  Performs .stippleConfig .pf [(16, 7), (24, 8)] (fun m a => mfld m 16 1 < 2 ∧ 10 ≤ mfld m 17 1 ∧ mfld m 17 1 ≤ 27 ∧ mfld m 20 2 ≠ 0 ∧
      mfld m 18 2 + mfld m 20 2 ≤ 8192 ∧ 16 ≤ mfld m 22 1 ∧ mfld m 22 1 ≤ 30 ∧ mfld m 24 8 % 65536 = 0 ∧
      mfld m 24 8 + 2 ^ mfld m 22 1 ≤ hbmEnd ∧
      (∀ i < 2 ^ mfld m 22 1 / 65536, (a.mem.frame (mfld m 24 8 / 65536 + i)).owner = 0) ∧
      3 * ceilDiv (32 + 8 * mfld m 20 2) 64 ≤ 2 * 2 ^ mfld m 17 1)
    (fun m a x t => x = Result.none ∧ t = { a with traf := { a.traf with stipple :=
      { en := mfld m 16 1 == 1, n := mfld m 17 1, first := mfld m 18 2, count := mfld m 20 2, base := mfld m 24 8,
        size := 2 ^ mfld m 22 1, wp := 0, rp := 0, seq := 0, lost := 0, used := 0, last := none } } }) ∧
  Performs .qQuery .own [(16, 2)] (fun m a => mfld m 16 2 < 8192 ∧
      (issuer m = 0 ∨ ((a.queue (mfld m 16 2)).en = true ∧ (a.queue (mfld m 16 2)).fn = issuer m)))
    (fun m a x t => let q := a.queue (mfld m 16 2); t = a ∧ x.fields = [] ∧ x.block = some (itemsBlock
      [qStateReg a (mfld m 16 2), q.depth, q.holDelay a.now, q.tokens, if q.cls = 0xFFFF then 0 else (a.qclass q.cls).tokens,
       (tagHead a q).tagS, (tagHead a q).tagF, a.vtime q.egress q.level])) ∧
  Performs .qRingSet .own [(16, 4), (24, 36)] (fun m a => let r := (mbytes m).drop 16; let q := a.queue (fld r 0 2); fld r 0 2 < 8192 ∧
      q.en = true ∧ q.fn = issuer m ∧ fld r 2 1 < 2 ∧ 6 ≤ fld r 3 1 ∧ fld r 3 1 ≤ 16 ∧
      fld r 8 8 % 4096 = 0 ∧ fld r 16 8 % 64 = 0 ∧ (fld r 2 1 = 1 → q.egress = 80) ∧
      ((fld r 24 8 = 0 ∧ fld r 32 4 = 0) ∨ (q.egress = 81 ∧ fld r 24 8 % 256 = 0 ∧ isPow2Between 16 28 (fld r 32 4) = true ∧
        targetOk a q (fld r 24 8) (fld r 32 4) = true)) ∧
      (fld r 36 2 ≠ 0xFFFF → fld r 36 2 < (a.fn q.fn).vectors) ∧ q.holdsEntry = false)
    (fun m a x t => let r := (mbytes m).drop 16; x = Result.none ∧ t = a.setQueue (fld r 0 2) { a.queue (fld r 0 2) with
      hasRing := true, producer := fld r 2 1, logSlots := fld r 3 1, ring := fld r 8 8, index := fld r 16 8, land := fld r 24 8,
      landSize := fld r 32 4, vector := fld r 36 2, coalCount := fld r 38 2, coalTime := fld r 40 4, pi := 0, ci := 0, error := 0,
      fetchAt := 0, fetchTag := none, descs := [], records := [], unsignalled := 0, counted := [], completedSince := false, indexDue := false })

/-- The egress schedulers, the shapers and the sampler (R404 to R411, R415, R416). Where the rules leave a choice it states the model's, log entries 19 and 75. -/
def Obligations.SchedulersShapersAndSampler : Prop :=
  (∀ (s : State) (e : BitVec 7), (radioFirst s e.toNat = true ∨ ptpWaits s e.toNat = true) →
    Sys2Proof.Machine.exec (.egressDecision e) s = .next s) ∧
  (∀ (s : State) (e : BitVec 7), radioFirst s e.toNat = false → 8 ≤ e.toNat → e.toNat < 80 → s.flt.fenced = true →
    ∃ t, Sys2Proof.Machine.exec (.egressDecision e) s = .next t ∧ t = { s with traf := { s.traf with queues := t.traf.queues } } ∧
      (Tab.wf Queue.reset s.traf.queues = true → ∀ h, (s.queue h).egress = e.toNat → (s.queue h).en = true → ∀ d ∈ (t.queue h).descs,
        d.phase ≠ 0) ∧
      (Tab.wf Queue.reset s.traf.queues = true → ∀ h, (s.queue h).egress ≠ e.toNat → t.queue h = s.queue h)) ∧
  (∀ (s : State) (e : BitVec 7), radioFirst s e.toNat = false → ptpWaits s e.toNat = false →
      (e.toNat < 8 ∨ 80 ≤ e.toNat ∨ s.flt.fenced = false) →
    let v := atDecision e.toNat s
    let c := pickRival v (egressRivals v e.toNat)
    ((c = none ∨ ∃ r, c = some r ∧ r.fetch = true) → Sys2Proof.Machine.exec (.egressDecision e) s = .next v) ∧
      (∀ (r : Rival) (h l : Nat) (u : State), c = some r → r.fetch = false → h = r.hq → l = (v.queue h).headL.getD 0 →
        (8 ≤ e.toNat → e.toNat < 80 → writeStatus v (v.queue h) = stOk) → serveHead h v = (true, u) →
        ∃ t, Sys2Proof.Machine.exec (.egressDecision e) s = .next t ∧ t = { u with traf := t.traf } ∧
          (t.queue h).tokens = (u.queue h).tokens - 256 * l ∧ (t.queue h).fPrev = (u.queue h).tagF ∧
          t.vtime (u.queue h).egress (u.queue h).level = (u.queue h).tagF ∧ (t.queue h).bytesSent = satAdd (u.queue h).bytesSent l ∧
          (t.queue h).entriesSent = satInc (u.queue h).entriesSent ∧ (∀ k, k ≠ h → t.queue k = u.queue k)) ∧
      (∀ (r : Rival) (u : State), c = some r → r.fetch = false → (e.toNat < 8 ∨ 80 ≤ e.toNat) → serveHead r.hq v = (false, u) →
        Sys2Proof.Machine.exec (.egressDecision e) s = .next (passQueue r.hq u)) ∧
      (∀ (r : Rival) (i : Nat), c = some r → r.fetch = false → 8 ≤ e.toNat → e.toNat < 80 → writeStatus v (v.queue r.hq) ≠ stOk →
        (v.queue r.hq).descs.findIdx? (·.phase == 0) = some i →
        Sys2Proof.Machine.exec (.egressDecision e) s = .next (passQueue r.hq (v.setQueue r.hq { v.queue r.hq with
          descs := (v.queue r.hq).descs.modify i fun d => { d with phase := 2, status := writeStatus v (v.queue r.hq) } })))) ∧
  (∀ s : State, (s.now % 1024 ≠ 0 ∨ s.traf.lastRefill = some s.now) → Sys2Proof.Machine.exec .shaperRefill s = .next s) ∧
  (∀ s : State, s.now % 1024 = 0 → s.traf.lastRefill ≠ some s.now → Tab.wf Queue.reset s.traf.queues = true →
    Tab.wf QClass.reset s.traf.classes = true → Tab.wf Policer.reset s.traf.policers = true →
    ∃ t, Sys2Proof.Machine.exec .shaperRefill s = .next t ∧ t = { s with traf := { s.traf with
        queues := t.traf.queues, classes := t.traf.classes, policers := t.traf.policers, lastRefill := some s.now } } ∧
      (∀ e ∈ s.traf.queues, (t.queue e.1).change = none ∧ (∀ r b, e.2.change = some (r, b) →
          (t.queue e.1).rate = r ∧ (t.queue e.1).burst = b ∧ (t.queue e.1).tokens = refilled e.2.tokens b r) ∧
        (e.2.change = none → (t.queue e.1).rate = e.2.rate ∧ (t.queue e.1).burst = e.2.burst ∧
          (t.queue e.1).tokens = refilled e.2.tokens e.2.burst e.2.rate)) ∧
      (∀ e ∈ s.traf.classes, t.qclass e.1 = refillClass e.2) ∧
      (∀ e ∈ s.traf.policers, Tab.get Policer.reset t.traf.policers e.1 = refillPolicer e.2)) ∧
  (∀ s : State, (s.traf.stipple.en = false ∨ s.now % (16 * 2 ^ s.traf.stipple.n) ≠ 0 ∨ s.traf.stipple.last = some s.now) →
    Sys2Proof.Machine.exec .stippleSample s = .next s) ∧
  (∀ (s : State) (p : Stipple) (len : Nat), p = s.traf.stipple → p.en = true → s.now % (16 * 2 ^ p.n) = 0 →
    p.last ≠ some s.now → len = alignUp (32 + 8 * p.count) 64 →
    (p.size - p.used < len → Sys2Proof.Machine.exec .stippleSample s = .next { s with traf := { s.traf with
      cnt := bump s.traf.cnt 1, stipple := { p with seq := p.seq + 1, lost := p.lost + 1, last := some s.now } } }) ∧
    (len ≤ p.size - p.used → ∃ t, Sys2Proof.Machine.exec .stippleSample s = .next t ∧
      t.traf.stipple =
        { p with wp := (p.wp + len) % p.size, seq := p.seq + 1, lost := 0, used := p.used + len, last := some s.now } ∧
      Tab.get 0 t.traf.cnt 0 = satInc (Tab.get 0 s.traf.cnt 0) ∧ ∃ bytes : List Byte, bytes.length = len ∧
        t = { memWrite p.base (bytes.drop (p.size - p.wp)) (memWrite (p.base + p.wp) (bytes.take (p.size - p.wp)) s) with
          traf := t.traf }))

/-- Doorbells, descriptor fetches, coalescing and translations (R426, R427, R430 to R433, R435). Where the rules leave a choice it states the model's, log entries 15, 16 and 20. -/
def Obligations.DoorbellsAndDescriptorFetch : Prop :=
  (∀ (s : State) (fn : BitVec 8) (hq : BitVec 13) (v : BitVec 32) (q : Queue), q = s.queue hq.toNat → (s.fn fn.toNat).state = 1 →
    ((q.en = false ∨ q.fn ≠ fn.toNat) → Sys2Proof.Machine.exec (.qDoorbell fn hq v) s = .next (hifCount 1
      (s.setFn fn.toNat { s.fn fn.toNat with err := (s.fn fn.toNat).err ||| 16 }))) ∧
    (q.en = true → q.fn = fn.toNat → (q.hasRing = false ∨ q.error ≠ 0 ∨ replaysCtx s fn.toNat = true) →
      Sys2Proof.Machine.exec (.qDoorbell fn hq v) s = .next s) ∧
    (q.en = true → q.fn = fn.toNat → q.hasRing = true → q.error = 0 → replaysCtx s fn.toNat = false →
      (q.producer = 0 → (v - q.pi).toNat ≤ 2 ^ q.logSlots → (v - q.ci).toNat ≤ 2 ^ q.logSlots →
        Sys2Proof.Machine.exec (.qDoorbell fn hq v) s = .next (s.setQueue hq.toNat { q with
          pi := v, completedSince := false, counted := if v = q.pi then q.counted else q.counted ++ [((v - q.pi).toNat, s.now)] })) ∧
      (q.producer ≠ 0 → (v - q.ci).toNat ≤ 2 ^ q.logSlots → (q.pi - v).toNat ≤ 2 ^ q.logSlots →
        Sys2Proof.Machine.exec (.qDoorbell fn hq v) s = .next (s.setQueue hq.toNat { q with
          ci := v, completedSince := false, counted := popCounted (v - q.ci).toNat q.counted })) ∧
      ((q.producer = 0 ∧ (2 ^ q.logSlots < (v - q.pi).toNat ∨ 2 ^ q.logSlots < (v - q.ci).toNat) ∨
        q.producer ≠ 0 ∧ (2 ^ q.logSlots < (v - q.ci).toNat ∨ 2 ^ q.logSlots < (q.pi - v).toNat)) →
        ∃ t, Sys2Proof.Machine.exec (.qDoorbell fn hq v) s = .next t ∧ (t.queue hq.toNat).error = BitVec.ofNat 16 stBadParam ∧
          (t.fn fn.toNat).err.getLsbD 0 = true))) ∧
  (∀ (s v : State) (hq : BitVec 13) (f : FetchedSlot) (q : Queue), v = tagEgress 81 s → q = v.queue hq.toNat → mayFetch v q = true →
    (s.fn q.fn).atsEn = false →
    ((winner81 v).map (fun r => (r.hq, r.fetch)) = some (hq.toNat, true) →
      ∃ t d, Sys2Proof.Machine.exec (.descriptorFetch hq [f]) s = .next t ∧ (t.queue hq.toNat).descs = q.descs ++ [d] ∧
        d.index = q.fetchAt ∧ d.op = f.raw.toNat % 256 ∧ d.len = f.raw.toNat / 2 ^ 32 % 2 ^ 32 ∧
        (t.queue hq.toNat).fetchAt = (q.fetchAt + 1) % 2 ^ 32 ∧
        t.vtime 81 q.level = (q.fetchTag.getD (0, 0)).1 + ceilDiv ((64 + d.payload.length) * 65536) q.weight ∧
        (∀ k, k ≠ hq.toNat → t.queue k = v.queue k) ∧ t.mem = s.mem) ∧
    ((winner81 v).map (fun r => (r.hq, r.fetch)) ≠ some (hq.toNat, true) →
      Sys2Proof.Machine.exec (.descriptorFetch hq [f]) s = .next v)) ∧
  (∀ (s : State) (hq : BitVec 13) (slots : List FetchedSlot) (q : Queue), q = s.queue hq.toNat → Tab.wf Queue.reset s.traf.queues = true →
    (q.en = false ∨ q.hasRing = false ∨ q.producer ≠ 0 ∨ q.error ≠ 0 ∨ (s.fn q.fn).state ≠ 1 ∨ replaysCtx s q.fn = true ∨
      q.fetchAt = q.pi.toNat ∨ 8 < q.fetchAhead) →
    Sys2Proof.Machine.exec (.descriptorFetch hq slots) s = .next s) ∧
  (∀ (s : State) (hq : BitVec 13) (q : Queue), q = s.queue hq.toNat →
    (s.now % 1024 = 0 → q.en = true → q.coalTime ≠ 0 → 0 < q.unsignalled → q.firstUnsignalled + 1024 * q.coalTime ≤ s.now →
      ∃ t, Sys2Proof.Machine.exec (.coalesceTimeout hq) s = .next t ∧ t.queue hq.toNat = { q with unsignalled := 0 } ∧
        (q.vector = 0xFFFF → t = s.setQueue hq.toNat { q with unsignalled := 0 }) ∧
        (q.vector ≠ 0xFFFF → t = raiseVector q.fn q.vector (s.setQueue hq.toNat { q with unsignalled := 0 }))) ∧
    ((s.now % 1024 ≠ 0 ∨ q.en = false ∨ q.coalTime = 0 ∨ q.unsignalled = 0 ∨ s.now < q.firstUnsignalled + 1024 * q.coalTime) →
      Sys2Proof.Machine.exec (.coalesceTimeout hq) s = .next s)) ∧
  (∀ (s : State) (fn : BitVec 8) (page : BitVec 52), ∃ t, Sys2Proof.Machine.exec (.atsInvalidate fn page) s = .next t ∧
    t.host.atc = s.host.atc.filter (fun e => e.fn != fn.toNat || e.page != page.toNat) ∧
    (s.host.invPending = [] → s.host.reads = [] → (∀ e ∈ s.traf.queues, e.2.indexDue = false) →
      t = { s with out := .atsInvalidated fn.toNat page.toNat :: s.out, host := { s.host with atc := t.host.atc } })) ∧
  (∀ (s : State) (fn : BitVec 8) (page phys : BitVec 52) (rd wr : Bool),
    (s.host.atsPending.contains (fn.toNat, page.toNat) = false →
      Sys2Proof.Machine.exec (.atsTranslationCompletion fn page phys rd wr) s = .next s) ∧
    (s.host.atsPending.contains (fn.toNat, page.toNat) = true → (s.host.atc.filter (·.fn == fn.toNat)).length < (s.fn fn.toNat).atcShare →
      let u : State := { s with host := { s.host with
        atsPending := s.host.atsPending.erase (fn.toNat, page.toNat),
        atc := s.host.atc ++ [{ fn := fn.toNat, page := page.toNat, phys := phys.toNat, read := rd, write := wr }] } }
      let denied := (rd = false ∧ wr = false) ∨
        ∃ e ∈ s.traf.queues, e.2.en = true ∧ e.2.fn = fn.toNat ∧ ∃ d ∈ e.2.descs, lacks page.toNat rd wr d = true
      (¬ denied → Sys2Proof.Machine.exec (.atsTranslationCompletion fn page phys rd wr) s = .next (askDueIndices (writeDueIndices fn.toNat page.toNat u))) ∧
      (denied → Sys2Proof.Machine.exec (.atsTranslationCompletion fn page phys rd wr) s =
        .next (askDueIndices (writeDueIndices fn.toNat page.toNat (atsFault fn.toNat (failPage fn.toNat page.toNat rd wr u))))))) ∧
  (∀ (s : State) (fn page : Nat), ((atsFault fn s).fn fn).err.getLsbD 1 = true ∧ (atsFault fn s).mem = s.mem ∧
    ((∀ e ∈ s.traf.queues, e.2.indexDue = false) → writeDueIndices fn page s = s ∧ askDueIndices s = s))

/-- Host descriptors (R425, R427, R428, R432, R433). Where the rules leave a choice it states the model's, log entries 10, 16 and 20. -/
def Obligations.HostDescriptorsRunAndComplete : Prop :=
  (∀ (s : State) (hq : BitVec 13) (index : BitVec 32) (d : QDesc) (q : Queue), q = s.queue hq.toNat →
    findDesc s hq.toNat index.toNat = some d → (s.fn q.fn).atsEn = false →
    (d.op = 1 → d.phase < 2 → q.error = 0 → d.asked = 0 → 0 < d.served → d.host % 4096 + d.served ≤ 4096 → nonPosted s < 1024 →
      Sys2Proof.Machine.exec (.descToDevice hq index) s = .next (updDesc hq.toNat d.index (fun e => { e with asked := d.served })
        { s with
          out := .hostRead q.fn d.host d.served :: s.out,
          host := { s.host with
            reads := s.host.reads ++ [⟨q.fn, hq.toNat, d.index, d.host, d.served, d.target⟩] } })) ∧
    (d.op = 2 → d.phase < 2 → q.error = 0 → d.asked = 0 → 0 < d.served → d.host % 4096 + d.served ≤ 4096 → nonPosted s < 1024 →
      (fld (memRead 257 q.land 4 s).1.bytes 0 4 + 8) % (q.landSize - 64) + d.served ≤ q.landSize - 64 →
      q.descs.any (fun e => e.op == 2 && e.asked != 0 && e.index != d.index && decide (e.phase < 2)) = false →
      ∃ t, Sys2Proof.Machine.exec (.descMessage hq index) s = .next t ∧ t.out = .hostRead q.fn d.host d.served :: s.out ∧
        t.mem = s.mem ∧ t.host.reads = s.host.reads ++
          [⟨q.fn, hq.toNat, d.index, d.host, d.served, q.land + 64 +
            (fld (memRead 257 q.land 4 s).1.bytes 0 4 + 8) % (q.landSize - 64)⟩] ∧
        (∀ e ∈ (t.queue hq.toNat).descs, e.index = d.index → e.asked = d.served ∧
          e.landAt = fld (memRead 257 q.land 4 s).1.bytes 0 4)) ∧
    (d.op = 3 → d.phase = 1 → q.error = 0 → d.asked = 0 → targetOk s q d.target d.len = true → d.len ≤ 512 → 0 < d.len →
      d.host % 4096 + d.len ≤ 4096 → (s.fn q.fn).state = 1 →
      (memRead q.fn d.target d.len s).1.poison = false →
      ∃ t, Sys2Proof.Machine.exec (.descToHost hq index) s = .next t ∧
        t = updDesc hq.toNat d.index (fun e => { e with asked := d.len, phase := 2 }) (emit (.hostWrite q.fn d.host
          (((memRead q.fn d.target d.len s).1.bytes.drop 0).take d.len) (s.mem.mem.poisonAt d.target d.len))
          (memRead q.fn d.target d.len s).2)) ∧
    (d.op = 3 → d.phase = 1 → q.error = 0 → targetOk s q d.target d.len = false → Sys2Proof.Machine.exec (.descToHost hq index) s =
      .next (updDesc hq.toNat d.index (fun e => { e with phase := 2, status := stBadParam }) s)) ∧
    (d.op = 4 → d.phase = 1 → d.payload.length ≤ 2044 → Sys2Proof.Machine.exec (.descFrame hq index) s =
      .next (updDesc hq.toNat d.index (fun e => { e with phase := 2 }) (portCount q.egress 8
        { s with out := .fhFrame q.egress (wireFrame d.payload) :: s.out }))) ∧
    (d.op = 4 → d.phase = 1 → 2044 < d.payload.length → Sys2Proof.Machine.exec (.descFrame hq index) s =
      .next (updDesc hq.toNat d.index (fun e => { e with phase := 2 }) (portCount q.egress 11 s)))) ∧
  (∀ (s : State) (hq : BitVec 13) (index : BitVec 32), (∀ d, findDesc s hq.toNat index.toNat = some d → d.phase ≠ 1) →
    Sys2Proof.Machine.exec (.descToHost hq index) s = .next s ∧ Sys2Proof.Machine.exec (.descFrame hq index) s = .next s) ∧
  (∀ (s : State) (hq : BitVec 13) (index : BitVec 32) (addr : BitVec 64) (b : List (BitVec 8)) (r : HostReadReq) (d : QDesc),
    s.host.reads = [r] → s.host.invPending = [] → r.hq = hq.toNat → r.index = index.toNat → r.addr = addr.toNat →
    (s.fn r.fn).state = 1 → findDesc s hq.toNat index.toNat = some d → d.op = 1 → d.phase = 1 → d.len ≤ d.asked →
    (s.queue hq.toNat).error = 0 → targetOk s (s.queue hq.toNat) r.target r.len = true →
    recordsCtx s (if (s.queue hq.toNat).ran then 256 else r.fn) = false → (∀ e ∈ s.traf.queues, e.2.indexDue = false) →
    ∃ t u v, Sys2Proof.Machine.exec (.dmaReadCompletion hq index addr (.ok b)) s = .next t ∧
      v = { s with host := { s.host with reads := [] } } ∧
      u = memWrite r.target (b.take r.len) (stall (holderOf v r.target) r.target r.len v) ∧
      t = u.setQueue hq.toNat ((u.queue hq.toNat).withDescs ((u.queue hq.toNat).descs.map fun e =>
        if e.index = index.toNat then { e with status := firstStatus e.status stOk, phase := 2 } else e))) ∧
  (∀ (s : State) (hq : BitVec 13) (index : BitVec 32) (d : QDesc) (rest : List QDesc) (q : Queue), q = s.queue hq.toNat →
    q.descs = d :: rest → (∀ e ∈ rest, e.phase < 3 ∧ e.index ≠ d.index) → d.index = index.toNat → d.phase = 2 → q.error = 0 →
    (s.fn q.fn).state = 1 → (s.fn q.fn).atsEn = false → q.ring % 64 = 0 →
    ∃ t bytes, Sys2Proof.Machine.exec (.descriptorComplete hq index) s = .next t ∧ bytes.length = 16 ∧
      fld bytes 0 2 = d.status % 65536 ∧ fld bytes 2 1 = (d.index / 2 ^ q.logSlots + 1) % 2 ∧ fld bytes 8 8 = s.now % 2 ^ 64 ∧
      Output.hostWrite q.fn (q.ring + 64 * (d.index % 2 ^ q.logSlots) + 48) bytes false ∈ t.out ∧
      (t.queue hq.toNat).ci = q.ci + 1 ∧ (t.queue hq.toNat).descs = rest ∧ t.mem = s.mem ∧
      (∀ k, k ≠ hq.toNat → t.queue k = s.queue k)) ∧
  (∀ (s : State) (hq : BitVec 13) (index : BitVec 32), (∀ d, findDesc s hq.toNat index.toNat = some d → d.phase ≠ 2) →
    Sys2Proof.Machine.exec (.descriptorComplete hq index) s = .next s)

/-- The plate commands (R38, R50, R57, R58, R60, R61, R601). Where the rules leave a choice it states the model's, log entries 24, 25, 26 and 32. -/
def Obligations.PlateCommandsPerform : Prop :=
  Performs .plateLoad .own [(16, 8), (24, 4), (28, 1), (32, 32)] (fun m a =>
      let p := plateOf (sliceBytes (mdata m) 0 (mfld m 24 4)) (mfld m 28 1)
      128 ≤ mfld m 24 4 ∧ mfld m 24 4 ≤ 0x10000000 ∧ (a.fn (mfld m 28 1)).state = 1 ∧ (issuer m = 0 ∨ mfld m 28 1 = issuer m) ∧
      checkImage (sliceBytes (mdata m) 0 (mfld m 24 4)) (mfld m 28 1) (sliceBytes (mbytes m) 32 32) = stOk ∧
      (plateList a).length < 512 ∧ ((plateList a).map fun q => reserveBytes q.2).sum + reserveBytes p ≤ 0x10000000 ∧
      (p.kind = 2 → overQuota a (mfld m 28 1) 0 (alignUp (mfld m 24 4) 65536) = false))
    (fun m a x t => let p := plateOf (sliceBytes (mdata m) 0 (mfld m 24 4)) (mfld m 28 1)
      let frames := (reserveFrames a).take (reserveBytes p / 65536)
      x = { fields := [(8, 2, freeHandle a)], block := none } ∧ t.plate (freeHandle a) = some { p with frames := frames } ∧
      (∀ k, k ≠ freeHandle a → t.plate k = a.plate k) ∧ t.plates.nextHandle = freeHandle a % 65535 + 1 ∧
      (p.kind = 2 → frames = [] ∧ t.mem.mem = a.mem.mem ∧
        (t.quota (mfld m 28 1) 0).usage = (a.quota (mfld m 28 1) 0).usage + alignUp (mfld m 24 4) 65536) ∧
      (p.kind ≠ 2 → t.mem = (copyImage (sliceBytes (mdata m) 0 (mfld m 24 4)) frames a).mem) ∧
      t = { a with plates := { a.plates with store := t.plates.store, nextHandle := t.plates.nextHandle,
                                             retired := Tab.set 0 a.plates.retired (freeHandle a) 0 }, mem := t.mem }) ∧
  Performs .plateAdmit .own [(16, 2), (24, 8)] (fun m a => ∃ h p, namedPlate m a = some (h, p) ∧ p.state = 0 ∧
      (mfld m 24 8 = 0 ∨ a.epochNow + 2 ≤ mfld m 24 8) ∧
      (p.kind = 1 → (plateList a).any (fun q => q.2.kind == 1 && q.2.admitted) = false) ∧
      (p.isRan = true ∨ a.flt.probation = false) ∧
      (let lower := max (if mfld m 24 8 = 0 then a.epochNow + 2 else mfld m 24 8)
        (if p.kind = 1 then clearedEpoch a (changingEpochs p.claims []) else 0)
       admissionCheck a h (if mfld m 24 8 = 0 then earliestEpoch a h lower p else lower) p none = none))
    (fun m a x t => ∀ h p, namedPlate m a = some (h, p) →
      let lower := max (if mfld m 24 8 = 0 then a.epochNow + 2 else mfld m 24 8)
        (if p.kind = 1 then clearedEpoch a (changingEpochs p.claims []) else 0)
      let first := if mfld m 24 8 = 0 then earliestEpoch a h lower p else lower
      x = { fields := [(8, 8, first)], block := none } ∧ t = admitPlate h first p [] a ∧
      t.plate h = some { p with state := 1, firstEpoch := first } ∧ (∀ k, k ≠ h → t.plate k = a.plate k)) ∧
  Performs .plateStart .own [(16, 3), (20, 2), (24, 16)] (fun m a => ∃ h p, namedPlate m a = some (h, p) ∧ p.kind ≠ 1 ∧
      ((mfld m 18 1 = 0 ∧ mfld m 20 2 = 0) ∨ (mfld m 18 1 = 1 ∧ (Tab.get none a.fab.groups (mfld m 20 2)).map Group.owner = some p.owner)) ∧
      ((p.state = 1 ∧ p.startPending = false) ∨ (p.state = 2 ∧ p.held = true)) ∧ (p.isRan = true ∨ a.flt.probation = false) ∧
      (p.kind = 2 → saveAreaOk a p = true))
    (fun m a x t => ∀ h p, namedPlate m a = some (h, p) →
      let p' := { p with held := false, startPending := true, mode := mfld m 18 1, group := mfld m 20 2, launch := mfld m 32 8,
                         accepted := a.now, nextImp := mfld m 24 8 }
      x = { fields := [(8, 8, firstWindow p' (max (mfld m 32 8) a.now))], block := none } ∧ t = a.setPlate h (some p')) ∧
  Performs .plateSwap .pf [(16, 2), (24, 8)] (fun m a => ∃ h p oh old, namedPlate m a = some (h, p) ∧ p.state = 0 ∧ p.kind = 1 ∧
      (mfld m 24 8 = 0 ∨ a.epochNow + 2 ≤ mfld m 24 8) ∧ a.plates.swap = none ∧ oh ≠ h ∧
      (plateList a).find? (fun q => q.2.kind == 1 && (q.2.state == 1 || q.2.state == 2)) = some (oh, old) ∧
      admissionCheck a h (max (max (if mfld m 24 8 = 0 then a.epochNow + 2 else mfld m 24 8) old.firstEpoch)
        (clearedEpoch a (changingEpochs p.claims old.claims))) p (some oh) = none)
    (fun m a x t => ∀ h p oh old, namedPlate m a = some (h, p) →
      (plateList a).find? (fun q => q.2.kind == 1 && (q.2.state == 1 || q.2.state == 2)) = some (oh, old) → oh ≠ h →
      let first := max (max (if mfld m 24 8 = 0 then a.epochNow + 2 else mfld m 24 8) old.firstEpoch)
        (clearedEpoch a (changingEpochs p.claims old.claims))
      x = { fields := [(8, 8, first)], block := none } ∧ t.plates.swap = some (h, first) ∧
      t.plate h = some { p with state := 1, firstEpoch := first } ∧ t.plate oh = some { old with retireEpoch := some first } ∧
      (∀ k, k ≠ h → k ≠ oh → t.plate k = a.plate k)) ∧
  Performs .plateRetire .own [(16, 2), (24, 8)] (fun m a => ∃ h p, namedPlate m a = some (h, p) ∧
      (p.state ≠ 0 → p.kind = 1 → a.plates.swap = none))
    (fun m a x t => ∀ h p, namedPlate m a = some (h, p) →
      (p.state = 0 → x = { fields := [(8, 8, p.nextImp)], block := none } ∧ t.plate h = none ∧ (∀ k, k ≠ h → t.plate k = a.plate k) ∧
        (p.kind = 2 → (t.quota p.owner 0).usage = (a.quota p.owner 0).usage - alignUp p.image.length 65536)) ∧
      (p.state ≠ 0 → p.kind = 1 → let e := p.retireEpoch.getD (max (mfld m 24 8) (a.epochNow + 1))
        x = { fields := [(8, 8, e)], block := none } ∧ t = a.setPlate h (some { p with retireEpoch := some e })) ∧
      (p.state ≠ 0 → p.kind ≠ 1 → x = { fields := [(8, 8, (p.running.map Running.impression).max?.getD p.nextImp)], block := none } ∧
        (p.running ≠ [] → t = a.setPlate h (some { p with state := 3, startPending := false })) ∧
        (p.running = [] → t.plate h = none))) ∧
  Performs .plateQuery .own [(16, 2)] (fun m a => ∃ h p, namedPlate m a = some (h, p))
    (fun m a x t => t = a ∧ ∀ h p, namedPlate m a = some (h, p) → x = { fields := [(5, 1, p.state),
      (6, 1, bit p.held + 2 * bit p.startPending), (8, 8, p.nextImp), (16, 8, p.deferrals), (24, 8, p.overruns)], block := none }) ∧
  Declines .plateAdmit .own [(16, 2), (24, 8)] (fun m a => namedPlate m a = none) stBadParam ∧
  Declines .plateStart .own [(16, 3), (20, 2), (24, 16)] (fun m a => namedPlate m a = none ∧
    Tab.get 0 a.plates.retired (mfld m 16 2) ≠ issuer m + 1) stBadParam ∧
  Declines .plateStart .own [(16, 3), (20, 2), (24, 16)] (fun m a => namedPlate m a = none ∧
    Tab.get 0 a.plates.retired (mfld m 16 2) = issuer m + 1) stNotReady ∧
  Declines .plateSwap .pf [(16, 2), (24, 8)] (fun m a => namedPlate m a = none) stBadParam ∧
  Declines .plateRetire .own [(16, 2), (24, 8)] (fun m a => namedPlate m a = none) stBadParam ∧
  Declines .plateQuery .own [(16, 2)] (fun m a => namedPlate m a = none) stBadParam

/-- Windows, plate commands and impressions (R42, R52, R100, R601, R27). Where the rules leave a choice it states the model's, log entries 35 and 74. -/
def Obligations.WindowsAndImpressions : Prop :=
  (∀ (s : State) (h : BitVec 16) (w : BitVec 12),
    (s.plate h.toNat = none → Sys2Proof.Machine.exec (.windowStart h w) s = .next s ∧
      Sys2Proof.Machine.exec (.windowEnd h w) s = .next s ∧ Sys2Proof.Machine.exec (.plateCommandEnd h w) s = .next s ∧
      ∀ c i, Sys2Proof.Machine.exec (.impressionComplete h c i) s = .next s) ∧
    (∀ p, s.plate h.toNat = some p →
      ((∀ x ∈ p.windows, x.window ≠ w.toNat) → Sys2Proof.Machine.exec (.windowStart h w) s = .next s) ∧
      (∀ x rest, p.windows.filter (·.window == w.toNat) = x :: rest →
        ((s.now < x.start ∨ (s.now - x.start) % gridPeriod x.grid ≠ 0 ∨ Tab.get 0 p.seen w.toNat = s.now + 1) →
          Sys2Proof.Machine.exec (.windowStart h w) s = .next s) ∧
        (x.start ≤ s.now → (s.now - x.start) % gridPeriod x.grid = 0 → Tab.get 0 p.seen w.toNat ≠ s.now + 1 → p.kind ≠ 1 →
          ∀ u, u = s.setPlate h.toNat (some { p with seen := Tab.set 0 p.seen w.toNat (s.now + 1) }) →
          (s.now < p.firstEpoch * epochTicks + x.start → Sys2Proof.Machine.exec (.windowStart h w) s = .next u) ∧
          (p.firstEpoch * epochTicks + x.start ≤ s.now → p.state = 2 → p.held = false → p.startPending = false →
            s.clk.tier.toNat ≤ limitOf p u → (p.isRan = true ∨ (s.flt.probation = false ∧ ctxHeld s p.owner = false ∧
              (s.ctx p.owner).state = 1)) → (∀ r ∈ p.running, r.ended = true ∨ (r.hold ≠ 2 ∧ r.hold ≠ 3)) → (s.ctx p.owner).state ≠ 4 →
            Sys2Proof.Machine.exec (.windowStart h w) s = .next (beginOccurrence h.toNat w.toNat s.now (u.setPlate h.toNat (some
              { p with
                seen := Tab.set 0 p.seen w.toNat (s.now + 1)
                running := p.running ++ [{ window := x.window, variant := 0, cell := x.cell, start := s.now, slot := s.now - x.start,
                                           winStart := s.now, impression := p.nextImp + p.running.length, status := stOk,
                                           overrun := false, record := x.entry, next := 0, begun := false, hold := 0,
                                           ended := false }] })))))) ∧
      (∀ x, p.windows.find? (·.window == w.toNat) = some x →
        ((∀ r ∈ p.running, r.window ≠ w.toNat ∨ r.winStart + x.length ≠ s.now ∨ r.ended = true ∨ r.overrun = true) →
          Sys2Proof.Machine.exec (.windowEnd h w) s = .next s) ∧
        (∀ r ∈ p.running, r.window = w.toNat → r.winStart + x.length = s.now → r.ended = false → r.overrun = false → r.hold < 2 →
          (p.isRan = true ∨ (s.ctx p.owner).state ≠ 4) →
          ∃ t q, Sys2Proof.Machine.exec (.windowEnd h w) s = .next t ∧ t.plate h.toNat = some q ∧ q.overruns = satNat 64 p.overruns 1 ∧
            { r with overrun := true } ∈ q.running ∧ q = { p with overruns := q.overruns, running := q.running } ∧
            (∀ k, k ≠ h.toNat → t.plate k = s.plate k))) ∧
      (p.running.find? (fun r => r.window == w.toNat && r.begun && !r.ended) = none →
        Sys2Proof.Machine.exec (.plateCommandEnd h w) s = .next s) ∧
      (∀ r, p.running.find? (fun r => r.window == w.toNat && r.begun && !r.ended) = some r →
        (commandEnded s (readStart p.prog r.record) = false → Sys2Proof.Machine.exec (.plateCommandEnd h w) s = .next s) ∧
        (commandEnded s (readStart p.prog r.record) = true →
          (∀ k ∈ recordCores (readStart p.prog r.record), ∃ l, (s.coreAt k).live = some l ∧ l.plate = h.toNat ∧ l.start = r.start ∧
            l.window = r.window) →
          ∀ u, u = resumeGroups (retryHeld (afterCommand h.toNat p r (commandStatus s (readStart p.prog r.record))
            ((recordCores (readStart p.prog r.record)).foldl (fun s k => s.setCore k { s.coreAt k with live := none }) s))) →
          Sys2Proof.Machine.exec (.plateCommandEnd h w) s = .next (if p.isRan then u else thatchGo (settleStop p.owner u)))) ∧
      (p.kind ≠ 1 → ∀ (c : BitVec 9) (i : BitVec 64),
        ((∀ r ∈ p.running, r.impression ≠ i.toNat ∨ r.ended = false) → Sys2Proof.Machine.exec (.impressionComplete h c i) s = .next s) ∧
        (∀ r, p.running = [r] → r.impression = i.toNat → r.ended = true → (r.status = stOk ∨ r.status = stPoison) →
          p.state = 2 → plateQueues s h.toNat = [] → s.schedule h.toNat r.start = none → (s.ctx p.owner).state ≠ 2 →
          Sys2Proof.Machine.exec (.impressionComplete h c i) s = .next (thatchGo (settleIdle p.owner (s.setPlate h.toNat (some { p with
            running := [], nextImp := (p.nextImp + 1) % 2 ^ 64 })))))) ∧
      (p.kind = 1 → ∀ (c : BitVec 9) (i : BitVec 64),
        ((∀ r ∈ p.running, r.cell = c.toNat → r.impression = i.toNat → r.ended = false) →
          Sys2Proof.Machine.exec (.impressionComplete h c i) s = .next s) ∧
        (∀ r, p.running = [r] → r.cell = c.toNat → r.impression = i.toNat → r.ended = true →
          (∀ x ∈ p.windows, x.cell = c.toNat → r.slot + x.start % (s.cell c.toNat).slotTicks ≤ s.now) → r.slot ≤ s.now →
          Sys2Proof.Machine.exec (.impressionComplete h c i) s = .next (settleRan h.toNat s.epochNow (closeSlot c.toNat i.toNat
            (s.setPlate h.toNat (some { p with running := [] })))))))) ∧
  (∀ (s : State) (kind : BitVec 2) (index : BitVec 11),
    (s.plates.clearing.find? (fun c => c.kind == kind.toNat && c.index == index.toNat) = none →
      Sys2Proof.Machine.exec (.partitionClearDone kind index) s = .next s) ∧
    (∀ c, s.plates.clearing.find? (fun c => c.kind == kind.toNat && c.index == index.toNat) = some c →
      (c.kind = 1 → (s.coreAt c.index).live.isSome = true → Sys2Proof.Machine.exec (.partitionClearDone kind index) s = .next s) ∧
      ((c.kind ≠ 1 ∨ (s.coreAt c.index).live = none) → Sys2Proof.Machine.exec (.partitionClearDone kind index) s =
        .next (clearResource c { s with plates := { s.plates with clearing := s.plates.clearing.erase c } }))))

/-- Epoch boundaries and the governor's plan (R21, R53, R540 to R542). Where the rules leave a choice it states the model's, log entries 28 and 35. -/
def Obligations.EpochsAndTheGovernor : Prop :=
  (∀ s : State, s.now % epochTicks ≠ 0 → Sys2Proof.Machine.exec .epochBoundary s = .next s ∧
    Sys2Proof.Machine.exec .governorPlan s = .next s) ∧
  (∀ s : State, s.now % epochTicks = 0 → ∃ t, Sys2Proof.Machine.exec .epochBoundary s = .next t ∧ t.clk.ridge = s.clk.ridge ∧
    t.clk.tier = (if s.dev.pwr.planned = some s.epochNow then s.dev.pwr.nextTier else s.clk.tier) ∧
    t.dev.pwr.valve = (if s.dev.pwr.tripOn then s.dev.pwr.valve else BitVec.ofNat 11 s.dev.pwr.coolant.valveDuty) ∧
    (∀ h, s.plates.swap = some (h, s.epochNow) → t.plates.swap = none)) ∧
  (∀ s : State, (s.dev.hbmReady = false ∨ s.dev.pwr.planned = some (s.epochNow + 1)) →
    Sys2Proof.Machine.exec .governorPlan s = .next s) ∧
  (∀ s : State, s.now % epochTicks = 0 → s.dev.hbmReady = true → s.dev.pwr.planned ≠ some (s.epochNow + 1) →
    ∃ t, Sys2Proof.Machine.exec .governorPlan s = .next t ∧ t = { s with dev := t.dev, free := t.free } ∧
      t.dev.pwr.planned = some (s.epochNow + 1) ∧ t.dev.pwr.nextTier.toNat ≤ ranLimit s (s.epochNow + 1) ∧
      (ranLimit s (s.epochNow + 1) < 4 → (s.dev.pwr.tripOn = true ∨ s.dev.pwr.thermIn.fault = true ∨ s.dev.pwr.thermOut.fault = true) →
        t.dev.pwr.nextTier.toNat = ranLimit s (s.epochNow + 1)) ∧
      (s.dev.pwr.govNew = none → s.dev.pwr.gov.fixed = true → s.dev.pwr.gov.fixedTier < 4 → s.dev.pwr.tripOn = false →
        s.dev.pwr.thermIn.fault = false → s.dev.pwr.thermOut.fault = false →
        t.dev.pwr.nextTier.toNat = min s.dev.pwr.gov.fixedTier (ranLimit s (s.epochNow + 1))))

/-- Context commands and images (R446, R450, R452, R453, R460). Where the rules leave a choice it states the model's, log entry 36. -/
def Obligations.ContextCommandsAndImages : Prop :=
  Performs .ctxSaveSet .pf [(16, 1), (24, 16)] (fun m a => mfld m 32 8 ≠ 0 ∧
      hatchSet (mfld m 24 8) = hatchSet (mfld m 24 8 + mfld m 32 8 - 1) ∧
      a.mem.ranges.any (fun r => r.ctx == mfld m 16 1 && decide (r.base ≤ mfld m 24 8 ∧ mfld m 24 8 + mfld m 32 8 ≤ r.base + r.len)) = true ∧
      (plateList a).any (fun q => q.2.owner == mfld m 16 1 && q.2.kind == 2 && q.2.state == 2) = false ∧ ctxHeld a (mfld m 16 1) = false)
    (fun m a x t => x = Result.none ∧
      t = a.setCtx (mfld m 16 1) { a.ctx (mfld m 16 1) with saveBase := mfld m 24 8, saveLen := mfld m 32 8 }) ∧
  StaysInFlight .ctxPreempt .pf [(16, 2)] (fun m a => mfld m 17 1 ≤ 1 ∧ ctxHeld a (mfld m 16 1) = false ∧
      groupsQuiet (mfld m 16 1) a = true ∧ ∀ k ∈ residentCores a (mfld m 16 1), (a.coreAt k).live = none)
    (fun m a t => ∃ u, t = completeSlot m.input.toNat m.slot.toNat stOk { fields := [(5, 1, 0), (8, 8, a.now), (16, 8, 0)], block := none } u ∧
      (u.ctx (mfld m 16 1)).state = 4 ∧ (u.ctx (mfld m 16 1)).stopRidge = a.now ∧ (u.ctx (mfld m 16 1)).resumeAsked = false ∧
      (u.ctx (mfld m 16 1)).waiter = none) ∧
  StaysInFlight .ctxPreempt .pf [(16, 2)] (fun m a => mfld m 17 1 ≤ 1 ∧ ctxHeld a (mfld m 16 1) = false)
    (fun m a t => ∃ u, t = settleStop (mfld m 16 1) u ∧ (u.ctx (mfld m 16 1)).state = 2 ∧ (u.ctx (mfld m 16 1)).mode = mfld m 17 1 ∧
      (u.ctx (mfld m 16 1)).stopRidge = a.now ∧ (u.ctx (mfld m 16 1)).waiter = some (m.input.toNat, m.slot.toNat) ∧
      u.mem = a.mem ∧ u.plates = a.plates) ∧
  Declines .ctxPreempt .pf [(16, 2)] (fun m a => mfld m 17 1 ≤ 1 ∧ ctxHeld a (mfld m 16 1) = true) stBusy ∧
  Performs .ctxResume .pf [(16, 1)] (fun m a => (a.ctx (mfld m 16 1)).state = 2 ∨ (a.ctx (mfld m 16 1)).state = 3 ∨
      (a.ctx (mfld m 16 1)).state = 4)
    (fun m a x t => x = { fields := [(8, 8, resumeWindow a (mfld m 16 1))], block := none } ∧
      ((a.ctx (mfld m 16 1)).state ≠ 4 → t = a.setCtx (mfld m 16 1) { a.ctx (mfld m 16 1) with resumeAsked := true }) ∧
      ((a.ctx (mfld m 16 1)).state = 4 → (plateList a).any (fun q => q.2.owner == mfld m 16 1 && !q.2.isRan && q.2.running != []) = false →
        t = groupsResume (mfld m 16 1) (a.setCtx (mfld m 16 1) { a.ctx (mfld m 16 1) with state := 0, resumeAsked := false }))) ∧
  Declines .ctxResume .pf [(16, 1)] (fun m a => (a.ctx (mfld m 16 1)).state = 0 ∨ (a.ctx (mfld m 16 1)).state = 1) stBadParam ∧
  Performs .ctxQuery .pf [(16, 1)] (fun _ _ => True)
    (fun m a x t => t = a ∧ x.fields = [] ∧ let c := a.ctx (mfld m 16 1)
      x.block = some (itemsBlock [ctxStateReg c, if c.image then c.imgCores else 0, if c.image then c.imgWays else 0,
        (Tab.get 0 c.cnt 0).toNat, (Tab.get 0 c.cnt 1).toNat, (Tab.get 0 c.cnt 2).toNat, (Tab.get 0 c.cnt 3).toNat,
        (Tab.get 0 c.cnt 4).toNat, (Tab.get 0 c.cnt 5).toNat])) ∧
  (∀ (s : State) (c : BitVec 8), ((s.ctx c.toNat).state ≠ 3 ∨ s.now < (s.ctx c.toNat).due) →
    Sys2Proof.Machine.exec (.imageSaveDone c) s = .next s) ∧
  (∀ (s : State) (c : BitVec 8), ((s.ctx c.toNat).state ≠ 5 ∨ s.now < (s.ctx c.toNat).due) →
    Sys2Proof.Machine.exec (.imageRestoreDone c) s = .next s) ∧
  (∀ (s : State) (c : BitVec 8) (x : Ctx) (d : Nat), x = s.ctx c.toNat → x.state = 3 → x.due ≤ s.now →
    d = 4096 + 602112 * x.imgCores + 524288 * x.imgWays →
    ∃ t u, Sys2Proof.Machine.exec (.imageSaveDone c) s = .next t ∧ t = endStop c.toNat 1 d u ∧ (u.ctx c.toNat).image = true ∧
      (u.ctx c.toNat).image4k = BitVec.ofNat 28 (ceilDiv d 4096)) ∧
  (∀ (s : State) (c : BitVec 8), (s.ctx c.toNat).state = 5 → (s.ctx c.toNat).due ≤ s.now →
    ∃ t u, Sys2Proof.Machine.exec (.imageRestoreDone c) s = .next t ∧ t = retryHeld u ∧ (u.ctx c.toNat).state = 1 ∧
      (u.ctx c.toNat).image = false)

/-- Register instructions of a thread (R96, R102). Where the rules leave a choice it states the model's, log entry 30. -/
def Obligations.ThreadArithmetic : Prop :=
  (∀ (s : State) (t : BitVec 12) (d a b : BitVec 5) (imm : BitVec 41) (x : Thread) (put : BitVec 5 → BitVec 64 → State),
    x = s.thread t.toNat → mayIssue s t.toNat = true → x.pendingMask = 0 → x.pc.toNat + 16 ≤ progLenOf s t.toNat →
    (∀ r v, put r v = s.setThread t.toNat { x.setReg r.toNat v with pc := BitVec.ofInt 32 (x.pc.toNat + 8), state := 1 }) →
    (fetched s t.toNat = some (insnWord 0x01 d a b imm) → Sys2Proof.Machine.exec (.thAdd t d a b imm) s = .next (put d (x.reg a.toNat + x.reg b.toNat + imm.signExtend 64))) ∧
    (fetched s t.toNat = some (insnWord 0x02 d a b imm) → imm = 0 → Sys2Proof.Machine.exec (.thSub t d a b imm) s = .next (put d (x.reg a.toNat - x.reg b.toNat))) ∧
    (fetched s t.toNat = some (insnWord 0x03 d a b imm) → imm = 0 → Sys2Proof.Machine.exec (.thAnd t d a b imm) s = .next (put d (x.reg a.toNat &&& x.reg b.toNat))) ∧
    (fetched s t.toNat = some (insnWord 0x04 d a b imm) → imm = 0 → Sys2Proof.Machine.exec (.thOr t d a b imm) s = .next (put d (x.reg a.toNat ||| x.reg b.toNat))) ∧
    (fetched s t.toNat = some (insnWord 0x05 d a b imm) → imm = 0 → Sys2Proof.Machine.exec (.thXor t d a b imm) s = .next (put d (x.reg a.toNat ^^^ x.reg b.toNat))) ∧
    (fetched s t.toNat = some (insnWord 0x06 d a b imm) → Sys2Proof.Machine.exec (.thShl t d a b imm) s = .next (put d (x.reg a.toNat <<< ((x.reg b.toNat + imm.signExtend 64).toNat % 64)))) ∧
    (fetched s t.toNat = some (insnWord 0x07 d a b imm) → Sys2Proof.Machine.exec (.thShr t d a b imm) s = .next (put d (x.reg a.toNat >>> ((x.reg b.toNat + imm.signExtend 64).toNat % 64)))) ∧
    (fetched s t.toNat = some (insnWord 0x08 d a b imm) → Sys2Proof.Machine.exec (.thSar t d a b imm) s = .next (put d ((x.reg a.toNat).sshiftRight ((x.reg b.toNat + imm.signExtend 64).toNat % 64)))) ∧
    (fetched s t.toNat = some (insnWord 0x09 d a b imm) → imm = 0 → Sys2Proof.Machine.exec (.thMul t d a b imm) s = .next (put d (x.reg a.toNat * x.reg b.toNat))) ∧
    (fetched s t.toNat = some (insnWord 0x0A d a b imm) → imm = 0 → Sys2Proof.Machine.exec (.thMin t d a b imm) s = .next (put d (if (x.reg a.toNat).toInt ≤ (x.reg b.toNat).toInt then x.reg a.toNat else x.reg b.toNat))) ∧
    (fetched s t.toNat = some (insnWord 0x0B d a b imm) → imm = 0 → Sys2Proof.Machine.exec (.thMax t d a b imm) s = .next (put d (if (x.reg a.toNat).toInt ≤ (x.reg b.toNat).toInt then x.reg b.toNat else x.reg a.toNat))) ∧
    (fetched s t.toNat = some (insnWord 0x0C d 0 0 imm) → Sys2Proof.Machine.exec (.thLi t d 0 0 imm) s = .next (put d (imm.signExtend 64))) ∧
    (fetched s t.toNat = some (insnWord 0x0D d a 0 imm) → imm.toNat < 2 ^ 23 → Sys2Proof.Machine.exec (.thLih t d a 0 imm) s =
      .next (put d (BitVec.ofNat 64 ((x.reg a.toNat).toNat % 2 ^ 41 + imm.toNat * 2 ^ 41)))) ∧
    (fetched s t.toNat = some (insnWord 0x23 d 0 0 imm) → imm.toNat < 64 → Sys2Proof.Machine.exec (.thRdc t d 0 0 imm) s = .next (put d (BitVec.ofNat 64
      (((s.coreAt (t.toNat / 8)).counter imm.toNat).count.toNat + ((s.coreAt (t.toNat / 8)).counter imm.toNat).status.toNat * 2 ^ 32 +
        bit ((s.coreAt (t.toNat / 8)).counter imm.toNat).nan * 2 ^ 48 + bit ((s.coreAt (t.toNat / 8)).counter imm.toNat).ovf * 2 ^ 49)))) ∧
    (fetched s t.toNat = some (insnWord 0x26 d 0 0 0) → Sys2Proof.Machine.exec (.thRdr t d 0 0 0) s = .next (put d s.clk.ridge)) ∧
    (∀ l, (s.coreAt (t.toNat / 8)).live = some l → fetched s t.toNat = some (insnWord 0x27 d 0 0 0) →
      Sys2Proof.Machine.exec (.thRdimp t d 0 0 0) s = .next (put d (BitVec.ofNat 64 l.impression))) ∧
    (fetched s t.toNat = some 0 → Sys2Proof.Machine.exec (.thNop t 0) s = .next (put 0 0))) ∧
  (∀ (opc : Nat) (d a b : BitVec 5) (imm : BitVec 41), opc < 256 →
    insnWord opc d a b imm = BitVec.ofNat 64 (opc * 2 ^ 56 + d.toNat * 2 ^ 51 + a.toNat * 2 ^ 46 + b.toNat * 2 ^ 41 + imm.toNat)) ∧
  (∀ (x : Thread) (r : Nat) (v : BitVec 64), x.reg 0 = 0 ∧ x.setReg 0 v = x ∧ (r ≠ 0 → (x.setReg r v).reg r = v) ∧
    (∀ k, k ≠ r → (x.setReg r v).reg k = x.reg k))

/-- When a thread instruction does not execute (R97, R102, R103). Where the rules leave a choice it states the model's, log entry 30. -/
def Obligations.ThreadsWaitOrHalt : Prop :=
  (∀ (s : State) (t : BitVec 12) (d a b : BitVec 5) (imm : BitVec 41), ∀ p ∈ ([
      (0x01, .thAdd t d a b imm), (0x02, .thSub t d a b imm), (0x03, .thAnd t d a b imm), (0x04, .thOr t d a b imm), (0x05, .thXor t d a b imm), (0x06, .thShl t d a b imm),
      (0x07, .thShr t d a b imm), (0x08, .thSar t d a b imm), (0x09, .thMul t d a b imm), (0x0A, .thMin t d a b imm), (0x0B, .thMax t d a b imm), (0x0C, .thLi t d a b imm),
      (0x0D, .thLih t d a b imm), (0x10, .thLd t d a b imm), (0x11, .thSt t d a b imm), (0x12, .thLdx t d a b imm), (0x13, .thStx t d a b imm), (0x18, .thBeq t d a b imm),
      (0x19, .thBne t d a b imm), (0x1A, .thBlt t d a b imm), (0x1B, .thBge t d a b imm), (0x1C, .thJmp t d a b imm), (0x20, .thCmd t d a b imm), (0x21, .thWaitc t d a b imm),
      (0x22, .thSetc t d a b imm), (0x23, .thRdc t d a b imm), (0x24, .thBar t d a b imm), (0x25, .thWaitr t d a b imm), (0x26, .thRdr t d a b imm),
      (0x27, .thRdimp t d a b imm), (0x28, .thFence t d a b imm), (0x29, .thEnd t d a b imm)] : List (Nat × Instr)),
    (mayIssue s t.toNat = false ∨ fetched s t.toNat ≠ some (insnWord p.1 d a b imm)) → Sys2Proof.Machine.exec p.2 s = .next s) ∧
  (∀ (s : State) (t : BitVec 12) (w : BitVec 64), mayIssue s t.toNat = false ∨ fetched s t.toNat ≠ some w → Sys2Proof.Machine.exec (.thNop t w) s = .next s) ∧
  (∀ (s : State) (t : BitVec 12) (d a b : BitVec 5) (imm : BitVec 41) (x : Thread), x = s.thread t.toNat → mayIssue s t.toNat = true →
    (x.isPending d.toNat = true ∨ x.isPending a.toNat = true ∨ x.isPending b.toNat = true) →
    ∀ p ∈ ([(0x01, .thAdd t d a b imm), (0x06, .thShl t d a b imm), (0x07, .thShr t d a b imm), (0x08, .thSar t d a b imm)] : List (Nat × Instr)),
      fetched s t.toNat = some (insnWord p.1 d a b imm) →
      Sys2Proof.Machine.exec p.2 s = .next (s.setThread t.toNat { x with state := 5 })) ∧
  (∀ (s : State) (t : BitVec 12) (d a b : BitVec 5) (imm : BitVec 41), mayIssue s t.toNat = true → imm ≠ 0 →
    ∀ p ∈ ([(0x02, .thSub t d a b imm), (0x03, .thAnd t d a b imm), (0x04, .thOr t d a b imm), (0x05, .thXor t d a b imm), (0x09, .thMul t d a b imm), (0x0A, .thMin t d a b imm),
        (0x0B, .thMax t d a b imm), (0x12, .thLdx t d a b imm), (0x13, .thStx t d a b imm), (0x25, .thWaitr t d a b imm), (0x26, .thRdr t d a b imm), (0x27, .thRdimp t d a b imm),
        (0x29, .thEnd t d a b imm)] : List (Nat × Instr)),
      fetched s t.toNat = some (insnWord p.1 d a b imm) →
      ∃ u, Sys2Proof.Machine.exec p.2 s = .next u ∧ (u.thread t.toNat).state = 7 ∧ (u.thread t.toNat).fault = BitVec.ofNat 16 stBadParam ∧
        (u.thread t.toNat).live = false ∧ u.mem = s.mem) ∧
  (∀ (s : State) (t : BitVec 12) (w : BitVec 64), mayIssue s t.toNat = true → fetched s t.toNat = some w →
    ((0x0E ≤ w.toNat / 2 ^ 56 ∧ w.toNat / 2 ^ 56 ≤ 0x0F) ∨ (0x14 ≤ w.toNat / 2 ^ 56 ∧ w.toNat / 2 ^ 56 ≤ 0x17) ∨
      (0x1D ≤ w.toNat / 2 ^ 56 ∧ w.toNat / 2 ^ 56 ≤ 0x1F) ∨ 0x2A ≤ w.toNat / 2 ^ 56) →
    ∃ u, Sys2Proof.Machine.exec (.thNop t w) s = .next u ∧ (u.thread t.toNat).state = 7 ∧
      (u.thread t.toNat).fault = BitVec.ofNat 16 stBadOpcode ∧ (u.thread t.toNat).live = false ∧ u.mem = s.mem) ∧
  (∀ (s : State) (t : BitVec 12) (x : Thread), x = s.thread t.toNat → mayIssue s t.toNat = true → fetched s t.toNat = some 0 →
    x.pendingMask = 0 → progLenOf s t.toNat < x.pc.toNat + 16 →
    ∃ u, Sys2Proof.Machine.exec (.thNop t 0) s = .next u ∧ (u.thread t.toNat).state = 7 ∧
      (u.thread t.toNat).fault = BitVec.ofNat 16 stBadParam ∧ (u.thread t.toNat).live = false ∧ u.mem = s.mem)

/-- LD, ST, LDX and STX (R102, R103). Where the rules leave a choice it states the model's, log entries 29 and 30. -/
def Obligations.ThreadLoadsAndStores : Prop :=
  (∀ (s : State) (t : BitVec 12) (d a b : BitVec 5) (imm : BitVec 41) (x : Thread) (off n base : Nat),
    x = s.thread t.toNat → mayIssue s t.toNat = true → x.pendingMask = 0 → x.pc.toNat + 16 ≤ progLenOf s t.toNat →
    off = (x.reg a.toNat + imm.signExtend 64).toNat → n = 2 ^ b.toNat → base = 0xE800000000 + t.toNat / 8 * 0x80000 →
    (b.toNat ≤ 3 → off % n = 0 → off + n ≤ 0x80000 →
      (fetched s t.toNat = some (insnWord 0x10 d a b imm) → s.mem.mem.poisonAt (base + off) n = false → ∃ u : State,
        Sys2Proof.Machine.exec (.thLd t d a b imm) s = .next (u.setThread t.toNat { x.setReg d.toNat (BitVec.ofNat 64
          (ofLE (s.mem.mem.bytesAt (base + off) n))) with pc := BitVec.ofInt 32 (x.pc.toNat + 8), state := 1 }) ∧
        u.mem.mem = s.mem.mem ∧ u.core = s.core ∧ u.plates = s.plates) ∧
      (fetched s t.toNat = some (insnWord 0x11 d a b imm) → ∃ u : State, Sys2Proof.Machine.exec (.thSt t d a b imm) s = .next u ∧
        u = { checkEdges (base + off) n s with mem := u.mem, core := u.core } ∧
        u.thread t.toNat = { x with pc := BitVec.ofInt 32 (x.pc.toNat + 8), state := 1 } ∧
        (∀ k, k ≠ t.toNat → u.thread k = s.thread k) ∧ (∀ k, u.coreAt k = s.coreAt k) ∧
        (∀ i < n, u.mem.mem.bytesAt (base + off + i) 1 = [(leBytes n (x.reg d.toNat).toNat).getD i 0]) ∧
        (∀ y, y < base + off ∨ base + off + n ≤ y → u.mem.mem.bytesAt y 1 = s.mem.mem.bytesAt y 1))) ∧
    ((3 < b.toNat ∨ off % n ≠ 0 ∨ 0x80000 < off + n) → ∀ p ∈ ([(0x10, .thLd t d a b imm), (0x11, .thSt t d a b imm)] : List (Nat × Instr)),
      fetched s t.toNat = some (insnWord p.1 d a b imm) → ∃ u, Sys2Proof.Machine.exec p.2 s = .next u ∧ (u.thread t.toNat).state = 7 ∧ (u.thread t.toNat).live = false ∧
        (u.thread t.toNat).fault = BitVec.ofNat 16 stBadParam ∧ u.mem = s.mem)) ∧
  (∀ (s : State) (t : BitVec 12) (d a b : BitVec 5) (x : Thread) (addr : Nat), x = s.thread t.toNat → mayIssue s t.toNat = true →
    x.pendingMask = 0 → x.pc.toNat + 16 ≤ progLenOf s t.toNat → addr = (x.reg a.toNat).toNat → extAddrStatus s t.toNat addr = stOk →
    ((s.meQueue t.toNat).length < 8 →
      (rackCheck s (coreHolder s (t.toNat / 8)) addr 8 false = stOk → fetched s t.toNat = some (insnWord 0x12 d a 0 0) →
        ∃ u e, Sys2Proof.Machine.exec (.thLdx t d a 0 0) s = .next u ∧
        u = { s with core := u.core } ∧ u.meQueue t.toNat = s.meQueue t.toNat ++ [e] ∧ e.kind = 1 ∧ e.addr = addr ∧ e.reg = d.toNat ∧
        e.started = false ∧ u.thread t.toNat = { x with
          pc := BitVec.ofInt 32 (x.pc.toNat + 8), state := 1,
          pendingMask := if d = 0 then 0 else BitVec.ofNat 32 (2 ^ d.toNat) }) ∧
      (rackCheck s (coreHolder s (t.toNat / 8)) addr 8 true = stOk → fetched s t.toNat = some (insnWord 0x13 0 a b 0) → ∃ u e, Sys2Proof.Machine.exec (.thStx t 0 a b 0) s = .next u ∧
        u = { s with core := u.core } ∧ u.meQueue t.toNat = s.meQueue t.toNat ++ [e] ∧ e.kind = 2 ∧ e.addr = addr ∧
        e.data = x.reg b.toNat ∧ e.started = false ∧
        u.thread t.toNat = { x with pc := BitVec.ofInt 32 (x.pc.toNat + 8), state := 1 })) ∧
    (8 ≤ (s.meQueue t.toNat).length → rackCheck s (coreHolder s (t.toNat / 8)) addr 8 false = stOk → fetched s t.toNat = some (insnWord 0x12 d a 0 0) →
      Sys2Proof.Machine.exec (.thLdx t d a 0 0) s = .next (s.setThread t.toNat { x with state := 5 })))

/-- Control flow and waits of a thread (R102, R108, R110, R111, R132). Where the rules leave a choice it states the model's, log entry 30. -/
def Obligations.ThreadControlFlow : Prop :=
  (∀ (s : State) (t : BitVec 12) (a b : BitVec 5) (imm : BitVec 41) (x : Thread) (next_ jump : State), x = s.thread t.toNat →
    mayIssue s t.toNat = true → x.pendingMask = 0 → x.pc.toNat + 16 ≤ progLenOf s t.toNat →
    0 ≤ (x.pc.toNat : Int) + 8 * imm.toInt → (x.pc.toNat : Int) + 8 * imm.toInt + 8 ≤ progLenOf s t.toNat →
    next_ = s.setThread t.toNat { x with pc := BitVec.ofInt 32 (x.pc.toNat + 8), state := 1 } →
    jump = s.setThread t.toNat { x with pc := BitVec.ofInt 32 (x.pc.toNat + 8 * imm.toInt), state := 1 } →
    (fetched s t.toNat = some (insnWord 0x18 0 a b imm) →
      Sys2Proof.Machine.exec (.thBeq t 0 a b imm) s = .next (if x.reg a.toNat = x.reg b.toNat then jump else next_)) ∧
    (fetched s t.toNat = some (insnWord 0x19 0 a b imm) →
      Sys2Proof.Machine.exec (.thBne t 0 a b imm) s = .next (if x.reg a.toNat = x.reg b.toNat then next_ else jump)) ∧
    (fetched s t.toNat = some (insnWord 0x1A 0 a b imm) →
      Sys2Proof.Machine.exec (.thBlt t 0 a b imm) s = .next (if (x.reg a.toNat).toInt < (x.reg b.toNat).toInt then jump else next_)) ∧
    (fetched s t.toNat = some (insnWord 0x1B 0 a b imm) →
      Sys2Proof.Machine.exec (.thBge t 0 a b imm) s = .next (if (x.reg a.toNat).toInt < (x.reg b.toNat).toInt then next_ else jump)) ∧
    (fetched s t.toNat = some (insnWord 0x1C 0 0 0 imm) → Sys2Proof.Machine.exec (.thJmp t 0 0 0 imm) s = .next jump)) ∧
  (∀ (s : State) (t : BitVec 12) (a : BitVec 5) (imm : BitVec 41) (x : Thread) (next_ : State), x = s.thread t.toNat →
    mayIssue s t.toNat = true → x.pendingMask = 0 → x.pc.toNat + 16 ≤ progLenOf s t.toNat →
    next_ = s.setThread t.toNat { x with pc := BitVec.ofInt 32 (x.pc.toNat + 8), state := 1 } →
    (imm.toNat < 64 → fetched s t.toNat = some (insnWord 0x21 0 a 0 imm) →
      ((((s.coreAt (t.toNat / 8)).counter imm.toNat).count - (x.reg a.toNat).truncate 32).toNat < 2 ^ 31 →
        Sys2Proof.Machine.exec (.thWaitc t 0 a 0 imm) s = .next next_) ∧
      (2 ^ 31 ≤ (((s.coreAt (t.toNat / 8)).counter imm.toNat).count - (x.reg a.toNat).truncate 32).toNat →
        Sys2Proof.Machine.exec (.thWaitc t 0 a 0 imm) s = .next (s.setThread t.toNat { x with
          state := 2, waitOn := imm.toNat, target := (x.reg a.toNat).toNat }))) ∧
    (fetched s t.toNat = some (insnWord 0x25 0 a 0 0) → (x.reg a.toNat).toNat ≤ s.now →
      Sys2Proof.Machine.exec (.thWaitr t 0 a 0 0) s = .next next_) ∧
    (fetched s t.toNat = some (insnWord 0x25 0 a 0 0) → s.now < (x.reg a.toNat).toNat →
      Sys2Proof.Machine.exec (.thWaitr t 0 a 0 0) s = .next (s.setThread t.toNat { x with
      state := 4, target := (x.reg a.toNat).toNat })) ∧
    (x.state = 4 → x.target ≤ s.now → Sys2Proof.Machine.exec (.ridgeWaitResume t) s = .next next_) ∧
    ((x.state ≠ 4 ∨ s.now < x.target) → Sys2Proof.Machine.exec (.ridgeWaitResume t) s = .next s) ∧
    (imm.toNat < 2 → fetched s t.toNat = some (insnWord 0x28 0 0 0 imm) →
      (fenceOpen s t.toNat (imm == 1) = true → Sys2Proof.Machine.exec (.thFence t 0 0 0 imm) s = .next next_) ∧
      (fenceOpen s t.toNat (imm == 1) = false → Sys2Proof.Machine.exec (.thFence t 0 0 0 imm) s = .next (s.setThread t.toNat { x with
        state := 6, target := imm.toNat }))) ∧
    (imm.toNat < 32 → fetched s t.toNat = some (insnWord 0x24 0 0 0 imm) →
      (commandThreads s (t.toNat / 8) = [t.toNat] → ∃ u, Sys2Proof.Machine.exec (.thBar t 0 0 0 imm) s = .next u ∧
        u.thread t.toNat = { x with state := 1, barrier := none, pc := x.pc + 8 } ∧ (∀ k, k ≠ t.toNat → u.thread k = s.thread k) ∧
        u = { s with core := { s.core with threads := u.core.threads } }) ∧
      (∀ y ∈ commandThreads s (t.toNat / 8), y ≠ t.toNat → (s.thread y).barrier = none →
        Sys2Proof.Machine.exec (.thBar t 0 0 0 imm) s = .next (s.setThread t.toNat { x with state := 3, barrier := some imm.toNat }))) ∧
    (fetched s t.toNat = some (insnWord 0x29 0 0 0 0) → ∃ u, Sys2Proof.Machine.exec (.thEnd t 0 0 0 0) s = .next u ∧ u.thread t.toNat = { x with
      state := 0, live := false, barrier := none, pc := x.pc + 8 } ∧
      u = { s with core := { s.core with threads := u.core.threads }, det := u.det }))

/-- Retirement into a counter, and WAITC (R108). -/
def Obligations.CountersRetireAndWaitsEnd : Prop :=
  (∀ (s : State) (core : BitVec 9) (engine : BitVec 2) (e : EngCmd) (rest : List EngCmd) (i : Nat), engine ≠ 3 →
    (s.coreAt core.toNat).engine engine.toNat = e :: rest → e.done = true → i = bitsAt e.block.toNat 8 6 →
    (∀ a, (s.coreAt core.toNat).resident = some a → (s.ctx a).state ≠ 2) →
    ∃ t, Sys2Proof.Machine.exec (.engineCommandRetire core engine) s = .next t ∧
      (t.coreAt core.toNat).engine engine.toNat = rest ∧
      (t.coreAt core.toNat).counter i = { count := ((s.coreAt core.toNat).counter i).count + 1,
                                          status := if ((s.coreAt core.toNat).counter i).status = 0 then BitVec.ofNat 16 e.status
                                                    else ((s.coreAt core.toNat).counter i).status,
                                          nan := ((s.coreAt core.toNat).counter i).nan || e.nan,
                                          ovf := ((s.coreAt core.toNat).counter i).ovf || e.ovf } ∧
      (∀ j, j ≠ i → (t.coreAt core.toNat).counter j = (s.coreAt core.toNat).counter j)) ∧
  (∀ (s : State) (t : BitVec 12) (e : MeEntry) (rest : List MeEntry) (i : Nat) (c : Core), c = s.coreAt (t.toNat / 8) →
    s.meQueue t.toNat = e :: rest → e.finished = true → e.kind = 0 → i = (readDesc e.block).cnt →
    ∃ u, Sys2Proof.Machine.exec (.meDescriptorRetire t) s = .next u ∧
      (u.coreAt (t.toNat / 8)).counter i = { count := (c.counter i).count + 1,
                                             status := if (c.counter i).status = 0 then BitVec.ofNat 16 e.status
                                                       else (c.counter i).status,
                                             nan := (c.counter i).nan || e.nan, ovf := (c.counter i).ovf || e.ovf } ∧
      (∀ j, j ≠ i → (u.coreAt (t.toNat / 8)).counter j = c.counter j)) ∧
  (∀ (s : State) (t : BitVec 12) (a : BitVec 5) (imm : BitVec 41) (x : Thread), x = s.thread t.toNat → mayIssue s t.toNat = true →
    x.pendingMask = 0 → x.pc.toNat + 16 ≤ progLenOf s t.toNat → imm.toNat < 64 →
    fetched s t.toNat = some (insnWord 0x21 0 a 0 imm) →
    ∃ u, Sys2Proof.Machine.exec (.thWaitc t 0 a 0 imm) s = .next u ∧ (u.thread t.toNat).pc =
      if (((s.coreAt (t.toNat / 8)).counter imm.toNat).count - (x.reg a.toNat).truncate 32).toNat < 2 ^ 31
      then BitVec.ofInt 32 (x.pc.toNat + 8) else x.pc)

/-- CMD and SETC (R104, R106, R108). Where the rules leave a choice it states the model's, log entry 30. -/
def Obligations.CommandsAndCountersOfThreads : Prop :=
  (∀ (s : State) (t : BitVec 12) (a : BitVec 5) (imm : BitVec 41) (x : Thread) (off k : Nat) (block : BitVec 512), x = s.thread t.toNat →
    mayIssue s t.toNat = true → x.pendingMask = 0 → x.pc.toNat + 16 ≤ progLenOf s t.toNat → k = t.toNat / 8 →
    off = (x.reg a.toNat).toNat → imm.toNat < 4 →
    fetched s t.toNat = some (insnWord 0x20 0 a 0 imm) → block = BitVec.ofNat 512 (ofLE (s.mem.mem.bytesAt (0xE800000000 + k * 0x80000 + off) 64)) →
    (off % 64 = 0 → off + 64 ≤ 0x80000 →
      (imm.toNat < 3 → (imm.toNat < 2 → teClosed s k = false) → ((s.coreAt k).engine imm.toNat).length < 8 →
        ∃ u e, Sys2Proof.Machine.exec (.thCmd t 0 a 0 imm) s = .next u ∧
          (u.coreAt k).engine imm.toNat = (s.coreAt k).engine imm.toNat ++ [e] ∧ e.block = block ∧ e = .queued block ∧
          u.thread t.toNat = { x with pc := BitVec.ofInt 32 (x.pc.toNat + 8), state := 1 } ∧
          (∀ j, j ≠ t.toNat → u.thread j = s.thread j) ∧ (∀ j, j ≠ k → u.coreAt j = s.coreAt j) ∧
          (s.mem.mem.poisonAt (0xE800000000 + k * 0x80000 + off) 64 = false → u.mem.mem = s.mem.mem)) ∧
      (imm.toNat = 3 → (s.meQueue t.toNat).length < 8 → ∃ u e, Sys2Proof.Machine.exec (.thCmd t 0 a 0 imm) s = .next u ∧
        u.meQueue t.toNat = s.meQueue t.toNat ++ [e] ∧ e.block = block ∧ e.kind = 0 ∧ e.started = false ∧
        u.thread t.toNat = { x with pc := BitVec.ofInt 32 (x.pc.toNat + 8), state := 1 } ∧
        (s.mem.mem.poisonAt (0xE800000000 + k * 0x80000 + off) 64 = false → u.mem.mem = s.mem.mem)) ∧
      (imm.toNat < 3 → (imm.toNat < 2 → teClosed s k = false) → 8 ≤ ((s.coreAt k).engine imm.toNat).length →
        Sys2Proof.Machine.exec (.thCmd t 0 a 0 imm) s = .next (s.setThread t.toNat { x with state := 5 }))) ∧
    ((off % 64 ≠ 0 ∨ 0x80000 < off + 64 ∨ (imm.toNat < 2 ∧ teClosed s k = true)) →
      ∃ u, Sys2Proof.Machine.exec (.thCmd t 0 a 0 imm) s = .next u ∧ (u.thread t.toNat).state = 7 ∧
        (u.thread t.toNat).fault = BitVec.ofNat 16 stBadParam ∧ u.mem = s.mem)) ∧
  (∀ (s : State) (t : BitVec 12) (a : BitVec 5) (imm : BitVec 41) (x : Thread), x = s.thread t.toNat → mayIssue s t.toNat = true →
    x.pendingMask = 0 → imm.toNat < 64 → fetched s t.toNat = some (insnWord 0x22 0 a 0 imm) →
    ∃ u, Sys2Proof.Machine.exec (.thSetc t 0 a 0 imm) s = .next u ∧
      (u.coreAt (t.toNat / 8)).counter imm.toNat = { count := (x.reg a.toNat).truncate 32, status := 0, nan := false, ovf := false } ∧
      (∀ j, j ≠ imm.toNat → (u.coreAt (t.toNat / 8)).counter j = (s.coreAt (t.toNat / 8)).counter j) ∧
      (∀ k, k ≠ t.toNat / 8 → u.coreAt k = s.coreAt k) ∧ u.mem = s.mem)

/-- The tensor and signal engines (R71, R72, R81, R141, R142, R149, R151). Where the rules leave a choice it states the model's, log entries 18, 29, 33 and 34. -/
def Obligations.TensorAndSignalCommandsExecute : Prop :=
  (∀ (s : State) (core : BitVec 9) (e : EngCmd) (c : SeCmd), nextCmd (s.coreAt core.toNat).se = some e →
    cmdRuns s core.toNat e = true → c = readSe e.block → c.ok = true →
    (c.op = 0x40 → Sys2Proof.Machine.exec (.seCmul core) s = .next (runSe core.toNat e c s)) ∧
    (c.op = 0x41 → Sys2Proof.Machine.exec (.seCadd core) s = .next (runSe core.toNat e c s)) ∧
    (c.op = 0x42 → Sys2Proof.Machine.exec (.seCmac core) s = .next (runSe core.toNat e c s)) ∧
    (c.op = 0x43 → Sys2Proof.Machine.exec (.sePower core) s = .next (runSe core.toNat e c s)) ∧
    (c.op = 0x44 → Sys2Proof.Machine.exec (.seRad2 core) s = .next (runSe core.toNat e c s)) ∧
    (c.op = 0x45 → Sys2Proof.Machine.exec (.seRad4 core) s = .next (runSe core.toNat e c s)) ∧
    (c.op = 0x46 → Sys2Proof.Machine.exec (.seMmsew core) s = .next (runSe core.toNat e c s)) ∧
    (c.op = 0x47 → Sys2Proof.Machine.exec (.seDemap core) s = .next (runSe core.toNat e c s)) ∧
    (c.op = 0x48 → Sys2Proof.Machine.exec (.seScan core) s = .next (runSe core.toNat e c s))) ∧
  (∀ (s : State) (core : BitVec 9) (op : Nat) (i : Instr), (op, i) ∈ ([
      (0x40, .seCmul core), (0x41, .seCadd core), (0x42, .seCmac core), (0x43, .sePower core), (0x44, .seRad2 core),
      (0x45, .seRad4 core), (0x46, .seMmsew core), (0x47, .seDemap core), (0x48, .seScan core)] : List (Nat × Instr)) →
    (nextCmd (s.coreAt core.toNat).se = none → Sys2Proof.Machine.exec i s = .next s) ∧
    (∀ e, nextCmd (s.coreAt core.toNat).se = some e →
      (cmdRuns s core.toNat e = false → Sys2Proof.Machine.exec i s = .next s) ∧
      (cmdRuns s core.toNat e = true → e.block.toNat % 256 = op → (readSe e.block).ok = false →
        Sys2Proof.Machine.exec i s = .next (s.setCore core.toNat { s.coreAt core.toNat with
          se := (s.coreAt core.toNat).se.modify ((s.coreAt core.toNat).se.findIdx fun c => !c.done) fun c =>
            { c with done := true, status := stBadParam, bexps := [] } })) ∧
      (cmdRuns s core.toNat e = true → e.block.toNat % 256 ≠ op → seOps.contains (e.block.toNat % 256) = true →
        Sys2Proof.Machine.exec i s = .next s) ∧
      (cmdRuns s core.toNat e = true → seOps.contains (e.block.toNat % 256) = false →
        Sys2Proof.Machine.exec (.seCmul core) s = .next (endSe core.toNat stBadOpcode [] s)))) ∧
  (∀ (s : State) (core : BitVec 9) (e : EngCmd) (c : Core), c = s.coreAt core.toNat → nextCmd c.se = some e →
    cmdRuns s core.toNat e = true → e.block.toNat % 256 = 0x4F → (readSe e.block).ok = true →
    ((∃ q rest, c.se = q :: rest ∧ q.done = true) → Sys2Proof.Machine.exec (.bxopSet core) s = .next s ∧
      Sys2Proof.Machine.exec (.bxopWriteOut core) s = .next s) ∧
    ((∃ q rest, c.se = q :: rest ∧ q.done = false) →
      (bitsAt (readSe e.block).param 0 2 ≠ 1 → Sys2Proof.Machine.exec (.bxopSet core) s = .next (endSe core.toNat stOk [] (s.setCore core.toNat
        { c with
          bexp := Tab.set Bexp.reset c.bexp (readSe e.block).bexp
            { exp := BitVec.ofNat 16 (bitsAt (readSe e.block).param 16 16), headroom := 0x3F } })) ∧
        Sys2Proof.Machine.exec (.bxopWriteOut core) s = .next s) ∧
      (bitsAt (readSe e.block).param 0 2 = 1 → Sys2Proof.Machine.exec (.bxopWriteOut core) s = .next (endSe core.toNat stOk [] (memWrite
        (0xE800000000 + core.toNat * 0x80000 + 16 * ((readSe e.block).stream 2).base)
        (leBytes 4 (Tab.get Bexp.reset c.bexp (readSe e.block).bexp).word) s)) ∧
        Sys2Proof.Machine.exec (.bxopSet core) s = .next s))) ∧
  (∀ (s : State) (core : BitVec 9) (engine : BitVec 1),
    (nextCmd ((s.coreAt core.toNat).engine engine.toNat) = none → Sys2Proof.Machine.exec (.tensorCommand core engine) s = .next s) ∧
    (∀ q, nextCmd ((s.coreAt core.toNat).engine engine.toNat) = some q →
      (cmdRuns s core.toNat q = false → Sys2Proof.Machine.exec (.tensorCommand core engine) s = .next s) ∧
      (cmdRuns s core.toNat q = true → q.block.toNat % 256 ≠ 0x10 →
        Sys2Proof.Machine.exec (.tensorCommand core engine) s = .next (endCmd core.toNat engine.toNat stBadOpcode false false s)) ∧
      (cmdRuns s core.toNat q = true → q.block.toNat % 256 = 0x10 →
        ((readTe q.block).fieldsOk = false ∨ (readTe q.block).placesOk s core.toNat = false) →
        Sys2Proof.Machine.exec (.tensorCommand core engine) s = .next (endCmd core.toNat engine.toNat stBadParam false false s)))) ∧
  (∀ (s : State) (core : BitVec 9) (engine : BitVec 1) (q : EngCmd) (c : TeCmd) (r : Nat × Bool × Bool × State),
    nextCmd ((s.coreAt core.toNat).engine engine.toNat) = some q → cmdRuns s core.toNat q = true → q.block.toNat % 256 = 0x10 →
    c = readTe q.block → c.fieldsOk = true → c.placesOk s core.toNat = true →
    r = teRun core.toNat engine.toNat c (q.pos / c.chunkCount) (teTiles c).length (q.status, q.nan, q.ovf, s) →
    Sys2Proof.Machine.exec (.tensorCommand core engine) s = .next (endCmd core.toNat engine.toNat r.1 r.2.1 r.2.2.1 r.2.2.2)) ∧
  (∀ (k e : Nat) (c : TeCmd) (i j n : Nat) (p q : Nat × Bool × Bool × State), i ≤ j → j ≤ n → q = teRun k e c i j p →
    otherWrites q.2.2.2 k e = otherWrites p.2.2.2 k e → teRun k e c j n q = teRun k e c i n p) ∧
  (∀ (s : State) (k : Nat) (e : EngCmd), cmdRuns s k e = true ↔ (engineRuns s k = true ∨ (e.underWay = true ∧ e.pmark = false))) ∧
  (∀ (s : State) (core : BitVec 9) (engine : BitVec 2), ((s.coreAt core.toNat).engine engine.toNat = [] ∨
      ∃ e rest, (s.coreAt core.toNat).engine engine.toNat = e :: rest ∧ e.done = false) →
    Sys2Proof.Machine.exec (.engineCommandRetire core engine) s = .next s)

/-- One narrowing of an exact value (R138). -/
def Obligations.NarrowingRoundsAndSaturates : Prop :=
  ∀ (n : Nat) (lo hi v : Int), lo ≤ hi → ∃ x : Int, (n = 0 → x = v) ∧ (n ≠ 0 → x = (v + 2 ^ (n - 1)) / 2 ^ n) ∧
    2 * (2 ^ n * x - v) ≤ 2 ^ n ∧ -(2 ^ n : Int) < 2 * (2 ^ n * x - v) ∧
    (narrowTo n lo hi v).1 = max lo (min hi x) ∧ ((narrowTo n lo hi v).2 = true ↔ x < lo ∨ hi < x) ∧
    lo ≤ (narrowTo n lo hi v).1 ∧ (narrowTo n lo hi v).1 ≤ hi

/-- The descriptors of the memory engine (R116 to R130). Where the rules leave a choice it states the model's, log entries 18 and 29. -/
def Obligations.MemoryEngineDescriptorsExecute : Prop :=
  (∀ (s : State) (t : BitVec 12) (op : Nat) (i : Instr), (op, i) ∈ ([(0x20, .meMove t), (0x21, .meGather t), (0x22, .meScatter t),
      (0x23, .meTranspose t), (0x24, .meConvert t), (0x26, .meWb t), (0x30, .meFload t), (0x31, .meFstore t), (0x32, .mePut t),
      (0x33, .meGet t), (0x34, .meAtomic t)] : List (Nat × Instr)) →
    (nextEntry s t.toNat = none → Sys2Proof.Machine.exec i s = .next s) ∧
    (∀ e, nextEntry s t.toNat = some e →
      ((e.kind ≠ 0 ∨ meRuns s t.toNat = false ∨ devWaits s t.toNat = true) → Sys2Proof.Machine.exec i s = .next s) ∧
      (e.kind = 0 → meRuns s t.toNat = true → devWaits s t.toNat = false → e.block.toNat % 256 = op → (readDesc e.block).clean = false →
        Sys2Proof.Machine.exec i s = .next (finishDesc t.toNat e stBadParam s)) ∧
      (e.kind = 0 → meRuns s t.toNat = true → devWaits s t.toNat = false → e.block.toNat % 256 ≠ op → meOps.contains (e.block.toNat % 256) = true →
        Sys2Proof.Machine.exec i s = .next s) ∧
      (e.kind = 0 → meRuns s t.toNat = true → devWaits s t.toNat = false → meOps.contains (e.block.toNat % 256) = false →
        Sys2Proof.Machine.exec (.meMove t) s = .next (finishDesc t.toNat e stBadOpcode s)))) ∧
  (∀ (s : State) (t : BitVec 12) (e : MeEntry) (d : Desc) (n cl : Nat) (who : Who), n = t.toNat → cl = n / 64 → who = whoOf s n →
    nextEntry s n = some e → e.kind = 0 → meRuns s n = true → devWaits s n = false → d = readDesc e.block → d.clean = true →
    (d.op = 0x20 → isDevAddr d.src = true → isDevAddr d.dst = true → d.cols = 0 → d.aux32 = 0 → d.aux = 0 →
      (d.ctl = 0 ∨ (d.ctl % 4 = 1 ∧ d.ctl < 2 ^ 11 ∧ d.len % (if bitAt d.ctl 2 then 4 else 2) = 0)) →
      ∀ (e1 : MeEntry) (rows : List MeReq), e1 = (if d.ctl % 4 = 1 then { e with bexp := some (bitsAt d.ctl 7 4, moveShift s n d) } else e) →
      rows = (List.range (oneIfZero d.rows)).map (fun i =>
        { kind := 5, remote := d.src + i * d.srcStride, loc := d.dst + i * d.dstStride, len := d.len }) →
      (rowsDisjoint d.src d.srcStride d.dst d.dstStride (oneIfZero d.rows) d.len = false →
        Sys2Proof.Machine.exec (.meMove t) s = .next (finishDesc n e1 (overlapRows n who d s).1 (overlapRows n who d s).2)) ∧
      (rowsDisjoint d.src d.srcStride d.dst d.dstStride (oneIfZero d.rows) d.len = true →
        (∀ r : List MeReq × Nat × State, r = moveRows n who e1 rows (stOk, s) →
          Sys2Proof.Machine.exec (.meMove t) s = .next (startDesc n e1 r.1 (nextStatus r.2.1 stOk) r.2.2)) ∧
        (jobHeld s who d.dst d.len = true → Sys2Proof.Machine.exec (.meMove t) s = .next (startDesc n e1 rows stOk s)) ∧
        ((∀ i < oneIfZero d.rows, jobWrite who (d.dst + i * d.dstStride) d.len = none) → ∀ r : Nat × State,
          r = rows.foldl (fun p q => if p.1 ≠ stOk ∧ p.1 ≠ stPoison then p else localRow n who e1 q p) (stOk, s) →
          Sys2Proof.Machine.exec (.meMove t) s = .next (startDesc n e1 [] (nextStatus r.1 stOk) r.2)))) ∧
    (d.op = 0x20 → d.ctl = 0 → isDevAddr d.src = true → isDevAddr d.dst = true → d.cols = 0 → d.aux32 = 0 → d.aux = 0 → d.rows ≤ 1 →
      d.src % 256 + 64 ≤ 256 → d.len = 64 → rowsDisjoint d.src d.srcStride d.dst d.dstStride 1 64 = true → e.bexp = none →
      ∀ (port : Nat) (r : ReadOut × State), jobWrite who d.dst 64 = some port → portFull s port = false → mayAccess s who d.src 64 = true →
      r = coreRead cl who d.src 64 (coreStall cl who d.src 64 s) →
      Sys2Proof.Machine.exec (.meMove t) s = .next (startDesc n e [] (if r.1.poison then stPoison else stOk)
        (pushJob port (n / 8) who r.1.bytes r.2))) ∧
    (∀ (e1 : MeEntry) (q : MeReq) (p : Nat × State),
      (e1.bexp = none → localRow n who e1 q p = moveRow n who q.remote q.loc q.len p) ∧
      (∀ (i : Nat) (g : Int), e1.bexp = some (i, g) → localRow n who e1 q p =
        if g = 0 then moveRow n who q.remote q.loc q.len p
        else scaleRow n who (if bitAt (readDesc e1.block).ctl 2 then 4 else 2) g q.remote q.loc q.len p)) ∧
    (d.op = 0x21 → indexedOk d = true → isDevAddr d.src = true → isDevAddr d.dst = true →
      ∀ (ix : List Nat × Nat × State) (r : Nat × State), ix = readIndices cl who d s →
        (∀ i < ix.1.length, jobWrite who (d.dst + i * d.dstStride) d.len = none) →
        r = (List.range ix.1.length).foldl (fun p i => if p.1 ≠ stOk ∧ p.1 ≠ stPoison then p else localRow n who e
          { kind := 5, remote := d.src + ix.1.getD i 0 * d.srcStride, loc := d.dst + i * d.dstStride, len := d.len } p) (stOk, ix.2.2) →
        Sys2Proof.Machine.exec (.meGather t) s = .next (startDesc n e [] (nextStatus r.1 ix.2.1) r.2)) ∧
    (d.op = 0x22 → indexedOk d = true → isDevAddr d.src = true → isDevAddr d.dst = true →
      ∀ (ix : List Nat × Nat × State) (r : Nat × State), ix = readIndices cl who d s →
        (∀ i < ix.1.length, jobWrite who (d.dst + ix.1.getD i 0 * d.dstStride) d.len = none) →
        r = (List.range ix.1.length).foldl (fun p i => if p.1 ≠ stOk ∧ p.1 ≠ stPoison then p else localRow n who e
          { kind := 5, remote := d.src + i * d.srcStride, loc := d.dst + ix.1.getD i 0 * d.dstStride, len := d.len } p) (stOk, ix.2.2) →
        Sys2Proof.Machine.exec (.meScatter t) s = .next (startDesc n e [] (nextStatus r.1 ix.2.1) r.2)) ∧
    (d.op = 0x21 → indexedOk d = true → isDevAddr d.src = true → isDevAddr d.dst = true → ∀ ix : List Nat × Nat × State,
      ix = readIndices cl who d s → jobHeld ix.2.2 who d.dst d.len = true →
      Sys2Proof.Machine.exec (.meGather t) s = .next (startDesc n e ((List.range ix.1.length).map fun i =>
        { kind := 5, remote := d.src + ix.1.getD i 0 * d.srcStride, loc := d.dst + i * d.dstStride, len := d.len })
        (nextStatus stOk ix.2.1) ix.2.2)) ∧
    (d.op = 0x21 → indexedOk d = true → d.src / 2 ^ 62 = 1 → isDevAddr d.dst = true → ∀ ix : List Nat × Nat × State,
      ix = readIndices cl who d s →
      Sys2Proof.Machine.exec (.meGather t) s = .next (startDesc n e ((List.range ix.1.length).flatMap fun i =>
        remotePieces 0 (d.src + ix.1.getD i 0 * d.srcStride) (d.dst + i * d.dstStride) d.len) ix.2.1 ix.2.2)) ∧
    (d.op = 0x22 → indexedOk d = true → isDevAddr d.src = true → d.dst / 2 ^ 62 = 1 → ∀ ix : List Nat × Nat × State,
      ix = readIndices cl who d s → Sys2Proof.Machine.exec (.meScatter t) s = .next (startDesc n e ((List.range ix.1.length).flatMap fun i =>
        remotePieces 1 (d.dst + ix.1.getD i 0 * d.dstStride) (d.src + i * d.srcStride) d.len) ix.2.1 ix.2.2)) ∧
    (d.op = 0x23 → isDevAddr d.src = true → isDevAddr d.dst = true → d.len = 0 → d.aux32 = 0 → d.aux = 0 → d.ctl < 4 →
      oneIfZero d.rows * 2 ^ d.ctl ≤ d.dstStride → oneIfZero d.cols * 2 ^ d.ctl ≤ d.srcStride → ∀ r : Nat × State,
        r = (List.range (oneIfZero d.rows)).foldl (fun p i => (List.range (oneIfZero d.cols)).foldl (fun p j =>
          let a := d.src + i * d.srcStride + j * 2 ^ d.ctl
          let b := d.dst + j * d.dstStride + i * 2 ^ d.ctl
          if p.1 = stBadParam then p
          else if ¬ mayAccess p.2 who a (2 ^ d.ctl) ∨ ¬ mayAccess p.2 who b (2 ^ d.ctl) then (nextStatus p.1 stBadParam, p.2)
          else (nextStatus p.1 (if (copyBytes cl who a b (2 ^ d.ctl) p.2).1 then stPoison else stOk),
            (copyBytes cl who a b (2 ^ d.ctl) p.2).2)) p) (stOk, s) →
        Sys2Proof.Machine.exec (.meTranspose t) s = .next (finishDesc n e r.1 r.2)) ∧
    (d.op = 0x24 → convertOk d = true → mayAccess s who d.src (convertBytes (bitsAt d.ctl 0 4) d.len d.src) = true →
      ∀ (r : ReadOut × State) (xs : List (Sys2Proof.Machine.Num × Bool)) (o : List Byte × List Byte × List Nat × List Nat × Bool × Bool) (w : Nat × State),
        r = coreRead cl who d.src (convertBytes (bitsAt d.ctl 0 4) d.len d.src)
          (coreStall cl who d.src (convertBytes (bitsAt d.ctl 0 4) d.len d.src) s) →
        xs = convertSource (bitsAt d.ctl 0 4) d.len d.src r.1.bytes (fun lo hi => r.1.poison && (List.range (hi - lo + 1)).any fun i =>
          (coreRead cl who (d.src + lo + i) 1 s).1.poison) →
        o = convertOut (bitsAt d.ctl 4 4) (bitAt d.ctl 8) (bitAt d.ctl 9) xs →
        w = putMarked n (d.dst + scalesAt (bitsAt d.ctl 4 4) d.len d.dst) o.2.1 o.2.2.2.1 (putMarked n d.dst o.1 o.2.2.1 (stOk, r.2)) →
        Sys2Proof.Machine.exec (.meConvert t) s = .next (finishDesc n { e with nan := o.2.2.2.2.1, ovf := o.2.2.2.2.2 }
          (nextStatus w.1 (if xs.any Prod.snd then stPoison else stOk)) w.2)) ∧
    (d.op = 0x26 → isDevAddr d.dst = true → d.src = 0 → d.srcStride = 0 → d.cols = 0 → d.aux32 = 0 → d.aux = 0 → d.ctl ≤ 2 →
      Sys2Proof.Machine.exec (.meWb t) s = .next (finishDesc n e stOk (((List.range (oneIfZero d.rows)).flatMap fun i =>
        linePieces (d.dst + i * d.dstStride) d.len).foldl (fun s q => match findLine s (cacheWays s cl who) q.1 with
          | none => s
          | some w => if d.ctl = 0 then writeBackLine s (lineIndex w q.1)
              else if d.ctl = 1 then s.setLine (lineIndex w q.1) none
              else (writeBackLine s (lineIndex w q.1)).setLine (lineIndex w q.1) none) s))) ∧
    (d.op = 0x30 → transferOk d d.src d.dst 1 = true → Sys2Proof.Machine.exec (.meFload t) s = .next (startDesc n e
      ((List.range (oneIfZero d.rows)).flatMap fun i => remotePieces 0 (d.src + i * d.srcStride) (d.dst + i * d.dstStride) d.len) stOk s)) ∧
    (d.op = 0x31 → transferOk d d.dst d.src 1 = true → Sys2Proof.Machine.exec (.meFstore t) s = .next (startDesc n e
      ((List.range (oneIfZero d.rows)).flatMap fun i => remotePieces 1 (d.dst + i * d.dstStride) (d.src + i * d.srcStride) d.len) stOk s)) ∧
    (d.op = 0x32 → transferOk d d.dst d.src 2 = true → Sys2Proof.Machine.exec (.mePut t) s = .next (startDesc n e
      ((List.range (oneIfZero d.rows)).flatMap fun i => remotePieces 1 (d.dst + i * d.dstStride) (d.src + i * d.srcStride) d.len) stOk s)) ∧
    (d.op = 0x33 → transferOk d d.src d.dst 2 = true → Sys2Proof.Machine.exec (.meGet t) s = .next (startDesc n e
      ((List.range (oneIfZero d.rows)).flatMap fun i => remotePieces 0 (d.src + i * d.srcStride) (d.dst + i * d.dstStride) d.len) stOk s)))

/-- Digests, atomics, the issue of requests and requests on device memory (R118, R119, R128, R130, R131). Where the rules leave a choice it states the model's, log entries 31 and 75. -/
def Obligations.DigestsAtomicsAndRequests : Prop :=
  (∀ (s : State) (t : BitVec 12) (e : MeEntry) (d : Desc) (n cl : Nat), n = t.toNat → cl = n / 64 →
    nextEntry s n = some e → e.kind = 0 → meRuns s n = true → devWaits s n = false → d = readDesc e.block →
    d.clean = true →
    (d.op = 0x25 → hashOk 0 d = true → mayAccess s (whoOf s n) d.src d.len = true → ∀ (r : ReadOut × State) (w : Nat × State),
      r = coreRead cl (whoOf s n) d.src d.len (coreStall cl (whoOf s n) d.src d.len s) →
      w = mePut n d.dst (sha256 r.1.bytes) r.1.poison r.2 → Sys2Proof.Machine.exec (.hashOneshot t) s =
        .next (finishDesc n e (firstStatus w.1 (if r.1.poison then stPoison else stOk)) w.2)) ∧
    (d.op = 0x25 → hashOk 1 d = true → mayAccess s (whoOf s n) d.src d.len = true → mayAccess s (whoOf s n) d.aux 128 = true →
      ∀ (r b : ReadOut × State) (msg : List Byte) (w : Nat × State),
        r = coreRead cl (whoOf s n) d.src d.len (coreStall cl (whoOf s n) d.src d.len s) →
        b = coreRead cl (whoOf s n) d.aux 128 (coreStall cl (whoOf s n) d.aux 128 r.2) →
        msg = (readState b.1.bytes).2.2 ++ r.1.bytes →
        w = mePut n d.aux (writeState (shaFold (readState b.1.bytes).1 (msg.take (msg.length / 64 * 64)))
          ((readState b.1.bytes).2.1 + d.len) (msg.drop (msg.length / 64 * 64))) (r.1.poison || b.1.poison) b.2 →
        Sys2Proof.Machine.exec (.hashAppend t) s =
          .next (finishDesc n e (firstStatus w.1 (if r.1.poison || b.1.poison then stPoison else stOk)) w.2)) ∧
    (d.op = 0x25 → hashOk 2 d = true → mayAccess s (whoOf s n) d.aux 128 = true → ∀ (b : ReadOut × State) (w z : Nat × State),
      b = coreRead cl (whoOf s n) d.aux 128 (coreStall cl (whoOf s n) d.aux 128 s) →
      w = mePut n d.dst ((shaFold (readState b.1.bytes).1 ((readState b.1.bytes).2.2 ++ shaPad (readState b.1.bytes).2.1)).flatMap
        (fun w => beBytes 4 w.toNat)) b.1.poison b.2 →
      z = mePut n d.aux (List.replicate 128 0) false w.2 → Sys2Proof.Machine.exec (.hashFinal t) s =
        .next (finishDesc n e (firstStatus w.1 (firstStatus z.1 (if b.1.poison then stPoison else stOk))) z.2)) ∧
    (d.op = 0x34 → d.len = 0 → d.rows ≤ 1 → d.cols = 0 → d.aux32 = 0 → d.srcStride = 0 → d.dstStride = 0 → d.ctl < 2 ^ 11 →
      bitsAt d.ctl 8 2 ≤ 2 → isDevAddr d.src = true → isDevAddr d.aux = true → (bitAt d.ctl 10 = true ∨ d.src = 0) →
      atopOk (d.ctl % 256) (bitsAt d.ctl 8 2) = true → d.dst % (4 * 2 ^ bitsAt d.ctl 8 2) = 0 →
      (d.dst / 2 ^ 62 = 0 → d.dst < hbmEnd) → (d.dst / 2 ^ 62 ≠ 0 → fabAddrOk d.dst = true) →
      Sys2Proof.Machine.exec (.meAtomic t) s = .next (startDesc n e
        [{ kind := 2, remote := d.dst, loc := d.src, len := 4 * 2 ^ bitsAt d.ctl 8 2 }] stOk s))) ∧
  (∀ (s : State) (core : BitVec 9), (512 ≤ meOutstanding s core.toNat ∨ ∀ i < 8, readyRequest s (8 * core.toNat + i) = none) →
    Sys2Proof.Machine.exec (.meRequestIssue core) s = .next s) ∧
  (∀ (s : State) (core : BitVec 9) (i t : Nat) (e : MeEntry) (q : MeReq), meOutstanding s core.toNat < 512 → i < 8 → t = 8 * core.toNat + i →
    readyRequest s t = some (e, q) → (∀ j < 8, j ≠ i → readyRequest s (8 * core.toNat + j) = none) →
    (q.kind = 2 → Sys2Proof.Machine.exec (.meRequestIssue core) s = .next (issueAtomic t e q s)) ∧
    (q.kind = 5 → Sys2Proof.Machine.exec (.meRequestIssue core) s = .next (issueRow t e q s)) ∧
    (q.kind ≠ 2 → q.kind ≠ 5 → isDevAddr q.remote = false → Sys2Proof.Machine.exec (.meRequestIssue core) s = .next (issueRemote t e q s)) ∧
    (q.kind ≠ 2 → q.kind ≠ 5 → isDevAddr q.remote = true → ∃ u, Sys2Proof.Machine.exec (.meRequestIssue core) s = .next u ∧
      u.core.devReqs = s.core.devReqs ++
        [{ thread := t, id := e.id, store := e.kind == 2, addr := e.addr, data := e.data, who := whoOf s t, stalled := false }] ∧
      (u.thread t).outstanding = (s.thread t).outstanding + 1 ∧ (∀ j, j ≠ t → u.thread j = s.thread j) ∧ u = { s with core := u.core })) ∧
  (∀ (s : State) (n : BitVec 6) (q : DevReq), s.core.devReqs = [q] →
    (n = 0 → Sys2Proof.Machine.exec (.deviceMemoryRequest n) s = .next s) ∧
    (n ≠ 0 → q.thread < 4096 → q.held s = false → Sys2Proof.Machine.exec (.deviceMemoryRequest n) s =
      .next (performDevice q { s with core := { s.core with devReqs := [] } })) ∧
    (n ≠ 0 → q.held s = true → ∃ u, u = (if q.stalled then s else stall q.who q.addr 1 s) ∧
      Sys2Proof.Machine.exec (.deviceMemoryRequest n) s = .next { u with core := { u.core with devReqs := [{ q with stalled := true }] } })) ∧
  (∀ (s : State) (n : BitVec 6), s.core.devReqs = [] → Sys2Proof.Machine.exec (.deviceMemoryRequest n) s = .next s) ∧
  (∀ (s : State) (t : BitVec 12), (s.meQueue t.toNat = [] ∨ ∃ e rest, s.meQueue t.toNat = e :: rest ∧ e.finished = false) →
    Sys2Proof.Machine.exec (.meDescriptorRetire t) s = .next s)

/-- The commands of group 0x07 (R229, R230, R238, R240, R597, Table 8.5). Where the rules leave a choice it states the model's, log entries 21 and 22. -/
def Obligations.TimeCommandsPerform : Prop :=
  Performs .timePortConfig .pf [(16, 6), (24, 6)] (fun m a => mfld m 16 1 < 10 ∧ mfld m 17 1 < 2 ∧ mfld m 18 2 < 8192 ∧ mfld m 20 2 < 8192 ∧
      (mfld m 17 1 = 1 → (a.queue (mfld m 18 2)).fn = 0 ∧ (a.queue (mfld m 20 2)).fn = 0))
    (fun m a x t => x = Result.none ∧ t = a.setPtp (mfld m 16 1) { a.ptp (mfld m 16 1) with
      enable := mfld m 17 1 == 1, rxq := mfld m 18 2, txq := mfld m 20 2, mac := BitVec.ofNat 48 (mfld m 24 6) } ∧
      (∀ p, p ≠ mfld m 16 1 → t.ptp p = a.ptp p)) ∧
  Declines .timePortConfig .pf [(16, 6), (24, 6)] (fun m a => 10 ≤ mfld m 16 1 ∨ 2 ≤ mfld m 17 1 ∨ 8192 ≤ mfld m 18 2 ∨ 8192 ≤ mfld m 20 2 ∨
    (mfld m 17 1 = 1 ∧ ((a.queue (mfld m 18 2)).fn ≠ 0 ∨ (a.queue (mfld m 20 2)).fn ≠ 0))) stBadParam ∧
  Performs .timeServoConfig .pf [(16, 9), (28, 2), (32, 8)] (fun m _ => mfld m 16 1 < 2 ∧ mfld m 17 1 < 32 ∧ mfld m 18 1 < 32 ∧
      8 ≤ mfld m 19 1 ∧ mfld m 20 2 ≠ 0 ∧ mfld m 22 2 ≠ 0 ∧ mfld m 24 1 ≠ 0 ∧ mfld m 24 1 ≤ 200 ∧ 100 ≤ mfld m 28 2 ∧ mfld m 28 2 ≤ 60000 ∧
      signed 64 (mfld m 32 8) ≤ servoBound (mfld m 24 1) ∧ -(servoBound (mfld m 24 1)) ≤ signed 64 (mfld m 32 8))
    (fun m a x t => let v := a.time.servo
      let w := if v.state = 0 then signed 64 (mfld m 32 8) else v.w
      let u := a.setServo { v with
        enable := mfld m 16 1 == 1, kp := mfld m 17 1, ki := mfld m 18 1, nAcq := mfld m 19 1, settle := mfld m 20 2, alarm := mfld m 22 2,
        limit := mfld m 24 1, holdMs := mfld m 28 2, freqInit := signed 64 (mfld m 32 8), w := w }
      x = Result.none ∧ (w = v.w → t = u) ∧ (w ≠ v.w → t = emit (.steer (BitVec.ofInt 64 w)) u)) ∧
  Declines .timeServoConfig .pf [(16, 9), (28, 2), (32, 8)] (fun m _ => 2 ≤ mfld m 16 1 ∨ 32 ≤ mfld m 17 1 ∨ 32 ≤ mfld m 18 1 ∨
      mfld m 19 1 < 8 ∨ mfld m 20 2 = 0 ∨ mfld m 22 2 = 0 ∨ mfld m 24 1 = 0 ∨ 200 < mfld m 24 1 ∨ mfld m 28 2 < 100 ∨ 60000 < mfld m 28 2 ∨
      servoBound (mfld m 24 1) < signed 64 (mfld m 32 8) ∨ signed 64 (mfld m 32 8) < -(servoBound (mfld m 24 1))) stBadParam ∧
  Performs .timeRearm .pf [] (fun _ a => stepBlockers a = false)
    (fun _ a x t => x = Result.none ∧ t = a.setServo { a.time.servo with
      state := 0, stepDone := false, stepBlocked := false, settled := 0, fresh := true } ∧
      t.time.servo.w = a.time.servo.w ∧ t.time.servo.i = a.time.servo.i) ∧
  Declines .timeRearm .pf [] (fun _ a => (∃ e ∈ a.plates.store, ∃ p, e.2 = some p ∧ 1 ≤ p.state ∧ p.state ≤ 3) ∨
    (∃ e ∈ a.rad.cells, 2 ≤ e.2.state)) stBusy ∧
  Performs .timeSynce .pf [(16, 1)] (fun m _ => mfld m 16 1 < 8 ∨ mfld m 16 1 = 0xFF)
    (fun m a x t => x = Result.none ∧
      (mfld m 16 1 = 0xFF → t = squelch { a with time := { a.time with synceSource := none, synceGood := none } }) ∧
      (mfld m 16 1 < 8 → let p := Tab.get FhPort.reset a.rad.ports (mfld m 16 1)
        (p.link = true ∧ p.fecLock = true → p.upAt + 196608000 ≤ a.now → t = { a with time := { a.time with
          synceSource := some (mfld m 16 1), synceGood := some p.upAt, squelched := false } }) ∧
        (p.link = true ∧ p.fecLock = true → a.now < p.upAt + 196608000 → t = squelch { a with time := { a.time with
          synceSource := some (mfld m 16 1), synceGood := some p.upAt } }) ∧
        (p.link = false ∨ p.fecLock = false → t = squelch { a with time := { a.time with
          synceSource := some (mfld m 16 1), synceGood := none } })) ∧
      (mfld m 16 1 = 0xFF → t.time.squelched = true)) ∧
  Declines .timeSynce .pf [(16, 1)] (fun m _ => 8 ≤ mfld m 16 1 ∧ mfld m 16 1 ≠ 0xFF) stBadParam ∧
  Performs .timeQuery .pf [] (fun _ _ => True)
    (fun _ a x t => t = a ∧ let v := a.time.servo
      x = { fields := [], block := some (itemsBlock [v.state.toNat, unsigned 64 v.w, unsigned 64 v.i, unsigned 64 v.lastX, v.commitAt,
        v.settled, unsigned 64 v.n, v.sR]) })

/-- The servo (R234 to R239). `x` is the offset in 1/256 ridge ticks. Where the rules leave a choice it states the model's, log entry 21. -/
def Obligations.ServoCommitsAndHoldover : Prop :=
  (∀ (s : State) (frac : BitVec 8) (v : Servo) (k : Nat) (x : Int), v = s.time.servo → k = s.time.measAt.toNat →
    x = s.time.measOfs.toInt * 256 + frac.toNat →
    ((v.enable = false ∨ (v.hasLast = true ∧ k ≤ v.lastAt) ∨ s.now < k ∨ k < v.sR) →
      Sys2Proof.Machine.exec (.measCommit frac) s = .next (timeCount 6 s)) ∧
    (¬ (v.enable = false ∨ (v.hasLast = true ∧ k ≤ v.lastAt) ∨ s.now < k ∨ k < v.sR) →
      ∃ (w : Servo) (u : State), Sys2Proof.Machine.exec (.measCommit frac) s = .next u ∧
        w = servoCommit v x k s.now ∧
        -- the first commit of a run
        ((v.fresh = true ∨ v.state = 0 ∨ v.state = 3 ∨ 2 ^ 33 < k - v.lastAt) →
          w.i = v.i ∧ w.w = v.w ∧ w.settled = 0 ∧ (v.state = 0 → w.state = 1) ∧ (v.state = 3 → w.state = 2) ∧
          (v.state = 1 ∨ v.state = 2 → w.state = v.state)) ∧
        -- a further commit in ACQUIRE
        (¬ (v.fresh = true ∨ 2 ^ 33 < k - v.lastAt) → v.state = 1 →
          w.state = 1 ∧ w.i = servoClamp v.limit (v.i - roundHalfUp (floorDiv ((x - v.lastX) * 2 ^ 40) ((k - v.lastAt : Nat) : Int)) 1) ∧ w.w = w.i ∧
          ((x - v.lastX).natAbs ≤ 256 * v.settle → w.settled = v.settled + 1) ∧
          (256 * v.settle < (x - v.lastX).natAbs → w.settled = 0)) ∧
        -- a further commit in LOCKED
        (¬ (v.fresh = true ∨ 2 ^ 33 < k - v.lastAt) → v.state = 2 →
          w.state = 2 ∧ w.i = servoClamp v.limit (v.i - roundHalfUp (floorDiv (x * 2 ^ 40) ((k - v.lastAt : Nat) : Int)) v.ki) ∧
          v.w - 2814749767 ≤ w.w ∧ w.w ≤ v.w + 2814749767 ∧
          (let y := servoClamp v.limit (w.i - roundHalfUp (floorDiv (x * 2 ^ 40) ((k - v.lastAt : Nat) : Int)) v.kp)
           v.w - 2814749767 ≤ y → y ≤ v.w + 2814749767 → w.w = y)) ∧
        -- the step
        (w.state = 1 → v.nAcq ≤ w.settled → stepBlockers s = false →
          u.clk.ridge = BitVec.ofInt 64 ((s.now : Int) - floorDiv (x + 128) 256) ∧ u.time.servo.state = 2 ∧ u.time.servo.stepDone = true ∧
          u.time.servo.sR = u.clk.ridge.toNat ∧ u.time.txts = [] ∧ (∀ n, (u.tin n).fifo = [])) ∧
        (w.state = 1 → v.nAcq ≤ w.settled → stepBlockers s = true →
          u.clk = s.clk ∧ u.time.servo = { w with stepBlocked := true } ∧ u.time.txts = s.time.txts ∧ u.fab = s.fab ∧ u.rad = s.rad) ∧
        ((w.state ≠ 1 ∨ w.settled < v.nAcq) → u.clk = s.clk ∧ u.time.txts = s.time.txts ∧ u.fab = s.fab ∧ u.rad = s.rad ∧
          u.time.servo.state = w.state ∧ u.time.servo.i = w.i ∧ u.time.servo.w = w.w ∧ u.time.servo.stepDone = v.stepDone) ∧
        w.holdNow = v.holdMs ∧ u.mem = s.mem ∧ u.host = s.host ∧ u.plates = s.plates ∧
        u.rad = { s.rad with ports := u.rad.ports } ∧
        u.fab = { s.fab with tracks := u.fab.tracks, heldBack := u.fab.heldBack })) ∧
  (∀ s : State, let v := s.time.servo
    (v.state = 2 → v.lastCommit + v.holdNow * msTicks ≤ s.now →
      ∃ u : State, Sys2Proof.Machine.exec .holdoverEntry s = .next u ∧ u.time.servo = { v with state := 3, w := v.i, fresh := true } ∧
        u.time.cnt = (timeCount 8 s).time.cnt ∧ (v.w = v.i → u.out = s.out) ∧
        (v.w ≠ v.i → u.out = .steer (BitVec.ofInt 64 v.i) :: s.out)) ∧
    (¬ (v.state = 2 ∧ v.lastCommit + v.holdNow * msTicks ≤ s.now) → Sys2Proof.Machine.exec .holdoverEntry s = .next s))

/-- The timing pins, the stamp queues and PTP frames (R229 to R233, R240 to R243). Where the rules leave a choice it states the model's, log entries 21 and 22. -/
def Obligations.TimingPinsStampsAndPtpFrames : Prop :=
  (∀ (s : State) (port : BitVec 4) (wide : Bool),
    (Tab.get [] s.time.txts port.toNat = [] →
      Sys2Proof.Machine.exec (.txtsHeadRead port wide) s = .next (readOut64 0 (0x02800100 + 16 * port.toNat) 0 wide s)) ∧
    (∀ e r, Tab.get [] s.time.txts port.toNat = e :: r → ∃ u : State,
      Sys2Proof.Machine.exec (.txtsHeadRead port wide) s = .next (readOut64 0 (0x02800100 + 16 * port.toNat)
        (2 ^ 48 * e.frac.toNat + 2 ^ 32 * e.id.toNat + 2 * bit e.flag + 1) wide u) ∧
      Tab.get [] u.time.txts port.toNat = r ∧ Tab.get 0 u.time.txtsRidge port.toNat = e.ridge ∧
      (∀ p, p ≠ port.toNat → Tab.get [] u.time.txts p = Tab.get [] s.time.txts p) ∧
      u = { s with time := { s.time with txts := u.time.txts, txtsRidge := u.time.txtsRidge } })) ∧
  (∀ (s : State) (n : BitVec 1) (wide : Bool),
    ((s.tin n.toNat).fifo = [] →
      Sys2Proof.Machine.exec (.tinHeadRead n wide) s = .next (readOut64 0 (0x02800300 + 16 * n.toNat) 0 wide s)) ∧
    (∀ e r, (s.tin n.toNat).fifo = e :: r →
      Sys2Proof.Machine.exec (.tinHeadRead n wide) s = .next (readOut64 0 (0x02800300 + 16 * n.toNat)
        (2 ^ 48 * e.frac.toNat + 2 * bit e.flag + 1) wide (s.setTin n.toNat { s.tin n.toNat with fifo := r, last := e.ridge })))) ∧
  (∀ (s : State) (n : BitVec 2) (ctrl : BitVec 64),
    Sys2Proof.Machine.exec (.toutEnable n ctrl) s = .next (s.setTout n.toNat (toutWrite s.now (s.tout n.toNat) ctrl.toNat)) ∧
    (bitAt ctrl.toNat 0 = false → (toutWrite s.now (s.tout n.toNat) ctrl.toNat).en = false ∧
      (toutWrite s.now (s.tout n.toNat) ctrl.toNat).next = none)) ∧
  (∀ (s : State) (n : BitVec 2) (t : Tout), t = s.tout n.toNat →
    (t.next = none ∨ t.en = false ∨ (∃ e, t.next = some e ∧ s.now < e) → Sys2Proof.Machine.exec (.toutPulse n) s = .next s) ∧
    (∀ e, t.next = some e → t.en = true → e ≤ s.now → let next := if t.aMode then some (e + t.aPeriod) else none
      (t.aGate = true → s.time.servo.stepDone = false →
        Sys2Proof.Machine.exec (.toutPulse n) s = .next (s.setTout n.toNat { t with next := next })) ∧
      (t.aGate = false ∨ s.time.servo.stepDone = true →
        Sys2Proof.Machine.exec (.toutPulse n) s = .next (s.setTout n.toNat { t with
          next := next, pulses := (t.pulses.filter fun p => decide (s.now < p.1)) ++ [(e + t.aWidth, t.aPol)] }))) ∧
    (∀ (c now : Nat) (p : Nat × Bool) (rest : List (Nat × Bool)), (toutWrite s.now t c).pulses = t.pulses ∧
      (t.pulses = p :: rest → now < p.1 → toutLevel t now = !p.2))) ∧
  (∀ (s : State) (n : BitVec 1) (falling : Bool) (t : Tin), t = s.tin n.toNat →
    let sel := if falling then bitAt t.edges.toNat 1 else bitAt t.edges.toNat 0
    let stamp : Stamp := { ridge := s.clk.ridge, frac := BitVec.ofNat 8 (32 * s.clk.phi.toNat), id := 0, flag := falling }
    ((sel = false ∨ (∃ e, t.lastEdge = some e ∧ s.root < e + 32)) → Sys2Proof.Machine.exec (.tinEdge n falling) s = .next s) ∧
    (sel = true → (t.lastEdge = none ∨ (∃ e, t.lastEdge = some e ∧ e + 32 ≤ s.root)) →
      (t.fifo.length < 16 → Sys2Proof.Machine.exec (.tinEdge n falling) s = .next (dryTriggerAt (1 + n.toNat) s.now
        (s.setTin n.toNat { t with fifo := t.fifo ++ [stamp], lastEdge := some s.root }))) ∧
      (16 ≤ t.fifo.length → Sys2Proof.Machine.exec (.tinEdge n falling) s = .next (dryTriggerAt (1 + n.toNat) s.now
        (timeCount 9 (s.setTin n.toNat { t with ovf := true, lastEdge := some s.root })))))) ∧
  (∀ s : State,
    (∀ p t, s.time.synceSource = some p → s.time.synceGood = some t → (Tab.get FhPort.reset s.rad.ports p).link = true →
      (Tab.get FhPort.reset s.rad.ports p).fecLock = true → t + 196608000 ≤ s.now →
      Sys2Proof.Machine.exec .synceResume s = .next { s with time := { s.time with squelched := false } }) ∧
    ((s.time.synceSource = none ∨ s.time.synceGood = none ∨ (∃ t, s.time.synceGood = some t ∧ s.now < t + 196608000) ∨
      (∃ p, s.time.synceSource = some p ∧ ((Tab.get FhPort.reset s.rad.ports p).link = false ∨
        (Tab.get FhPort.reset s.rad.ports p).fecLock = false))) → Sys2Proof.Machine.exec .synceResume s = .next s)) ∧
  (∀ (s : State) (port : BitVec 1) (speed : BitVec 2) (raw : BitVec 72) (frame : List Byte) (p : PtpPort), p = s.ptp (8 + port.toNat) →
    (¬ (fldBE frame 12 2 = 0x88F7 ∨ (fldBE frame 12 2 = 0x8100 ∧ fldBE frame 16 2 = 0x88F7)) →
      Sys2Proof.Machine.exec (.mgmtPtpFrameRx port speed raw frame) s = .next s) ∧
    ((fldBE frame 12 2 = 0x88F7 ∨ (fldBE frame 12 2 = 0x8100 ∧ fldBE frame 16 2 = 0x88F7)) →
      (p.enable = false ∨ ptpDestination p (fldBE frame 0 6) = false →
        Sys2Proof.Machine.exec (.mgmtPtpFrameRx port speed raw frame) s = .next (timeCount 1 s)) ∧
      (p.enable = true → ptpDestination p (fldBE frame 0 6) = true →
        let st := correctStamp raw.toNat (max 1 speed.toNat) false
        let r := postRecord p.rxq { bytes := record 32 [(0, 1, 8 + port.toNat), (1, 1, max 1 speed.toNat), (2, 2, frame.length), (4, 1, st.2),
            (8, 8, st.1)] ++ sliceBytes frame 0 (alignUp frame.length 32), poison := false, owner := 2, owned := 8 + port.toNat } s
        Sys2Proof.Machine.exec (.mgmtPtpFrameRx port speed raw frame) s = .next (timeCount (if r.1 then 0 else 1) r.2)))) ∧
  (∀ (s : State) (port : BitVec 1) (speed : BitVec 2) (raw : BitVec 72) (p : PtpPort), p = s.ptp (8 + port.toNat) →
    ((p.enable = false ∨ (∃ t, p.lastTx = some t ∧ s.now < t + 4096) ∨
        (s.queue p.txq).descs.find? (fun d => d.op == 4 && decide (d.phase < 2)) = none) →
      Sys2Proof.Machine.exec (.mgmtPtpFrameTx port speed raw) s = .next s) ∧
    (∀ d, p.enable = true → (p.lastTx = none ∨ (∃ t, p.lastTx = some t ∧ t + 4096 ≤ s.now)) →
      (s.queue p.txq).descs.find? (fun d => d.op == 4 && decide (d.phase < 2)) = some d →
      let b := d.payload
      let s0 := updDesc p.txq d.index (fun e => { e with phase := 2 }) s
      let st := correctStamp raw.toNat (max 1 speed.toNat) true
      let one := bitAt (fld b 2 1) 1
      let sync := isSync (b.drop 16)
      ((fld b 4 2 < 60 ∨ 256 < fld b 4 2 ∨ b.length ≠ 16 + fld b 4 2 ∨ 4 ≤ fld b 2 1 ∨ fld b 3 1 ≠ 0 ∨ fld b 6 10 ≠ 0) →
        Sys2Proof.Machine.exec (.mgmtPtpFrameTx port speed raw) s = .next (timeCount 3 s0)) ∧
      (60 ≤ fld b 4 2 → fld b 4 2 ≤ 256 → b.length = 16 + fld b 4 2 → fld b 2 1 < 4 → fld b 3 1 = 0 → fld b 6 10 = 0 →
        ∃ u : State, u = timeCount 2 (emit (.ptpFrame (8 + port.toNat) (wireFrame (if one ∧ sync then oneStep (b.drop 16) st.1 st.2 else b.drop 16)))
            (s0.setPtp (8 + port.toNat) { p with lastTx := some s.now })) ∧
          (let u' := if one ∧ ¬ sync then timeCount 5 u else u
           (bitAt (fld b 2 1) 0 = false → Sys2Proof.Machine.exec (.mgmtPtpFrameTx port speed raw) s = .next u') ∧
           (bitAt (fld b 2 1) 0 = true → Sys2Proof.Machine.exec (.mgmtPtpFrameTx port speed raw) s = .next (pushStamp (8 + port.toNat)
              { ridge := BitVec.ofNat 64 st.1, frac := BitVec.ofNat 8 st.2, id := BitVec.ofNat 16 (fld b 0 2), flag := one && sync } u'))))))

/-- The cell commands (R166 to R169, R193, R194). Where the rules leave a choice it states the model's, log entries 37 and 38. -/
def Obligations.CellCommandsAndStateChanges : Prop :=
  Performs .cellConfig .pf [(16, 2), (24, 8)] (fun m a =>
      let r := sliceBytes (mdata m) 0 256
      let c := { a.cell (mfld m 16 2) with record := r, state := 1 }
      mfld m 16 2 < 384 ∧ (a.cell (mfld m 16 2)).engaged = false ∧ cellRecordOk r = true ∧ ranHolds a c.harqBase c.harqLen = true ∧
      harqClash a (mfld m 16 2) c = false ∧ otherLoads a (mfld m 16 2) + c.load ≤ 262144)
    (fun m a x t => x = Result.none ∧ t.cell (mfld m 16 2) =
        { a.cell (mfld m 16 2) with record := sliceBytes (mdata m) 0 256, state := 1 } ∧
      (∀ k, k ≠ mfld m 16 2 → t.cell k = a.cell k) ∧ t = { a with rad := { a.rad with cells := t.rad.cells } }) ∧
  Declines .cellConfig .pf [(16, 2), (24, 8)] (fun m a => mfld m 16 2 < 384 ∧ ((a.cell (mfld m 16 2)).state = 2 ∨
    (a.cell (mfld m 16 2)).state = 3 ∨ (a.cell (mfld m 16 2)).change.isSome = true)) stBusy ∧
  Declines .cellConfig .pf [(16, 2), (24, 8)] (fun m a => 384 ≤ mfld m 16 2 ∨ ((a.cell (mfld m 16 2)).engaged = false ∧
    cellRecordOk (sliceBytes (mdata m) 0 256) = false)) stBadParam ∧
  (let may := fun (from_ : Nat) (m : Mbx) (a : State) => mfld m 16 2 < 384 ∧ (a.cell (mfld m 16 2)).change = none ∧
      (a.cell (mfld m 16 2)).state = from_ ∧ hasWindows a (mfld m 16 2) = true
    let schedules := fun (to_ : Nat) (m : Mbx) (a : State) (x : Result) (t : State) =>
      let c := a.cell (mfld m 16 2)
      let e := alignUp (max (mfld m 24 8) (a.now + c.slotTicks)) c.slotTicks
      x = { fields := [(8, 8, e)], block := none } ∧
        t.cell (mfld m 16 2) = { c with change := some (to_, e), primary := if to_ = 3 then mfld m 18 2 else c.primary } ∧
        (∀ k, k ≠ mfld m 16 2 → t.cell k = a.cell k) ∧ t = { a with rad := { a.rad with cells := t.rad.cells } }
    Performs .cellStart .pf [(16, 2), (24, 8)] (may 1) (schedules 2) ∧
    Performs .cellShadow .pf [(16, 4), (24, 8)] (fun m a => may 1 m a ∧ mfld m 18 2 < 16384) (schedules 3) ∧
    Performs .cellTakeover .pf [(16, 2), (24, 8)] (may 3) (schedules 2)) ∧
  (∀ p ∈ ([(.cellStart, [(16, 2), (24, 8)], 1, 2), (.cellShadow, [(16, 4), (24, 8)], 1, 3), (.cellTakeover, [(16, 2), (24, 8)], 3, 2)] :
      List ((Mbx → Instr) × List (Nat × Nat) × Nat × Nat)),
    Declines p.1 .pf p.2.1 (fun m a => mfld m 16 2 < 384 ∧ (p.2.2.2 = 3 → mfld m 18 2 < 16384) ∧
      (a.cell (mfld m 16 2)).change.isSome = true) stBusy ∧
    Declines p.1 .pf p.2.1 (fun m a => mfld m 16 2 < 384 ∧ (p.2.2.2 = 3 → mfld m 18 2 < 16384) ∧
      (a.cell (mfld m 16 2)).change = none ∧ ((a.cell (mfld m 16 2)).state ≠ p.2.2.1 ∨ hasWindows a (mfld m 16 2) = false)) stNotReady ∧
    Declines p.1 .pf p.2.1 (fun m _ => 384 ≤ mfld m 16 2) stBadParam) ∧
  Performs .cellStop .pf [(16, 3), (24, 8)] (fun m a => mfld m 16 2 < 384 ∧ mfld m 18 1 < 2 ∧ (a.cell (mfld m 16 2)).change = none ∧
      ((a.cell (mfld m 16 2)).state = 2 ∨ (a.cell (mfld m 16 2)).state = 3))
    (fun m a x t => let c := a.cell (mfld m 16 2)
      let e := alignUp (max (mfld m 24 8) (a.now + c.slotTicks)) c.slotTicks
      x = { fields := [(8, 8, e)], block := none } ∧
      t.cell (mfld m 16 2) = { c with change := some (if mfld m 18 1 = 1 then 0 else 1, e) } ∧
      (∀ k, k ≠ mfld m 16 2 → t.cell k = a.cell k) ∧ t = { a with rad := { a.rad with cells := t.rad.cells } }) ∧
  Declines .cellStop .pf [(16, 3), (24, 8)] (fun m a => mfld m 16 2 < 384 ∧ mfld m 18 1 < 2 ∧
    (a.cell (mfld m 16 2)).change.isSome = true) stBusy ∧
  Performs .cellQuery .pf [(16, 2)] (fun m _ => mfld m 16 2 < 384)
    (fun m a x t => t = a ∧ let c := a.cell (mfld m 16 2)
      x = { fields := [], block := some (itemsBlock ([c.state, c.msgLate.toNat, c.deliveryDrop.toNat, c.shadowGap.toNat,
        a.rad.poisonTb.toNat, a.rad.bufClash.toNat, ((ranNow a).map Plate.overruns).getD 0] ++ cellFronthaul a (mfld m 16 2))) }) ∧
  Declines .cellQuery .pf [(16, 2)] (fun m _ => 384 ≤ mfld m 16 2) stBadParam ∧
  (∀ (s : State) (n : BitVec 9),
    (((s.cell n.toNat).change = none ∨ (∃ st t, (s.cell n.toNat).change = some (st, t) ∧ s.now < t)) →
      Sys2Proof.Machine.exec (.cellStateChange n) s = .next s) ∧
    (∀ st t, (s.cell n.toNat).change = some (st, t) → t ≤ s.now → ∃ u : State,
      Sys2Proof.Machine.exec (.cellStateChange n) s = .next u ∧
      u.cell n.toNat = { s.cell n.toNat with
        state := st, change := none, prev := some ((s.cell n.toNat).state, t),
        muted := (s.cell n.toNat).muted && st != 2 && st != 3,
        lastMseq := if st = 3 then none else (s.cell n.toNat).lastMseq } ∧
      (∀ k, k ≠ n.toNat → u.cell k = s.cell k) ∧ u.flt = { s.flt with armed := s.flt.armed.filter fun a => a.cell != n.toNat } ∧
      u = { s with flt := u.flt, rad := { s.rad with cells := u.rad.cells } }))

/-- The baseband jobs (R174 to R190). Where the rules leave a choice it states the model's, log entries 39, 40 and 41. -/
def Obligations.BasebandJobsRun : Prop :=
  (∀ (s : State) (j : Job) (f : FxJob) (p : Pdu) (u : Cut), headJob 0 s = some j → f = readFxJob j → pduOf s f.cell f.imp 2 f.pdu = some p →
    segment (bitAt f.flags 0) p.tbs = some u → decodeOk s f p u = true →
    Sys2Proof.Machine.exec .ldpcDecodeJob s = .next (takeDecode j f p u (popJob 0 s))) ∧
  (∀ (s : State) (j : Job) (f : FxJob), headJob 1 s = some j → f = readFxJob j →
    (f.op = 1 → Sys2Proof.Machine.exec .ldpcEncodeJob s = .next (joinPool 1 j f (encodeEffect f (popJob 1 s)).1
      (encodeEffect f (popJob 1 s)).2.1 (settleCell f.cell (encodeEffect f (popJob 1 s)).2.2))) ∧
    (f.op = 2 → Sys2Proof.Machine.exec .sideJob s = .next (joinPool 1 j f (sideEffect f (popJob 1 s)).1
      (sideEffect f (popJob 1 s)).2.1 (settleCell f.cell (sideEffect f (popJob 1 s)).2.2))) ∧
    (f.op ≠ 1 → f.op ≠ 2 → Sys2Proof.Machine.exec .ldpcEncodeJob s = .next (joinPool 1 j f 1 stBadParam (settleCell f.cell (popJob 1 s)))) ∧
    (f.op = 2 → Sys2Proof.Machine.exec .ldpcEncodeJob s = .next s) ∧ (f.op ≠ 2 → Sys2Proof.Machine.exec .sideJob s = .next s)) ∧
  (∀ (s : State) (j : Job) (f : FxJob), headJob 2 s = some j → f = readFxJob j →
    Sys2Proof.Machine.exec .polarJob s = .next (joinPool 2 j f (polarEffect f (popJob 2 s)).1
      (polarEffect f (popJob 2 s)).2.1 (settleCell f.cell (polarEffect f (popJob 2 s)).2.2))) ∧
  (∀ (s : State) (j : Job) (f : FxJob), headJob 3 s = some j → f = readFxJob j →
    Sys2Proof.Machine.exec .prachJob s = .next (joinPool 3 j f (prachEffect f (popJob 3 s)).1
      (prachEffect f (popJob 3 s)).2.1 (settleCell f.cell (prachEffect f (popJob 3 s)).2.2))) ∧
  (∀ s : State, (headJob 1 s = none → Sys2Proof.Machine.exec .ldpcEncodeJob s = .next s ∧ Sys2Proof.Machine.exec .sideJob s = .next s) ∧
    (headJob 2 s = none → Sys2Proof.Machine.exec .polarJob s = .next s) ∧ (headJob 3 s = none → Sys2Proof.Machine.exec .prachJob s = .next s)) ∧
  -- a job that joins a pool: its blocks wait behind those already there, and units that are idle take blocks in order
  (∀ (s : State) (pool : Nat) (j : Job) (f : FxJob) (blocks st : Nat), ∃ t : State, joinPool pool j f blocks st s = dispatchUnits pool 64 t ∧
    t.rad.poolJobs = s.rad.poolJobs ++ [{
      id := s.rad.nextJob, pool := pool, core := f.core, cnt := f.cnt % 64, who := j.who, status := st, waiting := max 1 blocks, running := 0 }] ∧
    t = { s with rad := { s.rad with poolJobs := t.rad.poolJobs, nextJob := s.rad.nextJob + 1 } }) ∧
  (∀ (s : State) (pool n : Nat),
    ((nextPoolJob s pool = none ∨ idleUnit s pool = none) → dispatchUnits pool n s = s) ∧
    (∀ j d, nextPoolJob s pool = some j → idleUnit s pool = some d → ∃ t : State, dispatchUnits pool (n + 1) s = dispatchUnits pool n t ∧
      Tab.get 0 t.rad.units (64 * pool + d) = j.id ∧ (∀ k, k ≠ 64 * pool + d → Tab.get 0 t.rad.units k = Tab.get 0 s.rad.units k) ∧
      t.rad.poolJobs = s.rad.poolJobs.map (fun x => if x.id = j.id then { x with waiting := x.waiting - 1, running := x.running + 1 } else x) ∧
      t = { s with rad := { s.rad with units := t.rad.units, poolJobs := t.rad.poolJobs } })) ∧
  (∀ s : State,
    (headJob 0 s = none → Sys2Proof.Machine.exec .ldpcDecodeJob s = .next s) ∧
    (∀ j, headJob 0 s = some j → let f := readFxJob j
      (pduOf s f.cell f.imp 2 f.pdu = none →
        Sys2Proof.Machine.exec .ldpcDecodeJob s = .next (settleCell f.cell (retireFor j.who f.core (f.cnt % 64) stBadParam (popJob 0 s)))) ∧
      (∀ p, pduOf s f.cell f.imp 2 f.pdu = some p →
        (segment (bitAt f.flags 0) p.tbs = none →
          Sys2Proof.Machine.exec .ldpcDecodeJob s = .next (settleCell f.cell (retireFor j.who f.core (f.cnt % 64) stBadParam (popJob 0 s)))) ∧
        (∀ u, segment (bitAt f.flags 0) p.tbs = some u →
          (decodeOk s f p u = true → Sys2Proof.Machine.exec .ldpcDecodeJob s = .next (takeDecode j f p u (popJob 0 s))) ∧
          (decodeOk s f p u = false →
            Sys2Proof.Machine.exec .ldpcDecodeJob s = .next (settleCell f.cell (retireFor j.who f.core (f.cnt % 64) stBadParam (popJob 0 s))))))) ∧
    (∀ j, (Tab.get [] (popJob 0 s).core.jobs 0) = (Tab.get [] s.core.jobs 0).tail ∧
      (headJob 0 s = some j → Tab.get [] s.core.jobs 0 = j :: Tab.get [] (popJob 0 s).core.jobs 0))) ∧
  (∀ (s : State) (d : BitVec 6),
    (decoderBlock s d.toNat = none → Sys2Proof.Machine.exec (.codeBlockDecoded d) s = .next s) ∧
    (∀ j i, decoderBlock s d.toNat = some (j, i) →
      let u : Cut := { bg2 := j.bg2, c := j.blocks.length, kPrime := j.kPrime, k := j.k, zc := j.zc }
      let r := ldpcDecode u ((Tab.get [] j.soft i).headD 0).toNat j.iMax ((Tab.get [] j.soft i).drop 1)
      Sys2Proof.Machine.exec (.codeBlockDecoded d) s = .next (endDecode j.id (dispatchBlocks 64 (updBlock j.id i (fun b => { b with
        done := true, bits := r.1, ok := if j.blocks.length = 1 then (tbCrc j.tbs).ok r.1 else crc24B.ok r.1,
        iters := r.2.1, unmet := r.2.2 }) s))))) ∧
  (∀ (s : State) (pool : BitVec 2) (unit : BitVec 6) (k : Nat), k = 64 * pool.toNat + unit.toNat →
    (Tab.get 0 s.rad.units k = 0 → Sys2Proof.Machine.exec (.fixedFunctionJobDone pool unit) s = .next s) ∧
    (∀ j, Tab.get 0 s.rad.units k ≠ 0 → s.rad.poolJobs.find? (·.id == Tab.get 0 s.rad.units k) = some j →
      let freed := { s with rad := { s.rad with units := Tab.set 0 s.rad.units k 0 } }
      (j.waiting = 0 → j.running ≤ 1 → Sys2Proof.Machine.exec (.fixedFunctionJobDone pool unit) s =
        .next (dispatchUnits pool.toNat 64 (retireFor j.who j.core j.cnt j.status { freed with rad := { freed.rad with
          poolJobs := s.rad.poolJobs.filter (·.id != j.id) } }))) ∧
      ((0 < j.waiting ∨ 1 < j.running) → Sys2Proof.Machine.exec (.fixedFunctionJobDone pool unit) s =
        .next (dispatchUnits pool.toNat 64 { freed with rad := { freed.rad with poolJobs := s.rad.poolJobs.map fun x =>
          if x.id = j.id then { x with running := x.running - 1 } else x } }))))

/-- The fronthaul commands and the block lock (R198 to R203, R219, R223, R224, R240). Where the rules leave a choice it states the model's, log entries 43, 44 and 45. -/
def Obligations.FronthaulCommandsAndLinks : Prop :=
  Performs .fhPortConfig .pf [(16, 1), (18, 4), (24, 6), (32, 1)] (fun m a => mfld m 16 1 < 8 ∧ 1518 ≤ mfld m 18 2 ∧ mfld m 18 2 ≤ 9216 ∧
      mfld m 20 2 < 8192 ∧ mfld m 32 1 < 8 ∧ ((a.queue (mfld m 20 2)).en = true → (a.queue (mfld m 20 2)).fn = 0) ∧ ∀ e ∈ a.rad.streams, e.2.record ≠ [] → e.2.port = mfld m 16 1 →
        (a.cell e.2.cell).state ≠ 2 ∧ (a.cell e.2.cell).state ≠ 3)
    (fun m a x t => x = Result.none ∧ t.fhPort (mfld m 16 1) = { a.fhPort (mfld m 16 1) with
        maxFrame := mfld m 18 2, excQ := mfld m 20 2, mac := BitVec.ofNat 48 (mfld m 24 6), multicast := BitVec.ofNat 3 (mfld m 32 1) } ∧
      (∀ p, p ≠ mfld m 16 1 → t.fhPort p = a.fhPort p) ∧ t = { a with rad := { a.rad with ports := t.rad.ports } }) ∧
  Declines .fhPortConfig .pf [(16, 1), (18, 4), (24, 6), (32, 1)] (fun m a => 8 ≤ mfld m 16 1 ∨ mfld m 18 2 < 1518 ∨ 9216 < mfld m 18 2 ∨
    8192 ≤ mfld m 20 2 ∨ 8 ≤ mfld m 32 1 ∨ ((a.queue (mfld m 20 2)).en = true ∧ (a.queue (mfld m 20 2)).fn ≠ 0)) stBadParam ∧
  Declines .fhPortConfig .pf [(16, 1), (18, 4), (24, 6), (32, 1)] (fun m a => mfld m 16 1 < 8 ∧ 1518 ≤ mfld m 18 2 ∧ mfld m 18 2 ≤ 9216 ∧
    mfld m 20 2 < 8192 ∧ mfld m 32 1 < 8 ∧ ((a.queue (mfld m 20 2)).en = true → (a.queue (mfld m 20 2)).fn = 0) ∧ ∃ e ∈ a.rad.streams, e.2.record ≠ [] ∧ e.2.port = mfld m 16 1 ∧
      ((a.cell e.2.cell).state = 2 ∨ (a.cell e.2.cell).state = 3)) stBusy ∧
  Performs .fhStreamConfig .pf [(16, 2), (24, 8)] (fun m a => let x : Stream := { Stream.reset with record := sliceBytes (mdata m) 0 64 }
      mfld m 16 2 < 6144 ∧ Sys2Proof.Machine.streamOk a (mfld m 16 2) x = true ∧ ranClaims a 7 (mfld m 16 2) = true ∧ (a.cell x.cell).engaged = false ∧
      ((a.stream (mfld m 16 2)).record ≠ [] → (a.cell (a.stream (mfld m 16 2)).cell).engaged = false))
    (fun m a x t => x = Result.none ∧
      t.stream (mfld m 16 2) = { Stream.reset with record := sliceBytes (mdata m) 0 64 } ∧
      (∀ k, k ≠ mfld m 16 2 → t.stream k = a.stream k) ∧ Tab.get Policer.reset t.traf.policers (mfld m 16 2) = Policer.reset ∧
      (∀ k, k ≠ mfld m 16 2 → Tab.get Policer.reset t.traf.policers k = Tab.get Policer.reset a.traf.policers k) ∧
      t = { a with rad := { a.rad with streams := t.rad.streams }, traf := { a.traf with policers := t.traf.policers } }) ∧
  Declines .fhStreamConfig .pf [(16, 2), (24, 8)] (fun m a => 6144 ≤ mfld m 16 2 ∨
    Sys2Proof.Machine.streamOk a (mfld m 16 2) { Stream.reset with record := sliceBytes (mdata m) 0 64 } = false) stBadParam ∧
  Declines .fhStreamConfig .pf [(16, 2), (24, 8)] (fun m a => let x : Stream := { Stream.reset with record := sliceBytes (mdata m) 0 64 }
    mfld m 16 2 < 6144 ∧ Sys2Proof.Machine.streamOk a (mfld m 16 2) x = true ∧ ranClaims a 7 (mfld m 16 2) = true ∧
    ((a.cell x.cell).engaged = true ∨ ((a.stream (mfld m 16 2)).record ≠ [] ∧ (a.cell (a.stream (mfld m 16 2)).cell).engaged = true))) stBusy ∧
  Performs .fhCellTiming .pf [(16, 2), (32, 28)] (fun m a => mfld m 16 2 < 384 ∧
      fhTimingOk { a.cell (mfld m 16 2) with timing := sliceBytes (mbytes m) 32 28 } = true ∧ (a.cell (mfld m 16 2)).engaged = false)
    (fun m a x t => x = Result.none ∧ t.cell (mfld m 16 2) = { a.cell (mfld m 16 2) with timing := sliceBytes (mbytes m) 32 28 } ∧
      (∀ k, k ≠ mfld m 16 2 → t.cell k = a.cell k) ∧ t = { a with rad := { a.rad with cells := t.rad.cells } }) ∧
  Declines .fhCellTiming .pf [(16, 2), (32, 28)] (fun m a => 384 ≤ mfld m 16 2 ∨
    fhTimingOk { a.cell (mfld m 16 2) with timing := sliceBytes (mbytes m) 32 28 } = false) stBadParam ∧
  Performs .fhMirror .pf [(16, 4), (24, 8)] (fun m a => mfld m 16 2 < 384 ∧ mfld m 18 1 < 3 ∧
      (mfld m 18 1 ≠ 0 → mirrorRingOk a (mfld m 18 1) (mfld m 19 1) (mfld m 24 8) = true) ∧ (a.cell (mfld m 16 2)).engaged = false)
    (fun m a x t => x = Result.none ∧ t.cell (mfld m 16 2) = { a.cell (mfld m 16 2) with
        role := mfld m 18 1, ring := mfld m 24 8, ringLog := mfld m 19 1, ringAt := 0, mseq := 0 } ∧
      (∀ k, k ≠ mfld m 16 2 → t.cell k = a.cell k) ∧
      (mfld m 18 1 ≠ 1 → t = { a with rad := { a.rad with cells := t.rad.cells } }) ∧
      (mfld m 18 1 = 1 → ∃ u : State, u.cell (mfld m 16 2) = t.cell (mfld m 16 2) ∧ u = { a with rad := { a.rad with cells := u.rad.cells } } ∧
        t = sendEcho (shadowOf u (u.cell (mfld m 16 2))) u)) ∧
  Declines .fhMirror .pf [(16, 4), (24, 8)] (fun m a => 384 ≤ mfld m 16 2 ∨ 3 ≤ mfld m 18 1 ∨
    (mfld m 18 1 ≠ 0 ∧ mirrorRingOk a (mfld m 18 1) (mfld m 19 1) (mfld m 24 8) = false)) stBadParam ∧
  Performs .fhQuery .pf [(16, 1), (18, 2)] (fun m _ => (mfld m 16 1 = 0 ∧ mfld m 18 2 < 8) ∨ (mfld m 16 1 = 1 ∧ mfld m 18 2 < 6144))
    (fun m a x t => t = a ∧
      (mfld m 16 1 = 0 → x = { fields := [], block := some (itemsBlock ((List.range 16).map fun i =>
        (Tab.get 0 a.rad.portCnt (16 * mfld m 18 2 + i)).toNat)) }) ∧
      (mfld m 16 1 = 1 → x = { fields := [], block := some (itemsBlock ((List.range 8).map fun i =>
        (Tab.get 0 a.rad.streamCnt (8 * mfld m 18 2 + i)).toNat)) })) ∧
  Declines .fhQuery .pf [(16, 1), (18, 2)] (fun m _ => 2 ≤ mfld m 16 1 ∨ (mfld m 16 1 = 0 ∧ 8 ≤ mfld m 18 2)) stBadParam ∧
  (∀ (s : State) (port : BitVec 3) (fec : Bool), ∃ u : State, Sys2Proof.Machine.exec (.fhBlockLockLoss port fec) s = .next u ∧
    u.fhPort port.toNat = { s.fhPort port.toNat with link := false, fecLock := fec } ∧
    (∀ p, p ≠ port.toNat → u.fhPort p = s.fhPort p) ∧
    u.rad.portCnt = (if (s.fhPort port.toNat).link then (portCount port.toNat 13 s).rad.portCnt else s.rad.portCnt) ∧
    (s.time.synceSource ≠ some port.toNat → u.time = s.time) ∧
    (s.time.synceSource = some port.toNat → u.time.synceGood = none ∧ u.time.squelched = true ∧
      u.time.cnt = (if s.time.squelched then s.time.cnt else bump s.time.cnt 11)) ∧
    u = { s with rad := { s.rad with ports := u.rad.ports, portCnt := u.rad.portCnt }, time := u.time }) ∧
  (∀ (s v : State) (port : BitVec 3), v = (if (s.fhPort port.toNat).link then s else dropMissed port.toNat s) →
    ∃ u : State, Sys2Proof.Machine.exec (.fhBlockLockRegain port) s = .next u ∧
    u.fhPort port.toNat = { v.fhPort port.toNat with
      link := true, fecLock := true, upAt := if (v.fhPort port.toNat).link then (v.fhPort port.toNat).upAt else s.now } ∧
    (∀ p, p ≠ port.toNat → u.fhPort p = v.fhPort p) ∧
    (s.time.synceSource = some port.toNat → s.time.synceGood = none → u.time = { v.time with synceGood := some s.now }) ∧
    ((s.time.synceSource ≠ some port.toNat ∨ s.time.synceGood.isSome = true) → u.time = v.time) ∧
    u = { v with rad := { v.rad with ports := u.rad.ports }, time := u.time }) ∧
  (∀ (s : State) (p : Nat), (∀ x ∈ (s.fhPort p).frames, s.now < x.rel) → dropMissed p s = s)

/-- The fronthaul's frames and symbols (R198 to R221). Where the rules leave a choice it states the model's, log entries 42, 43, 44, 45 and 46. -/
def Obligations.FronthaulFramesSymbolsAndMirrors : Prop :=
  (∀ (s : State) (port : BitVec 3) (raw : BitVec 72) (frame : List Byte), let p := port.toNat
    let off := if fldBE frame 12 2 = 0x8100 then 18 else 14
    ((s.fhPort p).link = false → ∀ ok : Bool, Sys2Proof.Machine.exec (.fhFrameRx port raw ok frame) s = .next s) ∧
    ((s.fhPort p).link = true → ∀ ok : Bool, (ok = false ∨ frame.length < 60) →
      Sys2Proof.Machine.exec (.fhFrameRx port raw ok frame) s = .next (portCount p 1 (portCount p 0 s))) ∧
    ((s.fhPort p).link = true → 60 ≤ frame.length → (s.fhPort p).maxFrame < frame.length + 4 →
      Sys2Proof.Machine.exec (.fhFrameRx port raw true frame) s = .next (portCount p 2 (portCount p 0 s))) ∧
    ((s.fhPort p).link = true → 60 ≤ frame.length → frame.length + 4 ≤ (s.fhPort p).maxFrame →
      (fldBE frame (off - 2) 2 = 0xAEFE → Sys2Proof.Machine.exec (.fhFrameRx port raw true frame) s = .next (ingress true p
        (if fldBE frame 12 2 = 0x8100 then fldBE frame 14 2 % 4096 else 0) (fldBE frame 6 6) (frame.length + 4) s.now frame
        (frame.drop off) (portCount p 0 s))) ∧
      (fldBE frame (off - 2) 2 = 0x88F7 → Sys2Proof.Machine.exec (.fhFrameRx port raw true frame) s =
        .next (ptpReceive p 0 raw.toNat frame (portCount p 0 s))) ∧
      (fldBE frame (off - 2) 2 ≠ 0xAEFE → fldBE frame (off - 2) 2 ≠ 0x88F7 →
        (exceptionAddress (s.fhPort p) (fldBE frame 0 6) = true →
          Sys2Proof.Machine.exec (.fhFrameRx port raw true frame) s = .next (exceptionFrame p frame (portCount p 0 s))) ∧
        (exceptionAddress (s.fhPort p) (fldBE frame 0 6) = false →
          Sys2Proof.Machine.exec (.fhFrameRx port raw true frame) s = .next (portCount p 3 (portCount p 0 s)))))) ∧
  (∀ (s : State) (port : BitVec 3), let p := port.toNat
    (headJob (0x10 + p) s = none → Sys2Proof.Machine.exec (.fhEgressJob port) s = .next s) ∧
    (∀ j, headJob (0x10 + p) s = some j →
      let b := leBytes 64 j.block.toNat
      let x := s.stream (fld b 0 2)
      let s1 := popJob (0x10 + p) s
      ((Sys2Proof.Machine.egressOk s b = false ∨ x.port ≠ p) → Sys2Proof.Machine.exec (.fhEgressJob port) s =
        .next (retireFor 256 (if x.record = [] then j.core else x.core) (fld b 31 1 % 64) stBadParam s1)) ∧
      (Sys2Proof.Machine.egressOk s b = true → x.port = p →
        let s2 : State := { s1 with rad := { s1.rad with nextJob := s1.rad.nextJob + 1 } }
        let r := if fld b 2 1 = 0 then egressUser (fld b 0 2) (fld b 8 8) (fld b 16 8) (fld b 24 2) (fld b 26 2) s1.rad.nextJob s2
          else egressControl (fld b 0 2) (fld b 3 1) (fld b 8 8) (fld b 16 8) (fld b 28 2) (fld b 30 1) s1.rad.nextJob s2
        Sys2Proof.Machine.exec (.fhEgressJob port) s = .next (closeJob s1.rad.nextJob x.core (fld b 31 1) j.who r.1 r.2)))) ∧
  (∀ (s : State) (port : BitVec 3) (raw : BitVec 72), let p := port.toNat
    (ptpWaits s p = true → Sys2Proof.Machine.exec (.fhTxFrameBoundary port raw) s = .next (ptpTransmit p 0 raw.toNat s)) ∧
    (ptpWaits s p = false → let r := sendRadio p (s.fhPort p).frames.length s
      (r.1 = true → Sys2Proof.Machine.exec (.fhTxFrameBoundary port raw) s = .next r.2) ∧
      (r.1 = false → let v := atDecision p r.2
        (pickRival v (egressRivals v p) = none → Sys2Proof.Machine.exec (.fhTxFrameBoundary port raw) s = .next v) ∧
        (∀ x u, pickRival v (egressRivals v p) = some x → serveHead x.hq v = (true, u) →
          Sys2Proof.Machine.exec (.fhTxFrameBoundary port raw) s =
            .next (chargeQueue x.hq ((v.queue x.hq).headL.getD 0) u)) ∧
        (∀ x u, pickRival v (egressRivals v p) = some x → serveHead x.hq v = (false, u) →
          Sys2Proof.Machine.exec (.fhTxFrameBoundary port raw) s = .next (passQueue x.hq u))))) ∧
  (∀ (s : State) (p k : Nat) (f : TxFrame), readyFrame s p = some f → frameDrop s p f = none →
    sendRadio p (k + 1) s = (true, frameGone f.job stOk (portCount p 8 (emit (.fhFrame p (wireFrame f.bytes)) (takeFrameOut p f s))))) ∧
  (∀ (s : State) (stream : BitVec 13) (air : BitVec 64) (x : Stream) (c : Cell), x = s.stream stream.toNat → c = s.cell x.cell →
    let n := stream.toNat
    let k := air.toNat
    let opens := x.record ≠ [] ∧ x.dir = 0 ∧ (c.symbolAt k).isSome = true ∧ collects c k = true
    let shadow := cellStateFor c (k / c.slotTicks * c.slotTicks) == 3
    (¬ (opens ∧ (c.symbolEnd k : Int) + c.ulRxMin ≤ s.now) → Sys2Proof.Machine.exec (.symbolWindowOpen stream air) s = .next s) ∧
    (opens → (c.symbolEnd k : Int) + c.ulRxMin ≤ s.now → Sys2Proof.Machine.exec (.symbolWindowOpen stream air) s =
      .next (if x.flag 2 = true ∧ c.prachUses ((c.symbolAt k).getD 0) = true then openSymbol n k true (openSymbol n k false s)
        else openSymbol n k false s)) ∧
    (¬ (opens ∧ c.symbolEnd k + c.ulRxMax + (if shadow then c.mirrorDelay else 0) < s.now) →
      Sys2Proof.Machine.exec (.symbolClose stream air) s = .next s) ∧
    (opens → c.symbolEnd k + c.ulRxMax + (if shadow then c.mirrorDelay else 0) < s.now →
      ∀ b, ((openSymbol n k false s).stream n).symbol k false = some b →
        (b.closed = true → Sys2Proof.Machine.exec (.symbolClose stream air) s = .next (openSymbol n k false s)) ∧
        (b.closed = false → ∃ t : State,
          t = retireFor 256 x.core x.landCnt stOk (streamCountBy n 5 (b.missing c.nPrb) (updStream n (fun x => { x with
            symbols := x.symbols.map fun y => if y.air == k && !y.prach then { y with closed := true } else y }) (openSymbol n k false s))) ∧
          (shadow = false → c.symbolAt k = some 13 → lastMirrored s x.cell = some n →
            Sys2Proof.Machine.exec (.symbolClose stream air) s = .next (sendMeta x.cell (c.impressionAt k) t)) ∧
          ((shadow = true ∨ c.symbolAt k ≠ some 13 ∨ lastMirrored s x.cell ≠ some n) →
            Sys2Proof.Machine.exec (.symbolClose stream air) s = .next t)))) ∧
  (∀ (s : State) (n k : Nat) (prach : Bool), (((s.stream n).symbol k prach).isSome = true → openSymbol n k prach s = s)) ∧
  (∀ (s : State) (source : BitVec 14) (bytes : List Byte), let c := s.cell (fld bytes 2 2)
    let mine := cellStateFor c (fld bytes 16 8 * c.slotTicks) = 3 ∧ c.role = 2 ∧ c.primary = source.toNat
    (mine →
      Sys2Proof.Machine.exec (.mirrorRecordRx source bytes) s = .next (takeMirror bytes s)) ∧
    (¬ mine → Sys2Proof.Machine.exec (.mirrorRecordRx source bytes) s = .next s)) ∧
  (∀ (s : State) (cell : BitVec 9) (imp : BitVec 64) (c : Cell), c = s.cell cell.toNat →
    let due := cellStateFor c (imp.toNat * c.slotTicks) = 3 ∧ mirrorLimit c imp.toNat ≤ s.now ∧ mirrorComplete c imp.toNat = false
    (¬ due → Sys2Proof.Machine.exec (.mirrorDeadline cell imp) s = .next s) ∧
    (due → c.blind.contains imp.toNat = true → Sys2Proof.Machine.exec (.mirrorDeadline cell imp) s = .next s) ∧
    (due → c.blind.contains imp.toNat = false → ∃ u : State, Sys2Proof.Machine.exec (.mirrorDeadline cell imp) s = .next u ∧
      (u.cell cell.toNat).shadowGap = satInc16 c.shadowGap ∧ imp.toNat ∈ (u.cell cell.toNat).blind))

/-- The 144/128 code (R259 to R262). An error of value e in symbol p changes the data by `d p e` and the stored check bits by `c p e`;
what the word then holds is its new data and the difference of its check bits from those that the new data has. -/
def Obligations.SymbolErrorsAreCorrectedOrDetected : Prop :=
  ∀ d : Nat → BitVec 4 → BitVec 128, (∀ p e, d p e = if p < 32 then BitVec.ofNat 128 (e.toNat <<< (4 * p)) else 0) →
  ∀ c : Nat → BitVec 4 → BitVec 16, (∀ p e, c p e = if p < 32 then 0 else BitVec.ofNat 16 (e.toNat <<< (4 * (p - 32)))) →
    -- the syndrome over all 36 symbols
    (∀ (w : BitVec 128) (x : BitVec 16), gf4Add (dataSyndrome w) (syndrome (checkBits w ^^^ x)) = syndrome x) ∧
    -- single errors
    (∀ (w : BitVec 128) (p : Nat) (e : BitVec 4), p < 36 → e ≠ 0 →
      let w' := w ^^^ d p e
      let x := checkBits w' ^^^ (checkBits w ^^^ c p e)
      (p < 32 → eccDecode x = .dataSym p e ∧ fixSymbol w' p e = w) ∧ (32 ≤ p → eccDecode x = .checkSym ∧ w' = w)) ∧
    -- double errors
    (∀ (w : BitVec 128) (p q : Nat) (e f : BitVec 4), p < q → q < 36 → e ≠ 0 → f ≠ 0 →
      let w' := w ^^^ d p e ^^^ d q f
      let x := checkBits w' ^^^ (checkBits w ^^^ c p e ^^^ c q f)
      eccDecode x = .uncorrectable ∨ eccDecode x = .poison) ∧
    -- Table 9.4
    (∀ x : BitVec 16, let s := syndrome x
      (s = (0, 0, 0, 0) ↔ eccDecode x = .clean) ∧ (s = (0, 1, 1, 0) ↔ eccDecode x = .poison) ∧
      (∀ e p, e ≠ 0 → p < 32 → (s = gf4Scale e (dataColumn p) ↔ eccDecode x = .dataSym p e)) ∧
      ((∃ e j, e ≠ 0 ∧ j < 4 ∧ s = gf4Scale e (checkColumn j)) ↔ eccDecode x = .checkSym))

/-- Device memory (R263 to R265). Where the rules leave a choice it states the model's, log entries 8 and 9. -/
def Obligations.MemoryReadsWhatWasWritten : Prop :=
  (∀ (s : State) (a : Nat) (bs : List Byte),
    (memWrite a bs s).mem.mem = (s.mem.mem.write a bs).1 ∧
    (∀ u : State, u = checkEdges a bs.length s → memWrite a bs s =
      { u with mem := { u.mem with mem := (memWrite a bs s).mem.mem, frames := (memWrite a bs s).mem.frames } }) ∧
    ((∀ w ∈ edgeWords a bs.length, eccDecode (s.mem.mem.diffAt w) = .clean ∨ eccDecode (s.mem.mem.diffAt w) = .poison) →
      checkEdges a bs.length s = s)) ∧
  (∀ (m : Mem) (a : Nat) (bs : List Byte),
    (∀ (i : Nat) (h : i < bs.length), (m.write a bs).1.bytesAt (a + i) 1 = [bs[i]]) ∧
    (∀ b, (b < a ∨ a + bs.length ≤ b) → (m.write a bs).1.bytesAt b 1 = m.bytesAt b 1) ∧
    (∀ w, a ≤ 16 * w → 16 * w + 16 ≤ a + bs.length → (m.write a bs).1.poisonAt (16 * w) 16 = false) ∧
    (∀ w, 16 * w < a + bs.length → a < 16 * w + 16 → (16 * w < a ∨ a + bs.length < 16 * w + 16) →
      (m.write a bs).1.poisonAt (16 * w) 16 = m.poisonAt (16 * w) 16) ∧
    (∀ w, (16 * w + 16 ≤ a ∨ a + bs.length ≤ 16 * w) → (m.write a bs).1.decode w = m.decode w) ∧
    (bs ≠ [] → ((m.write a bs).2 = true ↔ ∃ w, 16 * w < a + bs.length ∧ a < 16 * w + 16 ∧ (16 * w < a ∨ a + bs.length < 16 * w + 16) ∧
      m.poisonAt (16 * w) 16 = true))) ∧
  (∀ (m : Mem) (a n : Nat), a % 16 = 0 → n % 16 = 0 →
    (∀ b, a ≤ b → b < a + n → (m.clear a n).bytesAt b 1 = [0]) ∧
    (∀ w, a ≤ 16 * w → 16 * w < a + n → (m.clear a n).poisonAt (16 * w) 16 = false) ∧
    (∀ w, (16 * w + 16 ≤ a ∨ a + n ≤ 16 * w) → (m.clear a n).decode w = m.decode w)) ∧
  (∀ (s : State) (who : Who) (a n w : Nat), let r := memRead who a n s
    r.1.bytes = s.mem.mem.bytesAt a n ∧ r.1.poison = s.mem.mem.poisonAt a n ∧
    ((s.mem.mem.decode w).2 = .uncorrectable → w ∈ wordsOf a n → r.2.mem.mem.decode w = ((s.mem.mem.decode w).1, .poison)) ∧
    (((s.mem.mem.decode w).2 ≠ .uncorrectable ∨ w ∉ wordsOf a n) → r.2.mem.mem.decode w = s.mem.mem.decode w)) ∧
  (∀ (m : Mem) (w : Nat), ((m.poisonWord w).decode w).2 = .poison ∧ ((m.poisonWord w).decode w).1 = m.raw (16 * w) 16 ∧
    (∀ v, v ≠ w → (m.poisonWord w).decode v = m.decode v))

/-- The memory commands and the scrubbers (R256, R266 to R269, R439). Where the rules leave a choice it states the model's, log entry 23. -/
def Obligations.MemoryCommandsAndScrubbing : Prop :=
  Performs .memQuotaSet .pf [(16, 2), (24, 8)] (fun m a => mfld m 17 1 < 3 ∧
      ((List.range 256).filter (· != mfld m 16 1)).foldl (fun x k => x + (a.quota k (mfld m 17 1)).limit) 0 + mfld m 24 8 ≤
        tierCapacity a (mfld m 17 1))
    (fun m a x t => x = Result.none ∧ t.quota (mfld m 16 1) (mfld m 17 1) =
        { a.quota (mfld m 16 1) (mfld m 17 1) with limit := mfld m 24 8 } ∧
      (∀ c k, k < 3 → (c, k) ≠ (mfld m 16 1, mfld m 17 1) → t.quota c k = a.quota c k) ∧
      t = { a with mem := { a.mem with quota := t.mem.quota } }) ∧
  Declines .memQuotaSet .pf [(16, 2), (24, 8)] (fun m a => mfld m 17 1 < 3 ∧ tierCapacity a (mfld m 17 1) <
    ((List.range 256).filter (· != mfld m 16 1)).foldl (fun x k => x + (a.quota k (mfld m 17 1)).limit) 0 + mfld m 24 8) stCapacity ∧
  Performs .memAlloc .own [(16, 1), (24, 8)] (fun m a => mfld m 16 1 < 32 ∧ a.mem.setRan.getLsbD (mfld m 16 1) = false ∧
      mfld m 24 8 ≠ 0 ∧ mfld m 24 8 % 65536 = 0 ∧ overQuota a (issuer m) 0 (mfld m 24 8) = false ∧
      (findRange a (mfld m 16 1) (mfld m 24 8 / 65536) false).isSome = true)
    (fun m a x t => ∀ f, findRange a (mfld m 16 1) (mfld m 24 8 / 65536) false = some f →
      let u := charge (issuer m) 0 (mfld m 24 8) (ownFrames (issuer m) f (mfld m 24 8 / 65536) a)
      x = { fields := [(8, 8, 65536 * f)], block := none } ∧ t = { u with mem := { u.mem with
        ranges := u.mem.ranges ++ [{ ctx := issuer m, base := 65536 * f, len := mfld m 24 8 }] } }) ∧
  StaysInFlight .memAlloc .own [(16, 1), (24, 8)] (fun m a => mfld m 16 1 < 32 ∧ a.mem.setRan.getLsbD (mfld m 16 1) = false ∧
      mfld m 24 8 ≠ 0 ∧ mfld m 24 8 % 65536 = 0 ∧ overQuota a (issuer m) 0 (mfld m 24 8) = false ∧
      findRange a (mfld m 16 1) (mfld m 24 8 / 65536) false = none ∧ (findRange a (mfld m 16 1) (mfld m 24 8 / 65536) true).isSome = true)
    (fun m a t => ∀ f, findRange a (mfld m 16 1) (mfld m 24 8 / 65536) true = some f →
      let u := charge (issuer m) 0 (mfld m 24 8) (ownFrames (issuer m) f (mfld m 24 8 / 65536) a)
      t = { u with mem := { u.mem with
        ranges := u.mem.ranges ++ [{ ctx := issuer m, base := 65536 * f, len := mfld m 24 8 }],
        allocWaiting := u.mem.allocWaiting ++ [{ input := m.input.toNat, slot := m.slot.toNat, ctx := issuer m, base := 65536 * f,
                                                 len := mfld m 24 8 }] } }) ∧
  Declines .memAlloc .own [(16, 1), (24, 8)] (fun m a => mfld m 16 1 < 32 ∧ a.mem.setRan.getLsbD (mfld m 16 1) = false ∧
    mfld m 24 8 ≠ 0 ∧ mfld m 24 8 % 65536 = 0 ∧ overQuota a (issuer m) 0 (mfld m 24 8) = true) stQuota ∧
  Declines .memAlloc .own [(16, 1), (24, 8)] (fun m a => mfld m 16 1 < 32 ∧ a.mem.setRan.getLsbD (mfld m 16 1) = false ∧
    mfld m 24 8 ≠ 0 ∧ mfld m 24 8 % 65536 = 0 ∧ overQuota a (issuer m) 0 (mfld m 24 8) = false ∧
    findRange a (mfld m 16 1) (mfld m 24 8 / 65536) false = none ∧ findRange a (mfld m 16 1) (mfld m 24 8 / 65536) true = none) stCapacity ∧
  Declines .memAlloc .own [(16, 1), (24, 8)] (fun m a => 32 ≤ mfld m 16 1 ∨ mfld m 24 8 = 0 ∨ mfld m 24 8 % 65536 ≠ 0 ∨
    a.mem.setRan.getLsbD (mfld m 16 1) = true) stBadParam ∧
  Performs .memFree .own [(16, 8)] (fun m a => ∃ r, a.mem.ranges.find? (fun r => r.ctx == issuer m && r.base == mfld m 16 8) = some r ∧
      rangeInUse a r = false)
    (fun m a x t => ∀ r, a.mem.ranges.find? (fun r => r.ctx == issuer m && r.base == mfld m 16 8) = some r →
      let u := ownFrames 259 (r.base / 65536) (r.len / 65536) (memClear r.base r.len a)
      x = Result.none ∧ t = uncharge r.ctx 0 r.len { u with mem := { u.mem with ranges := u.mem.ranges.erase r } } ∧
      t.mem.mem = a.mem.mem.clear r.base r.len ∧ (t.quota r.ctx 0).usage = (a.quota r.ctx 0).usage - r.len) ∧
  Declines .memFree .own [(16, 8)] (fun m a => ∃ r, a.mem.ranges.find? (fun r => r.ctx == issuer m && r.base == mfld m 16 8) = some r ∧
      rangeInUse a r = true) stBusy ∧
  Declines .memFree .own [(16, 8)] (fun m a => ∀ r ∈ a.mem.ranges, ¬ (r.ctx = issuer m ∧ r.base = mfld m 16 8)) stBadParam ∧
  Performs .memLend .pf [(16, 1), (24, 16)] (fun m a => mfld m 16 1 < 32 ∧ a.mem.setRan.getLsbD (mfld m 16 1) = false ∧
      mfld m 32 8 ≠ 0 ∧ mfld m 32 8 % 65536 = 0 ∧ mfld m 24 8 % 65536 = 0 ∧ (setFrames (mfld m 16 1)).1 ≤ mfld m 24 8 / 65536 ∧
      mfld m 24 8 + mfld m 32 8 ≤ 65536 * (setFrames (mfld m 16 1)).2 ∧
      (List.range 256).foldl (fun x k => x + (a.quota k 0).limit) 0 + lentBytes a + mfld m 32 8 ≤ tierCapacity a 0 ∧
      (∀ f ∈ blockedFrames a false, f < mfld m 24 8 / 65536 ∨ (mfld m 24 8 + mfld m 32 8) / 65536 ≤ f))
    (fun m a x t => x = Result.none ∧ t = ownFrames 258 (mfld m 24 8 / 65536) (mfld m 32 8 / 65536) a) ∧
  Declines .memLend .pf [(16, 1), (24, 16)] (fun m a => mfld m 16 1 < 32 ∧ a.mem.setRan.getLsbD (mfld m 16 1) = false ∧
      mfld m 32 8 ≠ 0 ∧ mfld m 32 8 % 65536 = 0 ∧ mfld m 24 8 % 65536 = 0 ∧ (setFrames (mfld m 16 1)).1 ≤ mfld m 24 8 / 65536 ∧
      mfld m 24 8 + mfld m 32 8 ≤ 65536 * (setFrames (mfld m 16 1)).2 ∧
      (tierCapacity a 0 < (List.range 256).foldl (fun x k => x + (a.quota k 0).limit) 0 + lentBytes a + mfld m 32 8 ∨
        ∃ f ∈ blockedFrames a false, mfld m 24 8 / 65536 ≤ f ∧ f < (mfld m 24 8 + mfld m 32 8) / 65536)) stCapacity ∧
  Performs .memQuery .own [(16, 1)] (fun m _ => issuer m = 0 ∨ issuer m = mfld m 16 1)
    (fun m a x t => t = a ∧ let c := mfld m 16 1
      x = { fields := [], block := some (itemsBlock [(a.quota c 0).limit, (a.quota c 0).usage, (a.quota c 1).limit, (a.quota c 1).usage,
        (a.quota c 2).limit, (a.quota c 2).usage, (Tab.get 0 a.mem.evCorrected c).toNat, (Tab.get 0 a.mem.evStall c).toNat,
        (freePoolFrames a c).length]) }) ∧
  Declines .memQuery .own [(16, 1)] (fun m _ => issuer m ≠ 0 ∧ issuer m ≠ mfld m 16 1) stBadParam ∧
  (∀ (s : State) (owner f n k : Nat), s.mem.setRan.getLsbD (k / 0x60000) = false →
    (ownFrames owner f n s).mem.frame k =
      (if f ≤ k ∧ k < f + n ∧ k ∉ s.mem.scrubPending then { owner := owner, dirty := 0, track := false } else s.mem.frame k)) ∧
  (∀ (s : State) (owner f n : Nat), ownFrames owner f n s = { s with mem := { s.mem with frames := (ownFrames owner f n s).mem.frames } }) ∧
  (∀ (s : State) (h : BitVec 10), let c := h.toNat
    (s.now % battenTicks ≠ 32 * (c % 16) → Sys2Proof.Machine.exec (.refreshSlot h) s = .next s) ∧
    (s.now % battenTicks = 32 * (c % 16) → ∃ u : State, Sys2Proof.Machine.exec (.refreshSlot h) s = .next u ∧
      (∀ pc, pc < 2 → Tab.get 0 u.mem.scrub (2 * c + pc) = (Tab.get 0 s.mem.scrub (2 * c + pc) + 1) % 1572864) ∧
      (∀ k, k ≠ 2 * c → k ≠ 2 * c + 1 → Tab.get 0 u.mem.scrub k = Tab.get 0 s.mem.scrub k) ∧
      (∀ pc i, pc < 2 → i < 16 → let w := granuleAddress c pc (Tab.get 0 s.mem.scrub (2 * c + pc)) / 16 + i
        let d := s.mem.mem.decode w
        ((d.2.isCorrected = true ∨ d.2 = .clean) → u.mem.mem.decode w = (d.1, .clean)) ∧
        (d.2.isPoison = true → (u.mem.mem.decode w).2 = .poison)) ∧
      (∀ w, (∀ pc i, pc < 2 → i < 16 → w ≠ granuleAddress c pc (Tab.get 0 s.mem.scrub (2 * c + pc)) / 16 + i) →
        u.mem.mem.decode w = s.mem.mem.decode w))) ∧
  (∀ (s : State) (word : BitVec 36), let a := 16 * word.toNat
    let mine := (0xE000000000 ≤ a ∧ a < 0xE020000000) ∨ (0xE800000000 ≤ a ∧ a < 0xE810000000)
    (mine → Sys2Proof.Machine.exec (.sramScrub word) s = .next (scrubWord 2 s word.toNat)) ∧
    (¬ mine → Sys2Proof.Machine.exec (.sramScrub word) s = .next s)) ∧
  (∀ (source w : Nat) (s : State), let d := s.mem.mem.decode w
    let t := scrubWord source s w
    ((d.2.isCorrected = true ∨ d.2 = .clean) → (t.mem.mem.decode w) = (d.1, .clean)) ∧
    (d.2.isPoison = true → (t.mem.mem.decode w).2 = .poison) ∧ (∀ v, v ≠ w → t.mem.mem.decode v = s.mem.mem.decode v)) ∧
  (∀ (s : State) (f : BitVec 24), let k := f.toNat
    (k ∉ s.mem.scrubPending → Sys2Proof.Machine.exec (.scrubFrameDone f) s = .next s) ∧
    (k ∈ s.mem.scrubPending → ∃ (owner : Nat) (u : State),
      (∀ w, s.mem.allocWaiting.find? (fun w => decide (w.base / 65536 ≤ k ∧ k < (w.base + w.len) / 65536)) = some w → owner = w.ctx) ∧
      (s.mem.allocWaiting.find? (fun w => decide (w.base / 65536 ≤ k ∧ k < (w.base + w.len) / 65536)) = none → owner = 259) ∧
      u = memClear (65536 * k) 65536 s ∧ Sys2Proof.Machine.exec (.scrubFrameDone f) s = .next (finishAllocs { u with mem := (
        ({ u.mem with scrubPending := u.mem.scrubPending.erase k } : MemTiers).setFrame k { owner := owner, dirty := 0, track := false }) })))

/-- The tier commands (R269 to R281, R500, R501). Where the rules leave a choice it states the model's, log entries 51 and 52. -/
def Obligations.TierCommandsPerform : Prop :=
  Performs .tierRegionCreate .own [(16, 6)] (fun m a => mfld m 16 4 ≠ 0 ∧ mfld m 20 1 < 3 ∧ mfld m 21 1 < 2 ∧
      (createRegion (issuer m) (mfld m 16 4) (mfld m 20 1) (bitAt (mfld m 21 1) 0) none a).1 = stOk)
    (fun m a x t => ∀ id u, createRegion (issuer m) (mfld m 16 4) (mfld m 20 1) (bitAt (mfld m 21 1) 0) none a = (stOk, id, u) →
      t = zeroArea id u ∧ id = a.mem.nextRegion ∧
      x = { fields := [(8, 4, id), (12, 4, (Tab.get Region.none t.mem.regions id).firstTpn)], block := none } ∧
      (Tab.get Region.none t.mem.regions id).ctx = issuer m ∧ (Tab.get Region.none t.mem.regions id).count = mfld m 16 4 ∧
      (Tab.get Region.none t.mem.regions id).home = mfld m 20 1) ∧
  Declines .tierRegionCreate .own [(16, 6)] (fun m _ => mfld m 16 4 = 0 ∨ 3 ≤ mfld m 20 1 ∨ 2 ≤ mfld m 21 1) stBadParam ∧
  (∀ st, st ≠ stOk → Declines .tierRegionCreate .own [(16, 6)] (fun m a => mfld m 16 4 ≠ 0 ∧ mfld m 20 1 < 3 ∧ mfld m 21 1 < 2 ∧
    (createRegion (issuer m) (mfld m 16 4) (mfld m 20 1) (bitAt (mfld m 21 1) 0) none a).1 = st) st) ∧
  Performs .tierRegionDestroy .own [(16, 4)] (fun m a => ∃ r, ownRegion a (issuer m) (mfld m 16 4) = some r ∧ r.busy = 0 ∧
      regionUsed a (mfld m 16 4) = false ∧
      ∀ k ∈ regionKeys r, (a.page k).pin = 0 ∧ (a.page k).state ≠ 5 ∧ (a.page k).state ≠ 2)
    (fun m a x t => x = Result.none ∧ t = dropRegion (mfld m 16 4) a) ∧
  Declines .tierRegionDestroy .own [(16, 4)] (fun m a => ∃ r, ownRegion a (issuer m) (mfld m 16 4) = some r ∧ (r.busy ≠ 0 ∨
      regionUsed a (mfld m 16 4) = true ∨ ∃ k ∈ regionKeys r, (a.page k).pin ≠ 0 ∨ (a.page k).state = 5 ∨ (a.page k).state = 2)) stBusy ∧
  Declines .tierRegionDestroy .own [(16, 4)] (fun m a => ownRegion a (issuer m) (mfld m 16 4) = none) stBadParam ∧
  Performs .tierPoolSet .own [(16, 20)] (fun m a => mfld m 16 8 % 65536 = 0 ∧
      (∃ r ∈ a.mem.ranges, r.ctx = issuer m ∧ r.base ≤ mfld m 16 8 ∧ mfld m 16 8 + 65536 * mfld m 24 4 ≤ r.base + r.len) ∧
      ∀ i, i < (Tab.get Pool.none a.mem.pools (issuer m)).frames →
        (a.mem.frame ((Tab.get Pool.none a.mem.pools (issuer m)).base / 65536 + i)).track = false)
    (fun m a x t => x = Result.none ∧ Tab.get Pool.none t.mem.pools (issuer m) =
        { base := mfld m 16 8, frames := mfld m 24 4, lowWater := mfld m 28 4, pace := mfld m 32 4 } ∧
      (∀ c, c ≠ issuer m → Tab.get Pool.none t.mem.pools c = Tab.get Pool.none a.mem.pools c) ∧
      Tab.get [] t.mem.paced (issuer m) = [] ∧ (∀ c, c ≠ issuer m → Tab.get [] t.mem.paced c = Tab.get [] a.mem.paced c) ∧
      t = { a with mem := { a.mem with pools := t.mem.pools, paced := t.mem.paced } }) ∧
  Declines .tierPoolSet .own [(16, 20)] (fun m a => mfld m 16 8 % 65536 ≠ 0 ∨ ∀ r ∈ a.mem.ranges, ¬ (r.ctx = issuer m ∧
    r.base ≤ mfld m 16 8 ∧ mfld m 16 8 + 65536 * mfld m 24 4 ≤ r.base + r.len)) stBadParam ∧
  Declines .tierPoolSet .own [(16, 20)] (fun m a => mfld m 16 8 % 65536 = 0 ∧
      (∃ r ∈ a.mem.ranges, r.ctx = issuer m ∧ r.base ≤ mfld m 16 8 ∧ mfld m 16 8 + 65536 * mfld m 24 4 ≤ r.base + r.len) ∧
      ∃ i, i < (Tab.get Pool.none a.mem.pools (issuer m)).frames ∧
        (a.mem.frame ((Tab.get Pool.none a.mem.pools (issuer m)).base / 65536 + i)).track = true) stBusy ∧
  StaysInFlight .tierJob .own [(16, 5), (24, 4), (32, 16)] (fun _ _ => True)
    (fun m a t => t = submitJob (((mbytes m).drop 16).take 32 ++ List.replicate 32 0) (issuer m) (some (m.input.toNat, m.slot.toNat)) a) ∧
  StaysInFlight .tierCommit .own [(16, 4), (24, 8)] (fun _ _ => True) (fun m a t => t = submitJob
    (record 64 [(0, 1, 4), (2, 2, 0xFFFF), (8, 4, mfld m 16 4), (16, 8, mfld m 24 8)]) (issuer m) (some (m.input.toNat, m.slot.toNat)) a) ∧
  StaysInFlight .tierDiscard .own [(16, 4), (24, 8)] (fun _ _ => True) (fun m a t => t = submitJob
    (record 64 [(0, 1, 5), (2, 2, 0xFFFF), (8, 4, mfld m 16 4), (16, 8, mfld m 24 8)]) (issuer m) (some (m.input.toNat, m.slot.toNat)) a) ∧
  (∀ (b : List Byte) (ctx : Nat) (w : Option (Nat × Nat)) (s : State), ∃ j : TierJob, j.ctx = ctx ∧ j.waiter = w ∧
    (submitJob b ctx w s).mem.jobs = s.mem.jobs ++ [j] ∧
    (∀ y, (submitJob b ctx w s).mem.mem.bytesAt y 1 = s.mem.mem.bytesAt y 1)) ∧
  Performs .memRemoteAttach .pf [(16, 4), (24, 16)] (fun m a => let e := Tab.get FabWin.reset a.fab.wins (mfld m 18 2)
      mfld m 16 2 < 16384 ∧ mfld m 16 2 / 64 = a.fab.hall / 64 ∧ mfld m 18 2 < 4096 ∧ mfld m 24 8 % 65536 = 0 ∧ mfld m 32 8 ≠ 0 ∧
      mfld m 32 8 % 65536 = 0 ∧ mfld m 24 8 + mfld m 32 8 ≤ hbmEnd ∧ e.valid = true ∧ e.owner = 257 ∧ e.level = 1 ∧
      e.device = mfld m 16 2 % 64 ∧ e.base ≤ mfld m 24 8 ∧ mfld m 24 8 + mfld m 32 8 ≤ e.base + e.length)
    (fun m a x t => x = Result.none ∧ t = { a with mem := { a.mem with remotes := a.mem.remotes ++
      [{ lender := mfld m 16 2, window := mfld m 18 2, offset := mfld m 24 8, len := mfld m 32 8 }] } }) ∧
  Declines .memRemoteAttach .pf [(16, 4), (24, 16)] (fun m a => let e := Tab.get FabWin.reset a.fab.wins (mfld m 18 2)
      mfld m 16 2 < 16384 ∧ mfld m 16 2 / 64 = a.fab.hall / 64 ∧ mfld m 18 2 < 4096 ∧ mfld m 24 8 % 65536 = 0 ∧ mfld m 32 8 ≠ 0 ∧
      mfld m 32 8 % 65536 = 0 ∧ mfld m 24 8 + mfld m 32 8 ≤ hbmEnd ∧ ¬ (e.valid = true ∧ e.owner = 257 ∧ e.level = 1 ∧
      e.device = mfld m 16 2 % 64 ∧ e.base ≤ mfld m 24 8 ∧ mfld m 24 8 + mfld m 32 8 ≤ e.base + e.length)) stWindow ∧
  (∀ (g : FlashGeom) (gs : List FlashGeom), (g :: gs).length = 256 → (∀ h ∈ gs, h = g) → geomOk g = true →
      256 * geomBytes g ≤ 64 * 10 ^ 12 → 8 * g.blocks.toNat * g.luns.toNat * g.pages.toNat ≠ 0 →
    let sets := 8 * g.blocks.toNat * g.luns.toNat
    Performs (fun m => .flashFormat m (g :: gs)) .pf [(16, 1)] (fun m a => mfld m 16 1 < 2 ∧ ∀ c, c < 256 → (a.quota c 2).usage = 0)
      (fun m a x t => x = { fields := [(8, 8, 30 * 16384 * sets * g.pages.toNat)], block := none } ∧
        t = { a with mem := { a.mem with flash := { a.mem.flash with
          formatted := true, capacity := 30 * 16384 * sets * g.pages.toNat, rowsPerSet := g.pages.toNat, sets := sets, stripes := [],
          parity := [], head := 0, written := [], flush := false, moves := [],
          cnt := if mfld m 16 1 = 1 then bumpBy a.mem.flash.cnt 4 sets else a.mem.flash.cnt } } }) ∧
    Declines (fun m => .flashFormat m (g :: gs)) .pf [(16, 1)] (fun m a => mfld m 16 1 < 2 ∧ ∃ c, c < 256 ∧ (a.quota c 2).usage ≠ 0) stBusy) ∧
  (∀ (m : Mbx) (gs : List FlashGeom) (s : State), (admitCmd m .pf [(16, 1)] s).1 = stOk → mfld m 16 1 < 2 → gs ≠ [] →
    (∀ c, c < 256 → ((admitCmd m .pf [(16, 1)] s).2.quota c 2).usage = 0) →
    (gs.length ≠ 256 ∨ (∃ g ∈ gs, geomOk g = false) ∨ (∃ g ∈ gs, ∃ h ∈ gs, g ≠ h)) →
    Sys2Proof.Machine.exec (.flashFormat m gs) s = .next (complete m stBadParam Result.none (let a := (admitCmd m .pf [(16, 1)] s).2
      { a with mem := { a.mem with flash := { a.mem.flash with formatted := false } } }))) ∧
  StaysInFlight .tierRegionAdopt .own [(16, 32)] (fun m a => let e := Tab.get FabWin.reset a.fab.wins (mfld m 18 2)
      ∃ pages, 0 < pages ∧ areaLen pages true = mfld m 32 8 ∧
        ((List.range ((mfld m 32 8 / 65536 - 1) / 2 / 262144 + 3)).filterMap fun i =>
          if areaLen ((mfld m 32 8 / 65536 - 1) / 2 - i) true = mfld m 32 8 then some ((mfld m 32 8 / 65536 - 1) / 2 - i) else none).head? =
            some pages ∧
      mfld m 16 2 < 16384 ∧ mfld m 16 2 / 64 = a.fab.hall / 64 ∧ mfld m 18 2 < 4096 ∧ mfld m 24 8 % 65536 = 0 ∧
      mfld m 32 8 % 65536 = 0 ∧ mfld m 20 4 + pages ≤ 2 ^ 32 ∧ mfld m 24 8 + mfld m 32 8 ≤ hbmEnd ∧
      (∀ g ∈ a.mem.regions, g.2.ctx = issuer m → mfld m 20 4 + pages ≤ g.2.firstTpn ∨ g.2.firstTpn + g.2.count ≤ mfld m 20 4) ∧
      overQuota a (issuer m) 1 (regionCharge pages 1 true) = false ∧ e.valid = true ∧ e.owner = 257 ∧ e.level = 1 ∧
      e.device = mfld m 16 2 % 64 ∧ e.base ≤ mfld m 24 8 ∧ mfld m 24 8 + mfld m 32 8 ≤ e.base + e.length)
    (fun m a t => ∃ q : Adopt, q.ctx = issuer m ∧ q.input = m.input.toNat ∧ q.slot = m.slot.toNat ∧ q.lender = mfld m 16 2 ∧
      q.offset = mfld m 24 8 ∧ q.firstTpn = mfld m 20 4 ∧ q.expected = mfld m 40 8 ∧ areaLen q.pages true = mfld m 32 8 ∧
      t = startXfer (newXfer 7 (issuer m) a.mem.nextXfer (mfld m 16 2) (mfld m 24 8) 0 1)
        { a with mem := { a.mem with adopts := a.mem.adopts ++ [q] } })

/-- The tier manager and the flash log (R271 to R283). Where the rules leave a choice it states the model's, log entries 51 and 52. -/
def Obligations.TierJobsPagesAndFlash : Prop :=
  (∀ p ∈ ([(.tierFetch, 1), (.tierUnpin, 2), (.tierWriteback, 3), (.tierJobCommit, 4), (.tierJobDiscard, 5)] :
      List ((BitVec 8 → Instr) × Nat)), ∀ (ctx : BitVec 8) (s : State),
    (headTierJob (tierIntake s) ctx.toNat = none → Sys2Proof.Machine.exec (p.1 ctx) s = .next (tierIntake s)) ∧
    (∀ j, headTierJob (tierIntake s) ctx.toNat = some j →
      (j.op ≠ p.2 ∨ j.started = true ∨ pacePassed (tierIntake s) j.ctx j.due = false) →
      Sys2Proof.Machine.exec (p.1 ctx) s = .next (tierIntake s))) ∧
  (∀ (ctx : BitVec 8) (s : State) (j : TierJob), headTierJob (tierIntake s) ctx.toNat = some j → j.started = false →
      pacePassed (tierIntake s) j.ctx j.due = true →
    (j.op = 1 → let r := j.list.foldl (fun (p : List Nat × Nat × State) x =>
        let q := fetchPage j.ctx x j.pin p.2.2
        match q.1 with
        | none => (p.1 ++ [x], p.2.1, q.2)
        | some st => (p.1, firstStatus p.2.1 st, q.2)) ([], stOk, tierIntake s)
      Sys2Proof.Machine.exec (.tierFetch ctx) s =
        .next (putHead j.ctx (some { j with started := true, todo := r.1, status := r.2.1 }) r.2.2)) ∧
    (j.op = 2 → let r := j.list.foldl (fun (p : Nat × State) x =>
        let q := unpinPage (pageKey j.ctx x) p.2
        (firstStatus p.1 (if q.1 then stOk else stBadParam), q.2)) (stOk, tierIntake s)
      Sys2Proof.Machine.exec (.tierUnpin ctx) s =
        .next (thatchGo (putHead j.ctx (some { j with started := true, todo := [], status := r.1 }) r.2))) ∧
    (j.op = 3 → let r := j.list.foldl (fun (p : List Nat × Nat × State) x =>
        if regionOf p.2.2 j.ctx x = none then (p.1, firstStatus p.2.1 stBadParam, p.2.2)
        else if (p.2.2.page (pageKey j.ctx x)).state = 5 then (p.1 ++ [x], p.2.1, p.2.2)
        else if pageState p.2.2 (p.2.2.page (pageKey j.ctx x)) = 4 ∧ (p.2.2.page (pageKey j.ctx x)).step = false then
          (p.1 ++ [x], p.2.1, startWriteback j.ctx x p.2.2)
        else (p.1, p.2.1, p.2.2)) ([], stOk, tierIntake s)
      r.1.Sublist j.list ∧ Sys2Proof.Machine.exec (.tierWriteback ctx) s =
        .next (putHead j.ctx (some { j with started := true, todo := r.1, status := r.2.1 }) r.2.2) ∧
      ((∀ x ∈ j.list, (regionOf (tierIntake s) j.ctx x).isSome = true ∧ ((tierIntake s).page (pageKey j.ctx x)).state ≠ 5 ∧
          pageState (tierIntake s) ((tierIntake s).page (pageKey j.ctx x)) ≠ 4) →
        r = ([], stOk, tierIntake s))) ∧
    (j.op = 4 → let regs := jobRegions (tierIntake s) j
      ((∃ e ∈ regs, ∃ k ∈ regionKeys e.2, ((tierIntake s).page k).state = 2) →
        Sys2Proof.Machine.exec (.tierJobCommit ctx) s = .next (tierIntake s)) ∧
      ((∀ e ∈ regs, ∀ k ∈ regionKeys e.2, ((tierIntake s).page k).state ≠ 2) →
        let r := regs.foldl (fun (p : Nat × Nat × State) e => (dirtyStep p.2.2 e.2).foldl (fun (p : Nat × Nat × State) x =>
          let q := commitPage e.2 x p.2.2
          (firstStatus p.1 q.1, firstStatus p.2.1 (if q.1 = stPoison then stOk else q.1), q.2)) p)
          (if regs.length = j.list.length then stOk else stBadParam, stOk, tierIntake s)
        Sys2Proof.Machine.exec (.tierJobCommit ctx) s =
          .next (putHead j.ctx (some { j with started := true, status := r.1, failed := r.2.1 }) r.2.2))) ∧
    (j.op = 5 → let regs := jobRegions (tierIntake s) j
      Sys2Proof.Machine.exec (.tierJobDiscard ctx) s = .next (putHead j.ctx (some { j with
          started := true, status := if regs.length = j.list.length then stOk else stBadParam })
        (regs.foldl (fun s e => (dirtyStep s e.2).foldl (fun s x => discardPage e.2 x s) s) (tierIntake s))))) ∧
  (∀ (ctx : BitVec 8) (tpn : BitVec 32) (s0 s : State), s = pumpAll s0 → let c := ctx.toNat
    let k := tpn.toNat
    (((s.page (pageKey c k)).state ≠ 2 ∨ (xfersFor s c [0] k).any (fun e => !e.2.ended) = true ∨ pageReady s (pageKey c k) = false ∨
        regionOf s c k = none) →
      Sys2Proof.Machine.exec (.tierFetchComplete ctx tpn) s0 = .next (thatchGo s)) ∧
    ((s.page (pageKey c k)).state = 2 → (xfersFor s c [0] k).any (fun e => !e.2.ended) = false → pageReady s (pageKey c k) = true →
        (regionOf s c k).isSome = true →
      ∃ r, finishFetch c k s = some r ∧ Sys2Proof.Machine.exec (.tierFetchComplete ctx tpn) s0 =
        .next (thatchGo (thatchFetched c k r.1 (manifestFetched (pageKey c k) r.1 (jobsDone c 1 k r.1 r.2)))))) ∧
  (∀ (ctx : BitVec 8) (s s0 : State), s0 = jobProgress ctx.toNat (pumpAll (tierIntake s)) →
    (headTierJob s0 ctx.toNat = none → Sys2Proof.Machine.exec (.tierJobComplete ctx) s = .next s0) ∧
    (∀ j, headTierJob s0 ctx.toNat = some j →
      ((j.finished = false ∨ pacePassed s0 ctx.toNat j.due = false) → Sys2Proof.Machine.exec (.tierJobComplete ctx) s = .next s0) ∧
      (j.finished = true → pacePassed s0 ctx.toNat j.due = true → let t := putHead ctx.toNat none s0
        (∀ w, j.waiter = some w → Sys2Proof.Machine.exec (.tierJobComplete ctx) s = .next (completeSlot w.1 w.2 j.status Result.none t)) ∧
        (j.waiter = none → Sys2Proof.Machine.exec (.tierJobComplete ctx) s = .next (retireFor ctx.toNat j.core j.cnt j.status t))))) ∧
  (∀ (ctx : BitVec 8) (s : State), let c := ctx.toNat
    let first := s.mem.unpinned.find? fun k => k / 2 ^ 32 == c && pageState s (s.page k) == 4 && (s.page k).pin == 0 && !(s.page k).step
    (((Tab.get Pool.none s.mem.pools c).lowWater ≤ (freePoolFrames s c).length ∨ first = none) →
      Sys2Proof.Machine.exec (.backgroundWriteback ctx) s = .next s) ∧
    ((freePoolFrames s c).length < (Tab.get Pool.none s.mem.pools c).lowWater → ∀ k, first = some k →
      Sys2Proof.Machine.exec (.backgroundWriteback ctx) s = .next (startWriteback c (k % 2 ^ 32) s))) ∧
  (∀ (ctx : BitVec 8) (tpn : BitVec 32) (sector : BitVec 4) (s0 s : State), s = pumpAll s0 → let c := ctx.toNat
    let k := tpn.toNat
    let q : SectorCopy := { ctx := c, tpn := k, sector := sector.toNat }
    let s1 : State := { s with mem := { s.mem with copies := s.mem.copies.erase q } }
    ((q ∉ s.mem.copies ∨ (xfersFor s c [1] k).any (fun e => !e.2.ended) = true ∨ pageReady s (pageKey c k) = false) →
      Sys2Proof.Machine.exec (.sectorWritebackDone ctx tpn sector) s0 = .next s) ∧
    (q ∈ s.mem.copies → (xfersFor s c [1] k).any (fun e => !e.2.ended) = false → pageReady s (pageKey c k) = true →
      ((∃ x ∈ s1.mem.copies, x.ctx = c ∧ x.tpn = k) → Sys2Proof.Machine.exec (.sectorWritebackDone ctx tpn sector) s0 = .next s1) ∧
      ((∀ x ∈ s1.mem.copies, ¬ (x.ctx = c ∧ x.tpn = k)) →
        Sys2Proof.Machine.exec (.sectorWritebackDone ctx tpn sector) s0 =
          .next (jobsDone c 3 k (finishWriteback c k s1).1 (finishWriteback c k s1).2)))) ∧
  (∀ s : State, let f := s.mem.flash
    let done := fun (w : Nat) (pad : Bool) => Sys2Proof.Machine.exec .flashRowProgram s =
      .next (weightProgress (flashCount 1 { s with mem := { s.mem with flash := { f with
        written := Tab.set false f.written w true,
        parity := Tab.set Stripe.blank (Tab.set Stripe.blank f.parity (2 * w) (parityStripe f w 0)) (2 * w + 1) (parityStripe f w 1),
        head := if pad then 30 * w else f.head, flush := if pad then false else f.flush } } }))
    (∀ w, (openRows f).find? (fun w => decide (w ≠ f.head / 30)) = some w → done w false) ∧
    ((openRows f).find? (fun w => decide (w ≠ f.head / 30)) = none →
      (f.flush = true → f.head % 30 ≠ 0 → f.head / 30 ∈ openRows f → done (f.head / 30) true) ∧
      (¬ (f.flush = true ∧ f.head % 30 ≠ 0 ∧ f.head / 30 ∈ openRows f) →
        Sys2Proof.Machine.exec .flashRowProgram s = .next { s with mem := { s.mem with flash := { f with flush := false } } }))) ∧
  (∀ s : State, let f := s.mem.flash
    let full := (usedSets f).filter fun b => !((f.head / 30 :: openRows f).map f.setOf).contains b
    ∃ moved : State, (f.sets ≤ 50 * (f.sets - (usedSets f).length) → moved = s) ∧ (full = [] → moved = s) ∧
      (∀ pre b post, 50 * (f.sets - (usedSets f).length) < f.sets → full = pre ++ b :: post →
        (∀ x ∈ pre, liveIn f b < liveIn f x) → (∀ x ∈ post, liveIn f b ≤ liveIn f x) →
        moved = (s.mem.pages.filter fun e => decide (e.2.home = 2 ∧ e.2.state ≠ 0 ∧ e.2.wasEmpty = false ∧
          ∃ i < 4, f.setOf ((e.2.homeLoc + i) / 30) = b)).foldl (fun u e => movePage e.1 u) s) ∧
      Sys2Proof.Machine.exec .flashCompaction s =
        .next (full.foldl (fun s b => if mayErase s.mem.flash b then eraseSet b s else s) moved))

/-- Weight sets and the thatch engine (R285 to R299). Where the rules leave a choice it states the model's, log entry 53. -/
def Obligations.WeightSetsAndThatch : Prop :=
  StaysInFlight .weightInstall .own [(16, 18), (40, 16)] (fun m a => let n := ceilDiv (mfld m 24 8) 65536
      mfld m 24 8 ≠ 0 ∧ n ≤ 4194304 ∧ mfld m 32 1 = 0 ∧ mfld m 33 1 < 3 ∧ ctxOwns a (issuer m) (mfld m 48 8) 32 = true ∧ mfld m 40 8 = 0 ∧
      ctxWeights a (issuer m) < 64 ∧ ∃ k, ((List.range 4096).find? fun i => (a.weight i).isNone) = some k ∧
      ∃ id u, createRegion (issuer m) n (mfld m 33 1) false none a = (stOk, id, u) ∧
        overQuota u (issuer m) 0 (alignUp (32 * n) 65536) = false ∧ ∃ f, anyRange u (alignUp (32 * n) 65536 / 65536) = some f ∧
        let w : WeightSet := { ctx := issuer m, region := id, blocks := n, home := mfld m 33 1, leafBase := 65536 * f,
                               leafLen := alignUp (32 * n) 65536, root := [] }
        let u2 := (charge (issuer m) 0 (alignUp (32 * n) 65536) (ownFrames (issuer m) f (alignUp (32 * n) 65536 / 65536) u)).setWeight k (some w)
        (writeBlocks k 0 n (sliceBytes (mdata m) 0 (mfld m 24 8)) (memWrite (65536 * f) ((List.range n).flatMap fun i =>
          leafHash i (imageBlock (sliceBytes (mdata m) 0 (mfld m 24 8)) i)) u2)).isSome = true)
    (fun m a t => let n := ceilDiv (mfld m 24 8) 65536
      ∀ k id u f, ((List.range 4096).find? fun i => (a.weight i).isNone) = some k →
        createRegion (issuer m) n (mfld m 33 1) false none a = (stOk, id, u) → anyRange u (alignUp (32 * n) 65536 / 65536) = some f →
        let w : WeightSet := { ctx := issuer m, region := id, blocks := n, home := mfld m 33 1, leafBase := 65536 * f,
                               leafLen := alignUp (32 * n) 65536, root := [] }
        let u2 := (charge (issuer m) 0 (alignUp (32 * n) 65536) (ownFrames (issuer m) f (alignUp (32 * n) 65536 / 65536) u)).setWeight k (some w)
        let leaves := (List.range n).flatMap fun i => leafHash i (imageBlock (sliceBytes (mdata m) 0 (mfld m 24 8)) i)
        ∀ u3, writeBlocks k 0 n (sliceBytes (mdata m) 0 (mfld m 24 8)) (memWrite (65536 * f) leaves u2) = some u3 →
          t = weightProgress { u3 with mem := { u3.mem with weightWaits := u3.mem.weightWaits ++
            [{ input := m.input.toNat, slot := m.slot.toNat, set := k, kind := 0, first := 0, count := n, expected := [],
               out := mfld m 48 8, xfer := if mfld m 33 1 = 1 then u3.mem.nextXfer - 1 else 0 }] } }) ∧
  Declines .weightInstall .own [(16, 18), (40, 16)] (fun m a => mfld m 40 8 = 0 ∧ (mfld m 24 8 = 0 ∨ 2 ≤ mfld m 32 1 ∨ 3 ≤ mfld m 33 1 ∨
    ctxOwns a (issuer m) (mfld m 48 8) 32 = false)) stBadParam ∧
  Performs .weightQuery .own [(16, 3)] (fun m a => mfld m 18 1 = 0 ∧ (ownWeight m a (mfld m 16 2)).isSome = true)
    (fun m a x t => t = a ∧ ∀ w, ownWeight m a (mfld m 16 2) = some w → x = { fields := [], block := some (weightReport w a) }) ∧
  Declines .weightQuery .own [(16, 3)] (fun m a => 2 ≤ mfld m 18 1 ∨ ownWeight m a (mfld m 16 2) = none) stBadParam ∧
  StaysInFlight .weightQuery .own [(16, 3)] (fun m a => mfld m 18 1 = 1 ∧ ∃ w, ownWeight m a (mfld m 16 2) = some w ∧ w.home = 1)
    (fun m a t => ∀ w, ownWeight m a (mfld m 16 2) = some w → let r := Tab.get Region.none a.mem.regions w.region
      t = startXfer (newXfer 10 w.ctx w.region r.lender (slotOffset r 0 0) 0 (256 * w.blocks)) { a with mem := { a.mem with
        weightWaits := a.mem.weightWaits ++ [{ input := m.input.toNat, slot := m.slot.toNat, set := mfld m 16 2, kind := 2, first := 0,
                                               count := w.blocks, expected := [], out := 0, xfer := a.mem.nextXfer }] } }) ∧
  (∀ (m : Mbx) (s : State) (w : WeightSet), (admitCmd m .own [(16, 3)] s).1 = stOk → mfld m 18 1 = 1 →
    ownWeight m (admitCmd m .own [(16, 3)] s).2 (mfld m 16 2) = some w → w.home ≠ 1 →
    let b := readBlocks w (admitCmd m .own [(16, 3)] s).2
    let r := finishVerify w stOk b.1 b.2.1 b.2.2
    Sys2Proof.Machine.exec (.weightQuery m) s = .next (complete m r.1 r.2.1 r.2.2) ∧ (r.1 = stOk ∨ r.1 = stPoison) ∧
      (b.2.1 = true → r.1 = stPoison)) ∧
  (let asked := fun (m : Mbx) (a : State) (w : WeightSet) => ownWeight m a (mfld m 16 2) = some w ∧ mfld m 18 1 < 2 ∧ mfld m 24 4 ≠ 0 ∧
      mfld m 20 4 + mfld m 24 4 ≤ w.blocks ∧ (mfld m 18 1 = 1 → ctxOwns a (issuer m) (mfld m 32 8) (65536 * mfld m 24 4) = true)
    let source := fun (m : Mbx) (a : State) => weightSource m a (mfld m 18 1) (mfld m 32 8) (65536 * mfld m 24 4)
    let differs := fun (m : Mbx) (a : State) (w : WeightSet) (i : Nat) =>
      leafHash (mfld m 20 4 + i) (imageBlock (source m a).2.1 i) ≠ (leafTable (source m a).2.2 w).getD (mfld m 20 4 + i) []
    let written := fun (m : Mbx) (a : State) => writeBlocks (mfld m 16 2) (mfld m 20 4) (mfld m 24 4) (source m a).2.1 (source m a).2.2
    Declines .weightRepair .own [(16, 3), (20, 8), (32, 8)] (fun m a => ∃ w, asked m a w ∧ weightBusy a (mfld m 16 2) = true) stBusy ∧
    (∀ (m : Mbx) (s a : State) (w : WeightSet), admitCmd m .own [(16, 3), (20, 8), (32, 8)] s = (stOk, a) → asked m a w →
      weightBusy a (mfld m 16 2) = false → (source m a).1 = stOk → (∃ i, i < mfld m 24 4 ∧ differs m a w i) →
      Sys2Proof.Machine.exec (.weightRepair m) s = .next (complete m stPlateDigest Result.none (source m a).2.2)) ∧
    StaysInFlight .weightRepair .own [(16, 3), (20, 8), (32, 8)] (fun m a => ∃ w, asked m a w ∧ weightBusy a (mfld m 16 2) = false ∧
        (source m a).1 = stOk ∧ (∀ i, i < mfld m 24 4 → ¬ differs m a w i) ∧ (written m a).isSome = true)
      (fun m a t => ∃ w v, ownWeight m a (mfld m 16 2) = some w ∧ written m a = some v ∧
        t = weightProgress { v with mem := { v.mem with weightWaits := v.mem.weightWaits ++
          [{ input := m.input.toNat, slot := m.slot.toNat, set := mfld m 16 2, kind := 1, first := mfld m 20 4, count := mfld m 24 4,
             expected := [], out := 0, xfer := if w.home = 1 then v.mem.nextXfer - 1 else 0 }] } })) ∧
  Declines .weightRepair .own [(16, 3), (20, 8), (32, 8)] (fun m a => ownWeight m a (mfld m 16 2) = none ∨ 2 ≤ mfld m 18 1 ∨
    mfld m 24 4 = 0) stBadParam ∧
  Performs .weightRemove .own [(16, 2)] (fun m a => ∃ w, ownWeight m a (mfld m 16 2) = some w ∧ (∀ q ∈ a.mem.weightWaits, q.set ≠ mfld m 16 2) ∧
      weightBusy a (mfld m 16 2) = false ∧ ∀ k ∈ regionKeys (Tab.get Region.none a.mem.regions w.region), (a.page k).pin = 0 ∧ (a.page k).state ≠ 2 ∧ (a.page k).state ≠ 5)
    (fun m a x t => x = Result.none ∧ t = dropWeight (mfld m 16 2) a ∧ t.weight (mfld m 16 2) = none) ∧
  StaysInFlight .weightRemove .own [(16, 2)] (fun m a => (ownWeight m a (mfld m 16 2)).isSome = true ∧
      ∃ q ∈ a.mem.weightWaits, q.set = mfld m 16 2)
    (fun m a t => t = { a with mem := { a.mem with weightWaits := a.mem.weightWaits ++ [{
      input := m.input.toNat, slot := m.slot.toNat, set := mfld m 16 2, kind := 3, first := 0, count := 0, expected := [], out := 0,
      xfer := 0 }] } }) ∧
  Declines .weightRemove .own [(16, 2)] (fun m a => ∃ w, ownWeight m a (mfld m 16 2) = some w ∧
      (∀ q ∈ a.mem.weightWaits, q.set ≠ mfld m 16 2) ∧ (weightBusy a (mfld m 16 2) = true ∨
      ∃ k ∈ regionKeys (Tab.get Region.none a.mem.regions w.region), (a.page k).pin ≠ 0 ∨ (a.page k).state = 2 ∨ (a.page k).state = 5)) stBusy ∧
  (∀ (die : BitVec 2) (s : State), let p := 0x30 + die.toNat
    (headJob p s = none → Sys2Proof.Machine.exec (.thatchBegin die) s = .next s) ∧
    (∀ j, headJob p s = some j → let b := leBytes 64 j.block.toNat
      let r := beginThatch die.toNat j (popJob p s)
      Sys2Proof.Machine.exec (.thatchBegin die) s = .next (retireFor j.who (fld b 2 2) (fld b 4 1) r.1 r.2) ∧
        let good := fld b 0 1 = 1 ∧ onlyFields b [(0, 1), (2, 3), (8, 8)] = true ∧ fld b 2 2 < 512 ∧ fld b 4 1 < 64
        let active := (popJob p s).mem.thatch.filter fun x => x.dies.contains die.toNat
        ((¬ good ∨ j.live = none) → r = (stBadParam, popJob p s)) ∧
        (good → ∀ l, j.live = some l → (64 ≤ active.length → r = (stCapacity, popJob p s)) ∧
          (active.length < 64 → let q := readSchedule (popJob p s) j.who l (fld b 8 8)
            (q.2.1 = none → r = (q.1, q.2.2)) ∧
            (∀ x, q.2.1 = some x →
              (∀ y, q.2.2.schedule l.plate l.start = some y → die.toNat ∈ y.dies → r = (stBadParam, q.2.2)) ∧
              (∀ y, q.2.2.schedule l.plate l.start = some y → die.toNat ∉ y.dies →
                r = (stOk, thatchGo (updThatch l.plate l.start (fun x => { x with dies := x.dies ++ [die.toNat] }) q.2.2))) ∧
              (q.2.2.schedule l.plate l.start = none → let runs := (((popJob p s).plate l.plate).map Plate.running).getD []
                ((∀ e ∈ runs, ¬ (e.start = l.start ∧ e.window = l.window)) → r = (stOk, q.2.2)) ∧
                ((∃ e ∈ runs, e.start = l.start ∧ e.window = l.window) → r = (stOk, thatchGo { q.2.2 with mem := { q.2.2.mem with
                  thatch := q.2.2.mem.thatch ++ [{ x with dies := [die.toNat] }] } })))))))) ∧
  (∀ (plate : BitVec 16) (s : State), let h := plate.toNat
    let due := fun (r : Running) => !r.begun && !r.ended && r.hold == 1 && (match s.schedule h r.start with
      | some x => decide (x.windowStart + gateLatest x r.record ≤ s.now)
      | none => false)
    ((s.plate h = none ∨ ∃ p, s.plate h = some p ∧ p.running.find? due = none) →
      Sys2Proof.Machine.exec (.thatchLatestExpiry plate) s = .next s) ∧
    (∀ p r x, s.plate h = some p → p.running.find? due = some r → s.schedule h r.start = some x →
      let die := ((x.entries.find? fun e => decide (e.gate = r.record ∧ e.landed = false)).map ThatchEntry.die).getD 0
      Sys2Proof.Machine.exec (.thatchLatestExpiry plate) s = .next ((claimed 1 p.claims).foldl (fun s k =>
          if (s.coreAt k).resident = some p.owner ∧ (s.coreAt k).live.isNone then saveResident k s else s)
        (thatchCount die 2 (updPlate h (fun p => { p with running := p.running.map fun y => if y = r then { y with hold := 3 } else y }) s)))))

/-- The sequence unit (R300 to R314). Where the rules leave a choice it states the model's, log entry 53. -/
def Obligations.SequencesAndManifests : Prop :=
  (∀ (m : Mbx) (s a u : State) (b : List Byte) (st : Nat), admitCmd m .own [(16, 1), (24, 8)] s = (stOk, a) →
    deviceData a (issuer m) (mfld m 24 8) 128 = (st, b, u) →
    let c := issuer m
    let n := mfld m 16 1
    let q := readBatchQ b
    let runs := fun (h : Nat) => ∃ p, u.plate h = some p ∧ p.state = 2
    let rows := ((List.range 8).map fun i => if i = n then 0 else ((u.batchQ c i).map BatchQ.maxRows).getD 0).sum
    (st ≠ stOk → Sys2Proof.Machine.exec (.seqQueueConfig m) s = .next (complete m st Result.none u)) ∧
    (st = stOk → (8 ≤ n ∨ batchOk u c b q = false) →
      Sys2Proof.Machine.exec (.seqQueueConfig m) s = .next (complete m stBadParam Result.none u)) ∧
    (st = stOk → n < 8 → batchOk u c b q = true → 8192 < rows + q.maxRows →
      Sys2Proof.Machine.exec (.seqQueueConfig m) s = .next (complete m stCapacity Result.none u)) ∧
    (st = stOk → n < 8 → batchOk u c b q = true → rows + q.maxRows ≤ 8192 → (runs q.plate ∨ ∃ o, u.batchQ c n = some o ∧ runs o.plate) →
      Sys2Proof.Machine.exec (.seqQueueConfig m) s = .next (complete m stBusy Result.none u))) ∧
  (let data := fun (m : Mbx) (a : State) => deviceData a (issuer m) (mfld m 24 8) 128
    let runs := fun (u : State) (h : Nat) => ∃ p, u.plate h = some p ∧ p.state = 2
    let rows := fun (m : Mbx) (u : State) =>
      ((List.range 8).map fun i => if i = mfld m 16 1 then 0 else ((u.batchQ (issuer m) i).map BatchQ.maxRows).getD 0).sum
    Performs .seqQueueConfig .own [(16, 1), (24, 8)] (fun m a => (data m a).1 = stOk ∧ mfld m 16 1 < 8 ∧
        let u := (data m a).2.2
        let q := readBatchQ (data m a).2.1
        batchOk u (issuer m) (data m a).2.1 q = true ∧ rows m u + q.maxRows ≤ 8192 ∧ ¬ runs u q.plate ∧
          ∀ o, u.batchQ (issuer m) (mfld m 16 1) = some o → ¬ runs u o.plate)
      (fun m a x t => let u := (data m a).2.2
        let q := readBatchQ (data m a).2.1
        let c := issuer m
        x = Result.none ∧ (u.batchQ c (mfld m 16 1) = none → t.batchQ c (mfld m 16 1) = some q) ∧
        (∀ o, u.batchQ c (mfld m 16 1) = some o → t.batchQ c (mfld m 16 1) = some { q with
          join := o.join, rows := o.rows, joiners := o.joiners, impression := o.impression, nodesUsed := o.nodesUsed, held := o.held }) ∧
        (∀ i, i ≠ mfld m 16 1 → i < 8 → t.batchQ c i = u.batchQ c i) ∧
        t = { u with mem := { u.mem with seqs := { u.mem.seqs with queues := t.mem.seqs.queues } } })) ∧
  Performs .seqSubmit .own [(16, 3), (20, 24)] (fun m a => mfld m 16 1 < 8 ∧ ∃ q, a.batchQ (issuer m) (mfld m 16 1) = some q ∧
      mfld m 17 1 < 3 ∧ (q.pool (mfld m 17 1)).isSome = true ∧ mfld m 18 1 < 2 ∧ mfld m 20 4 ≠ 0 ∧ mfld m 20 4 ≤ q.budget ∧
      ctxOwns a (issuer m) (mfld m 24 8) (4 * mfld m 20 4) = true ∧ (ctxSeqs a (issuer m)).length < Tab.get 0 a.mem.seqs.allot (issuer m) ∧
      ∃ k, k < 1048576 ∧ Tab.get 0xFFFF a.mem.seqs.live k = 0xFFFF)
    (fun m a x t => ∃ k, k < 1048576 ∧ Tab.get 0xFFFF a.mem.seqs.live k = 0xFFFF ∧ (∀ i, i < k → Tab.get 0xFFFF a.mem.seqs.live i ≠ 0xFFFF) ∧
      x = { fields := [(8, 4, k)], block := none } ∧
      Tab.get 0xFFFF t.mem.seqs.live k = 8 * issuer m + mfld m 16 1 ∧ Tab.get (0, 0) t.mem.seqs.prompts k = (mfld m 24 8, mfld m 20 4) ∧
      (∀ i, i ≠ k → Tab.get 0xFFFF t.mem.seqs.live i = Tab.get 0xFFFF a.mem.seqs.live i) ∧
      (∀ q, a.batchQ (issuer m) (mfld m 16 1) = some q → t.batchQ (issuer m) (mfld m 16 1) = some { q with join := q.join ++ [k] }) ∧
      (∀ i, i ≠ 8 * issuer m + mfld m 16 1 → Tab.get none t.mem.seqs.queues i = Tab.get none a.mem.seqs.queues i) ∧
      (∃ e : SeqEntry, e.state = 1 ∧ e.release = false ∧ e.pause = false ∧ e.ctx = issuer m ∧ e.queue = mfld m 16 1 ∧
        e.placement = mfld m 17 1 ∧ e.proof = (mfld m 18 1 == 1) ∧ e.position = 0 ∧ e.blocks = 0 ∧ e.limit = mfld m 40 4 ∧
        e.seed = mfld m 32 8 ∧ e.chain = List.replicate 32 0 ∧ t.mem.mem = (a.setSeq k e).mem.mem)) ∧
  Declines .seqSubmit .own [(16, 3), (20, 24)] (fun m a => mfld m 16 1 < 8 ∧ ∃ q, a.batchQ (issuer m) (mfld m 16 1) = some q ∧
      mfld m 17 1 < 3 ∧ (q.pool (mfld m 17 1)).isSome = true ∧ mfld m 18 1 < 2 ∧ mfld m 20 4 ≠ 0 ∧ mfld m 20 4 ≤ q.budget ∧
      ctxOwns a (issuer m) (mfld m 24 8) (4 * mfld m 20 4) = true ∧ Tab.get 0 a.mem.seqs.allot (issuer m) ≤ (ctxSeqs a (issuer m)).length) stQuota ∧
  Declines .seqSubmit .own [(16, 3), (20, 24)] (fun m a => 8 ≤ mfld m 16 1 ∨ a.batchQ (issuer m) (mfld m 16 1) = none ∨
    3 ≤ mfld m 17 1 ∨ 2 ≤ mfld m 18 1 ∨ mfld m 20 4 = 0) stBadParam ∧
  (let own := fun (m : Mbx) (a : State) => Tab.get 0xFFFF a.mem.seqs.live (mfld m 16 4) ≠ 0xFFFF ∧
      Tab.get 0xFFFF a.mem.seqs.live (mfld m 16 4) / 8 = issuer m ∧ (a.seq (mfld m 16 4)).state ≠ 0
    let becomes := fun (e : SeqEntry) (m : Mbx) (a : State) (x : Result) (t : State) => x = Result.none ∧
      t.mem.mem = (a.setSeq (mfld m 16 4) e).mem.mem ∧ t.mem.seqs.live = a.mem.seqs.live ∧ t.mem.seqs.allot = a.mem.seqs.allot ∧
      (∀ i, i ≠ 8 * issuer m + e.queue → Tab.get none t.mem.seqs.queues i = Tab.get none a.mem.seqs.queues i)
    Performs .seqRelease .own [(16, 4)] own
      (fun m a x t => becomes { a.seq (mfld m 16 4) with release := true } m a x t) ∧
    Performs .seqPause .own [(16, 4)] (fun m a => own m a ∧ ((a.seq (mfld m 16 4)).state = 1 ∨ (a.seq (mfld m 16 4)).state = 2))
      (fun m a x t => becomes { a.seq (mfld m 16 4) with pause := true } m a x t) ∧
    Performs .seqResume .own [(16, 4)] (fun m a => own m a ∧ (a.seq (mfld m 16 4)).state = 3)
      (fun m a x t => becomes { a.seq (mfld m 16 4) with state := 1, pause := false } m a x t)) ∧
  (∀ c ∈ ([.seqRelease, .seqPause, .seqResume] : List (Mbx → Instr)),
    Declines c .own [(16, 4)] (fun m a => Tab.get 0xFFFF a.mem.seqs.live (mfld m 16 4) = 0xFFFF ∨
      Tab.get 0xFFFF a.mem.seqs.live (mfld m 16 4) / 8 ≠ issuer m ∨ (a.seq (mfld m 16 4)).state = 0) stBadParam) ∧
  Performs .seqResume .own [(16, 4)] (fun m a => Tab.get 0xFFFF a.mem.seqs.live (mfld m 16 4) ≠ 0xFFFF ∧
      Tab.get 0xFFFF a.mem.seqs.live (mfld m 16 4) / 8 = issuer m ∧ (a.seq (mfld m 16 4)).state = 3)
    (fun m a _ t => ∀ q, a.batchQ (issuer m) (a.seq (mfld m 16 4)).queue = some q →
      t.batchQ (issuer m) (a.seq (mfld m 16 4)).queue = some { q with join := q.join ++ [mfld m 16 4] }) ∧
  Performs .seqQuery .own [(16, 4)] (fun m a => Tab.get 0xFFFF a.mem.seqs.live (mfld m 16 4) ≠ 0xFFFF ∧
      Tab.get 0xFFFF a.mem.seqs.live (mfld m 16 4) / 8 = issuer m ∧ (a.seq (mfld m 16 4)).state ≠ 0)
    (fun m a x t => t = a ∧ x = { fields := [], block := some (a.mem.mem.bytesAt (seqAddress (mfld m 16 4)) 64) }) ∧
  Performs .seqAllot .pf [(16, 1), (20, 4)] (fun m a =>
      ((a.mem.seqs.allot.filter fun e => e.1 != mfld m 16 1).map Prod.snd).sum + mfld m 20 4 ≤ 1048576)
    (fun m a x t => x = Result.none ∧ Tab.get 0 t.mem.seqs.allot (mfld m 16 1) = mfld m 20 4 ∧
      (∀ c, c ≠ mfld m 16 1 → Tab.get 0 t.mem.seqs.allot c = Tab.get 0 a.mem.seqs.allot c) ∧
      t = { a with mem := { a.mem with seqs := { a.mem.seqs with allot := t.mem.seqs.allot } } }) ∧
  Declines .seqAllot .pf [(16, 1), (20, 4)] (fun m a =>
      1048576 < ((a.mem.seqs.allot.filter fun e => e.1 != mfld m 16 1).map Prod.snd).sum + mfld m 20 4) stCapacity ∧
  (∀ (ctx : BitVec 8) (q : BitVec 3) (s : State), let c := ctx.toNat
    let n := q.toNat
    ((s.batchQ c n = none ∨ ∃ x, s.batchQ c n = some x ∧ (x.forming = false ∨ ∃ w ∈ x.waits, w.status = 0xFFFF)) →
      Sys2Proof.Machine.exec (.manifestRetire ctx q) s = .next s) ∧
    (∀ x, s.batchQ c n = some x → x.forming = true → (∀ w ∈ x.waits, w.status ≠ 0xFFFF) →
      Sys2Proof.Machine.exec (.manifestRetire ctx q) s =
        .next (retireFor c x.core x.cnt stOk (thatchGo (updQ c n (fun q => { q with forming := false }) (settleFetches c n s))))))

/-- The link commands (R328, R333, R337, R338). Where the rules leave a choice it states the model's, log entry 58. -/
def Obligations.LinkCommandsPerform : Prop :=
  StaysInFlight .abrTrain .pf [(16, 5)] (fun m a => let x := a.port (mfld m 16 1)
      mfld m 16 1 < 24 ∧ mfld m 17 1 ≠ 0 ∧ mfld m 20 1 < 4 ∧ (x.state = 0 ∨ 7 ≤ x.state) ∧
      (x.up = true → plateCharges a (mfld m 16 1) = true → bitAt (mfld m 20 1) 1 = true))
    (fun m a t => t = startTraining (mfld m 16 1) (mfld m 17 1) (mfld m 18 2) (bitAt (mfld m 20 1) 0) (some (m.input.toNat, m.slot.toNat))
        (if (a.port (mfld m 16 1)).up then askRetrain (mfld m 16 1) a else a) ∧
      (t.port (mfld m 16 1)).state = 1 ∧ (t.port (mfld m 16 1)).mask = BitVec.ofNat 8 (mfld m 17 1) ∧
      (t.port (mfld m 16 1)).since = a.now ∧ (t.port (mfld m 16 1)).peer = none ∧
      ∀ l, l < 8 → ((t.port (mfld m 16 1)).lane l).up = false ∧ ((t.port (mfld m 16 1)).lane l).passing = bitAt (mfld m 17 1) l) ∧
  Declines .abrTrain .pf [(16, 5)] (fun m a => let x := a.port (mfld m 16 1)
      mfld m 16 1 < 24 ∧ mfld m 17 1 ≠ 0 ∧ mfld m 20 1 < 4 ∧ ((1 ≤ x.state ∧ x.state ≤ 6) ∨
        (x.up = true ∧ plateCharges a (mfld m 16 1) = true ∧ bitAt (mfld m 20 1) 1 = false))) stBusy ∧
  Declines .abrTrain .pf [(16, 5)] (fun m _ => 24 ≤ mfld m 16 1 ∨ mfld m 17 1 = 0 ∨ 4 ≤ mfld m 20 1) stBadParam ∧
  StaysInFlight .abrContinue .pf [(16, 1)] (fun m a => mfld m 16 1 < 24 ∧ (a.port (mfld m 16 1)).state = 4)
    (fun m a t => t.port (mfld m 16 1) = { a.port (mfld m 16 1) with
        state := 3, hold := false, waiter := some (m.input.toNat, m.slot.toNat) } ∧
      (∀ p, p ≠ mfld m 16 1 → t.port p = a.port p) ∧ t = { a with fab := { a.fab with ports := t.fab.ports } }) ∧
  Declines .abrContinue .pf [(16, 1)] (fun m a => 24 ≤ mfld m 16 1 ∨ (a.port (mfld m 16 1)).state ≠ 4) stNotReady ∧
  Performs .abrGainSet .pf [(16, 3)] (fun m a => mfld m 16 1 < 24 ∧ mfld m 17 1 < 8 ∧ mfld m 18 1 < 32 ∧
      ((a.port (mfld m 16 1)).state = 0 ∨ (a.port (mfld m 16 1)).state = 8 ∨ (a.port (mfld m 16 1)).state = 4))
    (fun m a x t => x = Result.none ∧ (t.port (mfld m 16 1)).lane (mfld m 17 1) =
        { (a.port (mfld m 16 1)).lane (mfld m 17 1) with gain := BitVec.ofNat 5 (mfld m 18 1) } ∧
      (∀ l, l ≠ mfld m 17 1 → (t.port (mfld m 16 1)).lane l = (a.port (mfld m 16 1)).lane l) ∧
      t.port (mfld m 16 1) = { a.port (mfld m 16 1) with lanes := (t.port (mfld m 16 1)).lanes } ∧
      (∀ p, p ≠ mfld m 16 1 → t.port p = a.port p) ∧ t = { a with fab := { a.fab with ports := t.fab.ports } }) ∧
  Declines .abrGainSet .pf [(16, 3)] (fun m a => mfld m 16 1 < 24 ∧ mfld m 17 1 < 8 ∧ mfld m 18 1 < 32 ∧
    ((a.port (mfld m 16 1)).state ≠ 0 ∧ (a.port (mfld m 16 1)).state ≠ 8 ∧ (a.port (mfld m 16 1)).state ≠ 4)) stBusy ∧
  Declines .abrGainSet .pf [(16, 3)] (fun m _ => 24 ≤ mfld m 16 1 ∨ 8 ≤ mfld m 17 1 ∨ 32 ≤ mfld m 18 1) stBadParam ∧
  (∀ lanes : List (BitVec 48),
    Performs (fun m => .abrMeasure m lanes) .pf [(16, 1)] (fun m a => mfld m 16 1 < 24 ∧ (a.port (mfld m 16 1)).state = 4)
      (fun m a x t => t = a ∧ x = { fields := [], block := some ((List.range 8).flatMap fun l =>
        leBytes 2 ((lanes.getD l 0).toNat % 65536) ++ leBytes 4 ((lanes.getD l 0).toNat / 65536) ++
          leBytes 2 (unsigned 16 (meanNoise ((a.port (mfld m 16 1)).lane l)))) }) ∧
    Declines (fun m => .abrMeasure m lanes) .pf [(16, 1)] (fun m a => 24 ≤ mfld m 16 1 ∨ (a.port (mfld m 16 1)).state ≠ 4) stNotReady) ∧
  Performs .abrDown .pf [(16, 1)] (fun m _ => mfld m 16 1 < 24)
    (fun m a x t => x = Result.none ∧ ∃ u : State, (u.port (mfld m 16 1)).state = 0 ∧ (u.port (mfld m 16 1)).fail = 0 ∧
      (u.port (mfld m 16 1)).bitsSum = 0 ∧ (u.port (mfld m 16 1)).waiter = none ∧ (u.port (mfld m 16 1)).peer = none ∧
      (∀ l, l < 8 → ((u.port (mfld m 16 1)).lane l).up = false ∧ ((u.port (mfld m 16 1)).lane l).passing = false) ∧
      ((a.port (mfld m 16 1)).waiter = none → t = u) ∧
      (∀ w, (a.port (mfld m 16 1)).waiter = some w → t = completeSlot w.1 w.2 stNotReady (trainResult (u.port (mfld m 16 1))) u)) ∧
  Declines .abrDown .pf [(16, 1)] (fun m _ => 24 ≤ mfld m 16 1) stBadParam ∧
  Performs .abrQuery .pf [(16, 1), (24, 8)] (fun m _ => mfld m 16 1 < 24)
    (fun m a x t => let bytes := (List.range 8).flatMap fun l => (List.range 256).flatMap fun k =>
        subcarrierRecord ((a.port (mfld m 16 1)).lane l) k
      (m.input.toNat < 256 → x = Result.none ∧ t = hostWrite m.input.toNat (mfld m 24 8) bytes false a) ∧
      (256 ≤ m.input.toNat → x = { fields := [], block := some bytes } ∧ t = a)) ∧
  Declines .abrQuery .pf [(16, 1), (24, 8)] (fun m _ => 24 ≤ mfld m 16 1) stBadParam

/-- The optical links (R322 to R328, R338, R368). Where the rules leave a choice it states the model's, log entries 57 and 58. -/
def Obligations.TrainingSlatesAndLanes : Prop :=
  -- the sync symbol
  (∀ x : Nat → Bool, (∀ i, i < 31 → x i = true) → (∀ i, x (i + 31) = (x i != x (i + 3))) →
    (∀ n, prbsBits n (2 ^ 31 - 1) = (List.range n).map x) ∧ syncSymbol.length = 256 ∧ syncSymbol[0]? = some Carrier.none ∧
    syncSymbol[16]? = some pilot ∧
    (∀ k, 0 < k → k < 256 → k ≠ 16 → ∃ c n, n = (if k < 16 then k - 1 else k - 2) ∧ syncSymbol[k]? = some c ∧
      c.i = (if x (2 * n) then 1 else -1) ∧ c.q = (if x (2 * n + 1) then 1 else -1))) ∧
  (∀ (s : State) (p mask gap l : Nat) (hold : Bool) (w : Option (Nat × Nat)), l < 8 → bitAt mask l = true →
    Output.symbol p l syncSymbol ∈ (startTraining p mask gap hold w s).out) ∧
  (∀ (s : State) (port : BitVec 5) (serial : BitVec 64) (pp : BitVec 5) (mask : BitVec 8) (far : FarEnd), let p := port.toNat
    ((s.port p).state ≠ 1 → Sys2Proof.Machine.exec (.helloRx port serial pp mask far) s = .next s) ∧
    ((s.port p).state = 1 → serial = Config.serial →
      Sys2Proof.Machine.exec (.helloRx port serial pp mask far) s = .next (failPort p 8 s)) ∧
    ((s.port p).state = 1 → serial ≠ Config.serial → far.rev ≠ 4 → far.rev ≠ s.flt.wireOldest →
      Sys2Proof.Machine.exec (.helloRx port serial pp mask far) s = .next (failPort p 6 s)) ∧
    ((s.port p).state = 1 → serial ≠ Config.serial → (far.rev = 4 ∨ far.rev = s.flt.wireOldest) → ∃ u : State,
      Sys2Proof.Machine.exec (.helloRx port serial pp mask far) s = .next u ∧ (u.port p).peer = some (serial, far.rev.toNat) ∧
      (u.port p).peerGain = far.gains ∧ (u.port p).mask = (s.port p).mask &&& mask ∧ (u.port p).state = 1 ∧
      (∀ l, l < 8 → ((u.port p).lane l).passing = ((s.port p).mask &&& mask).getLsbD l) ∧
      (∀ q, q ≠ p → u.port q = s.port q) ∧ (serial.toNat ≤ Config.serial.toNat → u.out = s.out))) ∧
  (∀ (s : State) (port : BitVec 5) (obs : List LaneObs) (delays : DelayStamps),
    let p := port.toNat
    let x := s.port p
    let end_ := Sys2Proof.Machine.exec (.trainingPhaseEnd port obs delays) s
    let toState := fun (n : Nat) (t : State) => updPort p (fun x => { x with state := n }) t
    (x.state = 1 → (x.peer = none → end_ = .next s) ∧ (x.peer.isSome = true → end_ = .next (toState 2 s))) ∧
    (x.state = 2 → end_ = .next (toState 3 (observe p obs recordDark s))) ∧
    (x.state = 3 → (x.hold = true → end_ = .next (endTrainCommand p (toState 4 (observe p obs recordProbe s)))) ∧
      (x.hold = false → end_ = .next (toState 5 (observe p obs recordProbe s)))) ∧
    (x.state = 5 → let t0 := observe p obs (recordLoad x.gap) s
      let t := countDropped p (passingLanes s p)
        ((passingLanes s p).foldl (fun s l => emit (tableMessage p l ((t0.port p).lane l)) s) t0)
      (passingLanes t p = [] → end_ = .next (failPort p 3 t)) ∧ (passingLanes t p ≠ [] → end_ = .next (toState 6 (delayRequests p t)))) ∧
    (x.state = 6 → let t := countDropped p (passingLanes s p) (observe p obs (fun o y => { y with passing := y.passing && o.fecLock }) s)
      let exchanged := delays.own.length = 16 ∧ delays.answers.length = 16
      (passingLanes t p = [] → end_ = .next (failPort p 5 t)) ∧
      (passingLanes t p ≠ [] → (¬ exchanged → end_ = .next s) ∧
        (exchanged → end_ = .next (portUp p delays.own (delayResponses p delays.answers t))))) ∧
    (x.state = 0 ∨ x.state = 4 ∨ 7 ≤ x.state → end_ = .next s)) ∧
  (∀ (s : State) (port : BitVec 5), let x := s.port port.toNat
    let due := x.state = 1 ∧ x.peer = none ∧ x.since + 10 * secTicks ≤ s.now
    (due → Sys2Proof.Machine.exec (.acquireTimeout port) s = .next (failPort port.toNat 1 s)) ∧
    (¬ due → Sys2Proof.Machine.exec (.acquireTimeout port) s = .next s)) ∧
  (∀ (s : State) (p reason : Nat), (((failPort p reason s).port p).state = 8 ∧ ((failPort p reason s).port p).fail = reason ∧
    ∀ l, (((failPort p reason s).port p).lane l).up = false)) ∧
  (∀ payload, payload < 2 ^ 5140 → rsDecode (rsWord payload) = some (payload, 0)) ∧
  (∀ (s : State) (port : BitVec 5) (lane : BitVec 3) (body : BitVec 5108) (crc : BitVec 32) (parity : BitVec 300)
      (payload corrected : Nat),
    let p := port.toNat
    let l := lane.toNat
    let rx := Sys2Proof.Machine.exec (.slateRx port lane body crc parity) s
    let word := (body.toNat * 2 ^ 32 + crc.toNat) * 2 ^ 300 + parity.toNat
    let s0 := laneCount p l 1 1 s
    let s1 := laneCount p l 2 corrected s0
    let head := payload / 2 ^ 32
    let gives := rsDecode word = some (payload, corrected)
    let words := (List.range 35).map fun w => BitVec.ofNat 144 (bitsAt head (144 * w) 144)
    let s2 := acceptAck p l (BitVec.ofNat 12 (bitsAt head 5080 12)) s1
    let s3 := if bitAt head 5079 then replayLane p l s2 else s2
    (((s.port p).up = false ∨ ((s.port p).lane l).up = false) → rx = .next s) ∧
    ((s.port p).up = true → ((s.port p).lane l).up = true →
      (rsDecode word = none → rx = .next (discardSlate p l (laneCount p l 3 1 s0))) ∧
      (gives → slateCrc head ≠ payload % 2 ^ 32 → rx = .next (discardSlate p l (laneCount p l 4 1 s1))) ∧
      (gives → slateCrc head = payload % 2 ^ 32 →
        (bitsAt head 5104 4 = 1 → ((s3.port p).lane l).up = false → rx = .next s3) ∧
        (bitsAt head 5104 4 = 1 → ((s3.port p).lane l).up = true → BitVec.ofNat 12 (bitsAt head 5092 12) = ((s3.port p).lane l).rxSeq + 1 →
          rx = .next (sendIdle p l false (deliver p l (BitVec.ofNat 12 (bitsAt head 5092 12)) (bitsAt head 5040 35) words s3))) ∧
        (bitsAt head 5104 4 = 1 → ((s3.port p).lane l).up = true → BitVec.ofNat 12 (bitsAt head 5092 12) ≠ ((s3.port p).lane l).rxSeq + 1 →
          rx = .next (sendIdle p l false s3)) ∧
        (bitsAt head 5104 4 = 2 → (words.getD 0 0).toNat % 256 = 1 → (s3.port p).up = true →
          rx = .next (startTraining p 0xFF 0 false none (laneCount p l 10 1 s3))) ∧
        (bitsAt head 5104 4 = 2 → ((words.getD 0 0).toNat % 256 ≠ 1 ∨ (s3.port p).up = false) → rx = .next s3) ∧
        (bitsAt head 5104 4 ≠ 1 → bitsAt head 5104 4 ≠ 2 → rx = .next s3)))) ∧
  (∀ (s : State) (port : BitVec 5) (lane : BitVec 3), let p := port.toNat
    let l := lane.toNat
    let x := (s.port p).lane l
    let due := (s.port p).up = true ∧ x.up = true ∧ x.unacked ≠ [] ∧ x.ackAt + 3933 ≤ s.now
    (due → Sys2Proof.Machine.exec (.replayTimeout port lane) s = .next (replayLane p l (laneCount p l 6 1 s))) ∧
    (¬ due → Sys2Proof.Machine.exec (.replayTimeout port lane) s = .next s)) ∧
  (∀ (s : State) (port : BitVec 5) (lane : BitVec 3) (dark : Bool), let p := port.toNat
    let l := lane.toNat
    let x := s.port p
    let loss := Sys2Proof.Machine.exec (.laneSyncLoss port lane dark) s
    let t := updLane p l (fun y => { y with passing := false }) (laneCount p l 9 1 (if 5 ≤ x.state then laneCount p l 8 1 s else s))
    (x.up = true → (x.lane l).up = true → loss = .next (failLane p l (if dark then 7 else 2) (laneCount p l 9 1 s))) ∧
    (2 ≤ x.state → x.state ≤ 6 → (x.lane l).passing = true →
      ((∃ i, i < 8 ∧ ((t.port p).lane i).passing = true) → loss = .next t) ∧
      ((∀ i, i < 8 → ((t.port p).lane i).passing = false) → loss = .next (failPort p (if dark then 7 else 2) t))) ∧
    ((x.up = false ∨ (x.lane l).up = false) → (x.state < 2 ∨ 6 < x.state ∨ (x.lane l).passing = false) → loss = .next s)) ∧
  (∀ (s : State) (port : BitVec 5), let p := port.toNat
    let s0 := if s.flt.fenced then s else exportRecord s
    (((s0.port p).up = false ∨ soonestLane s0 p = none) → Sys2Proof.Machine.exec (.portPacketBoundary port) s = .next s0) ∧
    (∀ l, (s0.port p).up = true → soonestLane s0 p = some l → (vcHead s0 p 0).isSome = true →
      (let x := (s0.port p).lane l
       x.vc0At = none ∨ ∃ a, x.vc0At = some a ∧ a + 64 * slateTime x.bits ≤ max x.freeAt (65536 * s0.now)) →
      ∃ u : State, u = sendHead p l 0 s0 ∧ Sys2Proof.Machine.exec (.portPacketBoundary port) s =
        .next (((List.range 7).map (· + 1)).foldl (fun t v => if vcOpen u v ∧ (vcHead u p v).isSome then t else setDeficit p v 0 t) u)) ∧
    (∀ l, (s0.port p).up = true → soonestLane s0 p = some l → (∀ v, v < 8 → vcHead s0 p v = none) →
      Sys2Proof.Machine.exec (.portPacketBoundary port) s = .next (((List.range 7).map (· + 1)).foldl (fun t v => setDeficit p v 0 t) s0)) ∧
    -- without a packet of VC0: the deficits of VC1 to VC7 decide, and grow when none suffices
    (∀ l, (s0.port p).up = true → soonestLane s0 p = some l → vcHead s0 p 0 = none →
      let words := fun v => ((vcHead s0 p v).map fun e => e.2.words.length).getD 0
      let full := ((List.range 7).map (· + 1)).filter fun v => vcOpen s0 v && (vcHead s0 p v).isSome
      let fit := full.filter fun v => decide (words v ≤ s0.deficit p v) && weightInForce s0 v != 0
      let ends := fun (u : State) => ((List.range 7).map (· + 1)).foldl
        (fun t v => if vcOpen u v ∧ (vcHead u p v).isSome then t else setDeficit p v 0 t) u
      (fit ≠ [] → ∃ v ∈ fit, (∀ w ∈ fit, s0.deficit p w ≤ s0.deficit p v) ∧ Sys2Proof.Machine.exec (.portPacketBoundary port) s =
        .next (ends (sendHead p l v (setDeficit p v (s0.deficit p v - words v) s0)))) ∧
      (fit = [] → (∃ v ∈ full, weightInForce s0 v ≠ 0) → Sys2Proof.Machine.exec (.portPacketBoundary port) s =
        .next (ends (full.foldl (fun t v => setDeficit p v (t.deficit p v + 8 * weightInForce t v) t) s0)))))

/-- The fabric commands (R342 to R350, R361, R364, R368). Where the rules leave a choice it states the model's, log entries 55 and 56. -/
def Obligations.FabricCommandsPerform : Prop :=
  Performs .fabWindowSet .pf [(16, 2), (32, 7), (40, 16)] (fun m a => mfld m 16 2 < 4096 ∧ fabWinOk ((mbytes m).drop 32) = true ∧
      claimsItem a 0x09 (mfld m 16 2) = false)
    (fun m a x t => x = Result.none ∧ Tab.get FabWin.reset t.fab.wins (mfld m 16 2) = readFabWin ((mbytes m).drop 32) ∧
      (∀ e, e ≠ mfld m 16 2 → Tab.get FabWin.reset t.fab.wins e = Tab.get FabWin.reset a.fab.wins e) ∧
      t = { a with fab := { a.fab with wins := t.fab.wins } }) ∧
  Declines .fabWindowSet .pf [(16, 2), (32, 7), (40, 16)] (fun m _ => 4096 ≤ mfld m 16 2 ∨ fabWinOk ((mbytes m).drop 32) = false) stBadParam ∧
  Declines .fabWindowSet .pf [(16, 2), (32, 7), (40, 16)] (fun m a => mfld m 16 2 < 4096 ∧ fabWinOk ((mbytes m).drop 32) = true ∧
    claimsItem a 0x09 (mfld m 16 2) = true) stBusy ∧
  Performs .fabWindowClear .pf [(16, 2)] (fun m a => mfld m 16 2 < 4096 ∧ claimsItem a 0x09 (mfld m 16 2) = false)
    (fun m a x t => x = Result.none ∧ Tab.get FabWin.reset t.fab.wins (mfld m 16 2) = FabWin.reset ∧
      (∀ e, e ≠ mfld m 16 2 → Tab.get FabWin.reset t.fab.wins e = Tab.get FabWin.reset a.fab.wins e) ∧
      t = { a with fab := { a.fab with wins := t.fab.wins } }) ∧
  Declines .fabWindowClear .pf [(16, 2)] (fun m _ => 4096 ≤ mfld m 16 2) stBadParam ∧
  Declines .fabWindowClear .pf [(16, 2)] (fun m a => mfld m 16 2 < 4096 ∧ claimsItem a 0x09 (mfld m 16 2) = true) stBusy ∧
  Performs .fabInwinSet .pf [(16, 3), (20, 3), (24, 8)] (fun m _ => mfld m 17 1 < 4 ∧ mfld m 20 2 < 512 ∧ mfld m 22 1 < 64 ∧
      mfld m 24 8 % 65536 = 0 ∧ mfld m 24 8 < hbmEnd)
    (fun m a x t => x = Result.none ∧ Tab.get InWin.reset t.fab.inwins (mfld m 16 1) =
        { valid := bitAt (mfld m 17 1) 0, notify := bitAt (mfld m 17 1) 1, ctx := mfld m 18 1, core := mfld m 20 2, cnt := mfld m 22 1,
          base := mfld m 24 8 } ∧
      (∀ e, e ≠ mfld m 16 1 → Tab.get InWin.reset t.fab.inwins e = Tab.get InWin.reset a.fab.inwins e) ∧
      t = { a with fab := { a.fab with inwins := t.fab.inwins } }) ∧
  Declines .fabInwinSet .pf [(16, 3), (20, 3), (24, 8)] (fun m _ => 4 ≤ mfld m 17 1 ∨ 512 ≤ mfld m 20 2 ∨ 64 ≤ mfld m 22 1 ∨
    mfld m 24 8 % 65536 ≠ 0 ∨ hbmEnd ≤ mfld m 24 8) stBadParam ∧
  Performs .fabRouteSet .pf [(16, 8)] (fun m _ => mfld m 18 2 ≠ 0 ∧ mfld m 16 2 + mfld m 18 2 ≤ 16384 ∧ mfld m 20 4 < 2 ^ 24)
    (fun m a x t => x = Result.none ∧ (∀ e, mfld m 16 2 ≤ e → e < mfld m 16 2 + mfld m 18 2 →
        Tab.get 0 t.fab.routes e = BitVec.ofNat 24 (mfld m 20 4)) ∧
      (∀ e, (e < mfld m 16 2 ∨ mfld m 16 2 + mfld m 18 2 ≤ e) → Tab.get 0 t.fab.routes e = Tab.get 0 a.fab.routes e) ∧
      t = { a with fab := { a.fab with routes := t.fab.routes } }) ∧
  Declines .fabRouteSet .pf [(16, 8)] (fun m _ => mfld m 18 2 = 0 ∨ 16384 < mfld m 16 2 + mfld m 18 2 ∨ 2 ^ 24 ≤ mfld m 20 4) stBadParam ∧
  Performs .fabLedgerSet .pf [(16, 1), (18, 2), (24, 8)] (fun m a => let frames := ceilDiv (32768 * mfld m 18 2) 65536
      mfld m 16 1 < 32 ∧ a.mem.setRan.getLsbD (mfld m 16 1) = false ∧ 64 ≤ mfld m 18 2 ∧ mfld m 18 2 ≤ 16384 ∧ mfld m 24 8 % 65536 = 0 ∧
      (setFrames (mfld m 16 1)).1 ≤ mfld m 24 8 / 65536 ∧ mfld m 24 8 / 65536 + frames ≤ (setFrames (mfld m 16 1)).2 ∧
      a.fab.ledgerOwners = [] ∧ ∀ f ∈ blockedFrames (ownFrames 259 a.fab.ledgerBase (ceilDiv (32768 * a.fab.ledgerSlots) 65536) a) false,
        f < mfld m 24 8 / 65536 ∨ mfld m 24 8 / 65536 + frames ≤ f)
    (fun m a x t => x = Result.none ∧
      let u := ownFrames 257 (mfld m 24 8 / 65536) (ceilDiv (32768 * mfld m 18 2) 65536)
        (ownFrames 259 a.fab.ledgerBase (ceilDiv (32768 * a.fab.ledgerSlots) 65536) a)
      t = { u with fab := { u.fab with ledgerBase := mfld m 24 8 / 65536, ledgerSlots := mfld m 18 2, ledger := [] } }) ∧
  Declines .fabLedgerSet .pf [(16, 1), (18, 2), (24, 8)] (fun m a => let frames := ceilDiv (32768 * mfld m 18 2) 65536
      mfld m 16 1 < 32 ∧ a.mem.setRan.getLsbD (mfld m 16 1) = false ∧ 64 ≤ mfld m 18 2 ∧ mfld m 18 2 ≤ 16384 ∧ mfld m 24 8 % 65536 = 0 ∧
      (setFrames (mfld m 16 1)).1 ≤ mfld m 24 8 / 65536 ∧ mfld m 24 8 / 65536 + frames ≤ (setFrames (mfld m 16 1)).2 ∧
      a.fab.ledgerOwners ≠ []) stBusy ∧
  Declines .fabLedgerSet .pf [(16, 1), (18, 2), (24, 8)] (fun m a => let frames := ceilDiv (32768 * mfld m 18 2) 65536
      mfld m 16 1 < 32 ∧ a.mem.setRan.getLsbD (mfld m 16 1) = false ∧ 64 ≤ mfld m 18 2 ∧ mfld m 18 2 ≤ 16384 ∧ mfld m 24 8 % 65536 = 0 ∧
      (setFrames (mfld m 16 1)).1 ≤ mfld m 24 8 / 65536 ∧ mfld m 24 8 / 65536 + frames ≤ (setFrames (mfld m 16 1)).2 ∧
      a.fab.ledgerOwners = [] ∧ ∃ f ∈ blockedFrames (ownFrames 259 a.fab.ledgerBase (ceilDiv (32768 * a.fab.ledgerSlots) 65536) a) false,
        mfld m 24 8 / 65536 ≤ f ∧ f < mfld m 24 8 / 65536 + frames) stCapacity ∧
  Declines .fabLedgerSet .pf [(16, 1), (18, 2), (24, 8)] (fun m a => 32 ≤ mfld m 16 1 ∨ a.mem.setRan.getLsbD (mfld m 16 1) = true ∨
    mfld m 18 2 < 64 ∨ 16384 < mfld m 18 2 ∨ mfld m 24 8 % 65536 ≠ 0) stBadParam ∧
  Performs .fabIdSet .pf [(16, 2)] (fun m a => mfld m 16 2 < 16384 ∧ ∀ e ∈ a.fab.ports, e.2.state = 0)
    (fun m a x t => x = Result.none ∧ t = { a with fab := { a.fab with hall := mfld m 16 2 } }) ∧
  Declines .fabIdSet .pf [(16, 2)] (fun m a => mfld m 16 2 < 16384 ∧ ∃ e ∈ a.fab.ports, e.2.state ≠ 0) stBusy ∧
  Declines .fabIdSet .pf [(16, 2)] (fun m _ => 16384 ≤ mfld m 16 2) stBadParam ∧
  Performs .fabVcDefault .pf [(16, 14)] (fun _ _ => True)
    (fun m a x t => x = Result.none ∧ (∀ j, j < 7 → Tab.get (vcResetWeight (j + 1)) t.fab.vcDefault (j + 1) = mfld m (16 + 2 * j) 2) ∧
      t = { a with fab := { a.fab with vcDefault := t.fab.vcDefault } }) ∧
  Performs .fabConfig .pf [(16, 4)] (fun m _ => 65536 ≤ mfld m 16 4 ∧ mfld m 16 4 ≤ 16777216)
    (fun m a x t => x = Result.none ∧ t = { a with fab := { a.fab with reqTimeout := mfld m 16 4 } }) ∧
  Declines .fabConfig .pf [(16, 4)] (fun m _ => mfld m 16 4 < 65536 ∨ 16777216 < mfld m 16 4) stBadParam ∧
  Performs .fabQuery .pf [(24, 8)] (fun _ _ => True)
    (fun m a x t => let bytes := ((List.range 4096).flatMap fun i => (Tab.get FabWin.reset a.fab.wins i).bytes) ++
        ((List.range 256).flatMap fun i => (Tab.get InWin.reset a.fab.inwins i).bytes) ++
        ((List.range 14).flatMap fun i => leBytes 8 (Tab.get 0 a.fab.cnt i).toNat)
      (m.input.toNat < 256 → x = Result.none ∧ t = hostWrite m.input.toNat (mfld m 24 8) bytes false a) ∧
      (256 ≤ m.input.toNat → x = { fields := [], block := some bytes } ∧ t = a))

/-- Packets at the home and at the sender (R344 to R365, R407). Where the rules leave a choice it states the model's, log entries 31, 54, 55 and 56. -/
def Obligations.FabricRequestsAndResponses : Prop :=
  (∀ p ∈ ([(.pktRead, 1), (.pktWrite, 2), (.pktAtomic, 3)] : List ((BitVec 5 → List (BitVec 144) → Instr) × Nat)),
    ∀ (port : BitVec 5) (ws : List (BitVec 144)) (s : State),
    let t := takeArrived port.toNat ws s
    let h := readHdr ws
    let h1 := readHdr1 ws
    let n := if p.2 = 2 then 2 + coveredWords h1.offset h.len else if p.2 = 3 then 4 else 2
    let ours := headersGood ws 2 = true ∧ h.opc = p.2 ∧ h.rsp = false
    (¬ ours → Sys2Proof.Machine.exec (p.1 port ws) s = .next (fabCount 10 t)) ∧
    (ours → h.dst ≠ s.fab.hall → Sys2Proof.Machine.exec (p.1 port ws) s = .next (forwardPacket ws t)) ∧
    (ours → h.dst = s.fab.hall → (ws.length ≠ n ∨ h1.level = 0 ∨ h1.level = 3) →
      Sys2Proof.Machine.exec (p.1 port ws) s = .next (fabCount 10 t)) ∧
    (ours → h.dst = s.fab.hall → ws.length = n → h1.level ≠ 0 → h1.level ≠ 3 →
      (epochOk s h = false → Sys2Proof.Machine.exec (p.1 port ws) s =
        .next (respond h h1.offset 0x1F stEpoch [] (fabCount 2 (fabCount 1 t)))) ∧
      (epochOk s h = true → 3 ≤ h.vc → (police (Tab.get Policer.reset s.traf.policers (8192 + h.src)) (16 * ws.length)).1 = false →
        Sys2Proof.Machine.exec (p.1 port ws) s = .next (let u := fabCount 1 t
          { u with traf := { u.traf with cnt := bumpBy (bump u.traf.cnt 2) 3 (16 * ws.length) } })))) ∧
  -- requests that are let through: u is the state in which they are performed
  (∀ (port : BitVec 5) (ws : List (BitVec 144)) (s u : State), let h := readHdr ws
    let h1 := readHdr1 ws
    let pol := police (Tab.get Policer.reset s.traf.policers (8192 + h.src)) (16 * ws.length)
    let v := fabCount 1 (takeArrived port.toNat ws s)
    u = (if 3 ≤ h.vc then v.setPolicer (8192 + h.src) pol.2 else v) →
    headersGood ws 2 = true → h.rsp = false → h.dst = s.fab.hall → h1.level ≠ 0 → h1.level ≠ 3 → epochOk s h = true →
    (3 ≤ h.vc → pol.1 = true) →
    (h.opc = 1 → ws.length = 2 →
      (homeAddress u h1.level h1.window h1.offset h.len = none → Sys2Proof.Machine.exec (.pktRead port ws) s = .next (refuseIn h h1 u)) ∧
      (∀ a, homeAddress u h1.level h1.window h1.offset h.len = some a → let r := homeRead (homeWho u h1.level h1.window) a h.len u
        Sys2Proof.Machine.exec (.pktRead port ws) s = .next (respond h h1.offset 0x11 stOk r.1 r.2.2))) ∧
    (h.opc = 2 → ws.length = 2 + coveredWords h1.offset h.len →
      (windowReplayed u h1 = true ∨ homeAddress u h1.level h1.window h1.offset h.len = none →
        Sys2Proof.Machine.exec (.pktWrite port ws) s = .next (refuseIn h h1 u)) ∧
      (∀ a, windowReplayed u h1 = false → homeAddress u h1.level h1.window h1.offset h.len = some a →
        let r := homeWrite (homeWho u h1.level h1.window) a h.len h1.firstBe h1.lastBe (ws.drop 2)
          (storeRace (· == 2 ^ 14 + h.src) a h.len u)
        Sys2Proof.Machine.exec (.pktWrite port ws) s = .next (respond h h1.offset 0x12 (if r.1 then stPoison else stOk) []
          (captureInbound h h1 a (notifyWindow (fun ctx core cnt s => retireFor ctx core cnt stOk s) h1.level h1.window r.2))))) ∧
    (h.opc = 3 → ws.length = 4 →
      (u.fab.ledgerSlots = 0 → Sys2Proof.Machine.exec (.pktAtomic port ws) s = .next (respond h h1.offset 0x1F stNotReady [] u)) ∧
      (u.fab.ledgerSlots ≠ 0 → ledgerSlot u h.src = none →
        Sys2Proof.Machine.exec (.pktAtomic port ws) s = .next (respond h h1.offset 0x1F stCapacity [] (fabCount 8 u))) ∧
      (∀ slot, u.fab.ledgerSlots ≠ 0 → ledgerSlot u h.src = some slot →
        let key := 1024 * slot + h1.aseq % 1024
        let l := Tab.get LedgerRec.reset u.fab.ledger key
        let age := (BitVec.ofNat 16 h1.aseq - l.aseq).toNat
        let w : State := { u with fab := { u.fab with ledgerOwners := Tab.set none u.fab.ledgerOwners slot (some h.src) } }
        (l.valid = true → age = 0 → Sys2Proof.Machine.exec (.pktAtomic port ws) s = .next (atomicAnswer h h1 l.status l.result.toNat w)) ∧
        (l.valid = true → 2 ^ 15 ≤ age → Sys2Proof.Machine.exec (.pktAtomic port ws) s = .next (fabCount 7 w)) ∧
        ((l.valid = false ∨ (age ≠ 0 ∧ age < 2 ^ 15)) →
          (atomicOk h h1 = false → Sys2Proof.Machine.exec (.pktAtomic port ws) s = .next (respond h h1.offset 0x1F stBadParam [] w)) ∧
          (atomicOk h h1 = true → homeAddress w h1.level h1.window h1.offset h.len = none →
            Sys2Proof.Machine.exec (.pktAtomic port ws) s = .next (refuseIn h h1 w)) ∧
          (∀ a, atomicOk h h1 = true → homeAddress w h1.level h1.window h1.offset h.len = some a →
            Sys2Proof.Machine.exec (.pktAtomic port ws) s = .next (applyAtomic h h1 a key ws w)))))) ∧
  (∀ p ∈ ([(.pktReadData, 0x11, fun t n => t.op == 1 && n == 1 + coveredWords t.offset t.len), (.pktWriteAck, 0x12, fun t n => t.op == 2 && n == 1),
      (.pktAtomicResult, 0x13, fun t n => t.op == 3 && n == 2), (.pktNak, 0x1F, fun _ n => n == 1)] :
      List ((BitVec 5 → List (BitVec 144) → Instr) × Nat × (Track → Nat → Bool))), ∀ (port : BitVec 5) (ws : List (BitVec 144)) (s : State),
    let t := takeArrived port.toNat ws s
    let h := readHdr ws
    let ours := headersGood ws 1 = true ∧ h.opc = p.2.1 ∧ h.rsp = true
    (¬ ours → Sys2Proof.Machine.exec (p.1 port ws) s = .next (fabCount 10 t)) ∧
    (ours → h.dst ≠ s.fab.hall → Sys2Proof.Machine.exec (p.1 port ws) s = .next (forwardPacket ws t)) ∧
    (ours → h.dst = s.fab.hall → epochOk s h = false → Sys2Proof.Machine.exec (p.1 port ws) s = .next (fabCount 2 t)) ∧
    (ours → h.dst = s.fab.hall → epochOk s h = true →
      (t.track h.tag = none → Sys2Proof.Machine.exec (p.1 port ws) s = .next (fabCount 6 t)) ∧
      (∀ k, t.track h.tag = some k →
        ((k.gen.toNat ≠ h.gen ∨ k.unsent = true) → Sys2Proof.Machine.exec (p.1 port ws) s = .next (fabCount 6 t)) ∧
        (k.gen.toNat = h.gen → k.unsent = false → p.2.2 k ws.length = false →
          Sys2Proof.Machine.exec (p.1 port ws) s = .next (fabCount 10 t)) ∧
        (k.gen.toNat = h.gen → k.unsent = false → p.2.2 k ws.length = true → landingHeld k h.status s = true →
          Sys2Proof.Machine.exec (p.1 port ws) s = .next s)))) ∧
  -- a response of its request's TAG and GEN, of the length its request asks for, ends that request
  (∀ (port : BitVec 5) (ws : List (BitVec 144)) (s : State) (k : Track),
    let t := takeArrived port.toNat ws s
    let h := readHdr ws
    let ended := completeTrack h.tag k h.status (ws.drop 1) (unqueue h.tag t)
    headersGood ws 1 = true → h.rsp = true → h.dst = s.fab.hall → epochOk s h = true → t.track h.tag = some k →
    k.gen.toNat = h.gen → k.unsent = false → landingHeld k h.status s = false →
    (h.opc = 0x11 → k.op = 1 → ws.length = 1 + coveredWords k.offset k.len →
      Sys2Proof.Machine.exec (.pktReadData port ws) s = .next ended) ∧
    (h.opc = 0x12 → k.op = 2 → ws.length = 1 → Sys2Proof.Machine.exec (.pktWriteAck port ws) s = .next ended) ∧
    (h.opc = 0x13 → k.op = 3 → ws.length = 2 → Sys2Proof.Machine.exec (.pktAtomicResult port ws) s = .next ended) ∧
    (h.opc = 0x1F → ws.length = 1 → Sys2Proof.Machine.exec (.pktNak port ws) s = .next ended)) ∧
  (∀ (port : BitVec 5) (ws : List (BitVec 144)) (s : State),
    ((readHdr ws).dst = s.fab.hall → Sys2Proof.Machine.exec (.transitForward port ws) s = .next s) ∧
    ((readHdr ws).dst ≠ s.fab.hall →
      Sys2Proof.Machine.exec (.transitForward port ws) s = .next (forwardPacket ws (takeArrived port.toNat ws s)))) ∧
  (∀ (tag : BitVec 17) (s : State),
    ((s.track tag.toNat = none ∨ ∃ t, s.track tag.toNat = some t ∧ (t.unsent = true ∨ s.now < t.sentAt + s.fab.reqTimeout)) →
      Sys2Proof.Machine.exec (.requestTimeout tag) s = .next s) ∧
    (∀ t, s.track tag.toNat = some t → t.unsent = false → t.sentAt + s.fab.reqTimeout ≤ s.now →
      let u : State := { s with fab := { s.fab with tracks := Tab.set none s.fab.tracks tag.toNat (some { t with timeouts := t.timeouts + 1 }) } }
      ((t.timeouts + 1) % 4 ≠ 0 → Sys2Proof.Machine.exec (.requestTimeout tag) s = .next (resend tag.toNat u)) ∧
      ((t.timeouts + 1) % 4 = 0 → Sys2Proof.Machine.exec (.requestTimeout tag) s =
        .next (resend tag.toNat (faultEvent 9 (leBytes 2 t.dst) (fabCount 5 u)))))) ∧
  (∀ (hq : BitVec 13) (index : BitVec 32) (s : State), let h := hq.toNat
    let q := s.queue h
    let vc := egressVc q.egress
    let sent := ∃ e ∈ s.fab.tracks, ∃ t, e.2 = some t ∧ t.req = .desc h index.toNat
    (findDesc s h index.toNat = none → Sys2Proof.Machine.exec (.descWrite hq index) s = .next s) ∧
    (∀ d, findDesc s h index.toNat = some d → (d.op ≠ 5 ∨ d.phase ≠ 1 ∨ sent) → Sys2Proof.Machine.exec (.descWrite hq index) s = .next s) ∧
    (∀ d, findDesc s h index.toNat = some d → d.op = 5 → d.phase = 1 → ¬ sent →
      let f := readFabAddr d.target
      let stops := fabFenced s q.fn
      (stops = true → Sys2Proof.Machine.exec (.descWrite hq index) s = .next (endDesc h d.index stFenced s)) ∧
      (stops = false → targetHall s f ≠ s.fab.hall → (s.peer (targetHall s f)).lost = true →
        Sys2Proof.Machine.exec (.descWrite hq index) s = .next (endDesc h d.index stEpoch s)) ∧
      (stops = false → targetHall s f ≠ s.fab.hall → (s.peer (targetHall s f)).lost = false →
        (sendRequestVia (some ((q.egress - 8) / 3)) (.desc h d.index) q.fn vc d.target d.len 2 0 0 0 false
            (bytesWords f.offset d.payload) false s = none → Sys2Proof.Machine.exec (.descWrite hq index) s = .next s) ∧
        (∀ u, sendRequestVia (some ((q.egress - 8) / 3)) (.desc h d.index) q.fn vc d.target d.len 2 0 0 0 false
            (bytesWords f.offset d.payload) false s = some u → Sys2Proof.Machine.exec (.descWrite hq index) s = .next u)) ∧
      (stops = false → targetHall s f = s.fab.hall →
        (homeAddress s f.level f.window f.offset d.len = none →
          Sys2Proof.Machine.exec (.descWrite hq index) s = .next (endDesc h d.index stWindow s)) ∧
        (∀ a, homeAddress s f.level f.window f.offset d.len = some a →
          let r := homeWrite (homeWho s f.level f.window) a d.len (byteEnables f.offset d.len).1 (byteEnables f.offset d.len).2 (bytesWords f.offset d.payload)
            (storeRace (fun _ => false) a d.len s)
          Sys2Proof.Machine.exec (.descWrite hq index) s = .next (endDesc h d.index (if r.1 then stPoison else stOk)
            (notifyWindow (fun ctx core cnt s => retireFor ctx core cnt stOk s) f.level f.window r.2))))))

/-- Collective groups and jobs (R370 to R397). Where the rules leave a choice it states the model's, log entries 59, 60 and 61. -/
def Obligations.CollectiveGroupsAndJobs : Prop :=
  (∀ (m : Mbx) (s : State), let c := admitCmd m .own [(24, 8)] s
    let a := c.2
    let rec_ := deviceData a (issuer m) (mfld m 24 8) 64
    let b := rec_.2.1
    let table := deviceData rec_.2.2 (issuer m) (fld b 16 8) (4 * fld b 8 4)
    let v := table.2.2
    let g := readGroup (issuer m) (some (m.input.toNat, m.slot.toNat)) a.now b table.2.1
    let ends := fun (n : Nat) (t : State) => Sys2Proof.Machine.exec (.collGroupCreate m) s = .next (complete m n Result.none t)
    let used := ∃ e ∈ v.fab.groups, ∃ o, e.2 = some o ∧ o.key = g.key
    (c.1 = stOk → rec_.1 ≠ stOk → ends rec_.1 rec_.2.2) ∧
    (c.1 = stOk → rec_.1 = stOk → groupRecordOk b = false → ends stBadParam rec_.2.2) ∧
    (c.1 = stOk → rec_.1 = stOk → groupRecordOk b = true → table.1 ≠ stOk → ends table.1 v) ∧
    (c.1 = stOk → rec_.1 = stOk → groupRecordOk b = true → table.1 = stOk → groupPlaceOk v g = false → ends stBadParam v) ∧
    (c.1 = stOk → rec_.1 = stOk → groupRecordOk b = true → table.1 = stOk → groupPlaceOk v g = true →
      ((used ∨ ∀ i, i < 4096 → (v.group i).isSome = true) → ends stCapacity v) ∧
      (∀ i, ¬ used → (List.range 4096).find? (fun i => (v.group i).isNone) = some i →
        (∀ f, g.fast = false → g.layoutFault = some f → Sys2Proof.Machine.exec (.collGroupCreate m) s =
          .next (complete m stCollLayout { fields := [(8, 4, f.1), (12, 4, f.2)], block := none } v)) ∧
        ((g.fast = true ∨ g.layoutFault = none) → Sys2Proof.Machine.exec (.collGroupCreate m) s =
          .next (beginJoin i { v with fab := { v.fab with groups := Tab.set none v.fab.groups i (some g) } }))))) ∧
  Performs .collGroupDestroy .own [(16, 2)] (fun m a => ∃ i g, namedGroup m a = some (i, g) ∧ g.ops = [] ∧ g.state ≠ 1)
    (fun m a x t => x = Result.none ∧ t.group (mfld m 16 2) = none ∧ (∀ k, k ≠ mfld m 16 2 → t.group k = a.group k) ∧
      t = { a with fab := { a.fab with groups := t.fab.groups } }) ∧
  Declines .collGroupDestroy .own [(16, 2)] (fun m a => ∃ i g, namedGroup m a = some (i, g) ∧ (g.ops ≠ [] ∨ g.state = 1)) stBusy ∧
  Declines .collGroupDestroy .own [(16, 2)] (fun m a => a.group (mfld m 16 2) = none ∨
    ∃ g, a.group (mfld m 16 2) = some g ∧ g.owner ≠ issuer m) stBadParam ∧
  Performs .collGroupQuery .own [(16, 2)] (fun m a => (namedGroup m a).isSome = true)
    (fun m a x t => t = a ∧ ∀ i g, namedGroup m a = some (i, g) →
      let n := fun (k : Nat) => min (Tab.get 0 g.aborts k) (2 ^ 32 - 1)
      x = { fields := [(5, 1, g.shownState), (8, 4, g.topSeq), (16, 4, n 0), (20, 4, n 1), (24, 4, n 2), (28, 4, n 3)], block := none }) ∧
  Declines .collGroupQuery .own [(16, 2)] (fun m a => namedGroup m a = none) stBadParam ∧
  StaysInFlight .collGroupRebind .own [(16, 6), (24, 4)] (fun m a => ∃ i g, namedGroup m a = some (i, g) ∧ g.ops = [] ∧ g.state ≠ 1 ∧
      mfld m 18 2 < 16384 ∧ mfld m 20 2 < 16384 ∧ mfld m 24 4 < 2 ^ 24 ∧
      (let ranks := g.ranks.map fun e => if rankHall e = mfld m 18 2 then e - mfld m 18 2 + mfld m 20 2 else e
       distinctDies ranks = true ∧ ({ g with ranks := ranks } : Group).devs.contains a.fab.hall = true ∧
       (g.fast = false → ({ g with ranks := ranks } : Group).layoutFault = none)))
    (fun m a t => ∀ i g, namedGroup m a = some (i, g) →
      let ranks := g.ranks.map fun e => if rankHall e = mfld m 18 2 then e - mfld m 18 2 + mfld m 20 2 else e
      t = beginJoin i { a with fab := { a.fab with groups := Tab.set none a.fab.groups i (some { g with
        ranks := ranks, seq := mfld m 24 4, submitted := [], aborted := [], early := [], state := 1, joined := [], joinAt := a.now,
        waiter := some (m.input.toNat, m.slot.toNat) }) } }) ∧
  Declines .collGroupRebind .own [(16, 6), (24, 4)] (fun m a => namedGroup m a = none ∨ 16384 ≤ mfld m 18 2 ∨ 16384 ≤ mfld m 20 2 ∨
    2 ^ 24 ≤ mfld m 24 4) stBadParam ∧
  Declines .collGroupRebind .own [(16, 6), (24, 4)] (fun m a => ∃ i g, namedGroup m a = some (i, g) ∧ (g.ops ≠ [] ∨ g.state = 1) ∧
      mfld m 18 2 < 16384 ∧ mfld m 20 2 < 16384 ∧ mfld m 24 4 < 2 ^ 24 ∧
      (let ranks := g.ranks.map fun e => if rankHall e = mfld m 18 2 then e - mfld m 18 2 + mfld m 20 2 else e
       distinctDies ranks = true ∧ ({ g with ranks := ranks } : Group).devs.contains a.fab.hall = true ∧
       (g.fast = false → ({ g with ranks := ranks } : Group).layoutFault = none))) stBusy ∧
  StaysInFlight .collJob .own [(16, 9), (28, 28)] (fun _ _ => True)
    (fun m a t => let b := ((mbytes m).drop 16).take 40
      let w := (m.input.toNat, m.slot.toNat)
      let die := mailboxDie a (fld b 4 2)
      (∀ d, die = some d → portFull a (0x40 + d) = true → t = pushMailboxJob (0x40 + d) (issuer m) w b a) ∧
      (∀ d, die = some d → portFull a (0x40 + d) = false → t = submitColl b (issuer m) (some d) (some w) a) ∧
      (die = none → t = submitColl b (issuer m) none (some w) a)) ∧
  (∀ p ∈ ([(.opAllreduce, 1), (.opReduceScatter, 2), (.opAllgather, 3), (.opBroadcast, 4), (.opReduce, 5), (.opAlltoall, 6), (.opBarrier, 7)] :
      List ((BitVec 2 → Instr) × Nat)), ∀ (die : BitVec 2) (s : State), let q := 0x40 + die.toNat
    (headJob q s = none → Sys2Proof.Machine.exec (p.1 die) s = .next s) ∧
    (∀ j, headJob q s = some j → let b := leBytes 64 j.block.toNat
      let mine := fld b 0 1 = p.2 ∨ (p.2 = 1 ∧ (fld b 0 1 = 0 ∨ 7 < fld b 0 1))
      (¬ mine ∨ 1024 ≤ queuedJobs s die.toNat) → Sys2Proof.Machine.exec (p.1 die) s = .next s)) ∧
  (∀ (die : BitVec 2) (s : State) (j : Job), let q := 0x40 + die.toNat
    let b := leBytes 64 j.block.toNat
    let submitted := submitColl b j.who (some die.toNat) j.waiter (popJob q s)
    headJob q s = some j → queuedJobs s die.toNat < 1024 →
    (fld b 0 1 = 1 ∨ fld b 0 1 = 0 ∨ 7 < fld b 0 1 → Sys2Proof.Machine.exec (.opAllreduce die) s = .next submitted) ∧
    (fld b 0 1 = 2 → Sys2Proof.Machine.exec (.opReduceScatter die) s = .next submitted) ∧
    (fld b 0 1 = 3 → Sys2Proof.Machine.exec (.opAllgather die) s = .next submitted) ∧
    (fld b 0 1 = 4 → Sys2Proof.Machine.exec (.opBroadcast die) s = .next submitted) ∧
    (fld b 0 1 = 5 → Sys2Proof.Machine.exec (.opReduce die) s = .next submitted) ∧
    (fld b 0 1 = 6 → Sys2Proof.Machine.exec (.opAlltoall die) s = .next submitted) ∧
    (fld b 0 1 = 7 → Sys2Proof.Machine.exec (.opBarrier die) s = .next submitted)) ∧
  (∀ (b : List Byte) (who : Nat) (die : Option Nat) (w : Option (Nat × Nat)) (s : State), let i := fld b 4 2
    let job : CollJob := {
      rank := 0, die := 0, core := fld b 6 2, cnt := fld b 8 1, src := fld b 24 8, dst := fld b 32 8, op := fld b 0 1,
      typ := fld b 1 1, rop := fld b 2 1, flags := fld b 3 1, root := fld b 12 4, count := fld b 16 8, waiter := w,
      poison := false, nan := false, ovf := false }
    (s.group i = none → submitColl b who die w s = endCollJob who job stBadParam s) ∧
    (∀ g, s.group i = some g → g.owner ≠ who → submitColl b who die w s = endCollJob who job stBadParam s) ∧
    (∀ g d r, s.group i = some g → die = some d → (localRanks s g).find? (fun r => r.2 == d) = some (r, d) → g.owner = who →
      (collJobOk s g b w.isSome = false → submitColl b who die w s = endCollJob who job stBadParam s) ∧
      (collJobOk s g b w.isSome = true → g.state = 5 → submitColl b who die w s = endCollJob who job stCollPeerLost s) ∧
      (collJobOk s g b w.isSome = true → g.state ≠ 5 → let seq := g.nextSeq d
        let mine := { job with rank := r, die := d }
        Tab.get 0 g.aborted seq = 0 → submitColl b who die w s = pump i (updGroup i (fun g =>
          if (g.op seq).isSome then { g with ops := g.ops.map fun o => if o.seq = seq then { o with jobs := o.jobs ++ [mine] } else o }
          else { g with ops := g.ops ++ [CollOp.new seq [mine] none s.now] })
          (updGroup i (fun g => { g with submitted := Tab.upd 0 g.submitted d (· + 1) }) s))))) ∧
  (∀ (group : BitVec 12) (s : State), let i := group.toNat
    ((s.group i = none ∨ ∃ g, s.group i = some g ∧ (g.state ≠ 1 ∨ s.now < g.joinAt + 512 * g.timeout)) →
      Sys2Proof.Machine.exec (.collJoinTimeout group) s = .next s) ∧
    (∀ g, s.group i = some g → g.state = 1 → g.joinAt + 512 * g.timeout ≤ s.now →
      Sys2Proof.Machine.exec (.collJoinTimeout group) s = .next (failJoin i stCollTimeout s)) ∧
    (let late := fun (g : Group) => g.ops.find? fun o => o.started && o.ended.isNone && decide (o.progress + 512 * g.timeout ≤ s.now)
     ((s.group i = none ∨ ∃ g, s.group i = some g ∧ late g = none) →
       Sys2Proof.Machine.exec (.collProgressTimeout group) s = .next s) ∧
     (∀ g o, s.group i = some g → late g = some o →
       Sys2Proof.Machine.exec (.collProgressTimeout group) s = .next (unitsDone (pump i (abortOp i o.seq stCollTimeout stCollTimeout true s))))))

/-- Collective packets (R384 to R396). Where the rules leave a choice it states the model's, log entries 59, 60 and 61. -/
def Obligations.CollectivePacketsAndBarriers : Prop :=
  (∀ p ∈ ([(.collData, 0x20, false), (.collCredit, 0x21, true), (.collAbort, 0x22, false), (.barrierArrive, 0x23, false),
      (.collJoin, 0x25, false)] : List ((BitVec 5 → List (BitVec 144) → Instr) × Nat × Bool)),
    ∀ (port : BitVec 5) (ws : List (BitVec 144)) (s : State), let t := takeArrived port.toNat ws s
    let h := readHdr ws
    let ours := headersGood ws 2 = true ∧ h.opc = p.2.1 ∧ h.rsp = p.2.2
    (¬ ours → Sys2Proof.Machine.exec (p.1 port ws) s = .next (fabCount 10 t)) ∧
    (ours → h.dst ≠ s.fab.hall → Sys2Proof.Machine.exec (p.1 port ws) s = .next (forwardPacket ws t)) ∧
    (ours → h.dst = s.fab.hall → (packetWords ws).1 ≠ ws.length → Sys2Proof.Machine.exec (p.1 port ws) s = .next (fabCount 10 t)) ∧
    (ours → h.dst = s.fab.hall → (packetWords ws).1 = ws.length → epochOk s h = false → Sys2Proof.Machine.exec (p.1 port ws) s =
      .next (if p.2.2 then fabCount 2 t else respond h 0 0x1F stEpoch [] (fabCount 2 t)))) ∧
  (∀ (port : BitVec 5) (ws : List (BitVec 144)) (s u : State), let h := readHdr ws
    let c := readCHdr ws
    headersGood ws 2 = true → h.dst = s.fab.hall → (packetWords ws).1 = ws.length → epochOk s h = true →
    u = (if h.rsp then takeArrived port.toNat ws s else fabCount 1 (takeArrived port.toNat ws s)) →
    (∀ p ∈ ([(.collData port ws, 0x20, false), (.collCredit port ws, 0x21, true), (.barrierArrive port ws, 0x23, false)] :
        List (Instr × Nat × Bool)), h.opc = p.2.1 → h.rsp = p.2.2 →
      (groupByKey u c.key = none → Sys2Proof.Machine.exec p.1 s = .next (staleDrop c.die u)) ∧
      (∀ i g, groupByKey u c.key = some (i, g) →
        ((g.devs.contains h.src = false ∨ g.state = 5) → Sys2Proof.Machine.exec p.1 s = .next (staleDrop c.die u)) ∧
        (g.devs.contains h.src = true → g.state ≠ 5 →
          (∀ o, g.op c.seq = some o → o.started = false →
            Sys2Proof.Machine.exec p.1 s = .next (updGroup i (fun g => { g with early := g.early ++ [ws] }) u)) ∧
          (g.op c.seq = none → (g.isFuture c.seq = true ∧ Tab.get 0 g.aborted c.seq = 0 →
              Sys2Proof.Machine.exec p.1 s = .next (updGroup i (fun g => { g with early := g.early ++ [ws] }) u)) ∧
            (¬ (g.isFuture c.seq = true ∧ Tab.get 0 g.aborted c.seq = 0) →
              Sys2Proof.Machine.exec p.1 s = .next (staleDrop c.die u)))))) ∧
    (∀ i g o, groupByKey u c.key = some (i, g) → g.devs.contains h.src = true → g.state ≠ 5 → g.op c.seq = some o → o.started = true →
      let taken := unitsDone (pump i (takePacket i c.seq ws u))
      (h.opc = 0x20 → h.rsp = false → Sys2Proof.Machine.exec (.collData port ws) s = .next taken) ∧
      (h.opc = 0x21 → h.rsp = true → Sys2Proof.Machine.exec (.collCredit port ws) s = .next taken) ∧
      (h.opc = 0x23 → h.rsp = false → Sys2Proof.Machine.exec (.barrierArrive port ws) s = .next taken)) ∧
    (h.opc = 0x22 → h.rsp = false → let st := bitsAt (readWord (ws.getD 2 0)).1.toNat 56 16
      (groupByKey u c.key = none → Sys2Proof.Machine.exec (.collAbort port ws) s = .next (staleDrop c.die u)) ∧
      (∀ i g, groupByKey u c.key = some (i, g) →
        (g.devs.contains h.src = false → Sys2Proof.Machine.exec (.collAbort port ws) s = .next (staleDrop c.die u)) ∧
        (g.devs.contains h.src = true → let v := collCount (speaker u g) 3 1 u
          ((g.op c.seq).isSome = true →
            Sys2Proof.Machine.exec (.collAbort port ws) s = .next (unitsDone (pump i (abortOp i c.seq st st false v)))) ∧
          (g.op c.seq = none → g.isFuture c.seq = true → Tab.get 0 g.aborted c.seq = 0 →
            Sys2Proof.Machine.exec (.collAbort port ws) s = .next (recordAbort i c.seq st (updGroup i (fun g => { g with
              aborts := Tab.upd 0 g.aborts (abortKind st) (· + 1), early := g.early.filter fun ws => (readCHdr ws).seq != c.seq }) v))) ∧
          (g.op c.seq = none → (g.isFuture c.seq = false ∨ Tab.get 0 g.aborted c.seq ≠ 0) →
            Sys2Proof.Machine.exec (.collAbort port ws) s = .next v)))) ∧
    (h.opc = 0x24 → h.rsp = false → ∀ delays : BitVec 32,
      let ours := fun (i : Nat) (g : Group) (o : CollOp) => groupByKey u c.key = some (i, g) ∧ g.op c.seq = some o ∧ h.src = g.hallOf 0 ∧
        o.isBarrier = true ∧ o.arriveSent = true ∧ o.ended = none
      (∀ i g o, ours i g o → let d := pathDelay u port.toNat h.hops delays.toNat
        let late := o.plate.isSome = true ∧ barrierB g < d
        (late → Sys2Proof.Machine.exec (.barrierRelease port ws delays) s = .next (pump i (releaseBarrier i o
          (256 * u.now + (barrierB g - d)) { u with time := { u.time with cnt := bump u.time.cnt 10 } }))) ∧
        (¬ late → Sys2Proof.Machine.exec (.barrierRelease port ws delays) s =
          .next (pump i (releaseBarrier i o (256 * u.now + (barrierB g - d)) u)))) ∧
      ((∀ i g o, ¬ ours i g o) → Sys2Proof.Machine.exec (.barrierRelease port ws delays) s = .next (staleDrop c.die u))) ∧
    (h.opc = 0x25 → h.rsp = false → let v := (readWord (ws.getD 2 0)).1.toNat
      let e : Join := { key := bitsAt v 0 32, src := h.src, digest := bitsAt v 32 64, arith := bitsAt v 96 8 }
      (∀ i g, groupByKey u e.key = some (i, g) → g.state = 1 → (otherDevs u g).contains e.src = true →
        Sys2Proof.Machine.exec (.collJoin port ws) s = .next (takeJoin i e u)) ∧
      ((∀ i g, groupByKey u e.key = some (i, g) → g.state ≠ 1 ∨ (otherDevs u g).contains e.src = false) →
        Sys2Proof.Machine.exec (.collJoin port ws) s = .next { u with fab := { u.fab with
          joins := u.fab.joins.filter (fun o => o.key != e.key || o.src != e.src) ++ [e] } }))) ∧
  (∀ (die : BitVec 2) (s : State), let d := die.toNat
    let s0 := (groupIds s).foldl (fun s i => countWaits d i s) s
    let ready := fun (i : Nat) => decide (i ∈ groupIds s0) && (s0.group i).any fun g => (nextSend s0 g d).isSome
    ((∀ i, ready i = false) → Sys2Proof.Machine.exec (.collRingStepSend die) s = .next s0) ∧
    (∀ i, arbitrate s0.root 12 4096 ready = some i → ∃ g o j r t, s0.group i = some g ∧
      nextSend s0 g d = some (o, j, r, t) ∧
      Sys2Proof.Machine.exec (.collRingStepSend die) s = .next (unitsDone (pump i (sendData i g o j r t s0))))) ∧
  (∀ (group : BitVec 12) (s : State), let i := group.toNat
    let due := s.fab.releases.filter fun r => decide (r.1 = i ∧ r.2.2 ≤ 256 * s.now)
    ((∀ r ∈ s.fab.releases, r.1 = i → 256 * s.now < r.2.2) → Sys2Proof.Machine.exec (.fabricBarrierResume group) s = .next s) ∧
    Sys2Proof.Machine.exec (.fabricBarrierResume group) s = .next (due.foldl (fun u r => resumePlate r.2.1 u)
      { s with fab := { s.fab with releases := s.fab.releases.filter fun r => decide (r ∉ due) } })) ∧
  (∀ (h : Nat) (s : State),
    (∀ t, t < 4096 → (resumePlate h s).thread t =
      if ((s.coreAt (t / 8)).live.map Live.plate) = some h then leaveBarrier (s.thread t) else s.thread t) ∧
    (∀ p, (resumePlate h s).plate h = some p → p.startPending = false))

/-- Functions, their teardown and the PCIe link (R419 to R441). Where the rules leave a choice it states the model's, log entry 62. -/
def Obligations.FunctionsTeardownAndLink : Prop :=
  let others := fun (g : Nat → Nat) (n : Nat) => ((List.range 256).filter (· != n)).foldl (fun x k => x + g k) 0
  let ok := fun (m : Mbx) => mfld m 18 2 ≠ 0 ∧ mfld m 18 2 ≤ 2048 ∧ mfld m 20 2 < mfld m 18 2 ∧ mfld m 22 2 < mfld m 18 2 ∧
    (mfld m 16 1 = 0 → mfld m 18 2 = 2048) ∧ mfld m 24 2 ≤ 8192
  let fits := fun (m : Mbx) (a : State) => (mfld m 16 1 ≠ 0 →
      mfld m 18 2 + others (fun k => if k = 0 then 0 else (a.fn k).vectors) (mfld m 16 1) ≤ 14336) ∧
    mfld m 24 2 + others (fun k => (a.fn k).atcShare) (mfld m 16 1) ≤ 8192
  Performs .fnConfig .pf [(16, 1), (18, 8)] (fun m a => ok m ∧ (mfld m 18 2 = (a.fn (mfld m 16 1)).vectors ∨ (a.fn (mfld m 16 1)).state = 0) ∧
      fits m a)
    (fun m a x t => x = Result.none ∧ t = a.setFn (mfld m 16 1) { a.fn (mfld m 16 1) with
      vectors := mfld m 18 2, mbxVector := mfld m 20 2, errVector := mfld m 22 2, atcShare := mfld m 24 2 } ∧
      (∀ k, k ≠ mfld m 16 1 → t.fn k = a.fn k)) ∧
  Declines .fnConfig .pf [(16, 1), (18, 8)] (fun m _ => ¬ ok m) stBadParam ∧
  Declines .fnConfig .pf [(16, 1), (18, 8)] (fun m a => ok m ∧ mfld m 18 2 ≠ (a.fn (mfld m 16 1)).vectors ∧
    (a.fn (mfld m 16 1)).state ≠ 0) stBusy ∧
  Declines .fnConfig .pf [(16, 1), (18, 8)] (fun m a => ok m ∧
    (mfld m 18 2 = (a.fn (mfld m 16 1)).vectors ∨ (a.fn (mfld m 16 1)).state = 0) ∧ ¬ fits m a) stCapacity ∧
  (∀ (m : Mbx) (s : State), let a := (admitCmd m .pf [(16, 1), (24, 8)] s).2
    let r := deviceData a (issuer m) (mfld m 24 8) 192
    let cores := fld r.2.1 0 64
    let ways := fld r.2.1 64 128
    let u := r.2.2
    let cl := claimedBy a (mfld m 16 1)
    let x := a.fn (mfld m 16 1)
    let lost := x.coreMask.toNat &&& cl.1 &&& cores ≠ x.coreMask.toNat &&& cl.1 ∨ x.wayMask.toNat &&& cl.2 &&& ways ≠ x.wayMask.toNat &&& cl.2
    (admitCmd m .pf [(16, 1), (24, 8)] s).1 = stOk →
    (r.1 ≠ stOk → Sys2Proof.Machine.exec (.fnShareSet m) s = .next (complete m r.1 Result.none u)) ∧
    (r.1 = stOk → (cores &&& a.plates.ranCores.toNat ≠ 0 ∨ ways &&& a.plates.ranWays.toNat ≠ 0) →
      Sys2Proof.Machine.exec (.fnShareSet m) s = .next (complete m stBadParam Result.none u)) ∧
    (r.1 = stOk → cores &&& a.plates.ranCores.toNat = 0 → ways &&& a.plates.ranWays.toNat = 0 →
      (lost → Sys2Proof.Machine.exec (.fnShareSet m) s = .next (complete m stBusy Result.none u)) ∧
      (¬ lost → Sys2Proof.Machine.exec (.fnShareSet m) s = .next (complete m stOk Result.none
        (u.setFn (mfld m 16 1) { a.fn (mfld m 16 1) with coreMask := BitVec.ofNat 512 cores, wayMask := BitVec.ofNat 1024 ways }))))) ∧
  Performs .fnQuery .own [(16, 1)] (fun m _ => issuer m = 0 ∨ issuer m = mfld m 16 1)
    (fun m a x t => t = a ∧ let f := a.fn (mfld m 16 1)
      x = { fields := [], block := some (itemsBlock ([hifFnReg f] ++
        (List.range 8).map (fun k => bitsAt f.coreMask.toNat (64 * k) 64) ++
        (List.range 16).map (fun k => bitsAt f.wayMask.toNat (64 * k) 64) ++
        [f.mbxVector + 65536 * f.errVector, fnErrReg a (mfld m 16 1)])) }) ∧
  Declines .fnQuery .own [(16, 1)] (fun m _ => issuer m ≠ 0 ∧ issuer m ≠ mfld m 16 1) stBadParam ∧
  StaysInFlight .fnReset .pf [(16, 1)] (fun m a => mfld m 16 1 ≠ 0 ∧ (a.fn (mfld m 16 1)).state ≠ 0)
    (fun m a t => let f := a.fn (mfld m 16 1)
      let u := hifCount 7 (a.setFn (mfld m 16 1) { f with tdWaiters := f.tdWaiters ++ [(m.input.toNat, m.slot.toNat)] })
      (f.state = 1 → t = beginTeardown (mfld m 16 1) u) ∧ (f.state ≠ 1 → t = u)) ∧
  Declines .fnReset .pf [(16, 1)] (fun m a => mfld m 16 1 = 0 ∨ (a.fn (mfld m 16 1)).state = 0) stBadParam ∧
  (∀ (fn : BitVec 8) (s : State), (s.fn fn.toNat).state ≠ 0 → s.dev.hbmReady = false →
    Sys2Proof.Machine.exec (.flr fn) s = .next (emit (.configRetry fn.toNat) s)) ∧
  (∀ (fn : BitVec 8) (s : State), let f := fn.toNat
    ((s.fn f).state = 0 → Sys2Proof.Machine.exec (.flr fn) s = .next (emit (.unsupported f) s))) ∧
  (∀ (fn : BitVec 8) (s : State), let f := fn.toNat
    s.dev.hbmReady = true →
    ((s.fn f).state = 2 → Sys2Proof.Machine.exec (.flr fn) s = .next (emit (.configRetry f) (hifCount 7 s))) ∧
    ((s.fn f).state = 1 → f ≠ 0 → Sys2Proof.Machine.exec (.flr fn) s = .next (beginTeardown f (hifCount 7 s))) ∧
    ((s.fn f).state = 1 → f = 0 → Sys2Proof.Machine.exec (.flr fn) s = .next (beginTeardown 0 (tearVFs (hifCount 7 s))))) ∧
  (∀ (s : State) (k : Nat), let t := tearVFs s
    (1 ≤ k → k < 256 → (s.fn k).state = 1 → (t.fn k).state = 2 ∧ (t.fn k).step = 1 ∧ (t.fn k).tdStart = s.now) ∧
    ((k = 0 ∨ 256 ≤ k ∨ (s.fn k).state ≠ 1) → t.fn k = s.fn k) ∧ t.host.vfEnable = false ∧ t.host.numVFs = 0) ∧
  (∀ (n : BitVec 8) (s : State),
    ((s.dev.hbmReady = false ∨ (s.fn 0).state = 2) → Sys2Proof.Machine.exec (.vfEnableSet n) s = .next (emit (.configRetry 0) s)) ∧
    (s.dev.hbmReady = true → (s.fn 0).state ≠ 2 → (s.dev.cfgDefaulted = true ∨ s.host.vfEnable = true ∨ n = 0) →
      Sys2Proof.Machine.exec (.vfEnableSet n) s = .next s) ∧
    (s.dev.hbmReady = true → (s.fn 0).state ≠ 2 → s.dev.cfgDefaulted = false → s.host.vfEnable = false → n ≠ 0 → ∃ t : State,
      Sys2Proof.Machine.exec (.vfEnableSet n) s = .next t ∧ t.host.vfEnable = true ∧ t.host.numVFs = n.toNat ∧
      (∀ k, 1 ≤ k → k ≤ n.toNat → (s.fn k).state = 0 → t.fn k = { s.fn k with state := 1 }) ∧
      (∀ k, (k = 0 ∨ n.toNat < k ∨ (s.fn k).state ≠ 0) → t.fn k = s.fn k))) ∧
  (∀ s : State,
    ((s.dev.hbmReady = false ∨ (s.fn 0).state = 2) → Sys2Proof.Machine.exec .vfEnableClear s = .next (emit (.configRetry 0) s)) ∧
    (s.dev.hbmReady = true → (s.fn 0).state ≠ 2 → s.host.vfEnable = true → Sys2Proof.Machine.exec .vfEnableClear s = .next (tearVFs s)) ∧
    (s.dev.hbmReady = true → (s.fn 0).state ≠ 2 → s.host.vfEnable = false → Sys2Proof.Machine.exec .vfEnableClear s = .next s)) ∧
  (∀ (fn : BitVec 9) (s : State), let n := fn.toNat
    let f := s.fn n
    (∀ r, s.dev.compute = some r →
      ((n ≠ 256 ∨ (r.step = 3 ∧ ∃ c, c < 256 ∧ quiesced s c = false)) → Sys2Proof.Machine.exec (.teardownStepEnd fn) s = .next s) ∧
      (n = 256 → (r.step = 3 → ∀ c, c < 256 → quiesced s c = true) →
        Sys2Proof.Machine.exec (.teardownStepEnd fn) s = .next (endComputeStep r s)) ∧
      (n = 256 → r.step = 3 → r.start + quiesceTicks ≤ s.now → Sys2Proof.Machine.exec (.quiesceAbandon fn) s =
        .next ((List.range 256).foldl (fun s c => abandonRequests c s) s)) ∧
      ((n ≠ 256 ∨ r.step ≠ 3 ∨ s.now < r.start + quiesceTicks) → Sys2Proof.Machine.exec (.quiesceAbandon fn) s = .next s)) ∧
    (s.dev.compute = none →
      ((256 ≤ n ∨ f.state ≠ 2 ∨ (f.step = 3 ∧ quiesced s n = false)) → Sys2Proof.Machine.exec (.teardownStepEnd fn) s = .next s) ∧
      (n < 256 → f.state = 2 → (f.step = 3 → quiesced s n = true) →
        (f.step = 7 → Sys2Proof.Machine.exec (.teardownStepEnd fn) s = .next (returnFunction n s)) ∧
        (f.step ≠ 7 → Sys2Proof.Machine.exec (.teardownStepEnd fn) s = .next (endStep n f s) ∧
          ((endStep n f s).fn n).step = f.step + 1)) ∧
      (n < 256 → f.state = 2 → f.step = 3 → f.tdStart + quiesceTicks ≤ s.now →
        Sys2Proof.Machine.exec (.quiesceAbandon fn) s = .next (abandonRequests n s)) ∧
      ((256 ≤ n ∨ f.state ≠ 2 ∨ f.step ≠ 3 ∨ s.now < f.tdStart + quiesceTicks) →
        Sys2Proof.Machine.exec (.quiesceAbandon fn) s = .next s))) ∧
  (∀ (speed : BitVec 3) (width : BitVec 5) (flit : Bool) (s : State), let slow := decide (speed.toNat < 6 ∨ width.toNat < 16)
    let t : State := { s with host := { s.host with
      linkUp := true, linkFlit := flit, linkDegraded := slow, linkSpeed := speed.toNat, linkWidth := width.toNat } }
    (slow = false → Sys2Proof.Machine.exec (.pcieLinkTrained speed width flit) s = .next t) ∧
    (slow = true → Sys2Proof.Machine.exec (.pcieLinkTrained speed width flit) s =
      .next (faultEvent 10 (leBytes 4 (hifLinkReg t.host)) t))) ∧
  (∀ s : State, ∃ t : State, t = faultEvent 11 [] (healthCount 7 1 (hifCount 9 { s with host := { s.host with
      linkUp := false, linkFlit := false, linkDegraded := false, linkSpeed := 0, linkWidth := 0 } })) ∧
    Sys2Proof.Machine.exec .pcieSurpriseDown s =
      .next (if ((tearVFs t).fn 0).state = 1 then beginTeardown 0 (tearVFs t) else tearVFs t))

/-- Determinism's commands (R467 to R481, R485). Where the rules leave a choice it states the model's, log entries 48, 49 and 50. -/
def Obligations.SeedsProofsRecordingAndReplay : Prop :=
  Performs .ctxSeedSet .own [(16, 2), (24, 8)] (fun m a => mfld m 16 2 ≤ 256 ∧ (issuer m = 0 ∨ mfld m 16 2 = issuer m) ∧
      seedBusy a (mfld m 16 2) = false)
    (fun m a x t => x = Result.none ∧ Tab.get 0 t.det.seeds (mfld m 16 2) = BitVec.ofNat 64 (mfld m 24 8) ∧
      (∀ c, c ≠ mfld m 16 2 → Tab.get 0 t.det.seeds c = Tab.get 0 a.det.seeds c) ∧ t = { a with det := { a.det with seeds := t.det.seeds } }) ∧
  Declines .ctxSeedSet .own [(16, 2), (24, 8)] (fun m _ => 256 < mfld m 16 2 ∨ (issuer m ≠ 0 ∧ mfld m 16 2 ≠ issuer m)) stBadParam ∧
  Declines .ctxSeedSet .own [(16, 2), (24, 8)] (fun m a => mfld m 16 2 ≤ 256 ∧ (issuer m = 0 ∨ mfld m 16 2 = issuer m) ∧
    seedBusy a (mfld m 16 2) = true) stBusy ∧
  Performs .seedRegen .own [(18, 38)] (fun m a => mfld m 20 4 ≠ 0 ∧ mfld m 20 4 ≤ 1048576 ∧ mfld m 40 8 < 2 ^ 50 ∧
      ctxOwns a (issuer m) (mfld m 48 8) (4 * mfld m 20 4) = true)
    (fun m a x t => x = Result.none ∧ t = memWrite (mfld m 48 8) ((List.range (mfld m 20 4)).flatMap fun j =>
      leBytes 4 (randomWord (mfld m 24 8) (mfld m 32 8) (mfld m 18 2) (mfld m 40 8 + j))) a) ∧
  Declines .seedRegen .own [(18, 38)] (fun m a => mfld m 20 4 = 0 ∨ 1048576 < mfld m 20 4 ∨ 2 ^ 50 ≤ mfld m 40 8 ∨
    ctxOwns a (issuer m) (mfld m 48 8) (4 * mfld m 20 4) = false) stBadParam ∧
  (∀ (die : BitVec 2) (s : State), let p := 0x50 + die.toNat
    ((headJob p s = none ∨ freeEngine s die.toNat = none) → Sys2Proof.Machine.exec (.proofJob die) s = .next s) ∧
    (∀ j e, headJob p s = some j → freeEngine s die.toNat = some e → let b := leBytes 64 j.block.toNat
      (∀ l, j.live = some l → proofJobOk s j b = true →
        Sys2Proof.Machine.exec (.proofJob die) s = .next (startProof e j l b (popJob p s))) ∧
      ((j.live = none ∨ proofJobOk s j b = false) →
        Sys2Proof.Machine.exec (.proofJob die) s = .next (retireFor j.who (fld b 2 2) (fld b 4 1 % 64) stBadParam (popJob p s))))) ∧
  (∀ (die : BitVec 2) (engine : BitVec 4) (s : State), let e := 16 * die.toNat + engine.toNat
    (Tab.get none s.det.proofs e = none → Sys2Proof.Machine.exec (.proofDone die engine) s = .next s) ∧
    (∀ p, Tab.get none s.det.proofs e = some p →
      let t : State := { s with det := { s.det with proofs := Tab.set none s.det.proofs e none } }
      (ctxOwns s p.who p.dst (proofLen p.full) = false →
        Sys2Proof.Machine.exec (.proofDone die engine) s = .next (retireFor p.who p.core p.cnt stBadParam t)) ∧
      (ctxOwns s p.who p.dst (proofLen p.full) = true → let u := memWrite p.dst (sha256 p.record ++ if p.full then p.record else []) t
        let i := 8 * die.toNat
        Sys2Proof.Machine.exec (.proofDone die engine) s = .next (retireFor p.who p.core p.cnt (if p.poison then stPoison else stOk)
          { u with det := { u.det with proofCnt := if p.poison then bump (bump u.det.proofCnt i) (i + 1) else bump u.det.proofCnt i } })))) ∧
  Performs .recConfig .pf [(16, 6), (24, 16)] (fun m a => a.det.recUnit.recording = false ∧ a.det.replay = none ∧
      (mfld m 16 2 ≤ 255 ∨ mfld m 16 2 = 0xFFFF) ∧ mfld m 18 1 ≤ 1 ∧ mfld m 19 1 ≤ 1 ∧
      (mfld m 18 1 = 0 → ringSizeOk (mfld m 32 8) = true ∧
        (ringHeld a 0 (mfld m 24 8) (mfld m 32 8) = true ∨ ringHeld a 256 (mfld m 24 8) (mfld m 32 8) = true)) ∧
      (mfld m 18 1 = 1 → fabAddrOk (mfld m 24 8) = true ∧ mfld m 24 8 % 16 = 0 ∧
        winAllows (Tab.get FabWin.reset a.fab.wins (mfld m 20 2)) 257 (readFabAddr (mfld m 24 8)) 1 2 = true))
    (fun m a x t => x = Result.none ∧ t = { a with det := { a.det with recUnit := { a.det.recUnit with
      configured := true, ctx := if mfld m 16 2 = 0xFFFF then none else some (mfld m 16 2), fabric := mfld m 18 1 == 1,
      entry := mfld m 20 2, base := mfld m 24 8, size := mfld m 32 8, overwrite := mfld m 19 1 == 1 } } }) ∧
  Declines .recConfig .pf [(16, 6), (24, 16)] (fun _ a => a.det.recUnit.recording = true ∨ a.det.replay.isSome = true) stBusy ∧
  Performs .recStart .pf [] (fun _ a => a.det.recUnit.configured = true ∧ a.det.recUnit.recording = false ∧ a.det.replay = none)
    (fun _ a x t => x = { fields := [(8, 8, a.now)], block := none } ∧ t = putMarker 0 { a with det := { a.det with
      recUnit := { a.det.recUnit with
        recording := true, r0 := a.now, seq := 0, written := 0, lost := 0, lossPending := 0, lossAt := 0, wp := 0, rp := 0, staged := [],
        exported := 0, nextReq := 0, stopAt := none } } }) ∧
  Declines .recStart .pf [] (fun _ a => a.det.recUnit.configured = false) stNotReady ∧
  Declines .recStart .pf [] (fun _ a => a.det.recUnit.configured = true ∧ (a.det.recUnit.recording = true ∨ a.det.replay.isSome = true)) stBusy ∧
  Performs .recStop .pf [] (fun _ a => a.det.recUnit.recording = true)
    (fun _ a x t => x = { fields := [(8, 8, t.det.recUnit.written), (16, 8, t.det.recUnit.lost)], block := none } ∧ t = stopCapture a ∧
      t.det.recUnit.recording = false ∧ t.det.recUnit.stopAt = none) ∧
  Declines .recStop .pf [] (fun _ a => a.det.recUnit.recording = false) stNotReady ∧
  (∀ s : State, let r := s.det.recUnit
    ((r.stopAt = none ∨ ∃ t, r.stopAt = some t ∧ s.now < t) → Sys2Proof.Machine.exec .recPostStop s = .next s) ∧
    (∀ t, r.stopAt = some t → t ≤ s.now →
      (r.recording = true → Sys2Proof.Machine.exec .recPostStop s = .next (stopCapture s)) ∧
      (r.recording = false → Sys2Proof.Machine.exec .recPostStop s =
        .next { s with det := { s.det with recUnit := { r with stopAt := none } } }))) ∧
  (let start := { start := false, r0 := 0, streams := false, loss := none : RingScan }
   let open_ := fun (m : Mbx) (a : State) => a.det.recUnit.recording = false ∧ a.det.replay = none ∧ mfld m 18 1 ≤ 1 ∧
     mayReplay (issuer m) (mfld m 16 2) (mfld m 18 1 == 1) = true ∧ ringSizeOk (mfld m 32 8) = true ∧
     (ringHeld a (issuer m) (mfld m 24 8) (mfld m 32 8) = true ∨ (issuer m = 0 ∧ ringHeld a 256 (mfld m 24 8) (mfld m 32 8) = true))
   let scan := fun (m : Mbx) (a : State) => scanRing a (mfld m 24 8) (mfld m 32 8) (mfld m 32 8 / 32) 0 start
   Performs .replayStart .own [(16, 3), (24, 24)] (fun m a => open_ m a ∧ (scan m a).loss = none ∧ (scan m a).start = true ∧
       mfld m 40 8 % epochTicks = 0 ∧ ((scan m a).streams = true → mfld m 40 8 % (256 * epochTicks) = 0) ∧
       a.now + epochTicks ≤ (scan m a).r0 + mfld m 40 8)
     (fun m a x t => x = { fields := [(8, 8, (scan m a).r0 + mfld m 40 8)], block := none } ∧
       t = { a with det := { a.det with replay := some {
         ctx := if mfld m 16 2 = 0xFFFF then none else some (mfld m 16 2), streams := mfld m 18 1 == 1, fn := issuer m,
         base := mfld m 24 8, size := mfld m 32 8, shift := mfld m 40 8, pos := 0, nextReq := 0, injected := 0 } } }) ∧
   Declines .replayStart .own [(16, 3), (24, 24)] (fun m a => open_ m a ∧ (scan m a).loss = none ∧ ((scan m a).start = false ∨
     mfld m 40 8 % epochTicks ≠ 0 ∨ (scan m a).r0 + mfld m 40 8 < a.now + epochTicks)) stBadParam ∧
   Declines .replayStart .own [(16, 3), (24, 24)] (fun _ a => a.det.recUnit.recording = true ∨ a.det.replay.isSome = true) stBusy ∧
   (∀ (m : Mbx) (s a : State) (off : Nat), admitCmd m .own [(16, 3), (24, 24)] s = (stOk, a) → open_ m a → (scan m a).loss = some off →
     Sys2Proof.Machine.exec (.replayStart m) s = .next (complete m stBadParam { fields := [(8, 8, off)], block := none } a))) ∧
  (∀ (geoms : List FlashGeom) (s : State),
    (s.det.replay = none → Sys2Proof.Machine.exec (.replayInject geoms) s = .next s) ∧
    (∀ r, s.det.replay = some r → let hb := ringBytes s r.base r.size r.pos 48
      let h := readRecHeader hb
      let valid := h.type ≠ 0 ∧ h.type ≤ 8 ∧ r.pos < r.size
      (¬ valid → Sys2Proof.Machine.exec (.replayInject geoms) s = .next (endReplay s)) ∧
      (valid → s.now < h.stamp + r.shift → Sys2Proof.Machine.exec (.replayInject geoms) s = .next s) ∧
      (valid → h.stamp + r.shift ≤ s.now → isStop h.type (fld hb 46 1) = true →
        Sys2Proof.Machine.exec (.replayInject geoms) s = .next (endReplay (diverge (unanswered s) s))) ∧
      (valid → h.stamp + r.shift ≤ s.now → isStop h.type (fld hb 46 1) = false →
        let t : State := { s with det := { s.det with replay := some { r with pos := r.pos + 32 + alignUp h.len 32 } } }
        Sys2Proof.Machine.exec (.replayInject geoms) s = .next (injectRecord geoms r h (ringBytes s r.base r.size (r.pos + 32) h.len)
          (payloadPoison s r r.pos h.len) (if h.stamp + r.shift < s.now ∧ h.type ≤ 5 then
            { t with det := { t.det with recUnit := { t.det.recUnit with cnt := bump t.det.recUnit.cnt 4 } } } else t))))) ∧
  Performs .replayStop .own [] (fun m a => ∃ r, a.det.replay = some r ∧ (issuer m = 0 ∨ issuer m = r.fn))
    (fun _ a x t => t = endReplay a ∧ t.det.replay = none ∧ ∀ r, a.det.replay = some r →
      x = { fields := [(8, 8, r.injected), (16, 8, (Tab.get 0 a.det.recUnit.cnt 5).toNat)], block := none }) ∧
  Declines .replayStop .own [] (fun _ a => a.det.replay = none) stNotReady ∧
  Declines .replayStop .own [] (fun m a => ∃ r, a.det.replay = some r ∧ issuer m ≠ 0 ∧ issuer m ≠ r.fn) stBadParam

/-- The drypoint (R482 to R486). Where the rules leave a choice it states the model's, log entry 47. -/
def Obligations.DrypointFiresAndHolds : Prop :=
  Performs .dryArm .pf [(24, 1), (26, 14)] (fun m _ => mfld m 24 8 &&& 0xFC00FF02 = 0 ∧ (bitAt (mfld m 24 8) 2 = true → mfld m 32 8 % 16 = 0))
    (fun m a x t => x = Result.none ∧ t = setDry (BitVec.ofNat 64 (mfld m 24 8)) (BitVec.ofNat 64 (mfld m 32 8)) a ∧
      t.det.dry.ctrl = BitVec.ofNat 64 (mfld m 24 8) ∧ t.det.dry.matchAt = BitVec.ofNat 64 (mfld m 32 8) ∧
      t.det.dry.held = a.det.dry.held ∧ t.det.dry.snap = a.det.dry.snap ∧
      (bitAt (mfld m 24 8) 0 = true → bitAt (mfld m 24 8) 2 = true → a.now + 128 ≤ mfld m 32 8 →
        (mfld m 32 8, 1) ∈ t.det.dry.due ∧ t.det.dry.missed = a.det.dry.missed) ∧
      (bitAt (mfld m 24 8) 0 = true → bitAt (mfld m 24 8) 2 = true → mfld m 32 8 < a.now + 128 →
        t.det.dry.missed = a.det.dry.miss.missed) ∧
      ((bitAt (mfld m 24 8) 0 = false ∨ bitAt (mfld m 24 8) 2 = false) → t.det.dry.missed = a.det.dry.missed) ∧
      t = { a with det := { a.det with dry := t.det.dry } }) ∧
  Declines .dryArm .pf [(24, 1), (26, 14)] (fun m _ => bitAt (mfld m 24 8) 2 = true ∧ mfld m 32 8 % 16 ≠ 0) stBadParam ∧
  (∀ (m : Mbx) (s : State), mfld m 0 2 = 0x0A08 → mfld m 24 8 &&& 0xFC00FF02 ≠ 0 → Sys2Proof.Machine.exec (.dryArm m) s =
    .next (complete m stBadParam Result.none (admitCmd m .pf [(24, 1), (26, 14)] s).2)) ∧
  Performs .dryFire .pf [] (fun _ a => a.det.dry.ctrl.getLsbD 0 = true ∧ a.det.dry.ctrl.getLsbD 5 = true ∧
      (a.det.dry.held = false ∨ a.det.dry.overwrite = true))
    (fun _ a x t => ∃ i, x = { fields := [(8, 8, i)], block := none } ∧ i % 16 = 0 ∧ a.now + 128 ≤ i ∧ i < a.now + 144 ∧
      t = { a with det := { a.det with dry := { a.det.dry with due := a.det.dry.due ++ [(i, 8)] } } }) ∧
  Declines .dryFire .pf [] (fun _ a => a.det.dry.ctrl.getLsbD 0 = false ∨ a.det.dry.ctrl.getLsbD 5 = false ∨
    (a.det.dry.held = true ∧ a.det.dry.overwrite = false)) stNotReady ∧
  (∀ (src at_ : Nat) (s : State), let d := s.det.dry
    let armed := d.ctrl.getLsbD 0 = true ∧ d.ctrl.getLsbD (dryEnable src) = true
    (¬ armed → dryTriggerAt src at_ s = s) ∧
    (armed → d.held = true → d.overwrite = false → dryTriggerAt src at_ s = { s with det := { s.det with dry := d.miss } }) ∧
    (armed → (d.held = false ∨ d.overwrite = true) → dryTriggerAt src at_ s =
      { s with det := { s.det with dry := { d with due := d.due ++ [(alignUp (at_ + 128) 16, 2 ^ src)] } } })) ∧
  (∀ s : State, let d := s.det.dry
    ((d.due = [] ∨ ∀ e ∈ d.due, s.now < e.1) → Sys2Proof.Machine.exec .drypointSnapshot s = .next s) ∧
    (∀ t, t ∈ d.due.map Prod.fst → (∀ e ∈ d.due, t ≤ e.1) → t ≤ s.now → ∃ u : State,
      Sys2Proof.Machine.exec .drypointSnapshot s = .next u ∧
      (∀ e, e ∈ u.det.dry.due ↔ e ∈ d.due ∧ e.1 ≠ t) ∧ u.det.dry.ctrl = d.ctrl ∧
      (d.held = true → d.overwrite = false → u.det.dry.missed = d.miss.missed ∧ u.det.dry.snap = d.snap ∧
        u.det.dry.source = d.source ∧ u.mem = s.mem ∧ u.det.recUnit = s.det.recUnit) ∧
      ((d.held = false ∨ d.overwrite = true) → u.det.dry.held = true ∧ u.det.dry.snapRidge = BitVec.ofNat 64 t ∧
        u.det.dry.source = BitVec.ofNat 14 (((d.due.filter fun e => e.1 == t).map Prod.snd).foldl (· ||| ·) 0) ∧
        u.det.dry.snap = some (takeSnap s) ∧
        (s.det.recUnit.recording = false → u.mem = s.mem ∧ u.det.recUnit = s.det.recUnit)) ∧
      u.core = s.core ∧ u.plates = s.plates ∧ u.time = s.time ∧ u.host = s.host ∧ u.fab = s.fab)) ∧
  (∀ s : State, let d := s.det.dry
    (d.held = false → Sys2Proof.Machine.exec .dryHeldRelease s = .next s) ∧
    (d.held = true → ∃ u : State, Sys2Proof.Machine.exec .dryHeldRelease s = .next u ∧ u.det.dry.held = false ∧
      u.det.dry.snap = d.snap ∧ u.det.dry.source = d.source ∧ u.det.dry.snapRidge = d.snapRidge ∧
      ((d.ctrl.getLsbD 0 = false ∨ d.ctrl.getLsbD 2 = false) → u.det.dry.missed = 0) ∧
      u = setDry d.ctrl d.matchAt { s with det := { s.det with dry := { d with held := false, missed := 0 } } }))

/-- The lease (R488 to R498). Where the rules leave a choice it states the model's, log entries 22, 63, 64 and 65. -/
def Obligations.LeaseGrantsExpiresAndFences : Prop :=
  (let ok := fun (m : Mbx) => mfld m 16 1 < 2 ∧ 100 ≤ mfld m 18 2 ∧ mfld m 18 2 ≤ 20000 ∧ bitAt (mfld m 30 2) 12 = false ∧
     bitAt (mfld m 38 2) 12 = false
   Performs .leaseConfig .mgmt [(16, 1), (18, 2), (24, 16)] (fun m _ => ok m)
     (fun m a x t => x = Result.none ∧ ∃ u : State, u.flt.required = (mfld m 16 1 == 1) ∧ u.flt.renewMs = BitVec.ofNat 16 (mfld m 18 2) ∧
       (∀ p, p < 2 → Tab.get 0 u.flt.fmMac p = BitVec.ofNat 48 (mfld m (24 + 8 * p) 6) ∧
         Tab.get 0 u.flt.fmVlan p = BitVec.ofNat 16 (mfld m (30 + 8 * p) 2)) ∧
       u = { a with flt := { a.flt with required := u.flt.required, renewMs := u.flt.renewMs, fmMac := u.flt.fmMac, fmVlan := u.flt.fmVlan } } ∧
       (u.radioFenced = true → a.radioFenced = false → t = fenceCells (fenceFronthaul u)) ∧
       ((u.radioFenced = false ∨ a.radioFenced = true) → t = u)) ∧
   Declines .leaseConfig .mgmt [(16, 1), (18, 2), (24, 16)] (fun m _ => ¬ ok m) stBadParam) ∧
  Performs .leaseKeySet .mgmt [(24, 8)] (fun m _ => 32 ≤ (mdata m).length)
    (fun m a x t => x = Result.none ∧ t = { a with flt := { a.flt with key := (mdata m).take 32, keySet := true } }) ∧
  Performs .leaseRelease .pfMgmt [] (fun _ a => a.flt.leased = true)
    (fun _ a x t => t = fence 3 (fltCount 5 a) ∧ x = { fields := [(8, 8, t.flt.lastFence.toNat)], block := none }) ∧
  Declines .leaseRelease .pfMgmt [] (fun _ a => a.flt.leased = false) stNotReady ∧
  (∀ s : State, let f := s.flt
    let due := ∀ t, f.lastRequest = some t → t + f.renewMs.toNat * msTicks ≤ s.now
    (¬ due → Sys2Proof.Machine.exec .leaseRenew s = .next s) ∧
    (due → f.fatal ≠ 0 → Sys2Proof.Machine.exec .leaseRenew s = .next { s with flt := { f with lastRequest := some s.now } }) ∧
    (due → f.fatal = 0 → ∃ u : State, Sys2Proof.Machine.exec .leaseRenew s = .next u ∧ u.flt.nonce = f.nonce + 1 ∧
      u.flt.requests = ((f.nonce.toNat, s.now) :: f.requests).take 4 ∧ u.flt.lastRequest = some s.now ∧
      u.flt.leased = f.leased ∧ u.flt.epoch = f.epoch ∧ u.flt.expiry = f.expiry ∧ u.out.length = s.out.length + 2)) ∧
  (∀ (p : List (BitVec 8)) (s : State),
    (leaseFrameOk s p = false → Sys2Proof.Machine.exec (.rxGrant p) s = .next (fltCount 2 s) ∧
      Sys2Proof.Machine.exec (.rxRevoke p) s = .next (fltCount 2 s)) ∧
    (leaseFrameOk s p = true ↔ p.length = 80 ∧ fld p 1 1 = 1 ∧ fld p 2 2 = s.fab.hall ∧ fld p 4 8 = Config.serial.toNat ∧
      s.flt.keySet = true ∧ p.drop 64 = frameTag s.flt.key (p.take 64)) ∧
    (leaseFrameOk s p = true → fld p 0 1 = 2 → let f := s.flt
      let fits := (f.fenced = true → bitAt (fld p 14 2) 1 = true ∧ fld p 12 2 ≠ 0 ∧ fld p 12 2 ≠ f.retired.toNat ∧ f.fatal = 0) ∧
        (f.fenced = false → bitAt (fld p 14 2) 1 = false ∧ fld p 12 2 = f.epoch.toNat) ∧ 100 ≤ fld p 28 4 ∧ fld p 28 4 ≤ 60000
      (∀ r, f.requests.find? (fun r => r.1 == fld p 16 4) = some r → fits →
        Sys2Proof.Machine.exec (.rxGrant p) s = .next (takeGrant p r.2 s)) ∧
      ((¬ fits ∨ ∀ r ∈ f.requests, r.1 ≠ fld p 16 4) → Sys2Proof.Machine.exec (.rxGrant p) s = .next (fltCount 2 s))) ∧
    (leaseFrameOk s p = true → fld p 0 1 ≠ 2 → Sys2Proof.Machine.exec (.rxGrant p) s = .next s) ∧
    (leaseFrameOk s p = true → fld p 0 1 = 3 →
      ((fld p 12 2 ≠ s.flt.epoch.toNat ∨ s.flt.epoch = 0) → Sys2Proof.Machine.exec (.rxRevoke p) s = .next s) ∧
      (fld p 12 2 = s.flt.epoch.toNat → s.flt.epoch ≠ 0 → ∃ u : State,
        (s.flt.fenced = true → u = s) ∧ (s.flt.fenced = false → u = fence 2 (fltCount 4 s)) ∧
        Sys2Proof.Machine.exec (.rxRevoke p) s =
          .next (sendLease (leaseHeader u 5 0 0 u.now 0 ++ [(40, 8, u.flt.lastFence.toNat)]) u))) ∧
    (leaseFrameOk s p = true → fld p 0 1 ≠ 3 → Sys2Proof.Machine.exec (.rxRevoke p) s = .next s)) ∧
  (∀ (p : List Byte) (sentAt : Nat) (s : State), let t := takeGrant p sentAt s
    t.flt.leased = true ∧ t.flt.fenced = false ∧ t.flt.probation = bitAt (fld p 14 2) 0 ∧
    t.flt.expiry = BitVec.ofNat 64 (max s.flt.expiry.toNat (sentAt + fld p 28 4 * msTicks)) ∧
    (s.flt.fenced = true → t.flt.epoch = BitVec.ofNat 16 (fld p 12 2)) ∧ (s.flt.fenced = false → t.flt.epoch = s.flt.epoch)) ∧
  (∀ s : State, let due := s.flt.leased = true ∧ s.flt.required = true ∧ s.flt.expiry.toNat ≤ s.now ∧ s.now % 16 = 0
    (due → Sys2Proof.Machine.exec .leaseExpiry s = .next (fence 1 (fltCount 3 s))) ∧
    (¬ due → Sys2Proof.Machine.exec .leaseExpiry s = .next s)) ∧
  (∀ (cause : BitVec 3) (s : State),
    (1 ≤ cause.toNat → cause.toNat ≤ 4 → Sys2Proof.Machine.exec (.fatalCause cause) s = .next (fatalCause cause.toNat s) ∧
      (fatalCause cause.toNat s).flt.fatal = BitVec.ofNat 4 cause.toNat ∧ (fatalCause cause.toNat s).flt.fenced = true) ∧
    ((cause = 0 ∨ 4 < cause.toNat) → Sys2Proof.Machine.exec (.fatalCause cause) s = .next s)) ∧
  (∀ (cause : Nat) (s : State), s.flt.fenced = false → let t := fence cause s
    t.flt.fenced = true ∧ t.flt.leased = false ∧ t.flt.cause = BitVec.ofNat 4 cause ∧ t.flt.retired = s.flt.epoch ∧
    t.flt.epoch = s.flt.epoch ∧ t.flt.lastFence = BitVec.ofNat 64 s.now)

/-- Peers, health and takeover (R487, R496 to R506). Where the rules leave a choice it states the model's, log entries 65 and 66. -/
def Obligations.PeersHealthEchoesAndTakeover : Prop :=
  Performs .faultPeerSet .mgmt [(16, 7)] (fun m _ => mfld m 18 2 ≠ 0 ∧ mfld m 16 2 + mfld m 18 2 ≤ 16384 ∧ mfld m 22 1 < 2)
    (fun m a x t => x = Result.none ∧
      let new : Peer := { epoch := BitVec.ofNat 16 (mfld m 20 2), lost := mfld m 22 1 == 1 }
      let mine := fun h => mfld m 16 2 ≤ h ∧ h < mfld m 16 2 + mfld m 18 2
      (∀ h, mine h → t.peer h = new) ∧ (∀ h, ¬ mine h → t.peer h = a.peer h) ∧
      ((∀ h, mine h → (a.peer h).epoch = new.epoch ∧ (new.lost = true → (a.peer h).lost = true)) →
        t = { a with fab := { a.fab with peers := t.fab.peers } }) ∧
      ∃ u : State, (∀ h, mine h → u.peer h = new) ∧ (∀ h, ¬ mine h → u.peer h = a.peer h) ∧
        u = { a with fab := { a.fab with peers := u.fab.peers } } ∧
        t = (((List.range (mfld m 18 2)).map (mfld m 16 2 + ·)).filter fun h => decide ((a.peer h).epoch ≠ new.epoch ∨
          (new.lost = true ∧ (a.peer h).lost = false))).foldl (fun u h => peerChanged h u) u) ∧
  Declines .faultPeerSet .mgmt [(16, 7)] (fun m _ => mfld m 18 2 = 0 ∨ 16384 < mfld m 16 2 + mfld m 18 2 ∨ 2 ≤ mfld m 22 1) stBadParam ∧
  Performs .healthConfig .mgmt [(16, 1), (20, 10)] (fun m _ => mfld m 16 1 < 8 ∧ mfld m 28 2 ≠ 0)
    (fun m a x t => let c := mfld m 16 1
      x = Result.none ∧ Tab.get (healthDefault c) t.flt.health c = { Tab.get (healthDefault c) a.flt.health c with
        raise := mfld m 20 4, lower := mfld m 24 4, clear := mfld m 28 2 } ∧
      (∀ k, k ≠ c → Tab.get (healthDefault k) t.flt.health k = Tab.get (healthDefault k) a.flt.health k) ∧
      t = { a with flt := { a.flt with health := t.flt.health } }) ∧
  Declines .healthConfig .mgmt [(16, 1), (20, 10)] (fun m _ => 8 ≤ mfld m 16 1 ∨ mfld m 28 2 = 0) stBadParam ∧
  (let named := fun (m : Mbx) => mfld m 16 2 < 384 ∧ mfld m 18 2 < 16384 ∧ mfld m 20 1 < 2
   let armed := fun (m : Mbx) (a : State) (l : List Armed) =>
     ({ a with flt := { a.flt with armed := a.flt.armed.filter (fun x => x.cell != mfld m 16 2) ++ l } } : State)
   Performs .takeoverArm .pfMgmt [(16, 5)] (fun m a => named m ∧ (a.cell (mfld m 16 2)).change = none ∧ (mfld m 20 1 = 1 ∨
       ((a.cell (mfld m 16 2)).state = 3 ∧ a.time.servo.stepDone = true ∧ a.flt.leased = true ∧
         (a.cell (mfld m 16 2)).primary = mfld m 18 2)))
     (fun m a x t => x = Result.none ∧ (mfld m 20 1 = 1 → t = armed m a []) ∧
       (mfld m 20 1 = 0 → let u := armed m a [{ cell := mfld m 16 2, primary := mfld m 18 2 }]
         (echoPassed a (mfld m 18 2) = false → t = u) ∧ (echoPassed a (mfld m 18 2) = true → t = fireTakeover (mfld m 16 2) 2 u))) ∧
   Declines .takeoverArm .pfMgmt [(16, 5)] (fun m a => named m ∧ (a.cell (mfld m 16 2)).change.isSome = true) stBusy ∧
   Declines .takeoverArm .pfMgmt [(16, 5)] (fun m a => named m ∧ (a.cell (mfld m 16 2)).change = none ∧ mfld m 20 1 = 0 ∧
     ((a.cell (mfld m 16 2)).state ≠ 3 ∨ a.time.servo.stepDone = false ∨ a.flt.leased = false)) stNotReady ∧
   Declines .takeoverArm .pfMgmt [(16, 5)] (fun m _ => ¬ named m) stBadParam) ∧
  (let older := fun (a : State) => ∃ e ∈ a.fab.ports, e.2.up = true ∧ ∃ p, e.2.peer = some p ∧ p.2 = wireRev - 1
   Performs .wireCompat .mgmt [(16, 1)] (fun m a => mfld m 16 1 = 1 ∨ (mfld m 16 1 = 0 ∧ ¬ older a))
     (fun m a x t => x = Result.none ∧ t = { a with flt := { a.flt with
       wireOldest := BitVec.ofNat 8 (if mfld m 16 1 = 1 then wireRev - 1 else wireRev) } }) ∧
   Declines .wireCompat .mgmt [(16, 1)] (fun m a => mfld m 16 1 = 0 ∧ older a) stBusy) ∧
  Performs .faultQuery .any [] (fun _ _ => True)
    (fun _ a x t => t = a ∧ x = { fields := [], block := some (itemsBlock ([leaseStatusReg a.flt, a.flt.epoch.toNat, a.flt.expiry.toNat] ++
      (List.range 8).map (healthReg a.flt) ++ (List.range 14).map fun i => (Tab.get 0 a.flt.cnt i).toNat)) }) ∧
  (∀ (code : BitVec 8) (s : State), let e := Tab.get EventCode.reset s.flt.events code.toNat
    ((e.held = 0 ∨ e.sent = some s.epochNow) → Sys2Proof.Machine.exec (.faultEventFlush code) s = .next s) ∧
    (e.held ≠ 0 → e.sent ≠ some s.epochNow → let t := sendEvent code.toNat e.held e.firstRidge e.data s
      Sys2Proof.Machine.exec (.faultEventFlush code) s = .next t ∧
      (Tab.get EventCode.reset t.flt.events code.toNat).held = 0 ∧
      (Tab.get EventCode.reset t.flt.events code.toNat).sent = some s.epochNow)) ∧
  (∀ s : State, let ended := ∃ c, c < 8 ∧ (Tab.get (healthDefault c) s.flt.health c).lastEnd = s.now
    ((s.now % secTicks ≠ 0 ∨ ended) → Sys2Proof.Machine.exec .healthWindowEnd s = .next s) ∧
    (s.now % secTicks = 0 → ¬ ended →
      Sys2Proof.Machine.exec .healthWindowEnd s = .next ((List.range 8).foldl (fun s c => endWindow c s) s))) ∧
  (∀ (c : Nat) (s : State), let h := Tab.get (healthDefault c) s.flt.health c
    let g := Tab.get (healthDefault c) (endWindow c s).flt.health c
    g.lastEnd = s.now ∧ g.lastCount = BitVec.ofNat 24 (min h.count 0xFFFFFF) ∧ (g.raise, g.lower, g.clear) = (h.raise, h.lower, h.clear) ∧
    (h.raise ≤ h.count → h.lower ≤ h.count → h.level ≠ 3 → g.level = h.level + 1 ∧ g.run = 0) ∧
    (h.count < h.raise → h.count < h.lower → h.run + 1 < h.clear → g.level = h.level ∧ g.run = h.run + 1) ∧
    (h.count < h.raise → h.count < h.lower → h.clear ≤ h.run + 1 → g.run = 0 ∧ g.level = (if h.level = 0 then 0 else h.level - 1)) ∧
    (h.count < h.raise → h.lower ≤ h.count → 0 < h.clear → g.level = h.level ∧ g.run = 0)) ∧
  (∀ (port : BitVec 5) (ws : List (BitVec 144)) (s u : State), let h := readHdr ws
    let v := (readWord (ws.getD 2 0)).1.toNat
    headersGood ws 2 = true → h.rsp = false → h.dst = s.fab.hall → (packetWords ws).1 = ws.length → epochOk s h = true →
    u = fabCount 1 (takeArrived port.toNat ws s) →
    (h.opc = 0x30 → Sys2Proof.Machine.exec (.fenceNotice port ws) s =
      .next (fireFor h.src 1 (faultEvent 16 (leBytes 2 h.src ++ leBytes 2 h.epoch) (fltCount 11 u)))) ∧
    (h.opc = 0x31 → Sys2Proof.Machine.exec (.leaseEcho port ws) s = .next (sendControl 0x32 h.src s.flt.epoch.toNat (bitsAt v 64 64)
      { u with flt := { u.flt with
        echoes := Tab.set none u.flt.echoes h.src (some (max ((Tab.get none u.flt.echoes h.src).getD 0) (bitsAt v 64 64))) } })) ∧
    (h.opc = 0x32 → Sys2Proof.Machine.exec (.echoAck port ws) s = .next { u with flt := { u.flt with
      acks := Tab.set none u.flt.acks h.src (some (max ((Tab.get none u.flt.acks h.src).getD 0) (bitsAt v 64 64))) } })) ∧
  (∀ (hall : BitVec 14) (s : State),
    ((Tab.get none s.flt.acks hall.toNat = none ∨ (∃ x, Tab.get none s.flt.acks hall.toNat = some x ∧
        (s.now < x ∨ s.now % 16 ≠ 0 ∨ s.flt.fenced = true))) → Sys2Proof.Machine.exec (.echoLapse hall) s = .next s) ∧
    (∀ x, Tab.get none s.flt.acks hall.toNat = some x → x ≤ s.now → s.now % 16 = 0 → s.flt.fenced = false →
      Sys2Proof.Machine.exec (.echoLapse hall) s = .next (((s.rad.cells.filter fun e => e.2.role == 1 &&
        shadowOf s e.2 == hall.toNat && (e.2.state == 2 || e.2.state == 3) && !e.2.muted).map Prod.fst).foldl
          (fun s cn => lapseCell cn x s) s))) ∧
  (∀ (cell : BitVec 9) (s : State),
    ((∀ a ∈ s.flt.armed, a.cell ≠ cell.toNat) → Sys2Proof.Machine.exec (.takeoverTimer cell) s = .next s) ∧
    (∀ a, s.flt.armed.find? (fun a => a.cell == cell.toNat) = some a →
      (echoPassed s a.primary = true → Sys2Proof.Machine.exec (.takeoverTimer cell) s = .next (fireTakeover a.cell 2 s)) ∧
      (echoPassed s a.primary = false → Sys2Proof.Machine.exec (.takeoverTimer cell) s = .next s))) ∧
  (∀ (cn letter : Nat) (s : State), (s.cell cn).state = 3 → (s.cell cn).change = none → let t := fireTakeover cn letter s
    (t.cell cn).change = some (2, alignUp (s.now + 64) (s.cell cn).slotTicks) ∧ (∀ k, k ≠ cn → t.cell k = s.cell k) ∧
    (∀ a ∈ t.flt.armed, a.cell ≠ cn))

/-- Power, the thermal unit and management (R533 to R548). Where the rules leave a choice it states the model's, log entries 11, 27, 28 and 67. -/
def Obligations.PowerThermalAndManagement : Prop :=
  (let rec64 := fun (m : Mbx) => sliceBytes (mdata m) 0 64
   let cool := fun (m : Mbx) =>
     let r := rec64 m
     fld r 0 2 ≤ fld r 2 2 ∧ fld r 2 2 ≤ 1024 ∧ fld r 4 2 ≤ 1024 ∧ fld r 6 2 ≤ 1024 ∧ 100 ≤ fld r 8 4 ∧ fld r 8 4 ≤ 2500 ∧
       1000 ≤ fld r 12 4 ∧ fld r 12 4 ≤ 1000000 ∧ fld r 16 2 ≤ 1600 ∧ 1000 ≤ fld r 18 2 ∧ fld r 18 2 ≤ 10000 ∧
       onlyFields r [(0, 20)] = true
   let gov := fun (m : Mbx) =>
     let r := rec64 m
     fld r 0 1 ≤ 1 ∧ fld r 1 1 ≤ 3 ∧ fld r 2 1 ≤ 3 ∧ 960 ≤ fld r 4 2 ∧ fld r 4 2 ≤ 1600 ∧ fld r 6 2 ≤ 160 ∧
       1 ≤ fld r 8 2 ∧ fld r 8 2 ≤ 1000 ∧ 100 ≤ fld r 10 2 ∧ fld r 10 2 ≤ 60000 ∧ 1000 ≤ fld r 12 4 ∧ fld r 12 4 ≤ 100000 ∧
       fld r 16 4 ≤ 2500 ∧ fld r 20 4 ≤ 2500 ∧ fld r 24 4 ≤ 2500 ∧ 100 ≤ fld r 28 4 ∧ fld r 28 4 ≤ 2500 ∧
       onlyFields r [(0, 3), (4, 28)] = true
   let trip := fun (m : Mbx) =>
     let r := rec64 m
     fld r 0 2 ≤ 1680 ∧ fld r 2 2 + 16 ≤ fld r 0 2 ∧ fld r 4 2 ≤ 1600 ∧ fld r 6 2 + 16 ≤ fld r 4 2 ∧ 100 ≤ fld r 8 4 ∧
       fld r 8 4 ≤ 1000000 ∧ onlyFields r [(0, 12)] = true
   (Performs .coolantConfig .pfMgmt [(24, 8)] (fun m _ => cool m)
     (fun m a x t => x = Result.none ∧
       let r := rec64 m
       t = updPwr (fun p => { p with coolant := ⟨fld r 0 2, fld r 2 2, fld r 4 2, fld r 6 2, fld r 8 4, fld r 12 4, fld r 16 2, fld r 18 2⟩ }) a) ∧
    Declines .coolantConfig .pfMgmt [(24, 8)] (fun m _ => ¬ cool m) stBadParam) ∧
   (Performs .govConfig .pfMgmt [(24, 8)] (fun m _ => gov m)
     (fun m a x t => x = Result.none ∧
       let r := rec64 m
       (∃ g, t.dev.pwr.govNew = some (g, a.now) ∧ g.fixed = (fld r 0 1 % 2 == 1) ∧ (g.fixedTier, g.tierFast) = (fld r 1 1, fld r 2 1) ∧
         (g.tPlan, g.hyst, g.h, g.tau) = (fld r 4 2, fld r 6 2, fld r 8 2, fld r 10 2) ∧
         (g.rJ, g.pLeak, g.pClk, g.kDyn, g.pCap) = (fld r 12 4, fld r 16 4, fld r 20 4, fld r 24 4, fld r 28 4)) ∧
       (a.dev.pwr.govNew = none → t.dev.pwr.gov = a.dev.pwr.gov) ∧
       (∀ g k, a.dev.pwr.govNew = some (g, k) → t.dev.pwr.gov = if k < a.now then g else a.dev.pwr.gov) ∧
       t = updPwr (fun p => { p with gov := t.dev.pwr.gov, govNew := t.dev.pwr.govNew }) a) ∧
    Declines .govConfig .pfMgmt [(24, 8)] (fun m _ => ¬ gov m) stBadParam) ∧
   (Performs .tripConfig .pfMgmt [(24, 8)] (fun m _ => trip m)
     (fun m a x t => x = Result.none ∧
       let r := rec64 m
       t = updPwr (fun p => { p with trip := ⟨fld r 0 2, fld r 2 2, fld r 4 2, fld r 6 2, fld r 8 4⟩ }) a) ∧
    Declines .tripConfig .pfMgmt [(24, 8)] (fun m _ => ¬ trip m) stBadParam)) ∧
  Performs .powerQuery .any [] (fun _ _ => True)
    (fun _ a x t => t = a ∧ x = { fields := [], block := some (itemsBlock ([pwrVid, thermStatus a.dev.pwr, coolantStatus a.dev.pwr,
      govStatus a.dev.pwr] ++ (List.range 12).map (railReg a.dev.pwr) ++ (List.range 7).map fun i => (Tab.get 0 a.dev.pwr.cnt i).toNat)) }) ∧
  (∀ (rIn rOut : BitVec 32) (s : State),
    (s.now % msTicks ≠ 0 → Sys2Proof.Machine.exec (.coolantSample rIn rOut) s = .next s) ∧
    (s.now % msTicks = 0 →
      let a := sampleTherm s.dev.pwr.coolant rIn.toNat s.dev.pwr.thermIn
      let b := sampleTherm s.dev.pwr.coolant rOut.toNat s.dev.pwr.thermOut
      ∃ t : State, Sys2Proof.Machine.exec (.coolantSample rIn rOut) s = .next t ∧ t.dev.pwr.thermIn = a.1 ∧ t.dev.pwr.thermOut = b.1 ∧
        (a.2 = false → b.2 = false → t.dev.pwr.cnt = bumpBy s.dev.pwr.cnt 3 0) ∧
        (a.2 = true → b.2 = true → t.dev.pwr.cnt = bumpBy s.dev.pwr.cnt 3 2) ∧
        (a.2 ≠ b.2 → t.dev.pwr.cnt = bumpBy s.dev.pwr.cnt 3 1) ∧
        t = updPwr (fun p => { p with thermIn := t.dev.pwr.thermIn, thermOut := t.dev.pwr.thermOut, cnt := t.dev.pwr.cnt }) s)) ∧
  (∀ (rail : BitVec 4) (ack : Bool) (mv : BitVec 16) (ma : BitVec 32) (s : State),
    let due := rail.toNat < 12 ∧ s.now % 983040 = 0 ∧ s.dev.platform.pmbus.getD rail.toNat 0 ≠ 0
    let r := Tab.get Rail.reset s.dev.pwr.rails rail.toNat
    (¬ due → Sys2Proof.Machine.exec (.regulatorPoll rail ack mv ma) s = .next s) ∧
    (due → ∃ t : State, Sys2Proof.Machine.exec (.regulatorPoll rail ack mv ma) s = .next t ∧
      let v := Tab.get Rail.reset t.dev.pwr.rails rail.toNat
      v.count = r.count + 1 ∧ v.sumVolt = r.sumVolt + v.lastVolt ∧ v.sumPower = r.sumPower + v.lastPower ∧
      (∀ k, k ≠ rail.toNat → Tab.get Rail.reset t.dev.pwr.rails k = Tab.get Rail.reset s.dev.pwr.rails k) ∧
      (ack = true → v.lastVolt = mv.toNat ∧ v.lastPower = mv.toNat * ma.toNat ∧ t.dev.pwr.cnt = bumpBy s.dev.pwr.cnt 2 0) ∧
      (ack = false → v.lastVolt = r.lastVolt ∧ v.lastPower = r.lastPower ∧ t.dev.pwr.cnt = bumpBy s.dev.pwr.cnt 2 1) ∧
      t = updPwr (fun p => { p with rails := t.dev.pwr.rails, cnt := t.dev.pwr.cnt }) s)) ∧
  (∀ (jts hts : List (BitVec 16)) (s : State),
    let js := (List.range 96).map fun i => (jts.getD i 0).toInt
    let hs := (List.range 32).map fun i => (hts.getD i 0).toInt
    let critical := (∃ x ∈ js, 1760 ≤ x) ∨ (∃ x ∈ hs, 1680 ≤ x)
    let hotEnough := (∃ x ∈ js, (s.dev.pwr.trip.tTrip : Int) ≤ x) ∨ (∃ x ∈ hs, (s.dev.pwr.trip.hTrip : Int) ≤ x)
    let a := updPwr (recordSample s.now js hs) s
    let b := fatalCause 4 (updPwr (fun p => { p with crit := some s.now }) a)
    ((s.now % 2048 ≠ 0 ∨ s.dev.released = none) → Sys2Proof.Machine.exec (.thermalSample jts hts) s = .next s) ∧
    (s.now % 2048 = 0 → s.dev.released ≠ none →
      ((¬ critical ∨ s.dev.pwr.crit ≠ none) → (¬ hotEnough ∨ s.dev.pwr.tripOn = true) →
        Sys2Proof.Machine.exec (.thermalSample jts hts) s = .next a) ∧
      ((¬ critical ∨ s.dev.pwr.crit ≠ none) → hotEnough → s.dev.pwr.tripOn = false →
        Sys2Proof.Machine.exec (.thermalSample jts hts) s = .next (enterTrip a)) ∧
      (critical → s.dev.pwr.crit = none → (¬ hotEnough ∨ s.dev.pwr.tripOn = true) →
        Sys2Proof.Machine.exec (.thermalSample jts hts) s = .next b) ∧
      (critical → s.dev.pwr.crit = none → hotEnough → s.dev.pwr.tripOn = false →
        Sys2Proof.Machine.exec (.thermalSample jts hts) s = .next (enterTrip b)))) ∧
  (∀ s : State, let u := updPwr (fun p => { p with
        tripOn := true, tripSince := s.now, belowSince := none,
        pump := BitVec.ofNat 11 p.coolant.dMax, valve := BitVec.ofNat 11 p.coolant.valveTrip, cnt := bumpBy p.cnt 0 1 }) s
    enterTrip s = faultEvent 14 [] (healthCount 5 1 (dryEvent 2 (parkContexts u)))) ∧
  (∀ s : State,
    (s.dev.pwr.belowSince = none → Sys2Proof.Machine.exec .tripClear s = .next s) ∧
    (∀ k, s.dev.pwr.belowSince = some k →
      ((s.dev.pwr.tripOn = false ∨ s.now < k + usTicks s.dev.pwr.trip.hold) → Sys2Proof.Machine.exec .tripClear s = .next s) ∧
      (s.dev.pwr.tripOn = true → k + usTicks s.dev.pwr.trip.hold ≤ s.now → Sys2Proof.Machine.exec .tripClear s =
        .next (resumeParked (updPwr (fun p => { p with
          tripOn := false, belowSince := none, cnt := bumpBy p.cnt 1 ((s.now - s.dev.pwr.tripSince) * 100 / 196608) }) s))))) ∧
  (∀ s : State,
    (s.dev.pwr.crit = none → Sys2Proof.Machine.exec .thermtripAssert s = .next s) ∧
    (∀ k, s.dev.pwr.crit = some k →
      (s.now < k + 16 + msTicks → Sys2Proof.Machine.exec .thermtripAssert s = .next s) ∧
      (k + 16 + msTicks ≤ s.now →
        Sys2Proof.Machine.exec .thermtripAssert s = .next (updPwr (fun p => { p with thermtrip := true }) s)))) ∧
  (∀ (command : BitVec 8) (s : State), let c := command.toNat
    (c = 0x20 → Sys2Proof.Machine.exec (.pmbusTargetRead command) s = .next (emit (.smbus [0x14]) s)) ∧
    (0xD0 ≤ c → c ≤ 0xD3 → ∃ n : Nat, Sys2Proof.Machine.exec (.pmbusTargetRead command) s = .next (emit (.smbus (leBytes 2 n)) s) ∧
      let mv := 500 + 5 * vidCode (c - 0xD0)
      1000 * n ≤ 4096 * mv + 500 ∧ 4096 * mv ≤ 1000 * n + 500) ∧
    (c ≠ 0x20 → (c < 0xD0 ∨ 0xD3 < c) → Sys2Proof.Machine.exec (.pmbusTargetRead command) s = .next s)) ∧
  (∀ (msg : List (BitVec 8)) (s : State),
    ((mctpAnswer s msg).1 = none → Sys2Proof.Machine.exec (.mctpMessage msg) s = .next (mctpAnswer s msg).2) ∧
    (∀ b, (mctpAnswer s msg).1 = some b → Sys2Proof.Machine.exec (.mctpMessage msg) s = .next (emit (.smbus b) (mctpAnswer s msg).2)) ∧
    (fld msg 0 1 = 0 → fld msg 2 1 = 1 → let e := BitVec.ofNat 8 (fld msg 4 1)
      mctpAnswer s msg = (some [0, BitVec.ofNat 8 (fld msg 1 1 % 128), 1, 0, 0, e, 0], updPwr (fun p => { p with eid := e }) s)) ∧
    (mctpAnswer s msg).2.out = s.out ∧ (1 < fld msg 0 1 → mctpAnswer s msg = (none, s)))

/-- Bring-up, the resets, firmware and image, JTAG (R550 to R567, Table 23.11). Where the rules leave a choice it states the model's, log entries 68, 69 and 70. -/
def Obligations.BringUpResetsAndJtag : Prop :=
  Performs .devQuery .any [] (fun _ _ => True)
    (fun _ a x t => t = a ∧ x = ⟨[(8, 8, Config.serial.toNat), (16, 2, a.flt.firmware.toNat), (18, 1, wireRev), (19, 1, arithRev),
      (20, 1, 0xB1), (21, 1, devStatus a.dev % 256)], none⟩) ∧
  (∀ (m : Mbx) (s a : State), admitCmd m .pfMgmt [] s = (stOk, a) → ∃ r : Result,
    (r.fields = [(8, 4, a.dev.image.len), (12, 4, a.dev.image.word), (16, 4, a.dev.image.computed)] ∧ r.block = none) ∧
    (a.dev.cfgDefaulted = true → Sys2Proof.Machine.exec (.devCfgQuery m) s = .next (complete m stDefaulted r a)) ∧
    (a.dev.cfgDefaulted = false → Sys2Proof.Machine.exec (.devCfgQuery m) s = .next (complete m stOk r a))) ∧
  (∀ (m : Mbx) (s a : State), admitCmd m .pfMgmt [(16, 1)] s = (stOk, a) → let act := mfld m 16 1
    let ended := complete m stOk Result.none a
    (1 < act → Sys2Proof.Machine.exec (.devReset m) s = .next (complete m stBadParam Result.none a)) ∧
    (act ≤ 1 → updateBusy m a = true → Sys2Proof.Machine.exec (.devReset m) s = .next (complete m stBusy Result.none a)) ∧
    (act = 1 → updateBusy m a = false → a.dev.fwStaged = false →
      Sys2Proof.Machine.exec (.devReset m) s = .next (complete m stNotReady Result.none a)) ∧
    (act = 0 → updateBusy m a = false → ∃ t, Sys2Proof.Machine.exec (.devReset m) s = .next t ∧
      ((ended.dev.perst = true → t = deviceReset 1 ended) ∧
       (ended.dev.perst = false → t = updDev (fun d => { d with released := some ended.now }) (deviceReset 1 ended)))) ∧
    (act = 1 → updateBusy m a = false → a.dev.fwStaged = true → ∃ t, Sys2Proof.Machine.exec (.devReset m) s = .next t ∧
      let b := bootRom (writeDir ended.dev.dir.staged 0xFF ended)
      (ended.dev.perst = true → t = deviceReset 1 b) ∧
      (ended.dev.perst = false → t = updDev (fun d => { d with released := some ended.now }) (deviceReset 1 b)))) ∧
  (∀ (kind : Nat) (s : State), let t := deviceReset kind s
    t.mem.mem = { bytes := [], diff := [] } ∧ t.rad = Radio.reset ∧ t.plates = Plates.reset ∧
    (let v := endMgmtWaiters (resetFence kind s)
     t.fab = { Fabric.reset with ports := t.fab.ports } ∧ (∀ p, t.port p = { AbrPort.reset with lanes := (t.port p).lanes } ∧
       ∀ l, (t.port p).lane l = { Lane.reset with gain := ((v.port p).lane l).gain }) ∧
     (v.det.recUnit.fabric = true → t.det.recUnit = v.det.recUnit)) ∧
    t.core = Cores.reset ∧ t.mbx.rings = [] ∧ t.clk.ridge = s.clk.ridge ∧ t.clk.tier = 3 ∧
    t.dev.hostReady = false ∧ t.dev.hbmReady = false ∧ t.dev.cfgDone = false ∧ t.dev.released = none ∧
    t.dev.lastReset = (if kind = 1 then 3 else 2) ∧
    (s.flt.fenced = true → let u := resetFence kind s
      u.flt.fenced = true ∧ u.flt.cause = 5 ∧ u.flt.retired = s.flt.epoch)) ∧
  StaysInFlight .computeReset .pfMgmt [] (fun _ a => a.dev.compute = none)
    (fun m a t => t.dev.compute = some { step := 1, start := a.now, waiter := (m.input.toNat, m.slot.toNat) } ∧
      ((∀ x, a.det.replay = some x → x.ctx = none) →
        t = resetCount 2 (updDev (fun d => { d with compute := t.dev.compute }) a)) ∧
      (∀ x, a.det.replay = some x → x.ctx ≠ none →
        t = resetCount 2 (updDev (fun d => { d with compute := t.dev.compute }) (endReplay a)))) ∧
  Declines .computeReset .pfMgmt [] (fun _ a => a.dev.compute ≠ none) stBusy ∧
  (let img := fun (m : Mbx) => sliceBytes (mdata m) 0 (mfld m 24 4)
   let good := fun (m : Mbx) => 64 ≤ mfld m 24 4 ∧ mfld m 24 4 ≤ 4194304 ∧ fwHeaderOk (img m) = true ∧
     fld (img m) 8 4 = ((img m).drop 64).length
   let genuine := fun (m : Mbx) => sha256 ((img m).drop 64) = sliceBytes (img m) 32 32 ∧
     sha256 ((img m).drop 64) = (mbytes m).drop 32
   Performs .fwStage .pfMgmt [(16, 12), (32, 32)] (fun m a => updateBusy m a = false ∧ good m ∧ genuine m)
     (fun m a x t => x = Result.none ∧ t.dev.fwStaged = true ∧ t.dev.dir.active = a.dev.dir.active ∧
       t.dev.dir.staged = 1 - a.dev.dir.active ∧ t.dev.dir.copy = 1 - a.dev.dir.copy ∧
       t.dev.dir.generation = (a.dev.dir.generation + 1) % 2 ^ 32 ∧
       (let k := slotBase (1 - a.dev.dir.active)
        t.dev.nor = ((((a.dev.nor.erase k 0x400000).program k (img m)).erase (4096 * t.dev.dir.copy) 4096).program
         (4096 * t.dev.dir.copy) t.dev.dir.bytes)) ∧
       t = updDev (fun v => { v with nor := t.dev.nor, dir := t.dev.dir, fwStaged := true }) a) ∧
   Declines .fwStage .pfMgmt [(16, 12), (32, 32)] (fun m a => updateBusy m a = true) stBusy ∧
   Declines .fwStage .pfMgmt [(16, 12), (32, 32)] (fun m a => updateBusy m a = false ∧ ¬ good m) stBadParam ∧
   Declines .fwStage .pfMgmt [(16, 12), (32, 32)] (fun m a => updateBusy m a = false ∧ good m ∧ ¬ genuine m) stPlateDigest ∧
   (let sound := fun (m : Mbx) => (checkConfig fun k => sliceBytes (img m) 0 k).reason = 0 ∧
      (checkConfig fun k => sliceBytes (img m) 0 k).len ≤ mfld m 24 4
    Performs .cfgWrite .pfMgmt [(16, 12)] (fun m a => updateBusy m a = false ∧ sound m)
      (fun m a x t => x = Result.none ∧ t = updDev (fun v => { v with
        nor := (v.nor.erase 0x900000 0x100000).program 0x900000
          ((img m).take (checkConfig fun k => sliceBytes (img m) 0 k).len) }) a) ∧
    Declines .cfgWrite .pfMgmt [(16, 12)] (fun m a => updateBusy m a = true) stBusy ∧
    Declines .cfgWrite .pfMgmt [(16, 12)] (fun m a => updateBusy m a = false ∧ ¬ sound m) stBadParam)) ∧
  (∀ s : State, ∃ t, Sys2Proof.Machine.exec .powerOnResetEnter s = .next t ∧ t.dev = { Device.reset with nor := s.dev.nor } ∧
    t.clk = State.reset.clk ∧ t.mem = { MemTiers.reset with flash := s.mem.flash.afterReset } ∧ t.flt = State.reset.flt ∧
    t.rad = State.reset.rad ∧ t.fab = State.reset.fab ∧ t.pending = s.pending ∧
    t = { State.reset with pending := s.pending, free := s.free, out := s.out, mem := t.mem, dev := t.dev }) ∧
  (∀ (answers : Bool) (fitted : Fitted) (s : State),
    (s.dev.por = false → Sys2Proof.Machine.exec (.powerOnResetEnd answers fitted) s = .next s) ∧
    (s.dev.por = true → let blank : Nor := { answers := answers, bytes := [] }
      let nor := if fitted.nor = [] then { s.dev.nor with answers := answers }
        else fitted.nor.foldl (fun n q => n.program q.offset.toNat q.bytes) blank
      let u := updDev (fun d => { d with por := false, lastReset := 1, nor := nor })
        { s with clk := Clock.reset, mem := { s.mem with flash := { s.mem.flash with present := fitted.flash } } }
      Sys2Proof.Machine.exec (.powerOnResetEnd answers fitted) s = .next (emit (.steer (BitVec.ofInt 64 s.time.servo.w)) (bootRom u)))) ∧
  (∀ s : State,
    ((s.dev.por = true ∨ s.dev.cfgDone = true) → Sys2Proof.Machine.exec .configLoad s = .next s) ∧
    (s.dev.por = false → s.dev.cfgDone = false →
      let c := if s.dev.nor.answers = true then checkConfig (s.dev.nor.read 0x900000) else .early 7 0 0
      ∃ t : State, Sys2Proof.Machine.exec .configLoad s = .next t ∧ t.dev.cfgDone = true ∧ t.dev.image.len = c.len ∧
        t.dev.image.word = c.word ∧ t.dev.image.computed = c.computed ∧ t.dev.image.generation = c.generation ∧
        (c.reason ≠ 0 → t.dev.cfgDefaulted = true ∧ t.dev.cfgReason = c.reason ∧ t.dev.image.commands = [] ∧
          t.dev.platform = defaultPlatform ∧ t.flt = { s.flt with required := true, keySet := false, key := [], renewMs := 1000 }) ∧
        (c.reason = 0 → t.dev.cfgDefaulted = false ∧ t.dev.cfgReason = 0 ∧ t.flt = s.flt ∧
          t.dev.image.commands = (if s.dev.fwRecovery = true then [] else c.commands) ∧
          (∀ b, c.platform = some b → t.dev.platform = readPlatform b) ∧
          (c.platform = none → t.dev.platform = defaultPlatform)))) ∧
  (∀ s : State, ∃ t, Sys2Proof.Machine.exec .railLoss s = .next t ∧ t.dev.railLost = true ∧
    (let u := fenceFronthaul s
     ∀ k, t.cell k = (if (u.cell k).state = 0 then u.cell k else { u.cell k with state := 1, held := [], change := none }))) ∧
  (∀ s : State,
    ((s.dev.por = true ∨ s.dev.perst = true) → Sys2Proof.Machine.exec .perstNAssert s = .next s) ∧
    (s.dev.por = false → s.dev.perst = false → Sys2Proof.Machine.exec .perstNAssert s =
      .next (updDev (fun d => { d with perst := true }) (deviceReset 2 s)))) ∧
  (∀ (testen : Bool) (s : State),
    ((s.dev.por = true ∨ s.dev.perst = false) → Sys2Proof.Machine.exec (.perstNRelease testen) s = .next s) ∧
    (s.dev.por = false → s.dev.perst = true →
      (testen = true → Sys2Proof.Machine.exec (.perstNRelease testen) s = .next (updDev (fun d => { d with testen := true }) s)) ∧
      (testen = false → Sys2Proof.Machine.exec (.perstNRelease testen) s =
        .next (updDev (fun d => { d with testen := false, perst := false, released := some s.now }) s)))) ∧
  (∀ (geoms : List FlashGeom) (s : State),
    let due := s.dev.por = false ∧ s.dev.released ≠ none ∧ s.dev.cfgDone = true ∧ s.dev.hostReady = false
    let u := updDev (fun d => { d with hbmReady := true, afterReset := none }) s
    (¬ due → Sys2Proof.Machine.exec (.hbmReady geoms) s = .next s) ∧
    (due → ∃ v, Sys2Proof.Machine.exec (.hbmReady geoms) s = .next (applyRecords geoms (v.dev.image.commands.length + 2) v) ∧
      (s.dev.afterReset = none → v = u) ∧
      (∀ w, s.dev.afterReset = some w → v = completeSlot w.1 w.2 stOk Result.none u)) ∧
    (due → s.dev.afterReset = none → s.dev.image.commands = [] → s.dev.image.applying = none →
      ∃ t : State, Sys2Proof.Machine.exec (.hbmReady geoms) s = .next t ∧ t.dev.hbmReady = true ∧ t.dev.hostReady = true)) ∧
  (let loaded := fun (code : Nat) (s : State) => ({ s with dev := { s.dev with jtag := { s.dev.jtag with instr := code } } } : State)
   (∀ (pins cells : List Bool) (code : BitVec 8) (s : State), let c := s.dev.jtag.preload
    Sys2Proof.Machine.exec .jtagIdcode s = .next (emit (.testData idCode 32) (loaded 1 s)) ∧
    Sys2Proof.Machine.exec .tapReset s = .next (loaded 1 s) ∧
    Sys2Proof.Machine.exec (.jtagBypass code) s = .next (emit (.testData 0 1) (loaded code.toNat s)) ∧
    (∃ t : State, Sys2Proof.Machine.exec (.jtagSamplePreload pins cells) s = .next t ∧ t.dev.jtag.preload = cells ∧
      t.dev.jtag.instr = 2 ∧ t.out = .testData (cellsValue pins) pins.length :: s.out) ∧
    (s.dev.perst = true →
      Sys2Proof.Machine.exec .jtagExtest s = .next (emit (.testData (cellsValue c) c.length) (emit (.testPins (some c)) (loaded 0 s))) ∧
      Sys2Proof.Machine.exec .jtagClamp s = .next (emit (.testData 0 1) (emit (.testPins (some c)) (loaded 4 s))) ∧
      Sys2Proof.Machine.exec .jtagHighz s = .next (emit (.testData 0 1) (emit (.testPins none) (loaded 5 s)))) ∧
    (s.dev.perst = false →
      Sys2Proof.Machine.exec .jtagExtest s = .next (emit (.testData 0 1) (loaded 0 s)) ∧
      Sys2Proof.Machine.exec .jtagClamp s = .next (emit (.testData 0 1) (loaded 4 s)) ∧
      Sys2Proof.Machine.exec .jtagHighz s = .next (emit (.testData 0 1) (loaded 5 s)))))
end

