-- ==== Sys2Proof/Laws/Commands.lean ====
section
/-!
SUPPORT. What the shapes of the mailbox commands (`runCmd`, `runCmdW`) answer, said once.
-/
namespace Sys2Proof.Machine
open Sys2Proof

theorem runCmd_ok {m : Mbx} {b : By} {f : List (Nat × Nat)} {eff : State → Nat × Result × State} {s t : State} {st : Nat}
    {r : Result} (h : (admitCmd m b f s).1 = stOk) (he : eff (admitCmd m b f s).2 = (st, r, t)) :
    runCmd m b f eff s = .next (complete m st r t) := by
  unfold runCmd
  simp only [h, ne_eq, not_true_eq_false, if_false, he]

theorem runCmd_rejected {m : Mbx} {b : By} {f : List (Nat × Nat)} {eff : State → Nat × Result × State} {s : State}
    (h : (admitCmd m b f s).1 ≠ stOk) :
    runCmd m b f eff s = .next (complete m (admitCmd m b f s).1 Result.none (admitCmd m b f s).2) := by
  unfold runCmd
  simp only [h, ne_eq, not_false_eq_true, if_true]

theorem runCmdW_ok {m : Mbx} {b : By} {f : List (Nat × Nat)} {eff : State → Option (Nat × Result) × State} {s t : State}
    {r : Nat × Result} (h : (admitCmd m b f s).1 = stOk) (he : eff (admitCmd m b f s).2 = (some r, t)) :
    runCmdW m b f eff s = .next (complete m r.1 r.2 t) := by
  unfold runCmdW
  simp only [h, ne_eq, not_true_eq_false, if_false, he]

theorem runCmdW_waits {m : Mbx} {b : By} {f : List (Nat × Nat)} {eff : State → Option (Nat × Result) × State} {s t : State}
    (h : (admitCmd m b f s).1 = stOk) (he : eff (admitCmd m b f s).2 = (none, t)) : runCmdW m b f eff s = .next t := by
  unfold runCmdW
  simp only [h, ne_eq, not_true_eq_false, if_false, he]

theorem runCmdW_rejected {m : Mbx} {b : By} {f : List (Nat × Nat)} {eff : State → Option (Nat × Result) × State} {s : State}
    (h : (admitCmd m b f s).1 ≠ stOk) :
    runCmdW m b f eff s = .next (complete m (admitCmd m b f s).1 Result.none (admitCmd m b f s).2) := by
  unfold runCmdW
  simp only [h, ne_eq, not_false_eq_true, if_true]

/-! ### From a meaning's shape to what it does -/

theorem performs_of {c : Mbx → Instr} {b : By} {f : List (Nat × Nat)} {valid : Mbx → State → Prop}
    {effect : Mbx → State → Result → State → Prop} {eff : Mbx → State → Nat × Result × State}
    (hc : ∀ m s, exec (c m) s = runCmd m b f (eff m) s)
    (h : ∀ m a, valid m a → ∃ r t, eff m a = (stOk, r, t) ∧ effect m a r t) : Performs c b f valid effect := by
  intro m s ha hv
  obtain ⟨r, t, he, hx⟩ := h m _ hv
  exact ⟨r, t, by rw [hc]; exact runCmd_ok ha he, hx⟩

theorem performs_of_w {c : Mbx → Instr} {b : By} {f : List (Nat × Nat)} {valid : Mbx → State → Prop}
    {effect : Mbx → State → Result → State → Prop} {eff : Mbx → State → Option (Nat × Result) × State}
    (hc : ∀ m s, exec (c m) s = runCmdW m b f (eff m) s)
    (h : ∀ m a, valid m a → ∃ r t, eff m a = (some (stOk, r), t) ∧ effect m a r t) : Performs c b f valid effect := by
  intro m s ha hv
  obtain ⟨r, t, he, hx⟩ := h m _ hv
  exact ⟨r, t, by rw [hc]; exact runCmdW_ok (r := (stOk, r)) ha he, hx⟩

theorem staysInFlight_of {c : Mbx → Instr} {b : By} {f : List (Nat × Nat)} {valid : Mbx → State → Prop}
    {effect : Mbx → State → State → Prop} {eff : Mbx → State → Option (Nat × Result) × State}
    (hc : ∀ m s, exec (c m) s = runCmdW m b f (eff m) s)
    (h : ∀ m a, valid m a → ∃ t, eff m a = (none, t) ∧ effect m a t) : StaysInFlight c b f valid effect := by
  intro m s ha hv
  obtain ⟨t, he, hx⟩ := h m _ hv
  exact ⟨t, by rw [hc]; exact runCmdW_waits ha he, hx⟩

theorem declines_of {c : Mbx → Instr} {b : By} {f : List (Nat × Nat)} {w : Mbx → State → Prop} {st : Nat}
    {eff : Mbx → State → Nat × Result × State} (hc : ∀ m s, exec (c m) s = runCmd m b f (eff m) s)
    (h : ∀ m a, w m a → eff m a = (st, Result.none, a)) : Declines c b f w st := by
  intro m s ha hw
  rw [hc]; exact runCmd_ok ha (h m _ hw)

theorem declines_of_w {c : Mbx → Instr} {b : By} {f : List (Nat × Nat)} {w : Mbx → State → Prop} {st : Nat}
    {eff : Mbx → State → Option (Nat × Result) × State} (hc : ∀ m s, exec (c m) s = runCmdW m b f (eff m) s)
    (h : ∀ m a, w m a → eff m a = (some (st, Result.none), a)) : Declines c b f w st := by
  intro m s ha hw
  rw [hc]; exact runCmdW_ok (r := (st, Result.none)) ha (h m _ hw)

theorem rejects_of {c : Mbx → Instr} {b : By} {f : List (Nat × Nat)} {eff : Mbx → State → Nat × Result × State}
    (hc : ∀ m s, exec (c m) s = runCmd m b f (eff m) s) : Rejects c b f := by
  intro m s h
  rw [hc]; exact runCmd_rejected h

theorem rejects_of_w {c : Mbx → Instr} {b : By} {f : List (Nat × Nat)} {eff : Mbx → State → Option (Nat × Result) × State}
    (hc : ∀ m s, exec (c m) s = runCmdW m b f (eff m) s) : Rejects c b f := by
  intro m s h
  rw [hc]; exact runCmdW_rejected h

end Sys2Proof.Machine
end

