-- ==== Sys2Proof/Laws/Exec.lean ====
section
/-!
SUPPORT. What `exec` answers for each constructor, by name: rewriting with these never unfolds the whole match.
-/
namespace Sys2Proof.Machine
open Sys2Proof

@[simp] theorem exec_registerWrite (w : RegWrite) (s : State) : exec (.registerWrite w) s = execRegisterWrite w s := rfl
@[simp] theorem exec_badWidthAccess (fn : BitVec 8) (read : Bool) (s : State) : exec (.badWidthAccess fn read) s = execBadWidthAccess fn read s := rfl
@[simp] theorem exec_unmappedBarAccess (fn : BitVec 8) (read : Bool) (bits : BitVec 8) (s : State) : exec (.unmappedBarAccess fn read bits) s = execUnmappedBarAccess fn read bits s := rfl
@[simp] theorem exec_epochBoundary (s : State) : exec (.epochBoundary) s = execEpochBoundary s := rfl
@[simp] theorem exec_governorPlan (s : State) : exec (.governorPlan) s = execGovernorPlan s := rfl
@[simp] theorem exec_windowStart (handle : BitVec 16) (window : BitVec 12) (s : State) : exec (.windowStart handle window) s = execWindowStart handle window s := rfl
@[simp] theorem exec_windowEnd (handle : BitVec 16) (window : BitVec 12) (s : State) : exec (.windowEnd handle window) s = execWindowEnd handle window s := rfl
@[simp] theorem exec_partitionClearDone (kind : BitVec 2) (index : BitVec 11) (s : State) : exec (.partitionClearDone kind index) s = execPartitionClearDone kind index s := rfl
@[simp] theorem exec_plateLoad (m : Mbx) (s : State) : exec (.plateLoad m) s = execPlateLoad m s := rfl
@[simp] theorem exec_plateAdmit (m : Mbx) (s : State) : exec (.plateAdmit m) s = execPlateAdmit m s := rfl
@[simp] theorem exec_plateStart (m : Mbx) (s : State) : exec (.plateStart m) s = execPlateStart m s := rfl
@[simp] theorem exec_plateSwap (m : Mbx) (s : State) : exec (.plateSwap m) s = execPlateSwap m s := rfl
@[simp] theorem exec_plateRetire (m : Mbx) (s : State) : exec (.plateRetire m) s = execPlateRetire m s := rfl
@[simp] theorem exec_plateQuery (m : Mbx) (s : State) : exec (.plateQuery m) s = execPlateQuery m s := rfl
@[simp] theorem exec_plateCommandEnd (handle : BitVec 16) (window : BitVec 12) (s : State) : exec (.plateCommandEnd handle window) s = execPlateCommandEnd handle window s := rfl
@[simp] theorem exec_impressionComplete (handle : BitVec 16) (cell : BitVec 9) (impression : BitVec 64) (s : State) : exec (.impressionComplete handle cell impression) s = execImpressionComplete handle cell impression s := rfl
@[simp] theorem exec_manifestRetire (ctx : BitVec 8) (q : BitVec 3) (s : State) : exec (.manifestRetire ctx q) s = execManifestRetire ctx q s := rfl
@[simp] theorem exec_thNop (t : BitVec 12) (word : BitVec 64) (s : State) : exec (.thNop t word) s = execThNop t word s := rfl
@[simp] theorem exec_thAdd (t : BitVec 12) (d a b : BitVec 5) (imm : BitVec 41) (s : State) : exec (.thAdd t d a b imm) s = execThAdd t d a b imm s := rfl
@[simp] theorem exec_thSub (t : BitVec 12) (d a b : BitVec 5) (imm : BitVec 41) (s : State) : exec (.thSub t d a b imm) s = execThSub t d a b imm s := rfl
@[simp] theorem exec_thAnd (t : BitVec 12) (d a b : BitVec 5) (imm : BitVec 41) (s : State) : exec (.thAnd t d a b imm) s = execThAnd t d a b imm s := rfl
@[simp] theorem exec_thOr (t : BitVec 12) (d a b : BitVec 5) (imm : BitVec 41) (s : State) : exec (.thOr t d a b imm) s = execThOr t d a b imm s := rfl
@[simp] theorem exec_thXor (t : BitVec 12) (d a b : BitVec 5) (imm : BitVec 41) (s : State) : exec (.thXor t d a b imm) s = execThXor t d a b imm s := rfl
@[simp] theorem exec_thShl (t : BitVec 12) (d a b : BitVec 5) (imm : BitVec 41) (s : State) : exec (.thShl t d a b imm) s = execThShl t d a b imm s := rfl
@[simp] theorem exec_thShr (t : BitVec 12) (d a b : BitVec 5) (imm : BitVec 41) (s : State) : exec (.thShr t d a b imm) s = execThShr t d a b imm s := rfl
@[simp] theorem exec_thSar (t : BitVec 12) (d a b : BitVec 5) (imm : BitVec 41) (s : State) : exec (.thSar t d a b imm) s = execThSar t d a b imm s := rfl
@[simp] theorem exec_thMul (t : BitVec 12) (d a b : BitVec 5) (imm : BitVec 41) (s : State) : exec (.thMul t d a b imm) s = execThMul t d a b imm s := rfl
@[simp] theorem exec_thMin (t : BitVec 12) (d a b : BitVec 5) (imm : BitVec 41) (s : State) : exec (.thMin t d a b imm) s = execThMin t d a b imm s := rfl
@[simp] theorem exec_thMax (t : BitVec 12) (d a b : BitVec 5) (imm : BitVec 41) (s : State) : exec (.thMax t d a b imm) s = execThMax t d a b imm s := rfl
@[simp] theorem exec_thLi (t : BitVec 12) (d a b : BitVec 5) (imm : BitVec 41) (s : State) : exec (.thLi t d a b imm) s = execThLi t d a b imm s := rfl
@[simp] theorem exec_thLih (t : BitVec 12) (d a b : BitVec 5) (imm : BitVec 41) (s : State) : exec (.thLih t d a b imm) s = execThLih t d a b imm s := rfl
@[simp] theorem exec_thLd (t : BitVec 12) (d a b : BitVec 5) (imm : BitVec 41) (s : State) : exec (.thLd t d a b imm) s = execThLd t d a b imm s := rfl
@[simp] theorem exec_thSt (t : BitVec 12) (d a b : BitVec 5) (imm : BitVec 41) (s : State) : exec (.thSt t d a b imm) s = execThSt t d a b imm s := rfl
@[simp] theorem exec_thLdx (t : BitVec 12) (d a b : BitVec 5) (imm : BitVec 41) (s : State) : exec (.thLdx t d a b imm) s = execThLdx t d a b imm s := rfl
@[simp] theorem exec_thStx (t : BitVec 12) (d a b : BitVec 5) (imm : BitVec 41) (s : State) : exec (.thStx t d a b imm) s = execThStx t d a b imm s := rfl
@[simp] theorem exec_thBeq (t : BitVec 12) (d a b : BitVec 5) (imm : BitVec 41) (s : State) : exec (.thBeq t d a b imm) s = execThBeq t d a b imm s := rfl
@[simp] theorem exec_thBne (t : BitVec 12) (d a b : BitVec 5) (imm : BitVec 41) (s : State) : exec (.thBne t d a b imm) s = execThBne t d a b imm s := rfl
@[simp] theorem exec_thBlt (t : BitVec 12) (d a b : BitVec 5) (imm : BitVec 41) (s : State) : exec (.thBlt t d a b imm) s = execThBlt t d a b imm s := rfl
@[simp] theorem exec_thBge (t : BitVec 12) (d a b : BitVec 5) (imm : BitVec 41) (s : State) : exec (.thBge t d a b imm) s = execThBge t d a b imm s := rfl
@[simp] theorem exec_thJmp (t : BitVec 12) (d a b : BitVec 5) (imm : BitVec 41) (s : State) : exec (.thJmp t d a b imm) s = execThJmp t d a b imm s := rfl
@[simp] theorem exec_thCmd (t : BitVec 12) (d a b : BitVec 5) (imm : BitVec 41) (s : State) : exec (.thCmd t d a b imm) s = execThCmd t d a b imm s := rfl
@[simp] theorem exec_thWaitc (t : BitVec 12) (d a b : BitVec 5) (imm : BitVec 41) (s : State) : exec (.thWaitc t d a b imm) s = execThWaitc t d a b imm s := rfl
@[simp] theorem exec_thSetc (t : BitVec 12) (d a b : BitVec 5) (imm : BitVec 41) (s : State) : exec (.thSetc t d a b imm) s = execThSetc t d a b imm s := rfl
@[simp] theorem exec_thRdc (t : BitVec 12) (d a b : BitVec 5) (imm : BitVec 41) (s : State) : exec (.thRdc t d a b imm) s = execThRdc t d a b imm s := rfl
@[simp] theorem exec_thBar (t : BitVec 12) (d a b : BitVec 5) (imm : BitVec 41) (s : State) : exec (.thBar t d a b imm) s = execThBar t d a b imm s := rfl
@[simp] theorem exec_thWaitr (t : BitVec 12) (d a b : BitVec 5) (imm : BitVec 41) (s : State) : exec (.thWaitr t d a b imm) s = execThWaitr t d a b imm s := rfl
@[simp] theorem exec_ridgeWaitResume (t : BitVec 12) (s : State) : exec (.ridgeWaitResume t) s = execRidgeWaitResume t s := rfl
@[simp] theorem exec_thRdr (t : BitVec 12) (d a b : BitVec 5) (imm : BitVec 41) (s : State) : exec (.thRdr t d a b imm) s = execThRdr t d a b imm s := rfl
@[simp] theorem exec_thRdimp (t : BitVec 12) (d a b : BitVec 5) (imm : BitVec 41) (s : State) : exec (.thRdimp t d a b imm) s = execThRdimp t d a b imm s := rfl
@[simp] theorem exec_thFence (t : BitVec 12) (d a b : BitVec 5) (imm : BitVec 41) (s : State) : exec (.thFence t d a b imm) s = execThFence t d a b imm s := rfl
@[simp] theorem exec_thEnd (t : BitVec 12) (d a b : BitVec 5) (imm : BitVec 41) (s : State) : exec (.thEnd t d a b imm) s = execThEnd t d a b imm s := rfl
@[simp] theorem exec_tensorCommand (core : BitVec 9) (engine : BitVec 1) (s : State) : exec (.tensorCommand core engine) s = execTensorCommand core engine s := rfl
@[simp] theorem exec_engineCommandRetire (core : BitVec 9) (engine : BitVec 2) (s : State) : exec (.engineCommandRetire core engine) s = execEngineCommandRetire core engine s := rfl
@[simp] theorem exec_seCmul (core : BitVec 9) (s : State) : exec (.seCmul core) s = execSeCmul core s := rfl
@[simp] theorem exec_seCadd (core : BitVec 9) (s : State) : exec (.seCadd core) s = execSeCadd core s := rfl
@[simp] theorem exec_seCmac (core : BitVec 9) (s : State) : exec (.seCmac core) s = execSeCmac core s := rfl
@[simp] theorem exec_sePower (core : BitVec 9) (s : State) : exec (.sePower core) s = execSePower core s := rfl
@[simp] theorem exec_seRad2 (core : BitVec 9) (s : State) : exec (.seRad2 core) s = execSeRad2 core s := rfl
@[simp] theorem exec_seRad4 (core : BitVec 9) (s : State) : exec (.seRad4 core) s = execSeRad4 core s := rfl
@[simp] theorem exec_seMmsew (core : BitVec 9) (s : State) : exec (.seMmsew core) s = execSeMmsew core s := rfl
@[simp] theorem exec_seDemap (core : BitVec 9) (s : State) : exec (.seDemap core) s = execSeDemap core s := rfl
@[simp] theorem exec_seScan (core : BitVec 9) (s : State) : exec (.seScan core) s = execSeScan core s := rfl
@[simp] theorem exec_bxopSet (core : BitVec 9) (s : State) : exec (.bxopSet core) s = execSeBxopSet core s := rfl
@[simp] theorem exec_bxopWriteOut (core : BitVec 9) (s : State) : exec (.bxopWriteOut core) s = execSeBxopWriteOut core s := rfl
@[simp] theorem exec_meMove (t : BitVec 12) (s : State) : exec (.meMove t) s = execMeMove t s := rfl
@[simp] theorem exec_meGather (t : BitVec 12) (s : State) : exec (.meGather t) s = execMeGather t s := rfl
@[simp] theorem exec_meScatter (t : BitVec 12) (s : State) : exec (.meScatter t) s = execMeScatter t s := rfl
@[simp] theorem exec_meTranspose (t : BitVec 12) (s : State) : exec (.meTranspose t) s = execMeTranspose t s := rfl
@[simp] theorem exec_meConvert (t : BitVec 12) (s : State) : exec (.meConvert t) s = execMeConvert t s := rfl
@[simp] theorem exec_hashOneshot (t : BitVec 12) (s : State) : exec (.hashOneshot t) s = execHashOneshot t s := rfl
@[simp] theorem exec_hashAppend (t : BitVec 12) (s : State) : exec (.hashAppend t) s = execHashAppend t s := rfl
@[simp] theorem exec_hashFinal (t : BitVec 12) (s : State) : exec (.hashFinal t) s = execHashFinal t s := rfl
@[simp] theorem exec_meWb (t : BitVec 12) (s : State) : exec (.meWb t) s = execMeWb t s := rfl
@[simp] theorem exec_meFload (t : BitVec 12) (s : State) : exec (.meFload t) s = execMeFload t s := rfl
@[simp] theorem exec_meFstore (t : BitVec 12) (s : State) : exec (.meFstore t) s = execMeFstore t s := rfl
@[simp] theorem exec_mePut (t : BitVec 12) (s : State) : exec (.mePut t) s = execMePut t s := rfl
@[simp] theorem exec_meGet (t : BitVec 12) (s : State) : exec (.meGet t) s = execMeGet t s := rfl
@[simp] theorem exec_meAtomic (t : BitVec 12) (s : State) : exec (.meAtomic t) s = execMeAtomic t s := rfl
@[simp] theorem exec_meRequestIssue (core : BitVec 9) (s : State) : exec (.meRequestIssue core) s = execMeRequestIssue core s := rfl
@[simp] theorem exec_meDescriptorRetire (t : BitVec 12) (s : State) : exec (.meDescriptorRetire t) s = execMeDescriptorRetire t s := rfl
@[simp] theorem exec_cellConfig (m : Mbx) (s : State) : exec (.cellConfig m) s = execCellConfig m s := rfl
@[simp] theorem exec_cellStart (m : Mbx) (s : State) : exec (.cellStart m) s = execCellStart m s := rfl
@[simp] theorem exec_cellStop (m : Mbx) (s : State) : exec (.cellStop m) s = execCellStop m s := rfl
@[simp] theorem exec_cellShadow (m : Mbx) (s : State) : exec (.cellShadow m) s = execCellShadow m s := rfl
@[simp] theorem exec_cellTakeover (m : Mbx) (s : State) : exec (.cellTakeover m) s = execCellTakeover m s := rfl
@[simp] theorem exec_cellQuery (m : Mbx) (s : State) : exec (.cellQuery m) s = execCellQuery m s := rfl
@[simp] theorem exec_cellStateChange (cell : BitVec 9) (s : State) : exec (.cellStateChange cell) s = execCellStateChange cell s := rfl
@[simp] theorem exec_ldpcDecodeJob (s : State) : exec (.ldpcDecodeJob) s = execLdpcDecodeJob s := rfl
@[simp] theorem exec_codeBlockDecoded (decoder : BitVec 6) (s : State) : exec (.codeBlockDecoded decoder) s = execCodeBlockDecoded decoder s := rfl
@[simp] theorem exec_ldpcEncodeJob (s : State) : exec (.ldpcEncodeJob) s = execLdpcEncodeJob s := rfl
@[simp] theorem exec_sideJob (s : State) : exec (.sideJob) s = execSideJob s := rfl
@[simp] theorem exec_polarJob (s : State) : exec (.polarJob) s = execPolarJob s := rfl
@[simp] theorem exec_prachJob (s : State) : exec (.prachJob) s = execPrachJob s := rfl
@[simp] theorem exec_fixedFunctionJobDone (pool : BitVec 2) (unit : BitVec 6) (s : State) : exec (.fixedFunctionJobDone pool unit) s = execFixedFunctionJobDone pool unit s := rfl
@[simp] theorem exec_fhPortConfig (m : Mbx) (s : State) : exec (.fhPortConfig m) s = execFhPortConfig m s := rfl
@[simp] theorem exec_fhStreamConfig (m : Mbx) (s : State) : exec (.fhStreamConfig m) s = execFhStreamConfig m s := rfl
@[simp] theorem exec_fhCellTiming (m : Mbx) (s : State) : exec (.fhCellTiming m) s = execFhCellTiming m s := rfl
@[simp] theorem exec_fhMirror (m : Mbx) (s : State) : exec (.fhMirror m) s = execFhMirror m s := rfl
@[simp] theorem exec_fhQuery (m : Mbx) (s : State) : exec (.fhQuery m) s = execFhQuery m s := rfl
@[simp] theorem exec_fhFrameRx (port : BitVec 3) (raw : BitVec 72) (fcsOk : Bool) (frame : List (BitVec 8)) (s : State) : exec (.fhFrameRx port raw fcsOk frame) s = execFhFrameRx port raw fcsOk frame s := rfl
@[simp] theorem exec_fhEgressJob (port : BitVec 3) (s : State) : exec (.fhEgressJob port) s = execFhEgressJob port s := rfl
@[simp] theorem exec_fhTxFrameBoundary (port : BitVec 3) (raw : BitVec 72) (s : State) : exec (.fhTxFrameBoundary port raw) s = execFhTxFrameBoundary port raw s := rfl
@[simp] theorem exec_symbolWindowOpen (stream : BitVec 13) (air : BitVec 64) (s : State) : exec (.symbolWindowOpen stream air) s = execSymbolWindowOpen stream air s := rfl
@[simp] theorem exec_symbolClose (stream : BitVec 13) (air : BitVec 64) (s : State) : exec (.symbolClose stream air) s = execSymbolClose stream air s := rfl
@[simp] theorem exec_mirrorRecordRx (source : BitVec 14) (bytes : List (BitVec 8)) (s : State) : exec (.mirrorRecordRx source bytes) s = execMirrorRecordRx source bytes s := rfl
@[simp] theorem exec_mirrorDeadline (cell : BitVec 9) (impression : BitVec 64) (s : State) : exec (.mirrorDeadline cell impression) s = execMirrorDeadline cell impression s := rfl
@[simp] theorem exec_fhBlockLockLoss (port : BitVec 3) (fec : Bool) (s : State) : exec (.fhBlockLockLoss port fec) s = execFhBlockLockLoss port fec s := rfl
@[simp] theorem exec_fhBlockLockRegain (port : BitVec 3) (s : State) : exec (.fhBlockLockRegain port) s = execFhBlockLockRegain port s := rfl
@[simp] theorem exec_timePortConfig (m : Mbx) (s : State) : exec (.timePortConfig m) s = execTimePortConfig m s := rfl
@[simp] theorem exec_timeServoConfig (m : Mbx) (s : State) : exec (.timeServoConfig m) s = execTimeServoConfig m s := rfl
@[simp] theorem exec_timeRearm (m : Mbx) (s : State) : exec (.timeRearm m) s = execTimeRearm m s := rfl
@[simp] theorem exec_timeSynce (m : Mbx) (s : State) : exec (.timeSynce m) s = execTimeSynce m s := rfl
@[simp] theorem exec_timeQuery (m : Mbx) (s : State) : exec (.timeQuery m) s = execTimeQuery m s := rfl
@[simp] theorem exec_txtsHeadRead (port : BitVec 4) (wide : Bool) (s : State) : exec (.txtsHeadRead port wide) s = execTxtsHeadRead port wide s := rfl
@[simp] theorem exec_tinHeadRead (n : BitVec 1) (wide : Bool) (s : State) : exec (.tinHeadRead n wide) s = execTinHeadRead n wide s := rfl
@[simp] theorem exec_measCommit (frac : BitVec 8) (s : State) : exec (.measCommit frac) s = execMeasCommit frac s := rfl
@[simp] theorem exec_holdoverEntry (s : State) : exec (.holdoverEntry) s = execHoldoverEntry s := rfl
@[simp] theorem exec_synceResume (s : State) : exec (.synceResume) s = execSynceResume s := rfl
@[simp] theorem exec_toutEnable (n : BitVec 2) (ctrl : BitVec 64) (s : State) : exec (.toutEnable n ctrl) s = execToutEnable n ctrl s := rfl
@[simp] theorem exec_toutPulse (n : BitVec 2) (s : State) : exec (.toutPulse n) s = execToutPulse n s := rfl
@[simp] theorem exec_tinEdge (n : BitVec 1) (falling : Bool) (s : State) : exec (.tinEdge n falling) s = execTinEdge n falling s := rfl
@[simp] theorem exec_deviceMemoryRequest (n : BitVec 6) (s : State) : exec (.deviceMemoryRequest n) s = execDeviceMemoryRequest n s := rfl
@[simp] theorem exec_refreshSlot (h : BitVec 10) (s : State) : exec (.refreshSlot h) s = execRefreshSlot h s := rfl
@[simp] theorem exec_memQuotaSet (m : Mbx) (s : State) : exec (.memQuotaSet m) s = execMemQuotaSet m s := rfl
@[simp] theorem exec_memAlloc (m : Mbx) (s : State) : exec (.memAlloc m) s = execMemAlloc m s := rfl
@[simp] theorem exec_memFree (m : Mbx) (s : State) : exec (.memFree m) s = execMemFree m s := rfl
@[simp] theorem exec_tierRegionCreate (m : Mbx) (s : State) : exec (.tierRegionCreate m) s = execTierRegionCreate m s := rfl
@[simp] theorem exec_tierRegionDestroy (m : Mbx) (s : State) : exec (.tierRegionDestroy m) s = execTierRegionDestroy m s := rfl
@[simp] theorem exec_tierPoolSet (m : Mbx) (s : State) : exec (.tierPoolSet m) s = execTierPoolSet m s := rfl
@[simp] theorem exec_tierJob (m : Mbx) (s : State) : exec (.tierJob m) s = execTierJob m s := rfl
@[simp] theorem exec_memRemoteAttach (m : Mbx) (s : State) : exec (.memRemoteAttach m) s = execMemRemoteAttach m s := rfl
@[simp] theorem exec_memLend (m : Mbx) (s : State) : exec (.memLend m) s = execMemLend m s := rfl
@[simp] theorem exec_flashFormat (m : Mbx) (geoms : List FlashGeom) (s : State) : exec (.flashFormat m geoms) s = execFlashFormat m geoms s := rfl
@[simp] theorem exec_memQuery (m : Mbx) (s : State) : exec (.memQuery m) s = execMemQuery m s := rfl
@[simp] theorem exec_tierRegionAdopt (m : Mbx) (s : State) : exec (.tierRegionAdopt m) s = execTierRegionAdopt m s := rfl
@[simp] theorem exec_tierCommit (m : Mbx) (s : State) : exec (.tierCommit m) s = execTierCommit m s := rfl
@[simp] theorem exec_tierDiscard (m : Mbx) (s : State) : exec (.tierDiscard m) s = execTierDiscard m s := rfl
@[simp] theorem exec_tierFetch (ctx : BitVec 8) (s : State) : exec (.tierFetch ctx) s = execTierFetch ctx s := rfl
@[simp] theorem exec_tierUnpin (ctx : BitVec 8) (s : State) : exec (.tierUnpin ctx) s = execTierUnpin ctx s := rfl
@[simp] theorem exec_tierWriteback (ctx : BitVec 8) (s : State) : exec (.tierWriteback ctx) s = execTierWriteback ctx s := rfl
@[simp] theorem exec_tierJobCommit (ctx : BitVec 8) (s : State) : exec (.tierJobCommit ctx) s = execTierJobCommit ctx s := rfl
@[simp] theorem exec_tierJobDiscard (ctx : BitVec 8) (s : State) : exec (.tierJobDiscard ctx) s = execTierJobDiscard ctx s := rfl
@[simp] theorem exec_tierFetchComplete (ctx : BitVec 8) (tpn : BitVec 32) (s : State) : exec (.tierFetchComplete ctx tpn) s = execTierFetchComplete ctx tpn s := rfl
@[simp] theorem exec_tierJobComplete (ctx : BitVec 8) (s : State) : exec (.tierJobComplete ctx) s = execTierJobComplete ctx s := rfl
@[simp] theorem exec_backgroundWriteback (ctx : BitVec 8) (s : State) : exec (.backgroundWriteback ctx) s = execBackgroundWriteback ctx s := rfl
@[simp] theorem exec_sectorWritebackDone (ctx : BitVec 8) (tpn : BitVec 32) (sector : BitVec 4) (s : State) : exec (.sectorWritebackDone ctx tpn sector) s = execSectorWritebackDone ctx tpn sector s := rfl
@[simp] theorem exec_flashRowProgram (s : State) : exec (.flashRowProgram) s = execFlashRowProgram s := rfl
@[simp] theorem exec_flashCompaction (s : State) : exec (.flashCompaction) s = execFlashCompaction s := rfl
@[simp] theorem exec_weightInstall (m : Mbx) (s : State) : exec (.weightInstall m) s = execWeightInstall m s := rfl
@[simp] theorem exec_weightQuery (m : Mbx) (s : State) : exec (.weightQuery m) s = execWeightQuery m s := rfl
@[simp] theorem exec_weightRepair (m : Mbx) (s : State) : exec (.weightRepair m) s = execWeightRepair m s := rfl
@[simp] theorem exec_weightRemove (m : Mbx) (s : State) : exec (.weightRemove m) s = execWeightRemove m s := rfl
@[simp] theorem exec_thatchBegin (die : BitVec 2) (s : State) : exec (.thatchBegin die) s = execThatchBegin die s := rfl
@[simp] theorem exec_thatchLatestExpiry (plate : BitVec 16) (s : State) : exec (.thatchLatestExpiry plate) s = execThatchLatestExpiry plate s := rfl
@[simp] theorem exec_seqQueueConfig (m : Mbx) (s : State) : exec (.seqQueueConfig m) s = execSeqQueueConfig m s := rfl
@[simp] theorem exec_seqSubmit (m : Mbx) (s : State) : exec (.seqSubmit m) s = execSeqSubmit m s := rfl
@[simp] theorem exec_seqRelease (m : Mbx) (s : State) : exec (.seqRelease m) s = execSeqRelease m s := rfl
@[simp] theorem exec_seqPause (m : Mbx) (s : State) : exec (.seqPause m) s = execSeqPause m s := rfl
@[simp] theorem exec_seqResume (m : Mbx) (s : State) : exec (.seqResume m) s = execSeqResume m s := rfl
@[simp] theorem exec_seqQuery (m : Mbx) (s : State) : exec (.seqQuery m) s = execSeqQuery m s := rfl
@[simp] theorem exec_seqAllot (m : Mbx) (s : State) : exec (.seqAllot m) s = execSeqAllot m s := rfl
@[simp] theorem exec_abrTrain (m : Mbx) (s : State) : exec (.abrTrain m) s = execAbrTrain m s := rfl
@[simp] theorem exec_abrContinue (m : Mbx) (s : State) : exec (.abrContinue m) s = execAbrContinue m s := rfl
@[simp] theorem exec_abrGainSet (m : Mbx) (s : State) : exec (.abrGainSet m) s = execAbrGainSet m s := rfl
@[simp] theorem exec_abrMeasure (m : Mbx) (lanes : List (BitVec 48)) (s : State) : exec (.abrMeasure m lanes) s = execAbrMeasure m lanes s := rfl
@[simp] theorem exec_abrDown (m : Mbx) (s : State) : exec (.abrDown m) s = execAbrDown m s := rfl
@[simp] theorem exec_abrQuery (m : Mbx) (s : State) : exec (.abrQuery m) s = execAbrQuery m s := rfl
@[simp] theorem exec_helloRx (port : BitVec 5) (serial : BitVec 64) (peerPort : BitVec 5) (mask : BitVec 8) (far : FarEnd) (s : State) : exec (.helloRx port serial peerPort mask far) s = execHelloRx port serial peerPort mask far s := rfl
@[simp] theorem exec_trainingPhaseEnd (port : BitVec 5) (obs : List LaneObs) (delays : DelayStamps) (s : State) : exec (.trainingPhaseEnd port obs delays) s = execTrainingPhaseEnd port obs delays s := rfl
@[simp] theorem exec_acquireTimeout (port : BitVec 5) (s : State) : exec (.acquireTimeout port) s = execAcquireTimeout port s := rfl
@[simp] theorem exec_slateRx (port : BitVec 5) (lane : BitVec 3) (body : BitVec 5108) (crc : BitVec 32) (parity : BitVec 300) (s : State) : exec (.slateRx port lane body crc parity) s = execSlateRx port lane body crc parity s := rfl
@[simp] theorem exec_replayTimeout (port : BitVec 5) (lane : BitVec 3) (s : State) : exec (.replayTimeout port lane) s = execReplayTimeout port lane s := rfl
@[simp] theorem exec_laneSyncLoss (port : BitVec 5) (lane : BitVec 3) (dark : Bool) (s : State) : exec (.laneSyncLoss port lane dark) s = execLaneSyncLoss port lane dark s := rfl
@[simp] theorem exec_portPacketBoundary (port : BitVec 5) (s : State) : exec (.portPacketBoundary port) s = execPortPacketBoundary port s := rfl
@[simp] theorem exec_fabWindowSet (m : Mbx) (s : State) : exec (.fabWindowSet m) s = execFabWindowSet m s := rfl
@[simp] theorem exec_fabWindowClear (m : Mbx) (s : State) : exec (.fabWindowClear m) s = execFabWindowClear m s := rfl
@[simp] theorem exec_fabInwinSet (m : Mbx) (s : State) : exec (.fabInwinSet m) s = execFabInwinSet m s := rfl
@[simp] theorem exec_fabRouteSet (m : Mbx) (s : State) : exec (.fabRouteSet m) s = execFabRouteSet m s := rfl
@[simp] theorem exec_fabLedgerSet (m : Mbx) (s : State) : exec (.fabLedgerSet m) s = execFabLedgerSet m s := rfl
@[simp] theorem exec_fabIdSet (m : Mbx) (s : State) : exec (.fabIdSet m) s = execFabIdSet m s := rfl
@[simp] theorem exec_fabVcDefault (m : Mbx) (s : State) : exec (.fabVcDefault m) s = execFabVcDefault m s := rfl
@[simp] theorem exec_fabConfig (m : Mbx) (s : State) : exec (.fabConfig m) s = execFabConfig m s := rfl
@[simp] theorem exec_fabQuery (m : Mbx) (s : State) : exec (.fabQuery m) s = execFabQuery m s := rfl
@[simp] theorem exec_pktRead (port : BitVec 5) (words : List (BitVec 144)) (s : State) : exec (.pktRead port words) s = execPktRead port words s := rfl
@[simp] theorem exec_pktWrite (port : BitVec 5) (words : List (BitVec 144)) (s : State) : exec (.pktWrite port words) s = execPktWrite port words s := rfl
@[simp] theorem exec_pktAtomic (port : BitVec 5) (words : List (BitVec 144)) (s : State) : exec (.pktAtomic port words) s = execPktAtomic port words s := rfl
@[simp] theorem exec_pktReadData (port : BitVec 5) (words : List (BitVec 144)) (s : State) : exec (.pktReadData port words) s = execPktReadData port words s := rfl
@[simp] theorem exec_pktWriteAck (port : BitVec 5) (words : List (BitVec 144)) (s : State) : exec (.pktWriteAck port words) s = execPktWriteAck port words s := rfl
@[simp] theorem exec_pktAtomicResult (port : BitVec 5) (words : List (BitVec 144)) (s : State) : exec (.pktAtomicResult port words) s = execPktAtomicResult port words s := rfl
@[simp] theorem exec_pktNak (port : BitVec 5) (words : List (BitVec 144)) (s : State) : exec (.pktNak port words) s = execPktNak port words s := rfl
@[simp] theorem exec_transitForward (port : BitVec 5) (words : List (BitVec 144)) (s : State) : exec (.transitForward port words) s = execTransitForward port words s := rfl
@[simp] theorem exec_requestTimeout (tag : BitVec 17) (s : State) : exec (.requestTimeout tag) s = execRequestTimeout tag s := rfl
@[simp] theorem exec_collGroupCreate (m : Mbx) (s : State) : exec (.collGroupCreate m) s = execCollGroupCreate m s := rfl
@[simp] theorem exec_collGroupDestroy (m : Mbx) (s : State) : exec (.collGroupDestroy m) s = execCollGroupDestroy m s := rfl
@[simp] theorem exec_collGroupQuery (m : Mbx) (s : State) : exec (.collGroupQuery m) s = execCollGroupQuery m s := rfl
@[simp] theorem exec_collGroupRebind (m : Mbx) (s : State) : exec (.collGroupRebind m) s = execCollGroupRebind m s := rfl
@[simp] theorem exec_collJob (m : Mbx) (s : State) : exec (.collJob m) s = execCollJob m s := rfl
@[simp] theorem exec_opAllreduce (die : BitVec 2) (s : State) : exec (.opAllreduce die) s = execOpAllreduce die s := rfl
@[simp] theorem exec_opReduceScatter (die : BitVec 2) (s : State) : exec (.opReduceScatter die) s = execOpReduceScatter die s := rfl
@[simp] theorem exec_opAllgather (die : BitVec 2) (s : State) : exec (.opAllgather die) s = execOpAllgather die s := rfl
@[simp] theorem exec_opBroadcast (die : BitVec 2) (s : State) : exec (.opBroadcast die) s = execOpBroadcast die s := rfl
@[simp] theorem exec_opReduce (die : BitVec 2) (s : State) : exec (.opReduce die) s = execOpReduce die s := rfl
@[simp] theorem exec_opAlltoall (die : BitVec 2) (s : State) : exec (.opAlltoall die) s = execOpAlltoall die s := rfl
@[simp] theorem exec_opBarrier (die : BitVec 2) (s : State) : exec (.opBarrier die) s = execOpBarrier die s := rfl
@[simp] theorem exec_collRingStepSend (die : BitVec 2) (s : State) : exec (.collRingStepSend die) s = execCollRingStepSend die s := rfl
@[simp] theorem exec_collData (port : BitVec 5) (words : List (BitVec 144)) (s : State) : exec (.collData port words) s = execCollData port words s := rfl
@[simp] theorem exec_collCredit (port : BitVec 5) (words : List (BitVec 144)) (s : State) : exec (.collCredit port words) s = execCollCredit port words s := rfl
@[simp] theorem exec_collAbort (port : BitVec 5) (words : List (BitVec 144)) (s : State) : exec (.collAbort port words) s = execCollAbort port words s := rfl
@[simp] theorem exec_barrierArrive (port : BitVec 5) (words : List (BitVec 144)) (s : State) : exec (.barrierArrive port words) s = execBarrierArrive port words s := rfl
@[simp] theorem exec_barrierRelease (port : BitVec 5) (words : List (BitVec 144)) (delays : BitVec 32) (s : State) : exec (.barrierRelease port words delays) s = execBarrierRelease port words delays s := rfl
@[simp] theorem exec_fabricBarrierResume (group : BitVec 12) (s : State) : exec (.fabricBarrierResume group) s = execFabricBarrierResume group s := rfl
@[simp] theorem exec_collJoin (port : BitVec 5) (words : List (BitVec 144)) (s : State) : exec (.collJoin port words) s = execCollJoin port words s := rfl
@[simp] theorem exec_collJoinTimeout (group : BitVec 12) (s : State) : exec (.collJoinTimeout group) s = execCollJoinTimeout group s := rfl
@[simp] theorem exec_collProgressTimeout (group : BitVec 12) (s : State) : exec (.collProgressTimeout group) s = execCollProgressTimeout group s := rfl
@[simp] theorem exec_qBind (m : Mbx) (s : State) : exec (.qBind m) s = execQBind m s := rfl
@[simp] theorem exec_qUnbind (m : Mbx) (s : State) : exec (.qUnbind m) s = execQUnbind m s := rfl
@[simp] theorem exec_qShaperSet (m : Mbx) (s : State) : exec (.qShaperSet m) s = execQShaperSet m s := rfl
@[simp] theorem exec_qClassSet (m : Mbx) (s : State) : exec (.qClassSet m) s = execQClassSet m s := rfl
@[simp] theorem exec_policerSet (m : Mbx) (s : State) : exec (.policerSet m) s = execPolicerSet m s := rfl
@[simp] theorem exec_stippleConfig (m : Mbx) (s : State) : exec (.stippleConfig m) s = execStippleConfig m s := rfl
@[simp] theorem exec_qQuery (m : Mbx) (s : State) : exec (.qQuery m) s = execQQuery m s := rfl
@[simp] theorem exec_qRingSet (m : Mbx) (s : State) : exec (.qRingSet m) s = execQRingSet m s := rfl
@[simp] theorem exec_egressDecision (egress : BitVec 7) (s : State) : exec (.egressDecision egress) s = execEgressDecision egress s := rfl
@[simp] theorem exec_shaperRefill (s : State) : exec (.shaperRefill) s = execShaperRefill s := rfl
@[simp] theorem exec_stippleSample (s : State) : exec (.stippleSample) s = execStippleSample s := rfl
@[simp] theorem exec_qDoorbell (fn : BitVec 8) (hq : BitVec 13) (v : BitVec 32) (s : State) : exec (.qDoorbell fn hq v) s = execQDoorbell fn hq v s := rfl
@[simp] theorem exec_descriptorFetch (hq : BitVec 13) (slots : List FetchedSlot) (s : State) : exec (.descriptorFetch hq slots) s = execDescriptorFetch hq slots s := rfl
@[simp] theorem exec_descToDevice (hq : BitVec 13) (index : BitVec 32) (s : State) : exec (.descToDevice hq index) s = execDescToDevice hq index s := rfl
@[simp] theorem exec_descMessage (hq : BitVec 13) (index : BitVec 32) (s : State) : exec (.descMessage hq index) s = execDescMessage hq index s := rfl
@[simp] theorem exec_descToHost (hq : BitVec 13) (index : BitVec 32) (s : State) : exec (.descToHost hq index) s = execDescToHost hq index s := rfl
@[simp] theorem exec_descFrame (hq : BitVec 13) (index : BitVec 32) (s : State) : exec (.descFrame hq index) s = execDescFrame hq index s := rfl
@[simp] theorem exec_descWrite (hq : BitVec 13) (index : BitVec 32) (s : State) : exec (.descWrite hq index) s = execDescWrite hq index s := rfl
@[simp] theorem exec_descriptorComplete (hq : BitVec 13) (index : BitVec 32) (s : State) : exec (.descriptorComplete hq index) s = execDescriptorComplete hq index s := rfl
@[simp] theorem exec_coalesceTimeout (hq : BitVec 13) (s : State) : exec (.coalesceTimeout hq) s = execCoalesceTimeout hq s := rfl
@[simp] theorem exec_dmaReadCompletion (hq : BitVec 13) (index : BitVec 32) (addr : BitVec 64) (e : HostReadEnd) (s : State) : exec (.dmaReadCompletion hq index addr e) s = execDmaReadCompletion hq index addr e s := rfl
@[simp] theorem exec_atsInvalidate (fn : BitVec 8) (page : BitVec 52) (s : State) : exec (.atsInvalidate fn page) s = execAtsInvalidate fn page s := rfl
@[simp] theorem exec_fnConfig (m : Mbx) (s : State) : exec (.fnConfig m) s = execFnConfig m s := rfl
@[simp] theorem exec_fnShareSet (m : Mbx) (s : State) : exec (.fnShareSet m) s = execFnShareSet m s := rfl
@[simp] theorem exec_fnQuery (m : Mbx) (s : State) : exec (.fnQuery m) s = execFnQuery m s := rfl
@[simp] theorem exec_fnReset (m : Mbx) (s : State) : exec (.fnReset m) s = execFnReset m s := rfl
@[simp] theorem exec_flr (fn : BitVec 8) (s : State) : exec (.flr fn) s = execFlr fn s := rfl
@[simp] theorem exec_vfEnableSet (n : BitVec 8) (s : State) : exec (.vfEnableSet n) s = execVfEnableSet n s := rfl
@[simp] theorem exec_vfEnableClear (s : State) : exec (.vfEnableClear) s = execVfEnableClear s := rfl
@[simp] theorem exec_teardownStepEnd (fn : BitVec 9) (s : State) : exec (.teardownStepEnd fn) s = execTeardownStepEnd fn s := rfl
@[simp] theorem exec_quiesceAbandon (fn : BitVec 9) (s : State) : exec (.quiesceAbandon fn) s = execQuiesceAbandon fn s := rfl
@[simp] theorem exec_scrubFrameDone (f : BitVec 24) (s : State) : exec (.scrubFrameDone f) s = execScrubFrameDone f s := rfl
@[simp] theorem exec_pcieLinkTrained (speed : BitVec 3) (width : BitVec 5) (flit : Bool) (s : State) : exec (.pcieLinkTrained speed width flit) s = execPcieLinkTrained speed width flit s := rfl
@[simp] theorem exec_pcieSurpriseDown (s : State) : exec (.pcieSurpriseDown) s = execPcieSurpriseDown s := rfl
@[simp] theorem exec_ctxSaveSet (m : Mbx) (s : State) : exec (.ctxSaveSet m) s = execCtxSaveSet m s := rfl
@[simp] theorem exec_ctxPreempt (m : Mbx) (s : State) : exec (.ctxPreempt m) s = execCtxPreempt m s := rfl
@[simp] theorem exec_ctxResume (m : Mbx) (s : State) : exec (.ctxResume m) s = execCtxResume m s := rfl
@[simp] theorem exec_ctxQuery (m : Mbx) (s : State) : exec (.ctxQuery m) s = execCtxQuery m s := rfl
@[simp] theorem exec_imageSaveDone (ctx : BitVec 8) (s : State) : exec (.imageSaveDone ctx) s = execImageSaveDone ctx s := rfl
@[simp] theorem exec_imageRestoreDone (ctx : BitVec 8) (s : State) : exec (.imageRestoreDone ctx) s = execImageRestoreDone ctx s := rfl
@[simp] theorem exec_ctxSeedSet (m : Mbx) (s : State) : exec (.ctxSeedSet m) s = execCtxSeedSet m s := rfl
@[simp] theorem exec_seedRegen (m : Mbx) (s : State) : exec (.seedRegen m) s = execSeedRegen m s := rfl
@[simp] theorem exec_proofJob (die : BitVec 2) (s : State) : exec (.proofJob die) s = execProofJob die s := rfl
@[simp] theorem exec_proofDone (die : BitVec 2) (engine : BitVec 4) (s : State) : exec (.proofDone die engine) s = execProofDone die engine s := rfl
@[simp] theorem exec_recConfig (m : Mbx) (s : State) : exec (.recConfig m) s = execRecConfig m s := rfl
@[simp] theorem exec_recStart (m : Mbx) (s : State) : exec (.recStart m) s = execRecStart m s := rfl
@[simp] theorem exec_recStop (m : Mbx) (s : State) : exec (.recStop m) s = execRecStop m s := rfl
@[simp] theorem exec_replayStart (m : Mbx) (s : State) : exec (.replayStart m) s = execReplayStart m s := rfl
@[simp] theorem exec_replayStop (m : Mbx) (s : State) : exec (.replayStop m) s = execReplayStop m s := rfl
@[simp] theorem exec_replayInject (geoms : List FlashGeom) (s : State) : exec (.replayInject geoms) s = execReplayInject geoms s := rfl
@[simp] theorem exec_dryArm (m : Mbx) (s : State) : exec (.dryArm m) s = execDryArm m s := rfl
@[simp] theorem exec_dryFire (m : Mbx) (s : State) : exec (.dryFire m) s = execDryFire m s := rfl
@[simp] theorem exec_drypointSnapshot (s : State) : exec (.drypointSnapshot) s = execDrypointSnapshot s := rfl
@[simp] theorem exec_dryHeldRelease (s : State) : exec (.dryHeldRelease) s = execDryHeldRelease s := rfl
@[simp] theorem exec_recPostStop (s : State) : exec (.recPostStop) s = execRecPostStop s := rfl
@[simp] theorem exec_leaseConfig (m : Mbx) (s : State) : exec (.leaseConfig m) s = execLeaseConfig m s := rfl
@[simp] theorem exec_leaseKeySet (m : Mbx) (s : State) : exec (.leaseKeySet m) s = execLeaseKeySet m s := rfl
@[simp] theorem exec_leaseRelease (m : Mbx) (s : State) : exec (.leaseRelease m) s = execLeaseRelease m s := rfl
@[simp] theorem exec_faultPeerSet (m : Mbx) (s : State) : exec (.faultPeerSet m) s = execFaultPeerSet m s := rfl
@[simp] theorem exec_healthConfig (m : Mbx) (s : State) : exec (.healthConfig m) s = execHealthConfig m s := rfl
@[simp] theorem exec_takeoverArm (m : Mbx) (s : State) : exec (.takeoverArm m) s = execTakeoverArm m s := rfl
@[simp] theorem exec_wireCompat (m : Mbx) (s : State) : exec (.wireCompat m) s = execWireCompat m s := rfl
@[simp] theorem exec_faultQuery (m : Mbx) (s : State) : exec (.faultQuery m) s = execFaultQuery m s := rfl
@[simp] theorem exec_leaseRenew (s : State) : exec (.leaseRenew) s = execLeaseRenew s := rfl
@[simp] theorem exec_rxGrant (payload : List (BitVec 8)) (s : State) : exec (.rxGrant payload) s = execRxGrant payload s := rfl
@[simp] theorem exec_rxRevoke (payload : List (BitVec 8)) (s : State) : exec (.rxRevoke payload) s = execRxRevoke payload s := rfl
@[simp] theorem exec_leaseExpiry (s : State) : exec (.leaseExpiry) s = execLeaseExpiry s := rfl
@[simp] theorem exec_fatalCause (cause : BitVec 3) (s : State) : exec (.fatalCause cause) s = execFatalCause cause s := rfl
@[simp] theorem exec_faultEventFlush (code : BitVec 8) (s : State) : exec (.faultEventFlush code) s = execFaultEventFlush code s := rfl
@[simp] theorem exec_healthWindowEnd (s : State) : exec (.healthWindowEnd) s = execHealthWindowEnd s := rfl
@[simp] theorem exec_fenceNotice (port : BitVec 5) (words : List (BitVec 144)) (s : State) : exec (.fenceNotice port words) s = execFenceNotice port words s := rfl
@[simp] theorem exec_leaseEcho (port : BitVec 5) (words : List (BitVec 144)) (s : State) : exec (.leaseEcho port words) s = execLeaseEcho port words s := rfl
@[simp] theorem exec_echoAck (port : BitVec 5) (words : List (BitVec 144)) (s : State) : exec (.echoAck port words) s = execEchoAck port words s := rfl
@[simp] theorem exec_echoLapse (hall : BitVec 14) (s : State) : exec (.echoLapse hall) s = execEchoLapse hall s := rfl
@[simp] theorem exec_takeoverTimer (cell : BitVec 9) (s : State) : exec (.takeoverTimer cell) s = execTakeoverTimer cell s := rfl
@[simp] theorem exec_mbxCmdPiWrite (fn : BitVec 8) (v : BitVec 32) (s : State) : exec (.mbxCmdPiWrite fn v) s = execMbxCmdPiWrite fn v s := rfl
@[simp] theorem exec_mbxCplCiWrite (fn : BitVec 8) (v : BitVec 32) (s : State) : exec (.mbxCplCiWrite fn v) s = execMbxCplCiWrite fn v s := rfl
@[simp] theorem exec_mbxEnable (fn : BitVec 8) (s : State) : exec (.mbxEnable fn) s = execMbxEnable fn s := rfl
@[simp] theorem exec_mbxDisable (fn : BitVec 8) (s : State) : exec (.mbxDisable fn) s = execMbxDisable fn s := rfl
@[simp] theorem exec_mbxDrained (fn : BitVec 8) (s : State) : exec (.mbxDrained fn) s = execMbxDrained fn s := rfl
@[simp] theorem exec_commandAccept (heads : List Head) (s : State) : exec (.commandAccept heads) s = execCommandAccept heads s := rfl
@[simp] theorem exec_commandTimeout (input : BitVec 9) (desc : BitVec 512) (s : State) : exec (.commandTimeout input desc) s = execCommandTimeout input desc s := rfl
@[simp] theorem exec_mgmtCommandFrame (port : BitVec 1) (payload : List (BitVec 8)) (s : State) : exec (.mgmtCommandFrame port payload) s = execMgmtCommandFrame port payload s := rfl
@[simp] theorem exec_devQuery (m : Mbx) (s : State) : exec (.devQuery m) s = execDevQuery m s := rfl
@[simp] theorem exec_devCfgQuery (m : Mbx) (s : State) : exec (.devCfgQuery m) s = execDevCfgQuery m s := rfl
@[simp] theorem exec_devReset (m : Mbx) (s : State) : exec (.devReset m) s = execDevReset m s := rfl
@[simp] theorem exec_computeReset (m : Mbx) (s : State) : exec (.computeReset m) s = execComputeReset m s := rfl
@[simp] theorem exec_fwStage (m : Mbx) (s : State) : exec (.fwStage m) s = execFwStage m s := rfl
@[simp] theorem exec_cfgWrite (m : Mbx) (s : State) : exec (.cfgWrite m) s = execCfgWrite m s := rfl
@[simp] theorem exec_coolantConfig (m : Mbx) (s : State) : exec (.coolantConfig m) s = execCoolantConfig m s := rfl
@[simp] theorem exec_govConfig (m : Mbx) (s : State) : exec (.govConfig m) s = execGovConfig m s := rfl
@[simp] theorem exec_powerQuery (m : Mbx) (s : State) : exec (.powerQuery m) s = execPowerQuery m s := rfl
@[simp] theorem exec_tripConfig (m : Mbx) (s : State) : exec (.tripConfig m) s = execTripConfig m s := rfl
@[simp] theorem exec_coolantSample (rIn rOut : BitVec 32) (s : State) : exec (.coolantSample rIn rOut) s = execCoolantSample rIn rOut s := rfl
@[simp] theorem exec_thermalSample (junctions hbmTemps : List (BitVec 16)) (s : State) : exec (.thermalSample junctions hbmTemps) s = execThermalSample junctions hbmTemps s := rfl
@[simp] theorem exec_tripClear (s : State) : exec (.tripClear) s = execTripClear s := rfl
@[simp] theorem exec_thermtripAssert (s : State) : exec (.thermtripAssert) s = execThermtripAssert s := rfl
@[simp] theorem exec_regulatorPoll (rail : BitVec 4) (ack : Bool) (milliVolt : BitVec 16) (milliAmp : BitVec 32) (s : State) : exec (.regulatorPoll rail ack milliVolt milliAmp) s = execRegulatorPoll rail ack milliVolt milliAmp s := rfl
@[simp] theorem exec_pmbusTargetRead (command : BitVec 8) (s : State) : exec (.pmbusTargetRead command) s = execPmbusTargetRead command s := rfl
@[simp] theorem exec_mctpMessage (msg : List (BitVec 8)) (s : State) : exec (.mctpMessage msg) s = execMctpMessage msg s := rfl
@[simp] theorem exec_powerOnResetEnter (s : State) : exec (.powerOnResetEnter) s = execPowerOnResetEnter s := rfl
@[simp] theorem exec_powerOnResetEnd (answers : Bool) (fitted : Fitted) (s : State) : exec (.powerOnResetEnd answers fitted) s = execPowerOnResetEnd answers fitted s := rfl
@[simp] theorem exec_configLoad (s : State) : exec (.configLoad) s = execConfigLoad s := rfl
@[simp] theorem exec_railLoss (s : State) : exec (.railLoss) s = execRailLoss s := rfl
@[simp] theorem exec_perstNAssert (s : State) : exec (.perstNAssert) s = execPerstNAssert s := rfl
@[simp] theorem exec_perstNRelease (testen : Bool) (s : State) : exec (.perstNRelease testen) s = execPerstNRelease testen s := rfl
@[simp] theorem exec_hbmReady (geoms : List FlashGeom) (s : State) : exec (.hbmReady geoms) s = execHbmReady geoms s := rfl
@[simp] theorem exec_jtagExtest (s : State) : exec (.jtagExtest) s = execExtest s := rfl
@[simp] theorem exec_jtagIdcode (s : State) : exec (.jtagIdcode) s = execIdcode s := rfl
@[simp] theorem exec_jtagSamplePreload (pins cells : List Bool) (s : State) : exec (.jtagSamplePreload pins cells) s = execSamplePreload pins cells s := rfl
@[simp] theorem exec_jtagClamp (s : State) : exec (.jtagClamp) s = execClamp s := rfl
@[simp] theorem exec_jtagHighz (s : State) : exec (.jtagHighz) s = execHighz s := rfl
@[simp] theorem exec_jtagBypass (code : BitVec 8) (s : State) : exec (.jtagBypass code) s = execBypass code s := rfl
@[simp] theorem exec_tapReset (s : State) : exec (.tapReset) s = execTapReset s := rfl
@[simp] theorem exec_sramScrub (word : BitVec 36) (s : State) : exec (.sramScrub word) s = execSramScrub word s := rfl
@[simp] theorem exec_atsTranslationCompletion (fn : BitVec 8) (page phys : BitVec 52) (read write : Bool) (s : State) : exec (.atsTranslationCompletion fn page phys read write) s = execAtsTranslationCompletion fn page phys read write s := rfl
@[simp] theorem exec_mgmtPtpFrameRx (port : BitVec 1) (speed : BitVec 2) (raw : BitVec 72) (frame : List (BitVec 8)) (s : State) : exec (.mgmtPtpFrameRx port speed raw frame) s = execMgmtPtpFrameRx port speed raw frame s := rfl
@[simp] theorem exec_mgmtPtpFrameTx (port : BitVec 1) (speed : BitVec 2) (raw : BitVec 72) (s : State) : exec (.mgmtPtpFrameTx port speed raw) s = execMgmtPtpFrameTx port speed raw s := rfl

end Sys2Proof.Machine
end

