-- ==== Sys2Proof/Laws/Tab.lean ====
section
/-!
SUPPORT. Laws of sparse tables: what a read gives after a write, and that writes keep the canonical form.
-/
namespace Sys2Proof.Machine

variable {α : Type} {d v w : α} {t : Tab α} {i j k b : Nat}

@[simp] theorem Tab.get_nil : Tab.get d ([] : Tab α) k = d := rfl

theorem Tab.get_erase_ne (h : j ≠ k) : Tab.get d (Tab.erase k t) j = Tab.get d t j := by
  induction t with
  | nil => rfl
  | cons e r ih =>
    obtain ⟨i, w⟩ := e
    by_cases hi : i = k
    · subst hi
      simp only [Tab.erase, Tab.get, if_true, if_neg (Ne.symm h)]
      exact ih
    · simp only [Tab.erase, Tab.get, if_neg hi, ih]

theorem Tab.get_erase_eq : Tab.get d (Tab.erase k t) k = d := by
  induction t with
  | nil => rfl
  | cons e r ih =>
    obtain ⟨i, w⟩ := e
    by_cases hi : i = k
    · simp only [Tab.erase, if_pos hi]; exact ih
    · simp only [Tab.erase, Tab.get, if_neg hi]; exact ih

theorem Tab.get_insert_eq (h : ∀ e ∈ t, e.1 ≠ k) : Tab.get d (Tab.insert k v t) k = v := by
  induction t with
  | nil => simp [Tab.insert, Tab.get]
  | cons e r ih =>
    obtain ⟨i, w⟩ := e
    have hi : i ≠ k := h (i, w) (List.mem_cons_self ..)
    by_cases hk : k < i
    · simp [Tab.insert, Tab.get, hk]
    · simp only [Tab.insert, if_neg hk, Tab.get, if_neg hi]
      exact ih fun e he => h e (List.mem_cons_of_mem _ he)

theorem Tab.get_insert_ne (h : j ≠ k) : Tab.get d (Tab.insert k v t) j = Tab.get d t j := by
  induction t with
  | nil => simp [Tab.insert, Tab.get, Ne.symm h]
  | cons e r ih =>
    obtain ⟨i, w⟩ := e
    by_cases hk : k < i
    · simp [Tab.insert, Tab.get, hk, Ne.symm h]
    · simp only [Tab.insert, if_neg hk, Tab.get, ih]

theorem Tab.erase_not_key : ∀ e ∈ Tab.erase k t, e.1 ≠ k := by
  induction t with
  | nil => intro e h; cases h
  | cons x r ih =>
    obtain ⟨i, w⟩ := x
    by_cases hi : i = k
    · simpa only [Tab.erase, if_pos hi] using ih
    · simp only [Tab.erase, if_neg hi, List.mem_cons]
      rintro e (rfl | he)
      · exact hi
      · exact ih e he

/-- A read of the key written gives the value written. -/
@[simp] theorem Tab.get_set_eq [DecidableEq α] : Tab.get d (Tab.set d t k v) k = v := by
  unfold Tab.set
  split
  · rename_i h; rw [Tab.get_erase_eq, h]
  · exact Tab.get_insert_eq Tab.erase_not_key

/-- A write leaves every other key alone. -/
theorem Tab.get_set_ne [DecidableEq α] (h : j ≠ k) : Tab.get d (Tab.set d t k v) j = Tab.get d t j := by
  unfold Tab.set
  split
  · exact Tab.get_erase_ne h
  · rw [Tab.get_insert_ne h, Tab.get_erase_ne h]

theorem Tab.sortedFrom_mono (h : j ≤ b) (hs : Tab.sortedFrom b t = true) : Tab.sortedFrom j t = true := by
  cases t with
  | nil => rfl
  | cons e r =>
    obtain ⟨i, w⟩ := e
    simp only [Tab.sortedFrom, Bool.and_eq_true, decide_eq_true_eq] at hs ⊢
    exact ⟨Nat.le_trans h hs.1, hs.2⟩

theorem Tab.sortedFrom_erase (hs : Tab.sortedFrom b t = true) : Tab.sortedFrom b (Tab.erase k t) = true := by
  induction t generalizing b with
  | nil => rfl
  | cons e r ih =>
    obtain ⟨i, w⟩ := e
    simp only [Tab.sortedFrom, Bool.and_eq_true, decide_eq_true_eq] at hs
    by_cases hi : i = k
    · simp only [Tab.erase, if_pos hi]
      exact Tab.sortedFrom_mono (by omega) (ih hs.2)
    · simp only [Tab.erase, if_neg hi, Tab.sortedFrom, Bool.and_eq_true, decide_eq_true_eq]
      exact ⟨hs.1, ih hs.2⟩

theorem Tab.sortedFrom_insert (hs : Tab.sortedFrom b t = true) (hk : ∀ e ∈ t, e.1 ≠ k) (hb : b ≤ k) :
    Tab.sortedFrom b (Tab.insert k v t) = true := by
  induction t generalizing b with
  | nil => simp [Tab.insert, Tab.sortedFrom, hb]
  | cons e r ih =>
    obtain ⟨i, w⟩ := e
    have hi : i ≠ k := hk (i, w) (List.mem_cons_self ..)
    simp only [Tab.sortedFrom, Bool.and_eq_true, decide_eq_true_eq] at hs
    by_cases hlt : k < i
    · simp only [Tab.insert, if_pos hlt, Tab.sortedFrom, Bool.and_eq_true, decide_eq_true_eq]
      exact ⟨hb, hlt, hs.2⟩
    · simp only [Tab.insert, if_neg hlt, Tab.sortedFrom, Bool.and_eq_true, decide_eq_true_eq]
      exact ⟨hs.1, ih hs.2 (fun e he => hk e (List.mem_cons_of_mem _ he)) (by omega)⟩

theorem Tab.mem_insert {e : Nat × α} (h : e ∈ Tab.insert k v t) : e = (k, v) ∨ e ∈ t := by
  induction t with
  | nil => simpa [Tab.insert] using h
  | cons x r ih =>
    obtain ⟨i, w⟩ := x
    by_cases hlt : k < i
    · simpa [Tab.insert, hlt] using h
    · simp only [Tab.insert, if_neg hlt, List.mem_cons] at h ⊢
      rcases h with h | h
      · exact .inr (.inl h)
      · exact (ih h).imp id .inr

theorem Tab.mem_erase {e : Nat × α} (h : e ∈ Tab.erase k t) : e ∈ t := by
  induction t with
  | nil => exact h
  | cons x r ih =>
    obtain ⟨i, w⟩ := x
    by_cases hi : i = k
    · exact List.mem_cons_of_mem _ (ih (by simpa [Tab.erase, hi] using h))
    · simp only [Tab.erase, if_neg hi, List.mem_cons] at h ⊢
      exact h.imp id ih

/-- A write keeps the canonical form: keys strictly rising, no listed default. -/
theorem Tab.wf_set [DecidableEq α] (h : Tab.wf d t = true) : Tab.wf d (Tab.set d t k v) = true := by
  simp only [Tab.wf, Bool.and_eq_true, List.all_eq_true, bne_iff_ne] at h ⊢
  unfold Tab.set
  split
  · exact ⟨Tab.sortedFrom_erase h.1, fun e he => h.2 e (Tab.mem_erase he)⟩
  · rename_i hv
    refine ⟨Tab.sortedFrom_insert (Tab.sortedFrom_erase h.1) Tab.erase_not_key (Nat.zero_le _), fun e he => ?_⟩
    rcases Tab.mem_insert he with rfl | he
    · exact hv
    · exact h.2 e (Tab.mem_erase he)

theorem Tab.sortedFrom_filter {p : Nat × α → Bool} (hs : Tab.sortedFrom b t = true) : Tab.sortedFrom b (t.filter p) = true := by
  induction t generalizing b with
  | nil => rfl
  | cons e r ih =>
    obtain ⟨i, w⟩ := e
    simp only [Tab.sortedFrom, Bool.and_eq_true, decide_eq_true_eq] at hs
    by_cases hp : p (i, w) = true
    · simp only [List.filter_cons, hp, if_true, Tab.sortedFrom, Bool.and_eq_true, decide_eq_true_eq]
      exact ⟨hs.1, ih hs.2⟩
    · simp only [List.filter_cons, hp]
      exact Tab.sortedFrom_mono (by omega) (ih hs.2)

/-- Removing entries keeps the canonical form. -/
theorem Tab.wf_filter [DecidableEq α] {p : Nat × α → Bool} (h : Tab.wf d t = true) : Tab.wf d (t.filter p) = true := by
  simp only [Tab.wf, Bool.and_eq_true, List.all_eq_true, bne_iff_ne] at h ⊢
  exact ⟨Tab.sortedFrom_filter h.1, fun e he => h.2 e ((List.mem_filter.1 he).1)⟩

@[simp] theorem Tab.wf_nil [DecidableEq α] : Tab.wf d ([] : Tab α) = true := rfl

end Sys2Proof.Machine
end

