-- ==== Sys2Proof/Laws/Mem.lean ====
section
/-!
SUPPORT. Laws of device memory: a byte read after a write, and that every memory operation keeps the canonical form.
-/
namespace Sys2Proof.Machine
open Sys2Proof

variable {m : Mem} {t : MemTiers} {a b w : Nat} {v : Byte} {d : BitVec 16}

@[simp] theorem Mem.byte_setByte_eq : (m.setByte a v).byte a = v := Tab.get_set_eq
theorem Mem.byte_setByte_ne (h : b ≠ a) : (m.setByte a v).byte b = m.byte b := Tab.get_set_ne h
@[simp] theorem Mem.byte_setDiff : (m.setDiff w d).byte a = m.byte a := rfl
@[simp] theorem Mem.diffAt_setDiff_eq : (m.setDiff w d).diffAt w = d := Tab.get_set_eq
theorem Mem.diffAt_setDiff_ne (h : b ≠ w) : (m.setDiff w d).diffAt b = m.diffAt b := Tab.get_set_ne h
@[simp] theorem Mem.diffAt_setByte : (m.setByte a v).diffAt w = m.diffAt w := rfl

theorem Mem.wf_setByte (h : m.wf = true) : (m.setByte a v).wf = true := by
  simp only [Mem.wf, Bool.and_eq_true] at h ⊢
  exact ⟨Tab.wf_set h.1, h.2⟩

theorem Mem.wf_setDiff (h : m.wf = true) : (m.setDiff w d).wf = true := by
  simp only [Mem.wf, Bool.and_eq_true] at h ⊢
  exact ⟨h.1, Tab.wf_set h.2⟩

theorem Mem.wf_setBytes {bs : List Byte} (h : m.wf = true) : (m.setBytes a bs).wf = true := by
  induction bs generalizing m a with
  | nil => exact h
  | cons v r ih => exact ih (Mem.wf_setByte h)

/-- Bytes outside those stored keep their value. -/
theorem Mem.byte_setBytes_ne {bs : List Byte} (h : b < a ∨ a + bs.length ≤ b) : (m.setBytes a bs).byte b = m.byte b := by
  induction bs generalizing m a with
  | nil => rfl
  | cons v r ih =>
    simp only [List.length_cons] at h
    rw [Mem.setBytes, ih (by omega), Mem.byte_setByte_ne (by omega)]

/-- Bytes stored read back. -/
theorem Mem.byte_setBytes_eq {bs : List Byte} {i : Nat} (h : i < bs.length) : (m.setBytes a bs).byte (a + i) = bs[i] := by
  induction bs generalizing m a i with
  | nil => cases h
  | cons v r ih =>
    cases i with
    | zero => rw [Mem.setBytes, Mem.byte_setBytes_ne (by omega)]; simp
    | succ i =>
      have := ih (m := m.setByte a v) (a := a + 1) (i := i) (by simpa using h)
      rw [Mem.setBytes, show a + (i + 1) = a + 1 + i by omega, this]; rfl

theorem Mem.wf_writePart {off : Nat} {bs : List Byte} (h : m.wf = true) : (m.writePart w off bs).1.wf = true := by
  unfold Mem.writePart
  split
  · exact Mem.wf_setDiff (Mem.wf_setBytes h)
  · dsimp only
    split <;> exact Mem.wf_setDiff (Mem.wf_setBytes (Mem.wf_setBytes h))

theorem Mem.wf_write {bs : List Byte} (h : m.wf = true) : (m.write a bs).1.wf = true := by
  suffices H : ∀ (l : List (Nat × Nat × List Byte)) (p : Mem × Bool), p.1.wf = true →
      (l.foldl (fun p q => let r := p.1.writePart q.1 q.2.1 q.2.2; (r.1, p.2 || r.2)) p).1.wf = true from H _ (m, false) h
  intro l
  induction l with
  | nil => exact fun _ h => h
  | cons q r ih => exact fun p h => ih _ (Mem.wf_writePart h)

theorem Mem.wf_poison {n : Nat} (h : m.wf = true) : (m.poison a n).wf = true := by
  suffices H : ∀ (l : List Nat) (m : Mem), m.wf = true → (l.foldl Mem.poisonWord m).wf = true from H _ m h
  intro l
  induction l with
  | nil => exact fun _ h => h
  | cons q r ih => exact fun m h => ih _ (Mem.wf_setDiff h)

@[simp] theorem MemTiers.setFrame_mem {f : Nat} {e : Frame} : (t.setFrame f e).mem = t.mem := rfl

@[simp] theorem MemTiers.markDirty_mem {n : Nat} : (t.markDirty a n).mem = t.mem := by
  unfold MemTiers.markDirty
  split
  · rfl
  · generalize List.range _ = l
    induction l generalizing t with
    | nil => rfl
    | cons i r ih =>
      rw [List.foldl_cons, ih]
      dsimp only
      split <;> rfl

/-- Writing device memory keeps its canonical form. -/
theorem MemTiers.wf_write {bs : List Byte} (h : t.mem.wf = true) : (t.write a bs).1.mem.wf = true := by
  simp only [MemTiers.write, MemTiers.markDirty_mem]
  exact Mem.wf_write h

end Sys2Proof.Machine
end

