-- ==== Sys2Proof/Laws/Keeps.lean ====
section
/-!
SUPPORT. What every operation of the block keeps: `Keeps`, and how it passes through conditionals, pairs and folds. One lemma per
operation, in the files `Laws/Keeps<n>.lean`, says that the operation keeps it; `exec_keeps` says so of every command.
-/
namespace Sys2Proof.Machine
open Sys2Proof

/-- What every operation of the block keeps: the queue, what has been sent, the draws made, and the canonical form of memory. -/
structure Keeps (s t : State) : Prop where
  pending : t.pending = s.pending
  out : s.out <:+ t.out
  free : s.free ≤ t.free
  mem : s.mem.mem.wf = true → t.mem.mem.wf = true

theorem Keeps.refl (s : State) : Keeps s s := ⟨rfl, List.suffix_rfl, Nat.le_refl _, id⟩

theorem Keeps.trans {s t u : State} (h : Keeps s t) (k : Keeps t u) : Keeps s u :=
  ⟨k.pending.trans h.pending, h.out.trans k.out, Nat.le_trans h.free k.free, fun w => k.mem (h.mem w)⟩

theorem Keeps.of_eq {s a b : State} (e : a = b) (h : Keeps s a) : Keeps s b := e ▸ h

theorem Keeps.upd {s x : State} {clk : Clock} {m : MemTiers} {mbx : Mailbox} {host : HostIf} {traf : Traffic} {time : TimeUnit}
    {plates : Plates} {flt : Faults} {fab : Fabric} {rad : Radio} {core : Cores} {dev : Device} {det : Det} (h : Keeps s x)
    (hm : m.mem = x.mem.mem) :
    Keeps s (State.mk x.pending x.free x.out clk m mbx host traf time plates flt fab rad core dev det) :=
  ⟨h.pending, h.out, h.free, fun w => (congrArg Mem.wf hm).trans (h.mem w)⟩

theorem Keeps.ite0 {s a b : State} {c : Prop} [Decidable c] (ha : Keeps s a) (hb : Keeps s b) : Keeps s (if c then a else b) := by
  split <;> assumption

theorem Keeps.ite1 {α : Type} {s : State} {a b : α × State} {c : Prop} [Decidable c] (ha : Keeps s a.2) (hb : Keeps s b.2) :
    Keeps s (if c then a else b).2 := by split <;> assumption

theorem Keeps.ite2 {α β : Type} {s : State} {a b : α × β × State} {c : Prop} [Decidable c] (ha : Keeps s a.2.2)
    (hb : Keeps s b.2.2) : Keeps s (if c then a else b).2.2 := by split <;> assumption

theorem Keeps.ite3 {α β γ : Type} {s : State} {a b : α × β × γ × State} {c : Prop} [Decidable c] (ha : Keeps s a.2.2.2)
    (hb : Keeps s b.2.2.2) : Keeps s (if c then a else b).2.2.2 := by split <;> assumption

theorem Keeps.iteN {s : State} {a b : Host.Outcome State Fault Refusal} {c : Prop} [Decidable c]
    (ha : ∃ t, a = .next t ∧ Keeps s t) (hb : ∃ t, b = .next t ∧ Keeps s t) :
    ∃ t, (if c then a else b) = .next t ∧ Keeps s t := by split <;> assumption

theorem Keeps.foldl0 {β : Type} {s x : State} {f : State → β → State} {l : List β} (hf : ∀ y b, Keeps s y → Keeps s (f y b))
    (h : Keeps s x) : Keeps s (l.foldl f x) := by
  induction l generalizing x with
  | nil => exact h
  | cons b r ih => exact ih (hf _ _ h)

theorem Keeps.foldl1 {α β : Type} {s : State} {x : α × State} {f : α × State → β → α × State} {l : List β}
    (hf : ∀ y b, Keeps s y.2 → Keeps s (f y b).2) (h : Keeps s x.2) : Keeps s (l.foldl f x).2 := by
  induction l generalizing x with
  | nil => exact h
  | cons b r ih => exact ih (hf _ _ h)

theorem Keeps.foldl2 {α γ β : Type} {s : State} {x : α × γ × State} {f : α × γ × State → β → α × γ × State} {l : List β}
    (hf : ∀ y b, Keeps s y.2.2 → Keeps s (f y b).2.2) (h : Keeps s x.2.2) : Keeps s (l.foldl f x).2.2 := by
  induction l generalizing x with
  | nil => exact h
  | cons b r ih => exact ih (hf _ _ h)

theorem Keeps.foldl3 {α γ δ β : Type} {s : State} {x : α × γ × δ × State} {f : α × γ × δ × State → β → α × γ × δ × State}
    {l : List β} (hf : ∀ y b, Keeps s y.2.2.2 → Keeps s (f y b).2.2.2) (h : Keeps s x.2.2.2) :
    Keeps s (l.foldl f x).2.2.2 := by
  induction l generalizing x with
  | nil => exact h
  | cons b r ih => exact ih (hf _ _ h)

theorem Keeps.iteO {α : Type} {a b : Option α} {P : α → Prop} {c : Prop} [Decidable c] (ha : ∀ t, a = some t → P t)
    (hb : ∀ t, b = some t → P t) : ∀ t, (if c then a else b) = some t → P t := by split <;> assumption

theorem Keeps.mk1 {α : Type} {s b : State} {a : α} (h : Keeps s b) : Keeps s (a, b).2 := h

theorem Keeps.mk2 {α β : Type} {s : State} {a : α} {p : β × State} (h : Keeps s p.2) : Keeps s (a, p).2.2 := h

theorem Keeps.mk3 {α β γ : Type} {s : State} {a : α} {p : β × γ × State} (h : Keeps s p.2.2) : Keeps s (a, p).2.2.2 := h

/-- `Keeps` of the state a pair carries. -/
def Keeps1 {α : Type} (s : State) (p : α × State) : Prop := Keeps s p.2

/-- `Keeps` of the state a triple carries. -/
def Keeps2 {α β : Type} (s : State) (p : α × β × State) : Prop := Keeps s p.2.2

/-- `Keeps` of the state a quadruple carries. -/
def Keeps3 {α β γ : Type} (s : State) (p : α × β × γ × State) : Prop := Keeps s p.2.2.2

theorem Keeps.of1 {α : Type} {s : State} {p : α × State} (h : Keeps1 s p) : Keeps s p.2 := h

theorem Keeps.of2 {α β : Type} {s : State} {p : α × β × State} (h : Keeps2 s p) : Keeps s p.2.2 := h

theorem Keeps.of3 {α β γ : Type} {s : State} {p : α × β × γ × State} (h : Keeps3 s p) : Keeps s p.2.2.2 := h

theorem Keeps1.of {α : Type} {s : State} {p : α × State} (h : Keeps s p.2) : Keeps1 s p := h

theorem Keeps2.of {α β : Type} {s : State} {p : α × β × State} (h : Keeps s p.2.2) : Keeps2 s p := h

theorem Keeps3.of {α β γ : Type} {s : State} {p : α × β × γ × State} (h : Keeps s p.2.2.2) : Keeps3 s p := h

theorem Keeps1.mk {α : Type} {s b : State} {a : α} (h : Keeps s b) : Keeps1 s (a, b) := h

theorem Keeps2.mk {α β : Type} {s : State} {a : α} {p : β × State} (h : Keeps1 s p) : Keeps2 s (a, p) := h

theorem Keeps3.mk {α β γ : Type} {s : State} {a : α} {p : β × γ × State} (h : Keeps2 s p) : Keeps3 s (a, p) := h

theorem Keeps1.ite {α : Type} {s : State} {a b : α × State} {c : Prop} [Decidable c] (ha : Keeps1 s a) (hb : Keeps1 s b) :
    Keeps1 s (if c then a else b) := by split <;> assumption

theorem Keeps2.ite {α β : Type} {s : State} {a b : α × β × State} {c : Prop} [Decidable c] (ha : Keeps2 s a)
    (hb : Keeps2 s b) : Keeps2 s (if c then a else b) := by split <;> assumption

theorem Keeps3.ite {α β γ : Type} {s : State} {a b : α × β × γ × State} {c : Prop} [Decidable c] (ha : Keeps3 s a)
    (hb : Keeps3 s b) : Keeps3 s (if c then a else b) := by split <;> assumption

theorem Keeps.id0 {s x : State} (h : Keeps s x) : Keeps s (id x) := h

end Sys2Proof.Machine
end

