-- ==== Sys2Proof/Laws/Keeps01.lean ====
section
/-!
SUPPORT. What every operation keeps (`Keeps`), operation by operation: Ops, Memory, Queues, Mailbox, RadioOps.
-/
namespace Sys2Proof.Machine
open Sys2Proof

/-! ### Ops -/

theorem State.draw_keeps (s0 : State) (x0) (h : Keeps s0 x0) : Keeps s0 (State.draw x0).2 :=
  ⟨h.pending, h.out, Nat.le_trans h.free (Nat.le_succ _), h.mem⟩

theorem State.drawBytes_keeps (s0 : State) (x0) (x1) (h : Keeps s0 x1) : Keeps s0 (State.drawBytes x0 x1).2 :=
  ⟨h.pending, h.out, Nat.le_trans h.free (Nat.le_succ _), h.mem⟩

theorem emit_keeps (s0 : State) (x0) (x1) (h : Keeps s0 x1) : Keeps s0 (emit x0 x1) :=
  ⟨h.pending, h.out.trans (List.suffix_cons _ _), h.free, h.mem⟩

theorem emitAll_keeps (s0 : State) (x0) (x1) (h : Keeps s0 x1) : Keeps s0 (emitAll x0 x1) :=
  ⟨h.pending, h.out.trans (List.suffix_append _ _), h.free, h.mem⟩

theorem updRec_keeps (s0 : State) (x0) (x1) (h : Keeps s0 x1) : Keeps s0 (updRec x0 x1) := by
  unfold updRec
  refine Keeps.upd ?_ rfl
  with_reducible assumption

theorem updDry_keeps (s0 : State) (x0) (x1) (h : Keeps s0 x1) : Keeps s0 (updDry x0 x1) := by
  unfold updDry
  refine Keeps.upd ?_ rfl
  with_reducible assumption

theorem dryTriggerAt_keeps (s0 : State) (x0) (x1) (x2) (h : Keeps s0 x2) : Keeps s0 (dryTriggerAt x0 x1 x2) := by
  unfold dryTriggerAt
  refine Keeps.ite0 ?_ ?_
  · with_reducible assumption
  · refine Keeps.ite0 ?_ ?_
    · refine updDry_keeps _ _ _ ?_
      with_reducible assumption
    · refine updDry_keeps _ _ _ ?_
      with_reducible assumption

theorem dryEvent_keeps (s0 : State) (x0) (x1) (h : Keeps s0 x1) : Keeps s0 (dryEvent x0 x1) := by
  unfold dryEvent
  refine dryTriggerAt_keeps _ _ _ _ ?_
  with_reducible assumption

theorem healthCount_keeps (s0 : State) (x0) (x1) (x2) (h : Keeps s0 x2) : Keeps s0 (healthCount x0 x1 x2) := by
  unfold healthCount
  refine Keeps.upd ?_ rfl
  with_reducible assumption

theorem tagFor_keeps (s0 : State) (x0) (x1) (h : Keeps s0 x0) : Keeps s0 ((tagFor x0 x1).2) := by
  unfold tagFor
  refine Keeps.of1 ?_
  refine Keeps1.ite ?_ ?_
  · refine Keeps1.mk ?_
    with_reducible assumption
  · refine Keeps1.of ?_
    refine State.drawBytes_keeps _ _ _ ?_
    with_reducible assumption

theorem sendMgmt_keeps (s0 : State) (x0) (x1) (h : Keeps s0 x1) : Keeps s0 (sendMgmt x0 x1) := by
  unfold sendMgmt
  refine emitAll_keeps _ _ _ ?_
  with_reducible assumption

theorem sendLease_keeps (s0 : State) (x0) (x1) (h : Keeps s0 x1) : Keeps s0 (sendLease x0 x1) := by
  unfold sendLease
  refine sendMgmt_keeps _ _ _ ?_
  refine tagFor_keeps _ _ _ ?_
  with_reducible assumption

theorem sendEvent_keeps (s0 : State) (x0) (x1) (x2) (x3) (x4) (h : Keeps s0 x4) : Keeps s0 (sendEvent x0 x1 x2 x3 x4) := by
  unfold sendEvent
  refine sendLease_keeps _ _ _ ?_
  refine dryEvent_keeps _ _ _ ?_
  refine Keeps.upd ?_ rfl
  with_reducible assumption

theorem faultEvent_keeps (s0 : State) (x0) (x1) (x2) (h : Keeps s0 x2) : Keeps s0 (faultEvent x0 x1 x2) := by
  unfold faultEvent
  refine Keeps.ite0 ?_ ?_
  · refine sendEvent_keeps _ _ _ _ _ _ ?_
    with_reducible assumption
  · refine Keeps.upd ?_ rfl
    with_reducible assumption

theorem logUncorrectable_keeps (s0 : State) (x0) (x1) (x2) (h : Keeps s0 x2) : Keeps s0 (logUncorrectable x0 x1 x2) := by
  unfold logUncorrectable
  refine Keeps.ite0 ?_ ?_
  · refine healthCount_keeps _ _ _ _ ?_
    with_reducible assumption
  · refine faultEvent_keeps _ _ _ _ ?_
    refine dryEvent_keeps _ _ _ ?_
    refine Keeps.upd ?_ rfl
    refine healthCount_keeps _ _ _ _ ?_
    with_reducible assumption

theorem stall_keeps (s0 : State) (x0) (x1) (x2) (x3) (h : Keeps s0 x3) : Keeps s0 (stall x0 x1 x2 x3) := by
  unfold stall
  refine Keeps.ite0 ?_ ?_
  · with_reducible assumption
  · refine Keeps.upd ?_ rfl
    with_reducible assumption

theorem accountWord_keeps (s0 : State) (x0) (x1) (x2) (x3) (h : Keeps s0 x3) : Keeps s0 (accountWord x0 x1 x2 x3) := by
  unfold accountWord
  refine Keeps.ite0 ?_ ?_
  · refine Keeps.ite0 ?_ ?_
    · refine healthCount_keeps _ _ _ _ ?_
      refine Keeps.upd ?_ rfl
      with_reducible assumption
    · refine Keeps.upd ?_ rfl
      with_reducible assumption
  · refine Keeps.ite0 ?_ ?_
    · refine logUncorrectable_keeps _ _ _ _ ?_
      refine Keeps.ite0 ?_ ?_
      · refine Keeps.upd ?_ rfl
        with_reducible assumption
      · with_reducible assumption
    · with_reducible assumption

theorem checkWord_keeps (s0 : State) (x0) (x1) (x2) (h : Keeps s0 x1) : Keeps s0 (checkWord x0 x1 x2) := by
  unfold checkWord
  extract_lets o s1
  have h1 : Keeps s0 s1 := accountWord_keeps _ _ _ _ _ h
  refine Keeps.ite0 ⟨h1.pending, h1.out, h1.free, fun w => ?_⟩ h1
  exact Mem.wf_setDiff (h1.mem w)

theorem checkRange_keeps (s0 : State) (x0) (x1) (x2) (x3) (h : Keeps s0 x3) : Keeps s0 (checkRange x0 x1 x2 x3) := by
  unfold checkRange
  refine Keeps.foldl0 ?_ ?_
  · intro v0 v0_b v0_h
    refine checkWord_keeps _ _ _ _ ?_
    with_reducible assumption
  · with_reducible assumption

theorem readWords_keeps (s0 : State) (x0) (x1) (x2) (h : Keeps s0 x2) : Keeps s0 (readWords x0 x1 x2).2 := by
  unfold readWords
  refine Keeps.of1 ?_
  refine Keeps1.mk ?_
  refine Keeps.foldl0 ?_ ?_
  · intro v1 v1_b v1_h
    refine checkWord_keeps _ _ _ _ ?_
    with_reducible assumption
  · with_reducible assumption

theorem memRead_keeps (s0 : State) (x0) (x1) (x2) (x3) (h : Keeps s0 x3) : Keeps s0 (memRead x0 x1 x2 x3).2 := by
  unfold memRead
  refine Keeps.of1 ?_
  refine Keeps1.mk ?_
  refine stall_keeps _ _ _ _ _ ?_
  refine readWords_keeps _ _ _ _ ?_
  with_reducible assumption

theorem checkEdges_keeps (s0 : State) (x0) (x1) (x2) (h : Keeps s0 x2) : Keeps s0 (checkEdges x0 x1 x2) := by
  unfold checkEdges
  refine Keeps.foldl0 ?_ ?_
  · intro v0 v0_b v0_h
    refine checkWord_keeps _ _ _ _ ?_
    with_reducible assumption
  · with_reducible assumption

theorem memWrite_keeps (s0 : State) (x0) (x1) (x2) (h : Keeps s0 x2) : Keeps s0 (memWrite x0 x1 x2) := by
  unfold memWrite
  extract_lets s1
  have h1 : Keeps s0 s1 := checkEdges_keeps _ _ _ _ h
  exact ⟨h1.pending, h1.out, h1.free, fun w => MemTiers.wf_write (h1.mem w)⟩

theorem memWriteFor_keeps (s0 : State) (x0) (x1) (x2) (x3) (h : Keeps s0 x3) : Keeps s0 (memWriteFor x0 x1 x2 x3) := by
  unfold memWriteFor
  refine memWrite_keeps _ _ _ _ ?_
  refine stall_keeps _ _ _ _ _ ?_
  with_reducible assumption

theorem memPoison_keeps (s0 : State) (x0) (x1) (x2) (h : Keeps s0 x2) : Keeps s0 (memPoison x0 x1 x2) :=
  ⟨h.pending, h.out, h.free, fun w => by
    simp only [memPoison, MemTiers.markDirty_mem]; exact Mem.wf_poison (h.mem w)⟩

theorem memWriteP_keeps (s0 : State) (x0) (x1) (x2) (x3) (h : Keeps s0 x3) : Keeps s0 (memWriteP x0 x1 x2 x3) := by
  unfold memWriteP
  refine Keeps.ite0 ?_ ?_
  · refine memPoison_keeps _ _ _ _ ?_
    refine memWrite_keeps _ _ _ _ ?_
    with_reducible assumption
  · refine memWrite_keeps _ _ _ _ ?_
    with_reducible assumption

theorem ringWrite_keeps (s0 : State) (x0) (x1) (x2) (x3) (x4) (h : Keeps s0 x4) : Keeps s0 (ringWrite x0 x1 x2 x3 x4) := by
  unfold ringWrite
  refine memWrite_keeps _ _ _ _ ?_
  refine memWrite_keeps _ _ _ _ ?_
  with_reducible assumption

theorem putRecord_keeps (s0 : State) (x0) (x1) (x2) (h : Keeps s0 x2) : Keeps s0 (putRecord x0 x1 x2) := by
  unfold putRecord
  refine Keeps.ite0 ?_ ?_
  · refine updRec_keeps _ _ _ ?_
    refine updRec_keeps _ _ _ ?_
    with_reducible assumption
  · refine updRec_keeps _ _ _ ?_
    refine Keeps.foldl0 ?_ ?_
    · intro v396_0 v396_1 v396_2
      refine memPoison_keeps _ _ _ _ ?_
      with_reducible assumption
    · refine ringWrite_keeps _ _ _ _ _ _ ?_
      refine updRec_keeps _ _ _ ?_
      with_reducible assumption

theorem capture_keeps (s0 : State) (x0) (x1) (x2) (x3) (x4) (x5) (x6) (x7) (x8) (h : Keeps s0 x8) : Keeps s0 (capture x0 x1 x2 x3 x4 x5 x6 x7 x8) := by
  unfold capture
  refine Keeps.ite0 ?_ ?_
  · with_reducible assumption
  · refine Keeps.ite0 ?_ ?_
    · refine putRecord_keeps _ _ _ _ ?_
      refine Keeps.ite0 ?_ ?_
      · with_reducible assumption
      · refine updRec_keeps _ _ _ ?_
        refine putRecord_keeps _ _ _ _ ?_
        with_reducible assumption
    · refine updRec_keeps _ _ _ ?_
      with_reducible assumption

theorem deviceData_keeps (s0 : State) (x0) (x1) (x2) (x3) (h : Keeps s0 x0) : Keeps s0 (((deviceData x0 x1 x2 x3).2).2) := by
  unfold deviceData
  refine Keeps.of2 ?_
  refine Keeps2.ite ?_ ?_
  · refine Keeps2.mk ?_
    refine Keeps1.mk ?_
    with_reducible assumption
  · refine Keeps2.mk ?_
    refine Keeps1.mk ?_
    refine memRead_keeps _ _ _ _ _ ?_
    with_reducible assumption

theorem State.setFn_keeps (s0 : State) (x0) (x1) (x2) (h : Keeps s0 x0) : Keeps s0 (State.setFn x0 x1 x2) := by
  unfold State.setFn
  refine Keeps.upd ?_ rfl
  with_reducible assumption

theorem hifCount_keeps (s0 : State) (x0) (x1) (h : Keeps s0 x1) : Keeps s0 (hifCount x0 x1) := by
  unfold hifCount
  refine Keeps.upd ?_ rfl
  with_reducible assumption

theorem hostWrite_keeps (s0 : State) (x0) (x1) (x2) (x3) (x4) (h : Keeps s0 x4) : Keeps s0 (hostWrite x0 x1 x2 x3 x4) := by
  unfold hostWrite
  refine Keeps.ite0 ?_ ?_
  · with_reducible assumption
  · refine emitAll_keeps _ _ _ ?_
    with_reducible assumption

theorem askTranslation_keeps (s0 : State) (x0) (x1) (x2) (h : Keeps s0 x2) : Keeps s0 (askTranslation x0 x1 x2) := by
  unfold askTranslation
  refine Keeps.ite0 ?_ ?_
  · with_reducible assumption
  · refine emit_keeps _ _ _ ?_
    refine Keeps.upd ?_ rfl
    with_reducible assumption

theorem hostAsk_keeps (s0 : State) (x0) (x1) (x2) (x3) (h : Keeps s0 x3) : Keeps s0 (hostAsk x0 x1 x2 x3) := by
  unfold hostAsk
  split
  · refine emit_keeps _ _ _ ?_
    with_reducible assumption
  · refine emit_keeps _ _ _ ?_
    with_reducible assumption

theorem queueWrite_keeps (s0 : State) (x0) (x1) (x2) (x3) (x4) (h : Keeps s0 x4) : Keeps s0 (queueWrite x0 x1 x2 x3 x4) := by
  unfold queueWrite
  refine Keeps.ite0 ?_ ?_
  · refine hostWrite_keeps _ _ _ _ _ _ ?_
    with_reducible assumption
  · refine Keeps.ite0 ?_ ?_
    · with_reducible assumption
    · refine Keeps.foldl0 ?_ ?_
      · intro v1 v1_b v1_h
        split
        · refine emitAll_keeps _ _ _ ?_
          with_reducible assumption
        · with_reducible assumption
      · with_reducible assumption

theorem putMessage_keeps (s0 : State) (x0) (x1) (h : Keeps s0 x1) : Keeps s0 (putMessage x0 x1) := by
  unfold putMessage
  split
  · refine hifCount_keeps _ _ _ ?_
    refine emit_keeps _ _ _ ?_
    refine Keeps.upd ?_ rfl
    with_reducible assumption
  · refine emit_keeps _ _ _ ?_
    refine Keeps.upd ?_ rfl
    with_reducible assumption

theorem sendMessage_keeps (s0 : State) (x0) (x1) (h : Keeps s0 x1) : Keeps s0 (sendMessage x0 x1) := by
  unfold sendMessage
  refine Keeps.ite0 ?_ ?_
  · refine putMessage_keeps _ _ _ ?_
    with_reducible assumption
  · refine Keeps.upd ?_ rfl
    with_reducible assumption

theorem releaseMessages_keeps (s0 : State) (x0) (x1) (h : Keeps s0 x1) : Keeps s0 (releaseMessages x0 x1) := by
  induction x0 generalizing x1 with
  | zero => exact h
  | succ n ih =>
    unfold releaseMessages
    split
    · exact h
    · refine ih _ (putMessage_keeps _ _ _ ?_)
      exact Keeps.upd h rfl

theorem releaseDue_keeps (s0 : State) (x0) (h : Keeps s0 x0) : Keeps s0 (releaseDue x0) := by
  unfold releaseDue
  refine Keeps.ite0 ?_ ?_
  · with_reducible assumption
  · refine releaseMessages_keeps _ _ _ ?_
    with_reducible assumption

theorem State.idle_keeps (s0 : State) (x0) (h : Keeps s0 x0) : Keeps s0 (State.idle x0) := by
  unfold State.idle
  refine Keeps.ite0 ?_ ?_
  · with_reducible assumption
  · refine releaseDue_keeps _ _ ?_
    refine Keeps.upd ?_ rfl
    with_reducible assumption

theorem State.setVec_keeps (s0 : State) (x0) (x1) (x2) (x3) (h : Keeps s0 x0) : Keeps s0 (State.setVec x0 x1 x2 x3) := by
  unfold State.setVec
  refine Keeps.upd ?_ rfl
  with_reducible assumption

theorem raiseVector_keeps (s0 : State) (x0) (x1) (x2) (h : Keeps s0 x2) : Keeps s0 (raiseVector x0 x1 x2) := by
  unfold raiseVector
  refine Keeps.ite0 ?_ ?_
  · with_reducible assumption
  · refine Keeps.ite0 ?_ ?_
    · refine State.setVec_keeps _ _ _ _ _ ?_
      with_reducible assumption
    · refine sendMessage_keeps _ _ _ ?_
      with_reducible assumption

theorem raiseFnErr_keeps (s0 : State) (x0) (x1) (x2) (h : Keeps s0 x2) : Keeps s0 (raiseFnErr x0 x1 x2) := by
  unfold raiseFnErr
  refine raiseVector_keeps _ _ _ _ ?_
  refine State.setFn_keeps _ _ _ _ ?_
  with_reducible assumption

theorem dmaError_keeps (s0 : State) (x0) (x1) (x2) (h : Keeps s0 x2) : Keeps s0 (dmaError x0 x1 x2) := by
  unfold dmaError
  refine emit_keeps _ _ _ ?_
  refine raiseFnErr_keeps _ _ _ _ ?_
  with_reducible assumption

theorem State.setRing_keeps (s0 : State) (x0) (x1) (x2) (h : Keeps s0 x0) : Keeps s0 (State.setRing x0 x1 x2) := by
  unfold State.setRing
  refine Keeps.upd ?_ rfl
  with_reducible assumption

theorem completeFn_keeps (s0 : State) (x0) (x1) (x2) (x3) (x4) (h : Keeps s0 x4) : Keeps s0 (completeFn x0 x1 x2 x3 x4) := by
  unfold completeFn
  refine Keeps.ite0 ?_ ?_
  · refine raiseVector_keeps _ _ _ _ ?_
    refine State.setRing_keeps _ _ _ _ ?_
    refine Keeps.ite0 ?_ ?_
    · refine Keeps.ite0 ?_ ?_
      · with_reducible assumption
      · refine hostWrite_keeps _ _ _ _ _ _ ?_
        with_reducible assumption
    · refine sendMessage_keeps _ _ _ ?_
      refine Keeps.ite0 ?_ ?_
      · with_reducible assumption
      · refine hostWrite_keeps _ _ _ _ _ _ ?_
        with_reducible assumption
  · refine State.setRing_keeps _ _ _ _ ?_
    refine Keeps.ite0 ?_ ?_
    · refine Keeps.ite0 ?_ ?_
      · with_reducible assumption
      · refine hostWrite_keeps _ _ _ _ _ _ ?_
        with_reducible assumption
    · refine sendMessage_keeps _ _ _ ?_
      refine Keeps.ite0 ?_ ?_
      · with_reducible assumption
      · refine hostWrite_keeps _ _ _ _ _ _ ?_
        with_reducible assumption

theorem completeMgmt_keeps (s0 : State) (x0) (x1) (x2) (x3) (h : Keeps s0 x3) : Keeps s0 (completeMgmt x0 x1 x2 x3) := by
  unfold completeMgmt
  refine Keeps.upd ?_ rfl
  refine sendMgmt_keeps _ _ _ ?_
  refine tagFor_keeps _ _ _ ?_
  with_reducible assumption

theorem completeSilent_keeps (s0 : State) (x0) (x1) (x2) (x3) (h : Keeps s0 x3) : Keeps s0 (completeSilent x0 x1 x2 x3) := by
  unfold completeSilent
  refine Keeps.ite0 ?_ ?_
  · refine State.setRing_keeps _ _ _ _ ?_
    refine Keeps.upd ?_ rfl
    with_reducible assumption
  · refine Keeps.upd ?_ rfl
    refine Keeps.upd ?_ rfl
    with_reducible assumption

theorem completeSlot_keeps (s0 : State) (x0) (x1) (x2) (x3) (x4) (h : Keeps s0 x4) : Keeps s0 (completeSlot x0 x1 x2 x3 x4) := by
  unfold completeSlot
  refine Keeps.ite0 ?_ ?_
  · split
    · refine Keeps.ite0 ?_ ?_
      · refine completeSilent_keeps _ _ _ _ _ ?_
        with_reducible assumption
      · refine completeFn_keeps _ _ _ _ _ _ ?_
        with_reducible assumption
    · with_reducible assumption
  · split
    · refine Keeps.ite0 ?_ ?_
      · refine completeSilent_keeps _ _ _ _ _ ?_
        with_reducible assumption
      · refine completeMgmt_keeps _ _ _ _ _ ?_
        with_reducible assumption
    · with_reducible assumption

theorem beginCmd_keeps (s0 : State) (x0) (x1) (h : Keeps s0 x1) : Keeps s0 (beginCmd x0 x1) := by
  unfold beginCmd
  refine Keeps.ite0 ?_ ?_
  · refine Keeps.ite0 ?_ ?_
    · with_reducible assumption
    · refine State.setRing_keeps _ _ _ _ ?_
      with_reducible assumption
  · refine Keeps.ite0 ?_ ?_
    · with_reducible assumption
    · refine Keeps.upd ?_ rfl
      with_reducible assumption

theorem complete_keeps (s0 : State) (x0) (x1) (x2) (x3) (h : Keeps s0 x3) : Keeps s0 (complete x0 x1 x2 x3) := by
  unfold complete
  refine completeSlot_keeps _ _ _ _ _ _ ?_
  refine beginCmd_keeps _ _ _ ?_
  with_reducible assumption

theorem captureCommand_keeps (s0 : State) (x0) (x1) (x2) (x3) (x4) (h : Keeps s0 x4) : Keeps s0 (captureCommand x0 x1 x2 x3 x4) := by
  unfold captureCommand
  refine Keeps.ite0 ?_ ?_
  · refine capture_keeps _ _ _ _ _ _ _ _ _ _ ?_
    with_reducible assumption
  · with_reducible assumption

theorem admitCmd_keeps (s0 : State) (x0) (x1) (x2) (x3) (h : Keeps s0 x3) : Keeps s0 ((admitCmd x0 x1 x2 x3).2) := by
  unfold admitCmd
  refine Keeps.of1 ?_
  refine Keeps1.ite ?_ ?_
  · refine Keeps1.mk ?_
    refine beginCmd_keeps _ _ _ ?_
    with_reducible assumption
  · refine Keeps1.ite ?_ ?_
    · refine Keeps1.mk ?_
      refine beginCmd_keeps _ _ _ ?_
      with_reducible assumption
    · refine Keeps1.mk ?_
      refine captureCommand_keeps _ _ _ _ _ _ ?_
      refine beginCmd_keeps _ _ _ ?_
      with_reducible assumption

theorem runCmd_keeps (s0 : State) (x0) (x1) (x2) (x3 : Sys2Proof.Machine.State → Nat × Sys2Proof.Machine.Result × Sys2Proof.Machine.State) (x4) (h : Keeps s0 x4) (hx3 : ∀ y0, Keeps s0 y0 → Keeps s0 (((x3 y0).2).2)) : ∃ t, runCmd x0 x1 x2 x3 x4 = .next t ∧ Keeps s0 t := by
  unfold runCmd
  refine Keeps.iteN ?_ ?_
  · refine ⟨_, rfl, ?_⟩
    refine complete_keeps _ _ _ _ _ ?_
    refine admitCmd_keeps _ _ _ _ _ ?_
    with_reducible assumption
  · refine ⟨_, rfl, ?_⟩
    refine complete_keeps _ _ _ _ _ ?_
    refine hx3 _ ?_
    refine admitCmd_keeps _ _ _ _ _ ?_
    with_reducible assumption

theorem refuse_keeps (s0 : State) (x0) (x1) (h : Keeps s0 x1) : Keeps s0 (((refuse x0 x1).2).2) := by
  unfold refuse
  with_reducible assumption

theorem done_keeps (s0 : State) (x0) (h : Keeps s0 x0) : Keeps s0 (((done x0).2).2) := by
  unfold done
  with_reducible assumption

theorem runCmdW_keeps (s0 : State) (x0) (x1) (x2) (x3 : Sys2Proof.Machine.State → Option (Nat × Sys2Proof.Machine.Result) × Sys2Proof.Machine.State) (x4) (h : Keeps s0 x4) (hx3 : ∀ y0, Keeps s0 y0 → Keeps s0 ((x3 y0).2)) : ∃ t, runCmdW x0 x1 x2 x3 x4 = .next t ∧ Keeps s0 t := by
  unfold runCmdW
  refine Keeps.iteN ?_ ?_
  · refine ⟨_, rfl, ?_⟩
    refine complete_keeps _ _ _ _ _ ?_
    refine admitCmd_keeps _ _ _ _ _ ?_
    with_reducible assumption
  · split
    · refine ⟨_, rfl, ?_⟩
      refine complete_keeps _ _ _ _ _ ?_
      (rename_i hq; refine Keeps.of_eq (congrArg (fun z => z.2) hq) ?_)
      refine hx3 _ ?_
      refine admitCmd_keeps _ _ _ _ _ ?_
      with_reducible assumption
    · refine ⟨_, rfl, ?_⟩
      (rename_i hq; refine Keeps.of_eq (congrArg (fun z => z.2) hq) ?_)
      refine hx3 _ ?_
      refine admitCmd_keeps _ _ _ _ _ ?_
      with_reducible assumption

theorem writeOut_keeps (s0 : State) (x0) (x1) (x2) (x3) (h : Keeps s0 x3) : Keeps s0 (((writeOut x0 x1 x2 x3).2).2) := by
  unfold writeOut
  refine Keeps.of2 ?_
  refine Keeps2.ite ?_ ?_
  · refine Keeps2.mk ?_
    refine Keeps1.mk ?_
    refine hostWrite_keeps _ _ _ _ _ _ ?_
    with_reducible assumption
  · refine Keeps2.mk ?_
    refine Keeps1.mk ?_
    with_reducible assumption

theorem State.setQueue_keeps (s0 : State) (x0) (x1) (x2) (h : Keeps s0 x0) : Keeps s0 (State.setQueue x0 x1 x2) := by
  unfold State.setQueue
  refine Keeps.upd ?_ rfl
  with_reducible assumption

theorem postRecord_keeps (s0 : State) (x0) (x1) (x2) (h : Keeps s0 x2) : Keeps s0 ((postRecord x0 x1 x2).2) := by
  unfold postRecord
  refine Keeps.of1 ?_
  refine Keeps1.ite ?_ ?_
  · refine Keeps1.mk ?_
    refine State.setQueue_keeps _ _ _ _ ?_
    with_reducible assumption
  · refine Keeps1.mk ?_
    with_reducible assumption

/-! ### Memory -/

theorem Mem.wf_clear {m : Mem} {a n : Nat} (h : m.wf = true) : (m.clear a n).wf = true := by
  simp only [Mem.wf, Mem.clear, Bool.and_eq_true] at h ⊢
  exact ⟨Tab.wf_filter h.1, Tab.wf_filter h.2⟩

theorem memClear_keeps (s0 : State) (x0) (x1) (x2) (h : Keeps s0 x2) : Keeps s0 (memClear x0 x1 x2) :=
  ⟨h.pending, h.out, h.free, fun w => Mem.wf_clear (h.mem w)⟩

theorem State.setQuota_keeps (s0 : State) (x0) (x1) (x2) (x3) (h : Keeps s0 x0) : Keeps s0 (State.setQuota x0 x1 x2 x3) := by
  unfold State.setQuota
  refine Keeps.upd ?_ rfl
  with_reducible assumption

theorem charge_keeps (s0 : State) (x0) (x1) (x2) (x3) (h : Keeps s0 x3) : Keeps s0 (charge x0 x1 x2 x3) := by
  unfold charge
  refine State.setQuota_keeps _ _ _ _ _ ?_
  with_reducible assumption

theorem uncharge_keeps (s0 : State) (x0) (x1) (x2) (x3) (h : Keeps s0 x3) : Keeps s0 (uncharge x0 x1 x2 x3) := by
  unfold uncharge
  refine State.setQuota_keeps _ _ _ _ _ ?_
  with_reducible assumption

theorem execMemQuotaSet_keeps (s0 : State) (x0) (x1) (h : Keeps s0 x1) : ∃ t, execMemQuotaSet x0 x1 = .next t ∧ Keeps s0 t := by
  unfold execMemQuotaSet
  refine runCmd_keeps _ _ _ _ _ _ ?_ ?_
  · with_reducible assumption
  · intro v78_0 v78_1
    refine Keeps.of2 ?_
    refine Keeps2.ite ?_ ?_
    · refine Keeps2.of ?_
      refine refuse_keeps _ _ _ ?_
      with_reducible assumption
    · refine Keeps2.ite ?_ ?_
      · refine Keeps2.of ?_
        refine refuse_keeps _ _ _ ?_
        with_reducible assumption
      · refine Keeps2.of ?_
        refine done_keeps _ _ ?_
        refine State.setQuota_keeps _ _ _ _ _ ?_
        with_reducible assumption

theorem ownFrames_keeps (s0 : State) (x0) (x1) (x2) (x3) (h : Keeps s0 x3) : Keeps s0 (ownFrames x0 x1 x2 x3) := by
  unfold ownFrames
  refine Keeps.foldl0 ?_ ?_
  · intro v398_0 v398_1 v398_2
    refine Keeps.ite0 ?_ ?_
    · with_reducible assumption
    · refine Keeps.upd ?_ rfl
      with_reducible assumption
  · with_reducible assumption

theorem execMemAlloc_keeps (s0 : State) (x0) (x1) (h : Keeps s0 x1) : ∃ t, execMemAlloc x0 x1 = .next t ∧ Keeps s0 t := by
  unfold execMemAlloc
  refine runCmdW_keeps _ _ _ _ _ _ ?_ ?_
  · with_reducible assumption
  · intro v78_0 v78_1
    refine Keeps.of1 ?_
    refine Keeps1.ite ?_ ?_
    · refine Keeps1.mk ?_
      with_reducible assumption
    · refine Keeps1.ite ?_ ?_
      · refine Keeps1.mk ?_
        with_reducible assumption
      · split
        · refine Keeps1.mk ?_
          refine Keeps.upd ?_ rfl
          refine charge_keeps _ _ _ _ _ ?_
          refine ownFrames_keeps _ _ _ _ _ ?_
          with_reducible assumption
        · split
          · refine Keeps1.mk ?_
            with_reducible assumption
          · refine Keeps1.mk ?_
            refine Keeps.upd ?_ rfl
            refine Keeps.upd ?_ rfl
            refine charge_keeps _ _ _ _ _ ?_
            refine ownFrames_keeps _ _ _ _ _ ?_
            with_reducible assumption

theorem freeRange_keeps (s0 : State) (x0) (x1) (h : Keeps s0 x1) : Keeps s0 (freeRange x0 x1) := by
  unfold freeRange
  refine ownFrames_keeps _ _ _ _ _ ?_
  refine memClear_keeps _ _ _ _ ?_
  with_reducible assumption

theorem execMemFree_keeps (s0 : State) (x0) (x1) (h : Keeps s0 x1) : ∃ t, execMemFree x0 x1 = .next t ∧ Keeps s0 t := by
  unfold execMemFree
  refine runCmd_keeps _ _ _ _ _ _ ?_ ?_
  · with_reducible assumption
  · intro v78_0 v78_1
    refine Keeps.of2 ?_
    split
    · refine Keeps2.of ?_
      refine refuse_keeps _ _ _ ?_
      with_reducible assumption
    · refine Keeps2.ite ?_ ?_
      · refine Keeps2.of ?_
        refine refuse_keeps _ _ _ ?_
        with_reducible assumption
      · refine Keeps2.of ?_
        refine done_keeps _ _ ?_
        refine uncharge_keeps _ _ _ _ _ ?_
        refine Keeps.upd ?_ rfl
        refine freeRange_keeps _ _ _ ?_
        with_reducible assumption

theorem execMemLend_keeps (s0 : State) (x0) (x1) (h : Keeps s0 x1) : ∃ t, execMemLend x0 x1 = .next t ∧ Keeps s0 t := by
  unfold execMemLend
  refine runCmd_keeps _ _ _ _ _ _ ?_ ?_
  · with_reducible assumption
  · intro v78_0 v78_1
    refine Keeps.of2 ?_
    refine Keeps2.ite ?_ ?_
    · refine Keeps2.of ?_
      refine refuse_keeps _ _ _ ?_
      with_reducible assumption
    · refine Keeps2.ite ?_ ?_
      · refine Keeps2.of ?_
        refine refuse_keeps _ _ _ ?_
        with_reducible assumption
      · refine Keeps2.of ?_
        refine done_keeps _ _ ?_
        refine ownFrames_keeps _ _ _ _ _ ?_
        with_reducible assumption

theorem execMemQuery_keeps (s0 : State) (x0) (x1) (h : Keeps s0 x1) : ∃ t, execMemQuery x0 x1 = .next t ∧ Keeps s0 t := by
  unfold execMemQuery
  refine runCmd_keeps _ _ _ _ _ _ ?_ ?_
  · with_reducible assumption
  · intro v78_0 v78_1
    refine Keeps.of2 ?_
    refine Keeps2.ite ?_ ?_
    · refine Keeps2.of ?_
      refine refuse_keeps _ _ _ ?_
      with_reducible assumption
    · refine Keeps2.mk ?_
      refine Keeps1.mk ?_
      with_reducible assumption

theorem scrubWord_keeps (s0 : State) (x0) (x1) (x2) (h : Keeps s0 x1) : Keeps s0 (scrubWord x0 x1 x2) := by
  unfold scrubWord
  extract_lets d s1
  have h1 : Keeps s0 s1 := checkWord_keeps _ _ _ _ h
  exact Keeps.ite0 ⟨h1.pending, h1.out, h1.free, fun w => Mem.wf_setDiff (Mem.wf_setBytes (h1.mem w))⟩ h1

theorem execRefreshSlot_keeps (s0 : State) (x0) (x1) (h : Keeps s0 x1) : ∃ t, execRefreshSlot x0 x1 = .next t ∧ Keeps s0 t := by
  unfold execRefreshSlot
  refine Keeps.iteN ?_ ?_
  · refine ⟨_, rfl, ?_⟩
    with_reducible assumption
  · refine ⟨_, rfl, ?_⟩
    refine Keeps.foldl0 ?_ ?_
    · intro v3 v3_b v3_h
      refine Keeps.upd ?_ rfl
      refine Keeps.foldl0 ?_ ?_
      · intro v4 v4_b v4_h
        refine scrubWord_keeps _ _ _ _ ?_
        with_reducible assumption
      · with_reducible assumption
    · with_reducible assumption

theorem execSramScrub_keeps (s0 : State) (x0) (x1) (h : Keeps s0 x1) : ∃ t, execSramScrub x0 x1 = .next t ∧ Keeps s0 t := by
  unfold execSramScrub
  refine Keeps.iteN ?_ ?_
  · refine ⟨_, rfl, ?_⟩
    refine scrubWord_keeps _ _ _ _ ?_
    with_reducible assumption
  · refine ⟨_, rfl, ?_⟩
    with_reducible assumption

theorem finishAllocs_keeps (s0 : State) (x0) (h : Keeps s0 x0) : Keeps s0 (finishAllocs x0) := by
  unfold finishAllocs
  refine Keeps.foldl0 ?_ ?_
  · intro v398_0 v398_1 v398_2
    refine completeSlot_keeps _ _ _ _ _ _ ?_
    with_reducible assumption
  · refine Keeps.upd ?_ rfl
    with_reducible assumption

theorem execScrubFrameDone_keeps (s0 : State) (x0) (x1) (h : Keeps s0 x1) : ∃ t, execScrubFrameDone x0 x1 = .next t ∧ Keeps s0 t := by
  unfold execScrubFrameDone
  refine Keeps.iteN ?_ ?_
  · refine ⟨_, rfl, ?_⟩
    with_reducible assumption
  · refine ⟨_, rfl, ?_⟩
    refine finishAllocs_keeps _ _ ?_
    refine Keeps.upd ?_ rfl
    refine Keeps.upd ?_ rfl
    refine memClear_keeps _ _ _ _ ?_
    with_reducible assumption

/-! ### Queues -/

theorem State.setClass_keeps (s0 : State) (x0) (x1) (x2) (h : Keeps s0 x0) : Keeps s0 (State.setClass x0 x1 x2) := by
  unfold State.setClass
  refine Keeps.upd ?_ rfl
  with_reducible assumption

theorem State.setPolicer_keeps (s0 : State) (x0) (x1) (x2) (h : Keeps s0 x0) : Keeps s0 (State.setPolicer x0 x1 x2) := by
  unfold State.setPolicer
  refine Keeps.upd ?_ rfl
  with_reducible assumption

theorem tagEgress_keeps (s0 : State) (x0) (x1) (h : Keeps s0 x1) : Keeps s0 (tagEgress x0 x1) := by
  unfold tagEgress
  refine Keeps.upd ?_ rfl
  with_reducible assumption

theorem signalQueue_keeps (s0 : State) (x0) (x1) (h : Keeps s0 x1) : Keeps s0 (signalQueue x0 x1) := by
  unfold signalQueue
  refine Keeps.ite0 ?_ ?_
  · refine State.setQueue_keeps _ _ _ _ ?_
    with_reducible assumption
  · refine raiseVector_keeps _ _ _ _ ?_
    refine State.setQueue_keeps _ _ _ _ ?_
    with_reducible assumption

theorem countUnsignalled_keeps (s0 : State) (x0) (x1) (x2) (h : Keeps s0 x2) : Keeps s0 (countUnsignalled x0 x1 x2) := by
  unfold countUnsignalled
  refine Keeps.ite0 ?_ ?_
  · refine signalQueue_keeps _ _ _ ?_
    refine State.setQueue_keeps _ _ _ _ ?_
    with_reducible assumption
  · refine State.setQueue_keeps _ _ _ _ ?_
    with_reducible assumption

theorem writeIndex_keeps (s0 : State) (x0) (x1) (h : Keeps s0 x1) : Keeps s0 (writeIndex x0 x1) := by
  unfold writeIndex
  refine Keeps.ite0 ?_ ?_
  · refine askTranslation_keeps _ _ _ _ ?_
    refine State.setQueue_keeps _ _ _ _ ?_
    with_reducible assumption
  · refine queueWrite_keeps _ _ _ _ _ _ ?_
    refine Keeps.ite0 ?_ ?_
    · refine State.setQueue_keeps _ _ _ _ ?_
      with_reducible assumption
    · with_reducible assumption

theorem atsFault_keeps (s0 : State) (x0) (x1) (h : Keeps s0 x1) : Keeps s0 (atsFault x0 x1) := by
  unfold atsFault
  refine hifCount_keeps _ _ _ ?_
  refine raiseFnErr_keeps _ _ _ _ ?_
  with_reducible assumption

theorem writeRecord_keeps (s0 : State) (x0) (x1) (x2) (h : Keeps s0 x2) : Keeps s0 (writeRecord x0 x1 x2) := by
  unfold writeRecord
  refine countUnsignalled_keeps _ _ _ _ ?_
  refine writeIndex_keeps _ _ _ ?_
  refine State.setQueue_keeps _ _ _ _ ?_
  refine Keeps.ite0 ?_ ?_
  · refine dmaError_keeps _ _ _ _ ?_
    refine hifCount_keeps _ _ _ ?_
    refine queueWrite_keeps _ _ _ _ _ _ ?_
    refine State.drawBytes_keeps _ _ _ ?_
    refine Keeps.ite0 ?_ ?_
    · with_reducible assumption
    · refine queueWrite_keeps _ _ _ _ _ _ ?_
      with_reducible assumption
  · refine queueWrite_keeps _ _ _ _ _ _ ?_
    refine State.drawBytes_keeps _ _ _ ?_
    refine Keeps.ite0 ?_ ?_
    · with_reducible assumption
    · refine queueWrite_keeps _ _ _ _ _ _ ?_
      with_reducible assumption

theorem countRecordDrop_keeps (s0 : State) (x0) (x1) (h : Keeps s0 x1) : Keeps s0 (countRecordDrop x0 x1) := by
  unfold countRecordDrop
  split
  · refine Keeps.upd ?_ rfl
    with_reducible assumption
  · refine Keeps.upd ?_ rfl
    with_reducible assumption
  · refine Keeps.upd ?_ rfl
    with_reducible assumption
  · refine Keeps.upd ?_ rfl
    with_reducible assumption

theorem askRecord_keeps (s0 : State) (x0) (x1) (h : Keeps s0 x1) : Keeps s0 (askRecord x0 x1) := by
  unfold askRecord
  extract_lets
  split
  · refine askTranslation_keeps _ _ _ _ ?_
    with_reducible assumption
  · with_reducible assumption

theorem serveHead_keeps (s0 : State) (x0) (x1) (h : Keeps s0 x1) : Keeps s0 (serveHead x0 x1).2 := by
  unfold serveHead
  refine Keeps.of1 ?_
  extract_lets
  split
  · refine Keeps1.ite ?_ ?_
    · refine Keeps1.mk ?_
      refine countRecordDrop_keeps _ _ _ ?_
      refine atsFault_keeps _ _ _ ?_
      refine State.setQueue_keeps _ _ _ _ ?_
      with_reducible assumption
    · refine Keeps1.ite ?_ ?_
      · refine Keeps1.mk ?_
        refine writeRecord_keeps _ _ _ _ ?_
        refine State.setQueue_keeps _ _ _ _ ?_
        with_reducible assumption
      · refine Keeps1.mk ?_
        refine countRecordDrop_keeps _ _ _ ?_
        refine State.setQueue_keeps _ _ _ _ ?_
        with_reducible assumption
  · split
    · refine Keeps1.mk ?_
      with_reducible assumption
    · refine Keeps1.mk ?_
      refine State.setQueue_keeps _ _ _ _ ?_
      with_reducible assumption

theorem moveTime_keeps (s0 : State) (x0) (x1) (h : Keeps s0 x1) : Keeps s0 (moveTime x0 x1) := by
  unfold moveTime
  refine Keeps.upd ?_ rfl
  with_reducible assumption

theorem chargeQueue_keeps (s0 : State) (x0) (x1) (x2) (h : Keeps s0 x2) : Keeps s0 (chargeQueue x0 x1 x2) := by
  unfold chargeQueue
  refine Keeps.ite0 ?_ ?_
  · refine Keeps.upd ?_ rfl
    refine State.setQueue_keeps _ _ _ _ ?_
    with_reducible assumption
  · refine Keeps.ite0 ?_ ?_
    · refine State.setClass_keeps _ _ _ _ ?_
      refine Keeps.upd ?_ rfl
      refine State.setQueue_keeps _ _ _ _ ?_
      with_reducible assumption
    · refine Keeps.upd ?_ rfl
      refine State.setQueue_keeps _ _ _ _ ?_
      with_reducible assumption

theorem passQueue_keeps (s0 : State) (x0) (x1) (h : Keeps s0 x1) : Keeps s0 (passQueue x0 x1) := by
  unfold passQueue
  refine moveTime_keeps _ _ _ ?_
  refine State.setQueue_keeps _ _ _ _ ?_
  with_reducible assumption

theorem takeEntry_keeps (s0 : State) (x0) (x1) (x2) (h : Keeps s0 x2) : Keeps s0 (takeEntry x0 x1 x2) := by
  unfold takeEntry
  refine Keeps.ite0 ?_ ?_
  · refine Keeps.ite0 ?_ ?_
    · refine chargeQueue_keeps _ _ _ _ ?_
      refine serveHead_keeps _ _ _ ?_
      with_reducible assumption
    · refine passQueue_keeps _ _ _ ?_
      refine serveHead_keeps _ _ _ ?_
      with_reducible assumption
  · split
    · with_reducible assumption
    · refine passQueue_keeps _ _ _ ?_
      refine State.setQueue_keeps _ _ _ _ ?_
      with_reducible assumption

theorem endEntries_keeps (s0 : State) (x0) (x1) (x2) (h : Keeps s0 x2) : Keeps s0 (endEntries x0 x1 x2) := by
  unfold endEntries
  refine Keeps.foldl0 ?_ ?_
  · intro v398_0 v398_1 v398_2
    refine Keeps.ite0 ?_ ?_
    · refine State.setQueue_keeps _ _ _ _ ?_
      with_reducible assumption
    · with_reducible assumption
  · with_reducible assumption

theorem atDecision_keeps (s0 : State) (x0) (x1) (h : Keeps s0 x1) : Keeps s0 (atDecision x0 x1) := by
  unfold atDecision
  refine Keeps.upd ?_ rfl
  refine tagEgress_keeps _ _ _ ?_
  refine Keeps.foldl0 ?_ ?_
  · intro v2 v2_b v2_h
    refine Keeps.ite0 ?_ ?_
    · refine askRecord_keeps _ _ _ ?_
      with_reducible assumption
    · with_reducible assumption
  · with_reducible assumption

theorem execShaperRefill_keeps (s0 : State) (x0) (h : Keeps s0 x0) : ∃ t, execShaperRefill x0 = .next t ∧ Keeps s0 t := by
  unfold execShaperRefill
  refine Keeps.iteN ?_ ?_
  · refine ⟨_, rfl, ?_⟩
    with_reducible assumption
  · refine ⟨_, rfl, ?_⟩
    refine Keeps.upd ?_ rfl
    refine Keeps.upd ?_ rfl
    with_reducible assumption

theorem execQBind_keeps (s0 : State) (x0) (x1) (h : Keeps s0 x1) : ∃ t, execQBind x0 x1 = .next t ∧ Keeps s0 t := by
  unfold execQBind
  refine runCmd_keeps _ _ _ _ _ _ ?_ ?_
  · with_reducible assumption
  · intro v3_0 v3_1
    refine Keeps.of2 ?_
    refine Keeps2.ite ?_ ?_
    · refine Keeps2.of ?_
      refine refuse_keeps _ _ _ ?_
      with_reducible assumption
    · refine Keeps2.ite ?_ ?_
      · refine Keeps2.ite ?_ ?_
        · refine Keeps2.of ?_
          refine refuse_keeps _ _ _ ?_
          with_reducible assumption
        · refine Keeps2.mk ?_
          refine Keeps1.mk ?_
          refine State.setQueue_keeps _ _ _ _ ?_
          with_reducible assumption
      · refine Keeps2.ite ?_ ?_
        · refine Keeps2.mk ?_
          refine Keeps1.mk ?_
          refine State.setQueue_keeps _ _ _ _ ?_
          with_reducible assumption
        · refine Keeps2.ite ?_ ?_
          · refine Keeps2.ite ?_ ?_
            · refine Keeps2.of ?_
              refine refuse_keeps _ _ _ ?_
              with_reducible assumption
            · refine Keeps2.mk ?_
              refine Keeps1.mk ?_
              refine State.setQueue_keeps _ _ _ _ ?_
              with_reducible assumption
          · refine Keeps2.mk ?_
            refine Keeps1.mk ?_
            refine State.setQueue_keeps _ _ _ _ ?_
            with_reducible assumption

theorem execQUnbind_keeps (s0 : State) (x0) (x1) (h : Keeps s0 x1) : ∃ t, execQUnbind x0 x1 = .next t ∧ Keeps s0 t := by
  unfold execQUnbind
  refine runCmd_keeps _ _ _ _ _ _ ?_ ?_
  · with_reducible assumption
  · intro v78_0 v78_1
    refine Keeps.of2 ?_
    refine Keeps2.ite ?_ ?_
    · refine Keeps2.of ?_
      refine refuse_keeps _ _ _ ?_
      with_reducible assumption
    · refine Keeps2.ite ?_ ?_
      · refine Keeps2.of ?_
        refine refuse_keeps _ _ _ ?_
        with_reducible assumption
      · refine Keeps2.of ?_
        refine done_keeps _ _ ?_
        refine State.setQueue_keeps _ _ _ _ ?_
        with_reducible assumption

theorem execQShaperSet_keeps (s0 : State) (x0) (x1) (h : Keeps s0 x1) : ∃ t, execQShaperSet x0 x1 = .next t ∧ Keeps s0 t := by
  unfold execQShaperSet
  refine runCmd_keeps _ _ _ _ _ _ ?_ ?_
  · with_reducible assumption
  · intro v78_0 v78_1
    refine Keeps.of2 ?_
    refine Keeps2.ite ?_ ?_
    · refine Keeps2.of ?_
      refine refuse_keeps _ _ _ ?_
      with_reducible assumption
    · refine Keeps2.mk ?_
      refine Keeps1.mk ?_
      refine State.setQueue_keeps _ _ _ _ ?_
      with_reducible assumption

theorem execQClassSet_keeps (s0 : State) (x0) (x1) (h : Keeps s0 x1) : ∃ t, execQClassSet x0 x1 = .next t ∧ Keeps s0 t := by
  unfold execQClassSet
  refine runCmd_keeps _ _ _ _ _ _ ?_ ?_
  · with_reducible assumption
  · intro v78_0 v78_1
    refine Keeps.of2 ?_
    refine Keeps2.ite ?_ ?_
    · refine Keeps2.of ?_
      refine refuse_keeps _ _ _ ?_
      with_reducible assumption
    · refine Keeps2.ite ?_ ?_
      · refine Keeps2.of ?_
        refine refuse_keeps _ _ _ ?_
        with_reducible assumption
      · refine Keeps2.mk ?_
        refine Keeps1.mk ?_
        refine State.setClass_keeps _ _ _ _ ?_
        with_reducible assumption

theorem execStippleConfig_keeps (s0 : State) (x0) (x1) (h : Keeps s0 x1) : ∃ t, execStippleConfig x0 x1 = .next t ∧ Keeps s0 t := by
  unfold execStippleConfig
  refine runCmd_keeps _ _ _ _ _ _ ?_ ?_
  · with_reducible assumption
  · intro v78_0 v78_1
    refine Keeps.of2 ?_
    refine Keeps2.ite ?_ ?_
    · refine Keeps2.of ?_
      refine refuse_keeps _ _ _ ?_
      with_reducible assumption
    · refine Keeps2.of ?_
      refine done_keeps _ _ ?_
      refine Keeps.upd ?_ rfl
      with_reducible assumption

theorem execStippleSample_keeps (s0 : State) (x0) (h : Keeps s0 x0) : ∃ t, execStippleSample x0 = .next t ∧ Keeps s0 t := by
  unfold execStippleSample
  refine Keeps.iteN ?_ ?_
  · refine ⟨_, rfl, ?_⟩
    with_reducible assumption
  · refine Keeps.iteN ?_ ?_
    · refine ⟨_, rfl, ?_⟩
      refine Keeps.upd ?_ rfl
      with_reducible assumption
    · refine ⟨_, rfl, ?_⟩
      refine Keeps.upd ?_ rfl
      refine memWrite_keeps _ _ _ _ ?_
      refine memWrite_keeps _ _ _ _ ?_
      with_reducible assumption

theorem execQQuery_keeps (s0 : State) (x0) (x1) (h : Keeps s0 x1) : ∃ t, execQQuery x0 x1 = .next t ∧ Keeps s0 t := by
  unfold execQQuery
  refine runCmd_keeps _ _ _ _ _ _ ?_ ?_
  · with_reducible assumption
  · intro v78_0 v78_1
    refine Keeps.of2 ?_
    refine Keeps2.ite ?_ ?_
    · refine Keeps2.of ?_
      refine refuse_keeps _ _ _ ?_
      with_reducible assumption
    · refine Keeps2.mk ?_
      refine Keeps1.mk ?_
      with_reducible assumption

theorem execQRingSet_keeps (s0 : State) (x0) (x1) (h : Keeps s0 x1) : ∃ t, execQRingSet x0 x1 = .next t ∧ Keeps s0 t := by
  unfold execQRingSet
  refine runCmd_keeps _ _ _ _ _ _ ?_ ?_
  · with_reducible assumption
  · intro v78_0 v78_1
    refine Keeps.of2 ?_
    refine Keeps2.ite ?_ ?_
    · refine Keeps2.of ?_
      refine refuse_keeps _ _ _ ?_
      with_reducible assumption
    · refine Keeps2.ite ?_ ?_
      · refine Keeps2.of ?_
        refine refuse_keeps _ _ _ ?_
        with_reducible assumption
      · refine Keeps2.of ?_
        refine done_keeps _ _ ?_
        refine State.setQueue_keeps _ _ _ _ ?_
        with_reducible assumption

theorem execPolicerSet_keeps (s0 : State) (x0) (x1) (h : Keeps s0 x1) : ∃ t, execPolicerSet x0 x1 = .next t ∧ Keeps s0 t := by
  unfold execPolicerSet
  refine runCmd_keeps _ _ _ _ _ _ ?_ ?_
  · with_reducible assumption
  · intro v78_0 v78_1
    refine Keeps.of2 ?_
    refine Keeps2.ite ?_ ?_
    · refine Keeps2.of ?_
      refine refuse_keeps _ _ _ ?_
      with_reducible assumption
    · refine Keeps2.mk ?_
      refine Keeps1.mk ?_
      refine State.setPolicer_keeps _ _ _ _ ?_
      with_reducible assumption

/-! ### Mailbox -/

theorem barWrite_keeps (s0 : State) (x0) (x1 : Sys2Proof.Machine.State → Sys2Proof.Machine.State) (x2) (h : Keeps s0 x2) (hx1 : ∀ y0, Keeps s0 y0 → Keeps s0 (x1 y0)) : Keeps s0 (barWrite x0 x1 x2) := by
  unfold barWrite
  split
  · refine emit_keeps _ _ _ ?_
    with_reducible assumption
  · with_reducible assumption
  · refine hx1 _ ?_
    with_reducible assumption

theorem execBadWidthAccess_keeps (s0 : State) (x0) (x1) (x2) (h : Keeps s0 x2) : ∃ t, execBadWidthAccess x0 x1 x2 = .next t ∧ Keeps s0 t := by
  unfold execBadWidthAccess
  split
  · (dsimp only; split)
    · refine ⟨_, rfl, ?_⟩
      refine emit_keeps _ _ _ ?_
      with_reducible assumption
    · refine ⟨_, rfl, ?_⟩
      refine emit_keeps _ _ _ ?_
      with_reducible assumption
    · refine ⟨_, rfl, ?_⟩
      refine hifCount_keeps _ _ _ ?_
      refine emit_keeps _ _ _ ?_
      with_reducible assumption
  · (dsimp only; split)
    · refine ⟨_, rfl, ?_⟩
      refine emit_keeps _ _ _ ?_
      with_reducible assumption
    · refine ⟨_, rfl, ?_⟩
      with_reducible assumption
    · refine ⟨_, rfl, ?_⟩
      refine hifCount_keeps _ _ _ ?_
      with_reducible assumption

theorem execUnmappedBarAccess_keeps (s0 : State) (x0) (x1) (x2) (x3) (h : Keeps s0 x3) : ∃ t, execUnmappedBarAccess x0 x1 x2 x3 = .next t ∧ Keeps s0 t := by
  unfold execUnmappedBarAccess
  split
  · (dsimp only; split)
    · refine ⟨_, rfl, ?_⟩
      refine emit_keeps _ _ _ ?_
      with_reducible assumption
    · refine ⟨_, rfl, ?_⟩
      refine emit_keeps _ _ _ ?_
      with_reducible assumption
    · refine ⟨_, rfl, ?_⟩
      refine hifCount_keeps _ _ _ ?_
      refine emit_keeps _ _ _ ?_
      with_reducible assumption
  · (dsimp only; split)
    · refine ⟨_, rfl, ?_⟩
      refine emit_keeps _ _ _ ?_
      with_reducible assumption
    · refine ⟨_, rfl, ?_⟩
      with_reducible assumption
    · refine ⟨_, rfl, ?_⟩
      refine hifCount_keeps _ _ _ ?_
      with_reducible assumption

theorem ringError_keeps (s0 : State) (x0) (x1) (h : Keeps s0 x1) : Keeps s0 (ringError x0 x1) := by
  unfold ringError
  refine hifCount_keeps _ _ _ ?_
  refine raiseFnErr_keeps _ _ _ _ ?_
  refine State.setRing_keeps _ _ _ _ ?_
  with_reducible assumption

theorem applyCmdPI_keeps (s0 : State) (x0) (x1) (x2) (h : Keeps s0 x2) : Keeps s0 (applyCmdPI x0 x1 x2) := by
  unfold applyCmdPI
  refine Keeps.ite0 ?_ ?_
  · refine State.setRing_keeps _ _ _ _ ?_
    with_reducible assumption
  · refine ringError_keeps _ _ _ ?_
    with_reducible assumption

theorem writeCmdPI_keeps (s0 : State) (x0) (x1) (x2) (h : Keeps s0 x2) : Keeps s0 (writeCmdPI x0 x1 x2) := by
  unfold writeCmdPI
  refine Keeps.ite0 ?_ ?_
  · refine State.setRing_keeps _ _ _ _ ?_
    with_reducible assumption
  · refine Keeps.ite0 ?_ ?_
    · with_reducible assumption
    · refine applyCmdPI_keeps _ _ _ _ ?_
      with_reducible assumption

theorem writeCplCI_keeps (s0 : State) (x0) (x1) (x2) (h : Keeps s0 x2) : Keeps s0 (writeCplCI x0 x1 x2) := by
  unfold writeCplCI
  refine Keeps.ite0 ?_ ?_
  · refine State.setRing_keeps _ _ _ _ ?_
    with_reducible assumption
  · refine ringError_keeps _ _ _ ?_
    with_reducible assumption

theorem execMbxCmdPiWrite_keeps (s0 : State) (x0) (x1) (x2) (h : Keeps s0 x2) : ∃ t, execMbxCmdPiWrite x0 x1 x2 = .next t ∧ Keeps s0 t := by
  unfold execMbxCmdPiWrite
  refine ⟨_, rfl, ?_⟩
  refine barWrite_keeps _ _ _ _ ?_ ?_
  · with_reducible assumption
  · intro v397_0 v397_1
    refine writeCmdPI_keeps _ _ _ _ ?_
    with_reducible assumption

theorem execMbxCplCiWrite_keeps (s0 : State) (x0) (x1) (x2) (h : Keeps s0 x2) : ∃ t, execMbxCplCiWrite x0 x1 x2 = .next t ∧ Keeps s0 t := by
  unfold execMbxCplCiWrite
  refine ⟨_, rfl, ?_⟩
  refine barWrite_keeps _ _ _ _ ?_ ?_
  · with_reducible assumption
  · intro v397_0 v397_1
    refine writeCplCI_keeps _ _ _ _ ?_
    with_reducible assumption

theorem enableRing_keeps (s0 : State) (x0) (x1) (h : Keeps s0 x1) : Keeps s0 (enableRing x0 x1) := by
  unfold enableRing
  refine Keeps.ite0 ?_ ?_
  · split
    · refine applyCmdPI_keeps _ _ _ _ ?_
      refine State.setRing_keeps _ _ _ _ ?_
      with_reducible assumption
    · refine State.setRing_keeps _ _ _ _ ?_
      with_reducible assumption
  · refine ringError_keeps _ _ _ ?_
    refine State.setRing_keeps _ _ _ _ ?_
    with_reducible assumption

theorem writeMbxCtrl_keeps (s0 : State) (x0) (x1) (x2) (h : Keeps s0 x2) : Keeps s0 (writeMbxCtrl x0 x1 x2) := by
  unfold writeMbxCtrl
  refine Keeps.ite0 ?_ ?_
  · refine State.setRing_keeps _ _ _ _ ?_
    with_reducible assumption
  · refine Keeps.ite0 ?_ ?_
    · with_reducible assumption
    · refine Keeps.ite0 ?_ ?_
      · refine enableRing_keeps _ _ _ ?_
        with_reducible assumption
      · refine State.setRing_keeps _ _ _ _ ?_
        with_reducible assumption

theorem execMbxEnable_keeps (s0 : State) (x0) (x1) (h : Keeps s0 x1) : ∃ t, execMbxEnable x0 x1 = .next t ∧ Keeps s0 t := by
  unfold execMbxEnable
  refine ⟨_, rfl, ?_⟩
  refine barWrite_keeps _ _ _ _ ?_ ?_
  · with_reducible assumption
  · intro v397_0 v397_1
    refine writeMbxCtrl_keeps _ _ _ _ ?_
    with_reducible assumption

theorem execMbxDisable_keeps (s0 : State) (x0) (x1) (h : Keeps s0 x1) : ∃ t, execMbxDisable x0 x1 = .next t ∧ Keeps s0 t := by
  unfold execMbxDisable
  refine ⟨_, rfl, ?_⟩
  refine barWrite_keeps _ _ _ _ ?_ ?_
  · with_reducible assumption
  · intro v397_0 v397_1
    refine writeMbxCtrl_keeps _ _ _ _ ?_
    with_reducible assumption

theorem execMbxDrained_keeps (s0 : State) (x0) (x1) (h : Keeps s0 x1) : ∃ t, execMbxDrained x0 x1 = .next t ∧ Keeps s0 t := by
  unfold execMbxDrained
  refine ⟨_, rfl, ?_⟩
  refine Keeps.ite0 ?_ ?_
  · refine enableRing_keeps _ _ _ ?_
    with_reducible assumption
  · with_reducible assumption

theorem acceptFinish_keeps (s0 : State) (x0) (x1) (x2) (x3) (h : Keeps s0 x3) : Keeps s0 (acceptFinish x0 x1 x2 x3) := by
  unfold acceptFinish
  refine Keeps.ite0 ?_ ?_
  · with_reducible assumption
  · refine completeSlot_keeps _ _ _ _ _ _ ?_
    refine captureCommand_keeps _ _ _ _ _ _ ?_
    with_reducible assumption

theorem acceptFn_keeps (s0 : State) (x0) (x1) (h : Keeps s0 x1) : Keeps s0 (acceptFn x0 x1) := by
  unfold acceptFn
  refine acceptFinish_keeps _ _ _ _ _ ?_
  refine State.setRing_keeps _ _ _ _ ?_
  with_reducible assumption

theorem acceptMgmt_keeps (s0 : State) (x0) (h : Keeps s0 x0) : Keeps s0 (acceptMgmt x0) := by
  unfold acceptMgmt
  split
  · with_reducible assumption
  · refine acceptFinish_keeps _ _ _ _ _ ?_
    refine Keeps.upd ?_ rfl
    with_reducible assumption

theorem execCommandAccept_keeps (s0 : State) (x0) (x1) (h : Keeps s0 x1) : ∃ t, execCommandAccept x0 x1 = .next t ∧ Keeps s0 t := by
  unfold execCommandAccept
  refine Keeps.iteN ?_ ?_
  · refine ⟨_, rfl, ?_⟩
    with_reducible assumption
  · split
    · refine ⟨_, rfl, ?_⟩
      with_reducible assumption
    · refine ⟨_, rfl, ?_⟩
      refine acceptMgmt_keeps _ _ ?_
      refine Keeps.upd ?_ rfl
      with_reducible assumption
    · split
      · refine ⟨_, rfl, ?_⟩
        refine acceptFn_keeps _ _ _ ?_
        refine Keeps.upd ?_ rfl
        with_reducible assumption
      · refine ⟨_, rfl, ?_⟩
        with_reducible assumption

theorem execCommandTimeout_keeps (s0 : State) (x0) (x1) (x2) (h : Keeps s0 x2) : ∃ t, execCommandTimeout x0 x1 x2 = .next t ∧ Keeps s0 t := by
  unfold execCommandTimeout
  refine Keeps.iteN ?_ ?_
  · refine Keeps.iteN ?_ ?_
    · refine ⟨_, rfl, ?_⟩
      refine completeFn_keeps _ _ _ _ _ _ ?_
      refine State.setRing_keeps _ _ _ _ ?_
      with_reducible assumption
    · refine ⟨_, rfl, ?_⟩
      with_reducible assumption
  · split
    · refine ⟨_, rfl, ?_⟩
      with_reducible assumption
    · refine Keeps.iteN ?_ ?_
      · refine ⟨_, rfl, ?_⟩
        refine completeMgmt_keeps _ _ _ _ _ ?_
        refine Keeps.upd ?_ rfl
        with_reducible assumption
      · refine ⟨_, rfl, ?_⟩
        with_reducible assumption

theorem mgmtCount_keeps (s0 : State) (x0) (x1) (h : Keeps s0 x1) : Keeps s0 (mgmtCount x0 x1) := by
  unfold mgmtCount
  refine Keeps.upd ?_ rfl
  with_reducible assumption

theorem execMgmtCommandFrame_keeps (s0 : State) (x0) (x1) (x2) (h : Keeps s0 x2) : ∃ t, execMgmtCommandFrame x0 x1 x2 = .next t ∧ Keeps s0 t := by
  unfold execMgmtCommandFrame
  refine Keeps.iteN ?_ ?_
  · refine ⟨_, rfl, ?_⟩
    refine mgmtCount_keeps _ _ _ ?_
    with_reducible assumption
  · refine Keeps.iteN ?_ ?_
    · refine ⟨_, rfl, ?_⟩
      refine mgmtCount_keeps _ _ _ ?_
      refine Keeps.upd ?_ rfl
      with_reducible assumption
    · split
      · refine ⟨_, rfl, ?_⟩
        refine mgmtCount_keeps _ _ _ ?_
        with_reducible assumption
      · split
        · refine ⟨_, rfl, ?_⟩
          refine mgmtCount_keeps _ _ _ ?_
          with_reducible assumption
        · refine ⟨_, rfl, ?_⟩
          refine mgmtCount_keeps _ _ _ ?_
          refine mgmtCount_keeps _ _ _ ?_
          refine emit_keeps _ _ _ ?_
          with_reducible assumption

/-! ### RadioOps -/

theorem updRad_keeps (s0 : State) (x0) (x1) (h : Keeps s0 x1) : Keeps s0 (updRad x0 x1) := by
  unfold updRad
  refine Keeps.upd ?_ rfl
  with_reducible assumption

theorem updCell_keeps (s0 : State) (x0) (x1) (x2) (h : Keeps s0 x2) : Keeps s0 (updCell x0 x1 x2) := by
  unfold updCell
  refine updRad_keeps _ _ _ ?_
  with_reducible assumption

theorem updFhPort_keeps (s0 : State) (x0) (x1) (x2) (h : Keeps s0 x2) : Keeps s0 (updFhPort x0 x1 x2) := by
  unfold updFhPort
  refine updRad_keeps _ _ _ ?_
  with_reducible assumption

theorem updStream_keeps (s0 : State) (x0) (x1) (x2) (h : Keeps s0 x2) : Keeps s0 (updStream x0 x1 x2) := by
  unfold updStream
  refine updRad_keeps _ _ _ ?_
  with_reducible assumption

theorem portCountBy_keeps (s0 : State) (x0) (x1) (x2) (x3) (h : Keeps s0 x3) : Keeps s0 (portCountBy x0 x1 x2 x3) := by
  unfold portCountBy
  refine updRad_keeps _ _ _ ?_
  with_reducible assumption

theorem portCount_keeps (s0 : State) (x0) (x1) (x2) (h : Keeps s0 x2) : Keeps s0 (portCount x0 x1 x2) := by
  unfold portCount
  refine portCountBy_keeps _ _ _ _ _ ?_
  with_reducible assumption

theorem streamCountBy_keeps (s0 : State) (x0) (x1) (x2) (x3) (h : Keeps s0 x3) : Keeps s0 (streamCountBy x0 x1 x2 x3) := by
  unfold streamCountBy
  refine updRad_keeps _ _ _ ?_
  with_reducible assumption

theorem streamCount_keeps (s0 : State) (x0) (x1) (x2) (h : Keeps s0 x2) : Keeps s0 (streamCount x0 x1 x2) := by
  unfold streamCount
  refine streamCountBy_keeps _ _ _ _ _ ?_
  with_reducible assumption

theorem keepMessage_keeps (s0 : State) (x0) (x1) (x2) (x3) (x4) (h : Keeps s0 x4) : Keeps s0 (keepMessage x0 x1 x2 x3 x4) := by
  unfold keepMessage
  refine updCell_keeps _ _ _ _ ?_
  with_reducible assumption

theorem takeSlotMessage_keeps (s0 : State) (x0) (x1) (x2) (h : Keeps s0 x2) : Keeps s0 (takeSlotMessage x0 x1 x2) := by
  unfold takeSlotMessage
  refine Keeps.ite0 ?_ ?_
  · with_reducible assumption
  · refine Keeps.ite0 ?_ ?_
    · refine Keeps.ite0 ?_ ?_
      · refine keepMessage_keeps _ _ _ _ _ _ ?_
        with_reducible assumption
      · with_reducible assumption
    · refine Keeps.ite0 ?_ ?_
      · refine keepMessage_keeps _ _ _ _ _ _ ?_
        with_reducible assumption
      · refine updCell_keeps _ _ _ _ ?_
        with_reducible assumption

theorem postUplink_keeps (s0 : State) (x0) (x1) (x2) (x3) (h : Keeps s0 x3) : Keeps s0 (postUplink x0 x1 x2 x3) := by
  unfold postUplink
  refine Keeps.ite0 ?_ ?_
  · refine postRecord_keeps _ _ _ _ ?_
    with_reducible assumption
  · refine updCell_keeps _ _ _ _ ?_
    refine postRecord_keeps _ _ _ _ ?_
    with_reducible assumption

theorem flushTurns_keeps (s0 : State) (x0) (x1) (x2) (h : Keeps s0 x2) : Keeps s0 (flushTurns x0 x1 x2) := by
  induction x1 generalizing x2 with
  | zero => exact h
  | succ n ih =>
    unfold flushTurns
    split
    · exact h
    · exact ih _ (postUplink_keeps _ _ _ _ _ (updCell_keeps _ _ _ _ h))

theorem finishSlot_keeps (s0 : State) (x0) (x1) (x2) (h : Keeps s0 x2) : Keeps s0 (finishSlot x0 x1 x2) := by
  unfold finishSlot
  refine updRad_keeps _ _ _ ?_
  refine updCell_keeps _ _ _ _ ?_
  refine Keeps.ite0 ?_ ?_
  · refine postUplink_keeps _ _ _ _ _ ?_
    refine updCell_keeps _ _ _ _ ?_
    refine Keeps.foldl0 ?_ ?_
    · intro v5 v5_b v5_h
      refine postUplink_keeps _ _ _ _ _ ?_
      with_reducible assumption
    · refine updCell_keeps _ _ _ _ ?_
      with_reducible assumption
  · refine Keeps.foldl0 ?_ ?_
    · intro v6 v6_b v6_h
      refine postUplink_keeps _ _ _ _ _ ?_
      with_reducible assumption
    · refine updCell_keeps _ _ _ _ ?_
      with_reducible assumption

theorem settleSlots_keeps (s0 : State) (x0) (x1) (x2) (h : Keeps s0 x2) : Keeps s0 (settleSlots x0 x1 x2) := by
  induction x1 generalizing x2 with
  | zero => exact flushTurns_keeps _ _ _ _ h
  | succ n ih =>
    unfold settleSlots
    extract_lets s1
    have h1 : Keeps s0 s1 := flushTurns_keeps _ _ _ _ h
    split
    · exact h1
    · exact ih _ (finishSlot_keeps _ _ _ _ h1)

theorem settleCell_keeps (s0 : State) (x0) (x1) (h : Keeps s0 x1) : Keeps s0 (settleCell x0 x1) := by
  unfold settleCell
  refine settleSlots_keeps _ _ _ _ ?_
  with_reducible assumption

theorem closeSlot_keeps (s0 : State) (x0) (x1) (x2) (h : Keeps s0 x2) : Keeps s0 (closeSlot x0 x1 x2) := by
  unfold closeSlot
  refine settleSlots_keeps _ _ _ _ ?_
  refine updCell_keeps _ _ _ _ ?_
  with_reducible assumption

theorem deliverUplink_keeps (s0 : State) (x0) (x1) (x2) (h : Keeps s0 x2) : Keeps s0 (deliverUplink x0 x1 x2) := by
  unfold deliverUplink
  refine settleCell_keeps _ _ _ ?_
  refine Keeps.ite0 ?_ ?_
  · with_reducible assumption
  · refine updCell_keeps _ _ _ _ ?_
    with_reducible assumption

theorem clearSoft_keeps (s0 : State) (x0) (x1) (h : Keeps s0 x1) : Keeps s0 (clearSoft x0 x1) := by
  unfold clearSoft
  refine Keeps.foldl0 ?_ ?_
  · intro v398_0 v398_1 v398_2
    refine memWrite_keeps _ _ _ _ ?_
    with_reducible assumption
  · with_reducible assumption

theorem shadowGap_keeps (s0 : State) (x0) (x1) (x2) (h : Keeps s0 x2) : Keeps s0 (shadowGap x0 x1 x2) := by
  unfold shadowGap
  refine Keeps.ite0 ?_ ?_
  · with_reducible assumption
  · refine clearSoft_keeps _ _ _ ?_
    refine updCell_keeps _ _ _ _ ?_
    with_reducible assumption

end Sys2Proof.Machine
end

