-- ==== Sys2Proof/Laws/Keeps02.lean ====
section
/-!
SUPPORT. What every operation keeps (`Keeps`), operation by operation: HostQueues, Time, Groups, Launch, Packets, Cache, FabricOps.
-/
namespace Sys2Proof.Machine
open Sys2Proof

/-! ### HostQueues -/

theorem queueError_keeps (s0 : State) (x0) (x1) (h : Keeps s0 x1) : Keeps s0 (queueError x0 x1) := by
  unfold queueError
  refine dryEvent_keeps _ _ _ ?_
  refine hifCount_keeps _ _ _ ?_
  refine raiseFnErr_keeps _ _ _ _ ?_
  refine writeIndex_keeps _ _ _ ?_
  refine State.setQueue_keeps _ _ _ _ ?_
  with_reducible assumption

theorem execQDoorbell_keeps (s0 : State) (x0) (x1) (x2) (x3) (h : Keeps s0 x3) : ∃ t, execQDoorbell x0 x1 x2 x3 = .next t ∧ Keeps s0 t := by
  unfold execQDoorbell
  refine ⟨_, rfl, ?_⟩
  refine barWrite_keeps _ _ _ _ ?_ ?_
  · with_reducible assumption
  · intro v397_0 v397_1
    refine Keeps.ite0 ?_ ?_
    · refine hifCount_keeps _ _ _ ?_
      refine State.setFn_keeps _ _ _ _ ?_
      with_reducible assumption
    · refine Keeps.ite0 ?_ ?_
      · with_reducible assumption
      · refine Keeps.ite0 ?_ ?_
        · refine Keeps.ite0 ?_ ?_
          · refine State.setQueue_keeps _ _ _ _ ?_
            with_reducible assumption
          · refine queueError_keeps _ _ _ ?_
            with_reducible assumption
        · refine Keeps.ite0 ?_ ?_
          · refine State.setQueue_keeps _ _ _ _ ?_
            with_reducible assumption
          · refine queueError_keeps _ _ _ ?_
            with_reducible assumption

theorem countOversize_keeps (s0 : State) (x0) (x1) (x2) (h : Keeps s0 x2) : Keeps s0 (countOversize x0 x1 x2) := by
  unfold countOversize
  refine Keeps.ite0 ?_ ?_
  · refine portCount_keeps _ _ _ _ ?_
    with_reducible assumption
  · with_reducible assumption

theorem fetchOne_keeps (s0 : State) (x0) (x1) (x2) (h : Keeps s0 x2) : Keeps s0 (fetchOne x0 x1 x2) := by
  unfold fetchOne
  refine Keeps.ite0 ?_ ?_
  · with_reducible assumption
  · split
    · extract_lets
      split
      · refine askTranslation_keeps _ _ _ _ ?_
        refine tagEgress_keeps _ _ _ ?_
        with_reducible assumption
      · refine atsFault_keeps _ _ _ ?_
        refine tagEgress_keeps _ _ _ ?_
        with_reducible assumption
      · refine askTranslation_keeps _ _ _ _ ?_
        refine tagEgress_keeps _ _ _ ?_
        with_reducible assumption
      · refine tagEgress_keeps _ _ _ ?_
        with_reducible assumption
    · extract_lets
      split
      · refine askTranslation_keeps _ _ _ _ ?_
        refine tagEgress_keeps _ _ _ ?_
        with_reducible assumption
      · refine atsFault_keeps _ _ _ ?_
        refine tagEgress_keeps _ _ _ ?_
        with_reducible assumption
      · refine askTranslation_keeps _ _ _ _ ?_
        refine tagEgress_keeps _ _ _ ?_
        with_reducible assumption
      · split
        · refine hifCount_keeps _ _ _ ?_
          refine dmaError_keeps _ _ _ _ ?_
          refine countOversize_keeps _ _ _ _ ?_
          refine Keeps.upd ?_ rfl
          refine State.setQueue_keeps _ _ _ _ ?_
          refine Keeps.ite0 ?_ ?_
          · refine atsFault_keeps _ _ _ ?_
            refine tagEgress_keeps _ _ _ ?_
            with_reducible assumption
          · refine tagEgress_keeps _ _ _ ?_
            with_reducible assumption
        · refine healthCount_keeps _ _ _ _ ?_
          refine hifCount_keeps _ _ _ ?_
          refine dmaError_keeps _ _ _ _ ?_
          refine countOversize_keeps _ _ _ _ ?_
          refine Keeps.upd ?_ rfl
          refine State.setQueue_keeps _ _ _ _ ?_
          refine Keeps.ite0 ?_ ?_
          · refine atsFault_keeps _ _ _ ?_
            refine tagEgress_keeps _ _ _ ?_
            with_reducible assumption
          · refine tagEgress_keeps _ _ _ ?_
            with_reducible assumption
        · refine countOversize_keeps _ _ _ _ ?_
          refine Keeps.upd ?_ rfl
          refine State.setQueue_keeps _ _ _ _ ?_
          refine Keeps.ite0 ?_ ?_
          · refine atsFault_keeps _ _ _ ?_
            refine tagEgress_keeps _ _ _ ?_
            with_reducible assumption
          · refine tagEgress_keeps _ _ _ ?_
            with_reducible assumption

theorem execDescriptorFetch_keeps (s0 : State) (x0) (x1) (x2) (h : Keeps s0 x2) : ∃ t, execDescriptorFetch x0 x1 x2 = .next t ∧ Keeps s0 t := by
  unfold execDescriptorFetch
  refine ⟨_, rfl, ?_⟩
  refine Keeps.foldl0 ?_ ?_
  · intro v397_0 v397_1 v397_2
    refine fetchOne_keeps _ _ _ _ ?_
    with_reducible assumption
  · with_reducible assumption

theorem updDesc_keeps (s0 : State) (x0) (x1) (x2) (x3) (h : Keeps s0 x3) : Keeps s0 (updDesc x0 x1 x2 x3) := by
  unfold updDesc
  refine State.setQueue_keeps _ _ _ _ ?_
  with_reducible assumption

theorem failDesc_keeps (s0 : State) (x0) (x1) (x2) (x3) (h : Keeps s0 x3) : Keeps s0 (failDesc x0 x1 x2 x3) := by
  unfold failDesc
  refine atsFault_keeps _ _ _ ?_
  refine updDesc_keeps _ _ _ _ _ ?_
  with_reducible assumption

theorem stopAt_keeps (s0 : State) (x0) (x1) (x2) (x3) (x4) (h : Keeps s0 x4) : Keeps s0 (stopAt x0 x1 x2 x3 x4) := by
  unfold stopAt
  extract_lets
  split
  · refine askTranslation_keeps _ _ _ _ ?_
    with_reducible assumption
  · refine failDesc_keeps _ _ _ _ _ ?_
    with_reducible assumption
  · with_reducible assumption

theorem askReads_keeps (s0 : State) (x0) (x1) (x2 : Nat → Nat × Nat) (x3) (h : Keeps s0 x3) : Keeps s0 (askReads x0 x1 x2 x3) := by
  unfold askReads
  extract_lets
  split
  · refine Keeps.foldl0 ?_ ?_
    · intro v2 v2_b v2_h
      refine updDesc_keeps _ _ _ _ _ ?_
      refine hostAsk_keeps _ _ _ _ _ ?_
      refine Keeps.upd ?_ rfl
      with_reducible assumption
    · with_reducible assumption
  · refine stopAt_keeps _ _ _ _ _ _ ?_
    refine Keeps.foldl0 ?_ ?_
    · intro v3 v3_b v3_h
      refine updDesc_keeps _ _ _ _ _ ?_
      refine hostAsk_keeps _ _ _ _ _ ?_
      refine Keeps.upd ?_ rfl
      with_reducible assumption
    · with_reducible assumption

theorem execDescToDevice_keeps (s0 : State) (x0) (x1) (x2) (h : Keeps s0 x2) : ∃ t, execDescToDevice x0 x1 x2 = .next t ∧ Keeps s0 t := by
  unfold execDescToDevice
  extract_lets
  split
  · refine ⟨_, rfl, ?_⟩
    with_reducible assumption
  · refine Keeps.iteN ?_ ?_
    · refine ⟨_, rfl, ?_⟩
      with_reducible assumption
    · refine ⟨_, rfl, ?_⟩
      refine askReads_keeps _ _ _ _ _ ?_
      with_reducible assumption

theorem execDescMessage_keeps (s0 : State) (x0) (x1) (x2) (h : Keeps s0 x2) : ∃ t, execDescMessage x0 x1 x2 = .next t ∧ Keeps s0 t := by
  unfold execDescMessage
  extract_lets
  split
  · refine ⟨_, rfl, ?_⟩
    with_reducible assumption
  · refine Keeps.iteN ?_ ?_
    · refine ⟨_, rfl, ?_⟩
      with_reducible assumption
    · refine ⟨_, rfl, ?_⟩
      refine askReads_keeps _ _ _ _ _ ?_
      refine updDesc_keeps _ _ _ _ _ ?_
      with_reducible assumption

theorem execDescToHost_keeps (s0 : State) (x0) (x1) (x2) (h : Keeps s0 x2) : ∃ t, execDescToHost x0 x1 x2 = .next t ∧ Keeps s0 t := by
  unfold execDescToHost
  extract_lets
  split
  · refine ⟨_, rfl, ?_⟩
    with_reducible assumption
  · refine Keeps.iteN ?_ ?_
    · refine ⟨_, rfl, ?_⟩
      with_reducible assumption
    · refine Keeps.iteN ?_ ?_
      · refine ⟨_, rfl, ?_⟩
        refine updDesc_keeps _ _ _ _ _ ?_
        with_reducible assumption
      · extract_lets
        split
        · refine ⟨_, rfl, ?_⟩
          refine updDesc_keeps _ _ _ _ _ ?_
          refine Keeps.ite0 ?_ ?_
          · refine hifCount_keeps _ _ _ ?_
            refine dmaError_keeps _ _ _ _ ?_
            refine Keeps.foldl0 ?_ ?_
            · intro v0 v0_b v0_h
              refine queueWrite_keeps _ _ _ _ _ _ ?_
              with_reducible assumption
            · refine memRead_keeps _ _ _ _ _ ?_
              with_reducible assumption
          · refine Keeps.foldl0 ?_ ?_
            · intro v1 v1_b v1_h
              refine queueWrite_keeps _ _ _ _ _ _ ?_
              with_reducible assumption
            · refine memRead_keeps _ _ _ _ _ ?_
              with_reducible assumption
        · refine ⟨_, rfl, ?_⟩
          refine stopAt_keeps _ _ _ _ _ _ ?_
          refine updDesc_keeps _ _ _ _ _ ?_
          refine Keeps.ite0 ?_ ?_
          · refine hifCount_keeps _ _ _ ?_
            refine dmaError_keeps _ _ _ _ ?_
            refine Keeps.foldl0 ?_ ?_
            · intro v2 v2_b v2_h
              refine queueWrite_keeps _ _ _ _ _ _ ?_
              with_reducible assumption
            · refine memRead_keeps _ _ _ _ _ ?_
              with_reducible assumption
          · refine Keeps.foldl0 ?_ ?_
            · intro v3 v3_b v3_h
              refine queueWrite_keeps _ _ _ _ _ _ ?_
              with_reducible assumption
            · refine memRead_keeps _ _ _ _ _ ?_
              with_reducible assumption

theorem execDescFrame_keeps (s0 : State) (x0) (x1) (x2) (h : Keeps s0 x2) : ∃ t, execDescFrame x0 x1 x2 = .next t ∧ Keeps s0 t := by
  unfold execDescFrame
  (dsimp only; split)
  · refine ⟨_, rfl, ?_⟩
    with_reducible assumption
  · refine Keeps.iteN ?_ ?_
    · refine ⟨_, rfl, ?_⟩
      with_reducible assumption
    · refine ⟨_, rfl, ?_⟩
      refine updDesc_keeps _ _ _ _ _ ?_
      refine Keeps.ite0 ?_ ?_
      · refine portCount_keeps _ _ _ _ ?_
        with_reducible assumption
      · refine portCount_keeps _ _ _ _ ?_
        refine emit_keeps _ _ _ ?_
        with_reducible assumption

theorem execDescriptorComplete_keeps (s0 : State) (x0) (x1) (x2) (h : Keeps s0 x2) : ∃ t, execDescriptorComplete x0 x1 x2 = .next t ∧ Keeps s0 t := by
  unfold execDescriptorComplete
  extract_lets
  split
  · refine ⟨_, rfl, ?_⟩
    with_reducible assumption
  · refine Keeps.iteN ?_ ?_
    · refine ⟨_, rfl, ?_⟩
      with_reducible assumption
    · extract_lets
      split
      · refine ⟨_, rfl, ?_⟩
        refine askTranslation_keeps _ _ _ _ ?_
        with_reducible assumption
      · refine ⟨_, rfl, ?_⟩
        refine countUnsignalled_keeps _ _ _ _ ?_
        refine writeIndex_keeps _ _ _ ?_
        refine State.setQueue_keeps _ _ _ _ ?_
        refine updDesc_keeps _ _ _ _ _ ?_
        refine queueWrite_keeps _ _ _ _ _ _ ?_
        refine Keeps.ite0 ?_ ?_
        · refine atsFault_keeps _ _ _ ?_
          with_reducible assumption
        · with_reducible assumption

theorem execCoalesceTimeout_keeps (s0 : State) (x0) (x1) (h : Keeps s0 x1) : ∃ t, execCoalesceTimeout x0 x1 = .next t ∧ Keeps s0 t := by
  unfold execCoalesceTimeout
  refine Keeps.iteN ?_ ?_
  · refine ⟨_, rfl, ?_⟩
    refine signalQueue_keeps _ _ _ ?_
    with_reducible assumption
  · refine ⟨_, rfl, ?_⟩
    with_reducible assumption

theorem askDueIndices_keeps (s0 : State) (x0) (h : Keeps s0 x0) : Keeps s0 (askDueIndices x0) := by
  unfold askDueIndices
  refine Keeps.foldl0 ?_ ?_
  · intro v4 v4_b v4_h
    refine Keeps.ite0 ?_ ?_
    · refine askTranslation_keeps _ _ _ _ ?_
      with_reducible assumption
    · with_reducible assumption
  · with_reducible assumption

theorem answerInvalidates_keeps (s0 : State) (x0) (h : Keeps s0 x0) : Keeps s0 (answerInvalidates x0) := by
  unfold answerInvalidates
  refine emitAll_keeps _ _ _ ?_
  refine Keeps.upd ?_ rfl
  refine askDueIndices_keeps _ _ ?_
  with_reducible assumption

theorem finishMessage_keeps (s0 : State) (x0) (x1) (x2) (h : Keeps s0 x2) : Keeps s0 (finishMessage x0 x1 x2) := by
  unfold finishMessage
  refine takeSlotMessage_keeps _ _ _ _ ?_
  refine memWrite_keeps _ _ _ _ ?_
  refine memWrite_keeps _ _ _ _ ?_
  with_reducible assumption

theorem landRead_keeps (s0 : State) (x0) (x1) (x2) (h : Keeps s0 x2) : Keeps s0 (landRead x0 x1 x2) := by
  unfold landRead
  split
  · refine memWrite_keeps _ _ _ _ ?_
    refine stall_keeps _ _ _ _ _ ?_
    with_reducible assumption
  · refine Keeps.foldl0 ?_ ?_
    · intro v7 v7_b v7_h
      refine memPoison_keeps _ _ _ _ ?_
      with_reducible assumption
    · refine memWrite_keeps _ _ _ _ ?_
      refine stall_keeps _ _ _ _ _ ?_
      with_reducible assumption
  · refine Keeps.ite0 ?_ ?_
    · refine memPoison_keeps _ _ _ _ ?_
      refine memWrite_keeps _ _ _ _ ?_
      refine stall_keeps _ _ _ _ _ ?_
      with_reducible assumption
    · refine memWrite_keeps _ _ _ _ ?_
      refine stall_keeps _ _ _ _ _ ?_
      with_reducible assumption

theorem captureWrite_keeps (s0 : State) (x0) (x1) (x2) (x3) (x4) (h : Keeps s0 x4) : Keeps s0 (captureWrite x0 x1 x2 x3 x4) := by
  unfold captureWrite
  refine Keeps.ite0 ?_ ?_
  · refine capture_keeps _ _ _ _ _ _ _ _ _ _ ?_
    with_reducible assumption
  · with_reducible assumption

theorem execDmaReadCompletion_keeps (s0 : State) (x0) (x1) (x2) (x3) (x4) (h : Keeps s0 x4) : ∃ t, execDmaReadCompletion x0 x1 x2 x3 x4 = .next t ∧ Keeps s0 t := by
  unfold execDmaReadCompletion
  extract_lets +onlyGivenNames hq
  split
  · exact ⟨_, rfl, h⟩
  · extract_lets +onlyGivenNames src sa reach own s1 s2 st s3 left
    have ha : Keeps s0 sa := Keeps.upd h rfl
    refine Keeps.iteN ⟨_, rfl, answerInvalidates_keeps _ _ ha⟩ ?_
    have h1 : Keeps s0 s1 := Keeps.ite0 (captureWrite_keeps _ _ _ _ _ _ (landRead_keeps _ _ _ _ ha)) ha
    have h2 : Keeps s0 s2 := by
      clear_value s1
      clear left s3
      revert s2
      cases x3 with
      | ok bs => exact h1
      | poisoned bs d => exact healthCount_keeps _ _ _ _ (hifCount_keeps _ _ _ (dmaError_keeps _ _ _ _ h1))
      | failed n => exact healthCount_keeps _ _ _ _ (hifCount_keeps _ _ _ (dmaError_keeps _ _ _ _ h1))
    have h3 : Keeps s0 s3 := updDesc_keeps _ _ _ _ _ h2
    clear_value s3
    split
    · exact ⟨_, rfl, answerInvalidates_keeps _ _ h3⟩
    · refine Keeps.iteN ⟨_, rfl, answerInvalidates_keeps _ _ h3⟩ ⟨_, rfl, ?_⟩
      exact answerInvalidates_keeps _ _ (updDesc_keeps _ _ _ _ _ (Keeps.ite0 (finishMessage_keeps _ _ _ _ h3) h3))

theorem execAtsInvalidate_keeps (s0 : State) (x0) (x1) (x2) (h : Keeps s0 x2) : ∃ t, execAtsInvalidate x0 x1 x2 = .next t ∧ Keeps s0 t := by
  unfold execAtsInvalidate
  refine ⟨_, rfl, ?_⟩
  refine answerInvalidates_keeps _ _ ?_
  refine Keeps.upd ?_ rfl
  with_reducible assumption

theorem failPage_keeps (s0 : State) (x0) (x1) (x2) (x3) (x4) (h : Keeps s0 x4) : Keeps s0 (failPage x0 x1 x2 x3 x4) := by
  unfold failPage
  refine Keeps.foldl0 ?_ ?_
  · intro v8 v8_b v8_h
    refine Keeps.ite0 ?_ ?_
    · refine State.setQueue_keeps _ _ _ _ ?_
      with_reducible assumption
    · with_reducible assumption
  · with_reducible assumption

theorem writeDueIndices_keeps (s0 : State) (x0) (x1) (x2) (h : Keeps s0 x2) : Keeps s0 (writeDueIndices x0 x1 x2) := by
  unfold writeDueIndices
  refine Keeps.foldl0 ?_ ?_
  · intro v9 v9_b v9_h
    refine Keeps.ite0 ?_ ?_
    · refine writeIndex_keeps _ _ _ ?_
      with_reducible assumption
    · with_reducible assumption
  · with_reducible assumption

theorem execAtsTranslationCompletion_keeps (s0 : State) (x0) (x1) (x2) (x3) (x4) (x5) (h : Keeps s0 x5) : ∃ t, execAtsTranslationCompletion x0 x1 x2 x3 x4 x5 = .next t ∧ Keeps s0 t := by
  unfold execAtsTranslationCompletion
  refine Keeps.iteN ?_ ?_
  · refine ⟨_, rfl, ?_⟩
    with_reducible assumption
  · refine ⟨_, rfl, ?_⟩
    refine askDueIndices_keeps _ _ ?_
    refine writeDueIndices_keeps _ _ _ _ ?_
    refine Keeps.ite0 ?_ ?_
    · refine atsFault_keeps _ _ _ ?_
      refine failPage_keeps _ _ _ _ _ _ ?_
      refine Keeps.upd ?_ rfl
      refine Keeps.upd ?_ rfl
      with_reducible assumption
    · refine Keeps.upd ?_ rfl
      refine Keeps.upd ?_ rfl
      with_reducible assumption

theorem execFnConfig_keeps (s0 : State) (x0) (x1) (h : Keeps s0 x1) : ∃ t, execFnConfig x0 x1 = .next t ∧ Keeps s0 t := by
  unfold execFnConfig
  refine runCmd_keeps _ _ _ _ _ _ ?_ ?_
  · with_reducible assumption
  · intro v78_0 v78_1
    refine Keeps.of2 ?_
    refine Keeps2.ite ?_ ?_
    · refine Keeps2.of ?_
      refine refuse_keeps _ _ _ ?_
      with_reducible assumption
    · refine Keeps2.ite ?_ ?_
      · refine Keeps2.of ?_
        refine refuse_keeps _ _ _ ?_
        with_reducible assumption
      · refine Keeps2.ite ?_ ?_
        · refine Keeps2.of ?_
          refine refuse_keeps _ _ _ ?_
          with_reducible assumption
        · refine Keeps2.of ?_
          refine done_keeps _ _ ?_
          refine State.setFn_keeps _ _ _ _ ?_
          with_reducible assumption

theorem execFnShareSet_keeps (s0 : State) (x0) (x1) (h : Keeps s0 x1) : ∃ t, execFnShareSet x0 x1 = .next t ∧ Keeps s0 t := by
  unfold execFnShareSet
  refine runCmd_keeps _ _ _ _ _ _ ?_ ?_
  · with_reducible assumption
  · intro v78_0 v78_1
    refine Keeps.of2 ?_
    refine Keeps2.ite ?_ ?_
    · refine Keeps2.of ?_
      refine refuse_keeps _ _ _ ?_
      refine deviceData_keeps _ _ _ _ _ ?_
      with_reducible assumption
    · refine Keeps2.ite ?_ ?_
      · refine Keeps2.of ?_
        refine refuse_keeps _ _ _ ?_
        refine deviceData_keeps _ _ _ _ _ ?_
        with_reducible assumption
      · refine Keeps2.ite ?_ ?_
        · refine Keeps2.of ?_
          refine refuse_keeps _ _ _ ?_
          refine deviceData_keeps _ _ _ _ _ ?_
          with_reducible assumption
        · refine Keeps2.of ?_
          refine done_keeps _ _ ?_
          refine State.setFn_keeps _ _ _ _ ?_
          refine deviceData_keeps _ _ _ _ _ ?_
          with_reducible assumption

theorem execFnQuery_keeps (s0 : State) (x0) (x1) (h : Keeps s0 x1) : ∃ t, execFnQuery x0 x1 = .next t ∧ Keeps s0 t := by
  unfold execFnQuery
  refine runCmd_keeps _ _ _ _ _ _ ?_ ?_
  · with_reducible assumption
  · intro v78_0 v78_1
    refine Keeps.of2 ?_
    refine Keeps2.ite ?_ ?_
    · refine Keeps2.of ?_
      refine refuse_keeps _ _ _ ?_
      with_reducible assumption
    · refine Keeps2.mk ?_
      refine Keeps1.mk ?_
      with_reducible assumption

/-! ### Time -/

theorem timeCount_keeps (s0 : State) (x0) (x1) (h : Keeps s0 x1) : Keeps s0 (timeCount x0 x1) := by
  unfold timeCount
  refine Keeps.upd ?_ rfl
  with_reducible assumption

theorem State.setServo_keeps (s0 : State) (x0) (x1) (h : Keeps s0 x0) : Keeps s0 (State.setServo x0 x1) := by
  unfold State.setServo
  refine Keeps.upd ?_ rfl
  with_reducible assumption

theorem State.setPtp_keeps (s0 : State) (x0) (x1) (x2) (h : Keeps s0 x0) : Keeps s0 (State.setPtp x0 x1 x2) := by
  unfold State.setPtp
  refine Keeps.upd ?_ rfl
  with_reducible assumption

theorem State.setTout_keeps (s0 : State) (x0) (x1) (x2) (h : Keeps s0 x0) : Keeps s0 (State.setTout x0 x1 x2) := by
  unfold State.setTout
  refine Keeps.upd ?_ rfl
  with_reducible assumption

theorem State.setTin_keeps (s0 : State) (x0) (x1) (x2) (h : Keeps s0 x0) : Keeps s0 (State.setTin x0 x1 x2) := by
  unfold State.setTin
  refine Keeps.upd ?_ rfl
  with_reducible assumption

theorem ptpReceive_keeps (s0 : State) (x0) (x1) (x2) (x3) (x4) (h : Keeps s0 x4) : Keeps s0 (ptpReceive x0 x1 x2 x3 x4) := by
  unfold ptpReceive
  refine Keeps.ite0 ?_ ?_
  · refine timeCount_keeps _ _ _ ?_
    with_reducible assumption
  · refine timeCount_keeps _ _ _ ?_
    refine postRecord_keeps _ _ _ _ ?_
    with_reducible assumption

theorem pushStamp_keeps (s0 : State) (x0) (x1) (x2) (h : Keeps s0 x2) : Keeps s0 (pushStamp x0 x1 x2) := by
  unfold pushStamp
  refine Keeps.ite0 ?_ ?_
  · refine Keeps.upd ?_ rfl
    with_reducible assumption
  · refine timeCount_keeps _ _ _ ?_
    refine Keeps.upd ?_ rfl
    with_reducible assumption

theorem ptpTransmit_keeps (s0 : State) (x0) (x1) (x2) (x3) (h : Keeps s0 x3) : Keeps s0 (ptpTransmit x0 x1 x2 x3) := by
  unfold ptpTransmit
  (dsimp only; split)
  · with_reducible assumption
  · refine Keeps.ite0 ?_ ?_
    · with_reducible assumption
    · refine Keeps.ite0 ?_ ?_
      · refine timeCount_keeps _ _ _ ?_
        refine updDesc_keeps _ _ _ _ _ ?_
        with_reducible assumption
      · refine Keeps.ite0 ?_ ?_
        · refine pushStamp_keeps _ _ _ _ ?_
          refine Keeps.ite0 ?_ ?_
          · refine timeCount_keeps _ _ _ ?_
            refine timeCount_keeps _ _ _ ?_
            refine emit_keeps _ _ _ ?_
            refine State.setPtp_keeps _ _ _ _ ?_
            refine updDesc_keeps _ _ _ _ _ ?_
            with_reducible assumption
          · refine timeCount_keeps _ _ _ ?_
            refine emit_keeps _ _ _ ?_
            refine State.setPtp_keeps _ _ _ _ ?_
            refine updDesc_keeps _ _ _ _ _ ?_
            with_reducible assumption
        · refine Keeps.ite0 ?_ ?_
          · refine timeCount_keeps _ _ _ ?_
            refine timeCount_keeps _ _ _ ?_
            refine emit_keeps _ _ _ ?_
            refine State.setPtp_keeps _ _ _ _ ?_
            refine updDesc_keeps _ _ _ _ _ ?_
            with_reducible assumption
          · refine timeCount_keeps _ _ _ ?_
            refine emit_keeps _ _ _ ?_
            refine State.setPtp_keeps _ _ _ _ ?_
            refine updDesc_keeps _ _ _ _ _ ?_
            with_reducible assumption

theorem execMgmtPtpFrameRx_keeps (s0 : State) (x0) (x1) (x2) (x3) (x4) (h : Keeps s0 x4) : ∃ t, execMgmtPtpFrameRx x0 x1 x2 x3 x4 = .next t ∧ Keeps s0 t := by
  unfold execMgmtPtpFrameRx
  refine Keeps.iteN ?_ ?_
  · refine ⟨_, rfl, ?_⟩
    refine ptpReceive_keeps _ _ _ _ _ _ ?_
    with_reducible assumption
  · refine ⟨_, rfl, ?_⟩
    with_reducible assumption

theorem execMgmtPtpFrameTx_keeps (s0 : State) (x0) (x1) (x2) (x3) (h : Keeps s0 x3) : ∃ t, execMgmtPtpFrameTx x0 x1 x2 x3 = .next t ∧ Keeps s0 t := by
  unfold execMgmtPtpFrameTx
  refine ⟨_, rfl, ?_⟩
  refine ptpTransmit_keeps _ _ _ _ _ ?_
  with_reducible assumption

theorem readOut64_keeps (s0 : State) (x0) (x1) (x2) (x3) (x4) (h : Keeps s0 x4) : Keeps s0 (readOut64 x0 x1 x2 x3 x4) := by
  unfold readOut64
  refine Keeps.ite0 ?_ ?_
  · refine emit_keeps _ _ _ ?_
    with_reducible assumption
  · refine emit_keeps _ _ _ ?_
    refine Keeps.upd ?_ rfl
    with_reducible assumption

theorem execTxtsHeadRead_keeps (s0 : State) (x0) (x1) (x2) (h : Keeps s0 x2) : ∃ t, execTxtsHeadRead x0 x1 x2 = .next t ∧ Keeps s0 t := by
  unfold execTxtsHeadRead
  (dsimp only; split)
  · refine ⟨_, rfl, ?_⟩
    refine readOut64_keeps _ _ _ _ _ _ ?_
    with_reducible assumption
  · refine ⟨_, rfl, ?_⟩
    refine readOut64_keeps _ _ _ _ _ _ ?_
    refine Keeps.upd ?_ rfl
    with_reducible assumption

theorem execTinHeadRead_keeps (s0 : State) (x0) (x1) (x2) (h : Keeps s0 x2) : ∃ t, execTinHeadRead x0 x1 x2 = .next t ∧ Keeps s0 t := by
  unfold execTinHeadRead
  (dsimp only; split)
  · refine ⟨_, rfl, ?_⟩
    refine readOut64_keeps _ _ _ _ _ _ ?_
    with_reducible assumption
  · refine ⟨_, rfl, ?_⟩
    refine readOut64_keeps _ _ _ _ _ _ ?_
    refine State.setTin_keeps _ _ _ _ ?_
    with_reducible assumption

theorem takeStep_keeps (s0 : State) (x0) (x1) (h : Keeps s0 x1) : Keeps s0 (takeStep x0 x1) := by
  unfold takeStep
  refine Keeps.upd ?_ rfl
  with_reducible assumption

theorem steerIfChanged_keeps (s0 : State) (x0) (x1) (h : Keeps s0 x1) : Keeps s0 (steerIfChanged x0 x1) := by
  unfold steerIfChanged
  refine Keeps.ite0 ?_ ?_
  · with_reducible assumption
  · refine emit_keeps _ _ _ ?_
    with_reducible assumption

theorem execMeasCommit_keeps (s0 : State) (x0) (x1) (h : Keeps s0 x1) : ∃ t, execMeasCommit x0 x1 = .next t ∧ Keeps s0 t := by
  unfold execMeasCommit
  refine Keeps.iteN ?_ ?_
  · refine ⟨_, rfl, ?_⟩
    refine timeCount_keeps _ _ _ ?_
    with_reducible assumption
  · refine ⟨_, rfl, ?_⟩
    refine steerIfChanged_keeps _ _ _ ?_
    refine Keeps.ite0 ?_ ?_
    · refine Keeps.ite0 ?_ ?_
      · refine State.setServo_keeps _ _ _ ?_
        refine Keeps.ite0 ?_ ?_
        · refine dryEvent_keeps _ _ _ ?_
          refine timeCount_keeps _ _ _ ?_
          refine State.setServo_keeps _ _ _ ?_
          with_reducible assumption
        · refine State.setServo_keeps _ _ _ ?_
          with_reducible assumption
      · refine takeStep_keeps _ _ _ ?_
        refine Keeps.ite0 ?_ ?_
        · refine dryEvent_keeps _ _ _ ?_
          refine timeCount_keeps _ _ _ ?_
          refine State.setServo_keeps _ _ _ ?_
          with_reducible assumption
        · refine State.setServo_keeps _ _ _ ?_
          with_reducible assumption
    · refine State.setServo_keeps _ _ _ ?_
      refine Keeps.ite0 ?_ ?_
      · refine dryEvent_keeps _ _ _ ?_
        refine timeCount_keeps _ _ _ ?_
        refine State.setServo_keeps _ _ _ ?_
        with_reducible assumption
      · refine State.setServo_keeps _ _ _ ?_
        with_reducible assumption

theorem execHoldoverEntry_keeps (s0 : State) (x0) (h : Keeps s0 x0) : ∃ t, execHoldoverEntry x0 = .next t ∧ Keeps s0 t := by
  unfold execHoldoverEntry
  refine Keeps.iteN ?_ ?_
  · refine ⟨_, rfl, ?_⟩
    refine steerIfChanged_keeps _ _ _ ?_
    refine timeCount_keeps _ _ _ ?_
    refine State.setServo_keeps _ _ _ ?_
    with_reducible assumption
  · refine ⟨_, rfl, ?_⟩
    with_reducible assumption

theorem execTimePortConfig_keeps (s0 : State) (x0) (x1) (h : Keeps s0 x1) : ∃ t, execTimePortConfig x0 x1 = .next t ∧ Keeps s0 t := by
  unfold execTimePortConfig
  refine runCmd_keeps _ _ _ _ _ _ ?_ ?_
  · with_reducible assumption
  · intro v78_0 v78_1
    refine Keeps.of2 ?_
    refine Keeps2.ite ?_ ?_
    · refine Keeps2.of ?_
      refine refuse_keeps _ _ _ ?_
      with_reducible assumption
    · refine Keeps2.of ?_
      refine done_keeps _ _ ?_
      refine State.setPtp_keeps _ _ _ _ ?_
      with_reducible assumption

theorem execTimeServoConfig_keeps (s0 : State) (x0) (x1) (h : Keeps s0 x1) : ∃ t, execTimeServoConfig x0 x1 = .next t ∧ Keeps s0 t := by
  unfold execTimeServoConfig
  refine runCmd_keeps _ _ _ _ _ _ ?_ ?_
  · with_reducible assumption
  · intro v78_0 v78_1
    refine Keeps.of2 ?_
    refine Keeps2.ite ?_ ?_
    · refine Keeps2.of ?_
      refine refuse_keeps _ _ _ ?_
      with_reducible assumption
    · refine Keeps2.of ?_
      refine done_keeps _ _ ?_
      refine steerIfChanged_keeps _ _ _ ?_
      refine State.setServo_keeps _ _ _ ?_
      with_reducible assumption

theorem execTimeRearm_keeps (s0 : State) (x0) (x1) (h : Keeps s0 x1) : ∃ t, execTimeRearm x0 x1 = .next t ∧ Keeps s0 t := by
  unfold execTimeRearm
  refine runCmd_keeps _ _ _ _ _ _ ?_ ?_
  · with_reducible assumption
  · intro v78_0 v78_1
    refine Keeps.of2 ?_
    refine Keeps2.ite ?_ ?_
    · refine Keeps2.of ?_
      refine refuse_keeps _ _ _ ?_
      with_reducible assumption
    · refine Keeps2.of ?_
      refine done_keeps _ _ ?_
      refine State.setServo_keeps _ _ _ ?_
      with_reducible assumption

theorem squelch_keeps (s0 : State) (x0) (h : Keeps s0 x0) : Keeps s0 (squelch x0) := by
  unfold squelch
  refine Keeps.ite0 ?_ ?_
  · with_reducible assumption
  · refine timeCount_keeps _ _ _ ?_
    refine Keeps.upd ?_ rfl
    with_reducible assumption

theorem loseSynce_keeps (s0 : State) (x0) (h : Keeps s0 x0) : Keeps s0 (loseSynce x0) := by
  unfold loseSynce
  refine Keeps.ite0 ?_ ?_
  · refine squelch_keeps _ _ ?_
    refine Keeps.upd ?_ rfl
    with_reducible assumption
  · with_reducible assumption

theorem execTimeSynce_keeps (s0 : State) (x0) (x1) (h : Keeps s0 x1) : ∃ t, execTimeSynce x0 x1 = .next t ∧ Keeps s0 t := by
  unfold execTimeSynce
  refine runCmd_keeps _ _ _ _ _ _ ?_ ?_
  · with_reducible assumption
  · intro v78_0 v78_1
    refine Keeps.of2 ?_
    refine Keeps2.ite ?_ ?_
    · refine Keeps2.of ?_
      refine refuse_keeps _ _ _ ?_
      with_reducible assumption
    · refine Keeps2.ite ?_ ?_
      · refine Keeps2.of ?_
        refine done_keeps _ _ ?_
        refine squelch_keeps _ _ ?_
        refine Keeps.upd ?_ rfl
        with_reducible assumption
      · refine Keeps2.ite ?_ ?_
        · refine Keeps2.of ?_
          refine done_keeps _ _ ?_
          refine Keeps.upd ?_ rfl
          refine Keeps.upd ?_ rfl
          with_reducible assumption
        · refine Keeps2.of ?_
          refine done_keeps _ _ ?_
          refine squelch_keeps _ _ ?_
          refine Keeps.upd ?_ rfl
          with_reducible assumption

theorem execSynceResume_keeps (s0 : State) (x0) (h : Keeps s0 x0) : ∃ t, execSynceResume x0 = .next t ∧ Keeps s0 t := by
  unfold execSynceResume
  split
  · refine Keeps.iteN ?_ ?_
    · refine ⟨_, rfl, ?_⟩
      refine Keeps.upd ?_ rfl
      with_reducible assumption
    · refine ⟨_, rfl, ?_⟩
      with_reducible assumption
  · refine ⟨_, rfl, ?_⟩
    with_reducible assumption

theorem execTimeQuery_keeps (s0 : State) (x0) (x1) (h : Keeps s0 x1) : ∃ t, execTimeQuery x0 x1 = .next t ∧ Keeps s0 t := by
  unfold execTimeQuery
  refine runCmd_keeps _ _ _ _ _ _ ?_ ?_
  · with_reducible assumption
  · intro v398_0 v398_1
    with_reducible assumption

theorem execToutEnable_keeps (s0 : State) (x0) (x1) (x2) (h : Keeps s0 x2) : ∃ t, execToutEnable x0 x1 x2 = .next t ∧ Keeps s0 t := by
  unfold execToutEnable
  refine ⟨_, rfl, ?_⟩
  refine State.setTout_keeps _ _ _ _ ?_
  with_reducible assumption

theorem execToutPulse_keeps (s0 : State) (x0) (x1) (h : Keeps s0 x1) : ∃ t, execToutPulse x0 x1 = .next t ∧ Keeps s0 t := by
  unfold execToutPulse
  (dsimp only; split)
  · refine ⟨_, rfl, ?_⟩
    with_reducible assumption
  · refine Keeps.iteN ?_ ?_
    · refine ⟨_, rfl, ?_⟩
      with_reducible assumption
    · refine Keeps.iteN ?_ ?_
      · refine ⟨_, rfl, ?_⟩
        refine State.setTout_keeps _ _ _ _ ?_
        with_reducible assumption
      · refine ⟨_, rfl, ?_⟩
        refine State.setTout_keeps _ _ _ _ ?_
        with_reducible assumption

theorem stampEdge_keeps (s0 : State) (x0) (x1) (x2) (h : Keeps s0 x2) : Keeps s0 (stampEdge x0 x1 x2) := by
  unfold stampEdge
  refine Keeps.ite0 ?_ ?_
  · with_reducible assumption
  · refine Keeps.ite0 ?_ ?_
    · refine State.setTin_keeps _ _ _ _ ?_
      with_reducible assumption
    · refine timeCount_keeps _ _ _ ?_
      refine State.setTin_keeps _ _ _ _ ?_
      with_reducible assumption

theorem execTinEdge_keeps (s0 : State) (x0) (x1) (x2) (h : Keeps s0 x2) : ∃ t, execTinEdge x0 x1 x2 = .next t ∧ Keeps s0 t := by
  unfold execTinEdge
  refine ⟨_, rfl, ?_⟩
  refine Keeps.ite0 ?_ ?_
  · refine stampEdge_keeps _ _ _ _ ?_
    with_reducible assumption
  · refine dryTriggerAt_keeps _ _ _ _ ?_
    refine stampEdge_keeps _ _ _ _ ?_
    with_reducible assumption

/-! ### Groups -/

theorem updFab_keeps (s0 : State) (x0) (x1) (h : Keeps s0 x1) : Keeps s0 (updFab x0 x1) := by
  unfold updFab
  refine Keeps.upd ?_ rfl
  with_reducible assumption

theorem updGroup_keeps (s0 : State) (x0) (x1) (x2) (h : Keeps s0 x2) : Keeps s0 (updGroup x0 x1 x2) := by
  unfold updGroup
  split
  · with_reducible assumption
  · refine updFab_keeps _ _ _ ?_
    with_reducible assumption

theorem collCount_keeps (s0 : State) (x0) (x1) (x2) (x3) (h : Keeps s0 x3) : Keeps s0 (collCount x0 x1 x2 x3) := by
  unfold collCount
  refine updFab_keeps _ _ _ ?_
  with_reducible assumption

theorem groupsPause_keeps (s0 : State) (x0) (x1) (h : Keeps s0 x1) : Keeps s0 (groupsPause x0 x1) := by
  unfold groupsPause
  refine Keeps.foldl0 ?_ ?_
  · intro v78_0 v78_1 v78_2
    split
    · with_reducible assumption
    · refine Keeps.ite0 ?_ ?_
      · with_reducible assumption
      · refine Keeps.foldl0 ?_ ?_
        · intro v74_0 v74_1 v74_2
          refine collCount_keeps _ _ _ _ _ ?_
          with_reducible assumption
        · refine updGroup_keeps _ _ _ _ ?_
          with_reducible assumption
  · with_reducible assumption

/-! ### Launch -/

theorem State.setCore_keeps (s0 : State) (x0) (x1) (x2) (h : Keeps s0 x0) : Keeps s0 (State.setCore x0 x1 x2) := by
  unfold State.setCore
  refine Keeps.upd ?_ rfl
  with_reducible assumption

theorem State.setThread_keeps (s0 : State) (x0) (x1) (x2) (h : Keeps s0 x0) : Keeps s0 (State.setThread x0 x1 x2) := by
  unfold State.setThread
  refine Keeps.upd ?_ rfl
  with_reducible assumption

theorem State.setCtx_keeps (s0 : State) (x0) (x1) (x2) (h : Keeps s0 x0) : Keeps s0 (State.setCtx x0 x1 x2) := by
  unfold State.setCtx
  refine Keeps.upd ?_ rfl
  with_reducible assumption

theorem ctxCount_keeps (s0 : State) (x0) (x1) (x2) (h : Keeps s0 x2) : Keeps s0 (ctxCount x0 x1 x2) := by
  unfold ctxCount
  refine State.setCtx_keeps _ _ _ _ ?_
  with_reducible assumption

theorem State.setPlate_keeps (s0 : State) (x0) (x1) (x2) (h : Keeps s0 x0) : Keeps s0 (State.setPlate x0 x1 x2) := by
  unfold State.setPlate
  refine Keeps.upd ?_ rfl
  with_reducible assumption

theorem updPlate_keeps (s0 : State) (x0) (x1) (x2) (h : Keeps s0 x2) : Keeps s0 (updPlate x0 x1 x2) := by
  unfold updPlate
  split
  · with_reducible assumption
  · refine State.setPlate_keeps _ _ _ _ ?_
    with_reducible assumption

theorem State.setWay_keeps (s0 : State) (x0) (x1) (x2) (h : Keeps s0 x0) : Keeps s0 (State.setWay x0 x1 x2) := by
  unfold State.setWay
  refine Keeps.upd ?_ rfl
  with_reducible assumption

theorem State.setLine_keeps (s0 : State) (x0) (x1) (x2) (h : Keeps s0 x0) : Keeps s0 (State.setLine x0 x1 x2) := by
  unfold State.setLine
  refine Keeps.upd ?_ rfl
  with_reducible assumption

theorem storeLine_keeps (s0 : State) (x0) (x1) (h : Keeps s0 x1) : Keeps s0 (storeLine x0 x1) := by
  unfold storeLine
  refine Keeps.foldl0 ?_ ?_
  · intro v398_0 v398_1 v398_2
    refine Keeps.ite0 ?_ ?_
    · refine memPoison_keeps _ _ _ _ ?_
      with_reducible assumption
    · with_reducible assumption
  · refine memWrite_keeps _ _ _ _ ?_
    with_reducible assumption

theorem writeBackLine_keeps (s0 : State) (x0) (x1) (h : Keeps s0 x0) : Keeps s0 (writeBackLine x0 x1) := by
  unfold writeBackLine
  split
  · refine Keeps.ite0 ?_ ?_
    · refine State.setLine_keeps _ _ _ _ ?_
      refine Keeps.ite0 ?_ ?_
      · refine storeLine_keeps _ _ _ ?_
        with_reducible assumption
      · with_reducible assumption
    · with_reducible assumption
  · with_reducible assumption

theorem emptyWay_keeps (s0 : State) (x0) (x1) (x2) (h : Keeps s0 x2) : Keeps s0 (emptyWay x0 x1 x2) := by
  unfold emptyWay
  refine Keeps.foldl0 ?_ ?_
  · intro v398_0 v398_1 v398_2
    refine State.setLine_keeps _ _ _ _ ?_
    refine Keeps.ite0 ?_ ?_
    · refine writeBackLine_keeps _ _ _ ?_
      with_reducible assumption
    · with_reducible assumption
  · with_reducible assumption

theorem clearWay_keeps (s0 : State) (x0) (x1) (x2) (h : Keeps s0 x2) : Keeps s0 (clearWay x0 x1 x2) := by
  unfold clearWay
  refine memClear_keeps _ _ _ _ ?_
  refine emptyWay_keeps _ _ _ _ ?_
  with_reducible assumption

theorem clearCore_keeps (s0 : State) (x0) (x1) (h : Keeps s0 x1) : Keeps s0 (clearCore x0 x1) := by
  unfold clearCore
  refine State.setCore_keeps _ _ _ _ ?_
  refine Keeps.foldl0 ?_ ?_
  · intro v397_0 v397_1 v397_2
    refine State.setThread_keeps _ _ _ _ ?_
    with_reducible assumption
  · refine memClear_keeps _ _ _ _ ?_
    with_reducible assumption

theorem saveResident_keeps (s0 : State) (x0) (x1) (h : Keeps s0 x1) : Keeps s0 (saveResident x0 x1) := by
  unfold saveResident
  (dsimp only; split)
  · with_reducible assumption
  · refine State.setCore_keeps _ _ _ _ ?_
    with_reducible assumption

theorem loadSlot_keeps (s0 : State) (x0) (x1) (x2) (h : Keeps s0 x2) : Keeps s0 (loadSlot x0 x1 x2) := by
  unfold loadSlot
  refine Keeps.foldl0 ?_ ?_
  · intro v398_0 v398_1 v398_2
    refine State.setThread_keeps _ _ _ _ ?_
    with_reducible assumption
  · refine State.setCore_keeps _ _ _ _ ?_
    with_reducible assumption

theorem takeWays_keeps (s0 : State) (x0) (x1) (x2) (h : Keeps s0 x2) : Keeps s0 (takeWays x0 x1 x2) := by
  unfold takeWays
  refine Keeps.foldl0 ?_ ?_
  · intro v398_0 v398_1 v398_2
    refine Keeps.foldl0 ?_ ?_
    · intro v396_0 v396_1 v396_2
      refine Keeps.ite0 ?_ ?_
      · with_reducible assumption
      · refine State.setWay_keeps _ _ _ _ ?_
        refine memClear_keeps _ _ _ _ ?_
        with_reducible assumption
    · with_reducible assumption
  · with_reducible assumption

theorem switchCore_keeps (s0 : State) (x0) (x1) (x2) (h : Keeps s0 x2) : Keeps s0 (switchCore x0 x1 x2) := by
  unfold switchCore
  refine Keeps.ite0 ?_ ?_
  · refine takeWays_keeps _ _ _ _ ?_
    with_reducible assumption
  · refine ctxCount_keeps _ _ _ _ ?_
    refine loadSlot_keeps _ _ _ _ ?_
    refine takeWays_keeps _ _ _ _ ?_
    refine memClear_keeps _ _ _ _ ?_
    refine saveResident_keeps _ _ _ ?_
    with_reducible assumption

theorem assignSlots_keeps (s0 : State) (x0) (x1) (h : Keeps s0 x1) : Keeps s0 (assignSlots x0 x1) := by
  unfold assignSlots
  refine Keeps.foldl0 ?_ ?_
  · intro v5 v5_b v5_h
    extract_lets
    split
    · refine State.setCore_keeps _ _ _ _ ?_
      with_reducible assumption
    · refine State.setCore_keeps _ _ _ _ ?_
      with_reducible assumption
  · with_reducible assumption

theorem startContexts_keeps (s0 : State) (x0) (x1) (x2) (x3) (h : Keeps s0 x3) : Keeps s0 (startContexts x0 x1 x2 x3) := by
  unfold startContexts
  refine Keeps.foldl0 ?_ ?_
  · intro v398_0 v398_1 v398_2
    refine Keeps.foldl0 ?_ ?_
    · intro v396_0 v396_1 v396_2
      refine Keeps.ite0 ?_ ?_
      · refine State.setThread_keeps _ _ _ _ ?_
        with_reducible assumption
      · refine State.setThread_keeps _ _ _ _ ?_
        with_reducible assumption
    · refine State.setCore_keeps _ _ _ _ ?_
      with_reducible assumption
  · with_reducible assumption

theorem tryBegin_keeps (s0 : State) (x0) (x1) (x2) (x3) (h : Keeps s0 x3) : Keeps s0 (tryBegin x0 x1 x2 x3).2 := by
  unfold tryBegin
  refine Keeps.of1 ?_
  refine Keeps1.ite ?_ ?_
  · refine Keeps1.mk ?_
    with_reducible assumption
  · refine Keeps1.ite ?_ ?_
    · refine Keeps1.mk ?_
      with_reducible assumption
    · refine Keeps1.ite ?_ ?_
      · refine Keeps1.mk ?_
        with_reducible assumption
      · refine Keeps1.ite ?_ ?_
        · refine Keeps1.mk ?_
          with_reducible assumption
        · refine Keeps1.ite ?_ ?_
          · refine Keeps1.mk ?_
            with_reducible assumption
          · refine Keeps1.ite ?_ ?_
            · refine Keeps1.mk ?_
              refine Keeps.foldl0 ?_ ?_
              · intro v6 v6_b v6_h
                refine groupsPause_keeps _ _ _ ?_
                with_reducible assumption
              · with_reducible assumption
            · refine Keeps1.mk ?_
              refine startContexts_keeps _ _ _ _ _ ?_
              refine Keeps.ite0 ?_ ?_
              · refine Keeps.foldl0 ?_ ?_
                · intro v7 v7_b v7_h
                  refine groupsPause_keeps _ _ _ ?_
                  with_reducible assumption
                · with_reducible assumption
              · refine Keeps.foldl0 ?_ ?_
                · intro v8 v8_b v8_h
                  refine switchCore_keeps _ _ _ _ ?_
                  with_reducible assumption
                · refine Keeps.foldl0 ?_ ?_
                  · intro v9 v9_b v9_h
                    refine groupsPause_keeps _ _ _ ?_
                    with_reducible assumption
                  · with_reducible assumption

theorem retryHeld_keeps (s0 : State) (x0) (h : Keeps s0 x0) : Keeps s0 (retryHeld x0) := by
  unfold retryHeld
  refine Keeps.foldl0 ?_ ?_
  · intro v78_0 v78_1 v78_2
    split
    · with_reducible assumption
    · refine updPlate_keeps _ _ _ _ ?_
      refine Keeps.of1 ?_
      refine Keeps.foldl1 ?_ ?_
      · intro v73_0 v73_1 v73_2
        refine Keeps.of1 ?_
        refine Keeps1.ite ?_ ?_
        · refine Keeps1.mk ?_
          with_reducible assumption
        · refine Keeps1.mk ?_
          refine tryBegin_keeps _ _ _ _ _ ?_
          with_reducible assumption
      · refine Keeps.of1 ?_
        refine Keeps1.mk ?_
        with_reducible assumption
  · with_reducible assumption

theorem releaseCompute_keeps (s0 : State) (x0) (x1) (x2) (h : Keeps s0 x2) : Keeps s0 (releaseCompute x0 x1 x2) := by
  unfold releaseCompute
  refine Keeps.foldl0 ?_ ?_
  · intro v398_0 v398_1 v398_2
    refine Keeps.ite0 ?_ ?_
    · refine State.setWay_keeps _ _ _ _ ?_
      refine Keeps.ite0 ?_ ?_
      · refine emptyWay_keeps _ _ _ _ ?_
        with_reducible assumption
      · with_reducible assumption
    · with_reducible assumption
  · refine Keeps.foldl0 ?_ ?_
    · intro v397_0 v397_1 v397_2
      refine Keeps.ite0 ?_ ?_
      · with_reducible assumption
      · refine State.setCore_keeps _ _ _ _ ?_
        with_reducible assumption
    · with_reducible assumption

theorem freePlate_keeps (s0 : State) (x0) (x1) (h : Keeps s0 x1) : Keeps s0 (freePlate x0 x1) := by
  unfold freePlate
  split
  · with_reducible assumption
  · refine Keeps.upd ?_ rfl
    refine State.setPlate_keeps _ _ _ _ ?_
    refine Keeps.ite0 ?_ ?_
    · refine releaseCompute_keeps _ _ _ _ ?_
      refine Keeps.ite0 ?_ ?_
      · refine uncharge_keeps _ _ _ _ _ ?_
        with_reducible assumption
      · with_reducible assumption
    · refine Keeps.ite0 ?_ ?_
      · refine uncharge_keeps _ _ _ _ _ ?_
        with_reducible assumption
      · with_reducible assumption

theorem settleRetiring_keeps (s0 : State) (x0) (x1) (h : Keeps s0 x1) : Keeps s0 (settleRetiring x0 x1) := by
  unfold settleRetiring
  split
  · refine Keeps.ite0 ?_ ?_
    · refine freePlate_keeps _ _ _ ?_
      with_reducible assumption
    · with_reducible assumption
  · with_reducible assumption

theorem clearResource_keeps (s0 : State) (x0) (x1) (h : Keeps s0 x1) : Keeps s0 (clearResource x0 x1) := by
  unfold clearResource
  split
  · refine clearCore_keeps _ _ _ ?_
    with_reducible assumption
  · refine clearWay_keeps _ _ _ _ ?_
    with_reducible assumption
  · refine memClear_keeps _ _ _ _ ?_
    with_reducible assumption

theorem ownRan_keeps (s0 : State) (x0) (x1) (x2) (x3) (h : Keeps s0 x3) : Keeps s0 (ownRan x0 x1 x2 x3) := by
  unfold ownRan
  refine Keeps.foldl0 ?_ ?_
  · intro v398_0 v398_1 v398_2
    refine State.setWay_keeps _ _ _ _ ?_
    with_reducible assumption
  · refine Keeps.upd ?_ rfl
    with_reducible assumption

theorem settleRan_keeps (s0 : State) (x0) (x1) (x2) (h : Keeps s0 x2) : Keeps s0 (settleRan x0 x1 x2) := by
  unfold settleRan
  split
  · refine Keeps.ite0 ?_ ?_
    · refine freePlate_keeps _ _ _ ?_
      refine ownRan_keeps _ _ _ _ _ ?_
      with_reducible assumption
    · with_reducible assumption
  · with_reducible assumption

theorem startClearing_keeps (s0 : State) (x0) (x1) (x2) (x3) (h : Keeps s0 x3) : Keeps s0 (startClearing x0 x1 x2 x3) := by
  unfold startClearing
  refine Keeps.upd ?_ rfl
  with_reducible assumption

/-! ### Packets -/

theorem fabCount_keeps (s0 : State) (x0) (x1) (h : Keeps s0 x1) : Keeps s0 (fabCount x0 x1) := by
  unfold fabCount
  refine updFab_keeps _ _ _ ?_
  with_reducible assumption

theorem storeRace_keeps (s0 : State) (x0 : Nat → Bool) (x1) (x2) (x3) (h : Keeps s0 x3) : Keeps s0 (storeRace x0 x1 x2 x3) := by
  unfold storeRace
  refine Keeps.ite0 ?_ ?_
  · refine fabCount_keeps _ _ _ ?_
    refine updFab_keeps _ _ _ ?_
    with_reducible assumption
  · with_reducible assumption

/-! ### Cache -/

theorem touchLine_keeps (s0 : State) (x0) (x1) (h : Keeps s0 x1) : Keeps s0 (touchLine x0 x1) := by
  unfold touchLine
  split
  · with_reducible assumption
  · refine Keeps.upd ?_ rfl
    refine State.setLine_keeps _ _ _ _ ?_
    with_reducible assumption

theorem fillLine_keeps (s0 : State) (x0) (x1) (x2) (x3) (h : Keeps s0 x3) : Keeps s0 ((fillLine x0 x1 x2 x3).2) := by
  unfold fillLine
  (dsimp only; split)
  · refine touchLine_keeps _ _ _ ?_
    with_reducible assumption
  · split
    · with_reducible assumption
    · refine touchLine_keeps _ _ _ ?_
      refine State.setLine_keeps _ _ _ _ ?_
      refine memRead_keeps _ _ _ _ _ ?_
      refine writeBackLine_keeps _ _ _ ?_
      with_reducible assumption

theorem coreStall_keeps (s0 : State) (x0) (x1) (x2) (x3) (x4) (h : Keeps s0 x4) : Keeps s0 (coreStall x0 x1 x2 x3 x4) := by
  unfold coreStall
  refine Keeps.ite0 ?_ ?_
  · with_reducible assumption
  · refine stall_keeps _ _ _ _ _ ?_
    with_reducible assumption

theorem coreRead_keeps (s0 : State) (x0) (x1) (x2) (x3) (x4) (h : Keeps s0 x4) : Keeps s0 (coreRead x0 x1 x2 x3 x4).2 := by
  unfold coreRead
  refine Keeps.of1 ?_
  refine Keeps1.ite ?_ ?_
  · refine Keeps1.of ?_
    refine readWords_keeps _ _ _ _ ?_
    with_reducible assumption
  · refine Keeps1.of ?_
    refine Keeps.foldl1 ?_ ?_
    · intro v4 v4_b v4_h
      refine Keeps.of1 ?_
      extract_lets
      split
      · refine Keeps1.of ?_
        with_reducible assumption
      · split
        · refine Keeps1.of ?_
          with_reducible assumption
        · refine Keeps1.mk ?_
          refine fillLine_keeps _ _ _ _ _ ?_
          with_reducible assumption
    · with_reducible assumption

theorem coreStore_keeps (s0 : State) (x0) (x1) (x2) (x3) (x4) (x5) (h : Keeps s0 x5) : Keeps s0 (coreStore x0 x1 x2 x3 x4 x5) := by
  unfold coreStore
  refine Keeps.ite0 ?_ ?_
  · refine memWriteP_keeps _ _ _ _ _ ?_
    with_reducible assumption
  · refine Keeps.foldl1 ?_ ?_
    · intro v5 v5_b v5_h
      refine Keeps.of1 ?_
      extract_lets
      split
      · refine Keeps1.mk ?_
        refine fillLine_keeps _ _ _ _ _ ?_
        with_reducible assumption
      · split
        · refine Keeps1.mk ?_
          refine fillLine_keeps _ _ _ _ _ ?_
          with_reducible assumption
        · refine Keeps1.mk ?_
          refine State.setLine_keeps _ _ _ _ ?_
          refine fillLine_keeps _ _ _ _ _ ?_
          with_reducible assumption
    · with_reducible assumption

theorem coreWrite_keeps (s0 : State) (x0) (x1) (x2) (x3) (x4) (x5) (h : Keeps s0 x5) : Keeps s0 (coreWrite x0 x1 x2 x3 x4 x5) := by
  unfold coreWrite
  refine coreStore_keeps _ _ _ _ _ _ _ ?_
  refine Keeps.ite0 ?_ ?_
  · with_reducible assumption
  · refine storeRace_keeps _ _ _ _ _ ?_
    with_reducible assumption

theorem pushJob_keeps (s0 : State) (x0) (x1) (x2) (x3) (x4) (h : Keeps s0 x4) : Keeps s0 (pushJob x0 x1 x2 x3 x4) := by
  unfold pushJob
  refine Keeps.upd ?_ rfl
  with_reducible assumption

theorem pushMailboxJob_keeps (s0 : State) (x0) (x1) (x2) (x3) (x4) (h : Keeps s0 x4) : Keeps s0 (pushMailboxJob x0 x1 x2 x3 x4) := by
  unfold pushMailboxJob
  refine Keeps.upd ?_ rfl
  with_reducible assumption

theorem popJob_keeps (s0 : State) (x0) (x1) (h : Keeps s0 x1) : Keeps s0 (popJob x0 x1) := by
  unfold popJob
  refine Keeps.upd ?_ rfl
  with_reducible assumption

/-! ### FabricOps -/

theorem queuePacket_keeps (s0 : State) (x0) (x1) (x2) (h : Keeps s0 x2) : Keeps s0 (queuePacket x0 x1 x2) := by
  unfold queuePacket
  refine updFab_keeps _ _ _ ?_
  with_reducible assumption

theorem routePacket_keeps (s0 : State) (x0) (x1) (x2) (x3) (x4) (h : Keeps s0 x4) : Keeps s0 ((routePacket x0 x1 x2 x3 x4).2) := by
  unfold routePacket
  split
  · refine queuePacket_keeps _ _ _ _ ?_
    with_reducible assumption
  · with_reducible assumption

theorem respond_keeps (s0 : State) (x0) (x1) (x2) (x3) (x4) (x5) (h : Keeps s0 x5) : Keeps s0 (respond x0 x1 x2 x3 x4 x5) := by
  unfold respond
  refine routePacket_keeps _ _ _ _ _ _ ?_
  with_reducible assumption

theorem homeRead_keeps (s0 : State) (x0) (x1) (x2) (x3) (h : Keeps s0 x3) : Keeps s0 ((homeRead x0 x1 x2 x3).2).2 := by
  unfold homeRead
  refine Keeps.of2 ?_
  refine Keeps2.mk ?_
  refine Keeps1.mk ?_
  refine memRead_keeps _ _ _ _ _ ?_
  with_reducible assumption

theorem homeWriteWord_keeps (s0 : State) (x0) (x1) (x2) (x3) (h : Keeps s0 x3) : Keeps s0 ((homeWriteWord x0 x1 x2 x3).2) := by
  unfold homeWriteWord
  refine Keeps.of1 ?_
  refine Keeps1.ite ?_ ?_
  · refine Keeps1.mk ?_
    refine memWriteP_keeps _ _ _ _ _ ?_
    with_reducible assumption
  · refine Keeps1.mk ?_
    refine Keeps.ite0 ?_ ?_
    · refine memPoison_keeps _ _ _ _ ?_
      refine Keeps.foldl0 ?_ ?_
      · intro v73_0 v73_1 v73_2
        refine Keeps.ite0 ?_ ?_
        · refine memWrite_keeps _ _ _ _ ?_
          with_reducible assumption
        · with_reducible assumption
      · with_reducible assumption
    · refine Keeps.foldl0 ?_ ?_
      · intro v74_0 v74_1 v74_2
        refine Keeps.ite0 ?_ ?_
        · refine memWrite_keeps _ _ _ _ ?_
          with_reducible assumption
        · with_reducible assumption
      · with_reducible assumption

theorem homeWrite_keeps (s0 : State) (x0) (x1) (x2) (x3) (x4) (x5) (x6) (h : Keeps s0 x6) : Keeps s0 (homeWrite x0 x1 x2 x3 x4 x5 x6).2 := by
  unfold homeWrite
  refine Keeps.foldl1 ?_ ?_
  · intro v10 v10_b v10_h
    refine Keeps.of1 ?_
    refine Keeps1.mk ?_
    refine homeWriteWord_keeps _ _ _ _ _ ?_
    with_reducible assumption
  · refine Keeps.of1 ?_
    refine Keeps1.mk ?_
    refine stall_keeps _ _ _ _ _ ?_
    with_reducible assumption

theorem notifyWindow_keeps (s0 : State) (x0 : Nat → Nat → Nat → Sys2Proof.Machine.State → Sys2Proof.Machine.State) (x1) (x2) (x3) (h : Keeps s0 x3) (hx0 : ∀ y0 y1 y2 y3, Keeps s0 y3 → Keeps s0 (x0 y0 y1 y2 y3)) : Keeps s0 (notifyWindow x0 x1 x2 x3) := by
  unfold notifyWindow
  refine Keeps.ite0 ?_ ?_
  · refine hx0 _ _ _ _ ?_
    with_reducible assumption
  · with_reducible assumption

theorem performAtomic_keeps (s0 : State) (x0) (x1) (x2) (x3) (x4) (x5) (x6) (h : Keeps s0 x6) : Keeps s0 ((performAtomic x0 x1 x2 x3 x4 x5 x6).2).2 := by
  unfold performAtomic
  refine Keeps.of2 ?_
  refine Keeps2.ite ?_ ?_
  · refine Keeps2.mk ?_
    refine Keeps1.mk ?_
    refine memRead_keeps _ _ _ _ _ ?_
    with_reducible assumption
  · refine Keeps2.mk ?_
    refine Keeps1.mk ?_
    refine memWrite_keeps _ _ _ _ ?_
    refine memRead_keeps _ _ _ _ _ ?_
    with_reducible assumption

theorem numberRequest_keeps (s0 : State) (x0) (x1) (h : Keeps s0 x1) : Keeps s0 (numberRequest x0 x1) := by
  unfold numberRequest
  split
  · refine Keeps.ite0 ?_ ?_
    · refine Keeps.upd ?_ rfl
      with_reducible assumption
    · with_reducible assumption
  · refine Keeps.ite0 ?_ ?_
    · refine updRec_keeps _ _ _ ?_
      with_reducible assumption
    · with_reducible assumption

theorem sendRequestVia_keeps (s0 : State) (x0) (x1) (x2) (x3) (x4) (x5) (x6) (x7) (x8) (x9) (x10) (x11) (x12) (x13) (h : Keeps s0 x13) : ∀ t, sendRequestVia x0 x1 x2 x3 x4 x5 x6 x7 x8 x9 x10 x11 x12 x13 = some t → Keeps s0 (t) := by
  intro t ht
  unfold sendRequestVia at ht
  cases hp : pickTag x13 x1 with
  | none => rw [hp] at ht; cases ht
  | some tag =>
    rw [hp] at ht
    replace ht : (if x6 = 3 ∧ 512 ≤ atomicsTo x13 (targetHall x13 (readFabAddr x4)) then none else _) = some t := ht
    by_cases hc : x6 = 3 ∧ 512 ≤ atomicsTo x13 (targetHall x13 (readFabAddr x4))
    · rw [if_pos hc] at ht; cases ht
    · rw [if_neg hc] at ht
      obtain rfl := Option.some.inj ht
      refine fabCount_keeps _ _ _ (numberRequest_keeps _ _ _ (updFab_keeps _ _ _ ?_))
      refine Keeps.ite1 h ?_
      cases x0 with
      | some port => exact queuePacket_keeps _ _ _ _ h
      | none => exact routePacket_keeps _ _ _ _ _ _ h

theorem sendRequest_keeps (s0 : State) (x0) (x1) (x2) (x3) (x4) (x5) (x6) (x7) (x8) (x9) (x10) (x11) (x12) (h : Keeps s0 x12) : ∀ t, sendRequest x0 x1 x2 x3 x4 x5 x6 x7 x8 x9 x10 x11 x12 = some t → Keeps s0 (t) := by
  unfold sendRequest
  refine sendRequestVia_keeps _ _ _ _ _ _ _ _ _ _ _ _ _ _ _ ?_
  with_reducible assumption

theorem freeTrack_keeps (s0 : State) (x0) (x1) (x2) (h : Keeps s0 x2) : Keeps s0 (freeTrack x0 x1 x2) := by
  unfold freeTrack
  refine updFab_keeps _ _ _ ?_
  with_reducible assumption

theorem resend_keeps (s0 : State) (x0) (x1) (h : Keeps s0 x1) : Keeps s0 (resend x0 x1) := by
  unfold resend
  split
  · with_reducible assumption
  · refine fabCount_keeps _ _ _ ?_
    refine updFab_keeps _ _ _ ?_
    refine routePacket_keeps _ _ _ _ _ _ ?_
    with_reducible assumption

end Sys2Proof.Machine
end

