-- ==== Sys2Proof/Laws/Keeps03.lean ====
section
/-!
SUPPORT. What every operation keeps (`Keeps`), operation by operation: Threads, MeOps, TierOps, ThatchOps, RegionOps.
-/
namespace Sys2Proof.Machine
open Sys2Proof

/-! ### Threads -/

theorem passBarrier_keeps (s0 : State) (x0) (x1) (h : Keeps s0 x1) : Keeps s0 (passBarrier x0 x1) := by
  unfold passBarrier
  refine Keeps.ite0 ?_ ?_
  · refine State.setThread_keeps _ _ _ _ ?_
    refine dryEvent_keeps _ _ _ ?_
    with_reducible assumption
  · refine State.setThread_keeps _ _ _ _ ?_
    with_reducible assumption

theorem releaseBarriers_keeps (s0 : State) (x0) (x1) (h : Keeps s0 x1) : Keeps s0 (releaseBarriers x0 x1) := by
  unfold releaseBarriers
  dsimp only
  split
  · with_reducible assumption
  · split
    · with_reducible assumption
    · refine Keeps.ite0 ?_ ?_
      · refine Keeps.foldl0 ?_ ?_
        · intro v7 v7_b v7_h
          refine passBarrier_keeps _ _ _ ?_
          with_reducible assumption
        · with_reducible assumption
      · with_reducible assumption

theorem haltThread_keeps (s0 : State) (x0) (x1) (x2) (h : Keeps s0 x2) : Keeps s0 (haltThread x0 x1 x2) := by
  unfold haltThread
  refine releaseBarriers_keeps _ _ _ ?_
  refine State.setThread_keeps _ _ _ _ ?_
  refine dryEvent_keeps _ _ _ ?_
  with_reducible assumption

theorem goTo_keeps (s0 : State) (x0) (x1) (x2) (x3) (h : Keeps s0 x3) : Keeps s0 (goTo x0 x1 x2 x3) := by
  unfold goTo
  refine Keeps.ite0 ?_ ?_
  · refine haltThread_keeps _ _ _ _ ?_
    refine State.setThread_keeps _ _ _ _ ?_
    with_reducible assumption
  · refine State.setThread_keeps _ _ _ _ ?_
    with_reducible assumption

theorem goNext_keeps (s0 : State) (x0) (x1) (x2) (h : Keeps s0 x2) : Keeps s0 (goNext x0 x1 x2) := by
  unfold goNext
  refine goTo_keeps _ _ _ _ _ ?_
  with_reducible assumption

theorem waitIn_keeps (s0 : State) (x0) (x1) (x2) (x3) (h : Keeps s0 x3) : Keeps s0 (waitIn x0 x1 x2 x3) := by
  unfold waitIn
  refine State.setThread_keeps _ _ _ _ ?_
  with_reducible assumption

theorem thread_keeps (s0 : State) (x0) (x1) (x2) (x3) (x4 : Sys2Proof.Machine.Thread → Sys2Proof.Machine.State → Sys2Proof.Machine.State) (x5) (h : Keeps s0 x5) (hx4 : ∀ y0 y1, Keeps s0 y1 → Keeps s0 (x4 y0 y1)) : ∃ t, thread x0 x1 x2 x3 x4 x5 = .next t ∧ Keeps s0 t := by
  unfold thread
  refine Keeps.iteN ?_ ?_
  · refine ⟨_, rfl, ?_⟩
    with_reducible assumption
  · refine Keeps.iteN ?_ ?_
    · refine ⟨_, rfl, ?_⟩
      refine haltThread_keeps _ _ _ _ ?_
      with_reducible assumption
    · refine Keeps.iteN ?_ ?_
      · refine ⟨_, rfl, ?_⟩
        refine waitIn_keeps _ _ _ _ _ ?_
        with_reducible assumption
      · refine ⟨_, rfl, ?_⟩
        refine hx4 _ _ ?_
        with_reducible assumption

theorem arith_keeps (s0 : State) (x0) (x1) (x2) (x3) (x4) (x5) (x6) (x7 : Sys2Proof.Word → Sys2Proof.Word → Sys2Proof.Word) (x8) (h : Keeps s0 x8) : ∃ t, arith x0 x1 x2 x3 x4 x5 x6 x7 x8 = .next t ∧ Keeps s0 t := by
  unfold arith
  refine thread_keeps _ _ _ _ _ _ _ ?_ ?_
  · with_reducible assumption
  · intro v12_0 v12_1 v12_2
    refine goNext_keeps _ _ _ _ ?_
    with_reducible assumption

theorem execThNop_keeps (s0 : State) (x0) (x1) (x2) (h : Keeps s0 x2) : ∃ t, execThNop x0 x1 x2 = .next t ∧ Keeps s0 t := by
  unfold execThNop
  refine Keeps.iteN ?_ ?_
  · refine ⟨_, rfl, ?_⟩
    with_reducible assumption
  · refine Keeps.iteN ?_ ?_
    · refine thread_keeps _ _ _ _ _ _ _ ?_ ?_
      · with_reducible assumption
      · intro v13_0 v13_1 v13_2
        refine goNext_keeps _ _ _ _ ?_
        with_reducible assumption
    · refine thread_keeps _ _ _ _ _ _ _ ?_ ?_
      · with_reducible assumption
      · intro v14_0 v14_1 v14_2
        refine haltThread_keeps _ _ _ _ ?_
        with_reducible assumption

theorem execThAdd_keeps (s0 : State) (x0) (x1) (x2) (x3) (x4) (x5) (h : Keeps s0 x5) : ∃ t, execThAdd x0 x1 x2 x3 x4 x5 = .next t ∧ Keeps s0 t := by
  unfold execThAdd
  refine arith_keeps _ _ _ _ _ _ _ _ _ _ ?_
  with_reducible assumption

theorem execThSub_keeps (s0 : State) (x0) (x1) (x2) (x3) (x4) (x5) (h : Keeps s0 x5) : ∃ t, execThSub x0 x1 x2 x3 x4 x5 = .next t ∧ Keeps s0 t := by
  unfold execThSub
  refine arith_keeps _ _ _ _ _ _ _ _ _ _ ?_
  with_reducible assumption

theorem execThAnd_keeps (s0 : State) (x0) (x1) (x2) (x3) (x4) (x5) (h : Keeps s0 x5) : ∃ t, execThAnd x0 x1 x2 x3 x4 x5 = .next t ∧ Keeps s0 t := by
  unfold execThAnd
  refine arith_keeps _ _ _ _ _ _ _ _ _ _ ?_
  with_reducible assumption

theorem execThOr_keeps (s0 : State) (x0) (x1) (x2) (x3) (x4) (x5) (h : Keeps s0 x5) : ∃ t, execThOr x0 x1 x2 x3 x4 x5 = .next t ∧ Keeps s0 t := by
  unfold execThOr
  refine arith_keeps _ _ _ _ _ _ _ _ _ _ ?_
  with_reducible assumption

theorem execThXor_keeps (s0 : State) (x0) (x1) (x2) (x3) (x4) (x5) (h : Keeps s0 x5) : ∃ t, execThXor x0 x1 x2 x3 x4 x5 = .next t ∧ Keeps s0 t := by
  unfold execThXor
  refine arith_keeps _ _ _ _ _ _ _ _ _ _ ?_
  with_reducible assumption

theorem execThShl_keeps (s0 : State) (x0) (x1) (x2) (x3) (x4) (x5) (h : Keeps s0 x5) : ∃ t, execThShl x0 x1 x2 x3 x4 x5 = .next t ∧ Keeps s0 t := by
  unfold execThShl
  refine arith_keeps _ _ _ _ _ _ _ _ _ _ ?_
  with_reducible assumption

theorem execThShr_keeps (s0 : State) (x0) (x1) (x2) (x3) (x4) (x5) (h : Keeps s0 x5) : ∃ t, execThShr x0 x1 x2 x3 x4 x5 = .next t ∧ Keeps s0 t := by
  unfold execThShr
  refine arith_keeps _ _ _ _ _ _ _ _ _ _ ?_
  with_reducible assumption

theorem execThSar_keeps (s0 : State) (x0) (x1) (x2) (x3) (x4) (x5) (h : Keeps s0 x5) : ∃ t, execThSar x0 x1 x2 x3 x4 x5 = .next t ∧ Keeps s0 t := by
  unfold execThSar
  refine arith_keeps _ _ _ _ _ _ _ _ _ _ ?_
  with_reducible assumption

theorem execThMul_keeps (s0 : State) (x0) (x1) (x2) (x3) (x4) (x5) (h : Keeps s0 x5) : ∃ t, execThMul x0 x1 x2 x3 x4 x5 = .next t ∧ Keeps s0 t := by
  unfold execThMul
  refine arith_keeps _ _ _ _ _ _ _ _ _ _ ?_
  with_reducible assumption

theorem execThMin_keeps (s0 : State) (x0) (x1) (x2) (x3) (x4) (x5) (h : Keeps s0 x5) : ∃ t, execThMin x0 x1 x2 x3 x4 x5 = .next t ∧ Keeps s0 t := by
  unfold execThMin
  refine arith_keeps _ _ _ _ _ _ _ _ _ _ ?_
  with_reducible assumption

theorem execThMax_keeps (s0 : State) (x0) (x1) (x2) (x3) (x4) (x5) (h : Keeps s0 x5) : ∃ t, execThMax x0 x1 x2 x3 x4 x5 = .next t ∧ Keeps s0 t := by
  unfold execThMax
  refine arith_keeps _ _ _ _ _ _ _ _ _ _ ?_
  with_reducible assumption

theorem execThLi_keeps (s0 : State) (x0) (x1) (x2) (x3) (x4) (x5) (h : Keeps s0 x5) : ∃ t, execThLi x0 x1 x2 x3 x4 x5 = .next t ∧ Keeps s0 t := by
  unfold execThLi
  refine thread_keeps _ _ _ _ _ _ _ ?_ ?_
  · with_reducible assumption
  · intro v15_0 v15_1 v15_2
    refine goNext_keeps _ _ _ _ ?_
    with_reducible assumption

theorem execThLih_keeps (s0 : State) (x0) (x1) (x2) (x3) (x4) (x5) (h : Keeps s0 x5) : ∃ t, execThLih x0 x1 x2 x3 x4 x5 = .next t ∧ Keeps s0 t := by
  unfold execThLih
  refine thread_keeps _ _ _ _ _ _ _ ?_ ?_
  · with_reducible assumption
  · intro v16_0 v16_1 v16_2
    refine goNext_keeps _ _ _ _ ?_
    with_reducible assumption

theorem execThLd_keeps (s0 : State) (x0) (x1) (x2) (x3) (x4) (x5) (h : Keeps s0 x5) : ∃ t, execThLd x0 x1 x2 x3 x4 x5 = .next t ∧ Keeps s0 t := by
  unfold execThLd
  refine thread_keeps _ _ _ _ _ _ _ ?_ ?_
  · with_reducible assumption
  · intro v17_0 v17_1 v17_2
    split
    · refine haltThread_keeps _ _ _ _ ?_
      with_reducible assumption
    · refine Keeps.ite0 ?_ ?_
      · refine goNext_keeps _ _ _ _ ?_
        refine State.draw_keeps _ _ ?_
        refine memRead_keeps _ _ _ _ _ ?_
        with_reducible assumption
      · refine goNext_keeps _ _ _ _ ?_
        refine memRead_keeps _ _ _ _ _ ?_
        with_reducible assumption

theorem execThSt_keeps (s0 : State) (x0) (x1) (x2) (x3) (x4) (x5) (h : Keeps s0 x5) : ∃ t, execThSt x0 x1 x2 x3 x4 x5 = .next t ∧ Keeps s0 t := by
  unfold execThSt
  refine thread_keeps _ _ _ _ _ _ _ ?_ ?_
  · with_reducible assumption
  · intro v18_0 v18_1 v18_2
    split
    · refine haltThread_keeps _ _ _ _ ?_
      with_reducible assumption
    · refine goNext_keeps _ _ _ _ ?_
      refine memWrite_keeps _ _ _ _ ?_
      with_reducible assumption

theorem State.setMeQueue_keeps (s0 : State) (x0) (x1) (x2) (h : Keeps s0 x0) : Keeps s0 (State.setMeQueue x0 x1 x2) := by
  unfold State.setMeQueue
  refine State.setCore_keeps _ _ _ _ ?_
  with_reducible assumption

theorem enqueue_keeps (s0 : State) (x0) (x1) (x2) (h : Keeps s0 x2) : Keeps s0 (enqueue x0 x1 x2) := by
  unfold enqueue
  refine State.setMeQueue_keeps _ _ _ _ ?_
  refine State.setCore_keeps _ _ _ _ ?_
  with_reducible assumption

theorem execThLdx_keeps (s0 : State) (x0) (x1) (x2) (x3) (x4) (x5) (h : Keeps s0 x5) : ∃ t, execThLdx x0 x1 x2 x3 x4 x5 = .next t ∧ Keeps s0 t := by
  unfold execThLdx
  refine thread_keeps _ _ _ _ _ _ _ ?_ ?_
  · with_reducible assumption
  · intro v19_0 v19_1 v19_2
    refine Keeps.ite0 ?_ ?_
    · refine haltThread_keeps _ _ _ _ ?_
      with_reducible assumption
    · refine Keeps.ite0 ?_ ?_
      · refine haltThread_keeps _ _ _ _ ?_
        with_reducible assumption
      · refine Keeps.ite0 ?_ ?_
        · refine waitIn_keeps _ _ _ _ _ ?_
          with_reducible assumption
        · refine goNext_keeps _ _ _ _ ?_
          refine enqueue_keeps _ _ _ _ ?_
          with_reducible assumption

theorem execThStx_keeps (s0 : State) (x0) (x1) (x2) (x3) (x4) (x5) (h : Keeps s0 x5) : ∃ t, execThStx x0 x1 x2 x3 x4 x5 = .next t ∧ Keeps s0 t := by
  unfold execThStx
  refine thread_keeps _ _ _ _ _ _ _ ?_ ?_
  · with_reducible assumption
  · intro v20_0 v20_1 v20_2
    refine Keeps.ite0 ?_ ?_
    · refine haltThread_keeps _ _ _ _ ?_
      with_reducible assumption
    · refine Keeps.ite0 ?_ ?_
      · refine haltThread_keeps _ _ _ _ ?_
        with_reducible assumption
      · refine Keeps.ite0 ?_ ?_
        · refine waitIn_keeps _ _ _ _ _ ?_
          with_reducible assumption
        · refine goNext_keeps _ _ _ _ ?_
          refine enqueue_keeps _ _ _ _ ?_
          with_reducible assumption

theorem branch_keeps (s0 : State) (x0) (x1) (x2) (x3) (x4) (x5) (x6 : Sys2Proof.Word → Sys2Proof.Word → Bool) (x7) (h : Keeps s0 x7) : ∃ t, branch x0 x1 x2 x3 x4 x5 x6 x7 = .next t ∧ Keeps s0 t := by
  unfold branch
  refine thread_keeps _ _ _ _ _ _ _ ?_ ?_
  · with_reducible assumption
  · intro v21_0 v21_1 v21_2
    refine Keeps.ite0 ?_ ?_
    · refine goTo_keeps _ _ _ _ _ ?_
      with_reducible assumption
    · refine goNext_keeps _ _ _ _ ?_
      with_reducible assumption

theorem execThBeq_keeps (s0 : State) (x0) (x1) (x2) (x3) (x4) (x5) (h : Keeps s0 x5) : ∃ t, execThBeq x0 x1 x2 x3 x4 x5 = .next t ∧ Keeps s0 t := by
  unfold execThBeq
  refine branch_keeps _ _ _ _ _ _ _ _ _ ?_
  with_reducible assumption

theorem execThBne_keeps (s0 : State) (x0) (x1) (x2) (x3) (x4) (x5) (h : Keeps s0 x5) : ∃ t, execThBne x0 x1 x2 x3 x4 x5 = .next t ∧ Keeps s0 t := by
  unfold execThBne
  refine branch_keeps _ _ _ _ _ _ _ _ _ ?_
  with_reducible assumption

theorem execThBlt_keeps (s0 : State) (x0) (x1) (x2) (x3) (x4) (x5) (h : Keeps s0 x5) : ∃ t, execThBlt x0 x1 x2 x3 x4 x5 = .next t ∧ Keeps s0 t := by
  unfold execThBlt
  refine branch_keeps _ _ _ _ _ _ _ _ _ ?_
  with_reducible assumption

theorem execThBge_keeps (s0 : State) (x0) (x1) (x2) (x3) (x4) (x5) (h : Keeps s0 x5) : ∃ t, execThBge x0 x1 x2 x3 x4 x5 = .next t ∧ Keeps s0 t := by
  unfold execThBge
  refine branch_keeps _ _ _ _ _ _ _ _ _ ?_
  with_reducible assumption

theorem execThJmp_keeps (s0 : State) (x0) (x1) (x2) (x3) (x4) (x5) (h : Keeps s0 x5) : ∃ t, execThJmp x0 x1 x2 x3 x4 x5 = .next t ∧ Keeps s0 t := by
  unfold execThJmp
  refine thread_keeps _ _ _ _ _ _ _ ?_ ?_
  · with_reducible assumption
  · intro v22_0 v22_1 v22_2
    refine goTo_keeps _ _ _ _ _ ?_
    with_reducible assumption

theorem execThCmd_keeps (s0 : State) (x0) (x1) (x2) (x3) (x4) (x5) (h : Keeps s0 x5) : ∃ t, execThCmd x0 x1 x2 x3 x4 x5 = .next t ∧ Keeps s0 t := by
  unfold execThCmd
  refine thread_keeps _ _ _ _ _ _ _ ?_ ?_
  · with_reducible assumption
  · intro v23_0 v23_1 v23_2
    refine Keeps.ite0 ?_ ?_
    · refine haltThread_keeps _ _ _ _ ?_
      with_reducible assumption
    · refine Keeps.ite0 ?_ ?_
      · refine Keeps.ite0 ?_ ?_
        · refine waitIn_keeps _ _ _ _ _ ?_
          with_reducible assumption
        · refine goNext_keeps _ _ _ _ ?_
          refine enqueue_keeps _ _ _ _ ?_
          refine memRead_keeps _ _ _ _ _ ?_
          with_reducible assumption
      · refine Keeps.ite0 ?_ ?_
        · refine waitIn_keeps _ _ _ _ _ ?_
          with_reducible assumption
        · refine goNext_keeps _ _ _ _ ?_
          refine State.setCore_keeps _ _ _ _ ?_
          refine memRead_keeps _ _ _ _ _ ?_
          with_reducible assumption

theorem execThWaitc_keeps (s0 : State) (x0) (x1) (x2) (x3) (x4) (x5) (h : Keeps s0 x5) : ∃ t, execThWaitc x0 x1 x2 x3 x4 x5 = .next t ∧ Keeps s0 t := by
  unfold execThWaitc
  refine thread_keeps _ _ _ _ _ _ _ ?_ ?_
  · with_reducible assumption
  · intro v24_0 v24_1 v24_2
    refine Keeps.ite0 ?_ ?_
    · refine goNext_keeps _ _ _ _ ?_
      with_reducible assumption
    · refine waitIn_keeps _ _ _ _ _ ?_
      with_reducible assumption

theorem wakeCounters_keeps (s0 : State) (x0) (x1) (h : Keeps s0 x1) : Keeps s0 (wakeCounters x0 x1) := by
  unfold wakeCounters
  refine Keeps.foldl0 ?_ ?_
  · intro v398_0 v398_1 v398_2
    refine Keeps.ite0 ?_ ?_
    · refine goNext_keeps _ _ _ _ ?_
      with_reducible assumption
    · with_reducible assumption
  · with_reducible assumption

theorem execThSetc_keeps (s0 : State) (x0) (x1) (x2) (x3) (x4) (x5) (h : Keeps s0 x5) : ∃ t, execThSetc x0 x1 x2 x3 x4 x5 = .next t ∧ Keeps s0 t := by
  unfold execThSetc
  refine thread_keeps _ _ _ _ _ _ _ ?_ ?_
  · with_reducible assumption
  · intro v25_0 v25_1 v25_2
    refine wakeCounters_keeps _ _ _ ?_
    refine goNext_keeps _ _ _ _ ?_
    refine State.setCore_keeps _ _ _ _ ?_
    with_reducible assumption

theorem execThRdc_keeps (s0 : State) (x0) (x1) (x2) (x3) (x4) (x5) (h : Keeps s0 x5) : ∃ t, execThRdc x0 x1 x2 x3 x4 x5 = .next t ∧ Keeps s0 t := by
  unfold execThRdc
  refine thread_keeps _ _ _ _ _ _ _ ?_ ?_
  · with_reducible assumption
  · intro v26_0 v26_1 v26_2
    refine goNext_keeps _ _ _ _ ?_
    with_reducible assumption

theorem execThBar_keeps (s0 : State) (x0) (x1) (x2) (x3) (x4) (x5) (h : Keeps s0 x5) : ∃ t, execThBar x0 x1 x2 x3 x4 x5 = .next t ∧ Keeps s0 t := by
  unfold execThBar
  refine thread_keeps _ _ _ _ _ _ _ ?_ ?_
  · with_reducible assumption
  · intro v27_0 v27_1 v27_2
    refine releaseBarriers_keeps _ _ _ ?_
    refine State.setThread_keeps _ _ _ _ ?_
    with_reducible assumption

theorem execThWaitr_keeps (s0 : State) (x0) (x1) (x2) (x3) (x4) (x5) (h : Keeps s0 x5) : ∃ t, execThWaitr x0 x1 x2 x3 x4 x5 = .next t ∧ Keeps s0 t := by
  unfold execThWaitr
  refine thread_keeps _ _ _ _ _ _ _ ?_ ?_
  · with_reducible assumption
  · intro v28_0 v28_1 v28_2
    refine Keeps.ite0 ?_ ?_
    · refine goNext_keeps _ _ _ _ ?_
      with_reducible assumption
    · refine waitIn_keeps _ _ _ _ _ ?_
      with_reducible assumption

theorem execRidgeWaitResume_keeps (s0 : State) (x0) (x1) (h : Keeps s0 x1) : ∃ t, execRidgeWaitResume x0 x1 = .next t ∧ Keeps s0 t := by
  unfold execRidgeWaitResume
  refine Keeps.iteN ?_ ?_
  · refine ⟨_, rfl, ?_⟩
    refine goNext_keeps _ _ _ _ ?_
    with_reducible assumption
  · refine ⟨_, rfl, ?_⟩
    with_reducible assumption

theorem execThRdr_keeps (s0 : State) (x0) (x1) (x2) (x3) (x4) (x5) (h : Keeps s0 x5) : ∃ t, execThRdr x0 x1 x2 x3 x4 x5 = .next t ∧ Keeps s0 t := by
  unfold execThRdr
  refine thread_keeps _ _ _ _ _ _ _ ?_ ?_
  · with_reducible assumption
  · intro v29_0 v29_1 v29_2
    refine goNext_keeps _ _ _ _ ?_
    with_reducible assumption

theorem execThRdimp_keeps (s0 : State) (x0) (x1) (x2) (x3) (x4) (x5) (h : Keeps s0 x5) : ∃ t, execThRdimp x0 x1 x2 x3 x4 x5 = .next t ∧ Keeps s0 t := by
  unfold execThRdimp
  refine thread_keeps _ _ _ _ _ _ _ ?_ ?_
  · with_reducible assumption
  · intro v30_0 v30_1 v30_2
    refine goNext_keeps _ _ _ _ ?_
    with_reducible assumption

theorem wakeFence_keeps (s0 : State) (x0) (x1) (h : Keeps s0 x1) : Keeps s0 (wakeFence x0 x1) := by
  unfold wakeFence
  refine Keeps.ite0 ?_ ?_
  · refine goNext_keeps _ _ _ _ ?_
    with_reducible assumption
  · with_reducible assumption

theorem execThFence_keeps (s0 : State) (x0) (x1) (x2) (x3) (x4) (x5) (h : Keeps s0 x5) : ∃ t, execThFence x0 x1 x2 x3 x4 x5 = .next t ∧ Keeps s0 t := by
  unfold execThFence
  refine thread_keeps _ _ _ _ _ _ _ ?_ ?_
  · with_reducible assumption
  · intro v31_0 v31_1 v31_2
    refine Keeps.ite0 ?_ ?_
    · refine goNext_keeps _ _ _ _ ?_
      with_reducible assumption
    · refine waitIn_keeps _ _ _ _ _ ?_
      with_reducible assumption

theorem execThEnd_keeps (s0 : State) (x0) (x1) (x2) (x3) (x4) (x5) (h : Keeps s0 x5) : ∃ t, execThEnd x0 x1 x2 x3 x4 x5 = .next t ∧ Keeps s0 t := by
  unfold execThEnd
  refine thread_keeps _ _ _ _ _ _ _ ?_ ?_
  · with_reducible assumption
  · intro v32_0 v32_1 v32_2
    refine Keeps.ite0 ?_ ?_
    · refine waitIn_keeps _ _ _ _ _ ?_
      with_reducible assumption
    · refine releaseBarriers_keeps _ _ _ ?_
      refine State.setThread_keeps _ _ _ _ ?_
      with_reducible assumption

theorem stopEngines_keeps (s0 : State) (x0) (x1) (h : Keeps s0 x1) : Keeps s0 (stopEngines x0 x1) := by
  unfold stopEngines
  refine State.setCore_keeps _ _ _ _ ?_
  with_reducible assumption

/-! ### MeOps -/

theorem copySeg_keeps (s0 : State) (x0) (x1) (x2) (x3) (x4) (x5) (h : Keeps s0 x5) : Keeps s0 ((copySeg x0 x1 x2 x3 x4 x5).2) := by
  unfold copySeg
  refine coreWrite_keeps _ _ _ _ _ _ _ ?_
  refine coreRead_keeps _ _ _ _ _ _ ?_
  with_reducible assumption

theorem copyBytes_keeps (s0 : State) (x0) (x1) (x2) (x3) (x4) (x5) (h : Keeps s0 x5) : Keeps s0 (copyBytes x0 x1 x2 x3 x4 x5).2 := by
  unfold copyBytes
  refine Keeps.foldl1 ?_ ?_
  · intro v33 v33_b v33_h
    refine Keeps.of1 ?_
    refine Keeps1.mk ?_
    refine copySeg_keeps _ _ _ _ _ _ _ ?_
    with_reducible assumption
  · refine Keeps.of1 ?_
    refine Keeps1.mk ?_
    refine coreStall_keeps _ _ _ _ _ _ ?_
    refine coreStall_keeps _ _ _ _ _ _ ?_
    with_reducible assumption

theorem movePiece_keeps (s0 : State) (x0) (x1) (x2) (x3) (x4) (x5) (h : Keeps s0 x5) : Keeps s0 (movePiece x0 x1 x2 x3 x4 x5).2 := by
  unfold movePiece
  refine Keeps.of1 ?_
  split
  · refine Keeps1.ite ?_ ?_
    · refine Keeps1.mk ?_
      with_reducible assumption
    · refine Keeps1.mk ?_
      refine pushJob_keeps _ _ _ _ _ _ ?_
      refine coreRead_keeps _ _ _ _ _ _ ?_
      refine coreStall_keeps _ _ _ _ _ _ ?_
      with_reducible assumption
  · refine Keeps1.ite ?_ ?_
    · refine Keeps1.mk ?_
      with_reducible assumption
    · refine Keeps1.mk ?_
      refine copyBytes_keeps _ _ _ _ _ _ _ ?_
      with_reducible assumption

theorem moveRow_keeps (s0 : State) (x0) (x1) (x2) (x3) (x4) (x5) (h : Keeps s0 (x5).2) : Keeps s0 (moveRow x0 x1 x2 x3 x4 x5).2 := by
  unfold moveRow
  refine Keeps.foldl1 ?_ ?_
  · intro v34 v34_b v34_h
    refine Keeps.of1 ?_
    refine Keeps1.ite ?_ ?_
    · refine Keeps1.of ?_
      with_reducible assumption
    · refine Keeps1.mk ?_
      refine movePiece_keeps _ _ _ _ _ _ _ ?_
      with_reducible assumption
  · with_reducible assumption

theorem updHomeCore_keeps (s0 : State) (x0) (x1) (x2) (x3) (h : Keeps s0 x3) : Keeps s0 (updHomeCore x0 x1 x2 x3) := by
  unfold updHomeCore
  split
  · split
    · refine State.setCtx_keeps _ _ _ _ ?_
      with_reducible assumption
    · with_reducible assumption
  · refine State.setCore_keeps _ _ _ _ ?_
    with_reducible assumption

theorem updHomeThread_keeps (s0 : State) (x0) (x1) (x2) (x3) (h : Keeps s0 x3) : Keeps s0 (updHomeThread x0 x1 x2 x3) := by
  unfold updHomeThread
  split
  · refine State.setThread_keeps _ _ _ _ ?_
    with_reducible assumption
  · refine State.setCtx_keeps _ _ _ _ ?_
    with_reducible assumption
  · refine State.setCore_keeps _ _ _ _ ?_
    with_reducible assumption

theorem putEntry_keeps (s0 : State) (x0) (x1) (x2) (x3) (x4) (x5) (h : Keeps s0 x5) : Keeps s0 (putEntry x0 x1 x2 x3 x4 x5) := by
  unfold putEntry
  refine updHomeCore_keeps _ _ _ _ _ ?_
  with_reducible assumption

theorem homeRetire_keeps (s0 : State) (x0) (x1) (x2) (x3) (x4) (x5) (x6) (h : Keeps s0 x6) : Keeps s0 (homeRetire x0 x1 x2 x3 x4 x5 x6) := by
  unfold homeRetire
  split
  · refine State.setCore_keeps _ _ _ _ ?_
    with_reducible assumption
  · refine updHomeCore_keeps _ _ _ _ _ ?_
    with_reducible assumption

theorem retireHead_keeps (s0 : State) (x0) (x1) (x2) (x3) (x4) (h : Keeps s0 x4) : Keeps s0 (retireHead x0 x1 x2 x3 x4) := by
  unfold retireHead
  refine Keeps.ite0 ?_ ?_
  · refine putEntry_keeps _ _ _ _ _ _ _ ?_
    with_reducible assumption
  · split
    · refine updHomeCore_keeps _ _ _ _ _ ?_
      refine homeRetire_keeps _ _ _ _ _ _ _ _ ?_
      refine putEntry_keeps _ _ _ _ _ _ _ ?_
      with_reducible assumption
    · refine homeRetire_keeps _ _ _ _ _ _ _ _ ?_
      refine putEntry_keeps _ _ _ _ _ _ _ ?_
      with_reducible assumption

theorem retireAside_keeps (s0 : State) (x0) (x1) (x2) (x3) (x4) (h : Keeps s0 x4) : Keeps s0 (retireAside x0 x1 x2 x3 x4) := by
  induction x3 generalizing x4 with
  | zero => exact h
  | succ n ih =>
    unfold retireAside
    dsimp only
    split
    · split
      · exact ih _ (retireHead_keeps _ _ _ _ _ _ h)
      · exact h
    · exact h

theorem countSaved_keeps (s0 : State) (x0) (x1) (h : Keeps s0 x1) : Keeps s0 (countSaved x0 x1) := by
  unfold countSaved
  split
  · with_reducible assumption
  · refine ctxCount_keeps _ _ _ _ ?_
    with_reducible assumption
  · refine ctxCount_keeps _ _ _ _ ?_
    with_reducible assumption

theorem retireFlags_keeps (s0 : State) (x0) (x1) (x2) (x3) (x4) (x5) (x6) (h : Keeps s0 x6) : Keeps s0 (retireFlags x0 x1 x2 x3 x4 x5 x6) := by
  unfold retireFlags
  split
  · with_reducible assumption
  · split
    · refine wakeCounters_keeps _ _ _ ?_
      refine homeRetire_keeps _ _ _ _ _ _ _ _ ?_
      with_reducible assumption
    · refine countSaved_keeps _ _ _ ?_
      refine homeRetire_keeps _ _ _ _ _ _ _ _ ?_
      with_reducible assumption

theorem retireFor_keeps (s0 : State) (x0) (x1) (x2) (x3) (x4) (h : Keeps s0 x4) : Keeps s0 (retireFor x0 x1 x2 x3 x4) := by
  unfold retireFor
  refine retireFlags_keeps _ _ _ _ _ _ _ _ ?_
  with_reducible assumption

theorem ownWrite_keeps (s0 : State) (x0) (x1) (x2) (x3) (x4) (h : Keeps s0 x4) : ∀ t, ownWrite x0 x1 x2 x3 x4 = some t → Keeps s0 ((t).2) := by
  intro t ht
  obtain ⟨a, -, rfl⟩ := Option.map_eq_some_iff.mp ht
  exact notifyWindow_keeps _ _ _ _ _ (homeWrite_keeps _ _ _ _ _ _ _ _ (storeRace_keeps _ _ _ _ _ h)) fun _ _ _ _ hy =>
    retireFor_keeps _ _ _ _ _ _ hy

theorem deviceWrite_keeps (s0 : State) (x0) (x1) (x2) (x3) (x4) (x5) (x6) (h : Keeps s0 x6) : ∀ t, deviceWrite x0 x1 x2 x3 x4 x5 x6 = some t → Keeps s0 t := by
  unfold deviceWrite
  refine Keeps.iteO ?_ (sendRequest_keeps _ _ _ _ _ _ _ _ _ _ _ _ _ _ h)
  intro t ht
  obtain rfl := Option.some.inj ht
  cases e : ownWrite (readFabAddr x3) x4 x5 (fun _ => false) x6 with
  | none => exact h
  | some r => exact ownWrite_keeps _ _ _ _ _ _ h r e

theorem sendPiece_keeps (s0 : State) (x0) (h : Keeps s0 x0) : ∀ t, sendPiece x0 = some t → Keeps s0 t := by
  unfold sendPiece
  split
  · exact fun _ w => nomatch w
  · extract_lets +onlyGivenNames src s1
    have h1 : Keeps s0 s1 := Keeps.upd h rfl
    exact Keeps.iteO (P := fun t => Keeps s0 t) (fun t w => Option.some.inj w ▸ h1) (deviceWrite_keeps _ _ _ _ _ _ _ _ h1)

theorem pumpMirror_keeps (s0 : State) (x0) (x1) (h : Keeps s0 x1) : Keeps s0 (pumpMirror x0 x1) := by
  induction x0 generalizing x1 with
  | zero => exact h
  | succ n ih =>
    unfold pumpMirror
    split
    · exact h
    · rename_i q
      exact ih _ (sendPiece_keeps _ _ h _ q)

theorem finishLd_keeps (s0 : State) (x0) (x1) (x2) (x3) (x4) (x5) (h : Keeps s0 x5) : Keeps s0 (finishLd x0 x1 x2 x3 x4 x5) := by
  unfold finishLd
  refine Keeps.ite0 ?_ ?_
  · refine Keeps.ite0 ?_ ?_
    · refine updHomeThread_keeps _ _ _ _ _ ?_
      with_reducible assumption
    · with_reducible assumption
  · split
    · split
      · refine haltThread_keeps _ _ _ _ ?_
        refine updHomeThread_keeps _ _ _ _ _ ?_
        with_reducible assumption
      · refine updHomeThread_keeps _ _ _ _ _ ?_
        refine updHomeThread_keeps _ _ _ _ _ ?_
        with_reducible assumption
    · split
      · refine haltThread_keeps _ _ _ _ ?_
        with_reducible assumption
      · refine updHomeThread_keeps _ _ _ _ _ ?_
        with_reducible assumption

theorem acknowledge_keeps (s0 : State) (x0) (x1) (x2) (x3) (x4) (x5) (x6) (h : Keeps s0 x6) : Keeps s0 (acknowledge x0 x1 x2 x3 x4 x5 x6) := by
  unfold acknowledge
  extract_lets
  split
  · with_reducible assumption
  · refine Keeps.ite0 ?_ ?_
    · refine wakeFence_keeps _ _ _ ?_
      refine Keeps.ite0 ?_ ?_
      · refine countSaved_keeps _ _ _ ?_
        refine updHomeThread_keeps _ _ _ _ _ ?_
        refine putEntry_keeps _ _ _ _ _ _ _ ?_
        with_reducible assumption
      · refine finishLd_keeps _ _ _ _ _ _ _ ?_
        refine putEntry_keeps _ _ _ _ _ _ _ ?_
        refine countSaved_keeps _ _ _ ?_
        refine updHomeThread_keeps _ _ _ _ _ ?_
        refine putEntry_keeps _ _ _ _ _ _ _ ?_
        with_reducible assumption
    · refine retireAside_keeps _ _ _ _ _ _ ?_
      refine Keeps.ite0 ?_ ?_
      · refine countSaved_keeps _ _ _ ?_
        refine updHomeThread_keeps _ _ _ _ _ ?_
        refine putEntry_keeps _ _ _ _ _ _ _ ?_
        with_reducible assumption
      · refine finishLd_keeps _ _ _ _ _ _ _ ?_
        refine putEntry_keeps _ _ _ _ _ _ _ ?_
        refine countSaved_keeps _ _ _ ?_
        refine updHomeThread_keeps _ _ _ _ _ ?_
        refine putEntry_keeps _ _ _ _ _ _ _ ?_
        with_reducible assumption

theorem landMemory_keeps (s0 : State) (x0) (x1) (x2) (x3) (x4) (x5) (x6) (h : Keeps s0 x6) : Keeps s0 (landMemory x0 x1 x2 x3 x4 x5 x6).2 := by
  unfold landMemory
  refine Keeps.of1 ?_
  refine Keeps1.ite ?_ ?_
  · refine Keeps1.mk ?_
    with_reducible assumption
  · refine Keeps1.of ?_
    refine Keeps.foldl1 ?_ ?_
    · intro v35 v35_b v35_h
      refine Keeps.of1 ?_
      refine Keeps1.mk ?_
      refine coreWrite_keeps _ _ _ _ _ _ _ ?_
      with_reducible assumption
    · refine Keeps.of1 ?_
      refine Keeps1.mk ?_
      refine coreStall_keeps _ _ _ _ _ _ ?_
      with_reducible assumption

theorem landData_keeps (s0 : State) (x0) (x1) (x2) (x3) (x4) (x5) (x6) (h : Keeps s0 x6) : Keeps s0 (landData x0 x1 x2 x3 x4 x5 x6).2 := by
  unfold landData
  refine Keeps.of1 ?_
  split
  · refine Keeps1.of ?_
    refine landMemory_keeps _ _ _ _ _ _ _ _ ?_
    with_reducible assumption
  · refine Keeps1.mk ?_
    refine pushJob_keeps _ _ _ _ _ _ ?_
    with_reducible assumption

theorem finishDesc_keeps (s0 : State) (x0) (x1) (x2) (x3) (h : Keeps s0 x3) : Keeps s0 (finishDesc x0 x1 x2 x3) := by
  unfold finishDesc
  refine putEntry_keeps _ _ _ _ _ _ _ ?_
  with_reducible assumption

theorem startDesc_keeps (s0 : State) (x0) (x1) (x2) (x3) (x4) (h : Keeps s0 x4) : Keeps s0 (startDesc x0 x1 x2 x3 x4) := by
  unfold startDesc
  refine putEntry_keeps _ _ _ _ _ _ _ ?_
  with_reducible assumption

theorem runDesc_keeps (s0 : State) (x0) (x1) (x2) (x3 : Sys2Proof.Machine.State → Sys2Proof.Machine.Desc → Bool) (x4 : Nat → Sys2Proof.Machine.MeEntry → Sys2Proof.Machine.Desc → Sys2Proof.Machine.State → Sys2Proof.Machine.State) (x5) (h : Keeps s0 x5) (hx4 : ∀ y0 y1 y2 y3, Keeps s0 y3 → Keeps s0 (x4 y0 y1 y2 y3)) : ∃ t, runDesc x0 x1 x2 x3 x4 x5 = .next t ∧ Keeps s0 t := by
  unfold runDesc
  (dsimp only; split)
  · refine ⟨_, rfl, ?_⟩
    with_reducible assumption
  · refine Keeps.iteN ?_ ?_
    · refine ⟨_, rfl, ?_⟩
      with_reducible assumption
    · refine Keeps.iteN ?_ ?_
      · refine ⟨_, rfl, ?_⟩
        refine finishDesc_keeps _ _ _ _ _ ?_
        with_reducible assumption
      · refine Keeps.iteN ?_ ?_
        · refine ⟨_, rfl, ?_⟩
          with_reducible assumption
        · refine Keeps.iteN ?_ ?_
          · refine ⟨_, rfl, ?_⟩
            refine finishDesc_keeps _ _ _ _ _ ?_
            with_reducible assumption
          · refine ⟨_, rfl, ?_⟩
            refine hx4 _ _ _ _ ?_
            with_reducible assumption

/-! ### TierOps -/

theorem updMem_keeps (s0 : State) (x0 : MemTiers → MemTiers) (x1) (h : Keeps s0 x1) (hx0 : ∀ m, (x0 m).mem = m.mem) :
    Keeps s0 (updMem x0 x1) := ⟨h.pending, h.out, h.free, fun w => (congrArg Mem.wf (hx0 _)).trans (h.mem w)⟩

theorem State.setPage_keeps (s0 : State) (x0) (x1) (x2) (h : Keeps s0 x0) : Keeps s0 (State.setPage x0 x1 x2) := by
  unfold State.setPage
  refine updMem_keeps _ _ _ ?_ ?_
  · with_reducible assumption
  · intro v78_0
    rfl

theorem setDirty_keeps (s0 : State) (x0) (x1) (x2) (h : Keeps s0 x2) : Keeps s0 (setDirty x0 x1 x2) := by
  unfold setDirty
  refine updMem_keeps _ _ _ ?_ ?_
  · with_reducible assumption
  · intro v78_0
    rfl

theorem trackFrame_keeps (s0 : State) (x0) (x1) (x2) (h : Keeps s0 x2) : Keeps s0 (trackFrame x0 x1 x2) := by
  unfold trackFrame
  refine updMem_keeps _ _ _ ?_ ?_
  · with_reducible assumption
  · intro v78_0
    rfl

theorem noteUnpinned_keeps (s0 : State) (x0) (x1) (h : Keeps s0 x1) : Keeps s0 (noteUnpinned x0 x1) := by
  unfold noteUnpinned
  refine updMem_keeps _ _ _ ?_ ?_
  · with_reducible assumption
  · intro v78_0
    rfl

theorem tierSpend_keeps (s0 : State) (x0) (x1) (x2) (h : Keeps s0 x2) : Keeps s0 (tierSpend x0 x1 x2).2 := by
  unfold tierSpend
  refine Keeps.of1 ?_
  refine Keeps1.mk ?_
  refine updMem_keeps _ _ _ ?_ ?_
  · with_reducible assumption
  · intro v36_0
    rfl

theorem spendPage_keeps (s0 : State) (x0) (x1) (x2) (h : Keeps s0 x2) : Keeps s0 (spendPage x0 x1 x2) := by
  unfold spendPage
  refine State.setPage_keeps _ _ _ _ ?_
  refine tierSpend_keeps _ _ _ _ ?_
  with_reducible assumption

theorem copyWords_keeps (s0 : State) (x0) (x1) (x2) (x3) (h : Keeps s0 x3) : Keeps s0 ((copyWords x0 x1 x2 x3).2) := by
  unfold copyWords
  refine Keeps.foldl0 ?_ ?_
  · intro v398_0 v398_1 v398_2
    refine memPoison_keeps _ _ _ _ ?_
    with_reducible assumption
  · refine memWrite_keeps _ _ _ _ ?_
    refine memRead_keeps _ _ _ _ _ ?_
    with_reducible assumption

theorem copySectors_keeps (s0 : State) (x0) (x1) (x2) (x3) (h : Keeps s0 x3) : Keeps s0 ((copySectors x0 x1 x2 x3).2) := by
  unfold copySectors
  refine Keeps.foldl1 ?_ ?_
  · intro v398_0 v398_1 v398_2
    refine copyWords_keeps _ _ _ _ _ ?_
    with_reducible assumption
  · with_reducible assumption

theorem updFlash_keeps (s0 : State) (x0) (x1) (h : Keeps s0 x1) : Keeps s0 (updFlash x0 x1) := by
  unfold updFlash
  refine updMem_keeps _ _ _ ?_ ?_
  · with_reducible assumption
  · intro v78_0
    rfl

theorem flashCountBy_keeps (s0 : State) (x0) (x1) (x2) (h : Keeps s0 x2) : Keeps s0 (flashCountBy x0 x1 x2) := by
  unfold flashCountBy
  refine updFlash_keeps _ _ _ ?_
  with_reducible assumption

theorem flashCount_keeps (s0 : State) (x0) (x1) (h : Keeps s0 x1) : Keeps s0 (flashCount x0 x1) := by
  unfold flashCount
  refine updFlash_keeps _ _ _ ?_
  with_reducible assumption

theorem flashAppend_keeps (s0 : State) (x0) (x1) (h : Keeps s0 x1) : ∀ t, flashAppend x0 x1 = some t → Keeps s0 ((t).2) := by
  intro t ht
  unfold flashAppend at ht
  obtain ⟨p, _, hp⟩ := Option.map_eq_some_iff.mp ht
  subst hp
  exact Keeps.mk1 (updFlash_keeps _ _ _ h)

theorem readFrame_keeps (s0 : State) (x0) (x1) (h : Keeps s0 x1) : Keeps s0 (readFrame x0 x1).2 := by
  unfold readFrame
  refine Keeps.of1 ?_
  refine Keeps1.mk ?_
  refine checkRange_keeps _ _ _ _ _ ?_
  with_reducible assumption

theorem killStripes_keeps (s0 : State) (x0) (x1) (h : Keeps s0 x1) : Keeps s0 (killStripes x0 x1) := by
  unfold killStripes
  refine updFlash_keeps _ _ _ ?_
  with_reducible assumption

theorem countCorrected_keeps (s0 : State) (x0) (x1) (x2) (h : Keeps s0 x2) : Keeps s0 (countCorrected x0 x1 x2) := by
  unfold countCorrected
  refine Keeps.ite0 ?_ ?_
  · with_reducible assumption
  · refine updMem_keeps _ _ _ ?_ ?_
    · with_reducible assumption
    · intro v37_0
      rfl

theorem readStripe_keeps (s0 : State) (x0) (x1) (x2) (x3) (h : Keeps s0 x3) : Keeps s0 (((readStripe x0 x1 x2 x3).2).2) := by
  unfold readStripe
  refine Keeps.of2 ?_
  extract_lets f x raw s1 ws left
  have h1 : Keeps s0 s1 := flashCount_keeps _ _ _ h
  clear_value raw ws
  refine Keeps2.ite (Keeps2.mk (Keeps1.mk ?_)) (Keeps2.mk (Keeps1.mk (countCorrected_keeps _ _ _ _ h1)))
  have h2 := flashCount_keeps s0 2 _ (countCorrected_keeps s0 x0 (readSectors x2 ws) _ (flashCountBy_keeps s0 0 15 s1 h1))
  split
  · exact flashCount_keeps _ _ _ h2
  · exact h2

theorem Mem.wf_storeWords {a b : Nat} {ws : List ((BitVec 128 × BitVec 16) × Nat)} {m : Mem} (h : m.wf = true) :
    (ws.foldl (fun (mem : Mem) w =>
      (mem.setBytes (a + 16 * w.2) (leBytes 16 w.1.1.toNat)).setDiff (b + w.2) w.1.2) m).wf = true := by
  induction ws generalizing m with
  | nil => exact h
  | cons w r ih => exact ih (Mem.wf_setDiff (Mem.wf_setBytes h))

theorem storeFrameWords_keeps (s0 : State) (x0) (x1) (x2) (h : Keeps s0 x2) : Keeps s0 (storeFrameWords x0 x1 x2) :=
  ⟨h.pending, h.out, h.free, fun w => Mem.wf_storeWords (h.mem w)⟩

theorem readFlashPage_keeps (s0 : State) (x0) (x1) (x2) (x3) (h : Keeps s0 x3) : Keeps s0 ((readFlashPage x0 x1 x2 x3).2) := by
  unfold readFlashPage
  refine Keeps.foldl1 ?_ h
  intro p i hp
  refine Keeps.of1 ?_
  extract_lets sk r s1 bad
  have h1 : Keeps s0 s1 := by
    have hr : Keeps s0 r.2.2 := readStripe_keeps _ _ _ _ _ hp
    exact ⟨hr.pending, hr.out, hr.free, fun w => Mem.wf_storeWords (hr.mem w)⟩
  refine Keeps1.mk ?_
  clear_value bad
  cases bad with
  | none => exact h1
  | some w => exact logUncorrectable_keeps _ _ _ _ h1

theorem rehome_keeps (s0 : State) (x0) (x1) (x2) (h : Keeps s0 x2) : Keeps s0 (rehome x0 x1 x2) := by
  unfold rehome
  split
  · rename_i q11
    refine (fun k12 => ?_) (flashAppend_keeps s0 _ _ ?_ _ q11)
    rotate_left
    · with_reducible assumption
    refine killStripes_keeps _ _ _ ?_
    refine updFlash_keeps _ _ _ ?_
    refine State.setPage_keeps _ _ _ _ ?_
    with_reducible assumption
  · with_reducible assumption

theorem State.setXfer_keeps (s0 : State) (x0) (x1) (x2) (h : Keeps s0 x0) : Keeps s0 (State.setXfer x0 x1 x2) := by
  unfold State.setXfer
  refine updMem_keeps _ _ _ ?_ ?_
  · with_reducible assumption
  · intro v78_0
    rfl

theorem landPiece_keeps (s0 : State) (x0) (x1) (x2) (x3) (x4) (h : Keeps s0 x0) : Keeps s0 (landPiece x0 x1 x2 x3 x4) := by
  unfold landPiece
  extract_lets
  split
  · refine Keeps.foldl0 ?_ ?_
    · intro v13 v13_b v13_h
      refine memWriteP_keeps _ _ _ _ _ ?_
      with_reducible assumption
    · refine spendPage_keeps _ _ _ _ ?_
      with_reducible assumption
  · refine State.setXfer_keeps _ _ _ _ ?_
    with_reducible assumption

theorem stopXfer_keeps (s0 : State) (x0) (x1) (x2) (h : Keeps s0 x2) : Keeps s0 (stopXfer x0 x1 x2) := by
  unfold stopXfer
  split
  · refine State.setXfer_keeps _ _ _ _ ?_
    with_reducible assumption
  · with_reducible assumption

theorem spendPiece_keeps (s0 : State) (x0) (x1) (h : Keeps s0 x1) : Keeps s0 (spendPiece x0 x1) := by
  unfold spendPiece
  split
  · refine Keeps.ite0 ?_ ?_
    · with_reducible assumption
    · refine tierSpend_keeps _ _ _ _ ?_
      refine checkRange_keeps _ _ _ _ _ ?_
      with_reducible assumption
  · with_reducible assumption

theorem pumpOne_keeps (s0 : State) (x0) (x1) (h : Keeps s0 x1) : Keeps s0 (pumpOne x0 x1).2 := by
  unfold pumpOne
  refine Keeps.of1 ?_
  split
  · refine Keeps1.mk ?_
    with_reducible assumption
  · refine Keeps1.ite ?_ ?_
    · refine Keeps1.mk ?_
      with_reducible assumption
    · refine Keeps1.ite ?_ ?_
      · refine Keeps1.mk ?_
        refine stopXfer_keeps _ _ _ _ ?_
        with_reducible assumption
      · refine Keeps1.ite ?_ ?_
        · refine Keeps1.ite ?_ ?_
          · refine Keeps1.mk ?_
            refine stopXfer_keeps _ _ _ _ ?_
            with_reducible assumption
          · refine Keeps1.ite ?_ ?_
            · refine Keeps1.mk ?_
              refine landPiece_keeps _ _ _ _ _ _ ?_
              refine State.setXfer_keeps _ _ _ _ ?_
              refine homeRead_keeps _ _ _ _ _ ?_
              refine spendPiece_keeps _ _ _ ?_
              with_reducible assumption
            · refine Keeps1.mk ?_
              refine State.setXfer_keeps _ _ _ _ ?_
              refine homeWrite_keeps _ _ _ _ _ _ _ _ ?_
              refine storeRace_keeps _ _ _ _ _ ?_
              refine spendPiece_keeps _ _ _ ?_
              with_reducible assumption
        · split
          · refine Keeps1.mk ?_
            with_reducible assumption
          · rename_i q14
            refine (fun k15 => ?_) (sendRequest_keeps s0 _ _ _ _ _ _ _ _ _ _ _ _ _ ?_ _ q14)
            rotate_left
            · with_reducible assumption
            refine Keeps1.mk ?_
            refine State.setXfer_keeps _ _ _ _ ?_
            refine spendPiece_keeps _ _ _ ?_
            with_reducible assumption

theorem pumpXfer_keeps (s0 : State) (x0) (x1) (x2) (h : Keeps s0 x2) : Keeps s0 (pumpXfer x0 x1 x2) := by
  induction x0 generalizing x2 with
  | zero => exact h
  | succ k ih =>
    unfold pumpXfer
    have hk := pumpOne_keeps s0 x1 x2 h
    revert hk
    generalize pumpOne x1 x2 = o
    intro hk
    obtain ⟨b, s1⟩ := o
    cases b
    · exact hk
    · exact ih _ hk

theorem startXfer_keeps (s0 : State) (x0) (x1) (h : Keeps s0 x1) : Keeps s0 (startXfer x0 x1) := by
  unfold startXfer
  refine pumpXfer_keeps _ _ _ _ ?_
  refine updMem_keeps _ _ _ ?_ ?_
  · with_reducible assumption
  · intro v77_0
    rfl

theorem pumpAll_keeps (s0 : State) (x0) (h : Keeps s0 x0) : Keeps s0 (pumpAll x0) := by
  unfold pumpAll
  refine Keeps.foldl0 ?_ ?_
  · intro v44 v44_b v44_h
    refine pumpXfer_keeps _ _ _ _ ?_
    with_reducible assumption
  · with_reducible assumption

theorem dropXfers_keeps (s0 : State) (x0) (x1) (h : Keeps s0 x1) : Keeps s0 (dropXfers x0 x1) := by
  unfold dropXfers
  refine Keeps.foldl0 ?_ ?_
  · intro v78_0 v78_1 v78_2
    refine State.setXfer_keeps _ _ _ _ ?_
    with_reducible assumption
  · with_reducible assumption

theorem failXfers_keeps (s0 : State) (x0) (x1) (h : Keeps s0 x1) : Keeps s0 (failXfers x0 x1) := by
  unfold failXfers
  refine Keeps.foldl0 ?_ ?_
  · intro v78_0 v78_1 v78_2
    split
    · refine Keeps.ite0 ?_ ?_
      · with_reducible assumption
      · refine stopXfer_keeps _ _ _ _ ?_
        with_reducible assumption
    · with_reducible assumption
  · with_reducible assumption

theorem evict_keeps (s0 : State) (x0) (x1) (h : Keeps s0 x1) : Keeps s0 (evict x0 x1) := by
  unfold evict
  refine updMem_keeps _ _ _ ?_ ?_
  · refine trackFrame_keeps _ _ _ _ ?_
    refine State.setPage_keeps _ _ _ _ ?_
    with_reducible assumption
  · intro v78_0
    rfl

theorem takeFrame_keeps (s0 : State) (x0) (x1) (h : Keeps s0 x1) : ∀ t, takeFrame x0 x1 = some t → Keeps s0 ((t).2) := by
  intro t ht
  unfold takeFrame at ht
  cases hf : freePoolFrames x1 x0 with
  | cons f r => rw [hf] at ht; cases Option.some.inj ht; exact trackFrame_keeps _ _ _ _ h
  | nil =>
    rw [hf] at ht
    cases he : evictable x1 x0 with
    | none => rw [he] at ht; cases ht
    | some k => rw [he] at ht; cases Option.some.inj ht; exact trackFrame_keeps _ _ _ _ (evict_keeps _ _ _ h)

theorem fetchPage_keeps (s0 : State) (x0) (x1) (x2) (x3) (h : Keeps s0 x3) : Keeps s0 (fetchPage x0 x1 x2 x3).2 := by
  unfold fetchPage
  refine Keeps.of1 ?_
  split
  · refine Keeps1.mk ?_
    with_reducible assumption
  · split
    · split
      · extract_lets
        split
        · refine Keeps1.mk ?_
          with_reducible assumption
        · refine Keeps1.mk ?_
          with_reducible assumption
        · refine Keeps1.mk ?_
          refine State.setPage_keeps _ _ _ _ ?_
          with_reducible assumption
        · refine Keeps1.mk ?_
          refine updMem_keeps _ _ _ ?_ ?_
          · refine State.setPage_keeps _ _ _ _ ?_
            with_reducible assumption
          · intro v6_0
            rfl
      · extract_lets
        split
        · refine Keeps1.mk ?_
          with_reducible assumption
        · refine Keeps1.mk ?_
          with_reducible assumption
        · refine Keeps1.mk ?_
          refine State.setPage_keeps _ _ _ _ ?_
          with_reducible assumption
        · refine Keeps1.mk ?_
          refine State.setPage_keeps _ _ _ _ ?_
          with_reducible assumption
    · rename_i q7
      refine (fun k8 => ?_) (takeFrame_keeps s0 _ _ ?_ _ q7)
      rotate_left
      · with_reducible assumption
      split
      · extract_lets
        split
        · refine Keeps1.mk ?_
          refine State.setPage_keeps _ _ _ _ ?_
          refine trackFrame_keeps _ _ _ _ ?_
          refine memClear_keeps _ _ _ _ ?_
          with_reducible assumption
        · refine Keeps1.ite ?_ ?_
          · refine Keeps1.mk ?_
            refine State.setPage_keeps _ _ _ _ ?_
            with_reducible assumption
          · refine Keeps1.ite ?_ ?_
            · refine Keeps1.mk ?_
              refine startXfer_keeps _ _ _ ?_
              refine State.setPage_keeps _ _ _ _ ?_
              with_reducible assumption
            · refine Keeps1.mk ?_
              refine spendPage_keeps _ _ _ _ ?_
              refine State.setPage_keeps _ _ _ _ ?_
              with_reducible assumption
        · refine Keeps1.mk ?_
          refine State.setPage_keeps _ _ _ _ ?_
          with_reducible assumption
        · refine Keeps1.mk ?_
          refine updMem_keeps _ _ _ ?_ ?_
          · refine State.setPage_keeps _ _ _ _ ?_
            with_reducible assumption
          · intro v9_0
            rfl
      · extract_lets
        split
        · refine Keeps1.mk ?_
          refine noteUnpinned_keeps _ _ _ ?_
          refine State.setPage_keeps _ _ _ _ ?_
          refine trackFrame_keeps _ _ _ _ ?_
          refine memClear_keeps _ _ _ _ ?_
          with_reducible assumption
        · refine Keeps1.ite ?_ ?_
          · refine Keeps1.mk ?_
            refine State.setPage_keeps _ _ _ _ ?_
            with_reducible assumption
          · refine Keeps1.ite ?_ ?_
            · refine Keeps1.mk ?_
              refine startXfer_keeps _ _ _ ?_
              refine State.setPage_keeps _ _ _ _ ?_
              with_reducible assumption
            · refine Keeps1.mk ?_
              refine spendPage_keeps _ _ _ _ ?_
              refine State.setPage_keeps _ _ _ _ ?_
              with_reducible assumption
        · refine Keeps1.mk ?_
          refine State.setPage_keeps _ _ _ _ ?_
          with_reducible assumption
        · refine Keeps1.mk ?_
          refine State.setPage_keeps _ _ _ _ ?_
          with_reducible assumption

theorem retryThatch_keeps (s0 : State) (x0) (x1) (h : Keeps s0 x1) : Keeps s0 (retryThatch x0 x1) := by
  unfold retryThatch
  refine Keeps.ite0 ?_ ?_
  · with_reducible assumption
  · refine updMem_keeps _ _ _ ?_ ?_
    · with_reducible assumption
    · intro v16_0
      rfl

theorem unpinPage_keeps (s0 : State) (x0) (x1) (h : Keeps s0 x1) : Keeps s0 (unpinPage x0 x1).2 := by
  unfold unpinPage
  refine Keeps.of1 ?_
  refine Keeps1.ite ?_ ?_
  · refine Keeps1.mk ?_
    with_reducible assumption
  · refine Keeps1.mk ?_
    refine Keeps.ite0 ?_ ?_
    · refine noteUnpinned_keeps _ _ _ ?_
      refine retryThatch_keeps _ _ _ ?_
      refine State.setPage_keeps _ _ _ _ ?_
      with_reducible assumption
    · refine retryThatch_keeps _ _ _ ?_
      refine State.setPage_keeps _ _ _ _ ?_
      with_reducible assumption

theorem finishFetch_keeps (s0 : State) (x0) (x1) (x2) (h : Keeps s0 x2) : ∀ t, finishFetch x0 x1 x2 = some t → Keeps s0 ((t).2) := by
  unfold finishFetch
  extract_lets +onlyGivenNames key p xs
  split
  · intro t ht; cases ht
  · rename_i id r _
    refine Keeps.iteO (P := fun (t : Nat × State) => Keeps s0 t.2) (fun t ht => nomatch ht) ?_
    extract_lets +onlyGivenNames st sa
    have ha : Keeps s0 sa := dropXfers_keeps _ _ _ h
    refine Keeps.iteO (P := fun (t : Nat × State) => Keeps s0 t.2) ?_ ?_
    · intro t ht
      have ht := Option.some.inj ht
      subst ht
      exact trackFrame_keeps _ _ _ _ (State.setPage_keeps _ _ _ _ ha)
    · extract_lets +onlyGivenNames sticky r s1 found p1 s2 s3
      have hr : Keeps1 s0 r := Keeps1.ite (Keeps1.mk (memClear_keeps _ _ _ _ ha))
        (Keeps1.ite (readFlashPage_keeps _ _ _ _ _ ha) (Keeps1.ite (Keeps1.mk (copySectors_keeps _ _ _ _ _ ha)) (Keeps1.mk ha)))
      have h1 : Keeps s0 s1 := Keeps.ite0 (Keeps.foldl0 (fun y b hy => memPoison_keeps _ _ _ _ hy) hr) hr
      have h2 : Keeps s0 s2 := trackFrame_keeps _ _ _ _ h1
      have h3 : Keeps s0 s3 := Keeps.ite0 (rehome_keeps _ _ _ _ (State.setPage_keeps _ _ _ _ h2)) (State.setPage_keeps _ _ _ _ h2)
      intro t ht
      have ht := Option.some.inj ht
      subst ht
      exact Keeps.ite0 (noteUnpinned_keeps _ _ _ h3) h3

theorem startWriteback_keeps (s0 : State) (x0) (x1) (x2) (h : Keeps s0 x2) : Keeps s0 (startWriteback x0 x1 x2) := by
  unfold startWriteback
  split
  · with_reducible assumption
  · refine Keeps.ite0 ?_ ?_
    · refine startXfer_keeps _ _ _ ?_
      refine updMem_keeps _ _ _ ?_ ?_
      · refine setDirty_keeps _ _ _ _ ?_
        refine State.setPage_keeps _ _ _ _ ?_
        with_reducible assumption
      · intro v45_0
        rfl
    · refine spendPage_keeps _ _ _ _ ?_
      refine updMem_keeps _ _ _ ?_ ?_
      · refine setDirty_keeps _ _ _ _ ?_
        refine State.setPage_keeps _ _ _ _ ?_
        with_reducible assumption
      · intro v46_0
        rfl

theorem finishWriteback_keeps (s0 : State) (x0) (x1) (x2) (h : Keeps s0 x2) : Keeps s0 ((finishWriteback x0 x1 x2).2) := by
  unfold finishWriteback
  refine Keeps.of1 ?_
  extract_lets +onlyGivenNames key p xs st sa back
  have ha : Keeps s0 sa := dropXfers_keeps _ _ _ h
  have hb : ∀ y, Keeps s0 y → Keeps s0 (back y) := fun y hy => setDirty_keeps _ _ _ _ (State.setPage_keeps _ _ _ _ hy)
  clear_value sa back
  refine Keeps1.ite (Keeps1.mk (hb _ ha)) ?_
  extract_lets +onlyGivenNames found mask p1 st1
  refine Keeps1.ite ?_ (Keeps1.mk (State.setPage_keeps _ _ _ _ ha))
  extract_lets +onlyGivenNames w
  have hw : Keeps s0 w.2 := readFrame_keeps _ _ _ ha
  split
  · exact Keeps1.mk (hb _ hw)
  · rename_i loc s1 q
    have h1 : Keeps s0 s1 := flashAppend_keeps _ _ _ hw _ q
    exact Keeps1.mk (State.setPage_keeps _ _ _ _ (Keeps.ite0 h1 (killStripes_keeps _ _ _ h1)))

/-! ### ThatchOps -/

theorem thatchCount_keeps (s0 : State) (x0) (x1) (x2) (h : Keeps s0 x2) : Keeps s0 (thatchCount x0 x1 x2) := by
  unfold thatchCount
  refine updMem_keeps _ _ _ ?_ ?_
  · with_reducible assumption
  · intro v78_0
    rfl

theorem updThatch_keeps (s0 : State) (x0) (x1) (x2) (x3) (h : Keeps s0 x3) : Keeps s0 (updThatch x0 x1 x2 x3) := by
  unfold updThatch
  refine updMem_keeps _ _ _ ?_ ?_
  · with_reducible assumption
  · intro v78_0
    rfl

theorem updEntry_keeps (s0 : State) (x0) (x1) (x2) (x3) (x4) (h : Keeps s0 x4) : Keeps s0 (updEntry x0 x1 x2 x3 x4) := by
  unfold updEntry
  refine updThatch_keeps _ _ _ _ _ ?_
  with_reducible assumption

theorem thatchSpend_keeps (s0 : State) (x0) (x1) (x2) (x3) (h : Keeps s0 x3) : Keeps s0 (thatchSpend x0 x1 x2 x3).2 := by
  unfold thatchSpend
  refine Keeps.of1 ?_
  split
  · refine Keeps1.mk ?_
    with_reducible assumption
  · refine Keeps1.mk ?_
    refine updThatch_keeps _ _ _ _ _ ?_
    with_reducible assumption

theorem thatchCharge_keeps (s0 : State) (x0) (x1) (x2) (x3) (h : Keeps s0 x3) : Keeps s0 (thatchCharge x0 x1 x2 x3) := by
  unfold thatchCharge
  refine State.setPage_keeps _ _ _ _ ?_
  refine thatchSpend_keeps _ _ _ _ _ ?_
  with_reducible assumption

theorem landBlock_keeps (s0 : State) (x0) (x1) (x2) (h : Keeps s0 x2) : Keeps s0 (landBlock x0 x1 x2) := by
  unfold landBlock
  refine Keeps.ite0 ?_ ?_
  · refine thatchCount_keeps _ _ _ _ ?_
    refine thatchCount_keeps _ _ _ _ ?_
    with_reducible assumption
  · refine thatchCount_keeps _ _ _ _ ?_
    with_reducible assumption

theorem serveBlock_keeps (s0 : State) (x0) (x1) (x2) (x3) (h : Keeps s0 x3) : Keeps s0 (serveBlock x0 x1 x2 x3) := by
  unfold serveBlock
  split
  · with_reducible assumption
  · split
    · with_reducible assumption
    · extract_lets
      split
      · refine Keeps.ite0 ?_ ?_
        · refine thatchCharge_keeps _ _ _ _ _ ?_
          refine updEntry_keeps _ _ _ _ _ _ ?_
          refine fetchPage_keeps _ _ _ _ _ ?_
          with_reducible assumption
        · refine updEntry_keeps _ _ _ _ _ _ ?_
          refine fetchPage_keeps _ _ _ _ _ ?_
          with_reducible assumption
      · refine Keeps.ite0 ?_ ?_
        · refine updThatch_keeps _ _ _ _ _ ?_
          refine fetchPage_keeps _ _ _ _ _ ?_
          with_reducible assumption
        · refine Keeps.ite0 ?_ ?_
          · refine updEntry_keeps _ _ _ _ _ _ ?_
            refine landBlock_keeps _ _ _ _ ?_
            refine fetchPage_keeps _ _ _ _ _ ?_
            with_reducible assumption
          · refine updThatch_keeps _ _ _ _ _ ?_
            refine fetchPage_keeps _ _ _ _ _ ?_
            with_reducible assumption

theorem copyBlock_keeps (s0 : State) (x0) (x1) (x2) (x3) (h : Keeps s0 x3) : Keeps s0 (copyBlock x0 x1 x2 x3) := by
  unfold copyBlock
  refine Keeps.ite0 ?_ ?_
  · refine State.setPage_keeps _ _ _ _ ?_
    refine copyWords_keeps _ _ _ _ _ ?_
    with_reducible assumption
  · refine copyWords_keeps _ _ _ _ _ ?_
    with_reducible assumption

theorem landEntry_keeps (s0 : State) (x0) (x1) (x2) (x3) (h : Keeps s0 x3) : Keeps s0 (landEntry x0 x1 x2 x3) := by
  unfold landEntry
  split
  · with_reducible assumption
  · split
    · with_reducible assumption
    · refine Keeps.ite0 ?_ ?_
      · with_reducible assumption
      · split
        · refine Keeps.ite0 ?_ ?_
          · refine updEntry_keeps _ _ _ _ _ _ ?_
            with_reducible assumption
          · with_reducible assumption
        · refine Keeps.ite0 ?_ ?_
          · refine updThatch_keeps _ _ _ _ _ ?_
            with_reducible assumption
          · refine Keeps.ite0 ?_ ?_
            · refine updEntry_keeps _ _ _ _ _ _ ?_
              refine memWrite_keeps _ _ _ _ ?_
              with_reducible assumption
            · refine Keeps.ite0 ?_ ?_
              · refine updEntry_keeps _ _ _ _ _ _ ?_
                refine thatchSpend_keeps _ _ _ _ _ ?_
                refine Keeps.foldl0 ?_ ?_
                · intro v47 v47_b v47_h
                  refine copyBlock_keeps _ _ _ _ _ ?_
                  with_reducible assumption
                · with_reducible assumption
              · refine updEntry_keeps _ _ _ _ _ _ ?_
                refine thatchSpend_keeps _ _ _ _ _ ?_
                refine Keeps.foldl0 ?_ ?_
                · intro v48 v48_b v48_h
                  refine copyBlock_keeps _ _ _ _ _ ?_
                  with_reducible assumption
                · with_reducible assumption

theorem releasePins_keeps (s0 : State) (x0) (x1) (h : Keeps s0 x1) : Keeps s0 (releasePins x0 x1) := by
  unfold releasePins
  refine Keeps.foldl0 ?_ ?_
  · intro v78_0 v78_1 v78_2
    refine unpinPage_keeps _ _ _ ?_
    with_reducible assumption
  · with_reducible assumption

theorem openGates_keeps (s0 : State) (x0) (x1) (x2) (h : Keeps s0 x2) : Keeps s0 (openGates x0 x1 x2) := by
  unfold openGates
  split
  · with_reducible assumption
  · refine Keeps.foldl0 ?_ ?_
    · intro v77_0 v77_1 v77_2
      refine Keeps.ite0 ?_ ?_
      · refine updThatch_keeps _ _ _ _ _ ?_
        with_reducible assumption
      · split
        · refine updThatch_keeps _ _ _ _ _ ?_
          with_reducible assumption
        · refine updThatch_keeps _ _ _ _ _ ?_
          refine releasePins_keeps _ _ _ ?_
          refine updThatch_keeps _ _ _ _ _ ?_
          with_reducible assumption
    · with_reducible assumption

theorem thatchGrants_keeps (s0 : State) (x0) (x1) (x2) (x3) (h : Keeps s0 x3) : Keeps s0 (thatchGrants x0 x1 x2 x3) := by
  induction x1 generalizing x2 x3 with
  | zero => exact h
  | succ n ih =>
    unfold thatchGrants
    extract_lets act next
    split
    · exact h
    · exact ih _ _ (landEntry_keeps _ _ _ _ _ (serveBlock_keeps _ _ _ _ _ h))

theorem thatchRound_keeps (s0 : State) (x0) (h : Keeps s0 x0) : Keeps s0 (thatchRound x0) := by
  unfold thatchRound
  refine Keeps.foldl0 ?_ ?_
  · intro v17 v17_b v17_h
    refine openGates_keeps _ _ _ _ ?_
    refine Keeps.foldl0 ?_ ?_
    · intro v18 v18_b v18_h
      refine landEntry_keeps _ _ _ _ _ ?_
      with_reducible assumption
    · with_reducible assumption
  · refine Keeps.foldl0 ?_ ?_
    · intro v19 v19_b v19_h
      refine thatchGrants_keeps _ _ _ _ _ ?_
      with_reducible assumption
    · with_reducible assumption

theorem thatchGo_keeps (s0 : State) (x0) (h : Keeps s0 x0) : Keeps s0 (thatchGo x0) := by
  unfold thatchGo
  refine retryHeld_keeps _ _ ?_
  refine Keeps.foldl0 ?_ ?_
  · intro v20 v20_b v20_h
    refine thatchRound_keeps _ _ ?_
    with_reducible assumption
  · with_reducible assumption

theorem thatchFetched_keeps (s0 : State) (x0) (x1) (x2) (x3) (h : Keeps s0 x3) : Keeps s0 (thatchFetched x0 x1 x2 x3) := by
  unfold thatchFetched
  refine Keeps.foldl0 ?_ ?_
  · intro v78_0 v78_1 v78_2
    refine Keeps.foldl0 ?_ ?_
    · intro v76_0 v76_1 v76_2
      split
      · with_reducible assumption
      · refine Keeps.ite0 ?_ ?_
        · with_reducible assumption
        · refine Keeps.ite0 ?_ ?_
          · refine landBlock_keeps _ _ _ _ ?_
            refine updEntry_keeps _ _ _ _ _ _ ?_
            with_reducible assumption
          · refine updEntry_keeps _ _ _ _ _ _ ?_
            refine updThatch_keeps _ _ _ _ _ ?_
            refine updEntry_keeps _ _ _ _ _ _ ?_
            with_reducible assumption
    · with_reducible assumption
  · with_reducible assumption

theorem endThatch_keeps (s0 : State) (x0) (x1) (x2) (h : Keeps s0 x2) : Keeps s0 (endThatch x0 x1 x2) := by
  unfold endThatch
  split
  · with_reducible assumption
  · refine releasePins_keeps _ _ _ ?_
    refine updMem_keeps _ _ _ ?_ ?_
    · with_reducible assumption
    · intro v76_0
      rfl

theorem manifestFetched_keeps (s0 : State) (x0) (x1) (x2) (h : Keeps s0 x2) : Keeps s0 (manifestFetched x0 x1 x2) := by
  unfold manifestFetched
  refine updMem_keeps _ _ _ ?_ ?_
  · with_reducible assumption
  · intro v78_0
    rfl

/-! ### RegionOps -/

theorem createRegion_keeps (s0 : State) (x0) (x1) (x2) (x3) (x4) (x5) (h : Keeps s0 x5) : Keeps s0 (((createRegion x0 x1 x2 x3 x4 x5).2).2) := by
  unfold createRegion
  refine Keeps.of2 ?_
  split
  · refine Keeps2.mk ?_
    refine Keeps1.mk ?_
    with_reducible assumption
  · refine Keeps2.ite ?_ ?_
    · refine Keeps2.mk ?_
      refine Keeps1.mk ?_
      with_reducible assumption
    · refine Keeps2.ite ?_ ?_
      · refine Keeps2.mk ?_
        refine Keeps1.mk ?_
        with_reducible assumption
      · refine Keeps2.ite ?_ ?_
        · refine Keeps2.mk ?_
          refine Keeps1.mk ?_
          with_reducible assumption
        · split
          · split
            · split
              · (dsimp only; split)
                · refine Keeps2.mk ?_
                  refine Keeps1.mk ?_
                  with_reducible assumption
                · refine Keeps2.ite ?_ ?_
                  · refine Keeps2.mk ?_
                    refine Keeps1.mk ?_
                    with_reducible assumption
                  · refine Keeps2.mk ?_
                    refine Keeps1.mk ?_
                    refine Keeps.foldl0 ?_ ?_
                    · intro v66_0 v66_1 v66_2
                      refine State.setPage_keeps _ _ _ _ ?_
                      refine ownFrames_keeps _ _ _ _ _ ?_
                      refine memClear_keeps _ _ _ _ ?_
                      with_reducible assumption
                    · refine charge_keeps _ _ _ _ _ ?_
                      refine updMem_keeps _ _ _ ?_ ?_
                      · with_reducible assumption
                      · intro v64_0
                        rfl
              · (dsimp only; split)
                · refine Keeps2.mk ?_
                  refine Keeps1.mk ?_
                  with_reducible assumption
                · refine Keeps2.ite ?_ ?_
                  · refine Keeps2.mk ?_
                    refine Keeps1.mk ?_
                    with_reducible assumption
                  · refine Keeps2.mk ?_
                    refine Keeps1.mk ?_
                    refine Keeps.foldl0 ?_ ?_
                    · intro v66_0 v66_1 v66_2
                      refine State.setPage_keeps _ _ _ _ ?_
                      refine ownFrames_keeps _ _ _ _ _ ?_
                      refine memClear_keeps _ _ _ _ ?_
                      with_reducible assumption
                    · refine charge_keeps _ _ _ _ _ ?_
                      refine updMem_keeps _ _ _ ?_ ?_
                      · with_reducible assumption
                      · intro v64_0
                        rfl
            · refine Keeps2.ite ?_ ?_
              · refine Keeps2.mk ?_
                refine Keeps1.mk ?_
                with_reducible assumption
              · refine Keeps2.mk ?_
                refine Keeps1.mk ?_
                refine Keeps.foldl0 ?_ ?_
                · intro v68_0 v68_1 v68_2
                  refine State.setPage_keeps _ _ _ _ ?_
                  with_reducible assumption
                · refine Keeps.foldl0 ?_ ?_
                  · intro v67_0 v67_1 v67_2
                    refine State.setPage_keeps _ _ _ _ ?_
                    refine ownFrames_keeps _ _ _ _ _ ?_
                    refine memClear_keeps _ _ _ _ ?_
                    with_reducible assumption
                  · refine charge_keeps _ _ _ _ _ ?_
                    refine updMem_keeps _ _ _ ?_ ?_
                    · with_reducible assumption
                    · intro v65_0
                      rfl
          · split
            · split
              · (dsimp only; split)
                · refine Keeps2.mk ?_
                  refine Keeps1.mk ?_
                  with_reducible assumption
                · refine Keeps2.ite ?_ ?_
                  · refine Keeps2.mk ?_
                    refine Keeps1.mk ?_
                    with_reducible assumption
                  · refine Keeps2.mk ?_
                    refine Keeps1.mk ?_
                    refine Keeps.foldl0 ?_ ?_
                    · intro v66_0 v66_1 v66_2
                      refine State.setPage_keeps _ _ _ _ ?_
                      refine ownFrames_keeps _ _ _ _ _ ?_
                      refine memClear_keeps _ _ _ _ ?_
                      with_reducible assumption
                    · refine charge_keeps _ _ _ _ _ ?_
                      refine updMem_keeps _ _ _ ?_ ?_
                      · with_reducible assumption
                      · intro v64_0
                        rfl
              · (dsimp only; split)
                · refine Keeps2.mk ?_
                  refine Keeps1.mk ?_
                  with_reducible assumption
                · refine Keeps2.ite ?_ ?_
                  · refine Keeps2.mk ?_
                    refine Keeps1.mk ?_
                    with_reducible assumption
                  · refine Keeps2.mk ?_
                    refine Keeps1.mk ?_
                    refine Keeps.foldl0 ?_ ?_
                    · intro v66_0 v66_1 v66_2
                      refine State.setPage_keeps _ _ _ _ ?_
                      refine ownFrames_keeps _ _ _ _ _ ?_
                      refine memClear_keeps _ _ _ _ ?_
                      with_reducible assumption
                    · refine charge_keeps _ _ _ _ _ ?_
                      refine updMem_keeps _ _ _ ?_ ?_
                      · with_reducible assumption
                      · intro v64_0
                        rfl
            · refine Keeps2.ite ?_ ?_
              · refine Keeps2.mk ?_
                refine Keeps1.mk ?_
                with_reducible assumption
              · refine Keeps2.mk ?_
                refine Keeps1.mk ?_
                refine Keeps.foldl0 ?_ ?_
                · intro v68_0 v68_1 v68_2
                  refine State.setPage_keeps _ _ _ _ ?_
                  with_reducible assumption
                · refine Keeps.foldl0 ?_ ?_
                  · intro v67_0 v67_1 v67_2
                    refine State.setPage_keeps _ _ _ _ ?_
                    refine ownFrames_keeps _ _ _ _ _ ?_
                    refine memClear_keeps _ _ _ _ ?_
                    with_reducible assumption
                  · refine charge_keeps _ _ _ _ _ ?_
                    refine updMem_keeps _ _ _ ?_ ?_
                    · with_reducible assumption
                    · intro v65_0
                      rfl

theorem zeroArea_keeps (s0 : State) (x0) (x1) (h : Keeps s0 x1) : Keeps s0 (zeroArea x0 x1) := by
  unfold zeroArea
  refine Keeps.ite0 ?_ ?_
  · refine startXfer_keeps _ _ _ ?_
    with_reducible assumption
  · with_reducible assumption

theorem dropPage_keeps (s0 : State) (x0) (x1) (h : Keeps s0 x1) : Keeps s0 (dropPage x0 x1) := by
  unfold dropPage
  refine updMem_keeps _ _ _ ?_ ?_
  · refine State.setPage_keeps _ _ _ _ ?_
    refine Keeps.ite0 ?_ ?_
    · refine ownFrames_keeps _ _ _ _ _ ?_
      refine memClear_keeps _ _ _ _ ?_
      refine Keeps.ite0 ?_ ?_
      · refine trackFrame_keeps _ _ _ _ ?_
        with_reducible assumption
      · with_reducible assumption
    · refine Keeps.ite0 ?_ ?_
      · refine killStripes_keeps _ _ _ ?_
        refine Keeps.ite0 ?_ ?_
        · refine trackFrame_keeps _ _ _ _ ?_
          with_reducible assumption
        · with_reducible assumption
      · refine Keeps.ite0 ?_ ?_
        · refine trackFrame_keeps _ _ _ _ ?_
          with_reducible assumption
        · with_reducible assumption
  · intro v78_0
    rfl

theorem dropRegion_keeps (s0 : State) (x0) (x1) (h : Keeps s0 x1) : Keeps s0 (dropRegion x0 x1) := by
  unfold dropRegion
  refine uncharge_keeps _ _ _ _ _ ?_
  refine updMem_keeps _ _ _ ?_ ?_
  · refine Keeps.foldl0 ?_ ?_
    · intro v76_0 v76_1 v76_2
      refine dropPage_keeps _ _ _ ?_
      with_reducible assumption
    · with_reducible assumption
  · intro v77_0
    rfl

end Sys2Proof.Machine
end

