-- ==== Sys2Proof/Laws/Keeps04.lean ====
section
/-!
SUPPORT. What every operation keeps (`Keeps`), operation by operation: WeightOps, Tiers, StreamEngine.
-/
namespace Sys2Proof.Machine
open Sys2Proof

/-! ### WeightOps -/

theorem State.setWeight_keeps (s0 : State) (x0) (x1) (x2) (h : Keeps s0 x0) : Keeps s0 (State.setWeight x0 x1 x2) := by
  unfold State.setWeight
  refine updMem_keeps _ _ _ ?_ ?_
  · with_reducible assumption
  · intro v78_0
    rfl

theorem countCompressions_keeps (s0 : State) (x0) (x1) (x2) (h : Keeps s0 x2) : Keeps s0 (countCompressions x0 x1 x2) := by
  unfold countCompressions
  refine Keeps.foldl0 ?_ ?_
  · intro v78_0 v78_1 v78_2
    refine Keeps.upd ?_ rfl
    with_reducible assumption
  · with_reducible assumption

theorem writeBlocks_keeps (s0 : State) (x0) (x1) (x2) (x3) (x4) (h : Keeps s0 x4) : ∀ t, writeBlocks x0 x1 x2 x3 x4 = some t → Keeps s0 (t) := by
  unfold writeBlocks
  split
  · intro t ht; cases ht; exact h
  · rename_i w _
    extract_lets r
    refine Keeps.iteO ?_ ?_
    · intro t ht; cases ht; exact startXfer_keeps _ _ _ h
    · have key : ∀ (l : List Nat) (o : Option State), (∀ t, o = some t → Keeps s0 t) → ∀ t, (l.foldl (fun (o : Option State) i =>
          o.bind fun s =>
          let key := pageKey w.ctx (r.firstTpn + x1 + i)
          let p := s.page key
          if w.home = 0 then some (memWrite (65536 * p.frame) (imageBlock x3 i) s)
          else
            (flashAppend (blockWords (imageBlock x3 i)) s).map fun q =>
              let s1 := if p.state = 0 then q.2 else killStripes p.homeLoc q.2
              updFlash (fun f => { f with flush := true })
                (s1.setPage key { p with state := if p.state = 0 then 1 else p.state, homeLoc := q.1, wasEmpty := false })) o)
          = some t → Keeps s0 t := by
        intro l
        induction l with
        | nil => intro o ho; exact ho
        | cons i l ih =>
          intro o ho
          refine ih _ ?_
          intro t ht
          obtain ⟨s, hs, hb⟩ := Option.bind_eq_some_iff.mp ht
          have hk := ho s hs
          revert hb
          refine Keeps.iteO (P := fun t => Keeps s0 t) ?_ ?_ t
          · intro t ht; cases ht; exact memWrite_keeps _ _ _ _ hk
          · intro t ht
            obtain ⟨q, hq, hb⟩ := Option.map_eq_some_iff.mp ht
            subst hb
            have hf := flashAppend_keeps _ _ _ hk _ hq
            refine updFlash_keeps _ _ _ (State.setPage_keeps _ _ _ _ (Keeps.ite0 hf (killStripes_keeps _ _ _ hf)))
      exact key _ _ (fun t ht => by cases ht; exact h)

theorem dropWeight_keeps (s0 : State) (x0) (x1) (h : Keeps s0 x1) : Keeps s0 (dropWeight x0 x1) := by
  unfold dropWeight
  split
  · with_reducible assumption
  · refine State.setWeight_keeps _ _ _ _ ?_
    refine uncharge_keeps _ _ _ _ _ ?_
    refine freeRange_keeps _ _ _ ?_
    refine dropRegion_keeps _ _ _ ?_
    with_reducible assumption

theorem finishInstall_keeps (s0 : State) (x0) (x1) (x2) (x3) (h : Keeps s0 x3) : Keeps s0 (((finishInstall x0 x1 x2 x3).2).2) := by
  unfold finishInstall
  refine Keeps.of2 ?_
  refine Keeps2.ite ?_ ?_
  · refine Keeps2.mk ?_
    refine Keeps1.mk ?_
    refine dropWeight_keeps _ _ _ ?_
    with_reducible assumption
  · refine Keeps2.ite ?_ ?_
    · refine Keeps2.mk ?_
      refine Keeps1.mk ?_
      refine dropWeight_keeps _ _ _ ?_
      refine countCompressions_keeps _ _ _ _ ?_
      with_reducible assumption
    · refine Keeps2.mk ?_
      refine Keeps1.mk ?_
      refine memWrite_keeps _ _ _ _ ?_
      refine State.setWeight_keeps _ _ _ _ ?_
      refine Keeps.ite0 ?_ ?_
      · refine countCompressions_keeps _ _ _ _ ?_
        with_reducible assumption
      · refine Keeps.foldl0 ?_ ?_
        · intro v70_0 v70_1 v70_2
          refine State.setPage_keeps _ _ _ _ ?_
          with_reducible assumption
        · refine countCompressions_keeps _ _ _ _ ?_
          with_reducible assumption

theorem refetch_keeps (s0 : State) (x0) (x1) (h : Keeps s0 x1) : Keeps s0 (refetch x0 x1) := by
  unfold refetch
  split
  · refine Keeps.ite0 ?_ ?_
    · with_reducible assumption
    · refine startXfer_keeps _ _ _ ?_
      refine dropXfers_keeps _ _ _ ?_
      with_reducible assumption
  · with_reducible assumption

theorem finishRepair_keeps (s0 : State) (x0) (x1) (x2) (x3) (h : Keeps s0 x3) : Keeps s0 ((finishRepair x0 x1 x2 x3).2).2 := by
  unfold finishRepair
  refine Keeps.of2 ?_
  refine Keeps2.ite ?_ ?_
  · refine Keeps2.mk ?_
    refine Keeps1.mk ?_
    with_reducible assumption
  · refine Keeps2.mk ?_
    refine Keeps1.mk ?_
    refine countCompressions_keeps _ _ _ _ ?_
    refine Keeps.foldl0 ?_ ?_
    · intro v49 v49_b v49_h
      refine Keeps.ite0 ?_ ?_
      · refine State.setPage_keeps _ _ _ _ ?_
        with_reducible assumption
      · refine Keeps.ite0 ?_ ?_
        · refine refetch_keeps _ _ _ ?_
          refine State.setPage_keeps _ _ _ _ ?_
          with_reducible assumption
        · refine updMem_keeps _ _ _ ?_ ?_
          · refine State.setPage_keeps _ _ _ _ ?_
            refine Keeps.ite0 ?_ ?_
            · refine trackFrame_keeps _ _ _ _ ?_
              with_reducible assumption
            · with_reducible assumption
          · intro v50_0
            rfl
    · with_reducible assumption

theorem cachedBlock_keeps (s0 : State) (x0) (x1) (x2) (h : Keeps s0 x2) : Keeps s0 (cachedBlock x0 x1 x2).2 := by
  unfold cachedBlock
  refine Keeps.of1 ?_
  refine Keeps1.ite ?_ ?_
  · refine Keeps1.mk ?_
    with_reducible assumption
  · refine Keeps1.mk ?_
    refine readWords_keeps _ _ _ _ ?_
    with_reducible assumption

theorem finishVerify_keeps (s0 : State) (x0) (x1) (x2) (x3) (x4) (h : Keeps s0 x4) : Keeps s0 ((finishVerify x0 x1 x2 x3 x4).2).2 := by
  unfold finishVerify
  refine Keeps.of2 ?_
  refine Keeps2.ite ?_ ?_
  · refine Keeps2.mk ?_
    refine Keeps1.mk ?_
    with_reducible assumption
  · refine Keeps2.mk ?_
    refine Keeps1.mk ?_
    refine Keeps.foldl1 ?_ ?_
    · intro v51 v51_b v51_h
      refine Keeps.of1 ?_
      refine Keeps1.mk ?_
      refine Keeps.ite0 ?_ ?_
      · refine cachedBlock_keeps _ _ _ _ ?_
        with_reducible assumption
      · refine State.setPage_keeps _ _ _ _ ?_
        refine cachedBlock_keeps _ _ _ _ ?_
        with_reducible assumption
    · with_reducible assumption

theorem removeWeight_keeps (s0 : State) (x0) (x1) (x2) (h : Keeps s0 x2) : Keeps s0 (removeWeight x0 x1 x2).2 := by
  unfold removeWeight
  refine Keeps.of1 ?_
  refine Keeps1.ite ?_ ?_
  · refine Keeps1.mk ?_
    with_reducible assumption
  · refine Keeps1.mk ?_
    refine dropWeight_keeps _ _ _ ?_
    with_reducible assumption

theorem weightProgress_keeps (s0 : State) (x0) (h : Keeps s0 x0) : Keeps s0 (weightProgress x0) := by
  unfold weightProgress
  refine Keeps.foldl0 ?_ ?_
  · intro v52 v52_b v52_h
    split
    · with_reducible assumption
    · refine Keeps.ite0 ?_ ?_
      · refine Keeps.ite0 ?_ ?_
        · with_reducible assumption
        · refine pumpXfer_keeps _ _ _ _ ?_
          with_reducible assumption
      · refine completeSlot_keeps _ _ _ _ _ _ ?_
        refine Keeps.of2 ?_
        split
        · refine Keeps2.of ?_
          refine finishInstall_keeps _ _ _ _ _ ?_
          refine updMem_keeps _ _ _ ?_ ?_
          · refine State.setXfer_keeps _ _ _ _ ?_
            refine Keeps.ite0 ?_ ?_
            · with_reducible assumption
            · refine pumpXfer_keeps _ _ _ _ ?_
              with_reducible assumption
          · intro v53_0
            rfl
        · refine Keeps2.of ?_
          refine finishRepair_keeps _ _ _ _ _ ?_
          refine updMem_keeps _ _ _ ?_ ?_
          · refine State.setXfer_keeps _ _ _ _ ?_
            refine Keeps.ite0 ?_ ?_
            · with_reducible assumption
            · refine pumpXfer_keeps _ _ _ _ ?_
              with_reducible assumption
          · intro v54_0
            rfl
        · refine Keeps2.mk ?_
          refine Keeps1.mk ?_
          refine removeWeight_keeps _ _ _ _ ?_
          refine updMem_keeps _ _ _ ?_ ?_
          · refine State.setXfer_keeps _ _ _ _ ?_
            refine Keeps.ite0 ?_ ?_
            · with_reducible assumption
            · refine pumpXfer_keeps _ _ _ _ ?_
              with_reducible assumption
          · intro v55_0
            rfl
        · refine Keeps2.of ?_
          refine finishVerify_keeps _ _ _ _ _ _ ?_
          refine updMem_keeps _ _ _ ?_ ?_
          · refine State.setXfer_keeps _ _ _ _ ?_
            refine Keeps.ite0 ?_ ?_
            · with_reducible assumption
            · refine pumpXfer_keeps _ _ _ _ ?_
              with_reducible assumption
          · intro v56_0
            rfl
  · with_reducible assumption

/-! ### Tiers -/

theorem execTierRegionCreate_keeps (s0 : State) (x0) (x1) (h : Keeps s0 x1) : ∃ t, execTierRegionCreate x0 x1 = .next t ∧ Keeps s0 t := by
  unfold execTierRegionCreate
  refine runCmd_keeps _ _ _ _ _ _ ?_ ?_
  · with_reducible assumption
  · intro v78_0 v78_1
    refine Keeps.of2 ?_
    refine Keeps2.ite ?_ ?_
    · refine Keeps2.of ?_
      refine refuse_keeps _ _ _ ?_
      with_reducible assumption
    · refine Keeps2.ite ?_ ?_
      · refine Keeps2.of ?_
        refine refuse_keeps _ _ _ ?_
        with_reducible assumption
      · refine Keeps2.mk ?_
        refine Keeps1.mk ?_
        refine zeroArea_keeps _ _ _ ?_
        refine createRegion_keeps _ _ _ _ _ _ _ ?_
        with_reducible assumption

theorem execTierRegionDestroy_keeps (s0 : State) (x0) (x1) (h : Keeps s0 x1) : ∃ t, execTierRegionDestroy x0 x1 = .next t ∧ Keeps s0 t := by
  unfold execTierRegionDestroy
  refine runCmd_keeps _ _ _ _ _ _ ?_ ?_
  · with_reducible assumption
  · intro v78_0 v78_1
    refine Keeps.of2 ?_
    split
    · refine Keeps2.of ?_
      refine refuse_keeps _ _ _ ?_
      with_reducible assumption
    · refine Keeps2.ite ?_ ?_
      · refine Keeps2.of ?_
        refine refuse_keeps _ _ _ ?_
        with_reducible assumption
      · refine Keeps2.of ?_
        refine done_keeps _ _ ?_
        refine dropRegion_keeps _ _ _ ?_
        with_reducible assumption

theorem execTierPoolSet_keeps (s0 : State) (x0) (x1) (h : Keeps s0 x1) : ∃ t, execTierPoolSet x0 x1 = .next t ∧ Keeps s0 t := by
  unfold execTierPoolSet
  refine runCmd_keeps _ _ _ _ _ _ ?_ ?_
  · with_reducible assumption
  · intro v78_0 v78_1
    refine Keeps.of2 ?_
    refine Keeps2.ite ?_ ?_
    · refine Keeps2.of ?_
      refine refuse_keeps _ _ _ ?_
      with_reducible assumption
    · refine Keeps2.ite ?_ ?_
      · refine Keeps2.of ?_
        refine refuse_keeps _ _ _ ?_
        with_reducible assumption
      · refine Keeps2.of ?_
        refine done_keeps _ _ ?_
        refine updMem_keeps _ _ _ ?_ ?_
        · with_reducible assumption
        · intro v71_0
          rfl

theorem execMemRemoteAttach_keeps (s0 : State) (x0) (x1) (h : Keeps s0 x1) : ∃ t, execMemRemoteAttach x0 x1 = .next t ∧ Keeps s0 t := by
  unfold execMemRemoteAttach
  refine runCmd_keeps _ _ _ _ _ _ ?_ ?_
  · with_reducible assumption
  · intro v78_0 v78_1
    refine Keeps.of2 ?_
    refine Keeps2.ite ?_ ?_
    · refine Keeps2.of ?_
      refine refuse_keeps _ _ _ ?_
      with_reducible assumption
    · refine Keeps2.ite ?_ ?_
      · refine Keeps2.of ?_
        refine refuse_keeps _ _ _ ?_
        with_reducible assumption
      · refine Keeps2.of ?_
        refine done_keeps _ _ ?_
        refine updMem_keeps _ _ _ ?_ ?_
        · with_reducible assumption
        · intro v71_0
          rfl

theorem submitJob_keeps (s0 : State) (x0) (x1) (x2) (x3) (h : Keeps s0 x3) : Keeps s0 (submitJob x0 x1 x2 x3) := by
  unfold submitJob
  refine Keeps.ite0 ?_ ?_
  · refine updMem_keeps _ _ _ ?_ ?_
    · with_reducible assumption
    · intro v21_0
      rfl
  · refine Keeps.ite0 ?_ ?_
    · refine updMem_keeps _ _ _ ?_ ?_
      · refine memRead_keeps _ _ _ _ _ ?_
        refine tierSpend_keeps _ _ _ _ ?_
        with_reducible assumption
      · intro v22_0
        rfl
    · refine Keeps.ite0 ?_ ?_
      · refine updMem_keeps _ _ _ ?_ ?_
        · refine memRead_keeps _ _ _ _ _ ?_
          refine tierSpend_keeps _ _ _ _ ?_
          with_reducible assumption
        · intro v23_0
          rfl
      · refine updMem_keeps _ _ _ ?_ ?_
        · refine Keeps.ite0 ?_ ?_
          · refine memRead_keeps _ _ _ _ _ ?_
            refine tierSpend_keeps _ _ _ _ ?_
            with_reducible assumption
          · refine Keeps.foldl0 ?_ ?_
            · intro v24 v24_b v24_h
              refine updMem_keeps _ _ _ ?_ ?_
              · with_reducible assumption
              · intro v25_0
                rfl
            · refine memRead_keeps _ _ _ _ _ ?_
              refine tierSpend_keeps _ _ _ _ ?_
              with_reducible assumption
        · intro v26_0
          rfl

theorem tierIntake_keeps (s0 : State) (x0) (h : Keeps s0 x0) : Keeps s0 (tierIntake x0) := by
  unfold tierIntake
  refine Keeps.foldl0 ?_ ?_
  · intro v78_0 v78_1 v78_2
    refine popJob_keeps _ _ _ ?_
    refine submitJob_keeps _ _ _ _ _ ?_
    with_reducible assumption
  · with_reducible assumption

theorem putHead_keeps (s0 : State) (x0) (x1) (x2) (h : Keeps s0 x2) : Keeps s0 (putHead x0 x1 x2) := by
  unfold putHead
  refine updMem_keeps _ _ _ ?_ ?_
  · with_reducible assumption
  · intro v78_0
    rfl

theorem startJob_keeps (s0 : State) (x0) (x1) (x2 : Sys2Proof.Machine.TierJob → Sys2Proof.Machine.State → Sys2Proof.Machine.State) (x3) (h : Keeps s0 x3) (hx2 : ∀ y0 y1, Keeps s0 y1 → Keeps s0 (x2 y0 y1)) : ∃ t, startJob x0 x1 x2 x3 = .next t ∧ Keeps s0 t := by
  unfold startJob
  (dsimp only; split)
  · refine ⟨_, rfl, ?_⟩
    refine tierIntake_keeps _ _ ?_
    with_reducible assumption
  · refine Keeps.iteN ?_ ?_
    · refine ⟨_, rfl, ?_⟩
      refine hx2 _ _ ?_
      refine tierIntake_keeps _ _ ?_
      with_reducible assumption
    · refine ⟨_, rfl, ?_⟩
      refine tierIntake_keeps _ _ ?_
      with_reducible assumption

theorem execTierJob_keeps (s0 : State) (x0) (x1) (h : Keeps s0 x1) : ∃ t, execTierJob x0 x1 = .next t ∧ Keeps s0 t := by
  unfold execTierJob
  refine runCmdW_keeps _ _ _ _ _ _ ?_ ?_
  · with_reducible assumption
  · intro v78_0 v78_1
    refine Keeps.of1 ?_
    refine Keeps1.mk ?_
    refine submitJob_keeps _ _ _ _ _ ?_
    with_reducible assumption

theorem submitRegions_keeps (s0 : State) (x0) (x1) (x2) (h : Keeps s0 x2) : Keeps s0 (submitRegions x0 x1 x2) := by
  unfold submitRegions
  refine submitJob_keeps _ _ _ _ _ ?_
  with_reducible assumption

theorem execTierCommit_keeps (s0 : State) (x0) (x1) (h : Keeps s0 x1) : ∃ t, execTierCommit x0 x1 = .next t ∧ Keeps s0 t := by
  unfold execTierCommit
  refine runCmdW_keeps _ _ _ _ _ _ ?_ ?_
  · with_reducible assumption
  · intro v78_0 v78_1
    refine Keeps.of1 ?_
    refine Keeps1.mk ?_
    refine submitRegions_keeps _ _ _ _ ?_
    with_reducible assumption

theorem execTierDiscard_keeps (s0 : State) (x0) (x1) (h : Keeps s0 x1) : ∃ t, execTierDiscard x0 x1 = .next t ∧ Keeps s0 t := by
  unfold execTierDiscard
  refine runCmdW_keeps _ _ _ _ _ _ ?_ ?_
  · with_reducible assumption
  · intro v78_0 v78_1
    refine Keeps.of1 ?_
    refine Keeps1.mk ?_
    refine submitRegions_keeps _ _ _ _ ?_
    with_reducible assumption

theorem execTierFetch_keeps (s0 : State) (x0) (x1) (h : Keeps s0 x1) : ∃ t, execTierFetch x0 x1 = .next t ∧ Keeps s0 t := by
  unfold execTierFetch
  refine startJob_keeps _ _ _ _ _ ?_ ?_
  · with_reducible assumption
  · intro v78_0 v78_1 v78_2
    refine putHead_keeps _ _ _ _ ?_
    refine Keeps.of2 ?_
    refine Keeps.foldl2 ?_ ?_
    · intro v74_0 v74_1 v74_2
      refine Keeps.of2 ?_
      (dsimp only; split)
      · refine Keeps2.mk ?_
        refine Keeps1.mk ?_
        refine fetchPage_keeps _ _ _ _ _ ?_
        with_reducible assumption
      · refine Keeps2.mk ?_
        refine Keeps1.mk ?_
        refine fetchPage_keeps _ _ _ _ _ ?_
        with_reducible assumption
    · refine Keeps.of2 ?_
      refine Keeps2.mk ?_
      refine Keeps1.mk ?_
      with_reducible assumption

theorem execTierUnpin_keeps (s0 : State) (x0) (x1) (h : Keeps s0 x1) : ∃ t, execTierUnpin x0 x1 = .next t ∧ Keeps s0 t := by
  unfold execTierUnpin
  refine startJob_keeps _ _ _ _ _ ?_ ?_
  · with_reducible assumption
  · intro v27_0 v27_1 v27_2
    refine thatchGo_keeps _ _ ?_
    refine putHead_keeps _ _ _ _ ?_
    refine Keeps.foldl1 ?_ ?_
    · intro v28 v28_b v28_h
      refine Keeps.of1 ?_
      refine Keeps1.mk ?_
      refine unpinPage_keeps _ _ _ ?_
      with_reducible assumption
    · with_reducible assumption

theorem execTierWriteback_keeps (s0 : State) (x0) (x1) (h : Keeps s0 x1) : ∃ t, execTierWriteback x0 x1 = .next t ∧ Keeps s0 t := by
  unfold execTierWriteback
  refine startJob_keeps _ _ _ _ _ ?_ ?_
  · with_reducible assumption
  · intro v78_0 v78_1 v78_2
    refine putHead_keeps _ _ _ _ ?_
    refine Keeps.of2 ?_
    refine Keeps.foldl2 ?_ ?_
    · intro v74_0 v74_1 v74_2
      refine Keeps.of2 ?_
      refine Keeps2.ite ?_ ?_
      · refine Keeps2.mk ?_
        refine Keeps1.mk ?_
        with_reducible assumption
      · refine Keeps2.ite ?_ ?_
        · refine Keeps2.mk ?_
          refine Keeps1.mk ?_
          with_reducible assumption
        · refine Keeps2.ite ?_ ?_
          · refine Keeps2.mk ?_
            refine Keeps1.mk ?_
            refine startWriteback_keeps _ _ _ _ ?_
            with_reducible assumption
          · refine Keeps2.of ?_
            with_reducible assumption
    · refine Keeps.of2 ?_
      refine Keeps2.mk ?_
      refine Keeps1.mk ?_
      with_reducible assumption

theorem jobsDone_keeps (s0 : State) (x0) (x1) (x2) (x3) (x4) (h : Keeps s0 x4) : Keeps s0 (jobsDone x0 x1 x2 x3 x4) := by
  unfold jobsDone
  refine updMem_keeps _ _ _ ?_ ?_
  · with_reducible assumption
  · intro v78_0
    rfl

theorem execTierFetchComplete_keeps (s0 : State) (x0) (x1) (x2) (h : Keeps s0 x2) : ∃ t, execTierFetchComplete x0 x1 x2 = .next t ∧ Keeps s0 t := by
  unfold execTierFetchComplete
  extract_lets
  split
  · refine ⟨_, rfl, ?_⟩
    refine thatchGo_keeps _ _ ?_
    refine pumpAll_keeps _ _ ?_
    with_reducible assumption
  · rename_i q29
    refine (fun k30 => ?_) (finishFetch_keeps s0 _ _ _ ?_ _ q29)
    rotate_left
    · refine pumpAll_keeps _ _ ?_
      with_reducible assumption
    refine ⟨_, rfl, ?_⟩
    refine thatchGo_keeps _ _ ?_
    refine thatchFetched_keeps _ _ _ _ _ ?_
    refine manifestFetched_keeps _ _ _ _ ?_
    refine jobsDone_keeps _ _ _ _ _ _ ?_
    with_reducible assumption

theorem execBackgroundWriteback_keeps (s0 : State) (x0) (x1) (h : Keeps s0 x1) : ∃ t, execBackgroundWriteback x0 x1 = .next t ∧ Keeps s0 t := by
  unfold execBackgroundWriteback
  refine Keeps.iteN ?_ ?_
  · refine ⟨_, rfl, ?_⟩
    with_reducible assumption
  · split
    · refine ⟨_, rfl, ?_⟩
      with_reducible assumption
    · refine ⟨_, rfl, ?_⟩
      refine startWriteback_keeps _ _ _ _ ?_
      with_reducible assumption

theorem execSectorWritebackDone_keeps (s0 : State) (x0) (x1) (x2) (x3) (h : Keeps s0 x3) : ∃ t, execSectorWritebackDone x0 x1 x2 x3 = .next t ∧ Keeps s0 t := by
  unfold execSectorWritebackDone
  refine Keeps.iteN ?_ ?_
  · refine ⟨_, rfl, ?_⟩
    refine pumpAll_keeps _ _ ?_
    with_reducible assumption
  · refine Keeps.iteN ?_ ?_
    · refine ⟨_, rfl, ?_⟩
      refine updMem_keeps _ _ _ ?_ ?_
      · refine pumpAll_keeps _ _ ?_
        with_reducible assumption
      · intro v57_0
        rfl
    · refine ⟨_, rfl, ?_⟩
      refine jobsDone_keeps _ _ _ _ _ _ ?_
      refine finishWriteback_keeps _ _ _ _ ?_
      refine updMem_keeps _ _ _ ?_ ?_
      · refine pumpAll_keeps _ _ ?_
        with_reducible assumption
      · intro v58_0
        rfl

theorem commitPage_keeps (s0 : State) (x0) (x1) (x2) (h : Keeps s0 x2) : Keeps s0 (commitPage x0 x1 x2).2 := by
  unfold commitPage
  refine Keeps.of1 ?_
  refine Keeps1.ite ?_ ?_
  · refine Keeps1.mk ?_
    refine spendPage_keeps _ _ _ _ ?_
    refine setDirty_keeps _ _ _ _ ?_
    refine State.setPage_keeps _ _ _ _ ?_
    with_reducible assumption
  · refine Keeps1.ite ?_ ?_
    · refine Keeps1.mk ?_
      refine startXfer_keeps _ _ _ ?_
      refine setDirty_keeps _ _ _ _ ?_
      refine State.setPage_keeps _ _ _ _ ?_
      with_reducible assumption
    · extract_lets
      split
      · refine Keeps1.mk ?_
        refine readFrame_keeps _ _ _ ?_
        with_reducible assumption
      · rename_i q44
        refine (fun k45 => ?_) (flashAppend_keeps s0 _ _ ?_ _ q44)
        rotate_left
        · refine readFrame_keeps _ _ _ ?_
          with_reducible assumption
        refine Keeps1.mk ?_
        refine updFlash_keeps _ _ _ ?_
        refine spendPage_keeps _ _ _ _ ?_
        refine setDirty_keeps _ _ _ _ ?_
        refine State.setPage_keeps _ _ _ _ ?_
        refine State.setPage_keeps _ _ _ _ ?_
        with_reducible assumption

theorem execTierJobCommit_keeps (s0 : State) (x0) (x1) (h : Keeps s0 x1) : ∃ t, execTierJobCommit x0 x1 = .next t ∧ Keeps s0 t := by
  unfold execTierJobCommit
  refine startJob_keeps _ _ _ _ _ ?_ ?_
  · with_reducible assumption
  · intro v31_0 v31_1 v31_2
    refine Keeps.ite0 ?_ ?_
    · with_reducible assumption
    · refine putHead_keeps _ _ _ _ ?_
      refine Keeps.foldl2 ?_ ?_
      · intro v32 v32_b v32_h
        refine Keeps.foldl2 ?_ ?_
        · intro v33 v33_b v33_h
          refine Keeps.of2 ?_
          refine Keeps2.mk ?_
          refine Keeps1.mk ?_
          refine commitPage_keeps _ _ _ _ ?_
          with_reducible assumption
        · with_reducible assumption
      · with_reducible assumption

theorem settlePage_keeps (s0 : State) (x0) (x1) (x2) (x3) (h : Keeps s0 x2) : Keeps s0 (settlePage x0 x1 x2 x3) := by
  unfold settlePage
  refine Keeps.ite0 ?_ ?_
  · refine setDirty_keeps _ _ _ _ ?_
    refine State.setPage_keeps _ _ _ _ ?_
    refine Keeps.ite0 ?_ ?_
    · refine killStripes_keeps _ _ _ ?_
      refine dropXfers_keeps _ _ _ ?_
      with_reducible assumption
    · refine dropXfers_keeps _ _ _ ?_
      with_reducible assumption
  · refine Keeps.ite0 ?_ ?_
    · refine State.setPage_keeps _ _ _ _ ?_
      refine copySectors_keeps _ _ _ _ _ ?_
      refine dropXfers_keeps _ _ _ ?_
      with_reducible assumption
    · refine Keeps.ite0 ?_ ?_
      · refine State.setPage_keeps _ _ _ _ ?_
        refine dropXfers_keeps _ _ _ ?_
        with_reducible assumption
      · refine State.setPage_keeps _ _ _ _ ?_
        refine Keeps.ite0 ?_ ?_
        · refine dropXfers_keeps _ _ _ ?_
          with_reducible assumption
        · refine killStripes_keeps _ _ _ ?_
          refine dropXfers_keeps _ _ _ ?_
          with_reducible assumption

theorem endCommit_keeps (s0 : State) (x0) (x1) (x2) (h : Keeps s0 x2) : Keeps s0 (endCommit x0 x1 x2) := by
  unfold endCommit
  refine Keeps.foldl0 ?_ ?_
  · intro v78_0 v78_1 v78_2
    refine updMem_keeps _ _ _ ?_ ?_
    · refine Keeps.foldl0 ?_ ?_
      · intro v75_0 v75_1 v75_2
        refine settlePage_keeps _ _ _ _ _ ?_
        with_reducible assumption
      · with_reducible assumption
    · intro v76_0
      rfl
  · with_reducible assumption

theorem startRegionXfers_keeps (s0 : State) (x0) (x1) (x2) (h : Keeps s0 x2) : Keeps s0 (startRegionXfers x0 x1 x2) := by
  unfold startRegionXfers
  refine Keeps.foldl0 ?_ ?_
  · intro v78_0 v78_1 v78_2
    refine Keeps.ite0 ?_ ?_
    · refine Keeps.ite0 ?_ ?_
      · refine startXfer_keeps _ _ _ ?_
        with_reducible assumption
      · refine startXfer_keeps _ _ _ ?_
        with_reducible assumption
    · with_reducible assumption
  · with_reducible assumption

theorem commitPhase_keeps (s0 : State) (x0) (x1) (h : Keeps s0 x1) : Keeps s0 (commitPhase x0 x1) := by
  unfold commitPhase
  split
  · refine Keeps.ite0 ?_ ?_
    · with_reducible assumption
    · refine Keeps.ite0 ?_ ?_
      · refine putHead_keeps _ _ _ _ ?_
        refine endCommit_keeps _ _ _ _ ?_
        with_reducible assumption
      · refine Keeps.ite0 ?_ ?_
        · refine putHead_keeps _ _ _ _ ?_
          refine endCommit_keeps _ _ _ _ ?_
          with_reducible assumption
        · refine putHead_keeps _ _ _ _ ?_
          refine startRegionXfers_keeps _ _ _ _ ?_
          with_reducible assumption
  · refine Keeps.ite0 ?_ ?_
    · with_reducible assumption
    · refine Keeps.ite0 ?_ ?_
      · refine putHead_keeps _ _ _ _ ?_
        refine endCommit_keeps _ _ _ _ ?_
        refine dropXfers_keeps _ _ _ ?_
        with_reducible assumption
      · refine putHead_keeps _ _ _ _ ?_
        refine startRegionXfers_keeps _ _ _ _ ?_
        refine dropXfers_keeps _ _ _ ?_
        with_reducible assumption
  · refine Keeps.ite0 ?_ ?_
    · with_reducible assumption
    · refine Keeps.ite0 ?_ ?_
      · refine putHead_keeps _ _ _ _ ?_
        refine endCommit_keeps _ _ _ _ ?_
        refine dropXfers_keeps _ _ _ ?_
        with_reducible assumption
      · refine putHead_keeps _ _ _ _ ?_
        refine endCommit_keeps _ _ _ _ ?_
        refine dropXfers_keeps _ _ _ ?_
        with_reducible assumption
  · with_reducible assumption

theorem discardPage_keeps (s0 : State) (x0) (x1) (x2) (h : Keeps s0 x2) : Keeps s0 (discardPage x0 x1 x2) := by
  unfold discardPage
  refine Keeps.ite0 ?_ ?_
  · refine setDirty_keeps _ _ _ _ ?_
    refine Keeps.foldl0 ?_ ?_
    · intro v59 v59_b v59_h
      refine memClear_keeps _ _ _ _ ?_
      with_reducible assumption
    · with_reducible assumption
  · refine Keeps.ite0 ?_ ?_
    · refine spendPage_keeps _ _ _ _ ?_
      refine setDirty_keeps _ _ _ _ ?_
      refine State.setPage_keeps _ _ _ _ ?_
      refine copySectors_keeps _ _ _ _ _ ?_
      with_reducible assumption
    · refine Keeps.ite0 ?_ ?_
      · refine startXfer_keeps _ _ _ ?_
        with_reducible assumption
      · refine spendPage_keeps _ _ _ _ ?_
        refine setDirty_keeps _ _ _ _ ?_
        refine State.setPage_keeps _ _ _ _ ?_
        refine storeFrameWords_keeps _ _ _ _ ?_
        refine Keeps.ite0 ?_ ?_
        · refine rehome_keeps _ _ _ _ ?_
          refine readFlashPage_keeps _ _ _ _ _ ?_
          with_reducible assumption
        · refine readFlashPage_keeps _ _ _ _ _ ?_
          with_reducible assumption

theorem execTierJobDiscard_keeps (s0 : State) (x0) (x1) (h : Keeps s0 x1) : ∃ t, execTierJobDiscard x0 x1 = .next t ∧ Keeps s0 t := by
  unfold execTierJobDiscard
  refine startJob_keeps _ _ _ _ _ ?_ ?_
  · with_reducible assumption
  · intro v78_0 v78_1 v78_2
    refine putHead_keeps _ _ _ _ ?_
    refine Keeps.foldl0 ?_ ?_
    · intro v75_0 v75_1 v75_2
      refine Keeps.foldl0 ?_ ?_
      · intro v73_0 v73_1 v73_2
        refine discardPage_keeps _ _ _ _ ?_
        with_reducible assumption
      · with_reducible assumption
    · with_reducible assumption

theorem discardPhase_keeps (s0 : State) (x0) (x1) (h : Keeps s0 x1) : Keeps s0 (discardPhase x0 x1) := by
  unfold discardPhase
  refine Keeps.ite0 ?_ ?_
  · with_reducible assumption
  · refine putHead_keeps _ _ _ _ ?_
    refine Keeps.foldl0 ?_ ?_
    · intro v76_0 v76_1 v76_2
      refine updMem_keeps _ _ _ ?_ ?_
      · with_reducible assumption
      · intro v74_0
        rfl
    · refine dropXfers_keeps _ _ _ ?_
      refine Keeps.foldl0 ?_ ?_
      · intro v74_0 v74_1 v74_2
        refine Keeps.ite0 ?_ ?_
        · refine setDirty_keeps _ _ _ _ ?_
          refine State.setPage_keeps _ _ _ _ ?_
          with_reducible assumption
        · with_reducible assumption
      · with_reducible assumption

theorem writeResult_keeps (s0 : State) (x0) (x1) (h : Keeps s0 x1) : Keeps s0 (writeResult x0 x1) := by
  unfold writeResult
  refine putHead_keeps _ _ _ _ ?_
  refine Keeps.foldl0 ?_ ?_
  · intro v34 v34_b v34_h
    refine Keeps.ite0 ?_ ?_
    · refine memWrite_keeps _ _ _ _ ?_
      with_reducible assumption
    · with_reducible assumption
  · refine tierSpend_keeps _ _ _ _ ?_
    with_reducible assumption

theorem jobProgress_keeps (s0 : State) (x0) (x1) (h : Keeps s0 x1) : Keeps s0 (jobProgress x0 x1) := by
  unfold jobProgress
  refine Keeps.foldl0 ?_ ?_
  · intro v35 v35_b v35_h
    split
    · refine Keeps.ite0 ?_ ?_
      · with_reducible assumption
      · split
        · refine Keeps.ite0 ?_ ?_
          · refine writeResult_keeps _ _ _ ?_
            with_reducible assumption
          · with_reducible assumption
        · refine commitPhase_keeps _ _ _ ?_
          with_reducible assumption
        · refine discardPhase_keeps _ _ _ ?_
          with_reducible assumption
        · with_reducible assumption
    · with_reducible assumption
  · with_reducible assumption

theorem execTierJobComplete_keeps (s0 : State) (x0) (x1) (h : Keeps s0 x1) : ∃ t, execTierJobComplete x0 x1 = .next t ∧ Keeps s0 t := by
  unfold execTierJobComplete
  extract_lets
  split
  · refine ⟨_, rfl, ?_⟩
    refine jobProgress_keeps _ _ _ ?_
    refine pumpAll_keeps _ _ ?_
    refine tierIntake_keeps _ _ ?_
    with_reducible assumption
  · refine Keeps.iteN ?_ ?_
    · refine ⟨_, rfl, ?_⟩
      refine jobProgress_keeps _ _ _ ?_
      refine pumpAll_keeps _ _ ?_
      refine tierIntake_keeps _ _ ?_
      with_reducible assumption
    · split
      · refine ⟨_, rfl, ?_⟩
        refine completeSlot_keeps _ _ _ _ _ _ ?_
        refine putHead_keeps _ _ _ _ ?_
        refine jobProgress_keeps _ _ _ ?_
        refine pumpAll_keeps _ _ ?_
        refine tierIntake_keeps _ _ ?_
        with_reducible assumption
      · refine ⟨_, rfl, ?_⟩
        refine retireFor_keeps _ _ _ _ _ _ ?_
        refine putHead_keeps _ _ _ _ ?_
        refine jobProgress_keeps _ _ _ ?_
        refine pumpAll_keeps _ _ ?_
        refine tierIntake_keeps _ _ ?_
        with_reducible assumption

theorem execTierRegionAdopt_keeps (s0 : State) (x0) (x1) (h : Keeps s0 x1) : ∃ t, execTierRegionAdopt x0 x1 = .next t ∧ Keeps s0 t := by
  unfold execTierRegionAdopt
  refine runCmdW_keeps _ _ _ _ _ _ ?_ ?_
  · with_reducible assumption
  · intro v78_0 v78_1
    refine Keeps.of1 ?_
    refine Keeps1.ite ?_ ?_
    · refine Keeps1.mk ?_
      with_reducible assumption
    · refine Keeps1.ite ?_ ?_
      · refine Keeps1.mk ?_
        with_reducible assumption
      · refine Keeps1.ite ?_ ?_
        · refine Keeps1.mk ?_
          with_reducible assumption
        · refine Keeps1.ite ?_ ?_
          · refine Keeps1.mk ?_
            with_reducible assumption
          · refine Keeps1.mk ?_
            refine startXfer_keeps _ _ _ ?_
            refine updMem_keeps _ _ _ ?_ ?_
            · with_reducible assumption
            · intro v69_0
              rfl

theorem endAdopt_keeps (s0 : State) (x0) (x1) (x2) (x3) (h : Keeps s0 x3) : Keeps s0 (endAdopt x0 x1 x2 x3) := by
  unfold endAdopt
  refine completeSlot_keeps _ _ _ _ _ _ ?_
  refine updMem_keeps _ _ _ ?_ ?_
  · with_reducible assumption
  · intro v77_0
    rfl

theorem adoptRegion_keeps (s0 : State) (x0) (x1) (x2) (h : Keeps s0 x2) : Keeps s0 (adoptRegion x0 x1 x2) := by
  unfold adoptRegion
  refine endAdopt_keeps _ _ _ _ _ ?_
  refine Keeps.foldl0 ?_ ?_
  · intro v77_0 v77_1 v77_2
    refine State.setPage_keeps _ _ _ _ ?_
    with_reducible assumption
  · refine charge_keeps _ _ _ _ _ ?_
    refine updMem_keeps _ _ _ ?_ ?_
    · with_reducible assumption
    · intro v75_0
      rfl

theorem adoptProgress_keeps (s0 : State) (x0) (x1) (h : Keeps s0 x1) : Keeps s0 (adoptProgress x0 x1) := by
  unfold adoptProgress
  refine Keeps.ite0 ?_ ?_
  · with_reducible assumption
  · split
    · refine Keeps.ite0 ?_ ?_
      · refine endAdopt_keeps _ _ _ _ _ ?_
        refine dropXfers_keeps _ _ _ ?_
        with_reducible assumption
      · refine Keeps.ite0 ?_ ?_
        · refine endAdopt_keeps _ _ _ _ _ ?_
          refine dropXfers_keeps _ _ _ ?_
          with_reducible assumption
        · refine startXfer_keeps _ _ _ ?_
          refine updMem_keeps _ _ _ ?_ ?_
          · refine dropXfers_keeps _ _ _ ?_
            with_reducible assumption
          · intro v73_0
            rfl
    · refine Keeps.ite0 ?_ ?_
      · refine endAdopt_keeps _ _ _ _ _ ?_
        refine dropXfers_keeps _ _ _ ?_
        with_reducible assumption
      · refine adoptRegion_keeps _ _ _ _ ?_
        refine dropXfers_keeps _ _ _ ?_
        with_reducible assumption
    · with_reducible assumption

theorem settleXfers_keeps (s0 : State) (x0) (h : Keeps s0 x0) : Keeps s0 (settleXfers x0) := by
  unfold settleXfers
  refine weightProgress_keeps _ _ ?_
  refine dropXfers_keeps _ _ _ ?_
  refine Keeps.foldl0 ?_ ?_
  · intro v76_0 v76_1 v76_2
    refine Keeps.foldl0 ?_ ?_
    · intro v74_0 v74_1 v74_2
      refine adoptProgress_keeps _ _ _ ?_
      with_reducible assumption
    · with_reducible assumption
  · with_reducible assumption

theorem xferResponse_keeps (s0 : State) (x0) (x1) (x2) (x3) (x4) (h : Keeps s0 x4) : Keeps s0 (xferResponse x0 x1 x2 x3 x4) := by
  unfold xferResponse
  split
  · with_reducible assumption
  · refine settleXfers_keeps _ _ ?_
    refine pumpXfer_keeps _ _ _ _ ?_
    refine Keeps.ite0 ?_ ?_
    · refine landPiece_keeps _ _ _ _ _ _ ?_
      refine State.setXfer_keeps _ _ _ _ ?_
      with_reducible assumption
    · refine State.setXfer_keeps _ _ _ _ ?_
      with_reducible assumption

theorem execFlashFormat_keeps (s0 : State) (x0) (x1) (x2) (h : Keeps s0 x2) : ∃ t, execFlashFormat x0 x1 x2 = .next t ∧ Keeps s0 t := by
  unfold execFlashFormat
  refine runCmd_keeps _ _ _ _ _ _ ?_ ?_
  · with_reducible assumption
  · intro v78_0 v78_1
    refine Keeps.of2 ?_
    split
    · refine Keeps2.of ?_
      refine refuse_keeps _ _ _ ?_
      with_reducible assumption
    · refine Keeps2.ite ?_ ?_
      · refine Keeps2.of ?_
        refine refuse_keeps _ _ _ ?_
        with_reducible assumption
      · refine Keeps2.ite ?_ ?_
        · refine Keeps2.of ?_
          refine refuse_keeps _ _ _ ?_
          with_reducible assumption
        · refine Keeps2.ite ?_ ?_
          · refine Keeps2.mk ?_
            refine Keeps1.mk ?_
            refine updFlash_keeps _ _ _ ?_
            with_reducible assumption
          · refine Keeps2.mk ?_
            refine Keeps1.mk ?_
            refine updFlash_keeps _ _ _ ?_
            with_reducible assumption

theorem execFlashRowProgram_keeps (s0 : State) (x0) (h : Keeps s0 x0) : ∃ t, execFlashRowProgram x0 = .next t ∧ Keeps s0 t := by
  unfold execFlashRowProgram
  (dsimp only; split)
  · refine ⟨_, rfl, ?_⟩
    refine updFlash_keeps _ _ _ ?_
    with_reducible assumption
  · refine ⟨_, rfl, ?_⟩
    refine weightProgress_keeps _ _ ?_
    refine flashCount_keeps _ _ _ ?_
    refine updFlash_keeps _ _ _ ?_
    with_reducible assumption

theorem eraseSet_keeps (s0 : State) (x0) (x1) (h : Keeps s0 x1) : Keeps s0 (eraseSet x0 x1) := by
  unfold eraseSet
  refine flashCount_keeps _ _ _ ?_
  refine updFlash_keeps _ _ _ ?_
  with_reducible assumption

theorem movePage_keeps (s0 : State) (x0) (x1) (h : Keeps s0 x1) : Keeps s0 (movePage x0 x1) := by
  unfold movePage
  refine rehome_keeps _ _ _ _ ?_
  refine Keeps.foldl1 ?_ ?_
  · intro v60 v60_b v60_h
    refine Keeps.of1 ?_
    refine Keeps1.mk ?_
    refine readStripe_keeps _ _ _ _ _ ?_
    with_reducible assumption
  · with_reducible assumption

theorem execFlashCompaction_keeps (s0 : State) (x0) (h : Keeps s0 x0) : ∃ t, execFlashCompaction x0 = .next t ∧ Keeps s0 t := by
  unfold execFlashCompaction
  refine ⟨_, rfl, ?_⟩
  refine Keeps.foldl0 ?_ ?_
  · intro v77_0 v77_1 v77_2
    refine Keeps.ite0 ?_ ?_
    · refine eraseSet_keeps _ _ _ ?_
      with_reducible assumption
    · with_reducible assumption
  · refine Keeps.ite0 ?_ ?_
    · split
      · with_reducible assumption
      · refine Keeps.foldl0 ?_ ?_
        · intro v74_0 v74_1 v74_2
          refine movePage_keeps _ _ _ ?_
          with_reducible assumption
        · with_reducible assumption
    · with_reducible assumption

/-! ### StreamEngine -/

theorem scaledRow_keeps (s0 : State) (x0) (x1) (x2) (x3) (x4) (x5) (x6) (h : Keeps s0 x6) : Keeps s0 (scaledRow x0 x1 x2 x3 x4 x5 x6).2 := by
  unfold scaledRow
  refine Keeps.foldl1 ?_ ?_
  · intro v61 v61_b v61_h
    refine Keeps.of1 ?_
    refine Keeps1.mk ?_
    refine coreRead_keeps _ _ _ _ _ _ ?_
    with_reducible assumption
  · refine Keeps.of1 ?_
    refine Keeps1.mk ?_
    refine coreStall_keeps _ _ _ _ _ _ ?_
    with_reducible assumption

theorem scaleRow_keeps (s0 : State) (x0) (x1) (x2) (x3) (x4) (x5) (x6) (x7) (h : Keeps s0 (x7).2) : Keeps s0 (scaleRow x0 x1 x2 x3 x4 x5 x6 x7).2 := by
  unfold scaleRow
  refine Keeps.of1 ?_
  split
  · refine Keeps1.ite ?_ ?_
    · refine Keeps1.mk ?_
      with_reducible assumption
    · refine Keeps1.mk ?_
      refine pushJob_keeps _ _ _ _ _ _ ?_
      refine scaledRow_keeps _ _ _ _ _ _ _ _ ?_
      with_reducible assumption
  · refine Keeps1.ite ?_ ?_
    · refine Keeps1.mk ?_
      refine Keeps.foldl1 ?_ ?_
      · intro v62 v62_b v62_h
        refine Keeps.of1 ?_
        split
        · refine Keeps1.mk ?_
          refine coreWrite_keeps _ _ _ _ _ _ _ ?_
          with_reducible assumption
        · refine Keeps1.of ?_
          with_reducible assumption
      · refine Keeps.of1 ?_
        refine Keeps1.mk ?_
        refine coreWrite_keeps _ _ _ _ _ _ _ ?_
        refine coreStall_keeps _ _ _ _ _ _ ?_
        refine scaledRow_keeps _ _ _ _ _ _ _ _ ?_
        with_reducible assumption
    · refine Keeps1.of ?_
      refine Keeps.foldl1 ?_ ?_
      · intro v63 v63_b v63_h
        refine Keeps.of1 ?_
        split
        · refine Keeps1.mk ?_
          refine coreWrite_keeps _ _ _ _ _ _ _ ?_
          with_reducible assumption
        · refine Keeps1.of ?_
          with_reducible assumption
      · refine Keeps.of1 ?_
        refine Keeps1.mk ?_
        refine coreWrite_keeps _ _ _ _ _ _ _ ?_
        refine coreStall_keeps _ _ _ _ _ _ ?_
        refine scaledRow_keeps _ _ _ _ _ _ _ _ ?_
        with_reducible assumption

theorem localRow_keeps (s0 : State) (x0) (x1) (x2) (x3) (x4) (h : Keeps s0 (x4).2) : Keeps s0 (localRow x0 x1 x2 x3 x4).2 := by
  unfold localRow
  refine Keeps.of1 ?_
  split
  · refine Keeps1.ite ?_ ?_
    · refine Keeps1.of ?_
      refine moveRow_keeps _ _ _ _ _ _ _ ?_
      with_reducible assumption
    · refine Keeps1.of ?_
      refine scaleRow_keeps _ _ _ _ _ _ _ _ _ ?_
      with_reducible assumption
  · refine Keeps1.of ?_
    refine moveRow_keeps _ _ _ _ _ _ _ ?_
    with_reducible assumption

theorem moveRows_keeps (s0 : State) (x0) (x1) (x2) (x3) (x4) (h : Keeps s0 ((x4).2)) : Keeps s0 (((moveRows x0 x1 x2 x3 x4).2).2) := by
  induction x3 generalizing x4 with
  | nil => exact h
  | cons q l ih =>
    unfold moveRows
    refine Keeps.ite2 h (Keeps.ite2 h ?_)
    exact ih _ (localRow_keeps _ _ _ _ _ _ h)

theorem startRows_keeps (s0 : State) (x0) (x1) (x2) (x3) (x4) (h : Keeps s0 x4) : Keeps s0 (startRows x0 x1 x2 x3 x4) := by
  unfold startRows
  refine startDesc_keeps _ _ _ _ _ _ ?_
  refine moveRows_keeps _ _ _ _ _ _ ?_
  with_reducible assumption

theorem overlapRows_keeps (s0 : State) (x0) (x1) (x2) (x3) (h : Keeps s0 x3) : Keeps s0 (overlapRows x0 x1 x2 x3).2 := by
  unfold overlapRows
  refine Keeps.foldl1 ?_ ?_
  · intro v36 v36_b v36_h
    refine Keeps.of1 ?_
    refine Keeps1.ite ?_ ?_
    · refine Keeps1.mk ?_
      refine coreWrite_keeps _ _ _ _ _ _ _ ?_
      refine coreStall_keeps _ _ _ _ _ _ ?_
      refine State.drawBytes_keeps _ _ _ ?_
      with_reducible assumption
    · refine Keeps1.mk ?_
      with_reducible assumption
  · with_reducible assumption

theorem execMeMove_keeps (s0 : State) (x0) (x1) (h : Keeps s0 x1) : ∃ t, execMeMove x0 x1 = .next t ∧ Keeps s0 t := by
  unfold execMeMove
  refine runDesc_keeps _ _ _ _ _ _ _ ?_ ?_
  · with_reducible assumption
  · intro v37_0 v37_1 v37_2 v37_3 v37_4
    refine Keeps.ite0 ?_ ?_
    · refine finishDesc_keeps _ _ _ _ _ ?_
      refine overlapRows_keeps _ _ _ _ _ ?_
      with_reducible assumption
    · refine startRows_keeps _ _ _ _ _ _ ?_
      with_reducible assumption

theorem readIndices_keeps (s0 : State) (x0) (x1) (x2) (x3) (h : Keeps s0 x3) : Keeps s0 ((readIndices x0 x1 x2 x3).2).2 := by
  unfold readIndices
  refine Keeps.foldl2 ?_ ?_
  · intro v67 v67_b v67_h
    refine Keeps.of2 ?_
    refine Keeps2.ite ?_ ?_
    · refine Keeps2.of ?_
      with_reducible assumption
    · refine Keeps2.ite ?_ ?_
      · refine Keeps2.mk ?_
        refine Keeps1.mk ?_
        with_reducible assumption
      · refine Keeps2.ite ?_ ?_
        · refine Keeps2.mk ?_
          refine Keeps1.mk ?_
          refine coreRead_keeps _ _ _ _ _ _ ?_
          refine coreStall_keeps _ _ _ _ _ _ ?_
          with_reducible assumption
        · refine Keeps2.mk ?_
          refine Keeps1.mk ?_
          refine coreRead_keeps _ _ _ _ _ _ ?_
          refine coreStall_keeps _ _ _ _ _ _ ?_
          with_reducible assumption
  · with_reducible assumption

theorem execMeGather_keeps (s0 : State) (x0) (x1) (h : Keeps s0 x1) : ∃ t, execMeGather x0 x1 = .next t ∧ Keeps s0 t := by
  unfold execMeGather
  refine runDesc_keeps _ _ _ _ _ _ _ ?_ ?_
  · with_reducible assumption
  · intro v38_0 v38_1 v38_2 v38_3 v38_4
    refine Keeps.ite0 ?_ ?_
    · refine startRows_keeps _ _ _ _ _ _ ?_
      refine readIndices_keeps _ _ _ _ _ ?_
      with_reducible assumption
    · refine startDesc_keeps _ _ _ _ _ _ ?_
      refine readIndices_keeps _ _ _ _ _ ?_
      with_reducible assumption

theorem execMeScatter_keeps (s0 : State) (x0) (x1) (h : Keeps s0 x1) : ∃ t, execMeScatter x0 x1 = .next t ∧ Keeps s0 t := by
  unfold execMeScatter
  refine runDesc_keeps _ _ _ _ _ _ _ ?_ ?_
  · with_reducible assumption
  · intro v39_0 v39_1 v39_2 v39_3 v39_4
    refine Keeps.ite0 ?_ ?_
    · refine startRows_keeps _ _ _ _ _ _ ?_
      refine readIndices_keeps _ _ _ _ _ ?_
      with_reducible assumption
    · refine startDesc_keeps _ _ _ _ _ _ ?_
      refine readIndices_keeps _ _ _ _ _ ?_
      with_reducible assumption

theorem execMeTranspose_keeps (s0 : State) (x0) (x1) (h : Keeps s0 x1) : ∃ t, execMeTranspose x0 x1 = .next t ∧ Keeps s0 t := by
  unfold execMeTranspose
  refine runDesc_keeps _ _ _ _ _ _ _ ?_ ?_
  · with_reducible assumption
  · intro v78_0 v78_1 v78_2 v78_3 v78_4
    refine finishDesc_keeps _ _ _ _ _ ?_
    refine Keeps.of1 ?_
    refine Keeps.foldl1 ?_ ?_
    · intro v74_0 v74_1 v74_2
      refine Keeps.of1 ?_
      refine Keeps.foldl1 ?_ ?_
      · intro v71_0 v71_1 v71_2
        refine Keeps.of1 ?_
        refine Keeps1.ite ?_ ?_
        · refine Keeps1.of ?_
          with_reducible assumption
        · refine Keeps1.ite ?_ ?_
          · refine Keeps1.mk ?_
            with_reducible assumption
          · refine Keeps1.mk ?_
            refine copyBytes_keeps _ _ _ _ _ _ _ ?_
            with_reducible assumption
      · with_reducible assumption
    · refine Keeps.of1 ?_
      refine Keeps1.mk ?_
      with_reducible assumption

theorem meBytes_keeps (s0 : State) (x0) (x1) (x2) (x3) (h : Keeps s0 x3) : Keeps s0 (meBytes x0 x1 x2 x3).2 := by
  unfold meBytes
  refine Keeps.of1 ?_
  refine Keeps1.ite ?_ ?_
  · refine Keeps1.mk ?_
    with_reducible assumption
  · refine Keeps1.mk ?_
    refine coreRead_keeps _ _ _ _ _ _ ?_
    refine coreStall_keeps _ _ _ _ _ _ ?_
    with_reducible assumption

theorem putFor_keeps (s0 : State) (x0) (x1) (x2) (x3) (x4) (x5) (h : Keeps s0 x5) : Keeps s0 (putFor x0 x1 x2 x3 x4 x5).2 := by
  unfold putFor
  refine Keeps.of1 ?_
  refine Keeps1.ite ?_ ?_
  · refine Keeps1.mk ?_
    with_reducible assumption
  · refine Keeps1.mk ?_
    refine coreWrite_keeps _ _ _ _ _ _ _ ?_
    refine coreStall_keeps _ _ _ _ _ _ ?_
    with_reducible assumption

theorem mePut_keeps (s0 : State) (x0) (x1) (x2) (x3) (x4) (h : Keeps s0 x4) : Keeps s0 ((mePut x0 x1 x2 x3 x4).2) := by
  unfold mePut
  refine putFor_keeps _ _ _ _ _ _ _ ?_
  with_reducible assumption

theorem runHash_keeps (s0 : State) (x0) (x1) (x2 : Nat → Sys2Proof.Machine.MeEntry → Sys2Proof.Machine.Desc → Sys2Proof.Machine.State → Sys2Proof.Machine.State) (x3) (h : Keeps s0 x3) (hx2 : ∀ y0 y1 y2 y3, Keeps s0 y3 → Keeps s0 (x2 y0 y1 y2 y3)) : ∃ t, runHash x0 x1 x2 x3 = .next t ∧ Keeps s0 t := by
  unfold runHash
  split
  · refine ⟨_, rfl, ?_⟩
    with_reducible assumption
  · refine Keeps.iteN ?_ ?_
    · refine ⟨_, rfl, ?_⟩
      with_reducible assumption
    · refine runDesc_keeps _ _ _ _ _ _ _ ?_ ?_
      · with_reducible assumption
      · intro v76_0 v76_1 v76_2 v76_3 v76_4
        refine hx2 _ _ _ _ ?_
        with_reducible assumption

theorem execHashOneshot_keeps (s0 : State) (x0) (x1) (h : Keeps s0 x1) : ∃ t, execHashOneshot x0 x1 = .next t ∧ Keeps s0 t := by
  unfold execHashOneshot
  refine runHash_keeps _ _ _ _ _ ?_ ?_
  · with_reducible assumption
  · intro v78_0 v78_1 v78_2 v78_3 v78_4
    split
    · refine finishDesc_keeps _ _ _ _ _ ?_
      (rename_i hq; refine Keeps.of_eq (congrArg (fun z => z.2) hq) ?_)
      refine meBytes_keeps _ _ _ _ _ ?_
      with_reducible assumption
    · refine finishDesc_keeps _ _ _ _ _ ?_
      refine mePut_keeps _ _ _ _ _ _ ?_
      (rename_i hq; refine Keeps.of_eq (congrArg (fun z => z.2) hq) ?_)
      refine meBytes_keeps _ _ _ _ _ ?_
      with_reducible assumption

theorem execHashAppend_keeps (s0 : State) (x0) (x1) (h : Keeps s0 x1) : ∃ t, execHashAppend x0 x1 = .next t ∧ Keeps s0 t := by
  unfold execHashAppend
  refine runHash_keeps _ _ _ _ _ ?_ ?_
  · with_reducible assumption
  · intro v78_0 v78_1 v78_2 v78_3 v78_4
    split
    · refine finishDesc_keeps _ _ _ _ _ ?_
      (rename_i hq75; refine Keeps.of_eq (congrArg (fun z => z.2) hq75) ?_)
      refine meBytes_keeps _ _ _ _ _ ?_
      with_reducible assumption
    · split
      · refine finishDesc_keeps _ _ _ _ _ ?_
        (rename_i hq74; refine Keeps.of_eq (congrArg (fun z => z.2) hq74) ?_)
        refine meBytes_keeps _ _ _ _ _ ?_
        (rename_i hq72 u72_0 u72_1; refine Keeps.of_eq (congrArg (fun z => z.2) hq72) ?_)
        refine meBytes_keeps _ _ _ _ _ ?_
        with_reducible assumption
      · refine finishDesc_keeps _ _ _ _ _ ?_
        refine mePut_keeps _ _ _ _ _ _ ?_
        (rename_i hq73; refine Keeps.of_eq (congrArg (fun z => z.2) hq73) ?_)
        refine meBytes_keeps _ _ _ _ _ ?_
        (rename_i hq71 u71_0 u71_1 u71_2; refine Keeps.of_eq (congrArg (fun z => z.2) hq71) ?_)
        refine meBytes_keeps _ _ _ _ _ ?_
        with_reducible assumption

theorem execHashFinal_keeps (s0 : State) (x0) (x1) (h : Keeps s0 x1) : ∃ t, execHashFinal x0 x1 = .next t ∧ Keeps s0 t := by
  unfold execHashFinal
  refine runHash_keeps _ _ _ _ _ ?_ ?_
  · with_reducible assumption
  · intro v78_0 v78_1 v78_2 v78_3 v78_4
    split
    · refine finishDesc_keeps _ _ _ _ _ ?_
      (rename_i hq; refine Keeps.of_eq (congrArg (fun z => z.2) hq) ?_)
      refine meBytes_keeps _ _ _ _ _ ?_
      with_reducible assumption
    · refine finishDesc_keeps _ _ _ _ _ ?_
      refine mePut_keeps _ _ _ _ _ _ ?_
      refine mePut_keeps _ _ _ _ _ _ ?_
      (rename_i hq; refine Keeps.of_eq (congrArg (fun z => z.2) hq) ?_)
      refine meBytes_keeps _ _ _ _ _ ?_
      with_reducible assumption

theorem execMeWb_keeps (s0 : State) (x0) (x1) (h : Keeps s0 x1) : ∃ t, execMeWb x0 x1 = .next t ∧ Keeps s0 t := by
  unfold execMeWb
  refine runDesc_keeps _ _ _ _ _ _ _ ?_ ?_
  · with_reducible assumption
  · intro v78_0 v78_1 v78_2 v78_3 v78_4
    refine finishDesc_keeps _ _ _ _ _ ?_
    refine Keeps.foldl0 ?_ ?_
    · intro v75_0 v75_1 v75_2
      split
      · with_reducible assumption
      · refine Keeps.ite0 ?_ ?_
        · refine State.setLine_keeps _ _ _ _ ?_
          refine Keeps.ite0 ?_ ?_
          · refine writeBackLine_keeps _ _ _ ?_
            with_reducible assumption
          · with_reducible assumption
        · refine Keeps.ite0 ?_ ?_
          · refine writeBackLine_keeps _ _ _ ?_
            with_reducible assumption
          · with_reducible assumption
    · with_reducible assumption

theorem transfer_keeps (s0 : State) (x0) (x1) (x2) (x3) (x4) (x5) (x6) (x7) (x8) (h : Keeps s0 x8) : Keeps s0 (transfer x0 x1 x2 x3 x4 x5 x6 x7 x8) := by
  unfold transfer
  refine startDesc_keeps _ _ _ _ _ _ ?_
  with_reducible assumption

theorem execMeFload_keeps (s0 : State) (x0) (x1) (h : Keeps s0 x1) : ∃ t, execMeFload x0 x1 = .next t ∧ Keeps s0 t := by
  unfold execMeFload
  refine runDesc_keeps _ _ _ _ _ _ _ ?_ ?_
  · with_reducible assumption
  · intro v78_0 v78_1 v78_2 v78_3 v78_4
    refine transfer_keeps _ _ _ _ _ _ _ _ _ _ ?_
    with_reducible assumption

theorem execMeFstore_keeps (s0 : State) (x0) (x1) (h : Keeps s0 x1) : ∃ t, execMeFstore x0 x1 = .next t ∧ Keeps s0 t := by
  unfold execMeFstore
  refine runDesc_keeps _ _ _ _ _ _ _ ?_ ?_
  · with_reducible assumption
  · intro v78_0 v78_1 v78_2 v78_3 v78_4
    refine transfer_keeps _ _ _ _ _ _ _ _ _ _ ?_
    with_reducible assumption

theorem execMePut_keeps (s0 : State) (x0) (x1) (h : Keeps s0 x1) : ∃ t, execMePut x0 x1 = .next t ∧ Keeps s0 t := by
  unfold execMePut
  refine runDesc_keeps _ _ _ _ _ _ _ ?_ ?_
  · with_reducible assumption
  · intro v78_0 v78_1 v78_2 v78_3 v78_4
    refine transfer_keeps _ _ _ _ _ _ _ _ _ _ ?_
    with_reducible assumption

theorem execMeGet_keeps (s0 : State) (x0) (x1) (h : Keeps s0 x1) : ∃ t, execMeGet x0 x1 = .next t ∧ Keeps s0 t := by
  unfold execMeGet
  refine runDesc_keeps _ _ _ _ _ _ _ ?_ ?_
  · with_reducible assumption
  · intro v78_0 v78_1 v78_2 v78_3 v78_4
    refine transfer_keeps _ _ _ _ _ _ _ _ _ _ ?_
    with_reducible assumption

theorem execMeAtomic_keeps (s0 : State) (x0) (x1) (h : Keeps s0 x1) : ∃ t, execMeAtomic x0 x1 = .next t ∧ Keeps s0 t := by
  unfold execMeAtomic
  refine runDesc_keeps _ _ _ _ _ _ _ ?_ ?_
  · with_reducible assumption
  · intro v78_0 v78_1 v78_2 v78_3 v78_4
    refine startDesc_keeps _ _ _ _ _ _ ?_
    with_reducible assumption

theorem issueOne_keeps (s0 : State) (x0) (x1) (x2) (x3) (h : Keeps s0 x3) : Keeps s0 (issueOne x0 x1 x2 x3) := by
  unfold issueOne
  refine putEntry_keeps _ _ _ _ _ _ _ ?_
  refine State.setThread_keeps _ _ _ _ ?_
  with_reducible assumption

theorem refuseIssue_keeps (s0 : State) (x0) (x1) (x2) (x3) (h : Keeps s0 x3) : Keeps s0 (refuseIssue x0 x1 x2 x3) := by
  unfold refuseIssue
  refine Keeps.ite0 ?_ ?_
  · refine putEntry_keeps _ _ _ _ _ _ _ ?_
    with_reducible assumption
  · refine finishLd_keeps _ _ _ _ _ _ _ ?_
    refine putEntry_keeps _ _ _ _ _ _ _ ?_
    with_reducible assumption

theorem payloadWords_keeps (s0 : State) (x0) (x1) (x2) (x3) (x4) (h : Keeps s0 x4) : ∀ t, payloadWords x0 x1 x2 x3 x4 = some t → Keeps s0 (((t).2).2) := by
  intro t ht
  unfold payloadWords at ht
  have hk := meBytes_keeps s0 x0 x1 x3 x4 h
  revert ht hk
  cases meBytes x0 x1 x3 x4 with
  | mk a b =>
    cases a with
    | none => intro ht; cases ht
    | some r =>
      intro ht hk
      have := Option.some.inj ht
      subst this
      exact hk

theorem issueRemote_keeps (s0 : State) (x0) (x1) (x2) (x3) (h : Keeps s0 x3) : Keeps s0 (issueRemote x0 x1 x2 x3) := by
  unfold issueRemote
  extract_lets +onlyGivenNames who f wr st
  refine Keeps.ite0 (refuseIssue_keeps _ _ _ _ _ h) ?_
  extract_lets +onlyGivenNames data
  have hd : ∀ x, data = some x → Keeps s0 x.2.2 := by
    refine Keeps.iteO (payloadWords_keeps _ _ _ _ _ _ h) (Keeps.iteO ?_ ?_)
    · exact fun t w => Option.some.inj w ▸ h
    · exact fun t w => Option.some.inj w ▸ h
  clear_value data
  split
  · exact refuseIssue_keeps _ _ _ _ _ h
  · rename_i ws poison s1
    have h1 := hd _ rfl
    extract_lets +onlyGivenNames e1 s2
    have h2 : Keeps s0 s2 := putEntry_keeps _ _ _ _ _ _ _ h1
    clear_value s2
    refine Keeps.ite0 ?_ ?_
    · split
      · exact refuseIssue_keeps _ _ _ _ _ h2
      · extract_lets +onlyGivenNames s3
        have h3 : Keeps s0 s3 := issueOne_keeps _ _ _ _ _ h2
        clear_value s3
        refine Keeps.ite0 ?_ ?_
        · split
          · exact h3
          · rename_i r q
            exact acknowledge_keeps _ _ _ _ _ _ _ _ (ownWrite_keeps _ _ _ _ _ _ h3 r q)
        · extract_lets +onlyGivenNames r
          have hr : Keeps s0 r.2.2 := homeRead_keeps _ _ _ _ _ h3
          exact Keeps.ite0 (acknowledge_keeps _ _ _ _ _ _ _ _ hr)
            (acknowledge_keeps _ _ _ _ _ _ _ _ (landData_keeps _ _ _ _ _ _ _ _ hr))
    · split
      · exact h
      · rename_i q
        exact issueOne_keeps _ _ _ _ _ (sendRequest_keeps _ _ _ _ _ _ _ _ _ _ _ _ _ _ h2 _ q)

theorem atomicResult_keeps (s0 : State) (x0) (x1) (x2) (x3) (x4) (x5) (x6) (x7) (x8) (x9) (h : Keeps s0 x9) : Keeps s0 (atomicResult x0 x1 x2 x3 x4 x5 x6 x7 x8 x9) := by
  unfold atomicResult
  refine acknowledge_keeps _ _ _ _ _ _ _ _ ?_
  refine Keeps.of1 ?_
  refine Keeps1.ite ?_ ?_
  · refine Keeps1.of ?_
    refine putFor_keeps _ _ _ _ _ _ _ ?_
    with_reducible assumption
  · refine Keeps1.mk ?_
    with_reducible assumption

theorem issueAtomic_keeps (s0 : State) (x0) (x1) (x2) (x3) (h : Keeps s0 x3) : Keeps s0 (issueAtomic x0 x1 x2 x3) := by
  unfold issueAtomic
  refine Keeps.ite0 ?_ ?_
  · refine refuseIssue_keeps _ _ _ _ _ ?_
    with_reducible assumption
  · split
    · rename_i q40
      refine (fun k41 => ?_) (Keeps.of_eq (s := s0) (congrArg (fun p => (p).2) q40) ?_)
      rotate_left
      · refine meBytes_keeps _ _ _ _ _ ?_
        with_reducible assumption
      refine refuseIssue_keeps _ _ _ _ _ ?_
      with_reducible assumption
    · rename_i q42
      refine (fun k43 => ?_) (Keeps.of_eq (s := s0) (congrArg (fun p => (p).2) q42) ?_)
      rotate_left
      · refine meBytes_keeps _ _ _ _ _ ?_
        with_reducible assumption
      refine Keeps.ite0 ?_ ?_
      · refine refuseIssue_keeps _ _ _ _ _ ?_
        with_reducible assumption
      · refine Keeps.ite0 ?_ ?_
        · refine atomicResult_keeps _ _ _ _ _ _ _ _ _ _ _ ?_
          refine performAtomic_keeps _ _ _ _ _ _ _ _ ?_
          refine issueOne_keeps _ _ _ _ _ ?_
          with_reducible assumption
        · refine Keeps.ite0 ?_ ?_
          · split
            · refine refuseIssue_keeps _ _ _ _ _ ?_
              with_reducible assumption
            · refine atomicResult_keeps _ _ _ _ _ _ _ _ _ _ _ ?_
              refine performAtomic_keeps _ _ _ _ _ _ _ _ ?_
              refine issueOne_keeps _ _ _ _ _ ?_
              with_reducible assumption
          · split
            · with_reducible assumption
            · rename_i q44
              refine (fun k45 => ?_) (sendRequest_keeps s0 _ _ _ _ _ _ _ _ _ _ _ _ _ ?_ _ q44)
              rotate_left
              · with_reducible assumption
              refine issueOne_keeps _ _ _ _ _ ?_
              with_reducible assumption

theorem issueRow_keeps (s0 : State) (x0) (x1) (x2) (x3) (h : Keeps s0 x3) : Keeps s0 (issueRow x0 x1 x2 x3) := by
  unfold issueRow
  refine putEntry_keeps _ _ _ _ _ _ _ ?_
  refine localRow_keeps _ _ _ _ _ _ ?_
  with_reducible assumption

theorem issueDevice_keeps (s0 : State) (x0) (x1) (x2) (h : Keeps s0 x2) : Keeps s0 (issueDevice x0 x1 x2) := by
  unfold issueDevice
  refine Keeps.upd ?_ rfl
  refine issueOne_keeps _ _ _ _ _ ?_
  with_reducible assumption

theorem execMeRequestIssue_keeps (s0 : State) (x0) (x1) (h : Keeps s0 x1) : ∃ t, execMeRequestIssue x0 x1 = .next t ∧ Keeps s0 t := by
  unfold execMeRequestIssue
  refine Keeps.iteN ?_ ?_
  · refine ⟨_, rfl, ?_⟩
    with_reducible assumption
  · split
    · refine ⟨_, rfl, ?_⟩
      with_reducible assumption
    · split
      · refine ⟨_, rfl, ?_⟩
        with_reducible assumption
      · refine Keeps.iteN ?_ ?_
        · refine ⟨_, rfl, ?_⟩
          refine issueAtomic_keeps _ _ _ _ _ ?_
          with_reducible assumption
        · refine Keeps.iteN ?_ ?_
          · refine ⟨_, rfl, ?_⟩
            refine issueRow_keeps _ _ _ _ _ ?_
            with_reducible assumption
          · refine Keeps.iteN ?_ ?_
            · refine ⟨_, rfl, ?_⟩
              refine issueDevice_keeps _ _ _ _ ?_
              with_reducible assumption
            · refine ⟨_, rfl, ?_⟩
              refine issueRemote_keeps _ _ _ _ _ ?_
              with_reducible assumption

theorem execMeDescriptorRetire_keeps (s0 : State) (x0) (x1) (h : Keeps s0 x1) : ∃ t, execMeDescriptorRetire x0 x1 = .next t ∧ Keeps s0 t := by
  unfold execMeDescriptorRetire
  (dsimp only; split)
  · refine ⟨_, rfl, ?_⟩
    with_reducible assumption
  · refine Keeps.iteN ?_ ?_
    · refine ⟨_, rfl, ?_⟩
      refine wakeFence_keeps _ _ _ ?_
      refine wakeCounters_keeps _ _ _ ?_
      refine retireHead_keeps _ _ _ _ _ _ ?_
      with_reducible assumption
    · refine ⟨_, rfl, ?_⟩
      with_reducible assumption

theorem performDevice_keeps (s0 : State) (x0) (x1) (h : Keeps s0 x1) : Keeps s0 (performDevice x0 x1) := by
  unfold performDevice
  refine Keeps.ite0 ?_ ?_
  · refine acknowledge_keeps _ _ _ _ _ _ _ _ ?_
    with_reducible assumption
  · refine Keeps.ite0 ?_ ?_
    · refine acknowledge_keeps _ _ _ _ _ _ _ _ ?_
      refine coreStore_keeps _ _ _ _ _ _ _ ?_
      refine Keeps.ite0 ?_ ?_
      · with_reducible assumption
      · refine storeRace_keeps _ _ _ _ _ ?_
        with_reducible assumption
    · refine acknowledge_keeps _ _ _ _ _ _ _ _ ?_
      refine coreRead_keeps _ _ _ _ _ _ ?_
      with_reducible assumption

theorem performAll_keeps (s0 : State) (x0) (x1) (h : Keeps s0 x1) : Keeps s0 (performAll x0 x1) := by
  induction x0 generalizing x1 with
  | nil => exact h
  | cons q l ih => exact ih _ (performDevice_keeps _ _ _ (Keeps.upd h rfl))

theorem execDeviceMemoryRequest_keeps (s0 : State) (x0) (x1) (h : Keeps s0 x1) : ∃ t, execDeviceMemoryRequest x0 x1 = .next t ∧ Keeps s0 t := by
  unfold execDeviceMemoryRequest
  refine ⟨_, rfl, ?_⟩
  refine performAll_keeps _ _ _ ?_
  refine Keeps.upd ?_ rfl
  refine Keeps.foldl0 ?_ ?_
  · intro v70 v70_b v70_h
    refine stall_keeps _ _ _ _ _ ?_
    with_reducible assumption
  · with_reducible assumption

end Sys2Proof.Machine
end

