-- ==== Sys2Proof/Laws/Keeps05.lean ====
section
/-!
SUPPORT. What every operation keeps (`Keeps`), operation by operation: Fabric, Links.
-/
namespace Sys2Proof.Machine
open Sys2Proof

/-! ### Fabric -/

theorem captureResponse_keeps (s0 : State) (x0) (x1) (x2) (x3) (x4) (x5) (x6) (h : Keeps s0 x6) : Keeps s0 (captureResponse x0 x1 x2 x3 x4 x5 x6) := by
  unfold captureResponse
  refine Keeps.ite0 ?_ ?_
  · refine capture_keeps _ _ _ _ _ _ _ _ _ _ ?_
    with_reducible assumption
  · with_reducible assumption

theorem endDesc_keeps (s0 : State) (x0) (x1) (x2) (x3) (h : Keeps s0 x3) : Keeps s0 (endDesc x0 x1 x2 x3) := by
  unfold endDesc
  refine updDesc_keeps _ _ _ _ _ ?_
  with_reducible assumption

theorem completeTrack_keeps (s0 : State) (x0) (x1) (x2) (x3) (x4) (h : Keeps s0 x4) : Keeps s0 (completeTrack x0 x1 x2 x3 x4) := by
  unfold completeTrack
  extract_lets +onlyGivenNames sa good
  have ha : Keeps s0 sa := freeTrack_keeps _ _ _ _ h
  clear_value sa
  split
  · extract_lets +onlyGivenNames k cnt
    refine Keeps.ite0 ?_ (Keeps.ite0 ?_ (Keeps.ite0 ?_ ?_))
    · exact acknowledge_keeps _ _ _ _ _ _ _ _ (captureResponse_keeps _ _ _ _ _ _ _ _ ha)
    · exact acknowledge_keeps _ _ _ _ _ _ _ _ (captureResponse_keeps _ _ _ _ _ _ _ _ (landData_keeps _ _ _ _ _ _ _ _ ha))
    · exact captureResponse_keeps _ _ _ _ _ _ _ _ (atomicResult_keeps _ _ _ _ _ _ _ _ _ _ _ ha)
    · exact acknowledge_keeps _ _ _ _ _ _ _ _ (captureResponse_keeps _ _ _ _ _ _ _ _ ha)
  · exact pumpMirror_keeps _ _ _ (xferResponse_keeps _ _ _ _ _ _ ha)
  · exact endDesc_keeps _ _ _ _ _ (captureResponse_keeps _ _ _ _ _ _ _ _ ha)
  · exact pumpMirror_keeps _ _ _ ha
  · exact pumpMirror_keeps _ _ _ ha

theorem unqueue_keeps (s0 : State) (x0) (x1) (h : Keeps s0 x1) : Keeps s0 (unqueue x0 x1) := by
  unfold unqueue
  refine updFab_keeps _ _ _ ?_
  with_reducible assumption

theorem endTracks_keeps (s0 : State) (x0) (x1) (x2) (h : Keeps s0 x2) : Keeps s0 (endTracks x0 x1 x2) := by
  unfold endTracks
  refine Keeps.foldl0 ?_ ?_
  · intro v78_0 v78_1 v78_2
    split
    · with_reducible assumption
    · refine Keeps.ite0 ?_ ?_
      · with_reducible assumption
      · refine completeTrack_keeps _ _ _ _ _ _ ?_
        refine unqueue_keeps _ _ _ ?_
        with_reducible assumption
  · with_reducible assumption

theorem accountIngress_keeps (s0 : State) (x0) (x1) (x2) (h : Keeps s0 x1) : Keeps s0 (accountIngress x0 x1 x2) := by
  unfold accountIngress
  split
  · with_reducible assumption
  · with_reducible assumption
  · refine logUncorrectable_keeps _ _ _ _ ?_
    with_reducible assumption
  · refine updMem_keeps _ _ _ ?_ ?_
    · with_reducible assumption
    · intro v71_0
      rfl

theorem takeArrived_keeps (s0 : State) (x0) (x1) (x2) (h : Keeps s0 x2) : Keeps s0 (takeArrived x0 x1 x2) := by
  unfold takeArrived
  refine Keeps.foldl0 ?_ ?_
  · intro v72 v72_b v72_h
    refine accountIngress_keeps _ _ _ _ ?_
    with_reducible assumption
  · refine updFab_keeps _ _ _ ?_
    with_reducible assumption

theorem forwardPacket_keeps (s0 : State) (x0) (x1) (h : Keeps s0 x1) : Keeps s0 (forwardPacket x0 x1) := by
  unfold forwardPacket
  refine Keeps.ite0 ?_ ?_
  · refine faultEvent_keeps _ _ _ _ ?_
    refine fabCount_keeps _ _ _ ?_
    with_reducible assumption
  · refine Keeps.ite0 ?_ ?_
    · refine fabCount_keeps _ _ _ ?_
      refine routePacket_keeps _ _ _ _ _ _ ?_
      with_reducible assumption
    · refine routePacket_keeps _ _ _ _ _ _ ?_
      with_reducible assumption

theorem requestIn_keeps (s0 : State) (x0) (x1) (x2) (x3 : Sys2Proof.Machine.Hdr → Sys2Proof.Machine.Hdr1 → Sys2Proof.Machine.State → Sys2Proof.Machine.State) (x4) (h : Keeps s0 x4) (hx3 : ∀ y0 y1 y2, Keeps s0 y2 → Keeps s0 (x3 y0 y1 y2)) : ∃ t, requestIn x0 x1 x2 x3 x4 = .next t ∧ Keeps s0 t := by
  unfold requestIn
  refine Keeps.iteN ?_ ?_
  · refine ⟨_, rfl, ?_⟩
    refine fabCount_keeps _ _ _ ?_
    refine takeArrived_keeps _ _ _ _ ?_
    with_reducible assumption
  · refine Keeps.iteN ?_ ?_
    · refine ⟨_, rfl, ?_⟩
      refine forwardPacket_keeps _ _ _ ?_
      refine takeArrived_keeps _ _ _ _ ?_
      with_reducible assumption
    · refine Keeps.iteN ?_ ?_
      · refine ⟨_, rfl, ?_⟩
        refine fabCount_keeps _ _ _ ?_
        refine takeArrived_keeps _ _ _ _ ?_
        with_reducible assumption
      · refine Keeps.iteN ?_ ?_
        · refine ⟨_, rfl, ?_⟩
          refine respond_keeps _ _ _ _ _ _ _ ?_
          refine fabCount_keeps _ _ _ ?_
          refine fabCount_keeps _ _ _ ?_
          refine takeArrived_keeps _ _ _ _ ?_
          with_reducible assumption
        · refine Keeps.iteN ?_ ?_
          · refine ⟨_, rfl, ?_⟩
            refine Keeps.upd ?_ rfl
            refine fabCount_keeps _ _ _ ?_
            refine takeArrived_keeps _ _ _ _ ?_
            with_reducible assumption
          · refine ⟨_, rfl, ?_⟩
            refine hx3 _ _ _ ?_
            refine Keeps.ite0 ?_ ?_
            · refine State.setPolicer_keeps _ _ _ _ ?_
              refine fabCount_keeps _ _ _ ?_
              refine takeArrived_keeps _ _ _ _ ?_
              with_reducible assumption
            · refine fabCount_keeps _ _ _ ?_
              refine takeArrived_keeps _ _ _ _ ?_
              with_reducible assumption

theorem refuseIn_keeps (s0 : State) (x0) (x1) (x2) (h : Keeps s0 x2) : Keeps s0 (refuseIn x0 x1 x2) := by
  unfold refuseIn
  refine respond_keeps _ _ _ _ _ _ _ ?_
  refine fabCount_keeps _ _ _ ?_
  with_reducible assumption

theorem execPktRead_keeps (s0 : State) (x0) (x1) (x2) (h : Keeps s0 x2) : ∃ t, execPktRead x0 x1 x2 = .next t ∧ Keeps s0 t := by
  unfold execPktRead
  refine requestIn_keeps _ _ _ _ _ _ ?_ ?_
  · with_reducible assumption
  · intro v46_0 v46_1 v46_2 v46_3
    split
    · refine refuseIn_keeps _ _ _ _ ?_
      with_reducible assumption
    · refine respond_keeps _ _ _ _ _ _ _ ?_
      refine homeRead_keeps _ _ _ _ _ ?_
      with_reducible assumption

theorem captureInbound_keeps (s0 : State) (x0) (x1) (x2) (x3) (h : Keeps s0 x3) : Keeps s0 (captureInbound x0 x1 x2 x3) := by
  unfold captureInbound
  refine Keeps.ite0 ?_ ?_
  · refine capture_keeps _ _ _ _ _ _ _ _ _ _ ?_
    with_reducible assumption
  · with_reducible assumption

theorem execPktWrite_keeps (s0 : State) (x0) (x1) (x2) (h : Keeps s0 x2) : ∃ t, execPktWrite x0 x1 x2 = .next t ∧ Keeps s0 t := by
  unfold execPktWrite
  refine requestIn_keeps _ _ _ _ _ _ ?_ ?_
  · with_reducible assumption
  · intro v47_0 v47_1 v47_2 v47_3
    split
    · refine refuseIn_keeps _ _ _ _ ?_
      with_reducible assumption
    · refine respond_keeps _ _ _ _ _ _ _ ?_
      refine captureInbound_keeps _ _ _ _ _ ?_
      refine notifyWindow_keeps _ _ _ _ _ ?_ ?_
      · refine homeWrite_keeps _ _ _ _ _ _ _ _ ?_
        refine storeRace_keeps _ _ _ _ _ ?_
        with_reducible assumption
      · intro v48_0 v48_1 v48_2 v48_3 v48_4
        refine retireFor_keeps _ _ _ _ _ _ ?_
        with_reducible assumption

theorem atomicAnswer_keeps (s0 : State) (x0) (x1) (x2) (x3) (x4) (h : Keeps s0 x4) : Keeps s0 (atomicAnswer x0 x1 x2 x3 x4) := by
  unfold atomicAnswer
  refine respond_keeps _ _ _ _ _ _ _ ?_
  with_reducible assumption

theorem countCombined_keeps (s0 : State) (x0) (x1) (x2) (x3) (h : Keeps s0 x3) : Keeps s0 (countCombined x0 x1 x2 x3) := by
  unfold countCombined
  refine Keeps.ite0 ?_ ?_
  · refine fabCount_keeps _ _ _ ?_
    with_reducible assumption
  · with_reducible assumption

theorem applyAtomic_keeps (s0 : State) (x0) (x1) (x2) (x3) (x4) (x5) (h : Keeps s0 x5) : Keeps s0 (applyAtomic x0 x1 x2 x3 x4 x5) := by
  unfold applyAtomic
  refine atomicAnswer_keeps _ _ _ _ _ _ ?_
  refine updFab_keeps _ _ _ ?_
  refine Keeps.of2 ?_
  refine Keeps2.ite ?_ ?_
  · refine Keeps2.mk ?_
    refine Keeps1.mk ?_
    with_reducible assumption
  · refine Keeps2.of ?_
    refine performAtomic_keeps _ _ _ _ _ _ _ _ ?_
    refine countCombined_keeps _ _ _ _ _ ?_
    with_reducible assumption

theorem execPktAtomic_keeps (s0 : State) (x0) (x1) (x2) (h : Keeps s0 x2) : ∃ t, execPktAtomic x0 x1 x2 = .next t ∧ Keeps s0 t := by
  unfold execPktAtomic
  refine requestIn_keeps _ _ _ _ _ _ ?_ ?_
  · with_reducible assumption
  · intro v75_0 v75_1 v75_2 v75_3
    refine Keeps.ite0 ?_ ?_
    · refine respond_keeps _ _ _ _ _ _ _ ?_
      with_reducible assumption
    · split
      · refine respond_keeps _ _ _ _ _ _ _ ?_
        refine fabCount_keeps _ _ _ ?_
        with_reducible assumption
      · refine Keeps.ite0 ?_ ?_
        · refine atomicAnswer_keeps _ _ _ _ _ _ ?_
          refine updFab_keeps _ _ _ ?_
          with_reducible assumption
        · refine Keeps.ite0 ?_ ?_
          · refine fabCount_keeps _ _ _ ?_
            refine updFab_keeps _ _ _ ?_
            with_reducible assumption
          · refine Keeps.ite0 ?_ ?_
            · refine respond_keeps _ _ _ _ _ _ _ ?_
              refine updFab_keeps _ _ _ ?_
              with_reducible assumption
            · split
              · refine refuseIn_keeps _ _ _ _ ?_
                refine updFab_keeps _ _ _ ?_
                with_reducible assumption
              · refine applyAtomic_keeps _ _ _ _ _ _ _ ?_
                refine updFab_keeps _ _ _ ?_
                with_reducible assumption

theorem responseIn_keeps (s0 : State) (x0) (x1) (x2) (x3 : Sys2Proof.Machine.Track → Bool) (x4) (h : Keeps s0 x4) : ∃ t, responseIn x0 x1 x2 x3 x4 = .next t ∧ Keeps s0 t := by
  unfold responseIn
  refine Keeps.iteN ?_ ?_
  · refine ⟨_, rfl, ?_⟩
    refine fabCount_keeps _ _ _ ?_
    refine takeArrived_keeps _ _ _ _ ?_
    with_reducible assumption
  · refine Keeps.iteN ?_ ?_
    · refine ⟨_, rfl, ?_⟩
      refine forwardPacket_keeps _ _ _ ?_
      refine takeArrived_keeps _ _ _ _ ?_
      with_reducible assumption
    · refine Keeps.iteN ?_ ?_
      · refine ⟨_, rfl, ?_⟩
        refine fabCount_keeps _ _ _ ?_
        refine takeArrived_keeps _ _ _ _ ?_
        with_reducible assumption
      · split
        · refine ⟨_, rfl, ?_⟩
          refine fabCount_keeps _ _ _ ?_
          refine takeArrived_keeps _ _ _ _ ?_
          with_reducible assumption
        · refine Keeps.iteN ?_ ?_
          · refine ⟨_, rfl, ?_⟩
            refine fabCount_keeps _ _ _ ?_
            refine takeArrived_keeps _ _ _ _ ?_
            with_reducible assumption
          · refine Keeps.iteN ?_ ?_
            · refine ⟨_, rfl, ?_⟩
              refine fabCount_keeps _ _ _ ?_
              refine takeArrived_keeps _ _ _ _ ?_
              with_reducible assumption
            · refine Keeps.iteN ?_ ?_
              · refine ⟨_, rfl, ?_⟩
                with_reducible assumption
              · refine ⟨_, rfl, ?_⟩
                refine completeTrack_keeps _ _ _ _ _ _ ?_
                refine unqueue_keeps _ _ _ ?_
                refine takeArrived_keeps _ _ _ _ ?_
                with_reducible assumption

theorem execPktReadData_keeps (s0 : State) (x0) (x1) (x2) (h : Keeps s0 x2) : ∃ t, execPktReadData x0 x1 x2 = .next t ∧ Keeps s0 t := by
  unfold execPktReadData
  refine responseIn_keeps _ _ _ _ _ _ ?_
  with_reducible assumption

theorem execPktWriteAck_keeps (s0 : State) (x0) (x1) (x2) (h : Keeps s0 x2) : ∃ t, execPktWriteAck x0 x1 x2 = .next t ∧ Keeps s0 t := by
  unfold execPktWriteAck
  refine responseIn_keeps _ _ _ _ _ _ ?_
  with_reducible assumption

theorem execPktAtomicResult_keeps (s0 : State) (x0) (x1) (x2) (h : Keeps s0 x2) : ∃ t, execPktAtomicResult x0 x1 x2 = .next t ∧ Keeps s0 t := by
  unfold execPktAtomicResult
  refine responseIn_keeps _ _ _ _ _ _ ?_
  with_reducible assumption

theorem execPktNak_keeps (s0 : State) (x0) (x1) (x2) (h : Keeps s0 x2) : ∃ t, execPktNak x0 x1 x2 = .next t ∧ Keeps s0 t := by
  unfold execPktNak
  refine responseIn_keeps _ _ _ _ _ _ ?_
  with_reducible assumption

theorem execTransitForward_keeps (s0 : State) (x0) (x1) (x2) (h : Keeps s0 x2) : ∃ t, execTransitForward x0 x1 x2 = .next t ∧ Keeps s0 t := by
  unfold execTransitForward
  refine Keeps.iteN ?_ ?_
  · refine ⟨_, rfl, ?_⟩
    with_reducible assumption
  · refine ⟨_, rfl, ?_⟩
    refine forwardPacket_keeps _ _ _ ?_
    refine takeArrived_keeps _ _ _ _ ?_
    with_reducible assumption

theorem execRequestTimeout_keeps (s0 : State) (x0) (x1) (h : Keeps s0 x1) : ∃ t, execRequestTimeout x0 x1 = .next t ∧ Keeps s0 t := by
  unfold execRequestTimeout
  split
  · refine ⟨_, rfl, ?_⟩
    with_reducible assumption
  · refine Keeps.iteN ?_ ?_
    · refine ⟨_, rfl, ?_⟩
      with_reducible assumption
    · refine ⟨_, rfl, ?_⟩
      refine resend_keeps _ _ _ ?_
      refine Keeps.ite0 ?_ ?_
      · refine faultEvent_keeps _ _ _ _ ?_
        refine fabCount_keeps _ _ _ ?_
        refine updFab_keeps _ _ _ ?_
        with_reducible assumption
      · refine updFab_keeps _ _ _ ?_
        with_reducible assumption

theorem execEgressDecision_keeps (s0 : State) (x0) (x1) (h : Keeps s0 x1) : ∃ t, execEgressDecision x0 x1 = .next t ∧ Keeps s0 t := by
  unfold execEgressDecision
  refine Keeps.iteN ?_ ?_
  · refine ⟨_, rfl, ?_⟩
    with_reducible assumption
  · refine Keeps.iteN ?_ ?_
    · refine ⟨_, rfl, ?_⟩
      refine endEntries_keeps _ _ _ _ ?_
      with_reducible assumption
    · split
      · extract_lets
        split
        · refine ⟨_, rfl, ?_⟩
          refine atDecision_keeps _ _ _ ?_
          with_reducible assumption
        · refine Keeps.iteN ?_ ?_
          · refine ⟨_, rfl, ?_⟩
            refine atDecision_keeps _ _ _ ?_
            with_reducible assumption
          · refine ⟨_, rfl, ?_⟩
            refine takeEntry_keeps _ _ _ _ ?_
            refine atDecision_keeps _ _ _ ?_
            with_reducible assumption
      · extract_lets
        split
        · refine ⟨_, rfl, ?_⟩
          refine atDecision_keeps _ _ _ ?_
          with_reducible assumption
        · refine Keeps.iteN ?_ ?_
          · refine ⟨_, rfl, ?_⟩
            refine atDecision_keeps _ _ _ ?_
            with_reducible assumption
          · refine ⟨_, rfl, ?_⟩
            refine takeEntry_keeps _ _ _ _ ?_
            refine atDecision_keeps _ _ _ ?_
            with_reducible assumption

theorem execDescWrite_keeps (s0 : State) (x0) (x1) (x2) (h : Keeps s0 x2) : ∃ t, execDescWrite x0 x1 x2 = .next t ∧ Keeps s0 t := by
  unfold execDescWrite
  extract_lets
  split
  · refine ⟨_, rfl, ?_⟩
    with_reducible assumption
  · refine Keeps.iteN ?_ ?_
    · refine ⟨_, rfl, ?_⟩
      with_reducible assumption
    · refine Keeps.iteN ?_ ?_
      · refine ⟨_, rfl, ?_⟩
        refine endDesc_keeps _ _ _ _ _ ?_
        with_reducible assumption
      · refine Keeps.iteN ?_ ?_
        · split
          · refine ⟨_, rfl, ?_⟩
            refine endDesc_keeps _ _ _ _ _ ?_
            with_reducible assumption
          · rename_i q49
            refine (fun k50 => ?_) (ownWrite_keeps s0 _ _ _ _ _ ?_ _ q49)
            rotate_left
            · with_reducible assumption
            refine ⟨_, rfl, ?_⟩
            refine endDesc_keeps _ _ _ _ _ ?_
            with_reducible assumption
        · split
          · refine ⟨_, rfl, ?_⟩
            with_reducible assumption
          · rename_i q51
            refine (fun k52 => ?_) (sendRequestVia_keeps s0 _ _ _ _ _ _ _ _ _ _ _ _ _ _ ?_ _ q51)
            rotate_left
            · with_reducible assumption
            refine ⟨_, rfl, ?_⟩
            with_reducible assumption

theorem execFabWindowSet_keeps (s0 : State) (x0) (x1) (h : Keeps s0 x1) : ∃ t, execFabWindowSet x0 x1 = .next t ∧ Keeps s0 t := by
  unfold execFabWindowSet
  refine runCmd_keeps _ _ _ _ _ _ ?_ ?_
  · with_reducible assumption
  · intro v78_0 v78_1
    refine Keeps.of2 ?_
    refine Keeps2.ite ?_ ?_
    · refine Keeps2.of ?_
      refine refuse_keeps _ _ _ ?_
      with_reducible assumption
    · refine Keeps2.ite ?_ ?_
      · refine Keeps2.of ?_
        refine refuse_keeps _ _ _ ?_
        with_reducible assumption
      · refine Keeps2.of ?_
        refine done_keeps _ _ ?_
        refine updFab_keeps _ _ _ ?_
        with_reducible assumption

theorem execFabWindowClear_keeps (s0 : State) (x0) (x1) (h : Keeps s0 x1) : ∃ t, execFabWindowClear x0 x1 = .next t ∧ Keeps s0 t := by
  unfold execFabWindowClear
  refine runCmd_keeps _ _ _ _ _ _ ?_ ?_
  · with_reducible assumption
  · intro v78_0 v78_1
    refine Keeps.of2 ?_
    refine Keeps2.ite ?_ ?_
    · refine Keeps2.of ?_
      refine refuse_keeps _ _ _ ?_
      with_reducible assumption
    · refine Keeps2.ite ?_ ?_
      · refine Keeps2.of ?_
        refine refuse_keeps _ _ _ ?_
        with_reducible assumption
      · refine Keeps2.of ?_
        refine done_keeps _ _ ?_
        refine updFab_keeps _ _ _ ?_
        with_reducible assumption

theorem execFabInwinSet_keeps (s0 : State) (x0) (x1) (h : Keeps s0 x1) : ∃ t, execFabInwinSet x0 x1 = .next t ∧ Keeps s0 t := by
  unfold execFabInwinSet
  refine runCmd_keeps _ _ _ _ _ _ ?_ ?_
  · with_reducible assumption
  · intro v78_0 v78_1
    refine Keeps.of2 ?_
    refine Keeps2.ite ?_ ?_
    · refine Keeps2.of ?_
      refine refuse_keeps _ _ _ ?_
      with_reducible assumption
    · refine Keeps2.of ?_
      refine done_keeps _ _ ?_
      refine updFab_keeps _ _ _ ?_
      with_reducible assumption

theorem execFabRouteSet_keeps (s0 : State) (x0) (x1) (h : Keeps s0 x1) : ∃ t, execFabRouteSet x0 x1 = .next t ∧ Keeps s0 t := by
  unfold execFabRouteSet
  refine runCmd_keeps _ _ _ _ _ _ ?_ ?_
  · with_reducible assumption
  · intro v78_0 v78_1
    refine Keeps.of2 ?_
    refine Keeps2.ite ?_ ?_
    · refine Keeps2.of ?_
      refine refuse_keeps _ _ _ ?_
      with_reducible assumption
    · refine Keeps2.of ?_
      refine done_keeps _ _ ?_
      refine updFab_keeps _ _ _ ?_
      with_reducible assumption

theorem execFabLedgerSet_keeps (s0 : State) (x0) (x1) (h : Keeps s0 x1) : ∃ t, execFabLedgerSet x0 x1 = .next t ∧ Keeps s0 t := by
  unfold execFabLedgerSet
  refine runCmd_keeps _ _ _ _ _ _ ?_ ?_
  · with_reducible assumption
  · intro v78_0 v78_1
    refine Keeps.of2 ?_
    refine Keeps2.ite ?_ ?_
    · refine Keeps2.of ?_
      refine refuse_keeps _ _ _ ?_
      with_reducible assumption
    · refine Keeps2.ite ?_ ?_
      · refine Keeps2.of ?_
        refine refuse_keeps _ _ _ ?_
        with_reducible assumption
      · refine Keeps2.ite ?_ ?_
        · refine Keeps2.of ?_
          refine refuse_keeps _ _ _ ?_
          with_reducible assumption
        · refine Keeps2.of ?_
          refine done_keeps _ _ ?_
          refine updFab_keeps _ _ _ ?_
          refine ownFrames_keeps _ _ _ _ _ ?_
          refine ownFrames_keeps _ _ _ _ _ ?_
          with_reducible assumption

theorem execFabIdSet_keeps (s0 : State) (x0) (x1) (h : Keeps s0 x1) : ∃ t, execFabIdSet x0 x1 = .next t ∧ Keeps s0 t := by
  unfold execFabIdSet
  refine runCmd_keeps _ _ _ _ _ _ ?_ ?_
  · with_reducible assumption
  · intro v78_0 v78_1
    refine Keeps.of2 ?_
    refine Keeps2.ite ?_ ?_
    · refine Keeps2.of ?_
      refine refuse_keeps _ _ _ ?_
      with_reducible assumption
    · refine Keeps2.ite ?_ ?_
      · refine Keeps2.of ?_
        refine refuse_keeps _ _ _ ?_
        with_reducible assumption
      · refine Keeps2.of ?_
        refine done_keeps _ _ ?_
        refine updFab_keeps _ _ _ ?_
        with_reducible assumption

theorem execFabVcDefault_keeps (s0 : State) (x0) (x1) (h : Keeps s0 x1) : ∃ t, execFabVcDefault x0 x1 = .next t ∧ Keeps s0 t := by
  unfold execFabVcDefault
  refine runCmd_keeps _ _ _ _ _ _ ?_ ?_
  · with_reducible assumption
  · intro v78_0 v78_1
    refine done_keeps _ _ ?_
    refine updFab_keeps _ _ _ ?_
    with_reducible assumption

theorem execFabConfig_keeps (s0 : State) (x0) (x1) (h : Keeps s0 x1) : ∃ t, execFabConfig x0 x1 = .next t ∧ Keeps s0 t := by
  unfold execFabConfig
  refine runCmd_keeps _ _ _ _ _ _ ?_ ?_
  · with_reducible assumption
  · intro v78_0 v78_1
    refine Keeps.of2 ?_
    refine Keeps2.ite ?_ ?_
    · refine Keeps2.of ?_
      refine refuse_keeps _ _ _ ?_
      with_reducible assumption
    · refine Keeps2.of ?_
      refine done_keeps _ _ ?_
      refine updFab_keeps _ _ _ ?_
      with_reducible assumption

theorem execFabQuery_keeps (s0 : State) (x0) (x1) (h : Keeps s0 x1) : ∃ t, execFabQuery x0 x1 = .next t ∧ Keeps s0 t := by
  unfold execFabQuery
  refine runCmd_keeps _ _ _ _ _ _ ?_ ?_
  · with_reducible assumption
  · intro v78_0 v78_1
    refine writeOut_keeps _ _ _ _ _ ?_
    with_reducible assumption

/-! ### Links -/

theorem updPort_keeps (s0 : State) (x0) (x1) (x2) (h : Keeps s0 x2) : Keeps s0 (updPort x0 x1 x2) := by
  unfold updPort
  refine updFab_keeps _ _ _ ?_
  with_reducible assumption

theorem updLane_keeps (s0 : State) (x0) (x1) (x2) (x3) (h : Keeps s0 x3) : Keeps s0 (updLane x0 x1 x2 x3) := by
  unfold updLane
  refine updPort_keeps _ _ _ _ ?_
  with_reducible assumption

theorem laneCount_keeps (s0 : State) (x0) (x1) (x2) (x3) (x4) (h : Keeps s0 x4) : Keeps s0 (laneCount x0 x1 x2 x3 x4) := by
  unfold laneCount
  refine updFab_keeps _ _ _ ?_
  with_reducible assumption

theorem sendCodeword_keeps (s0 : State) (x0) (x1) (x2) (x3) (h : Keeps s0 x3) : Keeps s0 (sendCodeword x0 x1 x2 x3) := by
  unfold sendCodeword
  refine Keeps.foldl0 ?_ ?_
  · intro v76 v76_b v76_h
    refine emit_keeps _ _ _ ?_
    with_reducible assumption
  · refine updLane_keeps _ _ _ _ _ ?_
    with_reducible assumption

theorem sendSlate_keeps (s0 : State) (x0) (x1) (x2) (x3) (x4) (x5) (x6) (x7) (h : Keeps s0 x7) : Keeps s0 (sendSlate x0 x1 x2 x3 x4 x5 x6 x7) := by
  unfold sendSlate
  refine laneCount_keeps _ _ _ _ _ _ ?_
  refine sendCodeword_keeps _ _ _ _ _ ?_
  refine emit_keeps _ _ _ ?_
  with_reducible assumption

theorem sendIdle_keeps (s0 : State) (x0) (x1) (x2) (x3) (h : Keeps s0 x3) : Keeps s0 (sendIdle x0 x1 x2 x3) := by
  unfold sendIdle
  refine Keeps.ite0 ?_ ?_
  · refine laneCount_keeps _ _ _ _ _ _ ?_
    refine sendSlate_keeps _ _ _ _ _ _ _ _ _ ?_
    with_reducible assumption
  · refine sendSlate_keeps _ _ _ _ _ _ _ _ _ ?_
    with_reducible assumption

theorem pumpLane_keeps (s0 : State) (x0) (x1) (x2) (x3) (h : Keeps s0 x3) : Keeps s0 (pumpLane x0 x1 x2 x3) := by
  induction x2 generalizing x3 with
  | zero => exact h
  | succ k ih =>
    unfold pumpLane
    extract_lets +onlyGivenNames x
    refine Keeps.ite0 h (Keeps.ite0 (sendIdle_keeps _ _ _ _ _ h) ?_)
    extract_lets w sop d s1
    exact ih _ (updLane_keeps _ _ _ _ _ (sendSlate_keeps _ _ _ _ _ _ _ _ _ h))

theorem sendPacket_keeps (s0 : State) (x0) (x1) (x2) (x3) (h : Keeps s0 x3) : Keeps s0 (sendPacket x0 x1 x2 x3) := by
  unfold sendPacket
  refine pumpLane_keeps _ _ _ _ _ ?_
  refine updLane_keeps _ _ _ _ _ ?_
  with_reducible assumption

theorem retrainShort_keeps (s0 : State) (x0) (x1) (h : Keeps s0 x1) : Keeps s0 (retrainShort x0 x1) := by
  unfold retrainShort
  refine Keeps.ite0 ?_ ?_
  · refine faultEvent_keeps _ _ _ _ ?_
    with_reducible assumption
  · with_reducible assumption

theorem failPort_keeps (s0 : State) (x0) (x1) (x2) (h : Keeps s0 x2) : Keeps s0 (failPort x0 x1 x2) := by
  unfold failPort
  extract_lets
  split
  · refine completeSlot_keeps _ _ _ _ _ _ ?_
    refine Keeps.ite0 ?_ ?_
    · refine retrainShort_keeps _ _ _ ?_
      refine updPort_keeps _ _ _ _ ?_
      with_reducible assumption
    · refine updPort_keeps _ _ _ _ ?_
      with_reducible assumption
  · refine Keeps.ite0 ?_ ?_
    · refine retrainShort_keeps _ _ _ ?_
      refine updPort_keeps _ _ _ _ ?_
      with_reducible assumption
    · refine updPort_keeps _ _ _ _ ?_
      with_reducible assumption

theorem sendLost_keeps (s0 : State) (x0) (x1) (h : Keeps s0 x1) : Keeps s0 (sendLost x0 x1) := by
  unfold sendLost
  split
  · refine resend_keeps _ _ _ ?_
    with_reducible assumption
  · refine Keeps.ite0 ?_ ?_
    · refine routePacket_keeps _ _ _ _ _ _ ?_
      with_reducible assumption
    · with_reducible assumption

theorem loseLane_keeps (s0 : State) (x0) (x1) (x2) (h : Keeps s0 x2) : Keeps s0 (loseLane x0 x1 x2) := by
  unfold loseLane
  refine Keeps.foldl0 ?_ ?_
  · intro v78_0 v78_1 v78_2
    refine sendLost_keeps _ _ _ ?_
    with_reducible assumption
  · refine updLane_keeps _ _ _ _ _ ?_
    with_reducible assumption

theorem failLane_keeps (s0 : State) (x0) (x1) (x2) (x3) (h : Keeps s0 x3) : Keeps s0 (failLane x0 x1 x2 x3) := by
  unfold failLane
  refine Keeps.ite0 ?_ ?_
  · refine failPort_keeps _ _ _ _ ?_
    refine loseLane_keeps _ _ _ _ ?_
    refine updPort_keeps _ _ _ _ ?_
    refine faultEvent_keeps _ _ _ _ ?_
    refine dryEvent_keeps _ _ _ ?_
    refine healthCount_keeps _ _ _ _ ?_
    refine laneCount_keeps _ _ _ _ _ _ ?_
    refine updLane_keeps _ _ _ _ _ ?_
    with_reducible assumption
  · refine loseLane_keeps _ _ _ _ ?_
    refine updPort_keeps _ _ _ _ ?_
    refine faultEvent_keeps _ _ _ _ ?_
    refine dryEvent_keeps _ _ _ ?_
    refine healthCount_keeps _ _ _ _ ?_
    refine laneCount_keeps _ _ _ _ _ _ ?_
    refine updLane_keeps _ _ _ _ _ ?_
    with_reducible assumption

theorem degradeLane_keeps (s0 : State) (x0) (x1) (x2) (h : Keeps s0 x2) : Keeps s0 (degradeLane x0 x1 x2) := by
  unfold degradeLane
  refine faultEvent_keeps _ _ _ _ ?_
  refine laneCount_keeps _ _ _ _ _ _ ?_
  refine updPort_keeps _ _ _ _ ?_
  with_reducible assumption

theorem replayLane_keeps (s0 : State) (x0) (x1) (x2) (h : Keeps s0 x2) : Keeps s0 (replayLane x0 x1 x2) := by
  unfold replayLane
  refine Keeps.ite0 ?_ ?_
  · with_reducible assumption
  · refine Keeps.ite0 ?_ ?_
    · refine failLane_keeps _ _ _ _ _ ?_
      refine Keeps.ite0 ?_ ?_
      · refine degradeLane_keeps _ _ _ _ ?_
        refine updLane_keeps _ _ _ _ _ ?_
        refine updFab_keeps _ _ _ ?_
        refine healthCount_keeps _ _ _ _ ?_
        refine laneCount_keeps _ _ _ _ _ _ ?_
        refine Keeps.foldl0 ?_ ?_
        · intro v69_0 v69_1 v69_2
          refine sendSlate_keeps _ _ _ _ _ _ _ _ _ ?_
          with_reducible assumption
        · with_reducible assumption
      · refine updLane_keeps _ _ _ _ _ ?_
        refine updFab_keeps _ _ _ ?_
        refine healthCount_keeps _ _ _ _ ?_
        refine laneCount_keeps _ _ _ _ _ _ ?_
        refine Keeps.foldl0 ?_ ?_
        · intro v70_0 v70_1 v70_2
          refine sendSlate_keeps _ _ _ _ _ _ _ _ _ ?_
          with_reducible assumption
        · with_reducible assumption
    · refine Keeps.ite0 ?_ ?_
      · refine degradeLane_keeps _ _ _ _ ?_
        refine updLane_keeps _ _ _ _ _ ?_
        refine updFab_keeps _ _ _ ?_
        refine healthCount_keeps _ _ _ _ ?_
        refine laneCount_keeps _ _ _ _ _ _ ?_
        refine Keeps.foldl0 ?_ ?_
        · intro v70_0 v70_1 v70_2
          refine sendSlate_keeps _ _ _ _ _ _ _ _ _ ?_
          with_reducible assumption
        · with_reducible assumption
      · refine updLane_keeps _ _ _ _ _ ?_
        refine updFab_keeps _ _ _ ?_
        refine healthCount_keeps _ _ _ _ ?_
        refine laneCount_keeps _ _ _ _ _ _ ?_
        refine Keeps.foldl0 ?_ ?_
        · intro v71_0 v71_1 v71_2
          refine sendSlate_keeps _ _ _ _ _ _ _ _ _ ?_
          with_reducible assumption
        · with_reducible assumption

theorem execReplayTimeout_keeps (s0 : State) (x0) (x1) (x2) (h : Keeps s0 x2) : ∃ t, execReplayTimeout x0 x1 x2 = .next t ∧ Keeps s0 t := by
  unfold execReplayTimeout
  refine Keeps.iteN ?_ ?_
  · refine ⟨_, rfl, ?_⟩
    with_reducible assumption
  · refine ⟨_, rfl, ?_⟩
    refine replayLane_keeps _ _ _ _ ?_
    refine laneCount_keeps _ _ _ _ _ _ ?_
    with_reducible assumption

theorem execLaneSyncLoss_keeps (s0 : State) (x0) (x1) (x2) (x3) (h : Keeps s0 x3) : ∃ t, execLaneSyncLoss x0 x1 x2 x3 = .next t ∧ Keeps s0 t := by
  unfold execLaneSyncLoss
  refine Keeps.iteN ?_ ?_
  · refine ⟨_, rfl, ?_⟩
    refine failLane_keeps _ _ _ _ _ ?_
    refine laneCount_keeps _ _ _ _ _ _ ?_
    with_reducible assumption
  · refine Keeps.iteN ?_ ?_
    · refine Keeps.iteN ?_ ?_
      · refine ⟨_, rfl, ?_⟩
        refine updLane_keeps _ _ _ _ _ ?_
        refine laneCount_keeps _ _ _ _ _ _ ?_
        refine Keeps.ite0 ?_ ?_
        · refine laneCount_keeps _ _ _ _ _ _ ?_
          with_reducible assumption
        · with_reducible assumption
      · refine ⟨_, rfl, ?_⟩
        refine failPort_keeps _ _ _ _ ?_
        refine updLane_keeps _ _ _ _ _ ?_
        refine laneCount_keeps _ _ _ _ _ _ ?_
        refine Keeps.ite0 ?_ ?_
        · refine laneCount_keeps _ _ _ _ _ _ ?_
          with_reducible assumption
        · with_reducible assumption
    · refine ⟨_, rfl, ?_⟩
      with_reducible assumption

theorem deliver_keeps (s0 : State) (x0) (x1) (x2) (x3) (x4) (x5) (h : Keeps s0 x5) : Keeps s0 (deliver x0 x1 x2 x3 x4 x5) := by
  unfold deliver
  refine updPort_keeps _ _ _ _ ?_
  refine updLane_keeps _ _ _ _ _ ?_
  with_reducible assumption

theorem acceptAck_keeps (s0 : State) (x0) (x1) (x2) (x3) (h : Keeps s0 x3) : Keeps s0 (acceptAck x0 x1 x2 x3) := by
  unfold acceptAck
  (dsimp only; split)
  · with_reducible assumption
  · refine pumpLane_keeps _ _ _ _ _ ?_
    refine updLane_keeps _ _ _ _ _ ?_
    with_reducible assumption

theorem startTraining_keeps (s0 : State) (x0) (x1) (x2) (x3) (x4) (x5) (h : Keeps s0 x5) : Keeps s0 (startTraining x0 x1 x2 x3 x4 x5) := by
  unfold startTraining
  refine emit_keeps _ _ _ ?_
  refine updPort_keeps _ _ _ _ ?_
  refine Keeps.foldl0 ?_ ?_
  · intro v77 v77_b v77_h
    refine Keeps.ite0 ?_ ?_
    · refine emit_keeps _ _ _ ?_
      with_reducible assumption
    · with_reducible assumption
  · refine Keeps.foldl0 ?_ ?_
    · intro v78 v78_b v78_h
      refine loseLane_keeps _ _ _ _ ?_
      refine updLane_keeps _ _ _ _ _ ?_
      with_reducible assumption
    · with_reducible assumption

theorem discardSlate_keeps (s0 : State) (x0) (x1) (x2) (h : Keeps s0 x2) : Keeps s0 (discardSlate x0 x1 x2) := by
  unfold discardSlate
  refine Keeps.ite0 ?_ ?_
  · with_reducible assumption
  · refine sendIdle_keeps _ _ _ _ _ ?_
    refine updLane_keeps _ _ _ _ _ ?_
    with_reducible assumption

theorem execSlateRx_keeps (s0 : State) (x0) (x1) (x2) (x3) (x4) (x5) (h : Keeps s0 x5) : ∃ t, execSlateRx x0 x1 x2 x3 x4 x5 = .next t ∧ Keeps s0 t := by
  unfold execSlateRx
  refine Keeps.iteN ?_ ?_
  · refine ⟨_, rfl, ?_⟩
    with_reducible assumption
  · split
    · refine ⟨_, rfl, ?_⟩
      refine discardSlate_keeps _ _ _ _ ?_
      refine laneCount_keeps _ _ _ _ _ _ ?_
      refine laneCount_keeps _ _ _ _ _ _ ?_
      with_reducible assumption
    · refine Keeps.iteN ?_ ?_
      · refine ⟨_, rfl, ?_⟩
        refine discardSlate_keeps _ _ _ _ ?_
        refine laneCount_keeps _ _ _ _ _ _ ?_
        refine laneCount_keeps _ _ _ _ _ _ ?_
        refine laneCount_keeps _ _ _ _ _ _ ?_
        with_reducible assumption
      · refine Keeps.iteN ?_ ?_
        · refine ⟨_, rfl, ?_⟩
          refine startTraining_keeps _ _ _ _ _ _ _ ?_
          refine laneCount_keeps _ _ _ _ _ _ ?_
          refine Keeps.ite0 ?_ ?_
          · refine replayLane_keeps _ _ _ _ ?_
            refine acceptAck_keeps _ _ _ _ _ ?_
            refine laneCount_keeps _ _ _ _ _ _ ?_
            refine laneCount_keeps _ _ _ _ _ _ ?_
            with_reducible assumption
          · refine acceptAck_keeps _ _ _ _ _ ?_
            refine laneCount_keeps _ _ _ _ _ _ ?_
            refine laneCount_keeps _ _ _ _ _ _ ?_
            with_reducible assumption
        · refine Keeps.iteN ?_ ?_
          · refine Keeps.iteN ?_ ?_
            · refine ⟨_, rfl, ?_⟩
              refine sendIdle_keeps _ _ _ _ _ ?_
              refine deliver_keeps _ _ _ _ _ _ _ ?_
              refine Keeps.ite0 ?_ ?_
              · refine replayLane_keeps _ _ _ _ ?_
                refine acceptAck_keeps _ _ _ _ _ ?_
                refine laneCount_keeps _ _ _ _ _ _ ?_
                refine laneCount_keeps _ _ _ _ _ _ ?_
                with_reducible assumption
              · refine acceptAck_keeps _ _ _ _ _ ?_
                refine laneCount_keeps _ _ _ _ _ _ ?_
                refine laneCount_keeps _ _ _ _ _ _ ?_
                with_reducible assumption
            · refine ⟨_, rfl, ?_⟩
              refine sendIdle_keeps _ _ _ _ _ ?_
              refine Keeps.ite0 ?_ ?_
              · refine replayLane_keeps _ _ _ _ ?_
                refine acceptAck_keeps _ _ _ _ _ ?_
                refine laneCount_keeps _ _ _ _ _ _ ?_
                refine laneCount_keeps _ _ _ _ _ _ ?_
                with_reducible assumption
              · refine acceptAck_keeps _ _ _ _ _ ?_
                refine laneCount_keeps _ _ _ _ _ _ ?_
                refine laneCount_keeps _ _ _ _ _ _ ?_
                with_reducible assumption
          · refine ⟨_, rfl, ?_⟩
            refine Keeps.ite0 ?_ ?_
            · refine replayLane_keeps _ _ _ _ ?_
              refine acceptAck_keeps _ _ _ _ _ ?_
              refine laneCount_keeps _ _ _ _ _ _ ?_
              refine laneCount_keeps _ _ _ _ _ _ ?_
              with_reducible assumption
            · refine acceptAck_keeps _ _ _ _ _ ?_
              refine laneCount_keeps _ _ _ _ _ _ ?_
              refine laneCount_keeps _ _ _ _ _ _ ?_
              with_reducible assumption

theorem sendHead_keeps (s0 : State) (x0) (x1) (x2) (x3) (h : Keeps s0 x3) : Keeps s0 (sendHead x0 x1 x2 x3) := by
  unfold sendHead
  split
  · with_reducible assumption
  · refine sendPacket_keeps _ _ _ _ _ ?_
    refine Keeps.ite0 ?_ ?_
    · refine updLane_keeps _ _ _ _ _ ?_
      refine updFab_keeps _ _ _ ?_
      with_reducible assumption
    · refine updFab_keeps _ _ _ ?_
      with_reducible assumption

theorem setDeficit_keeps (s0 : State) (x0) (x1) (x2) (x3) (h : Keeps s0 x3) : Keeps s0 (setDeficit x0 x1 x2 x3) := by
  unfold setDeficit
  refine updFab_keeps _ _ _ ?_
  with_reducible assumption

theorem exportPiece_keeps (s0 : State) (x0) (x1) (x2) (x3) (h : Keeps s0 x3) : ∀ t, exportPiece x0 x1 x2 x3 = some t → Keeps s0 t := by
  unfold exportPiece
  exact deviceWrite_keeps _ _ _ _ _ _ _ _ h

theorem exportPieces_keeps (s0 : State) (x0) (x1) (x2) (x3) (h : Keeps s0 x3) : ∀ t, exportPieces x0 x1 x2 x3 = some t → Keeps s0 (t) := by
  induction x1 generalizing x0 x2 x3 with
  | zero => intro t ht; cases ht; exact h
  | succ k ih =>
    unfold exportPieces
    refine Keeps.iteO (P := fun t => Keeps s0 t) (fun t ht => by cases ht; exact h) ?_
    extract_lets +onlyGivenNames n
    split
    · intro t ht; cases ht
    · rename_i hq
      exact ih _ _ _ (exportPiece_keeps _ _ _ _ _ h _ hq)

theorem exportRecord_keeps (s0 : State) (x0) (h : Keeps s0 x0) : Keeps s0 (exportRecord x0) := by
  unfold exportRecord
  (dsimp only; split)
  · with_reducible assumption
  · refine Keeps.ite0 ?_ ?_
    · refine updRec_keeps _ _ _ ?_
      refine updRec_keeps _ _ _ ?_
      with_reducible assumption
    · split
      · with_reducible assumption
      · refine updRec_keeps _ _ _ ?_
        (rename_i hq75; refine exportPieces_keeps _ _ _ _ _ ?_ _ hq75)
        with_reducible assumption

theorem execPortPacketBoundary_keeps (s0 : State) (x0) (x1) (h : Keeps s0 x1) : ∃ t, execPortPacketBoundary x0 x1 = .next t ∧ Keeps s0 t := by
  unfold execPortPacketBoundary
  split
  · extract_lets
    split
    · refine ⟨_, rfl, ?_⟩
      with_reducible assumption
    · refine ⟨_, rfl, ?_⟩
      refine Keeps.foldl0 ?_ ?_
      · intro v53 v53_b v53_h
        refine Keeps.ite0 ?_ ?_
        · with_reducible assumption
        · refine setDeficit_keeps _ _ _ _ _ ?_
          with_reducible assumption
      · refine Keeps.ite0 ?_ ?_
        · refine sendHead_keeps _ _ _ _ _ ?_
          with_reducible assumption
        · split
          · split
            · refine sendHead_keeps _ _ _ _ _ ?_
              refine setDeficit_keeps _ _ _ _ _ ?_
              with_reducible assumption
            · with_reducible assumption
          · refine Keeps.ite0 ?_ ?_
            · refine Keeps.foldl0 ?_ ?_
              · intro v54 v54_b v54_h
                refine setDeficit_keeps _ _ _ _ _ ?_
                with_reducible assumption
              · with_reducible assumption
            · split
              · refine Keeps.ite0 ?_ ?_
                · refine sendHead_keeps _ _ _ _ _ ?_
                  with_reducible assumption
                · with_reducible assumption
              · with_reducible assumption
  · extract_lets
    split
    · refine ⟨_, rfl, ?_⟩
      refine exportRecord_keeps _ _ ?_
      with_reducible assumption
    · refine ⟨_, rfl, ?_⟩
      refine Keeps.foldl0 ?_ ?_
      · intro v55 v55_b v55_h
        refine Keeps.ite0 ?_ ?_
        · with_reducible assumption
        · refine setDeficit_keeps _ _ _ _ _ ?_
          with_reducible assumption
      · refine Keeps.ite0 ?_ ?_
        · refine sendHead_keeps _ _ _ _ _ ?_
          refine exportRecord_keeps _ _ ?_
          with_reducible assumption
        · split
          · split
            · refine sendHead_keeps _ _ _ _ _ ?_
              refine setDeficit_keeps _ _ _ _ _ ?_
              refine exportRecord_keeps _ _ ?_
              with_reducible assumption
            · refine exportRecord_keeps _ _ ?_
              with_reducible assumption
          · refine Keeps.ite0 ?_ ?_
            · refine Keeps.foldl0 ?_ ?_
              · intro v56 v56_b v56_h
                refine setDeficit_keeps _ _ _ _ _ ?_
                with_reducible assumption
              · refine exportRecord_keeps _ _ ?_
                with_reducible assumption
            · split
              · refine Keeps.ite0 ?_ ?_
                · refine sendHead_keeps _ _ _ _ _ ?_
                  refine exportRecord_keeps _ _ ?_
                  with_reducible assumption
                · refine exportRecord_keeps _ _ ?_
                  with_reducible assumption
              · refine exportRecord_keeps _ _ ?_
                with_reducible assumption

theorem observe_keeps (s0 : State) (x0) (x1) (x2) (x3) (h : Keeps s0 x3) : Keeps s0 (observe x0 x1 x2 x3) := by
  unfold observe
  refine Keeps.foldl0 ?_ ?_
  · intro v78_0 v78_1 v78_2
    split
    · refine Keeps.ite0 ?_ ?_
      · refine updLane_keeps _ _ _ _ _ ?_
        with_reducible assumption
      · with_reducible assumption
    · with_reducible assumption
  · with_reducible assumption

theorem countDropped_keeps (s0 : State) (x0) (x1) (x2) (h : Keeps s0 x2) : Keeps s0 (countDropped x0 x1 x2) := by
  unfold countDropped
  refine Keeps.foldl0 ?_ ?_
  · intro v78_0 v78_1 v78_2
    refine Keeps.ite0 ?_ ?_
    · with_reducible assumption
    · refine laneCount_keeps _ _ _ _ _ _ ?_
      with_reducible assumption
  · with_reducible assumption

theorem endTrainCommand_keeps (s0 : State) (x0) (x1) (h : Keeps s0 x1) : Keeps s0 (endTrainCommand x0 x1) := by
  unfold endTrainCommand
  split
  · with_reducible assumption
  · refine completeSlot_keeps _ _ _ _ _ _ ?_
    refine updPort_keeps _ _ _ _ ?_
    with_reducible assumption

theorem portUp_keeps (s0 : State) (x0) (x1) (x2) (h : Keeps s0 x2) : Keeps s0 (portUp x0 x1 x2) := by
  unfold portUp
  refine Keeps.ite0 ?_ ?_
  · refine failPort_keeps _ _ _ _ ?_
    with_reducible assumption
  · refine endTrainCommand_keeps _ _ _ ?_
    refine Keeps.ite0 ?_ ?_
    · refine faultEvent_keeps _ _ _ _ ?_
      refine updPort_keeps _ _ _ _ ?_
      refine Keeps.foldl0 ?_ ?_
      · intro v73_0 v73_1 v73_2
        refine updLane_keeps _ _ _ _ _ ?_
        with_reducible assumption
      · with_reducible assumption
    · refine updPort_keeps _ _ _ _ ?_
      refine Keeps.foldl0 ?_ ?_
      · intro v74_0 v74_1 v74_2
        refine updLane_keeps _ _ _ _ _ ?_
        with_reducible assumption
      · with_reducible assumption

theorem execHelloRx_keeps (s0 : State) (x0) (x1) (x2) (x3) (x4) (x5) (h : Keeps s0 x5) : ∃ t, execHelloRx x0 x1 x2 x3 x4 x5 = .next t ∧ Keeps s0 t := by
  unfold execHelloRx
  refine Keeps.iteN ?_ ?_
  · refine ⟨_, rfl, ?_⟩
    with_reducible assumption
  · refine Keeps.iteN ?_ ?_
    · refine ⟨_, rfl, ?_⟩
      refine failPort_keeps _ _ _ _ ?_
      with_reducible assumption
    · refine Keeps.iteN ?_ ?_
      · refine ⟨_, rfl, ?_⟩
        refine failPort_keeps _ _ _ _ ?_
        with_reducible assumption
      · refine ⟨_, rfl, ?_⟩
        refine Keeps.ite0 ?_ ?_
        · refine emit_keeps _ _ _ ?_
          refine Keeps.foldl0 ?_ ?_
          · intro v57 v57_b v57_h
            refine updLane_keeps _ _ _ _ _ ?_
            with_reducible assumption
          · refine updPort_keeps _ _ _ _ ?_
            with_reducible assumption
        · refine Keeps.foldl0 ?_ ?_
          · intro v58 v58_b v58_h
            refine updLane_keeps _ _ _ _ _ ?_
            with_reducible assumption
          · refine updPort_keeps _ _ _ _ ?_
            with_reducible assumption

theorem delayRequests_keeps (s0 : State) (x0) (x1) (h : Keeps s0 x1) : Keeps s0 (delayRequests x0 x1) := by
  unfold delayRequests
  refine Keeps.foldl0 ?_ ?_
  · intro v79 v79_b v79_h
    refine emit_keeps _ _ _ ?_
    with_reducible assumption
  · with_reducible assumption

theorem delayResponses_keeps (s0 : State) (x0) (x1) (x2) (h : Keeps s0 x2) : Keeps s0 (delayResponses x0 x1 x2) := by
  unfold delayResponses
  refine Keeps.foldl0 ?_ ?_
  · intro v59 v59_b v59_h
    refine emit_keeps _ _ _ ?_
    with_reducible assumption
  · with_reducible assumption

theorem execTrainingPhaseEnd_keeps (s0 : State) (x0) (x1) (x2) (x3) (h : Keeps s0 x3) : ∃ t, execTrainingPhaseEnd x0 x1 x2 x3 = .next t ∧ Keeps s0 t := by
  unfold execTrainingPhaseEnd
  split
  · extract_lets
    split
    · refine Keeps.iteN ?_ ?_
      · refine ⟨_, rfl, ?_⟩
        with_reducible assumption
      · refine ⟨_, rfl, ?_⟩
        refine updPort_keeps _ _ _ _ ?_
        with_reducible assumption
    · refine ⟨_, rfl, ?_⟩
      refine updPort_keeps _ _ _ _ ?_
      refine observe_keeps _ _ _ _ _ ?_
      with_reducible assumption
    · refine Keeps.iteN ?_ ?_
      · refine ⟨_, rfl, ?_⟩
        refine endTrainCommand_keeps _ _ _ ?_
        refine updPort_keeps _ _ _ _ ?_
        refine observe_keeps _ _ _ _ _ ?_
        with_reducible assumption
      · refine ⟨_, rfl, ?_⟩
        refine updPort_keeps _ _ _ _ ?_
        refine observe_keeps _ _ _ _ _ ?_
        with_reducible assumption
    · refine Keeps.iteN ?_ ?_
      · refine ⟨_, rfl, ?_⟩
        refine failPort_keeps _ _ _ _ ?_
        refine countDropped_keeps _ _ _ _ ?_
        refine Keeps.foldl0 ?_ ?_
        · intro v60 v60_b v60_h
          refine emit_keeps _ _ _ ?_
          with_reducible assumption
        · refine observe_keeps _ _ _ _ _ ?_
          with_reducible assumption
      · refine ⟨_, rfl, ?_⟩
        refine updPort_keeps _ _ _ _ ?_
        refine delayRequests_keeps _ _ _ ?_
        refine countDropped_keeps _ _ _ _ ?_
        refine Keeps.foldl0 ?_ ?_
        · intro v61 v61_b v61_h
          refine emit_keeps _ _ _ ?_
          with_reducible assumption
        · refine observe_keeps _ _ _ _ _ ?_
          with_reducible assumption
    · refine Keeps.iteN ?_ ?_
      · refine ⟨_, rfl, ?_⟩
        refine failPort_keeps _ _ _ _ ?_
        refine countDropped_keeps _ _ _ _ ?_
        refine observe_keeps _ _ _ _ _ ?_
        with_reducible assumption
      · refine ⟨_, rfl, ?_⟩
        with_reducible assumption
    · refine ⟨_, rfl, ?_⟩
      with_reducible assumption
  · extract_lets
    split
    · refine Keeps.iteN ?_ ?_
      · refine ⟨_, rfl, ?_⟩
        with_reducible assumption
      · refine ⟨_, rfl, ?_⟩
        refine updPort_keeps _ _ _ _ ?_
        with_reducible assumption
    · refine ⟨_, rfl, ?_⟩
      refine updPort_keeps _ _ _ _ ?_
      refine observe_keeps _ _ _ _ _ ?_
      with_reducible assumption
    · refine Keeps.iteN ?_ ?_
      · refine ⟨_, rfl, ?_⟩
        refine endTrainCommand_keeps _ _ _ ?_
        refine updPort_keeps _ _ _ _ ?_
        refine observe_keeps _ _ _ _ _ ?_
        with_reducible assumption
      · refine ⟨_, rfl, ?_⟩
        refine updPort_keeps _ _ _ _ ?_
        refine observe_keeps _ _ _ _ _ ?_
        with_reducible assumption
    · refine Keeps.iteN ?_ ?_
      · refine ⟨_, rfl, ?_⟩
        refine failPort_keeps _ _ _ _ ?_
        refine countDropped_keeps _ _ _ _ ?_
        refine Keeps.foldl0 ?_ ?_
        · intro v62 v62_b v62_h
          refine emit_keeps _ _ _ ?_
          with_reducible assumption
        · refine observe_keeps _ _ _ _ _ ?_
          with_reducible assumption
      · refine ⟨_, rfl, ?_⟩
        refine updPort_keeps _ _ _ _ ?_
        refine delayRequests_keeps _ _ _ ?_
        refine countDropped_keeps _ _ _ _ ?_
        refine Keeps.foldl0 ?_ ?_
        · intro v63 v63_b v63_h
          refine emit_keeps _ _ _ ?_
          with_reducible assumption
        · refine observe_keeps _ _ _ _ _ ?_
          with_reducible assumption
    · refine Keeps.iteN ?_ ?_
      · refine ⟨_, rfl, ?_⟩
        refine failPort_keeps _ _ _ _ ?_
        refine countDropped_keeps _ _ _ _ ?_
        refine observe_keeps _ _ _ _ _ ?_
        with_reducible assumption
      · refine ⟨_, rfl, ?_⟩
        refine portUp_keeps _ _ _ _ ?_
        refine delayResponses_keeps _ _ _ _ ?_
        refine countDropped_keeps _ _ _ _ ?_
        refine observe_keeps _ _ _ _ _ ?_
        with_reducible assumption
    · refine ⟨_, rfl, ?_⟩
      with_reducible assumption

theorem execAcquireTimeout_keeps (s0 : State) (x0) (x1) (h : Keeps s0 x1) : ∃ t, execAcquireTimeout x0 x1 = .next t ∧ Keeps s0 t := by
  unfold execAcquireTimeout
  refine Keeps.iteN ?_ ?_
  · refine ⟨_, rfl, ?_⟩
    with_reducible assumption
  · refine ⟨_, rfl, ?_⟩
    refine failPort_keeps _ _ _ _ ?_
    with_reducible assumption

theorem askRetrain_keeps (s0 : State) (x0) (x1) (h : Keeps s0 x1) : Keeps s0 (askRetrain x0 x1) := by
  unfold askRetrain
  refine Keeps.foldl0 ?_ ?_
  · intro v78_0 v78_1 v78_2
    refine sendSlate_keeps _ _ _ _ _ _ _ _ _ ?_
    with_reducible assumption
  · with_reducible assumption

theorem execAbrTrain_keeps (s0 : State) (x0) (x1) (h : Keeps s0 x1) : ∃ t, execAbrTrain x0 x1 = .next t ∧ Keeps s0 t := by
  unfold execAbrTrain
  refine runCmdW_keeps _ _ _ _ _ _ ?_ ?_
  · with_reducible assumption
  · intro v78_0 v78_1
    refine Keeps.of1 ?_
    refine Keeps1.ite ?_ ?_
    · refine Keeps1.mk ?_
      with_reducible assumption
    · refine Keeps1.ite ?_ ?_
      · refine Keeps1.mk ?_
        with_reducible assumption
      · refine Keeps1.mk ?_
        refine startTraining_keeps _ _ _ _ _ _ _ ?_
        refine Keeps.ite0 ?_ ?_
        · refine askRetrain_keeps _ _ _ ?_
          with_reducible assumption
        · with_reducible assumption

theorem execAbrContinue_keeps (s0 : State) (x0) (x1) (h : Keeps s0 x1) : ∃ t, execAbrContinue x0 x1 = .next t ∧ Keeps s0 t := by
  unfold execAbrContinue
  refine runCmdW_keeps _ _ _ _ _ _ ?_ ?_
  · with_reducible assumption
  · intro v78_0 v78_1
    refine Keeps.of1 ?_
    refine Keeps1.ite ?_ ?_
    · refine Keeps1.mk ?_
      with_reducible assumption
    · refine Keeps1.mk ?_
      refine updPort_keeps _ _ _ _ ?_
      with_reducible assumption

theorem execAbrGainSet_keeps (s0 : State) (x0) (x1) (h : Keeps s0 x1) : ∃ t, execAbrGainSet x0 x1 = .next t ∧ Keeps s0 t := by
  unfold execAbrGainSet
  refine runCmd_keeps _ _ _ _ _ _ ?_ ?_
  · with_reducible assumption
  · intro v78_0 v78_1
    refine Keeps.of2 ?_
    refine Keeps2.ite ?_ ?_
    · refine Keeps2.of ?_
      refine refuse_keeps _ _ _ ?_
      with_reducible assumption
    · refine Keeps2.ite ?_ ?_
      · refine Keeps2.of ?_
        refine refuse_keeps _ _ _ ?_
        with_reducible assumption
      · refine Keeps2.of ?_
        refine done_keeps _ _ ?_
        refine updLane_keeps _ _ _ _ _ ?_
        with_reducible assumption

theorem execAbrMeasure_keeps (s0 : State) (x0) (x1) (x2) (h : Keeps s0 x2) : ∃ t, execAbrMeasure x0 x1 x2 = .next t ∧ Keeps s0 t := by
  unfold execAbrMeasure
  refine runCmd_keeps _ _ _ _ _ _ ?_ ?_
  · with_reducible assumption
  · intro v78_0 v78_1
    refine Keeps.of2 ?_
    refine Keeps2.ite ?_ ?_
    · refine Keeps2.of ?_
      refine refuse_keeps _ _ _ ?_
      with_reducible assumption
    · refine Keeps2.mk ?_
      refine Keeps1.mk ?_
      with_reducible assumption

theorem execAbrDown_keeps (s0 : State) (x0) (x1) (h : Keeps s0 x1) : ∃ t, execAbrDown x0 x1 = .next t ∧ Keeps s0 t := by
  unfold execAbrDown
  refine runCmd_keeps _ _ _ _ _ _ ?_ ?_
  · with_reducible assumption
  · intro v78_0 v78_1
    refine Keeps.of2 ?_
    refine Keeps2.ite ?_ ?_
    · refine Keeps2.of ?_
      refine refuse_keeps _ _ _ ?_
      with_reducible assumption
    · refine Keeps2.of ?_
      refine done_keeps _ _ ?_
      split
      · refine completeSlot_keeps _ _ _ _ _ _ ?_
        refine updPort_keeps _ _ _ _ ?_
        refine Keeps.foldl0 ?_ ?_
        · intro v69_0 v69_1 v69_2
          refine loseLane_keeps _ _ _ _ ?_
          refine updLane_keeps _ _ _ _ _ ?_
          with_reducible assumption
        · with_reducible assumption
      · refine updPort_keeps _ _ _ _ ?_
        refine Keeps.foldl0 ?_ ?_
        · intro v70_0 v70_1 v70_2
          refine loseLane_keeps _ _ _ _ ?_
          refine updLane_keeps _ _ _ _ _ ?_
          with_reducible assumption
        · with_reducible assumption

theorem execAbrQuery_keeps (s0 : State) (x0) (x1) (h : Keeps s0 x1) : ∃ t, execAbrQuery x0 x1 = .next t ∧ Keeps s0 t := by
  unfold execAbrQuery
  refine runCmd_keeps _ _ _ _ _ _ ?_ ?_
  · with_reducible assumption
  · intro v78_0 v78_1
    refine Keeps.of2 ?_
    refine Keeps2.ite ?_ ?_
    · refine Keeps2.of ?_
      refine refuse_keeps _ _ _ ?_
      with_reducible assumption
    · refine Keeps2.of ?_
      refine writeOut_keeps _ _ _ _ _ ?_
      with_reducible assumption

end Sys2Proof.Machine
end

