-- ==== Sys2Proof/Laws/Keeps06.lean ====
section
/-!
SUPPORT. What every operation keeps (`Keeps`), operation by operation: CollRun, Tensor, SignalEngine, Engines, SeqOps, Sequences.
-/
namespace Sys2Proof.Machine
open Sys2Proof

/-! ### CollRun -/

theorem updOp_keeps (s0 : State) (x0) (x1) (x2) (x3) (h : Keeps s0 x3) : Keeps s0 (updOp x0 x1 x2 x3) := by
  unfold updOp
  refine updGroup_keeps _ _ _ _ ?_
  with_reducible assumption

theorem updRun_keeps (s0 : State) (x0) (x1) (x2) (x3) (x4) (x5) (h : Keeps s0 x5) : Keeps s0 (updRun x0 x1 x2 x3 x4 x5) := by
  unfold updRun
  refine updOp_keeps _ _ _ _ _ ?_
  with_reducible assumption

theorem sendColl_keeps (s0 : State) (x0) (x1) (x2) (x3) (x4) (x5) (x6) (h : Keeps s0 x6) : Keeps s0 (sendColl x0 x1 x2 x3 x4 x5 x6) := by
  unfold sendColl
  refine routePacket_keeps _ _ _ _ _ _ ?_
  with_reducible assumption

theorem endCollJob_keeps (s0 : State) (x0) (x1) (x2) (x3) (h : Keeps s0 x3) : Keeps s0 (endCollJob x0 x1 x2 x3) := by
  unfold endCollJob
  split
  · refine completeSlot_keeps _ _ _ _ _ _ ?_
    with_reducible assumption
  · refine retireFlags_keeps _ _ _ _ _ _ _ _ ?_
    with_reducible assumption

theorem endHeldStart_keeps (s0 : State) (x0) (x1) (x2) (h : Keeps s0 x2) : Keeps s0 (endHeldStart x0 x1 x2) := by
  unfold endHeldStart
  split
  · with_reducible assumption
  · refine State.setPlate_keeps _ _ _ _ ?_
    refine Keeps.foldl0 ?_ ?_
    · intro v76_0 v76_1 v76_2
      refine Keeps.foldl0 ?_ ?_
      · intro v74_0 v74_1 v74_2
        refine State.setThread_keeps _ _ _ _ ?_
        with_reducible assumption
      · refine State.setCore_keeps _ _ _ _ ?_
        with_reducible assumption
    · with_reducible assumption

theorem retireOp_keeps (s0 : State) (x0) (x1) (x2) (x3) (h : Keeps s0 x3) : Keeps s0 (retireOp x0 x1 x2 x3) := by
  unfold retireOp
  split
  · with_reducible assumption
  · split
    · refine Keeps.ite0 ?_ ?_
      · refine Keeps.foldl0 ?_ ?_
        · intro v75_0 v75_1 v75_2
          refine endCollJob_keeps _ _ _ _ _ ?_
          with_reducible assumption
        · refine updGroup_keeps _ _ _ _ ?_
          with_reducible assumption
      · refine endHeldStart_keeps _ _ _ _ ?_
        refine Keeps.foldl0 ?_ ?_
        · intro v74_0 v74_1 v74_2
          refine endCollJob_keeps _ _ _ _ _ ?_
          with_reducible assumption
        · refine updGroup_keeps _ _ _ _ ?_
          with_reducible assumption
    · refine Keeps.foldl0 ?_ ?_
      · intro v76_0 v76_1 v76_2
        refine endCollJob_keeps _ _ _ _ _ ?_
        with_reducible assumption
      · refine updGroup_keeps _ _ _ _ ?_
        with_reducible assumption

theorem endOp_keeps (s0 : State) (x0) (x1) (x2) (x3) (h : Keeps s0 x3) : Keeps s0 (endOp x0 x1 x2 x3) := by
  unfold endOp
  split
  · with_reducible assumption
  · split
    · with_reducible assumption
    · refine Keeps.ite0 ?_ ?_
      · with_reducible assumption
      · refine Keeps.ite0 ?_ ?_
        · refine updOp_keeps _ _ _ _ _ ?_
          with_reducible assumption
        · refine retireOp_keeps _ _ _ _ _ ?_
          with_reducible assumption

theorem sendAborts_keeps (s0 : State) (x0) (x1) (x2) (x3) (h : Keeps s0 x3) : Keeps s0 (sendAborts x0 x1 x2 x3) := by
  unfold sendAborts
  refine Keeps.foldl0 ?_ ?_
  · intro v78_0 v78_1 v78_2
    refine collCount_keeps _ _ _ _ _ ?_
    refine sendColl_keeps _ _ _ _ _ _ _ _ ?_
    with_reducible assumption
  · with_reducible assumption

theorem recordAbort_keeps (s0 : State) (x0) (x1) (x2) (x3) (h : Keeps s0 x3) : Keeps s0 (recordAbort x0 x1 x2 x3) := by
  unfold recordAbort
  refine updGroup_keeps _ _ _ _ ?_
  with_reducible assumption

theorem openDst_keeps (s0 : State) (x0) (x1) (x2) (h : Keeps s0 x2) : Keeps s0 (openDst x0 x1 x2) := by
  unfold openDst
  refine Keeps.ite0 ?_ ?_
  · with_reducible assumption
  · refine memWrite_keeps _ _ _ _ ?_
    refine State.drawBytes_keeps _ _ _ ?_
    with_reducible assumption

theorem abortOp_keeps (s0 : State) (x0) (x1) (x2) (x3) (x4) (x5) (h : Keeps s0 x5) : Keeps s0 (abortOp x0 x1 x2 x3 x4 x5) := by
  unfold abortOp
  split
  · with_reducible assumption
  · split
    · with_reducible assumption
    · refine Keeps.ite0 ?_ ?_
      · with_reducible assumption
      · refine endOp_keeps _ _ _ _ _ ?_
        refine Keeps.foldl0 ?_ ?_
        · intro u j hu
          exact openDst_keeps _ _ _ _ hu
        refine Keeps.ite0 ?_ ?_
        · refine recordAbort_keeps _ _ _ _ _ ?_
          refine updGroup_keeps _ _ _ _ ?_
          refine dryEvent_keeps _ _ _ ?_
          refine Keeps.ite0 ?_ ?_
          · refine collCount_keeps _ _ _ _ _ ?_
            refine Keeps.ite0 ?_ ?_
            · refine sendAborts_keeps _ _ _ _ _ ?_
              with_reducible assumption
            · with_reducible assumption
          · refine Keeps.ite0 ?_ ?_
            · refine sendAborts_keeps _ _ _ _ _ ?_
              with_reducible assumption
            · with_reducible assumption
        · refine updGroup_keeps _ _ _ _ ?_
          refine dryEvent_keeps _ _ _ ?_
          refine Keeps.ite0 ?_ ?_
          · refine collCount_keeps _ _ _ _ _ ?_
            refine Keeps.ite0 ?_ ?_
            · refine sendAborts_keeps _ _ _ _ _ ?_
              with_reducible assumption
            · with_reducible assumption
          · refine Keeps.ite0 ?_ ?_
            · refine sendAborts_keeps _ _ _ _ _ ?_
              with_reducible assumption
            · with_reducible assumption

theorem abortAll_keeps (s0 : State) (x0) (x1) (x2) (x3) (x4) (h : Keeps s0 x4) : Keeps s0 (abortAll x0 x1 x2 x3 x4) := by
  unfold abortAll
  split
  · with_reducible assumption
  · refine Keeps.foldl0 ?_ ?_
    · intro v77_0 v77_1 v77_2
      refine abortOp_keeps _ _ _ _ _ _ _ ?_
      with_reducible assumption
    · with_reducible assumption

theorem readElems_keeps (s0 : State) (x0) (x1) (x2) (x3) (x4) (h : Keeps s0 x4) : Keeps s0 ((readElems x0 x1 x2 x3 x4).2) := by
  unfold readElems
  refine Keeps.of1 ?_
  refine Keeps1.mk ?_
  refine memRead_keeps _ _ _ _ _ ?_
  with_reducible assumption

theorem deviceStage_keeps (s0 : State) (x0) (x1) (x2) (x3) (x4) (h : Keeps s0 x4) : Keeps s0 ((deviceStage x0 x1 x2 x3 x4).2) := by
  unfold deviceStage
  refine Keeps.of1 ?_
  split
  · refine Keeps1.mk ?_
    with_reducible assumption
  · refine Keeps1.ite ?_ ?_
    · refine Keeps.foldl1 ?_ ?_
      · intro v75_0 v75_1 v75_2
        refine Keeps.of1 ?_
        refine Keeps1.ite ?_ ?_
        · refine Keeps1.mk ?_
          refine readElems_keeps _ _ _ _ _ _ ?_
          with_reducible assumption
        · refine Keeps1.of ?_
          with_reducible assumption
      · refine Keeps.of1 ?_
        refine Keeps1.mk ?_
        with_reducible assumption
    · refine Keeps1.ite ?_ ?_
      · split
        · refine Keeps1.mk ?_
          refine readElems_keeps _ _ _ _ _ _ ?_
          with_reducible assumption
        · refine Keeps1.mk ?_
          with_reducible assumption
      · refine Keeps1.ite ?_ ?_
        · split
          · refine Keeps1.mk ?_
            refine readElems_keeps _ _ _ _ _ _ ?_
            with_reducible assumption
          · refine Keeps1.mk ?_
            with_reducible assumption
        · refine Keeps1.mk ?_
          refine Keeps.of1 ?_
          refine Keeps.foldl1 ?_ ?_
          · intro v71_0 v71_1 v71_2
            refine Keeps.of1 ?_
            refine Keeps1.mk ?_
            refine readElems_keeps _ _ _ _ _ _ ?_
            with_reducible assumption
          · refine Keeps.of1 ?_
            refine Keeps1.mk ?_
            with_reducible assumption

theorem openCourse_keeps (s0 : State) (x0) (x1) (x2) (x3) (x4) (h : Keeps s0 x4) : Keeps s0 (openCourse x0 x1 x2 x3 x4) := by
  unfold openCourse
  refine updOp_keeps _ _ _ _ _ ?_
  refine Keeps.of1 ?_
  refine Keeps.foldl1 ?_ ?_
  · intro v76_0 v76_1 v76_2
    refine Keeps.of1 ?_
    refine Keeps1.mk ?_
    refine deviceStage_keeps _ _ _ _ _ _ ?_
    with_reducible assumption
  · refine Keeps.of1 ?_
    refine Keeps1.mk ?_
    with_reducible assumption

theorem sendCredit_keeps (s0 : State) (x0) (x1) (x2) (x3) (x4) (x5) (h : Keeps s0 x5) : Keeps s0 (sendCredit x0 x1 x2 x3 x4 x5) := by
  unfold sendCredit
  refine sendColl_keeps _ _ _ _ _ _ _ _ ?_
  with_reducible assumption

theorem writeCollElems_keeps (s0 : State) (x0) (x1) (x2) (x3) (h : Keeps s0 x3) : Keeps s0 (writeCollElems x0 x1 x2 x3) := by
  unfold writeCollElems
  refine Keeps.foldl0 ?_ ?_
  · intro v80 v80_b v80_h
    refine Keeps.ite0 ?_ ?_
    · refine memPoison_keeps _ _ _ _ ?_
      with_reducible assumption
    · with_reducible assumption
  · refine memWriteFor_keeps _ _ _ _ _ ?_
    with_reducible assumption

theorem writeRun_keeps (s0 : State) (x0) (x1) (x2) (x3) (h : Keeps s0 x3) : Keeps s0 (writeRun x0 x1 x2 x3) := by
  unfold writeRun
  refine collCount_keeps _ _ _ _ _ ?_
  refine updRun_keeps _ _ _ _ _ _ _ ?_
  refine updOp_keeps _ _ _ _ _ ?_
  refine Keeps.foldl0 ?_ ?_
  · intro v75_0 v75_1 v75_2
    refine Keeps.foldl0 ?_ ?_
    · intro v73_0 v73_1 v73_2
      refine Keeps.ite0 ?_ ?_
      · with_reducible assumption
      · refine writeCollElems_keeps _ _ _ _ _ ?_
        with_reducible assumption
    · with_reducible assumption
  · with_reducible assumption

theorem releaseBarrier_keeps (s0 : State) (x0) (x1) (x2) (x3) (h : Keeps s0 x3) : Keeps s0 (releaseBarrier x0 x1 x2 x3) := by
  unfold releaseBarrier
  split
  · split
    · with_reducible assumption
    · refine endOp_keeps _ _ _ _ _ ?_
      refine collCount_keeps _ _ _ _ _ ?_
      refine updFab_keeps _ _ _ ?_
      with_reducible assumption
  · split
    · with_reducible assumption
    · refine endOp_keeps _ _ _ _ _ ?_
      refine collCount_keeps _ _ _ _ _ ?_
      with_reducible assumption

theorem tryRelease_keeps (s0 : State) (x0) (x1) (x2) (h : Keeps s0 x2) : Keeps s0 (tryRelease x0 x1 x2) := by
  unfold tryRelease
  split
  · with_reducible assumption
  · split
    · with_reducible assumption
    · refine Keeps.ite0 ?_ ?_
      · refine releaseBarrier_keeps _ _ _ _ _ ?_
        refine Keeps.foldl0 ?_ ?_
        · intro v74_0 v74_1 v74_2
          refine sendColl_keeps _ _ _ _ _ _ _ _ ?_
          with_reducible assumption
        · with_reducible assumption
      · with_reducible assumption

theorem arrive_keeps (s0 : State) (x0) (x1) (x2) (x3) (h : Keeps s0 x3) : Keeps s0 (arrive x0 x1 x2 x3) := by
  unfold arrive
  refine Keeps.ite0 ?_ ?_
  · refine tryRelease_keeps _ _ _ _ ?_
    refine updOp_keeps _ _ _ _ _ ?_
    refine updOp_keeps _ _ _ _ _ ?_
    with_reducible assumption
  · refine sendColl_keeps _ _ _ _ _ _ _ _ ?_
    refine updOp_keeps _ _ _ _ _ ?_
    with_reducible assumption

theorem staleDrop_keeps (s0 : State) (x0) (x1) (h : Keeps s0 x1) : Keeps s0 (staleDrop x0 x1) := by
  unfold staleDrop
  refine collCount_keeps _ _ _ _ _ ?_
  with_reducible assumption

theorem takeData_keeps (s0 : State) (x0) (x1) (x2) (x3) (x4) (h : Keeps s0 x4) : Keeps s0 (takeData x0 x1 x2 x3 x4) := by
  unfold takeData
  refine Keeps.ite0 ?_ ?_
  · refine abortOp_keeps _ _ _ _ _ _ _ ?_
    with_reducible assumption
  · split
    · refine staleDrop_keeps _ _ _ ?_
      with_reducible assumption
    · split
      · extract_lets
        split
        · refine staleDrop_keeps _ _ _ ?_
          with_reducible assumption
        · extract_lets
          split
          · refine staleDrop_keeps _ _ _ ?_
            with_reducible assumption
          · split
            · with_reducible assumption
            · refine Keeps.ite0 ?_ ?_
              · refine staleDrop_keeps _ _ _ ?_
                with_reducible assumption
              · refine updOp_keeps _ _ _ _ _ ?_
                refine updRun_keeps _ _ _ _ _ _ _ ?_
                refine State.drawBytes_keeps _ _ _ ?_
                with_reducible assumption
      · extract_lets
        split
        · refine staleDrop_keeps _ _ _ ?_
          with_reducible assumption
        · extract_lets
          split
          · refine staleDrop_keeps _ _ _ ?_
            with_reducible assumption
          · split
            · with_reducible assumption
            · refine Keeps.ite0 ?_ ?_
              · refine staleDrop_keeps _ _ _ ?_
                with_reducible assumption
              · refine updOp_keeps _ _ _ _ _ ?_
                refine updRun_keeps _ _ _ _ _ _ _ ?_
                with_reducible assumption

theorem takeCredit_keeps (s0 : State) (x0) (x1) (x2) (x3) (h : Keeps s0 x3) : Keeps s0 (takeCredit x0 x1 x2 x3) := by
  unfold takeCredit
  refine updOp_keeps _ _ _ _ _ ?_
  with_reducible assumption

theorem takeArrival_keeps (s0 : State) (x0) (x1) (x2) (x3) (x4) (h : Keeps s0 x4) : Keeps s0 (takeArrival x0 x1 x2 x3 x4) := by
  unfold takeArrival
  refine Keeps.ite0 ?_ ?_
  · refine abortOp_keeps _ _ _ _ _ _ _ ?_
    with_reducible assumption
  · refine tryRelease_keeps _ _ _ _ ?_
    refine updOp_keeps _ _ _ _ _ ?_
    with_reducible assumption

theorem takePacket_keeps (s0 : State) (x0) (x1) (x2) (x3) (h : Keeps s0 x3) : Keeps s0 (takePacket x0 x1 x2 x3) := by
  unfold takePacket
  split
  · with_reducible assumption
  · split
    · refine staleDrop_keeps _ _ _ ?_
      with_reducible assumption
    · refine Keeps.ite0 ?_ ?_
      · refine staleDrop_keeps _ _ _ ?_
        with_reducible assumption
      · split
        · refine takeData_keeps _ _ _ _ _ _ ?_
          with_reducible assumption
        · refine takeCredit_keeps _ _ _ _ _ ?_
          with_reducible assumption
        · refine takeArrival_keeps _ _ _ _ _ _ ?_
          with_reducible assumption

theorem tryStart_keeps (s0 : State) (x0) (x1) (x2) (h : Keeps s0 x2) : ∀ t, tryStart x0 x1 x2 = some t → Keeps s0 (t) := by
  unfold tryStart
  extract_lets +onlyGivenNames n
  split
  · intro t ht; cases ht
  · rename_i o _
    extract_lets +onlyGivenNames early s1
    have h1 : Keeps s0 s1 := updGroup_keeps _ _ _ _ (updOp_keeps _ _ _ _ _ h)
    refine Keeps.iteO (P := fun t => Keeps s0 t) ?_ ?_
    · intro t ht
      have ht := Option.some.inj ht
      subst ht
      exact abortOp_keeps _ _ _ _ _ _ _ h1
    · intro t ht
      have ht := Option.some.inj ht
      subst ht
      exact Keeps.foldl0 (fun y b hy => takePacket_keeps _ _ _ _ _ hy) (Keeps.ite0 (arrive_keeps _ _ _ _ _ h1) h1)

theorem groupStep_keeps (s0 : State) (x0) (x1) (h : Keeps s0 x1) : ∀ t, groupStep x0 x1 = some t → Keeps s0 (t) := by
  have some_ : ∀ {a : State}, Keeps s0 a → ∀ t, some a = some t → Keeps s0 t := fun ha t ht => Option.some.inj ht ▸ ha
  have none_ : ∀ t, none = some t → Keeps s0 t := fun t ht => nomatch ht
  unfold groupStep
  split
  · exact none_
  · refine Keeps.iteO (P := fun t => Keeps s0 t) none_ ?_
    split
    · rename_i hq
      exact some_ (tryStart_keeps _ _ _ _ h _ hq)
    · extract_lets +onlyGivenNames work
      split
      · exact some_ (updRun_keeps _ _ _ _ _ _ _ (Keeps.foldl0 (fun y b hy => sendCredit_keeps _ _ _ _ _ _ _ hy) h))
      · split
        · exact some_ (writeRun_keeps _ _ _ _ _ h)
        · extract_lets +onlyGivenNames done
          clear_value done
          split
          · exact some_ (updOp_keeps _ _ _ _ _ h)
          · split
            · exact none_
            · split
              · exact none_
              · refine Keeps.iteO (P := fun t => Keeps s0 t) (some_ (openCourse_keeps _ _ _ _ _ _ h)) ?_
                refine Keeps.iteO (P := fun t => Keeps s0 t) (some_ (endOp_keeps _ _ _ _ _ (collCount_keeps _ _ _ _ _ h))) ?_
                split
                · exact none_
                · split
                  · exact none_
                  · exact Keeps.iteO (P := fun t => Keeps s0 t) (some_ (openCourse_keeps _ _ _ _ _ _ h)) none_

theorem pumpGroup_keeps (s0 : State) (x0) (x1) (x2) (h : Keeps s0 x2) : Keeps s0 (pumpGroup x0 x1 x2) := by
  induction x1 generalizing x2 with
  | zero => exact h
  | succ n ih =>
    unfold pumpGroup
    split
    · exact h
    · rename_i hq
      exact ih _ (groupStep_keeps _ _ _ h _ hq)

theorem pump_keeps (s0 : State) (x0) (x1) (h : Keeps s0 x1) : Keeps s0 (pump x0 x1) := by
  unfold pump
  refine pumpGroup_keeps _ _ _ _ ?_
  with_reducible assumption

theorem failJoin_keeps (s0 : State) (x0) (x1) (x2) (h : Keeps s0 x2) : Keeps s0 (failJoin x0 x1 x2) := by
  unfold failJoin
  split
  · with_reducible assumption
  · split
    · refine completeSlot_keeps _ _ _ _ _ _ ?_
      refine updFab_keeps _ _ _ ?_
      refine Keeps.foldl0 ?_ ?_
      · intro v74_0 v74_1 v74_2
        refine retireOp_keeps _ _ _ _ _ ?_
        with_reducible assumption
      · with_reducible assumption
    · refine updFab_keeps _ _ _ ?_
      refine Keeps.foldl0 ?_ ?_
      · intro v75_0 v75_1 v75_2
        refine retireOp_keeps _ _ _ _ _ ?_
        with_reducible assumption
      · with_reducible assumption

theorem takeJoin_keeps (s0 : State) (x0) (x1) (x2) (h : Keeps s0 x2) : Keeps s0 (takeJoin x0 x1 x2) := by
  unfold takeJoin
  split
  · with_reducible assumption
  · refine Keeps.ite0 ?_ ?_
    · refine failJoin_keeps _ _ _ _ ?_
      with_reducible assumption
    · refine Keeps.ite0 ?_ ?_
      · refine failJoin_keeps _ _ _ _ ?_
        with_reducible assumption
      · refine Keeps.ite0 ?_ ?_
        · refine pump_keeps _ _ _ ?_
          split
          · refine completeSlot_keeps _ _ _ _ _ _ ?_
            refine updGroup_keeps _ _ _ _ ?_
            with_reducible assumption
          · refine updGroup_keeps _ _ _ _ ?_
            with_reducible assumption
        · refine updGroup_keeps _ _ _ _ ?_
          with_reducible assumption

theorem beginJoin_keeps (s0 : State) (x0) (x1) (h : Keeps s0 x1) : Keeps s0 (beginJoin x0 x1) := by
  unfold beginJoin
  split
  · with_reducible assumption
  · refine Keeps.ite0 ?_ ?_
    · refine pump_keeps _ _ _ ?_
      split
      · refine completeSlot_keeps _ _ _ _ _ _ ?_
        refine updGroup_keeps _ _ _ _ ?_
        refine updFab_keeps _ _ _ ?_
        refine Keeps.foldl0 ?_ ?_
        · intro v71_0 v71_1 v71_2
          refine sendColl_keeps _ _ _ _ _ _ _ _ ?_
          with_reducible assumption
        · with_reducible assumption
      · refine updGroup_keeps _ _ _ _ ?_
        refine updFab_keeps _ _ _ ?_
        refine Keeps.foldl0 ?_ ?_
        · intro v72_0 v72_1 v72_2
          refine sendColl_keeps _ _ _ _ _ _ _ _ ?_
          with_reducible assumption
        · with_reducible assumption
    · refine Keeps.foldl0 ?_ ?_
      · intro v76_0 v76_1 v76_2
        refine Keeps.ite0 ?_ ?_
        · refine takeJoin_keeps _ _ _ _ ?_
          with_reducible assumption
        · with_reducible assumption
      · refine updFab_keeps _ _ _ ?_
        refine Keeps.foldl0 ?_ ?_
        · intro v74_0 v74_1 v74_2
          refine sendColl_keeps _ _ _ _ _ _ _ _ ?_
          with_reducible assumption
        · with_reducible assumption

theorem submitColl_keeps (s0 : State) (x0) (x1) (x2) (x3) (x4) (h : Keeps s0 x4) : Keeps s0 (submitColl x0 x1 x2 x3 x4) := by
  unfold submitColl
  extract_lets
  split
  · refine endCollJob_keeps _ _ _ _ _ ?_
    with_reducible assumption
  · split
    · extract_lets
      split
      · refine endCollJob_keeps _ _ _ _ _ ?_
        with_reducible assumption
      · refine endCollJob_keeps _ _ _ _ _ ?_
        with_reducible assumption
    · split
      · extract_lets
        split
        · refine endCollJob_keeps _ _ _ _ _ ?_
          with_reducible assumption
        · refine endCollJob_keeps _ _ _ _ _ ?_
          with_reducible assumption
      · extract_lets
        split
        · refine endCollJob_keeps _ _ _ _ _ ?_
          with_reducible assumption
        · refine Keeps.ite0 ?_ ?_
          · refine endCollJob_keeps _ _ _ _ _ ?_
            refine openDst_keeps _ _ _ _ ?_
            refine updGroup_keeps _ _ _ _ ?_
            refine updGroup_keeps _ _ _ _ ?_
            with_reducible assumption
          · refine pump_keeps _ _ _ ?_
            refine updGroup_keeps _ _ _ _ ?_
            refine updGroup_keeps _ _ _ _ ?_
            with_reducible assumption

theorem startBarrier_keeps (s0 : State) (x0) (x1) (x2) (h : Keeps s0 x2) : Keeps s0 (startBarrier x0 x1 x2) := by
  unfold startBarrier
  split
  · refine endHeldStart_keeps _ _ _ _ ?_
    with_reducible assumption
  · refine Keeps.ite0 ?_ ?_
    · refine endHeldStart_keeps _ _ _ _ ?_
      with_reducible assumption
    · refine Keeps.ite0 ?_ ?_
      · refine endHeldStart_keeps _ _ _ _ ?_
        refine updGroup_keeps _ _ _ _ ?_
        refine updGroup_keeps _ _ _ _ ?_
        with_reducible assumption
      · refine pump_keeps _ _ _ ?_
        refine updGroup_keeps _ _ _ _ ?_
        refine updGroup_keeps _ _ _ _ ?_
        with_reducible assumption

theorem groupsPeerLost_keeps (s0 : State) (x0) (x1) (h : Keeps s0 x1) : Keeps s0 (groupsPeerLost x0 x1) := by
  unfold groupsPeerLost
  refine Keeps.foldl0 ?_ ?_
  · intro v78_0 v78_1 v78_2
    split
    · with_reducible assumption
    · refine Keeps.ite0 ?_ ?_
      · with_reducible assumption
      · refine Keeps.ite0 ?_ ?_
        · refine failJoin_keeps _ _ _ _ ?_
          with_reducible assumption
        · refine updGroup_keeps _ _ _ _ ?_
          refine abortAll_keeps _ _ _ _ _ _ ?_
          with_reducible assumption
  · with_reducible assumption

theorem groupsFenced_keeps (s0 : State) (x0) (h : Keeps s0 x0) : Keeps s0 (groupsFenced x0) := by
  unfold groupsFenced
  refine Keeps.foldl0 ?_ ?_
  · intro v64 v64_b v64_h
    split
    · with_reducible assumption
    · split
      · refine completeSlot_keeps _ _ _ _ _ _ ?_
        refine updGroup_keeps _ _ _ _ ?_
        refine abortAll_keeps _ _ _ _ _ _ ?_
        with_reducible assumption
      · refine updGroup_keeps _ _ _ _ ?_
        refine abortAll_keeps _ _ _ _ _ _ ?_
        with_reducible assumption
  · with_reducible assumption

theorem groupsDestroy_keeps (s0 : State) (x0) (x1) (h : Keeps s0 x1) : Keeps s0 (groupsDestroy x0 x1) := by
  unfold groupsDestroy
  refine Keeps.foldl0 ?_ ?_
  · intro v78_0 v78_1 v78_2
    split
    · with_reducible assumption
    · refine Keeps.ite0 ?_ ?_
      · with_reducible assumption
      · refine updFab_keeps _ _ _ ?_
        refine abortAll_keeps _ _ _ _ _ _ ?_
        with_reducible assumption
  · with_reducible assumption

theorem groupsResume_keeps (s0 : State) (x0) (x1) (h : Keeps s0 x1) : Keeps s0 (groupsResume x0 x1) := by
  unfold groupsResume
  refine Keeps.foldl0 ?_ ?_
  · intro v78_0 v78_1 v78_2
    split
    · with_reducible assumption
    · refine Keeps.ite0 ?_ ?_
      · with_reducible assumption
      · refine pump_keeps _ _ _ ?_
        refine Keeps.foldl0 ?_ ?_
        · intro v73_0 v73_1 v73_2
          split
          · refine retireOp_keeps _ _ _ _ _ ?_
            with_reducible assumption
          · with_reducible assumption
        · refine updGroup_keeps _ _ _ _ ?_
          with_reducible assumption
  · with_reducible assumption

/-! ### Tensor -/

theorem endCmd_keeps (s0 : State) (x0) (x1) (x2) (x3) (x4) (x5) (h : Keeps s0 x5) : Keeps s0 (endCmd x0 x1 x2 x3 x4 x5) := by
  unfold endCmd
  refine State.setCore_keeps _ _ _ _ ?_
  with_reducible assumption

theorem writeElems_keeps (s0 : State) (x0) (x1) (x2) (x3) (x4) (h : Keeps s0 x4) : Keeps s0 (writeElems x0 x1 x2 x3 x4) := by
  unfold writeElems
  refine memWrite_keeps _ _ _ _ ?_
  with_reducible assumption

theorem overlapView_keeps (s0 : State) (x0) (x1) (h : Keeps s0 x1) : Keeps s0 (overlapView x0 x1).2 := by
  unfold overlapView
  refine Keeps.of1 ?_
  refine Keeps1.ite ?_ ?_
  · refine Keeps1.mk ?_
    with_reducible assumption
  · refine Keeps1.mk ?_
    refine State.drawBytes_keeps _ _ _ ?_
    with_reducible assumption

theorem teTile_keeps (s0 : State) (x0) (x1) (x2) (x3) (x4) (x5) (h : Keeps s0 (((x5).2).2).2) : Keeps s0 (((teTile x0 x1 x2 x3 x4 x5).2).2).2 := by
  unfold teTile
  refine Keeps.of3 ?_
  refine Keeps3.mk ?_
  refine Keeps2.mk ?_
  refine Keeps1.mk ?_
  refine Keeps.foldl0 ?_ ?_
  · intro v65 v65_b v65_h
    refine Keeps.ite0 ?_ ?_
    · refine Keeps.ite0 ?_ ?_
      · refine memPoison_keeps _ _ _ _ ?_
        refine memWrite_keeps _ _ _ _ ?_
        refine Keeps.ite0 ?_ ?_
        · refine memPoison_keeps _ _ _ _ ?_
          refine writeElems_keeps _ _ _ _ _ _ ?_
          with_reducible assumption
        · refine writeElems_keeps _ _ _ _ _ _ ?_
          with_reducible assumption
      · refine memWrite_keeps _ _ _ _ ?_
        refine Keeps.ite0 ?_ ?_
        · refine memPoison_keeps _ _ _ _ ?_
          refine writeElems_keeps _ _ _ _ _ _ ?_
          with_reducible assumption
        · refine writeElems_keeps _ _ _ _ _ _ ?_
          with_reducible assumption
    · refine Keeps.ite0 ?_ ?_
      · refine memPoison_keeps _ _ _ _ ?_
        refine writeElems_keeps _ _ _ _ _ _ ?_
        with_reducible assumption
      · refine writeElems_keeps _ _ _ _ _ _ ?_
        with_reducible assumption
  · refine overlapView_keeps _ _ _ ?_
    with_reducible assumption

theorem putMarked_keeps (s0 : State) (x0) (x1) (x2) (x3) (x4) (h : Keeps s0 (x4).2) : Keeps s0 (putMarked x0 x1 x2 x3 x4).2 := by
  unfold putMarked
  refine Keeps.of1 ?_
  refine Keeps1.ite ?_ ?_
  · refine Keeps1.of ?_
    with_reducible assumption
  · refine Keeps1.ite ?_ ?_
    · refine Keeps1.of ?_
      refine mePut_keeps _ _ _ _ _ _ ?_
      with_reducible assumption
    · refine Keeps1.mk ?_
      refine Keeps.foldl0 ?_ ?_
      · intro v83 v83_b v83_h
        refine coreWrite_keeps _ _ _ _ _ _ _ ?_
        with_reducible assumption
      · refine mePut_keeps _ _ _ _ _ _ ?_
        with_reducible assumption

theorem execMeConvert_keeps (s0 : State) (x0) (x1) (h : Keeps s0 x1) : ∃ t, execMeConvert x0 x1 = .next t ∧ Keeps s0 t := by
  unfold execMeConvert
  refine runDesc_keeps _ _ _ _ _ _ _ ?_ ?_
  · with_reducible assumption
  · intro v26_0 v26_1 v26_2 v26_3 v26_4
    extract_lets
    split
    · rename_i q27
      refine (fun k28 => ?_) (Keeps.of_eq (s := s0) (congrArg (fun p => (p).2) q27) ?_)
      rotate_left
      · refine meBytes_keeps _ _ _ _ _ ?_
        with_reducible assumption
      refine finishDesc_keeps _ _ _ _ _ ?_
      with_reducible assumption
    · rename_i q29
      refine (fun k30 => ?_) (Keeps.of_eq (s := s0) (congrArg (fun p => (p).2) q29) ?_)
      rotate_left
      · refine meBytes_keeps _ _ _ _ _ ?_
        with_reducible assumption
      refine finishDesc_keeps _ _ _ _ _ ?_
      refine putMarked_keeps _ _ _ _ _ _ ?_
      refine putMarked_keeps _ _ _ _ _ _ ?_
      with_reducible assumption

/-! ### SignalEngine -/

theorem writeOuts_keeps (s0 : State) (x0) (x1) (x2) (x3) (h : Keeps s0 x3) : Keeps s0 (writeOuts x0 x1 x2 x3) := by
  unfold writeOuts
  refine Keeps.foldl0 ?_ ?_
  · intro v66 v66_b v66_h
    refine Keeps.foldl0 ?_ ?_
    · intro v67 v67_b v67_h
      refine memPoison_keeps _ _ _ _ ?_
      with_reducible assumption
    · with_reducible assumption
  · refine Keeps.foldl0 ?_ ?_
    · intro v68 v68_b v68_h
      refine memWrite_keeps _ _ _ _ ?_
      with_reducible assumption
    · refine Keeps.foldl0 ?_ ?_
      · intro v69 v69_b v69_h
        refine memWrite_keeps _ _ _ _ ?_
        with_reducible assumption
      · with_reducible assumption

theorem endSe_keeps (s0 : State) (x0) (x1) (x2) (x3) (h : Keeps s0 x3) : Keeps s0 (endSe x0 x1 x2 x3) := by
  unfold endSe
  refine State.setCore_keeps _ _ _ _ ?_
  with_reducible assumption

theorem accountReads_keeps (s0 : State) (x0) (x1) (x2) (h : Keeps s0 x2) : Keeps s0 (accountReads x0 x1 x2) := by
  unfold accountReads
  refine Keeps.foldl0 ?_ ?_
  · intro v78_0 v78_1 v78_2
    refine memRead_keeps _ _ _ _ _ ?_
    with_reducible assumption
  · with_reducible assumption

theorem sePart_keeps (s0 : State) (x0) (x1) (x2) (x3) (x4) (x5) (h : Keeps s0 x5) : Keeps s0 (sePart x0 x1 x2 x3 x4 x5).2 := by
  unfold sePart
  refine Keeps.of1 ?_
  refine Keeps1.ite ?_ ?_
  · refine Keeps1.mk ?_
    refine accountReads_keeps _ _ _ _ ?_
    with_reducible assumption
  · refine Keeps1.mk ?_
    refine State.setCore_keeps _ _ _ _ ?_
    refine writeOuts_keeps _ _ _ _ _ ?_
    refine accountReads_keeps _ _ _ _ ?_
    with_reducible assumption

theorem runSe_keeps (s0 : State) (x0) (x1) (x2) (x3) (h : Keeps s0 x3) : Keeps s0 (runSe x0 x1 x2 x3) := by
  unfold runSe
  refine endSe_keeps _ _ _ _ _ ?_
  refine sePart_keeps _ _ _ _ _ _ _ ?_
  with_reducible assumption

theorem seCommand_keeps (s0 : State) (x0) (x1) (x2) (x3 : Nat → Sys2Proof.Machine.EngCmd → Sys2Proof.Machine.SeCmd → Sys2Proof.Machine.State → Sys2Proof.Machine.State) (x4) (h : Keeps s0 x4) (hx3 : ∀ y0 y1 y2 y3, Keeps s0 y3 → Keeps s0 (x3 y0 y1 y2 y3)) : ∃ t, seCommand x0 x1 x2 x3 x4 = .next t ∧ Keeps s0 t := by
  unfold seCommand
  extract_lets
  split
  · refine ⟨_, rfl, ?_⟩
    with_reducible assumption
  · refine Keeps.iteN ?_ ?_
    · refine ⟨_, rfl, ?_⟩
      with_reducible assumption
    · refine Keeps.iteN ?_ ?_
      · refine ⟨_, rfl, ?_⟩
        refine endSe_keeps _ _ _ _ _ ?_
        with_reducible assumption
      · refine Keeps.iteN ?_ ?_
        · refine ⟨_, rfl, ?_⟩
          with_reducible assumption
        · refine Keeps.iteN ?_ ?_
          · refine ⟨_, rfl, ?_⟩
            refine endSe_keeps _ _ _ _ _ ?_
            with_reducible assumption
          · refine ⟨_, rfl, ?_⟩
            refine hx3 _ _ _ _ ?_
            with_reducible assumption

theorem execSeCmul_keeps (s0 : State) (x0) (x1) (h : Keeps s0 x1) : ∃ t, execSeCmul x0 x1 = .next t ∧ Keeps s0 t := by
  unfold execSeCmul
  refine seCommand_keeps _ _ _ _ _ _ ?_ ?_
  · with_reducible assumption
  · intro v88_0 v88_1 v88_2 v88_3 v88_4
    refine runSe_keeps _ _ _ _ _ ?_
    with_reducible assumption

theorem execSeCadd_keeps (s0 : State) (x0) (x1) (h : Keeps s0 x1) : ∃ t, execSeCadd x0 x1 = .next t ∧ Keeps s0 t := by
  unfold execSeCadd
  refine seCommand_keeps _ _ _ _ _ _ ?_ ?_
  · with_reducible assumption
  · intro v89_0 v89_1 v89_2 v89_3 v89_4
    refine runSe_keeps _ _ _ _ _ ?_
    with_reducible assumption

theorem execSeCmac_keeps (s0 : State) (x0) (x1) (h : Keeps s0 x1) : ∃ t, execSeCmac x0 x1 = .next t ∧ Keeps s0 t := by
  unfold execSeCmac
  refine seCommand_keeps _ _ _ _ _ _ ?_ ?_
  · with_reducible assumption
  · intro v90_0 v90_1 v90_2 v90_3 v90_4
    refine runSe_keeps _ _ _ _ _ ?_
    with_reducible assumption

theorem execSePower_keeps (s0 : State) (x0) (x1) (h : Keeps s0 x1) : ∃ t, execSePower x0 x1 = .next t ∧ Keeps s0 t := by
  unfold execSePower
  refine seCommand_keeps _ _ _ _ _ _ ?_ ?_
  · with_reducible assumption
  · intro v91_0 v91_1 v91_2 v91_3 v91_4
    refine runSe_keeps _ _ _ _ _ ?_
    with_reducible assumption

theorem execSeRad2_keeps (s0 : State) (x0) (x1) (h : Keeps s0 x1) : ∃ t, execSeRad2 x0 x1 = .next t ∧ Keeps s0 t := by
  unfold execSeRad2
  refine seCommand_keeps _ _ _ _ _ _ ?_ ?_
  · with_reducible assumption
  · intro v92_0 v92_1 v92_2 v92_3 v92_4
    refine runSe_keeps _ _ _ _ _ ?_
    with_reducible assumption

theorem execSeRad4_keeps (s0 : State) (x0) (x1) (h : Keeps s0 x1) : ∃ t, execSeRad4 x0 x1 = .next t ∧ Keeps s0 t := by
  unfold execSeRad4
  refine seCommand_keeps _ _ _ _ _ _ ?_ ?_
  · with_reducible assumption
  · intro v93_0 v93_1 v93_2 v93_3 v93_4
    refine runSe_keeps _ _ _ _ _ ?_
    with_reducible assumption

theorem execSeMmsew_keeps (s0 : State) (x0) (x1) (h : Keeps s0 x1) : ∃ t, execSeMmsew x0 x1 = .next t ∧ Keeps s0 t := by
  unfold execSeMmsew
  refine seCommand_keeps _ _ _ _ _ _ ?_ ?_
  · with_reducible assumption
  · intro v94_0 v94_1 v94_2 v94_3 v94_4
    refine runSe_keeps _ _ _ _ _ ?_
    with_reducible assumption

theorem execSeDemap_keeps (s0 : State) (x0) (x1) (h : Keeps s0 x1) : ∃ t, execSeDemap x0 x1 = .next t ∧ Keeps s0 t := by
  unfold execSeDemap
  refine seCommand_keeps _ _ _ _ _ _ ?_ ?_
  · with_reducible assumption
  · intro v95_0 v95_1 v95_2 v95_3 v95_4
    refine runSe_keeps _ _ _ _ _ ?_
    with_reducible assumption

theorem execSeScan_keeps (s0 : State) (x0) (x1) (h : Keeps s0 x1) : ∃ t, execSeScan x0 x1 = .next t ∧ Keeps s0 t := by
  unfold execSeScan
  refine seCommand_keeps _ _ _ _ _ _ ?_ ?_
  · with_reducible assumption
  · intro v96_0 v96_1 v96_2 v96_3 v96_4
    refine runSe_keeps _ _ _ _ _ ?_
    with_reducible assumption

theorem execSeBxopSet_keeps (s0 : State) (x0) (x1) (h : Keeps s0 x1) : ∃ t, execSeBxopSet x0 x1 = .next t ∧ Keeps s0 t := by
  unfold execSeBxopSet
  refine Keeps.iteN ?_ ?_
  · refine ⟨_, rfl, ?_⟩
    with_reducible assumption
  · refine seCommand_keeps _ _ _ _ _ _ ?_ ?_
    · with_reducible assumption
    · intro v97_0 v97_1 v97_2 v97_3 v97_4
      refine endSe_keeps _ _ _ _ _ ?_
      refine State.setCore_keeps _ _ _ _ ?_
      with_reducible assumption

theorem execSeBxopWriteOut_keeps (s0 : State) (x0) (x1) (h : Keeps s0 x1) : ∃ t, execSeBxopWriteOut x0 x1 = .next t ∧ Keeps s0 t := by
  unfold execSeBxopWriteOut
  refine Keeps.iteN ?_ ?_
  · refine ⟨_, rfl, ?_⟩
    with_reducible assumption
  · refine seCommand_keeps _ _ _ _ _ _ ?_ ?_
    · with_reducible assumption
    · intro v98_0 v98_1 v98_2 v98_3 v98_4
      refine endSe_keeps _ _ _ _ _ ?_
      refine memWrite_keeps _ _ _ _ ?_
      with_reducible assumption

/-! ### Engines -/

theorem teRun_keeps (s0 : State) (x0) (x1) (x2) (x3) (x4) (x5) (h : Keeps s0 (((x5).2).2).2) : Keeps s0 (((teRun x0 x1 x2 x3 x4 x5).2).2).2 := by
  unfold teRun
  refine Keeps.foldl3 ?_ ?_
  · intro v99 v99_b v99_h
    refine teTile_keeps _ _ _ _ _ _ _ ?_
    with_reducible assumption
  · with_reducible assumption

theorem execTensorCommand_keeps (s0 : State) (x0) (x1) (x2) (h : Keeps s0 x2) : ∃ t, execTensorCommand x0 x1 x2 = .next t ∧ Keeps s0 t := by
  unfold execTensorCommand
  extract_lets
  split
  · refine ⟨_, rfl, ?_⟩
    with_reducible assumption
  · refine Keeps.iteN ?_ ?_
    · refine ⟨_, rfl, ?_⟩
      with_reducible assumption
    · refine Keeps.iteN ?_ ?_
      · refine ⟨_, rfl, ?_⟩
        refine endCmd_keeps _ _ _ _ _ _ _ ?_
        with_reducible assumption
      · refine Keeps.iteN ?_ ?_
        · refine ⟨_, rfl, ?_⟩
          refine endCmd_keeps _ _ _ _ _ _ _ ?_
          with_reducible assumption
        · refine ⟨_, rfl, ?_⟩
          refine endCmd_keeps _ _ _ _ _ _ _ ?_
          refine teRun_keeps _ _ _ _ _ _ _ ?_
          with_reducible assumption

theorem updCmd_keeps (s0 : State) (x0) (x1) (x2 : Sys2Proof.Machine.EngCmd → Sys2Proof.Machine.EngCmd) (x3) (h : Keeps s0 x3) : Keeps s0 (updCmd x0 x1 x2 x3) := by
  unfold updCmd
  refine State.setCore_keeps _ _ _ _ ?_
  with_reducible assumption

theorem suspendAt_keeps (s0 : State) (x0) (x1) (x2) (h : Keeps s0 x2) : Keeps s0 (suspendAt x0 x1 x2).2 := by
  unfold suspendAt
  refine Keeps.of1 ?_
  refine Keeps1.mk ?_
  refine State.draw_keeps _ _ ?_
  with_reducible assumption

theorem suspendTe_keeps (s0 : State) (x0) (x1) (x2) (x3) (h : Keeps s0 x3) : Keeps s0 (suspendTe x0 x1 x2 x3) := by
  unfold suspendTe
  refine Keeps.ite0 ?_ ?_
  · with_reducible assumption
  · refine updCmd_keeps _ _ _ _ _ ?_
    refine teRun_keeps _ _ _ _ _ _ _ ?_
    refine Keeps.of3 ?_
    refine Keeps3.mk ?_
    refine Keeps2.mk ?_
    refine Keeps1.mk ?_
    refine suspendAt_keeps _ _ _ _ ?_
    with_reducible assumption

theorem suspendSe_keeps (s0 : State) (x0) (x1) (x2) (h : Keeps s0 x2) : Keeps s0 (suspendSe x0 x1 x2) := by
  unfold suspendSe
  refine Keeps.ite0 ?_ ?_
  · with_reducible assumption
  · refine updCmd_keeps _ _ _ _ _ ?_
    refine sePart_keeps _ _ _ _ _ _ _ ?_
    refine suspendAt_keeps _ _ _ _ ?_
    with_reducible assumption

theorem suspendEngines_keeps (s0 : State) (x0) (x1) (h : Keeps s0 x1) : Keeps s0 (suspendEngines x0 x1) := by
  unfold suspendEngines
  refine Keeps.foldl0 ?_ ?_
  · intro v100 v100_b v100_h
    split
    · refine Keeps.ite0 ?_ ?_
      · refine Keeps.ite0 ?_ ?_
        · refine suspendTe_keeps _ _ _ _ _ ?_
          with_reducible assumption
        · refine suspendSe_keeps _ _ _ _ ?_
          with_reducible assumption
      · with_reducible assumption
    · with_reducible assumption
  · with_reducible assumption

/-! ### SeqOps -/

theorem updSeq_keeps (s0 : State) (x0) (x1) (h : Keeps s0 x1) : Keeps s0 (updSeq x0 x1) := by
  unfold updSeq
  refine updMem_keeps _ _ _ ?_ ?_
  · with_reducible assumption
  · intro v78_0
    rfl

theorem seqCount_keeps (s0 : State) (x0) (x1) (x2) (h : Keeps s0 x2) : Keeps s0 (seqCount x0 x1 x2) := by
  unfold seqCount
  refine updSeq_keeps _ _ _ ?_
  with_reducible assumption

theorem updQ_keeps (s0 : State) (x0) (x1) (x2) (x3) (h : Keeps s0 x3) : Keeps s0 (updQ x0 x1 x2 x3) := by
  unfold updQ
  refine updSeq_keeps _ _ _ ?_
  with_reducible assumption

theorem State.setSeq_keeps (s0 : State) (x0) (x1) (x2) (h : Keeps s0 x0) : Keeps s0 (State.setSeq x0 x1 x2) := by
  unfold State.setSeq
  refine memWrite_keeps _ _ _ _ ?_
  with_reducible assumption

theorem freeSeq_keeps (s0 : State) (x0) (x1) (h : Keeps s0 x1) : Keeps s0 (freeSeq x0 x1) := by
  unfold freeSeq
  refine updSeq_keeps _ _ _ ?_
  refine memWrite_keeps _ _ _ _ ?_
  with_reducible assumption

theorem setNodeWord_keeps (s0 : State) (x0) (x1) (x2) (x3) (x4) (h : Keeps s0 x4) : Keeps s0 (setNodeWord x0 x1 x2 x3 x4) := by
  unfold setNodeWord
  refine memWrite_keeps _ _ _ _ ?_
  with_reducible assumption

theorem grantBlock_keeps (s0 : State) (x0) (x1) (x2) (x3) (h : Keeps s0 x3) : ∀ t, grantBlock x0 x1 x2 x3 = some t → Keeps s0 (((t).2).2) := by
  unfold grantBlock
  split
  · intro t ht; cases ht
  · rename_i q hq
    extract_lets +onlyGivenNames e
    split
    · intro t ht; cases ht
    · split
      · intro t ht; cases ht
      · extract_lets +onlyGivenNames needNode node
        clear_value node
        split
        · intro t ht; cases ht
        · extract_lets +onlyGivenNames s1 s2 s3
          intro t ht
          have ht := Option.some.inj ht
          subst ht
          have h2 : Keeps s0 s2 := setNodeWord_keeps _ _ _ _ _ _ (updSeq_keeps _ _ _ h)
          refine State.setSeq_keeps _ _ _ _ ?_
          refine Keeps.ite0 ?_ h2
          have h' : ∀ f nd v, Keeps s0 (updQ x0 x1 f (setNodeWord q nd 15 v s2)) := fun f nd v =>
            updQ_keeps _ _ _ _ _ (setNodeWord_keeps _ _ _ _ _ _ h2)
          split
          · exact Keeps.ite0 (h' _ _ _) (setNodeWord_keeps _ _ _ _ _ _ (h' _ _ _))
          · exact h' _ _ _

theorem returnBlocks_keeps (s0 : State) (x0) (x1) (x2) (x3) (x4) (x5) (h : Keeps s0 x5) : Keeps s0 (returnBlocks x0 x1 x2 x3 x4 x5) := by
  unfold returnBlocks
  refine updQ_keeps _ _ _ _ _ ?_
  refine updSeq_keeps _ _ _ ?_
  with_reducible assumption

theorem fetchBlock_keeps (s0 : State) (x0) (x1) (x2) (x3) (x4) (x5) (h : Keeps s0 x5) : Keeps s0 (fetchBlock x0 x1 x2 x3 x4 x5) := by
  unfold fetchBlock
  split
  · with_reducible assumption
  · refine Keeps.foldl0 ?_ ?_
    · intro v77_0 v77_1 v77_2
      refine updQ_keeps _ _ _ _ _ ?_
      refine fetchPage_keeps _ _ _ _ _ ?_
      with_reducible assumption
    · with_reducible assumption

theorem unpinSeq_keeps (s0 : State) (x0) (x1) (x2) (x3) (h : Keeps s0 x3) : Keeps s0 (unpinSeq x0 x1 x2 x3) := by
  unfold unpinSeq
  split
  · with_reducible assumption
  · (dsimp only; split)
    · with_reducible assumption
    · refine Keeps.ite0 ?_ ?_
      · with_reducible assumption
      · refine Keeps.foldl0 ?_ ?_
        · intro v75_0 v75_1 v75_2
          refine Keeps.foldl0 ?_ ?_
          · intro v73_0 v73_1 v73_2
            refine unpinPage_keeps _ _ _ ?_
            with_reducible assumption
          · with_reducible assumption
        · with_reducible assumption

theorem dropSeq_keeps (s0 : State) (x0) (x1) (x2) (x3) (h : Keeps s0 x3) : Keeps s0 (dropSeq x0 x1 x2 x3) := by
  unfold dropSeq
  split
  · refine freeSeq_keeps _ _ _ ?_
    with_reducible assumption
  · refine updQ_keeps _ _ _ _ _ ?_
    refine freeSeq_keeps _ _ _ ?_
    split
    · refine returnBlocks_keeps _ _ _ _ _ _ _ ?_
      with_reducible assumption
    · with_reducible assumption

theorem seqCompletion_keeps (s0 : State) (x0) (x1) (x2) (x3) (x4) (x5) (x6) (x7) (x8) (x9) (x10) (h : Keeps s0 x10) : Keeps s0 (seqCompletion x0 x1 x2 x3 x4 x5 x6 x7 x8 x9 x10) := by
  unfold seqCompletion
  refine Keeps.ite0 ?_ ?_
  · refine postRecord_keeps _ _ _ _ ?_
    with_reducible assumption
  · refine seqCount_keeps _ _ _ _ ?_
    refine postRecord_keeps _ _ _ _ ?_
    with_reducible assumption

theorem settleRow_keeps (s0 : State) (x0) (x1) (x2) (x3) (x4) (x5) (h : Keeps s0 x5) : Keeps s0 ((settleRow x0 x1 x2 x3 x4 x5).2) := by
  unfold settleRow
  refine Keeps.of1 ?_
  split
  · refine Keeps1.mk ?_
    with_reducible assumption
  · refine Keeps1.ite ?_ ?_
    · refine Keeps1.mk ?_
      refine seqCompletion_keeps _ _ _ _ _ _ _ _ _ _ _ _ ?_
      refine unpinSeq_keeps _ _ _ _ _ ?_
      refine seqCount_keeps _ _ _ _ ?_
      refine State.setSeq_keeps _ _ _ _ ?_
      refine Keeps.ite0 ?_ ?_
      · refine memRead_keeps _ _ _ _ _ ?_
        refine updSeq_keeps _ _ _ ?_
        refine memRead_keeps _ _ _ _ _ ?_
        with_reducible assumption
      · refine updSeq_keeps _ _ _ ?_
        refine memRead_keeps _ _ _ _ _ ?_
        with_reducible assumption
    · refine Keeps1.mk ?_
      refine seqCompletion_keeps _ _ _ _ _ _ _ _ _ _ _ _ ?_
      refine Keeps.ite0 ?_ ?_
      · refine unpinSeq_keeps _ _ _ _ _ ?_
        refine State.setSeq_keeps _ _ _ _ ?_
        refine Keeps.ite0 ?_ ?_
        · refine memRead_keeps _ _ _ _ _ ?_
          refine updSeq_keeps _ _ _ ?_
          refine memRead_keeps _ _ _ _ _ ?_
          with_reducible assumption
        · refine updSeq_keeps _ _ _ ?_
          refine memRead_keeps _ _ _ _ _ ?_
          with_reducible assumption
      · refine State.setSeq_keeps _ _ _ _ ?_
        refine Keeps.ite0 ?_ ?_
        · refine memRead_keeps _ _ _ _ _ ?_
          refine updSeq_keeps _ _ _ ?_
          refine memRead_keeps _ _ _ _ _ ?_
          with_reducible assumption
        · refine updSeq_keeps _ _ _ ?_
          refine memRead_keeps _ _ _ _ _ ?_
          with_reducible assumption

theorem returnStep_keeps (s0 : State) (x0) (x1) (x2) (x3) (h : Keeps s0 x3) : Keeps s0 (returnStep x0 x1 x2 x3) := by
  unfold returnStep
  refine updQ_keeps _ _ _ _ _ ?_
  refine Keeps.foldl0 ?_ ?_
  · intro v101 v101_b v101_h
    refine dropSeq_keeps _ _ _ _ _ ?_
    with_reducible assumption
  · refine Keeps.foldl0 ?_ ?_
    · intro v102 v102_b v102_h
      refine returnBlocks_keeps _ _ _ _ _ _ _ ?_
      with_reducible assumption
    · with_reducible assumption

theorem growthFails_keeps (s0 : State) (x0) (x1) (x2) (x3) (x4) (h : Keeps s0 x4) : Keeps s0 (growthFails x0 x1 x2 x3 x4) := by
  unfold growthFails
  split
  · with_reducible assumption
  · refine updQ_keeps _ _ _ _ _ ?_
    refine freeSeq_keeps _ _ _ ?_
    refine seqCount_keeps _ _ _ _ ?_
    refine seqCompletion_keeps _ _ _ _ _ _ _ _ _ _ _ _ ?_
    refine unpinSeq_keeps _ _ _ _ _ ?_
    with_reducible assumption

theorem growStep_keeps (s0 : State) (x0) (x1) (x2) (x3) (h : Keeps s0 x3) : Keeps s0 ((growStep x0 x1 x2 x3).2) := by
  unfold growStep
  refine Keeps.of1 ?_
  refine Keeps.foldl1 ?_ ?_
  · intro v77_0 v77_1 v77_2
    refine Keeps.of1 ?_
    split
    · refine Keeps1.of ?_
      with_reducible assumption
    · refine Keeps1.ite ?_ ?_
      · refine Keeps1.mk ?_
        with_reducible assumption
      · split
        · refine Keeps1.mk ?_
          refine growthFails_keeps _ _ _ _ _ _ ?_
          with_reducible assumption
        · refine Keeps1.mk ?_
          split
          · refine Keeps.ite0 ?_ ?_
            · (rename_i hq69 u69_0 u69_1 u69_2; refine grantBlock_keeps _ _ _ _ _ ?_ _ hq69)
              with_reducible assumption
            · refine fetchBlock_keeps _ _ _ _ _ _ _ ?_
              (rename_i hq68 u68_0 u68_1 u68_2; refine grantBlock_keeps _ _ _ _ _ ?_ _ hq68)
              with_reducible assumption
          · (rename_i hq70 u70_0 u70_1; refine grantBlock_keeps _ _ _ _ _ ?_ _ hq70)
            with_reducible assumption
  · refine Keeps.of1 ?_
    refine Keeps1.mk ?_
    with_reducible assumption

theorem grantMany_keeps (s0 : State) (x0) (x1) (x2) (x3) (x4) (h : Keeps s0 x4) : ∀ t, grantMany x0 x1 x2 x3 x4 = some t → Keeps s0 (((t).2).2) := by
  induction x3 generalizing x4 with
  | zero => intro t ht; cases ht; exact h
  | succ k ih =>
    unfold grantMany
    split
    · intro t ht; cases ht
    · rename_i hq
      have h1 := grantBlock_keeps _ _ _ _ _ h _ hq
      split
      · intro t ht; cases ht
      · rename_i hq2
        intro t ht
        have ht := Option.some.inj ht
        subst ht
        exact (fun h => ih _ h _ hq2) h1

theorem joinStep_keeps (s0 : State) (x0) (x1) (x2) (x3) (x4) (h : Keeps s0 x4) : Keeps s0 ((joinStep x0 x1 x2 x3 x4).2) := by
  refine Keeps.of1 ?_
  induction x2 generalizing x3 x4 with
  | nil => exact h
  | cons n rest ih =>
    unfold joinStep
    split
    · exact h
    · extract_lets +onlyGivenNames e pr nNew need tokens deferred
      have hd : Keeps1 s0 deferred := seqCount_keeps _ _ _ _ h
      split
      · exact hd
      · refine Keeps1.ite hd ?_
        split
        · exact hd
        · rename_i hq
          have h1 := grantMany_keeps _ _ _ _ _ _ h _ hq
          refine ih _ _ (seqCount_keeps _ _ _ _ ?_)
          have h2 : ∀ f v, Keeps s0 (updQ x0 x1 f (State.setSeq _ n v)) := fun f v =>
            updQ_keeps _ _ _ _ _ (State.setSeq_keeps _ _ _ _ h1)
          exact Keeps.ite0 (h2 _ _) (Keeps.foldl0 (fun y b hy => fetchBlock_keeps _ _ _ _ _ _ _ hy) (h2 _ _))

theorem writeManifest_keeps (s0 : State) (x0) (x1) (x2) (h : Keeps s0 x2) : Keeps s0 (writeManifest x0 x1 x2) := by
  unfold writeManifest
  split
  · with_reducible assumption
  · refine memWrite_keeps _ _ _ _ ?_
    refine memWrite_keeps _ _ _ _ ?_
    with_reducible assumption

theorem formManifest_keeps (s0 : State) (x0) (x1) (x2) (x3) (x4) (h : Keeps s0 x4) : Keeps s0 (formManifest x0 x1 x2 x3 x4) := by
  unfold formManifest
  refine writeManifest_keeps _ _ _ _ ?_
  refine updQ_keeps _ _ _ _ _ ?_
  refine joinStep_keeps _ _ _ _ _ _ ?_
  refine growStep_keeps _ _ _ _ _ ?_
  refine returnStep_keeps _ _ _ _ _ ?_
  with_reducible assumption

theorem stepBoundary_keeps (s0 : State) (x0) (x1) (x2) (x3) (h : Keeps s0 x3) : Keeps s0 (stepBoundary x0 x1 x2 x3) := by
  unfold stepBoundary
  refine Keeps.foldl0 ?_ ?_
  · intro v78_0 v78_1 v78_2
    (dsimp only; split)
    · with_reducible assumption
    · refine formManifest_keeps _ _ _ _ _ _ ?_
      refine Keeps.of1 ?_
      refine Keeps.foldl1 ?_ ?_
      · intro v73_0 v73_1 v73_2
        refine Keeps.of1 ?_
        refine Keeps1.mk ?_
        refine settleRow_keeps _ _ _ _ _ _ _ ?_
        with_reducible assumption
      · refine Keeps.of1 ?_
        refine Keeps1.mk ?_
        with_reducible assumption
  · with_reducible assumption

theorem undoJoin_keeps (s0 : State) (x0) (x1) (x2) (x3) (x4) (h : Keeps s0 x4) : Keeps s0 (undoJoin x0 x1 x2 x3 x4) := by
  unfold undoJoin
  refine State.setSeq_keeps _ _ _ _ ?_
  split
  · refine setNodeWord_keeps _ _ _ _ _ _ ?_
    split
    · refine returnBlocks_keeps _ _ _ _ _ _ _ ?_
      refine unpinSeq_keeps _ _ _ _ _ ?_
      with_reducible assumption
    · refine unpinSeq_keeps _ _ _ _ _ ?_
      with_reducible assumption
  · split
    · refine returnBlocks_keeps _ _ _ _ _ _ _ ?_
      refine unpinSeq_keeps _ _ _ _ _ ?_
      with_reducible assumption
    · refine unpinSeq_keeps _ _ _ _ _ ?_
      with_reducible assumption

theorem undoJoins_keeps (s0 : State) (x0) (x1) (x2) (h : Keeps s0 x2) : Keeps s0 (undoJoins x0 x1 x2) := by
  unfold undoJoins
  refine Keeps.foldl0 ?_ ?_
  · intro v70 v70_b v70_h
    extract_lets
    split
    · with_reducible assumption
    · refine Keeps.ite0 ?_ ?_
      · with_reducible assumption
      · refine updQ_keeps _ _ _ _ _ ?_
        refine Keeps.foldl0 ?_ ?_
        · intro v71 v71_b v71_h
          refine undoJoin_keeps _ _ _ _ _ _ ?_
          with_reducible assumption
        · with_reducible assumption
  · with_reducible assumption

theorem firstManifest_keeps (s0 : State) (x0) (x1) (x2) (h : Keeps s0 x2) : Keeps s0 (firstManifest x0 x1 x2) := by
  unfold firstManifest
  refine Keeps.foldl0 ?_ ?_
  · intro v78_0 v78_1 v78_2
    refine formManifest_keeps _ _ _ _ _ _ ?_
    with_reducible assumption
  · with_reducible assumption

theorem settleFetches_keeps (s0 : State) (x0) (x1) (x2) (h : Keeps s0 x2) : Keeps s0 (settleFetches x0 x1 x2) := by
  unfold settleFetches
  split
  · with_reducible assumption
  · refine Keeps.ite0 ?_ ?_
    · refine updQ_keeps _ _ _ _ _ ?_
      refine Keeps.foldl0 ?_ ?_
      · intro v103 v103_b v103_h
        split
        · with_reducible assumption
        · refine Keeps.ite0 ?_ ?_
          · refine seqCount_keeps _ _ _ _ ?_
            refine undoJoin_keeps _ _ _ _ _ _ ?_
            with_reducible assumption
          · refine Keeps.ite0 ?_ ?_
            · refine growthFails_keeps _ _ _ _ _ _ ?_
              with_reducible assumption
            · refine seqCompletion_keeps _ _ _ _ _ _ _ _ _ _ _ _ ?_
              refine seqCount_keeps _ _ _ _ ?_
              refine State.setSeq_keeps _ _ _ _ ?_
              refine unpinSeq_keeps _ _ _ _ _ ?_
              with_reducible assumption
      · with_reducible assumption
    · refine writeManifest_keeps _ _ _ _ ?_
      refine updQ_keeps _ _ _ _ _ ?_
      refine Keeps.foldl0 ?_ ?_
      · intro v104 v104_b v104_h
        split
        · with_reducible assumption
        · refine Keeps.ite0 ?_ ?_
          · refine seqCount_keeps _ _ _ _ ?_
            refine undoJoin_keeps _ _ _ _ _ _ ?_
            with_reducible assumption
          · refine Keeps.ite0 ?_ ?_
            · refine growthFails_keeps _ _ _ _ _ _ ?_
              with_reducible assumption
            · refine seqCompletion_keeps _ _ _ _ _ _ _ _ _ _ _ _ ?_
              refine seqCount_keeps _ _ _ _ ?_
              refine State.setSeq_keeps _ _ _ _ ?_
              refine unpinSeq_keeps _ _ _ _ _ ?_
              with_reducible assumption
      · with_reducible assumption

/-! ### Sequences -/

theorem execSeqAllot_keeps (s0 : State) (x0) (x1) (h : Keeps s0 x1) : ∃ t, execSeqAllot x0 x1 = .next t ∧ Keeps s0 t := by
  unfold execSeqAllot
  refine runCmd_keeps _ _ _ _ _ _ ?_ ?_
  · with_reducible assumption
  · intro v78_0 v78_1
    refine Keeps.of2 ?_
    refine Keeps2.ite ?_ ?_
    · refine Keeps2.of ?_
      refine refuse_keeps _ _ _ ?_
      with_reducible assumption
    · refine Keeps2.of ?_
      refine done_keeps _ _ ?_
      refine updSeq_keeps _ _ _ ?_
      with_reducible assumption

theorem execSeqQueueConfig_keeps (s0 : State) (x0) (x1) (h : Keeps s0 x1) : ∃ t, execSeqQueueConfig x0 x1 = .next t ∧ Keeps s0 t := by
  unfold execSeqQueueConfig
  refine runCmd_keeps _ _ _ _ _ _ ?_ ?_
  · with_reducible assumption
  · intro v78_0 v78_1
    refine Keeps.of2 ?_
    refine Keeps2.ite ?_ ?_
    · refine Keeps2.of ?_
      refine refuse_keeps _ _ _ ?_
      refine deviceData_keeps _ _ _ _ _ ?_
      with_reducible assumption
    · refine Keeps2.ite ?_ ?_
      · refine Keeps2.of ?_
        refine refuse_keeps _ _ _ ?_
        refine deviceData_keeps _ _ _ _ _ ?_
        with_reducible assumption
      · refine Keeps2.ite ?_ ?_
        · refine Keeps2.of ?_
          refine refuse_keeps _ _ _ ?_
          refine deviceData_keeps _ _ _ _ _ ?_
          with_reducible assumption
        · refine Keeps2.ite ?_ ?_
          · refine Keeps2.of ?_
            refine refuse_keeps _ _ _ ?_
            refine deviceData_keeps _ _ _ _ _ ?_
            with_reducible assumption
          · refine Keeps2.of ?_
            refine done_keeps _ _ ?_
            refine updSeq_keeps _ _ _ ?_
            refine deviceData_keeps _ _ _ _ _ ?_
            with_reducible assumption

theorem execSeqSubmit_keeps (s0 : State) (x0) (x1) (h : Keeps s0 x1) : ∃ t, execSeqSubmit x0 x1 = .next t ∧ Keeps s0 t := by
  unfold execSeqSubmit
  refine runCmd_keeps _ _ _ _ _ _ ?_ ?_
  · with_reducible assumption
  · intro v78_0 v78_1
    refine Keeps.of2 ?_
    split
    · (dsimp only; split)
      · refine Keeps2.of ?_
        refine refuse_keeps _ _ _ ?_
        with_reducible assumption
      · refine Keeps2.ite ?_ ?_
        · refine Keeps2.of ?_
          refine refuse_keeps _ _ _ ?_
          with_reducible assumption
        · refine Keeps2.ite ?_ ?_
          · refine Keeps2.of ?_
            refine refuse_keeps _ _ _ ?_
            with_reducible assumption
          · refine Keeps2.of ?_
            refine refuse_keeps _ _ _ ?_
            with_reducible assumption
    · (dsimp only; split)
      · refine Keeps2.of ?_
        refine refuse_keeps _ _ _ ?_
        with_reducible assumption
      · refine Keeps2.ite ?_ ?_
        · refine Keeps2.of ?_
          refine refuse_keeps _ _ _ ?_
          with_reducible assumption
        · refine Keeps2.ite ?_ ?_
          · refine Keeps2.of ?_
            refine refuse_keeps _ _ _ ?_
            with_reducible assumption
          · refine Keeps2.mk ?_
            refine Keeps1.mk ?_
            refine updQ_keeps _ _ _ _ _ ?_
            refine updSeq_keeps _ _ _ ?_
            refine State.setSeq_keeps _ _ _ _ ?_
            with_reducible assumption

theorem seqCmd_keeps (s0 : State) (x0) (x1 : Nat → Sys2Proof.Machine.SeqEntry → Sys2Proof.Machine.State → Nat × Sys2Proof.Machine.Result × Sys2Proof.Machine.State) (x2) (h : Keeps s0 x2) (hx1 : ∀ y0 y1 y2, Keeps s0 y2 → Keeps s0 (((x1 y0 y1 y2).2).2)) : ∃ t, seqCmd x0 x1 x2 = .next t ∧ Keeps s0 t := by
  unfold seqCmd
  refine runCmd_keeps _ _ _ _ _ _ ?_ ?_
  · with_reducible assumption
  · intro v78_0 v78_1
    refine Keeps.of2 ?_
    refine Keeps2.ite ?_ ?_
    · refine Keeps2.of ?_
      refine refuse_keeps _ _ _ ?_
      with_reducible assumption
    · refine Keeps2.of ?_
      refine hx1 _ _ _ ?_
      with_reducible assumption

theorem execSeqRelease_keeps (s0 : State) (x0) (x1) (h : Keeps s0 x1) : ∃ t, execSeqRelease x0 x1 = .next t ∧ Keeps s0 t := by
  unfold execSeqRelease
  refine seqCmd_keeps _ _ _ _ ?_ ?_
  · with_reducible assumption
  · intro v78_0 v78_1 v78_2 v78_3
    refine done_keeps _ _ ?_
    refine State.setSeq_keeps _ _ _ _ ?_
    with_reducible assumption

theorem execSeqPause_keeps (s0 : State) (x0) (x1) (h : Keeps s0 x1) : ∃ t, execSeqPause x0 x1 = .next t ∧ Keeps s0 t := by
  unfold execSeqPause
  refine seqCmd_keeps _ _ _ _ ?_ ?_
  · with_reducible assumption
  · intro v78_0 v78_1 v78_2 v78_3
    refine Keeps.of2 ?_
    refine Keeps2.ite ?_ ?_
    · refine Keeps2.of ?_
      refine done_keeps _ _ ?_
      refine State.setSeq_keeps _ _ _ _ ?_
      with_reducible assumption
    · refine Keeps2.of ?_
      refine refuse_keeps _ _ _ ?_
      with_reducible assumption

theorem execSeqResume_keeps (s0 : State) (x0) (x1) (h : Keeps s0 x1) : ∃ t, execSeqResume x0 x1 = .next t ∧ Keeps s0 t := by
  unfold execSeqResume
  refine seqCmd_keeps _ _ _ _ ?_ ?_
  · with_reducible assumption
  · intro v78_0 v78_1 v78_2 v78_3
    refine Keeps.of2 ?_
    refine Keeps2.ite ?_ ?_
    · refine Keeps2.of ?_
      refine refuse_keeps _ _ _ ?_
      with_reducible assumption
    · refine Keeps2.of ?_
      refine done_keeps _ _ ?_
      refine updQ_keeps _ _ _ _ _ ?_
      refine State.setSeq_keeps _ _ _ _ ?_
      with_reducible assumption

theorem execSeqQuery_keeps (s0 : State) (x0) (x1) (h : Keeps s0 x1) : ∃ t, execSeqQuery x0 x1 = .next t ∧ Keeps s0 t := by
  unfold execSeqQuery
  refine seqCmd_keeps _ _ _ _ ?_ ?_
  · with_reducible assumption
  · intro v78_0 v78_1 v78_2 v78_3
    refine Keeps.of2 ?_
    refine Keeps2.mk ?_
    refine Keeps1.mk ?_
    with_reducible assumption

theorem execManifestRetire_keeps (s0 : State) (x0) (x1) (x2) (h : Keeps s0 x2) : ∃ t, execManifestRetire x0 x1 x2 = .next t ∧ Keeps s0 t := by
  unfold execManifestRetire
  extract_lets
  split
  · refine ⟨_, rfl, ?_⟩
    with_reducible assumption
  · refine Keeps.iteN ?_ ?_
    · refine ⟨_, rfl, ?_⟩
      with_reducible assumption
    · refine ⟨_, rfl, ?_⟩
      refine retireFor_keeps _ _ _ _ _ _ ?_
      refine thatchGo_keeps _ _ ?_
      refine updQ_keeps _ _ _ _ _ ?_
      refine settleFetches_keeps _ _ _ _ ?_
      with_reducible assumption

end Sys2Proof.Machine
end

