-- ==== Sys2Proof/Laws/Keeps07.lean ====
section
/-!
SUPPORT. What every operation keeps (`Keeps`), operation by operation: Plates, Windows, Power, Cells, FhOps.
-/
namespace Sys2Proof.Machine
open Sys2Proof

/-! ### Plates -/

theorem copyImage_keeps (s0 : State) (x0) (x1) (x2) (h : Keeps s0 x2) : Keeps s0 (copyImage x0 x1 x2) := by
  unfold copyImage
  refine Keeps.foldl0 ?_ ?_
  · intro v105 v105_b v105_h
    refine memWrite_keeps _ _ _ _ ?_
    with_reducible assumption
  · with_reducible assumption

theorem execPlateLoad_keeps (s0 : State) (x0) (x1) (h : Keeps s0 x1) : ∃ t, execPlateLoad x0 x1 = .next t ∧ Keeps s0 t := by
  unfold execPlateLoad
  refine runCmd_keeps _ _ _ _ _ _ ?_ ?_
  · with_reducible assumption
  · intro v106_0 v106_1
    refine Keeps.of2 ?_
    refine Keeps2.ite ?_ ?_
    · refine Keeps2.of ?_
      refine refuse_keeps _ _ _ ?_
      with_reducible assumption
    · refine Keeps2.ite ?_ ?_
      · refine Keeps2.of ?_
        refine refuse_keeps _ _ _ ?_
        with_reducible assumption
      · refine Keeps2.ite ?_ ?_
        · refine Keeps2.of ?_
          refine refuse_keeps _ _ _ ?_
          with_reducible assumption
        · refine Keeps2.ite ?_ ?_
          · refine Keeps2.of ?_
            refine refuse_keeps _ _ _ ?_
            with_reducible assumption
          · refine Keeps2.mk ?_
            refine Keeps1.mk ?_
            refine Keeps.upd ?_ rfl
            refine State.setPlate_keeps _ _ _ _ ?_
            refine copyImage_keeps _ _ _ _ ?_
            refine Keeps.ite0 ?_ ?_
            · refine charge_keeps _ _ _ _ _ ?_
              with_reducible assumption
            · with_reducible assumption

theorem takeCacheWays_keeps (s0 : State) (x0) (x1) (h : Keeps s0 x1) : Keeps s0 (takeCacheWays x0 x1) := by
  unfold takeCacheWays
  refine Keeps.foldl0 ?_ ?_
  · intro v398_0 v398_1 v398_2
    refine Keeps.ite0 ?_ ?_
    · with_reducible assumption
    · refine State.setWay_keeps _ _ _ _ ?_
      with_reducible assumption
  · with_reducible assumption

theorem admitPlate_keeps (s0 : State) (x0) (x1) (x2) (x3) (x4) (h : Keeps s0 x4) : Keeps s0 (admitPlate x0 x1 x2 x3 x4) := by
  unfold admitPlate
  refine Keeps.ite0 ?_ ?_
  · refine startClearing_keeps _ _ _ _ _ ?_
    refine ownRan_keeps _ _ _ _ _ ?_
    refine State.setPlate_keeps _ _ _ _ ?_
    with_reducible assumption
  · refine Keeps.ite0 ?_ ?_
    · refine State.setPlate_keeps _ _ _ _ ?_
      with_reducible assumption
    · refine takeCacheWays_keeps _ _ _ ?_
      refine assignSlots_keeps _ _ _ ?_
      refine State.setPlate_keeps _ _ _ _ ?_
      with_reducible assumption

theorem execPlateAdmit_keeps (s0 : State) (x0) (x1) (h : Keeps s0 x1) : ∃ t, execPlateAdmit x0 x1 = .next t ∧ Keeps s0 t := by
  unfold execPlateAdmit
  refine runCmd_keeps _ _ _ _ _ _ ?_ ?_
  · with_reducible assumption
  · intro v78_0 v78_1
    refine Keeps.of2 ?_
    split
    · refine Keeps2.of ?_
      refine refuse_keeps _ _ _ ?_
      with_reducible assumption
    · refine Keeps2.ite ?_ ?_
      · refine Keeps2.of ?_
        refine refuse_keeps _ _ _ ?_
        with_reducible assumption
      · refine Keeps2.ite ?_ ?_
        · refine Keeps2.of ?_
          refine refuse_keeps _ _ _ ?_
          with_reducible assumption
        · refine Keeps2.ite ?_ ?_
          · refine Keeps2.of ?_
            refine refuse_keeps _ _ _ ?_
            with_reducible assumption
          · refine Keeps2.ite ?_ ?_
            · refine Keeps2.of ?_
              refine refuse_keeps _ _ _ ?_
              with_reducible assumption
            · split
              · split
                · (dsimp only; split)
                  · refine Keeps2.mk ?_
                    refine Keeps1.mk ?_
                    with_reducible assumption
                  · refine Keeps2.mk ?_
                    refine Keeps1.mk ?_
                    refine admitPlate_keeps _ _ _ _ _ _ ?_
                    with_reducible assumption
                · (dsimp only; split)
                  · refine Keeps2.mk ?_
                    refine Keeps1.mk ?_
                    with_reducible assumption
                  · refine Keeps2.mk ?_
                    refine Keeps1.mk ?_
                    refine admitPlate_keeps _ _ _ _ _ _ ?_
                    with_reducible assumption
              · split
                · (dsimp only; split)
                  · refine Keeps2.mk ?_
                    refine Keeps1.mk ?_
                    with_reducible assumption
                  · refine Keeps2.mk ?_
                    refine Keeps1.mk ?_
                    refine admitPlate_keeps _ _ _ _ _ _ ?_
                    with_reducible assumption
                · (dsimp only; split)
                  · refine Keeps2.mk ?_
                    refine Keeps1.mk ?_
                    with_reducible assumption
                  · refine Keeps2.mk ?_
                    refine Keeps1.mk ?_
                    refine admitPlate_keeps _ _ _ _ _ _ ?_
                    with_reducible assumption

theorem execPlateSwap_keeps (s0 : State) (x0) (x1) (h : Keeps s0 x1) : ∃ t, execPlateSwap x0 x1 = .next t ∧ Keeps s0 t := by
  unfold execPlateSwap
  refine runCmd_keeps _ _ _ _ _ _ ?_ ?_
  · with_reducible assumption
  · intro v78_0 v78_1
    refine Keeps.of2 ?_
    split
    · refine Keeps2.of ?_
      refine refuse_keeps _ _ _ ?_
      with_reducible assumption
    · refine Keeps2.ite ?_ ?_
      · refine Keeps2.of ?_
        refine refuse_keeps _ _ _ ?_
        with_reducible assumption
      · refine Keeps2.ite ?_ ?_
        · refine Keeps2.of ?_
          refine refuse_keeps _ _ _ ?_
          with_reducible assumption
        · refine Keeps2.ite ?_ ?_
          · refine Keeps2.of ?_
            refine refuse_keeps _ _ _ ?_
            with_reducible assumption
          · split
            · refine Keeps2.of ?_
              refine refuse_keeps _ _ _ ?_
              with_reducible assumption
            · split
              · (dsimp only; split)
                · refine Keeps2.mk ?_
                  refine Keeps1.mk ?_
                  with_reducible assumption
                · refine Keeps2.mk ?_
                  refine Keeps1.mk ?_
                  refine Keeps.upd ?_ rfl
                  refine State.setPlate_keeps _ _ _ _ ?_
                  refine admitPlate_keeps _ _ _ _ _ _ ?_
                  with_reducible assumption
              · (dsimp only; split)
                · refine Keeps2.mk ?_
                  refine Keeps1.mk ?_
                  with_reducible assumption
                · refine Keeps2.mk ?_
                  refine Keeps1.mk ?_
                  refine Keeps.upd ?_ rfl
                  refine State.setPlate_keeps _ _ _ _ ?_
                  refine admitPlate_keeps _ _ _ _ _ _ ?_
                  with_reducible assumption

theorem execPlateStart_keeps (s0 : State) (x0) (x1) (h : Keeps s0 x1) : ∃ t, execPlateStart x0 x1 = .next t ∧ Keeps s0 t := by
  unfold execPlateStart
  refine runCmd_keeps _ _ _ _ _ _ ?_ ?_
  · with_reducible assumption
  · intro v78_0 v78_1
    refine Keeps.of2 ?_
    split
    · refine Keeps2.of ?_
      refine refuse_keeps _ _ _ ?_
      with_reducible assumption
    · refine Keeps2.ite ?_ ?_
      · refine Keeps2.of ?_
        refine refuse_keeps _ _ _ ?_
        with_reducible assumption
      · refine Keeps2.ite ?_ ?_
        · refine Keeps2.of ?_
          refine refuse_keeps _ _ _ ?_
          with_reducible assumption
        · refine Keeps2.ite ?_ ?_
          · refine Keeps2.of ?_
            refine refuse_keeps _ _ _ ?_
            with_reducible assumption
          · refine Keeps2.ite ?_ ?_
            · refine Keeps2.of ?_
              refine refuse_keeps _ _ _ ?_
              with_reducible assumption
            · refine Keeps2.ite ?_ ?_
              · refine Keeps2.of ?_
                refine refuse_keeps _ _ _ ?_
                with_reducible assumption
              · refine Keeps2.mk ?_
                refine Keeps1.mk ?_
                refine State.setPlate_keeps _ _ _ _ ?_
                with_reducible assumption

theorem execPlateRetire_keeps (s0 : State) (x0) (x1) (h : Keeps s0 x1) : ∃ t, execPlateRetire x0 x1 = .next t ∧ Keeps s0 t := by
  unfold execPlateRetire
  refine runCmd_keeps _ _ _ _ _ _ ?_ ?_
  · with_reducible assumption
  · intro v78_0 v78_1
    refine Keeps.of2 ?_
    split
    · refine Keeps2.of ?_
      refine refuse_keeps _ _ _ ?_
      with_reducible assumption
    · refine Keeps2.ite ?_ ?_
      · refine Keeps2.mk ?_
        refine Keeps1.mk ?_
        refine freePlate_keeps _ _ _ ?_
        with_reducible assumption
      · refine Keeps2.ite ?_ ?_
        · refine Keeps2.ite ?_ ?_
          · refine Keeps2.of ?_
            refine refuse_keeps _ _ _ ?_
            with_reducible assumption
          · refine Keeps2.mk ?_
            refine Keeps1.mk ?_
            refine State.setPlate_keeps _ _ _ _ ?_
            with_reducible assumption
        · refine Keeps2.mk ?_
          refine Keeps1.mk ?_
          refine settleRetiring_keeps _ _ _ ?_
          refine State.setPlate_keeps _ _ _ _ ?_
          with_reducible assumption

theorem execPlateQuery_keeps (s0 : State) (x0) (x1) (h : Keeps s0 x1) : ∃ t, execPlateQuery x0 x1 = .next t ∧ Keeps s0 t := by
  unfold execPlateQuery
  refine runCmd_keeps _ _ _ _ _ _ ?_ ?_
  · with_reducible assumption
  · intro v398_0 v398_1
    split
    · refine refuse_keeps _ _ _ ?_
      with_reducible assumption
    · with_reducible assumption

theorem finishClearing_keeps (s0 : State) (x0) (x1) (h : Keeps s0 x1) : Keeps s0 (finishClearing x0 x1) := by
  unfold finishClearing
  refine clearResource_keeps _ _ _ ?_
  refine Keeps.upd ?_ rfl
  with_reducible assumption

theorem execPartitionClearDone_keeps (s0 : State) (x0) (x1) (x2) (h : Keeps s0 x2) : ∃ t, execPartitionClearDone x0 x1 x2 = .next t ∧ Keeps s0 t := by
  unfold execPartitionClearDone
  split
  · refine ⟨_, rfl, ?_⟩
    with_reducible assumption
  · refine Keeps.iteN ?_ ?_
    · refine ⟨_, rfl, ?_⟩
      with_reducible assumption
    · refine ⟨_, rfl, ?_⟩
      refine finishClearing_keeps _ _ _ ?_
      with_reducible assumption

theorem execWindowEnd_keeps (s0 : State) (x0) (x1) (x2) (h : Keeps s0 x2) : ∃ t, execWindowEnd x0 x1 x2 = .next t ∧ Keeps s0 t := by
  unfold execWindowEnd
  (dsimp only; split)
  · refine ⟨_, rfl, ?_⟩
    with_reducible assumption
  · split
    · refine ⟨_, rfl, ?_⟩
      with_reducible assumption
    · refine Keeps.iteN ?_ ?_
      · refine ⟨_, rfl, ?_⟩
        refine faultEvent_keeps _ _ _ _ ?_
        refine State.setPlate_keeps _ _ _ _ ?_
        refine dryEvent_keeps _ _ _ ?_
        with_reducible assumption
      · refine ⟨_, rfl, ?_⟩
        with_reducible assumption

theorem epochPlates_keeps (s0 : State) (x0) (x1) (h : Keeps s0 x1) : Keeps s0 (epochPlates x0 x1) := by
  unfold epochPlates
  extract_lets
  split
  · refine Keeps.ite0 ?_ ?_
    · refine Keeps.upd ?_ rfl
      refine Keeps.foldl0 ?_ ?_
      · intro v72 v72_b v72_h
        refine settleRan_keeps _ _ _ _ ?_
        with_reducible assumption
      · refine Keeps.foldl0 ?_ ?_
        · intro v73 v73_b v73_h
          refine Keeps.ite0 ?_ ?_
          · refine startClearing_keeps _ _ _ _ _ ?_
            refine State.setPlate_keeps _ _ _ _ ?_
            with_reducible assumption
          · with_reducible assumption
        · refine Keeps.foldl0 ?_ ?_
          · intro v74 v74_b v74_h
            refine finishClearing_keeps _ _ _ ?_
            with_reducible assumption
          · with_reducible assumption
    · refine Keeps.foldl0 ?_ ?_
      · intro v75 v75_b v75_h
        refine settleRan_keeps _ _ _ _ ?_
        with_reducible assumption
      · refine Keeps.foldl0 ?_ ?_
        · intro v76 v76_b v76_h
          refine Keeps.ite0 ?_ ?_
          · refine startClearing_keeps _ _ _ _ _ ?_
            refine State.setPlate_keeps _ _ _ _ ?_
            with_reducible assumption
          · with_reducible assumption
        · refine Keeps.foldl0 ?_ ?_
          · intro v77 v77_b v77_h
            refine finishClearing_keeps _ _ _ ?_
            with_reducible assumption
          · with_reducible assumption
  · refine Keeps.foldl0 ?_ ?_
    · intro v78 v78_b v78_h
      refine settleRan_keeps _ _ _ _ ?_
      with_reducible assumption
    · refine Keeps.foldl0 ?_ ?_
      · intro v79 v79_b v79_h
        refine Keeps.ite0 ?_ ?_
        · refine startClearing_keeps _ _ _ _ _ ?_
          refine State.setPlate_keeps _ _ _ _ ?_
          with_reducible assumption
        · with_reducible assumption
      · refine Keeps.foldl0 ?_ ?_
        · intro v80 v80_b v80_h
          refine finishClearing_keeps _ _ _ ?_
          with_reducible assumption
        · with_reducible assumption

/-! ### Windows -/

theorem updCtx_keeps (s0 : State) (x0) (x1) (x2) (h : Keeps s0 x2) : Keeps s0 (updCtx x0 x1 x2) := by
  unfold updCtx
  refine State.setCtx_keeps _ _ _ _ ?_
  with_reducible assumption

theorem holdImpressions_keeps (s0 : State) (x0) (x1) (h : Keeps s0 x1) : Keeps s0 (holdImpressions x0 x1) := by
  unfold holdImpressions
  refine Keeps.foldl0 ?_ ?_
  · intro v78_0 v78_1 v78_2
    refine Keeps.ite0 ?_ ?_
    · refine updPlate_keeps _ _ _ _ ?_
      with_reducible assumption
    · with_reducible assumption
  · with_reducible assumption

theorem takeCore_keeps (s0 : State) (x0) (x1) (x2) (h : Keeps s0 x2) : Keeps s0 (takeCore x0 x1 x2) := by
  unfold takeCore
  refine State.setCore_keeps _ _ _ _ ?_
  refine Keeps.foldl0 ?_ ?_
  · intro v107 v107_b v107_h
    refine State.setThread_keeps _ _ _ _ ?_
    with_reducible assumption
  · refine updCtx_keeps _ _ _ _ ?_
    refine suspendEngines_keeps _ _ _ ?_
    with_reducible assumption

theorem endStop_keeps (s0 : State) (x0) (x1) (x2) (x3) (h : Keeps s0 x3) : Keeps s0 (endStop x0 x1 x2 x3) := by
  unfold endStop
  (dsimp only; split)
  · refine completeSlot_keeps _ _ _ _ _ _ ?_
    refine State.setCtx_keeps _ _ _ _ ?_
    with_reducible assumption
  · refine State.setCtx_keeps _ _ _ _ ?_
    with_reducible assumption

theorem settleStop_keeps (s0 : State) (x0) (x1) (h : Keeps s0 x1) : Keeps s0 (settleStop x0 x1) := by
  unfold settleStop
  refine Keeps.ite0 ?_ ?_
  · with_reducible assumption
  · refine Keeps.ite0 ?_ ?_
    · with_reducible assumption
    · refine Keeps.ite0 ?_ ?_
      · with_reducible assumption
      · refine Keeps.ite0 ?_ ?_
        · refine endStop_keeps _ _ _ _ _ ?_
          refine Keeps.foldl0 ?_ ?_
          · intro v108 v108_b v108_h
            refine saveResident_keeps _ _ _ ?_
            with_reducible assumption
          · refine holdImpressions_keeps _ _ _ ?_
            with_reducible assumption
        · refine Keeps.foldl0 ?_ ?_
          · intro v109 v109_b v109_h
            refine takeCore_keeps _ _ _ _ ?_
            with_reducible assumption
          · refine updCtx_keeps _ _ _ _ ?_
            refine Keeps.foldl0 ?_ ?_
            · intro v110 v110_b v110_h
              refine saveResident_keeps _ _ _ ?_
              with_reducible assumption
            · refine holdImpressions_keeps _ _ _ ?_
              with_reducible assumption

theorem settleIdle_keeps (s0 : State) (x0) (x1) (h : Keeps s0 x1) : Keeps s0 (settleIdle x0 x1) := by
  unfold settleIdle
  refine Keeps.ite0 ?_ ?_
  · refine updCtx_keeps _ _ _ _ ?_
    with_reducible assumption
  · with_reducible assumption

theorem deferPlate_keeps (s0 : State) (x0) (x1) (h : Keeps s0 x1) : Keeps s0 (deferPlate x0 x1) := by
  unfold deferPlate
  refine updPlate_keeps _ _ _ _ ?_
  with_reducible assumption

theorem deferEpoch_keeps (s0 : State) (x0) (x1) (h : Keeps s0 x1) : Keeps s0 (deferEpoch x0 x1) := by
  unfold deferEpoch
  refine updPlate_keeps _ _ _ _ ?_
  with_reducible assumption

theorem resumeGroups_keeps (s0 : State) (x0) (h : Keeps s0 x0) : Keeps s0 (resumeGroups x0) := by
  unfold resumeGroups
  refine Keeps.foldl0 ?_ ?_
  · intro v81 v81_b v81_h
    refine groupsResume_keeps _ _ _ ?_
    with_reducible assumption
  · with_reducible assumption

theorem unitsDone_keeps (s0 : State) (x0) (h : Keeps s0 x0) : Keeps s0 (unitsDone x0) := by
  unfold unitsDone
  refine Keeps.ite0 ?_ ?_
  · with_reducible assumption
  · refine resumeGroups_keeps _ _ ?_
    refine retryHeld_keeps _ _ ?_
    refine Keeps.foldl0 ?_ ?_
    · intro v82 v82_b v82_h
      refine settleStop_keeps _ _ _ ?_
      with_reducible assumption
    · with_reducible assumption

theorem beginOccurrence_keeps (s0 : State) (x0) (x1) (x2) (x3) (h : Keeps s0 x3) : Keeps s0 (beginOccurrence x0 x1 x2 x3) := by
  unfold beginOccurrence
  split
  · with_reducible assumption
  · split
    · with_reducible assumption
    · refine Keeps.ite0 ?_ ?_
      · refine updPlate_keeps _ _ _ _ ?_
        refine tryBegin_keeps _ _ _ _ _ ?_
        with_reducible assumption
      · refine groupsResume_keeps _ _ _ ?_
        refine updPlate_keeps _ _ _ _ ?_
        refine tryBegin_keeps _ _ _ _ _ ?_
        with_reducible assumption

theorem runOccurrence_keeps (s0 : State) (x0) (x1) (x2) (h : Keeps s0 x2) : Keeps s0 (runOccurrence x0 x1 x2) := by
  unfold runOccurrence
  refine beginOccurrence_keeps _ _ _ _ _ ?_
  refine updPlate_keeps _ _ _ _ ?_
  with_reducible assumption

theorem slotVariant_keeps (s0 : State) (x0) (x1) (x2) (x3) (h : Keeps s0 x3) : Keeps s0 (slotVariant x0 x1 x2 x3).2 := by
  unfold slotVariant
  refine Keeps.of1 ?_
  split
  · extract_lets
    split
    · split
      · refine Keeps1.mk ?_
        with_reducible assumption
      · refine Keeps1.mk ?_
        refine updCell_keeps _ _ _ _ ?_
        with_reducible assumption
    · split
      · refine Keeps1.ite ?_ ?_
        · refine Keeps1.mk ?_
          with_reducible assumption
        · refine Keeps1.mk ?_
          with_reducible assumption
      · refine Keeps1.mk ?_
        with_reducible assumption
    · refine Keeps1.mk ?_
      with_reducible assumption
  · extract_lets
    split
    · split
      · refine Keeps1.mk ?_
        with_reducible assumption
      · refine Keeps1.mk ?_
        refine updCell_keeps _ _ _ _ ?_
        with_reducible assumption
    · split
      · refine Keeps1.ite ?_ ?_
        · refine Keeps1.mk ?_
          with_reducible assumption
        · refine Keeps1.mk ?_
          with_reducible assumption
      · refine Keeps1.mk ?_
        refine shadowGap_keeps _ _ _ _ ?_
        with_reducible assumption
    · refine Keeps1.mk ?_
      with_reducible assumption

theorem startRanWindow_keeps (s0 : State) (x0) (x1) (x2) (x3) (x4) (h : Keeps s0 x4) : Keeps s0 (startRanWindow x0 x1 x2 x3 x4) := by
  unfold startRanWindow
  refine Keeps.ite0 ?_ ?_
  · with_reducible assumption
  · (dsimp only; split)
    · refine slotVariant_keeps _ _ _ _ _ ?_
      with_reducible assumption
    · split
      · refine slotVariant_keeps _ _ _ _ _ ?_
        with_reducible assumption
      · refine runOccurrence_keeps _ _ _ _ ?_
        refine slotVariant_keeps _ _ _ _ _ ?_
        with_reducible assumption

theorem resumeImpression_keeps (s0 : State) (x0) (x1) (x2) (h : Keeps s0 x2) : Keeps s0 (resumeImpression x0 x1 x2) := by
  unfold resumeImpression
  refine Keeps.ite0 ?_ ?_
  · refine updPlate_keeps _ _ _ _ ?_
    refine updThatch_keeps _ _ _ _ _ ?_
    with_reducible assumption
  · refine beginOccurrence_keeps _ _ _ _ _ ?_
    refine updPlate_keeps _ _ _ _ ?_
    refine updThatch_keeps _ _ _ _ _ ?_
    with_reducible assumption

theorem takeUp_keeps (s0 : State) (x0) (x1) (h : Keeps s0 x1) : Keeps s0 (takeUp x0 x1) := by
  unfold takeUp
  refine Keeps.ite0 ?_ ?_
  · refine State.setCtx_keeps _ _ _ _ ?_
    with_reducible assumption
  · refine groupsResume_keeps _ _ _ ?_
    refine State.setCtx_keeps _ _ _ _ ?_
    with_reducible assumption

theorem firstImpression_keeps (s0 : State) (x0) (x1) (x2) (x3) (h : Keeps s0 x3) : Keeps s0 (firstImpression x0 x1 x2 x3) := by
  unfold firstImpression
  refine Keeps.ite0 ?_ ?_
  · refine startBarrier_keeps _ _ _ _ ?_
    refine runOccurrence_keeps _ _ _ _ ?_
    refine firstManifest_keeps _ _ _ _ ?_
    refine updPlate_keeps _ _ _ _ ?_
    with_reducible assumption
  · refine runOccurrence_keeps _ _ _ _ ?_
    refine firstManifest_keeps _ _ _ _ ?_
    refine updPlate_keeps _ _ _ _ ?_
    with_reducible assumption

theorem startComputeWindow_keeps (s0 : State) (x0) (x1) (x2) (x3) (h : Keeps s0 x3) : Keeps s0 (startComputeWindow x0 x1 x2 x3) := by
  unfold startComputeWindow
  refine Keeps.ite0 ?_ ?_
  · with_reducible assumption
  · refine Keeps.ite0 ?_ ?_
    · with_reducible assumption
    · refine Keeps.ite0 ?_ ?_
      · refine deferPlate_keeps _ _ _ ?_
        with_reducible assumption
      · refine Keeps.ite0 ?_ ?_
        · refine deferEpoch_keeps _ _ _ ?_
          with_reducible assumption
        · refine Keeps.ite0 ?_ ?_
          · refine ctxCount_keeps _ _ _ _ ?_
            refine deferPlate_keeps _ _ _ ?_
            with_reducible assumption
          · split
            · split
              · refine resumeImpression_keeps _ _ _ _ ?_
                refine takeUp_keeps _ _ _ ?_
                with_reducible assumption
              · refine Keeps.ite0 ?_ ?_
                · refine firstImpression_keeps _ _ _ _ _ ?_
                  refine takeUp_keeps _ _ _ ?_
                  with_reducible assumption
                · refine Keeps.ite0 ?_ ?_
                  · refine takeUp_keeps _ _ _ ?_
                    with_reducible assumption
                  · refine runOccurrence_keeps _ _ _ _ ?_
                    refine takeUp_keeps _ _ _ ?_
                    with_reducible assumption
            · split
              · split
                · refine resumeImpression_keeps _ _ _ _ ?_
                  refine updCtx_keeps _ _ _ _ ?_
                  with_reducible assumption
                · refine Keeps.ite0 ?_ ?_
                  · refine firstImpression_keeps _ _ _ _ _ ?_
                    refine updCtx_keeps _ _ _ _ ?_
                    with_reducible assumption
                  · refine Keeps.ite0 ?_ ?_
                    · refine updCtx_keeps _ _ _ _ ?_
                      with_reducible assumption
                    · refine runOccurrence_keeps _ _ _ _ ?_
                      refine updCtx_keeps _ _ _ _ ?_
                      with_reducible assumption
              · split
                · refine resumeImpression_keeps _ _ _ _ ?_
                  with_reducible assumption
                · refine Keeps.ite0 ?_ ?_
                  · refine firstImpression_keeps _ _ _ _ _ ?_
                    with_reducible assumption
                  · refine Keeps.ite0 ?_ ?_
                    · with_reducible assumption
                    · refine runOccurrence_keeps _ _ _ _ ?_
                      with_reducible assumption

theorem execWindowStart_keeps (s0 : State) (x0) (x1) (x2) (h : Keeps s0 x2) : ∃ t, execWindowStart x0 x1 x2 = .next t ∧ Keeps s0 t := by
  unfold execWindowStart
  (dsimp only; split)
  · refine ⟨_, rfl, ?_⟩
    with_reducible assumption
  · split
    · refine ⟨_, rfl, ?_⟩
      with_reducible assumption
    · refine Keeps.iteN ?_ ?_
      · refine ⟨_, rfl, ?_⟩
        with_reducible assumption
      · refine ⟨_, rfl, ?_⟩
        refine Keeps.ite0 ?_ ?_
        · refine startRanWindow_keeps _ _ _ _ _ _ ?_
          refine updPlate_keeps _ _ _ _ ?_
          with_reducible assumption
        · refine startComputeWindow_keeps _ _ _ _ _ ?_
          refine updPlate_keeps _ _ _ _ ?_
          with_reducible assumption

theorem execEngineCommandRetire_keeps (s0 : State) (x0) (x1) (x2) (h : Keeps s0 x2) : ∃ t, execEngineCommandRetire x0 x1 x2 = .next t ∧ Keeps s0 t := by
  unfold execEngineCommandRetire
  extract_lets
  split
  · refine ⟨_, rfl, ?_⟩
    with_reducible assumption
  · refine Keeps.iteN ?_ ?_
    · refine ⟨_, rfl, ?_⟩
      with_reducible assumption
    · refine ⟨_, rfl, ?_⟩
      split
      · refine settleStop_keeps _ _ _ ?_
        refine wakeCounters_keeps _ _ _ ?_
        refine State.setCore_keeps _ _ _ _ ?_
        with_reducible assumption
      · refine wakeCounters_keeps _ _ _ ?_
        refine State.setCore_keeps _ _ _ _ ?_
        with_reducible assumption

theorem afterCommand_keeps (s0 : State) (x0) (x1) (x2) (x3) (x4) (h : Keeps s0 x4) : Keeps s0 (afterCommand x0 x1 x2 x3 x4) := by
  unfold afterCommand
  refine Keeps.ite0 ?_ ?_
  · refine updPlate_keeps _ _ _ _ ?_
    with_reducible assumption
  · refine thatchCount_keeps _ _ _ _ ?_
    refine updMem_keeps _ _ _ ?_ ?_
    · refine updPlate_keeps _ _ _ _ ?_
      with_reducible assumption
    · intro v76_0
      rfl

theorem execPlateCommandEnd_keeps (s0 : State) (x0) (x1) (x2) (h : Keeps s0 x2) : ∃ t, execPlateCommandEnd x0 x1 x2 = .next t ∧ Keeps s0 t := by
  unfold execPlateCommandEnd
  extract_lets
  split
  · refine ⟨_, rfl, ?_⟩
    with_reducible assumption
  · split
    · refine ⟨_, rfl, ?_⟩
      with_reducible assumption
    · refine Keeps.iteN ?_ ?_
      · refine ⟨_, rfl, ?_⟩
        with_reducible assumption
      · refine ⟨_, rfl, ?_⟩
        refine Keeps.ite0 ?_ ?_
        · refine resumeGroups_keeps _ _ ?_
          refine retryHeld_keeps _ _ ?_
          refine afterCommand_keeps _ _ _ _ _ _ ?_
          refine Keeps.foldl0 ?_ ?_
          · intro v83 v83_b v83_h
            refine State.setCore_keeps _ _ _ _ ?_
            with_reducible assumption
          · with_reducible assumption
        · refine thatchGo_keeps _ _ ?_
          refine settleStop_keeps _ _ _ ?_
          refine resumeGroups_keeps _ _ ?_
          refine retryHeld_keeps _ _ ?_
          refine afterCommand_keeps _ _ _ _ _ _ ?_
          refine Keeps.foldl0 ?_ ?_
          · intro v84 v84_b v84_h
            refine State.setCore_keeps _ _ _ _ ?_
            with_reducible assumption
          · with_reducible assumption

theorem endImpression_keeps (s0 : State) (x0) (x1) (x2) (h : Keeps s0 x2) : Keeps s0 (endImpression x0 x1 x2) := by
  unfold endImpression
  refine thatchGo_keeps _ _ ?_
  refine settleIdle_keeps _ _ _ ?_
  refine settleStop_keeps _ _ _ ?_
  refine settleRetiring_keeps _ _ _ ?_
  refine Keeps.ite0 ?_ ?_
  · refine stepBoundary_keeps _ _ _ _ _ ?_
    refine updPlate_keeps _ _ _ _ ?_
    refine endThatch_keeps _ _ _ _ ?_
    with_reducible assumption
  · refine undoJoins_keeps _ _ _ _ ?_
    refine updPlate_keeps _ _ _ _ ?_
    refine endThatch_keeps _ _ _ _ ?_
    with_reducible assumption

theorem execImpressionComplete_keeps (s0 : State) (x0) (x1) (x2) (x3) (h : Keeps s0 x3) : ∃ t, execImpressionComplete x0 x1 x2 x3 = .next t ∧ Keeps s0 t := by
  unfold execImpressionComplete
  extract_lets
  split
  · refine ⟨_, rfl, ?_⟩
    with_reducible assumption
  · refine Keeps.iteN ?_ ?_
    · refine Keeps.iteN ?_ ?_
      · refine ⟨_, rfl, ?_⟩
        with_reducible assumption
      · refine ⟨_, rfl, ?_⟩
        refine settleRan_keeps _ _ _ _ ?_
        refine closeSlot_keeps _ _ _ _ ?_
        refine updPlate_keeps _ _ _ _ ?_
        with_reducible assumption
    · split
      · refine ⟨_, rfl, ?_⟩
        refine endImpression_keeps _ _ _ _ ?_
        with_reducible assumption
      · refine ⟨_, rfl, ?_⟩
        with_reducible assumption

theorem execCtxSaveSet_keeps (s0 : State) (x0) (x1) (h : Keeps s0 x1) : ∃ t, execCtxSaveSet x0 x1 = .next t ∧ Keeps s0 t := by
  unfold execCtxSaveSet
  refine runCmd_keeps _ _ _ _ _ _ ?_ ?_
  · with_reducible assumption
  · intro v78_0 v78_1
    refine Keeps.of2 ?_
    refine Keeps2.ite ?_ ?_
    · refine Keeps2.of ?_
      refine refuse_keeps _ _ _ ?_
      with_reducible assumption
    · refine Keeps2.ite ?_ ?_
      · refine Keeps2.of ?_
        refine refuse_keeps _ _ _ ?_
        with_reducible assumption
      · refine Keeps2.of ?_
        refine done_keeps _ _ ?_
        refine updCtx_keeps _ _ _ _ ?_
        with_reducible assumption

theorem execCtxPreempt_keeps (s0 : State) (x0) (x1) (h : Keeps s0 x1) : ∃ t, execCtxPreempt x0 x1 = .next t ∧ Keeps s0 t := by
  unfold execCtxPreempt
  refine runCmdW_keeps _ _ _ _ _ _ ?_ ?_
  · with_reducible assumption
  · intro v85_0 v85_1
    refine Keeps.of1 ?_
    refine Keeps1.ite ?_ ?_
    · refine Keeps1.mk ?_
      with_reducible assumption
    · refine Keeps1.ite ?_ ?_
      · refine Keeps1.mk ?_
        with_reducible assumption
      · refine Keeps1.mk ?_
        refine settleStop_keeps _ _ _ ?_
        refine Keeps.ite0 ?_ ?_
        · refine Keeps.foldl0 ?_ ?_
          · intro v86 v86_b v86_h
            refine stopEngines_keeps _ _ _ ?_
            with_reducible assumption
          · refine updCtx_keeps _ _ _ _ ?_
            refine groupsPause_keeps _ _ _ ?_
            refine updCtx_keeps _ _ _ _ ?_
            with_reducible assumption
        · refine updCtx_keeps _ _ _ _ ?_
          refine groupsPause_keeps _ _ _ ?_
          refine updCtx_keeps _ _ _ _ ?_
          with_reducible assumption

theorem execCtxResume_keeps (s0 : State) (x0) (x1) (h : Keeps s0 x1) : ∃ t, execCtxResume x0 x1 = .next t ∧ Keeps s0 t := by
  unfold execCtxResume
  refine runCmd_keeps _ _ _ _ _ _ ?_ ?_
  · with_reducible assumption
  · intro v78_0 v78_1
    refine Keeps.of2 ?_
    refine Keeps2.ite ?_ ?_
    · refine Keeps2.of ?_
      refine refuse_keeps _ _ _ ?_
      with_reducible assumption
    · refine Keeps2.mk ?_
      refine Keeps1.mk ?_
      refine Keeps.ite0 ?_ ?_
      · refine groupsResume_keeps _ _ _ ?_
        refine State.setCtx_keeps _ _ _ _ ?_
        with_reducible assumption
      · refine State.setCtx_keeps _ _ _ _ ?_
        with_reducible assumption

theorem execCtxQuery_keeps (s0 : State) (x0) (x1) (h : Keeps s0 x1) : ∃ t, execCtxQuery x0 x1 = .next t ∧ Keeps s0 t := by
  unfold execCtxQuery
  refine runCmd_keeps _ _ _ _ _ _ ?_ ?_
  · with_reducible assumption
  · intro v78_0 v78_1
    refine Keeps.of2 ?_
    refine Keeps2.mk ?_
    refine Keeps1.mk ?_
    with_reducible assumption

theorem writeImage_keeps (s0 : State) (x0) (x1) (h : Keeps s0 x1) : Keeps s0 (writeImage x0 x1) := by
  unfold writeImage
  refine Keeps.foldl0 ?_ ?_
  · intro v78_0 v78_1 v78_2
    refine copyWords_keeps _ _ _ _ _ ?_
    with_reducible assumption
  · refine Keeps.foldl0 ?_ ?_
    · intro v77_0 v77_1 v77_2
      refine copyWords_keeps _ _ _ _ _ ?_
      refine memWrite_keeps _ _ _ _ ?_
      with_reducible assumption
    · refine memWrite_keeps _ _ _ _ ?_
      with_reducible assumption

theorem execImageSaveDone_keeps (s0 : State) (x0) (x1) (h : Keeps s0 x1) : ∃ t, execImageSaveDone x0 x1 = .next t ∧ Keeps s0 t := by
  unfold execImageSaveDone
  refine Keeps.iteN ?_ ?_
  · refine ⟨_, rfl, ?_⟩
    with_reducible assumption
  · refine ⟨_, rfl, ?_⟩
    refine endStop_keeps _ _ _ _ _ ?_
    refine ctxCount_keeps _ _ _ _ ?_
    refine updCtx_keeps _ _ _ _ ?_
    refine writeImage_keeps _ _ _ ?_
    with_reducible assumption

theorem giveBack_keeps (s0 : State) (x0) (x1) (x2) (x3) (h : Keeps s0 x3) : Keeps s0 (giveBack x0 x1 x2 x3) := by
  unfold giveBack
  (dsimp only; split)
  · with_reducible assumption
  · refine Keeps.foldl0 ?_ ?_
    · intro v77_0 v77_1 v77_2
      refine State.setThread_keeps _ _ _ _ ?_
      with_reducible assumption
    · refine State.setCore_keeps _ _ _ _ ?_
      refine copyWords_keeps _ _ _ _ _ ?_
      refine memClear_keeps _ _ _ _ ?_
      refine saveResident_keeps _ _ _ ?_
      with_reducible assumption

theorem execImageRestoreDone_keeps (s0 : State) (x0) (x1) (h : Keeps s0 x1) : ∃ t, execImageRestoreDone x0 x1 = .next t ∧ Keeps s0 t := by
  unfold execImageRestoreDone
  refine Keeps.iteN ?_ ?_
  · refine ⟨_, rfl, ?_⟩
    with_reducible assumption
  · refine ⟨_, rfl, ?_⟩
    refine retryHeld_keeps _ _ ?_
    refine groupsResume_keeps _ _ _ ?_
    refine ctxCount_keeps _ _ _ _ ?_
    refine Keeps.foldl0 ?_ ?_
    · intro v114 v114_b v114_h
      refine releaseBarriers_keeps _ _ _ ?_
      with_reducible assumption
    · refine updCtx_keeps _ _ _ _ ?_
      refine Keeps.foldl0 ?_ ?_
      · intro v115 v115_b v115_h
        refine copyWords_keeps _ _ _ _ _ ?_
        refine State.setWay_keeps _ _ _ _ ?_
        with_reducible assumption
      · refine Keeps.foldl0 ?_ ?_
        · intro v116 v116_b v116_h
          refine giveBack_keeps _ _ _ _ _ ?_
          with_reducible assumption
        · with_reducible assumption

/-! ### Power -/

theorem updPwr_keeps (s0 : State) (x0) (x1) (h : Keeps s0 x1) : Keeps s0 (updPwr x0 x1) := by
  unfold updPwr
  refine Keeps.upd ?_ rfl
  with_reducible assumption

theorem pwrCount_keeps (s0 : State) (x0) (x1) (x2) (h : Keeps s0 x2) : Keeps s0 (pwrCount x0 x1 x2) := by
  unfold pwrCount
  refine updPwr_keeps _ _ _ ?_
  with_reducible assumption

theorem withRecord_keeps (s0 : State) (x0) (x1) (x2 : List Sys2Proof.Byte → Sys2Proof.Machine.State → Nat × Sys2Proof.Machine.Result × Sys2Proof.Machine.State) (x3) (h : Keeps s0 x3) (hx2 : ∀ y0 y1, Keeps s0 y1 → Keeps s0 (((x2 y0 y1).2).2)) : Keeps s0 (((withRecord x0 x1 x2 x3).2).2) := by
  unfold withRecord
  refine hx2 _ _ ?_
  with_reducible assumption

theorem execCoolantConfig_keeps (s0 : State) (x0) (x1) (h : Keeps s0 x1) : ∃ t, execCoolantConfig x0 x1 = .next t ∧ Keeps s0 t := by
  unfold execCoolantConfig
  refine runCmd_keeps _ _ _ _ _ _ ?_ ?_
  · with_reducible assumption
  · intro v78_0 v78_1
    refine withRecord_keeps _ _ _ _ _ ?_ ?_
    · with_reducible assumption
    · intro v76_0 v76_1 v76_2
      refine Keeps.of2 ?_
      refine Keeps2.ite ?_ ?_
      · refine Keeps2.of ?_
        refine done_keeps _ _ ?_
        refine updPwr_keeps _ _ _ ?_
        with_reducible assumption
      · refine Keeps2.of ?_
        refine refuse_keeps _ _ _ ?_
        with_reducible assumption

theorem execGovConfig_keeps (s0 : State) (x0) (x1) (h : Keeps s0 x1) : ∃ t, execGovConfig x0 x1 = .next t ∧ Keeps s0 t := by
  unfold execGovConfig
  refine runCmd_keeps _ _ _ _ _ _ ?_ ?_
  · with_reducible assumption
  · intro v78_0 v78_1
    refine withRecord_keeps _ _ _ _ _ ?_ ?_
    · with_reducible assumption
    · intro v76_0 v76_1 v76_2
      refine Keeps.of2 ?_
      refine Keeps2.ite ?_ ?_
      · refine Keeps2.of ?_
        refine done_keeps _ _ ?_
        refine updPwr_keeps _ _ _ ?_
        with_reducible assumption
      · refine Keeps2.of ?_
        refine refuse_keeps _ _ _ ?_
        with_reducible assumption

theorem execTripConfig_keeps (s0 : State) (x0) (x1) (h : Keeps s0 x1) : ∃ t, execTripConfig x0 x1 = .next t ∧ Keeps s0 t := by
  unfold execTripConfig
  refine runCmd_keeps _ _ _ _ _ _ ?_ ?_
  · with_reducible assumption
  · intro v78_0 v78_1
    refine withRecord_keeps _ _ _ _ _ ?_ ?_
    · with_reducible assumption
    · intro v76_0 v76_1 v76_2
      refine Keeps.of2 ?_
      refine Keeps2.ite ?_ ?_
      · refine Keeps2.of ?_
        refine done_keeps _ _ ?_
        refine updPwr_keeps _ _ _ ?_
        with_reducible assumption
      · refine Keeps2.of ?_
        refine refuse_keeps _ _ _ ?_
        with_reducible assumption

theorem execPowerQuery_keeps (s0 : State) (x0) (x1) (h : Keeps s0 x1) : ∃ t, execPowerQuery x0 x1 = .next t ∧ Keeps s0 t := by
  unfold execPowerQuery
  refine runCmd_keeps _ _ _ _ _ _ ?_ ?_
  · with_reducible assumption
  · intro v398_0 v398_1
    with_reducible assumption

theorem execCoolantSample_keeps (s0 : State) (x0) (x1) (x2) (h : Keeps s0 x2) : ∃ t, execCoolantSample x0 x1 x2 = .next t ∧ Keeps s0 t := by
  unfold execCoolantSample
  refine Keeps.iteN ?_ ?_
  · refine ⟨_, rfl, ?_⟩
    with_reducible assumption
  · refine ⟨_, rfl, ?_⟩
    refine pwrCount_keeps _ _ _ _ ?_
    refine updPwr_keeps _ _ _ ?_
    with_reducible assumption

theorem execRegulatorPoll_keeps (s0 : State) (x0) (x1) (x2) (x3) (x4) (h : Keeps s0 x4) : ∃ t, execRegulatorPoll x0 x1 x2 x3 x4 = .next t ∧ Keeps s0 t := by
  unfold execRegulatorPoll
  refine Keeps.iteN ?_ ?_
  · refine ⟨_, rfl, ?_⟩
    with_reducible assumption
  · refine ⟨_, rfl, ?_⟩
    refine pwrCount_keeps _ _ _ _ ?_
    refine updPwr_keeps _ _ _ ?_
    with_reducible assumption

theorem execGovernorPlan_keeps (s0 : State) (x0) (h : Keeps s0 x0) : ∃ t, execGovernorPlan x0 = .next t ∧ Keeps s0 t := by
  unfold execGovernorPlan
  refine Keeps.iteN ?_ ?_
  · refine ⟨_, rfl, ?_⟩
    with_reducible assumption
  · refine ⟨_, rfl, ?_⟩
    refine Keeps.ite0 ?_ ?_
    · refine pwrCount_keeps _ _ _ _ ?_
      refine Keeps.ite0 ?_ ?_
      · refine pwrCount_keeps _ _ _ _ ?_
        refine updPwr_keeps _ _ _ ?_
        refine Keeps.ite0 ?_ ?_
        · refine State.draw_keeps _ _ ?_
          with_reducible assumption
        · with_reducible assumption
      · refine updPwr_keeps _ _ _ ?_
        refine Keeps.ite0 ?_ ?_
        · refine State.draw_keeps _ _ ?_
          with_reducible assumption
        · with_reducible assumption
    · refine Keeps.ite0 ?_ ?_
      · refine pwrCount_keeps _ _ _ _ ?_
        refine Keeps.ite0 ?_ ?_
        · refine pwrCount_keeps _ _ _ _ ?_
          refine updPwr_keeps _ _ _ ?_
          refine Keeps.ite0 ?_ ?_
          · refine State.draw_keeps _ _ ?_
            with_reducible assumption
          · with_reducible assumption
        · refine updPwr_keeps _ _ _ ?_
          refine Keeps.ite0 ?_ ?_
          · refine State.draw_keeps _ _ ?_
            with_reducible assumption
          · with_reducible assumption
      · refine Keeps.ite0 ?_ ?_
        · refine pwrCount_keeps _ _ _ _ ?_
          refine updPwr_keeps _ _ _ ?_
          refine Keeps.ite0 ?_ ?_
          · refine State.draw_keeps _ _ ?_
            with_reducible assumption
          · with_reducible assumption
        · refine updPwr_keeps _ _ _ ?_
          refine Keeps.ite0 ?_ ?_
          · refine State.draw_keeps _ _ ?_
            with_reducible assumption
          · with_reducible assumption

theorem execEpochBoundary_keeps (s0 : State) (x0) (h : Keeps s0 x0) : ∃ t, execEpochBoundary x0 = .next t ∧ Keeps s0 t := by
  unfold execEpochBoundary
  refine Keeps.iteN ?_ ?_
  · refine ⟨_, rfl, ?_⟩
    with_reducible assumption
  · refine ⟨_, rfl, ?_⟩
    refine updPwr_keeps _ _ _ ?_
    refine epochPlates_keeps _ _ _ ?_
    refine updPwr_keeps _ _ _ ?_
    refine Keeps.upd ?_ rfl
    with_reducible assumption

theorem execPmbusTargetRead_keeps (s0 : State) (x0) (x1) (h : Keeps s0 x1) : ∃ t, execPmbusTargetRead x0 x1 = .next t ∧ Keeps s0 t := by
  unfold execPmbusTargetRead
  refine Keeps.iteN ?_ ?_
  · refine ⟨_, rfl, ?_⟩
    refine emit_keeps _ _ _ ?_
    with_reducible assumption
  · refine Keeps.iteN ?_ ?_
    · refine ⟨_, rfl, ?_⟩
      refine emit_keeps _ _ _ ?_
      with_reducible assumption
    · refine ⟨_, rfl, ?_⟩
      with_reducible assumption

theorem mctpAnswer_keeps (s0 : State) (x0) (x1) (h : Keeps s0 x0) : Keeps s0 ((mctpAnswer x0 x1).2) := by
  unfold mctpAnswer
  refine Keeps.of1 ?_
  extract_lets b head head2 id v
  refine Keeps1.ite ?_ ?_
  · split <;> first | exact h | exact Keeps1.mk (updPwr_keeps _ _ _ h)
  · refine Keeps1.ite ?_ h
    refine Keeps1.ite h (Keeps1.ite (Keeps1.mk (State.drawBytes_keeps _ _ _ h)) (Keeps1.ite h (Keeps1.ite h (Keeps1.ite h h))))

theorem execMctpMessage_keeps (s0 : State) (x0) (x1) (h : Keeps s0 x1) : ∃ t, execMctpMessage x0 x1 = .next t ∧ Keeps s0 t := by
  unfold execMctpMessage
  split
  · refine ⟨_, rfl, ?_⟩
    refine emit_keeps _ _ _ ?_
    (rename_i hq; refine Keeps.of_eq (congrArg (fun z => z.2) hq) ?_)
    refine mctpAnswer_keeps _ _ _ ?_
    with_reducible assumption
  · refine ⟨_, rfl, ?_⟩
    (rename_i hq; refine Keeps.of_eq (congrArg (fun z => z.2) hq) ?_)
    refine mctpAnswer_keeps _ _ _ ?_
    with_reducible assumption

/-! ### Cells -/

theorem execCellConfig_keeps (s0 : State) (x0) (x1) (h : Keeps s0 x1) : ∃ t, execCellConfig x0 x1 = .next t ∧ Keeps s0 t := by
  unfold execCellConfig
  refine runCmd_keeps _ _ _ _ _ _ ?_ ?_
  · with_reducible assumption
  · intro v78_0 v78_1
    refine Keeps.of2 ?_
    refine Keeps2.ite ?_ ?_
    · refine Keeps2.of ?_
      refine refuse_keeps _ _ _ ?_
      with_reducible assumption
    · refine Keeps2.ite ?_ ?_
      · refine Keeps2.of ?_
        refine refuse_keeps _ _ _ ?_
        with_reducible assumption
      · refine Keeps2.ite ?_ ?_
        · refine Keeps2.of ?_
          refine refuse_keeps _ _ _ ?_
          with_reducible assumption
        · refine Keeps2.ite ?_ ?_
          · refine Keeps2.of ?_
            refine refuse_keeps _ _ _ ?_
            with_reducible assumption
          · refine Keeps2.of ?_
            refine done_keeps _ _ ?_
            refine updCell_keeps _ _ _ _ ?_
            with_reducible assumption

theorem scheduleChange_keeps (s0 : State) (x0) (x1) (x2) (x3) (x4) (x5) (x6) (h : Keeps s0 x6) : Keeps s0 (((scheduleChange x0 x1 x2 x3 x4 x5 x6).2).2) := by
  unfold scheduleChange
  refine Keeps.of2 ?_
  refine Keeps2.ite ?_ ?_
  · refine Keeps2.of ?_
    refine refuse_keeps _ _ _ ?_
    with_reducible assumption
  · refine Keeps2.ite ?_ ?_
    · refine Keeps2.of ?_
      refine refuse_keeps _ _ _ ?_
      with_reducible assumption
    · refine Keeps2.ite ?_ ?_
      · refine Keeps2.of ?_
        refine refuse_keeps _ _ _ ?_
        with_reducible assumption
      · refine Keeps2.ite ?_ ?_
        · refine Keeps2.of ?_
          refine refuse_keeps _ _ _ ?_
          with_reducible assumption
        · refine Keeps2.mk ?_
          refine Keeps1.mk ?_
          refine updCell_keeps _ _ _ _ ?_
          with_reducible assumption

theorem execCellStart_keeps (s0 : State) (x0) (x1) (h : Keeps s0 x1) : ∃ t, execCellStart x0 x1 = .next t ∧ Keeps s0 t := by
  unfold execCellStart
  refine runCmd_keeps _ _ _ _ _ _ ?_ ?_
  · with_reducible assumption
  · intro v78_0 v78_1
    refine scheduleChange_keeps _ _ _ _ _ _ _ _ ?_
    with_reducible assumption

theorem execCellStop_keeps (s0 : State) (x0) (x1) (h : Keeps s0 x1) : ∃ t, execCellStop x0 x1 = .next t ∧ Keeps s0 t := by
  unfold execCellStop
  refine runCmd_keeps _ _ _ _ _ _ ?_ ?_
  · with_reducible assumption
  · intro v78_0 v78_1
    refine Keeps.of2 ?_
    refine Keeps2.ite ?_ ?_
    · refine Keeps2.of ?_
      refine refuse_keeps _ _ _ ?_
      with_reducible assumption
    · refine Keeps2.of ?_
      refine scheduleChange_keeps _ _ _ _ _ _ _ _ ?_
      with_reducible assumption

theorem execCellShadow_keeps (s0 : State) (x0) (x1) (h : Keeps s0 x1) : ∃ t, execCellShadow x0 x1 = .next t ∧ Keeps s0 t := by
  unfold execCellShadow
  refine runCmd_keeps _ _ _ _ _ _ ?_ ?_
  · with_reducible assumption
  · intro v78_0 v78_1
    refine Keeps.of2 ?_
    refine Keeps2.ite ?_ ?_
    · refine Keeps2.of ?_
      refine refuse_keeps _ _ _ ?_
      with_reducible assumption
    · refine Keeps2.of ?_
      refine scheduleChange_keeps _ _ _ _ _ _ _ _ ?_
      with_reducible assumption

theorem execCellTakeover_keeps (s0 : State) (x0) (x1) (h : Keeps s0 x1) : ∃ t, execCellTakeover x0 x1 = .next t ∧ Keeps s0 t := by
  unfold execCellTakeover
  refine runCmd_keeps _ _ _ _ _ _ ?_ ?_
  · with_reducible assumption
  · intro v78_0 v78_1
    refine scheduleChange_keeps _ _ _ _ _ _ _ _ ?_
    with_reducible assumption

theorem execCellQuery_keeps (s0 : State) (x0) (x1) (h : Keeps s0 x1) : ∃ t, execCellQuery x0 x1 = .next t ∧ Keeps s0 t := by
  unfold execCellQuery
  refine runCmd_keeps _ _ _ _ _ _ ?_ ?_
  · with_reducible assumption
  · intro v78_0 v78_1
    refine Keeps.of2 ?_
    refine Keeps2.ite ?_ ?_
    · refine Keeps2.of ?_
      refine refuse_keeps _ _ _ ?_
      with_reducible assumption
    · refine Keeps2.mk ?_
      refine Keeps1.mk ?_
      with_reducible assumption

theorem changeCell_keeps (s0 : State) (x0) (x1) (x2) (x3) (h : Keeps s0 x3) : Keeps s0 (changeCell x0 x1 x2 x3) := by
  unfold changeCell
  refine updCell_keeps _ _ _ _ ?_
  refine Keeps.upd ?_ rfl
  with_reducible assumption

theorem execCellStateChange_keeps (s0 : State) (x0) (x1) (h : Keeps s0 x1) : ∃ t, execCellStateChange x0 x1 = .next t ∧ Keeps s0 t := by
  unfold execCellStateChange
  split
  · refine ⟨_, rfl, ?_⟩
    refine Keeps.ite0 ?_ ?_
    · refine changeCell_keeps _ _ _ _ _ ?_
      with_reducible assumption
    · with_reducible assumption
  · refine ⟨_, rfl, ?_⟩
    with_reducible assumption

theorem fenceCell_keeps (s0 : State) (x0) (x1) (h : Keeps s0 x1) : Keeps s0 (fenceCell x0 x1) := by
  unfold fenceCell
  refine updCell_keeps _ _ _ _ ?_
  with_reducible assumption

theorem fenceCells_keeps (s0 : State) (x0) (h : Keeps s0 x0) : Keeps s0 (fenceCells x0) := by
  unfold fenceCells
  refine Keeps.foldl0 ?_ ?_
  · intro v78_0 v78_1 v78_2
    refine fenceCell_keeps _ _ _ ?_
    with_reducible assumption
  · with_reducible assumption

/-! ### FhOps -/

theorem openSymbol_keeps (s0 : State) (x0) (x1) (x2) (x3) (h : Keeps s0 x3) : Keeps s0 (openSymbol x0 x1 x2 x3) := by
  unfold openSymbol
  refine Keeps.ite0 ?_ ?_
  · with_reducible assumption
  · refine updStream_keeps _ _ _ _ ?_
    refine memClear_keeps _ _ _ _ ?_
    with_reducible assumption

theorem landSection_keeps (s0 : State) (x0) (x1) (x2) (x3) (x4) (h : Keeps s0 x4) : Keeps s0 (landSection x0 x1 x2 x3 x4) := by
  unfold landSection
  refine streamCount_keeps _ _ _ _ ?_
  refine updStream_keeps _ _ _ _ ?_
  refine portCountBy_keeps _ _ _ _ _ ?_
  refine memWriteFor_keeps _ _ _ _ _ ?_
  refine openSymbol_keeps _ _ _ _ _ ?_
  with_reducible assumption

theorem sendControl_keeps (s0 : State) (x0) (x1) (x2) (x3) (x4) (h : Keeps s0 x4) : Keeps s0 (sendControl x0 x1 x2 x3 x4) := by
  unfold sendControl
  refine routePacket_keeps _ _ _ _ _ _ ?_
  with_reducible assumption

theorem sendEcho_keeps (s0 : State) (x0) (x1) (h : Keeps s0 x1) : Keeps s0 (sendEcho x0 x1) := by
  unfold sendEcho
  refine Keeps.ite0 ?_ ?_
  · refine sendControl_keeps _ _ _ _ _ _ ?_
    with_reducible assumption
  · with_reducible assumption

theorem queueMirror_keeps (s0 : State) (x0) (x1) (x2) (x3) (h : Keeps s0 x3) : Keeps s0 (queueMirror x0 x1 x2 x3) := by
  induction x1 generalizing x2 x3 with
  | zero => exact h
  | succ k ih =>
    cases x2 with
    | nil => exact h
    | cons b bs => exact ih _ _ (updCell_keeps _ _ _ _ (updRad_keeps _ _ _ h))

theorem Keeps.getD {s x : State} {o : Option State} (ho : ∀ t, o = some t → Keeps s t) (h : Keeps s x) : Keeps s (o.getD x) := by
  cases o with
  | none => exact h
  | some t => exact ho _ rfl

theorem mirrorPieces_keeps (s0 : State) (x0) (x1) (x2) (x3) (h : Keeps s0 x3) : Keeps s0 (mirrorPieces x0 x1 x2 x3) := by
  unfold mirrorPieces
  refine pumpMirror_keeps _ _ _ ?_
  refine queueMirror_keeps _ _ _ _ _ ?_
  with_reducible assumption

theorem sendMirror_keeps (s0 : State) (x0) (x1) (x2) (x3) (x4) (h : Keeps s0 x4) : Keeps s0 (sendMirror x0 x1 x2 x3 x4) := by
  unfold sendMirror
  refine Keeps.ite0 ?_ ?_
  · with_reducible assumption
  · refine mirrorPieces_keeps _ _ _ _ _ ?_
    refine updCell_keeps _ _ _ _ ?_
    with_reducible assumption

theorem sendMeta_keeps (s0 : State) (x0) (x1) (x2) (h : Keeps s0 x2) : Keeps s0 (sendMeta x0 x1 x2) := by
  unfold sendMeta
  refine Keeps.ite0 ?_ ?_
  · with_reducible assumption
  · refine mirrorPieces_keeps _ _ _ _ _ ?_
    with_reducible assumption

theorem frameGone_keeps (s0 : State) (x0) (x1) (x2) (h : Keeps s0 x2) : Keeps s0 (frameGone x0 x1 x2) := by
  unfold frameGone
  split
  · with_reducible assumption
  · refine Keeps.ite0 ?_ ?_
    · refine retireFor_keeps _ _ _ _ _ _ ?_
      refine updRad_keeps _ _ _ ?_
      with_reducible assumption
    · refine updRad_keeps _ _ _ ?_
      with_reducible assumption

theorem takeFrameOut_keeps (s0 : State) (x0) (x1) (x2) (h : Keeps s0 x2) : Keeps s0 (takeFrameOut x0 x1 x2) := by
  unfold takeFrameOut
  refine updFhPort_keeps _ _ _ _ ?_
  with_reducible assumption

theorem fenceFrames_keeps (s0 : State) (x0) (x1) (h : Keeps s0 x1) : Keeps s0 (fenceFrames x0 x1) := by
  unfold fenceFrames
  refine Keeps.foldl0 ?_ ?_
  · intro v78_0 v78_1 v78_2
    refine Keeps.foldl0 ?_ ?_
    · intro v76_0 v76_1 v76_2
      refine Keeps.ite0 ?_ ?_
      · refine frameGone_keeps _ _ _ _ ?_
        refine portCount_keeps _ _ _ _ ?_
        refine takeFrameOut_keeps _ _ _ _ ?_
        with_reducible assumption
      · with_reducible assumption
    · with_reducible assumption
  · with_reducible assumption

theorem fenceFronthaul_keeps (s0 : State) (x0) (h : Keeps s0 x0) : Keeps s0 (fenceFronthaul x0) := by
  unfold fenceFronthaul
  refine updRad_keeps _ _ _ ?_
  refine fenceFrames_keeps _ _ _ ?_
  with_reducible assumption

end Sys2Proof.Machine
end

