-- ==== Sys2Proof/Laws/Keeps08.lean ====
section
/-!
SUPPORT. What every operation keeps (`Keeps`), operation by operation: Baseband, Fronthaul, Coll, Lease.
-/
namespace Sys2Proof.Machine
open Sys2Proof

/-! ### Baseband -/

theorem readSoft_keeps (s0 : State) (x0) (x1) (x2) (x3) (h : Keeps s0 x3) : Keeps s0 ((((readSoft x0 x1 x2 x3).2).2).2) := by
  unfold readSoft
  refine Keeps.of3 ?_
  refine Keeps3.mk ?_
  refine Keeps2.mk ?_
  refine Keeps1.mk ?_
  refine memRead_keeps _ _ _ _ _ ?_
  with_reducible assumption

theorem writeSoft_keeps (s0 : State) (x0) (x1) (x2) (x3) (x4) (x5) (h : Keeps s0 x5) : Keeps s0 (writeSoft x0 x1 x2 x3 x4 x5) := by
  unfold writeSoft
  refine memWriteP_keeps _ _ _ _ _ ?_
  refine stall_keeps _ _ _ _ _ ?_
  with_reducible assumption

theorem updBlock_keeps (s0 : State) (x0) (x1) (x2) (x3) (h : Keeps s0 x3) : Keeps s0 (updBlock x0 x1 x2 x3) := by
  unfold updBlock
  refine updRad_keeps _ _ _ ?_
  with_reducible assumption

theorem dispatchBlocks_keeps (s0 : State) (x0) (x1) (h : Keeps s0 x1) : Keeps s0 (dispatchBlocks x0 x1) := by
  induction x0 generalizing x1 with
  | zero => exact h
  | succ n ih =>
    unfold dispatchBlocks
    extract_lets busy
    split
    · exact ih _ (updBlock_keeps _ _ _ _ _ h)
    · exact h

theorem writeEntry_keeps (s0 : State) (x0) (x1) (x2) (x3) (x4) (x5) (x6) (h : Keeps s0 x6) : Keeps s0 (writeEntry x0 x1 x2 x3 x4 x5 x6) := by
  unfold writeEntry
  refine memWriteFor_keeps _ _ _ _ _ ?_
  with_reducible assumption

theorem combineBlocks_keeps (s0 : State) (x0) (x1) (x2) (x3) (x4) (x5) (x6) (h : Keeps s0 ((x6).2).2) : Keeps s0 (((combineBlocks x0 x1 x2 x3 x4 x5 x6).2).2) := by
  refine Keeps.of2 ?_
  induction x5 generalizing x6 with
  | nil => exact h
  | cons e r ih =>
    obtain ⟨a, b, c⟩ := e
    unfold combineBlocks
    extract_lets s rx llr old soft cols pois st'
    refine ih _ ?_
    have h1 : Keeps s0 rx.2 := memRead_keeps _ _ _ _ _ h
    have h2 : Keeps3 s0 old := Keeps3.ite h1 (readSoft_keeps _ _ _ _ _ h1)
    exact Keeps.ite0 h2 (writeSoft_keeps _ _ _ _ _ _ _ h2)

theorem openBits_keeps (s0 : State) (x0) (x1) (h : Keeps s0 x1) : Keeps s0 ((openBits x0 x1).2) := by
  unfold openBits
  refine Keeps.of1 ?_
  refine Keeps1.mk ?_
  refine State.drawBytes_keeps _ _ _ ?_
  with_reducible assumption

theorem newBlocks_keeps (s0 : State) (x0) (x1) (x2) (x3) (h : Keeps s0 x3) : Keeps s0 ((newBlocks x0 x1 x2 x3).2) := by
  refine Keeps.of1 ?_
  induction x2 generalizing x3 with
  | nil => exact h
  | cons r rest ih =>
    unfold newBlocks
    exact Keeps1.mk (ih _ (Keeps1.ite (Keeps1.mk h) (openBits_keeps _ _ _ h)))

theorem endDecode_keeps (s0 : State) (x0) (x1) (h : Keeps s0 x1) : Keeps s0 (endDecode x0 x1) := by
  unfold endDecode
  split
  · with_reducible assumption
  · refine retireFor_keeps _ _ _ _ _ _ ?_
    refine deliverUplink_keeps _ _ _ _ ?_
    refine updRad_keeps _ _ _ ?_
    with_reducible assumption

theorem refuseJob_keeps (s0 : State) (x0) (x1) (x2) (x3) (h : Keeps s0 x3) : Keeps s0 (refuseJob x0 x1 x2 x3) := by
  unfold refuseJob
  refine settleCell_keeps _ _ _ ?_
  refine retireFor_keeps _ _ _ _ _ _ ?_
  with_reducible assumption

theorem takeDecode_keeps (s0 : State) (x0) (x1) (x2) (x3) (x4) (h : Keeps s0 x4) : Keeps s0 (takeDecode x0 x1 x2 x3 x4) := by
  unfold takeDecode
  refine endDecode_keeps _ _ _ ?_
  refine dispatchBlocks_keeps _ _ _ ?_
  refine updRad_keeps _ _ _ ?_
  refine newBlocks_keeps _ _ _ _ _ ?_
  refine Keeps.ite0 ?_ ?_
  · refine combineBlocks_keeps _ _ _ _ _ _ _ _ ?_
    refine Keeps.of2 ?_
    refine Keeps2.mk ?_
    refine Keeps1.mk ?_
    refine Keeps.ite0 ?_ ?_
    · refine Keeps.foldl0 ?_ ?_
      · intro v68_0 v68_1 v68_2
        refine writeSoft_keeps _ _ _ _ _ _ _ ?_
        with_reducible assumption
      · refine updRad_keeps _ _ _ ?_
        refine updCell_keeps _ _ _ _ ?_
        with_reducible assumption
    · refine updRad_keeps _ _ _ ?_
      refine updCell_keeps _ _ _ _ ?_
      with_reducible assumption
  · refine writeEntry_keeps _ _ _ _ _ _ _ _ ?_
    refine combineBlocks_keeps _ _ _ _ _ _ _ _ ?_
    refine Keeps.of2 ?_
    refine Keeps2.mk ?_
    refine Keeps1.mk ?_
    refine Keeps.ite0 ?_ ?_
    · refine Keeps.foldl0 ?_ ?_
      · intro v67_0 v67_1 v67_2
        refine writeSoft_keeps _ _ _ _ _ _ _ ?_
        with_reducible assumption
      · refine updRad_keeps _ _ _ ?_
        refine updCell_keeps _ _ _ _ ?_
        with_reducible assumption
    · refine updRad_keeps _ _ _ ?_
      refine updCell_keeps _ _ _ _ ?_
      with_reducible assumption

theorem execLdpcDecodeJob_keeps (s0 : State) (x0) (h : Keeps s0 x0) : ∃ t, execLdpcDecodeJob x0 = .next t ∧ Keeps s0 t := by
  unfold execLdpcDecodeJob
  split
  · refine ⟨_, rfl, ?_⟩
    with_reducible assumption
  · (dsimp only; split)
    · refine ⟨_, rfl, ?_⟩
      refine refuseJob_keeps _ _ _ _ _ ?_
      refine popJob_keeps _ _ _ ?_
      with_reducible assumption
    · split
      · refine ⟨_, rfl, ?_⟩
        refine refuseJob_keeps _ _ _ _ _ ?_
        refine popJob_keeps _ _ _ ?_
        with_reducible assumption
      · refine ⟨_, rfl, ?_⟩
        refine Keeps.ite0 ?_ ?_
        · refine takeDecode_keeps _ _ _ _ _ _ ?_
          refine popJob_keeps _ _ _ ?_
          with_reducible assumption
        · refine refuseJob_keeps _ _ _ _ _ ?_
          refine popJob_keeps _ _ _ ?_
          with_reducible assumption

theorem execCodeBlockDecoded_keeps (s0 : State) (x0) (x1) (h : Keeps s0 x1) : ∃ t, execCodeBlockDecoded x0 x1 = .next t ∧ Keeps s0 t := by
  unfold execCodeBlockDecoded
  split
  · refine ⟨_, rfl, ?_⟩
    with_reducible assumption
  · refine ⟨_, rfl, ?_⟩
    refine endDecode_keeps _ _ _ ?_
    refine dispatchBlocks_keeps _ _ _ ?_
    refine updBlock_keeps _ _ _ _ _ ?_
    with_reducible assumption

theorem updPoolJob_keeps (s0 : State) (x0) (x1 : Sys2Proof.Machine.PoolJob → Sys2Proof.Machine.PoolJob) (x2) (h : Keeps s0 x2) : Keeps s0 (updPoolJob x0 x1 x2) := by
  unfold updPoolJob
  refine updRad_keeps _ _ _ ?_
  with_reducible assumption

theorem dispatchUnits_keeps (s0 : State) (x0) (x1) (x2) (h : Keeps s0 x2) : Keeps s0 (dispatchUnits x0 x1 x2) := by
  induction x1 generalizing x2 with
  | zero => exact h
  | succ n ih =>
    unfold dispatchUnits
    split
    · exact ih _ (updRad_keeps _ _ _ (updPoolJob_keeps _ _ _ _ h))
    · exact h

theorem joinPool_keeps (s0 : State) (x0) (x1) (x2) (x3) (x4) (x5) (h : Keeps s0 x5) : Keeps s0 (joinPool x0 x1 x2 x3 x4 x5) := by
  unfold joinPool
  refine dispatchUnits_keeps _ _ _ _ ?_
  refine updRad_keeps _ _ _ ?_
  with_reducible assumption

theorem unitJob_keeps (s0 : State) (x0) (x1) (x2 : Sys2Proof.Machine.FxJob → Bool) (x3 : Sys2Proof.Machine.FxJob → Sys2Proof.Machine.State → Nat × Nat × Sys2Proof.Machine.State) (x4) (h : Keeps s0 x4) (hx3 : ∀ y0 y1, Keeps s0 y1 → Keeps s0 ((x3 y0 y1).2).2) : ∃ t, unitJob x0 x1 x2 x3 x4 = .next t ∧ Keeps s0 t := by
  unfold unitJob
  split
  · refine Keeps.iteN ?_ ?_
    · refine ⟨_, rfl, ?_⟩
      with_reducible assumption
    · refine ⟨_, rfl, ?_⟩
      refine joinPool_keeps _ _ _ _ _ _ _ ?_
      refine settleCell_keeps _ _ _ ?_
      refine hx3 _ _ ?_
      refine popJob_keeps _ _ _ ?_
      with_reducible assumption
  · refine ⟨_, rfl, ?_⟩
    with_reducible assumption

theorem blockDone_keeps (s0 : State) (x0) (x1) (h : Keeps s0 x1) : Keeps s0 (blockDone x0 x1) := by
  unfold blockDone
  split
  · with_reducible assumption
  · refine Keeps.ite0 ?_ ?_
    · refine retireFor_keeps _ _ _ _ _ _ ?_
      refine updRad_keeps _ _ _ ?_
      with_reducible assumption
    · refine updPoolJob_keeps _ _ _ _ ?_
      with_reducible assumption

theorem execFixedFunctionJobDone_keeps (s0 : State) (x0) (x1) (x2) (h : Keeps s0 x2) : ∃ t, execFixedFunctionJobDone x0 x1 x2 = .next t ∧ Keeps s0 t := by
  unfold execFixedFunctionJobDone
  extract_lets
  split
  · refine ⟨_, rfl, ?_⟩
    with_reducible assumption
  · refine ⟨_, rfl, ?_⟩
    refine dispatchUnits_keeps _ _ _ _ ?_
    refine blockDone_keeps _ _ _ ?_
    refine updRad_keeps _ _ _ ?_
    with_reducible assumption

theorem failPdsch_keeps (s0 : State) (x0) (x1) (x2) (x3) (h : Keeps s0 x3) : Keeps s0 ((failPdsch x0 x1 x2 x3).2).2 := by
  unfold failPdsch
  refine Keeps.of2 ?_
  refine Keeps2.mk ?_
  refine Keeps1.mk ?_
  refine Keeps.ite0 ?_ ?_
  · refine memWriteFor_keeps _ _ _ _ _ ?_
    refine updCell_keeps _ _ _ _ ?_
    with_reducible assumption
  · refine updCell_keeps _ _ _ _ ?_
    with_reducible assumption

theorem encodeEffect_keeps (s0 : State) (x0) (x1) (h : Keeps s0 x1) : Keeps s0 ((encodeEffect x0 x1).2).2 := by
  unfold encodeEffect
  refine Keeps.of2 ?_
  extract_lets
  split
  · split
    · refine Keeps2.of ?_
      refine failPdsch_keeps _ _ _ _ _ ?_
      with_reducible assumption
    · refine Keeps2.ite ?_ ?_
      · refine Keeps2.of ?_
        refine failPdsch_keeps _ _ _ _ _ ?_
        with_reducible assumption
      · refine Keeps2.ite ?_ ?_
        · refine Keeps2.of ?_
          refine failPdsch_keeps _ _ _ _ _ ?_
          refine Keeps.of1 ?_
          refine Keeps1.mk ?_
          refine Keeps.of1 ?_
          refine Keeps1.ite ?_ ?_
          · refine Keeps1.mk ?_
            refine memRead_keeps _ _ _ _ _ ?_
            with_reducible assumption
          · refine Keeps1.of ?_
            refine memRead_keeps _ _ _ _ _ ?_
            refine memRead_keeps _ _ _ _ _ ?_
            with_reducible assumption
        · refine Keeps2.mk ?_
          refine Keeps1.mk ?_
          refine memWriteFor_keeps _ _ _ _ _ ?_
          refine Keeps.of1 ?_
          refine Keeps1.mk ?_
          refine Keeps.of1 ?_
          refine Keeps1.ite ?_ ?_
          · refine Keeps1.mk ?_
            refine memRead_keeps _ _ _ _ _ ?_
            with_reducible assumption
          · refine Keeps1.of ?_
            refine memRead_keeps _ _ _ _ _ ?_
            refine memRead_keeps _ _ _ _ _ ?_
            with_reducible assumption
  · refine Keeps2.mk ?_
    refine Keeps1.mk ?_
    refine updCell_keeps _ _ _ _ ?_
    with_reducible assumption

theorem execLdpcEncodeJob_keeps (s0 : State) (x0) (h : Keeps s0 x0) : ∃ t, execLdpcEncodeJob x0 = .next t ∧ Keeps s0 t := by
  unfold execLdpcEncodeJob
  refine unitJob_keeps _ _ _ _ _ _ ?_ ?_
  · with_reducible assumption
  · intro v117_0 v117_1 v117_2
    refine Keeps.of2 ?_
    refine Keeps2.ite ?_ ?_
    · refine Keeps2.of ?_
      refine encodeEffect_keeps _ _ _ ?_
      with_reducible assumption
    · refine Keeps2.mk ?_
      refine Keeps1.mk ?_
      with_reducible assumption

theorem sideEffect_keeps (s0 : State) (x0) (x1) (h : Keeps s0 x1) : Keeps s0 ((sideEffect x0 x1).2).2 := by
  unfold sideEffect
  refine Keeps.of2 ?_
  split
  · refine Keeps2.mk ?_
    refine Keeps1.mk ?_
    with_reducible assumption
  · refine Keeps2.ite ?_ ?_
    · refine Keeps2.mk ?_
      refine Keeps1.mk ?_
      with_reducible assumption
    · refine Keeps2.mk ?_
      refine Keeps1.mk ?_
      refine memWriteP_keeps _ _ _ _ _ ?_
      refine stall_keeps _ _ _ _ _ ?_
      refine memRead_keeps _ _ _ _ _ ?_
      with_reducible assumption

theorem execSideJob_keeps (s0 : State) (x0) (h : Keeps s0 x0) : ∃ t, execSideJob x0 = .next t ∧ Keeps s0 t := by
  unfold execSideJob
  refine unitJob_keeps _ _ _ _ _ _ ?_ ?_
  · with_reducible assumption
  · intro v78_0 v78_1 v78_2
    refine sideEffect_keeps _ _ _ ?_
    with_reducible assumption

theorem deliverRecord_keeps (s0 : State) (x0) (x1) (x2) (x3) (x4) (x5) (x6) (h : Keeps s0 x6) : Keeps s0 (deliverRecord x0 x1 x2 x3 x4 x5 x6).2 := by
  unfold deliverRecord
  refine Keeps.of1 ?_
  refine Keeps1.mk ?_
  refine deliverUplink_keeps _ _ _ _ ?_
  with_reducible assumption

theorem polarEffect_keeps (s0 : State) (x0) (x1) (h : Keeps s0 x1) : Keeps s0 ((polarEffect x0 x1).2).2 := by
  unfold polarEffect
  refine Keeps.of2 ?_
  refine Keeps2.ite ?_ ?_
  · refine Keeps2.ite ?_ ?_
    · refine Keeps2.mk ?_
      refine Keeps1.mk ?_
      with_reducible assumption
    · refine Keeps2.mk ?_
      refine Keeps1.mk ?_
      refine memWriteP_keeps _ _ _ _ _ ?_
      refine stall_keeps _ _ _ _ _ ?_
      refine memRead_keeps _ _ _ _ _ ?_
      with_reducible assumption
  · refine Keeps2.ite ?_ ?_
    · refine Keeps2.mk ?_
      refine Keeps1.of ?_
      refine deliverRecord_keeps _ _ _ _ _ _ _ _ ?_
      refine memRead_keeps _ _ _ _ _ ?_
      with_reducible assumption
    · refine Keeps2.ite ?_ ?_
      · refine Keeps2.mk ?_
        refine Keeps1.of ?_
        refine deliverRecord_keeps _ _ _ _ _ _ _ _ ?_
        refine memRead_keeps _ _ _ _ _ ?_
        with_reducible assumption
      · refine Keeps2.mk ?_
        refine Keeps1.mk ?_
        with_reducible assumption

theorem execPolarJob_keeps (s0 : State) (x0) (h : Keeps s0 x0) : ∃ t, execPolarJob x0 = .next t ∧ Keeps s0 t := by
  unfold execPolarJob
  refine unitJob_keeps _ _ _ _ _ _ ?_ ?_
  · with_reducible assumption
  · intro v78_0 v78_1 v78_2
    refine polarEffect_keeps _ _ _ ?_
    with_reducible assumption

theorem detectionEntry_keeps (s0 : State) (x0) (x1) (x2) (x3) (x4) (h : Keeps s0 x4) : Keeps s0 ((detectionEntry x0 x1 x2 x3 x4).2) := by
  unfold detectionEntry
  refine Keeps.of1 ?_
  refine Keeps1.mk ?_
  refine Keeps.of1 ?_
  refine Keeps1.ite ?_ ?_
  · refine Keeps1.mk ?_
    refine State.draw_keeps _ _ ?_
    with_reducible assumption
  · refine Keeps1.mk ?_
    with_reducible assumption

theorem prachRecord_keeps (s0 : State) (x0) (x1) (x2) (x3) (x4) (x5) (h : Keeps s0 x5) : Keeps s0 ((prachRecord x0 x1 x2 x3 x4 x5).2) := by
  unfold prachRecord
  refine Keeps.of1 ?_
  refine Keeps1.mk ?_
  refine Keeps.of1 ?_
  refine Keeps.foldl1 ?_ ?_
  · intro v75_0 v75_1 v75_2
    refine Keeps.of1 ?_
    refine Keeps1.mk ?_
    refine detectionEntry_keeps _ _ _ _ _ _ ?_
    with_reducible assumption
  · refine Keeps.of1 ?_
    refine Keeps1.mk ?_
    with_reducible assumption

theorem prachEffect_keeps (s0 : State) (x0) (x1) (h : Keeps s0 x1) : Keeps s0 ((prachEffect x0 x1).2).2 := by
  unfold prachEffect
  refine Keeps.of2 ?_
  refine Keeps2.ite ?_ ?_
  · refine Keeps2.mk ?_
    refine Keeps1.mk ?_
    with_reducible assumption
  · refine Keeps2.mk ?_
    refine Keeps1.mk ?_
    refine deliverUplink_keeps _ _ _ _ ?_
    refine prachRecord_keeps _ _ _ _ _ _ _ ?_
    refine Keeps.foldl2 ?_ ?_
    · intro v87 v87_b v87_h
      refine Keeps.of2 ?_
      refine Keeps2.mk ?_
      refine Keeps1.mk ?_
      refine memRead_keeps _ _ _ _ _ ?_
      with_reducible assumption
    · with_reducible assumption

theorem execPrachJob_keeps (s0 : State) (x0) (h : Keeps s0 x0) : ∃ t, execPrachJob x0 = .next t ∧ Keeps s0 t := by
  unfold execPrachJob
  refine unitJob_keeps _ _ _ _ _ _ ?_ ?_
  · with_reducible assumption
  · intro v78_0 v78_1 v78_2
    refine prachEffect_keeps _ _ _ ?_
    with_reducible assumption

/-! ### Fronthaul -/

theorem execFhPortConfig_keeps (s0 : State) (x0) (x1) (h : Keeps s0 x1) : ∃ t, execFhPortConfig x0 x1 = .next t ∧ Keeps s0 t := by
  unfold execFhPortConfig
  refine runCmd_keeps _ _ _ _ _ _ ?_ ?_
  · with_reducible assumption
  · intro v78_0 v78_1
    refine Keeps.of2 ?_
    refine Keeps2.ite ?_ ?_
    · refine Keeps2.of ?_
      refine refuse_keeps _ _ _ ?_
      with_reducible assumption
    · refine Keeps2.ite ?_ ?_
      · refine Keeps2.of ?_
        refine refuse_keeps _ _ _ ?_
        with_reducible assumption
      · refine Keeps2.of ?_
        refine done_keeps _ _ ?_
        refine updFhPort_keeps _ _ _ _ ?_
        with_reducible assumption

theorem execFhStreamConfig_keeps (s0 : State) (x0) (x1) (h : Keeps s0 x1) : ∃ t, execFhStreamConfig x0 x1 = .next t ∧ Keeps s0 t := by
  unfold execFhStreamConfig
  refine runCmd_keeps _ _ _ _ _ _ ?_ ?_
  · with_reducible assumption
  · intro v78_0 v78_1
    refine Keeps.of2 ?_
    refine Keeps2.ite ?_ ?_
    · refine Keeps2.of ?_
      refine refuse_keeps _ _ _ ?_
      with_reducible assumption
    · refine Keeps2.ite ?_ ?_
      · refine Keeps2.of ?_
        refine refuse_keeps _ _ _ ?_
        with_reducible assumption
      · refine Keeps2.ite ?_ ?_
        · refine Keeps2.of ?_
          refine refuse_keeps _ _ _ ?_
          with_reducible assumption
        · refine Keeps2.of ?_
          refine done_keeps _ _ ?_
          refine State.setPolicer_keeps _ _ _ _ ?_
          refine updStream_keeps _ _ _ _ ?_
          with_reducible assumption

theorem execFhCellTiming_keeps (s0 : State) (x0) (x1) (h : Keeps s0 x1) : ∃ t, execFhCellTiming x0 x1 = .next t ∧ Keeps s0 t := by
  unfold execFhCellTiming
  refine runCmd_keeps _ _ _ _ _ _ ?_ ?_
  · with_reducible assumption
  · intro v78_0 v78_1
    refine Keeps.of2 ?_
    refine Keeps2.ite ?_ ?_
    · refine Keeps2.of ?_
      refine refuse_keeps _ _ _ ?_
      with_reducible assumption
    · refine Keeps2.ite ?_ ?_
      · refine Keeps2.of ?_
        refine refuse_keeps _ _ _ ?_
        with_reducible assumption
      · refine Keeps2.of ?_
        refine done_keeps _ _ ?_
        refine updCell_keeps _ _ _ _ ?_
        with_reducible assumption

theorem execFhMirror_keeps (s0 : State) (x0) (x1) (h : Keeps s0 x1) : ∃ t, execFhMirror x0 x1 = .next t ∧ Keeps s0 t := by
  unfold execFhMirror
  refine runCmd_keeps _ _ _ _ _ _ ?_ ?_
  · with_reducible assumption
  · intro v78_0 v78_1
    refine Keeps.of2 ?_
    refine Keeps2.ite ?_ ?_
    · refine Keeps2.of ?_
      refine refuse_keeps _ _ _ ?_
      with_reducible assumption
    · refine Keeps2.ite ?_ ?_
      · refine Keeps2.of ?_
        refine refuse_keeps _ _ _ ?_
        with_reducible assumption
      · refine Keeps2.of ?_
        refine done_keeps _ _ ?_
        refine Keeps.ite0 ?_ ?_
        · refine sendEcho_keeps _ _ _ ?_
          refine updCell_keeps _ _ _ _ ?_
          with_reducible assumption
        · refine updCell_keeps _ _ _ _ ?_
          with_reducible assumption

theorem execFhQuery_keeps (s0 : State) (x0) (x1) (h : Keeps s0 x1) : ∃ t, execFhQuery x0 x1 = .next t ∧ Keeps s0 t := by
  unfold execFhQuery
  refine runCmd_keeps _ _ _ _ _ _ ?_ ?_
  · with_reducible assumption
  · intro v78_0 v78_1
    refine Keeps.of2 ?_
    refine Keeps2.ite ?_ ?_
    · refine Keeps2.mk ?_
      refine Keeps1.mk ?_
      with_reducible assumption
    · refine Keeps2.ite ?_ ?_
      · refine Keeps2.mk ?_
        refine Keeps1.mk ?_
        with_reducible assumption
      · refine Keeps2.of ?_
        refine refuse_keeps _ _ _ ?_
        with_reducible assumption

theorem takeSection_keeps (s0 : State) (x0) (x1) (x2) (x3) (x4) (x5) (x6) (x7) (h : Keeps s0 x7) : Keeps s0 (takeSection x0 x1 x2 x3 x4 x5 x6 x7) := by
  unfold takeSection
  refine Keeps.ite0 ?_ ?_
  · refine streamCount_keeps _ _ _ _ ?_
    with_reducible assumption
  · refine Keeps.ite0 ?_ ?_
    · refine streamCount_keeps _ _ _ _ ?_
      with_reducible assumption
    · refine Keeps.ite0 ?_ ?_
      · with_reducible assumption
      · refine Keeps.ite0 ?_ ?_
        · refine streamCount_keeps _ _ _ _ ?_
          with_reducible assumption
        · refine sendMirror_keeps _ _ _ _ _ _ ?_
          refine Keeps.ite0 ?_ ?_
          · refine capture_keeps _ _ _ _ _ _ _ _ _ _ ?_
            refine landSection_keeps _ _ _ _ _ _ ?_
            with_reducible assumption
          · refine landSection_keeps _ _ _ _ _ _ ?_
            with_reducible assumption

theorem checkSeq_keeps (s0 : State) (x0) (x1) (x2) (h : Keeps s0 x2) : Keeps s0 (checkSeq x0 x1 x2) := by
  unfold checkSeq
  refine Keeps.ite0 ?_ ?_
  · refine streamCount_keeps _ _ _ _ ?_
    refine updStream_keeps _ _ _ _ ?_
    with_reducible assumption
  · refine updStream_keeps _ _ _ _ ?_
    with_reducible assumption

theorem exceptionFrame_keeps (s0 : State) (x0) (x1) (x2) (h : Keeps s0 x2) : Keeps s0 (exceptionFrame x0 x1 x2) := by
  unfold exceptionFrame
  refine Keeps.ite0 ?_ ?_
  · refine portCount_keeps _ _ _ _ ?_
    with_reducible assumption
  · refine portCount_keeps _ _ _ _ ?_
    refine postRecord_keeps _ _ _ _ ?_
    with_reducible assumption

theorem ingress_keeps (s0 : State) (x0) (x1) (x2) (x3) (x4) (x5) (x6) (x7) (x8) (h : Keeps s0 x8) : Keeps s0 (ingress x0 x1 x2 x3 x4 x5 x6 x7 x8) := by
  unfold ingress
  refine Keeps.ite0 ?_ ?_
  · refine exceptionFrame_keeps _ _ _ _ ?_
    with_reducible assumption
  · refine Keeps.ite0 ?_ ?_
    · refine portCount_keeps _ _ _ _ ?_
      with_reducible assumption
    · split
      · refine portCount_keeps _ _ _ _ ?_
        with_reducible assumption
      · refine Keeps.ite0 ?_ ?_
        · refine portCount_keeps _ _ _ _ ?_
          with_reducible assumption
        · refine Keeps.ite0 ?_ ?_
          · refine portCount_keeps _ _ _ _ ?_
            with_reducible assumption
          · refine Keeps.ite0 ?_ ?_
            · refine streamCount_keeps _ _ _ _ ?_
              refine State.setPolicer_keeps _ _ _ _ ?_
              with_reducible assumption
            · refine Keeps.ite0 ?_ ?_
              · refine portCount_keeps _ _ _ _ ?_
                refine checkSeq_keeps _ _ _ _ ?_
                refine State.setPolicer_keeps _ _ _ _ ?_
                with_reducible assumption
              · refine Keeps.ite0 ?_ ?_
                · refine Keeps.foldl0 ?_ ?_
                  · intro v70_0 v70_1 v70_2
                    refine takeSection_keeps _ _ _ _ _ _ _ _ _ ?_
                    with_reducible assumption
                  · refine checkSeq_keeps _ _ _ _ ?_
                    refine State.setPolicer_keeps _ _ _ _ ?_
                    with_reducible assumption
                · refine portCount_keeps _ _ _ _ ?_
                  refine Keeps.foldl0 ?_ ?_
                  · intro v69_0 v69_1 v69_2
                    refine takeSection_keeps _ _ _ _ _ _ _ _ _ ?_
                    with_reducible assumption
                  · refine checkSeq_keeps _ _ _ _ ?_
                    refine State.setPolicer_keeps _ _ _ _ ?_
                    with_reducible assumption

theorem execFhFrameRx_keeps (s0 : State) (x0) (x1) (x2) (x3) (x4) (h : Keeps s0 x4) : ∃ t, execFhFrameRx x0 x1 x2 x3 x4 = .next t ∧ Keeps s0 t := by
  unfold execFhFrameRx
  refine Keeps.iteN ?_ ?_
  · refine ⟨_, rfl, ?_⟩
    with_reducible assumption
  · refine Keeps.iteN ?_ ?_
    · refine ⟨_, rfl, ?_⟩
      refine portCount_keeps _ _ _ _ ?_
      refine portCount_keeps _ _ _ _ ?_
      with_reducible assumption
    · refine Keeps.iteN ?_ ?_
      · refine ⟨_, rfl, ?_⟩
        refine portCount_keeps _ _ _ _ ?_
        refine portCount_keeps _ _ _ _ ?_
        with_reducible assumption
      · split
        · extract_lets
          split
          · refine ⟨_, rfl, ?_⟩
            refine ingress_keeps _ _ _ _ _ _ _ _ _ _ ?_
            refine portCount_keeps _ _ _ _ ?_
            with_reducible assumption
          · refine ⟨_, rfl, ?_⟩
            refine ptpReceive_keeps _ _ _ _ _ _ ?_
            refine portCount_keeps _ _ _ _ ?_
            with_reducible assumption
          · refine ⟨_, rfl, ?_⟩
            refine exceptionFrame_keeps _ _ _ _ ?_
            refine portCount_keeps _ _ _ _ ?_
            with_reducible assumption
        · extract_lets
          split
          · refine ⟨_, rfl, ?_⟩
            refine ingress_keeps _ _ _ _ _ _ _ _ _ _ ?_
            refine portCount_keeps _ _ _ _ ?_
            with_reducible assumption
          · refine ⟨_, rfl, ?_⟩
            refine ptpReceive_keeps _ _ _ _ _ _ ?_
            refine portCount_keeps _ _ _ _ ?_
            with_reducible assumption
          · refine ⟨_, rfl, ?_⟩
            refine portCount_keeps _ _ _ _ ?_
            refine portCount_keeps _ _ _ _ ?_
            with_reducible assumption

theorem execSymbolWindowOpen_keeps (s0 : State) (x0) (x1) (x2) (h : Keeps s0 x2) : ∃ t, execSymbolWindowOpen x0 x1 x2 = .next t ∧ Keeps s0 t := by
  unfold execSymbolWindowOpen
  refine Keeps.iteN ?_ ?_
  · refine ⟨_, rfl, ?_⟩
    refine Keeps.ite0 ?_ ?_
    · refine openSymbol_keeps _ _ _ _ _ ?_
      refine openSymbol_keeps _ _ _ _ _ ?_
      with_reducible assumption
    · refine openSymbol_keeps _ _ _ _ _ ?_
      with_reducible assumption
  · refine ⟨_, rfl, ?_⟩
    with_reducible assumption

theorem execSymbolClose_keeps (s0 : State) (x0) (x1) (x2) (h : Keeps s0 x2) : ∃ t, execSymbolClose x0 x1 x2 = .next t ∧ Keeps s0 t := by
  unfold execSymbolClose
  refine Keeps.iteN ?_ ?_
  · refine ⟨_, rfl, ?_⟩
    with_reducible assumption
  · split
    · (dsimp only; split)
      · refine ⟨_, rfl, ?_⟩
        refine openSymbol_keeps _ _ _ _ _ ?_
        with_reducible assumption
      · refine Keeps.iteN ?_ ?_
        · refine ⟨_, rfl, ?_⟩
          refine openSymbol_keeps _ _ _ _ _ ?_
          with_reducible assumption
        · refine ⟨_, rfl, ?_⟩
          refine sendMeta_keeps _ _ _ _ ?_
          refine retireFor_keeps _ _ _ _ _ _ ?_
          refine streamCountBy_keeps _ _ _ _ _ ?_
          refine updStream_keeps _ _ _ _ ?_
          refine openSymbol_keeps _ _ _ _ _ ?_
          with_reducible assumption
    · (dsimp only; split)
      · refine ⟨_, rfl, ?_⟩
        refine openSymbol_keeps _ _ _ _ _ ?_
        with_reducible assumption
      · refine Keeps.iteN ?_ ?_
        · refine ⟨_, rfl, ?_⟩
          refine openSymbol_keeps _ _ _ _ _ ?_
          with_reducible assumption
        · refine ⟨_, rfl, ?_⟩
          refine retireFor_keeps _ _ _ _ _ _ ?_
          refine streamCountBy_keeps _ _ _ _ _ ?_
          refine updStream_keeps _ _ _ _ ?_
          refine openSymbol_keeps _ _ _ _ _ ?_
          with_reducible assumption

theorem landMirrored_keeps (s0 : State) (x0) (x1) (x2) (x3) (x4) (h : Keeps s0 x4) : Keeps s0 (landMirrored x0 x1 x2 x3 x4) := by
  unfold landMirrored
  refine Keeps.foldl0 ?_ ?_
  · intro v78_0 v78_1 v78_2
    refine Keeps.foldl0 ?_ ?_
    · intro v76_0 v76_1 v76_2
      (dsimp only; split)
      · refine Keeps.ite0 ?_ ?_
        · refine streamCount_keeps _ _ _ _ ?_
          with_reducible assumption
        · refine Keeps.ite0 ?_ ?_
          · refine streamCount_keeps _ _ _ _ ?_
            with_reducible assumption
          · refine landSection_keeps _ _ _ _ _ _ ?_
            with_reducible assumption
      · refine landSection_keeps _ _ _ _ _ _ ?_
        with_reducible assumption
    · with_reducible assumption
  · with_reducible assumption

theorem takeMirror_keeps (s0 : State) (x0) (x1) (h : Keeps s0 x1) : Keeps s0 (takeMirror x0 x1) := by
  unfold takeMirror
  refine Keeps.ite0 ?_ ?_
  · refine updCell_keeps _ _ _ _ ?_
    with_reducible assumption
  · refine Keeps.ite0 ?_ ?_
    · refine streamCount_keeps _ _ _ _ ?_
      refine updCell_keeps _ _ _ _ ?_
      with_reducible assumption
    · refine landMirrored_keeps _ _ _ _ _ _ ?_
      refine Keeps.ite0 ?_ ?_
      · refine capture_keeps _ _ _ _ _ _ _ _ _ _ ?_
        refine updCell_keeps _ _ _ _ ?_
        refine updCell_keeps _ _ _ _ ?_
        with_reducible assumption
      · refine updCell_keeps _ _ _ _ ?_
        refine updCell_keeps _ _ _ _ ?_
        with_reducible assumption

theorem execMirrorRecordRx_keeps (s0 : State) (x0) (x1) (x2) (h : Keeps s0 x2) : ∃ t, execMirrorRecordRx x0 x1 x2 = .next t ∧ Keeps s0 t := by
  unfold execMirrorRecordRx
  refine ⟨_, rfl, ?_⟩
  refine Keeps.ite0 ?_ ?_
  · refine takeMirror_keeps _ _ _ ?_
    with_reducible assumption
  · with_reducible assumption

theorem execMirrorDeadline_keeps (s0 : State) (x0) (x1) (x2) (h : Keeps s0 x2) : ∃ t, execMirrorDeadline x0 x1 x2 = .next t ∧ Keeps s0 t := by
  unfold execMirrorDeadline
  refine ⟨_, rfl, ?_⟩
  refine Keeps.ite0 ?_ ?_
  · refine shadowGap_keeps _ _ _ _ ?_
    with_reducible assumption
  · with_reducible assumption

theorem queueFrame_keeps (s0 : State) (x0) (x1) (x2) (h : Keeps s0 x2) : Keeps s0 (queueFrame x0 x1 x2) := by
  unfold queueFrame
  refine updFhPort_keeps _ _ _ _ ?_
  with_reducible assumption

theorem nextSeq_keeps (s0 : State) (x0) (x1) (x2) (h : Keeps s0 x2) : Keeps s0 ((nextSeq x0 x1 x2).2) := by
  unfold nextSeq
  refine Keeps.of1 ?_
  refine Keeps1.ite ?_ ?_
  · refine Keeps1.mk ?_
    refine updStream_keeps _ _ _ _ ?_
    with_reducible assumption
  · refine Keeps1.mk ?_
    refine updStream_keeps _ _ _ _ ?_
    with_reducible assumption

theorem queueMessage_keeps (s0 : State) (x0) (x1) (x2) (x3) (x4) (x5) (x6) (h : Keeps s0 x6) : Keeps s0 (queueMessage x0 x1 x2 x3 x4 x5 x6) := by
  unfold queueMessage
  refine queueFrame_keeps _ _ _ _ ?_
  refine nextSeq_keeps _ _ _ _ ?_
  with_reducible assumption

theorem closeJob_keeps (s0 : State) (x0) (x1) (x2) (x3) (x4) (x5) (h : Keeps s0 x5) : Keeps s0 (closeJob x0 x1 x2 x3 x4 x5) := by
  unfold closeJob
  refine Keeps.ite0 ?_ ?_
  · refine retireFor_keeps _ _ _ _ _ _ ?_
    with_reducible assumption
  · refine updRad_keeps _ _ _ ?_
    with_reducible assumption

theorem egressUser_keeps (s0 : State) (x0) (x1) (x2) (x3) (x4) (x5) (x6) (h : Keeps s0 x6) : Keeps s0 ((egressUser x0 x1 x2 x3 x4 x5 x6).2) := by
  unfold egressUser
  refine Keeps.of1 ?_
  refine Keeps1.mk ?_
  refine Keeps.foldl0 ?_ ?_
  · intro v76_0 v76_1 v76_2
    refine queueMessage_keeps _ _ _ _ _ _ _ _ ?_
    refine Keeps.of1 ?_
    split
    · refine Keeps1.mk ?_
      with_reducible assumption
    · refine Keeps1.mk ?_
      refine State.draw_keeps _ _ ?_
      with_reducible assumption
  · refine memRead_keeps _ _ _ _ _ ?_
    with_reducible assumption

theorem keepSection_keeps (s0 : State) (x0) (x1) (x2) (x3) (x4) (x5) (h : Keeps s0 x5) : Keeps s0 (keepSection x0 x1 x2 x3 x4 x5) := by
  unfold keepSection
  refine updStream_keeps _ _ _ _ ?_
  with_reducible assumption

theorem egressControl_keeps (s0 : State) (x0) (x1) (x2) (x3) (x4) (x5) (x6) (x7) (h : Keeps s0 x7) : Keeps s0 (egressControl x0 x1 x2 x3 x4 x5 x6 x7).2 := by
  unfold egressControl
  refine Keeps.of1 ?_
  refine Keeps1.ite ?_ ?_
  · refine Keeps1.mk ?_
    refine memRead_keeps _ _ _ _ _ ?_
    with_reducible assumption
  · split
    · split
      · refine Keeps1.mk ?_
        refine memRead_keeps _ _ _ _ _ ?_
        with_reducible assumption
      · refine Keeps1.ite ?_ ?_
        · refine Keeps1.mk ?_
          refine memRead_keeps _ _ _ _ _ ?_
          with_reducible assumption
        · refine Keeps1.mk ?_
          refine queueMessage_keeps _ _ _ _ _ _ _ _ ?_
          refine Keeps.foldl0 ?_ ?_
          · intro v88 v88_b v88_h
            refine Keeps.foldl0 ?_ ?_
            · intro v89 v89_b v89_h
              refine keepSection_keeps _ _ _ _ _ _ _ ?_
              with_reducible assumption
            · with_reducible assumption
          · refine memRead_keeps _ _ _ _ _ ?_
            with_reducible assumption
    · split
      · refine Keeps1.mk ?_
        refine memRead_keeps _ _ _ _ _ ?_
        with_reducible assumption
      · refine Keeps1.ite ?_ ?_
        · refine Keeps1.mk ?_
          refine memRead_keeps _ _ _ _ _ ?_
          with_reducible assumption
        · refine Keeps1.mk ?_
          refine queueMessage_keeps _ _ _ _ _ _ _ _ ?_
          refine Keeps.foldl0 ?_ ?_
          · intro v90 v90_b v90_h
            refine Keeps.foldl0 ?_ ?_
            · intro v91 v91_b v91_h
              refine keepSection_keeps _ _ _ _ _ _ _ ?_
              with_reducible assumption
            · with_reducible assumption
          · refine memRead_keeps _ _ _ _ _ ?_
            with_reducible assumption

theorem execFhEgressJob_keeps (s0 : State) (x0) (x1) (h : Keeps s0 x1) : ∃ t, execFhEgressJob x0 x1 = .next t ∧ Keeps s0 t := by
  unfold execFhEgressJob
  (dsimp only; split)
  · refine ⟨_, rfl, ?_⟩
    with_reducible assumption
  · refine Keeps.iteN ?_ ?_
    · refine ⟨_, rfl, ?_⟩
      refine retireFor_keeps _ _ _ _ _ _ ?_
      refine popJob_keeps _ _ _ ?_
      with_reducible assumption
    · refine ⟨_, rfl, ?_⟩
      refine closeJob_keeps _ _ _ _ _ _ _ ?_
      refine Keeps.of1 ?_
      refine Keeps1.ite ?_ ?_
      · refine Keeps1.of ?_
        refine egressUser_keeps _ _ _ _ _ _ _ _ ?_
        refine updRad_keeps _ _ _ ?_
        refine popJob_keeps _ _ _ ?_
        with_reducible assumption
      · refine Keeps1.of ?_
        refine egressControl_keeps _ _ _ _ _ _ _ _ _ ?_
        refine updRad_keeps _ _ _ ?_
        refine popJob_keeps _ _ _ ?_
        with_reducible assumption

theorem countDrop_keeps (s0 : State) (x0) (x1) (x2) (x3) (h : Keeps s0 x3) : Keeps s0 (countDrop x0 x1 x2 x3) := by
  unfold countDrop
  split
  · refine portCount_keeps _ _ _ _ ?_
    with_reducible assumption
  · refine portCount_keeps _ _ _ _ ?_
    with_reducible assumption
  · with_reducible assumption
  · refine streamCount_keeps _ _ _ _ ?_
    with_reducible assumption

theorem sendRadio_keeps (s0 : State) (x0) (x1) (x2) (h : Keeps s0 x2) : Keeps s0 ((sendRadio x0 x1 x2).2) := by
  refine Keeps.of1 ?_
  induction x1 generalizing x2 with
  | zero => exact h
  | succ k ih =>
    unfold sendRadio
    split
    · exact h
    · extract_lets +onlyGivenNames s1
      have h1 : Keeps s0 s1 := takeFrameOut_keeps _ _ _ _ h
      split
      · exact ih _ (frameGone_keeps _ _ _ _ (countDrop_keeps _ _ _ _ _ h1))
      · exact Keeps1.mk (frameGone_keeps _ _ _ _ (portCount_keeps _ _ _ _ (emit_keeps _ _ _ h1)))

theorem execFhTxFrameBoundary_keeps (s0 : State) (x0) (x1) (x2) (h : Keeps s0 x2) : ∃ t, execFhTxFrameBoundary x0 x1 x2 = .next t ∧ Keeps s0 t := by
  unfold execFhTxFrameBoundary
  refine Keeps.iteN ?_ ?_
  · refine ⟨_, rfl, ?_⟩
    refine ptpTransmit_keeps _ _ _ _ _ ?_
    with_reducible assumption
  · refine Keeps.iteN ?_ ?_
    · refine ⟨_, rfl, ?_⟩
      refine sendRadio_keeps _ _ _ _ ?_
      with_reducible assumption
    · extract_lets
      split
      · refine ⟨_, rfl, ?_⟩
        refine atDecision_keeps _ _ _ ?_
        refine sendRadio_keeps _ _ _ _ ?_
        with_reducible assumption
      · refine ⟨_, rfl, ?_⟩
        refine takeEntry_keeps _ _ _ _ ?_
        refine atDecision_keeps _ _ _ ?_
        refine sendRadio_keeps _ _ _ _ ?_
        with_reducible assumption

theorem execFhBlockLockLoss_keeps (s0 : State) (x0) (x1) (x2) (h : Keeps s0 x2) : ∃ t, execFhBlockLockLoss x0 x1 x2 = .next t ∧ Keeps s0 t := by
  unfold execFhBlockLockLoss
  refine ⟨_, rfl, ?_⟩
  refine Keeps.ite0 ?_ ?_
  · refine squelch_keeps _ _ ?_
    refine Keeps.upd ?_ rfl
    refine Keeps.ite0 ?_ ?_
    · refine portCount_keeps _ _ _ _ ?_
      refine updFhPort_keeps _ _ _ _ ?_
      with_reducible assumption
    · refine updFhPort_keeps _ _ _ _ ?_
      with_reducible assumption
  · refine Keeps.ite0 ?_ ?_
    · refine portCount_keeps _ _ _ _ ?_
      refine updFhPort_keeps _ _ _ _ ?_
      with_reducible assumption
    · refine updFhPort_keeps _ _ _ _ ?_
      with_reducible assumption

theorem dropMissed_keeps (s0 : State) (x0) (x1) (h : Keeps s0 x1) : Keeps s0 (dropMissed x0 x1) := by
  unfold dropMissed
  refine Keeps.foldl0 ?_ ?_
  · intro v119 v119_b v119_h
    refine Keeps.ite0 ?_ ?_
    · refine frameGone_keeps _ _ _ _ ?_
      refine portCount_keeps _ _ _ _ ?_
      refine takeFrameOut_keeps _ _ _ _ ?_
      with_reducible assumption
    · with_reducible assumption
  · with_reducible assumption

theorem execFhBlockLockRegain_keeps (s0 : State) (x0) (x1) (h : Keeps s0 x1) : ∃ t, execFhBlockLockRegain x0 x1 = .next t ∧ Keeps s0 t := by
  unfold execFhBlockLockRegain
  refine ⟨_, rfl, ?_⟩
  refine Keeps.ite0 ?_ ?_
  · refine Keeps.upd ?_ rfl
    refine updFhPort_keeps _ _ _ _ ?_
    refine Keeps.ite0 ?_ ?_
    · with_reducible assumption
    · refine dropMissed_keeps _ _ _ ?_
      with_reducible assumption
  · refine updFhPort_keeps _ _ _ _ ?_
    refine Keeps.ite0 ?_ ?_
    · with_reducible assumption
    · refine dropMissed_keeps _ _ _ ?_
      with_reducible assumption

/-! ### Coll -/

theorem execCollGroupCreate_keeps (s0 : State) (x0) (x1) (h : Keeps s0 x1) : ∃ t, execCollGroupCreate x0 x1 = .next t ∧ Keeps s0 t := by
  unfold execCollGroupCreate
  refine runCmdW_keeps _ _ _ _ _ _ ?_ ?_
  · with_reducible assumption
  · intro v78_0 v78_1
    refine Keeps.of1 ?_
    refine Keeps1.ite ?_ ?_
    · refine Keeps1.mk ?_
      refine deviceData_keeps _ _ _ _ _ ?_
      with_reducible assumption
    · refine Keeps1.ite ?_ ?_
      · refine Keeps1.mk ?_
        refine deviceData_keeps _ _ _ _ _ ?_
        with_reducible assumption
      · refine Keeps1.ite ?_ ?_
        · refine Keeps1.mk ?_
          refine deviceData_keeps _ _ _ _ _ ?_
          refine deviceData_keeps _ _ _ _ _ ?_
          with_reducible assumption
        · refine Keeps1.ite ?_ ?_
          · refine Keeps1.mk ?_
            refine deviceData_keeps _ _ _ _ _ ?_
            refine deviceData_keeps _ _ _ _ _ ?_
            with_reducible assumption
          · split
            · refine Keeps1.mk ?_
              refine deviceData_keeps _ _ _ _ _ ?_
              refine deviceData_keeps _ _ _ _ _ ?_
              with_reducible assumption
            · refine Keeps1.ite ?_ ?_
              · refine Keeps1.mk ?_
                refine deviceData_keeps _ _ _ _ _ ?_
                refine deviceData_keeps _ _ _ _ _ ?_
                with_reducible assumption
              · split
                · refine Keeps1.mk ?_
                  refine deviceData_keeps _ _ _ _ _ ?_
                  refine deviceData_keeps _ _ _ _ _ ?_
                  with_reducible assumption
                · refine Keeps1.mk ?_
                  refine beginJoin_keeps _ _ _ ?_
                  refine updFab_keeps _ _ _ ?_
                  refine deviceData_keeps _ _ _ _ _ ?_
                  refine deviceData_keeps _ _ _ _ _ ?_
                  with_reducible assumption

theorem execCollGroupDestroy_keeps (s0 : State) (x0) (x1) (h : Keeps s0 x1) : ∃ t, execCollGroupDestroy x0 x1 = .next t ∧ Keeps s0 t := by
  unfold execCollGroupDestroy
  refine runCmd_keeps _ _ _ _ _ _ ?_ ?_
  · with_reducible assumption
  · intro v78_0 v78_1
    refine Keeps.of2 ?_
    split
    · refine Keeps2.of ?_
      refine refuse_keeps _ _ _ ?_
      with_reducible assumption
    · refine Keeps2.ite ?_ ?_
      · refine Keeps2.of ?_
        refine refuse_keeps _ _ _ ?_
        with_reducible assumption
      · refine Keeps2.of ?_
        refine done_keeps _ _ ?_
        refine updFab_keeps _ _ _ ?_
        with_reducible assumption

theorem execCollGroupQuery_keeps (s0 : State) (x0) (x1) (h : Keeps s0 x1) : ∃ t, execCollGroupQuery x0 x1 = .next t ∧ Keeps s0 t := by
  unfold execCollGroupQuery
  refine runCmd_keeps _ _ _ _ _ _ ?_ ?_
  · with_reducible assumption
  · intro v78_0 v78_1
    refine Keeps.of2 ?_
    split
    · refine Keeps2.of ?_
      refine refuse_keeps _ _ _ ?_
      with_reducible assumption
    · refine Keeps2.mk ?_
      refine Keeps1.mk ?_
      with_reducible assumption

theorem execCollGroupRebind_keeps (s0 : State) (x0) (x1) (h : Keeps s0 x1) : ∃ t, execCollGroupRebind x0 x1 = .next t ∧ Keeps s0 t := by
  unfold execCollGroupRebind
  refine runCmdW_keeps _ _ _ _ _ _ ?_ ?_
  · with_reducible assumption
  · intro v78_0 v78_1
    refine Keeps.of1 ?_
    split
    · refine Keeps1.mk ?_
      with_reducible assumption
    · refine Keeps1.ite ?_ ?_
      · refine Keeps1.mk ?_
        with_reducible assumption
      · refine Keeps1.ite ?_ ?_
        · refine Keeps1.mk ?_
          with_reducible assumption
        · refine Keeps1.mk ?_
          refine beginJoin_keeps _ _ _ ?_
          refine updGroup_keeps _ _ _ _ ?_
          with_reducible assumption

theorem execCollJob_keeps (s0 : State) (x0) (x1) (h : Keeps s0 x1) : ∃ t, execCollJob x0 x1 = .next t ∧ Keeps s0 t := by
  unfold execCollJob
  refine runCmdW_keeps _ _ _ _ _ _ ?_ ?_
  · with_reducible assumption
  · intro v92_0 v92_1
    refine Keeps.of1 ?_
    dsimp only
    split
    · refine Keeps1.ite ?_ ?_
      · refine Keeps1.mk ?_
        refine pushMailboxJob_keeps _ _ _ _ _ _ ?_
        with_reducible assumption
      · refine Keeps1.mk ?_
        refine submitColl_keeps _ _ _ _ _ _ ?_
        with_reducible assumption
    · refine Keeps1.mk ?_
      refine submitColl_keeps _ _ _ _ _ _ ?_
      with_reducible assumption

theorem takeCollJob_keeps (s0 : State) (x0) (x1) (x2) (x3) (h : Keeps s0 x3) : ∃ t, takeCollJob x0 x1 x2 x3 = .next t ∧ Keeps s0 t := by
  unfold takeCollJob
  (dsimp only; split)
  · refine ⟨_, rfl, ?_⟩
    with_reducible assumption
  · refine Keeps.iteN ?_ ?_
    · refine ⟨_, rfl, ?_⟩
      refine submitColl_keeps _ _ _ _ _ _ ?_
      refine popJob_keeps _ _ _ ?_
      with_reducible assumption
    · refine ⟨_, rfl, ?_⟩
      with_reducible assumption

theorem execOpAllreduce_keeps (s0 : State) (x0) (x1) (h : Keeps s0 x1) : ∃ t, execOpAllreduce x0 x1 = .next t ∧ Keeps s0 t := by
  unfold execOpAllreduce
  refine takeCollJob_keeps _ _ _ _ _ ?_
  with_reducible assumption

theorem execOpReduceScatter_keeps (s0 : State) (x0) (x1) (h : Keeps s0 x1) : ∃ t, execOpReduceScatter x0 x1 = .next t ∧ Keeps s0 t := by
  unfold execOpReduceScatter
  refine takeCollJob_keeps _ _ _ _ _ ?_
  with_reducible assumption

theorem execOpAllgather_keeps (s0 : State) (x0) (x1) (h : Keeps s0 x1) : ∃ t, execOpAllgather x0 x1 = .next t ∧ Keeps s0 t := by
  unfold execOpAllgather
  refine takeCollJob_keeps _ _ _ _ _ ?_
  with_reducible assumption

theorem execOpBroadcast_keeps (s0 : State) (x0) (x1) (h : Keeps s0 x1) : ∃ t, execOpBroadcast x0 x1 = .next t ∧ Keeps s0 t := by
  unfold execOpBroadcast
  refine takeCollJob_keeps _ _ _ _ _ ?_
  with_reducible assumption

theorem execOpReduce_keeps (s0 : State) (x0) (x1) (h : Keeps s0 x1) : ∃ t, execOpReduce x0 x1 = .next t ∧ Keeps s0 t := by
  unfold execOpReduce
  refine takeCollJob_keeps _ _ _ _ _ ?_
  with_reducible assumption

theorem execOpAlltoall_keeps (s0 : State) (x0) (x1) (h : Keeps s0 x1) : ∃ t, execOpAlltoall x0 x1 = .next t ∧ Keeps s0 t := by
  unfold execOpAlltoall
  refine takeCollJob_keeps _ _ _ _ _ ?_
  with_reducible assumption

theorem execOpBarrier_keeps (s0 : State) (x0) (x1) (h : Keeps s0 x1) : ∃ t, execOpBarrier x0 x1 = .next t ∧ Keeps s0 t := by
  unfold execOpBarrier
  refine takeCollJob_keeps _ _ _ _ _ ?_
  with_reducible assumption

theorem countWaits_keeps (s0 : State) (x0) (x1) (x2) (h : Keeps s0 x2) : Keeps s0 (countWaits x0 x1 x2) := by
  unfold countWaits
  split
  · with_reducible assumption
  · refine Keeps.foldl0 ?_ ?_
    · intro v77_0 v77_1 v77_2
      split
      · with_reducible assumption
      · refine Keeps.foldl0 ?_ ?_
        · intro v74_0 v74_1 v74_2
          split
          · refine Keeps.ite0 ?_ ?_
            · with_reducible assumption
            · refine collCount_keeps _ _ _ _ _ ?_
              refine updRun_keeps _ _ _ _ _ _ _ ?_
              with_reducible assumption
          · with_reducible assumption
        · with_reducible assumption
    · with_reducible assumption

theorem sendData_keeps (s0 : State) (x0) (x1) (x2) (x3) (x4) (x5) (x6) (h : Keeps s0 x6) : Keeps s0 (sendData x0 x1 x2 x3 x4 x5 x6) := by
  unfold sendData
  refine updOp_keeps _ _ _ _ _ ?_
  refine updRun_keeps _ _ _ _ _ _ _ ?_
  refine sendColl_keeps _ _ _ _ _ _ _ _ ?_
  with_reducible assumption

theorem execCollRingStepSend_keeps (s0 : State) (x0) (x1) (h : Keeps s0 x1) : ∃ t, execCollRingStepSend x0 x1 = .next t ∧ Keeps s0 t := by
  unfold execCollRingStepSend
  extract_lets
  split
  · refine ⟨_, rfl, ?_⟩
    refine Keeps.foldl0 ?_ ?_
    · intro v93 v93_b v93_h
      refine countWaits_keeps _ _ _ _ ?_
      with_reducible assumption
    · with_reducible assumption
  · split
    · refine ⟨_, rfl, ?_⟩
      refine Keeps.foldl0 ?_ ?_
      · intro v94 v94_b v94_h
        refine countWaits_keeps _ _ _ _ ?_
        with_reducible assumption
      · with_reducible assumption
    · split
      · refine ⟨_, rfl, ?_⟩
        refine Keeps.foldl0 ?_ ?_
        · intro v95 v95_b v95_h
          refine countWaits_keeps _ _ _ _ ?_
          with_reducible assumption
        · with_reducible assumption
      · refine ⟨_, rfl, ?_⟩
        refine unitsDone_keeps _ _ ?_
        refine pump_keeps _ _ _ ?_
        refine sendData_keeps _ _ _ _ _ _ _ _ ?_
        refine Keeps.foldl0 ?_ ?_
        · intro v96 v96_b v96_h
          refine countWaits_keeps _ _ _ _ ?_
          with_reducible assumption
        · with_reducible assumption

theorem collIn_keeps (s0 : State) (x0) (x1) (x2) (x3) (x4 : Sys2Proof.Machine.State → Sys2Proof.Machine.State) (x5) (h : Keeps s0 x5) (hx4 : ∀ y0, Keeps s0 y0 → Keeps s0 (x4 y0)) : ∃ t, collIn x0 x1 x2 x3 x4 x5 = .next t ∧ Keeps s0 t := by
  unfold collIn
  refine Keeps.iteN ?_ ?_
  · refine ⟨_, rfl, ?_⟩
    refine fabCount_keeps _ _ _ ?_
    refine takeArrived_keeps _ _ _ _ ?_
    with_reducible assumption
  · refine Keeps.iteN ?_ ?_
    · refine ⟨_, rfl, ?_⟩
      refine forwardPacket_keeps _ _ _ ?_
      refine takeArrived_keeps _ _ _ _ ?_
      with_reducible assumption
    · refine Keeps.iteN ?_ ?_
      · refine ⟨_, rfl, ?_⟩
        refine fabCount_keeps _ _ _ ?_
        refine takeArrived_keeps _ _ _ _ ?_
        with_reducible assumption
      · refine Keeps.iteN ?_ ?_
        · refine ⟨_, rfl, ?_⟩
          refine Keeps.ite0 ?_ ?_
          · refine fabCount_keeps _ _ _ ?_
            refine takeArrived_keeps _ _ _ _ ?_
            with_reducible assumption
          · refine respond_keeps _ _ _ _ _ _ _ ?_
            refine fabCount_keeps _ _ _ ?_
            refine takeArrived_keeps _ _ _ _ ?_
            with_reducible assumption
        · refine ⟨_, rfl, ?_⟩
          refine hx4 _ ?_
          refine Keeps.ite0 ?_ ?_
          · refine takeArrived_keeps _ _ _ _ ?_
            with_reducible assumption
          · refine fabCount_keeps _ _ _ ?_
            refine takeArrived_keeps _ _ _ _ ?_
            with_reducible assumption

theorem groupPacket_keeps (s0 : State) (x0) (x1) (h : Keeps s0 x1) : Keeps s0 (groupPacket x0 x1) := by
  unfold groupPacket
  extract_lets
  split
  · refine staleDrop_keeps _ _ _ ?_
    with_reducible assumption
  · refine Keeps.ite0 ?_ ?_
    · refine staleDrop_keeps _ _ _ ?_
      with_reducible assumption
    · refine Keeps.ite0 ?_ ?_
      · refine updGroup_keeps _ _ _ _ ?_
        with_reducible assumption
      · refine unitsDone_keeps _ _ ?_
        refine pump_keeps _ _ _ ?_
        refine takePacket_keeps _ _ _ _ _ ?_
        with_reducible assumption

theorem execCollData_keeps (s0 : State) (x0) (x1) (x2) (h : Keeps s0 x2) : ∃ t, execCollData x0 x1 x2 = .next t ∧ Keeps s0 t := by
  unfold execCollData
  refine collIn_keeps _ _ _ _ _ _ _ ?_ ?_
  · with_reducible assumption
  · intro v78_0 v78_1
    refine groupPacket_keeps _ _ _ ?_
    with_reducible assumption

theorem execCollCredit_keeps (s0 : State) (x0) (x1) (x2) (h : Keeps s0 x2) : ∃ t, execCollCredit x0 x1 x2 = .next t ∧ Keeps s0 t := by
  unfold execCollCredit
  refine collIn_keeps _ _ _ _ _ _ _ ?_ ?_
  · with_reducible assumption
  · intro v78_0 v78_1
    refine groupPacket_keeps _ _ _ ?_
    with_reducible assumption

theorem execCollAbort_keeps (s0 : State) (x0) (x1) (x2) (h : Keeps s0 x2) : ∃ t, execCollAbort x0 x1 x2 = .next t ∧ Keeps s0 t := by
  unfold execCollAbort
  refine collIn_keeps _ _ _ _ _ _ _ ?_ ?_
  · with_reducible assumption
  · intro v97_0 v97_1
    extract_lets
    split
    · refine staleDrop_keeps _ _ _ ?_
      with_reducible assumption
    · refine Keeps.ite0 ?_ ?_
      · refine staleDrop_keeps _ _ _ ?_
        with_reducible assumption
      · refine Keeps.ite0 ?_ ?_
        · refine unitsDone_keeps _ _ ?_
          refine pump_keeps _ _ _ ?_
          refine abortOp_keeps _ _ _ _ _ _ _ ?_
          refine collCount_keeps _ _ _ _ _ ?_
          with_reducible assumption
        · refine Keeps.ite0 ?_ ?_
          · refine recordAbort_keeps _ _ _ _ _ ?_
            refine updGroup_keeps _ _ _ _ ?_
            refine collCount_keeps _ _ _ _ _ ?_
            with_reducible assumption
          · refine collCount_keeps _ _ _ _ _ ?_
            with_reducible assumption

theorem execBarrierArrive_keeps (s0 : State) (x0) (x1) (x2) (h : Keeps s0 x2) : ∃ t, execBarrierArrive x0 x1 x2 = .next t ∧ Keeps s0 t := by
  unfold execBarrierArrive
  refine collIn_keeps _ _ _ _ _ _ _ ?_ ?_
  · with_reducible assumption
  · intro v78_0 v78_1
    refine groupPacket_keeps _ _ _ ?_
    with_reducible assumption

theorem execBarrierRelease_keeps (s0 : State) (x0) (x1) (x2) (x3) (h : Keeps s0 x3) : ∃ t, execBarrierRelease x0 x1 x2 x3 = .next t ∧ Keeps s0 t := by
  unfold execBarrierRelease
  refine collIn_keeps _ _ _ _ _ _ _ ?_ ?_
  · with_reducible assumption
  · intro v78_0 v78_1
    (dsimp only; split)
    · refine staleDrop_keeps _ _ _ ?_
      with_reducible assumption
    · split
      · refine staleDrop_keeps _ _ _ ?_
        with_reducible assumption
      · refine Keeps.ite0 ?_ ?_
        · refine staleDrop_keeps _ _ _ ?_
          with_reducible assumption
        · refine pump_keeps _ _ _ ?_
          refine releaseBarrier_keeps _ _ _ _ _ ?_
          refine Keeps.ite0 ?_ ?_
          · refine Keeps.upd ?_ rfl
            with_reducible assumption
          · with_reducible assumption

theorem resumePlate_keeps (s0 : State) (x0) (x1) (h : Keeps s0 x1) : Keeps s0 (resumePlate x0 x1) := by
  unfold resumePlate
  refine updPlate_keeps _ _ _ _ ?_
  refine Keeps.foldl0 ?_ ?_
  · intro v98 v98_b v98_h
    refine State.setCtx_keeps _ _ _ _ ?_
    with_reducible assumption
  · refine Keeps.foldl0 ?_ ?_
    · intro v99 v99_b v99_h
      refine Keeps.ite0 ?_ ?_
      · refine State.setThread_keeps _ _ _ _ ?_
        with_reducible assumption
      · with_reducible assumption
    · with_reducible assumption

theorem execFabricBarrierResume_keeps (s0 : State) (x0) (x1) (h : Keeps s0 x1) : ∃ t, execFabricBarrierResume x0 x1 = .next t ∧ Keeps s0 t := by
  unfold execFabricBarrierResume
  refine ⟨_, rfl, ?_⟩
  refine Keeps.foldl0 ?_ ?_
  · intro v100 v100_b v100_h
    refine resumePlate_keeps _ _ _ ?_
    with_reducible assumption
  · refine updFab_keeps _ _ _ ?_
    with_reducible assumption

theorem execCollJoin_keeps (s0 : State) (x0) (x1) (x2) (h : Keeps s0 x2) : ∃ t, execCollJoin x0 x1 x2 = .next t ∧ Keeps s0 t := by
  unfold execCollJoin
  refine collIn_keeps _ _ _ _ _ _ _ ?_ ?_
  · with_reducible assumption
  · intro v78_0 v78_1
    (dsimp only; split)
    · refine Keeps.ite0 ?_ ?_
      · refine takeJoin_keeps _ _ _ _ ?_
        with_reducible assumption
      · refine updFab_keeps _ _ _ ?_
        with_reducible assumption
    · refine updFab_keeps _ _ _ ?_
      with_reducible assumption

theorem execCollJoinTimeout_keeps (s0 : State) (x0) (x1) (h : Keeps s0 x1) : ∃ t, execCollJoinTimeout x0 x1 = .next t ∧ Keeps s0 t := by
  unfold execCollJoinTimeout
  split
  · refine ⟨_, rfl, ?_⟩
    with_reducible assumption
  · refine Keeps.iteN ?_ ?_
    · refine ⟨_, rfl, ?_⟩
      with_reducible assumption
    · refine ⟨_, rfl, ?_⟩
      refine failJoin_keeps _ _ _ _ ?_
      with_reducible assumption

theorem execCollProgressTimeout_keeps (s0 : State) (x0) (x1) (h : Keeps s0 x1) : ∃ t, execCollProgressTimeout x0 x1 = .next t ∧ Keeps s0 t := by
  unfold execCollProgressTimeout
  extract_lets
  split
  · refine ⟨_, rfl, ?_⟩
    with_reducible assumption
  · split
    · refine ⟨_, rfl, ?_⟩
      with_reducible assumption
    · refine ⟨_, rfl, ?_⟩
      refine unitsDone_keeps _ _ ?_
      refine pump_keeps _ _ _ ?_
      refine abortOp_keeps _ _ _ _ _ _ _ ?_
      with_reducible assumption

/-! ### Lease -/

theorem updFlt_keeps (s0 : State) (x0) (x1) (h : Keeps s0 x1) : Keeps s0 (updFlt x0 x1) := by
  unfold updFlt
  refine Keeps.upd ?_ rfl
  with_reducible assumption

theorem fltCount_keeps (s0 : State) (x0) (x1) (h : Keeps s0 x1) : Keeps s0 (fltCount x0 x1) := by
  unfold fltCount
  refine updFlt_keeps _ _ _ ?_
  with_reducible assumption

theorem endFabricWork_keeps (s0 : State) (x0) (x1) (h : Keeps s0 x1) : Keeps s0 (endFabricWork x0 x1) := by
  unfold endFabricWork
  refine settleXfers_keeps _ _ ?_
  refine failXfers_keeps _ _ _ ?_
  refine endTracks_keeps _ _ _ _ ?_
  with_reducible assumption

theorem stopLanes_keeps (s0 : State) (x0) (h : Keeps s0 x0) : Keeps s0 (stopLanes x0) := by
  unfold stopLanes
  refine updFab_keeps _ _ _ ?_
  with_reducible assumption

theorem fenceParts_keeps (s0 : State) (x0) (h : Keeps s0 x0) : Keeps s0 (fenceParts x0) := by
  unfold fenceParts
  refine updRec_keeps _ _ _ ?_
  refine updFlt_keeps _ _ _ ?_
  refine Keeps.ite0 ?_ ?_
  · refine fenceCells_keeps _ _ ?_
    refine fenceFronthaul_keeps _ _ ?_
    refine Keeps.foldl0 ?_ ?_
    · intro v101 v101_b v101_h
      refine endEntries_keeps _ _ _ _ ?_
      with_reducible assumption
    · refine unitsDone_keeps _ _ ?_
      refine groupsFenced_keeps _ _ ?_
      refine endFabricWork_keeps _ _ _ ?_
      refine stopLanes_keeps _ _ ?_
      with_reducible assumption
  · refine Keeps.foldl0 ?_ ?_
    · intro v102 v102_b v102_h
      refine endEntries_keeps _ _ _ _ ?_
      with_reducible assumption
    · refine unitsDone_keeps _ _ ?_
      refine groupsFenced_keeps _ _ ?_
      refine endFabricWork_keeps _ _ _ ?_
      refine stopLanes_keeps _ _ ?_
      with_reducible assumption

theorem tellFence_keeps (s0 : State) (x0) (h : Keeps s0 x0) : Keeps s0 (tellFence x0) := by
  unfold tellFence
  refine Keeps.foldl0 ?_ ?_
  · intro v78_0 v78_1 v78_2
    refine sendControl_keeps _ _ _ _ _ _ ?_
    with_reducible assumption
  · refine faultEvent_keeps _ _ _ _ ?_
    with_reducible assumption

theorem fence_keeps (s0 : State) (x0) (x1) (h : Keeps s0 x1) : Keeps s0 (fence x0 x1) := by
  unfold fence
  refine Keeps.ite0 ?_ ?_
  · refine Keeps.ite0 ?_ ?_
    · refine fenceCells_keeps _ _ ?_
      refine fenceFronthaul_keeps _ _ ?_
      refine Keeps.ite0 ?_ ?_
      · refine updFlt_keeps _ _ _ ?_
        with_reducible assumption
      · with_reducible assumption
    · refine Keeps.ite0 ?_ ?_
      · refine updFlt_keeps _ _ _ ?_
        with_reducible assumption
      · with_reducible assumption
  · refine tellFence_keeps _ _ ?_
    refine dryEvent_keeps _ _ _ ?_
    refine fenceParts_keeps _ _ ?_
    refine updFlt_keeps _ _ _ ?_
    with_reducible assumption

theorem sendRequestFrame_keeps (s0 : State) (x0) (h : Keeps s0 x0) : Keeps s0 (sendRequestFrame x0) := by
  unfold sendRequestFrame
  refine sendLease_keeps _ _ _ ?_
  with_reducible assumption

theorem execLeaseRenew_keeps (s0 : State) (x0) (h : Keeps s0 x0) : ∃ t, execLeaseRenew x0 = .next t ∧ Keeps s0 t := by
  unfold execLeaseRenew
  refine Keeps.iteN ?_ ?_
  · refine ⟨_, rfl, ?_⟩
    with_reducible assumption
  · refine Keeps.iteN ?_ ?_
    · refine ⟨_, rfl, ?_⟩
      refine updFlt_keeps _ _ _ ?_
      with_reducible assumption
    · refine ⟨_, rfl, ?_⟩
      refine updFlt_keeps _ _ _ ?_
      refine fltCount_keeps _ _ _ ?_
      refine sendRequestFrame_keeps _ _ ?_
      refine updFlt_keeps _ _ _ ?_
      with_reducible assumption

theorem leaseFrame_keeps (s0 : State) (x0) (x1) (x2 : Sys2Proof.Machine.State → Sys2Proof.Machine.State) (x3) (h : Keeps s0 x3) (hx2 : ∀ y0, Keeps s0 y0 → Keeps s0 (x2 y0)) : ∃ t, leaseFrame x0 x1 x2 x3 = .next t ∧ Keeps s0 t := by
  unfold leaseFrame
  refine Keeps.iteN ?_ ?_
  · refine ⟨_, rfl, ?_⟩
    refine fltCount_keeps _ _ _ ?_
    with_reducible assumption
  · refine ⟨_, rfl, ?_⟩
    refine Keeps.ite0 ?_ ?_
    · refine hx2 _ ?_
      with_reducible assumption
    · with_reducible assumption

theorem takeGrant_keeps (s0 : State) (x0) (x1) (x2) (h : Keeps s0 x2) : Keeps s0 (takeGrant x0 x1 x2) := by
  unfold takeGrant
  refine Keeps.foldl0 ?_ ?_
  · intro v78_0 v78_1 v78_2
    refine sendEcho_keeps _ _ _ ?_
    with_reducible assumption
  · refine Keeps.ite0 ?_ ?_
    · refine fltCount_keeps _ _ _ ?_
      refine endFabricWork_keeps _ _ _ ?_
      refine fltCount_keeps _ _ _ ?_
      refine Keeps.ite0 ?_ ?_
      · refine fltCount_keeps _ _ _ ?_
        refine updFlt_keeps _ _ _ ?_
        with_reducible assumption
      · refine updFlt_keeps _ _ _ ?_
        with_reducible assumption
    · refine fltCount_keeps _ _ _ ?_
      refine Keeps.ite0 ?_ ?_
      · refine fltCount_keeps _ _ _ ?_
        refine updFlt_keeps _ _ _ ?_
        with_reducible assumption
      · refine updFlt_keeps _ _ _ ?_
        with_reducible assumption

theorem execRxGrant_keeps (s0 : State) (x0) (x1) (h : Keeps s0 x1) : ∃ t, execRxGrant x0 x1 = .next t ∧ Keeps s0 t := by
  unfold execRxGrant
  refine leaseFrame_keeps _ _ _ _ _ ?_ ?_
  · with_reducible assumption
  · intro v78_0 v78_1
    (dsimp only; split)
    · refine Keeps.ite0 ?_ ?_
      · refine takeGrant_keeps _ _ _ _ ?_
        with_reducible assumption
      · refine fltCount_keeps _ _ _ ?_
        with_reducible assumption
    · refine fltCount_keeps _ _ _ ?_
      with_reducible assumption

theorem execRxRevoke_keeps (s0 : State) (x0) (x1) (h : Keeps s0 x1) : ∃ t, execRxRevoke x0 x1 = .next t ∧ Keeps s0 t := by
  unfold execRxRevoke
  refine leaseFrame_keeps _ _ _ _ _ ?_ ?_
  · with_reducible assumption
  · intro v78_0 v78_1
    refine Keeps.ite0 ?_ ?_
    · with_reducible assumption
    · refine sendLease_keeps _ _ _ ?_
      refine Keeps.ite0 ?_ ?_
      · with_reducible assumption
      · refine fence_keeps _ _ _ ?_
        refine fltCount_keeps _ _ _ ?_
        with_reducible assumption

theorem execLeaseExpiry_keeps (s0 : State) (x0) (h : Keeps s0 x0) : ∃ t, execLeaseExpiry x0 = .next t ∧ Keeps s0 t := by
  unfold execLeaseExpiry
  refine Keeps.iteN ?_ ?_
  · refine ⟨_, rfl, ?_⟩
    refine fence_keeps _ _ _ ?_
    refine fltCount_keeps _ _ _ ?_
    with_reducible assumption
  · refine ⟨_, rfl, ?_⟩
    with_reducible assumption

theorem fatalCause_keeps (s0 : State) (x0) (x1) (h : Keeps s0 x1) : Keeps s0 (fatalCause x0 x1) := by
  unfold fatalCause
  refine fence_keeps _ _ _ ?_
  refine faultEvent_keeps _ _ _ _ ?_
  refine fltCount_keeps _ _ _ ?_
  refine updFlt_keeps _ _ _ ?_
  with_reducible assumption

theorem execFatalCause_keeps (s0 : State) (x0) (x1) (h : Keeps s0 x1) : ∃ t, execFatalCause x0 x1 = .next t ∧ Keeps s0 t := by
  unfold execFatalCause
  refine ⟨_, rfl, ?_⟩
  refine Keeps.ite0 ?_ ?_
  · with_reducible assumption
  · refine fatalCause_keeps _ _ _ ?_
    with_reducible assumption

theorem execFaultEventFlush_keeps (s0 : State) (x0) (x1) (h : Keeps s0 x1) : ∃ t, execFaultEventFlush x0 x1 = .next t ∧ Keeps s0 t := by
  unfold execFaultEventFlush
  refine ⟨_, rfl, ?_⟩
  refine Keeps.ite0 ?_ ?_
  · with_reducible assumption
  · refine sendEvent_keeps _ _ _ _ _ _ ?_
    with_reducible assumption

theorem endWindow_keeps (s0 : State) (x0) (x1) (h : Keeps s0 x1) : Keeps s0 (endWindow x0 x1) := by
  unfold endWindow
  refine Keeps.ite0 ?_ ?_
  · refine faultEvent_keeps _ _ _ _ ?_
    refine updFlt_keeps _ _ _ ?_
    with_reducible assumption
  · refine updFlt_keeps _ _ _ ?_
    with_reducible assumption

theorem execHealthWindowEnd_keeps (s0 : State) (x0) (h : Keeps s0 x0) : ∃ t, execHealthWindowEnd x0 = .next t ∧ Keeps s0 t := by
  unfold execHealthWindowEnd
  refine Keeps.iteN ?_ ?_
  · refine ⟨_, rfl, ?_⟩
    with_reducible assumption
  · refine ⟨_, rfl, ?_⟩
    refine Keeps.foldl0 ?_ ?_
    · intro v76_0 v76_1 v76_2
      refine endWindow_keeps _ _ _ ?_
      with_reducible assumption
    · with_reducible assumption

theorem fireTakeover_keeps (s0 : State) (x0) (x1) (x2) (h : Keeps s0 x2) : Keeps s0 (fireTakeover x0 x1 x2) := by
  unfold fireTakeover
  refine Keeps.ite0 ?_ ?_
  · refine fltCount_keeps _ _ _ ?_
    refine updFlt_keeps _ _ _ ?_
    with_reducible assumption
  · refine faultEvent_keeps _ _ _ _ ?_
    refine updCell_keeps _ _ _ _ ?_
    refine fltCount_keeps _ _ _ ?_
    refine updFlt_keeps _ _ _ ?_
    with_reducible assumption

theorem fireFor_keeps (s0 : State) (x0) (x1) (x2) (h : Keeps s0 x2) : Keeps s0 (fireFor x0 x1 x2) := by
  unfold fireFor
  refine Keeps.foldl0 ?_ ?_
  · intro v78_0 v78_1 v78_2
    refine fireTakeover_keeps _ _ _ _ ?_
    with_reducible assumption
  · with_reducible assumption

theorem execTakeoverTimer_keeps (s0 : State) (x0) (x1) (h : Keeps s0 x1) : ∃ t, execTakeoverTimer x0 x1 = .next t ∧ Keeps s0 t := by
  unfold execTakeoverTimer
  split
  · refine ⟨_, rfl, ?_⟩
    refine Keeps.ite0 ?_ ?_
    · refine fireTakeover_keeps _ _ _ _ ?_
      with_reducible assumption
    · with_reducible assumption
  · refine ⟨_, rfl, ?_⟩
    with_reducible assumption

theorem execFenceNotice_keeps (s0 : State) (x0) (x1) (x2) (h : Keeps s0 x2) : ∃ t, execFenceNotice x0 x1 x2 = .next t ∧ Keeps s0 t := by
  unfold execFenceNotice
  refine collIn_keeps _ _ _ _ _ _ _ ?_ ?_
  · with_reducible assumption
  · intro v78_0 v78_1
    refine fireFor_keeps _ _ _ _ ?_
    refine faultEvent_keeps _ _ _ _ ?_
    refine fltCount_keeps _ _ _ ?_
    with_reducible assumption

theorem execLeaseEcho_keeps (s0 : State) (x0) (x1) (x2) (h : Keeps s0 x2) : ∃ t, execLeaseEcho x0 x1 x2 = .next t ∧ Keeps s0 t := by
  unfold execLeaseEcho
  refine collIn_keeps _ _ _ _ _ _ _ ?_ ?_
  · with_reducible assumption
  · intro v78_0 v78_1
    refine sendControl_keeps _ _ _ _ _ _ ?_
    refine updFlt_keeps _ _ _ ?_
    with_reducible assumption

theorem execEchoAck_keeps (s0 : State) (x0) (x1) (x2) (h : Keeps s0 x2) : ∃ t, execEchoAck x0 x1 x2 = .next t ∧ Keeps s0 t := by
  unfold execEchoAck
  refine collIn_keeps _ _ _ _ _ _ _ ?_ ?_
  · with_reducible assumption
  · intro v78_0 v78_1
    refine updFlt_keeps _ _ _ ?_
    with_reducible assumption

theorem lapseCell_keeps (s0 : State) (x0) (x1) (x2) (h : Keeps s0 x2) : Keeps s0 (lapseCell x0 x1 x2) := by
  unfold lapseCell
  refine faultEvent_keeps _ _ _ _ ?_
  refine fltCount_keeps _ _ _ ?_
  refine updCell_keeps _ _ _ _ ?_
  refine fenceFrames_keeps _ _ _ ?_
  refine fenceCell_keeps _ _ _ ?_
  with_reducible assumption

theorem execEchoLapse_keeps (s0 : State) (x0) (x1) (h : Keeps s0 x1) : ∃ t, execEchoLapse x0 x1 = .next t ∧ Keeps s0 t := by
  unfold execEchoLapse
  split
  · refine ⟨_, rfl, ?_⟩
    with_reducible assumption
  · refine Keeps.iteN ?_ ?_
    · refine ⟨_, rfl, ?_⟩
      with_reducible assumption
    · refine ⟨_, rfl, ?_⟩
      refine Keeps.foldl0 ?_ ?_
      · intro v75_0 v75_1 v75_2
        refine lapseCell_keeps _ _ _ _ ?_
        with_reducible assumption
      · with_reducible assumption

theorem execLeaseConfig_keeps (s0 : State) (x0) (x1) (h : Keeps s0 x1) : ∃ t, execLeaseConfig x0 x1 = .next t ∧ Keeps s0 t := by
  unfold execLeaseConfig
  refine runCmd_keeps _ _ _ _ _ _ ?_ ?_
  · with_reducible assumption
  · intro v78_0 v78_1
    refine Keeps.of2 ?_
    refine Keeps2.ite ?_ ?_
    · refine Keeps2.of ?_
      refine refuse_keeps _ _ _ ?_
      with_reducible assumption
    · refine Keeps2.of ?_
      refine done_keeps _ _ ?_
      refine Keeps.ite0 ?_ ?_
      · refine fenceCells_keeps _ _ ?_
        refine fenceFronthaul_keeps _ _ ?_
        refine updFlt_keeps _ _ _ ?_
        with_reducible assumption
      · refine updFlt_keeps _ _ _ ?_
        with_reducible assumption

theorem execLeaseKeySet_keeps (s0 : State) (x0) (x1) (h : Keeps s0 x1) : ∃ t, execLeaseKeySet x0 x1 = .next t ∧ Keeps s0 t := by
  unfold execLeaseKeySet
  refine runCmd_keeps _ _ _ _ _ _ ?_ ?_
  · with_reducible assumption
  · intro v78_0 v78_1
    refine Keeps.of2 ?_
    refine Keeps2.ite ?_ ?_
    · refine Keeps2.of ?_
      refine refuse_keeps _ _ _ ?_
      with_reducible assumption
    · refine Keeps2.of ?_
      refine done_keeps _ _ ?_
      refine updFlt_keeps _ _ _ ?_
      with_reducible assumption

theorem execLeaseRelease_keeps (s0 : State) (x0) (x1) (h : Keeps s0 x1) : ∃ t, execLeaseRelease x0 x1 = .next t ∧ Keeps s0 t := by
  unfold execLeaseRelease
  refine runCmd_keeps _ _ _ _ _ _ ?_ ?_
  · with_reducible assumption
  · intro v78_0 v78_1
    refine Keeps.of2 ?_
    refine Keeps2.ite ?_ ?_
    · refine Keeps2.of ?_
      refine refuse_keeps _ _ _ ?_
      with_reducible assumption
    · refine Keeps2.mk ?_
      refine Keeps1.mk ?_
      refine fence_keeps _ _ _ ?_
      refine fltCount_keeps _ _ _ ?_
      with_reducible assumption

theorem freeLedger_keeps (s0 : State) (x0) (x1) (h : Keeps s0 x1) : Keeps s0 (freeLedger x0 x1) := by
  unfold freeLedger
  split
  · with_reducible assumption
  · refine updFab_keeps _ _ _ ?_
    with_reducible assumption

theorem peerChanged_keeps (s0 : State) (x0) (x1) (h : Keeps s0 x1) : Keeps s0 (peerChanged x0 x1) := by
  unfold peerChanged
  refine fireFor_keeps _ _ _ _ ?_
  refine unitsDone_keeps _ _ ?_
  refine groupsPeerLost_keeps _ _ _ ?_
  refine freeLedger_keeps _ _ _ ?_
  refine endTracks_keeps _ _ _ _ ?_
  with_reducible assumption

theorem execFaultPeerSet_keeps (s0 : State) (x0) (x1) (h : Keeps s0 x1) : ∃ t, execFaultPeerSet x0 x1 = .next t ∧ Keeps s0 t := by
  unfold execFaultPeerSet
  refine runCmd_keeps _ _ _ _ _ _ ?_ ?_
  · with_reducible assumption
  · intro v78_0 v78_1
    refine Keeps.of2 ?_
    refine Keeps2.ite ?_ ?_
    · refine Keeps2.of ?_
      refine refuse_keeps _ _ _ ?_
      with_reducible assumption
    · refine Keeps2.of ?_
      refine done_keeps _ _ ?_
      refine Keeps.foldl0 ?_ ?_
      · intro v72_0 v72_1 v72_2
        refine peerChanged_keeps _ _ _ ?_
        with_reducible assumption
      · refine updFab_keeps _ _ _ ?_
        with_reducible assumption

theorem execHealthConfig_keeps (s0 : State) (x0) (x1) (h : Keeps s0 x1) : ∃ t, execHealthConfig x0 x1 = .next t ∧ Keeps s0 t := by
  unfold execHealthConfig
  refine runCmd_keeps _ _ _ _ _ _ ?_ ?_
  · with_reducible assumption
  · intro v78_0 v78_1
    refine Keeps.of2 ?_
    refine Keeps2.ite ?_ ?_
    · refine Keeps2.of ?_
      refine refuse_keeps _ _ _ ?_
      with_reducible assumption
    · refine Keeps2.of ?_
      refine done_keeps _ _ ?_
      refine updFlt_keeps _ _ _ ?_
      with_reducible assumption

theorem execTakeoverArm_keeps (s0 : State) (x0) (x1) (h : Keeps s0 x1) : ∃ t, execTakeoverArm x0 x1 = .next t ∧ Keeps s0 t := by
  unfold execTakeoverArm
  refine runCmd_keeps _ _ _ _ _ _ ?_ ?_
  · with_reducible assumption
  · intro v78_0 v78_1
    refine Keeps.of2 ?_
    refine Keeps2.ite ?_ ?_
    · refine Keeps2.of ?_
      refine refuse_keeps _ _ _ ?_
      with_reducible assumption
    · refine Keeps2.ite ?_ ?_
      · refine Keeps2.of ?_
        refine refuse_keeps _ _ _ ?_
        with_reducible assumption
      · refine Keeps2.ite ?_ ?_
        · refine Keeps2.of ?_
          refine done_keeps _ _ ?_
          refine updFlt_keeps _ _ _ ?_
          with_reducible assumption
        · refine Keeps2.ite ?_ ?_
          · refine Keeps2.of ?_
            refine refuse_keeps _ _ _ ?_
            with_reducible assumption
          · refine Keeps2.ite ?_ ?_
            · refine Keeps2.of ?_
              refine refuse_keeps _ _ _ ?_
              with_reducible assumption
            · refine Keeps2.of ?_
              refine done_keeps _ _ ?_
              refine Keeps.ite0 ?_ ?_
              · refine fireTakeover_keeps _ _ _ _ ?_
                refine updFlt_keeps _ _ _ ?_
                with_reducible assumption
              · refine updFlt_keeps _ _ _ ?_
                with_reducible assumption

theorem execWireCompat_keeps (s0 : State) (x0) (x1) (h : Keeps s0 x1) : ∃ t, execWireCompat x0 x1 = .next t ∧ Keeps s0 t := by
  unfold execWireCompat
  refine runCmd_keeps _ _ _ _ _ _ ?_ ?_
  · with_reducible assumption
  · intro v78_0 v78_1
    refine Keeps.of2 ?_
    refine Keeps2.ite ?_ ?_
    · refine Keeps2.of ?_
      refine refuse_keeps _ _ _ ?_
      with_reducible assumption
    · refine Keeps2.ite ?_ ?_
      · refine Keeps2.of ?_
        refine refuse_keeps _ _ _ ?_
        with_reducible assumption
      · refine Keeps2.of ?_
        refine done_keeps _ _ ?_
        refine updFlt_keeps _ _ _ ?_
        with_reducible assumption

theorem execFaultQuery_keeps (s0 : State) (x0) (x1) (h : Keeps s0 x1) : ∃ t, execFaultQuery x0 x1 = .next t ∧ Keeps s0 t := by
  unfold execFaultQuery
  refine runCmd_keeps _ _ _ _ _ _ ?_ ?_
  · with_reducible assumption
  · intro v78_0 v78_1
    refine Keeps.of2 ?_
    refine Keeps2.mk ?_
    refine Keeps1.mk ?_
    with_reducible assumption

end Sys2Proof.Machine
end

