-- ==== Sys2Proof/Laws/Keeps09.lean ====
section
/-!
SUPPORT. What every operation keeps (`Keeps`), operation by operation: Thermal, RecOps, Teardown, Bringup, Weights.
-/
namespace Sys2Proof.Machine
open Sys2Proof

/-! ### Thermal -/

theorem parkContexts_keeps (s0 : State) (x0) (h : Keeps s0 x0) : Keeps s0 (parkContexts x0) := by
  unfold parkContexts
  refine Keeps.foldl0 ?_ ?_
  · intro v120 v120_b v120_h
    refine Keeps.ite0 ?_ ?_
    · refine ctxCount_keeps _ _ _ _ ?_
      refine State.setCtx_keeps _ _ _ _ ?_
      refine State.setCore_keeps _ _ _ _ ?_
      refine stopEngines_keeps _ _ _ ?_
      with_reducible assumption
    · refine State.setCore_keeps _ _ _ _ ?_
      refine stopEngines_keeps _ _ _ ?_
      with_reducible assumption
  · with_reducible assumption

theorem resumeParked_keeps (s0 : State) (x0) (h : Keeps s0 x0) : Keeps s0 (resumeParked x0) := by
  unfold resumeParked
  refine resumeGroups_keeps _ _ ?_
  refine retryHeld_keeps _ _ ?_
  refine Keeps.foldl0 ?_ ?_
  · intro v103 v103_b v103_h
    refine Keeps.ite0 ?_ ?_
    · refine settleIdle_keeps _ _ _ ?_
      refine State.setCtx_keeps _ _ _ _ ?_
      with_reducible assumption
    · with_reducible assumption
  · refine Keeps.foldl0 ?_ ?_
    · intro v104 v104_b v104_h
      refine State.setCore_keeps _ _ _ _ ?_
      with_reducible assumption
    · with_reducible assumption

theorem enterTrip_keeps (s0 : State) (x0) (h : Keeps s0 x0) : Keeps s0 (enterTrip x0) := by
  unfold enterTrip
  refine faultEvent_keeps _ _ _ _ ?_
  refine healthCount_keeps _ _ _ _ ?_
  refine dryEvent_keeps _ _ _ ?_
  refine parkContexts_keeps _ _ ?_
  refine pwrCount_keeps _ _ _ _ ?_
  refine updPwr_keeps _ _ _ ?_
  with_reducible assumption

theorem execThermalSample_keeps (s0 : State) (x0) (x1) (x2) (h : Keeps s0 x2) : ∃ t, execThermalSample x0 x1 x2 = .next t ∧ Keeps s0 t := by
  unfold execThermalSample
  refine Keeps.iteN ?_ ?_
  · refine ⟨_, rfl, ?_⟩
    with_reducible assumption
  · refine ⟨_, rfl, ?_⟩
    refine Keeps.ite0 ?_ ?_
    · refine enterTrip_keeps _ _ ?_
      refine Keeps.ite0 ?_ ?_
      · refine fatalCause_keeps _ _ _ ?_
        refine updPwr_keeps _ _ _ ?_
        refine updPwr_keeps _ _ _ ?_
        with_reducible assumption
      · refine updPwr_keeps _ _ _ ?_
        with_reducible assumption
    · refine Keeps.ite0 ?_ ?_
      · refine fatalCause_keeps _ _ _ ?_
        refine updPwr_keeps _ _ _ ?_
        refine updPwr_keeps _ _ _ ?_
        with_reducible assumption
      · refine updPwr_keeps _ _ _ ?_
        with_reducible assumption

theorem execTripClear_keeps (s0 : State) (x0) (h : Keeps s0 x0) : ∃ t, execTripClear x0 = .next t ∧ Keeps s0 t := by
  unfold execTripClear
  (dsimp only; split)
  · refine ⟨_, rfl, ?_⟩
    with_reducible assumption
  · refine Keeps.iteN ?_ ?_
    · refine ⟨_, rfl, ?_⟩
      with_reducible assumption
    · refine ⟨_, rfl, ?_⟩
      refine resumeParked_keeps _ _ ?_
      refine pwrCount_keeps _ _ _ _ ?_
      refine updPwr_keeps _ _ _ ?_
      with_reducible assumption

theorem execThermtripAssert_keeps (s0 : State) (x0) (h : Keeps s0 x0) : ∃ t, execThermtripAssert x0 = .next t ∧ Keeps s0 t := by
  unfold execThermtripAssert
  split
  · refine ⟨_, rfl, ?_⟩
    with_reducible assumption
  · refine ⟨_, rfl, ?_⟩
    refine Keeps.ite0 ?_ ?_
    · refine updPwr_keeps _ _ _ ?_
      with_reducible assumption
    · with_reducible assumption

/-! ### RecOps -/

theorem putMarker_keeps (s0 : State) (x0) (x1) (h : Keeps s0 x1) : Keeps s0 (putMarker x0 x1) := by
  unfold putMarker
  refine capture_keeps _ _ _ _ _ _ _ _ _ _ ?_
  with_reducible assumption

theorem stopCapture_keeps (s0 : State) (x0) (h : Keeps s0 x0) : Keeps s0 (stopCapture x0) := by
  unfold stopCapture
  refine updRec_keeps _ _ _ ?_
  refine putMarker_keeps _ _ _ ?_
  with_reducible assumption

theorem stopContext_keeps (s0 : State) (x0) (x1) (h : Keeps s0 x1) : Keeps s0 (stopContext x0 x1) := by
  unfold stopContext
  refine Keeps.ite0 ?_ ?_
  · refine updRec_keeps _ _ _ ?_
    refine putMarker_keeps _ _ _ ?_
    with_reducible assumption
  · with_reducible assumption

theorem diverge_keeps (s0 : State) (x0) (x1) (h : Keeps s0 x1) : Keeps s0 (diverge x0 x1) := by
  unfold diverge
  refine Keeps.ite0 ?_ ?_
  · with_reducible assumption
  · refine updRec_keeps _ _ _ ?_
    with_reducible assumption

theorem endReplay_keeps (s0 : State) (x0) (h : Keeps s0 x0) : Keeps s0 (endReplay x0) := by
  unfold endReplay
  refine Keeps.upd ?_ rfl
  refine updFab_keeps _ _ _ ?_
  with_reducible assumption

theorem stopReplayOf_keeps (s0 : State) (x0) (x1) (h : Keeps s0 x1) : Keeps s0 (stopReplayOf x0 x1) := by
  unfold stopReplayOf
  refine Keeps.ite0 ?_ ?_
  · refine endReplay_keeps _ _ ?_
    with_reducible assumption
  · with_reducible assumption

theorem loseRings_keeps (s0 : State) (x0) (x1) (h : Keeps s0 x1) : Keeps s0 (loseRings x0 x1) := by
  unfold loseRings
  split
  · refine Keeps.ite0 ?_ ?_
    · refine endReplay_keeps _ _ ?_
      refine Keeps.ite0 ?_ ?_
      · refine Keeps.upd ?_ rfl
        refine Keeps.ite0 ?_ ?_
        · refine updRec_keeps _ _ _ ?_
          with_reducible assumption
        · with_reducible assumption
      · refine Keeps.ite0 ?_ ?_
        · refine updRec_keeps _ _ _ ?_
          with_reducible assumption
        · with_reducible assumption
    · refine Keeps.ite0 ?_ ?_
      · refine Keeps.upd ?_ rfl
        refine Keeps.ite0 ?_ ?_
        · refine updRec_keeps _ _ _ ?_
          with_reducible assumption
        · with_reducible assumption
      · refine Keeps.ite0 ?_ ?_
        · refine updRec_keeps _ _ _ ?_
          with_reducible assumption
        · with_reducible assumption
  · refine Keeps.ite0 ?_ ?_
    · refine Keeps.upd ?_ rfl
      refine Keeps.ite0 ?_ ?_
      · refine updRec_keeps _ _ _ ?_
        with_reducible assumption
      · with_reducible assumption
    · refine Keeps.ite0 ?_ ?_
      · refine updRec_keeps _ _ _ ?_
        with_reducible assumption
      · with_reducible assumption

theorem dropProofs_keeps (s0 : State) (x0) (x1) (h : Keeps s0 x1) : Keeps s0 (dropProofs x0 x1) := by
  unfold dropProofs
  refine Keeps.upd ?_ rfl
  with_reducible assumption

/-! ### Teardown -/

theorem revokeWindows_keeps (s0 : State) (x0) (x1) (h : Keeps s0 x1) : Keeps s0 (revokeWindows x0 x1) := by
  unfold revokeWindows
  refine updFab_keeps _ _ _ ?_
  refine stopReplayOf_keeps _ _ _ ?_
  refine stopContext_keeps _ _ _ ?_
  with_reducible assumption

theorem retirePlates_keeps (s0 : State) (x0) (x1) (h : Keeps s0 x1) : Keeps s0 (retirePlates x0 x1) := by
  unfold retirePlates
  refine Keeps.foldl0 ?_ ?_
  · intro v121 v121_b v121_h
    refine Keeps.ite0 ?_ ?_
    · refine updPlate_keeps _ _ _ _ ?_
      with_reducible assumption
    · with_reducible assumption
  · with_reducible assumption

theorem haltCore_keeps (s0 : State) (x0) (x1) (x2) (h : Keeps s0 x2) : Keeps s0 (haltCore x0 x1 x2) := by
  unfold haltCore
  refine Keeps.ite0 ?_ ?_
  · refine State.setCore_keeps _ _ _ _ ?_
    with_reducible assumption
  · refine Keeps.foldl0 ?_ ?_
    · intro v77_0 v77_1 v77_2
      refine State.setThread_keeps _ _ _ _ ?_
      with_reducible assumption
    · refine State.setCore_keeps _ _ _ _ ?_
      with_reducible assumption

theorem dropImage_keeps (s0 : State) (x0) (x1) (h : Keeps s0 x1) : Keeps s0 (dropImage x0 x1) := by
  unfold dropImage
  (dsimp only; split)
  · refine completeSlot_keeps _ _ _ _ _ _ ?_
    refine State.setCtx_keeps _ _ _ _ ?_
    with_reducible assumption
  · refine State.setCtx_keeps _ _ _ _ ?_
    with_reducible assumption

theorem clearSequences_keeps (s0 : State) (x0) (x1) (h : Keeps s0 x1) : Keeps s0 (clearSequences x0 x1) := by
  unfold clearSequences
  refine Keeps.foldl0 ?_ ?_
  · intro v78_0 v78_1 v78_2
    refine updSeq_keeps _ _ _ ?_
    refine Keeps.foldl0 ?_ ?_
    · intro v75_0 v75_1 v75_2
      refine dropSeq_keeps _ _ _ _ _ ?_
      refine Keeps.ite0 ?_ ?_
      · with_reducible assumption
      · refine unpinSeq_keeps _ _ _ _ _ ?_
        with_reducible assumption
    · with_reducible assumption
  · with_reducible assumption

theorem clearWeights_keeps (s0 : State) (x0) (x1) (h : Keeps s0 x1) : Keeps s0 (clearWeights x0 x1) := by
  unfold clearWeights
  refine Keeps.foldl0 ?_ ?_
  · intro v78_0 v78_1 v78_2
    split
    · refine Keeps.ite0 ?_ ?_
      · refine updMem_keeps _ _ _ ?_ ?_
        · refine dropWeight_keeps _ _ _ ?_
          with_reducible assumption
        · intro v74_0
          rfl
      · with_reducible assumption
    · with_reducible assumption
  · refine Keeps.foldl0 ?_ ?_
    · intro v77_0 v77_1 v77_2
      refine endThatch_keeps _ _ _ _ ?_
      with_reducible assumption
    · with_reducible assumption

theorem haltContext_keeps (s0 : State) (x0) (x1) (h : Keeps s0 x1) : Keeps s0 (haltContext x0 x1) := by
  unfold haltContext
  refine Keeps.upd ?_ rfl
  refine dropProofs_keeps _ _ _ ?_
  refine dropImage_keeps _ _ _ ?_
  refine Keeps.foldl0 ?_ ?_
  · intro v75_0 v75_1 v75_2
    refine haltCore_keeps _ _ _ _ ?_
    with_reducible assumption
  · refine retirePlates_keeps _ _ _ ?_
    refine clearWeights_keeps _ _ _ ?_
    refine clearSequences_keeps _ _ _ ?_
    refine groupsDestroy_keeps _ _ _ ?_
    with_reducible assumption

theorem abandonRequests_keeps (s0 : State) (x0) (x1) (h : Keeps s0 x1) : Keeps s0 (abandonRequests x0 x1) := by
  unfold abandonRequests
  refine Keeps.foldl0 ?_ ?_
  · intro v78_0 v78_1 v78_2
    split
    · refine Keeps.ite0 ?_ ?_
      · refine hifCount_keeps _ _ _ ?_
        refine freeTrack_keeps _ _ _ _ ?_
        refine unqueue_keeps _ _ _ ?_
        with_reducible assumption
      · with_reducible assumption
    · with_reducible assumption
  · refine Keeps.upd ?_ rfl
    with_reducible assumption

theorem drainQueues_keeps (s0 : State) (x0) (x1) (x2) (h : Keeps s0 x2) : Keeps s0 (drainQueues x0 x1 x2) := by
  unfold drainQueues
  refine Keeps.upd ?_ rfl
  with_reducible assumption

theorem resetInterrupts_keeps (s0 : State) (x0) (x1) (h : Keeps s0 x1) : Keeps s0 (resetInterrupts x0 x1) := by
  unfold resetInterrupts
  refine State.setFn_keeps _ _ _ _ ?_
  refine State.setRing_keeps _ _ _ _ ?_
  refine Keeps.upd ?_ rfl
  with_reducible assumption

theorem forgetRegion_keeps (s0 : State) (x0) (x1) (h : Keeps s0 x1) : Keeps s0 (forgetRegion x0 x1) := by
  unfold forgetRegion
  refine updMem_keeps _ _ _ ?_ ?_
  · refine Keeps.foldl0 ?_ ?_
    · intro v77_0 v77_1 v77_2
      refine State.setPage_keeps _ _ _ _ ?_
      refine Keeps.ite0 ?_ ?_
      · refine killStripes_keeps _ _ _ ?_
        with_reducible assumption
      · with_reducible assumption
    · with_reducible assumption
  · intro v78_0
    rfl

theorem releaseMemory_keeps (s0 : State) (x0) (x1) (h : Keeps s0 x1) : Keeps s0 (releaseMemory x0 x1) := by
  unfold releaseMemory
  refine updMem_keeps _ _ _ ?_ ?_
  · refine State.setCtx_keeps _ _ _ _ ?_
    refine Keeps.foldl0 ?_ ?_
    · intro v76_0 v76_1 v76_2
      refine State.setXfer_keeps _ _ _ _ ?_
      with_reducible assumption
    · refine Keeps.foldl0 ?_ ?_
      · intro v75_0 v75_1 v75_2
        refine Keeps.upd ?_ rfl
        with_reducible assumption
      · refine Keeps.foldl0 ?_ ?_
        · intro v74_0 v74_1 v74_2
          refine Keeps.ite0 ?_ ?_
          · refine forgetRegion_keeps _ _ _ ?_
            with_reducible assumption
          · with_reducible assumption
        · refine Keeps.foldl0 ?_ ?_
          · intro v73_0 v73_1 v73_2
            refine Keeps.ite0 ?_ ?_
            · refine freePlate_keeps _ _ _ ?_
              with_reducible assumption
            · with_reducible assumption
          · refine Keeps.foldl0 ?_ ?_
            · intro v72_0 v72_1 v72_2
              refine Keeps.ite0 ?_ ?_
              · refine State.setWay_keeps _ _ _ _ ?_
                refine clearWay_keeps _ _ _ _ ?_
                with_reducible assumption
              · with_reducible assumption
            · refine Keeps.foldl0 ?_ ?_
              · intro v71_0 v71_1 v71_2
                refine Keeps.ite0 ?_ ?_
                · refine clearCore_keeps _ _ _ ?_
                  with_reducible assumption
                · with_reducible assumption
              · refine loseRings_keeps _ _ _ ?_
                with_reducible assumption
  · intro v78_0
    rfl

theorem clearUsage_keeps (s0 : State) (x0) (x1) (h : Keeps s0 x1) : Keeps s0 (clearUsage x0 x1) := by
  unfold clearUsage
  refine Keeps.foldl0 ?_ ?_
  · intro v78_0 v78_1 v78_2
    refine State.setQuota_keeps _ _ _ _ _ ?_
    with_reducible assumption
  · with_reducible assumption

theorem clearCounters_keeps (s0 : State) (x0) (x1) (h : Keeps s0 x1) : Keeps s0 (clearCounters x0 x1) := by
  unfold clearCounters
  refine Keeps.upd ?_ rfl
  refine State.setCtx_keeps _ _ _ _ ?_
  refine updFab_keeps _ _ _ ?_
  refine updMem_keeps _ _ _ ?_ ?_
  · with_reducible assumption
  · intro v75_0
    rfl

theorem returnFunction_keeps (s0 : State) (x0) (x1) (h : Keeps s0 x1) : Keeps s0 (returnFunction x0 x1) := by
  unfold returnFunction
  refine Keeps.foldl0 ?_ ?_
  · intro v78_0 v78_1 v78_2
    refine completeSlot_keeps _ _ _ _ _ _ ?_
    with_reducible assumption
  · refine State.setFn_keeps _ _ _ _ ?_
    refine updSeq_keeps _ _ _ ?_
    refine Keeps.foldl0 ?_ ?_
    · intro v75_0 v75_1 v75_2
      refine State.setQuota_keeps _ _ _ _ _ ?_
      with_reducible assumption
    · refine clearCounters_keeps _ _ _ ?_
      with_reducible assumption

theorem beginTeardown_keeps (s0 : State) (x0) (x1) (h : Keeps s0 x1) : Keeps s0 (beginTeardown x0 x1) := by
  unfold beginTeardown
  refine State.setFn_keeps _ _ _ _ ?_
  refine Keeps.upd ?_ rfl
  with_reducible assumption

theorem tearVFs_keeps (s0 : State) (x0) (h : Keeps s0 x0) : Keeps s0 (tearVFs x0) := by
  unfold tearVFs
  refine Keeps.foldl0 ?_ ?_
  · intro v78_0 v78_1 v78_2
    refine Keeps.ite0 ?_ ?_
    · refine beginTeardown_keeps _ _ _ ?_
      with_reducible assumption
    · with_reducible assumption
  · refine Keeps.upd ?_ rfl
    with_reducible assumption

theorem tearDown_keeps (s0 : State) (x0) (x1) (h : Keeps s0 x1) : Keeps s0 (tearDown x0 x1) := by
  unfold tearDown
  refine Keeps.ite0 ?_ ?_
  · refine beginTeardown_keeps _ _ _ ?_
    refine Keeps.ite0 ?_ ?_
    · refine tearVFs_keeps _ _ ?_
      with_reducible assumption
    · with_reducible assumption
  · refine Keeps.ite0 ?_ ?_
    · refine tearVFs_keeps _ _ ?_
      with_reducible assumption
    · with_reducible assumption

theorem execFlr_keeps (s0 : State) (x0) (x1) (h : Keeps s0 x1) : ∃ t, execFlr x0 x1 = .next t ∧ Keeps s0 t := by
  unfold execFlr
  refine Keeps.iteN ?_ ?_
  · refine ⟨_, rfl, ?_⟩
    refine emit_keeps _ _ _ ?_
    with_reducible assumption
  · refine Keeps.iteN ?_ ?_
    · refine ⟨_, rfl, ?_⟩
      refine emit_keeps _ _ _ ?_
      refine Keeps.ite0 ?_ ?_
      · refine hifCount_keeps _ _ _ ?_
        with_reducible assumption
      · with_reducible assumption
    · refine ⟨_, rfl, ?_⟩
      refine tearDown_keeps _ _ _ ?_
      refine hifCount_keeps _ _ _ ?_
      with_reducible assumption

theorem execFnReset_keeps (s0 : State) (x0) (x1) (h : Keeps s0 x1) : ∃ t, execFnReset x0 x1 = .next t ∧ Keeps s0 t := by
  unfold execFnReset
  refine runCmdW_keeps _ _ _ _ _ _ ?_ ?_
  · with_reducible assumption
  · intro v78_0 v78_1
    refine Keeps.of1 ?_
    refine Keeps1.ite ?_ ?_
    · refine Keeps1.mk ?_
      with_reducible assumption
    · refine Keeps1.mk ?_
      refine Keeps.ite0 ?_ ?_
      · refine beginTeardown_keeps _ _ _ ?_
        refine hifCount_keeps _ _ _ ?_
        refine State.setFn_keeps _ _ _ _ ?_
        with_reducible assumption
      · refine hifCount_keeps _ _ _ ?_
        refine State.setFn_keeps _ _ _ _ ?_
        with_reducible assumption

theorem execVfEnableSet_keeps (s0 : State) (x0) (x1) (h : Keeps s0 x1) : ∃ t, execVfEnableSet x0 x1 = .next t ∧ Keeps s0 t := by
  unfold execVfEnableSet
  refine Keeps.iteN ?_ ?_
  · refine ⟨_, rfl, ?_⟩
    refine emit_keeps _ _ _ ?_
    with_reducible assumption
  · refine Keeps.iteN ?_ ?_
    · refine ⟨_, rfl, ?_⟩
      with_reducible assumption
    · refine ⟨_, rfl, ?_⟩
      refine Keeps.foldl0 ?_ ?_
      · intro v105 v105_b v105_h
        refine Keeps.ite0 ?_ ?_
        · refine State.setFn_keeps _ _ _ _ ?_
          with_reducible assumption
        · with_reducible assumption
      · refine Keeps.upd ?_ rfl
        with_reducible assumption

theorem execVfEnableClear_keeps (s0 : State) (x0) (h : Keeps s0 x0) : ∃ t, execVfEnableClear x0 = .next t ∧ Keeps s0 t := by
  unfold execVfEnableClear
  refine ⟨_, rfl, ?_⟩
  refine Keeps.ite0 ?_ ?_
  · refine emit_keeps _ _ _ ?_
    with_reducible assumption
  · refine Keeps.ite0 ?_ ?_
    · refine tearVFs_keeps _ _ ?_
      with_reducible assumption
    · with_reducible assumption

theorem endStep_keeps (s0 : State) (x0) (x1) (x2) (h : Keeps s0 x2) : Keeps s0 (endStep x0 x1 x2) := by
  unfold endStep
  refine State.setFn_keeps _ _ _ _ ?_
  split
  · refine revokeWindows_keeps _ _ _ ?_
    with_reducible assumption
  · refine haltContext_keeps _ _ _ ?_
    with_reducible assumption
  · with_reducible assumption
  · refine drainQueues_keeps _ _ _ _ ?_
    with_reducible assumption
  · refine resetInterrupts_keeps _ _ _ ?_
    with_reducible assumption
  · refine releaseMemory_keeps _ _ _ ?_
    with_reducible assumption

theorem endComputeStep_keeps (s0 : State) (x0) (x1) (h : Keeps s0 x1) : Keeps s0 (endComputeStep x0 x1) := by
  unfold endComputeStep
  split
  · refine Keeps.upd ?_ rfl
    refine Keeps.foldl0 ?_ ?_
    · intro v76_0 v76_1 v76_2
      refine revokeWindows_keeps _ _ _ ?_
      with_reducible assumption
    · with_reducible assumption
  · refine Keeps.upd ?_ rfl
    refine Keeps.foldl0 ?_ ?_
    · intro v76_0 v76_1 v76_2
      refine haltContext_keeps _ _ _ ?_
      with_reducible assumption
    · with_reducible assumption
  · refine Keeps.upd ?_ rfl
    with_reducible assumption
  · refine Keeps.upd ?_ rfl
    refine Keeps.foldl0 ?_ ?_
    · intro v76_0 v76_1 v76_2
      refine drainQueues_keeps _ _ _ _ ?_
      with_reducible assumption
    · with_reducible assumption
  · refine completeSlot_keeps _ _ _ _ _ _ ?_
    refine Keeps.upd ?_ rfl
    refine Keeps.foldl0 ?_ ?_
    · intro v75_0 v75_1 v75_2
      refine clearCounters_keeps _ _ _ ?_
      refine clearUsage_keeps _ _ _ ?_
      refine releaseMemory_keeps _ _ _ ?_
      with_reducible assumption
    · with_reducible assumption

theorem execTeardownStepEnd_keeps (s0 : State) (x0) (x1) (h : Keeps s0 x1) : ∃ t, execTeardownStepEnd x0 x1 = .next t ∧ Keeps s0 t := by
  unfold execTeardownStepEnd
  split
  · refine Keeps.iteN ?_ ?_
    · refine ⟨_, rfl, ?_⟩
      with_reducible assumption
    · refine ⟨_, rfl, ?_⟩
      refine endComputeStep_keeps _ _ _ ?_
      with_reducible assumption
  · refine Keeps.iteN ?_ ?_
    · refine ⟨_, rfl, ?_⟩
      with_reducible assumption
    · refine Keeps.iteN ?_ ?_
      · refine ⟨_, rfl, ?_⟩
        refine returnFunction_keeps _ _ _ ?_
        with_reducible assumption
      · refine ⟨_, rfl, ?_⟩
        refine endStep_keeps _ _ _ _ ?_
        with_reducible assumption

theorem execQuiesceAbandon_keeps (s0 : State) (x0) (x1) (h : Keeps s0 x1) : ∃ t, execQuiesceAbandon x0 x1 = .next t ∧ Keeps s0 t := by
  unfold execQuiesceAbandon
  split
  · refine Keeps.iteN ?_ ?_
    · refine ⟨_, rfl, ?_⟩
      refine Keeps.foldl0 ?_ ?_
      · intro v75_0 v75_1 v75_2
        refine abandonRequests_keeps _ _ _ ?_
        with_reducible assumption
      · with_reducible assumption
    · refine ⟨_, rfl, ?_⟩
      with_reducible assumption
  · refine Keeps.iteN ?_ ?_
    · refine ⟨_, rfl, ?_⟩
      refine abandonRequests_keeps _ _ _ ?_
      with_reducible assumption
    · refine ⟨_, rfl, ?_⟩
      with_reducible assumption

theorem execPcieLinkTrained_keeps (s0 : State) (x0) (x1) (x2) (x3) (h : Keeps s0 x3) : ∃ t, execPcieLinkTrained x0 x1 x2 x3 = .next t ∧ Keeps s0 t := by
  unfold execPcieLinkTrained
  refine ⟨_, rfl, ?_⟩
  refine Keeps.ite0 ?_ ?_
  · refine faultEvent_keeps _ _ _ _ ?_
    refine Keeps.upd ?_ rfl
    with_reducible assumption
  · refine Keeps.upd ?_ rfl
    with_reducible assumption

theorem linkDown_keeps (s0 : State) (x0) (h : Keeps s0 x0) : Keeps s0 (linkDown x0) := by
  unfold linkDown
  refine Keeps.upd ?_ rfl
  with_reducible assumption

theorem execPcieSurpriseDown_keeps (s0 : State) (x0) (h : Keeps s0 x0) : ∃ t, execPcieSurpriseDown x0 = .next t ∧ Keeps s0 t := by
  unfold execPcieSurpriseDown
  refine ⟨_, rfl, ?_⟩
  refine tearDown_keeps _ _ _ ?_
  refine faultEvent_keeps _ _ _ _ ?_
  refine healthCount_keeps _ _ _ _ ?_
  refine hifCount_keeps _ _ _ ?_
  refine linkDown_keeps _ _ ?_
  with_reducible assumption

/-! ### Bringup -/

theorem updDev_keeps (s0 : State) (x0) (x1) (h : Keeps s0 x1) : Keeps s0 (updDev x0 x1) := by
  unfold updDev
  refine Keeps.upd ?_ rfl
  with_reducible assumption

theorem resetCount_keeps (s0 : State) (x0) (x1) (h : Keeps s0 x1) : Keeps s0 (resetCount x0 x1) := by
  unfold resetCount
  refine updDev_keeps _ _ _ ?_
  with_reducible assumption

theorem writeDir_keeps (s0 : State) (x0) (x1) (x2) (h : Keeps s0 x2) : Keeps s0 (writeDir x0 x1 x2) := by
  unfold writeDir
  refine updDev_keeps _ _ _ ?_
  with_reducible assumption

theorem bootRom_keeps (s0 : State) (x0) (h : Keeps s0 x0) : Keeps s0 (bootRom x0) := by
  unfold bootRom
  (dsimp only; split)
  · refine Keeps.ite0 ?_ ?_
    · refine updDev_keeps _ _ _ ?_
      with_reducible assumption
    · refine Keeps.upd ?_ rfl
      refine updDev_keeps _ _ _ ?_
      with_reducible assumption
  · split
    · refine resetCount_keeps _ _ _ ?_
      refine Keeps.ite0 ?_ ?_
      · refine updDev_keeps _ _ _ ?_
        with_reducible assumption
      · refine Keeps.upd ?_ rfl
        refine updDev_keeps _ _ _ ?_
        with_reducible assumption
    · refine Keeps.ite0 ?_ ?_
      · refine updDev_keeps _ _ _ ?_
        with_reducible assumption
      · refine Keeps.upd ?_ rfl
        refine updDev_keeps _ _ _ ?_
        with_reducible assumption

theorem applyDefaults_keeps (s0 : State) (x0) (x1) (h : Keeps s0 x1) : Keeps s0 (applyDefaults x0 x1) := by
  unfold applyDefaults
  refine resetCount_keeps _ _ _ ?_
  refine Keeps.upd ?_ rfl
  refine updDev_keeps _ _ _ ?_
  with_reducible assumption

theorem execConfigLoad_keeps (s0 : State) (x0) (h : Keeps s0 x0) : ∃ t, execConfigLoad x0 = .next t ∧ Keeps s0 t := by
  unfold execConfigLoad
  refine Keeps.iteN ?_ ?_
  · refine ⟨_, rfl, ?_⟩
    with_reducible assumption
  · refine Keeps.iteN ?_ ?_
    · refine ⟨_, rfl, ?_⟩
      refine applyDefaults_keeps _ _ _ ?_
      refine updDev_keeps _ _ _ ?_
      refine updDev_keeps _ _ _ ?_
      with_reducible assumption
    · refine ⟨_, rfl, ?_⟩
      refine updDev_keeps _ _ _ ?_
      refine updDev_keeps _ _ _ ?_
      with_reducible assumption

theorem endMgmtWaiters_keeps (s0 : State) (x0) (h : Keeps s0 x0) : Keeps s0 (endMgmtWaiters x0) := by
  unfold endMgmtWaiters
  (dsimp only; split)
  · refine updDev_keeps _ _ _ ?_
    refine Keeps.foldl0 ?_ ?_
    · intro v76_0 v76_1 v76_2
      split
      · refine completeSlot_keeps _ _ _ _ _ _ ?_
        with_reducible assumption
      · with_reducible assumption
    · refine Keeps.foldl0 ?_ ?_
      · intro v75_0 v75_1 v75_2
        split
        · refine completeSlot_keeps _ _ _ _ _ _ ?_
          with_reducible assumption
        · with_reducible assumption
      · refine Keeps.foldl0 ?_ ?_
        · intro v74_0 v74_1 v74_2
          refine Keeps.foldl0 ?_ ?_
          · intro v72_0 v72_1 v72_2
            refine Keeps.ite0 ?_ ?_
            · refine completeSlot_keeps _ _ _ _ _ _ ?_
              with_reducible assumption
            · with_reducible assumption
          · with_reducible assumption
        · with_reducible assumption
  · refine Keeps.foldl0 ?_ ?_
    · intro v77_0 v77_1 v77_2
      split
      · refine completeSlot_keeps _ _ _ _ _ _ ?_
        with_reducible assumption
      · with_reducible assumption
    · refine Keeps.foldl0 ?_ ?_
      · intro v76_0 v76_1 v76_2
        split
        · refine completeSlot_keeps _ _ _ _ _ _ ?_
          with_reducible assumption
        · with_reducible assumption
      · refine Keeps.foldl0 ?_ ?_
        · intro v75_0 v75_1 v75_2
          refine Keeps.foldl0 ?_ ?_
          · intro v73_0 v73_1 v73_2
            refine Keeps.ite0 ?_ ?_
            · refine completeSlot_keeps _ _ _ _ _ _ ?_
              with_reducible assumption
            · with_reducible assumption
          · with_reducible assumption
        · with_reducible assumption

theorem resetMain_keeps (s0 : State) (x0) (h : Keeps s0 x0) : Keeps s0 (resetMain x0) :=
  loseSynce_keeps _ _ ⟨h.pending, h.out, h.free, fun _ => rfl⟩

theorem resetFence_keeps (s0 : State) (x0) (x1) (h : Keeps s0 x1) : Keeps s0 (resetFence x0 x1) := by
  unfold resetFence
  refine faultEvent_keeps _ _ _ _ ?_
  refine Keeps.ite0 ?_ ?_
  · refine faultEvent_keeps _ _ _ _ ?_
    refine Keeps.upd ?_ rfl
    with_reducible assumption
  · refine fence_keeps _ _ _ ?_
    with_reducible assumption

theorem deviceReset_keeps (s0 : State) (x0) (x1) (h : Keeps s0 x1) : Keeps s0 (deviceReset x0 x1) := by
  unfold deviceReset
  refine resetCount_keeps _ _ _ ?_
  refine updDev_keeps _ _ _ ?_
  refine Keeps.ite0 ?_ ?_
  · refine Keeps.upd ?_ rfl
    refine resetMain_keeps _ _ ?_
    refine endMgmtWaiters_keeps _ _ ?_
    refine resetFence_keeps _ _ _ ?_
    with_reducible assumption
  · refine resetMain_keeps _ _ ?_
    refine endMgmtWaiters_keeps _ _ ?_
    refine resetFence_keeps _ _ _ ?_
    with_reducible assumption

theorem execPerstNAssert_keeps (s0 : State) (x0) (h : Keeps s0 x0) : ∃ t, execPerstNAssert x0 = .next t ∧ Keeps s0 t := by
  unfold execPerstNAssert
  refine Keeps.iteN ?_ ?_
  · refine ⟨_, rfl, ?_⟩
    with_reducible assumption
  · refine ⟨_, rfl, ?_⟩
    refine updDev_keeps _ _ _ ?_
    refine deviceReset_keeps _ _ _ ?_
    with_reducible assumption

theorem execPerstNRelease_keeps (s0 : State) (x0) (x1) (h : Keeps s0 x1) : ∃ t, execPerstNRelease x0 x1 = .next t ∧ Keeps s0 t := by
  unfold execPerstNRelease
  refine Keeps.iteN ?_ ?_
  · refine ⟨_, rfl, ?_⟩
    with_reducible assumption
  · refine ⟨_, rfl, ?_⟩
    refine Keeps.ite0 ?_ ?_
    · refine updDev_keeps _ _ _ ?_
      with_reducible assumption
    · refine updDev_keeps _ _ _ ?_
      refine updDev_keeps _ _ _ ?_
      with_reducible assumption

theorem execPowerOnResetEnter_keeps (s0 : State) (x0) (h : Keeps s0 x0) :
    ∃ t, execPowerOnResetEnter x0 = .next t ∧ Keeps s0 t := ⟨_, rfl, h.pending, h.out, h.free, fun _ => rfl⟩

theorem execPowerOnResetEnd_keeps (s0 : State) (x0) (x1) (x2) (h : Keeps s0 x2) : ∃ t, execPowerOnResetEnd x0 x1 x2 = .next t ∧ Keeps s0 t := by
  unfold execPowerOnResetEnd
  refine Keeps.iteN ?_ ?_
  · refine ⟨_, rfl, ?_⟩
    with_reducible assumption
  · refine ⟨_, rfl, ?_⟩
    refine emit_keeps _ _ _ ?_
    refine bootRom_keeps _ _ ?_
    refine updDev_keeps _ _ _ ?_
    refine updFlash_keeps _ _ _ ?_
    refine Keeps.upd ?_ rfl
    with_reducible assumption

theorem stopCore_keeps (s0 : State) (x0) (x1) (h : Keeps s0 x1) : Keeps s0 (stopCore x0 x1) := by
  unfold stopCore
  refine Keeps.foldl0 ?_ ?_
  · intro v78_0 v78_1 v78_2
    refine State.setThread_keeps _ _ _ _ ?_
    with_reducible assumption
  · refine State.setCore_keeps _ _ _ _ ?_
    with_reducible assumption

theorem execRailLoss_keeps (s0 : State) (x0) (h : Keeps s0 x0) : ∃ t, execRailLoss x0 = .next t ∧ Keeps s0 t := by
  unfold execRailLoss
  refine ⟨_, rfl, ?_⟩
  refine Keeps.foldl0 ?_ ?_
  · intro v77_0 v77_1 v77_2
    refine stopCore_keeps _ _ _ ?_
    with_reducible assumption
  · refine Keeps.foldl0 ?_ ?_
    · intro v76_0 v76_1 v76_2
      refine Keeps.ite0 ?_ ?_
      · refine updPlate_keeps _ _ _ _ ?_
        with_reducible assumption
      · with_reducible assumption
    · refine Keeps.foldl0 ?_ ?_
      · intro v75_0 v75_1 v75_2
        refine updCell_keeps _ _ _ _ ?_
        with_reducible assumption
      · refine updDev_keeps _ _ _ ?_
        refine fenceFronthaul_keeps _ _ ?_
        with_reducible assumption

theorem execDevQuery_keeps (s0 : State) (x0) (x1) (h : Keeps s0 x1) : ∃ t, execDevQuery x0 x1 = .next t ∧ Keeps s0 t := by
  unfold execDevQuery
  refine runCmd_keeps _ _ _ _ _ _ ?_ ?_
  · with_reducible assumption
  · intro v78_0 v78_1
    refine Keeps.of2 ?_
    refine Keeps2.mk ?_
    refine Keeps1.mk ?_
    with_reducible assumption

theorem execDevCfgQuery_keeps (s0 : State) (x0) (x1) (h : Keeps s0 x1) : ∃ t, execDevCfgQuery x0 x1 = .next t ∧ Keeps s0 t := by
  unfold execDevCfgQuery
  refine runCmd_keeps _ _ _ _ _ _ ?_ ?_
  · with_reducible assumption
  · intro v78_0 v78_1
    refine Keeps.of2 ?_
    refine Keeps2.mk ?_
    refine Keeps1.mk ?_
    with_reducible assumption

theorem execDevReset_keeps (s0 : State) (x0) (x1) (h : Keeps s0 x1) : ∃ t, execDevReset x0 x1 = .next t ∧ Keeps s0 t := by
  unfold execDevReset
  refine Keeps.iteN ?_ ?_
  · refine ⟨_, rfl, ?_⟩
    refine complete_keeps _ _ _ _ _ ?_
    refine admitCmd_keeps _ _ _ _ _ ?_
    with_reducible assumption
  · refine ⟨_, rfl, ?_⟩
    refine Keeps.ite0 ?_ ?_
    · refine deviceReset_keeps _ _ _ ?_
      refine Keeps.ite0 ?_ ?_
      · refine bootRom_keeps _ _ ?_
        refine writeDir_keeps _ _ _ _ ?_
        refine complete_keeps _ _ _ _ _ ?_
        refine admitCmd_keeps _ _ _ _ _ ?_
        with_reducible assumption
      · refine complete_keeps _ _ _ _ _ ?_
        refine admitCmd_keeps _ _ _ _ _ ?_
        with_reducible assumption
    · refine updDev_keeps _ _ _ ?_
      refine deviceReset_keeps _ _ _ ?_
      refine Keeps.ite0 ?_ ?_
      · refine bootRom_keeps _ _ ?_
        refine writeDir_keeps _ _ _ _ ?_
        refine complete_keeps _ _ _ _ _ ?_
        refine admitCmd_keeps _ _ _ _ _ ?_
        with_reducible assumption
      · refine complete_keeps _ _ _ _ _ ?_
        refine admitCmd_keeps _ _ _ _ _ ?_
        with_reducible assumption

theorem execComputeReset_keeps (s0 : State) (x0) (x1) (h : Keeps s0 x1) : ∃ t, execComputeReset x0 x1 = .next t ∧ Keeps s0 t := by
  unfold execComputeReset
  refine runCmdW_keeps _ _ _ _ _ _ ?_ ?_
  · with_reducible assumption
  · intro v78_0 v78_1
    refine Keeps.of1 ?_
    refine Keeps1.ite ?_ ?_
    · refine Keeps1.mk ?_
      with_reducible assumption
    · refine Keeps1.mk ?_
      refine resetCount_keeps _ _ _ ?_
      refine updDev_keeps _ _ _ ?_
      split
      · refine Keeps.ite0 ?_ ?_
        · refine endReplay_keeps _ _ ?_
          with_reducible assumption
        · with_reducible assumption
      · with_reducible assumption

theorem execFwStage_keeps (s0 : State) (x0) (x1) (h : Keeps s0 x1) : ∃ t, execFwStage x0 x1 = .next t ∧ Keeps s0 t := by
  unfold execFwStage
  refine runCmd_keeps _ _ _ _ _ _ ?_ ?_
  · with_reducible assumption
  · intro v78_0 v78_1
    refine Keeps.of2 ?_
    refine Keeps2.ite ?_ ?_
    · refine Keeps2.of ?_
      refine refuse_keeps _ _ _ ?_
      with_reducible assumption
    · refine Keeps2.ite ?_ ?_
      · refine Keeps2.of ?_
        refine refuse_keeps _ _ _ ?_
        with_reducible assumption
      · refine Keeps2.ite ?_ ?_
        · refine Keeps2.of ?_
          refine refuse_keeps _ _ _ ?_
          with_reducible assumption
        · refine Keeps2.of ?_
          refine done_keeps _ _ ?_
          refine updDev_keeps _ _ _ ?_
          refine writeDir_keeps _ _ _ _ ?_
          refine updDev_keeps _ _ _ ?_
          with_reducible assumption

theorem execCfgWrite_keeps (s0 : State) (x0) (x1) (h : Keeps s0 x1) : ∃ t, execCfgWrite x0 x1 = .next t ∧ Keeps s0 t := by
  unfold execCfgWrite
  refine runCmd_keeps _ _ _ _ _ _ ?_ ?_
  · with_reducible assumption
  · intro v78_0 v78_1
    refine Keeps.of2 ?_
    refine Keeps2.ite ?_ ?_
    · refine Keeps2.of ?_
      refine refuse_keeps _ _ _ ?_
      with_reducible assumption
    · refine Keeps2.ite ?_ ?_
      · refine Keeps2.of ?_
        refine refuse_keeps _ _ _ ?_
        with_reducible assumption
      · refine Keeps2.of ?_
        refine done_keeps _ _ ?_
        refine updDev_keeps _ _ _ ?_
        with_reducible assumption

/-! ### Weights -/

theorem weightSource_keeps (s0 : State) (x0) (x1) (x2) (x3) (x4) (h : Keeps s0 x1) : Keeps s0 (((weightSource x0 x1 x2 x3 x4).2).2) := by
  unfold weightSource
  refine Keeps.of2 ?_
  refine Keeps2.ite ?_ ?_
  · refine Keeps2.mk ?_
    refine Keeps1.mk ?_
    with_reducible assumption
  · refine Keeps2.of ?_
    refine deviceData_keeps _ _ _ _ _ ?_
    with_reducible assumption

theorem execWeightInstall_keeps (s0 : State) (x0) (x1) (h : Keeps s0 x1) : ∃ t, execWeightInstall x0 x1 = .next t ∧ Keeps s0 t := by
  unfold execWeightInstall
  refine runCmdW_keeps _ _ _ _ _ _ ?_ ?_
  · with_reducible assumption
  · intro v78_0 v78_1
    refine Keeps.of1 ?_
    refine Keeps1.ite ?_ ?_
    · refine Keeps1.mk ?_
      with_reducible assumption
    · refine Keeps1.ite ?_ ?_
      · refine Keeps1.mk ?_
        refine Keeps.of2 ?_
        refine Keeps2.ite ?_ ?_
        · refine Keeps2.mk ?_
          refine Keeps1.mk ?_
          with_reducible assumption
        · refine Keeps2.of ?_
          refine deviceData_keeps _ _ _ _ _ ?_
          with_reducible assumption
      · split
        · refine Keeps1.mk ?_
          refine Keeps.of2 ?_
          refine Keeps2.ite ?_ ?_
          · refine Keeps2.mk ?_
            refine Keeps1.mk ?_
            with_reducible assumption
          · refine Keeps2.of ?_
            refine deviceData_keeps _ _ _ _ _ ?_
            with_reducible assumption
        · refine Keeps1.ite ?_ ?_
          · refine Keeps1.mk ?_
            refine Keeps.of2 ?_
            refine Keeps2.ite ?_ ?_
            · refine Keeps2.mk ?_
              refine Keeps1.mk ?_
              with_reducible assumption
            · refine Keeps2.of ?_
              refine deviceData_keeps _ _ _ _ _ ?_
              with_reducible assumption
          · refine Keeps1.ite ?_ ?_
            · refine Keeps1.mk ?_
              refine createRegion_keeps _ _ _ _ _ _ _ ?_
              refine Keeps.of2 ?_
              refine Keeps2.ite ?_ ?_
              · refine Keeps2.mk ?_
                refine Keeps1.mk ?_
                with_reducible assumption
              · refine Keeps2.of ?_
                refine deviceData_keeps _ _ _ _ _ ?_
                with_reducible assumption
            · split
              · refine Keeps1.mk ?_
                refine dropRegion_keeps _ _ _ ?_
                refine createRegion_keeps _ _ _ _ _ _ _ ?_
                refine Keeps.of2 ?_
                refine Keeps2.ite ?_ ?_
                · refine Keeps2.mk ?_
                  refine Keeps1.mk ?_
                  with_reducible assumption
                · refine Keeps2.of ?_
                  refine deviceData_keeps _ _ _ _ _ ?_
                  with_reducible assumption
              · refine Keeps1.ite ?_ ?_
                · refine Keeps1.mk ?_
                  refine dropWeight_keeps _ _ _ ?_
                  refine weightSource_keeps _ _ _ _ _ _ ?_
                  refine State.setWeight_keeps _ _ _ _ ?_
                  refine charge_keeps _ _ _ _ _ ?_
                  refine ownFrames_keeps _ _ _ _ _ ?_
                  refine createRegion_keeps _ _ _ _ _ _ _ ?_
                  refine Keeps.of2 ?_
                  refine Keeps2.ite ?_ ?_
                  · refine Keeps2.mk ?_
                    refine Keeps1.mk ?_
                    with_reducible assumption
                  · refine Keeps2.of ?_
                    refine deviceData_keeps _ _ _ _ _ ?_
                    with_reducible assumption
                · split
                  · (dsimp only; split)
                    · refine Keeps1.mk ?_
                      refine dropWeight_keeps _ _ _ ?_
                      refine weightSource_keeps _ _ _ _ _ _ ?_
                      refine State.setWeight_keeps _ _ _ _ ?_
                      refine charge_keeps _ _ _ _ _ ?_
                      refine ownFrames_keeps _ _ _ _ _ ?_
                      refine createRegion_keeps _ _ _ _ _ _ _ ?_
                      with_reducible assumption
                    · refine Keeps1.mk ?_
                      refine weightProgress_keeps _ _ ?_
                      refine updMem_keeps _ _ _ ?_ ?_
                      · (rename_i hq64; refine writeBlocks_keeps _ _ _ _ _ _ ?_ _ hq64)
                        refine memWrite_keeps _ _ _ _ ?_
                        refine weightSource_keeps _ _ _ _ _ _ ?_
                        refine State.setWeight_keeps _ _ _ _ ?_
                        refine charge_keeps _ _ _ _ _ ?_
                        refine ownFrames_keeps _ _ _ _ _ ?_
                        refine createRegion_keeps _ _ _ _ _ _ _ ?_
                        with_reducible assumption
                      · intro v64_0
                        rfl
                  · (dsimp only; split)
                    · refine Keeps1.mk ?_
                      refine dropWeight_keeps _ _ _ ?_
                      refine weightSource_keeps _ _ _ _ _ _ ?_
                      refine State.setWeight_keeps _ _ _ _ ?_
                      refine charge_keeps _ _ _ _ _ ?_
                      refine ownFrames_keeps _ _ _ _ _ ?_
                      refine createRegion_keeps _ _ _ _ _ _ _ ?_
                      refine deviceData_keeps _ _ _ _ _ ?_
                      with_reducible assumption
                    · refine Keeps1.mk ?_
                      refine weightProgress_keeps _ _ ?_
                      refine updMem_keeps _ _ _ ?_ ?_
                      · (rename_i hq64; refine writeBlocks_keeps _ _ _ _ _ _ ?_ _ hq64)
                        refine memWrite_keeps _ _ _ _ ?_
                        refine weightSource_keeps _ _ _ _ _ _ ?_
                        refine State.setWeight_keeps _ _ _ _ ?_
                        refine charge_keeps _ _ _ _ _ ?_
                        refine ownFrames_keeps _ _ _ _ _ ?_
                        refine createRegion_keeps _ _ _ _ _ _ _ ?_
                        refine deviceData_keeps _ _ _ _ _ ?_
                        with_reducible assumption
                      · intro v64_0
                        rfl

theorem readBlocks_keeps (s0 : State) (x0) (x1) (h : Keeps s0 x1) : Keeps s0 ((readBlocks x0 x1).2).2 := by
  unfold readBlocks
  refine Keeps.foldl2 ?_ ?_
  · intro v122 v122_b v122_h
    refine Keeps.of2 ?_
    refine Keeps2.ite ?_ ?_
    · refine Keeps2.mk ?_
      refine Keeps1.mk ?_
      refine memRead_keeps _ _ _ _ _ ?_
      with_reducible assumption
    · refine Keeps2.mk ?_
      refine Keeps1.mk ?_
      refine Keeps.foldl1 ?_ ?_
      · intro v123 v123_b v123_h
        refine Keeps.of1 ?_
        refine Keeps1.mk ?_
        refine readStripe_keeps _ _ _ _ _ ?_
        with_reducible assumption
      · with_reducible assumption
  · with_reducible assumption

theorem execWeightQuery_keeps (s0 : State) (x0) (x1) (h : Keeps s0 x1) : ∃ t, execWeightQuery x0 x1 = .next t ∧ Keeps s0 t := by
  unfold execWeightQuery
  refine runCmdW_keeps _ _ _ _ _ _ ?_ ?_
  · with_reducible assumption
  · intro v78_0 v78_1
    refine Keeps.of1 ?_
    split
    · (dsimp only; split)
      · refine Keeps1.mk ?_
        with_reducible assumption
      · refine Keeps1.mk ?_
        with_reducible assumption
    · split
      · (dsimp only; split)
        · refine Keeps1.mk ?_
          with_reducible assumption
        · refine Keeps1.mk ?_
          with_reducible assumption
      · (dsimp only; split)
        · refine Keeps1.mk ?_
          with_reducible assumption
        · refine Keeps1.ite ?_ ?_
          · refine Keeps1.mk ?_
            refine startXfer_keeps _ _ _ ?_
            refine updMem_keeps _ _ _ ?_ ?_
            · with_reducible assumption
            · intro v69_0
              rfl
          · refine Keeps1.mk ?_
            refine finishVerify_keeps _ _ _ _ _ _ ?_
            refine readBlocks_keeps _ _ _ ?_
            with_reducible assumption

theorem execWeightRepair_keeps (s0 : State) (x0) (x1) (h : Keeps s0 x1) : ∃ t, execWeightRepair x0 x1 = .next t ∧ Keeps s0 t := by
  unfold execWeightRepair
  refine runCmdW_keeps _ _ _ _ _ _ ?_ ?_
  · with_reducible assumption
  · intro v78_0 v78_1
    refine Keeps.of1 ?_
    (dsimp only; split)
    · refine Keeps1.mk ?_
      with_reducible assumption
    · refine Keeps1.ite ?_ ?_
      · refine Keeps1.mk ?_
        with_reducible assumption
      · refine Keeps1.ite ?_ ?_
        · refine Keeps1.mk ?_
          with_reducible assumption
        · refine Keeps1.ite ?_ ?_
          · refine Keeps1.mk ?_
            refine weightSource_keeps _ _ _ _ _ _ ?_
            with_reducible assumption
          · refine Keeps1.ite ?_ ?_
            · refine Keeps1.mk ?_
              refine weightSource_keeps _ _ _ _ _ _ ?_
              with_reducible assumption
            · split
              · refine Keeps1.mk ?_
                refine weightSource_keeps _ _ _ _ _ _ ?_
                with_reducible assumption
              · refine Keeps1.mk ?_
                refine weightProgress_keeps _ _ ?_
                refine updMem_keeps _ _ _ ?_ ?_
                · (rename_i hq67; refine writeBlocks_keeps _ _ _ _ _ _ ?_ _ hq67)
                  refine weightSource_keeps _ _ _ _ _ _ ?_
                  with_reducible assumption
                · intro v67_0
                  rfl

theorem execWeightRemove_keeps (s0 : State) (x0) (x1) (h : Keeps s0 x1) : ∃ t, execWeightRemove x0 x1 = .next t ∧ Keeps s0 t := by
  unfold execWeightRemove
  refine runCmdW_keeps _ _ _ _ _ _ ?_ ?_
  · with_reducible assumption
  · intro v33_0 v33_1
    refine Keeps.of1 ?_
    extract_lets
    split
    · refine Keeps1.mk ?_
      with_reducible assumption
    · refine Keeps1.ite ?_ ?_
      · refine Keeps1.mk ?_
        refine updMem_keeps _ _ _ ?_ ?_
        · with_reducible assumption
        · intro v34_0
          rfl
      · refine Keeps1.mk ?_
        refine removeWeight_keeps _ _ _ _ ?_
        with_reducible assumption

theorem readSchedule_keeps (s0 : State) (x0) (x1) (x2) (x3) (h : Keeps s0 x0) : Keeps s0 (((readSchedule x0 x1 x2 x3).2).2) := by
  unfold readSchedule
  refine Keeps.of2 ?_
  refine Keeps2.ite ?_ ?_
  · refine Keeps2.mk ?_
    refine Keeps1.mk ?_
    with_reducible assumption
  · refine Keeps2.ite ?_ ?_
    · refine Keeps2.mk ?_
      refine Keeps1.mk ?_
      refine memRead_keeps _ _ _ _ _ ?_
      with_reducible assumption
    · refine Keeps2.ite ?_ ?_
      · refine Keeps2.mk ?_
        refine Keeps1.mk ?_
        refine memRead_keeps _ _ _ _ _ ?_
        with_reducible assumption
      · (dsimp only; split)
        · split
          · refine Keeps2.mk ?_
            refine Keeps1.mk ?_
            refine memRead_keeps _ _ _ _ _ ?_
            refine memRead_keeps _ _ _ _ _ ?_
            with_reducible assumption
          · refine Keeps2.ite ?_ ?_
            · refine Keeps2.mk ?_
              refine Keeps1.mk ?_
              refine memRead_keeps _ _ _ _ _ ?_
              refine memRead_keeps _ _ _ _ _ ?_
              with_reducible assumption
            · refine Keeps2.ite ?_ ?_
              · refine Keeps2.mk ?_
                refine Keeps1.mk ?_
                refine memRead_keeps _ _ _ _ _ ?_
                refine memRead_keeps _ _ _ _ _ ?_
                with_reducible assumption
              · refine Keeps2.mk ?_
                refine Keeps1.mk ?_
                refine memRead_keeps _ _ _ _ _ ?_
                refine memRead_keeps _ _ _ _ _ ?_
                with_reducible assumption
        · refine Keeps2.mk ?_
          refine Keeps1.mk ?_
          refine memRead_keeps _ _ _ _ _ ?_
          refine memRead_keeps _ _ _ _ _ ?_
          with_reducible assumption

theorem beginThatch_keeps (s0 : State) (x0) (x1) (x2) (h : Keeps s0 x2) : Keeps s0 ((beginThatch x0 x1 x2).2) := by
  unfold beginThatch
  extract_lets b
  clear_value b
  refine Keeps.ite1 h ?_
  split
  · exact h
  · refine Keeps.ite1 h ?_
    extract_lets +onlyGivenNames r
    have hr : Keeps s0 r.2.2 := readSchedule_keeps _ _ _ _ _ h
    clear_value r
    split
    · exact hr
    · extract_lets +onlyGivenNames runs
      clear_value runs
      split
      · exact Keeps.ite1 hr (thatchGo_keeps _ _ (updThatch_keeps _ _ _ _ _ hr))
      · exact Keeps.ite1 hr (thatchGo_keeps _ _ (Keeps.upd hr rfl))

theorem execThatchBegin_keeps (s0 : State) (x0) (x1) (h : Keeps s0 x1) : ∃ t, execThatchBegin x0 x1 = .next t ∧ Keeps s0 t := by
  unfold execThatchBegin
  (dsimp only; split)
  · refine ⟨_, rfl, ?_⟩
    with_reducible assumption
  · refine ⟨_, rfl, ?_⟩
    refine retireFor_keeps _ _ _ _ _ _ ?_
    refine beginThatch_keeps _ _ _ _ ?_
    refine popJob_keeps _ _ _ ?_
    with_reducible assumption

theorem execThatchLatestExpiry_keeps (s0 : State) (x0) (x1) (h : Keeps s0 x1) : ∃ t, execThatchLatestExpiry x0 x1 = .next t ∧ Keeps s0 t := by
  unfold execThatchLatestExpiry
  (dsimp only; split)
  · refine ⟨_, rfl, ?_⟩
    with_reducible assumption
  · split
    · refine ⟨_, rfl, ?_⟩
      with_reducible assumption
    · refine ⟨_, rfl, ?_⟩
      refine Keeps.foldl0 ?_ ?_
      · intro v75_0 v75_1 v75_2
        refine Keeps.ite0 ?_ ?_
        · refine saveResident_keeps _ _ _ ?_
          with_reducible assumption
        · with_reducible assumption
      · refine thatchCount_keeps _ _ _ _ ?_
        refine updPlate_keeps _ _ _ _ ?_
        with_reducible assumption

end Sys2Proof.Machine
end

