-- ==== Sys2Proof/Laws/Keeps10.lean ====
section
/-!
SUPPORT. What every operation keeps (`Keeps`), operation by operation: Diag, Jtag, RunCommand, Registers, Dispatch.
-/
namespace Sys2Proof.Machine
open Sys2Proof

/-! ### Diag -/

theorem updDet_keeps (s0 : State) (x0) (x1) (h : Keeps s0 x1) : Keeps s0 (updDet x0 x1) := by
  unfold updDet
  refine Keeps.upd ?_ rfl
  with_reducible assumption

theorem execCtxSeedSet_keeps (s0 : State) (x0) (x1) (h : Keeps s0 x1) : ∃ t, execCtxSeedSet x0 x1 = .next t ∧ Keeps s0 t := by
  unfold execCtxSeedSet
  refine runCmd_keeps _ _ _ _ _ _ ?_ ?_
  · with_reducible assumption
  · intro v78_0 v78_1
    refine Keeps.of2 ?_
    refine Keeps2.ite ?_ ?_
    · refine Keeps2.of ?_
      refine refuse_keeps _ _ _ ?_
      with_reducible assumption
    · refine Keeps2.ite ?_ ?_
      · refine Keeps2.of ?_
        refine refuse_keeps _ _ _ ?_
        with_reducible assumption
      · refine Keeps2.of ?_
        refine done_keeps _ _ ?_
        refine updDet_keeps _ _ _ ?_
        with_reducible assumption

theorem execSeedRegen_keeps (s0 : State) (x0) (x1) (h : Keeps s0 x1) : ∃ t, execSeedRegen x0 x1 = .next t ∧ Keeps s0 t := by
  unfold execSeedRegen
  refine runCmd_keeps _ _ _ _ _ _ ?_ ?_
  · with_reducible assumption
  · intro v78_0 v78_1
    refine Keeps.of2 ?_
    refine Keeps2.ite ?_ ?_
    · refine Keeps2.of ?_
      refine refuse_keeps _ _ _ ?_
      with_reducible assumption
    · refine Keeps2.of ?_
      refine done_keeps _ _ ?_
      refine memWrite_keeps _ _ _ _ ?_
      with_reducible assumption

theorem finalState_keeps (s0 : State) (x0) (x1) (x2) (h : Keeps s0 x2) : Keeps s0 (((finalState x0 x1 x2).2).2) := by
  unfold finalState
  refine Keeps.of2 ?_
  refine Keeps2.mk ?_
  refine Keeps1.mk ?_
  refine memWrite_keeps _ _ _ _ ?_
  refine memRead_keeps _ _ _ _ _ ?_
  with_reducible assumption

theorem startProof_keeps (s0 : State) (x0) (x1) (x2) (x3) (x4) (h : Keeps s0 x4) : Keeps s0 (startProof x0 x1 x2 x3 x4) := by
  unfold startProof
  refine updDet_keeps _ _ _ ?_
  refine finalState_keeps _ _ _ _ ?_
  refine finalState_keeps _ _ _ _ ?_
  with_reducible assumption

theorem execProofJob_keeps (s0 : State) (x0) (x1) (h : Keeps s0 x1) : ∃ t, execProofJob x0 x1 = .next t ∧ Keeps s0 t := by
  unfold execProofJob
  (dsimp only; split)
  · split
    · refine Keeps.iteN ?_ ?_
      · refine ⟨_, rfl, ?_⟩
        refine startProof_keeps _ _ _ _ _ _ ?_
        refine popJob_keeps _ _ _ ?_
        with_reducible assumption
      · refine ⟨_, rfl, ?_⟩
        refine retireFor_keeps _ _ _ _ _ _ ?_
        refine popJob_keeps _ _ _ ?_
        with_reducible assumption
    · refine ⟨_, rfl, ?_⟩
      refine retireFor_keeps _ _ _ _ _ _ ?_
      refine popJob_keeps _ _ _ ?_
      with_reducible assumption
  · refine ⟨_, rfl, ?_⟩
    with_reducible assumption

theorem execProofDone_keeps (s0 : State) (x0) (x1) (x2) (h : Keeps s0 x2) : ∃ t, execProofDone x0 x1 x2 = .next t ∧ Keeps s0 t := by
  unfold execProofDone
  (dsimp only; split)
  · refine ⟨_, rfl, ?_⟩
    with_reducible assumption
  · refine Keeps.iteN ?_ ?_
    · refine ⟨_, rfl, ?_⟩
      refine retireFor_keeps _ _ _ _ _ _ ?_
      refine updDet_keeps _ _ _ ?_
      with_reducible assumption
    · refine ⟨_, rfl, ?_⟩
      refine retireFor_keeps _ _ _ _ _ _ ?_
      refine updDet_keeps _ _ _ ?_
      refine memWrite_keeps _ _ _ _ ?_
      refine updDet_keeps _ _ _ ?_
      with_reducible assumption

theorem execRecConfig_keeps (s0 : State) (x0) (x1) (h : Keeps s0 x1) : ∃ t, execRecConfig x0 x1 = .next t ∧ Keeps s0 t := by
  unfold execRecConfig
  refine runCmd_keeps _ _ _ _ _ _ ?_ ?_
  · with_reducible assumption
  · intro v78_0 v78_1
    refine Keeps.of2 ?_
    refine Keeps2.ite ?_ ?_
    · refine Keeps2.of ?_
      refine refuse_keeps _ _ _ ?_
      with_reducible assumption
    · refine Keeps2.ite ?_ ?_
      · refine Keeps2.of ?_
        refine refuse_keeps _ _ _ ?_
        with_reducible assumption
      · refine Keeps2.of ?_
        refine done_keeps _ _ ?_
        refine updRec_keeps _ _ _ ?_
        with_reducible assumption

theorem execRecStart_keeps (s0 : State) (x0) (x1) (h : Keeps s0 x1) : ∃ t, execRecStart x0 x1 = .next t ∧ Keeps s0 t := by
  unfold execRecStart
  refine runCmd_keeps _ _ _ _ _ _ ?_ ?_
  · with_reducible assumption
  · intro v78_0 v78_1
    refine Keeps.of2 ?_
    refine Keeps2.ite ?_ ?_
    · refine Keeps2.of ?_
      refine refuse_keeps _ _ _ ?_
      with_reducible assumption
    · refine Keeps2.ite ?_ ?_
      · refine Keeps2.of ?_
        refine refuse_keeps _ _ _ ?_
        with_reducible assumption
      · refine Keeps2.mk ?_
        refine Keeps1.mk ?_
        refine putMarker_keeps _ _ _ ?_
        refine updRec_keeps _ _ _ ?_
        with_reducible assumption

theorem execRecStop_keeps (s0 : State) (x0) (x1) (h : Keeps s0 x1) : ∃ t, execRecStop x0 x1 = .next t ∧ Keeps s0 t := by
  unfold execRecStop
  refine runCmd_keeps _ _ _ _ _ _ ?_ ?_
  · with_reducible assumption
  · intro v78_0 v78_1
    refine Keeps.of2 ?_
    refine Keeps2.ite ?_ ?_
    · refine Keeps2.of ?_
      refine refuse_keeps _ _ _ ?_
      with_reducible assumption
    · refine Keeps2.mk ?_
      refine Keeps1.mk ?_
      refine stopCapture_keeps _ _ ?_
      with_reducible assumption

theorem execRecPostStop_keeps (s0 : State) (x0) (h : Keeps s0 x0) : ∃ t, execRecPostStop x0 = .next t ∧ Keeps s0 t := by
  unfold execRecPostStop
  split
  · refine ⟨_, rfl, ?_⟩
    with_reducible assumption
  · refine Keeps.iteN ?_ ?_
    · refine ⟨_, rfl, ?_⟩
      with_reducible assumption
    · refine Keeps.iteN ?_ ?_
      · refine ⟨_, rfl, ?_⟩
        refine stopCapture_keeps _ _ ?_
        with_reducible assumption
      · refine ⟨_, rfl, ?_⟩
        refine updRec_keeps _ _ _ ?_
        with_reducible assumption

theorem execReplayStart_keeps (s0 : State) (x0) (x1) (h : Keeps s0 x1) : ∃ t, execReplayStart x0 x1 = .next t ∧ Keeps s0 t := by
  unfold execReplayStart
  refine runCmd_keeps _ _ _ _ _ _ ?_ ?_
  · with_reducible assumption
  · intro v78_0 v78_1
    refine Keeps.of2 ?_
    refine Keeps2.ite ?_ ?_
    · refine Keeps2.of ?_
      refine refuse_keeps _ _ _ ?_
      with_reducible assumption
    · refine Keeps2.ite ?_ ?_
      · refine Keeps2.of ?_
        refine refuse_keeps _ _ _ ?_
        with_reducible assumption
      · split
        · (dsimp only; split)
          · refine Keeps2.mk ?_
            refine Keeps1.mk ?_
            with_reducible assumption
          · refine Keeps2.ite ?_ ?_
            · refine Keeps2.of ?_
              refine refuse_keeps _ _ _ ?_
              with_reducible assumption
            · refine Keeps2.mk ?_
              refine Keeps1.mk ?_
              refine updDet_keeps _ _ _ ?_
              with_reducible assumption
        · (dsimp only; split)
          · refine Keeps2.mk ?_
            refine Keeps1.mk ?_
            with_reducible assumption
          · refine Keeps2.ite ?_ ?_
            · refine Keeps2.of ?_
              refine refuse_keeps _ _ _ ?_
              with_reducible assumption
            · refine Keeps2.mk ?_
              refine Keeps1.mk ?_
              refine updDet_keeps _ _ _ ?_
              with_reducible assumption

theorem execReplayStop_keeps (s0 : State) (x0) (x1) (h : Keeps s0 x1) : ∃ t, execReplayStop x0 x1 = .next t ∧ Keeps s0 t := by
  unfold execReplayStop
  refine runCmd_keeps _ _ _ _ _ _ ?_ ?_
  · with_reducible assumption
  · intro v78_0 v78_1
    refine Keeps.of2 ?_
    split
    · refine Keeps2.of ?_
      refine refuse_keeps _ _ _ ?_
      with_reducible assumption
    · refine Keeps2.ite ?_ ?_
      · refine Keeps2.of ?_
        refine refuse_keeps _ _ _ ?_
        with_reducible assumption
      · refine Keeps2.mk ?_
        refine Keeps1.mk ?_
        refine endReplay_keeps _ _ ?_
        with_reducible assumption

theorem setDry_keeps (s0 : State) (x0) (x1) (x2) (h : Keeps s0 x2) : Keeps s0 (setDry x0 x1 x2) := by
  unfold setDry
  refine updDry_keeps _ _ _ ?_
  with_reducible assumption

theorem execDryArm_keeps (s0 : State) (x0) (x1) (h : Keeps s0 x1) : ∃ t, execDryArm x0 x1 = .next t ∧ Keeps s0 t := by
  unfold execDryArm
  refine runCmd_keeps _ _ _ _ _ _ ?_ ?_
  · with_reducible assumption
  · intro v78_0 v78_1
    refine Keeps.of2 ?_
    refine Keeps2.ite ?_ ?_
    · refine Keeps2.of ?_
      refine refuse_keeps _ _ _ ?_
      with_reducible assumption
    · refine Keeps2.of ?_
      refine done_keeps _ _ ?_
      refine setDry_keeps _ _ _ _ ?_
      with_reducible assumption

theorem execDryFire_keeps (s0 : State) (x0) (x1) (h : Keeps s0 x1) : ∃ t, execDryFire x0 x1 = .next t ∧ Keeps s0 t := by
  unfold execDryFire
  refine runCmd_keeps _ _ _ _ _ _ ?_ ?_
  · with_reducible assumption
  · intro v78_0 v78_1
    refine Keeps.of2 ?_
    refine Keeps2.ite ?_ ?_
    · refine Keeps2.of ?_
      refine refuse_keeps _ _ _ ?_
      with_reducible assumption
    · refine Keeps2.mk ?_
      refine Keeps1.mk ?_
      refine dryTriggerAt_keeps _ _ _ _ ?_
      with_reducible assumption

theorem snapshot_keeps (s0 : State) (x0) (x1) (x2) (h : Keeps s0 x2) : Keeps s0 (snapshot x0 x1 x2) := by
  unfold snapshot
  refine Keeps.ite0 ?_ ?_
  · refine updDry_keeps _ _ _ ?_
    with_reducible assumption
  · refine Keeps.ite0 ?_ ?_
    · refine updDry_keeps _ _ _ ?_
      with_reducible assumption
    · refine Keeps.ite0 ?_ ?_
      · refine updRec_keeps _ _ _ ?_
        refine capture_keeps _ _ _ _ _ _ _ _ _ _ ?_
        refine updDry_keeps _ _ _ ?_
        with_reducible assumption
      · refine capture_keeps _ _ _ _ _ _ _ _ _ _ ?_
        refine updDry_keeps _ _ _ ?_
        with_reducible assumption

theorem execDrypointSnapshot_keeps (s0 : State) (x0) (h : Keeps s0 x0) : ∃ t, execDrypointSnapshot x0 = .next t ∧ Keeps s0 t := by
  unfold execDrypointSnapshot
  split
  · refine ⟨_, rfl, ?_⟩
    with_reducible assumption
  · refine Keeps.iteN ?_ ?_
    · refine ⟨_, rfl, ?_⟩
      with_reducible assumption
    · refine ⟨_, rfl, ?_⟩
      refine snapshot_keeps _ _ _ _ ?_
      refine updDry_keeps _ _ _ ?_
      with_reducible assumption

theorem execDryHeldRelease_keeps (s0 : State) (x0) (h : Keeps s0 x0) : ∃ t, execDryHeldRelease x0 = .next t ∧ Keeps s0 t := by
  unfold execDryHeldRelease
  refine Keeps.iteN ?_ ?_
  · refine ⟨_, rfl, ?_⟩
    with_reducible assumption
  · refine ⟨_, rfl, ?_⟩
    refine setDry_keeps _ _ _ _ ?_
    refine updDry_keeps _ _ _ ?_
    with_reducible assumption

/-! ### Jtag -/

theorem loadInstr_keeps (s0 : State) (x0) (x1) (h : Keeps s0 x1) : Keeps s0 (loadInstr x0 x1) := by
  unfold loadInstr
  refine Keeps.upd ?_ rfl
  with_reducible assumption

theorem selectBypass_keeps (s0 : State) (x0) (h : Keeps s0 x0) : Keeps s0 (selectBypass x0) := by
  unfold selectBypass
  refine emit_keeps _ _ _ ?_
  with_reducible assumption

theorem execExtest_keeps (s0 : State) (x0) (h : Keeps s0 x0) : ∃ t, execExtest x0 = .next t ∧ Keeps s0 t := by
  unfold execExtest
  refine ⟨_, rfl, ?_⟩
  refine Keeps.ite0 ?_ ?_
  · refine emitAll_keeps _ _ _ ?_
    refine loadInstr_keeps _ _ _ ?_
    with_reducible assumption
  · refine selectBypass_keeps _ _ ?_
    refine loadInstr_keeps _ _ _ ?_
    with_reducible assumption

theorem execIdcode_keeps (s0 : State) (x0) (h : Keeps s0 x0) : ∃ t, execIdcode x0 = .next t ∧ Keeps s0 t := by
  unfold execIdcode
  refine ⟨_, rfl, ?_⟩
  refine emit_keeps _ _ _ ?_
  refine loadInstr_keeps _ _ _ ?_
  with_reducible assumption

theorem execSamplePreload_keeps (s0 : State) (x0) (x1) (x2) (h : Keeps s0 x2) : ∃ t, execSamplePreload x0 x1 x2 = .next t ∧ Keeps s0 t := by
  unfold execSamplePreload
  refine ⟨_, rfl, ?_⟩
  refine emit_keeps _ _ _ ?_
  refine Keeps.upd ?_ rfl
  refine loadInstr_keeps _ _ _ ?_
  with_reducible assumption

theorem execClamp_keeps (s0 : State) (x0) (h : Keeps s0 x0) : ∃ t, execClamp x0 = .next t ∧ Keeps s0 t := by
  unfold execClamp
  refine ⟨_, rfl, ?_⟩
  refine selectBypass_keeps _ _ ?_
  refine Keeps.ite0 ?_ ?_
  · refine emit_keeps _ _ _ ?_
    refine loadInstr_keeps _ _ _ ?_
    with_reducible assumption
  · refine loadInstr_keeps _ _ _ ?_
    with_reducible assumption

theorem execHighz_keeps (s0 : State) (x0) (h : Keeps s0 x0) : ∃ t, execHighz x0 = .next t ∧ Keeps s0 t := by
  unfold execHighz
  refine ⟨_, rfl, ?_⟩
  refine selectBypass_keeps _ _ ?_
  refine Keeps.ite0 ?_ ?_
  · refine emit_keeps _ _ _ ?_
    refine loadInstr_keeps _ _ _ ?_
    with_reducible assumption
  · refine loadInstr_keeps _ _ _ ?_
    with_reducible assumption

theorem execBypass_keeps (s0 : State) (x0) (x1) (h : Keeps s0 x1) : ∃ t, execBypass x0 x1 = .next t ∧ Keeps s0 t := by
  unfold execBypass
  refine ⟨_, rfl, ?_⟩
  refine selectBypass_keeps _ _ ?_
  refine loadInstr_keeps _ _ _ ?_
  with_reducible assumption

theorem execTapReset_keeps (s0 : State) (x0) (h : Keeps s0 x0) : ∃ t, execTapReset x0 = .next t ∧ Keeps s0 t := by
  unfold execTapReset
  refine ⟨_, rfl, ?_⟩
  refine loadInstr_keeps _ _ _ ?_
  with_reducible assumption

/-! ### RunCommand -/

theorem runMeasure_keeps (s0 : State) (x0) (x1) (h : Keeps s0 x1) : ∃ t, runMeasure x0 x1 = .next t ∧ Keeps s0 t := by
  unfold runMeasure
  exact execAbrMeasure_keeps _ _ _ _ ⟨h.pending, h.out, Nat.le_trans h.free (Nat.le_add_right _ _), h.mem⟩

theorem beginSilent_keeps (s0 : State) (x0) (x1) (x2) (h : Keeps s0 x2) : Keeps s0 (beginSilent x0 x1 x2) := by
  unfold beginSilent
  refine Keeps.ite0 ?_ ?_
  · refine State.setRing_keeps _ _ _ _ ?_
    with_reducible assumption
  · refine Keeps.upd ?_ rfl
    with_reducible assumption

/-- A meaning that keeps what every operation keeps. -/
def MeaningKeeps (f : Meaning) : Prop := ∀ s0 g m s, Keeps s0 s → ∃ t, f g m s = .next t ∧ Keeps s0 t

theorem MeaningKeeps.plain {f : Mbx → State → Host.Outcome State Fault Refusal}
    (h : ∀ s0 m s, Keeps s0 s → ∃ t, f m s = .next t ∧ Keeps s0 t) : MeaningKeeps (plain f) := fun s0 _ m s k => h s0 m s k

theorem MeaningKeeps.next {n : Nat} {f : Meaning} {l : List (Nat × Meaning)} (h : MeaningKeeps f)
    (k : ∀ e ∈ l, MeaningKeeps e.2) : ∀ e ∈ (n, f) :: l, MeaningKeeps e.2 := List.forall_mem_cons.mpr ⟨h, k⟩

theorem MeaningKeeps.nil : ∀ e ∈ ([] : List (Nat × Meaning)), MeaningKeeps e.2 := fun _ h => nomatch h

theorem commandTable1_keeps : ∀ e ∈ commandTable1, MeaningKeeps e.2 :=
  MeaningKeeps.next (MeaningKeeps.plain execDevQuery_keeps) <|
  MeaningKeeps.next (MeaningKeeps.plain execDevCfgQuery_keeps) <|
  MeaningKeeps.next (MeaningKeeps.plain execDevReset_keeps) <|
  MeaningKeeps.next (MeaningKeeps.plain execComputeReset_keeps) <|
  MeaningKeeps.next (MeaningKeeps.plain execFwStage_keeps) <|
  MeaningKeeps.next (MeaningKeeps.plain execCfgWrite_keeps) <|
  MeaningKeeps.next (MeaningKeeps.plain execPlateLoad_keeps) <|
  MeaningKeeps.next (MeaningKeeps.plain execPlateAdmit_keeps) <|
  MeaningKeeps.next (MeaningKeeps.plain execPlateStart_keeps) <|
  MeaningKeeps.next (MeaningKeeps.plain execPlateSwap_keeps) <|
  MeaningKeeps.next (MeaningKeeps.plain execPlateRetire_keeps) <|
  MeaningKeeps.next (MeaningKeeps.plain execPlateQuery_keeps) <|
  MeaningKeeps.next (MeaningKeeps.plain execMemQuotaSet_keeps) <|
  MeaningKeeps.next (MeaningKeeps.plain execMemAlloc_keeps) <|
  MeaningKeeps.next (MeaningKeeps.plain execMemFree_keeps) <|
  MeaningKeeps.next (MeaningKeeps.plain execTierRegionCreate_keeps) <|
  MeaningKeeps.next (MeaningKeeps.plain execTierRegionDestroy_keeps) <|
  MeaningKeeps.next (MeaningKeeps.plain execTierPoolSet_keeps) <|
  MeaningKeeps.next (MeaningKeeps.plain execTierJob_keeps) <|
  MeaningKeeps.next (MeaningKeeps.plain execMemRemoteAttach_keeps) <|
  MeaningKeeps.next (MeaningKeeps.plain execMemLend_keeps) <|
  MeaningKeeps.next (fun s0 g m s h => execFlashFormat_keeps s0 m g s h) <|
  MeaningKeeps.next (MeaningKeeps.plain execMemQuery_keeps) <|
  MeaningKeeps.next (MeaningKeeps.plain execTierRegionAdopt_keeps) <|
  MeaningKeeps.next (MeaningKeeps.plain execTierCommit_keeps) <|
  MeaningKeeps.next (MeaningKeeps.plain execTierDiscard_keeps) <|
  MeaningKeeps.next (MeaningKeeps.plain execWeightInstall_keeps) <|
  MeaningKeeps.next (MeaningKeeps.plain execWeightQuery_keeps) <|
  MeaningKeeps.next (MeaningKeeps.plain execWeightRepair_keeps) <|
  MeaningKeeps.next (MeaningKeeps.plain execWeightRemove_keeps) <|
  MeaningKeeps.nil

theorem commandTable2_keeps : ∀ e ∈ commandTable2, MeaningKeeps e.2 :=
  MeaningKeeps.next (MeaningKeeps.plain execSeqQueueConfig_keeps) <|
  MeaningKeeps.next (MeaningKeeps.plain execSeqSubmit_keeps) <|
  MeaningKeeps.next (MeaningKeeps.plain execSeqRelease_keeps) <|
  MeaningKeeps.next (MeaningKeeps.plain execSeqPause_keeps) <|
  MeaningKeeps.next (MeaningKeeps.plain execSeqResume_keeps) <|
  MeaningKeeps.next (MeaningKeeps.plain execSeqQuery_keeps) <|
  MeaningKeeps.next (MeaningKeeps.plain execSeqAllot_keeps) <|
  MeaningKeeps.next (MeaningKeeps.plain execFabWindowSet_keeps) <|
  MeaningKeeps.next (MeaningKeeps.plain execFabWindowClear_keeps) <|
  MeaningKeeps.next (MeaningKeeps.plain execFabInwinSet_keeps) <|
  MeaningKeeps.next (MeaningKeeps.plain execFabRouteSet_keeps) <|
  MeaningKeeps.next (MeaningKeeps.plain execFabLedgerSet_keeps) <|
  MeaningKeeps.next (MeaningKeeps.plain execFabIdSet_keeps) <|
  MeaningKeeps.next (MeaningKeeps.plain execFabVcDefault_keeps) <|
  MeaningKeeps.next (MeaningKeeps.plain execFabConfig_keeps) <|
  MeaningKeeps.next (MeaningKeeps.plain execFabQuery_keeps) <|
  MeaningKeeps.next (MeaningKeeps.plain execAbrTrain_keeps) <|
  MeaningKeeps.next (MeaningKeeps.plain execAbrContinue_keeps) <|
  MeaningKeeps.next (MeaningKeeps.plain execAbrGainSet_keeps) <|
  MeaningKeeps.next (MeaningKeeps.plain runMeasure_keeps) <|
  MeaningKeeps.next (MeaningKeeps.plain execAbrDown_keeps) <|
  MeaningKeeps.next (MeaningKeeps.plain execAbrQuery_keeps) <|
  MeaningKeeps.next (MeaningKeeps.plain execCollGroupCreate_keeps) <|
  MeaningKeeps.next (MeaningKeeps.plain execCollGroupDestroy_keeps) <|
  MeaningKeeps.next (MeaningKeeps.plain execCollGroupQuery_keeps) <|
  MeaningKeeps.next (MeaningKeeps.plain execCollGroupRebind_keeps) <|
  MeaningKeeps.next (MeaningKeeps.plain execCollJob_keeps) <|
  MeaningKeeps.next (MeaningKeeps.plain execCellConfig_keeps) <|
  MeaningKeeps.next (MeaningKeeps.plain execCellStart_keeps) <|
  MeaningKeeps.next (MeaningKeeps.plain execCellStop_keeps) <|
  MeaningKeeps.nil

theorem commandTable3_keeps : ∀ e ∈ commandTable3, MeaningKeeps e.2 :=
  MeaningKeeps.next (MeaningKeeps.plain execCellShadow_keeps) <|
  MeaningKeeps.next (MeaningKeeps.plain execCellTakeover_keeps) <|
  MeaningKeeps.next (MeaningKeeps.plain execCellQuery_keeps) <|
  MeaningKeeps.next (MeaningKeeps.plain execFhPortConfig_keeps) <|
  MeaningKeeps.next (MeaningKeeps.plain execFhStreamConfig_keeps) <|
  MeaningKeeps.next (MeaningKeeps.plain execFhCellTiming_keeps) <|
  MeaningKeeps.next (MeaningKeeps.plain execFhMirror_keeps) <|
  MeaningKeeps.next (MeaningKeeps.plain execFhQuery_keeps) <|
  MeaningKeeps.next (MeaningKeeps.plain execTimePortConfig_keeps) <|
  MeaningKeeps.next (MeaningKeeps.plain execTimeServoConfig_keeps) <|
  MeaningKeeps.next (MeaningKeeps.plain execTimeRearm_keeps) <|
  MeaningKeeps.next (MeaningKeeps.plain execTimeSynce_keeps) <|
  MeaningKeeps.next (MeaningKeeps.plain execTimeQuery_keeps) <|
  MeaningKeeps.next (MeaningKeeps.plain execQBind_keeps) <|
  MeaningKeeps.next (MeaningKeeps.plain execQUnbind_keeps) <|
  MeaningKeeps.next (MeaningKeeps.plain execQShaperSet_keeps) <|
  MeaningKeeps.next (MeaningKeeps.plain execQClassSet_keeps) <|
  MeaningKeeps.next (MeaningKeeps.plain execPolicerSet_keeps) <|
  MeaningKeeps.next (MeaningKeeps.plain execStippleConfig_keeps) <|
  MeaningKeeps.next (MeaningKeeps.plain execQQuery_keeps) <|
  MeaningKeeps.next (MeaningKeeps.plain execQRingSet_keeps) <|
  MeaningKeeps.next (MeaningKeeps.plain execFnConfig_keeps) <|
  MeaningKeeps.next (MeaningKeeps.plain execFnShareSet_keeps) <|
  MeaningKeeps.next (MeaningKeeps.plain execFnQuery_keeps) <|
  MeaningKeeps.next (MeaningKeeps.plain execFnReset_keeps) <|
  MeaningKeeps.next (MeaningKeeps.plain execCtxSaveSet_keeps) <|
  MeaningKeeps.next (MeaningKeeps.plain execCtxPreempt_keeps) <|
  MeaningKeeps.next (MeaningKeeps.plain execCtxResume_keeps) <|
  MeaningKeeps.next (MeaningKeeps.plain execCtxQuery_keeps) <|
  MeaningKeeps.next (MeaningKeeps.plain execCtxSeedSet_keeps) <|
  MeaningKeeps.nil

theorem commandTable4_keeps : ∀ e ∈ commandTable4, MeaningKeeps e.2 :=
  MeaningKeeps.next (MeaningKeeps.plain execSeedRegen_keeps) <|
  MeaningKeeps.next (MeaningKeeps.plain execRecConfig_keeps) <|
  MeaningKeeps.next (MeaningKeeps.plain execRecStart_keeps) <|
  MeaningKeeps.next (MeaningKeeps.plain execRecStop_keeps) <|
  MeaningKeeps.next (MeaningKeeps.plain execReplayStart_keeps) <|
  MeaningKeeps.next (MeaningKeeps.plain execReplayStop_keeps) <|
  MeaningKeeps.next (MeaningKeeps.plain execDryArm_keeps) <|
  MeaningKeeps.next (MeaningKeeps.plain execDryFire_keeps) <|
  MeaningKeeps.next (MeaningKeeps.plain execCoolantConfig_keeps) <|
  MeaningKeeps.next (MeaningKeeps.plain execGovConfig_keeps) <|
  MeaningKeeps.next (MeaningKeeps.plain execPowerQuery_keeps) <|
  MeaningKeeps.next (MeaningKeeps.plain execTripConfig_keeps) <|
  MeaningKeeps.next (MeaningKeeps.plain execLeaseConfig_keeps) <|
  MeaningKeeps.next (MeaningKeeps.plain execLeaseKeySet_keeps) <|
  MeaningKeeps.next (MeaningKeeps.plain execLeaseRelease_keeps) <|
  MeaningKeeps.next (MeaningKeeps.plain execFaultPeerSet_keeps) <|
  MeaningKeeps.next (MeaningKeeps.plain execHealthConfig_keeps) <|
  MeaningKeeps.next (MeaningKeeps.plain execTakeoverArm_keeps) <|
  MeaningKeeps.next (MeaningKeeps.plain execWireCompat_keeps) <|
  MeaningKeeps.next (MeaningKeeps.plain execFaultQuery_keeps) <|
  MeaningKeeps.nil

theorem commandOf_keeps (n : Nat) (f : Meaning) (h : commandOf n = some f) : MeaningKeeps f := by
  unfold commandOf at h
  obtain ⟨e, he, rfl⟩ := Option.map_eq_some_iff.mp h
  have hm := List.mem_of_find?_eq_some he
  simp only [List.mem_append] at hm
  rcases hm with ((hm | hm) | hm) | hm
  · exact commandTable1_keeps _ hm
  · exact commandTable2_keeps _ hm
  · exact commandTable3_keeps _ hm
  · exact commandTable4_keeps _ hm

theorem runSilent_keeps (s0 : State) (x0) (x1) (x2) (x3) (x4) (h : Keeps s0 x4) : Keeps s0 (runSilent x0 x1 x2 x3 x4) := by
  unfold runSilent
  extract_lets m s1
  have h1 : Keeps s0 s1 := beginSilent_keeps _ _ _ _ h
  split
  · exact completeSlot_keeps _ _ _ _ _ _ h1
  · rename_i f hf
    obtain ⟨t, ht, hk⟩ := commandOf_keeps _ _ hf s0 x0 m s1 h1
    rw [ht]
    exact hk

theorem failConfig_keeps (s0 : State) (x0) (x1) (x2) (h : Keeps s0 x2) : Keeps s0 (failConfig x0 x1 x2) := by
  unfold failConfig
  refine resetCount_keeps _ _ _ ?_
  refine updDev_keeps _ _ _ ?_
  with_reducible assumption

theorem applyRecord_keeps (s0 : State) (x0) (x1) (x2) (x3) (x4) (h : Keeps s0 x4) : Keeps s0 (applyRecord x0 x1 x2 x3 x4) := by
  unfold applyRecord
  refine Keeps.ite0 ?_ ?_
  · refine Keeps.upd ?_ rfl
    refine updDev_keeps _ _ _ ?_
    with_reducible assumption
  · refine runSilent_keeps _ _ _ _ _ _ ?_
    refine updDev_keeps _ _ _ ?_
    with_reducible assumption

theorem settleRecord_keeps (s0 : State) (x0) (h : Keeps s0 x0) : Keeps s0 (settleRecord x0) := by
  unfold settleRecord
  split
  · with_reducible assumption
  · refine Keeps.ite0 ?_ ?_
    · with_reducible assumption
    · refine Keeps.ite0 ?_ ?_
      · refine failConfig_keeps _ _ _ _ ?_
        with_reducible assumption
      · refine updDev_keeps _ _ _ ?_
        with_reducible assumption

theorem applyRecords_keeps (s0 : State) (x0) (x1) (x2) (h : Keeps s0 x2) : Keeps s0 (applyRecords x0 x1 x2) := by
  induction x1 generalizing x2 with
  | zero => exact h
  | succ k ih =>
    unfold applyRecords
    extract_lets s1
    have h1 : Keeps s0 s1 := settleRecord_keeps _ _ h
    refine Keeps.ite0 h1 ?_
    split
    · exact updDev_keeps _ _ _ h1
    · exact ih _ (applyRecord_keeps _ _ _ _ _ _ h1)

theorem execHbmReady_keeps (s0 : State) (x0) (x1) (h : Keeps s0 x1) : ∃ t, execHbmReady x0 x1 = .next t ∧ Keeps s0 t := by
  unfold execHbmReady
  refine Keeps.iteN ⟨_, rfl, h⟩ ⟨_, rfl, applyRecords_keeps _ _ _ _ ?_⟩
  have h1 := fun f => updDev_keeps s0 f x1 h
  split
  · exact completeSlot_keeps _ _ _ _ _ _ (h1 _)
  · exact h1 _

theorem injected_keeps (s0 : State) (x0) (h : Keeps s0 x0) : Keeps s0 (injected x0) := by
  unfold injected
  refine updDet_keeps _ _ _ ?_
  refine updRec_keeps _ _ _ ?_
  with_reducible assumption

theorem injectResponse_keeps (s0 : State) (x0) (x1) (x2) (x3) (h : Keeps s0 x3) : Keeps s0 (injectResponse x0 x1 x2 x3) := by
  unfold injectResponse
  (dsimp only; split)
  · refine Keeps.ite0 ?_ ?_
    · refine injected_keeps _ _ ?_
      refine completeTrack_keeps _ _ _ _ _ _ ?_
      with_reducible assumption
    · refine diverge_keeps _ _ _ ?_
      with_reducible assumption
  · refine diverge_keeps _ _ _ ?_
    with_reducible assumption

theorem injectSection_keeps (s0 : State) (x0) (x1) (x2) (x3) (h : Keeps s0 x3) : Keeps s0 (injectSection x0 x1 x2 x3) := by
  unfold injectSection
  refine Keeps.ite0 ?_ ?_
  · with_reducible assumption
  · refine Keeps.ite0 ?_ ?_
    · refine injected_keeps _ _ ?_
      refine takeMirror_keeps _ _ _ ?_
      with_reducible assumption
    · refine injected_keeps _ _ ?_
      refine ingress_keeps _ _ _ _ _ _ _ _ _ _ ?_
      with_reducible assumption

theorem injectRecord_keeps (s0 : State) (x0) (x1) (x2) (x3) (x4) (x5) (h : Keeps s0 x5) : Keeps s0 (injectRecord x0 x1 x2 x3 x4 x5) := by
  unfold injectRecord
  extract_lets mine
  split
  · exact Keeps.ite0 (injectSection_keeps _ _ _ _ _ h) h
  · exact Keeps.ite0 (injected_keeps _ _ (runSilent_keeps _ _ _ _ _ _ h)) h
  · exact Keeps.ite0 (injected_keeps _ _ (Keeps.foldl0 (fun y b hy => memPoison_keeps _ _ _ _ hy) (memWrite_keeps _ _ _ _ h))) h
  · exact Keeps.ite0 (injected_keeps _ _ (Keeps.foldl0 (fun y b hy => memPoison_keeps _ _ _ _ hy) (memWrite_keeps _ _ _ _ h))) h
  · exact Keeps.ite0 (injectResponse_keeps _ _ _ _ _ h) h
  · exact h

theorem execReplayInject_keeps (s0 : State) (x0) (x1) (h : Keeps s0 x1) : ∃ t, execReplayInject x0 x1 = .next t ∧ Keeps s0 t := by
  unfold execReplayInject
  split
  · refine ⟨_, rfl, ?_⟩
    with_reducible assumption
  · refine Keeps.iteN ?_ ?_
    · refine ⟨_, rfl, ?_⟩
      refine endReplay_keeps _ _ ?_
      with_reducible assumption
    · refine Keeps.iteN ?_ ?_
      · refine ⟨_, rfl, ?_⟩
        with_reducible assumption
      · refine Keeps.iteN ?_ ?_
        · refine ⟨_, rfl, ?_⟩
          refine endReplay_keeps _ _ ?_
          refine diverge_keeps _ _ _ ?_
          with_reducible assumption
        · refine ⟨_, rfl, ?_⟩
          refine injectRecord_keeps _ _ _ _ _ _ _ ?_
          refine Keeps.ite0 ?_ ?_
          · refine updRec_keeps _ _ _ ?_
            refine updDet_keeps _ _ _ ?_
            with_reducible assumption
          · refine updDet_keeps _ _ _ ?_
            with_reducible assumption

/-! ### Registers -/

theorem writeLocal_keeps (s0 : State) (x0) (x1) (x2) (x3) (x4) (h : Keeps s0 x4) : Keeps s0 (writeLocal x0 x1 x2 x3 x4) := by
  unfold writeLocal
  split
  · refine State.setFn_keeps _ _ _ _ ?_
    with_reducible assumption
  · refine State.setRing_keeps _ _ _ _ ?_
    with_reducible assumption
  · refine State.setRing_keeps _ _ _ _ ?_
    with_reducible assumption
  · refine writeMbxCtrl_keeps _ _ _ _ ?_
    with_reducible assumption
  · refine writeCmdPI_keeps _ _ _ _ ?_
    with_reducible assumption
  · refine writeCplCI_keeps _ _ _ _ ?_
    with_reducible assumption
  · with_reducible assumption

theorem writeTime_keeps (s0 : State) (x0) (x1) (x2) (x3) (x4) (h : Keeps s0 x4) : Keeps s0 (writeTime x0 x1 x2 x3 x4) := by
  unfold writeTime
  split
  · refine State.setTin_keeps _ _ _ _ ?_
    refine State.setTin_keeps _ _ _ _ ?_
    refine Keeps.upd ?_ rfl
    with_reducible assumption
  · refine Keeps.upd ?_ rfl
    with_reducible assumption
  · refine Keeps.upd ?_ rfl
    with_reducible assumption
  · refine Keeps.ite0 ?_ ?_
    · refine State.setTout_keeps _ _ _ _ ?_
      with_reducible assumption
    · refine State.setTout_keeps _ _ _ _ ?_
      with_reducible assumption
  · refine State.setTout_keeps _ _ _ _ ?_
    with_reducible assumption
  · refine State.setTout_keeps _ _ _ _ ?_
    with_reducible assumption
  · refine State.setTin_keeps _ _ _ _ ?_
    with_reducible assumption
  · with_reducible assumption

theorem writeDiag_keeps (s0 : State) (x0) (x1) (x2) (x3) (h : Keeps s0 x3) : Keeps s0 (writeDiag x0 x1 x2 x3) := by
  unfold writeDiag
  split
  · refine Keeps.ite0 ?_ ?_
    · refine setDry_keeps _ _ _ _ ?_
      with_reducible assumption
    · refine updDry_keeps _ _ _ ?_
      with_reducible assumption
  · refine setDry_keeps _ _ _ _ ?_
    with_reducible assumption
  · refine updRec_keeps _ _ _ ?_
    with_reducible assumption
  · refine updRec_keeps _ _ _ ?_
    with_reducible assumption
  · with_reducible assumption

theorem writeOther_keeps (s0 : State) (x0) (x1) (x2) (x3) (x4) (h : Keeps s0 x4) : Keeps s0 (writeOther x0 x1 x2 x3 x4) := by
  unfold writeOther
  split
  · refine Keeps.ite0 ?_ ?_
    · refine Keeps.upd ?_ rfl
      with_reducible assumption
    · with_reducible assumption
  · refine updPort_keeps _ _ _ _ ?_
    with_reducible assumption
  · refine Keeps.upd ?_ rfl
    with_reducible assumption
  · with_reducible assumption

theorem writeReg_keeps (s0 : State) (x0) (x1) (x2) (x3) (x4) (h : Keeps s0 x4) : ∃ t, writeReg x0 x1 x2 x3 x4 = .next t ∧ Keeps s0 t := by
  unfold writeReg
  split
  · refine Keeps.iteN ?_ ?_
    · refine execMeasCommit_keeps _ _ _ ?_
      with_reducible assumption
    · refine ⟨_, rfl, ?_⟩
      with_reducible assumption
  · refine Keeps.iteN ?_ ?_
    · refine execDryHeldRelease_keeps _ _ ?_
      with_reducible assumption
    · refine ⟨_, rfl, ?_⟩
      with_reducible assumption
  · split
    · refine ⟨_, rfl, ?_⟩
      refine writeLocal_keeps _ _ _ _ _ _ ?_
      with_reducible assumption
    · refine ⟨_, rfl, ?_⟩
      refine writeTime_keeps _ _ _ _ _ _ ?_
      with_reducible assumption
    · refine ⟨_, rfl, ?_⟩
      refine writeDiag_keeps _ _ _ _ _ ?_
      with_reducible assumption
    · refine ⟨_, rfl, ?_⟩
      refine writeOther_keeps _ _ _ _ _ _ ?_
      with_reducible assumption

theorem setHeldLow_keeps (s0 : State) (x0) (x1) (x2) (h : Keeps s0 x2) : Keeps s0 (setHeldLow x0 x1 x2) := by
  unfold setHeldLow
  refine Keeps.upd ?_ rfl
  with_reducible assumption

theorem writeBar0_keeps (s0 : State) (x0) (x1) (x2) (x3) (x4) (h : Keeps s0 x4) : ∃ t, writeBar0 x0 x1 x2 x3 x4 = .next t ∧ Keeps s0 t := by
  unfold writeBar0
  refine Keeps.iteN ?_ ?_
  · refine ⟨_, rfl, ?_⟩
    refine hifCount_keeps _ _ _ ?_
    with_reducible assumption
  · split
    · (dsimp only; split)
      · refine Keeps.iteN ?_ ?_
        · refine Keeps.iteN ?_ ?_
          · refine ⟨_, rfl, ?_⟩
            refine hifCount_keeps _ _ _ ?_
            with_reducible assumption
          · refine ⟨_, rfl, ?_⟩
            with_reducible assumption
        · refine Keeps.iteN ?_ ?_
          · refine writeReg_keeps _ _ _ _ _ _ ?_
            refine setHeldLow_keeps _ _ _ _ ?_
            with_reducible assumption
          · refine ⟨_, rfl, ?_⟩
            refine hifCount_keeps _ _ _ ?_
            with_reducible assumption
      · split
        · refine ⟨_, rfl, ?_⟩
          refine hifCount_keeps _ _ _ ?_
          with_reducible assumption
        · refine Keeps.iteN ?_ ?_
          · refine ⟨_, rfl, ?_⟩
            with_reducible assumption
          · split
            · refine writeReg_keeps _ _ _ _ _ _ ?_
              refine setHeldLow_keeps _ _ _ _ ?_
              with_reducible assumption
            · refine writeReg_keeps _ _ _ _ _ _ ?_
              with_reducible assumption
    · (dsimp only; split)
      · refine Keeps.iteN ?_ ?_
        · refine Keeps.iteN ?_ ?_
          · refine ⟨_, rfl, ?_⟩
            refine hifCount_keeps _ _ _ ?_
            with_reducible assumption
          · refine ⟨_, rfl, ?_⟩
            with_reducible assumption
        · refine Keeps.iteN ?_ ?_
          · refine ⟨_, rfl, ?_⟩
            refine setHeldLow_keeps _ _ _ _ ?_
            with_reducible assumption
          · refine writeReg_keeps _ _ _ _ _ _ ?_
            with_reducible assumption
      · split
        · refine ⟨_, rfl, ?_⟩
          refine hifCount_keeps _ _ _ ?_
          with_reducible assumption
        · refine Keeps.iteN ?_ ?_
          · refine ⟨_, rfl, ?_⟩
            with_reducible assumption
          · split
            · refine writeReg_keeps _ _ _ _ _ _ ?_
              refine setHeldLow_keeps _ _ _ _ ?_
              with_reducible assumption
            · refine writeReg_keeps _ _ _ _ _ _ ?_
              with_reducible assumption

theorem writeMsix_keeps (s0 : State) (x0) (x1) (x2) (x3) (x4) (h : Keeps s0 x4) : Keeps s0 (writeMsix x0 x1 x2 x3 x4) := by
  unfold writeMsix
  split
  · refine State.setVec_keeps _ _ _ _ _ ?_
    with_reducible assumption
  · refine State.setVec_keeps _ _ _ _ _ ?_
    with_reducible assumption
  · refine State.setVec_keeps _ _ _ _ _ ?_
    with_reducible assumption
  · refine Keeps.ite0 ?_ ?_
    · refine sendMessage_keeps _ _ _ ?_
      refine State.setVec_keeps _ _ _ _ _ ?_
      with_reducible assumption
    · refine State.setVec_keeps _ _ _ _ _ ?_
      with_reducible assumption

theorem writeBar4_keeps (s0 : State) (x0) (x1) (x2) (x3) (x4) (h : Keeps s0 x4) : Keeps s0 (writeBar4 x0 x1 x2 x3 x4) := by
  unfold writeBar4
  refine Keeps.ite0 ?_ ?_
  · refine hifCount_keeps _ _ _ ?_
    with_reducible assumption
  · refine Keeps.ite0 ?_ ?_
    · with_reducible assumption
    · refine Keeps.ite0 ?_ ?_
      · refine writeMsix_keeps _ _ _ _ _ _ ?_
        refine writeMsix_keeps _ _ _ _ _ _ ?_
        with_reducible assumption
      · refine writeMsix_keeps _ _ _ _ _ _ ?_
        with_reducible assumption

theorem execRegisterWrite_keeps (s0 : State) (x0) (x1) (h : Keeps s0 x1) : ∃ t, execRegisterWrite x0 x1 = .next t ∧ Keeps s0 t := by
  unfold execRegisterWrite
  split
  · (dsimp only; split)
    · refine ⟨_, rfl, ?_⟩
      refine emit_keeps _ _ _ ?_
      with_reducible assumption
    · refine ⟨_, rfl, ?_⟩
      with_reducible assumption
    · refine writeBar0_keeps _ _ _ _ _ _ ?_
      with_reducible assumption
  · (dsimp only; split)
    · refine ⟨_, rfl, ?_⟩
      refine emit_keeps _ _ _ ?_
      with_reducible assumption
    · refine ⟨_, rfl, ?_⟩
      with_reducible assumption
    · refine Keeps.iteN ?_ ?_
      · refine ⟨_, rfl, ?_⟩
        refine hifCount_keeps _ _ _ ?_
        with_reducible assumption
      · refine Keeps.iteN ?_ ?_
        · refine ⟨_, rfl, ?_⟩
          refine hifCount_keeps _ _ _ ?_
          with_reducible assumption
        · refine execQDoorbell_keeps _ _ _ _ _ ?_
          with_reducible assumption
  · (dsimp only; split)
    · refine ⟨_, rfl, ?_⟩
      refine emit_keeps _ _ _ ?_
      with_reducible assumption
    · refine ⟨_, rfl, ?_⟩
      with_reducible assumption
    · refine ⟨_, rfl, ?_⟩
      refine writeBar4_keeps _ _ _ _ _ _ ?_
      with_reducible assumption

theorem takeRead_keeps (s0 : State) (x0) (x1) (h : Keeps s0 x1) : Keeps s0 (takeRead x0 x1) := by
  unfold takeRead
  split
  · split
    · with_reducible assumption
    · refine Keeps.upd ?_ rfl
      with_reducible assumption
  · split
    · with_reducible assumption
    · refine State.setTin_keeps _ _ _ _ ?_
      with_reducible assumption
  · with_reducible assumption

theorem latchHigh_keeps (s0 : State) (x0) (x1) (x2) (h : Keeps s0 x2) : Keeps s0 (latchHigh x0 x1 x2) := by
  unfold latchHigh
  refine Keeps.upd ?_ rfl
  with_reducible assumption

theorem barRead_keeps (s0 : State) (x0) (x1) (x2) (x3) (h : Keeps s0 x3) : Keeps s0 (barRead x0 x1 x2 x3).2 := by
  unfold barRead
  refine Keeps.of1 ?_
  split
  · refine Keeps1.mk ?_
    with_reducible assumption
  · refine Keeps1.mk ?_
    with_reducible assumption
  · refine Keeps1.ite ?_ ?_
    · refine Keeps1.mk ?_
      refine hifCount_keeps _ _ _ ?_
      with_reducible assumption
    · extract_lets
      split
      · refine Keeps1.ite ?_ ?_
        · refine Keeps1.mk ?_
          refine hifCount_keeps _ _ _ ?_
          with_reducible assumption
        · refine Keeps1.ite ?_ ?_
          · refine Keeps1.mk ?_
            refine Keeps.ite0 ?_ ?_
            · with_reducible assumption
            · refine takeRead_keeps _ _ _ ?_
              with_reducible assumption
          · refine Keeps1.mk ?_
            refine latchHigh_keeps _ _ _ _ ?_
            refine Keeps.ite0 ?_ ?_
            · with_reducible assumption
            · refine takeRead_keeps _ _ _ ?_
              with_reducible assumption
      · refine Keeps1.ite ?_ ?_
        · refine Keeps1.mk ?_
          with_reducible assumption
        · refine Keeps1.mk ?_
          refine hifCount_keeps _ _ _ ?_
          with_reducible assumption

/-! ### Dispatch -/

theorem exec_keeps (s0 : State) (x0) (x1) (h : Keeps s0 x1) : ∃ t, exec x0 x1 = .next t ∧ Keeps s0 t := by
  unfold exec
  split
  · refine execRegisterWrite_keeps _ _ _ ?_
    with_reducible assumption
  · refine execBadWidthAccess_keeps _ _ _ _ ?_
    with_reducible assumption
  · refine execUnmappedBarAccess_keeps _ _ _ _ _ ?_
    with_reducible assumption
  · refine execEpochBoundary_keeps _ _ ?_
    with_reducible assumption
  · refine execGovernorPlan_keeps _ _ ?_
    with_reducible assumption
  · refine execWindowStart_keeps _ _ _ _ ?_
    with_reducible assumption
  · refine execWindowEnd_keeps _ _ _ _ ?_
    with_reducible assumption
  · refine execPartitionClearDone_keeps _ _ _ _ ?_
    with_reducible assumption
  · refine execPlateLoad_keeps _ _ _ ?_
    with_reducible assumption
  · refine execPlateAdmit_keeps _ _ _ ?_
    with_reducible assumption
  · refine execPlateStart_keeps _ _ _ ?_
    with_reducible assumption
  · refine execPlateSwap_keeps _ _ _ ?_
    with_reducible assumption
  · refine execPlateRetire_keeps _ _ _ ?_
    with_reducible assumption
  · refine execPlateQuery_keeps _ _ _ ?_
    with_reducible assumption
  · refine execPlateCommandEnd_keeps _ _ _ _ ?_
    with_reducible assumption
  · refine execImpressionComplete_keeps _ _ _ _ _ ?_
    with_reducible assumption
  · refine execManifestRetire_keeps _ _ _ _ ?_
    with_reducible assumption
  · refine execThNop_keeps _ _ _ _ ?_
    with_reducible assumption
  · refine execThAdd_keeps _ _ _ _ _ _ _ ?_
    with_reducible assumption
  · refine execThSub_keeps _ _ _ _ _ _ _ ?_
    with_reducible assumption
  · refine execThAnd_keeps _ _ _ _ _ _ _ ?_
    with_reducible assumption
  · refine execThOr_keeps _ _ _ _ _ _ _ ?_
    with_reducible assumption
  · refine execThXor_keeps _ _ _ _ _ _ _ ?_
    with_reducible assumption
  · refine execThShl_keeps _ _ _ _ _ _ _ ?_
    with_reducible assumption
  · refine execThShr_keeps _ _ _ _ _ _ _ ?_
    with_reducible assumption
  · refine execThSar_keeps _ _ _ _ _ _ _ ?_
    with_reducible assumption
  · refine execThMul_keeps _ _ _ _ _ _ _ ?_
    with_reducible assumption
  · refine execThMin_keeps _ _ _ _ _ _ _ ?_
    with_reducible assumption
  · refine execThMax_keeps _ _ _ _ _ _ _ ?_
    with_reducible assumption
  · refine execThLi_keeps _ _ _ _ _ _ _ ?_
    with_reducible assumption
  · refine execThLih_keeps _ _ _ _ _ _ _ ?_
    with_reducible assumption
  · refine execThLd_keeps _ _ _ _ _ _ _ ?_
    with_reducible assumption
  · refine execThSt_keeps _ _ _ _ _ _ _ ?_
    with_reducible assumption
  · refine execThLdx_keeps _ _ _ _ _ _ _ ?_
    with_reducible assumption
  · refine execThStx_keeps _ _ _ _ _ _ _ ?_
    with_reducible assumption
  · refine execThBeq_keeps _ _ _ _ _ _ _ ?_
    with_reducible assumption
  · refine execThBne_keeps _ _ _ _ _ _ _ ?_
    with_reducible assumption
  · refine execThBlt_keeps _ _ _ _ _ _ _ ?_
    with_reducible assumption
  · refine execThBge_keeps _ _ _ _ _ _ _ ?_
    with_reducible assumption
  · refine execThJmp_keeps _ _ _ _ _ _ _ ?_
    with_reducible assumption
  · refine execThCmd_keeps _ _ _ _ _ _ _ ?_
    with_reducible assumption
  · refine execThWaitc_keeps _ _ _ _ _ _ _ ?_
    with_reducible assumption
  · refine execThSetc_keeps _ _ _ _ _ _ _ ?_
    with_reducible assumption
  · refine execThRdc_keeps _ _ _ _ _ _ _ ?_
    with_reducible assumption
  · refine execThBar_keeps _ _ _ _ _ _ _ ?_
    with_reducible assumption
  · refine execThWaitr_keeps _ _ _ _ _ _ _ ?_
    with_reducible assumption
  · refine execRidgeWaitResume_keeps _ _ _ ?_
    with_reducible assumption
  · refine execThRdr_keeps _ _ _ _ _ _ _ ?_
    with_reducible assumption
  · refine execThRdimp_keeps _ _ _ _ _ _ _ ?_
    with_reducible assumption
  · refine execThFence_keeps _ _ _ _ _ _ _ ?_
    with_reducible assumption
  · refine execThEnd_keeps _ _ _ _ _ _ _ ?_
    with_reducible assumption
  · refine execTensorCommand_keeps _ _ _ _ ?_
    with_reducible assumption
  · refine execEngineCommandRetire_keeps _ _ _ _ ?_
    with_reducible assumption
  · refine execSeCmul_keeps _ _ _ ?_
    with_reducible assumption
  · refine execSeCadd_keeps _ _ _ ?_
    with_reducible assumption
  · refine execSeCmac_keeps _ _ _ ?_
    with_reducible assumption
  · refine execSePower_keeps _ _ _ ?_
    with_reducible assumption
  · refine execSeRad2_keeps _ _ _ ?_
    with_reducible assumption
  · refine execSeRad4_keeps _ _ _ ?_
    with_reducible assumption
  · refine execSeMmsew_keeps _ _ _ ?_
    with_reducible assumption
  · refine execSeDemap_keeps _ _ _ ?_
    with_reducible assumption
  · refine execSeScan_keeps _ _ _ ?_
    with_reducible assumption
  · refine execSeBxopSet_keeps _ _ _ ?_
    with_reducible assumption
  · refine execSeBxopWriteOut_keeps _ _ _ ?_
    with_reducible assumption
  · refine execMeMove_keeps _ _ _ ?_
    with_reducible assumption
  · refine execMeGather_keeps _ _ _ ?_
    with_reducible assumption
  · refine execMeScatter_keeps _ _ _ ?_
    with_reducible assumption
  · refine execMeTranspose_keeps _ _ _ ?_
    with_reducible assumption
  · refine execMeConvert_keeps _ _ _ ?_
    with_reducible assumption
  · refine execHashOneshot_keeps _ _ _ ?_
    with_reducible assumption
  · refine execHashAppend_keeps _ _ _ ?_
    with_reducible assumption
  · refine execHashFinal_keeps _ _ _ ?_
    with_reducible assumption
  · refine execMeWb_keeps _ _ _ ?_
    with_reducible assumption
  · refine execMeFload_keeps _ _ _ ?_
    with_reducible assumption
  · refine execMeFstore_keeps _ _ _ ?_
    with_reducible assumption
  · refine execMePut_keeps _ _ _ ?_
    with_reducible assumption
  · refine execMeGet_keeps _ _ _ ?_
    with_reducible assumption
  · refine execMeAtomic_keeps _ _ _ ?_
    with_reducible assumption
  · refine execMeRequestIssue_keeps _ _ _ ?_
    with_reducible assumption
  · refine execMeDescriptorRetire_keeps _ _ _ ?_
    with_reducible assumption
  · refine execCellConfig_keeps _ _ _ ?_
    with_reducible assumption
  · refine execCellStart_keeps _ _ _ ?_
    with_reducible assumption
  · refine execCellStop_keeps _ _ _ ?_
    with_reducible assumption
  · refine execCellShadow_keeps _ _ _ ?_
    with_reducible assumption
  · refine execCellTakeover_keeps _ _ _ ?_
    with_reducible assumption
  · refine execCellQuery_keeps _ _ _ ?_
    with_reducible assumption
  · refine execCellStateChange_keeps _ _ _ ?_
    with_reducible assumption
  · refine execLdpcDecodeJob_keeps _ _ ?_
    with_reducible assumption
  · refine execCodeBlockDecoded_keeps _ _ _ ?_
    with_reducible assumption
  · refine execLdpcEncodeJob_keeps _ _ ?_
    with_reducible assumption
  · refine execSideJob_keeps _ _ ?_
    with_reducible assumption
  · refine execPolarJob_keeps _ _ ?_
    with_reducible assumption
  · refine execPrachJob_keeps _ _ ?_
    with_reducible assumption
  · refine execFixedFunctionJobDone_keeps _ _ _ _ ?_
    with_reducible assumption
  · refine execFhPortConfig_keeps _ _ _ ?_
    with_reducible assumption
  · refine execFhStreamConfig_keeps _ _ _ ?_
    with_reducible assumption
  · refine execFhCellTiming_keeps _ _ _ ?_
    with_reducible assumption
  · refine execFhMirror_keeps _ _ _ ?_
    with_reducible assumption
  · refine execFhQuery_keeps _ _ _ ?_
    with_reducible assumption
  · refine execFhFrameRx_keeps _ _ _ _ _ _ ?_
    with_reducible assumption
  · refine execFhEgressJob_keeps _ _ _ ?_
    with_reducible assumption
  · refine execFhTxFrameBoundary_keeps _ _ _ _ ?_
    with_reducible assumption
  · refine execSymbolWindowOpen_keeps _ _ _ _ ?_
    with_reducible assumption
  · refine execSymbolClose_keeps _ _ _ _ ?_
    with_reducible assumption
  · refine execMirrorRecordRx_keeps _ _ _ _ ?_
    with_reducible assumption
  · refine execMirrorDeadline_keeps _ _ _ _ ?_
    with_reducible assumption
  · refine execFhBlockLockLoss_keeps _ _ _ _ ?_
    with_reducible assumption
  · refine execFhBlockLockRegain_keeps _ _ _ ?_
    with_reducible assumption
  · refine execTimePortConfig_keeps _ _ _ ?_
    with_reducible assumption
  · refine execTimeServoConfig_keeps _ _ _ ?_
    with_reducible assumption
  · refine execTimeRearm_keeps _ _ _ ?_
    with_reducible assumption
  · refine execTimeSynce_keeps _ _ _ ?_
    with_reducible assumption
  · refine execTimeQuery_keeps _ _ _ ?_
    with_reducible assumption
  · refine execTxtsHeadRead_keeps _ _ _ _ ?_
    with_reducible assumption
  · refine execTinHeadRead_keeps _ _ _ _ ?_
    with_reducible assumption
  · refine execMeasCommit_keeps _ _ _ ?_
    with_reducible assumption
  · refine execHoldoverEntry_keeps _ _ ?_
    with_reducible assumption
  · refine execSynceResume_keeps _ _ ?_
    with_reducible assumption
  · refine execToutEnable_keeps _ _ _ _ ?_
    with_reducible assumption
  · refine execToutPulse_keeps _ _ _ ?_
    with_reducible assumption
  · refine execTinEdge_keeps _ _ _ _ ?_
    with_reducible assumption
  · refine execDeviceMemoryRequest_keeps _ _ _ ?_
    with_reducible assumption
  · refine execRefreshSlot_keeps _ _ _ ?_
    with_reducible assumption
  · refine execMemQuotaSet_keeps _ _ _ ?_
    with_reducible assumption
  · refine execMemAlloc_keeps _ _ _ ?_
    with_reducible assumption
  · refine execMemFree_keeps _ _ _ ?_
    with_reducible assumption
  · refine execTierRegionCreate_keeps _ _ _ ?_
    with_reducible assumption
  · refine execTierRegionDestroy_keeps _ _ _ ?_
    with_reducible assumption
  · refine execTierPoolSet_keeps _ _ _ ?_
    with_reducible assumption
  · refine execTierJob_keeps _ _ _ ?_
    with_reducible assumption
  · refine execMemRemoteAttach_keeps _ _ _ ?_
    with_reducible assumption
  · refine execMemLend_keeps _ _ _ ?_
    with_reducible assumption
  · refine execFlashFormat_keeps _ _ _ _ ?_
    with_reducible assumption
  · refine execMemQuery_keeps _ _ _ ?_
    with_reducible assumption
  · refine execTierRegionAdopt_keeps _ _ _ ?_
    with_reducible assumption
  · refine execTierCommit_keeps _ _ _ ?_
    with_reducible assumption
  · refine execTierDiscard_keeps _ _ _ ?_
    with_reducible assumption
  · refine execTierFetch_keeps _ _ _ ?_
    with_reducible assumption
  · refine execTierUnpin_keeps _ _ _ ?_
    with_reducible assumption
  · refine execTierWriteback_keeps _ _ _ ?_
    with_reducible assumption
  · refine execTierJobCommit_keeps _ _ _ ?_
    with_reducible assumption
  · refine execTierJobDiscard_keeps _ _ _ ?_
    with_reducible assumption
  · refine execTierFetchComplete_keeps _ _ _ _ ?_
    with_reducible assumption
  · refine execTierJobComplete_keeps _ _ _ ?_
    with_reducible assumption
  · refine execBackgroundWriteback_keeps _ _ _ ?_
    with_reducible assumption
  · refine execSectorWritebackDone_keeps _ _ _ _ _ ?_
    with_reducible assumption
  · refine execFlashRowProgram_keeps _ _ ?_
    with_reducible assumption
  · refine execFlashCompaction_keeps _ _ ?_
    with_reducible assumption
  · refine execWeightInstall_keeps _ _ _ ?_
    with_reducible assumption
  · refine execWeightQuery_keeps _ _ _ ?_
    with_reducible assumption
  · refine execWeightRepair_keeps _ _ _ ?_
    with_reducible assumption
  · refine execWeightRemove_keeps _ _ _ ?_
    with_reducible assumption
  · refine execThatchBegin_keeps _ _ _ ?_
    with_reducible assumption
  · refine execThatchLatestExpiry_keeps _ _ _ ?_
    with_reducible assumption
  · refine execSeqQueueConfig_keeps _ _ _ ?_
    with_reducible assumption
  · refine execSeqSubmit_keeps _ _ _ ?_
    with_reducible assumption
  · refine execSeqRelease_keeps _ _ _ ?_
    with_reducible assumption
  · refine execSeqPause_keeps _ _ _ ?_
    with_reducible assumption
  · refine execSeqResume_keeps _ _ _ ?_
    with_reducible assumption
  · refine execSeqQuery_keeps _ _ _ ?_
    with_reducible assumption
  · refine execSeqAllot_keeps _ _ _ ?_
    with_reducible assumption
  · refine execAbrTrain_keeps _ _ _ ?_
    with_reducible assumption
  · refine execAbrContinue_keeps _ _ _ ?_
    with_reducible assumption
  · refine execAbrGainSet_keeps _ _ _ ?_
    with_reducible assumption
  · refine execAbrMeasure_keeps _ _ _ _ ?_
    with_reducible assumption
  · refine execAbrDown_keeps _ _ _ ?_
    with_reducible assumption
  · refine execAbrQuery_keeps _ _ _ ?_
    with_reducible assumption
  · refine execHelloRx_keeps _ _ _ _ _ _ _ ?_
    with_reducible assumption
  · refine execTrainingPhaseEnd_keeps _ _ _ _ _ ?_
    with_reducible assumption
  · refine execAcquireTimeout_keeps _ _ _ ?_
    with_reducible assumption
  · refine execSlateRx_keeps _ _ _ _ _ _ _ ?_
    with_reducible assumption
  · refine execReplayTimeout_keeps _ _ _ _ ?_
    with_reducible assumption
  · refine execLaneSyncLoss_keeps _ _ _ _ _ ?_
    with_reducible assumption
  · refine execPortPacketBoundary_keeps _ _ _ ?_
    with_reducible assumption
  · refine execFabWindowSet_keeps _ _ _ ?_
    with_reducible assumption
  · refine execFabWindowClear_keeps _ _ _ ?_
    with_reducible assumption
  · refine execFabInwinSet_keeps _ _ _ ?_
    with_reducible assumption
  · refine execFabRouteSet_keeps _ _ _ ?_
    with_reducible assumption
  · refine execFabLedgerSet_keeps _ _ _ ?_
    with_reducible assumption
  · refine execFabIdSet_keeps _ _ _ ?_
    with_reducible assumption
  · refine execFabVcDefault_keeps _ _ _ ?_
    with_reducible assumption
  · refine execFabConfig_keeps _ _ _ ?_
    with_reducible assumption
  · refine execFabQuery_keeps _ _ _ ?_
    with_reducible assumption
  · refine execPktRead_keeps _ _ _ _ ?_
    with_reducible assumption
  · refine execPktWrite_keeps _ _ _ _ ?_
    with_reducible assumption
  · refine execPktAtomic_keeps _ _ _ _ ?_
    with_reducible assumption
  · refine execPktReadData_keeps _ _ _ _ ?_
    with_reducible assumption
  · refine execPktWriteAck_keeps _ _ _ _ ?_
    with_reducible assumption
  · refine execPktAtomicResult_keeps _ _ _ _ ?_
    with_reducible assumption
  · refine execPktNak_keeps _ _ _ _ ?_
    with_reducible assumption
  · refine execTransitForward_keeps _ _ _ _ ?_
    with_reducible assumption
  · refine execRequestTimeout_keeps _ _ _ ?_
    with_reducible assumption
  · refine execCollGroupCreate_keeps _ _ _ ?_
    with_reducible assumption
  · refine execCollGroupDestroy_keeps _ _ _ ?_
    with_reducible assumption
  · refine execCollGroupQuery_keeps _ _ _ ?_
    with_reducible assumption
  · refine execCollGroupRebind_keeps _ _ _ ?_
    with_reducible assumption
  · refine execCollJob_keeps _ _ _ ?_
    with_reducible assumption
  · refine execOpAllreduce_keeps _ _ _ ?_
    with_reducible assumption
  · refine execOpReduceScatter_keeps _ _ _ ?_
    with_reducible assumption
  · refine execOpAllgather_keeps _ _ _ ?_
    with_reducible assumption
  · refine execOpBroadcast_keeps _ _ _ ?_
    with_reducible assumption
  · refine execOpReduce_keeps _ _ _ ?_
    with_reducible assumption
  · refine execOpAlltoall_keeps _ _ _ ?_
    with_reducible assumption
  · refine execOpBarrier_keeps _ _ _ ?_
    with_reducible assumption
  · refine execCollRingStepSend_keeps _ _ _ ?_
    with_reducible assumption
  · refine execCollData_keeps _ _ _ _ ?_
    with_reducible assumption
  · refine execCollCredit_keeps _ _ _ _ ?_
    with_reducible assumption
  · refine execCollAbort_keeps _ _ _ _ ?_
    with_reducible assumption
  · refine execBarrierArrive_keeps _ _ _ _ ?_
    with_reducible assumption
  · refine execBarrierRelease_keeps _ _ _ _ _ ?_
    with_reducible assumption
  · refine execFabricBarrierResume_keeps _ _ _ ?_
    with_reducible assumption
  · refine execCollJoin_keeps _ _ _ _ ?_
    with_reducible assumption
  · refine execCollJoinTimeout_keeps _ _ _ ?_
    with_reducible assumption
  · refine execCollProgressTimeout_keeps _ _ _ ?_
    with_reducible assumption
  · refine execQBind_keeps _ _ _ ?_
    with_reducible assumption
  · refine execQUnbind_keeps _ _ _ ?_
    with_reducible assumption
  · refine execQShaperSet_keeps _ _ _ ?_
    with_reducible assumption
  · refine execQClassSet_keeps _ _ _ ?_
    with_reducible assumption
  · refine execPolicerSet_keeps _ _ _ ?_
    with_reducible assumption
  · refine execStippleConfig_keeps _ _ _ ?_
    with_reducible assumption
  · refine execQQuery_keeps _ _ _ ?_
    with_reducible assumption
  · refine execQRingSet_keeps _ _ _ ?_
    with_reducible assumption
  · refine execEgressDecision_keeps _ _ _ ?_
    with_reducible assumption
  · refine execShaperRefill_keeps _ _ ?_
    with_reducible assumption
  · refine execStippleSample_keeps _ _ ?_
    with_reducible assumption
  · refine execQDoorbell_keeps _ _ _ _ _ ?_
    with_reducible assumption
  · refine execDescriptorFetch_keeps _ _ _ _ ?_
    with_reducible assumption
  · refine execDescToDevice_keeps _ _ _ _ ?_
    with_reducible assumption
  · refine execDescMessage_keeps _ _ _ _ ?_
    with_reducible assumption
  · refine execDescToHost_keeps _ _ _ _ ?_
    with_reducible assumption
  · refine execDescFrame_keeps _ _ _ _ ?_
    with_reducible assumption
  · refine execDescWrite_keeps _ _ _ _ ?_
    with_reducible assumption
  · refine execDescriptorComplete_keeps _ _ _ _ ?_
    with_reducible assumption
  · refine execCoalesceTimeout_keeps _ _ _ ?_
    with_reducible assumption
  · refine execDmaReadCompletion_keeps _ _ _ _ _ _ ?_
    with_reducible assumption
  · refine execAtsInvalidate_keeps _ _ _ _ ?_
    with_reducible assumption
  · refine execFnConfig_keeps _ _ _ ?_
    with_reducible assumption
  · refine execFnShareSet_keeps _ _ _ ?_
    with_reducible assumption
  · refine execFnQuery_keeps _ _ _ ?_
    with_reducible assumption
  · refine execFnReset_keeps _ _ _ ?_
    with_reducible assumption
  · refine execFlr_keeps _ _ _ ?_
    with_reducible assumption
  · refine execVfEnableSet_keeps _ _ _ ?_
    with_reducible assumption
  · refine execVfEnableClear_keeps _ _ ?_
    with_reducible assumption
  · refine execTeardownStepEnd_keeps _ _ _ ?_
    with_reducible assumption
  · refine execQuiesceAbandon_keeps _ _ _ ?_
    with_reducible assumption
  · refine execScrubFrameDone_keeps _ _ _ ?_
    with_reducible assumption
  · refine execPcieLinkTrained_keeps _ _ _ _ _ ?_
    with_reducible assumption
  · refine execPcieSurpriseDown_keeps _ _ ?_
    with_reducible assumption
  · refine execCtxSaveSet_keeps _ _ _ ?_
    with_reducible assumption
  · refine execCtxPreempt_keeps _ _ _ ?_
    with_reducible assumption
  · refine execCtxResume_keeps _ _ _ ?_
    with_reducible assumption
  · refine execCtxQuery_keeps _ _ _ ?_
    with_reducible assumption
  · refine execImageSaveDone_keeps _ _ _ ?_
    with_reducible assumption
  · refine execImageRestoreDone_keeps _ _ _ ?_
    with_reducible assumption
  · refine execCtxSeedSet_keeps _ _ _ ?_
    with_reducible assumption
  · refine execSeedRegen_keeps _ _ _ ?_
    with_reducible assumption
  · refine execProofJob_keeps _ _ _ ?_
    with_reducible assumption
  · refine execProofDone_keeps _ _ _ _ ?_
    with_reducible assumption
  · refine execRecConfig_keeps _ _ _ ?_
    with_reducible assumption
  · refine execRecStart_keeps _ _ _ ?_
    with_reducible assumption
  · refine execRecStop_keeps _ _ _ ?_
    with_reducible assumption
  · refine execReplayStart_keeps _ _ _ ?_
    with_reducible assumption
  · refine execReplayStop_keeps _ _ _ ?_
    with_reducible assumption
  · refine execReplayInject_keeps _ _ _ ?_
    with_reducible assumption
  · refine execDryArm_keeps _ _ _ ?_
    with_reducible assumption
  · refine execDryFire_keeps _ _ _ ?_
    with_reducible assumption
  · refine execDrypointSnapshot_keeps _ _ ?_
    with_reducible assumption
  · refine execDryHeldRelease_keeps _ _ ?_
    with_reducible assumption
  · refine execRecPostStop_keeps _ _ ?_
    with_reducible assumption
  · refine execLeaseConfig_keeps _ _ _ ?_
    with_reducible assumption
  · refine execLeaseKeySet_keeps _ _ _ ?_
    with_reducible assumption
  · refine execLeaseRelease_keeps _ _ _ ?_
    with_reducible assumption
  · refine execFaultPeerSet_keeps _ _ _ ?_
    with_reducible assumption
  · refine execHealthConfig_keeps _ _ _ ?_
    with_reducible assumption
  · refine execTakeoverArm_keeps _ _ _ ?_
    with_reducible assumption
  · refine execWireCompat_keeps _ _ _ ?_
    with_reducible assumption
  · refine execFaultQuery_keeps _ _ _ ?_
    with_reducible assumption
  · refine execLeaseRenew_keeps _ _ ?_
    with_reducible assumption
  · refine execRxGrant_keeps _ _ _ ?_
    with_reducible assumption
  · refine execRxRevoke_keeps _ _ _ ?_
    with_reducible assumption
  · refine execLeaseExpiry_keeps _ _ ?_
    with_reducible assumption
  · refine execFatalCause_keeps _ _ _ ?_
    with_reducible assumption
  · refine execFaultEventFlush_keeps _ _ _ ?_
    with_reducible assumption
  · refine execHealthWindowEnd_keeps _ _ ?_
    with_reducible assumption
  · refine execFenceNotice_keeps _ _ _ _ ?_
    with_reducible assumption
  · refine execLeaseEcho_keeps _ _ _ _ ?_
    with_reducible assumption
  · refine execEchoAck_keeps _ _ _ _ ?_
    with_reducible assumption
  · refine execEchoLapse_keeps _ _ _ ?_
    with_reducible assumption
  · refine execTakeoverTimer_keeps _ _ _ ?_
    with_reducible assumption
  · refine execMbxCmdPiWrite_keeps _ _ _ _ ?_
    with_reducible assumption
  · refine execMbxCplCiWrite_keeps _ _ _ _ ?_
    with_reducible assumption
  · refine execMbxEnable_keeps _ _ _ ?_
    with_reducible assumption
  · refine execMbxDisable_keeps _ _ _ ?_
    with_reducible assumption
  · refine execMbxDrained_keeps _ _ _ ?_
    with_reducible assumption
  · refine execCommandAccept_keeps _ _ _ ?_
    with_reducible assumption
  · refine execCommandTimeout_keeps _ _ _ _ ?_
    with_reducible assumption
  · refine execMgmtCommandFrame_keeps _ _ _ _ ?_
    with_reducible assumption
  · refine execDevQuery_keeps _ _ _ ?_
    with_reducible assumption
  · refine execDevCfgQuery_keeps _ _ _ ?_
    with_reducible assumption
  · refine execDevReset_keeps _ _ _ ?_
    with_reducible assumption
  · refine execComputeReset_keeps _ _ _ ?_
    with_reducible assumption
  · refine execFwStage_keeps _ _ _ ?_
    with_reducible assumption
  · refine execCfgWrite_keeps _ _ _ ?_
    with_reducible assumption
  · refine execCoolantConfig_keeps _ _ _ ?_
    with_reducible assumption
  · refine execGovConfig_keeps _ _ _ ?_
    with_reducible assumption
  · refine execPowerQuery_keeps _ _ _ ?_
    with_reducible assumption
  · refine execTripConfig_keeps _ _ _ ?_
    with_reducible assumption
  · refine execCoolantSample_keeps _ _ _ _ ?_
    with_reducible assumption
  · refine execThermalSample_keeps _ _ _ _ ?_
    with_reducible assumption
  · refine execTripClear_keeps _ _ ?_
    with_reducible assumption
  · refine execThermtripAssert_keeps _ _ ?_
    with_reducible assumption
  · refine execRegulatorPoll_keeps _ _ _ _ _ _ ?_
    with_reducible assumption
  · refine execPmbusTargetRead_keeps _ _ _ ?_
    with_reducible assumption
  · refine execMctpMessage_keeps _ _ _ ?_
    with_reducible assumption
  · refine execPowerOnResetEnter_keeps _ _ ?_
    with_reducible assumption
  · refine execPowerOnResetEnd_keeps _ _ _ _ ?_
    with_reducible assumption
  · refine execConfigLoad_keeps _ _ ?_
    with_reducible assumption
  · refine execRailLoss_keeps _ _ ?_
    with_reducible assumption
  · refine execPerstNAssert_keeps _ _ ?_
    with_reducible assumption
  · refine execPerstNRelease_keeps _ _ _ ?_
    with_reducible assumption
  · refine execHbmReady_keeps _ _ _ ?_
    with_reducible assumption
  · refine execExtest_keeps _ _ ?_
    with_reducible assumption
  · refine execIdcode_keeps _ _ ?_
    with_reducible assumption
  · refine execSamplePreload_keeps _ _ _ _ ?_
    with_reducible assumption
  · refine execClamp_keeps _ _ ?_
    with_reducible assumption
  · refine execHighz_keeps _ _ ?_
    with_reducible assumption
  · refine execBypass_keeps _ _ _ ?_
    with_reducible assumption
  · refine execTapReset_keeps _ _ ?_
    with_reducible assumption
  · refine execSramScrub_keeps _ _ _ ?_
    with_reducible assumption
  · refine execAtsTranslationCompletion_keeps _ _ _ _ _ _ _ ?_
    with_reducible assumption
  · refine execMgmtPtpFrameRx_keeps _ _ _ _ _ _ ?_
    with_reducible assumption
  · refine execMgmtPtpFrameTx_keeps _ _ _ _ _ ?_
    with_reducible assumption

end Sys2Proof.Machine
end

