-- ==== Sys2Proof/Laws/State.lean ====
section
/-!
SUPPORT. For each update of State by name, one lemma per part of State that it leaves alone, true by definition, and what the part that
it writes reads as afterwards. Proofs use these instead of unfolding a record update.
-/
namespace Sys2Proof.Machine

variable {s : State}

@[simp] theorem emit_pending (o : Output) : (emit o s).pending = s.pending := rfl
@[simp] theorem emit_free (o : Output) : (emit o s).free = s.free := rfl
@[simp] theorem emit_clk (o : Output) : (emit o s).clk = s.clk := rfl
@[simp] theorem emit_mem (o : Output) : (emit o s).mem = s.mem := rfl
@[simp] theorem emit_mbx (o : Output) : (emit o s).mbx = s.mbx := rfl
@[simp] theorem emit_host (o : Output) : (emit o s).host = s.host := rfl
@[simp] theorem emit_traf (o : Output) : (emit o s).traf = s.traf := rfl
@[simp] theorem emit_time (o : Output) : (emit o s).time = s.time := rfl
@[simp] theorem emit_plates (o : Output) : (emit o s).plates = s.plates := rfl
@[simp] theorem emit_flt (o : Output) : (emit o s).flt = s.flt := rfl
@[simp] theorem emit_fab (o : Output) : (emit o s).fab = s.fab := rfl
@[simp] theorem emit_rad (o : Output) : (emit o s).rad = s.rad := rfl
@[simp] theorem emit_core (o : Output) : (emit o s).core = s.core := rfl
@[simp] theorem emit_dev (o : Output) : (emit o s).dev = s.dev := rfl
@[simp] theorem emit_det (o : Output) : (emit o s).det = s.det := rfl

@[simp] theorem emitAll_pending (os : List Output) : (emitAll os s).pending = s.pending := rfl
@[simp] theorem emitAll_free (os : List Output) : (emitAll os s).free = s.free := rfl
@[simp] theorem emitAll_clk (os : List Output) : (emitAll os s).clk = s.clk := rfl
@[simp] theorem emitAll_mem (os : List Output) : (emitAll os s).mem = s.mem := rfl
@[simp] theorem emitAll_mbx (os : List Output) : (emitAll os s).mbx = s.mbx := rfl
@[simp] theorem emitAll_host (os : List Output) : (emitAll os s).host = s.host := rfl
@[simp] theorem emitAll_traf (os : List Output) : (emitAll os s).traf = s.traf := rfl
@[simp] theorem emitAll_time (os : List Output) : (emitAll os s).time = s.time := rfl
@[simp] theorem emitAll_plates (os : List Output) : (emitAll os s).plates = s.plates := rfl
@[simp] theorem emitAll_flt (os : List Output) : (emitAll os s).flt = s.flt := rfl
@[simp] theorem emitAll_fab (os : List Output) : (emitAll os s).fab = s.fab := rfl
@[simp] theorem emitAll_rad (os : List Output) : (emitAll os s).rad = s.rad := rfl
@[simp] theorem emitAll_core (os : List Output) : (emitAll os s).core = s.core := rfl
@[simp] theorem emitAll_dev (os : List Output) : (emitAll os s).dev = s.dev := rfl
@[simp] theorem emitAll_det (os : List Output) : (emitAll os s).det = s.det := rfl

@[simp] theorem updDev_pending (f : Device → Device) : (updDev f s).pending = s.pending := rfl
@[simp] theorem updDev_free (f : Device → Device) : (updDev f s).free = s.free := rfl
@[simp] theorem updDev_out (f : Device → Device) : (updDev f s).out = s.out := rfl
@[simp] theorem updDev_clk (f : Device → Device) : (updDev f s).clk = s.clk := rfl
@[simp] theorem updDev_mem (f : Device → Device) : (updDev f s).mem = s.mem := rfl
@[simp] theorem updDev_mbx (f : Device → Device) : (updDev f s).mbx = s.mbx := rfl
@[simp] theorem updDev_host (f : Device → Device) : (updDev f s).host = s.host := rfl
@[simp] theorem updDev_traf (f : Device → Device) : (updDev f s).traf = s.traf := rfl
@[simp] theorem updDev_time (f : Device → Device) : (updDev f s).time = s.time := rfl
@[simp] theorem updDev_plates (f : Device → Device) : (updDev f s).plates = s.plates := rfl
@[simp] theorem updDev_flt (f : Device → Device) : (updDev f s).flt = s.flt := rfl
@[simp] theorem updDev_fab (f : Device → Device) : (updDev f s).fab = s.fab := rfl
@[simp] theorem updDev_rad (f : Device → Device) : (updDev f s).rad = s.rad := rfl
@[simp] theorem updDev_core (f : Device → Device) : (updDev f s).core = s.core := rfl
@[simp] theorem updDev_det (f : Device → Device) : (updDev f s).det = s.det := rfl

@[simp] theorem updPwr_pending (f : PowerUnit → PowerUnit) : (updPwr f s).pending = s.pending := rfl
@[simp] theorem updPwr_free (f : PowerUnit → PowerUnit) : (updPwr f s).free = s.free := rfl
@[simp] theorem updPwr_out (f : PowerUnit → PowerUnit) : (updPwr f s).out = s.out := rfl
@[simp] theorem updPwr_clk (f : PowerUnit → PowerUnit) : (updPwr f s).clk = s.clk := rfl
@[simp] theorem updPwr_mem (f : PowerUnit → PowerUnit) : (updPwr f s).mem = s.mem := rfl
@[simp] theorem updPwr_mbx (f : PowerUnit → PowerUnit) : (updPwr f s).mbx = s.mbx := rfl
@[simp] theorem updPwr_host (f : PowerUnit → PowerUnit) : (updPwr f s).host = s.host := rfl
@[simp] theorem updPwr_traf (f : PowerUnit → PowerUnit) : (updPwr f s).traf = s.traf := rfl
@[simp] theorem updPwr_time (f : PowerUnit → PowerUnit) : (updPwr f s).time = s.time := rfl
@[simp] theorem updPwr_plates (f : PowerUnit → PowerUnit) : (updPwr f s).plates = s.plates := rfl
@[simp] theorem updPwr_flt (f : PowerUnit → PowerUnit) : (updPwr f s).flt = s.flt := rfl
@[simp] theorem updPwr_fab (f : PowerUnit → PowerUnit) : (updPwr f s).fab = s.fab := rfl
@[simp] theorem updPwr_rad (f : PowerUnit → PowerUnit) : (updPwr f s).rad = s.rad := rfl
@[simp] theorem updPwr_core (f : PowerUnit → PowerUnit) : (updPwr f s).core = s.core := rfl
@[simp] theorem updPwr_det (f : PowerUnit → PowerUnit) : (updPwr f s).det = s.det := rfl

@[simp] theorem pwrCount_pending (i n : Nat) : (pwrCount i n s).pending = s.pending := rfl
@[simp] theorem pwrCount_free (i n : Nat) : (pwrCount i n s).free = s.free := rfl
@[simp] theorem pwrCount_out (i n : Nat) : (pwrCount i n s).out = s.out := rfl
@[simp] theorem pwrCount_clk (i n : Nat) : (pwrCount i n s).clk = s.clk := rfl
@[simp] theorem pwrCount_mem (i n : Nat) : (pwrCount i n s).mem = s.mem := rfl
@[simp] theorem pwrCount_mbx (i n : Nat) : (pwrCount i n s).mbx = s.mbx := rfl
@[simp] theorem pwrCount_host (i n : Nat) : (pwrCount i n s).host = s.host := rfl
@[simp] theorem pwrCount_traf (i n : Nat) : (pwrCount i n s).traf = s.traf := rfl
@[simp] theorem pwrCount_time (i n : Nat) : (pwrCount i n s).time = s.time := rfl
@[simp] theorem pwrCount_plates (i n : Nat) : (pwrCount i n s).plates = s.plates := rfl
@[simp] theorem pwrCount_flt (i n : Nat) : (pwrCount i n s).flt = s.flt := rfl
@[simp] theorem pwrCount_fab (i n : Nat) : (pwrCount i n s).fab = s.fab := rfl
@[simp] theorem pwrCount_rad (i n : Nat) : (pwrCount i n s).rad = s.rad := rfl
@[simp] theorem pwrCount_core (i n : Nat) : (pwrCount i n s).core = s.core := rfl
@[simp] theorem pwrCount_det (i n : Nat) : (pwrCount i n s).det = s.det := rfl

@[simp] theorem resetCount_pending (i : Nat) : (resetCount i s).pending = s.pending := rfl
@[simp] theorem resetCount_free (i : Nat) : (resetCount i s).free = s.free := rfl
@[simp] theorem resetCount_out (i : Nat) : (resetCount i s).out = s.out := rfl
@[simp] theorem resetCount_clk (i : Nat) : (resetCount i s).clk = s.clk := rfl
@[simp] theorem resetCount_mem (i : Nat) : (resetCount i s).mem = s.mem := rfl
@[simp] theorem resetCount_mbx (i : Nat) : (resetCount i s).mbx = s.mbx := rfl
@[simp] theorem resetCount_host (i : Nat) : (resetCount i s).host = s.host := rfl
@[simp] theorem resetCount_traf (i : Nat) : (resetCount i s).traf = s.traf := rfl
@[simp] theorem resetCount_time (i : Nat) : (resetCount i s).time = s.time := rfl
@[simp] theorem resetCount_plates (i : Nat) : (resetCount i s).plates = s.plates := rfl
@[simp] theorem resetCount_flt (i : Nat) : (resetCount i s).flt = s.flt := rfl
@[simp] theorem resetCount_fab (i : Nat) : (resetCount i s).fab = s.fab := rfl
@[simp] theorem resetCount_rad (i : Nat) : (resetCount i s).rad = s.rad := rfl
@[simp] theorem resetCount_core (i : Nat) : (resetCount i s).core = s.core := rfl
@[simp] theorem resetCount_det (i : Nat) : (resetCount i s).det = s.det := rfl

@[simp] theorem updFlt_pending (f : Faults → Faults) : (updFlt f s).pending = s.pending := rfl
@[simp] theorem updFlt_free (f : Faults → Faults) : (updFlt f s).free = s.free := rfl
@[simp] theorem updFlt_out (f : Faults → Faults) : (updFlt f s).out = s.out := rfl
@[simp] theorem updFlt_clk (f : Faults → Faults) : (updFlt f s).clk = s.clk := rfl
@[simp] theorem updFlt_mem (f : Faults → Faults) : (updFlt f s).mem = s.mem := rfl
@[simp] theorem updFlt_mbx (f : Faults → Faults) : (updFlt f s).mbx = s.mbx := rfl
@[simp] theorem updFlt_host (f : Faults → Faults) : (updFlt f s).host = s.host := rfl
@[simp] theorem updFlt_traf (f : Faults → Faults) : (updFlt f s).traf = s.traf := rfl
@[simp] theorem updFlt_time (f : Faults → Faults) : (updFlt f s).time = s.time := rfl
@[simp] theorem updFlt_plates (f : Faults → Faults) : (updFlt f s).plates = s.plates := rfl
@[simp] theorem updFlt_fab (f : Faults → Faults) : (updFlt f s).fab = s.fab := rfl
@[simp] theorem updFlt_rad (f : Faults → Faults) : (updFlt f s).rad = s.rad := rfl
@[simp] theorem updFlt_core (f : Faults → Faults) : (updFlt f s).core = s.core := rfl
@[simp] theorem updFlt_dev (f : Faults → Faults) : (updFlt f s).dev = s.dev := rfl
@[simp] theorem updFlt_det (f : Faults → Faults) : (updFlt f s).det = s.det := rfl

@[simp] theorem fltCount_pending (i : Nat) : (fltCount i s).pending = s.pending := rfl
@[simp] theorem fltCount_free (i : Nat) : (fltCount i s).free = s.free := rfl
@[simp] theorem fltCount_out (i : Nat) : (fltCount i s).out = s.out := rfl
@[simp] theorem fltCount_clk (i : Nat) : (fltCount i s).clk = s.clk := rfl
@[simp] theorem fltCount_mem (i : Nat) : (fltCount i s).mem = s.mem := rfl
@[simp] theorem fltCount_mbx (i : Nat) : (fltCount i s).mbx = s.mbx := rfl
@[simp] theorem fltCount_host (i : Nat) : (fltCount i s).host = s.host := rfl
@[simp] theorem fltCount_traf (i : Nat) : (fltCount i s).traf = s.traf := rfl
@[simp] theorem fltCount_time (i : Nat) : (fltCount i s).time = s.time := rfl
@[simp] theorem fltCount_plates (i : Nat) : (fltCount i s).plates = s.plates := rfl
@[simp] theorem fltCount_fab (i : Nat) : (fltCount i s).fab = s.fab := rfl
@[simp] theorem fltCount_rad (i : Nat) : (fltCount i s).rad = s.rad := rfl
@[simp] theorem fltCount_core (i : Nat) : (fltCount i s).core = s.core := rfl
@[simp] theorem fltCount_dev (i : Nat) : (fltCount i s).dev = s.dev := rfl
@[simp] theorem fltCount_det (i : Nat) : (fltCount i s).det = s.det := rfl

@[simp] theorem healthCount_pending (c n : Nat) : (healthCount c n s).pending = s.pending := rfl
@[simp] theorem healthCount_free (c n : Nat) : (healthCount c n s).free = s.free := rfl
@[simp] theorem healthCount_out (c n : Nat) : (healthCount c n s).out = s.out := rfl
@[simp] theorem healthCount_clk (c n : Nat) : (healthCount c n s).clk = s.clk := rfl
@[simp] theorem healthCount_mem (c n : Nat) : (healthCount c n s).mem = s.mem := rfl
@[simp] theorem healthCount_mbx (c n : Nat) : (healthCount c n s).mbx = s.mbx := rfl
@[simp] theorem healthCount_host (c n : Nat) : (healthCount c n s).host = s.host := rfl
@[simp] theorem healthCount_traf (c n : Nat) : (healthCount c n s).traf = s.traf := rfl
@[simp] theorem healthCount_time (c n : Nat) : (healthCount c n s).time = s.time := rfl
@[simp] theorem healthCount_plates (c n : Nat) : (healthCount c n s).plates = s.plates := rfl
@[simp] theorem healthCount_fab (c n : Nat) : (healthCount c n s).fab = s.fab := rfl
@[simp] theorem healthCount_rad (c n : Nat) : (healthCount c n s).rad = s.rad := rfl
@[simp] theorem healthCount_core (c n : Nat) : (healthCount c n s).core = s.core := rfl
@[simp] theorem healthCount_dev (c n : Nat) : (healthCount c n s).dev = s.dev := rfl
@[simp] theorem healthCount_det (c n : Nat) : (healthCount c n s).det = s.det := rfl

@[simp] theorem updRad_pending (f : Radio → Radio) : (updRad f s).pending = s.pending := rfl
@[simp] theorem updRad_free (f : Radio → Radio) : (updRad f s).free = s.free := rfl
@[simp] theorem updRad_out (f : Radio → Radio) : (updRad f s).out = s.out := rfl
@[simp] theorem updRad_clk (f : Radio → Radio) : (updRad f s).clk = s.clk := rfl
@[simp] theorem updRad_mem (f : Radio → Radio) : (updRad f s).mem = s.mem := rfl
@[simp] theorem updRad_mbx (f : Radio → Radio) : (updRad f s).mbx = s.mbx := rfl
@[simp] theorem updRad_host (f : Radio → Radio) : (updRad f s).host = s.host := rfl
@[simp] theorem updRad_traf (f : Radio → Radio) : (updRad f s).traf = s.traf := rfl
@[simp] theorem updRad_time (f : Radio → Radio) : (updRad f s).time = s.time := rfl
@[simp] theorem updRad_plates (f : Radio → Radio) : (updRad f s).plates = s.plates := rfl
@[simp] theorem updRad_flt (f : Radio → Radio) : (updRad f s).flt = s.flt := rfl
@[simp] theorem updRad_fab (f : Radio → Radio) : (updRad f s).fab = s.fab := rfl
@[simp] theorem updRad_core (f : Radio → Radio) : (updRad f s).core = s.core := rfl
@[simp] theorem updRad_dev (f : Radio → Radio) : (updRad f s).dev = s.dev := rfl
@[simp] theorem updRad_det (f : Radio → Radio) : (updRad f s).det = s.det := rfl

@[simp] theorem updCell_pending (c : Nat) (f : Cell → Cell) : (updCell c f s).pending = s.pending := rfl
@[simp] theorem updCell_free (c : Nat) (f : Cell → Cell) : (updCell c f s).free = s.free := rfl
@[simp] theorem updCell_out (c : Nat) (f : Cell → Cell) : (updCell c f s).out = s.out := rfl
@[simp] theorem updCell_clk (c : Nat) (f : Cell → Cell) : (updCell c f s).clk = s.clk := rfl
@[simp] theorem updCell_mem (c : Nat) (f : Cell → Cell) : (updCell c f s).mem = s.mem := rfl
@[simp] theorem updCell_mbx (c : Nat) (f : Cell → Cell) : (updCell c f s).mbx = s.mbx := rfl
@[simp] theorem updCell_host (c : Nat) (f : Cell → Cell) : (updCell c f s).host = s.host := rfl
@[simp] theorem updCell_traf (c : Nat) (f : Cell → Cell) : (updCell c f s).traf = s.traf := rfl
@[simp] theorem updCell_time (c : Nat) (f : Cell → Cell) : (updCell c f s).time = s.time := rfl
@[simp] theorem updCell_plates (c : Nat) (f : Cell → Cell) : (updCell c f s).plates = s.plates := rfl
@[simp] theorem updCell_flt (c : Nat) (f : Cell → Cell) : (updCell c f s).flt = s.flt := rfl
@[simp] theorem updCell_fab (c : Nat) (f : Cell → Cell) : (updCell c f s).fab = s.fab := rfl
@[simp] theorem updCell_core (c : Nat) (f : Cell → Cell) : (updCell c f s).core = s.core := rfl
@[simp] theorem updCell_dev (c : Nat) (f : Cell → Cell) : (updCell c f s).dev = s.dev := rfl
@[simp] theorem updCell_det (c : Nat) (f : Cell → Cell) : (updCell c f s).det = s.det := rfl

@[simp] theorem updFhPort_pending (p : Nat) (f : FhPort → FhPort) : (updFhPort p f s).pending = s.pending := rfl
@[simp] theorem updFhPort_free (p : Nat) (f : FhPort → FhPort) : (updFhPort p f s).free = s.free := rfl
@[simp] theorem updFhPort_out (p : Nat) (f : FhPort → FhPort) : (updFhPort p f s).out = s.out := rfl
@[simp] theorem updFhPort_clk (p : Nat) (f : FhPort → FhPort) : (updFhPort p f s).clk = s.clk := rfl
@[simp] theorem updFhPort_mem (p : Nat) (f : FhPort → FhPort) : (updFhPort p f s).mem = s.mem := rfl
@[simp] theorem updFhPort_mbx (p : Nat) (f : FhPort → FhPort) : (updFhPort p f s).mbx = s.mbx := rfl
@[simp] theorem updFhPort_host (p : Nat) (f : FhPort → FhPort) : (updFhPort p f s).host = s.host := rfl
@[simp] theorem updFhPort_traf (p : Nat) (f : FhPort → FhPort) : (updFhPort p f s).traf = s.traf := rfl
@[simp] theorem updFhPort_time (p : Nat) (f : FhPort → FhPort) : (updFhPort p f s).time = s.time := rfl
@[simp] theorem updFhPort_plates (p : Nat) (f : FhPort → FhPort) : (updFhPort p f s).plates = s.plates := rfl
@[simp] theorem updFhPort_flt (p : Nat) (f : FhPort → FhPort) : (updFhPort p f s).flt = s.flt := rfl
@[simp] theorem updFhPort_fab (p : Nat) (f : FhPort → FhPort) : (updFhPort p f s).fab = s.fab := rfl
@[simp] theorem updFhPort_core (p : Nat) (f : FhPort → FhPort) : (updFhPort p f s).core = s.core := rfl
@[simp] theorem updFhPort_dev (p : Nat) (f : FhPort → FhPort) : (updFhPort p f s).dev = s.dev := rfl
@[simp] theorem updFhPort_det (p : Nat) (f : FhPort → FhPort) : (updFhPort p f s).det = s.det := rfl

@[simp] theorem portCount_pending (p i : Nat) : (portCount p i s).pending = s.pending := rfl
@[simp] theorem portCount_free (p i : Nat) : (portCount p i s).free = s.free := rfl
@[simp] theorem portCount_out (p i : Nat) : (portCount p i s).out = s.out := rfl
@[simp] theorem portCount_clk (p i : Nat) : (portCount p i s).clk = s.clk := rfl
@[simp] theorem portCount_mem (p i : Nat) : (portCount p i s).mem = s.mem := rfl
@[simp] theorem portCount_mbx (p i : Nat) : (portCount p i s).mbx = s.mbx := rfl
@[simp] theorem portCount_host (p i : Nat) : (portCount p i s).host = s.host := rfl
@[simp] theorem portCount_traf (p i : Nat) : (portCount p i s).traf = s.traf := rfl
@[simp] theorem portCount_time (p i : Nat) : (portCount p i s).time = s.time := rfl
@[simp] theorem portCount_plates (p i : Nat) : (portCount p i s).plates = s.plates := rfl
@[simp] theorem portCount_flt (p i : Nat) : (portCount p i s).flt = s.flt := rfl
@[simp] theorem portCount_fab (p i : Nat) : (portCount p i s).fab = s.fab := rfl
@[simp] theorem portCount_core (p i : Nat) : (portCount p i s).core = s.core := rfl
@[simp] theorem portCount_dev (p i : Nat) : (portCount p i s).dev = s.dev := rfl
@[simp] theorem portCount_det (p i : Nat) : (portCount p i s).det = s.det := rfl

@[simp] theorem updStream_pending (n : Nat) (f : Stream → Stream) : (updStream n f s).pending = s.pending := rfl
@[simp] theorem updStream_free (n : Nat) (f : Stream → Stream) : (updStream n f s).free = s.free := rfl
@[simp] theorem updStream_out (n : Nat) (f : Stream → Stream) : (updStream n f s).out = s.out := rfl
@[simp] theorem updStream_clk (n : Nat) (f : Stream → Stream) : (updStream n f s).clk = s.clk := rfl
@[simp] theorem updStream_mem (n : Nat) (f : Stream → Stream) : (updStream n f s).mem = s.mem := rfl
@[simp] theorem updStream_mbx (n : Nat) (f : Stream → Stream) : (updStream n f s).mbx = s.mbx := rfl
@[simp] theorem updStream_host (n : Nat) (f : Stream → Stream) : (updStream n f s).host = s.host := rfl
@[simp] theorem updStream_traf (n : Nat) (f : Stream → Stream) : (updStream n f s).traf = s.traf := rfl
@[simp] theorem updStream_time (n : Nat) (f : Stream → Stream) : (updStream n f s).time = s.time := rfl
@[simp] theorem updStream_plates (n : Nat) (f : Stream → Stream) : (updStream n f s).plates = s.plates := rfl
@[simp] theorem updStream_flt (n : Nat) (f : Stream → Stream) : (updStream n f s).flt = s.flt := rfl
@[simp] theorem updStream_fab (n : Nat) (f : Stream → Stream) : (updStream n f s).fab = s.fab := rfl
@[simp] theorem updStream_core (n : Nat) (f : Stream → Stream) : (updStream n f s).core = s.core := rfl
@[simp] theorem updStream_dev (n : Nat) (f : Stream → Stream) : (updStream n f s).dev = s.dev := rfl
@[simp] theorem updStream_det (n : Nat) (f : Stream → Stream) : (updStream n f s).det = s.det := rfl

@[simp] theorem streamCount_pending (x i : Nat) : (streamCount x i s).pending = s.pending := rfl
@[simp] theorem streamCount_free (x i : Nat) : (streamCount x i s).free = s.free := rfl
@[simp] theorem streamCount_out (x i : Nat) : (streamCount x i s).out = s.out := rfl
@[simp] theorem streamCount_clk (x i : Nat) : (streamCount x i s).clk = s.clk := rfl
@[simp] theorem streamCount_mem (x i : Nat) : (streamCount x i s).mem = s.mem := rfl
@[simp] theorem streamCount_mbx (x i : Nat) : (streamCount x i s).mbx = s.mbx := rfl
@[simp] theorem streamCount_host (x i : Nat) : (streamCount x i s).host = s.host := rfl
@[simp] theorem streamCount_traf (x i : Nat) : (streamCount x i s).traf = s.traf := rfl
@[simp] theorem streamCount_time (x i : Nat) : (streamCount x i s).time = s.time := rfl
@[simp] theorem streamCount_plates (x i : Nat) : (streamCount x i s).plates = s.plates := rfl
@[simp] theorem streamCount_flt (x i : Nat) : (streamCount x i s).flt = s.flt := rfl
@[simp] theorem streamCount_fab (x i : Nat) : (streamCount x i s).fab = s.fab := rfl
@[simp] theorem streamCount_core (x i : Nat) : (streamCount x i s).core = s.core := rfl
@[simp] theorem streamCount_dev (x i : Nat) : (streamCount x i s).dev = s.dev := rfl
@[simp] theorem streamCount_det (x i : Nat) : (streamCount x i s).det = s.det := rfl

@[simp] theorem updFab_pending (f : Fabric → Fabric) : (updFab f s).pending = s.pending := rfl
@[simp] theorem updFab_free (f : Fabric → Fabric) : (updFab f s).free = s.free := rfl
@[simp] theorem updFab_out (f : Fabric → Fabric) : (updFab f s).out = s.out := rfl
@[simp] theorem updFab_clk (f : Fabric → Fabric) : (updFab f s).clk = s.clk := rfl
@[simp] theorem updFab_mem (f : Fabric → Fabric) : (updFab f s).mem = s.mem := rfl
@[simp] theorem updFab_mbx (f : Fabric → Fabric) : (updFab f s).mbx = s.mbx := rfl
@[simp] theorem updFab_host (f : Fabric → Fabric) : (updFab f s).host = s.host := rfl
@[simp] theorem updFab_traf (f : Fabric → Fabric) : (updFab f s).traf = s.traf := rfl
@[simp] theorem updFab_time (f : Fabric → Fabric) : (updFab f s).time = s.time := rfl
@[simp] theorem updFab_plates (f : Fabric → Fabric) : (updFab f s).plates = s.plates := rfl
@[simp] theorem updFab_flt (f : Fabric → Fabric) : (updFab f s).flt = s.flt := rfl
@[simp] theorem updFab_rad (f : Fabric → Fabric) : (updFab f s).rad = s.rad := rfl
@[simp] theorem updFab_core (f : Fabric → Fabric) : (updFab f s).core = s.core := rfl
@[simp] theorem updFab_dev (f : Fabric → Fabric) : (updFab f s).dev = s.dev := rfl
@[simp] theorem updFab_det (f : Fabric → Fabric) : (updFab f s).det = s.det := rfl

@[simp] theorem fabCount_pending (i : Nat) : (fabCount i s).pending = s.pending := rfl
@[simp] theorem fabCount_free (i : Nat) : (fabCount i s).free = s.free := rfl
@[simp] theorem fabCount_out (i : Nat) : (fabCount i s).out = s.out := rfl
@[simp] theorem fabCount_clk (i : Nat) : (fabCount i s).clk = s.clk := rfl
@[simp] theorem fabCount_mem (i : Nat) : (fabCount i s).mem = s.mem := rfl
@[simp] theorem fabCount_mbx (i : Nat) : (fabCount i s).mbx = s.mbx := rfl
@[simp] theorem fabCount_host (i : Nat) : (fabCount i s).host = s.host := rfl
@[simp] theorem fabCount_traf (i : Nat) : (fabCount i s).traf = s.traf := rfl
@[simp] theorem fabCount_time (i : Nat) : (fabCount i s).time = s.time := rfl
@[simp] theorem fabCount_plates (i : Nat) : (fabCount i s).plates = s.plates := rfl
@[simp] theorem fabCount_flt (i : Nat) : (fabCount i s).flt = s.flt := rfl
@[simp] theorem fabCount_rad (i : Nat) : (fabCount i s).rad = s.rad := rfl
@[simp] theorem fabCount_core (i : Nat) : (fabCount i s).core = s.core := rfl
@[simp] theorem fabCount_dev (i : Nat) : (fabCount i s).dev = s.dev := rfl
@[simp] theorem fabCount_det (i : Nat) : (fabCount i s).det = s.det := rfl

@[simp] theorem updPort_pending (p : Nat) (f : AbrPort → AbrPort) : (updPort p f s).pending = s.pending := rfl
@[simp] theorem updPort_free (p : Nat) (f : AbrPort → AbrPort) : (updPort p f s).free = s.free := rfl
@[simp] theorem updPort_out (p : Nat) (f : AbrPort → AbrPort) : (updPort p f s).out = s.out := rfl
@[simp] theorem updPort_clk (p : Nat) (f : AbrPort → AbrPort) : (updPort p f s).clk = s.clk := rfl
@[simp] theorem updPort_mem (p : Nat) (f : AbrPort → AbrPort) : (updPort p f s).mem = s.mem := rfl
@[simp] theorem updPort_mbx (p : Nat) (f : AbrPort → AbrPort) : (updPort p f s).mbx = s.mbx := rfl
@[simp] theorem updPort_host (p : Nat) (f : AbrPort → AbrPort) : (updPort p f s).host = s.host := rfl
@[simp] theorem updPort_traf (p : Nat) (f : AbrPort → AbrPort) : (updPort p f s).traf = s.traf := rfl
@[simp] theorem updPort_time (p : Nat) (f : AbrPort → AbrPort) : (updPort p f s).time = s.time := rfl
@[simp] theorem updPort_plates (p : Nat) (f : AbrPort → AbrPort) : (updPort p f s).plates = s.plates := rfl
@[simp] theorem updPort_flt (p : Nat) (f : AbrPort → AbrPort) : (updPort p f s).flt = s.flt := rfl
@[simp] theorem updPort_rad (p : Nat) (f : AbrPort → AbrPort) : (updPort p f s).rad = s.rad := rfl
@[simp] theorem updPort_core (p : Nat) (f : AbrPort → AbrPort) : (updPort p f s).core = s.core := rfl
@[simp] theorem updPort_dev (p : Nat) (f : AbrPort → AbrPort) : (updPort p f s).dev = s.dev := rfl
@[simp] theorem updPort_det (p : Nat) (f : AbrPort → AbrPort) : (updPort p f s).det = s.det := rfl

@[simp] theorem updLane_pending (p l : Nat) (f : Lane → Lane) : (updLane p l f s).pending = s.pending := rfl
@[simp] theorem updLane_free (p l : Nat) (f : Lane → Lane) : (updLane p l f s).free = s.free := rfl
@[simp] theorem updLane_out (p l : Nat) (f : Lane → Lane) : (updLane p l f s).out = s.out := rfl
@[simp] theorem updLane_clk (p l : Nat) (f : Lane → Lane) : (updLane p l f s).clk = s.clk := rfl
@[simp] theorem updLane_mem (p l : Nat) (f : Lane → Lane) : (updLane p l f s).mem = s.mem := rfl
@[simp] theorem updLane_mbx (p l : Nat) (f : Lane → Lane) : (updLane p l f s).mbx = s.mbx := rfl
@[simp] theorem updLane_host (p l : Nat) (f : Lane → Lane) : (updLane p l f s).host = s.host := rfl
@[simp] theorem updLane_traf (p l : Nat) (f : Lane → Lane) : (updLane p l f s).traf = s.traf := rfl
@[simp] theorem updLane_time (p l : Nat) (f : Lane → Lane) : (updLane p l f s).time = s.time := rfl
@[simp] theorem updLane_plates (p l : Nat) (f : Lane → Lane) : (updLane p l f s).plates = s.plates := rfl
@[simp] theorem updLane_flt (p l : Nat) (f : Lane → Lane) : (updLane p l f s).flt = s.flt := rfl
@[simp] theorem updLane_rad (p l : Nat) (f : Lane → Lane) : (updLane p l f s).rad = s.rad := rfl
@[simp] theorem updLane_core (p l : Nat) (f : Lane → Lane) : (updLane p l f s).core = s.core := rfl
@[simp] theorem updLane_dev (p l : Nat) (f : Lane → Lane) : (updLane p l f s).dev = s.dev := rfl
@[simp] theorem updLane_det (p l : Nat) (f : Lane → Lane) : (updLane p l f s).det = s.det := rfl

@[simp] theorem collCount_pending (die i n : Nat) : (collCount die i n s).pending = s.pending := rfl
@[simp] theorem collCount_free (die i n : Nat) : (collCount die i n s).free = s.free := rfl
@[simp] theorem collCount_out (die i n : Nat) : (collCount die i n s).out = s.out := rfl
@[simp] theorem collCount_clk (die i n : Nat) : (collCount die i n s).clk = s.clk := rfl
@[simp] theorem collCount_mem (die i n : Nat) : (collCount die i n s).mem = s.mem := rfl
@[simp] theorem collCount_mbx (die i n : Nat) : (collCount die i n s).mbx = s.mbx := rfl
@[simp] theorem collCount_host (die i n : Nat) : (collCount die i n s).host = s.host := rfl
@[simp] theorem collCount_traf (die i n : Nat) : (collCount die i n s).traf = s.traf := rfl
@[simp] theorem collCount_time (die i n : Nat) : (collCount die i n s).time = s.time := rfl
@[simp] theorem collCount_plates (die i n : Nat) : (collCount die i n s).plates = s.plates := rfl
@[simp] theorem collCount_flt (die i n : Nat) : (collCount die i n s).flt = s.flt := rfl
@[simp] theorem collCount_rad (die i n : Nat) : (collCount die i n s).rad = s.rad := rfl
@[simp] theorem collCount_core (die i n : Nat) : (collCount die i n s).core = s.core := rfl
@[simp] theorem collCount_dev (die i n : Nat) : (collCount die i n s).dev = s.dev := rfl
@[simp] theorem collCount_det (die i n : Nat) : (collCount die i n s).det = s.det := rfl

@[simp] theorem updDet_pending (f : Det → Det) : (updDet f s).pending = s.pending := rfl
@[simp] theorem updDet_free (f : Det → Det) : (updDet f s).free = s.free := rfl
@[simp] theorem updDet_out (f : Det → Det) : (updDet f s).out = s.out := rfl
@[simp] theorem updDet_clk (f : Det → Det) : (updDet f s).clk = s.clk := rfl
@[simp] theorem updDet_mem (f : Det → Det) : (updDet f s).mem = s.mem := rfl
@[simp] theorem updDet_mbx (f : Det → Det) : (updDet f s).mbx = s.mbx := rfl
@[simp] theorem updDet_host (f : Det → Det) : (updDet f s).host = s.host := rfl
@[simp] theorem updDet_traf (f : Det → Det) : (updDet f s).traf = s.traf := rfl
@[simp] theorem updDet_time (f : Det → Det) : (updDet f s).time = s.time := rfl
@[simp] theorem updDet_plates (f : Det → Det) : (updDet f s).plates = s.plates := rfl
@[simp] theorem updDet_flt (f : Det → Det) : (updDet f s).flt = s.flt := rfl
@[simp] theorem updDet_fab (f : Det → Det) : (updDet f s).fab = s.fab := rfl
@[simp] theorem updDet_rad (f : Det → Det) : (updDet f s).rad = s.rad := rfl
@[simp] theorem updDet_core (f : Det → Det) : (updDet f s).core = s.core := rfl
@[simp] theorem updDet_dev (f : Det → Det) : (updDet f s).dev = s.dev := rfl

@[simp] theorem updRec_pending (f : RecUnit → RecUnit) : (updRec f s).pending = s.pending := rfl
@[simp] theorem updRec_free (f : RecUnit → RecUnit) : (updRec f s).free = s.free := rfl
@[simp] theorem updRec_out (f : RecUnit → RecUnit) : (updRec f s).out = s.out := rfl
@[simp] theorem updRec_clk (f : RecUnit → RecUnit) : (updRec f s).clk = s.clk := rfl
@[simp] theorem updRec_mem (f : RecUnit → RecUnit) : (updRec f s).mem = s.mem := rfl
@[simp] theorem updRec_mbx (f : RecUnit → RecUnit) : (updRec f s).mbx = s.mbx := rfl
@[simp] theorem updRec_host (f : RecUnit → RecUnit) : (updRec f s).host = s.host := rfl
@[simp] theorem updRec_traf (f : RecUnit → RecUnit) : (updRec f s).traf = s.traf := rfl
@[simp] theorem updRec_time (f : RecUnit → RecUnit) : (updRec f s).time = s.time := rfl
@[simp] theorem updRec_plates (f : RecUnit → RecUnit) : (updRec f s).plates = s.plates := rfl
@[simp] theorem updRec_flt (f : RecUnit → RecUnit) : (updRec f s).flt = s.flt := rfl
@[simp] theorem updRec_fab (f : RecUnit → RecUnit) : (updRec f s).fab = s.fab := rfl
@[simp] theorem updRec_rad (f : RecUnit → RecUnit) : (updRec f s).rad = s.rad := rfl
@[simp] theorem updRec_core (f : RecUnit → RecUnit) : (updRec f s).core = s.core := rfl
@[simp] theorem updRec_dev (f : RecUnit → RecUnit) : (updRec f s).dev = s.dev := rfl

@[simp] theorem updDry_pending (f : Dry → Dry) : (updDry f s).pending = s.pending := rfl
@[simp] theorem updDry_free (f : Dry → Dry) : (updDry f s).free = s.free := rfl
@[simp] theorem updDry_out (f : Dry → Dry) : (updDry f s).out = s.out := rfl
@[simp] theorem updDry_clk (f : Dry → Dry) : (updDry f s).clk = s.clk := rfl
@[simp] theorem updDry_mem (f : Dry → Dry) : (updDry f s).mem = s.mem := rfl
@[simp] theorem updDry_mbx (f : Dry → Dry) : (updDry f s).mbx = s.mbx := rfl
@[simp] theorem updDry_host (f : Dry → Dry) : (updDry f s).host = s.host := rfl
@[simp] theorem updDry_traf (f : Dry → Dry) : (updDry f s).traf = s.traf := rfl
@[simp] theorem updDry_time (f : Dry → Dry) : (updDry f s).time = s.time := rfl
@[simp] theorem updDry_plates (f : Dry → Dry) : (updDry f s).plates = s.plates := rfl
@[simp] theorem updDry_flt (f : Dry → Dry) : (updDry f s).flt = s.flt := rfl
@[simp] theorem updDry_fab (f : Dry → Dry) : (updDry f s).fab = s.fab := rfl
@[simp] theorem updDry_rad (f : Dry → Dry) : (updDry f s).rad = s.rad := rfl
@[simp] theorem updDry_core (f : Dry → Dry) : (updDry f s).core = s.core := rfl
@[simp] theorem updDry_dev (f : Dry → Dry) : (updDry f s).dev = s.dev := rfl

@[simp] theorem updMem_pending (f : MemTiers → MemTiers) : (updMem f s).pending = s.pending := rfl
@[simp] theorem updMem_free (f : MemTiers → MemTiers) : (updMem f s).free = s.free := rfl
@[simp] theorem updMem_out (f : MemTiers → MemTiers) : (updMem f s).out = s.out := rfl
@[simp] theorem updMem_clk (f : MemTiers → MemTiers) : (updMem f s).clk = s.clk := rfl
@[simp] theorem updMem_mbx (f : MemTiers → MemTiers) : (updMem f s).mbx = s.mbx := rfl
@[simp] theorem updMem_host (f : MemTiers → MemTiers) : (updMem f s).host = s.host := rfl
@[simp] theorem updMem_traf (f : MemTiers → MemTiers) : (updMem f s).traf = s.traf := rfl
@[simp] theorem updMem_time (f : MemTiers → MemTiers) : (updMem f s).time = s.time := rfl
@[simp] theorem updMem_plates (f : MemTiers → MemTiers) : (updMem f s).plates = s.plates := rfl
@[simp] theorem updMem_flt (f : MemTiers → MemTiers) : (updMem f s).flt = s.flt := rfl
@[simp] theorem updMem_fab (f : MemTiers → MemTiers) : (updMem f s).fab = s.fab := rfl
@[simp] theorem updMem_rad (f : MemTiers → MemTiers) : (updMem f s).rad = s.rad := rfl
@[simp] theorem updMem_core (f : MemTiers → MemTiers) : (updMem f s).core = s.core := rfl
@[simp] theorem updMem_dev (f : MemTiers → MemTiers) : (updMem f s).dev = s.dev := rfl
@[simp] theorem updMem_det (f : MemTiers → MemTiers) : (updMem f s).det = s.det := rfl

@[simp] theorem updSeq_pending (f : SeqUnit → SeqUnit) : (updSeq f s).pending = s.pending := rfl
@[simp] theorem updSeq_free (f : SeqUnit → SeqUnit) : (updSeq f s).free = s.free := rfl
@[simp] theorem updSeq_out (f : SeqUnit → SeqUnit) : (updSeq f s).out = s.out := rfl
@[simp] theorem updSeq_clk (f : SeqUnit → SeqUnit) : (updSeq f s).clk = s.clk := rfl
@[simp] theorem updSeq_mbx (f : SeqUnit → SeqUnit) : (updSeq f s).mbx = s.mbx := rfl
@[simp] theorem updSeq_host (f : SeqUnit → SeqUnit) : (updSeq f s).host = s.host := rfl
@[simp] theorem updSeq_traf (f : SeqUnit → SeqUnit) : (updSeq f s).traf = s.traf := rfl
@[simp] theorem updSeq_time (f : SeqUnit → SeqUnit) : (updSeq f s).time = s.time := rfl
@[simp] theorem updSeq_plates (f : SeqUnit → SeqUnit) : (updSeq f s).plates = s.plates := rfl
@[simp] theorem updSeq_flt (f : SeqUnit → SeqUnit) : (updSeq f s).flt = s.flt := rfl
@[simp] theorem updSeq_fab (f : SeqUnit → SeqUnit) : (updSeq f s).fab = s.fab := rfl
@[simp] theorem updSeq_rad (f : SeqUnit → SeqUnit) : (updSeq f s).rad = s.rad := rfl
@[simp] theorem updSeq_core (f : SeqUnit → SeqUnit) : (updSeq f s).core = s.core := rfl
@[simp] theorem updSeq_dev (f : SeqUnit → SeqUnit) : (updSeq f s).dev = s.dev := rfl
@[simp] theorem updSeq_det (f : SeqUnit → SeqUnit) : (updSeq f s).det = s.det := rfl

@[simp] theorem updFlash_pending (f : Flash → Flash) : (updFlash f s).pending = s.pending := rfl
@[simp] theorem updFlash_free (f : Flash → Flash) : (updFlash f s).free = s.free := rfl
@[simp] theorem updFlash_out (f : Flash → Flash) : (updFlash f s).out = s.out := rfl
@[simp] theorem updFlash_clk (f : Flash → Flash) : (updFlash f s).clk = s.clk := rfl
@[simp] theorem updFlash_mbx (f : Flash → Flash) : (updFlash f s).mbx = s.mbx := rfl
@[simp] theorem updFlash_host (f : Flash → Flash) : (updFlash f s).host = s.host := rfl
@[simp] theorem updFlash_traf (f : Flash → Flash) : (updFlash f s).traf = s.traf := rfl
@[simp] theorem updFlash_time (f : Flash → Flash) : (updFlash f s).time = s.time := rfl
@[simp] theorem updFlash_plates (f : Flash → Flash) : (updFlash f s).plates = s.plates := rfl
@[simp] theorem updFlash_flt (f : Flash → Flash) : (updFlash f s).flt = s.flt := rfl
@[simp] theorem updFlash_fab (f : Flash → Flash) : (updFlash f s).fab = s.fab := rfl
@[simp] theorem updFlash_rad (f : Flash → Flash) : (updFlash f s).rad = s.rad := rfl
@[simp] theorem updFlash_core (f : Flash → Flash) : (updFlash f s).core = s.core := rfl
@[simp] theorem updFlash_dev (f : Flash → Flash) : (updFlash f s).dev = s.dev := rfl
@[simp] theorem updFlash_det (f : Flash → Flash) : (updFlash f s).det = s.det := rfl

@[simp] theorem flashCount_pending (i : Nat) : (flashCount i s).pending = s.pending := rfl
@[simp] theorem flashCount_free (i : Nat) : (flashCount i s).free = s.free := rfl
@[simp] theorem flashCount_out (i : Nat) : (flashCount i s).out = s.out := rfl
@[simp] theorem flashCount_clk (i : Nat) : (flashCount i s).clk = s.clk := rfl
@[simp] theorem flashCount_mbx (i : Nat) : (flashCount i s).mbx = s.mbx := rfl
@[simp] theorem flashCount_host (i : Nat) : (flashCount i s).host = s.host := rfl
@[simp] theorem flashCount_traf (i : Nat) : (flashCount i s).traf = s.traf := rfl
@[simp] theorem flashCount_time (i : Nat) : (flashCount i s).time = s.time := rfl
@[simp] theorem flashCount_plates (i : Nat) : (flashCount i s).plates = s.plates := rfl
@[simp] theorem flashCount_flt (i : Nat) : (flashCount i s).flt = s.flt := rfl
@[simp] theorem flashCount_fab (i : Nat) : (flashCount i s).fab = s.fab := rfl
@[simp] theorem flashCount_rad (i : Nat) : (flashCount i s).rad = s.rad := rfl
@[simp] theorem flashCount_core (i : Nat) : (flashCount i s).core = s.core := rfl
@[simp] theorem flashCount_dev (i : Nat) : (flashCount i s).dev = s.dev := rfl
@[simp] theorem flashCount_det (i : Nat) : (flashCount i s).det = s.det := rfl

@[simp] theorem thatchCount_pending (die i : Nat) : (thatchCount die i s).pending = s.pending := rfl
@[simp] theorem thatchCount_free (die i : Nat) : (thatchCount die i s).free = s.free := rfl
@[simp] theorem thatchCount_out (die i : Nat) : (thatchCount die i s).out = s.out := rfl
@[simp] theorem thatchCount_clk (die i : Nat) : (thatchCount die i s).clk = s.clk := rfl
@[simp] theorem thatchCount_mbx (die i : Nat) : (thatchCount die i s).mbx = s.mbx := rfl
@[simp] theorem thatchCount_host (die i : Nat) : (thatchCount die i s).host = s.host := rfl
@[simp] theorem thatchCount_traf (die i : Nat) : (thatchCount die i s).traf = s.traf := rfl
@[simp] theorem thatchCount_time (die i : Nat) : (thatchCount die i s).time = s.time := rfl
@[simp] theorem thatchCount_plates (die i : Nat) : (thatchCount die i s).plates = s.plates := rfl
@[simp] theorem thatchCount_flt (die i : Nat) : (thatchCount die i s).flt = s.flt := rfl
@[simp] theorem thatchCount_fab (die i : Nat) : (thatchCount die i s).fab = s.fab := rfl
@[simp] theorem thatchCount_rad (die i : Nat) : (thatchCount die i s).rad = s.rad := rfl
@[simp] theorem thatchCount_core (die i : Nat) : (thatchCount die i s).core = s.core := rfl
@[simp] theorem thatchCount_dev (die i : Nat) : (thatchCount die i s).dev = s.dev := rfl
@[simp] theorem thatchCount_det (die i : Nat) : (thatchCount die i s).det = s.det := rfl

@[simp] theorem setQuota_pending (ctx tier : Nat) (q : Quota) : (s.setQuota ctx tier q).pending = s.pending := rfl
@[simp] theorem setQuota_free (ctx tier : Nat) (q : Quota) : (s.setQuota ctx tier q).free = s.free := rfl
@[simp] theorem setQuota_out (ctx tier : Nat) (q : Quota) : (s.setQuota ctx tier q).out = s.out := rfl
@[simp] theorem setQuota_clk (ctx tier : Nat) (q : Quota) : (s.setQuota ctx tier q).clk = s.clk := rfl
@[simp] theorem setQuota_mbx (ctx tier : Nat) (q : Quota) : (s.setQuota ctx tier q).mbx = s.mbx := rfl
@[simp] theorem setQuota_host (ctx tier : Nat) (q : Quota) : (s.setQuota ctx tier q).host = s.host := rfl
@[simp] theorem setQuota_traf (ctx tier : Nat) (q : Quota) : (s.setQuota ctx tier q).traf = s.traf := rfl
@[simp] theorem setQuota_time (ctx tier : Nat) (q : Quota) : (s.setQuota ctx tier q).time = s.time := rfl
@[simp] theorem setQuota_plates (ctx tier : Nat) (q : Quota) : (s.setQuota ctx tier q).plates = s.plates := rfl
@[simp] theorem setQuota_flt (ctx tier : Nat) (q : Quota) : (s.setQuota ctx tier q).flt = s.flt := rfl
@[simp] theorem setQuota_fab (ctx tier : Nat) (q : Quota) : (s.setQuota ctx tier q).fab = s.fab := rfl
@[simp] theorem setQuota_rad (ctx tier : Nat) (q : Quota) : (s.setQuota ctx tier q).rad = s.rad := rfl
@[simp] theorem setQuota_core (ctx tier : Nat) (q : Quota) : (s.setQuota ctx tier q).core = s.core := rfl
@[simp] theorem setQuota_dev (ctx tier : Nat) (q : Quota) : (s.setQuota ctx tier q).dev = s.dev := rfl
@[simp] theorem setQuota_det (ctx tier : Nat) (q : Quota) : (s.setQuota ctx tier q).det = s.det := rfl

@[simp] theorem setXfer_pending (n : Nat) (x : Option Xfer) : (s.setXfer n x).pending = s.pending := rfl
@[simp] theorem setXfer_free (n : Nat) (x : Option Xfer) : (s.setXfer n x).free = s.free := rfl
@[simp] theorem setXfer_out (n : Nat) (x : Option Xfer) : (s.setXfer n x).out = s.out := rfl
@[simp] theorem setXfer_clk (n : Nat) (x : Option Xfer) : (s.setXfer n x).clk = s.clk := rfl
@[simp] theorem setXfer_mbx (n : Nat) (x : Option Xfer) : (s.setXfer n x).mbx = s.mbx := rfl
@[simp] theorem setXfer_host (n : Nat) (x : Option Xfer) : (s.setXfer n x).host = s.host := rfl
@[simp] theorem setXfer_traf (n : Nat) (x : Option Xfer) : (s.setXfer n x).traf = s.traf := rfl
@[simp] theorem setXfer_time (n : Nat) (x : Option Xfer) : (s.setXfer n x).time = s.time := rfl
@[simp] theorem setXfer_plates (n : Nat) (x : Option Xfer) : (s.setXfer n x).plates = s.plates := rfl
@[simp] theorem setXfer_flt (n : Nat) (x : Option Xfer) : (s.setXfer n x).flt = s.flt := rfl
@[simp] theorem setXfer_fab (n : Nat) (x : Option Xfer) : (s.setXfer n x).fab = s.fab := rfl
@[simp] theorem setXfer_rad (n : Nat) (x : Option Xfer) : (s.setXfer n x).rad = s.rad := rfl
@[simp] theorem setXfer_core (n : Nat) (x : Option Xfer) : (s.setXfer n x).core = s.core := rfl
@[simp] theorem setXfer_dev (n : Nat) (x : Option Xfer) : (s.setXfer n x).dev = s.dev := rfl
@[simp] theorem setXfer_det (n : Nat) (x : Option Xfer) : (s.setXfer n x).det = s.det := rfl

@[simp] theorem setWeight_pending (n : Nat) (w : Option WeightSet) : (s.setWeight n w).pending = s.pending := rfl
@[simp] theorem setWeight_free (n : Nat) (w : Option WeightSet) : (s.setWeight n w).free = s.free := rfl
@[simp] theorem setWeight_out (n : Nat) (w : Option WeightSet) : (s.setWeight n w).out = s.out := rfl
@[simp] theorem setWeight_clk (n : Nat) (w : Option WeightSet) : (s.setWeight n w).clk = s.clk := rfl
@[simp] theorem setWeight_mbx (n : Nat) (w : Option WeightSet) : (s.setWeight n w).mbx = s.mbx := rfl
@[simp] theorem setWeight_host (n : Nat) (w : Option WeightSet) : (s.setWeight n w).host = s.host := rfl
@[simp] theorem setWeight_traf (n : Nat) (w : Option WeightSet) : (s.setWeight n w).traf = s.traf := rfl
@[simp] theorem setWeight_time (n : Nat) (w : Option WeightSet) : (s.setWeight n w).time = s.time := rfl
@[simp] theorem setWeight_plates (n : Nat) (w : Option WeightSet) : (s.setWeight n w).plates = s.plates := rfl
@[simp] theorem setWeight_flt (n : Nat) (w : Option WeightSet) : (s.setWeight n w).flt = s.flt := rfl
@[simp] theorem setWeight_fab (n : Nat) (w : Option WeightSet) : (s.setWeight n w).fab = s.fab := rfl
@[simp] theorem setWeight_rad (n : Nat) (w : Option WeightSet) : (s.setWeight n w).rad = s.rad := rfl
@[simp] theorem setWeight_core (n : Nat) (w : Option WeightSet) : (s.setWeight n w).core = s.core := rfl
@[simp] theorem setWeight_dev (n : Nat) (w : Option WeightSet) : (s.setWeight n w).dev = s.dev := rfl
@[simp] theorem setWeight_det (n : Nat) (w : Option WeightSet) : (s.setWeight n w).det = s.det := rfl

@[simp] theorem setCore_pending (k : Nat) (c : Core) : (s.setCore k c).pending = s.pending := rfl
@[simp] theorem setCore_free (k : Nat) (c : Core) : (s.setCore k c).free = s.free := rfl
@[simp] theorem setCore_out (k : Nat) (c : Core) : (s.setCore k c).out = s.out := rfl
@[simp] theorem setCore_clk (k : Nat) (c : Core) : (s.setCore k c).clk = s.clk := rfl
@[simp] theorem setCore_mem (k : Nat) (c : Core) : (s.setCore k c).mem = s.mem := rfl
@[simp] theorem setCore_mbx (k : Nat) (c : Core) : (s.setCore k c).mbx = s.mbx := rfl
@[simp] theorem setCore_host (k : Nat) (c : Core) : (s.setCore k c).host = s.host := rfl
@[simp] theorem setCore_traf (k : Nat) (c : Core) : (s.setCore k c).traf = s.traf := rfl
@[simp] theorem setCore_time (k : Nat) (c : Core) : (s.setCore k c).time = s.time := rfl
@[simp] theorem setCore_plates (k : Nat) (c : Core) : (s.setCore k c).plates = s.plates := rfl
@[simp] theorem setCore_flt (k : Nat) (c : Core) : (s.setCore k c).flt = s.flt := rfl
@[simp] theorem setCore_fab (k : Nat) (c : Core) : (s.setCore k c).fab = s.fab := rfl
@[simp] theorem setCore_rad (k : Nat) (c : Core) : (s.setCore k c).rad = s.rad := rfl
@[simp] theorem setCore_dev (k : Nat) (c : Core) : (s.setCore k c).dev = s.dev := rfl
@[simp] theorem setCore_det (k : Nat) (c : Core) : (s.setCore k c).det = s.det := rfl

@[simp] theorem setThread_pending (t : Nat) (x : Thread) : (s.setThread t x).pending = s.pending := rfl
@[simp] theorem setThread_free (t : Nat) (x : Thread) : (s.setThread t x).free = s.free := rfl
@[simp] theorem setThread_out (t : Nat) (x : Thread) : (s.setThread t x).out = s.out := rfl
@[simp] theorem setThread_clk (t : Nat) (x : Thread) : (s.setThread t x).clk = s.clk := rfl
@[simp] theorem setThread_mem (t : Nat) (x : Thread) : (s.setThread t x).mem = s.mem := rfl
@[simp] theorem setThread_mbx (t : Nat) (x : Thread) : (s.setThread t x).mbx = s.mbx := rfl
@[simp] theorem setThread_host (t : Nat) (x : Thread) : (s.setThread t x).host = s.host := rfl
@[simp] theorem setThread_traf (t : Nat) (x : Thread) : (s.setThread t x).traf = s.traf := rfl
@[simp] theorem setThread_time (t : Nat) (x : Thread) : (s.setThread t x).time = s.time := rfl
@[simp] theorem setThread_plates (t : Nat) (x : Thread) : (s.setThread t x).plates = s.plates := rfl
@[simp] theorem setThread_flt (t : Nat) (x : Thread) : (s.setThread t x).flt = s.flt := rfl
@[simp] theorem setThread_fab (t : Nat) (x : Thread) : (s.setThread t x).fab = s.fab := rfl
@[simp] theorem setThread_rad (t : Nat) (x : Thread) : (s.setThread t x).rad = s.rad := rfl
@[simp] theorem setThread_dev (t : Nat) (x : Thread) : (s.setThread t x).dev = s.dev := rfl
@[simp] theorem setThread_det (t : Nat) (x : Thread) : (s.setThread t x).det = s.det := rfl

@[simp] theorem setCtx_pending (c : Nat) (x : Ctx) : (s.setCtx c x).pending = s.pending := rfl
@[simp] theorem setCtx_free (c : Nat) (x : Ctx) : (s.setCtx c x).free = s.free := rfl
@[simp] theorem setCtx_out (c : Nat) (x : Ctx) : (s.setCtx c x).out = s.out := rfl
@[simp] theorem setCtx_clk (c : Nat) (x : Ctx) : (s.setCtx c x).clk = s.clk := rfl
@[simp] theorem setCtx_mem (c : Nat) (x : Ctx) : (s.setCtx c x).mem = s.mem := rfl
@[simp] theorem setCtx_mbx (c : Nat) (x : Ctx) : (s.setCtx c x).mbx = s.mbx := rfl
@[simp] theorem setCtx_host (c : Nat) (x : Ctx) : (s.setCtx c x).host = s.host := rfl
@[simp] theorem setCtx_traf (c : Nat) (x : Ctx) : (s.setCtx c x).traf = s.traf := rfl
@[simp] theorem setCtx_time (c : Nat) (x : Ctx) : (s.setCtx c x).time = s.time := rfl
@[simp] theorem setCtx_plates (c : Nat) (x : Ctx) : (s.setCtx c x).plates = s.plates := rfl
@[simp] theorem setCtx_flt (c : Nat) (x : Ctx) : (s.setCtx c x).flt = s.flt := rfl
@[simp] theorem setCtx_fab (c : Nat) (x : Ctx) : (s.setCtx c x).fab = s.fab := rfl
@[simp] theorem setCtx_rad (c : Nat) (x : Ctx) : (s.setCtx c x).rad = s.rad := rfl
@[simp] theorem setCtx_dev (c : Nat) (x : Ctx) : (s.setCtx c x).dev = s.dev := rfl
@[simp] theorem setCtx_det (c : Nat) (x : Ctx) : (s.setCtx c x).det = s.det := rfl

@[simp] theorem ctxCount_pending (c i : Nat) : (ctxCount c i s).pending = s.pending := rfl
@[simp] theorem ctxCount_free (c i : Nat) : (ctxCount c i s).free = s.free := rfl
@[simp] theorem ctxCount_out (c i : Nat) : (ctxCount c i s).out = s.out := rfl
@[simp] theorem ctxCount_clk (c i : Nat) : (ctxCount c i s).clk = s.clk := rfl
@[simp] theorem ctxCount_mem (c i : Nat) : (ctxCount c i s).mem = s.mem := rfl
@[simp] theorem ctxCount_mbx (c i : Nat) : (ctxCount c i s).mbx = s.mbx := rfl
@[simp] theorem ctxCount_host (c i : Nat) : (ctxCount c i s).host = s.host := rfl
@[simp] theorem ctxCount_traf (c i : Nat) : (ctxCount c i s).traf = s.traf := rfl
@[simp] theorem ctxCount_time (c i : Nat) : (ctxCount c i s).time = s.time := rfl
@[simp] theorem ctxCount_plates (c i : Nat) : (ctxCount c i s).plates = s.plates := rfl
@[simp] theorem ctxCount_flt (c i : Nat) : (ctxCount c i s).flt = s.flt := rfl
@[simp] theorem ctxCount_fab (c i : Nat) : (ctxCount c i s).fab = s.fab := rfl
@[simp] theorem ctxCount_rad (c i : Nat) : (ctxCount c i s).rad = s.rad := rfl
@[simp] theorem ctxCount_dev (c i : Nat) : (ctxCount c i s).dev = s.dev := rfl
@[simp] theorem ctxCount_det (c i : Nat) : (ctxCount c i s).det = s.det := rfl

@[simp] theorem setWay_pending (w : Nat) (x : Way) : (s.setWay w x).pending = s.pending := rfl
@[simp] theorem setWay_free (w : Nat) (x : Way) : (s.setWay w x).free = s.free := rfl
@[simp] theorem setWay_out (w : Nat) (x : Way) : (s.setWay w x).out = s.out := rfl
@[simp] theorem setWay_clk (w : Nat) (x : Way) : (s.setWay w x).clk = s.clk := rfl
@[simp] theorem setWay_mem (w : Nat) (x : Way) : (s.setWay w x).mem = s.mem := rfl
@[simp] theorem setWay_mbx (w : Nat) (x : Way) : (s.setWay w x).mbx = s.mbx := rfl
@[simp] theorem setWay_host (w : Nat) (x : Way) : (s.setWay w x).host = s.host := rfl
@[simp] theorem setWay_traf (w : Nat) (x : Way) : (s.setWay w x).traf = s.traf := rfl
@[simp] theorem setWay_time (w : Nat) (x : Way) : (s.setWay w x).time = s.time := rfl
@[simp] theorem setWay_plates (w : Nat) (x : Way) : (s.setWay w x).plates = s.plates := rfl
@[simp] theorem setWay_flt (w : Nat) (x : Way) : (s.setWay w x).flt = s.flt := rfl
@[simp] theorem setWay_fab (w : Nat) (x : Way) : (s.setWay w x).fab = s.fab := rfl
@[simp] theorem setWay_rad (w : Nat) (x : Way) : (s.setWay w x).rad = s.rad := rfl
@[simp] theorem setWay_dev (w : Nat) (x : Way) : (s.setWay w x).dev = s.dev := rfl
@[simp] theorem setWay_det (w : Nat) (x : Way) : (s.setWay w x).det = s.det := rfl

@[simp] theorem setLine_pending (i : Nat) (l : Option Line) : (s.setLine i l).pending = s.pending := rfl
@[simp] theorem setLine_free (i : Nat) (l : Option Line) : (s.setLine i l).free = s.free := rfl
@[simp] theorem setLine_out (i : Nat) (l : Option Line) : (s.setLine i l).out = s.out := rfl
@[simp] theorem setLine_clk (i : Nat) (l : Option Line) : (s.setLine i l).clk = s.clk := rfl
@[simp] theorem setLine_mem (i : Nat) (l : Option Line) : (s.setLine i l).mem = s.mem := rfl
@[simp] theorem setLine_mbx (i : Nat) (l : Option Line) : (s.setLine i l).mbx = s.mbx := rfl
@[simp] theorem setLine_host (i : Nat) (l : Option Line) : (s.setLine i l).host = s.host := rfl
@[simp] theorem setLine_traf (i : Nat) (l : Option Line) : (s.setLine i l).traf = s.traf := rfl
@[simp] theorem setLine_time (i : Nat) (l : Option Line) : (s.setLine i l).time = s.time := rfl
@[simp] theorem setLine_plates (i : Nat) (l : Option Line) : (s.setLine i l).plates = s.plates := rfl
@[simp] theorem setLine_flt (i : Nat) (l : Option Line) : (s.setLine i l).flt = s.flt := rfl
@[simp] theorem setLine_fab (i : Nat) (l : Option Line) : (s.setLine i l).fab = s.fab := rfl
@[simp] theorem setLine_rad (i : Nat) (l : Option Line) : (s.setLine i l).rad = s.rad := rfl
@[simp] theorem setLine_dev (i : Nat) (l : Option Line) : (s.setLine i l).dev = s.dev := rfl
@[simp] theorem setLine_det (i : Nat) (l : Option Line) : (s.setLine i l).det = s.det := rfl

@[simp] theorem setMeQueue_pending (t : Nat) (q : List MeEntry) : (s.setMeQueue t q).pending = s.pending := rfl
@[simp] theorem setMeQueue_free (t : Nat) (q : List MeEntry) : (s.setMeQueue t q).free = s.free := rfl
@[simp] theorem setMeQueue_out (t : Nat) (q : List MeEntry) : (s.setMeQueue t q).out = s.out := rfl
@[simp] theorem setMeQueue_clk (t : Nat) (q : List MeEntry) : (s.setMeQueue t q).clk = s.clk := rfl
@[simp] theorem setMeQueue_mem (t : Nat) (q : List MeEntry) : (s.setMeQueue t q).mem = s.mem := rfl
@[simp] theorem setMeQueue_mbx (t : Nat) (q : List MeEntry) : (s.setMeQueue t q).mbx = s.mbx := rfl
@[simp] theorem setMeQueue_host (t : Nat) (q : List MeEntry) : (s.setMeQueue t q).host = s.host := rfl
@[simp] theorem setMeQueue_traf (t : Nat) (q : List MeEntry) : (s.setMeQueue t q).traf = s.traf := rfl
@[simp] theorem setMeQueue_time (t : Nat) (q : List MeEntry) : (s.setMeQueue t q).time = s.time := rfl
@[simp] theorem setMeQueue_plates (t : Nat) (q : List MeEntry) : (s.setMeQueue t q).plates = s.plates := rfl
@[simp] theorem setMeQueue_flt (t : Nat) (q : List MeEntry) : (s.setMeQueue t q).flt = s.flt := rfl
@[simp] theorem setMeQueue_fab (t : Nat) (q : List MeEntry) : (s.setMeQueue t q).fab = s.fab := rfl
@[simp] theorem setMeQueue_rad (t : Nat) (q : List MeEntry) : (s.setMeQueue t q).rad = s.rad := rfl
@[simp] theorem setMeQueue_dev (t : Nat) (q : List MeEntry) : (s.setMeQueue t q).dev = s.dev := rfl
@[simp] theorem setMeQueue_det (t : Nat) (q : List MeEntry) : (s.setMeQueue t q).det = s.det := rfl

@[simp] theorem setPlate_pending (h : Nat) (p : Option Plate) : (s.setPlate h p).pending = s.pending := rfl
@[simp] theorem setPlate_free (h : Nat) (p : Option Plate) : (s.setPlate h p).free = s.free := rfl
@[simp] theorem setPlate_out (h : Nat) (p : Option Plate) : (s.setPlate h p).out = s.out := rfl
@[simp] theorem setPlate_clk (h : Nat) (p : Option Plate) : (s.setPlate h p).clk = s.clk := rfl
@[simp] theorem setPlate_mem (h : Nat) (p : Option Plate) : (s.setPlate h p).mem = s.mem := rfl
@[simp] theorem setPlate_mbx (h : Nat) (p : Option Plate) : (s.setPlate h p).mbx = s.mbx := rfl
@[simp] theorem setPlate_host (h : Nat) (p : Option Plate) : (s.setPlate h p).host = s.host := rfl
@[simp] theorem setPlate_traf (h : Nat) (p : Option Plate) : (s.setPlate h p).traf = s.traf := rfl
@[simp] theorem setPlate_time (h : Nat) (p : Option Plate) : (s.setPlate h p).time = s.time := rfl
@[simp] theorem setPlate_flt (h : Nat) (p : Option Plate) : (s.setPlate h p).flt = s.flt := rfl
@[simp] theorem setPlate_fab (h : Nat) (p : Option Plate) : (s.setPlate h p).fab = s.fab := rfl
@[simp] theorem setPlate_rad (h : Nat) (p : Option Plate) : (s.setPlate h p).rad = s.rad := rfl
@[simp] theorem setPlate_core (h : Nat) (p : Option Plate) : (s.setPlate h p).core = s.core := rfl
@[simp] theorem setPlate_dev (h : Nat) (p : Option Plate) : (s.setPlate h p).dev = s.dev := rfl
@[simp] theorem setPlate_det (h : Nat) (p : Option Plate) : (s.setPlate h p).det = s.det := rfl

@[simp] theorem setFn_pending (n : Nat) (f : Fn) : (s.setFn n f).pending = s.pending := rfl
@[simp] theorem setFn_free (n : Nat) (f : Fn) : (s.setFn n f).free = s.free := rfl
@[simp] theorem setFn_out (n : Nat) (f : Fn) : (s.setFn n f).out = s.out := rfl
@[simp] theorem setFn_clk (n : Nat) (f : Fn) : (s.setFn n f).clk = s.clk := rfl
@[simp] theorem setFn_mem (n : Nat) (f : Fn) : (s.setFn n f).mem = s.mem := rfl
@[simp] theorem setFn_mbx (n : Nat) (f : Fn) : (s.setFn n f).mbx = s.mbx := rfl
@[simp] theorem setFn_traf (n : Nat) (f : Fn) : (s.setFn n f).traf = s.traf := rfl
@[simp] theorem setFn_time (n : Nat) (f : Fn) : (s.setFn n f).time = s.time := rfl
@[simp] theorem setFn_plates (n : Nat) (f : Fn) : (s.setFn n f).plates = s.plates := rfl
@[simp] theorem setFn_flt (n : Nat) (f : Fn) : (s.setFn n f).flt = s.flt := rfl
@[simp] theorem setFn_fab (n : Nat) (f : Fn) : (s.setFn n f).fab = s.fab := rfl
@[simp] theorem setFn_rad (n : Nat) (f : Fn) : (s.setFn n f).rad = s.rad := rfl
@[simp] theorem setFn_core (n : Nat) (f : Fn) : (s.setFn n f).core = s.core := rfl
@[simp] theorem setFn_dev (n : Nat) (f : Fn) : (s.setFn n f).dev = s.dev := rfl
@[simp] theorem setFn_det (n : Nat) (f : Fn) : (s.setFn n f).det = s.det := rfl

@[simp] theorem hifCount_pending (i : Nat) : (hifCount i s).pending = s.pending := rfl
@[simp] theorem hifCount_free (i : Nat) : (hifCount i s).free = s.free := rfl
@[simp] theorem hifCount_out (i : Nat) : (hifCount i s).out = s.out := rfl
@[simp] theorem hifCount_clk (i : Nat) : (hifCount i s).clk = s.clk := rfl
@[simp] theorem hifCount_mem (i : Nat) : (hifCount i s).mem = s.mem := rfl
@[simp] theorem hifCount_mbx (i : Nat) : (hifCount i s).mbx = s.mbx := rfl
@[simp] theorem hifCount_traf (i : Nat) : (hifCount i s).traf = s.traf := rfl
@[simp] theorem hifCount_time (i : Nat) : (hifCount i s).time = s.time := rfl
@[simp] theorem hifCount_plates (i : Nat) : (hifCount i s).plates = s.plates := rfl
@[simp] theorem hifCount_flt (i : Nat) : (hifCount i s).flt = s.flt := rfl
@[simp] theorem hifCount_fab (i : Nat) : (hifCount i s).fab = s.fab := rfl
@[simp] theorem hifCount_rad (i : Nat) : (hifCount i s).rad = s.rad := rfl
@[simp] theorem hifCount_core (i : Nat) : (hifCount i s).core = s.core := rfl
@[simp] theorem hifCount_dev (i : Nat) : (hifCount i s).dev = s.dev := rfl
@[simp] theorem hifCount_det (i : Nat) : (hifCount i s).det = s.det := rfl

@[simp] theorem setVec_pending (fn v : Nat) (e : Msix) : (s.setVec fn v e).pending = s.pending := rfl
@[simp] theorem setVec_free (fn v : Nat) (e : Msix) : (s.setVec fn v e).free = s.free := rfl
@[simp] theorem setVec_out (fn v : Nat) (e : Msix) : (s.setVec fn v e).out = s.out := rfl
@[simp] theorem setVec_clk (fn v : Nat) (e : Msix) : (s.setVec fn v e).clk = s.clk := rfl
@[simp] theorem setVec_mem (fn v : Nat) (e : Msix) : (s.setVec fn v e).mem = s.mem := rfl
@[simp] theorem setVec_mbx (fn v : Nat) (e : Msix) : (s.setVec fn v e).mbx = s.mbx := rfl
@[simp] theorem setVec_traf (fn v : Nat) (e : Msix) : (s.setVec fn v e).traf = s.traf := rfl
@[simp] theorem setVec_time (fn v : Nat) (e : Msix) : (s.setVec fn v e).time = s.time := rfl
@[simp] theorem setVec_plates (fn v : Nat) (e : Msix) : (s.setVec fn v e).plates = s.plates := rfl
@[simp] theorem setVec_flt (fn v : Nat) (e : Msix) : (s.setVec fn v e).flt = s.flt := rfl
@[simp] theorem setVec_fab (fn v : Nat) (e : Msix) : (s.setVec fn v e).fab = s.fab := rfl
@[simp] theorem setVec_rad (fn v : Nat) (e : Msix) : (s.setVec fn v e).rad = s.rad := rfl
@[simp] theorem setVec_core (fn v : Nat) (e : Msix) : (s.setVec fn v e).core = s.core := rfl
@[simp] theorem setVec_dev (fn v : Nat) (e : Msix) : (s.setVec fn v e).dev = s.dev := rfl
@[simp] theorem setVec_det (fn v : Nat) (e : Msix) : (s.setVec fn v e).det = s.det := rfl

@[simp] theorem setRing_pending (fn : Nat) (r : MbxRing) : (s.setRing fn r).pending = s.pending := rfl
@[simp] theorem setRing_free (fn : Nat) (r : MbxRing) : (s.setRing fn r).free = s.free := rfl
@[simp] theorem setRing_out (fn : Nat) (r : MbxRing) : (s.setRing fn r).out = s.out := rfl
@[simp] theorem setRing_clk (fn : Nat) (r : MbxRing) : (s.setRing fn r).clk = s.clk := rfl
@[simp] theorem setRing_mem (fn : Nat) (r : MbxRing) : (s.setRing fn r).mem = s.mem := rfl
@[simp] theorem setRing_host (fn : Nat) (r : MbxRing) : (s.setRing fn r).host = s.host := rfl
@[simp] theorem setRing_traf (fn : Nat) (r : MbxRing) : (s.setRing fn r).traf = s.traf := rfl
@[simp] theorem setRing_time (fn : Nat) (r : MbxRing) : (s.setRing fn r).time = s.time := rfl
@[simp] theorem setRing_plates (fn : Nat) (r : MbxRing) : (s.setRing fn r).plates = s.plates := rfl
@[simp] theorem setRing_flt (fn : Nat) (r : MbxRing) : (s.setRing fn r).flt = s.flt := rfl
@[simp] theorem setRing_fab (fn : Nat) (r : MbxRing) : (s.setRing fn r).fab = s.fab := rfl
@[simp] theorem setRing_rad (fn : Nat) (r : MbxRing) : (s.setRing fn r).rad = s.rad := rfl
@[simp] theorem setRing_core (fn : Nat) (r : MbxRing) : (s.setRing fn r).core = s.core := rfl
@[simp] theorem setRing_dev (fn : Nat) (r : MbxRing) : (s.setRing fn r).dev = s.dev := rfl
@[simp] theorem setRing_det (fn : Nat) (r : MbxRing) : (s.setRing fn r).det = s.det := rfl

@[simp] theorem mgmtCount_pending (i : Nat) : (mgmtCount i s).pending = s.pending := rfl
@[simp] theorem mgmtCount_free (i : Nat) : (mgmtCount i s).free = s.free := rfl
@[simp] theorem mgmtCount_out (i : Nat) : (mgmtCount i s).out = s.out := rfl
@[simp] theorem mgmtCount_clk (i : Nat) : (mgmtCount i s).clk = s.clk := rfl
@[simp] theorem mgmtCount_mem (i : Nat) : (mgmtCount i s).mem = s.mem := rfl
@[simp] theorem mgmtCount_host (i : Nat) : (mgmtCount i s).host = s.host := rfl
@[simp] theorem mgmtCount_traf (i : Nat) : (mgmtCount i s).traf = s.traf := rfl
@[simp] theorem mgmtCount_time (i : Nat) : (mgmtCount i s).time = s.time := rfl
@[simp] theorem mgmtCount_plates (i : Nat) : (mgmtCount i s).plates = s.plates := rfl
@[simp] theorem mgmtCount_flt (i : Nat) : (mgmtCount i s).flt = s.flt := rfl
@[simp] theorem mgmtCount_fab (i : Nat) : (mgmtCount i s).fab = s.fab := rfl
@[simp] theorem mgmtCount_rad (i : Nat) : (mgmtCount i s).rad = s.rad := rfl
@[simp] theorem mgmtCount_core (i : Nat) : (mgmtCount i s).core = s.core := rfl
@[simp] theorem mgmtCount_dev (i : Nat) : (mgmtCount i s).dev = s.dev := rfl
@[simp] theorem mgmtCount_det (i : Nat) : (mgmtCount i s).det = s.det := rfl

@[simp] theorem setQueue_pending (h : Nat) (q : Queue) : (s.setQueue h q).pending = s.pending := rfl
@[simp] theorem setQueue_free (h : Nat) (q : Queue) : (s.setQueue h q).free = s.free := rfl
@[simp] theorem setQueue_out (h : Nat) (q : Queue) : (s.setQueue h q).out = s.out := rfl
@[simp] theorem setQueue_clk (h : Nat) (q : Queue) : (s.setQueue h q).clk = s.clk := rfl
@[simp] theorem setQueue_mem (h : Nat) (q : Queue) : (s.setQueue h q).mem = s.mem := rfl
@[simp] theorem setQueue_mbx (h : Nat) (q : Queue) : (s.setQueue h q).mbx = s.mbx := rfl
@[simp] theorem setQueue_host (h : Nat) (q : Queue) : (s.setQueue h q).host = s.host := rfl
@[simp] theorem setQueue_time (h : Nat) (q : Queue) : (s.setQueue h q).time = s.time := rfl
@[simp] theorem setQueue_plates (h : Nat) (q : Queue) : (s.setQueue h q).plates = s.plates := rfl
@[simp] theorem setQueue_flt (h : Nat) (q : Queue) : (s.setQueue h q).flt = s.flt := rfl
@[simp] theorem setQueue_fab (h : Nat) (q : Queue) : (s.setQueue h q).fab = s.fab := rfl
@[simp] theorem setQueue_rad (h : Nat) (q : Queue) : (s.setQueue h q).rad = s.rad := rfl
@[simp] theorem setQueue_core (h : Nat) (q : Queue) : (s.setQueue h q).core = s.core := rfl
@[simp] theorem setQueue_dev (h : Nat) (q : Queue) : (s.setQueue h q).dev = s.dev := rfl
@[simp] theorem setQueue_det (h : Nat) (q : Queue) : (s.setQueue h q).det = s.det := rfl

@[simp] theorem setClass_pending (c : Nat) (q : QClass) : (s.setClass c q).pending = s.pending := rfl
@[simp] theorem setClass_free (c : Nat) (q : QClass) : (s.setClass c q).free = s.free := rfl
@[simp] theorem setClass_out (c : Nat) (q : QClass) : (s.setClass c q).out = s.out := rfl
@[simp] theorem setClass_clk (c : Nat) (q : QClass) : (s.setClass c q).clk = s.clk := rfl
@[simp] theorem setClass_mem (c : Nat) (q : QClass) : (s.setClass c q).mem = s.mem := rfl
@[simp] theorem setClass_mbx (c : Nat) (q : QClass) : (s.setClass c q).mbx = s.mbx := rfl
@[simp] theorem setClass_host (c : Nat) (q : QClass) : (s.setClass c q).host = s.host := rfl
@[simp] theorem setClass_time (c : Nat) (q : QClass) : (s.setClass c q).time = s.time := rfl
@[simp] theorem setClass_plates (c : Nat) (q : QClass) : (s.setClass c q).plates = s.plates := rfl
@[simp] theorem setClass_flt (c : Nat) (q : QClass) : (s.setClass c q).flt = s.flt := rfl
@[simp] theorem setClass_fab (c : Nat) (q : QClass) : (s.setClass c q).fab = s.fab := rfl
@[simp] theorem setClass_rad (c : Nat) (q : QClass) : (s.setClass c q).rad = s.rad := rfl
@[simp] theorem setClass_core (c : Nat) (q : QClass) : (s.setClass c q).core = s.core := rfl
@[simp] theorem setClass_dev (c : Nat) (q : QClass) : (s.setClass c q).dev = s.dev := rfl
@[simp] theorem setClass_det (c : Nat) (q : QClass) : (s.setClass c q).det = s.det := rfl

@[simp] theorem setPolicer_pending (k : Nat) (p : Policer) : (s.setPolicer k p).pending = s.pending := rfl
@[simp] theorem setPolicer_free (k : Nat) (p : Policer) : (s.setPolicer k p).free = s.free := rfl
@[simp] theorem setPolicer_out (k : Nat) (p : Policer) : (s.setPolicer k p).out = s.out := rfl
@[simp] theorem setPolicer_clk (k : Nat) (p : Policer) : (s.setPolicer k p).clk = s.clk := rfl
@[simp] theorem setPolicer_mem (k : Nat) (p : Policer) : (s.setPolicer k p).mem = s.mem := rfl
@[simp] theorem setPolicer_mbx (k : Nat) (p : Policer) : (s.setPolicer k p).mbx = s.mbx := rfl
@[simp] theorem setPolicer_host (k : Nat) (p : Policer) : (s.setPolicer k p).host = s.host := rfl
@[simp] theorem setPolicer_time (k : Nat) (p : Policer) : (s.setPolicer k p).time = s.time := rfl
@[simp] theorem setPolicer_plates (k : Nat) (p : Policer) : (s.setPolicer k p).plates = s.plates := rfl
@[simp] theorem setPolicer_flt (k : Nat) (p : Policer) : (s.setPolicer k p).flt = s.flt := rfl
@[simp] theorem setPolicer_fab (k : Nat) (p : Policer) : (s.setPolicer k p).fab = s.fab := rfl
@[simp] theorem setPolicer_rad (k : Nat) (p : Policer) : (s.setPolicer k p).rad = s.rad := rfl
@[simp] theorem setPolicer_core (k : Nat) (p : Policer) : (s.setPolicer k p).core = s.core := rfl
@[simp] theorem setPolicer_dev (k : Nat) (p : Policer) : (s.setPolicer k p).dev = s.dev := rfl
@[simp] theorem setPolicer_det (k : Nat) (p : Policer) : (s.setPolicer k p).det = s.det := rfl

@[simp] theorem timeCount_pending (i : Nat) : (timeCount i s).pending = s.pending := rfl
@[simp] theorem timeCount_free (i : Nat) : (timeCount i s).free = s.free := rfl
@[simp] theorem timeCount_out (i : Nat) : (timeCount i s).out = s.out := rfl
@[simp] theorem timeCount_clk (i : Nat) : (timeCount i s).clk = s.clk := rfl
@[simp] theorem timeCount_mem (i : Nat) : (timeCount i s).mem = s.mem := rfl
@[simp] theorem timeCount_mbx (i : Nat) : (timeCount i s).mbx = s.mbx := rfl
@[simp] theorem timeCount_host (i : Nat) : (timeCount i s).host = s.host := rfl
@[simp] theorem timeCount_traf (i : Nat) : (timeCount i s).traf = s.traf := rfl
@[simp] theorem timeCount_plates (i : Nat) : (timeCount i s).plates = s.plates := rfl
@[simp] theorem timeCount_flt (i : Nat) : (timeCount i s).flt = s.flt := rfl
@[simp] theorem timeCount_fab (i : Nat) : (timeCount i s).fab = s.fab := rfl
@[simp] theorem timeCount_rad (i : Nat) : (timeCount i s).rad = s.rad := rfl
@[simp] theorem timeCount_core (i : Nat) : (timeCount i s).core = s.core := rfl
@[simp] theorem timeCount_dev (i : Nat) : (timeCount i s).dev = s.dev := rfl
@[simp] theorem timeCount_det (i : Nat) : (timeCount i s).det = s.det := rfl

@[simp] theorem setPtp_pending (p : Nat) (v : PtpPort) : (s.setPtp p v).pending = s.pending := rfl
@[simp] theorem setPtp_free (p : Nat) (v : PtpPort) : (s.setPtp p v).free = s.free := rfl
@[simp] theorem setPtp_out (p : Nat) (v : PtpPort) : (s.setPtp p v).out = s.out := rfl
@[simp] theorem setPtp_clk (p : Nat) (v : PtpPort) : (s.setPtp p v).clk = s.clk := rfl
@[simp] theorem setPtp_mem (p : Nat) (v : PtpPort) : (s.setPtp p v).mem = s.mem := rfl
@[simp] theorem setPtp_mbx (p : Nat) (v : PtpPort) : (s.setPtp p v).mbx = s.mbx := rfl
@[simp] theorem setPtp_host (p : Nat) (v : PtpPort) : (s.setPtp p v).host = s.host := rfl
@[simp] theorem setPtp_traf (p : Nat) (v : PtpPort) : (s.setPtp p v).traf = s.traf := rfl
@[simp] theorem setPtp_plates (p : Nat) (v : PtpPort) : (s.setPtp p v).plates = s.plates := rfl
@[simp] theorem setPtp_flt (p : Nat) (v : PtpPort) : (s.setPtp p v).flt = s.flt := rfl
@[simp] theorem setPtp_fab (p : Nat) (v : PtpPort) : (s.setPtp p v).fab = s.fab := rfl
@[simp] theorem setPtp_rad (p : Nat) (v : PtpPort) : (s.setPtp p v).rad = s.rad := rfl
@[simp] theorem setPtp_core (p : Nat) (v : PtpPort) : (s.setPtp p v).core = s.core := rfl
@[simp] theorem setPtp_dev (p : Nat) (v : PtpPort) : (s.setPtp p v).dev = s.dev := rfl
@[simp] theorem setPtp_det (p : Nat) (v : PtpPort) : (s.setPtp p v).det = s.det := rfl

@[simp] theorem setTout_pending (n : Nat) (v : Tout) : (s.setTout n v).pending = s.pending := rfl
@[simp] theorem setTout_free (n : Nat) (v : Tout) : (s.setTout n v).free = s.free := rfl
@[simp] theorem setTout_out (n : Nat) (v : Tout) : (s.setTout n v).out = s.out := rfl
@[simp] theorem setTout_clk (n : Nat) (v : Tout) : (s.setTout n v).clk = s.clk := rfl
@[simp] theorem setTout_mem (n : Nat) (v : Tout) : (s.setTout n v).mem = s.mem := rfl
@[simp] theorem setTout_mbx (n : Nat) (v : Tout) : (s.setTout n v).mbx = s.mbx := rfl
@[simp] theorem setTout_host (n : Nat) (v : Tout) : (s.setTout n v).host = s.host := rfl
@[simp] theorem setTout_traf (n : Nat) (v : Tout) : (s.setTout n v).traf = s.traf := rfl
@[simp] theorem setTout_plates (n : Nat) (v : Tout) : (s.setTout n v).plates = s.plates := rfl
@[simp] theorem setTout_flt (n : Nat) (v : Tout) : (s.setTout n v).flt = s.flt := rfl
@[simp] theorem setTout_fab (n : Nat) (v : Tout) : (s.setTout n v).fab = s.fab := rfl
@[simp] theorem setTout_rad (n : Nat) (v : Tout) : (s.setTout n v).rad = s.rad := rfl
@[simp] theorem setTout_core (n : Nat) (v : Tout) : (s.setTout n v).core = s.core := rfl
@[simp] theorem setTout_dev (n : Nat) (v : Tout) : (s.setTout n v).dev = s.dev := rfl
@[simp] theorem setTout_det (n : Nat) (v : Tout) : (s.setTout n v).det = s.det := rfl

@[simp] theorem setTin_pending (n : Nat) (v : Tin) : (s.setTin n v).pending = s.pending := rfl
@[simp] theorem setTin_free (n : Nat) (v : Tin) : (s.setTin n v).free = s.free := rfl
@[simp] theorem setTin_out (n : Nat) (v : Tin) : (s.setTin n v).out = s.out := rfl
@[simp] theorem setTin_clk (n : Nat) (v : Tin) : (s.setTin n v).clk = s.clk := rfl
@[simp] theorem setTin_mem (n : Nat) (v : Tin) : (s.setTin n v).mem = s.mem := rfl
@[simp] theorem setTin_mbx (n : Nat) (v : Tin) : (s.setTin n v).mbx = s.mbx := rfl
@[simp] theorem setTin_host (n : Nat) (v : Tin) : (s.setTin n v).host = s.host := rfl
@[simp] theorem setTin_traf (n : Nat) (v : Tin) : (s.setTin n v).traf = s.traf := rfl
@[simp] theorem setTin_plates (n : Nat) (v : Tin) : (s.setTin n v).plates = s.plates := rfl
@[simp] theorem setTin_flt (n : Nat) (v : Tin) : (s.setTin n v).flt = s.flt := rfl
@[simp] theorem setTin_fab (n : Nat) (v : Tin) : (s.setTin n v).fab = s.fab := rfl
@[simp] theorem setTin_rad (n : Nat) (v : Tin) : (s.setTin n v).rad = s.rad := rfl
@[simp] theorem setTin_core (n : Nat) (v : Tin) : (s.setTin n v).core = s.core := rfl
@[simp] theorem setTin_dev (n : Nat) (v : Tin) : (s.setTin n v).dev = s.dev := rfl
@[simp] theorem setTin_det (n : Nat) (v : Tin) : (s.setTin n v).det = s.det := rfl

/-! ### What the written part reads as -/

@[simp] theorem emit_out (x : Output) : (emit x s).out = x :: s.out := rfl

@[simp] theorem emitAll_out (xs : List Output) : (emitAll xs s).out = xs.reverse ++ s.out := rfl

@[simp] theorem updDev_dev (f : Device → Device) : (updDev f s).dev = f s.dev := rfl

@[simp] theorem updFlt_flt (f : Faults → Faults) : (updFlt f s).flt = f s.flt := rfl

@[simp] theorem updRad_rad (f : Radio → Radio) : (updRad f s).rad = f s.rad := rfl

@[simp] theorem updFab_fab (f : Fabric → Fabric) : (updFab f s).fab = f s.fab := rfl

@[simp] theorem updDet_det (f : Det → Det) : (updDet f s).det = f s.det := rfl

@[simp] theorem updMem_mem (f : MemTiers → MemTiers) : (updMem f s).mem = f s.mem := rfl

@[simp] theorem updPwr_dev (f : PowerUnit → PowerUnit) : (updPwr f s).dev = { s.dev with pwr := f s.dev.pwr } := rfl

@[simp] theorem updRec_det (f : RecUnit → RecUnit) : (updRec f s).det = { s.det with recUnit := f s.det.recUnit } := rfl

@[simp] theorem updDry_det (f : Dry → Dry) : (updDry f s).det = { s.det with dry := f s.det.dry } := rfl

variable {j k : Nat}

@[simp] theorem setCore_coreAt_eq (x : Core) : (s.setCore k x).coreAt k = x := by simp [State.setCore, State.coreAt]

theorem setCore_coreAt_ne (x : Core) (h : j ≠ k) : (s.setCore k x).coreAt j = s.coreAt j := by
  simp [State.setCore, State.coreAt, Tab.get_set_ne h]

@[simp] theorem setThread_thread_eq (x : Thread) : (s.setThread k x).thread k = x := by simp [State.setThread, State.thread]

theorem setThread_thread_ne (x : Thread) (h : j ≠ k) : (s.setThread k x).thread j = s.thread j := by
  simp [State.setThread, State.thread, Tab.get_set_ne h]

@[simp] theorem setCtx_ctx_eq (x : Ctx) : (s.setCtx k x).ctx k = x := by simp [State.setCtx, State.ctx]

theorem setCtx_ctx_ne (x : Ctx) (h : j ≠ k) : (s.setCtx k x).ctx j = s.ctx j := by
  simp [State.setCtx, State.ctx, Tab.get_set_ne h]

@[simp] theorem setWay_wayAt_eq (x : Way) : (s.setWay k x).wayAt k = x := by simp [State.setWay, State.wayAt]

theorem setWay_wayAt_ne (x : Way) (h : j ≠ k) : (s.setWay k x).wayAt j = s.wayAt j := by
  simp [State.setWay, State.wayAt, Tab.get_set_ne h]

@[simp] theorem setLine_lineAt_eq (x : Option Line) : (s.setLine k x).lineAt k = x := by simp [State.setLine, State.lineAt]

theorem setLine_lineAt_ne (x : Option Line) (h : j ≠ k) : (s.setLine k x).lineAt j = s.lineAt j := by
  simp [State.setLine, State.lineAt, Tab.get_set_ne h]

@[simp] theorem setPlate_plate_eq (x : Option Plate) : (s.setPlate k x).plate k = x := by simp [State.setPlate, State.plate]

theorem setPlate_plate_ne (x : Option Plate) (h : j ≠ k) : (s.setPlate k x).plate j = s.plate j := by
  simp [State.setPlate, State.plate, Tab.get_set_ne h]

@[simp] theorem setFn_fn_eq (x : Fn) : (s.setFn k x).fn k = x := by simp [State.setFn, State.fn]

@[simp] theorem setRing_ring_eq (x : MbxRing) : (s.setRing k x).ring k = x := by simp [State.setRing, State.ring]

theorem setRing_ring_ne (x : MbxRing) (h : j ≠ k) : (s.setRing k x).ring j = s.ring j := by
  simp [State.setRing, State.ring, Tab.get_set_ne h]

@[simp] theorem setQueue_queue_eq (x : Queue) : (s.setQueue k x).queue k = x := by simp [State.setQueue, State.queue]

theorem setQueue_queue_ne (x : Queue) (h : j ≠ k) : (s.setQueue k x).queue j = s.queue j := by
  simp [State.setQueue, State.queue, Tab.get_set_ne h]

@[simp] theorem setClass_qclass_eq (x : QClass) : (s.setClass k x).qclass k = x := by simp [State.setClass, State.qclass]

theorem setClass_qclass_ne (x : QClass) (h : j ≠ k) : (s.setClass k x).qclass j = s.qclass j := by
  simp [State.setClass, State.qclass, Tab.get_set_ne h]

@[simp] theorem setPtp_ptp_eq (x : PtpPort) : (s.setPtp k x).ptp k = x := by simp [State.setPtp, State.ptp]

theorem setPtp_ptp_ne (x : PtpPort) (h : j ≠ k) : (s.setPtp k x).ptp j = s.ptp j := by
  simp [State.setPtp, State.ptp, Tab.get_set_ne h]

@[simp] theorem setTout_tout_eq (x : Tout) : (s.setTout k x).tout k = x := by simp [State.setTout, State.tout]

theorem setTout_tout_ne (x : Tout) (h : j ≠ k) : (s.setTout k x).tout j = s.tout j := by
  simp [State.setTout, State.tout, Tab.get_set_ne h]

@[simp] theorem setTin_tin_eq (x : Tin) : (s.setTin k x).tin k = x := by simp [State.setTin, State.tin]

theorem setTin_tin_ne (x : Tin) (h : j ≠ k) : (s.setTin k x).tin j = s.tin j := by
  simp [State.setTin, State.tin, Tab.get_set_ne h]

@[simp] theorem setXfer_xfer_eq (x : Option Xfer) : (s.setXfer k x).xfer k = x := by simp [State.setXfer, State.xfer, updMem]

theorem setXfer_xfer_ne (x : Option Xfer) (h : j ≠ k) : (s.setXfer k x).xfer j = s.xfer j := by
  simp [State.setXfer, State.xfer, updMem, Tab.get_set_ne h]

@[simp] theorem setWeight_weight_eq (x : Option WeightSet) : (s.setWeight k x).weight k = x := by simp [State.setWeight, State.weight, updMem]

theorem setWeight_weight_ne (x : Option WeightSet) (h : j ≠ k) : (s.setWeight k x).weight j = s.weight j := by
  simp [State.setWeight, State.weight, updMem, Tab.get_set_ne h]

@[simp] theorem updCell_cell_eq (f : Cell → Cell) : (updCell k f s).cell k = f (s.cell k) := by simp [updCell, updRad, State.cell, Tab.upd]

theorem updCell_cell_ne (f : Cell → Cell) (h : j ≠ k) : (updCell k f s).cell j = s.cell j := by
  simp [updCell, updRad, State.cell, Tab.upd, Tab.get_set_ne h]

@[simp] theorem updFhPort_fhPort_eq (f : FhPort → FhPort) : (updFhPort k f s).fhPort k = f (s.fhPort k) := by simp [updFhPort, updRad, State.fhPort, Tab.upd]

theorem updFhPort_fhPort_ne (f : FhPort → FhPort) (h : j ≠ k) : (updFhPort k f s).fhPort j = s.fhPort j := by
  simp [updFhPort, updRad, State.fhPort, Tab.upd, Tab.get_set_ne h]

@[simp] theorem updStream_stream_eq (f : Stream → Stream) : (updStream k f s).stream k = f (s.stream k) := by simp [updStream, updRad, State.stream, Tab.upd]

theorem updStream_stream_ne (f : Stream → Stream) (h : j ≠ k) : (updStream k f s).stream j = s.stream j := by
  simp [updStream, updRad, State.stream, Tab.upd, Tab.get_set_ne h]

@[simp] theorem updPort_port_eq (f : AbrPort → AbrPort) : (updPort k f s).port k = f (s.port k) := by simp [updPort, updFab, State.port, Tab.upd]

theorem updPort_port_ne (f : AbrPort → AbrPort) (h : j ≠ k) : (updPort k f s).port j = s.port j := by
  simp [updPort, updFab, State.port, Tab.upd, Tab.get_set_ne h]

@[simp] theorem updGroup_pending (i : Nat) (f : Group → Group) : (updGroup i f s).pending = s.pending := by unfold updGroup; split <;> rfl
@[simp] theorem updGroup_free (i : Nat) (f : Group → Group) : (updGroup i f s).free = s.free := by unfold updGroup; split <;> rfl
@[simp] theorem updGroup_out (i : Nat) (f : Group → Group) : (updGroup i f s).out = s.out := by unfold updGroup; split <;> rfl
@[simp] theorem updGroup_clk (i : Nat) (f : Group → Group) : (updGroup i f s).clk = s.clk := by unfold updGroup; split <;> rfl
@[simp] theorem updGroup_mem (i : Nat) (f : Group → Group) : (updGroup i f s).mem = s.mem := by unfold updGroup; split <;> rfl
@[simp] theorem updGroup_mbx (i : Nat) (f : Group → Group) : (updGroup i f s).mbx = s.mbx := by unfold updGroup; split <;> rfl
@[simp] theorem updGroup_host (i : Nat) (f : Group → Group) : (updGroup i f s).host = s.host := by unfold updGroup; split <;> rfl
@[simp] theorem updGroup_traf (i : Nat) (f : Group → Group) : (updGroup i f s).traf = s.traf := by unfold updGroup; split <;> rfl
@[simp] theorem updGroup_time (i : Nat) (f : Group → Group) : (updGroup i f s).time = s.time := by unfold updGroup; split <;> rfl
@[simp] theorem updGroup_plates (i : Nat) (f : Group → Group) : (updGroup i f s).plates = s.plates := by unfold updGroup; split <;> rfl
@[simp] theorem updGroup_flt (i : Nat) (f : Group → Group) : (updGroup i f s).flt = s.flt := by unfold updGroup; split <;> rfl
@[simp] theorem updGroup_rad (i : Nat) (f : Group → Group) : (updGroup i f s).rad = s.rad := by unfold updGroup; split <;> rfl
@[simp] theorem updGroup_core (i : Nat) (f : Group → Group) : (updGroup i f s).core = s.core := by unfold updGroup; split <;> rfl
@[simp] theorem updGroup_dev (i : Nat) (f : Group → Group) : (updGroup i f s).dev = s.dev := by unfold updGroup; split <;> rfl
@[simp] theorem updGroup_det (i : Nat) (f : Group → Group) : (updGroup i f s).det = s.det := by unfold updGroup; split <;> rfl

@[simp] theorem updPlate_pending (h : Nat) (f : Plate → Plate) : (updPlate h f s).pending = s.pending := by unfold updPlate; split <;> rfl
@[simp] theorem updPlate_free (h : Nat) (f : Plate → Plate) : (updPlate h f s).free = s.free := by unfold updPlate; split <;> rfl
@[simp] theorem updPlate_out (h : Nat) (f : Plate → Plate) : (updPlate h f s).out = s.out := by unfold updPlate; split <;> rfl
@[simp] theorem updPlate_clk (h : Nat) (f : Plate → Plate) : (updPlate h f s).clk = s.clk := by unfold updPlate; split <;> rfl
@[simp] theorem updPlate_mem (h : Nat) (f : Plate → Plate) : (updPlate h f s).mem = s.mem := by unfold updPlate; split <;> rfl
@[simp] theorem updPlate_mbx (h : Nat) (f : Plate → Plate) : (updPlate h f s).mbx = s.mbx := by unfold updPlate; split <;> rfl
@[simp] theorem updPlate_host (h : Nat) (f : Plate → Plate) : (updPlate h f s).host = s.host := by unfold updPlate; split <;> rfl
@[simp] theorem updPlate_traf (h : Nat) (f : Plate → Plate) : (updPlate h f s).traf = s.traf := by unfold updPlate; split <;> rfl
@[simp] theorem updPlate_time (h : Nat) (f : Plate → Plate) : (updPlate h f s).time = s.time := by unfold updPlate; split <;> rfl
@[simp] theorem updPlate_flt (h : Nat) (f : Plate → Plate) : (updPlate h f s).flt = s.flt := by unfold updPlate; split <;> rfl
@[simp] theorem updPlate_fab (h : Nat) (f : Plate → Plate) : (updPlate h f s).fab = s.fab := by unfold updPlate; split <;> rfl
@[simp] theorem updPlate_rad (h : Nat) (f : Plate → Plate) : (updPlate h f s).rad = s.rad := by unfold updPlate; split <;> rfl
@[simp] theorem updPlate_core (h : Nat) (f : Plate → Plate) : (updPlate h f s).core = s.core := by unfold updPlate; split <;> rfl
@[simp] theorem updPlate_dev (h : Nat) (f : Plate → Plate) : (updPlate h f s).dev = s.dev := by unfold updPlate; split <;> rfl
@[simp] theorem updPlate_det (h : Nat) (f : Plate → Plate) : (updPlate h f s).det = s.det := by unfold updPlate; split <;> rfl

@[simp] theorem updPoolJob_pending (id : Nat) (f : PoolJob → PoolJob) : (updPoolJob id f s).pending = s.pending := rfl
@[simp] theorem updPoolJob_free (id : Nat) (f : PoolJob → PoolJob) : (updPoolJob id f s).free = s.free := rfl
@[simp] theorem updPoolJob_out (id : Nat) (f : PoolJob → PoolJob) : (updPoolJob id f s).out = s.out := rfl
@[simp] theorem updPoolJob_clk (id : Nat) (f : PoolJob → PoolJob) : (updPoolJob id f s).clk = s.clk := rfl
@[simp] theorem updPoolJob_mem (id : Nat) (f : PoolJob → PoolJob) : (updPoolJob id f s).mem = s.mem := rfl
@[simp] theorem updPoolJob_mbx (id : Nat) (f : PoolJob → PoolJob) : (updPoolJob id f s).mbx = s.mbx := rfl
@[simp] theorem updPoolJob_host (id : Nat) (f : PoolJob → PoolJob) : (updPoolJob id f s).host = s.host := rfl
@[simp] theorem updPoolJob_traf (id : Nat) (f : PoolJob → PoolJob) : (updPoolJob id f s).traf = s.traf := rfl
@[simp] theorem updPoolJob_time (id : Nat) (f : PoolJob → PoolJob) : (updPoolJob id f s).time = s.time := rfl
@[simp] theorem updPoolJob_plates (id : Nat) (f : PoolJob → PoolJob) : (updPoolJob id f s).plates = s.plates := rfl
@[simp] theorem updPoolJob_flt (id : Nat) (f : PoolJob → PoolJob) : (updPoolJob id f s).flt = s.flt := rfl
@[simp] theorem updPoolJob_fab (id : Nat) (f : PoolJob → PoolJob) : (updPoolJob id f s).fab = s.fab := rfl
@[simp] theorem updPoolJob_core (id : Nat) (f : PoolJob → PoolJob) : (updPoolJob id f s).core = s.core := rfl
@[simp] theorem updPoolJob_dev (id : Nat) (f : PoolJob → PoolJob) : (updPoolJob id f s).dev = s.dev := rfl
@[simp] theorem updPoolJob_det (id : Nat) (f : PoolJob → PoolJob) : (updPoolJob id f s).det = s.det := rfl
@[simp] theorem updBlock_pending (id i : Nat) (f : DecBlock → DecBlock) : (updBlock id i f s).pending = s.pending := rfl
@[simp] theorem updBlock_free (id i : Nat) (f : DecBlock → DecBlock) : (updBlock id i f s).free = s.free := rfl
@[simp] theorem updBlock_out (id i : Nat) (f : DecBlock → DecBlock) : (updBlock id i f s).out = s.out := rfl
@[simp] theorem updBlock_clk (id i : Nat) (f : DecBlock → DecBlock) : (updBlock id i f s).clk = s.clk := rfl
@[simp] theorem updBlock_mem (id i : Nat) (f : DecBlock → DecBlock) : (updBlock id i f s).mem = s.mem := rfl
@[simp] theorem updBlock_mbx (id i : Nat) (f : DecBlock → DecBlock) : (updBlock id i f s).mbx = s.mbx := rfl
@[simp] theorem updBlock_host (id i : Nat) (f : DecBlock → DecBlock) : (updBlock id i f s).host = s.host := rfl
@[simp] theorem updBlock_traf (id i : Nat) (f : DecBlock → DecBlock) : (updBlock id i f s).traf = s.traf := rfl
@[simp] theorem updBlock_time (id i : Nat) (f : DecBlock → DecBlock) : (updBlock id i f s).time = s.time := rfl
@[simp] theorem updBlock_plates (id i : Nat) (f : DecBlock → DecBlock) : (updBlock id i f s).plates = s.plates := rfl
@[simp] theorem updBlock_flt (id i : Nat) (f : DecBlock → DecBlock) : (updBlock id i f s).flt = s.flt := rfl
@[simp] theorem updBlock_fab (id i : Nat) (f : DecBlock → DecBlock) : (updBlock id i f s).fab = s.fab := rfl
@[simp] theorem updBlock_core (id i : Nat) (f : DecBlock → DecBlock) : (updBlock id i f s).core = s.core := rfl
@[simp] theorem updBlock_dev (id i : Nat) (f : DecBlock → DecBlock) : (updBlock id i f s).dev = s.dev := rfl
@[simp] theorem updBlock_det (id i : Nat) (f : DecBlock → DecBlock) : (updBlock id i f s).det = s.det := rfl
@[simp] theorem updDesc_pending (h i : Nat) (f : QDesc → QDesc) : (updDesc h i f s).pending = s.pending := rfl
@[simp] theorem updDesc_free (h i : Nat) (f : QDesc → QDesc) : (updDesc h i f s).free = s.free := rfl
@[simp] theorem updDesc_out (h i : Nat) (f : QDesc → QDesc) : (updDesc h i f s).out = s.out := rfl
@[simp] theorem updDesc_clk (h i : Nat) (f : QDesc → QDesc) : (updDesc h i f s).clk = s.clk := rfl
@[simp] theorem updDesc_mem (h i : Nat) (f : QDesc → QDesc) : (updDesc h i f s).mem = s.mem := rfl
@[simp] theorem updDesc_mbx (h i : Nat) (f : QDesc → QDesc) : (updDesc h i f s).mbx = s.mbx := rfl
@[simp] theorem updDesc_host (h i : Nat) (f : QDesc → QDesc) : (updDesc h i f s).host = s.host := rfl
@[simp] theorem updDesc_time (h i : Nat) (f : QDesc → QDesc) : (updDesc h i f s).time = s.time := rfl
@[simp] theorem updDesc_plates (h i : Nat) (f : QDesc → QDesc) : (updDesc h i f s).plates = s.plates := rfl
@[simp] theorem updDesc_flt (h i : Nat) (f : QDesc → QDesc) : (updDesc h i f s).flt = s.flt := rfl
@[simp] theorem updDesc_fab (h i : Nat) (f : QDesc → QDesc) : (updDesc h i f s).fab = s.fab := rfl
@[simp] theorem updDesc_rad (h i : Nat) (f : QDesc → QDesc) : (updDesc h i f s).rad = s.rad := rfl
@[simp] theorem updDesc_core (h i : Nat) (f : QDesc → QDesc) : (updDesc h i f s).core = s.core := rfl
@[simp] theorem updDesc_dev (h i : Nat) (f : QDesc → QDesc) : (updDesc h i f s).dev = s.dev := rfl
@[simp] theorem updDesc_det (h i : Nat) (f : QDesc → QDesc) : (updDesc h i f s).det = s.det := rfl
@[simp] theorem updCmd_pending (k e : Nat) (f : EngCmd → EngCmd) : (updCmd k e f s).pending = s.pending := rfl
@[simp] theorem updCmd_free (k e : Nat) (f : EngCmd → EngCmd) : (updCmd k e f s).free = s.free := rfl
@[simp] theorem updCmd_out (k e : Nat) (f : EngCmd → EngCmd) : (updCmd k e f s).out = s.out := rfl
@[simp] theorem updCmd_clk (k e : Nat) (f : EngCmd → EngCmd) : (updCmd k e f s).clk = s.clk := rfl
@[simp] theorem updCmd_mem (k e : Nat) (f : EngCmd → EngCmd) : (updCmd k e f s).mem = s.mem := rfl
@[simp] theorem updCmd_mbx (k e : Nat) (f : EngCmd → EngCmd) : (updCmd k e f s).mbx = s.mbx := rfl
@[simp] theorem updCmd_host (k e : Nat) (f : EngCmd → EngCmd) : (updCmd k e f s).host = s.host := rfl
@[simp] theorem updCmd_traf (k e : Nat) (f : EngCmd → EngCmd) : (updCmd k e f s).traf = s.traf := rfl
@[simp] theorem updCmd_time (k e : Nat) (f : EngCmd → EngCmd) : (updCmd k e f s).time = s.time := rfl
@[simp] theorem updCmd_plates (k e : Nat) (f : EngCmd → EngCmd) : (updCmd k e f s).plates = s.plates := rfl
@[simp] theorem updCmd_flt (k e : Nat) (f : EngCmd → EngCmd) : (updCmd k e f s).flt = s.flt := rfl
@[simp] theorem updCmd_fab (k e : Nat) (f : EngCmd → EngCmd) : (updCmd k e f s).fab = s.fab := rfl
@[simp] theorem updCmd_rad (k e : Nat) (f : EngCmd → EngCmd) : (updCmd k e f s).rad = s.rad := rfl
@[simp] theorem updCmd_dev (k e : Nat) (f : EngCmd → EngCmd) : (updCmd k e f s).dev = s.dev := rfl
@[simp] theorem updCmd_det (k e : Nat) (f : EngCmd → EngCmd) : (updCmd k e f s).det = s.det := rfl
@[simp] theorem updQ_pending (c q : Nat) (f : BatchQ → BatchQ) : (updQ c q f s).pending = s.pending := rfl
@[simp] theorem updQ_free (c q : Nat) (f : BatchQ → BatchQ) : (updQ c q f s).free = s.free := rfl
@[simp] theorem updQ_out (c q : Nat) (f : BatchQ → BatchQ) : (updQ c q f s).out = s.out := rfl
@[simp] theorem updQ_clk (c q : Nat) (f : BatchQ → BatchQ) : (updQ c q f s).clk = s.clk := rfl
@[simp] theorem updQ_mbx (c q : Nat) (f : BatchQ → BatchQ) : (updQ c q f s).mbx = s.mbx := rfl
@[simp] theorem updQ_host (c q : Nat) (f : BatchQ → BatchQ) : (updQ c q f s).host = s.host := rfl
@[simp] theorem updQ_traf (c q : Nat) (f : BatchQ → BatchQ) : (updQ c q f s).traf = s.traf := rfl
@[simp] theorem updQ_time (c q : Nat) (f : BatchQ → BatchQ) : (updQ c q f s).time = s.time := rfl
@[simp] theorem updQ_plates (c q : Nat) (f : BatchQ → BatchQ) : (updQ c q f s).plates = s.plates := rfl
@[simp] theorem updQ_flt (c q : Nat) (f : BatchQ → BatchQ) : (updQ c q f s).flt = s.flt := rfl
@[simp] theorem updQ_fab (c q : Nat) (f : BatchQ → BatchQ) : (updQ c q f s).fab = s.fab := rfl
@[simp] theorem updQ_rad (c q : Nat) (f : BatchQ → BatchQ) : (updQ c q f s).rad = s.rad := rfl
@[simp] theorem updQ_core (c q : Nat) (f : BatchQ → BatchQ) : (updQ c q f s).core = s.core := rfl
@[simp] theorem updQ_dev (c q : Nat) (f : BatchQ → BatchQ) : (updQ c q f s).dev = s.dev := rfl
@[simp] theorem updQ_det (c q : Nat) (f : BatchQ → BatchQ) : (updQ c q f s).det = s.det := rfl
@[simp] theorem updOp_pending (i n : Nat) (f : CollOp → CollOp) : (updOp i n f s).pending = s.pending := by simp [updOp]
@[simp] theorem updOp_free (i n : Nat) (f : CollOp → CollOp) : (updOp i n f s).free = s.free := by simp [updOp]
@[simp] theorem updOp_out (i n : Nat) (f : CollOp → CollOp) : (updOp i n f s).out = s.out := by simp [updOp]
@[simp] theorem updOp_clk (i n : Nat) (f : CollOp → CollOp) : (updOp i n f s).clk = s.clk := by simp [updOp]
@[simp] theorem updOp_mem (i n : Nat) (f : CollOp → CollOp) : (updOp i n f s).mem = s.mem := by simp [updOp]
@[simp] theorem updOp_mbx (i n : Nat) (f : CollOp → CollOp) : (updOp i n f s).mbx = s.mbx := by simp [updOp]
@[simp] theorem updOp_host (i n : Nat) (f : CollOp → CollOp) : (updOp i n f s).host = s.host := by simp [updOp]
@[simp] theorem updOp_traf (i n : Nat) (f : CollOp → CollOp) : (updOp i n f s).traf = s.traf := by simp [updOp]
@[simp] theorem updOp_time (i n : Nat) (f : CollOp → CollOp) : (updOp i n f s).time = s.time := by simp [updOp]
@[simp] theorem updOp_plates (i n : Nat) (f : CollOp → CollOp) : (updOp i n f s).plates = s.plates := by simp [updOp]
@[simp] theorem updOp_flt (i n : Nat) (f : CollOp → CollOp) : (updOp i n f s).flt = s.flt := by simp [updOp]
@[simp] theorem updOp_rad (i n : Nat) (f : CollOp → CollOp) : (updOp i n f s).rad = s.rad := by simp [updOp]
@[simp] theorem updOp_core (i n : Nat) (f : CollOp → CollOp) : (updOp i n f s).core = s.core := by simp [updOp]
@[simp] theorem updOp_dev (i n : Nat) (f : CollOp → CollOp) : (updOp i n f s).dev = s.dev := by simp [updOp]
@[simp] theorem updOp_det (i n : Nat) (f : CollOp → CollOp) : (updOp i n f s).det = s.det := by simp [updOp]
@[simp] theorem updRun_pending (i n c d : Nat) (f : CollRun → CollRun) : (updRun i n c d f s).pending = s.pending := by simp [updRun]
@[simp] theorem updRun_free (i n c d : Nat) (f : CollRun → CollRun) : (updRun i n c d f s).free = s.free := by simp [updRun]
@[simp] theorem updRun_out (i n c d : Nat) (f : CollRun → CollRun) : (updRun i n c d f s).out = s.out := by simp [updRun]
@[simp] theorem updRun_clk (i n c d : Nat) (f : CollRun → CollRun) : (updRun i n c d f s).clk = s.clk := by simp [updRun]
@[simp] theorem updRun_mem (i n c d : Nat) (f : CollRun → CollRun) : (updRun i n c d f s).mem = s.mem := by simp [updRun]
@[simp] theorem updRun_mbx (i n c d : Nat) (f : CollRun → CollRun) : (updRun i n c d f s).mbx = s.mbx := by simp [updRun]
@[simp] theorem updRun_host (i n c d : Nat) (f : CollRun → CollRun) : (updRun i n c d f s).host = s.host := by simp [updRun]
@[simp] theorem updRun_traf (i n c d : Nat) (f : CollRun → CollRun) : (updRun i n c d f s).traf = s.traf := by simp [updRun]
@[simp] theorem updRun_time (i n c d : Nat) (f : CollRun → CollRun) : (updRun i n c d f s).time = s.time := by simp [updRun]
@[simp] theorem updRun_plates (i n c d : Nat) (f : CollRun → CollRun) : (updRun i n c d f s).plates = s.plates := by simp [updRun]
@[simp] theorem updRun_flt (i n c d : Nat) (f : CollRun → CollRun) : (updRun i n c d f s).flt = s.flt := by simp [updRun]
@[simp] theorem updRun_rad (i n c d : Nat) (f : CollRun → CollRun) : (updRun i n c d f s).rad = s.rad := by simp [updRun]
@[simp] theorem updRun_core (i n c d : Nat) (f : CollRun → CollRun) : (updRun i n c d f s).core = s.core := by simp [updRun]
@[simp] theorem updRun_dev (i n c d : Nat) (f : CollRun → CollRun) : (updRun i n c d f s).dev = s.dev := by simp [updRun]
@[simp] theorem updRun_det (i n c d : Nat) (f : CollRun → CollRun) : (updRun i n c d f s).det = s.det := by simp [updRun]
@[simp] theorem updThatch_pending (p n : Nat) (f : Thatch → Thatch) : (updThatch p n f s).pending = s.pending := rfl
@[simp] theorem updThatch_free (p n : Nat) (f : Thatch → Thatch) : (updThatch p n f s).free = s.free := rfl
@[simp] theorem updThatch_out (p n : Nat) (f : Thatch → Thatch) : (updThatch p n f s).out = s.out := rfl
@[simp] theorem updThatch_clk (p n : Nat) (f : Thatch → Thatch) : (updThatch p n f s).clk = s.clk := rfl
@[simp] theorem updThatch_mbx (p n : Nat) (f : Thatch → Thatch) : (updThatch p n f s).mbx = s.mbx := rfl
@[simp] theorem updThatch_host (p n : Nat) (f : Thatch → Thatch) : (updThatch p n f s).host = s.host := rfl
@[simp] theorem updThatch_traf (p n : Nat) (f : Thatch → Thatch) : (updThatch p n f s).traf = s.traf := rfl
@[simp] theorem updThatch_time (p n : Nat) (f : Thatch → Thatch) : (updThatch p n f s).time = s.time := rfl
@[simp] theorem updThatch_plates (p n : Nat) (f : Thatch → Thatch) : (updThatch p n f s).plates = s.plates := rfl
@[simp] theorem updThatch_flt (p n : Nat) (f : Thatch → Thatch) : (updThatch p n f s).flt = s.flt := rfl
@[simp] theorem updThatch_fab (p n : Nat) (f : Thatch → Thatch) : (updThatch p n f s).fab = s.fab := rfl
@[simp] theorem updThatch_rad (p n : Nat) (f : Thatch → Thatch) : (updThatch p n f s).rad = s.rad := rfl
@[simp] theorem updThatch_core (p n : Nat) (f : Thatch → Thatch) : (updThatch p n f s).core = s.core := rfl
@[simp] theorem updThatch_dev (p n : Nat) (f : Thatch → Thatch) : (updThatch p n f s).dev = s.dev := rfl
@[simp] theorem updThatch_det (p n : Nat) (f : Thatch → Thatch) : (updThatch p n f s).det = s.det := rfl
@[simp] theorem updEntry_pending (p n j : Nat) (f : ThatchEntry → ThatchEntry) : (updEntry p n j f s).pending = s.pending := rfl
@[simp] theorem updEntry_free (p n j : Nat) (f : ThatchEntry → ThatchEntry) : (updEntry p n j f s).free = s.free := rfl
@[simp] theorem updEntry_out (p n j : Nat) (f : ThatchEntry → ThatchEntry) : (updEntry p n j f s).out = s.out := rfl
@[simp] theorem updEntry_clk (p n j : Nat) (f : ThatchEntry → ThatchEntry) : (updEntry p n j f s).clk = s.clk := rfl
@[simp] theorem updEntry_mbx (p n j : Nat) (f : ThatchEntry → ThatchEntry) : (updEntry p n j f s).mbx = s.mbx := rfl
@[simp] theorem updEntry_host (p n j : Nat) (f : ThatchEntry → ThatchEntry) : (updEntry p n j f s).host = s.host := rfl
@[simp] theorem updEntry_traf (p n j : Nat) (f : ThatchEntry → ThatchEntry) : (updEntry p n j f s).traf = s.traf := rfl
@[simp] theorem updEntry_time (p n j : Nat) (f : ThatchEntry → ThatchEntry) : (updEntry p n j f s).time = s.time := rfl
@[simp] theorem updEntry_plates (p n j : Nat) (f : ThatchEntry → ThatchEntry) : (updEntry p n j f s).plates = s.plates := rfl
@[simp] theorem updEntry_flt (p n j : Nat) (f : ThatchEntry → ThatchEntry) : (updEntry p n j f s).flt = s.flt := rfl
@[simp] theorem updEntry_fab (p n j : Nat) (f : ThatchEntry → ThatchEntry) : (updEntry p n j f s).fab = s.fab := rfl
@[simp] theorem updEntry_rad (p n j : Nat) (f : ThatchEntry → ThatchEntry) : (updEntry p n j f s).rad = s.rad := rfl
@[simp] theorem updEntry_core (p n j : Nat) (f : ThatchEntry → ThatchEntry) : (updEntry p n j f s).core = s.core := rfl
@[simp] theorem updEntry_dev (p n j : Nat) (f : ThatchEntry → ThatchEntry) : (updEntry p n j f s).dev = s.dev := rfl
@[simp] theorem updEntry_det (p n j : Nat) (f : ThatchEntry → ThatchEntry) : (updEntry p n j f s).det = s.det := rfl
@[simp] theorem updCtx_pending (c : Nat) (f : Ctx → Ctx) : (updCtx c f s).pending = s.pending := rfl
@[simp] theorem updCtx_free (c : Nat) (f : Ctx → Ctx) : (updCtx c f s).free = s.free := rfl
@[simp] theorem updCtx_out (c : Nat) (f : Ctx → Ctx) : (updCtx c f s).out = s.out := rfl
@[simp] theorem updCtx_clk (c : Nat) (f : Ctx → Ctx) : (updCtx c f s).clk = s.clk := rfl
@[simp] theorem updCtx_mem (c : Nat) (f : Ctx → Ctx) : (updCtx c f s).mem = s.mem := rfl
@[simp] theorem updCtx_mbx (c : Nat) (f : Ctx → Ctx) : (updCtx c f s).mbx = s.mbx := rfl
@[simp] theorem updCtx_host (c : Nat) (f : Ctx → Ctx) : (updCtx c f s).host = s.host := rfl
@[simp] theorem updCtx_traf (c : Nat) (f : Ctx → Ctx) : (updCtx c f s).traf = s.traf := rfl
@[simp] theorem updCtx_time (c : Nat) (f : Ctx → Ctx) : (updCtx c f s).time = s.time := rfl
@[simp] theorem updCtx_plates (c : Nat) (f : Ctx → Ctx) : (updCtx c f s).plates = s.plates := rfl
@[simp] theorem updCtx_flt (c : Nat) (f : Ctx → Ctx) : (updCtx c f s).flt = s.flt := rfl
@[simp] theorem updCtx_fab (c : Nat) (f : Ctx → Ctx) : (updCtx c f s).fab = s.fab := rfl
@[simp] theorem updCtx_rad (c : Nat) (f : Ctx → Ctx) : (updCtx c f s).rad = s.rad := rfl
@[simp] theorem updCtx_dev (c : Nat) (f : Ctx → Ctx) : (updCtx c f s).dev = s.dev := rfl
@[simp] theorem updCtx_det (c : Nat) (f : Ctx → Ctx) : (updCtx c f s).det = s.det := rfl
@[simp] theorem putMessage_pending (o : Output) : (putMessage o s).pending = s.pending := by unfold putMessage; cases o <;> rfl
@[simp] theorem putMessage_free (o : Output) : (putMessage o s).free = s.free := by unfold putMessage; cases o <;> rfl
@[simp] theorem putMessage_clk (o : Output) : (putMessage o s).clk = s.clk := by unfold putMessage; cases o <;> rfl
@[simp] theorem putMessage_mem (o : Output) : (putMessage o s).mem = s.mem := by unfold putMessage; cases o <;> rfl
@[simp] theorem putMessage_mbx (o : Output) : (putMessage o s).mbx = s.mbx := by unfold putMessage; cases o <;> rfl
@[simp] theorem putMessage_traf (o : Output) : (putMessage o s).traf = s.traf := by unfold putMessage; cases o <;> rfl
@[simp] theorem putMessage_time (o : Output) : (putMessage o s).time = s.time := by unfold putMessage; cases o <;> rfl
@[simp] theorem putMessage_plates (o : Output) : (putMessage o s).plates = s.plates := by unfold putMessage; cases o <;> rfl
@[simp] theorem putMessage_flt (o : Output) : (putMessage o s).flt = s.flt := by unfold putMessage; cases o <;> rfl
@[simp] theorem putMessage_fab (o : Output) : (putMessage o s).fab = s.fab := by unfold putMessage; cases o <;> rfl
@[simp] theorem putMessage_rad (o : Output) : (putMessage o s).rad = s.rad := by unfold putMessage; cases o <;> rfl
@[simp] theorem putMessage_core (o : Output) : (putMessage o s).core = s.core := by unfold putMessage; cases o <;> rfl
@[simp] theorem putMessage_dev (o : Output) : (putMessage o s).dev = s.dev := by unfold putMessage; cases o <;> rfl
@[simp] theorem putMessage_det (o : Output) : (putMessage o s).det = s.det := by unfold putMessage; cases o <;> rfl
@[simp] theorem sendMessage_pending (o : Output) : (sendMessage o s).pending = s.pending := by unfold sendMessage; split <;> simp
@[simp] theorem sendMessage_free (o : Output) : (sendMessage o s).free = s.free := by unfold sendMessage; split <;> simp
@[simp] theorem sendMessage_clk (o : Output) : (sendMessage o s).clk = s.clk := by unfold sendMessage; split <;> simp
@[simp] theorem sendMessage_mem (o : Output) : (sendMessage o s).mem = s.mem := by unfold sendMessage; split <;> simp
@[simp] theorem sendMessage_mbx (o : Output) : (sendMessage o s).mbx = s.mbx := by unfold sendMessage; split <;> simp
@[simp] theorem sendMessage_traf (o : Output) : (sendMessage o s).traf = s.traf := by unfold sendMessage; split <;> simp
@[simp] theorem sendMessage_time (o : Output) : (sendMessage o s).time = s.time := by unfold sendMessage; split <;> simp
@[simp] theorem sendMessage_plates (o : Output) : (sendMessage o s).plates = s.plates := by unfold sendMessage; split <;> simp
@[simp] theorem sendMessage_flt (o : Output) : (sendMessage o s).flt = s.flt := by unfold sendMessage; split <;> simp
@[simp] theorem sendMessage_fab (o : Output) : (sendMessage o s).fab = s.fab := by unfold sendMessage; split <;> simp
@[simp] theorem sendMessage_rad (o : Output) : (sendMessage o s).rad = s.rad := by unfold sendMessage; split <;> simp
@[simp] theorem sendMessage_core (o : Output) : (sendMessage o s).core = s.core := by unfold sendMessage; split <;> simp
@[simp] theorem sendMessage_dev (o : Output) : (sendMessage o s).dev = s.dev := by unfold sendMessage; split <;> simp
@[simp] theorem sendMessage_det (o : Output) : (sendMessage o s).det = s.det := by unfold sendMessage; split <;> simp

end Sys2Proof.Machine
end

