-- ==== Sys2Proof/Tests/Build.lean ====
section
/-!
SUPPORT. Builders of the small commands and states that the tests and the witnesses are about.
-/
namespace Sys2Proof.Tests
open Sys2Proof Sys2Proof.Machine

/-- A number whose bytes at the given offsets hold the given values. -/
def pack (l : List (Nat × Nat)) : Nat := l.foldr (fun e n => n + e.2 * 256 ^ e.1) 0

/-- A mailbox command of a ring with an opcode, fields at byte offsets, and data read. -/
def sent (ring op : Nat) (f : List (Nat × Nat)) (d : List Byte) : Mbx :=
  ⟨BitVec.ofNat 9 ring, 0, BitVec.ofNat 512 (pack ((0, op) :: f)), .ok d []⟩

/-- A command of the PF's ring, without data. -/
def cmd (op : Nat) (f : List (Nat × Nat)) : Mbx := sent 0 op f []

/-- A command of the management ring, without data. -/
def mg (op : Nat) (f : List (Nat × Nat)) : Mbx := sent 256 op f []

/-- `n` bytes with values at the given offsets. -/
def bytesOf (n : Nat) (f : List (Nat × Nat)) : List Byte := leBytes n (pack f)

theorem ofLE_leBytes (n : Nat) : ∀ v, v < 256 ^ n → ofLE (leBytes n v) = v := by
  induction n with
  | zero => intro v h; simp at h; simp [leBytes, ofLE, h]
  | succ n ih =>
    intro v h
    have : v / 256 < 256 ^ n := by rw [Nat.pow_succ] at h; omega
    rw [leBytes, ofLE, ih _ this, BitVec.toNat_ofNat]
    omega

/-- The state right after reset. -/
abbrev s0 : State := State.reset

/-- A mailbox command is let through, and a condition holds of the state that it is accepted in. -/
abbrev Met (m : Mbx) (s : State) (b : By) (f : List (Nat × Nat)) (v : Mbx → State → Prop) : Prop :=
  (admitCmd m b f s).1 = stOk ∧ v m (admitCmd m b f s).2

/-- A plate with nothing in it, of a kind and in a state, for function 0. -/
def plate0 (kind state : Nat) : Plate :=
  { plateOf [] 0 with kind := kind, partition := (if kind = 1 then 0 else 1), state := state }

/-- A RAN plate in force with hatch 0, stream 0 and core 0, and a window for cell 383. -/
def ranPlate : Plate :=
  { plate0 1 1 with
    claims := [⟨2, 0, 1, 0⟩, ⟨7, 0, 1, 0⟩, ⟨1, 0, 1, 0⟩], windows := [⟨0, 0, 0, 0, false, 383, 0, 0, 0, 0, 0⟩] }

/-- The state after reset with that plate in force. -/
def ranState : State := s0.setPlate 1 (some ranPlate)

/-- The state after reset with a range of device memory for function 0, owned by it. -/
def withRange (base frames : Nat) : State :=
  updMem (fun m => { m with
    ranges := [⟨0, base, 65536 * frames⟩],
    frames := (List.range frames).foldl (fun t i => Tab.set (frameDefault (base / 65536 + i)) t (base / 65536 + i) ⟨0, 0, false⟩) m.frames }) s0

/-- The state after reset with a RAN plate in force that claims one item. -/
def claimState (type item : Nat) : State := s0.setPlate 1 (some { plate0 1 1 with claims := [⟨type, item, 1, 0⟩] })

/-- A sequence queue of plate 1 with one pool. -/
def queue0 : BatchQ :=
  { plate := 1, wset := 0xFFFF, t := 16, ppb := 1, pool0 := some 1, pool1 := none, pool2 := none, nodes := 0, nodeCount := 0,
    maxRows := 1, budget := 1, reserve := 0, manifest := 0, output := 0, proofs := 0, core := 0, cnt := 0, cplHq := 0xFFFF,
    join := [], joiners := [], rows := [], impression := 0, forming := false, waits := [], nodesUsed := [], held := [] }

/-- The state after reset with sequence 0 of queue 0 of function 0 in a state. -/
def seqState (st : Nat) : State :=
  (updSeq (fun u => { u with live := [(0, 0)], queues := [(0, some queue0)] }) s0).setSeq 0
    ⟨st, false, false, 0, 0, 0, false, 0, 0, 0, 0, 0, 0, []⟩

/-- A collective group of halls 0 and 1 in a state. -/
def group0 (st : Nat) : Group :=
  { owner := 0, key := 1, fast := true, course := 0, timeout := 0, ranks := [0, 1], record := [], stages := [], state := st,
    joined := [], joinAt := 0, waiter := none, seq := 0, submitted := [], ops := [], aborted := [], early := [], aborts := [],
    paused := false }

/-- The state after reset with that group at handle 255. -/
def groupState (st : Nat) : State := updFab (fun f => { f with groups := [(255, some (group0 st))] }) s0

/-- The digest of one zero byte, as a number. -/
def zeroSha : Nat := fld (sha256 [0]) 0 32

/-- A configuration image without records. -/
def emptyImage : List Byte :=
  let h := bytesOf 64 [(0, 0x4746435A), (4, 1), (8, 68)]
  h ++ leBytes 4 (imageCrc h)

/-- The state after reset at a ridge count. -/
def at_ (n : Nat) : State := { s0 with clk := { s0.clk with ridge := BitVec.ofNat 64 n } }

end Sys2Proof.Tests
end

