-- ==== Sys2Proof/WellFormed.lean ====
section
/-!
DEFINITION. Well-formed commands: the operands that a sender at each interface can give. Operands with a width of their own are bounded
by it; these are the bounds that a width does not say.
-/
namespace Sys2Proof

/-- A mailbox command comes from one of the 257 rings, and its descriptor carries the opcode of its row (R510, R514, R526). -/
def mbxOk (opcode : Nat) (m : Mbx) : Bool := decide (m.input.toNat ≤ 256) && m.desc.toNat % 65536 == opcode

/-- An Abard port is one of 24 (chapter 11). -/
def portOk (p : BitVec 5) : Bool := decide (p.toNat < 24)

/-- A packet is a sequence of at least one word (R345). -/
def packetOk (words : List (BitVec 144)) : Bool := words != []

/-- A fronthaul stream is one of 6,144 (R202). -/
def streamOk (n : BitVec 13) : Bool := decide (n.toNat < 6144)

/-- A cell slot is one of 384. -/
def cellOk (c : BitVec 9) : Bool := decide (c.toNat < 384)

/-- An egress of Table 14.1. -/
def egressOk (e : BitVec 7) : Bool := decide (e.toNat ≤ 81)

/-- A function, or 256 for the compute partition in a compute-partition reset (R439, R562). -/
def partyOk (n : BitVec 9) : Bool := decide (n.toNat ≤ 256)

/-- Whether a command is well formed. -/
def Instr.wellFormed (i : Instr) : Bool :=
  match i with
  | .registerWrite w => (w.wide || decide (w.data.toNat < 2 ^ 32))
  | .badWidthAccess _ _ => true
  | .unmappedBarAccess _ _ bits => (bits == 32 || bits == 64)
  | .epochBoundary => true
  | .governorPlan => true
  | .windowStart _ _ => true
  | .windowEnd _ _ => true
  | .partitionClearDone kind _ => (kind != 0)
  | .plateLoad m => mbxOk 0x0201 m
  | .plateAdmit m => mbxOk 0x0202 m
  | .plateStart m => mbxOk 0x0203 m
  | .plateSwap m => mbxOk 0x0204 m
  | .plateRetire m => mbxOk 0x0205 m
  | .plateQuery m => mbxOk 0x0206 m
  | .plateCommandEnd _ _ => true
  | .impressionComplete _ cell _ => cellOk cell
  | .manifestRetire _ _ => true
  | .thNop _ _ => true
  | .thAdd _ _ _ _ _ => true
  | .thSub _ _ _ _ _ => true
  | .thAnd _ _ _ _ _ => true
  | .thOr _ _ _ _ _ => true
  | .thXor _ _ _ _ _ => true
  | .thShl _ _ _ _ _ => true
  | .thShr _ _ _ _ _ => true
  | .thSar _ _ _ _ _ => true
  | .thMul _ _ _ _ _ => true
  | .thMin _ _ _ _ _ => true
  | .thMax _ _ _ _ _ => true
  | .thLi _ _ _ _ _ => true
  | .thLih _ _ _ _ _ => true
  | .thLd _ _ _ _ _ => true
  | .thSt _ _ _ _ _ => true
  | .thLdx _ _ _ _ _ => true
  | .thStx _ _ _ _ _ => true
  | .thBeq _ _ _ _ _ => true
  | .thBne _ _ _ _ _ => true
  | .thBlt _ _ _ _ _ => true
  | .thBge _ _ _ _ _ => true
  | .thJmp _ _ _ _ _ => true
  | .thCmd _ _ _ _ _ => true
  | .thWaitc _ _ _ _ _ => true
  | .thSetc _ _ _ _ _ => true
  | .thRdc _ _ _ _ _ => true
  | .thBar _ _ _ _ _ => true
  | .thWaitr _ _ _ _ _ => true
  | .ridgeWaitResume _ => true
  | .thRdr _ _ _ _ _ => true
  | .thRdimp _ _ _ _ _ => true
  | .thFence _ _ _ _ _ => true
  | .thEnd _ _ _ _ _ => true
  | .tensorCommand _ _ => true
  | .engineCommandRetire _ engine => decide (engine.toNat < 3)
  | .seCmul _ => true
  | .seCadd _ => true
  | .seCmac _ => true
  | .sePower _ => true
  | .seRad2 _ => true
  | .seRad4 _ => true
  | .seMmsew _ => true
  | .seDemap _ => true
  | .seScan _ => true
  | .bxopSet _ => true
  | .bxopWriteOut _ => true
  | .meMove _ => true
  | .meGather _ => true
  | .meScatter _ => true
  | .meTranspose _ => true
  | .meConvert _ => true
  | .hashOneshot _ => true
  | .hashAppend _ => true
  | .hashFinal _ => true
  | .meWb _ => true
  | .meFload _ => true
  | .meFstore _ => true
  | .mePut _ => true
  | .meGet _ => true
  | .meAtomic _ => true
  | .meRequestIssue _ => true
  | .meDescriptorRetire _ => true
  | .cellConfig m => mbxOk 0x0601 m
  | .cellStart m => mbxOk 0x0602 m
  | .cellStop m => mbxOk 0x0603 m
  | .cellShadow m => mbxOk 0x0604 m
  | .cellTakeover m => mbxOk 0x0605 m
  | .cellQuery m => mbxOk 0x0606 m
  | .cellStateChange cell => cellOk cell
  | .ldpcDecodeJob => true
  | .codeBlockDecoded _ => true
  | .ldpcEncodeJob => true
  | .sideJob => true
  | .polarJob => true
  | .prachJob => true
  | .fixedFunctionJobDone pool _ => (pool != 0)
  | .fhPortConfig m => mbxOk 0x0610 m
  | .fhStreamConfig m => mbxOk 0x0611 m
  | .fhCellTiming m => mbxOk 0x0612 m
  | .fhMirror m => mbxOk 0x0613 m
  | .fhQuery m => mbxOk 0x0614 m
  | .fhFrameRx _ _ _ _ => true
  | .fhEgressJob _ => true
  | .fhTxFrameBoundary _ _ => true
  | .symbolWindowOpen stream _ => streamOk stream
  | .symbolClose stream _ => streamOk stream
  | .mirrorRecordRx _ _ => true
  | .mirrorDeadline cell _ => cellOk cell
  | .fhBlockLockLoss _ _ => true
  | .fhBlockLockRegain _ => true
  | .timePortConfig m => mbxOk 0x0701 m
  | .timeServoConfig m => mbxOk 0x0702 m
  | .timeRearm m => mbxOk 0x0703 m
  | .timeSynce m => mbxOk 0x0704 m
  | .timeQuery m => mbxOk 0x0705 m
  | .txtsHeadRead port _ => decide (port.toNat < 10)
  | .tinHeadRead _ _ => true
  | .measCommit _ => true
  | .holdoverEntry => true
  | .synceResume => true
  | .toutEnable _ _ => true
  | .toutPulse _ => true
  | .tinEdge _ _ => true
  | .deviceMemoryRequest _ => true
  | .refreshSlot _ => true
  | .memQuotaSet m => mbxOk 0x0301 m
  | .memAlloc m => mbxOk 0x0302 m
  | .memFree m => mbxOk 0x0303 m
  | .tierRegionCreate m => mbxOk 0x0304 m
  | .tierRegionDestroy m => mbxOk 0x0305 m
  | .tierPoolSet m => mbxOk 0x0306 m
  | .tierJob m => mbxOk 0x0307 m
  | .memRemoteAttach m => mbxOk 0x0308 m
  | .memLend m => mbxOk 0x0309 m
  | .flashFormat m _ => mbxOk 0x030A m
  | .memQuery m => mbxOk 0x030B m
  | .tierRegionAdopt m => mbxOk 0x030C m
  | .tierCommit m => mbxOk 0x030D m
  | .tierDiscard m => mbxOk 0x030E m
  | .tierFetch _ => true
  | .tierUnpin _ => true
  | .tierWriteback _ => true
  | .tierJobCommit _ => true
  | .tierJobDiscard _ => true
  | .tierFetchComplete _ _ => true
  | .tierJobComplete _ => true
  | .backgroundWriteback _ => true
  | .sectorWritebackDone _ _ _ => true
  | .flashRowProgram => true
  | .flashCompaction => true
  | .weightInstall m => mbxOk 0x0310 m
  | .weightQuery m => mbxOk 0x0311 m
  | .weightRepair m => mbxOk 0x0312 m
  | .weightRemove m => mbxOk 0x0313 m
  | .thatchBegin _ => true
  | .thatchLatestExpiry _ => true
  | .seqQueueConfig m => mbxOk 0x0318 m
  | .seqSubmit m => mbxOk 0x0319 m
  | .seqRelease m => mbxOk 0x031A m
  | .seqPause m => mbxOk 0x031B m
  | .seqResume m => mbxOk 0x031C m
  | .seqQuery m => mbxOk 0x031D m
  | .seqAllot m => mbxOk 0x031E m
  | .abrTrain m => mbxOk 0x0420 m
  | .abrContinue m => mbxOk 0x0421 m
  | .abrGainSet m => mbxOk 0x0422 m
  | .abrMeasure m _ => mbxOk 0x0423 m
  | .abrDown m => mbxOk 0x0424 m
  | .abrQuery m => mbxOk 0x0425 m
  | .helloRx port _ _ _ _ => portOk port
  | .trainingPhaseEnd port obs delays =>
    portOk port && decide (obs.length = 8 ∧ delays.own.length ≤ 16 ∧ delays.answers.length ≤ 16)
  | .acquireTimeout port => portOk port
  | .slateRx port _ _ _ _ => portOk port
  | .replayTimeout port _ => portOk port
  | .laneSyncLoss port _ _ => portOk port
  | .portPacketBoundary port => portOk port
  | .fabWindowSet m => mbxOk 0x0401 m
  | .fabWindowClear m => mbxOk 0x0402 m
  | .fabInwinSet m => mbxOk 0x0403 m
  | .fabRouteSet m => mbxOk 0x0404 m
  | .fabLedgerSet m => mbxOk 0x0405 m
  | .fabIdSet m => mbxOk 0x0406 m
  | .fabVcDefault m => mbxOk 0x0407 m
  | .fabConfig m => mbxOk 0x0408 m
  | .fabQuery m => mbxOk 0x0409 m
  | .pktRead port words => portOk port && packetOk words
  | .pktWrite port words => portOk port && packetOk words
  | .pktAtomic port words => portOk port && packetOk words
  | .pktReadData port words => portOk port && packetOk words
  | .pktWriteAck port words => portOk port && packetOk words
  | .pktAtomicResult port words => portOk port && packetOk words
  | .pktNak port words => portOk port && packetOk words
  | .transitForward port words => portOk port && packetOk words
  | .requestTimeout _ => true
  | .collGroupCreate m => mbxOk 0x0501 m
  | .collGroupDestroy m => mbxOk 0x0502 m
  | .collGroupQuery m => mbxOk 0x0503 m
  | .collGroupRebind m => mbxOk 0x0504 m
  | .collJob m => mbxOk 0x0505 m
  | .opAllreduce _ => true
  | .opReduceScatter _ => true
  | .opAllgather _ => true
  | .opBroadcast _ => true
  | .opReduce _ => true
  | .opAlltoall _ => true
  | .opBarrier _ => true
  | .collRingStepSend _ => true
  | .collData port words => portOk port && packetOk words
  | .collCredit port words => portOk port && packetOk words
  | .collAbort port words => portOk port && packetOk words
  | .barrierArrive port words => portOk port && packetOk words
  | .barrierRelease port words _ => portOk port && packetOk words
  | .fabricBarrierResume _ => true
  | .collJoin port words => portOk port && packetOk words
  | .collJoinTimeout _ => true
  | .collProgressTimeout _ => true
  | .qBind m => mbxOk 0x0801 m
  | .qUnbind m => mbxOk 0x0802 m
  | .qShaperSet m => mbxOk 0x0803 m
  | .qClassSet m => mbxOk 0x0804 m
  | .policerSet m => mbxOk 0x0805 m
  | .stippleConfig m => mbxOk 0x0806 m
  | .qQuery m => mbxOk 0x0807 m
  | .qRingSet m => mbxOk 0x0808 m
  | .egressDecision egress => egressOk egress
  | .shaperRefill => true
  | .stippleSample => true
  | .qDoorbell _ _ _ => true
  | .descriptorFetch _ _ => true
  | .descToDevice _ _ => true
  | .descMessage _ _ => true
  | .descToHost _ _ => true
  | .descFrame _ _ => true
  | .descWrite _ _ => true
  | .descriptorComplete _ _ => true
  | .coalesceTimeout _ => true
  | .dmaReadCompletion _ _ _ _ => true
  | .atsInvalidate _ _ => true
  | .fnConfig m => mbxOk 0x0901 m
  | .fnShareSet m => mbxOk 0x0902 m
  | .fnQuery m => mbxOk 0x0903 m
  | .fnReset m => mbxOk 0x0904 m
  | .flr _ => true
  | .vfEnableSet _ => true
  | .vfEnableClear => true
  | .teardownStepEnd fn => partyOk fn
  | .quiesceAbandon fn => partyOk fn
  | .scrubFrameDone f => decide (f.toNat < 0xC00000)
  | .pcieLinkTrained speed width _ => decide (1 ≤ speed.toNat ∧ speed.toNat ≤ 6) && [1, 2, 4, 8, 16].contains width.toNat
  | .pcieSurpriseDown => true
  | .ctxSaveSet m => mbxOk 0x0905 m
  | .ctxPreempt m => mbxOk 0x0906 m
  | .ctxResume m => mbxOk 0x0907 m
  | .ctxQuery m => mbxOk 0x0908 m
  | .imageSaveDone _ => true
  | .imageRestoreDone _ => true
  | .ctxSeedSet m => mbxOk 0x0A01 m
  | .seedRegen m => mbxOk 0x0A02 m
  | .proofJob _ => true
  | .proofDone _ _ => true
  | .recConfig m => mbxOk 0x0A03 m
  | .recStart m => mbxOk 0x0A04 m
  | .recStop m => mbxOk 0x0A05 m
  | .replayStart m => mbxOk 0x0A06 m
  | .replayStop m => mbxOk 0x0A07 m
  | .replayInject _ => true
  | .dryArm m => mbxOk 0x0A08 m
  | .dryFire m => mbxOk 0x0A09 m
  | .drypointSnapshot => true
  | .dryHeldRelease => true
  | .recPostStop => true
  | .leaseConfig m => mbxOk 0x0C01 m
  | .leaseKeySet m => mbxOk 0x0C02 m
  | .leaseRelease m => mbxOk 0x0C03 m
  | .faultPeerSet m => mbxOk 0x0C04 m
  | .healthConfig m => mbxOk 0x0C05 m
  | .takeoverArm m => mbxOk 0x0C06 m
  | .wireCompat m => mbxOk 0x0C07 m
  | .faultQuery m => mbxOk 0x0C08 m
  | .leaseRenew => true
  | .rxGrant _ => true
  | .rxRevoke _ => true
  | .leaseExpiry => true
  | .fatalCause cause => (cause != 0)
  | .faultEventFlush _ => true
  | .healthWindowEnd => true
  | .fenceNotice port words => portOk port && packetOk words
  | .leaseEcho port words => portOk port && packetOk words
  | .echoAck port words => portOk port && packetOk words
  | .echoLapse _ => true
  | .takeoverTimer cell => cellOk cell
  | .mbxCmdPiWrite _ _ => true
  | .mbxCplCiWrite _ _ => true
  | .mbxEnable _ => true
  | .mbxDisable _ => true
  | .mbxDrained _ => true
  | .commandAccept _ => true
  | .commandTimeout input _ => decide (input.toNat ≤ 256)
  | .mgmtCommandFrame _ _ => true
  | .devQuery m => mbxOk 0x0101 m
  | .devCfgQuery m => mbxOk 0x0102 m
  | .devReset m => mbxOk 0x0103 m
  | .computeReset m => mbxOk 0x0104 m
  | .fwStage m => mbxOk 0x0105 m
  | .cfgWrite m => mbxOk 0x0106 m
  | .coolantConfig m => mbxOk 0x0B01 m
  | .govConfig m => mbxOk 0x0B02 m
  | .powerQuery m => mbxOk 0x0B03 m
  | .tripConfig m => mbxOk 0x0B04 m
  | .coolantSample _ _ => true
  | .thermalSample junctions hbmTemps => decide (junctions.length = 96) && decide (hbmTemps.length = 32)
  | .tripClear => true
  | .thermtripAssert => true
  | .regulatorPoll rail _ _ _ => decide (rail.toNat < 12)
  | .pmbusTargetRead _ => true
  | .mctpMessage _ => true
  | .powerOnResetEnter => true
  | .powerOnResetEnd _ _ => true
  | .configLoad => true
  | .railLoss => true
  | .perstNAssert => true
  | .perstNRelease _ => true
  | .hbmReady _ => true
  | .jtagExtest => true
  | .jtagIdcode => true
  | .jtagSamplePreload _ _ => true
  | .jtagClamp => true
  | .jtagHighz => true
  | .jtagBypass _ => true
  | .tapReset => true
  | .sramScrub _ => true
  | .atsTranslationCompletion _ _ _ _ _ => true
  | .mgmtPtpFrameRx _ _ _ frame => decide (14 ≤ frame.length)
  | .mgmtPtpFrameTx _ _ _ => true

end Sys2Proof
end

