-- ==== Sys2Proof/Tests/Slice0.lean ====
section
/-!
SUPPORT. Tests: ill-formed terms that well-formedness refuses, and small results that the spec itself works out.
-/
namespace Sys2Proof.Tests
open Sys2Proof Sys2Proof.Machine
set_option Elab.async false

/-! ### Ill-formed commands -/

theorem test_wf_mailbox_ring : (Instr.plateLoad (sent 257 0x0201 [] [])).wellFormed = false ∧
    (Instr.plateLoad (sent 256 0x0201 [] [])).wellFormed = true := by decide +kernel

theorem test_wf_mailbox_opcode : (Instr.plateLoad (sent 0 0x0202 [] [])).wellFormed = false := by decide +kernel

theorem test_wf_port : (Instr.acquireTimeout 24).wellFormed = false ∧ (Instr.acquireTimeout 23).wellFormed = true := by decide +kernel

theorem test_wf_packet : (Instr.pktRead 0 []).wellFormed = false ∧ (Instr.pktRead 0 [0]).wellFormed = true := by decide +kernel

theorem test_wf_stream : (Instr.symbolWindowOpen 6144 0).wellFormed = false ∧ (Instr.symbolWindowOpen 6143 0).wellFormed = true := by decide +kernel

theorem test_wf_cell : (Instr.cellStateChange 384).wellFormed = false ∧ (Instr.cellStateChange 383).wellFormed = true := by decide +kernel

theorem test_wf_egress : (Instr.egressDecision 82).wellFormed = false ∧ (Instr.egressDecision 81).wellFormed = true := by decide +kernel

theorem test_wf_party : (Instr.teardownStepEnd 257).wellFormed = false ∧ (Instr.teardownStepEnd 256).wellFormed = true := by decide +kernel

theorem test_wf_register_write : (Instr.registerWrite ⟨0, .bar0, 0, false, 0x100000000⟩).wellFormed = false ∧
    (Instr.registerWrite ⟨0, .bar0, 0, true, 0x100000000⟩).wellFormed = true := by decide +kernel

theorem test_wf_unmapped_width : (Instr.unmappedBarAccess 0 true 16).wellFormed = false ∧ (Instr.unmappedBarAccess 0 true 32).wellFormed = true := by
  decide +kernel

theorem test_wf_partition_clear : (Instr.partitionClearDone 0 0).wellFormed = false := by decide +kernel

theorem test_wf_engine : (Instr.engineCommandRetire 0 3).wellFormed = false := by decide +kernel

theorem test_wf_pool : (Instr.fixedFunctionJobDone 0 0).wellFormed = false := by decide +kernel

theorem test_wf_stamp_port : (Instr.txtsHeadRead 10 true).wellFormed = false ∧ (Instr.txtsHeadRead 9 true).wellFormed = true := by decide +kernel

theorem test_wf_training : (Instr.trainingPhaseEnd 0 [] ⟨[], []⟩).wellFormed = false := by decide +kernel

theorem test_wf_frame_number : (Instr.scrubFrameDone 0xC00000).wellFormed = false ∧ (Instr.scrubFrameDone 0xBFFFFF).wellFormed = true := by
  decide +kernel

theorem test_wf_pcie_link : (Instr.pcieLinkTrained 7 16 true).wellFormed = false ∧ (Instr.pcieLinkTrained 6 3 true).wellFormed = false ∧
    (Instr.pcieLinkTrained 6 16 true).wellFormed = true := by decide +kernel

theorem test_wf_fatal_cause : (Instr.fatalCause 0).wellFormed = false := by decide +kernel

theorem test_wf_timeout_ring : (Instr.commandTimeout 257 0).wellFormed = false := by decide +kernel

theorem test_wf_thermal_sample : (Instr.thermalSample [] []).wellFormed = false ∧
    (Instr.thermalSample (List.replicate 96 0) (List.replicate 32 0)).wellFormed = true := by decide +kernel

theorem test_wf_rail : (Instr.regulatorPoll 12 true 0 0).wellFormed = false := by decide +kernel

theorem test_wf_ptp_frame : (Instr.mgmtPtpFrameRx 0 0 0 (List.replicate 13 0)).wellFormed = false := by decide +kernel

/-- No row of the table has bits (chapter 19 sends descriptors, not words). -/
theorem test_no_word_decodes : decodeTableWord 16 0x0202 = none := by decide

/-! ### The clock and the queue -/

/-- Sixteen root cycles are two ridge ticks (R226): one idle step from phase 7 advances the count. -/
theorem test_idle_ticks : let s := { updDev (fun d => { d with por := false }) s0 with clk := { s0.clk with phi := 7, ridge := 4 } }
    (match Sys2Proof.Machine.step s with
     | .next t => decide (t.clk.ridge = 5 ∧ t.clk.phi = 0)
     | _ => false) = true := by decide +kernel

theorem test_step_consumes : (match Sys2Proof.Machine.step { s0 with pending := [.pcieSurpriseDown, .railLoss] } with
    | .next t => decide (t.pending = [.railLoss])
    | _ => false) = true := by decide +kernel

/-! ### Tensor arithmetic (chapter 3) -/

/-- The E4M3 score of chapter 3: the three products sum exactly to 2^-9. -/
theorem test_chunk_is_exact : let c : TeCmd := { readTe 0 with aFmt := 3, bFmt := 3, k := 128 }
    c.chunkValue 0xFE017E 0x7E387E 0 0 0 = 0x3B000000 := by decide +kernel

/-- Chunks are added in order: 1.0 + 2^-24 + 2^-24 is 1.0 (R77). -/
theorem test_chunks_in_order : f32Add (f32Add 0x3F800000 0x33800000) 0x33800000 = 0x3F800000 ∧
    f32Add (f32Add 0x33800000 0x33800000) 0x3F800000 = 0x3F800001 := by decide +kernel

/-- The MXFP4 block of chapter 3: 17.5 under scales 0x85 and 0x7A is 35.0. -/
theorem test_mx_chunk : let c : TeCmd := { readTe 0 with aFmt := 15, bFmt := 15, k := 32 }
    isMx 15 = true ∧ c.chunkValue 0x97 0x25 0x85 0x7A 0 = 0x420C0000 := by decide +kernel

/-- The MXFP8 output block of chapter 3: 35.0 and 17.5 give scale 0x7C and elements 0x79 and 0x71. -/
theorem test_mx_output : (mxBlock 11 [] [f32 0x420C0000, f32 0x418C0000]).1 = 0x7C ∧
    (mxBlock 11 [] [f32 0x420C0000, f32 0x418C0000]).2.1 = [0x79, 0x71] := by decide +kernel

/-- The tensor command words of chapter 4. -/
theorem test_tensor_command_words : let c := readTe (0x00000080040000050033051 * 16 : BitVec 512)
    (c.aFmt, c.bFmt, c.dFmt) = (3, 3, 0) ∧ (c.m, c.n, c.k) = (5, 1024, 128) ∧ c.perRow = false := by decide +kernel

/-! ### Shifts, the signal engine and baseband (chapters 4 to 6) -/

/-- The components that the block-exponent example of chapter 4 moves with s = -2. -/
theorem test_move_shift : [32767, -6, -5, 6].map (roundHalfUp · 2) = [8192, -1, -1, 2] := by decide +kernel

/-- The twiddle factor of chapter 5: RC(128) = 16,383 and RS(128) = 201. -/
theorem test_twiddle_rom : twiddleRom 128 = (16383, 201) := by decide +kernel

/-- The narrowed product of z[20] in chapter 5. -/
theorem test_twiddle_product : let z := Cx.mul ⟨1000, -2000⟩ ⟨16383, 201⟩
    (z.re, z.im) = (16785000, -32565000) ∧ narrowTo 14 (-32768) 32767 z.re = (1024, false) ∧ narrowTo 14 (-32768) 32767 z.im = (-1988, false) := by
  decide +kernel

/-- Headrooms of Table 5.5. -/
theorem test_headroom : headroomOf 16 6000 = 2 ∧ headroomOf 16 9500 = 1 ∧ headroomOf 16 7400 = 2 := by decide +kernel

/-- The 16-QAM terms of chapter 6. -/
theorem test_demap_terms : llrTerms 4 49152 134400 (-48000) true = [134400, -48000, -36096, 50304] ∧ rhuq (2 ^ 30) (10 * 16384) = 6554 ∧
    [880857600, -314592000, -236573184, 329692416].map (roundHalfUp · 26) = [13, -5, -4, 5] := by decide +kernel

/-! ### Fronthaul and time (chapters 7 and 8) -/

/-- The PRB of chapter 7 starts with 0x04, 0x5E, 0x6C. -/
theorem test_compress : (compressPrb 9 (3000 :: -1234 :: List.replicate 22 0)).take 3 = [0x04, 0x5E, 0x6C] := by decide +kernel

/-- It lands with IN_SHIFT 2 as (752, -308) (Table 7.8). -/
theorem test_landed : ((decompressPrb 9 2 (compressPrb 9 (3000 :: -1234 :: List.replicate 22 0))).1.take 2) = [752, -308] := by decide +kernel

/-- The PTP time of ridge count 1,000,000,000,000,000 (chapter 8). -/
theorem test_ptp_time : ridgeToPtp 1000000000000000 0 = (316473445, 302083333, 21845) := by decide +kernel

/-- The locked commit of chapter 8: x = 3.5 ridge ticks, spacing 122,880,000. -/
theorem test_servo : let v : Servo := { Servo.reset with
      state := 2, enable := true, fresh := false, hasLast := true, lastAt := 0, i := -1407374884, w := -1407374884 }
    let t := servoCommit v 896 122880000 122880000
    (t.i, t.w) = (-1407500154, -1409504472) := by decide +kernel

/-! ### Memory (chapter 9) -/

/-- Device address 0x30_0001_2345 lies in set 8, channel 408, pseudo-channel 1. -/
theorem test_hatch : hatchSet 0x3000012345 = 8 ∧ hatchMember 0x3000012345 = 39 ∧ hatchChannel 0x3000012345 = 408 := by decide +kernel

/-- The column and the check bits of the word whose only nonzero symbol is d_5 = 0x3. -/
theorem test_check_bits : dataColumn 5 = (1, 0x5, 0x2, 0xE) ∧ checkBits 0x300000 = 0x6FBA := by decide +kernel

/-- Its data bits 20 and 23 flipped: symbol 5 is found with error 0x9. -/
theorem test_ecc_corrects : eccDecode (checkBits 0xA00000 ^^^ checkBits 0x300000) = .dataSym 5 9 ∧
    syndrome (checkBits 0xA00000 ^^^ checkBits 0x300000) = (0x9, 0xB, 0x1, 0x7) ∧ fixSymbol 0xA00000 5 9 = 0x300000 := by decide +kernel

/-! ### Collectives, the image and the mailbox (chapters 13, 19, 21) -/

/-- Three devices of two ranks form nodes; of two devices of three ranks, ranks 0 and 2 are reported (chapter 13). -/
theorem test_layout : ({ group0 2 with ranks := [0, 16384, 1, 16385, 2, 16386] } : Group).layoutFault = none ∧
    ({ group0 2 with ranks := [0, 16384, 32768, 1, 16385, 32769] } : Group).layoutFault = some (0, 2) := by decide +kernel

/-- The check value of R556 over "123456789". -/
theorem test_crc : imageCrc [0x31, 0x32, 0x33, 0x34, 0x35, 0x36, 0x37, 0x38, 0x39] = 0xCBF43926 := by decide +kernel

/-- SHA-256 of "abc" begins 0xBA7816BF (FIPS 180-4; the spec gives no vector of its own). -/
theorem test_sha : (sha256 [0x61, 0x62, 0x63]).take 4 = [0xBA, 0x78, 0x16, 0xBF] := by decide +kernel

/-- The words of the `PLATE_ADMIT` of chapter 19: opcode 0x0202 and handle 7. -/
theorem test_descriptor_words : let m := cmd 0x0202 [(16, 7)]
    fld (mbytes m) 0 4 = 0x0202 ∧ fld (mbytes m) 16 4 = 7 ∧ mfld m 16 2 = 7 := by decide +kernel

end Sys2Proof.Tests
end

