-- ==== Sys2Proof/Tests/Witness1.lean ====
section
/-!
SUPPORT. Witnesses of the statements: concrete states and operands that meet the hypotheses, clause by clause, for the mailbox commands of chapters
4, 6 to 8 and 14 (P: performs, D: declines, F: stays in flight).
-/
namespace Sys2Proof.Tests
open Sys2Proof Sys2Proof.Machine
set_option Elab.async false

theorem witness_qBind_P1 : Met (cmd 0x0801 [(32, 8191), (35, 1), (36, 0xFFFF), (38, 1), (40, 0xFFFF)]) (s0) .pf [(32, 10), (44, 8)] (fun m a => let r := (mbytes m).drop 32; fld r 0 2 < 8192 ∧ fld r 4 2 = 0xFFFF ∧
      fld r 6 2 ≠ 0 ∧ (fld r 8 2 < 512 ∨ fld r 8 2 = 0xFFFF) ∧ fld r 16 4 ≤ 1048575 ∧ (bitAt (fld r 3 1) 2 = true → fld r 2 1 = 0) ∧
      (bitAt (fld r 3 1) 2 = true ↔ fld r 3 1 % 4 = 0) ∧ (fld r 8 2 ≠ 0xFFFF → (a.qclass (fld r 8 2)).egress = 0xFFFF) ∧
      (a.queue (fld r 0 2)).holdsEntry = false) :=
  by decide +kernel

theorem witness_qBind_P2 : Met (cmd 0x0801 [(32, 8191), (35, 1), (36, 81), (38, 1), (40, 0xFFFF)]) (s0) .pf [(32, 10), (44, 8)] (fun m a => let r := (mbytes m).drop 32; let q := a.queue (fld r 0 2); fld r 0 2 < 8192 ∧
      fld r 4 2 < 82 ∧ fld r 6 2 ≠ 0 ∧ (fld r 8 2 < 512 ∨ fld r 8 2 = 0xFFFF) ∧
      fld r 16 4 ≤ 1048575 ∧ (fld r 4 2 < 8 → fld r 2 1 = 0) ∧ (bitAt (fld r 3 1) 2 = true → fld r 2 1 = 0) ∧
      (bitAt (fld r 3 1) 2 = true ↔ fld r 3 1 % 4 = 0) ∧ (fld r 8 2 ≠ 0xFFFF → (a.qclass (fld r 8 2)).egress = fld r 4 2) ∧
      (fld r 12 4 ≠ 0 → largestL (fld r 4 2) ≤ fld r 16 4) ∧
      (q.en = false ∨ (q.holdsEntry = false ∧ (q.fn ≠ fld r 2 1 ∨ q.egress ≠ fld r 4 2)))) :=
  by decide +kernel

theorem witness_qBind_P3 : Met (cmd 0x0801 [(32, 8191), (35, 1), (36, 81), (38, 1), (40, 0xFFFF)]) (s0.setQueue 8191 { Queue.reset with en := true, egress := 81 }) .pf [(32, 10), (44, 8)] (fun m a => let r := (mbytes m).drop 32; let q := a.queue (fld r 0 2); fld r 0 2 < 8192 ∧
      fld r 4 2 < 82 ∧ fld r 6 2 ≠ 0 ∧ (fld r 8 2 < 512 ∨ fld r 8 2 = 0xFFFF) ∧
      fld r 16 4 ≤ 1048575 ∧ (fld r 4 2 < 8 → fld r 2 1 = 0) ∧ (bitAt (fld r 3 1) 2 = true → fld r 2 1 = 0) ∧
      (bitAt (fld r 3 1) 2 = true ↔ fld r 3 1 % 4 = 0) ∧ (fld r 8 2 ≠ 0xFFFF → (a.qclass (fld r 8 2)).egress = fld r 4 2) ∧
      (fld r 12 4 ≠ 0 → largestL (fld r 4 2) ≤ fld r 16 4) ∧ q.en = true ∧ q.fn = fld r 2 1 ∧ q.egress = fld r 4 2) :=
  by decide +kernel

theorem witness_qUnbind_P1 : Met (cmd 0x0802 [(16, 8191)]) (s0) .pf [(16, 2)] (fun m a => mfld m 16 2 < 8192 ∧ (a.queue (mfld m 16 2)).holdsEntry = false) :=
  by decide +kernel

theorem witness_qUnbind_D1 : Met (cmd 0x0802 [(16, 8191)]) (s0.setQueue 8191 { Queue.reset with en := true, hasRing := true, pi := 1 }) .pf [(16, 2)] (fun m a => mfld m 16 2 < 8192 ∧ (a.queue (mfld m 16 2)).holdsEntry = true) :=
  by decide +kernel

theorem witness_qShaperSet_P1 : Met (cmd 0x0803 [(16, 8191), (24, 1048575)]) (s0.setQueue 8191 { Queue.reset with en := true }) .pf [(16, 2), (20, 8)] (fun m a => mfld m 16 2 < 8192 ∧ (a.queue (mfld m 16 2)).en = true ∧ mfld m 24 4 ≤ 1048575 ∧
      (mfld m 20 4 ≠ 0 → largestL (a.queue (mfld m 16 2)).egress ≤ mfld m 24 4)) :=
  by decide +kernel

theorem witness_qClassSet_P1 : Met (cmd 0x0804 [(16, 511), (18, 81), (20, 1), (28, 1048575)]) (s0) .pf [(16, 5), (24, 8)] (fun m a => mfld m 16 2 < 512 ∧ mfld m 18 2 < 82 ∧ mfld m 20 1 < 2 ∧ mfld m 28 4 ≤ 1048575 ∧
      (mfld m 24 4 ≠ 0 → largestL (mfld m 18 2) ≤ mfld m 28 4) ∧
      ((a.qclass (mfld m 16 2)).egress = mfld m 18 2 ∨ a.traf.queues.any (fun e => e.2.en && e.2.cls == mfld m 16 2) = false)) :=
  by decide +kernel

theorem witness_policerSet_P1 : Met (cmd 0x0805 [(16, 1), (17, 1), (18, 16383)]) (s0) .pf [(16, 12)] (fun m a => mfld m 17 1 < 2 ∧ mfld m 24 4 ≤ 1048575 ∧
      ((mfld m 16 1 = 0 ∧ mfld m 18 2 < 8192 ∧ (Tab.get Stream.reset a.rad.streams (mfld m 18 2)).record ≠ [] ∧
          fld (Tab.get Stream.reset a.rad.streams (mfld m 18 2)).record 1 1 = 0) ∨ (mfld m 16 1 = 1 ∧ mfld m 18 2 < 16384))) :=
  by decide +kernel

theorem witness_stippleConfig_P1 : Met (cmd 0x0806 [(16, 1), (17, 27), (18, 8191), (20, 1), (22, 16)]) (withRange 0 1) .pf [(16, 7), (24, 8)] (fun m a => mfld m 16 1 < 2 ∧ 10 ≤ mfld m 17 1 ∧ mfld m 17 1 ≤ 27 ∧ mfld m 20 2 ≠ 0 ∧
      mfld m 18 2 + mfld m 20 2 ≤ 8192 ∧ 16 ≤ mfld m 22 1 ∧ mfld m 22 1 ≤ 30 ∧ mfld m 24 8 % 65536 = 0 ∧
      mfld m 24 8 + 2 ^ mfld m 22 1 ≤ hbmEnd ∧
      (∀ i < 2 ^ mfld m 22 1 / 65536, (a.mem.frame (mfld m 24 8 / 65536 + i)).owner = 0) ∧
      3 * ceilDiv (32 + 8 * mfld m 20 2) 64 ≤ 2 * 2 ^ mfld m 17 1) :=
  by decide +kernel

theorem witness_qQuery_P1 : Met (cmd 0x0807 [(16, 8191)]) (s0) .own [(16, 2)] (fun m a => mfld m 16 2 < 8192 ∧
      (issuer m = 0 ∨ ((a.queue (mfld m 16 2)).en = true ∧ (a.queue (mfld m 16 2)).fn = issuer m))) :=
  by decide +kernel

theorem witness_qRingSet_P1 : Met (cmd 0x0808 [(16, 8191), (19, 16), (52, 0xFFFF)]) (s0.setQueue 8191 { Queue.reset with en := true }) .own [(16, 4), (24, 36)] (fun m a => let r := (mbytes m).drop 16; let q := a.queue (fld r 0 2); fld r 0 2 < 8192 ∧
      q.en = true ∧ q.fn = issuer m ∧ fld r 2 1 < 2 ∧ 6 ≤ fld r 3 1 ∧ fld r 3 1 ≤ 16 ∧
      fld r 8 8 % 4096 = 0 ∧ fld r 16 8 % 64 = 0 ∧ (fld r 2 1 = 1 → q.egress = 80) ∧
      ((fld r 24 8 = 0 ∧ fld r 32 4 = 0) ∨ (q.egress = 81 ∧ fld r 24 8 % 256 = 0 ∧ isPow2Between 16 28 (fld r 32 4) = true ∧
        targetOk a q (fld r 24 8) (fld r 32 4) = true)) ∧
      (fld r 36 2 ≠ 0xFFFF → fld r 36 2 < (a.fn q.fn).vectors) ∧ q.holdsEntry = false) :=
  by decide +kernel

theorem witness_plateAdmit_P1 : Met (cmd 0x0202 [(16, 1)]) (s0.setPlate 1 (some (plate0 3 0))) .own [(16, 2), (24, 8)] (fun m a => ∃ h p, namedPlate m a = some (h, p) ∧ p.state = 0 ∧
      (mfld m 24 8 = 0 ∨ a.epochNow + 2 ≤ mfld m 24 8) ∧
      (p.kind = 1 → (plateList a).any (fun q => q.2.kind == 1 && q.2.admitted) = false) ∧
      (p.isRan = true ∨ a.flt.probation = false) ∧
      (let lower := max (if mfld m 24 8 = 0 then a.epochNow + 2 else mfld m 24 8)
        (if p.kind = 1 then clearedEpoch a (changingEpochs p.claims []) else 0)
       admissionCheck a h (if mfld m 24 8 = 0 then earliestEpoch a h lower p else lower) p none = none)) :=
  ⟨by decide +kernel, 1, plate0 3 0, by decide +kernel⟩

theorem witness_plateStart_P1 : Met (cmd 0x0203 [(16, 1)]) (s0.setPlate 1 (some (plate0 3 1))) .own [(16, 3), (20, 2), (24, 16)] (fun m a => ∃ h p, namedPlate m a = some (h, p) ∧ p.kind ≠ 1 ∧
      ((mfld m 18 1 = 0 ∧ mfld m 20 2 = 0) ∨ (mfld m 18 1 = 1 ∧ (Tab.get none a.fab.groups (mfld m 20 2)).map Group.owner = some p.owner)) ∧
      ((p.state = 1 ∧ p.startPending = false) ∨ (p.state = 2 ∧ p.held = true)) ∧ (p.isRan = true ∨ a.flt.probation = false) ∧
      (p.kind = 2 → saveAreaOk a p = true)) :=
  ⟨by decide +kernel, 1, plate0 3 1, by decide +kernel⟩

theorem witness_plateSwap_P1 : Met (cmd 0x0204 [(16, 1)]) ((s0.setPlate 1 (some (plate0 1 0))).setPlate 2 (some (plate0 1 1))) .pf [(16, 2), (24, 8)] (fun m a => ∃ h p oh old, namedPlate m a = some (h, p) ∧ p.state = 0 ∧ p.kind = 1 ∧
      (mfld m 24 8 = 0 ∨ a.epochNow + 2 ≤ mfld m 24 8) ∧ a.plates.swap = none ∧ oh ≠ h ∧
      (plateList a).find? (fun q => q.2.kind == 1 && (q.2.state == 1 || q.2.state == 2)) = some (oh, old) ∧
      admissionCheck a h (max (max (if mfld m 24 8 = 0 then a.epochNow + 2 else mfld m 24 8) old.firstEpoch)
        (clearedEpoch a (changingEpochs p.claims old.claims))) p (some oh) = none) :=
  ⟨by decide +kernel, 1, plate0 1 0, 2, plate0 1 1, by decide +kernel⟩

theorem witness_plateRetire_P1 : Met (cmd 0x0205 [(16, 1)]) (s0.setPlate 1 (some (plate0 1 1))) .own [(16, 2), (24, 8)] (fun m a => ∃ h p, namedPlate m a = some (h, p) ∧
      (p.state ≠ 0 → p.kind = 1 → a.plates.swap = none)) :=
  ⟨by decide +kernel, 1, plate0 1 1, by decide +kernel⟩

theorem witness_plateQuery_P1 : Met (cmd 0x0206 [(16, 1)]) (s0.setPlate 1 (some (plate0 1 1))) .own [(16, 2)] (fun m a => ∃ h p, namedPlate m a = some (h, p)) :=
  ⟨by decide +kernel, 1, plate0 1 1, by decide +kernel⟩

theorem witness_plateAdmit_D1 : Met (cmd 0x0202 [(16, 1)]) (s0.setPlate 1 (some { plate0 3 0 with owner := 1 })) .own [(16, 2), (24, 8)] (fun m a => namedPlate m a = none) :=
  by decide +kernel

theorem witness_plateStart_P1_group : Met (cmd 0x0203 [(16, 1), (18, 1), (20, 255)]) ((groupState 4).setPlate 1 (some (plate0 3 1))) .own [(16, 3), (20, 2), (24, 16)]
    (fun m a => mfld m 18 1 = 1 ∧ (Tab.get none a.fab.groups (mfld m 20 2)).map Group.owner = some (plate0 3 1).owner) :=
  by decide +kernel

theorem witness_plateStart_D1 : Met (cmd 0x0203 [(16, 1)]) (s0) .own [(16, 3), (20, 2), (24, 16)] (fun m a => namedPlate m a = none ∧
    Tab.get 0 a.plates.retired (mfld m 16 2) ≠ issuer m + 1) :=
  by decide +kernel

theorem witness_plateStart_D2 : Met (cmd 0x0203 [(16, 1)]) ({ s0 with plates := { s0.plates with retired := [(1, 1)] } }) .own [(16, 3), (20, 2), (24, 16)]
    (fun m a => namedPlate m a = none ∧ Tab.get 0 a.plates.retired (mfld m 16 2) = issuer m + 1) :=
  by decide +kernel

theorem witness_plateSwap_D1 : Met (cmd 0x0204 [(16, 1)]) (s0) .pf [(16, 2), (24, 8)] (fun m a => namedPlate m a = none) :=
  by decide +kernel

theorem witness_plateRetire_D1 : Met (cmd 0x0205 [(16, 1)]) (s0) .own [(16, 2), (24, 8)] (fun m a => namedPlate m a = none) :=
  by decide +kernel

theorem witness_plateQuery_D1 : Met (cmd 0x0206 [(16, 1)]) (s0) .own [(16, 2)] (fun m a => namedPlate m a = none) :=
  by decide +kernel

theorem witness_ctxSaveSet_P1 : Met (cmd 0x0905 [(16, 0), (24, 65535), (32, 1)]) (withRange 0 1) .pf [(16, 1), (24, 16)] (fun m a => mfld m 32 8 ≠ 0 ∧
      hatchSet (mfld m 24 8) = hatchSet (mfld m 24 8 + mfld m 32 8 - 1) ∧
      a.mem.ranges.any (fun r => r.ctx == mfld m 16 1 && decide (r.base ≤ mfld m 24 8 ∧ mfld m 24 8 + mfld m 32 8 ≤ r.base + r.len)) = true ∧
      (plateList a).any (fun q => q.2.owner == mfld m 16 1 && q.2.kind == 2 && q.2.state == 2) = false ∧ ctxHeld a (mfld m 16 1) = false) :=
  by decide +kernel

theorem witness_ctxPreempt_F2 : Met (cmd 0x0906 [(16, 255), (17, 1)]) (s0.setPlate 1 (some { plate0 2 2 with owner := 255 })) .pf [(16, 2)] (fun m a => mfld m 17 1 ≤ 1 ∧ ctxHeld a (mfld m 16 1) = false) :=
  by decide +kernel

theorem witness_ctxPreempt_F1 : Met (cmd 0x0906 [(16, 255), (17, 1)]) (s0) .pf [(16, 2)] (fun m a => mfld m 17 1 ≤ 1 ∧ ctxHeld a (mfld m 16 1) = false ∧
      groupsQuiet (mfld m 16 1) a = true ∧ ∀ k ∈ residentCores a (mfld m 16 1), (a.coreAt k).live = none) :=
  by decide +kernel

theorem witness_ctxPreempt_D1 : Met (cmd 0x0906 [(16, 255)]) (s0.setCtx 255 { Ctx.reset with state := 2 }) .pf [(16, 2)] (fun m a => mfld m 17 1 ≤ 1 ∧ ctxHeld a (mfld m 16 1) = true) :=
  by decide +kernel

theorem witness_ctxResume_P1 : Met (cmd 0x0907 [(16, 255)]) (s0.setCtx 255 { Ctx.reset with state := 4 }) .pf [(16, 1)] (fun m a => (a.ctx (mfld m 16 1)).state = 2 ∨ (a.ctx (mfld m 16 1)).state = 3 ∨
      (a.ctx (mfld m 16 1)).state = 4) :=
  by decide +kernel

theorem witness_ctxResume_D1 : Met (cmd 0x0907 [(16, 255)]) (s0.setCtx 255 { Ctx.reset with state := 1 }) .pf [(16, 1)] (fun m a => (a.ctx (mfld m 16 1)).state = 0 ∨ (a.ctx (mfld m 16 1)).state = 1) :=
  by decide +kernel

theorem witness_ctxQuery_P1 : Met (cmd 0x0908 [(16, 255)]) (s0) .pf [(16, 1)] (fun _ _ => True) :=
  by decide +kernel

theorem witness_timePortConfig_P1 : Met (cmd 0x0701 [(16, 9), (17, 1), (18, 8191), (20, 8191)]) (s0) .pf [(16, 6), (24, 6)] (fun m a => mfld m 16 1 < 10 ∧ mfld m 17 1 < 2 ∧ mfld m 18 2 < 8192 ∧ mfld m 20 2 < 8192 ∧
      (mfld m 17 1 = 1 → (a.queue (mfld m 18 2)).fn = 0 ∧ (a.queue (mfld m 20 2)).fn = 0)) :=
  by decide +kernel

theorem witness_timePortConfig_D1 : Met (cmd 0x0701 [(16, 10)]) (s0) .pf [(16, 6), (24, 6)] (fun m a => 10 ≤ mfld m 16 1 ∨ 2 ≤ mfld m 17 1 ∨ 8192 ≤ mfld m 18 2 ∨ 8192 ≤ mfld m 20 2 ∨
    (mfld m 17 1 = 1 ∧ ((a.queue (mfld m 18 2)).fn ≠ 0 ∨ (a.queue (mfld m 20 2)).fn ≠ 0))) :=
  by decide +kernel

theorem witness_timeServoConfig_P1 : Met (cmd 0x0702 [(16, 1), (17, 31), (18, 31), (19, 8), (20, 1), (22, 1), (24, 200), (28, 60000)]) (s0) .pf [(16, 9), (28, 2), (32, 8)] (fun m _ => mfld m 16 1 < 2 ∧ mfld m 17 1 < 32 ∧ mfld m 18 1 < 32 ∧
      8 ≤ mfld m 19 1 ∧ mfld m 20 2 ≠ 0 ∧ mfld m 22 2 ≠ 0 ∧ mfld m 24 1 ≠ 0 ∧ mfld m 24 1 ≤ 200 ∧ 100 ≤ mfld m 28 2 ∧ mfld m 28 2 ≤ 60000 ∧
      signed 64 (mfld m 32 8) ≤ servoBound (mfld m 24 1) ∧ -(servoBound (mfld m 24 1)) ≤ signed 64 (mfld m 32 8)) :=
  by decide +kernel

theorem witness_timeServoConfig_D1 : Met (cmd 0x0702 [(16, 1), (17, 31), (18, 31), (19, 7), (20, 1), (22, 1), (24, 200), (28, 60000)]) (s0) .pf [(16, 9), (28, 2), (32, 8)] (fun m _ => 2 ≤ mfld m 16 1 ∨ 32 ≤ mfld m 17 1 ∨ 32 ≤ mfld m 18 1 ∨
      mfld m 19 1 < 8 ∨ mfld m 20 2 = 0 ∨ mfld m 22 2 = 0 ∨ mfld m 24 1 = 0 ∨ 200 < mfld m 24 1 ∨ mfld m 28 2 < 100 ∨ 60000 < mfld m 28 2 ∨
      servoBound (mfld m 24 1) < signed 64 (mfld m 32 8) ∨ signed 64 (mfld m 32 8) < -(servoBound (mfld m 24 1))) :=
  by decide +kernel

theorem witness_timeRearm_P1 : Met (cmd 0x0703 []) (s0) .pf [] (fun _ a => stepBlockers a = false) :=
  by decide +kernel

theorem witness_timeRearm_D1 : Met (cmd 0x0703 []) (s0.setPlate 1 (some (plate0 3 1))) .pf [] (fun _ a => (∃ e ∈ a.plates.store, ∃ p, e.2 = some p ∧ 1 ≤ p.state ∧ p.state ≤ 3) ∨
    (∃ e ∈ a.rad.cells, 2 ≤ e.2.state)) :=
  ⟨by decide +kernel, Or.inl ⟨(1, some (plate0 3 1)), by decide +kernel, plate0 3 1, by decide +kernel⟩⟩

theorem witness_timeSynce_P1 : Met (cmd 0x0704 [(16, 7)]) (s0) .pf [(16, 1)] (fun m _ => mfld m 16 1 < 8 ∨ mfld m 16 1 = 0xFF) :=
  by decide +kernel

theorem witness_timeSynce_D1 : Met (cmd 0x0704 [(16, 8)]) (s0) .pf [(16, 1)] (fun m _ => 8 ≤ mfld m 16 1 ∧ mfld m 16 1 ≠ 0xFF) :=
  by decide +kernel

theorem witness_timeQuery_P1 : Met (cmd 0x0705 []) (s0) .pf [] (fun _ _ => True) :=
  by decide +kernel

theorem witness_cellConfig_P1 : Met (sent 0 0x0601 [(16, 383)] (bytesOf 256 [(0, 1), (1, 1), (2, 1), (4, 273), (6, 1007), (8, 2000000), (24, 1), (26, 1)])) (ranState) .pf [(16, 2), (24, 8)] (fun m a =>
      let r := sliceBytes (mdata m) 0 256
      let c := { a.cell (mfld m 16 2) with record := r, state := 1 }
      mfld m 16 2 < 384 ∧ (a.cell (mfld m 16 2)).engaged = false ∧ cellRecordOk r = true ∧ ranHolds a c.harqBase c.harqLen = true ∧
      harqClash a (mfld m 16 2) c = false ∧ otherLoads a (mfld m 16 2) + c.load ≤ 262144) :=
  by decide +kernel

theorem witness_cellConfig_D1 : Met (cmd 0x0601 [(16, 383)]) (updCell 383 (fun c => { c with state := 3 }) s0) .pf [(16, 2), (24, 8)] (fun m a => mfld m 16 2 < 384 ∧ ((a.cell (mfld m 16 2)).state = 2 ∨
    (a.cell (mfld m 16 2)).state = 3 ∨ (a.cell (mfld m 16 2)).change.isSome = true)) :=
  by decide +kernel

theorem witness_cellConfig_D2 : Met (cmd 0x0601 [(16, 384)]) (s0) .pf [(16, 2), (24, 8)] (fun m a => 384 ≤ mfld m 16 2 ∨ ((a.cell (mfld m 16 2)).engaged = false ∧
    cellRecordOk (sliceBytes (mdata m) 0 256) = false)) :=
  by decide +kernel

theorem witness_cellStop_P1 : Met (cmd 0x0603 [(16, 383), (18, 1)]) (updCell 383 (fun c => { c with state := 3 }) s0) .pf [(16, 3), (24, 8)] (fun m a => mfld m 16 2 < 384 ∧ mfld m 18 1 < 2 ∧ (a.cell (mfld m 16 2)).change = none ∧
      ((a.cell (mfld m 16 2)).state = 2 ∨ (a.cell (mfld m 16 2)).state = 3)) :=
  by decide +kernel

theorem witness_cellStop_D1 : Met (cmd 0x0603 [(16, 383), (18, 1)]) (updCell 383 (fun c => { c with state := 3, change := some (1, 0) }) s0) .pf [(16, 3), (24, 8)] (fun m a => mfld m 16 2 < 384 ∧ mfld m 18 1 < 2 ∧
    (a.cell (mfld m 16 2)).change.isSome = true) :=
  by decide +kernel

theorem witness_cellQuery_P1 : Met (cmd 0x0606 [(16, 383)]) (s0) .pf [(16, 2)] (fun m _ => mfld m 16 2 < 384) :=
  by decide +kernel

theorem witness_cellQuery_D1 : Met (cmd 0x0606 [(16, 384)]) (s0) .pf [(16, 2)] (fun m _ => 384 ≤ mfld m 16 2) :=
  by decide +kernel

theorem witness_fhPortConfig_P1 : Met (cmd 0x0610 [(16, 7), (18, 9216), (20, 8191), (32, 7)]) (s0) .pf [(16, 1), (18, 4), (24, 6), (32, 1)] (fun m a => mfld m 16 1 < 8 ∧ 1518 ≤ mfld m 18 2 ∧ mfld m 18 2 ≤ 9216 ∧
      mfld m 20 2 < 8192 ∧ mfld m 32 1 < 8 ∧ ((a.queue (mfld m 20 2)).en = true → (a.queue (mfld m 20 2)).fn = 0) ∧
      ∀ e ∈ a.rad.streams, e.2.record ≠ [] → e.2.port = mfld m 16 1 →
        (a.cell e.2.cell).state ≠ 2 ∧ (a.cell e.2.cell).state ≠ 3) :=
  by decide +kernel

theorem witness_fhPortConfig_D1 : Met (cmd 0x0610 [(16, 7), (18, 9217), (20, 8191), (32, 7)]) (s0) .pf [(16, 1), (18, 4), (24, 6), (32, 1)] (fun m a => 8 ≤ mfld m 16 1 ∨ mfld m 18 2 < 1518 ∨ 9216 < mfld m 18 2 ∨
    8192 ≤ mfld m 20 2 ∨ 8 ≤ mfld m 32 1 ∨ ((a.queue (mfld m 20 2)).en = true ∧ (a.queue (mfld m 20 2)).fn ≠ 0)) :=
  by decide +kernel

theorem witness_fhPortConfig_D2 : Met (cmd 0x0610 [(16, 7), (18, 1518)]) (updCell 0 (fun c => { c with state := 2 }) (updStream 0 (fun x => { x with record := [7] }) s0)) .pf [(16, 1), (18, 4), (24, 6), (32, 1)] (fun m a => mfld m 16 1 < 8 ∧ 1518 ≤ mfld m 18 2 ∧ mfld m 18 2 ≤ 9216 ∧
    mfld m 20 2 < 8192 ∧ mfld m 32 1 < 8 ∧ ((a.queue (mfld m 20 2)).en = true → (a.queue (mfld m 20 2)).fn = 0) ∧ ∃ e ∈ a.rad.streams, e.2.record ≠ [] ∧ e.2.port = mfld m 16 1 ∧
      ((a.cell e.2.cell).state = 2 ∨ (a.cell e.2.cell).state = 3)) :=
  by decide +kernel

/-- A stream record of port 7, direction 1 and cell 382 that passes every check. -/
def streamRecord : List Byte := bytesOf 64 [(0, 7), (1, 1), (2, 382), (23, 1)]

theorem witness_fhStreamConfig_P1 : Met (sent 0 0x0611 [(16, 0)] streamRecord) (ranState) .pf [(16, 2), (24, 8)] (fun m a => let x : Stream := { Stream.reset with record := sliceBytes (mdata m) 0 64 }
      mfld m 16 2 < 6144 ∧ Sys2Proof.Machine.streamOk a (mfld m 16 2) x = true ∧ ranClaims a 7 (mfld m 16 2) = true ∧ (a.cell x.cell).engaged = false ∧
      ((a.stream (mfld m 16 2)).record ≠ [] → (a.cell (a.stream (mfld m 16 2)).cell).engaged = false)) :=
  by decide +kernel

theorem witness_fhStreamConfig_D2 : Met (sent 0 0x0611 [(16, 0)] streamRecord) (updCell 382 (fun c => { c with state := 2 }) ranState) .pf [(16, 2), (24, 8)] (fun m a => let x : Stream := { Stream.reset with record := sliceBytes (mdata m) 0 64 }
    mfld m 16 2 < 6144 ∧ Sys2Proof.Machine.streamOk a (mfld m 16 2) x = true ∧ ranClaims a 7 (mfld m 16 2) = true ∧
    ((a.cell x.cell).engaged = true ∨ ((a.stream (mfld m 16 2)).record ≠ [] ∧ (a.cell (a.stream (mfld m 16 2)).cell).engaged = true))) :=
  by decide +kernel

theorem witness_fhStreamConfig_D1 : Met (cmd 0x0611 [(16, 6144)]) (s0) .pf [(16, 2), (24, 8)] (fun m a => 6144 ≤ mfld m 16 2 ∨
    Sys2Proof.Machine.streamOk a (mfld m 16 2) { Stream.reset with record := sliceBytes (mdata m) 0 64 } = false) :=
  by decide +kernel

theorem witness_fhCellTiming_P1 : Met (cmd 0x0612 [(16, 383), (36, 196608), (40, 196608)]) (updCell 383 (fun c => { c with record := bytesOf 256 [(8, 2000000)] }) s0) .pf [(16, 2), (32, 28)] (fun m a => mfld m 16 2 < 384 ∧
      fhTimingOk { a.cell (mfld m 16 2) with timing := sliceBytes (mbytes m) 32 28 } = true ∧ (a.cell (mfld m 16 2)).engaged = false) :=
  by decide +kernel

theorem witness_fhCellTiming_D1 : Met (cmd 0x0612 [(16, 383), (36, 196609), (40, 196608)]) (updCell 383 (fun c => { c with record := bytesOf 256 [(8, 2000000)] }) s0) .pf [(16, 2), (32, 28)] (fun m a => 384 ≤ mfld m 16 2 ∨
    fhTimingOk { a.cell (mfld m 16 2) with timing := sliceBytes (mbytes m) 32 28 } = false) :=
  by decide +kernel

theorem witness_fhMirror_P1 : Met (cmd 0x0613 [(16, 383), (18, 2), (19, 20)]) (ranState) .pf [(16, 4), (24, 8)] (fun m a => mfld m 16 2 < 384 ∧ mfld m 18 1 < 3 ∧
      (mfld m 18 1 ≠ 0 → mirrorRingOk a (mfld m 18 1) (mfld m 19 1) (mfld m 24 8) = true) ∧ (a.cell (mfld m 16 2)).engaged = false) :=
  by decide +kernel

theorem witness_fhMirror_D1 : Met (cmd 0x0613 [(16, 383), (18, 3)]) (s0) .pf [(16, 4), (24, 8)] (fun m a => 384 ≤ mfld m 16 2 ∨ 3 ≤ mfld m 18 1 ∨
    (mfld m 18 1 ≠ 0 ∧ mirrorRingOk a (mfld m 18 1) (mfld m 19 1) (mfld m 24 8) = false)) :=
  by decide +kernel

theorem witness_fhQuery_P1 : Met (cmd 0x0614 [(16, 1), (18, 6143)]) (s0) .pf [(16, 1), (18, 2)] (fun m _ => (mfld m 16 1 = 0 ∧ mfld m 18 2 < 8) ∨ (mfld m 16 1 = 1 ∧ mfld m 18 2 < 6144)) :=
  by decide +kernel

theorem witness_fhQuery_D1 : Met (cmd 0x0614 [(16, 0), (18, 8)]) (s0) .pf [(16, 1), (18, 2)] (fun m _ => 2 ≤ mfld m 16 1 ∨ (mfld m 16 1 = 0 ∧ 8 ≤ mfld m 18 2)) :=
  by decide +kernel

end Sys2Proof.Tests
end

