-- ==== Sys2Proof/Tests/Witness2.lean ====
section
/-!
SUPPORT. Witnesses of the statements: concrete states and operands that meet the hypotheses, clause by clause, for the mailbox commands of chapters
9 to 13, 15, 17, 18, 20 and 21 (P: performs, D: declines, F: stays in flight).
-/
namespace Sys2Proof.Tests
open Sys2Proof Sys2Proof.Machine
set_option Elab.async false

theorem witness_memQuotaSet_P1 : Met (cmd 0x0301 [(16, 255), (24, 823559979008)]) (s0) .pf [(16, 2), (24, 8)] (fun m a => mfld m 17 1 < 3 ∧
      ((List.range 256).filter (· != mfld m 16 1)).foldl (fun x k => x + (a.quota k (mfld m 17 1)).limit) 0 + mfld m 24 8 ≤
        tierCapacity a (mfld m 17 1)) :=
  by decide +kernel

theorem witness_memQuotaSet_D1 : Met (cmd 0x0301 [(16, 255), (24, 823559979009)]) (s0) .pf [(16, 2), (24, 8)] (fun m a => mfld m 17 1 < 3 ∧ tierCapacity a (mfld m 17 1) <
    ((List.range 256).filter (· != mfld m 16 1)).foldl (fun x k => x + (a.quota k (mfld m 17 1)).limit) 0 + mfld m 24 8) :=
  by decide +kernel

theorem witness_memAlloc_P1 : Met (cmd 0x0302 [(16, 31), (24, 65536)]) (s0.setQuota 0 0 ⟨65536, 0⟩) .own [(16, 1), (24, 8)] (fun m a => mfld m 16 1 < 32 ∧ a.mem.setRan.getLsbD (mfld m 16 1) = false ∧
      mfld m 24 8 ≠ 0 ∧ mfld m 24 8 % 65536 = 0 ∧ overQuota a (issuer m) 0 (mfld m 24 8) = false ∧
      (findRange a (mfld m 16 1) (mfld m 24 8 / 65536) false).isSome = true) :=
  by decide +kernel

theorem witness_memAlloc_F1 : Met (cmd 0x0302 [(16, 31), (24, 0x5C0000000)]) (updMem (fun m => { m with frames := [(0xBA0000, ⟨257, 0, false⟩)], scrubPending := [0xBA0000] }) (s0.setQuota 0 0 ⟨0x5C0000000, 0⟩)) .own [(16, 1), (24, 8)] (fun m a => mfld m 16 1 < 32 ∧ a.mem.setRan.getLsbD (mfld m 16 1) = false ∧
      mfld m 24 8 ≠ 0 ∧ mfld m 24 8 % 65536 = 0 ∧ overQuota a (issuer m) 0 (mfld m 24 8) = false ∧
      findRange a (mfld m 16 1) (mfld m 24 8 / 65536) false = none ∧ (findRange a (mfld m 16 1) (mfld m 24 8 / 65536) true).isSome = true) :=
  by decide +kernel

theorem witness_memAlloc_D1 : Met (cmd 0x0302 [(16, 31), (24, 65536)]) (s0) .own [(16, 1), (24, 8)] (fun m a => mfld m 16 1 < 32 ∧ a.mem.setRan.getLsbD (mfld m 16 1) = false ∧
    mfld m 24 8 ≠ 0 ∧ mfld m 24 8 % 65536 = 0 ∧ overQuota a (issuer m) 0 (mfld m 24 8) = true) :=
  by decide +kernel

theorem witness_memAlloc_D2 : Met (cmd 0x0302 [(16, 31), (24, 0x5C0000000)]) (updMem (fun m => { m with frames := [(0xBA0000, ⟨257, 0, false⟩)] }) (s0.setQuota 0 0 ⟨0x5C0000000, 0⟩)) .own [(16, 1), (24, 8)] (fun m a => mfld m 16 1 < 32 ∧ a.mem.setRan.getLsbD (mfld m 16 1) = false ∧
    mfld m 24 8 ≠ 0 ∧ mfld m 24 8 % 65536 = 0 ∧ overQuota a (issuer m) 0 (mfld m 24 8) = false ∧
    findRange a (mfld m 16 1) (mfld m 24 8 / 65536) false = none ∧ findRange a (mfld m 16 1) (mfld m 24 8 / 65536) true = none) :=
  by decide +kernel

theorem witness_memAlloc_D3 : Met (cmd 0x0302 [(16, 32), (24, 65536)]) (s0) .own [(16, 1), (24, 8)] (fun m a => 32 ≤ mfld m 16 1 ∨ mfld m 24 8 = 0 ∨ mfld m 24 8 % 65536 ≠ 0 ∨
    a.mem.setRan.getLsbD (mfld m 16 1) = true) :=
  by decide +kernel

theorem witness_memFree_P1 : Met (cmd 0x0303 [(16, 0)]) (withRange 0 1) .own [(16, 8)] (fun m a => ∃ r, a.mem.ranges.find? (fun r => r.ctx == issuer m && r.base == mfld m 16 8) = some r ∧
      rangeInUse a r = false) :=
  ⟨by decide +kernel, ⟨0, 0, 65536⟩, by decide +kernel⟩

theorem witness_memFree_D1 : Met (cmd 0x0303 [(16, 0)]) (updMem (fun m => { m with pools := [(0, { Pool.none with frames := 1 })] }) (withRange 0 1)) .own [(16, 8)] (fun m a => ∃ r, a.mem.ranges.find? (fun r => r.ctx == issuer m && r.base == mfld m 16 8) = some r ∧
      rangeInUse a r = true) :=
  ⟨by decide +kernel, ⟨0, 0, 65536⟩, by decide +kernel⟩

theorem witness_memFree_D2 : Met (cmd 0x0303 [(16, 65536)]) (withRange 0 1) .own [(16, 8)] (fun m a => ∀ r ∈ a.mem.ranges, ¬ (r.ctx = issuer m ∧ r.base = mfld m 16 8)) :=
  by decide +kernel

theorem witness_memLend_P1 : Met (cmd 0x0309 [(16, 31), (24, 0xBFBFFF0000), (32, 65536)]) (s0) .pf [(16, 1), (24, 16)] (fun m a => mfld m 16 1 < 32 ∧ a.mem.setRan.getLsbD (mfld m 16 1) = false ∧
      mfld m 32 8 ≠ 0 ∧ mfld m 32 8 % 65536 = 0 ∧ mfld m 24 8 % 65536 = 0 ∧ (setFrames (mfld m 16 1)).1 ≤ mfld m 24 8 / 65536 ∧
      mfld m 24 8 + mfld m 32 8 ≤ 65536 * (setFrames (mfld m 16 1)).2 ∧
      (List.range 256).foldl (fun x k => x + (a.quota k 0).limit) 0 + lentBytes a + mfld m 32 8 ≤ tierCapacity a 0 ∧
      (∀ f ∈ blockedFrames a false, f < mfld m 24 8 / 65536 ∨ (mfld m 24 8 + mfld m 32 8) / 65536 ≤ f)) :=
  by decide +kernel

theorem witness_memLend_D1 : Met (cmd 0x0309 [(16, 31), (24, 0xBFBFFF0000), (32, 65536)]) (updMem (fun m => { m with frames := [(0xBFBFFF, ⟨257, 0, false⟩)] }) s0) .pf [(16, 1), (24, 16)] (fun m a => mfld m 16 1 < 32 ∧ a.mem.setRan.getLsbD (mfld m 16 1) = false ∧
      mfld m 32 8 ≠ 0 ∧ mfld m 32 8 % 65536 = 0 ∧ mfld m 24 8 % 65536 = 0 ∧ (setFrames (mfld m 16 1)).1 ≤ mfld m 24 8 / 65536 ∧
      mfld m 24 8 + mfld m 32 8 ≤ 65536 * (setFrames (mfld m 16 1)).2 ∧
      (tierCapacity a 0 < (List.range 256).foldl (fun x k => x + (a.quota k 0).limit) 0 + lentBytes a + mfld m 32 8 ∨
        ∃ f ∈ blockedFrames a false, mfld m 24 8 / 65536 ≤ f ∧ f < (mfld m 24 8 + mfld m 32 8) / 65536)) :=
  by decide +kernel

theorem witness_memQuery_P1 : Met (cmd 0x030B [(16, 255)]) (s0) .own [(16, 1)] (fun m _ => issuer m = 0 ∨ issuer m = mfld m 16 1) :=
  by decide +kernel

theorem witness_memQuery_D1 : Met (sent 1 0x030B [(16, 2)] []) (s0) .own [(16, 1)] (fun m _ => issuer m ≠ 0 ∧ issuer m ≠ mfld m 16 1) :=
  by decide +kernel

theorem witness_tierRegionCreate_P1 : Met (cmd 0x0304 [(16, 1)]) (s0.setQuota 0 0 ⟨65536, 0⟩) .own [(16, 6)] (fun m a => mfld m 16 4 ≠ 0 ∧ mfld m 20 1 < 3 ∧ mfld m 21 1 < 2 ∧
      (createRegion (issuer m) (mfld m 16 4) (mfld m 20 1) (bitAt (mfld m 21 1) 0) none a).1 = stOk) :=
  by decide +kernel

theorem witness_tierRegionCreate_D1 : Met (cmd 0x0304 [(16, 1), (20, 3)]) (s0) .own [(16, 6)] (fun m _ => mfld m 16 4 = 0 ∨ 3 ≤ mfld m 20 1 ∨ 2 ≤ mfld m 21 1) :=
  by decide +kernel

theorem witness_tierRegionCreate_D2 : Met (cmd 0x0304 [(16, 1), (20, 2)]) (s0) .own [(16, 6)] (fun m a =>
   let st := stNotReady
   mfld m 16 4 ≠ 0 ∧ mfld m 20 1 < 3 ∧ mfld m 21 1 < 2 ∧
    (createRegion (issuer m) (mfld m 16 4) (mfld m 20 1) (bitAt (mfld m 21 1) 0) none a).1 = st) :=
  by decide +kernel

theorem witness_tierRegionDestroy_P1 : Met (cmd 0x0305 [(16, 1)]) (updMem (fun m => { m with regions := [(1, { Region.none with count := 1 })] }) s0) .own [(16, 4)] (fun m a => ∃ r, ownRegion a (issuer m) (mfld m 16 4) = some r ∧ r.busy = 0 ∧
      regionUsed a (mfld m 16 4) = false ∧
      ∀ k ∈ regionKeys r, (a.page k).pin = 0 ∧ (a.page k).state ≠ 5 ∧ (a.page k).state ≠ 2) :=
  ⟨by decide +kernel, { Region.none with count := 1 }, by decide +kernel⟩

theorem witness_tierRegionDestroy_D1 : Met (cmd 0x0305 [(16, 1)]) (updMem (fun m => { m with regions := [(1, { Region.none with busy := 1 })] }) s0) .own [(16, 4)] (fun m a => ∃ r, ownRegion a (issuer m) (mfld m 16 4) = some r ∧ (r.busy ≠ 0 ∨
      regionUsed a (mfld m 16 4) = true ∨ ∃ k ∈ regionKeys r, (a.page k).pin ≠ 0 ∨ (a.page k).state = 5 ∨ (a.page k).state = 2)) :=
  ⟨by decide +kernel, { Region.none with busy := 1 }, by decide +kernel⟩

theorem witness_tierRegionDestroy_D2 : Met (cmd 0x0305 [(16, 1)]) (s0) .own [(16, 4)] (fun m a => ownRegion a (issuer m) (mfld m 16 4) = none) :=
  by decide +kernel

theorem witness_tierPoolSet_P1 : Met (cmd 0x0306 [(16, 0), (24, 1)]) (withRange 0 1) .own [(16, 20)] (fun m a => mfld m 16 8 % 65536 = 0 ∧
      (∃ r ∈ a.mem.ranges, r.ctx = issuer m ∧ r.base ≤ mfld m 16 8 ∧ mfld m 16 8 + 65536 * mfld m 24 4 ≤ r.base + r.len) ∧
      ∀ i, i < (Tab.get Pool.none a.mem.pools (issuer m)).frames →
        (a.mem.frame ((Tab.get Pool.none a.mem.pools (issuer m)).base / 65536 + i)).track = false) :=
  by decide +kernel

theorem witness_tierPoolSet_D1 : Met (cmd 0x0306 [(16, 0), (24, 2)]) (withRange 0 1) .own [(16, 20)] (fun m a => mfld m 16 8 % 65536 ≠ 0 ∨ ∀ r ∈ a.mem.ranges, ¬ (r.ctx = issuer m ∧
    r.base ≤ mfld m 16 8 ∧ mfld m 16 8 + 65536 * mfld m 24 4 ≤ r.base + r.len)) :=
  by decide +kernel

theorem witness_tierPoolSet_D2 : Met (cmd 0x0306 [(16, 0), (24, 1)]) (updMem (fun m => { m with pools := [(0, { Pool.none with frames := 1 })], frames := [(0, ⟨0, 0, true⟩)] }) (withRange 0 1)) .own [(16, 20)] (fun m a => mfld m 16 8 % 65536 = 0 ∧
      (∃ r ∈ a.mem.ranges, r.ctx = issuer m ∧ r.base ≤ mfld m 16 8 ∧ mfld m 16 8 + 65536 * mfld m 24 4 ≤ r.base + r.len) ∧
      ∃ i, i < (Tab.get Pool.none a.mem.pools (issuer m)).frames ∧
        (a.mem.frame ((Tab.get Pool.none a.mem.pools (issuer m)).base / 65536 + i)).track = true) :=
  by decide +kernel

theorem witness_tierJob_F1 : Met (cmd 0x0307 []) (s0) .own [(16, 5), (24, 4), (32, 16)] (fun _ _ => True) :=
  by decide +kernel

theorem witness_memRemoteAttach_P1 : Met (cmd 0x0308 [(16, 63), (18, 4095), (32, 65536)]) (updFab (fun f => { f with wins := [(4095, { FabWin.reset with valid := true, owner := 257, level := 1, device := 63, length := 65536 })] }) s0) .pf [(16, 4), (24, 16)] (fun m a => let e := Tab.get FabWin.reset a.fab.wins (mfld m 18 2)
      mfld m 16 2 < 16384 ∧ mfld m 16 2 / 64 = a.fab.hall / 64 ∧ mfld m 18 2 < 4096 ∧ mfld m 24 8 % 65536 = 0 ∧ mfld m 32 8 ≠ 0 ∧
      mfld m 32 8 % 65536 = 0 ∧ mfld m 24 8 + mfld m 32 8 ≤ hbmEnd ∧ e.valid = true ∧ e.owner = 257 ∧ e.level = 1 ∧
      e.device = mfld m 16 2 % 64 ∧ e.base ≤ mfld m 24 8 ∧ mfld m 24 8 + mfld m 32 8 ≤ e.base + e.length) :=
  by decide +kernel

theorem witness_memRemoteAttach_D1 : Met (cmd 0x0308 [(16, 63), (18, 4095), (32, 65536)]) (s0) .pf [(16, 4), (24, 16)] (fun m a => let e := Tab.get FabWin.reset a.fab.wins (mfld m 18 2)
      mfld m 16 2 < 16384 ∧ mfld m 16 2 / 64 = a.fab.hall / 64 ∧ mfld m 18 2 < 4096 ∧ mfld m 24 8 % 65536 = 0 ∧ mfld m 32 8 ≠ 0 ∧
      mfld m 32 8 % 65536 = 0 ∧ mfld m 24 8 + mfld m 32 8 ≤ hbmEnd ∧ ¬ (e.valid = true ∧ e.owner = 257 ∧ e.level = 1 ∧
      e.device = mfld m 16 2 % 64 ∧ e.base ≤ mfld m 24 8 ∧ mfld m 24 8 + mfld m 32 8 ≤ e.base + e.length)) :=
  by decide +kernel

theorem witness_flashFormat_P1 : Met (cmd 0x030A [(16, 1)]) (s0) .pf [(16, 1)] (fun m a => mfld m 16 1 < 2 ∧ ∀ c, c < 256 → (a.quota c 2).usage = 0) :=
  by decide +kernel

theorem witness_flashFormat_D1 : Met (cmd 0x030A [(16, 1)]) (s0.setQuota 255 2 ⟨1, 1⟩) .pf [(16, 1)] (fun m a => mfld m 16 1 < 2 ∧ ∃ c, c < 256 ∧ (a.quota c 2).usage ≠ 0) :=
  ⟨by decide +kernel, by decide +kernel, 255, by decide +kernel⟩

theorem witness_tierRegionAdopt_F1 : Met (cmd 0x030C [(16, 63), (18, 4095), (32, 327680)]) (updFab (fun f => { f with wins := [(4095, { FabWin.reset with valid := true, owner := 257, level := 1, device := 63, length := 327680 })] }) (s0.setQuota 0 1 ⟨131072, 0⟩)) .own [(16, 32)] (fun m a => let e := Tab.get FabWin.reset a.fab.wins (mfld m 18 2)
      ∃ pages, 0 < pages ∧ areaLen pages true = mfld m 32 8 ∧
        ((List.range ((mfld m 32 8 / 65536 - 1) / 2 / 262144 + 3)).filterMap fun i =>
          if areaLen ((mfld m 32 8 / 65536 - 1) / 2 - i) true = mfld m 32 8 then some ((mfld m 32 8 / 65536 - 1) / 2 - i) else none).head? =
            some pages ∧
      mfld m 16 2 < 16384 ∧ mfld m 16 2 / 64 = a.fab.hall / 64 ∧ mfld m 18 2 < 4096 ∧ mfld m 24 8 % 65536 = 0 ∧
      mfld m 32 8 % 65536 = 0 ∧ mfld m 20 4 + pages ≤ 2 ^ 32 ∧ mfld m 24 8 + mfld m 32 8 ≤ hbmEnd ∧
      (∀ g ∈ a.mem.regions, g.2.ctx = issuer m → mfld m 20 4 + pages ≤ g.2.firstTpn ∨ g.2.firstTpn + g.2.count ≤ mfld m 20 4) ∧
      overQuota a (issuer m) 1 (regionCharge pages 1 true) = false ∧ e.valid = true ∧ e.owner = 257 ∧ e.level = 1 ∧
      e.device = mfld m 16 2 % 64 ∧ e.base ≤ mfld m 24 8 ∧ mfld m 24 8 + mfld m 32 8 ≤ e.base + e.length) :=
  ⟨by decide +kernel, 1, by decide +kernel⟩

theorem witness_weightInstall_D1 : Met (cmd 0x0310 [(24, 1), (33, 3)]) (s0) .own [(16, 18), (40, 16)] (fun m a => mfld m 40 8 = 0 ∧ (mfld m 24 8 = 0 ∨ 2 ≤ mfld m 32 1 ∨ 3 ≤ mfld m 33 1 ∨
    ctxOwns a (issuer m) (mfld m 48 8) 32 = false)) :=
  by decide +kernel

theorem witness_weightQuery_P1 : Met (cmd 0x0311 [(16, 4095)]) (s0.setWeight 4095 (some ⟨0, 1, 1, 0, 0, 65536, []⟩)) .own [(16, 3)] (fun m a => mfld m 18 1 = 0 ∧ (ownWeight m a (mfld m 16 2)).isSome = true) :=
  by decide +kernel

theorem witness_weightQuery_D1 : Met (cmd 0x0311 [(16, 4095)]) (s0) .own [(16, 3)] (fun m a => 2 ≤ mfld m 18 1 ∨ ownWeight m a (mfld m 16 2) = none) :=
  by decide +kernel

theorem witness_weightQuery_F1 : Met (cmd 0x0311 [(16, 4095), (18, 1)]) (s0.setWeight 4095 (some ⟨0, 1, 1, 1, 0, 65536, []⟩)) .own [(16, 3)] (fun m a => mfld m 18 1 = 1 ∧ ∃ w, ownWeight m a (mfld m 16 2) = some w ∧ w.home = 1) :=
  ⟨by decide +kernel, by decide +kernel, ⟨0, 1, 1, 1, 0, 65536, []⟩, by decide +kernel⟩

theorem witness_weightRepair_D1 : Met (cmd 0x0312 [(16, 4095), (24, 1)]) (s0) .own [(16, 3), (20, 8), (32, 8)] (fun m a => ownWeight m a (mfld m 16 2) = none ∨ 2 ≤ mfld m 18 1 ∨
    mfld m 24 4 = 0) :=
  by decide +kernel

theorem witness_weightRemove_P1 : Met (cmd 0x0313 [(16, 4095)]) (s0.setWeight 4095 (some ⟨0, 1, 1, 0, 0, 65536, []⟩)) .own [(16, 2)] (fun m a => ∃ w, ownWeight m a (mfld m 16 2) = some w ∧ (∀ q ∈ a.mem.weightWaits, q.set ≠ mfld m 16 2) ∧
      weightBusy a (mfld m 16 2) = false ∧
      ∀ k ∈ regionKeys (Tab.get Region.none a.mem.regions w.region), (a.page k).pin = 0 ∧ (a.page k).state ≠ 2 ∧ (a.page k).state ≠ 5) :=
  ⟨by decide +kernel, ⟨0, 1, 1, 0, 0, 65536, []⟩, by decide +kernel⟩

theorem witness_weightRemove_D1 : Met (cmd 0x0313 [(16, 4095)]) (updMem (fun m => { m with regions := [(1, { Region.none with count := 1 })], pages := [(0, { Page.none with pin := 1 })] }) (s0.setWeight 4095 (some ⟨0, 1, 1, 0, 0, 65536, []⟩))) .own [(16, 2)] (fun m a => ∃ w, ownWeight m a (mfld m 16 2) = some w ∧
      (∀ q ∈ a.mem.weightWaits, q.set ≠ mfld m 16 2) ∧ (weightBusy a (mfld m 16 2) = true ∨
      ∃ k ∈ regionKeys (Tab.get Region.none a.mem.regions w.region), (a.page k).pin ≠ 0 ∨ (a.page k).state = 2 ∨ (a.page k).state = 5)) :=
  ⟨by decide +kernel, ⟨0, 1, 1, 0, 0, 65536, []⟩, by decide +kernel⟩

theorem witness_weightRemove_F1 : Met (cmd 0x0313 [(16, 4095)]) (updMem (fun m => { m with weightWaits := [⟨0, 0, 4095, 1, 0, 1, [], 0, 0⟩] }) (s0.setWeight 4095 (some ⟨0, 1, 1, 0, 0, 65536, []⟩))) .own [(16, 2)]
    (fun m a => (ownWeight m a (mfld m 16 2)).isSome = true ∧ ∃ q ∈ a.mem.weightWaits, q.set = mfld m 16 2) :=
  by decide +kernel

theorem witness_seqSubmit_P1 : Met (cmd 0x0319 [(16, 7), (20, 1)]) (updSeq (fun u => { u with queues := [(7, some queue0)], allot := [(0, 1)] }) (withRange 0 1)) .own [(16, 3), (20, 24)] (fun m a => mfld m 16 1 < 8 ∧ ∃ q, a.batchQ (issuer m) (mfld m 16 1) = some q ∧
      mfld m 17 1 < 3 ∧ (q.pool (mfld m 17 1)).isSome = true ∧ mfld m 18 1 < 2 ∧ mfld m 20 4 ≠ 0 ∧ mfld m 20 4 ≤ q.budget ∧
      ctxOwns a (issuer m) (mfld m 24 8) (4 * mfld m 20 4) = true ∧ (ctxSeqs a (issuer m)).length < Tab.get 0 a.mem.seqs.allot (issuer m) ∧
      ∃ k, k < 1048576 ∧ Tab.get 0xFFFF a.mem.seqs.live k = 0xFFFF) :=
  ⟨by decide +kernel, by decide +kernel, queue0, by decide +kernel, by decide +kernel, by decide +kernel, by decide +kernel, by decide +kernel, by decide +kernel, by decide +kernel, by decide +kernel, 0, by decide +kernel⟩

theorem witness_seqSubmit_D1 : Met (cmd 0x0319 [(16, 8), (20, 1)]) (s0) .own [(16, 3), (20, 24)] (fun m a => 8 ≤ mfld m 16 1 ∨ a.batchQ (issuer m) (mfld m 16 1) = none ∨
    3 ≤ mfld m 17 1 ∨ 2 ≤ mfld m 18 1 ∨ mfld m 20 4 = 0) :=
  by decide +kernel

theorem witness_seqSubmit_D2 : Met (cmd 0x0319 [(16, 7), (20, 1)]) (updSeq (fun u => { u with queues := [(7, some queue0)] }) (withRange 0 1)) .own [(16, 3), (20, 24)] (fun m a => mfld m 16 1 < 8 ∧ ∃ q, a.batchQ (issuer m) (mfld m 16 1) = some q ∧
      mfld m 17 1 < 3 ∧ (q.pool (mfld m 17 1)).isSome = true ∧ mfld m 18 1 < 2 ∧ mfld m 20 4 ≠ 0 ∧ mfld m 20 4 ≤ q.budget ∧
      ctxOwns a (issuer m) (mfld m 24 8) (4 * mfld m 20 4) = true ∧ Tab.get 0 a.mem.seqs.allot (issuer m) ≤ (ctxSeqs a (issuer m)).length) :=
  ⟨by decide +kernel, by decide +kernel, queue0, by decide +kernel⟩

theorem witness_seqResume_P1 : Met (cmd 0x031C []) (seqState 3) .own [(16, 4)] (fun m a => Tab.get 0xFFFF a.mem.seqs.live (mfld m 16 4) ≠ 0xFFFF ∧
      Tab.get 0xFFFF a.mem.seqs.live (mfld m 16 4) / 8 = issuer m ∧ (a.seq (mfld m 16 4)).state = 3) :=
  by decide +kernel

theorem witness_seqQuery_P1 : Met (cmd 0x031D []) (seqState 1) .own [(16, 4)] (fun m a => Tab.get 0xFFFF a.mem.seqs.live (mfld m 16 4) ≠ 0xFFFF ∧
      Tab.get 0xFFFF a.mem.seqs.live (mfld m 16 4) / 8 = issuer m ∧ (a.seq (mfld m 16 4)).state ≠ 0) :=
  by decide +kernel

theorem witness_seqAllot_P1 : Met (cmd 0x031E [(16, 255), (20, 1048576)]) (s0) .pf [(16, 1), (20, 4)] (fun m a =>
      ((a.mem.seqs.allot.filter fun e => e.1 != mfld m 16 1).map Prod.snd).sum + mfld m 20 4 ≤ 1048576) :=
  by decide +kernel

theorem witness_seqAllot_D1 : Met (cmd 0x031E [(16, 255), (20, 1048577)]) (s0) .pf [(16, 1), (20, 4)] (fun m a =>
      1048576 < ((a.mem.seqs.allot.filter fun e => e.1 != mfld m 16 1).map Prod.snd).sum + mfld m 20 4) :=
  by decide +kernel

theorem witness_abrTrain_F1 : Met (cmd 0x0420 [(16, 23), (17, 255), (20, 3)]) (s0) .pf [(16, 5)] (fun m a => let x := a.port (mfld m 16 1)
      mfld m 16 1 < 24 ∧ mfld m 17 1 ≠ 0 ∧ mfld m 20 1 < 4 ∧ (x.state = 0 ∨ 7 ≤ x.state) ∧
      (x.up = true → plateCharges a (mfld m 16 1) = true → bitAt (mfld m 20 1) 1 = true)) :=
  by decide +kernel

theorem witness_abrTrain_D1 : Met (cmd 0x0420 [(16, 23), (17, 255), (20, 3)]) (updPort 23 (fun x => { x with state := 6 }) s0) .pf [(16, 5)] (fun m a => let x := a.port (mfld m 16 1)
      mfld m 16 1 < 24 ∧ mfld m 17 1 ≠ 0 ∧ mfld m 20 1 < 4 ∧ ((1 ≤ x.state ∧ x.state ≤ 6) ∨
        (x.up = true ∧ plateCharges a (mfld m 16 1) = true ∧ bitAt (mfld m 20 1) 1 = false))) :=
  by decide +kernel

theorem witness_abrTrain_D2 : Met (cmd 0x0420 [(16, 24), (17, 255), (20, 3)]) (s0) .pf [(16, 5)] (fun m _ => 24 ≤ mfld m 16 1 ∨ mfld m 17 1 = 0 ∨ 4 ≤ mfld m 20 1) :=
  by decide +kernel

theorem witness_abrContinue_F1 : Met (cmd 0x0421 [(16, 23)]) (updPort 23 (fun x => { x with state := 4 }) s0) .pf [(16, 1)] (fun m a => mfld m 16 1 < 24 ∧ (a.port (mfld m 16 1)).state = 4) :=
  by decide +kernel

theorem witness_abrContinue_D1 : Met (cmd 0x0421 [(16, 23)]) (s0) .pf [(16, 1)] (fun m a => 24 ≤ mfld m 16 1 ∨ (a.port (mfld m 16 1)).state ≠ 4) :=
  by decide +kernel

theorem witness_abrGainSet_P1 : Met (cmd 0x0422 [(16, 23), (17, 7), (18, 31)]) (updPort 23 (fun x => { x with state := 4 }) s0) .pf [(16, 3)] (fun m a => mfld m 16 1 < 24 ∧ mfld m 17 1 < 8 ∧ mfld m 18 1 < 32 ∧
      ((a.port (mfld m 16 1)).state = 0 ∨ (a.port (mfld m 16 1)).state = 8 ∨ (a.port (mfld m 16 1)).state = 4)) :=
  by decide +kernel

theorem witness_abrGainSet_D1 : Met (cmd 0x0422 [(16, 23), (17, 7), (18, 31)]) (updPort 23 (fun x => { x with state := 3 }) s0) .pf [(16, 3)] (fun m a => mfld m 16 1 < 24 ∧ mfld m 17 1 < 8 ∧ mfld m 18 1 < 32 ∧
    ((a.port (mfld m 16 1)).state ≠ 0 ∧ (a.port (mfld m 16 1)).state ≠ 8 ∧ (a.port (mfld m 16 1)).state ≠ 4)) :=
  by decide +kernel

theorem witness_abrGainSet_D2 : Met (cmd 0x0422 [(16, 23), (17, 7), (18, 32)]) (s0) .pf [(16, 3)] (fun m _ => 24 ≤ mfld m 16 1 ∨ 8 ≤ mfld m 17 1 ∨ 32 ≤ mfld m 18 1) :=
  by decide +kernel

theorem witness_abrMeasure_P1 : Met (cmd 0x0423 [(16, 23)]) (updPort 23 (fun x => { x with state := 4 }) s0) .pf [(16, 1)] (fun m a => mfld m 16 1 < 24 ∧ (a.port (mfld m 16 1)).state = 4) :=
  by decide +kernel

theorem witness_abrMeasure_D1 : Met (cmd 0x0423 [(16, 24)]) (s0) .pf [(16, 1)] (fun m a => 24 ≤ mfld m 16 1 ∨ (a.port (mfld m 16 1)).state ≠ 4) :=
  by decide +kernel

theorem witness_abrDown_P1 : Met (cmd 0x0424 [(16, 23)]) (s0) .pf [(16, 1)] (fun m _ => mfld m 16 1 < 24) :=
  by decide +kernel

theorem witness_abrDown_D1 : Met (cmd 0x0424 [(16, 24)]) (s0) .pf [(16, 1)] (fun m _ => 24 ≤ mfld m 16 1) :=
  by decide +kernel

theorem witness_abrQuery_P1 : Met (cmd 0x0425 [(16, 23)]) (s0) .pf [(16, 1), (24, 8)] (fun m _ => mfld m 16 1 < 24) :=
  by decide +kernel

theorem witness_abrQuery_D1 : Met (cmd 0x0425 [(16, 24)]) (s0) .pf [(16, 1), (24, 8)] (fun m _ => 24 ≤ mfld m 16 1) :=
  by decide +kernel

theorem witness_fabWindowSet_P1 : Met (cmd 0x0401 [(16, 4095)]) (s0) .pf [(16, 2), (32, 7), (40, 16)] (fun m a => mfld m 16 2 < 4096 ∧ fabWinOk ((mbytes m).drop 32) = true ∧
      claimsItem a 0x09 (mfld m 16 2) = false) :=
  by decide +kernel

theorem witness_fabWindowSet_D1 : Met (cmd 0x0401 [(16, 4096)]) (s0) .pf [(16, 2), (32, 7), (40, 16)] (fun m _ => 4096 ≤ mfld m 16 2 ∨ fabWinOk ((mbytes m).drop 32) = false) :=
  by decide +kernel

theorem witness_fabWindowSet_D2 : Met (cmd 0x0401 [(16, 4095)]) (claimState 9 4095) .pf [(16, 2), (32, 7), (40, 16)] (fun m a => mfld m 16 2 < 4096 ∧ fabWinOk ((mbytes m).drop 32) = true ∧
    claimsItem a 0x09 (mfld m 16 2) = true) :=
  by decide +kernel

theorem witness_fabWindowClear_P1 : Met (cmd 0x0402 [(16, 4095)]) (s0) .pf [(16, 2)] (fun m a => mfld m 16 2 < 4096 ∧ claimsItem a 0x09 (mfld m 16 2) = false) :=
  by decide +kernel

theorem witness_fabWindowClear_D1 : Met (cmd 0x0402 [(16, 4096)]) (s0) .pf [(16, 2)] (fun m _ => 4096 ≤ mfld m 16 2) :=
  by decide +kernel

theorem witness_fabWindowClear_D2 : Met (cmd 0x0402 [(16, 4095)]) (claimState 9 4095) .pf [(16, 2)] (fun m a => mfld m 16 2 < 4096 ∧ claimsItem a 0x09 (mfld m 16 2) = true) :=
  by decide +kernel

theorem witness_fabInwinSet_P1 : Met (cmd 0x0403 [(16, 255), (17, 3), (20, 511), (22, 63), (24, 0xBFFFFF0000)]) (s0) .pf [(16, 3), (20, 3), (24, 8)] (fun m _ => mfld m 17 1 < 4 ∧ mfld m 20 2 < 512 ∧ mfld m 22 1 < 64 ∧
      mfld m 24 8 % 65536 = 0 ∧ mfld m 24 8 < hbmEnd) :=
  by decide +kernel

theorem witness_fabInwinSet_D1 : Met (cmd 0x0403 [(16, 255), (20, 512)]) (s0) .pf [(16, 3), (20, 3), (24, 8)] (fun m _ => 4 ≤ mfld m 17 1 ∨ 512 ≤ mfld m 20 2 ∨ 64 ≤ mfld m 22 1 ∨
    mfld m 24 8 % 65536 ≠ 0 ∨ hbmEnd ≤ mfld m 24 8) :=
  by decide +kernel

theorem witness_fabRouteSet_P1 : Met (cmd 0x0404 [(16, 16383), (18, 1), (20, 0xFFFFFF)]) (s0) .pf [(16, 8)] (fun m _ => mfld m 18 2 ≠ 0 ∧ mfld m 16 2 + mfld m 18 2 ≤ 16384 ∧ mfld m 20 4 < 2 ^ 24) :=
  by decide +kernel

theorem witness_fabRouteSet_D1 : Met (cmd 0x0404 [(16, 16383), (18, 2)]) (s0) .pf [(16, 8)] (fun m _ => mfld m 18 2 = 0 ∨ 16384 < mfld m 16 2 + mfld m 18 2 ∨ 2 ^ 24 ≤ mfld m 20 4) :=
  by decide +kernel

theorem witness_fabLedgerSet_P1 : Met (cmd 0x0405 [(16, 31), (18, 64), (24, 0xBA00000000)]) (s0) .pf [(16, 1), (18, 2), (24, 8)] (fun m a => let frames := ceilDiv (32768 * mfld m 18 2) 65536
      mfld m 16 1 < 32 ∧ a.mem.setRan.getLsbD (mfld m 16 1) = false ∧ 64 ≤ mfld m 18 2 ∧ mfld m 18 2 ≤ 16384 ∧ mfld m 24 8 % 65536 = 0 ∧
      (setFrames (mfld m 16 1)).1 ≤ mfld m 24 8 / 65536 ∧ mfld m 24 8 / 65536 + frames ≤ (setFrames (mfld m 16 1)).2 ∧
      a.fab.ledgerOwners = [] ∧ ∀ f ∈ blockedFrames (ownFrames 259 a.fab.ledgerBase (ceilDiv (32768 * a.fab.ledgerSlots) 65536) a) false,
        f < mfld m 24 8 / 65536 ∨ mfld m 24 8 / 65536 + frames ≤ f) :=
  by decide +kernel

theorem witness_fabLedgerSet_D1 : Met (cmd 0x0405 [(16, 31), (18, 64), (24, 0xBA00000000)]) (updFab (fun f => { f with ledgerOwners := [(0, some 1)] }) s0) .pf [(16, 1), (18, 2), (24, 8)] (fun m a => let frames := ceilDiv (32768 * mfld m 18 2) 65536
      mfld m 16 1 < 32 ∧ a.mem.setRan.getLsbD (mfld m 16 1) = false ∧ 64 ≤ mfld m 18 2 ∧ mfld m 18 2 ≤ 16384 ∧ mfld m 24 8 % 65536 = 0 ∧
      (setFrames (mfld m 16 1)).1 ≤ mfld m 24 8 / 65536 ∧ mfld m 24 8 / 65536 + frames ≤ (setFrames (mfld m 16 1)).2 ∧
      a.fab.ledgerOwners ≠ []) :=
  by decide +kernel

theorem witness_fabLedgerSet_D2 : Met (cmd 0x0405 [(16, 31), (18, 64), (24, 0xBA00000000)]) (updMem (fun m => { m with frames := [(0xBA0000, ⟨257, 0, false⟩)] }) s0) .pf [(16, 1), (18, 2), (24, 8)] (fun m a => let frames := ceilDiv (32768 * mfld m 18 2) 65536
      mfld m 16 1 < 32 ∧ a.mem.setRan.getLsbD (mfld m 16 1) = false ∧ 64 ≤ mfld m 18 2 ∧ mfld m 18 2 ≤ 16384 ∧ mfld m 24 8 % 65536 = 0 ∧
      (setFrames (mfld m 16 1)).1 ≤ mfld m 24 8 / 65536 ∧ mfld m 24 8 / 65536 + frames ≤ (setFrames (mfld m 16 1)).2 ∧
      a.fab.ledgerOwners = [] ∧ ∃ f ∈ blockedFrames (ownFrames 259 a.fab.ledgerBase (ceilDiv (32768 * a.fab.ledgerSlots) 65536) a) false,
        mfld m 24 8 / 65536 ≤ f ∧ f < mfld m 24 8 / 65536 + frames) :=
  by decide +kernel

theorem witness_fabLedgerSet_D3 : Met (cmd 0x0405 [(16, 31), (18, 63)]) (s0) .pf [(16, 1), (18, 2), (24, 8)] (fun m a => 32 ≤ mfld m 16 1 ∨ a.mem.setRan.getLsbD (mfld m 16 1) = true ∨
    mfld m 18 2 < 64 ∨ 16384 < mfld m 18 2 ∨ mfld m 24 8 % 65536 ≠ 0) :=
  by decide +kernel

theorem witness_fabIdSet_P1 : Met (cmd 0x0406 [(16, 16383)]) (s0) .pf [(16, 2)] (fun m a => mfld m 16 2 < 16384 ∧ ∀ e ∈ a.fab.ports, e.2.state = 0) :=
  by decide +kernel

theorem witness_fabIdSet_D1 : Met (cmd 0x0406 [(16, 16383)]) (updPort 23 (fun x => { x with state := 3 }) s0) .pf [(16, 2)] (fun m a => mfld m 16 2 < 16384 ∧ ∃ e ∈ a.fab.ports, e.2.state ≠ 0) :=
  by decide +kernel

theorem witness_fabIdSet_D2 : Met (cmd 0x0406 [(16, 16384)]) (s0) .pf [(16, 2)] (fun m _ => 16384 ≤ mfld m 16 2) :=
  by decide +kernel

theorem witness_fabVcDefault_P1 : Met (cmd 0x0407 []) (s0) .pf [(16, 14)] (fun _ _ => True) :=
  by decide +kernel

theorem witness_fabConfig_P1 : Met (cmd 0x0408 [(16, 16777216)]) (s0) .pf [(16, 4)] (fun m _ => 65536 ≤ mfld m 16 4 ∧ mfld m 16 4 ≤ 16777216) :=
  by decide +kernel

theorem witness_fabConfig_D1 : Met (cmd 0x0408 [(16, 65535)]) (s0) .pf [(16, 4)] (fun m _ => mfld m 16 4 < 65536 ∨ 16777216 < mfld m 16 4) :=
  by decide +kernel

theorem witness_fabQuery_P1 : Met (cmd 0x0409 []) (s0) .pf [(24, 8)] (fun _ _ => True) :=
  by decide +kernel

theorem witness_collGroupDestroy_P1 : Met (cmd 0x0502 [(16, 255)]) (groupState 0) .own [(16, 2)] (fun m a => ∃ i g, namedGroup m a = some (i, g) ∧ g.ops = [] ∧ g.state ≠ 1) :=
  ⟨by decide +kernel, 255, group0 0, by decide +kernel⟩

theorem witness_collGroupDestroy_D1 : Met (cmd 0x0502 [(16, 255)]) (groupState 1) .own [(16, 2)] (fun m a => ∃ i g, namedGroup m a = some (i, g) ∧ (g.ops ≠ [] ∨ g.state = 1)) :=
  ⟨by decide +kernel, 255, group0 1, by decide +kernel⟩

theorem witness_collGroupDestroy_D2 : Met (cmd 0x0502 [(16, 255)]) (s0) .own [(16, 2)] (fun m a => a.group (mfld m 16 2) = none ∨
    ∃ g, a.group (mfld m 16 2) = some g ∧ g.owner ≠ issuer m) :=
  ⟨by decide +kernel, Or.inl (by decide +kernel)⟩

theorem witness_collGroupQuery_P1 : Met (cmd 0x0503 [(16, 255)]) (groupState 1) .own [(16, 2)] (fun m a => (namedGroup m a).isSome = true) :=
  by decide +kernel

theorem witness_collGroupQuery_D1 : Met (cmd 0x0503 [(16, 255)]) (s0) .own [(16, 2)] (fun m a => namedGroup m a = none) :=
  by decide +kernel

theorem witness_collGroupRebind_F1 : Met (cmd 0x0504 [(16, 255), (18, 1), (20, 16383)]) (groupState 0) .own [(16, 6), (24, 4)] (fun m a => ∃ i g, namedGroup m a = some (i, g) ∧ g.ops = [] ∧ g.state ≠ 1 ∧
      mfld m 18 2 < 16384 ∧ mfld m 20 2 < 16384 ∧ mfld m 24 4 < 2 ^ 24 ∧
      (let ranks := g.ranks.map fun e => if rankHall e = mfld m 18 2 then e - mfld m 18 2 + mfld m 20 2 else e
       distinctDies ranks = true ∧ ({ g with ranks := ranks } : Group).devs.contains a.fab.hall = true ∧
       (g.fast = false → ({ g with ranks := ranks } : Group).layoutFault = none))) :=
  ⟨by decide +kernel, 255, group0 0, by decide +kernel⟩

theorem witness_collGroupRebind_D1 : Met (cmd 0x0504 [(16, 255), (18, 1), (20, 16383)]) (s0) .own [(16, 6), (24, 4)] (fun m a => namedGroup m a = none ∨ 16384 ≤ mfld m 18 2 ∨ 16384 ≤ mfld m 20 2 ∨
    2 ^ 24 ≤ mfld m 24 4) :=
  by decide +kernel

theorem witness_collGroupRebind_D2 : Met (cmd 0x0504 [(16, 255), (18, 1), (20, 16383)]) (groupState 1) .own [(16, 6), (24, 4)] (fun m a => ∃ i g, namedGroup m a = some (i, g) ∧ (g.ops ≠ [] ∨ g.state = 1) ∧
      mfld m 18 2 < 16384 ∧ mfld m 20 2 < 16384 ∧ mfld m 24 4 < 2 ^ 24 ∧
      (let ranks := g.ranks.map fun e => if rankHall e = mfld m 18 2 then e - mfld m 18 2 + mfld m 20 2 else e
       distinctDies ranks = true ∧ ({ g with ranks := ranks } : Group).devs.contains a.fab.hall = true ∧
       (g.fast = false → ({ g with ranks := ranks } : Group).layoutFault = none))) :=
  ⟨by decide +kernel, 255, group0 1, by decide +kernel⟩

theorem witness_collJob_F1 : Met (cmd 0x0505 []) (s0) .own [(16, 9), (28, 28)] (fun _ _ => True) :=
  by decide +kernel

theorem witness_fnConfig_P1 : Met (cmd 0x0901 [(16, 255), (18, 2048), (20, 2047), (22, 2047)]) (s0) .pf [(16, 1), (18, 8)] (fun m a =>
  let others := fun (g : Nat → Nat) (n : Nat) => ((List.range 256).filter (· != n)).foldl (fun x k => x + g k) 0
  let ok := fun (m : Mbx) => mfld m 18 2 ≠ 0 ∧ mfld m 18 2 ≤ 2048 ∧ mfld m 20 2 < mfld m 18 2 ∧ mfld m 22 2 < mfld m 18 2 ∧
    (mfld m 16 1 = 0 → mfld m 18 2 = 2048) ∧ mfld m 24 2 ≤ 8192
  let fits := fun (m : Mbx) (a : State) => (mfld m 16 1 ≠ 0 →
      mfld m 18 2 + others (fun k => if k = 0 then 0 else (a.fn k).vectors) (mfld m 16 1) ≤ 14336) ∧
    mfld m 24 2 + others (fun k => (a.fn k).atcShare) (mfld m 16 1) ≤ 8192
  ok m ∧ (mfld m 18 2 = (a.fn (mfld m 16 1)).vectors ∨ (a.fn (mfld m 16 1)).state = 0) ∧
      fits m a) :=
  by decide +kernel

theorem witness_fnConfig_D1 : Met (cmd 0x0901 [(16, 255), (18, 2049), (20, 2047), (22, 2047)]) (s0) .pf [(16, 1), (18, 8)] (fun m _ =>
  let others := fun (g : Nat → Nat) (n : Nat) => ((List.range 256).filter (· != n)).foldl (fun x k => x + g k) 0
  let ok := fun (m : Mbx) => mfld m 18 2 ≠ 0 ∧ mfld m 18 2 ≤ 2048 ∧ mfld m 20 2 < mfld m 18 2 ∧ mfld m 22 2 < mfld m 18 2 ∧
    (mfld m 16 1 = 0 → mfld m 18 2 = 2048) ∧ mfld m 24 2 ≤ 8192
  let fits := fun (m : Mbx) (a : State) => (mfld m 16 1 ≠ 0 →
      mfld m 18 2 + others (fun k => if k = 0 then 0 else (a.fn k).vectors) (mfld m 16 1) ≤ 14336) ∧
    mfld m 24 2 + others (fun k => (a.fn k).atcShare) (mfld m 16 1) ≤ 8192
  ¬ ok m) :=
  by decide +kernel

theorem witness_fnConfig_D2 : Met (cmd 0x0901 [(16, 255), (18, 2048), (20, 2047), (22, 2047)]) (s0.setFn 255 { fnDefault 255 with state := 1, vectors := 1 }) .pf [(16, 1), (18, 8)] (fun m a =>
  let others := fun (g : Nat → Nat) (n : Nat) => ((List.range 256).filter (· != n)).foldl (fun x k => x + g k) 0
  let ok := fun (m : Mbx) => mfld m 18 2 ≠ 0 ∧ mfld m 18 2 ≤ 2048 ∧ mfld m 20 2 < mfld m 18 2 ∧ mfld m 22 2 < mfld m 18 2 ∧
    (mfld m 16 1 = 0 → mfld m 18 2 = 2048) ∧ mfld m 24 2 ≤ 8192
  let fits := fun (m : Mbx) (a : State) => (mfld m 16 1 ≠ 0 →
      mfld m 18 2 + others (fun k => if k = 0 then 0 else (a.fn k).vectors) (mfld m 16 1) ≤ 14336) ∧
    mfld m 24 2 + others (fun k => (a.fn k).atcShare) (mfld m 16 1) ≤ 8192
  ok m ∧ mfld m 18 2 ≠ (a.fn (mfld m 16 1)).vectors ∧
    (a.fn (mfld m 16 1)).state ≠ 0) :=
  by decide +kernel

theorem witness_fnConfig_D3 : Met (cmd 0x0901 [(16, 255), (18, 2048), (20, 2047), (22, 2047)]) (s0.setFn 1 { fnDefault 1 with vectors := 14336 }) .pf [(16, 1), (18, 8)] (fun m a =>
  let others := fun (g : Nat → Nat) (n : Nat) => ((List.range 256).filter (· != n)).foldl (fun x k => x + g k) 0
  let ok := fun (m : Mbx) => mfld m 18 2 ≠ 0 ∧ mfld m 18 2 ≤ 2048 ∧ mfld m 20 2 < mfld m 18 2 ∧ mfld m 22 2 < mfld m 18 2 ∧
    (mfld m 16 1 = 0 → mfld m 18 2 = 2048) ∧ mfld m 24 2 ≤ 8192
  let fits := fun (m : Mbx) (a : State) => (mfld m 16 1 ≠ 0 →
      mfld m 18 2 + others (fun k => if k = 0 then 0 else (a.fn k).vectors) (mfld m 16 1) ≤ 14336) ∧
    mfld m 24 2 + others (fun k => (a.fn k).atcShare) (mfld m 16 1) ≤ 8192
  ok m ∧
    (mfld m 18 2 = (a.fn (mfld m 16 1)).vectors ∨ (a.fn (mfld m 16 1)).state = 0) ∧ ¬ fits m a) :=
  by decide +kernel

theorem witness_fnQuery_P1 : Met (cmd 0x0903 [(16, 255)]) (s0) .own [(16, 1)] (fun m _ => issuer m = 0 ∨ issuer m = mfld m 16 1) :=
  by decide +kernel

theorem witness_fnQuery_D1 : Met (sent 1 0x0903 [(16, 255)] []) (s0) .own [(16, 1)] (fun m _ => issuer m ≠ 0 ∧ issuer m ≠ mfld m 16 1) :=
  by decide +kernel

theorem witness_fnReset_F1 : Met (cmd 0x0904 [(16, 255)]) (s0.setFn 255 { fnDefault 255 with state := 1 }) .pf [(16, 1)] (fun m a => mfld m 16 1 ≠ 0 ∧ (a.fn (mfld m 16 1)).state ≠ 0) :=
  by decide +kernel

theorem witness_fnReset_D1 : Met (cmd 0x0904 [(16, 0)]) (s0) .pf [(16, 1)] (fun m a => mfld m 16 1 = 0 ∨ (a.fn (mfld m 16 1)).state = 0) :=
  by decide +kernel

theorem witness_ctxSeedSet_P1 : Met (cmd 0x0A01 [(16, 256)]) (s0) .own [(16, 2), (24, 8)] (fun m a => mfld m 16 2 ≤ 256 ∧ (issuer m = 0 ∨ mfld m 16 2 = issuer m) ∧
      seedBusy a (mfld m 16 2) = false) :=
  by decide +kernel

theorem witness_ctxSeedSet_D1 : Met (cmd 0x0A01 [(16, 257)]) (s0) .own [(16, 2), (24, 8)] (fun m _ => 256 < mfld m 16 2 ∨ (issuer m ≠ 0 ∧ mfld m 16 2 ≠ issuer m)) :=
  by decide +kernel

theorem witness_ctxSeedSet_D2 : Met (cmd 0x0A01 [(16, 256)]) (ranState) .own [(16, 2), (24, 8)] (fun m a => mfld m 16 2 ≤ 256 ∧ (issuer m = 0 ∨ mfld m 16 2 = issuer m) ∧
    seedBusy a (mfld m 16 2) = true) :=
  by decide +kernel

theorem witness_seedRegen_P1 : Met (cmd 0x0A02 [(20, 1)]) (withRange 0 1) .own [(18, 38)] (fun m a => mfld m 20 4 ≠ 0 ∧ mfld m 20 4 ≤ 1048576 ∧ mfld m 40 8 < 2 ^ 50 ∧
      ctxOwns a (issuer m) (mfld m 48 8) (4 * mfld m 20 4) = true) :=
  by decide +kernel

theorem witness_seedRegen_D1 : Met (cmd 0x0A02 [(20, 1048577)]) (withRange 0 1) .own [(18, 38)] (fun m a => mfld m 20 4 = 0 ∨ 1048576 < mfld m 20 4 ∨ 2 ^ 50 ≤ mfld m 40 8 ∨
    ctxOwns a (issuer m) (mfld m 48 8) (4 * mfld m 20 4) = false) :=
  by decide +kernel

theorem witness_recConfig_P1 : Met (cmd 0x0A03 [(16, 0xFFFF), (19, 1), (32, 1048576)]) (withRange 0 16) .pf [(16, 6), (24, 16)] (fun m a => a.det.recUnit.recording = false ∧ a.det.replay = none ∧
      (mfld m 16 2 ≤ 255 ∨ mfld m 16 2 = 0xFFFF) ∧ mfld m 18 1 ≤ 1 ∧ mfld m 19 1 ≤ 1 ∧
      (mfld m 18 1 = 0 → ringSizeOk (mfld m 32 8) = true ∧
        (ringHeld a 0 (mfld m 24 8) (mfld m 32 8) = true ∨ ringHeld a 256 (mfld m 24 8) (mfld m 32 8) = true)) ∧
      (mfld m 18 1 = 1 → fabAddrOk (mfld m 24 8) = true ∧ mfld m 24 8 % 16 = 0 ∧
        winAllows (Tab.get FabWin.reset a.fab.wins (mfld m 20 2)) 257 (readFabAddr (mfld m 24 8)) 1 2 = true)) :=
  by decide +kernel

theorem witness_recConfig_D1 : Met (cmd 0x0A03 [(16, 0xFFFF), (19, 1), (32, 1048576)]) (updRec (fun r => { r with recording := true }) s0) .pf [(16, 6), (24, 16)] (fun _ a => a.det.recUnit.recording = true ∨ a.det.replay.isSome = true) :=
  by decide +kernel

theorem witness_recStart_P1 : Met (cmd 0x0A04 []) (updRec (fun r => { r with configured := true }) s0) .pf [] (fun _ a => a.det.recUnit.configured = true ∧ a.det.recUnit.recording = false ∧ a.det.replay = none) :=
  by decide +kernel

theorem witness_recStart_D1 : Met (cmd 0x0A04 []) (s0) .pf [] (fun _ a => a.det.recUnit.configured = false) :=
  by decide +kernel

theorem witness_recStart_D2 : Met (cmd 0x0A04 []) (updRec (fun r => { r with configured := true, recording := true }) s0) .pf [] (fun _ a => a.det.recUnit.configured = true ∧ (a.det.recUnit.recording = true ∨ a.det.replay.isSome = true)) :=
  by decide +kernel

theorem witness_recStop_P1 : Met (cmd 0x0A05 []) (updRec (fun r => { r with recording := true }) s0) .pf [] (fun _ a => a.det.recUnit.recording = true) :=
  by decide +kernel

theorem witness_recStop_D1 : Met (cmd 0x0A05 []) (s0) .pf [] (fun _ a => a.det.recUnit.recording = false) :=
  by decide +kernel

theorem witness_replayStart_P1 : Met (cmd 0x0A06 [(32, 1048576), (40, 19660800)]) (memWrite 0 (bytesOf 48 [(0, 7), (2, 16), (32, 0)]) (withRange 0 16)) .own [(16, 3), (24, 24)] (fun m a =>
   let start := { start := false, r0 := 0, streams := false, loss := none : RingScan }
   let open_ := fun (m : Mbx) (a : State) => a.det.recUnit.recording = false ∧ a.det.replay = none ∧ mfld m 18 1 ≤ 1 ∧
     mayReplay (issuer m) (mfld m 16 2) (mfld m 18 1 == 1) = true ∧ ringSizeOk (mfld m 32 8) = true ∧
     (ringHeld a (issuer m) (mfld m 24 8) (mfld m 32 8) = true ∨ (issuer m = 0 ∧ ringHeld a 256 (mfld m 24 8) (mfld m 32 8) = true))
   let scan := fun (m : Mbx) (a : State) => scanRing a (mfld m 24 8) (mfld m 32 8) (mfld m 32 8 / 32) 0 start
   open_ m a ∧ (scan m a).loss = none ∧ (scan m a).start = true ∧
       mfld m 40 8 % epochTicks = 0 ∧ ((scan m a).streams = true → mfld m 40 8 % (256 * epochTicks) = 0) ∧
       a.now + epochTicks ≤ (scan m a).r0 + mfld m 40 8) :=
  by decide +kernel

theorem witness_replayStart_D1 : Met (cmd 0x0A06 [(32, 1048576), (40, 19660800)]) (withRange 0 16) .own [(16, 3), (24, 24)] (fun m a =>
   let start := { start := false, r0 := 0, streams := false, loss := none : RingScan }
   let open_ := fun (m : Mbx) (a : State) => a.det.recUnit.recording = false ∧ a.det.replay = none ∧ mfld m 18 1 ≤ 1 ∧
     mayReplay (issuer m) (mfld m 16 2) (mfld m 18 1 == 1) = true ∧ ringSizeOk (mfld m 32 8) = true ∧
     (ringHeld a (issuer m) (mfld m 24 8) (mfld m 32 8) = true ∨ (issuer m = 0 ∧ ringHeld a 256 (mfld m 24 8) (mfld m 32 8) = true))
   let scan := fun (m : Mbx) (a : State) => scanRing a (mfld m 24 8) (mfld m 32 8) (mfld m 32 8 / 32) 0 start
   open_ m a ∧ (scan m a).loss = none ∧ ((scan m a).start = false ∨
     mfld m 40 8 % epochTicks ≠ 0 ∨ (scan m a).r0 + mfld m 40 8 < a.now + epochTicks)) :=
  by decide +kernel

theorem witness_replayStart_D2 : Met (cmd 0x0A06 [(32, 1048576), (40, 19660800)]) (updRec (fun r => { r with recording := true }) (withRange 0 16)) .own [(16, 3), (24, 24)] (fun _ a =>
   let start := { start := false, r0 := 0, streams := false, loss := none : RingScan }
   let open_ := fun (m : Mbx) (a : State) => a.det.recUnit.recording = false ∧ a.det.replay = none ∧ mfld m 18 1 ≤ 1 ∧
     mayReplay (issuer m) (mfld m 16 2) (mfld m 18 1 == 1) = true ∧ ringSizeOk (mfld m 32 8) = true ∧
     (ringHeld a (issuer m) (mfld m 24 8) (mfld m 32 8) = true ∨ (issuer m = 0 ∧ ringHeld a 256 (mfld m 24 8) (mfld m 32 8) = true))
   let scan := fun (m : Mbx) (a : State) => scanRing a (mfld m 24 8) (mfld m 32 8) (mfld m 32 8 / 32) 0 start
   a.det.recUnit.recording = true ∨ a.det.replay.isSome = true) :=
  by decide +kernel

theorem witness_replayStop_P1 : Met (cmd 0x0A07 []) (updDet (fun d => { d with replay := some Replay.blank }) s0) .own [] (fun m a => ∃ r, a.det.replay = some r ∧ (issuer m = 0 ∨ issuer m = r.fn)) :=
  ⟨by decide +kernel, Replay.blank, by decide +kernel⟩

theorem witness_replayStop_D1 : Met (cmd 0x0A07 []) (s0) .own [] (fun _ a => a.det.replay = none) :=
  by decide +kernel

theorem witness_replayStop_D2 : Met (sent 1 0x0A07 [] []) (updDet (fun d => { d with replay := some Replay.blank }) s0) .own [] (fun m a => ∃ r, a.det.replay = some r ∧ issuer m ≠ 0 ∧ issuer m ≠ r.fn) :=
  ⟨by decide +kernel, Replay.blank, by decide +kernel⟩

theorem witness_dryArm_P1 : Met (cmd 0x0A08 [(24, 4), (32, 16)]) (s0) .pf [(24, 1), (26, 14)] (fun m _ => mfld m 24 8 &&& 0xFC00FF02 = 0 ∧ (bitAt (mfld m 24 8) 2 = true → mfld m 32 8 % 16 = 0)) :=
  by decide +kernel

theorem witness_dryArm_D1 : Met (cmd 0x0A08 [(24, 4), (32, 8)]) (s0) .pf [(24, 1), (26, 14)] (fun m _ => bitAt (mfld m 24 8) 2 = true ∧ mfld m 32 8 % 16 ≠ 0) :=
  by decide +kernel

theorem witness_dryFire_P1 : Met (cmd 0x0A09 []) (updDry (fun d => { d with ctrl := 0x21 }) s0) .pf [] (fun _ a => a.det.dry.ctrl.getLsbD 0 = true ∧ a.det.dry.ctrl.getLsbD 5 = true ∧
      (a.det.dry.held = false ∨ a.det.dry.overwrite = true)) :=
  by decide +kernel

theorem witness_dryFire_D1 : Met (cmd 0x0A09 []) (s0) .pf [] (fun _ a => a.det.dry.ctrl.getLsbD 0 = false ∨ a.det.dry.ctrl.getLsbD 5 = false ∨
    (a.det.dry.held = true ∧ a.det.dry.overwrite = false)) :=
  by decide +kernel

theorem witness_leaseConfig_P1 : Met (mg 0x0C01 [(16, 1), (18, 20000)]) (s0) .mgmt [(16, 1), (18, 2), (24, 16)] (fun m _ =>
   let ok := fun (m : Mbx) => mfld m 16 1 < 2 ∧ 100 ≤ mfld m 18 2 ∧ mfld m 18 2 ≤ 20000 ∧ bitAt (mfld m 30 2) 12 = false ∧
     bitAt (mfld m 38 2) 12 = false
   ok m) :=
  by decide +kernel

theorem witness_leaseConfig_D1 : Met (mg 0x0C01 [(16, 1), (18, 20001)]) (s0) .mgmt [(16, 1), (18, 2), (24, 16)] (fun m _ =>
   let ok := fun (m : Mbx) => mfld m 16 1 < 2 ∧ 100 ≤ mfld m 18 2 ∧ mfld m 18 2 ≤ 20000 ∧ bitAt (mfld m 30 2) 12 = false ∧
     bitAt (mfld m 38 2) 12 = false
   ¬ ok m) :=
  by decide +kernel

theorem witness_leaseKeySet_P1 : Met (sent 256 0x0C02 [] (bytesOf 32 [])) (s0) .mgmt [(24, 8)] (fun m _ => 32 ≤ (mdata m).length) :=
  by decide +kernel

theorem witness_leaseRelease_P1 : Met (mg 0x0C03 []) (updFlt (fun f => { f with leased := true }) s0) .pfMgmt [] (fun _ a => a.flt.leased = true) :=
  by decide +kernel

theorem witness_leaseRelease_D1 : Met (mg 0x0C03 []) (s0) .pfMgmt [] (fun _ a => a.flt.leased = false) :=
  by decide +kernel

theorem witness_faultPeerSet_P1 : Met (mg 0x0C04 [(16, 16383), (18, 1), (22, 1)]) (s0) .mgmt [(16, 7)] (fun m _ => mfld m 18 2 ≠ 0 ∧ mfld m 16 2 + mfld m 18 2 ≤ 16384 ∧ mfld m 22 1 < 2) :=
  by decide +kernel

theorem witness_faultPeerSet_D1 : Met (mg 0x0C04 [(16, 16383), (18, 2), (22, 1)]) (s0) .mgmt [(16, 7)] (fun m _ => mfld m 18 2 = 0 ∨ 16384 < mfld m 16 2 + mfld m 18 2 ∨ 2 ≤ mfld m 22 1) :=
  by decide +kernel

theorem witness_healthConfig_P1 : Met (mg 0x0C05 [(16, 7), (28, 1)]) (s0) .mgmt [(16, 1), (20, 10)] (fun m _ => mfld m 16 1 < 8 ∧ mfld m 28 2 ≠ 0) :=
  by decide +kernel

theorem witness_healthConfig_D1 : Met (mg 0x0C05 [(16, 8), (28, 1)]) (s0) .mgmt [(16, 1), (20, 10)] (fun m _ => 8 ≤ mfld m 16 1 ∨ mfld m 28 2 = 0) :=
  by decide +kernel

theorem witness_takeoverArm_P1 : Met (mg 0x0C06 [(16, 383), (18, 16383), (20, 1)]) (s0) .pfMgmt [(16, 5)] (fun m a =>
   let named := fun (m : Mbx) => mfld m 16 2 < 384 ∧ mfld m 18 2 < 16384 ∧ mfld m 20 1 < 2
   named m ∧ (a.cell (mfld m 16 2)).change = none ∧ (mfld m 20 1 = 1 ∨
       ((a.cell (mfld m 16 2)).state = 3 ∧ a.time.servo.stepDone = true ∧ a.flt.leased = true ∧
         (a.cell (mfld m 16 2)).primary = mfld m 18 2))) :=
  by decide +kernel

theorem witness_takeoverArm_D1 : Met (mg 0x0C06 [(16, 383), (18, 16383), (20, 1)]) (updCell 383 (fun c => { c with change := some (2, 0) }) s0) .pfMgmt [(16, 5)] (fun m a =>
   let named := fun (m : Mbx) => mfld m 16 2 < 384 ∧ mfld m 18 2 < 16384 ∧ mfld m 20 1 < 2
   named m ∧ (a.cell (mfld m 16 2)).change.isSome = true) :=
  by decide +kernel

theorem witness_takeoverArm_D2 : Met (mg 0x0C06 [(16, 383), (18, 16383)]) (s0) .pfMgmt [(16, 5)] (fun m a =>
   let named := fun (m : Mbx) => mfld m 16 2 < 384 ∧ mfld m 18 2 < 16384 ∧ mfld m 20 1 < 2
   named m ∧ (a.cell (mfld m 16 2)).change = none ∧ mfld m 20 1 = 0 ∧
     ((a.cell (mfld m 16 2)).state ≠ 3 ∨ a.time.servo.stepDone = false ∨ a.flt.leased = false)) :=
  by decide +kernel

theorem witness_takeoverArm_D3 : Met (mg 0x0C06 [(16, 383), (18, 16384)]) (s0) .pfMgmt [(16, 5)] (fun m _ =>
   let named := fun (m : Mbx) => mfld m 16 2 < 384 ∧ mfld m 18 2 < 16384 ∧ mfld m 20 1 < 2
   ¬ named m) :=
  by decide +kernel

theorem witness_wireCompat_P1 : Met (mg 0x0C07 [(16, 1)]) (s0) .mgmt [(16, 1)] (fun m a =>
   let older := fun (a : State) => ∃ e ∈ a.fab.ports, e.2.up = true ∧ ∃ p, e.2.peer = some p ∧ p.2 = wireRev - 1
   mfld m 16 1 = 1 ∨ (mfld m 16 1 = 0 ∧ ¬ older a)) :=
  by decide +kernel

theorem witness_wireCompat_D1 : Met (mg 0x0C07 []) (updPort 23 (fun x => { x with state := 7, peer := some (0, wireRev - 1) }) s0) .mgmt [(16, 1)] (fun m a =>
   let older := fun (a : State) => ∃ e ∈ a.fab.ports, e.2.up = true ∧ ∃ p, e.2.peer = some p ∧ p.2 = wireRev - 1
   mfld m 16 1 = 0 ∧ older a) :=
  ⟨by decide +kernel, by decide +kernel, (23, { AbrPort.reset with state := 7, peer := some (0, wireRev - 1) }), by decide +kernel, by decide +kernel, (0, wireRev - 1), by decide +kernel⟩

theorem witness_faultQuery_P1 : Met (cmd 0x0C08 []) (s0) .any [] (fun _ _ => True) :=
  by decide +kernel

theorem witness_coolantConfig_P1 : Met (sent 0 0x0B01 [] (bytesOf 64 [(2, 1024), (4, 1024), (6, 1024), (8, 2500), (12, 1000000), (16, 1600), (18, 10000)])) (s0) .pfMgmt [(24, 8)] (fun m _ =>
   let rec64 := fun (m : Mbx) => sliceBytes (mdata m) 0 64
   let cool := fun (m : Mbx) =>
     let r := rec64 m
     fld r 0 2 ≤ fld r 2 2 ∧ fld r 2 2 ≤ 1024 ∧ fld r 4 2 ≤ 1024 ∧ fld r 6 2 ≤ 1024 ∧ 100 ≤ fld r 8 4 ∧ fld r 8 4 ≤ 2500 ∧
       1000 ≤ fld r 12 4 ∧ fld r 12 4 ≤ 1000000 ∧ fld r 16 2 ≤ 1600 ∧ 1000 ≤ fld r 18 2 ∧ fld r 18 2 ≤ 10000 ∧
       onlyFields r [(0, 20)] = true
   let gov := fun (m : Mbx) =>
     let r := rec64 m
     fld r 0 1 ≤ 1 ∧ fld r 1 1 ≤ 3 ∧ fld r 2 1 ≤ 3 ∧ 960 ≤ fld r 4 2 ∧ fld r 4 2 ≤ 1600 ∧ fld r 6 2 ≤ 160 ∧
       1 ≤ fld r 8 2 ∧ fld r 8 2 ≤ 1000 ∧ 100 ≤ fld r 10 2 ∧ fld r 10 2 ≤ 60000 ∧ 1000 ≤ fld r 12 4 ∧ fld r 12 4 ≤ 100000 ∧
       fld r 16 4 ≤ 2500 ∧ fld r 20 4 ≤ 2500 ∧ fld r 24 4 ≤ 2500 ∧ 100 ≤ fld r 28 4 ∧ fld r 28 4 ≤ 2500 ∧
       onlyFields r [(0, 3), (4, 28)] = true
   let trip := fun (m : Mbx) =>
     let r := rec64 m
     fld r 0 2 ≤ 1680 ∧ fld r 2 2 + 16 ≤ fld r 0 2 ∧ fld r 4 2 ≤ 1600 ∧ fld r 6 2 + 16 ≤ fld r 4 2 ∧ 100 ≤ fld r 8 4 ∧
       fld r 8 4 ≤ 1000000 ∧ onlyFields r [(0, 12)] = true
   cool m) :=
  by decide +kernel

theorem witness_coolantConfig_D1 : Met (sent 0 0x0B01 [] (bytesOf 64 [(2, 1025), (4, 1024), (6, 1024), (8, 2500), (12, 1000000), (16, 1600), (18, 10000)])) (s0) .pfMgmt [(24, 8)] (fun m _ =>
   let rec64 := fun (m : Mbx) => sliceBytes (mdata m) 0 64
   let cool := fun (m : Mbx) =>
     let r := rec64 m
     fld r 0 2 ≤ fld r 2 2 ∧ fld r 2 2 ≤ 1024 ∧ fld r 4 2 ≤ 1024 ∧ fld r 6 2 ≤ 1024 ∧ 100 ≤ fld r 8 4 ∧ fld r 8 4 ≤ 2500 ∧
       1000 ≤ fld r 12 4 ∧ fld r 12 4 ≤ 1000000 ∧ fld r 16 2 ≤ 1600 ∧ 1000 ≤ fld r 18 2 ∧ fld r 18 2 ≤ 10000 ∧
       onlyFields r [(0, 20)] = true
   let gov := fun (m : Mbx) =>
     let r := rec64 m
     fld r 0 1 ≤ 1 ∧ fld r 1 1 ≤ 3 ∧ fld r 2 1 ≤ 3 ∧ 960 ≤ fld r 4 2 ∧ fld r 4 2 ≤ 1600 ∧ fld r 6 2 ≤ 160 ∧
       1 ≤ fld r 8 2 ∧ fld r 8 2 ≤ 1000 ∧ 100 ≤ fld r 10 2 ∧ fld r 10 2 ≤ 60000 ∧ 1000 ≤ fld r 12 4 ∧ fld r 12 4 ≤ 100000 ∧
       fld r 16 4 ≤ 2500 ∧ fld r 20 4 ≤ 2500 ∧ fld r 24 4 ≤ 2500 ∧ 100 ≤ fld r 28 4 ∧ fld r 28 4 ≤ 2500 ∧
       onlyFields r [(0, 3), (4, 28)] = true
   let trip := fun (m : Mbx) =>
     let r := rec64 m
     fld r 0 2 ≤ 1680 ∧ fld r 2 2 + 16 ≤ fld r 0 2 ∧ fld r 4 2 ≤ 1600 ∧ fld r 6 2 + 16 ≤ fld r 4 2 ∧ 100 ≤ fld r 8 4 ∧
       fld r 8 4 ≤ 1000000 ∧ onlyFields r [(0, 12)] = true
   ¬ cool m) :=
  by decide +kernel

theorem witness_govConfig_P1 : Met (sent 0 0x0B02 [] (bytesOf 64 [(0, 1), (1, 3), (2, 3), (4, 1600), (6, 160), (8, 1000), (10, 60000), (12, 100000), (16, 2500), (20, 2500), (24, 2500), (28, 2500)])) (s0) .pfMgmt [(24, 8)] (fun m _ =>
   let rec64 := fun (m : Mbx) => sliceBytes (mdata m) 0 64
   let cool := fun (m : Mbx) =>
     let r := rec64 m
     fld r 0 2 ≤ fld r 2 2 ∧ fld r 2 2 ≤ 1024 ∧ fld r 4 2 ≤ 1024 ∧ fld r 6 2 ≤ 1024 ∧ 100 ≤ fld r 8 4 ∧ fld r 8 4 ≤ 2500 ∧
       1000 ≤ fld r 12 4 ∧ fld r 12 4 ≤ 1000000 ∧ fld r 16 2 ≤ 1600 ∧ 1000 ≤ fld r 18 2 ∧ fld r 18 2 ≤ 10000 ∧
       onlyFields r [(0, 20)] = true
   let gov := fun (m : Mbx) =>
     let r := rec64 m
     fld r 0 1 ≤ 1 ∧ fld r 1 1 ≤ 3 ∧ fld r 2 1 ≤ 3 ∧ 960 ≤ fld r 4 2 ∧ fld r 4 2 ≤ 1600 ∧ fld r 6 2 ≤ 160 ∧
       1 ≤ fld r 8 2 ∧ fld r 8 2 ≤ 1000 ∧ 100 ≤ fld r 10 2 ∧ fld r 10 2 ≤ 60000 ∧ 1000 ≤ fld r 12 4 ∧ fld r 12 4 ≤ 100000 ∧
       fld r 16 4 ≤ 2500 ∧ fld r 20 4 ≤ 2500 ∧ fld r 24 4 ≤ 2500 ∧ 100 ≤ fld r 28 4 ∧ fld r 28 4 ≤ 2500 ∧
       onlyFields r [(0, 3), (4, 28)] = true
   let trip := fun (m : Mbx) =>
     let r := rec64 m
     fld r 0 2 ≤ 1680 ∧ fld r 2 2 + 16 ≤ fld r 0 2 ∧ fld r 4 2 ≤ 1600 ∧ fld r 6 2 + 16 ≤ fld r 4 2 ∧ 100 ≤ fld r 8 4 ∧
       fld r 8 4 ≤ 1000000 ∧ onlyFields r [(0, 12)] = true
   gov m) :=
  by decide +kernel

theorem witness_govConfig_D1 : Met (sent 0 0x0B02 [] (bytesOf 64 [(0, 1), (1, 3), (2, 3), (4, 1601), (6, 160), (8, 1000), (10, 60000), (12, 100000), (16, 2500), (20, 2500), (24, 2500), (28, 2500)])) (s0) .pfMgmt [(24, 8)] (fun m _ =>
   let rec64 := fun (m : Mbx) => sliceBytes (mdata m) 0 64
   let cool := fun (m : Mbx) =>
     let r := rec64 m
     fld r 0 2 ≤ fld r 2 2 ∧ fld r 2 2 ≤ 1024 ∧ fld r 4 2 ≤ 1024 ∧ fld r 6 2 ≤ 1024 ∧ 100 ≤ fld r 8 4 ∧ fld r 8 4 ≤ 2500 ∧
       1000 ≤ fld r 12 4 ∧ fld r 12 4 ≤ 1000000 ∧ fld r 16 2 ≤ 1600 ∧ 1000 ≤ fld r 18 2 ∧ fld r 18 2 ≤ 10000 ∧
       onlyFields r [(0, 20)] = true
   let gov := fun (m : Mbx) =>
     let r := rec64 m
     fld r 0 1 ≤ 1 ∧ fld r 1 1 ≤ 3 ∧ fld r 2 1 ≤ 3 ∧ 960 ≤ fld r 4 2 ∧ fld r 4 2 ≤ 1600 ∧ fld r 6 2 ≤ 160 ∧
       1 ≤ fld r 8 2 ∧ fld r 8 2 ≤ 1000 ∧ 100 ≤ fld r 10 2 ∧ fld r 10 2 ≤ 60000 ∧ 1000 ≤ fld r 12 4 ∧ fld r 12 4 ≤ 100000 ∧
       fld r 16 4 ≤ 2500 ∧ fld r 20 4 ≤ 2500 ∧ fld r 24 4 ≤ 2500 ∧ 100 ≤ fld r 28 4 ∧ fld r 28 4 ≤ 2500 ∧
       onlyFields r [(0, 3), (4, 28)] = true
   let trip := fun (m : Mbx) =>
     let r := rec64 m
     fld r 0 2 ≤ 1680 ∧ fld r 2 2 + 16 ≤ fld r 0 2 ∧ fld r 4 2 ≤ 1600 ∧ fld r 6 2 + 16 ≤ fld r 4 2 ∧ 100 ≤ fld r 8 4 ∧
       fld r 8 4 ≤ 1000000 ∧ onlyFields r [(0, 12)] = true
   ¬ gov m) :=
  by decide +kernel

theorem witness_tripConfig_P1 : Met (sent 0 0x0B04 [] (bytesOf 64 [(0, 1680), (2, 1664), (4, 1600), (6, 1584), (8, 1000000)])) (s0) .pfMgmt [(24, 8)] (fun m _ =>
   let rec64 := fun (m : Mbx) => sliceBytes (mdata m) 0 64
   let cool := fun (m : Mbx) =>
     let r := rec64 m
     fld r 0 2 ≤ fld r 2 2 ∧ fld r 2 2 ≤ 1024 ∧ fld r 4 2 ≤ 1024 ∧ fld r 6 2 ≤ 1024 ∧ 100 ≤ fld r 8 4 ∧ fld r 8 4 ≤ 2500 ∧
       1000 ≤ fld r 12 4 ∧ fld r 12 4 ≤ 1000000 ∧ fld r 16 2 ≤ 1600 ∧ 1000 ≤ fld r 18 2 ∧ fld r 18 2 ≤ 10000 ∧
       onlyFields r [(0, 20)] = true
   let gov := fun (m : Mbx) =>
     let r := rec64 m
     fld r 0 1 ≤ 1 ∧ fld r 1 1 ≤ 3 ∧ fld r 2 1 ≤ 3 ∧ 960 ≤ fld r 4 2 ∧ fld r 4 2 ≤ 1600 ∧ fld r 6 2 ≤ 160 ∧
       1 ≤ fld r 8 2 ∧ fld r 8 2 ≤ 1000 ∧ 100 ≤ fld r 10 2 ∧ fld r 10 2 ≤ 60000 ∧ 1000 ≤ fld r 12 4 ∧ fld r 12 4 ≤ 100000 ∧
       fld r 16 4 ≤ 2500 ∧ fld r 20 4 ≤ 2500 ∧ fld r 24 4 ≤ 2500 ∧ 100 ≤ fld r 28 4 ∧ fld r 28 4 ≤ 2500 ∧
       onlyFields r [(0, 3), (4, 28)] = true
   let trip := fun (m : Mbx) =>
     let r := rec64 m
     fld r 0 2 ≤ 1680 ∧ fld r 2 2 + 16 ≤ fld r 0 2 ∧ fld r 4 2 ≤ 1600 ∧ fld r 6 2 + 16 ≤ fld r 4 2 ∧ 100 ≤ fld r 8 4 ∧
       fld r 8 4 ≤ 1000000 ∧ onlyFields r [(0, 12)] = true
   trip m) :=
  by decide +kernel

theorem witness_tripConfig_D1 : Met (sent 0 0x0B04 [] (bytesOf 64 [(0, 1680), (2, 1665), (4, 1600), (6, 1584), (8, 1000000)])) (s0) .pfMgmt [(24, 8)] (fun m _ =>
   let rec64 := fun (m : Mbx) => sliceBytes (mdata m) 0 64
   let cool := fun (m : Mbx) =>
     let r := rec64 m
     fld r 0 2 ≤ fld r 2 2 ∧ fld r 2 2 ≤ 1024 ∧ fld r 4 2 ≤ 1024 ∧ fld r 6 2 ≤ 1024 ∧ 100 ≤ fld r 8 4 ∧ fld r 8 4 ≤ 2500 ∧
       1000 ≤ fld r 12 4 ∧ fld r 12 4 ≤ 1000000 ∧ fld r 16 2 ≤ 1600 ∧ 1000 ≤ fld r 18 2 ∧ fld r 18 2 ≤ 10000 ∧
       onlyFields r [(0, 20)] = true
   let gov := fun (m : Mbx) =>
     let r := rec64 m
     fld r 0 1 ≤ 1 ∧ fld r 1 1 ≤ 3 ∧ fld r 2 1 ≤ 3 ∧ 960 ≤ fld r 4 2 ∧ fld r 4 2 ≤ 1600 ∧ fld r 6 2 ≤ 160 ∧
       1 ≤ fld r 8 2 ∧ fld r 8 2 ≤ 1000 ∧ 100 ≤ fld r 10 2 ∧ fld r 10 2 ≤ 60000 ∧ 1000 ≤ fld r 12 4 ∧ fld r 12 4 ≤ 100000 ∧
       fld r 16 4 ≤ 2500 ∧ fld r 20 4 ≤ 2500 ∧ fld r 24 4 ≤ 2500 ∧ 100 ≤ fld r 28 4 ∧ fld r 28 4 ≤ 2500 ∧
       onlyFields r [(0, 3), (4, 28)] = true
   let trip := fun (m : Mbx) =>
     let r := rec64 m
     fld r 0 2 ≤ 1680 ∧ fld r 2 2 + 16 ≤ fld r 0 2 ∧ fld r 4 2 ≤ 1600 ∧ fld r 6 2 + 16 ≤ fld r 4 2 ∧ 100 ≤ fld r 8 4 ∧
       fld r 8 4 ≤ 1000000 ∧ onlyFields r [(0, 12)] = true
   ¬ trip m) :=
  by decide +kernel

theorem witness_powerQuery_P1 : Met (cmd 0x0B03 []) (s0) .any [] (fun _ _ => True) :=
  by decide +kernel

theorem witness_devQuery_P1 : Met (cmd 0x0101 []) (s0) .any [] (fun _ _ => True) :=
  by decide +kernel

theorem witness_computeReset_F1 : Met (cmd 0x0104 []) (s0) .pfMgmt [] (fun _ a => a.dev.compute = none) :=
  by decide +kernel

theorem witness_computeReset_D1 : Met (cmd 0x0104 []) (updDev (fun d => { d with compute := some ⟨1, 0, (0, 0)⟩ }) s0) .pfMgmt [] (fun _ a => a.dev.compute ≠ none) :=
  by decide +kernel

theorem witness_fwStage_P1 : Met (sent 0 0x0105 [(24, 65), (32, zeroSha)] (bytesOf 65 [(0, 0x5752465A), (8, 1), (32, zeroSha)])) (s0) .pfMgmt [(16, 12), (32, 32)] (fun m a =>
   let img := fun (m : Mbx) => sliceBytes (mdata m) 0 (mfld m 24 4)
   let good := fun (m : Mbx) => 64 ≤ mfld m 24 4 ∧ mfld m 24 4 ≤ 4194304 ∧ fwHeaderOk (img m) = true ∧
     fld (img m) 8 4 = ((img m).drop 64).length
   let genuine := fun (m : Mbx) => sha256 ((img m).drop 64) = sliceBytes (img m) 32 32 ∧
     sha256 ((img m).drop 64) = (mbytes m).drop 32
   updateBusy m a = false ∧ good m ∧ genuine m) :=
  by decide +kernel

theorem witness_fwStage_D1 : Met (cmd 0x0105 []) ({ s0 with mbx := { s0.mbx with mgmtInflight := [⟨1, false, 0, 0, 0, false, 0x0103⟩] } }) .pfMgmt [(16, 12), (32, 32)] (fun m a =>
   let img := fun (m : Mbx) => sliceBytes (mdata m) 0 (mfld m 24 4)
   let good := fun (m : Mbx) => 64 ≤ mfld m 24 4 ∧ mfld m 24 4 ≤ 4194304 ∧ fwHeaderOk (img m) = true ∧
     fld (img m) 8 4 = ((img m).drop 64).length
   let genuine := fun (m : Mbx) => sha256 ((img m).drop 64) = sliceBytes (img m) 32 32 ∧
     sha256 ((img m).drop 64) = (mbytes m).drop 32
   updateBusy m a = true) :=
  by decide +kernel

theorem witness_fwStage_D2 : Met (cmd 0x0105 [(24, 63)]) (s0) .pfMgmt [(16, 12), (32, 32)] (fun m a =>
   let img := fun (m : Mbx) => sliceBytes (mdata m) 0 (mfld m 24 4)
   let good := fun (m : Mbx) => 64 ≤ mfld m 24 4 ∧ mfld m 24 4 ≤ 4194304 ∧ fwHeaderOk (img m) = true ∧
     fld (img m) 8 4 = ((img m).drop 64).length
   let genuine := fun (m : Mbx) => sha256 ((img m).drop 64) = sliceBytes (img m) 32 32 ∧
     sha256 ((img m).drop 64) = (mbytes m).drop 32
   updateBusy m a = false ∧ ¬ good m) :=
  by decide +kernel

theorem witness_fwStage_D3 : Met (sent 0 0x0105 [(24, 65)] (bytesOf 65 [(0, 0x5752465A), (8, 1)])) (s0) .pfMgmt [(16, 12), (32, 32)] (fun m a =>
   let img := fun (m : Mbx) => sliceBytes (mdata m) 0 (mfld m 24 4)
   let good := fun (m : Mbx) => 64 ≤ mfld m 24 4 ∧ mfld m 24 4 ≤ 4194304 ∧ fwHeaderOk (img m) = true ∧
     fld (img m) 8 4 = ((img m).drop 64).length
   let genuine := fun (m : Mbx) => sha256 ((img m).drop 64) = sliceBytes (img m) 32 32 ∧
     sha256 ((img m).drop 64) = (mbytes m).drop 32
   updateBusy m a = false ∧ good m ∧ ¬ genuine m) :=
  by decide +kernel

theorem witness_cfgWrite_P1 : Met (sent 0 0x0106 [(24, 68)] emptyImage) (s0) .pfMgmt [(16, 12)] (fun m a =>
   let img := fun (m : Mbx) => sliceBytes (mdata m) 0 (mfld m 24 4)
   let sound := fun (m : Mbx) => (checkConfig fun k => sliceBytes (img m) 0 k).reason = 0 ∧
     (checkConfig fun k => sliceBytes (img m) 0 k).len ≤ mfld m 24 4
   updateBusy m a = false ∧ sound m) :=
  by decide +kernel

theorem witness_cfgWrite_D1 : Met (cmd 0x0106 []) ({ s0 with mbx := { s0.mbx with mgmtInflight := [⟨1, false, 0, 0, 0, false, 0x0105⟩] } }) .pfMgmt [(16, 12)] (fun m a =>
   let img := fun (m : Mbx) => sliceBytes (mdata m) 0 (mfld m 24 4)
   let sound := fun (m : Mbx) => (checkConfig fun k => sliceBytes (img m) 0 k).reason = 0 ∧
     (checkConfig fun k => sliceBytes (img m) 0 k).len ≤ mfld m 24 4
   updateBusy m a = true) :=
  by decide +kernel

theorem witness_cfgWrite_D2 : Met (cmd 0x0106 [(24, 68)]) (s0) .pfMgmt [(16, 12)] (fun m a =>
   let img := fun (m : Mbx) => sliceBytes (mdata m) 0 (mfld m 24 4)
   let sound := fun (m : Mbx) => (checkConfig fun k => sliceBytes (img m) 0 k).reason = 0 ∧
     (checkConfig fun k => sliceBytes (img m) 0 k).len ≤ mfld m 24 4
   updateBusy m a = false ∧ ¬ sound m) :=
  by decide +kernel

end Sys2Proof.Tests
end

