-- ==== Sys2Proof/Tests/Witness3.lean ====
section
/-!
SUPPORT. Witnesses of the statements: concrete states and operands that meet the hypotheses, clause by clause, for the events and remaining commands of
chapters 1 to 9.
-/
namespace Sys2Proof.Tests
open Sys2Proof Sys2Proof.Machine
set_option Elab.async false

/-! ### The queue, the clock and the invariant (obligations of chapter 1) -/

theorem witness_EmptyQueue : s0.pending = [] ∧ s0.dev.por = true ∧ s0.host.msgWait = [] ∧
    (let s : State := { s0 with dev := { s0.dev with por := false }, host := { s0.host with msgWait := [.unsupported 0] } }
     s.dev.por = false ∧ s.host.msgWait ≠ []) := by decide +kernel

theorem witness_Front : let s := { s0 with pending := [.acquireTimeout 0] }
    s.pending = .acquireTimeout 0 :: [] := by decide +kernel

/-- A state with a word in memory that keeps the canonical form, and a step from it. -/
theorem witness_Canonical : let s := memWrite 0 [1] s0
    State.Inv s ∧ s.mem.mem.bytes ≠ [] ∧ ∃ t, Sys2Proof.Machine.step s = .next t := by
  have h : (memWrite 0 [1] s0).mem.mem.wf = true := by decide +kernel
  exact ⟨h, by decide +kernel, _, rfl⟩

/-! ### The mailbox (obligations of chapters 15, 19 and 22) -/

/-- Reserved byte 3 set: no common check lets it through. -/
def badCmd : Mbx := cmd 0x0101 [(3, 1)]

theorem witness_RejectedCommandsOnlyComplete :
    ∀ b ∈ [By.own, .pf, .any, .mgmt, .pfMgmt], (admitCmd badCmd b [(16, 2), (24, 8)] s0).1 ≠ stOk := by decide +kernel

theorem witness_CommonChecksOfACommand_reserved : reservedClear badCmd [] = false ∧ reservedClear (cmd 0x0103 [(16, 2)]) [(16, 1)] = false ∧
    reservedClear (cmd 0x0103 [(16, 1)]) [(16, 1)] = true ∧ (16, 1) ∈ partBytes (mfld (cmd 0x0103 [(16, 1)]) 0 2) ∧
    reservedClear (cmd 0x0202 []) [] = true := by decide +kernel

theorem witness_CommonChecksOfACommand_recovery : let s := updDev (fun d => { d with fwRecovery := true }) s0
    recoveryRefuses (beginCmd (cmd 0x0202 []) s) (mfld (cmd 0x0202 []) 0 2) = true ∧
    recordsCtx (beginCmd (cmd 0x0202 []) s) 0 = false := by decide +kernel

theorem witness_CommonChecksOfACommand_shutOut :
    let s := updDet (fun d => { d with replay := some { Replay.blank with ctx := some 0 } }) s0
    recoveryRefuses (beginCmd (cmd 0x0202 []) s) 0x0202 = false ∧ shutOut (cmd 0x0202 []) (beginCmd (cmd 0x0202 []) s) = true := by
  decide +kernel

theorem witness_CommonChecksOfACommand_form : let m := cmd 0x0101 [(2, 3)]
    recoveryRefuses (beginCmd m s0) (mfld m 0 2) = false ∧ shutOut m (beginCmd m s0) = false ∧
    onlyFields (mbytes m) [(0, 3), (4, 12)] = true ∧ mfld m 2 1 < 4 ∧ issuerOk .any m.input.toNat = true ∧ m.data = .ok [] [] ∧
    4 ≤ mfld (cmd 0x0101 [(2, 4)]) 2 1 ∧ issuerOk .mgmt 0 = false ∧ onlyFields (mbytes badCmd) [(0, 3), (4, 12)] = false := by
  decide +kernel

theorem witness_CompletionEntryOfARing : let i : Inflight := ⟨65535, false, 0, 0, 0, false, 0x0101⟩
    65535 < 65536 ∧ (s0.fn 0).state ≠ 2 ∧ i.intr = false ∧ s0.host.msgWait = [] ∧ 0 < messageRoom s0 ∧
    messageRoom { s0 with host := { s0.host with msgBatten := 0, msgCount := 64 } } = 0 ∧
    ((s0.setRing 0 { MbxRing.reset with firstSinceCI := false }).ring 0).firstSinceCI = false := by decide +kernel

theorem witness_AccessesOfWrongWidthOrAlignment : let w : RegWrite := ⟨0, .bar0, 4, true, 0⟩
    let v : RegWrite := ⟨0, .bar2, 8, true, 0⟩
    (s0.fn 0).state ≠ 0 ∧ (s0.fn 0).state ≠ 2 ∧ (w.bar ≠ .bar2 ∧ w.wide = true ∧ w.off.toNat % 8 ≠ 0) ∧
    (v.bar = .bar2 ∧ v.off.toNat % 4 = 0 ∧ v.wide = true) := by decide +kernel

theorem witness_RegisterWrites_states : (s0.fn 0).state = 1 ∧ ((s0.setFn 255 { fnDefault 255 with state := 2 }).fn 255).state = 2 ∧
    (s0.fn 255).state = 0 := by decide +kernel

theorem witness_RegisterWrites_low : let w : RegWrite := ⟨0, .bar0, 0x10, false, 1⟩
    ∃ a, regAt 0 w.off.toNat = some a ∧ w.off.toNat < 0x8000000 ∧
      (a.wide = true → w.off.toNat % 4 = 0) := by
  refine ⟨_, rfl, ?_⟩; decide +kernel

theorem witness_RegisterWrites_halves : let w : RegWrite := ⟨0, .bar0, 0x1C, false, 1⟩
    ∃ a, regAt 0 (w.off.toNat - 4) = some a ∧ a.wide = true ∧ regAt 0 w.off.toNat = none ∧ w.off.toNat % 8 = 4 := by
  refine ⟨_, rfl, ?_⟩; decide +kernel

theorem witness_RegisterReads : (s0.fn 0).state = 1 ∧ regAt 0 (0x18 + 4) = none ∧
    (∃ a, regAt 0 0x18 = some a ∧ a.wide = true ∧ 0x18 % 8 = 0) ∧ (∃ a, regAt 0 0x10 = some a ∧ a.wide = false ∧ 0x10 % 8 = 0) ∧
    (∃ lo, Tab.get none (Tab.set none s0.host.lowHeld (2 ^ 28 * 0 + 0x18) (some 7)) (2 ^ 28 * 0 + 0x18) = some lo) := by
  refine ⟨by decide +kernel, by decide +kernel, ⟨_, rfl, ?_⟩, ⟨_, rfl, ?_⟩, _, rfl⟩ <;> decide +kernel

theorem witness_RegisterWrites_unmapped : regAt 0 0x7FFFFF8 = none ∧ regAt 0 0x7FFFFF4 = none ∧ (0x7FFFFF8 : Nat) % 8 = 0 := by
  decide +kernel

theorem witness_RegisterWrites_msix : let s := s0.setVec 0 2047 { Msix.reset with pending := true }
    let w : RegWrite := ⟨0, .bar4, 32764, false, 0⟩
    (s.fn 0).state = 1 ∧ w.off.toNat = 16 * 2047 + 12 ∧ 2047 < (s.fn 0).vectors ∧ (s.vec 0 2047).pending = true ∧
    w.data.getLsbD 0 = false := by decide +kernel

/-- The ring of function 0 enabled with 16 slots, and a command in it. -/
def ringOn (pi : BitVec 32) : State :=
  s0.setRing 0 { MbxRing.reset with en := true, cmdPI := pi, headSince := some 0, firstSinceCI := true }

theorem witness_MailboxRingRegisters_pi : let g := (ringOn 0).ring 0
    (s0.fn 0).state = 1 ∧ g.en = true ∧ g.err = 0 ∧ ((16 : BitVec 32) - g.cmdPI).toNat ≤ 2 ^ g.cmdLog ∧
    2 ^ g.cmdLog < ((17 : BitVec 32) - g.cmdPI).toNat ∧ (MbxRing.reset).en = false ∧
    ((ringOn 0).setRing 0 { g with err := 1 }).mbx.rings ≠ [] := by decide +kernel

theorem witness_MailboxRingRegisters_ci : let g : MbxRing := { MbxRing.reset with cplPI := 16 }
    ((16 : BitVec 32) - g.cplCI).toNat ≤ 2 ^ g.cplLog ∧ (g.cplPI - 16).toNat ≤ 2 ^ g.cplLog ∧ 2 ^ g.cplLog < ((17 : BitVec 32) - g.cplCI).toNat := by
  decide +kernel

theorem witness_MailboxRingRegisters_enable : let g : MbxRing := { MbxRing.reset with cmdRing := 12, cplRing := 4, enablePending := true }
    let b : MbxRing := { MbxRing.reset with cmdRing := 13 }
    let busy : MbxRing := { MbxRing.reset with inflight := [⟨0, false, 0, 0, 0, false, 0x0101⟩] }
    (g.en = false ∧ g.keptPI = none ∧ 4 ≤ g.cmdRing.toNat % 16 ∧ g.cmdRing.toNat % 16 ≤ 12 ∧ 4 ≤ g.cplRing.toNat % 16 ∧
      g.cplRing.toNat % 16 ≤ 12 ∧ g.inflight = [] ∧ g.enablePending = true) ∧
    (b.en = false ∧ b.inflight = [] ∧ 12 < b.cmdRing.toNat % 16) ∧ (busy.en = false ∧ busy.inflight ≠ []) ∧ MbxRing.reset.enablePending = false := by
  decide +kernel

/-- A head of function 0: DEV_QUERY, or an opcode that is not listed. -/
def head0 (op : Nat) : Head := ⟨0, BitVec.ofNat 512 op⟩

theorem witness_CommandsAreAccepted : let s := updDev (fun d => { d with hostReady := true }) (ringOn 1)
    mayAccept s = true ∧ mayAccept { s with mbx := { s.mbx with lastAccept := some s.root } } = false ∧
    headAcceptable s (head0 0x0101) = true ∧ s.mbx.mgmtWaiting = [] ∧ opcodes.contains 0x0101 = true ∧
    headAcceptable s (head0 0xFFFF) = true ∧ opcodes.contains 0xFFFF = false ∧ recoveryRefuses s 0xFFFF = false ∧ recordsCtx s 0 = false := by
  decide +kernel

theorem witness_CommandsAreAccepted_none : [head0 0x0101].filter (headAcceptable s0) = [] ∧ mgmtAcceptable s0 = false := by decide +kernel

theorem witness_CommandsAreAccepted_mgmt : let s := { s0 with mbx := { s0.mbx with mgmtWaiting := [⟨1, 0x0101, []⟩] } }
    mayAccept s = true ∧ mgmtAcceptable s = true ∧ opcodes.contains (dfld 0x0101 0 2) = true := by decide +kernel

theorem witness_CommandTimeout : let s := { ringOn 1 with clk := { s0.clk with ridge := 1966080 } }
    let g := s.ring 0
    g.en = true ∧ g.err = 0 ∧ g.cmdPI ≠ g.cmdCI ∧ g.headSince = some 0 ∧ dfld 0x100000101 4 2 = 1 ∧ 0 + 1966080 * 1 ≤ s.now ∧
    (g.cplPI - g.cplCI).toNat + g.inflight.length < 2 ^ g.cplLog ∧ dfld 0x0101 4 2 = 0 := by decide +kernel

theorem witness_ManagementCommandFrames_bad : mgmtFrameOk s0 [] = false := by decide +kernel

/-- A management command frame with an MSEQ of 5, of 112 bytes, for serial `x`; LEASE_KEY_SET while no key is set. -/
def mgmtFrame (x : Nat) : List Byte :=
  [6, 1, 0, 0] ++ leBytes 8 x ++ leBytes 4 5 ++ leBytes 16 0 ++ leBytes 2 0x0C02 ++ leBytes 78 0

theorem fld_serial (n : Nat) (h : n < 2 ^ 64) : fld (mgmtFrame n) 4 8 = n := by
  simp only [mgmtFrame, leBytes, List.cons_append, List.nil_append, fld, sliceBytes, List.drop, List.take, List.length, ofLE,
    BitVec.toNat_ofNat, List.replicate, List.append_nil, Nat.sub_self]
  omega

theorem witness_ManagementCommandFrames_good : mgmtFrameOk s0 (mgmtFrame Config.serial.toNat) = true ∧
    fld (mgmtFrame Config.serial.toNat) 12 4 = 5 := by
  have hs := fld_serial Config.serial.toNat Config.serial.isLt
  refine ⟨?_, rfl⟩
  unfold mgmtFrameOk
  simp only [hs, beq_self_eq_true, Bool.and_true]
  rfl

theorem witness_ManagementCommandFrames_repeat : let s := { s0 with mbx := { s0.mbx with lastMseq := some 5, seen := [⟨5, some []⟩, ⟨4, none⟩] } }
    s.mbx.lastMseq = some 5 ∧ 5 ≤ 5 ∧ s.mbx.seen.find? (·.mseq == 5) = some ⟨5, some []⟩ ∧ s.mbx.seen.find? (·.mseq == 4) = some ⟨4, none⟩ ∧
    s.mbx.seen.find? (·.mseq == 3) = none := by decide +kernel

/-! ### Traffic and host queues (obligations of chapters 14 and 15) -/

theorem witness_Schedulers_decision : radioFirst s0 79 = false ∧ ptpWaits s0 81 = false ∧ 8 ≤ 79 ∧ 79 < 80 ∧ s0.flt.fenced = true ∧
    Tab.wf Queue.reset s0.traf.queues = true ∧ radioFirst s0 81 = false ∧
    pickRival (atDecision 81 s0) (egressRivals (atDecision 81 s0) 81) = none := by decide +kernel

/-- Function 0's queue 5 at egress 81 with a fetched descriptor waiting. -/
def descState (op phase : Nat) : State :=
  s0.setQueue 5 { Queue.reset with
    en := true, level := 1, egress := 81, weight := 1, cls := 0xFFFF, hasRing := true, logSlots := 6, pi := 2, ci := 0, fetchAt := 1,
    landSize := 65536,
    descs := [{ index := 0, op := op, intr := false, order := false, len := 64, host := 4096, target := 0, payload := [], phase := phase,
                served := 64, asked := 0, landAt := 0, status := 0 }] }

theorem witness_Schedulers_ptp : ptpWaits ((descState 4 0).setPtp 7 { PtpPort.reset with enable := true, txq := 5 }) (7 : BitVec 7).toNat = true := by
  decide +kernel

theorem witness_Schedulers_serves : let s := descState 1 0
    let v := atDecision 81 s
    radioFirst s 81 = false ∧ 80 ≤ 81 ∧
      (pickRival v (egressRivals v 81)).map (fun r => (r.fetch, r.hq, (serveHead r.hq v).1)) = some (false, 5, true) := by decide +kernel

theorem witness_Schedulers_radioFirst : let s := updFhPort 0 (fun p => { p with link := true, frames := [⟨0, 0, 0, 0, [], 0⟩] }) s0
    radioFirst s 0 = true := by decide +kernel

theorem witness_ShaperRefill : (at_ 1023).now % 1024 ≠ 0 ∧ (at_ 1024).now % 1024 = 0 ∧ (at_ 1024).traf.lastRefill ≠ some (at_ 1024).now ∧
    Tab.wf Queue.reset s0.traf.queues = true ∧ Tab.wf QClass.reset s0.traf.classes = true ∧ Tab.wf Policer.reset s0.traf.policers = true := by
  decide +kernel

theorem witness_StippleSample : let p : Stipple := { Stipple.reset with en := true, n := 10, count := 1, size := 65536 }
    let f : Stipple := { p with wp := 65472 }
    (at_ 16384).now % (16 * 2 ^ p.n) = 0 ∧ alignUp (32 + 8 * p.count) 64 < p.size - (p.wp + p.size - p.rp) % p.size ∧
    f.size - (f.wp + f.size - f.rp) % f.size ≤ alignUp (32 + 8 * f.count) 64 ∧ s0.traf.stipple.en = false := by decide +kernel

theorem witness_Doorbells : let q := (descState 1 0).queue 5
    (s0.fn 0).state = 1 ∧ (s0.fn 0).atsEn = false ∧ q.en = true ∧ q.fn = 0 ∧ q.hasRing = true ∧ q.error = 0 ∧ replaysCtx (descState 1 0) 0 = false ∧ q.producer = 0 ∧
    ((64 : BitVec 32) - q.ci).toNat ≤ 2 ^ q.logSlots ∧ ((64 : BitVec 32) - q.pi).toNat ≤ 2 ^ q.logSlots ∧
    2 ^ q.logSlots < ((65 : BitVec 32) - q.ci).toNat ∧ q.fetchAt ≠ q.pi.toNat ∧ q.descs.length < 8 ∧ (s0.queue 5).en = false := by
  decide +kernel

theorem witness_Doorbells_device : let q : Queue := { Queue.reset with en := true, hasRing := true, producer := 1, logSlots := 6, pi := 64 }
    ((64 : BitVec 32) - q.ci).toNat ≤ 2 ^ q.logSlots ∧ (q.pi - 64).toNat ≤ 2 ^ q.logSlots ∧ 2 ^ q.logSlots < ((65 : BitVec 32) - q.ci).toNat := by
  decide +kernel

theorem witness_Coalesce : let q : Queue := { Queue.reset with en := true, coalTime := 1, unsignalled := 1 }
    (at_ 1024).now % 1024 = 0 ∧ q.coalTime ≠ 0 ∧ 0 < q.unsignalled ∧ q.firstUnsignalled + 1024 * q.coalTime ≤ (at_ 1024).now := by
  decide +kernel

theorem witness_Ats : let s := { s0 with host := { s0.host with atsPending := [(0, 7)] } }
    s.host.atsPending.contains (0, 7) = true ∧ (s.host.atc.filter (·.fn == 0)).length < (s.fn 0).atcShare ∧
    s0.host.atsPending.contains (0, 7) = false ∧ s0.host.invPending = [] ∧ s0.host.reads = [] ∧ s.traf.queues = [] ∧
    (∃ d ∈ ((descState 1 0).queue 5).descs, lacks 1 false true d = true) ∧ (∀ d ∈ ((descState 1 0).queue 5).descs, lacks 1 true false d = false) ∧
    (∀ e ∈ (descState 1 0).traf.queues, e.2.indexDue = false) := by decide +kernel

theorem witness_HostDescriptors : ∃ d, findDesc (descState 1 0) 5 0 = some d ∧ ((descState 1 0).fn 0).atsEn = false ∧ d.op = 1 ∧ d.phase < 2 ∧
    ((descState 1 0).queue 5).error = 0 ∧ d.asked = 0 ∧ 0 < d.served ∧ d.host % 4096 + d.served ≤ 4096 ∧ (descState 1 0).host.reads.length < 1024 :=
  ⟨_, rfl, by decide +kernel⟩

theorem witness_HostDescriptors_message : ∃ d, findDesc (descState 2 0) 5 0 = some d ∧ d.op = 2 ∧ d.phase < 2 ∧ d.asked = 0 ∧ 0 < d.served ∧
    (let q := (descState 2 0).queue 5
     (fld (memRead 257 q.land 4 (descState 2 0)).1.bytes 0 4 + 8) % (q.landSize - 64) + d.served ≤ q.landSize - 64) ∧
    ((descState 2 0).queue 5).descs.any (fun e => e.op == 2 && e.asked != 0 && e.index != d.index && decide (e.phase < 2)) = false :=
  ⟨_, rfl, by decide +kernel⟩

theorem witness_HostDescriptors_toHost : ∃ d, findDesc (descState 3 1) 5 0 = some d ∧ d.op = 3 ∧ d.phase = 1 ∧
    targetOk (descState 3 1) ((descState 3 1).queue 5) d.target d.len = false ∧ ((descState 3 1).queue 5).error = 0 ∧ d.asked = 0 ∧
    d.len ≤ 512 ∧ 0 < d.len ∧ d.host % 4096 + d.len ≤ 4096 :=
  ⟨_, rfl, by decide +kernel⟩

/-- The same with the memory it reads from owned by function 0. -/
def ownState (op phase : Nat) : State := { withRange 0 1 with traf := (descState op phase).traf }

theorem witness_HostDescriptors_reads : let s := ownState 3 1
    targetOk s (s.queue 5) 0 64 = true ∧ (memRead 0 0 64 s).1.poison = false := by decide +kernel

theorem witness_HostDescriptors_frame : ∃ d, findDesc (descState 4 1) 5 0 = some d ∧ d.op = 4 ∧ d.phase = 1 ∧ d.payload.length ≤ 2044 ∧
    2044 < { d with payload := List.replicate 2045 0 }.payload.length :=
  ⟨_, rfl, by decide +kernel⟩

theorem witness_DmaReadCompletion : let s := { updDesc 5 0 (fun d => { d with asked := 64 }) (ownState 1 1) with
      host := { s0.host with reads := [⟨0, 5, 0, 4096, 64, 0⟩] } }
    (∃ d, findDesc s 5 0 = some d ∧ d.op = 1 ∧ d.phase = 1 ∧ d.len ≤ d.asked) ∧ (s.queue 5).error = 0 ∧ s.host.reads = [⟨0, 5, 0, 4096, 64, 0⟩] ∧ s.host.invPending = [] ∧ targetOk s (s.queue 5) 0 64 = true ∧
    recordsCtx s (if (s.queue 5).ran then 256 else 0) = false := by
  refine ⟨⟨_, rfl, ?_⟩, ?_⟩ <;> decide +kernel

theorem witness_DescriptorComplete : let q := (descState 1 2).queue 5
    q.descs.length = 1 ∧ (∀ e ∈ q.descs, e.phase = 2 ∧ e.index = 0) ∧ q.error = 0 ∧ ((descState 1 2).fn q.fn).state = 1 := by decide +kernel

theorem witness_Descriptor_none : findDesc s0 5 0 = none := by decide +kernel

/-! ### Plates, epochs and contexts (obligations of chapters 2, 16 and 20) -/

/-- A compute plate in force with window 4095 of 983,040 ticks from tick 16, and its occurrences. -/
def winPlate (kind : Nat) (l : List Running) : Plate :=
  { plate0 kind 2 with windows := [⟨4095, 0, 7, 0, false, 0, 16, 64, 0, 0, 0⟩], running := l }

/-- An occurrence of that window. -/
def run0 (begun ended : Bool) : Running := ⟨4095, 0, 0, 16, 0, 16, 0, stOk, false, 0, 0, begun, 0, ended⟩

theorem witness_Windows_none : s0.plate 65535 = none ∧ (∀ x ∈ (winPlate 2 []).windows, x.window ≠ 0) := by decide +kernel

theorem witness_Windows_due : let s := (at_ 16).setPlate 1 (some (winPlate 2 [])) |>.setCtx 0 { Ctx.reset with state := 1 }
    let s := { s with clk := { s.clk with tier := 0 } }
    let p := winPlate 2 []
    p.windows.filter (·.window == 4095) = p.windows ∧ 16 ≤ s.now ∧ (s.now - 16) % gridPeriod 7 = 0 ∧ Tab.get 0 p.seen 4095 ≠ s.now + 1 ∧
    p.kind ≠ 1 ∧ p.firstEpoch * epochTicks + 16 ≤ s.now ∧ p.state = 2 ∧ p.held = false ∧ p.startPending = false ∧
    s.clk.tier.toNat ≤ limitOf p s ∧ (∀ r ∈ p.running, r.ended = true ∨ (r.hold ≠ 2 ∧ r.hold ≠ 3)) ∧ s.flt.probation = false ∧ ctxHeld s p.owner = false ∧ (s.ctx p.owner).state = 1 ∧
    (s.ctx p.owner).state ≠ 4 := by decide +kernel

theorem witness_Windows_early : (at_ 15).now < 16 ∧ (at_ 16).now < 1 * epochTicks + 16 ∧ ((at_ 17).now - 16) % gridPeriod 7 ≠ 0 := by
  decide +kernel

theorem witness_WindowEnd : let p := winPlate 2 [run0 true false]
    (∀ r ∈ p.running, r.window = 4095 ∧ r.winStart + 64 = (at_ 80).now ∧ r.ended = false ∧ r.overrun = false ∧ r.hold < 2) ∧
    (∀ r ∈ p.running, r.winStart + 64 ≠ (at_ 79).now) ∧ (s0.ctx p.owner).state ≠ 4 := by decide +kernel

theorem witness_PlateCommandEnd : let p := winPlate 2 [run0 true false]
    p.running.find? (fun r => r.window == 4095 && r.begun && !r.ended) = some (run0 true false) ∧
    commandEnded s0 (readStart p.prog 0) = true ∧ (∀ k ∈ recordCores (readStart p.prog 0), k = 0) ∧
    (winPlate 2 []).running.find? (fun r => r.window == 4095 && r.begun && !r.ended) = none := by decide +kernel

theorem witness_PlateCommandEnd_core : let s := s0.setCore 0 { Core.reset with live := some ⟨1, 4095, 16, 0, 0, 0, 0, 0, false⟩ }
    let r := run0 true false
    recordCores (readStart (bytesOf 64 [(6, 1)]) 0) = [0] ∧ commandEnded s (readStart (bytesOf 64 [(6, 1)]) 0) = true ∧
    ∃ l, (s.coreAt 0).live = some l ∧ l.plate = 1 ∧ l.start = r.start ∧ l.window = r.window := by
  refine ⟨by decide +kernel, by decide +kernel, _, rfl, ?_⟩; decide +kernel

theorem witness_PlateCommandEnd_runs : let s := s0.setThread 0 { Thread.reset with live := true }
    commandEnded s (readStart (bytesOf 64 [(6, 1)]) 0) = false := by decide +kernel

theorem witness_Impression : let p := winPlate 2 [run0 true true]
    (∀ r ∈ p.running, r.impression = 0 ∧ r.ended = true ∧ r.status = stOk) ∧ plateQueues s0 1 = [] ∧ s0.schedule 1 16 = none ∧
    (s0.ctx p.owner).state ≠ 2 ∧ (∀ r ∈ (winPlate 1 [run0 true true]).running, r.cell = 0 ∧ r.impression = 0 ∧ r.ended = true ∧
      (∀ x ∈ (winPlate 1 []).windows, r.slot + x.start % ((at_ 16).cell 0).slotTicks ≤ (at_ 16).now) ∧ r.slot ≤ (at_ 16).now) := by decide +kernel

theorem witness_PartitionClearDone : let s := { s0 with plates := { s0.plates with clearing := [⟨1, 511, true, 0⟩, ⟨2, 3, true, 0⟩] } }
    s.plates.clearing.find? (fun c => c.kind == 1 && c.index == 511) = some ⟨1, 511, true, 0⟩ ∧ (s.coreAt 511).live = none ∧
    s0.plates.clearing.find? (fun c => c.kind == 1 && c.index == 511) = none ∧
    ((s0.setCore 511 { Core.reset with live := some ⟨1, 0, 0, 0, 0, 0, 0, 0, false⟩ }).coreAt 511).live.isSome = true := by decide +kernel

theorem witness_Epochs : (at_ epochTicks).now % epochTicks = 0 ∧ (at_ 1).now % epochTicks ≠ 0 ∧ s0.dev.hbmReady = false ∧
    (updDev (fun d => { d with hbmReady := true }) (at_ epochTicks)).dev.hbmReady = true ∧
    (at_ epochTicks).dev.pwr.planned ≠ some ((at_ epochTicks).epochNow + 1) := by decide +kernel

theorem witness_Governor_limits : ranLimit (at_ epochTicks) 2 < 4 ∧ (updPwr (fun p => { p with tripOn := true }) s0).dev.pwr.tripOn = true ∧
    (let p := { s0.dev.pwr with gov := { s0.dev.pwr.gov with fixed := true, fixedTier := 3 } }
     p.govNew = none ∧ p.gov.fixed = true ∧ p.gov.fixedTier < 4 ∧ p.tripOn = false ∧ p.thermIn.fault = false ∧ p.thermOut.fault = false) := by
  decide +kernel

theorem witness_Images : let s := s0.setCtx 255 { Ctx.reset with state := 3, due := 10 }
    let r := s0.setCtx 255 { Ctx.reset with state := 5 }
    (s.ctx 255).state = 3 ∧ s.now < (s.ctx 255).due ∧ (s.ctx 255).due ≤ (at_ 10).now ∧ (r.ctx 255).state = 5 ∧ (r.ctx 255).due ≤ r.now ∧
    (s0.ctx 255).state ≠ 3 ∧ (s0.ctx 255).state ≠ 5 := by decide +kernel

/-- The smallest compute plate image: one core, one window of 512 ticks in every epoch, one timing entry, a program without records. -/
def plainImage : List Byte :=
  bytesOf 384 [(0, 0x504C4A5A), (4, 2), (6, 2), (7, 1), (9, 2), (0xA, 1), (0xC, 384), (0x10, 128), (0x14, 64), (0x18, 192), (0x1C, 1), (0x20, 256),
    (0x24, 1), (0x28, 320), (0x2C, 1), (192, 1), (198, 1), (258, 2), (259, 3), (262, 0xFFFF), (268, 512), (327, 1), (328, 1)]

/-- The same with its digest in place, and the command that loads it for function 0. -/
def sealedImage : List Byte := placeBytes plainImage 0x40 (sha256 plainImage)
def loadCmd : Mbx := sent 0 0x0201 [(24, 384), (32, fld sealedImage 0x40 32)] sealedImage

theorem witness_PlateLoad : Met loadCmd (s0.setQuota 0 0 ⟨65536, 0⟩) .own [(16, 8), (24, 4), (28, 1), (32, 32)] (fun m a =>
    let p := plateOf (sliceBytes (mdata m) 0 (mfld m 24 4)) (mfld m 28 1)
    128 ≤ mfld m 24 4 ∧ mfld m 24 4 ≤ 0x10000000 ∧ (a.fn (mfld m 28 1)).state = 1 ∧ (issuer m = 0 ∨ mfld m 28 1 = issuer m) ∧
    checkImage (sliceBytes (mdata m) 0 (mfld m 24 4)) (mfld m 28 1) (sliceBytes (mbytes m) 32 32) = stOk ∧
    (plateList a).length < 512 ∧ ((plateList a).map fun q => reserveBytes q.2).sum + reserveBytes p ≤ 0x10000000 ∧
    (p.kind = 2 → overQuota a (mfld m 28 1) 0 (alignUp (mfld m 24 4) 65536) = false)) := by decide +kernel

/-! ### Threads (obligations of chapter 4) -/

/-- Core 0 runs a plate command whose program has 64 bytes with a word at the context's pc; context 0 is in the given state. -/
def threadState (x : Thread) (w : Word := 0) : State :=
  ((s0.setPlate 1 (some { plate0 2 2 with image := List.replicate x.pc.toNat 0 ++ leBytes 8 w.toNat, progLen := 64 })).setCore 0
    { Core.reset with live := some ⟨1, 0, 0, 0, 0, 7, 0, 0, false⟩ }).setThread 0 { x with live := true }

/-- A context that may execute, with two registers. -/
def ready (a b : Word) : Thread := { Thread.reset with state := 1, regs := [(1, a), (2, b)] }

/-- Whatever word stands in its program, such a context issues it: the hypotheses about `fetched` can be met for every instruction. -/
theorem fetched_threadState (a b m w : Word) : fetched (threadState { ready a b with pendingMask := m.truncate 32 } w) (0 : BitVec 12).toNat = some w := by
  have h : fetched (threadState { ready a b with pendingMask := m.truncate 32 } w) 0 = some (BitVec.ofNat 64 (ofLE (leBytes 8 w.toNat))) := rfl
  show fetched _ 0 = _
  rw [h, ofLE_leBytes 8 _ w.isLt, BitVec.ofNat_toNat, BitVec.setWidth_eq]

theorem witness_ThreadArithmetic : let s := threadState (ready 1 2)
    mayIssue s 0 = true ∧ (s.thread 0).pendingMask = 0 ∧ (s.thread 0).pc.toNat + 16 ≤ progLenOf s 0 ∧ (0x7FFFFF : BitVec 41).toNat < 2 ^ 23 ∧
    (s.coreAt 0).live = some ⟨1, 0, 0, 0, 0, 7, 0, 0, false⟩ := by decide +kernel

theorem witness_ThreadArithmetic_last : let s := threadState { ready 1 2 with pc := 48 }
    (s.thread 0).pc.toNat + 16 ≤ progLenOf s 0 ∧ progLenOf s 0 < (s.thread 0).pc.toNat + 8 + 16 := by decide +kernel

theorem witness_ThreadsWaitOrHalt : let s := threadState { ready 1 2 with pendingMask := 2 }
    mayIssue s0 0 = false ∧ mayIssue s 0 = true ∧ (s.thread 0).isPending 1 = true ∧ fetched s 0 ≠ some (insnWord 0x01 0 1 2 0) ∧
    0x2A ≤ (0x2A00000000000000 : BitVec 64).toNat / 2 ^ 56 ∧ (0x0E ≤ (0x0F00000000000000 : BitVec 64).toNat / 2 ^ 56 ∧
      (0x0F00000000000000 : BitVec 64).toNat / 2 ^ 56 ≤ 0x0F) ∧
    (let e := threadState { ready 1 2 with pc := 56 }
     mayIssue e 0 = true ∧ (e.thread 0).pendingMask = 0 ∧ fetched e 0 = some 0 ∧ progLenOf e 0 < (e.thread 0).pc.toNat + 16) := by decide +kernel

theorem witness_ThreadLoads : let s := threadState (ready 0x7FFF8 2)
    ((s.thread 0).reg 1 + (0 : BitVec 41).signExtend 64).toNat = 0x7FFF8 ∧ 0x7FFF8 % 2 ^ 3 = 0 ∧ 0x7FFF8 + 2 ^ 3 ≤ 0x80000 ∧
    s.mem.mem.poisonAt (0xE800000000 + 0x7FFF8) 8 = false ∧ 0x80000 < 0x80000 + 1 ∧ 1 % 2 ^ 3 ≠ 0 := by decide +kernel

/-- The same with device memory from 0 owned by the core's context. -/
def extState (x : Thread) (q : List MeEntry) (w : Word := 0) : State :=
  let s := { threadState x w with mem := (withRange 0 1).mem }
  (s.setCore 0 { s.coreAt 0 with resident := some 0 }).setMeQueue 0 q

/-- An entry of a move engine's queue. -/
def entry0 : MeEntry := ⟨0, 0, 0, 0, 0, 0, false, [], 0, 0, 0, 0, false, false, none⟩

theorem witness_ThreadExt : let s := extState (ready 64 2) []
    mayIssue s 0 = true ∧ extAddrStatus s 0 64 = stOk ∧ (s.meQueue 0).length < 8 ∧ rackCheck s (coreHolder s 0) 64 8 false = stOk ∧
    rackCheck s (coreHolder s 0) 64 8 true = stOk ∧ 8 ≤ ((extState (ready 64 2) (List.replicate 8 entry0)).meQueue 0).length ∧
    fetched (extState (ready 64 2) [] (insnWord 0x13 0 1 2 0)) 0 = some (insnWord 0x13 0 1 2 0) := by decide +kernel

theorem witness_ThreadControl : let s := threadState (ready 1 2)
    0 ≤ ((s.thread 0).pc.toNat : Int) + 8 * (7 : BitVec 41).toInt ∧
    ((s.thread 0).pc.toNat : Int) + 8 * (7 : BitVec 41).toInt + 8 ≤ progLenOf s 0 ∧
    2 ^ 31 ≤ (((s.coreAt 0).counter 63).count - ((s.thread 0).reg 1).truncate 32).toNat ∧
    (((s.coreAt 0).counter 63).count - ((s.thread 0).reg 0).truncate 32).toNat < 2 ^ 31 ∧
    ((s.thread 0).reg 0).toNat ≤ s.now ∧ s.now < ((s.thread 0).reg 1).toNat ∧ (s.thread 0).state ≠ 4 ∧
    fenceOpen s 0 true = true ∧ commandThreads s 0 = [0] := by decide +kernel

theorem witness_ThreadControl_waits : let s := threadState { ready 1 2 with state := 4, outstanding := 1 }
    (s.thread 0).state = 4 ∧ (s.thread 0).target ≤ s.now ∧ fenceOpen s 0 false = false ∧
    (let u := s.setThread 1 { ready 1 2 with live := true }
     ∀ y ∈ commandThreads u 0, y ≠ 0 → (u.thread y).barrier = none) ∧
    1 ∈ commandThreads (s.setThread 1 { ready 1 2 with live := true }) 0 := by decide +kernel

theorem witness_CountersRetire : let e : EngCmd := { EngCmd.queued (BitVec.ofNat 512 (63 * 256)) with done := true, status := 5, nan := true, ovf := true }
    let s := s0.setCore 511 { Core.reset with se := [e] }
    (s.coreAt 511).engine 2 = [e] ∧ e.done = true ∧ 63 = bitsAt e.block.toNat 8 6 ∧ (2 : BitVec 2) ≠ 3 ∧
    (s.coreAt 511).resident = none := by decide +kernel

theorem witness_CountersRetire_me : let e : MeEntry := { entry0 with started := true }
    ((extState (ready 1 2) [e]).meQueue 0) = [e] ∧ e.finished = true ∧ e.kind = 0 ∧ 0 = (readDesc e.block).cnt := by decide +kernel

theorem witness_Commands : let s := threadState (ready 0x7FFC0 2)
    ((s.thread 0).reg 1).toNat % 64 = 0 ∧ ((s.thread 0).reg 1).toNat + 64 ≤ 0x80000 ∧ teClosed s 0 = false ∧ ((s.coreAt 0).engine 0).length < 8 ∧
    (s.meQueue 0).length < 8 ∧ 8 ≤ (({ Core.reset with te0 := List.replicate 8 (.queued 0) } : Core).engine 0).length ∧
    teClosed { s0 with plates := { s0.plates with ranCores := 1 } } 0 = true ∧ 0x80000 < 0x7FFC1 + 64 := by decide +kernel

/-! ### Engines (obligations of chapters 4, 5 and 6) -/

/-- Core 0 runs a plate command and has one block waiting for each of TE0 and the SE. -/
def engState (b : Nat) : State :=
  let c : EngCmd := .queued (BitVec.ofNat 512 b)
  s0.setCore 0 { Core.reset with live := some ⟨1, 0, 0, 0, 0, 7, 0, 0, false⟩, te0 := [c], se := [c] }

/-- SE blocks of the nine operations, by byte offset, whose parameters and streams pass their checks. -/
def seGood : List (List (Nat × Nat)) :=
  [[(0, 0x40)], [(0, 0x41)], [(0, 0x42)], [(0, 0x43), (2, 4)], [(0, 0x44)], [(0, 0x45)], [(0, 0x46), (4, 0x10)], [(0, 0x47), (2, 6), (4, 1)],
   [(0, 0x48), (3, 1)]]

theorem witness_SignalEngine : nextCmd (s0.coreAt 0).se = none ∧ cmdRuns (engState 0x40) 0 (.queued 0x40) = true ∧
    nextCmd ((engState 0x40).coreAt 0).se = ((engState 0x40).coreAt 0).se.head? ∧ (readSe 0x40).ok = true ∧
    (∀ e ∈ seGood, (readSe (BitVec.ofNat 512 (pack e))).ok = true) ∧
    (seGood.map fun e => (readSe (BitVec.ofNat 512 (pack e))).op) = [0x40, 0x41, 0x42, 0x43, 0x44, 0x45, 0x46, 0x47, 0x48] ∧
    (readSe 0x8040).ok = false ∧ seOps.contains 0x41 = true ∧ seOps.contains 0x49 = false ∧
    cmdRuns (updPwr (fun p => { p with tripOn := true }) (engState 0x40)) 0 (.queued 0x40) = false ∧
    cmdRuns (updPwr (fun p => { p with tripOn := true }) (engState 0x40)) 0 { EngCmd.queued 0x40 with underWay := true } = true := by decide +kernel

theorem witness_BxopSet : let b : BitVec 512 := BitVec.ofNat 512 (pack [(0, 0x4F), (6, 0x8000)])
    (readSe b).ok = true ∧ bitsAt (readSe b).param 0 2 ≠ 1 ∧ ((engState b.toNat).coreAt 0).se = [.queued b] ∧
    (∃ q rest, [{ EngCmd.queued 0 with done := true }, .queued b] = q :: rest ∧ q.done = true) := by
  refine ⟨by decide +kernel, by decide +kernel, by decide +kernel, _, _, rfl, rfl⟩

theorem witness_BxopWriteOut : let b : BitVec 512 := BitVec.ofNat 512 (pack [(0, 0x4F), (4, 1)])
    (readSe b).ok = true ∧ bitsAt (readSe b).param 0 2 = 1 := by decide +kernel

/-- A TE block of one element in every dimension. -/
def teBlock (k : Nat) : Nat := pack [(0, 0x10), (4, 1), (6, 1), (8, k), (20, 1)]

theorem witness_TensorCommand : let s := engState (teBlock 1)
    cmdRuns s 0 (.queued (BitVec.ofNat 512 (teBlock 1))) = true ∧ nextCmd ((s.coreAt 0).engine 0) = ((s.coreAt 0).engine 0).head? ∧
    (BitVec.ofNat 512 (teBlock 1)).toNat % 256 = 0x10 ∧
    (readTe (BitVec.ofNat 512 (teBlock 1))).fieldsOk = true ∧ (readTe (BitVec.ofNat 512 (teBlock 1))).placesOk s 0 = true ∧
    (readTe 0x10).fieldsOk = false := by decide +kernel

theorem witness_TensorCommand_goesOn : let s := engState (teBlock 1)
    let c := readTe (BitVec.ofNat 512 (teBlock 1))
    (teTiles c).length = 1 ∧ otherWrites (teRun 1 0 c 0 1 (0, false, false, s)).2.2.2 1 0 = otherWrites s 1 0 := by decide +kernel

theorem witness_Narrowing : (-32768 : Int) ≤ 32767 ∧ (1 : Nat) ≠ 0 := by decide

/-- Context 0 of core 0 with one descriptor in its memory engine's queue, and memory from 0 that its function owns. -/
def meState (fields : List (Nat × Nat)) : State :=
  extState (ready 0 0) [{ entry0 with block := BitVec.ofNat 512 (pack fields) }]

/-- The descriptor of those fields. -/
def descOf (fields : List (Nat × Nat)) : Desc := readDesc (BitVec.ofNat 512 (pack fields))

theorem witness_MemoryEngine : let s := meState [(0, 0x20)]
    nextEntry s 0 = (s.meQueue 0).head? ∧ meRuns s 0 = true ∧ (descOf [(0, 0x20)]).clean = true ∧ (descOf [(0, 0x20), (48, 1)]).clean = false ∧
    devWaits s 0 = false ∧ devWaits { s with core := { s.core with devReqs := [⟨0, 0, false, 64, 0, 0, false⟩] } } 0 = true ∧
    nextEntry s0 0 = none ∧ meRuns (s.setCtx 0 { Ctx.reset with state := 3 }) 0 = false ∧ meOps.contains 0x21 = true ∧ meOps.contains 0x27 = false := by decide +kernel

theorem witness_Move : let d := descOf [(0, 0x20), (4, 64), (8, 2), (16, 0), (24, 128), (32, 64), (36, 64)]
    d.op = 0x20 ∧ d.ctl = 0 ∧ isDevAddr d.src = true ∧ isDevAddr d.dst = true ∧ d.cols = 0 ∧ d.aux32 = 0 ∧ d.aux = 0 ∧ d.clean = true ∧
    (∀ i < oneIfZero d.rows, jobHeld s0 0 (d.dst + i * d.dstStride) d.len = false) ∧
    rowsDisjoint d.src d.srcStride d.dst d.dstStride (oneIfZero d.rows) d.len = true ∧
    (let e := descOf [(0, 0x20), (2, 1), (4, 64), (24, 128)]
     e.op = 0x20 ∧ e.ctl % 4 = 1 ∧ e.ctl < 2 ^ 11 ∧ e.len % 2 = 0 ∧ e.clean = true) := by decide +kernel

theorem witness_Move_job : let d := descOf [(0, 0x20), (4, 64), (24, 0xF000020000)]
    d.rows ≤ 1 ∧ isDevAddr d.dst = true ∧ d.src % 256 + 64 ≤ 256 ∧ d.len = 64 ∧
    rowsDisjoint d.src d.srcStride d.dst d.dstStride 1 64 = true ∧ jobWrite 0 d.dst 64 = some 0x20 ∧ portFull s0 0x20 = false ∧ mayAccess (meState []) 0 d.src 64 = true ∧ (coreRead 0 0 d.src 64 (meState [])).1.poison = false := by
  decide +kernel

theorem witness_GatherScatter : let d := descOf [(0, 0x21), (4, 64), (12, 1048576), (24, 128)]
    let r := descOf [(0, 0x21), (4, 64), (12, 1), (16, 2 ^ 62), (24, 128)]
    let w := descOf [(0, 0x22), (4, 64), (12, 1), (24, 2 ^ 62)]
    d.op = 0x21 ∧ indexedOk d = true ∧ isDevAddr d.src = true ∧ isDevAddr d.dst = true ∧ d.clean = true ∧ r.src / 2 ^ 62 = 1 ∧ indexedOk r = true ∧
    w.op = 0x22 ∧ indexedOk w = true ∧ w.dst / 2 ^ 62 = 1 := by decide +kernel

theorem witness_Transpose : let d := descOf [(0, 0x23), (2, 3), (8, 2), (10, 2), (24, 128), (32, 16), (36, 16)]
    d.op = 0x23 ∧ d.ctl < 4 ∧ d.len = 0 ∧ d.clean = true ∧ oneIfZero d.rows * 2 ^ d.ctl ≤ d.dstStride ∧ oneIfZero d.cols * 2 ^ d.ctl ≤ d.srcStride := by
  decide +kernel

theorem witness_Convert : let d := descOf [(0, 0x24), (4, 32), (24, 4096)]
    let n := convertBytes (bitsAt d.ctl 0 4) d.len d.src
    let r := coreRead 0 0 d.src n (meState [])
    d.op = 0x24 ∧ convertOk d = true ∧ mayAccess (meState []) 0 d.src n = true ∧ r.1.poison = false ∧
    devWaits (meState []) 0 = false := by decide +kernel

theorem witness_WriteBack : let d := descOf [(0, 0x26), (2, 2), (4, 128), (24, 64)]
    d.op = 0x26 ∧ isDevAddr d.dst = true ∧ d.src = 0 ∧ d.srcStride = 0 ∧ d.cols = 0 ∧ d.aux32 = 0 ∧ d.aux = 0 ∧ d.ctl ≤ 2 := by decide +kernel

theorem witness_Transfers :
    let rack := descOf [(0, 0x30), (4, 64), (16, 2 ^ 62), (24, 0)]
    let rackW := descOf [(0, 0x31), (4, 64), (16, 0), (24, 2 ^ 62)]
    let hall := descOf [(0, 0x32), (4, 64), (24, 2 ^ 63)]
    let hallR := descOf [(0, 0x33), (4, 64), (16, 2 ^ 63)]
    transferOk rack rack.src rack.dst 1 = true ∧ transferOk rackW rackW.dst rackW.src 1 = true ∧ transferOk hall hall.dst hall.src 2 = true ∧
    transferOk hallR hallR.src hallR.dst 2 = true := by decide +kernel

theorem witness_Digests :
    let one := descOf [(0, 0x25), (4, 64), (24, 128)]
    let app := descOf [(0, 0x25), (2, 1), (4, 64), (40, 256)]
    let fin := descOf [(0, 0x25), (2, 2), (24, 128), (40, 256)]
    let s := meState []
    hashOk 0 one = true ∧ hashOk 1 app = true ∧ hashOk 2 fin = true ∧ mayAccess s (whoOf s 0) one.src one.len = true ∧
    (coreRead 0 (whoOf s 0) one.src one.len s).1.poison = false ∧ mayAccess s (whoOf s 0) app.aux 128 = true ∧
    (coreRead 0 (whoOf s 0) app.aux 128 s).1.poison = false := by decide +kernel

theorem witness_Atomic : let d := descOf [(0, 0x34), (2, 0x0A + 512 + 1024), (24, 48), (40, 64)]
    d.op = 0x34 ∧ d.len = 0 ∧ d.rows ≤ 1 ∧ d.ctl < 2 ^ 11 ∧ bitsAt d.ctl 8 2 ≤ 2 ∧ bitAt d.ctl 10 = true ∧
    atopOk (d.ctl % 256) (bitsAt d.ctl 8 2) = true ∧ d.dst % (4 * 2 ^ bitsAt d.ctl 8 2) = 0 ∧ d.dst / 2 ^ 62 = 0 ∧ d.dst < hbmEnd := by
  decide +kernel

theorem witness_RequestIssue : let s := extState (ready 0 0) [{ entry0 with kind := 1, addr := 64 }]
    meOutstanding s 0 < 512 ∧ (readyRequest s 0).isSome = true ∧ (∀ j < 8, j ≠ 0 → readyRequest s (8 * 0 + j) = none) ∧
    (∀ i < 8, readyRequest s0 (8 * 0 + i) = none) := by decide +kernel

theorem witness_RequestIssue_far : let s := extState (ready 0 0) [{ entry0 with started := true, todo := [⟨2, 2 ^ 62, 0, 8⟩] }]
    (readyRequest s 0).map Prod.snd = some ⟨2, 2 ^ 62, 0, 8⟩ := by decide +kernel

theorem witness_DeviceRequests : let q : DevReq := ⟨0, 0, false, 64, 0, 0, false⟩
    { s0 with core := { s0.core with devReqs := [q] } }.core.devReqs = [q] ∧ s0.core.devReqs = [] ∧ s0.meQueue 0 = [] ∧
    q.held (at_ 64) = false ∧ q.held (at_ 0) = true := by decide +kernel

/-! ### Time (obligations of chapter 8) -/

/-- The state after reset with a servo, and a measurement of `x` ridge ticks at tick 1,000 that arrives at tick `n`. -/
def servoState (v : Servo) (x : Int) (n : Nat) : State :=
  { at_ n with time := { s0.time with servo := v, measAt := 1000, measOfs := BitVec.ofInt 64 x } }

/-- An enabled servo in a state after a commit at tick 0. -/
def servo0 (st : BitVec 2) : Servo := { Servo.reset with enable := true, state := st, hasLast := true, lastAt := 0, fresh := false }

theorem witness_Servo_ignored : Servo.reset.enable = false ∧ ({ servo0 1 with lastAt := 1000 } : Servo).hasLast = true ∧
    (servoState (servo0 1) 0 999).now < 1000 ∧ ({ servo0 1 with sR := 1001 } : Servo).sR > 1000 := by decide +kernel

theorem witness_Servo_commits : let v := servo0 1
    let s := servoState v 5 1000
    ¬ (v.enable = false ∨ (v.hasLast = true ∧ s.time.measAt.toNat ≤ v.lastAt) ∨ s.now < s.time.measAt.toNat ∨ s.time.measAt.toNat < v.sR) ∧
    ¬ (v.fresh = true ∨ 2 ^ 33 < s.time.measAt.toNat - v.lastAt) ∧ v.state = 1 ∧
    ({ v with fresh := true } : Servo).fresh = true ∧ (servo0 2).state = 2 := by decide +kernel

theorem witness_Servo_steps : let v := { servo0 1 with settled := 31 }
    let w := servoCommit v 0 1000 1000
    w.state = 1 ∧ v.nAcq ≤ w.settled ∧ stepBlockers s0 = false ∧
    stepBlockers (updCell 0 (fun c => { c with state := 2 }) s0) = true ∧ (servoCommit (servo0 1) 0 1000 1000).settled < v.nAcq := by
  decide +kernel

theorem witness_Holdover : let v := { servo0 2 with holdNow := 1 }
    v.state = 2 ∧ v.lastCommit + v.holdNow * msTicks ≤ (servoState v 0 msTicks).now ∧
    ¬ (v.lastCommit + v.holdNow * msTicks ≤ (servoState v 0 (msTicks - 1)).now) := by decide +kernel

theorem witness_TxtsHead : let e : Stamp := { ridge := 9, frac := 0, id := 1, flag := false }
    let s := { s0 with time := { s0.time with txts := [(9, [e])] } }
    Tab.get [] s.time.txts 9 = [e] ∧ Tab.get [] s0.time.txts 9 = [] ∧ ((s0.setTin 1 { Tin.reset with fifo := [e] }).tin 1).fifo = [e] ∧
    (s0.tin 1).fifo = [] := by decide +kernel

theorem witness_Tout : let t : Tout := { Tout.reset with en := true, next := some 16, aGate := true }
    (s0.tout 3).next = none ∧ t.next = some 16 ∧ t.en = true ∧ 16 ≤ (at_ 16).now ∧ (at_ 15).now < 16 ∧ t.aGate = true ∧
    s0.time.servo.stepDone = false ∧ bitAt (0 : BitVec 64).toNat 0 = false := by decide +kernel

theorem witness_TinEdge : let t : Tin := { Tin.reset with edges := 3 }
    let full : Tin := { t with fifo := List.replicate 16 { ridge := 0, frac := 0, id := 0, flag := false }, lastEdge := some 0 }
    bitAt t.edges.toNat 1 = true ∧ t.lastEdge = none ∧ t.fifo.length < 16 ∧ 16 ≤ full.fifo.length ∧ 0 + 32 ≤ (at_ 4).root ∧
    (at_ 3).root < 0 + 32 ∧ bitAt (s0.tin 1).edges.toNat 0 = false := by decide +kernel

theorem witness_Synce : let s := updFhPort 7 (fun p => { p with link := true, fecLock := true }) (at_ 196608000)
    (Tab.get FhPort.reset s.rad.ports 7).link = true ∧ (Tab.get FhPort.reset s.rad.ports 7).fecLock = true ∧ 0 + 196608000 ≤ s.now ∧
    s0.time.synceSource = none ∧ (Tab.get FhPort.reset s0.rad.ports 7).link = false := by decide +kernel

theorem witness_PtpRx : let f := leBytes 6 0 ++ leBytes 6 0 ++ [0x88, 0xF7]
    let g := [0x01, 0x1B, 0x19, 0, 0, 0] ++ leBytes 6 0 ++ [0x88, 0xF7]
    fldBE f 12 2 = 0x88F7 ∧ (s0.ptp 8).enable = false ∧ ptpDestination { PtpPort.reset with enable := true } (fldBE g 0 6) = true ∧
    ¬ (fldBE (leBytes 14 0) 12 2 = 0x88F7 ∨ (fldBE (leBytes 14 0) 12 2 = 0x8100 ∧ fldBE (leBytes 14 0) 16 2 = 0x88F7)) := by decide +kernel

theorem witness_PtpTx : let b := bytesOf 76 [(2, 3), (4, 60)]
    let d : QDesc := ⟨0, 4, false, false, 76, 0, 0, b, 1, 0, 0, 0, 0⟩
    let s := s0.setQueue 0 { Queue.reset with descs := [d] }
    (s.queue 0).descs.find? (fun d => d.op == 4 && decide (d.phase < 2)) = some d ∧ 60 ≤ fld b 4 2 ∧ fld b 4 2 ≤ 256 ∧
    b.length = 16 + fld b 4 2 ∧ fld b 2 1 < 4 ∧ fld b 3 1 = 0 ∧ fld b 6 10 = 0 ∧ 256 < fld (bytesOf 16 [(4, 257)]) 4 2 ∧
    0 + 4096 ≤ (at_ 4096).now ∧ (at_ 4095).now < 0 + 4096 := by decide +kernel

/-! ### The radio (obligations of chapters 6 and 7) -/

theorem witness_CellChanges :
    let s := updCell 383 (fun c => { c with state := 1 }) (s0.setPlate 1 (some ranPlate))
    let m := cmd 0x0602 [(16, 383)]
    (admitCmd m .pf [(16, 2), (24, 8)] s).1 = stOk ∧ mfld m 16 2 < 384 ∧ (s.cell 383).change = none ∧ (s.cell 383).state = 1 ∧
    hasWindows s 383 = true ∧ hasWindows s0 383 = false := by decide +kernel

theorem witness_CellChanges_shadow : let m := cmd 0x0604 [(16, 383), (18, 16383)]
    (admitCmd m .pf [(16, 4), (24, 8)] s0).1 = stOk ∧ mfld m 18 2 < 16384 ∧ 384 ≤ mfld (cmd 0x0604 [(16, 384)]) 16 2 := by decide +kernel

theorem witness_CellChanges_takeover : let s := updCell 383 (fun c => { c with state := 3 }) (s0.setPlate 1 (some ranPlate))
    let b := updCell 383 (fun c => { c with state := 3, change := some (2, 5) }) s0
    (admitCmd (cmd 0x0605 [(16, 383)]) .pf [(16, 2), (24, 8)] s).1 = stOk ∧ (s.cell 383).state = 3 ∧ hasWindows s 383 = true ∧
    (b.cell 383).change.isSome = true := by decide +kernel

theorem witness_CellStateChange : let s := updCell 383 (fun c => { c with state := 1, change := some (2, 5) }) (at_ 5)
    (s.cell 383).change = some (2, 5) ∧ 5 ≤ s.now ∧ (at_ 4).now < 5 ∧ (s0.cell 383).change = none := by decide +kernel

/-- A shadow cell 0 whose slot 0 has one uplink PDU of type 2 and number 7, of 16 bits, and a job in a pool's port 0. -/
def bbState (tbs : Nat) (port : Nat) (b : List (Nat × Nat)) : State :=
  let pdu := bytesOf 64 [(0, 2), (2, 64), (4, 7), (10, 2), (11, 1), (12, tbs)]
  let slot := bytesOf 64 [(12, 1)] ++ pdu
  let c : Cell := { Cell.reset with state := 3, record := bytesOf 96 [(0, 1), (24, 1), (26, 1)], metas := [⟨0, 1, slot⟩] }
  { s0 with
    rad := { s0.rad with cells := [(0, c)] }, mem := { s0.mem with setRan := 1 },
    core := { s0.core with jobs := [(port, [⟨BitVec.ofNat 512 (pack b), 256, 0, none, none⟩])] } }

theorem witness_Baseband_bad : let s := bbState 16 0 [(0, 1), (4, 8)]
    headJob 0 s0 = none ∧ (headJob 0 s).isSome = true ∧ pduOf s 0 0 2 8 = none ∧ segment false 0 = none := by decide +kernel

theorem witness_Baseband_good : let s := bbState 16 0 [(0, 1), (4, 7), (32, 2)]
    (pduOf s 0 0 2 7).map Pdu.tbs = some 16 ∧ (segment false 16).isSome = true ∧
    (match headJob 0 s, pduOf s 0 0 2 7, segment false 16 with
     | some j, some p, some u => decodeOk s (readFxJob j) p u
     | _, _, _ => false) = true := by decide +kernel

theorem witness_CodeBlock : let b : DecBlock := ⟨0, some 15, false, [], false, 0, false⟩
    let j : DecJob := { id := 1, core := 0, cnt := 0, who := 256, cell := 0, imp := 0, pdu := 0, order := 0, buf := 0, tbs := 16, bg2 := false,
                        zc := 2, k := 44, kPrime := 32, iMax := 8, noCombine := false, fhLate := false, nanLlr := false, poison := false,
                        sinr := [], soft := [], first := 0, blocks := [b] }
    let s := { s0 with rad := { s0.rad with decJobs := [j] } }
    decoderBlock s 15 = some (j, 0) ∧ decoderBlock s0 15 = none := by decide +kernel

theorem witness_FixedFunction : let s := fun (pool : Nat) => bbState 16 pool [(0, if pool = 1 then 2 else 1)]
    (∀ pool ∈ [1, 2, 3], (headJob pool (s pool)).isSome = true ∧ (idleUnit (s pool) pool).isSome = true ∧ headJob pool s0 = none) ∧
    ((headJob 1 (s 1)).map fun j => (readFxJob j).op) = some 2 ∧ ((headJob 1 (bbState 16 1 [(0, 1)])).map fun j => (readFxJob j).op) = some 1 ∧
    ((headJob 1 (bbState 16 1 [(0, 3)])).map fun j => (readFxJob j).op) = some 3 := by decide +kernel

theorem witness_FixedFunctionJobDone : let j : PoolJob := ⟨5, 3, 0, 0, 256, 0, 0, 1⟩
    let s := fun (j : PoolJob) => { s0 with rad := { s0.rad with units := [(255, 5)], poolJobs := [j] } }
    Tab.get 0 (s j).rad.units (64 * (3 : BitVec 2).toNat + (63 : BitVec 6).toNat) ≠ 0 ∧
    (s j).rad.poolJobs.find? (·.id == Tab.get 0 (s j).rad.units 255) = some j ∧ j.waiting = 0 ∧ j.running ≤ 1 ∧
    (s { j with running := 2 }).rad.poolJobs.find? (·.id == 5) = some { j with running := 2 } ∧ Tab.get 0 s0.rad.units 255 = 0 ∧
    (nextPoolJob (s { j with waiting := 1 }) 3).isSome = true ∧ (idleUnit (s j) 3).isSome = true ∧ nextPoolJob s0 3 = none := by decide +kernel

theorem witness_FrameRx : let f := leBytes 60 0
    f.length = 60 ∧ (leBytes 59 0).length < 60 ∧ (s0.fhPort 7).maxFrame < 1515 + 4 ∧ 1514 + 4 ≤ (s0.fhPort 7).maxFrame ∧
    fldBE (leBytes 12 0 ++ [0xAE, 0xFE]) 12 2 = 0xAEFE ∧ fldBE (leBytes 12 0 ++ [0x81, 0, 0, 5, 0x88, 0xF7]) 16 2 = 0x88F7 ∧
    (s0.fhPort 7).link = false ∧ ((updFhPort 7 (fun p => { p with link := true }) s0).fhPort 7).link = true ∧
    exceptionAddress (s0.fhPort 7) 0xFFFFFFFFFFFF = true ∧ exceptionAddress (s0.fhPort 7) 1 = false := by decide +kernel

theorem witness_EgressJob : let b := [(2, 0), (16, 0), (26, 273)]
    let s := bbState 16 0x17 b
    let u := updCell 0 (fun c => { c with record := bytesOf 96 [(0, 1), (4, 273)] })
      (updStream 0 (fun x => { x with record := bytesOf 64 [(0, 7), (1, 1)] }) s)
    (headJob 0x17 u).isSome = true ∧ Sys2Proof.Machine.egressOk u (leBytes 64 (pack b)) = true ∧ (u.stream 0).port = 7 ∧ Sys2Proof.Machine.egressOk s (leBytes 64 (pack b)) = false ∧
    headJob 0x17 s0 = none := by decide +kernel

theorem witness_TxBoundary : let d : QDesc := ⟨0, 4, false, false, 76, 0, 0, [], 1, 0, 0, 0, 0⟩
    let s := (s0.setQueue 0 { Queue.reset with descs := [d] }).setPtp 7 { PtpPort.reset with enable := true }
    ptpWaits s 7 = true ∧ ptpWaits s0 7 = false ∧ (sendRadio 7 0 s0).1 = false ∧
    pickRival (atDecision 7 s0) (egressRivals (atDecision 7 s0) 7) = none := by decide +kernel

theorem witness_SendRadio : let f : TxFrame := ⟨0, 0, 1000000, 0, leBytes 60 0, 1⟩
    let s := updFlt (fun x => { x with fenced := false }) (updCell 0 (fun c => { c with state := 2 })
      (updFhPort 7 (fun p => { p with link := true, frames := [f] }) s0))
    readyFrame s 7 = some f ∧ frameDrop s 7 f = none := by decide +kernel

/-- Cell 0 active with an uplink stream 6,143 of it. -/
def symState (n st : Nat) : State :=
  updCell 0 (fun c => { c with state := st, record := bytesOf 96 [(0, 1), (4, 273)], timing := bytesOf 28 [(0, 1), (4, 4096), (24, 16)] })
    (updStream 6143 (fun x => { x with record := bytesOf 64 [(0, 7), (23, 1)] }) (at_ n))

theorem witness_Symbols : let s := symState 100000 2
    let x := s.stream 6143
    let c := s.cell x.cell
    x.record ≠ [] ∧ x.dir = 0 ∧ (c.symbolAt 0).isSome = true ∧ collects c 0 = true ∧ (c.symbolEnd 0 : Int) + c.ulRxMin ≤ s.now ∧
    c.symbolEnd 0 + c.ulRxMax + 0 < s.now ∧ ¬ ((c.symbolEnd 0 : Int) + c.ulRxMin ≤ (symState 16 2).now) ∧
    (((openSymbol 6143 0 false s).stream 6143).symbol 0 false).isSome = true ∧
    (cellStateFor c (0 / c.slotTicks * c.slotTicks) == 3) = false := by decide +kernel

theorem witness_Symbols_mirrored : let s := updStream 6143 (fun x => { x with record := bytesOf 64 [(0, 7), (17, 1), (23, 1)] }) (symState 1200000 2)
    let c := s.cell 0
    c.symbolAt 912896 = some 13 ∧ collects c 912896 = true ∧ c.symbolEnd 912896 + c.ulRxMax + 0 < s.now ∧
    lastMirrored s 0 = some 6143 ∧ lastMirrored (symState 1200000 2) 0 = none := by decide +kernel

theorem witness_BlockLock : let s := { s0 with time := { s0.time with synceSource := some 7, synceGood := none } }
    s.time.synceSource = some (7 : BitVec 3).toNat ∧ s.time.synceGood = none ∧ s0.time.synceSource ≠ some 7 ∧
    (∀ x ∈ (s0.fhPort 7).frames, s0.now < x.rel) := by decide +kernel

theorem witness_Mirror : let s := updCell 0 (fun c => { c with state := 3, role := 2, primary := 9 }) s0
    (s.cell (fld (leBytes 32 0) 2 2)).state = 3 ∧ (s.cell 0).role = 2 ∧ (s.cell 0).primary = 9 ∧ (s0.cell 0).state ≠ 3 := by decide +kernel

theorem witness_MirrorDeadline : let s := symState 2000000 3
    let c := s.cell 0
    cellStateFor c (0 * c.slotTicks) = 3 ∧ mirrorLimit c 0 ≤ s.now ∧ mirrorComplete c 0 = false ∧ c.blind.contains 0 = false ∧
    (symState 16 3).now < mirrorLimit c 0 ∧ ({ c with blind := [0] } : Cell).blind.contains 0 = true := by decide +kernel

/-! ### Device memory and tiers (obligations of chapter 9) -/

theorem witness_Ecc : (∀ p : Nat, ∀ e : BitVec 4, (35 < 36) ∧ (8 : BitVec 4) ≠ 0 ∧ (fun p e => if p < 32 then BitVec.ofNat 128 (BitVec.toNat (e : BitVec 4) <<< (4 * p)) else 0) p e =
      if p < 32 then BitVec.ofNat 128 (e.toNat <<< (4 * p)) else 0) ∧
    (∀ p : Nat, ∀ e : BitVec 4, (fun p e => if p < 32 then (0 : BitVec 16) else BitVec.ofNat 16 (BitVec.toNat (e : BitVec 4) <<< (4 * (p - 32)))) p e =
      if p < 32 then 0 else BitVec.ofNat 16 (e.toNat <<< (4 * (p - 32)))) ∧
    syndrome 0 = (0, 0, 0, 0) ∧ syndrome (checkBits 8) = gf4Scale 8 (dataColumn 0) ∧ syndrome 0x1000 = gf4Scale 1 (checkColumn 3) ∧
    syndrome 0x1190 = (0, 1, 1, 0) := by
  exact ⟨fun _ _ => ⟨by decide, by decide, rfl⟩, fun _ _ => rfl, by decide +kernel, by decide +kernel, by decide +kernel, by decide +kernel⟩

theorem witness_MemWrite : let bs : List Byte := leBytes 17 1
    (16 < bs.length ∧ 3 + bs.length ≤ 20 ∧ bs ≠ []) ∧ (0 ≤ 16 * 0 ∧ 16 * 0 + 16 ≤ 0 + bs.length) ∧
    (16 * 1 < 0 + bs.length ∧ 0 < 16 * 1 + 16 ∧ 0 + bs.length < 16 * 1 + 16) ∧ 0 + bs.length ≤ 16 * 2 ∧
    16 % 16 = 0 ∧ 32 % 16 = 0 ∧ 16 ≤ 47 ∧ 47 < 16 + 32 ∧ 16 * 2 + 16 ≤ 48 ∧ (1 : Nat) ≠ 0 := by decide +kernel

theorem witness_MemRead : let m : Mem := { s0.mem.mem with diff := [(5, 0x0011)] }
    (m.decode 5).2 = .uncorrectable ∧ 5 ∈ wordsOf 80 1 ∧ 6 ∉ wordsOf 80 1 ∧ (m.decode 6).2 ≠ .uncorrectable := by decide +kernel

theorem witness_Refresh : (at_ 0).now % battenTicks = 32 * ((0 : BitVec 10).toNat % 16) ∧ (at_ 480).now % battenTicks = 32 * ((1023 : BitVec 10).toNat % 16) ∧
    (at_ 0).now % battenTicks ≠ 32 * ((1023 : BitVec 10).toNat % 16) ∧ (s0.mem.mem.decode 0).2 = .clean ∧ (0 : Nat) ≠ 2 * (1023 : BitVec 10).toNat + 1 ∧
    s0.mem.setRan.getLsbD (0xBFBFFF / 0x60000) = false := by decide +kernel

theorem witness_SramScrub : (0xE000000000 ≤ 16 * (0xE00000000 : BitVec 36).toNat ∧ 16 * (0xE00000000 : BitVec 36).toNat < 0xE020000000) ∧
    (0xE800000000 ≤ 16 * (0xE80FFFFFF : BitVec 36).toNat ∧ 16 * (0xE80FFFFFF : BitVec 36).toNat < 0xE810000000) ∧
    ¬ (16 * (0xE81000000 : BitVec 36).toNat < 0xE810000000) ∧
    ((s0.mem.mem.poisonWord 5).decode 5).2.isPoison = true ∧ (s0.mem.mem.decode 5).2 = .clean ∧ (4 : Nat) ≠ 5 := by decide +kernel

theorem witness_ScrubFrame : let s := updMem (fun m => { m with scrubPending := [0xBFBFFF] }) s0
    let w : AllocWait := { input := 0, slot := 0, ctx := 0, base := 65536 * 0xBFBFFF, len := 65536 }
    (0xBFBFFF : BitVec 24).toNat ∈ s.mem.scrubPending ∧ (0xBFBFFE : BitVec 24).toNat ∉ s.mem.scrubPending ∧
    s.mem.allocWaiting.find? (fun w => decide (w.base / 65536 ≤ 0xBFBFFF ∧ 0xBFBFFF < (w.base + w.len) / 65536)) = none ∧
    [w].find? (fun w => decide (w.base / 65536 ≤ 0xBFBFFF ∧ 0xBFBFFF < (w.base + w.len) / 65536)) = some w := by decide +kernel

theorem witness_FlashFormat : let g : FlashGeom := ⟨16384, 2560, 1, 1, 1⟩
    let gs := List.replicate 255 g
    (g :: gs).length = 256 ∧ (∀ h ∈ gs, h = g) ∧ geomOk g = true ∧ 256 * geomBytes g ≤ 64 * 10 ^ 12 ∧
    8 * g.blocks.toNat * g.luns.toNat * g.pages.toNat ≠ 0 := by decide +kernel

theorem witness_FlashFormat_bad : let m := cmd 0x030A [(16, 1)]
    let g : FlashGeom := ⟨16384, 2559, 1, 1, 1⟩
    (admitCmd m .pf [(16, 1)] s0).1 = stOk ∧ mfld m 16 1 < 2 ∧ [g] ≠ [] ∧
    (∀ c < 256, ((admitCmd m .pf [(16, 1)] s0).2.quota c 2).usage = 0) ∧ [g].length ≠ 256 ∧ geomOk g = false := by decide +kernel

theorem witness_TierJob : let m := cmd 0x0307 []
    Met m s0 .own [(16, 5), (24, 4), (32, 16)] (fun _ _ => True) := by decide +kernel

theorem witness_TierCommit : Met (cmd 0x030D []) s0 .own [(16, 4), (24, 8)] (fun _ _ => True) ∧
    Met (cmd 0x030E []) s0 .own [(16, 4), (24, 8)] (fun _ _ => True) := by decide +kernel

/-- A tier job of context 255. -/
def tierJob0 (op : Nat) (list : List Nat) : TierJob :=
  { ctx := 255, op := op, pin := false, core := 0, cnt := 0, list := list, todo := [], result := 0, status := 0, waiter := none,
    started := false, phase := 0, failed := 0, due := 0 }

/-- The state after reset with that job and a region of one page at TPN 0 whose page is in a state. -/
def tierState (op st : Nat) (list : List Nat) : State :=
  updMem (fun m => { m with jobs := [tierJob0 op list], regions := [(1, { Region.none with ctx := 255, count := 1, home := 2, step := true })],
                            pages := [(pageKey 255 0, { Page.none with state := st, home := 2, step := true })] }) s0

theorem witness_TierJobs_idle : headTierJob (tierIntake s0) 255 = none ∧
    (headTierJob (tierIntake (tierState 1 1 [0])) 255) = some (tierJob0 1 [0]) ∧ (tierJob0 1 [0]).op ≠ 2 := by decide +kernel

theorem witness_TierJobs_run : (∀ op < 6, headTierJob (tierIntake (tierState op 1 [1])) (255 : BitVec 8).toNat = some (tierJob0 op [1]) ∧
      (tierJob0 op [1]).started = false ∧ (tierJob0 op [1]).op = op) ∧
    (let s := tierState 3 3 [0]
     ∀ x ∈ (tierJob0 3 [0]).list, (regionOf (tierIntake s) 255 x).isSome = true ∧ ((tierIntake s).page (pageKey 255 x)).state ≠ 5 ∧
          pageState (tierIntake s) ((tierIntake s).page (pageKey 255 x)) ≠ 4) ∧
    (let s := tierIntake (tierState 4 2 [1])
     ∃ e ∈ jobRegions s (tierJob0 4 [1]), ∃ k ∈ regionKeys e.2, (s.page k).state = 2) ∧
    (let s := tierIntake (tierState 4 3 [1])
     ∀ e ∈ jobRegions s (tierJob0 4 [1]), ∀ k ∈ regionKeys e.2, (s.page k).state ≠ 2) := by decide +kernel

theorem witness_TierFetchComplete : let s := pumpAll (tierState 1 2 [0])
    let u := updMem (fun m => { m with pools := [(255, { base := 0, frames := 1, lowWater := 0, pace := 1 })],
                                       pages := [(pageKey 255 0, { Page.none with state := 2, home := 2, due := 1 })] }) (tierState 1 2 [0])
    (((pumpAll s0).page (pageKey 255 0)).state ≠ 2) ∧ (s.page (pageKey 255 0)).state = 2 ∧ pageReady s (pageKey 255 0) = true ∧
    (xfersFor s 255 [0] 0).any (fun e => !e.2.ended) = false ∧ (regionOf s 255 0).isSome = true ∧ (finishFetch 255 0 s).isSome = true ∧
    pageReady (pumpAll u) (pageKey 255 0) = false := by decide +kernel

theorem witness_TierJobComplete : let s := tierState 1 1 [0]
    let t := jobProgress 255 (pumpAll (tierIntake s))
    let u := updMem (fun m => { m with jobs := [{ tierJob0 1 [0] with started := true, waiter := some (0, 0) }] }) s0
    headTierJob (jobProgress 255 (pumpAll (tierIntake s0))) 255 = none ∧ headTierJob t 255 = some (tierJob0 1 [0]) ∧ (tierJob0 1 [0]).finished = false ∧
    ((headTierJob (jobProgress 255 (pumpAll (tierIntake u))) 255).map fun j => (j.finished, j.waiter, pacePassed s0 255 j.due)) =
      some (true, some (0, 0), true) ∧
    pacePassed (updMem (fun m => { m with pools := [(255, { base := 0, frames := 1, lowWater := 0, pace := 1 })] }) s0) 255 1 = false := by
  decide +kernel

/-- The state after reset with an unpinned dirty page of context 0 in a pool of one frame, of LOW_WATER 2. -/
def poolState : State :=
  updMem (fun m => { m with pools := [(0, { base := 0, frames := 1, lowWater := 2, pace := 0 })], unpinned := [pageKey 0 9],
                            frames := [(0, { owner := 0, dirty := 1, track := true })],
                            pages := [(pageKey 0 9, { Page.none with state := 3, frame := 0 })] }) s0

theorem witness_Background : let s := poolState
    (freePoolFrames s 0).length < (Tab.get Pool.none s.mem.pools 0).lowWater ∧
    s.mem.unpinned.find? (fun k => k / 2 ^ 32 == 0 && pageState s (s.page k) == 4 && (s.page k).pin == 0 && !(s.page k).step) = some (pageKey 0 9) ∧
    (Tab.get Pool.none s0.mem.pools 0).lowWater ≤ (freePoolFrames s0 0).length := by decide +kernel

theorem witness_Sector : let q : SectorCopy := { ctx := 255, tpn := 9, sector := 15 }
    let s := pumpAll (updMem (fun m => { m with copies := [q, { q with sector := 0 }] }) s0)
    let u := pumpAll (updMem (fun m => { m with copies := [q] }) s0)
    q ∈ s.mem.copies ∧ q ∉ (pumpAll s0).mem.copies ∧ pageReady s (pageKey 255 9) = true ∧ (xfersFor s 255 [1] 9).any (fun e => !e.2.ended) = false ∧
    (∃ x ∈ s.mem.copies.erase q, x.ctx = 255 ∧ x.tpn = 9) ∧ (∀ x ∈ u.mem.copies.erase q, ¬ (x.ctx = 255 ∧ x.tpn = 9)) := by decide +kernel

theorem witness_FlashRow : let f : Flash := { Flash.reset with
      formatted := true, sets := 8, rowsPerSet := 4, head := 31, stripes := [(0, Stripe.blank), (30, Stripe.blank)], flush := true }
    (openRows f).find? (fun w => decide (w ≠ f.head / 30)) = some 0 ∧
    (let g := { f with stripes := [(30, Stripe.blank)] }
     (openRows g).find? (fun w => decide (w ≠ g.head / 30)) = none ∧ g.flush = true ∧ g.head % 30 ≠ 0 ∧ g.head / 30 ∈ openRows g) ∧
    (let g := { f with stripes := [(30, Stripe.blank)], flush := false }
     (openRows g).find? (fun w => decide (w ≠ g.head / 30)) = none ∧ ¬ (g.flush = true)) ∧
    f.sets ≤ 50 * (f.sets - (usedSets f).length) ∧
    (usedSets Flash.reset).filter (fun b => !((Flash.reset.head / 30 :: openRows Flash.reset).map Flash.reset.setOf).contains b) = [] := by
  decide +kernel

theorem witness_FlashCompaction : let f : Flash := { Flash.reset with
      formatted := true, sets := 50, rowsPerSet := 8, head := 30 * 1600,
      stripes := [(0, { Stripe.blank with live := true }), (30, Stripe.blank)],
      written := ((List.range 49).map fun b => (b / 8 * 64 + b % 8, true)) ++ [(1600, true)] }
    let full := (usedSets f).filter fun b => !((f.head / 30 :: openRows f).map f.setOf).contains b
    50 * (f.sets - (usedSets f).length) < f.sets ∧ full = [0] ++ 1 :: (List.range 47).map (· + 2) ∧
    (∀ x ∈ [0], liveIn f 1 < liveIn f x) ∧ (∀ x ∈ (List.range 47).map (· + 2), liveIn f 1 ≤ liveIn f x) := by decide +kernel

end Sys2Proof.Tests
end

