-- ==== Sys2Proof/Tests/Witness4.lean ====
section
/-!
SUPPORT. Witnesses of the statements: concrete states and operands that meet the hypotheses, clause by clause, for the events and remaining commands of
chapters 10 to 23.
-/
namespace Sys2Proof.Tests
open Sys2Proof Sys2Proof.Machine
set_option Elab.async false

/-! ### Weight sets, the thatch engine and sequences (obligations of chapter 10) -/

theorem shaRound_length (v : List W32) (k : W32 × W32) (h : v.length = 8) : (shaRound v k).length = 8 := by
  unfold shaRound; split
  · rfl
  · exact h

theorem shaFold_length (m : List (List Byte)) : ∀ h : List W32, h.length = 8 → (m.foldl shaBlock h).length = 8 := by
  have hk : ∀ (l : List (W32 × W32)) (h : List W32), h.length = 8 → (l.foldl shaRound h).length = 8 := by
    intro l
    induction l with
    | nil => exact fun h e => e
    | cons k l ih => exact fun h e => ih _ (shaRound_length h k e)
  induction m with
  | nil => exact fun h e => e
  | cons b m ih => intro h e; exact ih _ (by simp [shaBlock, List.length_zipWith, hk _ h e, e])

theorem sha256_length (m : List Byte) : (sha256 m).length = 32 := by
  have h : (shaFold shaInit (m ++ shaPad m.length)).length = 8 := shaFold_length _ _ (by rfl)
  have hb : ∀ w : W32, (beBytes 4 w.toNat).length = 4 := fun _ => rfl
  rw [sha256, shaWordsBytes, List.length_flatMap, List.map_congr_left (fun w _ => hb w), List.map_const', h]; rfl

/-- Thirty-two bytes placed at address 0 of empty memory read back. -/
theorem bytesAt_setBytes (l : List Byte) (h : l.length = 32) : (Mem.setBytes ⟨[], []⟩ 0 l).bytesAt 0 32 = l := by
  have hd : ∀ w, (Mem.setBytes ⟨[], []⟩ 0 l).diffAt w = 0 := by
    have : ∀ (k : List Byte) (m : Mem) (a : Nat), (m.setBytes a k).diff = m.diff := by
      intro k
      induction k with
      | nil => exact fun _ _ => rfl
      | cons b k ih => exact fun m a => ih _ _
    intro w; simp only [Mem.diffAt, this]; rfl
  have hw : wordsOf 0 32 = [0, 1] := by decide
  have hc : eccDecode 0 = .clean := by decide
  simp only [Mem.bytesAt, hw, List.flatMap_cons, List.flatMap_nil, List.append_nil, Mem.decode, hd, hc, Mem.raw, Nat.mul_zero]
  apply List.ext_getElem
  · simp [h]
  · intro i h1 h2
    have e := Mem.byte_setBytes_eq (m := ⟨[], []⟩) (a := 0) (bs := l) (i := i) h2
    rw [Nat.zero_add] at e
    rw [← e]
    simp only [Nat.zero_mod, List.drop_zero, List.getElem_take]
    rcases Nat.lt_or_ge i 16 with hi | hi
    · simp [List.getElem_append, hi]
    · simp [List.getElem_append, Nat.not_lt.mpr hi, Nat.add_sub_cancel' hi]

/-- The leaf of block 0 of a zero image. -/
def leaf0 : List Byte := leafHash 0 (imageBlock (sliceBytes [] 0 65536) 0)

/-- The state after reset with weight set 4095 of function 0, one block at a rack-remote home, and a leaf table at address 0. -/
def repairState (leaf : List Byte) : State :=
  updMem (fun t => { t with mem := t.mem.setBytes 0 leaf }) (s0.setWeight 4095 (some ⟨0, 1, 1, 1, 0, 65536, []⟩))

theorem repair_table (l : List Byte) (h : l.length = 32) :
    (leafTable (admitCmd (cmd 0x0312 [(16, 4095), (24, 1)]) .own [(16, 3), (20, 8), (32, 8)] (repairState l)).2
      ⟨0, 1, 1, 1, 0, 65536, []⟩).getD 0 [] = l := by
  have e : (admitCmd (cmd 0x0312 [(16, 4095), (24, 1)]) .own [(16, 3), (20, 8), (32, 8)] (repairState l)).2.mem.mem =
      (repairState l).mem.mem := by
    simp only [admitCmd]; split
    · rfl
    · split <;> rfl
  simp only [leafTable, e]
  exact bytesAt_setBytes l h

theorem witness_WeightRepair : let m := cmd 0x0312 [(16, 4095), (24, 1)]
    let w : WeightSet := ⟨0, 1, 1, 1, 0, 65536, []⟩
    ∀ l ∈ [leaf0, leaf0.map (· + 1)], let r := admitCmd m .own [(16, 3), (20, 8), (32, 8)] (repairState l)
    r.1 = stOk ∧ ownWeight m r.2 (mfld m 16 2) = some w ∧ mfld m 18 1 < 2 ∧ mfld m 24 4 ≠ 0 ∧ mfld m 20 4 + mfld m 24 4 ≤ w.blocks ∧
    mfld m 18 1 ≠ 1 ∧ weightBusy r.2 (mfld m 16 2) = false ∧
    (weightSource m r.2 (mfld m 18 1) (mfld m 32 8) (65536 * mfld m 24 4)).1 = stOk ∧
    (writeBlocks (mfld m 16 2) (mfld m 20 4) (mfld m 24 4) (sliceBytes (mdata m) 0 65536) r.2).isSome = true := by decide +kernel

theorem witness_WeightRepair_leaves : let m := cmd 0x0312 [(16, 4095), (24, 1)]
    let w : WeightSet := ⟨0, 1, 1, 1, 0, 65536, []⟩
    let a := fun l => (admitCmd m .own [(16, 3), (20, 8), (32, 8)] (repairState l)).2
    leafHash (0 + 0) (imageBlock (sliceBytes (mdata m) 0 65536) 0) = (leafTable (a leaf0) w).getD (0 + 0) [] ∧
    leafHash (0 + 0) (imageBlock (sliceBytes (mdata m) 0 65536) 0) ≠ (leafTable (a (leaf0.map (· + 1))) w).getD (0 + 0) [] := by
  have hl : leaf0.length = 32 := sha256_length _
  refine ⟨(repair_table leaf0 hl).symm, fun h => ?_⟩
  have e : leaf0 = leaf0.map (· + 1) := h.trans (repair_table _ (by rw [List.length_map, hl]))
  generalize leaf0 = l at hl e
  cases l with
  | nil => cases hl
  | cons b l =>
    have h1 : b = b + 1 := (List.cons.inj e).1
    exact absurd h1 (by bv_omega)

theorem witness_WeightVerify : let m := cmd 0x0311 [(16, 4095), (18, 1)]
    let r := admitCmd m .own [(16, 3)] (s0.setWeight 4095 (some ⟨0, 1, 1, 0, 0, 65536, []⟩))
    r.1 = stOk ∧ mfld m 18 1 = 1 ∧ ownWeight m r.2 (mfld m 16 2) = some ⟨0, 1, 1, 0, 0, 65536, []⟩ ∧
    (⟨0, 1, 1, 0, 0, 65536, []⟩ : WeightSet).home ≠ 1 := by decide +kernel

/-- The state after reset with a range for function 0 and room for one rack-remote weight set of one block. -/
def installState : State :=
  (updMem (fun m => { m with remotes := [⟨0, 0, 0, 65536⟩] }) (withRange 0 1)).setQuota 0 1 ⟨65536, 0⟩ |>.setQuota 0 0 ⟨65536, 0⟩

/-- The command that installs one byte there, with the state that it meets. -/
def installMet : Nat × State := admitCmd (sent 0 0x0310 [(24, 1), (33, 1)] [0]) .own [(16, 18), (40, 16)] installState

/-- What the creation of its region answers. -/
def installRegion : Nat × Nat × State := createRegion 0 1 1 false none installMet.2

/-- The state in which the leaf table's range is charged and the set stored. -/
def installCharged : State := (charge 0 0 65536 (ownFrames 0 1 1 installRegion.2.2)).setWeight 0 (some
  { ctx := 0, region := installRegion.2.1, blocks := 1, home := 1, leafBase := 65536, leafLen := 65536, root := [] })

theorem witness_WeightInstall : let m := sent 0 0x0310 [(24, 1), (33, 1)] [0]
    mfld m 24 8 ≠ 0 ∧ ceilDiv (mfld m 24 8) 65536 = 1 ∧ mfld m 32 1 = 0 ∧ mfld m 33 1 = 1 ∧ mfld m 40 8 = 0 ∧ issuer m = 0 := by
  decide +kernel

theorem witness_WeightInstall_state : installMet.1 = stOk ∧ ctxOwns installMet.2 0 0 32 = true ∧ ctxWeights installMet.2 0 < 64 ∧
    (installMet.2.weight 0).isNone = true ∧ installRegion.1 = stOk ∧
    overQuota installRegion.2.2 0 0 65536 = false ∧ anyRange installRegion.2.2 1 = some 1 := by decide +kernel

theorem markDirty_weights (t : MemTiers) (a n : Nat) : (t.markDirty a n).weights = t.weights := by
  unfold MemTiers.markDirty
  split <;> try rfl
  generalize List.range _ = l
  induction l generalizing t with
  | nil => rfl
  | cons x l ih =>
    rw [List.foldl_cons, ih]
    by_cases h : (t.frame ((a / 4096 + x) / 16)).track <;> simp [h, MemTiers.setFrame]

theorem memWrite_weight {a : Nat} {bs : List Byte} (h : edgeWords a bs.length = []) (s : State) (n : Nat) :
    (memWrite a bs s).weight n = s.weight n := by
  unfold memWrite checkEdges
  rw [h]
  exact congrArg (fun x => Tab.get none x n) (markDirty_weights _ _ _)

theorem writeBlocks_remote {n first count : Nat} {img : List Byte} {s : State} (h : (s.weight n).map WeightSet.home = some 1) :
    (writeBlocks n first count img s).isSome = true := by
  unfold writeBlocks
  cases e : s.weight n with
  | none => rfl
  | some w =>
    rw [e] at h
    simp [Option.some.inj h]

theorem witness_WeightInstall_written : (writeBlocks 0 0 1 (sliceBytes [0] 0 1)
    (memWrite 65536 ((List.range 1).flatMap fun i => leafHash i (imageBlock (sliceBytes [0] 0 1) i)) installCharged)).isSome = true :=
  writeBlocks_remote (by
    have h : ((List.range 1).flatMap fun i => leafHash i (imageBlock (sliceBytes [0] 0 1) i)).length = 32 := by
      rw [show List.range 1 = [0] from rfl, List.flatMap_cons, List.flatMap_nil, List.append_nil, leafHash, sha256_length]
    rw [memWrite_weight (by rw [h]; decide +kernel)]
    decide +kernel)

theorem witness_ThatchBegin : let b := [(0, 2)]
    let j : Job := ⟨BitVec.ofNat 512 (pack b), 0, 0, none, none⟩
    let s := { s0 with core := { s0.core with jobs := [(0x33, [j])] } }
    headJob 0x30 s0 = none ∧ headJob (0x30 + (3 : BitVec 2).toNat) s = some j ∧ fld (leBytes 64 j.block.toNat) 0 1 ≠ 1 := by decide +kernel

/-- A BEGIN that is in order, of a running command of plate 1, and a job that carries it. -/
def beginJob (l : Option Live) : Job := ⟨BitVec.ofNat 512 (pack [(0, 1)]), 0, 0, l, none⟩

theorem witness_ThatchBegin_good : let b := leBytes 64 (beginJob none).block.toNat
    (fld b 0 1 = 1 ∧ onlyFields b [(0, 1), (2, 3), (8, 8)] = true ∧ fld b 2 2 < 512 ∧ fld b 4 1 < 64) ∧ (beginJob none).live = none ∧
    (let l : Live := ⟨1, 0, 0, 0, 0, 7, 0, 0, false⟩
     (beginJob (some l)).live = some l ∧ (readSchedule s0 0 l 0).2.1 = none ∧
     ((List.replicate 64 (⟨0, 1, 0, 0, 0, 1, 256, [3], [], [], [], [], 0⟩ : Thatch)).filter fun x => x.dies.contains 3).length = 64 ∧
     (s0.mem.thatch.filter fun x => x.dies.contains 3).length < 64) := by decide +kernel

/-- A compute plate with one start record and a window of 64 ridge ticks, a weight set, and at address 0 a schedule of one entry for die
3; the plate's occurrence and a schedule of it that a BEGIN has already named. -/
def scheduleState (dies : Option (List Nat)) (running : List Running) : State :=
  let p := { plate0 2 2 with image := leBytes 64 0, progOff := 0, progLen := 64, windows := [⟨0, 0, 0, 0, false, 0, 0, 64, 0, 0, 0⟩], running := running }
  let s := memWrite 0 (bytesOf 64 [(2, 1), (4, 1), (8, 256), (36, 3), (44, 1), (56, 16)]) (withRange 0 1)
  updMem (fun m => { m with thatch := match dies with
    | none => []
    | some d => [⟨0, 1, 0, 0, 0, 1, 256, d, [], [], [], [], 0⟩] })
    ((s.setPlate 1 (some p)).setWeight 0 (some ⟨0, 1, 1, 0, 0, 65536, []⟩))

theorem witness_ThatchBegin_schedule : let l : Live := ⟨1, 0, 0, 0, 0, 7, 0, 0, false⟩
    let run : Running := ⟨0, 0, 0, 0, 0, 0, 0, 0, false, 0, 0, false, 1, false⟩
    (∀ s ∈ [scheduleState none [], scheduleState none [run], scheduleState (some [2]) [run], scheduleState (some [2, 3]) [run]],
      (readSchedule s 0 l 0).2.1.isSome = true ∧ (s.mem.thatch.filter fun x => x.dies.contains 3).length < 64) ∧
    (readSchedule (scheduleState none []) 0 l 0).2.2.schedule 1 0 = none ∧
    ((readSchedule (scheduleState (some [2]) [run]) 0 l 0).2.2.schedule 1 0).map Thatch.dies = some [2] ∧
    (((scheduleState none [run]).plate 1).map Plate.running) = some [run] ∧ (run.start = l.start ∧ run.window = l.window) := by decide +kernel

/-- An occurrence held by a gate of its schedule. -/
def running0 : Running := ⟨0, 0, 0, 0, 0, 0, 0, 0, false, 0, 0, false, 1, false⟩

theorem witness_ThatchExpiry : let x : Thatch := ⟨0, 1, 0, 0, 0, 1, 256, [0], [⟨0, false⟩], [⟨0, 0, 0, 0, 1, 16, 0, 0, [], [], none, false⟩], [], [], 0⟩
    let p := { plate0 2 2 with running := [running0] }
    let s := { (at_ 16).setPlate 1 (some p) with mem := { s0.mem with thatch := [x] } }
    let due := fun (s : State) (r : Running) => !r.begun && !r.ended && r.hold == 1 && (match s.schedule 1 r.start with
      | some x => decide (x.windowStart + gateLatest x r.record ≤ s.now)
      | none => false)
    s.plate 1 = some p ∧ p.running.find? (due s) = some running0 ∧ s0.plate 1 = none ∧
    p.running.find? (due { (at_ 15).setPlate 1 (some p) with mem := s.mem }) = none := by decide +kernel

/-- A queue configuration for plate 1 and weight set 4095 without pools, at address 0 of a range of function 0, with the plate in a
state. -/
def batchState (maxRows st : Nat) (q : Option BatchQ) : State :=
  let b := bytesOf 128 [(0, 1), (2, 4095), (4, 4), (6, 1), (8, 0xFFFFFFFF), (12, 0xFFFFFFFF), (16, 0xFFFFFFFF), (20, 1), (32, maxRows), (36, 1)]
  updSeq (fun u => { u with queues := [(6, q)] }) ((((memWrite 0 b (withRange 0 6)).setPlate 1 (some (plate0 2 st))).setWeight 4095
    (some ⟨0, 1, 1, 0, 0, 65536, []⟩)).setQueue 0 { Queue.reset with en := true })

/-- What `SEQ_QUEUE_CONFIG` reads in that state: status, record, and the state that follows. -/
def batchRead (s : State) : Nat × List Byte × State :=
  deviceData (admitCmd (cmd 0x0318 [(16, 7)]) .own [(16, 1), (24, 8)] s).2 0 (mfld (cmd 0x0318 [(16, 7)]) 24 8) 128

theorem witness_SeqQueueConfig : let m := cmd 0x0318 [(16, 7)]
    let ok := fun (s : State) => (batchRead s).1 = stOk ∧ batchOk (batchRead s).2.2 0 (batchRead s).2.1 (readBatchQ (batchRead s).2.1) = true
    (∀ s ∈ [batchState 8192 1 none, batchState 8191 1 (some queue0), batchState 8192 2 none],
      (admitCmd m .own [(16, 1), (24, 8)] s).1 = stOk ∧ ok s) ∧
    (batchRead s0).1 ≠ stOk ∧ (readBatchQ (batchRead (batchState 8192 1 none)).2.1).maxRows = 8192 ∧
    ((batchRead (batchState 8192 1 (some queue0))).2.2.batchQ 0 6).map BatchQ.maxRows = some 1 ∧
    (((batchRead (batchState 8192 2 none)).2.2.plate 1).map Plate.state) = some 2 ∧
    (((batchRead (batchState 8192 1 none)).2.2.plate 1).map Plate.state) = some 1 := by decide +kernel

theorem witness_SeqCommands : (let s := seqState 1
      Tab.get 0xFFFF s.mem.seqs.live 0 ≠ 0xFFFF ∧ Tab.get 0xFFFF s.mem.seqs.live 0 / 8 = 0 ∧ (s.seq 0).state ≠ 0 ∧ (s.seq 0).state = 1) ∧
    (seqState 3).seq 0 = { (seqState 1).seq 0 with state := 3 } ∧
    Met (cmd 0x031A []) (seqState 1) .own [(16, 4)] (fun m a => Tab.get 0xFFFF a.mem.seqs.live (mfld m 16 4) ≠ 0xFFFF ∧
        Tab.get 0xFFFF a.mem.seqs.live (mfld m 16 4) / 8 = issuer m ∧ (a.seq (mfld m 16 4)).state ≠ 0) ∧
    Met (cmd 0x031B []) (seqState 2) .own [(16, 4)] (fun m a => Tab.get 0xFFFF a.mem.seqs.live (mfld m 16 4) ≠ 0xFFFF ∧
        Tab.get 0xFFFF a.mem.seqs.live (mfld m 16 4) / 8 = issuer m ∧ (a.seq (mfld m 16 4)).state = 2) ∧
    Met (cmd 0x031C []) (seqState 3) .own [(16, 4)] (fun m a => Tab.get 0xFFFF a.mem.seqs.live (mfld m 16 4) ≠ 0xFFFF ∧
        Tab.get 0xFFFF a.mem.seqs.live (mfld m 16 4) / 8 = issuer m ∧ (a.seq (mfld m 16 4)).state = 3) ∧
    Met (cmd 0x031A [(16, 1048575)]) s0 .own [(16, 4)] (fun m a => Tab.get 0xFFFF a.mem.seqs.live (mfld m 16 4) = 0xFFFF) := by
  decide +kernel

theorem witness_ManifestRetire : let s := fun w => updSeq (fun u => { u with queues := [(2047, some { queue0 with forming := true, waits := w })] }) s0
    ((s []).batchQ (255 : BitVec 8).toNat (7 : BitVec 3).toNat) = some { queue0 with forming := true } ∧
    s0.batchQ 255 7 = none ∧ ((s [⟨0, 0, 0xFFFF⟩]).batchQ 255 7).map (fun q => q.waits.any fun w => w.status == 0xFFFF) = some true := by
  decide +kernel

/-! ### Links (obligations of chapter 11) -/

/-- The register of the sync sequence: stage i holds the bit that leaves i steps later. -/
def prbsStages : Nat → Nat → Bool
  | 0, _ => true
  | n + 1, i => if i < 30 then prbsStages n (i + 1) else prbsStages n 0 != prbsStages n 3

theorem prbsStages_shift (k : Nat) : ∀ n i, i + k ≤ 30 → prbsStages (n + k) i = prbsStages n (i + k) := by
  induction k with
  | zero => exact fun _ _ _ => rfl
  | succ k ih =>
    intro n i h
    have e := ih n (i + 1) (by omega)
    rw [show i + 1 + k = i + (k + 1) by omega] at e
    rw [← e, show n + (k + 1) = n + k + 1 by omega]
    simp only [prbsStages, if_pos (show i < 30 by omega)]

theorem witness_SyncSymbol : let x := fun n => prbsStages n 0
    (∀ i, i < 31 → x i = true) ∧ (∀ i, x (i + 31) = (x i != x (i + 3))) ∧ (7 < 8 ∧ bitAt 0x80 7 = true) := by
  refine ⟨fun i h => ?_, fun i => ?_, by decide⟩
  · have e := prbsStages_shift i 0 0 (by omega)
    rw [Nat.zero_add] at e
    exact e
  · have e := prbsStages_shift 30 (i + 1) 0 (by omega)
    rw [show i + 1 + 30 = i + 31 by omega] at e
    have f := prbsStages_shift 3 i 0 (by omega)
    show prbsStages (i + 31) 0 = (prbsStages i 0 != prbsStages (i + 3) 0)
    rw [e, f]
    rfl

/-- The state after reset with port 23 in a state. -/
def portState (x : AbrPort) (n : Nat) : State := updPort 23 (fun _ => x) (at_ n)

/-- A port that trains or is up, with lane 7 in a state. -/
def port0 (st : Nat) (y : Lane) : AbrPort := { AbrPort.reset with state := st, lanes := [(7, y)] }

theorem witness_HelloRx : let x := port0 1 Lane.reset
    ((portState x 0).port (23 : BitVec 5).toNat).state = 1 ∧ (s0.port 23).state ≠ 1 ∧ (2 : BitVec 8) ≠ 4 ∧
    (2 : BitVec 8) ≠ (portState x 0).flt.wireOldest ∧ (4 : BitVec 8) = 4 := by decide +kernel

theorem witness_HelloRx_serial : Config.serial = Config.serial ∧ Config.serial + 1 ≠ Config.serial :=
  ⟨rfl, fun h => absurd h (by bv_omega)⟩

theorem witness_TrainingPhases : let up := { Lane.reset with passing := true }
    (∀ n < 10, ((portState (port0 n up) 0).port (23 : BitVec 5).toNat).state = n) ∧ (port0 1 up).peer = none ∧ (port0 3 up).hold = false ∧
    ({ port0 1 up with peer := some (0, 4) } : AbrPort).peer.isSome = true ∧ ({ port0 3 up with hold := true } : AbrPort).hold = true ∧
    (let s := portState (port0 5 up) 0
     passingLanes (countDropped 23 (passingLanes s 23) (observe 23 [] (recordLoad 0) s)) 23 ≠ []) ∧
    (let s := portState (port0 5 Lane.reset) 0
     passingLanes (countDropped 23 (passingLanes s 23) (observe 23 (List.replicate 8 ⟨[], [], [], [], [], true⟩) (recordLoad (s.port 23).gap) s)) 23 = []) ∧
    (let s := portState (port0 6 up) 0
     let o : LaneObs := ⟨[], [], [], [], [], true⟩
     passingLanes (countDropped 23 (passingLanes s 23) (observe 23 (List.replicate 8 o) (fun o y => { y with passing := y.passing && o.fecLock }) s)) 23 ≠ [] ∧
     passingLanes (countDropped 23 (passingLanes s 23) (observe 23 (List.replicate 8 { o with fecLock := false })
       (fun o y => { y with passing := y.passing && o.fecLock }) s)) 23 = []) := by
  decide +kernel

theorem witness_TrainingPhases_exchanged : (List.replicate 16 (0 : BitVec 288)).length = 16 ∧ (List.replicate 16 (0 : BitVec 144)).length = 16 ∧
    ¬ (([] : List (BitVec 288)).length = 16 ∧ ([] : List (BitVec 144)).length = 16) := by decide

theorem witness_AcquireTimeout : let s := portState (port0 1 Lane.reset) (10 * secTicks)
    (s.port 23).state = 1 ∧ (s.port 23).peer = none ∧ (s.port 23).since + 10 * secTicks ≤ s.now ∧
    ¬ ((s.port 23).since + 10 * secTicks ≤ (portState (port0 1 Lane.reset) (10 * secTicks - 1)).now) := by decide +kernel

/-- The first 5,108 bits of a slate of a type with a sequence number, a replay request bit and a first byte. -/
def slateFront (type seq flag : Nat) : Nat := type * 2 ^ 5104 + seq * 2 ^ 5092 + flag * 2 ^ 5079 + 1

/-- The slate with its CRC, or with a difference from it. -/
def slate0 (head : Nat) (delta : Nat) : BitVec 5140 := BitVec.ofNat 5140 (head * 2 ^ 32 + (slateCrc head + delta) % 2 ^ 32)

theorem div_mod_parts (head d n m : Nat) (hd : d < m) (h : head < n) :
    (head * m + d) % (n * m) / m = head ∧ (head * m + d) % (n * m) % m = d := by
  have hm : 0 < m := Nat.lt_of_le_of_lt (Nat.zero_le d) hd
  have hl : head * m + d < n * m :=
    Nat.lt_of_lt_of_le (Nat.add_lt_add_left hd _) (Nat.succ_mul head m ▸ Nat.mul_le_mul_right m h)
  rw [Nat.mod_eq_of_lt hl, Nat.add_comm, Nat.add_mul_div_right _ _ hm, Nat.div_eq_of_lt hd, Nat.zero_add, Nat.add_mul_mod_self_right,
    Nat.mod_eq_of_lt hd]
  exact ⟨rfl, rfl⟩

theorem ofNat_parts (head d k : Nat) (hd : d < 2 ^ 32) (h : head < 2 ^ k) :
    (BitVec.ofNat (k + 32) (head * 2 ^ 32 + d)).toNat / 2 ^ 32 = head ∧
      (BitVec.ofNat (k + 32) (head * 2 ^ 32 + d)).toNat % 2 ^ 32 = d := by
  rw [BitVec.toNat_ofNat, Nat.pow_add]
  exact div_mod_parts _ _ _ _ hd h

theorem slate0_parts (head delta : Nat) (h : head < 2 ^ 5108) :
    (slate0 head delta).toNat / 2 ^ 32 = head ∧ (slate0 head delta).toNat % 2 ^ 32 = (slateCrc head + delta) % 2 ^ 32 :=
  ofNat_parts head _ 5108 (Nat.mod_lt _ (Nat.two_pow_pos 32)) h

theorem crcBits_lt (w p : Nat) (hp : p < 2 ^ w) (l : List Bool) : ∀ i, i < 2 ^ w → crcBits w p i l < 2 ^ w := by
  induction l with
  | nil => exact fun _ h => h
  | cons b l ih =>
    intro i h
    refine ih _ ?_
    have hm : 2 * i % 2 ^ w < 2 ^ w := Nat.mod_lt _ (Nat.two_pow_pos w)
    simp only [crcBit]
    split
    · exact Nat.xor_lt_two_pow hm hp
    · exact hm

theorem slateCrc_lt (head : Nat) : slateCrc head < 2 ^ 32 :=
  Nat.xor_lt_two_pow (crcBits_lt 32 _ (by decide +kernel) _ _ (by decide +kernel)) (by decide +kernel)

theorem witness_SlateRx_crc (head : Nat) (h : head < 2 ^ 5108) :
    slateCrc ((slate0 head 0).toNat / 2 ^ 32) = (slate0 head 0).toNat % 2 ^ 32 ∧
    slateCrc ((slate0 head 1).toNat / 2 ^ 32) ≠ (slate0 head 1).toNat % 2 ^ 32 := by
  have := slateCrc_lt head
  rw [(slate0_parts head 0 h).1, (slate0_parts head 0 h).2, (slate0_parts head 1 h).1, (slate0_parts head 1 h).2]
  omega

theorem witness_SlateRx : let s := portState (port0 7 { Lane.reset with up := true }) 0
    (s.port 23).up = true ∧ ((s.port 23).lane 7).up = true ∧ (s0.port 23).up = false ∧ ((s.port 23).lane 0).up = false ∧
    (let h := slateFront 1 0 0
     h < 2 ^ 5108 ∧ bitsAt h 5104 4 = 1 ∧ BitVec.ofNat 12 (bitsAt h 5092 12) = ((s.port 23).lane 7).rxSeq + 1 ∧ bitAt h 5079 = false) ∧
    (let h := slateFront 1 4095 1
     h < 2 ^ 5108 ∧ bitsAt h 5104 4 = 1 ∧ BitVec.ofNat 12 (bitsAt h 5092 12) ≠ ((s.port 23).lane 7).rxSeq + 1 ∧ bitAt h 5079 = true) ∧
    (let h := slateFront 2 0 0
     h < 2 ^ 5108 ∧ bitsAt h 5104 4 = 2 ∧ bitsAt h 0 144 % 256 = 1) ∧
    slateFront 0 0 1 < 2 ^ 5108 ∧ bitsAt (slateFront 0 0 1) 5104 4 = 0 := by decide +kernel

theorem foldl_replicate_fixed {f : List Nat → Nat → List Nat} {r : List Nat} (h : f r 0 = r) (n : Nat) :
    (List.replicate n 0).foldl f r = r := by
  induction n with
  | zero => rfl
  | succ n ih => simp only [List.replicate_succ, List.foldl_cons, h, ih]

theorem rsParity_zeros (n : Nat) : rsParity (List.replicate n 0) = List.replicate 30 0 := foldl_replicate_fixed (by decide +kernel) n

theorem rsWord_zeros (n : Nat) {l : List Nat} (h : l = List.replicate n 0) :
    (rsParity l).foldl (fun a x => 1024 * a + x % 1024) 0 = 0 := by
  subst h
  rw [rsParity_zeros]
  decide +kernel

theorem rsWord_zero : rsWord 0 = 0 := by
  unfold rsWord
  rw [rsWord_zeros 514]
  · rw [Nat.zero_mul]
  · refine List.eq_replicate_iff.mpr ⟨by rw [List.length_map, List.length_range], fun x h => ?_⟩
    obtain ⟨i, _, rfl⟩ := List.mem_map.mp h
    simp [bitsAt]

theorem witness_SlateRx_words : receivedWord 0 0 0 = 0 ∧ rsDecode 0 = some (0, 0) := by
  refine ⟨by simp [receivedWord], ?_⟩
  rw [rsDecode, Nat.zero_div, if_pos rsWord_zero]

theorem witness_SlateRx_dark : let x : Slate := ⟨0, 0, [], [], 7⟩
    let s := portState (port0 7 { Lane.reset with up := true, unacked := [x] }) 0
    (((replayLane 23 7 s).port 23).lane 7).up = false ∧ (((replayLane 23 7 (portState (port0 7 { Lane.reset with up := true }) 0)).port 23).lane 7).up = true := by
  decide +kernel

theorem witness_ReplayTimeout : let y := { Lane.reset with up := true, unacked := [⟨0, 0, [], [], 0⟩] }
    let s := portState (port0 7 y) 3933
    (s.port 23).up = true ∧ ((s.port 23).lane 7).up = true ∧ ((s.port 23).lane 7).unacked ≠ [] ∧ ((s.port 23).lane 7).ackAt + 3933 ≤ s.now ∧
    ¬ (((s.port 23).lane 7).ackAt + 3933 ≤ (portState (port0 7 y) 3932).now) := by decide +kernel

theorem witness_LaneSyncLoss : let y := { Lane.reset with passing := true }
    let s := portState (port0 2 y) 0
    let s2 := portState { port0 6 y with lanes := [(0, y), (7, y)] } 0
    let loss := fun s => updLane 23 7 (fun y => { y with passing := false }) (laneCount 23 7 9 1 s)
    ((portState (port0 7 { Lane.reset with up := true }) 0).port 23).up = true ∧ ((s.port 23).state = 2 ∧ ((s.port 23).lane 7).passing = true) ∧
    (∀ i < 8, (((loss s).port 23).lane i).passing = false) ∧ (s2.port 23).state = 6 ∧ (((loss s2).port 23).lane 0).passing = true ∧
    (s0.port 23).up = false ∧ (s0.port 23).state < 2 := by decide +kernel

theorem witness_PortPacketBoundary : let k : Pkt := ⟨0, false, [0], none, none⟩
    let s := portState (port0 7 { Lane.reset with up := true, bits := 64 }) 0
    let t := updFab (fun f => { f with queues := [(queueKey 23 0 false, [k])] }) s
    let u := updLane 23 7 (fun y => { y with vc0At := some 0, freeAt := 64 * slateTime 64 }) t
    s0.flt.fenced = true ∧ (s.port 23).up = true ∧ soonestLane s 23 = some 7 ∧ soonestLane s0 23 = none ∧ (vcHead t 23 0).isSome = true ∧
    ((t.port 23).lane 7).vc0At = none ∧ (∀ v < 8, vcHead s 23 v = none) ∧
    0 + 64 * slateTime ((u.port 23).lane 7).bits ≤ max ((u.port 23).lane 7).freeAt (65536 * u.now) := by decide +kernel

theorem witness_PortPacketBoundary_weighted : let k : Pkt := ⟨0, false, [0], none, none⟩
    let s := portState (port0 7 { Lane.reset with up := true, bits := 64 }) 0
    let t := fun (d : Nat) (w : Nat) => { updFab (fun f => { f with
      queues := [(queueKey 23 1 false, [k])], deficits := [(8 * 23 + 1, d)], vcDefault := [(1, w)] }) s with flt := { s0.flt with fenced := false } }
    let full := fun s0 => ((List.range 7).map (· + 1)).filter fun v => vcOpen s0 v && (vcHead s0 23 v).isSome
    let fit := fun s0 => (full s0).filter fun v =>
      decide (((vcHead s0 23 v).map fun e => e.2.words.length).getD 0 ≤ s0.deficit 23 v) && weightInForce s0 v != 0
    vcHead (t 1 1) 23 0 = none ∧ soonestLane (t 1 1) 23 = some 7 ∧ fit (t 1 1) = [1] ∧ fit (t 0 1) = [] ∧ full (t 0 1) = [1] ∧
    weightInForce (t 0 1) 1 ≠ 0 ∧ exportRecord (t 1 1) = t 1 1 := by decide +kernel

/-! ### The fabric (obligations of chapter 12) -/

/-- A packet header from hall 1 to hall 0 with an opcode. -/
def hdr0 (opc : Nat) (rsp : Bool) (vc len : Nat) : Hdr :=
  { opc := opc, vc := vc, rsp := rsp, hops := 0, dst := 0, src := 1, epoch := 5, tag := 131071, gen := 0, len := len, status := 0 }

/-- A second header word with an offset, a level and a size. -/
def hdr1 (offset level size atop : Nat) : Hdr1 :=
  { offset := offset, window := 0, level := level, atop := atop, size := size, ret := false, aseq := 7, firstBe := 0xFFFF, lastBe := 0xFFFF }

/-- The state after reset with a known peer at hall 1, one lent frame at address 0 and no command limit on requests. -/
def homeState : State :=
  { updFab (fun f => { f with peers := [(1, ⟨5, false⟩)], ledgerSlots := 64 }) (ownFrames 258 0 1 s0) with pending := [] }

/-- The state in which a request of that hall is performed. -/
def homeRequest (ws : List (BitVec 144)) (vc : Nat) : State :=
  let v := fabCount 1 (takeArrived 0 ws homeState)
  if 3 ≤ vc then v.setPolicer 8193 (police (Tab.get Policer.reset homeState.traf.policers 8193) (16 * ws.length)).2 else v

theorem witness_Requests : let ws := [(hdr0 1 false 0 256).word, (hdr1 0xFF00 1 0 0).word]
    headersGood ws 2 = true ∧ (readHdr ws).opc = 1 ∧ (readHdr ws).rsp = false ∧ (readHdr ws).dst = homeState.fab.hall ∧ ws.length = 2 ∧
    (readHdr1 ws).level = 1 ∧ epochOk homeState (readHdr ws) = true ∧ homeAddress (homeRequest ws 0) 1 0 0xFF00 256 = some 0xFF00 ∧
    homeAddress (homeRequest ws 0) 1 0 0xFF01 256 = none ∧ epochOk s0 (readHdr ws) = false ∧
    headersGood [] 2 = false ∧ (readHdr1 [(hdr0 1 false 0 256).word, (hdr1 0 0 0 0).word]).level = 0 ∧
    (readHdr1 [(hdr0 1 false 0 256).word, (hdr1 0 3 0 0).word]).level = 3 ∧ (readHdr [{ hdr0 1 false 0 256 with dst := 16383 }.word]).dst ≠ s0.fab.hall := by
  decide +kernel

theorem witness_Requests_policed : let p : Policer := { Policer.reset with en := true }
    let s := homeState.setPolicer 8193 p
    let ws := [(hdr0 1 false 3 256).word, (hdr1 0 1 0 0).word]
    3 ≤ (readHdr ws).vc ∧ (police (Tab.get Policer.reset s.traf.policers (8192 + (readHdr ws).src)) (16 * ws.length)).1 = false ∧
    epochOk s (readHdr ws) = true ∧ (police (Tab.get Policer.reset homeState.traf.policers (8192 + 1)) 32).1 = true := by decide +kernel

theorem witness_Writes : let ws := [(hdr0 2 false 3 16).word, (hdr1 0 1 0 0).word, 1]
    ws.length = 2 + coveredWords (readHdr1 ws).offset (readHdr ws).len ∧ windowReplayed (homeRequest ws 3) (readHdr1 ws) = false ∧
    homeAddress (homeRequest ws 3) 1 0 0 16 = some 0 ∧ (readHdr ws).opc = 2 := by decide +kernel

theorem witness_Atomics : let ws := [(hdr0 3 false 0 4).word, (hdr1 0 1 0 1).word, 1, 0]
    let u := homeRequest ws 0
    headersGood ws 2 = true ∧ (readHdr ws).opc = 3 ∧ ws.length = 4 ∧ u.fab.ledgerSlots ≠ 0 ∧ ledgerSlot u 1 = some 0 ∧
    (Tab.get LedgerRec.reset u.fab.ledger (1024 * 0 + (readHdr1 ws).aseq % 1024)).valid = false ∧
    atomicOk (readHdr ws) (readHdr1 ws) = true ∧ homeAddress u 1 0 0 4 = some 0 ∧ homeAddress u 1 0 65536 4 = none ∧
    atomicOk (readHdr ws) (readHdr1 [0, (hdr1 0 1 0 255).word]) = false ∧
    ledgerSlot (updFab (fun f => { f with ledgerSlots := 1, ledgerOwners := [(0, some 2)] }) u) 1 = none ∧ s0.fab.ledgerSlots = 0 := by decide +kernel

theorem witness_Atomics_ledger : let l : LedgerRec := { LedgerRec.reset with valid := true, aseq := 7 }
    (BitVec.ofNat 16 7 - l.aseq).toNat = 0 ∧ 2 ^ 15 ≤ (BitVec.ofNat 16 6 - l.aseq).toNat ∧
    2 ^ 15 ≤ (BitVec.ofNat 16 (7 + 2 ^ 15) - l.aseq).toNat ∧ (BitVec.ofNat 16 (6 + 2 ^ 15) - l.aseq).toNat < 2 ^ 15 ∧
    (BitVec.ofNat 16 8 - l.aseq).toNat ≠ 0 := by decide +kernel

/-- An outstanding request of a descriptor to hall 1. -/
def track0 (op len : Nat) : Track :=
  { req := .desc 0 0, owner := 0, gen := 0, dst := 1, op := op, vc := 0, level := 1, window := 0, offset := 0, len := len, loc := 0, size := 0,
    ret := false, aseq := 0, words := [], port := 0, sent := true, sentAt := 0, timeouts := 0, resent := false, poison := false, num := 0, unsent := false }

/-- The known peer's state with that request under tag 131,071. -/
def trackState (t : Track) (n : Nat) : State :=
  updFab (fun f => { f with tracks := [(131071, some t)], peers := [(1, ⟨5, false⟩)] }) (at_ n)

theorem witness_Responses : (∀ p ∈ [(0x11, 1, 2), (0x12, 2, 1), (0x13, 3, 2), (0x1F, 1, 1)],
      let ws := (hdr0 p.1 true 0 16).word :: List.replicate (p.2.2 - 1) 0
      let s := trackState (track0 p.2.1 16) 0
      headersGood ws 1 = true ∧ (readHdr ws).opc = p.1 ∧ (readHdr ws).rsp = true ∧ (readHdr ws).dst = s.fab.hall ∧ epochOk s (readHdr ws) = true ∧
      s.track (readHdr ws).tag = some (track0 p.2.1 16) ∧ (track0 p.2.1 16).gen.toNat = (readHdr ws).gen ∧ (track0 p.2.1 16).dst = (readHdr ws).src ∧
      (p.1 = 0x11 → ws.length = 1 + coveredWords 0 16) ∧ homeState.track 131071 = none) ∧
    epochOk s0 (hdr0 0x12 true 0 16) = false ∧ ({ track0 1 16 with unsent := true } : Track).unsent = true := by decide +kernel

theorem witness_Responses_held : let k : Track := { track0 1 64 with loc := 0xF000040000 }
    let jobs := fun (n : Nat) => { s0 with core := { s0.core with jobs := [(0x40, List.replicate n ⟨0, 0, 0, none, none⟩)] } }
    landingHeld (track0 1 64) stOk s0 = false ∧ landingHeld k stWindow (jobs 1024) = false ∧ landingHeld k stOk (jobs 1023) = false ∧
    landingHeld k stOk (jobs 1024) = true := by decide +kernel

theorem witness_Transit : (readHdr [{ hdr0 1 false 0 1 with dst := 16383 }.word]).dst ≠ s0.fab.hall ∧
    (readHdr [(hdr0 1 false 0 1).word]).dst = s0.fab.hall := by decide +kernel

theorem witness_RequestTimeout : let s := trackState (track0 1 16) 393216
    s.track (131071 : BitVec 17).toNat = some (track0 1 16) ∧ (track0 1 16).unsent = false ∧ (track0 1 16).sentAt + s.fab.reqTimeout ≤ s.now ∧
    (trackState (track0 1 16) 393215).now < (track0 1 16).sentAt + s.fab.reqTimeout ∧ s0.track 131071 = none ∧
    ((track0 1 16).timeouts + 1) % 4 ≠ 0 ∧ ({ track0 1 16 with timeouts := 3 }.timeouts + 1) % 4 = 0 := by decide +kernel

/-- A state with a write descriptor on queue 0 to a level 1 address of device `dev`, not fenced, and a window of that device. -/
def writeState (dev op phase : Nat) (fenced : Bool) : State :=
  let d : QDesc := { (⟨0, 5, false, false, 16, 0, 0, [], 1, 0, 0, 0, 0⟩ : QDesc) with op := op, phase := phase, target := 2 ^ 62 + dev * 2 ^ 56, len := 16 }
  let e : FabWin := { FabWin.reset with valid := true, write := true, level := 1, owner := 0, device := dev, length := 65536 }
  { updFab (fun f => { f with wins := [(0, e)], peers := [(1, ⟨5, false⟩)] }) (ownFrames 258 0 1 s0) with
    flt := { s0.flt with fenced := fenced } }.setQueue 0 { Queue.reset with egress := 8, descs := [d] }

theorem witness_DescWrite : let s := writeState 1 5 1 false
    (findDesc s 0 0).map (fun d => (d.op, d.phase)) = some (5, 1) ∧ findDesc s0 0 0 = none ∧ (s.queue 0).fn = 0 ∧
    ((s.queue 0).egress - 8) % 3 = 0 ∧ fabAddrOk (2 ^ 62 + 2 ^ 56) = true ∧ (readFabAddr (2 ^ 62 + 2 ^ 56)).offset % 256 + 16 ≤ 256 ∧
    (2 ^ 62 + 2 ^ 56) / 2 ^ 62 = 1 ∧ s.flt.fenced = false ∧ (writeState 1 5 1 true).flt.fenced = true ∧
    issueCheck s 0 (2 ^ 62 + 2 ^ 56) 16 2 = stOk ∧ targetHall s (readFabAddr (2 ^ 62 + 2 ^ 56)) ≠ s.fab.hall ∧
    issueCheck (writeState 2 5 1 false) 0 (2 ^ 62 + 2 * 2 ^ 56) 16 2 ≠ stOk ∧ fabAddrOk 0 = false ∧
    (findDesc (writeState 1 4 1 false) 0 0).map (fun d => d.op) = some 4 ∧ ∀ e ∈ s.fab.tracks, e.2 = none := by decide +kernel

theorem witness_DescWrite_lost : let s := updFab (fun f => { f with peers := [(1, ⟨5, true⟩)] }) (writeState 1 5 1 false)
    fabFenced s (s.queue 0).fn = false ∧ targetHall s (readFabAddr (2 ^ 62 + 2 ^ 56)) ≠ s.fab.hall ∧
    (s.peer (targetHall s (readFabAddr (2 ^ 62 + 2 ^ 56)))).lost = true ∧
    ((writeState 1 5 1 false).peer (targetHall s (readFabAddr (2 ^ 62 + 2 ^ 56)))).lost = false ∧
    fabFenced (writeState 1 5 1 true) 0 = true := by decide +kernel

theorem witness_DescWrite_home : let s := writeState 0 5 1 false
    issueCheck s 0 (2 ^ 62) 16 2 = stOk ∧ targetHall s (readFabAddr (2 ^ 62)) = s.fab.hall ∧ homeAddress s 1 0 0 16 = some 0 ∧
    homeAddress (updMem (fun m => { m with frames := [] }) s) 1 0 0 16 = none := by decide +kernel

/-! ### Collectives (obligations of chapter 13) -/

/-- The state after reset with one frame of function 0 in a set of each die, a group record at address 0 and its rank table at 256. -/
def recordState (fast log : Nat) (table : List Nat) : State :=
  let s := [0, 1, 2, 3].foldl (fun s d => ownFrames 0 (0x300000 * d) 1 s) s0
  memWrite 256 (table.flatMap (leBytes 4)) (memWrite 0 (bytesOf 64 [(0, 1), (4, fast), (5, log), (8, table.length), (12, 8), (16, 256),
    (24, 0x4000), (32, 0x3000004000), (40, 0x6000004000), (48, 0x9000004000)]) s)

/-- The record that `COLL_GROUP_CREATE` reads in a state, with its status, and its rank table. -/
def groupRead (s : State) : Nat × List Byte × State :=
  deviceData (admitCmd (cmd 0x0501 []) .own [(24, 8)] s).2 0 (mfld (cmd 0x0501 []) 24 8) 64
def tableRead (s : State) : Nat × List Byte × State :=
  deviceData (groupRead s).2.2 0 (fld (groupRead s).2.1 16 8) (4 * fld (groupRead s).2.1 8 4)

/-- The group that it makes of them. -/
def groupOf (s : State) : Group := readGroup 0 (some (0, 0)) 0 (groupRead s).2.1 (tableRead s).2.1

theorem witness_GroupCreate : let s := recordState 0 12 [0, 1]
    (admitCmd (cmd 0x0501 []) .own [(24, 8)] s).1 = stOk ∧ (groupRead s).1 = stOk ∧ groupRecordOk (groupRead s).2.1 = true ∧ (tableRead s).1 = stOk ∧
    groupPlaceOk (tableRead s).2.2 (groupOf s) = true ∧ (groupOf s).fast = false ∧ (groupOf s).layoutFault = none ∧
    ((List.range 4096).find? fun i => ((tableRead s).2.2.group i).isNone) = some 0 ∧ (tableRead s).2.2.fab.groups = [] ∧
    (groupRead s0).1 ≠ stOk ∧ groupRecordOk (groupRead (recordState 0 21 [0])).2.1 = false ∧
    groupPlaceOk (tableRead (recordState 0 12 [0, 0])).2.2 (groupOf (recordState 0 12 [0, 0])) = false ∧
    (groupOf (recordState 0 12 [1, 0, 16385, 16384])).layoutFault ≠ none ∧
    groupPlaceOk (tableRead (recordState 0 12 [1, 0, 16385, 16384])).2.2 (groupOf (recordState 0 12 [1, 0, 16385, 16384])) = true ∧
    (groupOf (recordState 1 12 [1, 0, 16385, 16384])).fast = true := by decide +kernel

theorem witness_GroupCreate_more : let s := updFab (fun f => { f with groups := [(4095, some (group0 2))] }) (recordState 0 12 [0, 1])
    (tableRead s).1 = stOk ∧ groupPlaceOk (tableRead s).2.2 (groupOf s) = true ∧
    (((tableRead s).2.2.group 4095).map fun o => decide (o.key = (groupOf s).key)) = some true ∧
    (let t := updMem (fun m => { m with mem := (m.mem.poisonWord 16) }) (recordState 0 12 [0, 1])
     (groupRead t).1 = stOk ∧ groupRecordOk (groupRead t).2.1 = true ∧ (tableRead t).1 ≠ stOk) := by decide +kernel

/-- A collective job of an operation, and the state with its block in the queue of die 3. -/
def collBlock (op : Nat) : Job := ⟨BitVec.ofNat 512 (pack [(0, op), (16, 1)]), 0, 0, none, none⟩
def jobState (op : Nat) : State := { s0 with core := { s0.core with jobs := [(0x43, [collBlock op])] } }

theorem witness_CollJobs : (∀ op < 9, headJob (0x40 + (3 : BitVec 2).toNat) (jobState op) = some (collBlock op) ∧ fld (leBytes 64 (collBlock op).block.toNat) 0 1 = op) ∧
    queuedJobs (jobState 1) 3 < 1024 ∧ headJob 0x43 s0 = none := by decide +kernel

theorem witness_CollJob_dies : let b := ((mbytes (cmd 0x0505 [(16, 7), (20, 255), (32, 1)])).drop 16).take 40
    let s := groupState 2
    let full := { s with core := { s.core with jobs := [(0x40, List.replicate 1024 ⟨0, 0, 0, none, none⟩)] } }
    mailboxDie s (fld b 4 2) = some 0 ∧ mailboxDie full (fld b 4 2) = some 0 ∧ portFull s 0x40 = false ∧ portFull full 0x40 = true ∧
    mailboxDie s0 (fld b 4 2) = none := by decide +kernel

theorem witness_CollSubmit_joins : let b := bytesOf 64 [(0, 7), (4, 255), (16, 1)]
    let s := groupState 2
    collJobOk s (group0 2) b false = true ∧ (group0 2).state ≠ 5 ∧ Tab.get 0 (group0 2).aborted ((group0 2).nextSeq 0) = 0 ∧
    (localRanks s (group0 2)).find? (fun r => r.2 == 0) = some (0, 0) := by decide +kernel

theorem witness_CollSubmit : let b := bytesOf 64 [(0, 7), (4, 255), (16, 1)]
    let s := groupState 5
    s.group (fld b 4 2) = some (group0 5) ∧ (group0 5).owner = 0 ∧ (group0 5).owner ≠ 1 ∧ s0.group 255 = none ∧
    (localRanks s (group0 5)).find? (fun r => r.2 == 0) = some (0, 0) ∧ collJobOk s (group0 5) b false = true ∧ (group0 5).state = 5 ∧
    collJobOk s (group0 5) (bytesOf 64 [(0, 8), (4, 255), (16, 1)]) false = false := by decide +kernel

/-- A job and a started operation of a group. -/
def collJob0 (op : Nat) : CollJob :=
  { rank := 0, die := 0, core := 0, cnt := 0, src := 0, dst := 0, op := op, typ := 0, rop := 0, flags := 0, root := 0, count := 1,
    waiter := none, poison := false, nan := false, ovf := false }
def collOp0 (op : Nat) (started : Bool) : CollOp :=
  { seq := 0, jobs := [collJob0 op], plate := none, started := started, opened := 0, closed := 0, runs := [], credit := [], signed := [],
    progress := 0, arrivals := [], arriveSent := started, ended := none }

/-- The state at a ridge count with a group of timeout 8 in a state, with operations, at handle 4,095, and a known peer at hall 1. -/
def opState (st n : Nat) (ops : List CollOp) : State :=
  updFab (fun f => { f with groups := [(4095, some { group0 st with timeout := 8, course := 4096, ops := ops })], peers := [(1, ⟨5, false⟩)] }) (at_ n)

theorem witness_GroupTimeouts : (s0.group (4095 : BitVec 12).toNat = none) ∧
    ((opState 1 4096 []).group 4095).map (fun g => decide (g.state = 1 ∧ g.joinAt + 512 * g.timeout ≤ (opState 1 4096 []).now)) = some true ∧
    ¬ (0 + 512 * 8 ≤ (opState 1 4095 []).now) ∧
    ((opState 2 4096 [collOp0 1 true]).group 4095).map (fun g => (g.ops.find? fun o => o.started && o.ended.isNone &&
      decide (o.progress + 512 * g.timeout ≤ (opState 2 4096 [collOp0 1 true]).now)).isSome) = some true ∧
    ((opState 2 4095 [collOp0 1 true]).group 4095).map (fun g => (g.ops.find? fun o => o.started && o.ended.isNone &&
      decide (o.progress + 512 * g.timeout ≤ (opState 2 4095 [collOp0 1 true]).now)).isSome) = some false := by decide +kernel

/-- A packet of the group from hall 1 with an opcode, a sequence number and a length, and its other words. -/
def collPacket (opc : Nat) (rsp : Bool) (seq len : Nat) (rest : List (BitVec 144)) : List (BitVec 144) :=
  { opc := opc, vc := 5, rsp := rsp, hops := 0, dst := 0, src := 1, epoch := 5, tag := 0, gen := 0, len := len, status := 0 : Hdr }.word ::
  (plainCHdr 1 seq 0).word :: rest

theorem witness_CollPackets : let ok := fun (ws : List (BitVec 144)) (opc : Nat) (rsp : Bool) => headersGood ws 2 = true ∧ (readHdr ws).opc = opc ∧ (readHdr ws).rsp = rsp ∧
      (readHdr ws).dst = s0.fab.hall ∧ (packetWords ws).1 = ws.length ∧ epochOk (opState 2 0 []) (readHdr ws) = true ∧ (readCHdr ws).key = 1
    ok (collPacket 0x20 false 0 16 [0]) 0x20 false ∧ ok (collPacket 0x21 true 0 16 [0]) 0x21 true ∧ ok (collPacket 0x22 false 0 16 [0]) 0x22 false ∧
    ok (collPacket 0x23 false 0 16 []) 0x23 false ∧ ok (collPacket 0x24 false 0 16 []) 0x24 false ∧ ok (collPacket 0x25 false 0 16 [0]) 0x25 false ∧
    epochOk s0 (readHdr (collPacket 0x20 false 0 16 [0])) = false ∧ (packetWords (collPacket 0x20 false 0 16 [0, 0])).1 ≠ 4 ∧ headersGood [] 2 = false := by
  decide +kernel

theorem witness_CollPackets_group : let s := opState 2 0 [collOp0 1 true]
    (groupByKey s 1).map Prod.fst = some 4095 ∧ groupByKey s0 1 = none ∧ (group0 2).devs.contains 1 = true ∧ (group0 2).devs.contains 2 = false ∧
    ({ group0 2 with ops := [collOp0 1 true] } : Group).op 0 = some (collOp0 1 true) ∧
    ({ group0 2 with ops := [collOp0 1 false] } : Group).op 0 = some (collOp0 1 false) ∧ (group0 2).op 0 = none ∧
    (group0 2).isFuture 0 = true ∧ Tab.get 0 (group0 2).aborted 0 = 0 ∧ (group0 2).isFuture (2 ^ 23) = false := by decide +kernel

theorem witness_BarrierRelease : let o : CollOp := collOp0 7 true
    let g : Group := { group0 2 with ranks := [1, 0], ops := [o] }
    (readHdr (collPacket 0x24 false 0 16 [])).src = g.hallOf 0 ∧ o.isBarrier = true ∧ o.arriveSent = true ∧ o.ended = none ∧ g.op 0 = some o ∧
    barrierB g < pathDelay s0 31 1 (2 ^ 32 - 1 : BitVec 32).toNat ∧ ¬ (barrierB g < pathDelay s0 31 0 0) := by decide +kernel

theorem witness_CollJoin : (otherDevs (groupState 1) (group0 1)).contains 1 = true ∧ (group0 1).state = 1 ∧
    (otherDevs (groupState 1) (group0 1)).contains 0 = false := by decide +kernel

theorem witness_RingStep : let r : CollRun := { course := 0, die := 0, base := [], pos := 0, pkt := 0, waited := false, granted := 0, got := [], written := false }
    let s := opState 2 0 [{ collOp0 6 true with runs := [r], credit := [(creditKey 0 3 0 1 1 0, 4)] }]
    let t := (groupIds s).foldl (fun s i => countWaits 0 i s) s
    groupIds t = [4095] ∧ ((t.group 4095).map fun g => (nextSend t g 0).isSome) = some true ∧ groupIds s0 = [] := by decide +kernel

theorem witness_BarrierResume : let s := fun n => updFab (fun f => { f with releases := [(4095, 1, 4096), (0, 1, 8192)] }) (at_ n)
    (s 16).fab.releases.filter (fun r => decide (r.1 = 4095 ∧ r.2.2 ≤ 256 * (s 16).now)) = [(4095, 1, 4096)] ∧
    (∀ r ∈ (s 15).fab.releases, r.1 = 4095 → 256 * (s 15).now < r.2.2) ∧ s0.fab.releases = [] := by decide +kernel

/-! ### Functions (obligations of chapter 15) -/

/-- The state after reset with function `n` in a state and at a teardown step. -/
def fnState (n st step time : Nat) : State :=
  let s := at_ time
  s.setFn n { s.fn n with state := st, step := step, tdStart := 0 }

theorem witness_FnShareSet : let m := cmd 0x0602 [(16, 255)]
    let s := withRange 0 1
    let a := admitCmd m .pf [(16, 1), (24, 8)] s
    let r := fun (s : State) => deviceData (admitCmd m .pf [(16, 1), (24, 8)] s).2 0 0 192
    let busy := (s.setPlate 1 (some { plate0 2 1 with owner := 255, claims := [⟨1, 511, 1, 0⟩] })).setFn 255
      { s.fn 255 with coreMask := BitVec.ofNat 512 (2 ^ 511) }
    let lost := fun (s : State) => let a := (admitCmd m .pf [(16, 1), (24, 8)] s).2
      let cl := claimedBy a 255
      let x := a.fn 255
      x.coreMask.toNat &&& cl.1 &&& fld (r s).2.1 0 64 ≠ x.coreMask.toNat &&& cl.1 ∨
        x.wayMask.toNat &&& cl.2 &&& fld (r s).2.1 64 128 ≠ x.wayMask.toNat &&& cl.2
    let taken := { memWrite 0 [1] s with plates := { s.plates with ranCores := 1 } }
    a.1 = stOk ∧ (r s).1 = stOk ∧ (r s0).1 ≠ stOk ∧ fld (r s).2.1 0 64 &&& a.2.plates.ranCores.toNat = 0 ∧
    fld (r s).2.1 64 128 &&& a.2.plates.ranWays.toNat = 0 ∧ ¬ lost s ∧ (r busy).1 = stOk ∧ lost busy ∧
    fld (r taken).2.1 0 64 &&& (admitCmd m .pf [(16, 1), (24, 8)] taken).2.plates.ranCores.toNat ≠ 0 := by decide +kernel

theorem witness_Flr : let r := updDev fun d => { d with hbmReady := true }
    s0.dev.hbmReady = false ∧ (∀ st < 3, ((r (fnState 255 st 1 0)).fn (255 : BitVec 8).toNat).state = st) ∧
    (r (fnState 255 0 1 0)).dev.hbmReady = true ∧ ((r s0).fn 0).state = 1 := by decide +kernel

theorem witness_VfEnable : let s := { s0 with dev := { s0.dev with cfgDefaulted := false, hbmReady := true } }
    s.dev.hbmReady = true ∧ s0.dev.hbmReady = false ∧ s.dev.cfgDefaulted = false ∧ (s.fn 0).state = 1 ∧ s.host.vfEnable = false ∧ (255 : BitVec 8) ≠ 0 ∧ (s.fn 255).state = 0 ∧
    ((s.setFn 0 { s.fn 0 with state := 2 }).fn 0).state = 2 ∧
    ({ s.host with vfEnable := true } : HostIf).vfEnable = true := by decide +kernel

theorem witness_Teardown : let d := fun (step : Nat) (s : State) => { s with dev := { s.dev with compute := some ⟨step, 0, 256, 0⟩ } }
    let held := fun (s : State) => { s with core := { s.core with devReqs := [⟨0, 0, false, 64, 0, 255, false⟩] } }
    s0.dev.compute = none ∧ (fnState 255 2 3 quiesceTicks).dev.compute = none ∧ ((fnState 255 2 3 quiesceTicks).fn 255).state = 2 ∧
    ((fnState 255 2 3 quiesceTicks).fn 255).step = 3 ∧ quiesced (fnState 255 2 3 0) 255 = true ∧ quiesced (held s0) 255 = false ∧
    0 + quiesceTicks ≤ (fnState 255 2 3 quiesceTicks).now ∧ (fnState 255 2 3 (quiesceTicks - 1)).now < 0 + quiesceTicks ∧
    ((fnState 255 2 7 0).fn 255).step = 7 ∧ ((fnState 255 2 1 0).fn 255).step ≠ 7 ∧
    (d 3 s0).dev.compute = some ⟨3, 0, 256, 0⟩ ∧ (∀ c < 256, quiesced (d 3 s0) c = true) ∧ quiesced (d 3 (held s0)) 255 = false ∧
    (d 2 s0).dev.compute = some ⟨2, 0, 256, 0⟩ ∧ (256 : BitVec 9).toNat = 256 ∧ 0 + quiesceTicks ≤ (d 3 (at_ quiesceTicks)).now := by decide +kernel

theorem witness_LinkTrained : decide ((6 : BitVec 3).toNat < 6 ∨ (16 : BitVec 5).toNat < 16) = false ∧
    decide ((5 : BitVec 3).toNat < 6 ∨ (16 : BitVec 5).toNat < 16) = true ∧ decide ((6 : BitVec 3).toNat < 6 ∨ (15 : BitVec 5).toNat < 16) = true := by
  decide

/-! ### Determinism (obligations of chapter 17) -/

/-- A proof job's block with its output states and digest in one frame, and the state with it queued by a running thread. -/
def proofBlock : List (Nat × Nat) := [(0, 1), (6, 0xFFFF)]
def proofState (l : Option Live) (b : List (Nat × Nat)) : State :=
  { withRange 0 1 with core := { s0.core with jobs := [(0x53, [⟨BitVec.ofNat 512 (pack b), 0, 0, l, none⟩])] } }

theorem witness_ProofJob : let l : Live := ⟨1, 0, 0, 0, 0, 7, 0, 0, false⟩
    let j : Job := ⟨BitVec.ofNat 512 (pack proofBlock), 0, 0, some l, none⟩
    let s := proofState (some l) proofBlock
    headJob (0x50 + (3 : BitVec 2).toNat) s = some j ∧ freeEngine s 3 = some 48 ∧ proofJobOk s j (leBytes 64 j.block.toNat) = true ∧
    headJob 0x53 s0 = none ∧ proofJobOk s0 j (leBytes 64 j.block.toNat) = false ∧
    (headJob 0x53 (proofState none proofBlock)).map Job.live = some none ∧
    freeEngine { s with det := { s.det with proofs := (List.range 16).map fun e => (48 + e, some ⟨0, 0, 0, 0, false, false, []⟩) } } 3 = none := by
  decide +kernel

theorem witness_ProofDone : let p : Proof := ⟨0, 0, 0, 0, true, false, []⟩
    let s := { withRange 0 1 with det := { s0.det with proofs := [(63, some p)] } }
    Tab.get none s.det.proofs (16 * (3 : BitVec 2).toNat + (15 : BitVec 4).toNat) = some p ∧ ctxOwns s 0 0 (proofLen true) = true ∧
    ctxOwns s0 0 0 (proofLen true) = false ∧ Tab.get none s0.det.proofs 63 = none := by decide +kernel

theorem witness_RecPostStop : let s := fun n => updRec (fun r => { r with recording := true, stopAt := some 16 }) (at_ n)
    (s 16).det.recUnit.stopAt = some 16 ∧ (16 ≤ (s 16).now) ∧ (s 15).now < 16 ∧ (s 16).det.recUnit.recording = true ∧
    s0.det.recUnit.stopAt = none ∧ s0.det.recUnit.recording = false := by decide +kernel

theorem witness_ReplayLoss : let m := cmd 0x0A06 [(32, 1048576), (40, 19660800)]
    let s := memWrite 64 (bytesOf 48 [(0, 8), (2, 16)]) (memWrite 0 (bytesOf 48 [(0, 7), (2, 16), (32, 0)]) (withRange 0 16))
    let a := (admitCmd m .own [(16, 3), (24, 24)] s).2
    (admitCmd m .own [(16, 3), (24, 24)] s).1 = stOk ∧ a.det.recUnit.recording = false ∧ a.det.replay = none ∧ mfld m 18 1 ≤ 1 ∧
    mayReplay (issuer m) (mfld m 16 2) (mfld m 18 1 == 1) = true ∧ ringSizeOk (mfld m 32 8) = true ∧
    ringHeld a (issuer m) (mfld m 24 8) (mfld m 32 8) = true ∧
    (scanRing a (mfld m 24 8) (mfld m 32 8) (mfld m 32 8 / 32) 0 { start := false, r0 := 0, streams := false, loss := none }).loss = some 64 := by
  decide +kernel

/-- A replay of the PF's commands from a ring of 1 MiB, at a position. -/
def replay0 (pos : Nat) : Replay :=
  { ctx := some 0, streams := false, fn := 0, base := 0, size := 1048576, shift := 0, pos := pos, nextReq := 0, injected := 0 }

/-- The state at a ridge count with it, and one record of a type and a marker kind at address 0, stamped 16. -/
def injectState (type kind n : Nat) : State :=
  let s := memWrite 0 (bytesOf 48 [(0, type), (2, 16), (8, 16), (46, kind)]) (at_ n)
  { s with det := { s.det with replay := some (replay0 0) } }

theorem witness_ReplayInject : let h := fun (s : State) => readRecHeader (ringBytes s 0 1048576 0 48)
    s0.det.replay = none ∧ (injectState 1 0 16).det.replay = some (replay0 0) ∧ (h (injectState 1 0 16)).type = 1 ∧ (h (injectState 0 0 16)).type = 0 ∧
    (h (injectState 1 0 16)).stamp + 0 ≤ (injectState 1 0 16).now ∧ (injectState 1 0 15).now < (h (injectState 1 0 15)).stamp + 0 ∧
    (h (injectState 8 0 16)).type ≤ 8 ∧ isStop (h (injectState 7 1 16)).type (fld (ringBytes (injectState 7 1 16) 0 1048576 0 48) 46 1) = true ∧
    isStop (h (injectState 7 0 16)).type (fld (ringBytes (injectState 7 0 16) 0 1048576 0 48) 46 1) = false ∧ (replay0 0).pos < (replay0 0).size ∧
    ¬ ((replay0 1048576).pos < (replay0 1048576).size) := by decide +kernel

/-- The state at a ridge count with the drypoint armed for a source, holding or not, with snapshots due. -/
def dryState (ctrl : BitVec 64) (held : Bool) (due : List (Nat × Nat)) (n : Nat) : State :=
  let s := at_ n
  { s with det := { s.det with dry := { s.det.dry with ctrl := ctrl, held := held, due := due } } }

theorem witness_DryTrigger : let c : BitVec 64 := BitVec.ofNat 64 (1 + 2 ^ dryEnable 0)
    (dryState c true [] 0).det.dry.ctrl.getLsbD 0 = true ∧ (dryState c true [] 0).det.dry.ctrl.getLsbD (dryEnable 0) = true ∧
    (dryState c true [] 0).det.dry.held = true ∧ (dryState c true [] 0).det.dry.overwrite = false ∧ (dryState c false [] 0).det.dry.held = false ∧
    s0.det.dry.ctrl.getLsbD 0 = false := by decide +kernel

theorem witness_DryArm_reserved : mfld (cmd 0x0A08 [(24, 2)]) 0 2 = 0x0A08 ∧ mfld (cmd 0x0A08 [(24, 2)]) 24 8 &&& 0xFC00FF02 ≠ 0 ∧
    mfld (cmd 0x0A08 [(24, 2 ^ 31)]) 24 8 &&& 0xFC00FF02 ≠ 0 := by decide +kernel

theorem witness_DrySnapshot : let s := dryState 1 true [(32, 2), (16, 1), (16, 8)] 16
    s0.det.dry.due = [] ∧ 16 ∈ s.det.dry.due.map Prod.fst ∧ (∀ e ∈ s.det.dry.due, 16 ≤ e.1) ∧ 16 ≤ s.now ∧
    (∀ e ∈ s.det.dry.due, (dryState 1 true [] 15).now < e.1) ∧ s.det.dry.held = true ∧ s.det.dry.overwrite = false ∧
    (dryState 1 false [(16, 1)] 16).det.dry.held = false ∧ s.det.recUnit.recording = false := by decide +kernel

theorem witness_DryRelease : (dryState 1 true [] 0).det.dry.held = true ∧ s0.det.dry.held = false ∧
    (dryState 1 true [] 0).det.dry.ctrl.getLsbD 2 = false := by decide +kernel

/-! ### The lease, peers and health (obligations of chapter 18) -/

/-- The first 64 bytes of a frame of a type for this device at hall 0. -/
def leaseBody (type : Nat) (f : List (Nat × Nat)) : List Byte :=
  BitVec.ofNat 8 type :: 1 :: 0 :: 0 :: (leBytes 8 Config.serial.toNat ++ bytesOf 52 (f.map fun e => (e.1 - 12, e.2)))

/-- The whole frame, with its tag under an empty key. -/
def leaseFrame (type : Nat) (f : List (Nat × Nat)) : List Byte := leaseBody type f ++ frameTag [] (leaseBody type f)

/-- A state with that key, with other fields of the fault unit. -/
def leaseState (f : Faults) : State := { s0 with flt := { f with key := [], keySet := true } }

theorem leaseBody_length (type : Nat) (f : List (Nat × Nat)) : (leaseBody type f).length = 64 := rfl

theorem frameTag_length (k m : List Byte) : (frameTag k m).length = 16 := by
  simp only [frameTag, hmac, List.length_take, sha256_length]; rfl

theorem leaseFrame_ok (type : Nat) (f : List (Nat × Nat)) (x : Faults) : leaseFrameOk (leaseState x) (leaseFrame type f) = true := by
  have hs : fld (leaseFrame type f) 4 8 = Config.serial.toNat := by
    have : fld (leaseFrame type f) 4 8 = ofLE (leBytes 8 Config.serial.toNat) := rfl
    rw [this, ofLE_leBytes]
    exact Nat.lt_of_lt_of_le Config.serial.isLt (by decide)
  have h1 : fld (leaseFrame type f) 1 1 = 1 := rfl
  have h2 : fld (leaseFrame type f) 2 2 = 0 := rfl
  have hl : (leaseFrame type f).length = 80 := by rw [leaseFrame, List.length_append, leaseBody_length, frameTag_length]
  have hd : (leaseFrame type f).drop 64 = frameTag [] (leaseBody type f) := List.drop_left' (leaseBody_length type f)
  have ht : (leaseFrame type f).take 64 = leaseBody type f := List.take_left' (leaseBody_length type f)
  have e : (leaseState x).fab.hall = 0 := rfl
  have k : (leaseState x).flt.keySet = true := rfl
  have g : (leaseState x).flt.key = [] := rfl
  simp only [leaseFrameOk, hl, h1, h2, hs, hd, ht, e, k, g, beq_self_eq_true, Bool.and_self]

theorem witness_Grant : let s := leaseState { s0.flt with requests := [(7, 0)] }
    let p := leaseFrame 2 [(12, 1), (14, 2), (16, 7), (28, 100)]
    leaseFrameOk s p = true ∧ fld p 0 1 = 2 ∧ s.flt.requests.find? (fun r => r.1 == fld p 16 4) = some (7, 0) ∧
    (s.flt.fenced = true ∧ bitAt (fld p 14 2) 1 = true ∧ fld p 12 2 ≠ 0 ∧ fld p 12 2 ≠ s.flt.retired.toNat ∧ s.flt.fatal = 0) ∧ fld p 28 4 = 100 :=
  ⟨leaseFrame_ok _ _ _, rfl, rfl, ⟨rfl, rfl, by decide, by decide, rfl⟩, rfl⟩

theorem witness_Grant_again : let s := leaseState { s0.flt with requests := [(7, 0)], fenced := false, epoch := 1 }
    let p := leaseFrame 2 [(12, 1), (16, 7), (28, 60000)]
    leaseFrameOk s p = true ∧ s.flt.fenced = false ∧ bitAt (fld p 14 2) 1 = false ∧ fld p 12 2 = s.flt.epoch.toNat ∧ fld p 28 4 = 60000 ∧
    (∀ r ∈ s0.flt.requests, r.1 ≠ fld p 16 4) :=
  ⟨leaseFrame_ok _ _ _, rfl, rfl, rfl, rfl, fun _ h => by cases h⟩

theorem witness_Revoke : let s := leaseState { s0.flt with epoch := 1 }
    let p := leaseFrame 3 [(12, 1)]
    leaseFrameOk s p = true ∧ fld p 0 1 = 3 ∧ fld p 0 1 ≠ 2 ∧ fld p 12 2 = s.flt.epoch.toNat ∧ s.flt.epoch ≠ 0 ∧ s.flt.fenced = true ∧
    fld (leaseFrame 3 [(12, 2)]) 12 2 ≠ s.flt.epoch.toNat ∧ leaseFrameOk s0 [] = false :=
  ⟨leaseFrame_ok _ _ _, rfl, by decide, rfl, by decide, rfl, by decide, by decide⟩

theorem witness_LeaseRenew : s0.flt.lastRequest = none ∧ s0.flt.fatal = 0 ∧
    (let s := { s0 with flt := { s0.flt with lastRequest := some 0, fatal := 4 } }
     ¬ (0 + s.flt.renewMs.toNat * msTicks ≤ s.now) ∧ s.flt.fatal ≠ 0 ∧ 0 + 1000 * msTicks ≤ (at_ (1000 * msTicks)).now) := by decide +kernel

/-- The state at a ridge count with a lease that expires at 32. -/
def leasedState (n : Nat) : State :=
  let s := at_ n
  { s with flt := { s.flt with leased := true, fenced := false, expiry := 32 } }

theorem witness_LeaseExpiry : let s := leasedState 32
    (s.flt.leased = true ∧ s.flt.required = true ∧ s.flt.expiry.toNat ≤ s.now ∧ s.now % 16 = 0) ∧ (leasedState 31).now < 32 ∧
    s.flt.fenced = false ∧ s0.flt.leased = false := by decide +kernel

theorem witness_FatalCause : 1 ≤ (1 : BitVec 3).toNat ∧ (4 : BitVec 3).toNat ≤ 4 ∧ 4 < (5 : BitVec 3).toNat := by decide

theorem witness_EventFlush : let e : EventCode := { EventCode.reset with held := 1 }
    let s := { s0 with flt := { s0.flt with events := [(255, e)] } }
    (Tab.get EventCode.reset s.flt.events (255 : BitVec 8).toNat).held ≠ 0 ∧ e.sent ≠ some s.epochNow ∧
    (Tab.get EventCode.reset s0.flt.events 255).held = 0 ∧ ({ e with sent := some s.epochNow } : EventCode).sent = some s.epochNow := by decide +kernel

theorem witness_HealthWindow : (at_ secTicks).now % secTicks = 0 ∧ (∀ c < 8, (Tab.get (healthDefault c) (at_ secTicks).flt.health c).lastEnd ≠ (at_ secTicks).now) ∧
    (at_ 1).now % secTicks ≠ 0 ∧ (∃ c < 8, (Tab.get (healthDefault c) s0.flt.health c).lastEnd = s0.now) := by decide +kernel

/-- The state after reset with a class of health in a condition. -/
def healthState (count run level : Nat) : State :=
  { s0 with flt := { s0.flt with health := [(0, { healthDefault 0 with count := count, run := run, level := level })] } }

theorem witness_HealthLevels : let h := fun (s : State) => Tab.get (healthDefault 0) s.flt.health 0
    (let x := h (healthState 1000 0 2)
     x.raise ≤ x.count ∧ x.lower ≤ x.count ∧ x.level ≠ 3) ∧
    (let x := h (healthState 99 58 1)
     x.count < x.raise ∧ x.count < x.lower ∧ x.run + 1 < x.clear) ∧
    (let x := h (healthState 99 59 1)
     x.count < x.raise ∧ x.count < x.lower ∧ x.clear ≤ x.run + 1) ∧
    (let x := h (healthState 100 0 1)
     x.count < x.raise ∧ x.lower ≤ x.count ∧ 0 < x.clear) := by decide +kernel

/-- A packet of the control class from hall 1 with an opcode. -/
def controlPacket (opc : Nat) : List (BitVec 144) :=
  [{ opc := opc, vc := 0, rsp := false, hops := 0, dst := 0, src := 1, epoch := 5, tag := 0, gen := 0, len := 16, status := 0 : Hdr }.word, 0, 0]

theorem witness_ControlPackets : let s := updFab (fun f => { f with peers := [(1, ⟨5, false⟩)] }) s0
    ∀ opc ∈ [0x30, 0x31, 0x32], let ws := controlPacket opc
      headersGood ws 2 = true ∧ (readHdr ws).rsp = false ∧ (readHdr ws).dst = s.fab.hall ∧ (packetWords ws).1 = ws.length ∧
      epochOk s (readHdr ws) = true ∧ (readHdr ws).opc = opc := by decide +kernel

theorem witness_EchoLapse : let s := fun (n : Nat) (fenced : Bool) =>
      { at_ n with flt := { s0.flt with acks := [(16383, some 32)], fenced := fenced } }
    Tab.get none (s 32 false).flt.acks (16383 : BitVec 14).toNat = some 32 ∧ 32 ≤ (s 32 false).now ∧ (s 32 false).now % 16 = 0 ∧
    (s 32 false).flt.fenced = false ∧ (s 31 false).now < 32 ∧ (s 33 false).now % 16 ≠ 0 ∧ (s 32 true).flt.fenced = true ∧
    Tab.get none s0.flt.acks 16383 = none := by decide +kernel

theorem witness_Takeover : let a : Armed := ⟨383, 1⟩
    let s := { at_ 96 with flt := { s0.flt with armed := [a], echoes := [(1, some 32)] } }
    let c := updCell 383 (fun c => { c with state := 3 }) s
    s.flt.armed.find? (fun a => a.cell == (383 : BitVec 9).toNat) = some a ∧ echoPassed s 1 = true ∧
    echoPassed { at_ 95 with flt := s.flt } 1 = false ∧ s0.flt.armed = [] ∧ (c.cell 383).state = 3 ∧ (c.cell 383).change = none := by decide +kernel

/-! ### Power and the thermal unit (obligations of chapter 20) -/

/-- The state after reset at a ridge count with a changed power unit. -/
def pwrState (n : Nat) (f : PowerUnit → PowerUnit) : State := updPwr f (updDev (fun d => { d with released := some 0 }) (at_ n))

theorem witness_CoolantSample : (at_ msTicks).now % msTicks = 0 ∧ (at_ 1).now % msTicks ≠ 0 ∧
    (∃ r < 2, (sampleTherm Coolant.reset r Therm.reset).2 = true) ∧ (sampleTherm Coolant.reset 10000 Therm.reset).2 = false := by decide +kernel

theorem witness_RegulatorPoll : let s := updDev (fun d => { d with platform := { d.platform with pmbus := List.replicate 12 0x40 } }) (at_ 983040)
    (11 : BitVec 4).toNat < 12 ∧ s.now % 983040 = 0 ∧ s.dev.platform.pmbus.getD 11 0 ≠ 0 ∧ ¬ ((12 : BitVec 4).toNat < 12) ∧
    s0.dev.platform.pmbus.getD 11 0 = 0 := by decide +kernel

theorem witness_ThermalSample : let s := pwrState 2048 id
    let js := fun (jts : List (BitVec 16)) => (List.range 96).map fun i => (jts.getD i 0).toInt
    s.now % 2048 = 0 ∧ s.dev.released ≠ none ∧ s0.dev.released = none ∧ (at_ 2047).now % 2048 ≠ 0 ∧
    (∃ x ∈ js (List.replicate 96 1760), (1760 : Int) ≤ x) ∧ ¬ (∃ x ∈ js (List.replicate 96 1759), (1760 : Int) ≤ x) ∧
    (∃ x ∈ js (List.replicate 96 1759), (s.dev.pwr.trip.tTrip : Int) ≤ x) ∧ ¬ (∃ x ∈ js (List.replicate 96 1599), (s.dev.pwr.trip.tTrip : Int) ≤ x) ∧
    s.dev.pwr.crit = none ∧ s.dev.pwr.tripOn = false ∧ (pwrState 2048 (fun p => { p with tripOn := true })).dev.pwr.tripOn = true ∧
    (pwrState 2048 (fun p => { p with crit := some 0 })).dev.pwr.crit ≠ none := by decide +kernel

theorem witness_TripClear : let s := fun n => pwrState n (fun p => { p with tripOn := true, belowSince := some 16 })
    s0.dev.pwr.belowSince = none ∧ (s 0).dev.pwr.belowSince = some 16 ∧ (s 0).dev.pwr.tripOn = true ∧
    16 + usTicks Trip.reset.hold ≤ (s (16 + usTicks 1000)).now ∧ (s (15 + usTicks 1000)).now < 16 + usTicks Trip.reset.hold ∧
    (s 0).dev.pwr.trip = Trip.reset := by decide +kernel

theorem witness_Thermtrip : let s := fun n => pwrState n (fun p => { p with crit := some 0 })
    (s 0).dev.pwr.crit = some 0 ∧ 0 + 16 + msTicks ≤ (s (16 + msTicks)).now ∧ (s (15 + msTicks)).now < 0 + 16 + msTicks ∧ s0.dev.pwr.crit = none := by
  decide +kernel

theorem witness_Pmbus : (0x20 : BitVec 8).toNat = 0x20 ∧ 0xD0 ≤ (0xD0 : BitVec 8).toNat ∧ (0xD3 : BitVec 8).toNat ≤ 0xD3 ∧
    0xD3 < (0xD4 : BitVec 8).toNat ∧ (0xCF : BitVec 8).toNat < 0xD0 := by decide

theorem witness_Mctp : (mctpAnswer s0 [0, 0, 2]).1.isSome = true ∧ (mctpAnswer s0 [2]).1 = none ∧ 1 < fld [2] 0 1 ∧
    fld [0, 0x80, 1, 0, 9] 0 1 = 0 ∧ fld [0, 0x80, 1, 0, 9] 2 1 = 1 := by decide +kernel

/-! ### Bring-up, resets and the test access port (obligations of chapter 21) -/

/-- The state after reset with a changed device unit. -/
def devState (f : Device → Device) : State := updDev f s0

theorem witness_DevCfgQuery : (admitCmd (cmd 0x0102 []) .pfMgmt [] s0).1 = stOk ∧
    (admitCmd (cmd 0x0102 []) .pfMgmt [] s0).2.dev.cfgDefaulted = false ∧
    (admitCmd (cmd 0x0102 []) .pfMgmt [] (devState fun d => { d with cfgDefaulted := true })).1 = stOk ∧
    (admitCmd (cmd 0x0102 []) .pfMgmt [] (devState fun d => { d with cfgDefaulted := true })).2.dev.cfgDefaulted = true := by decide +kernel

theorem witness_DevReset : let met := fun (m : Mbx) (s : State) => admitCmd m .pfMgmt [(16, 1)] s
    let staged := devState fun d => { d with fwStaged := true, perst := false }
    let busy : State := { s0 with mbx := { s0.mbx with mgmtInflight := [⟨1, false, 0, 0, 0, false, 0x0105⟩] } }
    (met (cmd 0 [(16, 2)]) s0).1 = stOk ∧ 1 < mfld (cmd 0 [(16, 2)]) 16 1 ∧ (∀ act < 2, (met (cmd 0x0103 [(16, act)]) s0).1 = stOk ∧ mfld (cmd 0x0103 [(16, act)]) 16 1 = act) ∧
    updateBusy (cmd 0x0103 []) (met (cmd 0x0103 []) s0).2 = false ∧ (met (cmd 0x0103 []) s0).2.dev.fwStaged = false ∧
    (met (cmd 0x0103 [(16, 1)]) staged).1 = stOk ∧ updateBusy (cmd 0x0103 [(16, 1)]) (met (cmd 0x0103 [(16, 1)]) staged).2 = false ∧
    (met (cmd 0x0103 [(16, 1)]) staged).2.dev.fwStaged = true ∧
    (complete (cmd 0x0103 [(16, 1)]) stOk Result.none (met (cmd 0x0103 [(16, 1)]) staged).2).dev.perst = false ∧
    (complete (cmd 0x0103 []) stOk Result.none (met (cmd 0x0103 []) s0).2).dev.perst = true ∧
    (met (cmd 0x0103 []) busy).1 = stOk ∧ updateBusy (cmd 0x0103 []) (met (cmd 0x0103 []) busy).2 = true ∧ s0.flt.fenced = true := by
  decide +kernel

theorem witness_PowerOn : s0.dev.por = true ∧ (devState fun d => { d with por := false }).dev.por = false := by decide +kernel

theorem witness_ConfigLoad : let s := devState fun d => { d with por := false, nor := { answers := true, bytes := [] } }
    let good := devState fun d => { d with por := false, nor := ({ answers := true, bytes := [] } : Nor).program 0x900000 emptyImage }
    s.dev.por = false ∧ s.dev.cfgDone = false ∧ s.dev.nor.answers = true ∧ (checkConfig (s.dev.nor.read 0x900000)).reason ≠ 0 ∧
    (checkConfig (good.dev.nor.read 0x900000)).reason = 0 ∧ (checkConfig (good.dev.nor.read 0x900000)).platform = none := by decide +kernel

theorem witness_Perst : let up := devState fun d => { d with por := false, perst := false }
    let held := devState fun d => { d with por := false, perst := true }
    up.dev.por = false ∧ up.dev.perst = false ∧ held.dev.por = false ∧ held.dev.perst = true := by decide +kernel

theorem witness_HbmReady : let s := devState fun d => { d with por := false, released := some 0, cfgDone := true }
    s.dev.por = false ∧ s.dev.released ≠ none ∧ s.dev.cfgDone = true ∧ s.dev.hostReady = false ∧ s.dev.afterReset = none ∧
    s.dev.image.commands = [] ∧ s.dev.image.applying = none ∧ s0.dev.released = none ∧
    (devState fun d => { d with afterReset := some (256, 0) }).dev.afterReset = some (256, 0) := by decide +kernel

theorem witness_Jtag : s0.dev.perst = true ∧ (devState fun d => { d with perst := false }).dev.perst = false := by decide +kernel

theorem witness_ComputeReset : s0.det.replay = none ∧
    ({ s0 with det := { s0.det with replay := some ⟨some 0, false, 0, 0, 1048576, 0, 0, 0, 0⟩ } } : State).det.replay.map Replay.ctx = some (some 0) := by decide +kernel

end Sys2Proof.Tests
end

section
/-!
Settles the statements of the scope chapter: saturating counters (R14), accesses of a wrong width or alignment (R9), and register
accesses by halves, to W1C bits, to MSI-X entries and to no register (R8, R435, R437, R570, R572, R576).
-/
namespace Sys2Proof.Machine
open Sys2Proof

/-! ### Counter banks (R14) -/

theorem satAdd_toNat (c : Word) (n : Nat) : (satAdd c n).toNat = min (c.toNat + n) 0xFFFFFFFFFFFFFFFF := by
  unfold satAdd
  split
  case isTrue h => rw [BitVec.toNat_ofNat]; omega
  case isFalse h => rw [BitVec.toNat_allOnes]; omega

theorem bump_eq_bumpBy_one (t : Tab Word) (i : Nat) : bump t i = bumpBy t i 1 := rfl

theorem get_bumpBy_same (t : Tab Word) (i n : Nat) :
    (Tab.get 0 (bumpBy t i n) i).toNat = min ((Tab.get 0 t i).toNat + n) 0xFFFFFFFFFFFFFFFF := by
  rw [bumpBy, Tab.get_set_eq, satAdd_toNat]

theorem get_bumpBy_other (t : Tab Word) (n : Nat) {i k : Nat} (h : k ≠ i) : Tab.get 0 (bumpBy t i n) k = Tab.get 0 t k :=
  Tab.get_set_ne h

/-- Settles O12: one event is a count of one, and a count writes one entry with a saturating sum. -/
theorem countersSaturate : Obligations.CountersSaturate := by
  intro t i n
  rw [bump_eq_bumpBy_one]
  exact ⟨get_bumpBy_same t i 1, fun _ => get_bumpBy_other t 1, get_bumpBy_same t i n, fun _ => get_bumpBy_other t n⟩

/-! ### What a function decodes (R437, R572) -/

section Decoding
variable {s : State} {fn : BitVec 8} {w : RegWrite}

theorem execUnmappedBarAccess_absent (h : (s.fn fn.toNat).state = 0) (read : Bool) (bits : BitVec 8) :
    execUnmappedBarAccess fn read bits s = .next (emit (.unsupported fn.toNat) s) := by
  simp only [execUnmappedBarAccess, h]

theorem execUnmappedBarAccess_teardown (h : (s.fn fn.toNat).state = 2) (read : Bool) (bits : BitVec 8) :
    execUnmappedBarAccess fn read bits s = .next (if read then emit (.readData fn.toNat 0 bits.toNat) s else s) := by
  simp only [execUnmappedBarAccess, h]

theorem execUnmappedBarAccess_ready (h : (s.fn fn.toNat).state = 1) (read : Bool) (bits : BitVec 8) :
    execUnmappedBarAccess fn read bits s =
      .next (hifCount 0 (if read then emit (.readData fn.toNat 0 bits.toNat) s else s)) := by
  simp only [execUnmappedBarAccess, h]

/-! A function that is neither ABSENT nor in TEARDOWN takes the last case of the match on its state; `simp` finds the two hypotheses
that rule out the others among the local ones. -/

theorem execBadWidthAccess_decoded (h0 : (s.fn fn.toNat).state ≠ 0) (h2 : (s.fn fn.toNat).state ≠ 2) (read : Bool) :
    execBadWidthAccess fn read s =
      .next (hifCount 0 (if read then emit (.readData fn.toNat 0xFFFFFFFF 32) s else s)) := by
  simp only [execBadWidthAccess]

theorem execRegisterWrite_absent (h : (s.fn w.fn.toNat).state = 0) :
    execRegisterWrite w s = .next (emit (.unsupported w.fn.toNat) s) := by
  simp only [execRegisterWrite, h]

theorem execRegisterWrite_teardown (h : (s.fn w.fn.toNat).state = 2) : execRegisterWrite w s = .next s := by
  simp only [execRegisterWrite, h]

theorem execRegisterWrite_bar0 (h0 : (s.fn w.fn.toNat).state ≠ 0) (h2 : (s.fn w.fn.toNat).state ≠ 2) (hb : w.bar = .bar0) :
    execRegisterWrite w s = writeBar0 w.fn.toNat w.off.toNat w.wide w.data s := by
  simp only [execRegisterWrite, hb]

theorem execRegisterWrite_bar4 (h0 : (s.fn w.fn.toNat).state ≠ 0) (h2 : (s.fn w.fn.toNat).state ≠ 2) (hb : w.bar = .bar4) :
    execRegisterWrite w s = .next (writeBar4 w.fn.toNat w.off.toNat w.wide w.data s) := by
  simp only [execRegisterWrite, hb]

theorem execRegisterWrite_bar2_badWidth (h0 : (s.fn w.fn.toNat).state ≠ 0) (h2 : (s.fn w.fn.toNat).state ≠ 2)
    (hb : w.bar = .bar2) (hw : w.off.toNat % 4 ≠ 0 ∨ w.wide = true) : execRegisterWrite w s = .next (hifCount 0 s) := by
  simp only [execRegisterWrite, hb, if_pos hw]

end Decoding


/-! ### Writes through BAR0 and BAR4 (R8, R9, R435, R570) -/

theorem writeBar0_misaligned {off : Nat} {wide : Bool} (h : off % (if wide then 8 else 4) ≠ 0) (f : Nat) (v : BitVec 64) (s : State) :
    writeBar0 f off wide v s = .next (hifCount 0 s) := by
  rw [writeBar0, if_pos h]

theorem writeBar4_misaligned {off : Nat} {wide : Bool} (h : off % (if wide then 8 else 4) ≠ 0) (f : Nat) (v : BitVec 64) (s : State) :
    writeBar4 f off wide v s = hifCount 0 s := by
  rw [writeBar4, if_pos h]

section LiveWrites
variable {f off : Nat} {a : RegAt} {v : BitVec 64} {s : State}

theorem writeBar0_narrow (hx : off < 0x8000000) (ha : regAt f off = some a) (haw : a.wide = false) (h4 : off % 4 = 0) :
    writeBar0 f off false v s = writeReg f a ((v.setWidth 32).setWidth 64) (~~~ 0) s := by
  simp [writeBar0, ha, haw, h4, Nat.not_le.2 hx]

theorem writeBar0_wide (hx : off < 0x8000000) (ha : regAt f off = some a) (haw : a.wide = true) (h8 : off % 8 = 0) :
    writeBar0 f off true v s = writeReg f a v (~~~ 0) (setHeldLow (2 ^ 28 * f + off) none s) := by
  simp [writeBar0, ha, haw, h8, Nat.not_le.2 hx]

theorem writeBar0_lowHalf (hx : off < 0x8000000) (ha : regAt f off = some a) (haw : a.wide = true) (h4 : off % 4 = 0) :
    writeBar0 f off false v s = .next (setHeldLow (2 ^ 28 * f + off) (some (v.setWidth 32)) s) := by
  simp [writeBar0, ha, haw, h4, Nat.not_le.2 hx]

theorem writeBar0_highHalf {lo : BitVec 32} (hx : off < 0x8000000) (hn : regAt f off = none) (h4 : 4 ≤ off) (h8 : off % 8 = 4)
    (ha : regAt f (off - 4) = some a) (haw : a.wide = true) (hl : heldLow s (2 ^ 28 * f + (off - 4)) = some lo) :
    writeBar0 f off false v s = writeReg f a ((v.setWidth 32).setWidth 64 <<< 32 ||| lo.setWidth 64) (~~~ 0)
      (setHeldLow (2 ^ 28 * f + (off - 4)) none s) := by
  have hal : off % 4 = 0 := by omega
  have hk : 2 ^ 28 * f + off - 4 = 2 ^ 28 * f + (off - 4) := Nat.add_sub_assoc h4 _
  simp only [writeBar0, hn, hal, h4, ha, haw, hk, hl, Nat.not_le.2 hx, Option.filter, Bool.not_false, Bool.and_self, and_false,
    decide_false, Bool.false_eq_true, ne_eq, not_true, if_false, if_true]

theorem writeBar0_noRegister {wide : Bool} (hx : off < 0x8000000) (h8 : off % 8 = 0) (hn : regAt f off = none)
    (hlow : off < 4 ∨ regAt f (off - 4) = none) : writeBar0 f off wide v s = .next (hifCount 0 s) := by
  have hal : off % (if wide then 8 else 4) = 0 := by split <;> omega
  have hhi : (if 4 ≤ off then (regAt f (off - 4)).filter fun a => a.wide && !wide else none) = none := by
    rcases hlow with h | h
    · exact if_neg (Nat.not_le.2 h)
    · rw [h]; exact ite_self _
  simp [writeBar0, hn, hal, hhi, Nat.not_le.2 hx]

/-- Every function holds FN_ERR at 0x100 of its page (Table 22.3). -/
theorem regAt_fnErr (f : Nat) : regAt f 0x100 = some ⟨.fnErr, 0, 0, false⟩ := by
  unfold regAt
  split <;> rfl

theorem writeReg_fnErr (mask : BitVec 64) :
    writeReg f ⟨.fnErr, 0, 0, false⟩ v mask s = .next (s.setFn f { s.fn f with err := (s.fn f).err &&& ~~~ v.setWidth 5 }) := rfl

theorem writeBar0_fnErr : writeBar0 f 0x100 false v s =
    .next (s.setFn f { s.fn f with err := (s.fn f).err &&& ~~~ v.setWidth 5 }) := by
  rw [writeBar0_narrow (by omega) (regAt_fnErr f) rfl rfl, writeReg_fnErr]
  simp only [BitVec.setWidth_setWidth_of_le, Nat.reduceLeDiff]

theorem writeBar4_entryWord {vec k : Nat} (hk : k < 4) (hv : vec < 2048) (hn : vec < (s.fn f).vectors) :
    writeBar4 f (16 * vec + 4 * k) false v s = writeMsix f vec k (v.setWidth 32) s := by
  have hal : (16 * vec + 4 * k) % 4 = 0 := by omega
  have hvec : (16 * vec + 4 * k) / 16 = vec := by omega
  have hword : (16 * vec + 4 * k) % 16 / 4 = k := by omega
  have hin : ¬ (0x8000 ≤ 16 * vec + 4 * k ∨ (s.fn f).vectors ≤ vec) := by omega
  simp only [writeBar4, hal, hvec, hword, hin, Bool.false_eq_true, ne_eq, not_true, if_false]

theorem writeMsix_unmaskPending {vec : Nat} {x : BitVec 32} (hp : (s.vec f vec).pending = true) (hx : x.getLsbD 0 = false) :
    writeMsix f vec 3 x s = sendMessage (.msix f vec (s.vec f vec).addr.toNat (s.vec f vec).data.toNat)
      (s.setVec f vec { s.vec f vec with masked := false, pending := false }) := by
  simp only [writeMsix, hp, hx, Bool.and_false, Bool.false_eq_true, not_false_eq_true, and_self, if_true]

theorem writeMsix_maskPending {vec : Nat} {x : BitVec 32} (hp : (s.vec f vec).pending = true) (hx : x.getLsbD 0 = true) :
    writeMsix f vec 3 x s = s.setVec f vec { s.vec f vec with masked := true, pending := true } := by
  simp only [writeMsix, hp, hx, Bool.and_self, not_true, and_false, if_false]

end LiveWrites

/-! ### Reads through BAR0 (R8, R9, R572, R576) -/

/-- Whether an offset of a function's BAR0 lies in the shadow window (R575). -/
def inShadow (f off : Nat) : Bool := decide (f = 0 ∧ 0x8000000 ≤ off)

/-- The offset of the register that a BAR0 offset means: a shadow's register stands one window lower (R575). -/
def regOff (f off : Nat) : Nat := if inShadow f off then off - 0x8000000 else off

/-- What a read at an offset shows of its register: the shadow's value or the live one. -/
def shownValue (s : State) (f off : Nat) (a : RegAt) : Nat := if inShadow f off then shadowValue s a else regValue s f a

/-- The state after the register is read at an offset: a shadow loses nothing. -/
def afterRead (f off : Nat) (a : RegAt) (s : State) : State := if inShadow f off then s else takeRead a s

theorem inShadow_live (f : Nat) {off : Nat} (h : off < 0x8000000) : inShadow f off = false :=
  decide_eq_false fun hs => absurd hs.2 (Nat.not_le.2 h)

theorem inShadow_window (off : Nat) : inShadow 0 (0x8000000 + off) = true := decide_eq_true ⟨rfl, Nat.le_add_right _ _⟩

theorem regOff_live (f : Nat) {off : Nat} (h : off < 0x8000000) : regOff f off = off := by
  rw [regOff, inShadow_live f h]; rfl

theorem regOff_window (off : Nat) : regOff 0 (0x8000000 + off) = off := by
  rw [regOff, inShadow_window, if_pos rfl, Nat.add_sub_cancel_left]

section Shown
variable {s : State} {a : RegAt} {off : Nat}

theorem shownValue_live (f : Nat) (h : off < 0x8000000) : shownValue s f off a = regValue s f a := by
  rw [shownValue, inShadow_live f h]; rfl

theorem afterRead_live (f : Nat) (h : off < 0x8000000) : afterRead f off a s = takeRead a s := by
  rw [afterRead, inShadow_live f h]; rfl

theorem shownValue_window : shownValue s 0 (0x8000000 + off) a = shadowValue s a := by
  rw [shownValue, inShadow_window, if_pos rfl]

theorem afterRead_window : afterRead 0 (0x8000000 + off) a s = s := by
  rw [afterRead, inShadow_window, if_pos rfl]

end Shown

/-- The window begins at a multiple of 8: both halves of a 64-bit register lie on one side of its edge. -/
theorem inShadow_highHalf {f off : Nat} (h8 : off % 8 = 0) : inShadow f (off + 4) = inShadow f off := by
  unfold inShadow
  congr 1
  simp only [eq_iff_iff]
  omega

theorem regOff_highHalf {f off : Nat} (h8 : off % 8 = 0) : regOff f (off + 4) = regOff f off + 4 := by
  unfold regOff
  rw [inShadow_highHalf h8]
  split
  case isTrue h => have := (of_decide_eq_true h).2; omega
  case isFalse => rfl

section Reads
variable {f off : Nat} {wide : Bool} {a : RegAt} {s : State}

theorem barRead_absent (h : (s.fn f).state = 0) : barRead f off wide s = (none, s) := by
  simp only [barRead, h]

theorem barRead_teardown (h : (s.fn f).state = 2) : barRead f off wide s = (some 0, s) := by
  simp only [barRead, h]

/-- What a READY function answers to a read that reaches a register, by the widths of the two. -/
theorem barRead_register (hs : (s.fn f).state = 1) (hal : off % (if wide then 8 else 4) = 0) (ha : regAt f (regOff f off) = some a) :
    barRead f off wide s =
      if wide ∧ ¬ a.wide then (some 0xFFFFFFFF, hifCount 0 s)
      else if wide ∨ ¬ a.wide then (some (shownValue s f off a), afterRead f off a s)
      else (some (shownValue s f off a % 2 ^ 32), latchHigh (2 ^ 28 * f + off) (shownValue s f off a) (afterRead f off a s)) := by
  unfold regOff inShadow at ha
  simp only [barRead, hs, hal, ha, shownValue, afterRead, inShadow, ne_eq, not_true, if_false]
  rfl

theorem barRead_narrow (hs : (s.fn f).state = 1) (h4 : off % 4 = 0) (ha : regAt f (regOff f off) = some a) (haw : a.wide = false) :
    barRead f off false s = (some (shownValue s f off a), afterRead f off a s) := by
  rw [barRead_register hs h4 ha]
  simp [haw]

theorem barRead_tooWide (hs : (s.fn f).state = 1) (h8 : off % 8 = 0) (ha : regAt f (regOff f off) = some a) (haw : a.wide = false) :
    barRead f off true s = (some 0xFFFFFFFF, hifCount 0 s) := by
  rw [barRead_register hs h8 ha]
  simp [haw]

theorem barRead_wide (hs : (s.fn f).state = 1) (h8 : off % 8 = 0) (ha : regAt f (regOff f off) = some a) (haw : a.wide = true) :
    barRead f off true s = (some (shownValue s f off a), afterRead f off a s) := by
  rw [barRead_register hs h8 ha]
  simp [haw]

theorem barRead_lowHalf (hs : (s.fn f).state = 1) (h8 : off % 8 = 0) (ha : regAt f (regOff f off) = some a) (haw : a.wide = true) :
    barRead f off false s =
      (some (shownValue s f off a % 2 ^ 32), latchHigh (2 ^ 28 * f + off) (shownValue s f off a) (afterRead f off a s)) := by
  have h4 : off % 4 = 0 := by omega
  rw [barRead_register hs h4 ha]
  simp [haw]

/-- The high half is no register of its own: it answers the latch as it stands. -/
theorem barRead_highHalf (hs : (s.fn f).state = 1) (h8 : off % 8 = 0) (ha : regAt f (regOff f off) = some a) (haw : a.wide = true)
    (hn : regAt f (regOff f off + 4) = none) :
    barRead f (off + 4) false s = (some (Tab.get 0 s.host.highLatch (2 ^ 28 * f + off)).toNat, s) := by
  have h4 : (off + 4) % 4 = 0 := by omega
  rw [← regOff_highHalf h8] at hn
  have hlow : regAt f (regOff f (off + 4) - 4) = some a := by rw [regOff_highHalf h8, Nat.add_sub_cancel, ha]
  have hge : 4 ≤ regOff f (off + 4) := by rw [regOff_highHalf h8]; exact Nat.le_add_left _ _
  unfold regOff inShadow at hn hlow hge
  simp only [barRead, hs, h4, hn, hlow, hge, haw, Option.any_some, Bool.false_eq_true, ne_eq, not_true, not_false_eq_true, and_self,
    if_false, if_true]
  rfl

theorem latchHigh_get (key v : Nat) (t : State) :
    (Tab.get 0 (latchHigh key v t).host.highLatch key).toNat = v / 2 ^ 32 % 2 ^ 32 := by
  simp only [latchHigh, Tab.get_set_eq, BitVec.toNat_ofNat]

/-- A 64-bit register, or its shadow, read whole, and by halves: what the high half answers later is the latch alone, in whatever
state it is read (R8). -/
theorem barRead_halves (hs : (s.fn f).state = 1) (h8 : off % 8 = 0) (ha : regAt f (regOff f off) = some a) (haw : a.wide = true) :
    barRead f off true s = (some (shownValue s f off a), afterRead f off a s) ∧
    ∃ t : State, barRead f off false s = (some (shownValue s f off a % 2 ^ 32), t) ∧
      t = { afterRead f off a s with host := { (afterRead f off a s).host with highLatch := t.host.highLatch } } ∧
      (regAt f (regOff f off + 4) = none → ∀ u : State, u.host.highLatch = t.host.highLatch → (u.fn f).state = 1 →
        barRead f (off + 4) false u = (some (shownValue s f off a / 2 ^ 32 % 2 ^ 32), u)) := by
  refine ⟨barRead_wide hs h8 ha haw, _, barRead_lowHalf hs h8 ha haw, rfl, fun hn u hu hus => ?_⟩
  rw [barRead_highHalf hus h8 ha haw hn, hu, latchHigh_get]

end Reads

/-! ### The statements of the chapter -/

/-- Settles O10: by the row's own meaning, and by the alignment check that each BAR makes before anything else. -/
theorem accessesOfWrongWidthOrAlignment : Obligations.AccessesOfWrongWidthOrAlignment := by
  intro s fn h0 h2
  refine ⟨execBadWidthAccess_decoded h0 h2 false, execBadWidthAccess_decoded h0 h2 true, ?_⟩
  rintro w rfl hw
  rw [exec_registerWrite]
  rcases hw with ⟨hbar, hoff⟩ | ⟨hbar, hoff⟩
  · have hal : w.off.toNat % (if w.wide then 8 else 4) ≠ 0 := by
      split
      case isTrue => omega
      case isFalse hn => exact hoff.resolve_right fun h => hn h.1
    cases hb : w.bar with
    | bar0 => rw [execRegisterWrite_bar0 h0 h2 hb, writeBar0_misaligned hal]; rfl
    | bar2 => exact absurd hb hbar
    | bar4 => rw [execRegisterWrite_bar4 h0 h2 hb, writeBar4_misaligned hal]; rfl
  · exact execRegisterWrite_bar2_badWidth h0 h2 hbar hoff

section Ready
variable {s : State} {w : RegWrite}

theorem execRegisterWrite_ready_bar0 (hs : (s.fn w.fn.toNat).state = 1) (hb : w.bar = .bar0) :
    exec (.registerWrite w) s = writeBar0 w.fn.toNat w.off.toNat w.wide w.data s :=
  execRegisterWrite_bar0 (by omega) (by omega) hb

/-- The high half behind a held low half does what one 64-bit write of both does (R8). -/
theorem exec_highHalf_eq_wide {a : RegAt} {lo : BitVec 32} {v : RegWrite} (hs : (s.fn w.fn.toNat).state = 1) (hb : w.bar = .bar0)
    (hx : w.off.toNat < 0x8000000) (hn : regAt w.fn.toNat w.off.toNat = none) (h4 : 4 ≤ w.off.toNat) (hw : w.wide = false)
    (h8 : w.off.toNat % 8 = 4) (ha : regAt w.fn.toNat (w.off.toNat - 4) = some a) (haw : a.wide = true)
    (hl : heldLow s (2 ^ 28 * w.fn.toNat + (w.off.toNat - 4)) = some lo)
    (hv : v = { w with off := w.off - 4, wide := true, data := (w.data.setWidth 32).setWidth 64 <<< 32 ||| lo.setWidth 64 }) :
    exec (.registerWrite w) s = exec (.registerWrite v) s := by
  subst hv
  have hoff : (w.off - 4).toNat = w.off.toNat - 4 := by bv_omega
  have hlow : writeBar0 w.fn.toNat (w.off.toNat - 4) true ((w.data.setWidth 32).setWidth 64 <<< 32 ||| lo.setWidth 64) s = _ :=
    writeBar0_wide (by omega) ha haw (by omega)
  rw [execRegisterWrite_ready_bar0 hs hb, hw, writeBar0_highHalf hx hn h4 h8 ha haw hl, ← hlow, ← hoff]
  exact (execRegisterWrite_ready_bar0 (w := { w with off := w.off - 4, wide := true, data := _ }) hs hb).symm

/-- A write of the control word of a pending entry of the MSI-X table (R435). -/
theorem exec_msixControl {vec : Nat} (hs : (s.fn w.fn.toNat).state = 1) (hb : w.bar = .bar4) (hw : w.wide = false)
    (hoff : w.off.toNat = 16 * vec + 12) (hv : vec < 2048) (hn : vec < (s.fn w.fn.toNat).vectors) :
    exec (.registerWrite w) s = .next (writeMsix w.fn.toNat vec 3 (w.data.setWidth 32) s) := by
  rw [exec_registerWrite, execRegisterWrite_bar4 (by omega) (by omega) hb, hw, hoff]
  exact congrArg _ (writeBar4_entryWord (k := 3) (by omega) hv hn)

end Ready

/-- Settles O11: each clause is one of the laws above, at the width, half or offset that it names. -/
theorem registerWritesReachTheirRegisters : Obligations.RegisterWritesReachTheirRegisters := by
  intro s fn
  refine ⟨fun hs bits => ?_, fun hs bits => ?_, fun hs rd bits => ?_, fun hs w hf hb hx => ?_,
    fun hs w vec hf hb hw hoff hv hn hp => ?_, fun hs off a ha hx => ?_, fun off wide => ⟨barRead_absent, barRead_teardown⟩⟩
  · exact ⟨execUnmappedBarAccess_ready hs false bits, execUnmappedBarAccess_ready hs true bits⟩
  · refine ⟨execUnmappedBarAccess_teardown hs true bits, execUnmappedBarAccess_teardown hs false bits, ?_⟩
    rintro w rfl
    exact execRegisterWrite_teardown hs
  · refine ⟨execUnmappedBarAccess_absent hs rd bits, ?_⟩
    rintro w rfl
    exact execRegisterWrite_absent hs
  · subst hf
    refine ⟨fun a ha haw hw h4 => ?_, fun a lo v hn h4 hw h8 ha haw hl hv => exec_highHalf_eq_wide hs hb hx hn h4 hw h8 ha haw hl hv,
      fun hoff hw => ?_, fun h8 hn hlow => ?_⟩
    · rw [execRegisterWrite_ready_bar0 hs hb, hw, writeBar0_lowHalf hx ha haw h4]; rfl
    · rw [execRegisterWrite_ready_bar0 hs hb, hw, hoff]
      exact writeBar0_fnErr
    · rw [execRegisterWrite_ready_bar0 hs hb, writeBar0_noRegister hx h8 hn hlow]; rfl
  · subst hf
    rw [exec_msixControl hs hb hw hoff hv hn]
    have hbit : (w.data.setWidth 32).getLsbD 0 = w.data.getLsbD 0 := by simp
    exact ⟨fun hd => congrArg _ (writeMsix_unmaskPending hp (hbit.trans hd)),
      fun hd => congrArg _ (writeMsix_maskPending hp (hbit.trans hd))⟩
  · have ha' : regAt fn.toNat (regOff fn.toNat off) = some a := by rw [regOff_live _ hx, ha]
    refine ⟨fun haw h4 => ?_, fun haw h8 => ?_, fun hf haw h8 => ?_⟩
    · rw [← shownValue_live _ hx, ← afterRead_live _ hx]
      exact ⟨barRead_narrow hs h4 ha' haw, fun h8 => barRead_tooWide hs h8 ha' haw⟩
    · have hr := barRead_halves hs h8 ha' haw
      rwa [shownValue_live _ hx, afterRead_live _ hx, regOff_live _ hx] at hr
    · subst hf
      have h8' : (0x8000000 + off) % 8 = 0 := by omega
      have hr := barRead_halves (f := 0) hs h8' ((congrArg _ (regOff_window off)).trans ha) haw
      rwa [shownValue_window, afterRead_window, regOff_window] at hr

end Sys2Proof.Machine
end

section
/-!
Settles the statement of the architecture chapter about epoch boundaries and the governor's plan (R21, R53, R58, R537, R540 to R542).
-/
namespace Sys2Proof.Machine
open Sys2Proof

/-! ### What plate, core, way and memory operations leave alone -/

/-- The clock, the device's own state and the pending RAN swap: the part of the state that an epoch boundary sets and that no
operation on plates, cores, ways or device memory touches. -/
def boundaryView (s : State) : Clock × Device × Option (Nat × Nat) := (s.clk, s.dev, s.plates.swap)

variable {s t : State}

theorem clk_eq_of_boundaryView (h : boundaryView t = boundaryView s) : t.clk = s.clk := congrArg (·.1) h

theorem dev_eq_of_boundaryView (h : boundaryView t = boundaryView s) : t.dev = s.dev := congrArg (·.2.1) h

theorem swap_eq_of_boundaryView (h : boundaryView t = boundaryView s) : t.plates.swap = s.plates.swap := congrArg (·.2.2) h

theorem boundaryView_foldl {β : Type} {f : State → β → State} (hf : ∀ s b, boundaryView (f s b) = boundaryView s) (l : List β)
    (s : State) : boundaryView (l.foldl f s) = boundaryView s := by
  induction l generalizing s with
  | nil => rfl
  | cons b l ih => rw [List.foldl_cons, ih, hf]

@[simp] theorem boundaryView_setCore (k : Nat) (c : Core) : boundaryView (s.setCore k c) = boundaryView s := rfl
@[simp] theorem boundaryView_setThread (n : Nat) (x : Thread) : boundaryView (s.setThread n x) = boundaryView s := rfl
@[simp] theorem boundaryView_setWay (w : Nat) (x : Way) : boundaryView (s.setWay w x) = boundaryView s := rfl
@[simp] theorem boundaryView_setLine (i : Nat) (l : Option Line) : boundaryView (s.setLine i l) = boundaryView s := rfl
@[simp] theorem boundaryView_memClear (a n : Nat) : boundaryView (memClear a n s) = boundaryView s := rfl

/-! A write may find an uncorrectable word at its edges (R265): a fault event, a frame and a drypoint trigger. -/

@[simp] theorem boundaryView_dryEvent (e : Nat) : boundaryView (dryEvent e s) = boundaryView s := by
  unfold dryEvent dryTriggerAt
  dsimp only
  split
  · rfl
  · split <;> rfl

@[simp] theorem boundaryView_sendLease (fields : List (Nat × Nat × Nat)) : boundaryView (sendLease fields s) = boundaryView s := by
  unfold sendLease tagFor
  dsimp only
  split <;> rfl

@[simp] theorem boundaryView_faultEvent (code : Nat) (data : List Byte) : boundaryView (faultEvent code data s) = boundaryView s := by
  unfold faultEvent
  dsimp only
  split
  · rw [sendEvent, boundaryView_sendLease, boundaryView_dryEvent]; rfl
  · rfl

@[simp] theorem boundaryView_logUncorrectable (source a : Nat) : boundaryView (logUncorrectable source a s) = boundaryView s := by
  unfold logUncorrectable
  dsimp only
  split
  · rfl
  · rw [boundaryView_faultEvent, boundaryView_dryEvent]; rfl

@[simp] theorem boundaryView_accountWord (source w : Nat) (o : EccOutcome) :
    boundaryView (accountWord source w o s) = boundaryView s := by
  unfold accountWord
  dsimp only
  split
  · split <;> rfl
  · split
    · rw [boundaryView_logUncorrectable]; split <;> rfl
    · rfl

@[simp] theorem boundaryView_checkWord (source w : Nat) : boundaryView (checkWord source s w) = boundaryView s := by
  unfold checkWord
  dsimp only
  split
  · exact boundaryView_accountWord ..
  · exact boundaryView_accountWord ..

@[simp] theorem boundaryView_memWrite (a : Nat) (bs : List Byte) : boundaryView (memWrite a bs s) = boundaryView s :=
  boundaryView_foldl (fun _ w => boundaryView_checkWord _ w) _ s

/-! Emptying a way writes its dirty lines back; a plate that leaves frees its slots and ways (R27, R57). -/

@[simp] theorem boundaryView_storeLine (l : Line) : boundaryView (storeLine l s) = boundaryView s := by
  unfold storeLine
  dsimp only
  rw [boundaryView_foldl, boundaryView_memWrite]
  intro s i
  split <;> rfl

@[simp] theorem boundaryView_writeBackLine (i : Nat) : boundaryView (writeBackLine s i) = boundaryView s := by
  unfold writeBackLine
  split
  · split
    · rw [boundaryView_setLine]; split
      · exact boundaryView_storeLine _
      · rfl
    · rfl
  · rfl

@[simp] theorem boundaryView_emptyWay (back : Bool) (w : Nat) : boundaryView (emptyWay back w s) = boundaryView s := by
  refine boundaryView_foldl (fun s i => ?_) _ s
  cases back with
  | false => rfl
  | true => exact boundaryView_writeBackLine i

@[simp] theorem boundaryView_clearCore (k : Nat) : boundaryView (clearCore k s) = boundaryView s := by
  unfold clearCore
  dsimp only
  rw [boundaryView_setCore, boundaryView_foldl (fun _ _ => boundaryView_setThread ..), boundaryView_memClear]

@[simp] theorem boundaryView_clearResource (c : Clearing) : boundaryView (clearResource c s) = boundaryView s := by
  unfold clearResource
  split
  · exact boundaryView_clearCore _
  · exact boundaryView_emptyWay _ _
  · rfl

@[simp] theorem boundaryView_finishClearing (c : Clearing) : boundaryView (finishClearing c s) = boundaryView s :=
  boundaryView_clearResource c

@[simp] theorem boundaryView_releaseCompute (h : Nat) (p : Plate) : boundaryView (releaseCompute h p s) = boundaryView s := by
  unfold releaseCompute
  dsimp only
  rw [boundaryView_foldl, boundaryView_foldl]
  · intro s k
    split <;> rfl
  · intro s w
    split
    · split
      · exact boundaryView_emptyWay _ _
      · rfl
    · rfl

@[simp] theorem boundaryView_freePlate (h : Nat) : boundaryView (freePlate h s) = boundaryView s := by
  unfold freePlate
  split
  next => rfl
  next p _ =>
    extract_lets s1 s2 s3
    have uncharged : boundaryView s1 = boundaryView s := by
      unfold s1
      split <;> rfl
    have released : boundaryView s2 = boundaryView s1 := by
      unfold s2
      split
      · exact boundaryView_releaseCompute h p
      · rfl
    exact released.trans uncharged

@[simp] theorem boundaryView_ownRan (b : Bool) (p : Plate) (keep : List Claim) :
    boundaryView (ownRan b p keep s) = boundaryView s := by
  unfold ownRan
  extract_lets
  exact boundaryView_foldl (fun _ _ => boundaryView_setWay ..) _ _

@[simp] theorem boundaryView_settleRan (h e : Nat) : boundaryView (settleRan h e s) = boundaryView s := by
  unfold settleRan
  split
  · extract_lets past
    split
    · rw [boundaryView_freePlate, boundaryView_ownRan]
    · rfl
  · rfl

/-! ### Epoch boundaries (R21, R58, R537) -/

/-- The plates' part of an epoch boundary ends a swap named for the epoch (R58), and sets neither the clock nor the device. -/
theorem boundaryView_epochPlates (e : Nat) : boundaryView (epochPlates e s) =
    (s.clk, s.dev, if s.plates.swap.map Prod.snd = some e then none else s.plates.swap) := by
  unfold epochPlates
  extract_lets s1 s2 s3
  have cleared : boundaryView s1 = boundaryView s := boundaryView_foldl (fun _ c => boundaryView_finishClearing c) _ s
  have retired : boundaryView s2 = boundaryView s := by
    refine (boundaryView_foldl (fun s q => ?_) _ s1).trans cleared
    split <;> rfl
  have view : boundaryView s3 = boundaryView s :=
    (boundaryView_foldl (fun _ (q : Nat × Plate) => boundaryView_settleRan q.1 e) _ s2).trans retired
  rw [← clk_eq_of_boundaryView view, ← dev_eq_of_boundaryView view, ← swap_eq_of_boundaryView view]
  split
  next hswap =>
    simp only [hswap, Option.map_some, Option.some.injEq]
    split
    · rfl
    · rw [← hswap]; rfl
  next hswap => rw [hswap]; exact congrArg _ (congrArg _ hswap)

theorem execEpochBoundary_offBoundary (h : s.now % epochTicks ≠ 0) : execEpochBoundary s = .next s := if_pos h

/-- At a boundary the tier and the valve are set, then the plates change; what is shown of the readings is set last. -/
theorem execEpochBoundary_atBoundary (h : s.now % epochTicks = 0) : ∃ u t, execEpochBoundary s = .next t ∧
    t.clk = (epochPlates s.epochNow u).clk ∧ t.dev.pwr.valve = (epochPlates s.epochNow u).dev.pwr.valve ∧
    t.plates = (epochPlates s.epochNow u).plates ∧ u.plates = s.plates ∧
    u.clk = { s.clk with tier := if s.dev.pwr.planned = some s.epochNow then s.dev.pwr.nextTier else s.clk.tier } ∧
    u.dev.pwr.valve = if s.dev.pwr.tripOn then s.dev.pwr.valve else BitVec.ofNat 11 s.dev.pwr.coolant.valveDuty := by
  unfold execEpochBoundary
  rw [if_neg (fun hoff => hoff h)]
  extract_lets
  exact ⟨_, _, rfl, updPwr_clk _, rfl, updPwr_plates _, updPwr_plates _, updPwr_clk _, rfl⟩

theorem exec_epochBoundary_atBoundary (h : s.now % epochTicks = 0) : ∃ t, exec .epochBoundary s = .next t ∧
    t.clk.ridge = s.clk.ridge ∧
    t.clk.tier = (if s.dev.pwr.planned = some s.epochNow then s.dev.pwr.nextTier else s.clk.tier) ∧
    t.dev.pwr.valve = (if s.dev.pwr.tripOn then s.dev.pwr.valve else BitVec.ofNat 11 s.dev.pwr.coolant.valveDuty) ∧
    ∀ h, s.plates.swap = some (h, s.epochNow) → t.plates.swap = none := by
  obtain ⟨u, t, ht, hclk, hvalve, hplates, huplates, huclk, huvalve⟩ := execEpochBoundary_atBoundary h
  have view := boundaryView_epochPlates (s := u) s.epochNow
  have vclk : (epochPlates s.epochNow u).clk = u.clk := congrArg (·.1) view
  have vdev : (epochPlates s.epochNow u).dev = u.dev := congrArg (·.2.1) view
  have vswap : (epochPlates s.epochNow u).plates.swap = _ := congrArg (·.2.2) view
  refine ⟨t, ht, ?_, ?_, ?_, fun h hs => ?_⟩
  · rw [hclk, vclk, huclk]
  · rw [hclk, vclk, huclk]
  · rw [hvalve, vdev, huvalve]
  · rw [hplates, vswap, huplates, hs]; exact if_pos rfl

/-! ### The governor's choice (R53, R541) -/

section Choice
variable {gov : Governor} {l : Loop} {e : Nat}

/-- While a trip or a sensor fault lasts, the plan is the limit of the RAN plate. -/
theorem chooseTier_of_fault (h : s.dev.pwr.tripOn = true ∨ s.dev.pwr.thermIn.fault = true ∨ s.dev.pwr.thermOut.fault = true) :
    chooseTier s gov l e = (ranLimit s e, 3) := if_pos h

theorem chooseTier_of_fixed (h : ¬ (s.dev.pwr.tripOn = true ∨ s.dev.pwr.thermIn.fault = true ∨ s.dev.pwr.thermOut.fault = true))
    (hf : gov.fixed = true) : chooseTier s gov l e = (min gov.fixedTier (ranLimit s e), 1) := by
  unfold chooseTier
  exact (if_neg h).trans (if_pos hf)

/-- Every tier that the search tries lies between the fastest one allowed and the limit. -/
theorem chooseTier_le_ranLimit : (chooseTier s gov l e).1 ≤ ranLimit s e := by
  unfold chooseTier
  extract_lets lim lo fits
  split
  · exact Nat.le_refl _
  · split
    · exact Nat.min_le_right ..
    · split
      next tier hfind =>
        obtain ⟨i, hi, rfl⟩ := List.mem_map.mp (List.mem_of_find?_eq_some hfind)
        have hi := List.mem_range.mp hi
        have hlo : lo ≤ lim := Nat.min_le_right ..
        change lo + i ≤ lim
        omega
      next => exact Nat.le_refl _

end Choice

/-! ### The governor's plan (R540 to R542) -/

/-- From s the tier n is planned for epoch e, and only the device's own state and the count of free values have changed. -/
structure Planned (s : State) (e : Nat) (n : Nat) (t : State) : Prop where
  frame : t = { s with dev := t.dev, free := t.free }
  planned : t.dev.pwr.planned = some e
  nextTier : t.dev.pwr.nextTier = BitVec.ofNat 2 n

theorem Planned.pwrCount {e n : Nat} (h : Planned s e n t) (i k : Nat) : Planned s e n (pwrCount i k t) :=
  ⟨congrArg (Machine.pwrCount i k) h.frame, h.planned, h.nextTier⟩

theorem Planned.ite {e n : Nat} {u : State} {c : Prop} [Decidable c] (ht : Planned s e n t) (hu : Planned s e n u) :
    Planned s e n (if c then t else u) := by split <;> assumption

theorem exists_free_of_draw (c : Prop) [Decidable c] : ∃ n, (if c then s.draw.2 else s) = { s with free := n } := by
  split
  · exact ⟨_, rfl⟩
  · exact ⟨s.free, rfl⟩

theorem execGovernorPlan_idle (h : s.now % epochTicks ≠ 0 ∨ s.dev.hbmReady = false ∨ s.dev.pwr.planned = some (s.epochNow + 1)) :
    execGovernorPlan s = .next s :=
  if_pos (h.imp_right (Or.imp_left ne_true_of_eq_false))

/-- At a boundary at which no plan stands yet, the tier chosen with the governor record in force is planned for the next epoch. -/
theorem execGovernorPlan_plans (h : s.now % epochTicks = 0) (hr : s.dev.hbmReady = true)
    (hp : s.dev.pwr.planned ≠ some (s.epochNow + 1)) : ∃ gov t, execGovernorPlan s = .next t ∧
      (s.dev.pwr.govNew = none → gov = s.dev.pwr.gov) ∧
      Planned s (s.epochNow + 1) (chooseTier s gov (loopOf s gov) (s.epochNow + 1)).1 t := by
  unfold execGovernorPlan
  rw [if_neg (fun hidle => hidle.elim (· h) (·.elim (· hr) hp))]
  extract_lets e gov l c p xh d s1 s2 s3
  obtain ⟨n, hn⟩ : ∃ n, s1 = { s with free := n } := exists_free_of_draw _
  have planned : Planned s e c.1 s2 := by
    clear_value s1
    subst hn
    exact ⟨rfl, rfl, rfl⟩
  have counted : Planned s e c.1 s3 := .ite (planned.pwrCount 4 1) planned
  refine ⟨gov, _, rfl, fun hnone => ?_, .ite (counted.pwrCount 5 1) (.ite (counted.pwrCount 6 1) counted)⟩
  simp only [gov, hnone]

/-- Settles O22: the frame of an epoch boundary's operations on plates, and the branches of the governor's choice. -/
theorem epochsAndTheGovernor : Obligations.EpochsAndTheGovernor := by
  refine ⟨fun s h => ⟨execEpochBoundary_offBoundary h, execGovernorPlan_idle (.inl h)⟩, fun s h => exec_epochBoundary_atBoundary h,
    fun s h => execGovernorPlan_idle (.inr h), fun s h hr hp => ?_⟩
  obtain ⟨gov, t, ht, hgov, frame, planned, nextTier⟩ := execGovernorPlan_plans h hr hp
  refine ⟨t, ht, frame, planned, ?_, fun hlim hfault => ?_, fun hnone hfixed htier htrip hin hout => ?_⟩
  · rw [nextTier, BitVec.toNat_ofNat]
    exact Nat.le_trans (Nat.mod_le ..) chooseTier_le_ranLimit
  · rw [nextTier, chooseTier_of_fault hfault, BitVec.toNat_ofNat]
    exact Nat.mod_eq_of_lt hlim
  · obtain rfl := hgov hnone
    have healthy : ¬ (s.dev.pwr.tripOn = true ∨ s.dev.pwr.thermIn.fault = true ∨ s.dev.pwr.thermOut.fault = true) := by
      simp only [htrip, hin, hout, Bool.false_eq_true, or_self, not_false_eq_true]
    rw [nextTier, chooseTier_of_fixed healthy hfixed, BitVec.toNat_ofNat]
    exact Nat.mod_eq_of_lt (Nat.lt_of_le_of_lt (Nat.min_le_left ..) htier)

end Sys2Proof.Machine
end

section
/-!
Settles the statement of the plates chapter about the plate commands (R35, R38, R50, R57, R58, R60, R61, R246, R497, R600, R601).
-/
namespace Sys2Proof.Machine
open Sys2Proof

/-! ### The plate store under operations on cores, ways and partitions -/

section Store
variable {s t : State}

/-- What every step of a fold leaves alone, the fold leaves alone. -/
theorem foldl_leaves {β γ : Type} {view : State → γ} {f : State → β → State} {l : List β}
    (hf : ∀ s, ∀ b ∈ l, view (f s b) = view s) (s : State) : view (l.foldl f s) = view s :=
  List.foldlRecOn l f (motive := fun t => view t = view s) rfl fun t ht b hb => (hf t b hb).trans ht

theorem plate_of_store (h : t.plates.store = s.plates.store) (k : Nat) : t.plate k = s.plate k :=
  congrArg (Tab.get none · k) h

theorem plate_same_of_store {h : Nat} {x : Option Plate} (ht : t.plates.store = (s.setPlate h x).plates.store) : t.plate h = x :=
  (plate_of_store ht h).trans (setPlate_plate_eq x)

theorem plate_other_of_store {h k : Nat} {x : Option Plate} (ht : t.plates.store = (s.setPlate h x).plates.store) (hk : k ≠ h) :
    t.plate k = s.plate k :=
  (plate_of_store ht k).trans (setPlate_plate_ne x hk)

theorem updPlate_of_plate {h : Nat} {p : Plate} (hp : s.plate h = some p) (f : Plate → Plate) :
    updPlate h f s = s.setPlate h (some (f p)) := by
  simp only [updPlate, hp]

@[simp] theorem assignSlots_plates (p : Plate) : (assignSlots p s).plates = s.plates :=
  foldl_leaves (view := State.plates) (fun s k _ => by dsimp only; split <;> rfl) s

@[simp] theorem takeCacheWays_plates (p : Plate) : (takeCacheWays p s).plates = s.plates :=
  foldl_leaves (view := State.plates) (fun s w _ => by dsimp only; split <;> rfl) s

@[simp] theorem ownRan_store (toRan : Bool) (p : Plate) (keep : List Claim) :
    (ownRan toRan p keep s).plates.store = s.plates.store := by
  unfold ownRan
  extract_lets
  exact foldl_leaves (view := fun s => s.plates.store) (fun s w _ => congrArg Plates.store (setWay_plates w _)) _

@[simp] theorem startClearing_store (toRan : Bool) (p : Plate) (keep : List Claim) :
    (startClearing toRan p keep s).plates.store = s.plates.store := rfl

end Store

/-! ### Admission and retirement of one plate -/

section Admission
variable {s : State} {h e : Nat} {p : Plate}

/-- An admission writes one entry of the plate store; the rest of it is about partitions, slots and ways (R27, R444, R445). -/
theorem admitPlate_store (keep : List Claim) :
    (admitPlate h e p keep s).plates.store = (s.setPlate h (some { p with state := 1, firstEpoch := e })).plates.store := by
  unfold admitPlate
  dsimp only
  split
  · rw [startClearing_store, ownRan_store]
  · split
    · rfl
    · rw [takeCacheWays_plates, assignSlots_plates]

theorem freePlate_plate_same : (freePlate h s).plate h = none := by
  unfold freePlate
  split
  next hp => exact hp
  next =>
    extract_lets _ s2
    exact plate_same_of_store (s := s2) rfl

/-- A plate that was never admitted holds no slots and ways: freeing it returns a compute image's charge and its handle. -/
theorem freePlate_loaded (hp : s.plate h = some p) (hs : p.state = 0) :
    (freePlate h s).plates.store = (s.setPlate h none).plates.store ∧
    (freePlate h s).mem = (if p.kind = 2 then uncharge p.owner 0 (alignUp p.image.length 65536) s else s).mem := by
  have notAdmitted : ¬ (p.admitted = true ∧ ¬ p.isRan = true) := by simp [Plate.admitted, hs]
  simp only [freePlate, hp, if_neg notAdmitted]
  split <;> exact ⟨rfl, rfl⟩

theorem settleRetiring_unfinished (hp : s.plate h = some p) (hr : p.state ≠ 3 ∨ p.running ≠ []) : settleRetiring h s = s := by
  simp only [settleRetiring, hp]
  exact if_neg fun ⟨hstate, hrun, _⟩ => hr.elim (· hstate) (· hrun)

theorem settleRetiring_finished (hp : s.plate h = some p) (hs : p.state = 3) (hr : p.running = []) (hk : p.kind ≠ 1) :
    (settleRetiring h s).plate h = none := by
  simp only [settleRetiring, hp]
  rw [if_pos ⟨hs, hr, hk⟩, freePlate_plate_same]

end Admission

/-! ### Copying an image into the reserve (R38, R600) -/

section Copy
variable {s : State} {image : List Byte}

/-- A write of whole words covers no word in part. -/
theorem edgeWords_aligned {a n : Nat} (ha : 16 ∣ a) (hn : 16 ∣ n) : edgeWords a n = [] := by
  refine List.filter_eq_nil_iff.2 fun w hw => ?_
  unfold wordsOf at hw
  split at hw
  case isTrue => cases hw
  case isFalse =>
    obtain ⟨i, hi, rfl⟩ := List.mem_map.1 hw
    have := List.mem_range.1 hi
    rw [decide_eq_true_eq]
    omega

theorem memWrite_aligned {a : Nat} {bs : List Byte} (ha : 16 ∣ a) (hn : 16 ∣ bs.length) :
    memWrite a bs s = { s with mem := (s.mem.write a bs).1 } := by
  simp only [memWrite, checkEdges, edgeWords_aligned ha hn, List.foldl_nil]

theorem dvd_length_of_mem_chunksAux {α : Type} {m n : Nat} (hn : m ∣ n) : ∀ (k : Nat) (l : List α), m ∣ l.length →
    ∀ c ∈ chunksAux n k l, m ∣ c.length
  | 0, _, _, _, hc => nomatch hc
  | _ + 1, [], _, _, hc => nomatch hc
  | k + 1, x :: l, hl, c, hc => by
    rcases List.mem_cons.1 hc with rfl | hc
    · rw [List.length_take]
      rcases Nat.le_total n (x :: l).length with hle | hle
      · rwa [Nat.min_eq_left hle]
      · rwa [Nat.min_eq_right hle]
    · refine dvd_length_of_mem_chunksAux hn k _ ?_ c hc
      rw [List.length_drop]
      exact Nat.dvd_sub hl hn

/-- An image of whole words is copied without meeting an old word: only memory is written. -/
theorem copyImage_frame (hi : 16 ∣ image.length) (frames : List Nat) :
    copyImage image frames s = { s with mem := (copyImage image frames s).mem } := by
  have frame : { copyImage image frames s with mem := s.mem } = s := by
    refine foldl_leaves (view := fun t => { t with mem := s.mem }) (fun t e he => ?_) s
    have chunk := dvd_length_of_mem_chunksAux (by decide : 16 ∣ 65536) _ _ hi e.1 (List.of_mem_zip he).1
    rw [memWrite_aligned (by omega) chunk]
  exact congrArg (fun t => { t with mem := (copyImage image frames s).mem }) frame

theorem headerOk_length {x : Header} {owner : Nat} (h : headerOk x image owner = true) : image.length % 64 = 0 := by
  simp only [headerOk, Bool.and_eq_true, decide_eq_true_eq] at h
  obtain ⟨⟨⟨⟨⟨⟨⟨_, hlen, hmod⟩, _⟩, _⟩, _⟩, _⟩, _⟩, _⟩ := h
  rwa [← hlen]

theorem headerOk_of_checkImage {owner : Nat} {digest : List Byte} (h : checkImage image owner digest = stOk) :
    headerOk (readHeader image) image owner = true := by
  refine Decidable.byContradiction fun hbad => ?_
  unfold checkImage at h
  simp only [hbad, Bool.false_eq_true, not_false_eq_true, if_true] at h
  split at h
  · exact absurd h (by decide)
  · split at h
    · exact absurd h (by decide)
    · split at h <;> exact absurd h (by decide)

/-- An image that passed its checks is made of whole words (R38). -/
theorem dvd_length_of_checkImage {owner : Nat} {digest : List Byte} (h : checkImage image owner digest = stOk) :
    16 ∣ image.length := by
  have := headerOk_length (headerOk_of_checkImage h)
  omega

end Copy

/-! ### The plate commands -/

section Charges
variable {s : State} (c t n : Nat)

theorem quota_of_mem {s' : State} (h : s'.mem = s.mem) : s'.quota c t = s.quota c t := by
  rw [State.quota, State.quota, h]

@[simp] theorem charge_usage : ((charge c t n s).quota c t).usage = (s.quota c t).usage + n :=
  congrArg Quota.usage Tab.get_set_eq

@[simp] theorem uncharge_usage : ((uncharge c t n s).quota c t).usage = (s.quota c t).usage - n :=
  congrArg Quota.usage Tab.get_set_eq

end Charges

theorem namedPlate_plate {m : Mbx} {s : State} {h : Nat} {p : Plate} (hp : namedPlate m s = some (h, p)) : s.plate h = some p := by
  unfold namedPlate at hp
  split at hp
  next q hq =>
    split at hp
    · cases hp
      exact hq
    · cases hp
  next => cases hp

/-- A fence turns away plates of the compute partition only (R497). -/
theorem notFenced {s : State} {p : Plate} (h : p.isRan = true ∨ s.flt.probation = false) :
    ¬ (¬ p.isRan = true ∧ s.flt.probation = true) :=
  fun hf => h.elim hf.1 (ne_true_of_eq_false · hf.2)

/-- The next handle and the record of retired ones are kept beside the plates. -/
theorem plate_renumbered {s : State} {n k : Nat} {r : Tab Nat} :
    ({ s with plates := { s.plates with nextHandle := n, retired := r } } : State).plate k = s.plate k := rfl

theorem plate_swapped {s : State} {k : Nat} {x : Option (Nat × Nat)} :
    ({ s with plates := { s.plates with swap := x } } : State).plate k = s.plate k := rfl

/-- Loading writes only memory beside the plate store: a compute image's charge, or the frames of another image. -/
theorem copyImage_charged {s : State} {image : List Byte} (hi : 16 ∣ image.length) (c : Prop) [Decidable c] (owner n : Nat)
    (frames : List Nat) : ∃ M, copyImage image frames (if c then charge owner 0 n s else s) = { s with mem := M } := by
  refine ⟨(copyImage image frames (if c then charge owner 0 n s else s)).mem, (copyImage_frame hi frames).trans ?_⟩
  split <;> rfl

@[simp] theorem copyImage_nil (image : List Byte) (s : State) : copyImage image [] s = s := by
  simp only [copyImage, List.zip_nil_right, List.foldl_nil]

/-- A compute image takes no frame of the reserve. -/
theorem reserveBytes_compute {p : Plate} (h : p.kind = 2) : reserveBytes p = 0 := if_pos h

/-- Settles O20: each command passes its guards one by one; what is left writes or removes one entry of the plate store. -/
theorem plateCommandsPerform : Obligations.PlateCommandsPerform := by
  refine ⟨performs_of exec_plateLoad fun m a hv => ?load, performs_of exec_plateAdmit fun m a hv => ?admission,
    performs_of exec_plateStart fun m a hv => ?start, performs_of exec_plateSwap fun m a hv => ?swap,
    performs_of exec_plateRetire fun m a hv => ?retire, performs_of exec_plateQuery fun m a hv => ?query,
    declines_of exec_plateAdmit fun m a hw => ?admitUnknown, declines_of exec_plateStart fun m a hw => ?startUnknown,
    declines_of exec_plateStart fun m a hw => ?startRetired, declines_of exec_plateSwap fun m a hw => ?swapUnknown,
    declines_of exec_plateRetire fun m a hw => ?retireUnknown, declines_of exec_plateQuery fun m a hw => ?queryUnknown⟩
  case load =>
    obtain ⟨hlo, hhi, hfn, hown, himage, hcount, hroom, hquota⟩ := hv
    have fields : ¬ (mfld m 24 4 < 128 ∨ 0x10000000 < mfld m 24 4 ∨ (a.fn (mfld m 28 1)).state ≠ 1 ∨
        (issuer m ≠ 0 ∧ mfld m 28 1 ≠ issuer m)) :=
      fun hbad => hbad.elim (Nat.not_lt.2 hlo) fun hbad => hbad.elim (Nat.not_lt.2 hhi) fun hbad => hbad.elim (· hfn)
        fun hbad => hown.elim hbad.1 hbad.2
    dsimp only at hroom hquota ⊢
    generalize plateOf (sliceBytes (mdata m) 0 (mfld m 24 4)) (mfld m 28 1) = p at hroom hquota ⊢
    refine ⟨_, _, (if_neg fields).trans ((if_neg (not_not_intro himage)).trans ((if_neg (by omega)).trans
      (if_neg fun hk => ne_true_of_eq_false (hquota hk.1) hk.2))), ?_⟩
    obtain ⟨M, loaded⟩ := copyImage_charged (s := a) (dvd_length_of_checkImage himage) (p.kind = 2) (mfld m 28 1)
      (alignUp (mfld m 24 4) 65536) ((reserveFrames a).take (reserveBytes p / 65536))
    rw [loaded]
    refine ⟨rfl, plate_renumbered.trans (setPlate_plate_eq _), fun k hk => plate_renumbered.trans (setPlate_plate_ne _ hk), rfl,
      fun compute => ?_, fun reserve => ?_, rfl⟩
    · rw [reserveBytes_compute compute, Nat.zero_div, List.take_zero, copyImage_nil, if_pos compute] at loaded
      obtain rfl : (charge (mfld m 28 1) 0 (alignUp (mfld m 24 4) 65536) a).mem = M := congrArg State.mem loaded
      rw [reserveBytes_compute compute, Nat.zero_div, List.take_zero]
      exact ⟨rfl, rfl, charge_usage (s := a) (mfld m 28 1) 0 (alignUp (mfld m 24 4) 65536)⟩
    · rw [if_neg reserve] at loaded
      exact (congrArg State.mem loaded).symm
  case admission =>
    obtain ⟨h, p, hp, hs, hnamed, hran, hpart, hcheck⟩ := hv
    have inTime : ¬ (mfld m 24 8 ≠ 0 ∧ mfld m 24 8 < a.epochNow + 2) := by omega
    have soleRan : ¬ (p.kind = 1 ∧ (plateList a).any (fun q => q.2.kind == 1 && q.2.admitted) = true) :=
      fun hk => ne_true_of_eq_false (hran hk.1) hk.2
    dsimp only at hcheck ⊢
    simp only [hp, if_neg (not_not_intro hs), if_neg inTime, if_neg soleRan, if_neg (notFenced hpart), hcheck]
    refine ⟨_, _, rfl, fun h' p' hn => ?_⟩
    cases hn
    exact ⟨rfl, rfl, plate_same_of_store (admitPlate_store []), fun k hk => plate_other_of_store (admitPlate_store []) hk⟩
  case start =>
    obtain ⟨h, p, hp, hkind, hmode, hstate, hpart, harea⟩ := hv
    have accepts : ¬ (p.kind = 1 ∨ 1 < mfld m 18 1 ∨ (mfld m 18 1 = 0 ∧ mfld m 20 2 ≠ 0) ∨ (mfld m 18 1 = 1 ∧
        (Tab.get none a.fab.groups (mfld m 20 2)).map Group.owner ≠ some p.owner)) := by
      rcases hmode with ⟨hmode, hgroup⟩ | ⟨hmode, howner⟩
      · simp [hkind, hmode, hgroup]
      · simp [hkind, hmode, howner]
    have ready : ¬ (p.state = 0 ∨ p.state = 3) := by
      rcases hstate with ⟨hstate, -⟩ | ⟨hstate, -⟩ <;> simp [hstate]
    have free : ¬ ((p.state = 1 ∧ p.startPending = true) ∨ (p.state = 2 ∧ ¬ (decide (p.state = 2) && p.held) = true)) := by
      rcases hstate with ⟨hstate, hpending⟩ | ⟨hstate, hheld⟩
      · simp [hstate, hpending]
      · simp [hstate, hheld]
    have area : ¬ (p.kind = 2 ∧ ¬ saveAreaOk a p = true) := fun hk => hk.2 (harea hk.1)
    simp only [hp, if_neg accepts, if_neg ready, if_neg free, if_neg (notFenced hpart), if_neg area]
    refine ⟨_, _, rfl, fun h' p' hn => ?_⟩
    cases hn
    exact ⟨rfl, rfl⟩
  case swap =>
    obtain ⟨h, p, oh, old, hp, hs, hkind, hnamed, hswap, hne, hold, hcheck⟩ := hv
    have inTime : ¬ (p.kind ≠ 1 ∨ (mfld m 24 8 ≠ 0 ∧ mfld m 24 8 < a.epochNow + 2)) := by omega
    dsimp only
    simp only [hp, if_neg (not_not_intro hs), if_neg inTime, if_neg (not_not_intro hswap), hold, hcheck]
    refine ⟨_, _, rfl, fun h' p' oh' old' hn ho _ => ?_⟩
    cases hn
    cases ho
    exact ⟨rfl, rfl, plate_swapped.trans ((setPlate_plate_ne _ hne.symm).trans (plate_same_of_store (admitPlate_store _))),
      plate_swapped.trans (setPlate_plate_eq _),
      fun k hk hko => plate_swapped.trans ((setPlate_plate_ne _ hko).trans (plate_other_of_store (admitPlate_store _) hk))⟩
  case retire =>
    obtain ⟨h, p, hp, hswap⟩ := hv
    have stored := namedPlate_plate hp
    simp only [hp]
    by_cases hs : p.state = 0
    · simp only [if_pos hs]
      refine ⟨_, _, rfl, fun h' p' hn => ?_⟩
      cases hn
      obtain ⟨store, mem⟩ := freePlate_loaded stored hs
      refine ⟨fun _ => ⟨rfl, freePlate_plate_same, fun k hk => plate_other_of_store store hk, fun compute => ?_⟩,
        fun hs' => absurd hs hs', fun hs' => absurd hs hs'⟩
      rw [if_pos compute] at mem
      rw [quota_of_mem _ _ mem, uncharge_usage]
    by_cases hk : p.kind = 1
    · simp only [if_neg hs, if_pos hk, if_neg (not_not_intro (hswap hs hk))]
      refine ⟨_, _, rfl, fun h' p' hn => ?_⟩
      cases hn
      exact ⟨fun hs' => absurd hs' hs, fun _ _ => ⟨rfl, rfl⟩, fun _ hk' => absurd hk hk'⟩
    · simp only [if_neg hs, if_neg hk]
      refine ⟨_, _, rfl, fun h' p' hn => ?_⟩
      cases hn
      exact ⟨fun hs' => absurd hs' hs, fun _ hk' => absurd hk' hk, fun _ _ => ⟨rfl,
        fun hr => settleRetiring_unfinished (setPlate_plate_eq _) (.inr hr),
        fun hr => settleRetiring_finished (setPlate_plate_eq _) rfl hr hk⟩⟩
  case query =>
    obtain ⟨h, p, hp⟩ := hv
    refine ⟨_, _, by rw [hp], rfl, fun h' p' hn => ?_⟩
    cases hp.symm.trans hn
    rfl
  case admitUnknown => simp only [hw, refuse]
  case startUnknown =>
    obtain ⟨hw, hr⟩ := hw
    simp only [hw, refuse, retiredHandle, beq_eq_false_iff_ne.2 hr]
    rfl
  case startRetired =>
    obtain ⟨hw, hr⟩ := hw
    simp only [hw, refuse, retiredHandle, hr, beq_self_eq_true, if_true]
  case swapUnknown => simp only [hw, refuse]
  case retireUnknown => simp only [hw, refuse]
  case queryUnknown => simp only [hw, refuse]

end Sys2Proof.Machine
end

section
/-!
Settles the statement of the plates chapter about windows, plate commands and impressions (R27, R42, R52, R100, R297, R601).
-/
namespace Sys2Proof.Machine
open Sys2Proof

/-! ### Fault events leave the plate store alone (R487) -/

section Events
variable {s : State}

@[simp] theorem dryEvent_plates (e : Nat) : (dryEvent e s).plates = s.plates := by
  unfold dryEvent dryTriggerAt
  dsimp only
  split
  · rfl
  · split <;> rfl

@[simp] theorem sendLease_plates (fields : List (Nat × Nat × Nat)) : (sendLease fields s).plates = s.plates := by
  unfold sendLease tagFor
  dsimp only
  split <;> rfl

@[simp] theorem faultEvent_plates (code : Nat) (data : List Byte) : (faultEvent code data s).plates = s.plates := by
  unfold faultEvent
  dsimp only
  split
  · rw [sendEvent, sendLease_plates, dryEvent_plates]
  · rfl

end Events

/-! ### Operations that find nothing to do -/

section Idle
variable {s : State} {h c : Nat}

theorem endThatch_of_no_schedule {start : Nat} (hs : s.schedule h start = none) : endThatch h start s = s := by
  simp only [endThatch, hs]

theorem stepBoundary_of_no_queues {imp next : Nat} (hq : plateQueues s h = []) : stepBoundary h imp next s = s := by
  simp only [stepBoundary, hq, List.foldl_nil]

theorem settleStop_of_not_stopping (hc : (s.ctx c).state ≠ 2) : settleStop c s = s :=
  if_pos (.inl hc)

end Idle

/-! ### Windows (R42, R52) -/

section Windows
variable {s : State} {h : BitVec 16} {w : BitVec 12} {p : Plate} {x : Win} {rest : List Win}

theorem execWindowStart_no_plate (hp : s.plate h.toNat = none) : execWindowStart h w s = .next s := by
  simp only [execWindowStart, hp]

theorem execWindowStart_no_window (hp : s.plate h.toNat = some p) (hw : ∀ x ∈ p.windows, x.window ≠ w.toNat) :
    execWindowStart h w s = .next s := by
  have noWindow : p.windows.filter (·.window == w.toNat) = [] :=
    List.filter_eq_nil_iff.2 fun x hx => by simpa using hw x hx
  simp only [execWindowStart, hp, noWindow]

theorem execWindowStart_not_due (hp : s.plate h.toNat = some p) (hx : p.windows.filter (·.window == w.toNat) = x :: rest)
    (hd : s.now < x.start ∨ (s.now - x.start) % gridPeriod x.grid ≠ 0 ∨ Tab.get 0 p.seen w.toNat = s.now + 1) :
    execWindowStart h w s = .next s := by
  simp only [execWindowStart, hp, hx, if_pos hd]

/-- A window of a compute or service plate that is due is noted as seen, once for the ridge count. -/
theorem execWindowStart_due (hp : s.plate h.toNat = some p) (hx : p.windows.filter (·.window == w.toNat) = x :: rest)
    (hd : ¬ (s.now < x.start ∨ (s.now - x.start) % gridPeriod x.grid ≠ 0 ∨ Tab.get 0 p.seen w.toNat = s.now + 1))
    (hk : p.kind ≠ 1) : execWindowStart h w s = .next (startComputeWindow h.toNat p x
      (s.setPlate h.toNat (some { p with seen := Tab.set 0 p.seen w.toNat (s.now + 1) }))) := by
  simp only [execWindowStart, hp, hx, if_neg hd, if_neg hk, updPlate_of_plate hp]

end Windows

section Occurrences
variable {s : State} {h : Nat} {p : Plate} {x : Win}

theorem startComputeWindow_early (he : s.now < p.firstEpoch * epochTicks + x.start) : startComputeWindow h p x s = s :=
  if_pos (.inl he)

/-- An active plate with no start pending and nothing held takes up a new occurrence in a window that it may use (R54, R448,
R453). -/
theorem startComputeWindow_runs (he : p.firstEpoch * epochTicks + x.start ≤ s.now) (hs : p.state = 2) (hh : p.held = false)
    (hn : p.startPending = false) (ht : s.clk.tier.toNat ≤ limitOf p s)
    (hc : p.isRan = true ∨ (s.flt.probation = false ∧ ctxHeld s p.owner = false ∧ (s.ctx p.owner).state = 1))
    (hw : ∀ r ∈ p.running, r.waits (s.ctx p.owner) = false) : startComputeWindow h p x s =
      runOccurrence h (newRunning x 0 (s.now - x.start) (p.nextImp + p.running.length) s.now) s := by
  have active : ¬ (s.now < p.firstEpoch * epochTicks + x.start ∨ (p.state ≠ 1 ∧ p.state ≠ 2 ∧
      ¬ (p.state = 3 ∧ p.running.any (Running.waits · (s.ctx p.owner)) = true))) := by omega
  have allowed : ¬ ((¬ p.isRan = true ∧ s.flt.probation = true) ∨ limitOf p s < s.clk.tier.toNat) := by
    rintro (hf | hl)
    · exact notFenced (hc.imp_right And.left) hf
    · omega
  have noneWaits : p.running.find? (Running.waits · (s.ctx p.owner)) = none := List.find?_eq_none.2 fun r hr => by
    simp only [hw r hr, Bool.false_eq_true, not_false_eq_true]
  have loaded : ¬ (p.state = 1 ∧ ¬ false = true) := fun h1 => by omega
  have notHeld : ¬ (p.held = true ∧ ¬ false = true) := fun hheld => ne_true_of_eq_false hh hheld.1
  have runs : ¬ (¬ p.isRan = true ∧ ctxHeld s p.owner = true ∧
      ¬ ((s.ctx p.owner).state = 4 ∧ (s.ctx p.owner).resumeAsked = true)) :=
    fun ⟨hcompute, hheld, _⟩ => hc.elim hcompute fun ⟨_, hfree, _⟩ => ne_true_of_eq_false hfree hheld
  have notSaved : ¬ (¬ p.isRan = true ∧ (s.ctx p.owner).state = 4) :=
    fun ⟨hcompute, h4⟩ => hc.elim hcompute fun ⟨_, _, h1⟩ => absurd (h1.symm.trans h4) (by decide)
  have notIdle : ¬ (¬ p.isRan = true ∧ (s.ctx p.owner).state = 0) :=
    fun ⟨hcompute, h0⟩ => hc.elim hcompute fun ⟨_, _, h1⟩ => absurd (h1.symm.trans h0) (by decide)
  have begins : ¬ (false = true ∧ ¬ (p.mode = 1 ∧ p.running ≠ [])) := fun hb => Bool.false_ne_true hb.1
  simp only [startComputeWindow, hn, Bool.false_and, if_neg active, if_neg loaded, if_neg notHeld, if_neg allowed, if_neg runs,
    if_neg notSaved, if_neg notIdle, noneWaits, if_neg begins, if_neg Bool.false_ne_true]

theorem Running.waits_eq_false {r : Running} {ctx : Ctx} (hr : r.ended = true ∨ (r.hold ≠ 2 ∧ r.hold ≠ 3)) (hc : ctx.state ≠ 4) :
    r.waits ctx = false := by
  rcases hr with hr | ⟨h2, h3⟩
  · simp [Running.waits, hr]
  · rw [Running.waits, beq_eq_false_iff_ne.2 h2, beq_eq_false_iff_ne.2 h3, beq_eq_false_iff_ne.2 hc]
    exact Bool.and_false _

theorem runOccurrence_of_running {r : Running} (hp : s.plate h = some p) (hs : p.state = 2) :
    runOccurrence h r s = beginOccurrence h r.window r.start (s.setPlate h (some { p with running := p.running ++ [r] })) := by
  simp only [runOccurrence, updPlate_of_plate hp, hs, if_neg (by decide : ¬ 2 = 1)]

end Occurrences

section Ends
variable {s : State} {h : BitVec 16} {w : BitVec 12} {p : Plate} {x : Win} {r : Running}

theorem execWindowEnd_no_plate (hp : s.plate h.toNat = none) : execWindowEnd h w s = .next s := by
  simp only [execWindowEnd, hp]

theorem execWindowEnd_on_time (hp : s.plate h.toNat = some p) (hx : p.windows.find? (·.window == w.toNat) = some x)
    (hr : ∀ r ∈ p.running, r.window ≠ w.toNat ∨ r.winStart + x.length ≠ s.now ∨ r.ended = true ∨ r.overrun = true) :
    execWindowEnd h w s = .next s := by
  simp only [execWindowEnd, hp, hx]
  refine if_neg fun hlate => ?_
  obtain ⟨r, hmem, hlate⟩ := List.any_eq_true.1 hlate
  rcases hr r hmem with hr | hr | hr | hr <;> simp [hr] at hlate

/-- The overrun is reported in a fault event, which leaves the plates as they are. -/
theorem execWindowEnd_late (hp : s.plate h.toNat = some p) (hx : p.windows.find? (·.window == w.toNat) = some x)
    (hr : r ∈ p.running) (hw : r.window = w.toNat) (hend : r.winStart + x.length = s.now) (he : r.ended = false)
    (ho : r.overrun = false) (hh : r.hold < 2) (hc : p.isRan = true ∨ (s.ctx p.owner).state ≠ 4) :
    ∃ t q, execWindowEnd h w s = .next t ∧ t.plate h.toNat = some q ∧ q.overruns = satNat 64 p.overruns 1 ∧
      { r with overrun := true } ∈ q.running ∧ q = { p with overruns := q.overruns, running := q.running } ∧
      ∀ k, k ≠ h.toNat → t.plate k = s.plate k := by
  have late : (r.window == w.toNat && r.winStart + x.length == s.now && !r.ended && !r.overrun && r.hold != 3 &&
      !(r.hold == 2 && !r.begun) && (p.isRan || (s.ctx p.owner).state != 4)) = true := by
    have h2 : r.hold ≠ 2 := by omega
    have h3 : r.hold ≠ 3 := by omega
    simpa [hw, hend, he, ho, h2, h3] using hc
  simp only [execWindowEnd, hp, hx]
  rw [if_pos (List.any_eq_true.2 ⟨r, hr, late⟩)]
  have reported : ∀ (data : List Byte) (u : State) k, (faultEvent 4 data u).plate k = u.plate k :=
    fun data u => plate_of_store (congrArg Plates.store (faultEvent_plates 4 data))
  refine ⟨_, _, rfl, (reported _ _ _).trans (setPlate_plate_eq _), rfl, List.mem_map.2 ⟨r, hr, if_pos late⟩, rfl,
    fun k hk => ?_⟩
  exact (reported _ _ k).trans ((setPlate_plate_ne _ hk).trans (plate_of_store (congrArg Plates.store (dryEvent_plates 1)) k))

end Ends

/-! ### Plate commands (R100) -/

section Commands
variable {s : State} {h : BitVec 16} {w : BitVec 12} {p : Plate} {r : Running}

theorem execPlateCommandEnd_no_plate (hp : s.plate h.toNat = none) : execPlateCommandEnd h w s = .next s := by
  simp only [execPlateCommandEnd, hp]

theorem execPlateCommandEnd_no_record (hp : s.plate h.toNat = some p)
    (hr : p.running.find? (fun r => r.window == w.toNat && r.begun && !r.ended) = none) : execPlateCommandEnd h w s = .next s := by
  simp only [execPlateCommandEnd, hp, hr]

theorem execPlateCommandEnd_working (hp : s.plate h.toNat = some p)
    (hr : p.running.find? (fun r => r.window == w.toNat && r.begun && !r.ended) = some r)
    (he : commandEnded s (readStart p.prog r.record) = false) : execPlateCommandEnd h w s = .next s := by
  simp only [execPlateCommandEnd, hp, hr]
  exact if_pos (.inr (by simp only [he, Bool.false_eq_true, not_false_eq_true]))

/-- The cores of an ended record are freed, and what waits for them is tried again. -/
theorem execPlateCommandEnd_ended (hp : s.plate h.toNat = some p)
    (hr : p.running.find? (fun r => r.window == w.toNat && r.begun && !r.ended) = some r)
    (he : commandEnded s (readStart p.prog r.record) = true)
    (hl : ∀ k ∈ recordCores (readStart p.prog r.record), ∃ l, (s.coreAt k).live = some l ∧ l.plate = h.toNat ∧
      l.start = r.start ∧ l.window = r.window) {u : State}
    (hu : u = resumeGroups (retryHeld (afterCommand h.toNat p r (commandStatus s (readStart p.prog r.record))
      ((recordCores (readStart p.prog r.record)).foldl (fun s k => s.setCore k { s.coreAt k with live := none }) s)))) :
    execPlateCommandEnd h w s = .next (if p.isRan then u else thatchGo (settleStop p.owner u)) := by
  simp only [execPlateCommandEnd, hp, hr]
  subst hu
  refine if_neg (not_or.2 ⟨not_not_intro (List.all_eq_true.2 fun k hk => ?_), not_not_intro he⟩)
  obtain ⟨l, hlive, hplate, hstart, hwindow⟩ := hl k hk
  simp [hlive, hplate, hstart, hwindow]

end Commands

/-! ### Impressions (R297, R601) -/

section Impressions
variable {s : State} {h : BitVec 16} {c : BitVec 9} {i : BitVec 64} {p : Plate} {r : Running}

theorem execImpressionComplete_no_plate (hp : s.plate h.toNat = none) : execImpressionComplete h c i s = .next s := by
  simp only [execImpressionComplete, hp]

theorem execImpressionComplete_running (hp : s.plate h.toNat = some p) (hk : p.kind ≠ 1)
    (hr : ∀ r ∈ p.running, r.impression ≠ i.toNat ∨ r.ended = false) : execImpressionComplete h c i s = .next s := by
  have noneEnded : p.running.find? (fun r => r.impression == i.toNat && r.ended) = none :=
    List.find?_eq_none.2 fun r hmem => by rcases hr r hmem with hr | hr <;> simp [hr]
  simp only [execImpressionComplete, hp, if_neg hk, noneEnded]

/-- A good impression without a schedule or batch queues leaves the plate one impression further and its context perhaps idle. -/
theorem endImpression_good {h : Nat} (hp : s.plate h = some p) (hrun : p.running = [r])
    (hg : r.status = stOk ∨ r.status = stPoison) (hs : p.state = 2) (hq : plateQueues s h = [])
    (ht : s.schedule h r.start = none) (hc : (s.ctx p.owner).state ≠ 2) :
    endImpression h r s = thatchGo (settleIdle p.owner (s.setPlate h (some { p with
      running := [], nextImp := (p.nextImp + 1) % 2 ^ 64 }))) := by
  have owner : ((s.plate h).map Plate.owner).getD 0 = p.owner := by rw [hp]; rfl
  have gone : p.running.filter (· != r) = [] := by rw [hrun]; simp
  have settled : ∀ q : Plate, q.state = 2 → settleStop p.owner (settleRetiring h (stepBoundary h r.impression (r.impression + 1)
      (s.setPlate h (some q)))) = s.setPlate h (some q) := fun q hstate => by
    rw [stepBoundary_of_no_queues (s := s.setPlate h (some q)) hq,
      settleRetiring_unfinished (setPlate_plate_eq _) (.inl (by omega)), settleStop_of_not_stopping (s := s.setPlate h (some q)) hc]
  simp only [endImpression, endThatch_of_no_schedule ht, updPlate_of_plate hp, owner, gone, decide_eq_true hg, Bool.not_true,
    Bool.false_and, Bool.or_false, if_true]
  rw [settled]
  exact hs

theorem execImpressionComplete_ended (hp : s.plate h.toNat = some p) (hk : p.kind ≠ 1) (hrun : p.running = [r])
    (hi : r.impression = i.toNat) (he : r.ended = true) : execImpressionComplete h c i s = .next (endImpression h.toNat r s) := by
  have found : p.running.find? (fun r => r.impression == i.toNat && r.ended) = some r := by
    rw [hrun]
    exact List.find?_cons_of_pos (by simp [hi, he])
  simp only [execImpressionComplete, hp, if_neg hk, found]

end Impressions

section Slots
variable {s : State} {h : BitVec 16} {c : BitVec 9} {i : BitVec 64} {p : Plate} {r : Running}

theorem execImpressionComplete_slot_running (hp : s.plate h.toNat = some p) (hk : p.kind = 1)
    (hr : ∀ r ∈ p.running, r.cell = c.toNat → r.impression = i.toNat → r.ended = false) :
    execImpressionComplete h c i s = .next s := by
  simp only [execImpressionComplete, hp, if_pos hk]
  refine if_pos fun hready => ?_
  simp only [Bool.and_eq_true, List.any_eq_true, List.all_eq_true, List.mem_filter] at hready
  obtain ⟨⟨⟨r, hmem, hcell, himp⟩, hended⟩, -⟩ := hready
  have ended := hended r ⟨hmem, hcell, himp⟩
  rw [hr r hmem (beq_iff_eq.1 hcell) (beq_iff_eq.1 himp)] at ended
  cases ended

/-- The largest of the starts of a slot's windows lies in the past if each of them does. -/
theorem foldl_max_le {α : Type} {f : α → Nat} {n : Nat} {l : List α} (hl : ∀ x ∈ l, f x ≤ n) :
    l.foldl (fun a x => max a (f x)) 0 ≤ n :=
  List.foldlRecOn l _ (motive := (· ≤ n)) (Nat.zero_le n) fun _ ha x hx => Nat.max_le.2 ⟨ha, hl x hx⟩

theorem execImpressionComplete_slot_ended (hp : s.plate h.toNat = some p) (hk : p.kind = 1) (hrun : p.running = [r])
    (hc : r.cell = c.toNat) (hi : r.impression = i.toNat) (he : r.ended = true)
    (hx : ∀ x ∈ p.windows, x.cell = c.toNat → r.slot + x.start % (s.cell c.toNat).slotTicks ≤ s.now) (hslot : r.slot ≤ s.now) :
    execImpressionComplete h c i s = .next (settleRan h.toNat s.epochNow (closeSlot c.toNat i.toNat
      (s.setPlate h.toNat (some { p with running := [] })))) := by
  have last : (p.windows.filter fun w => w.cell == c.toNat).foldl
      (fun (a : Nat) w => max a (w.start % (s.cell c.toNat).slotTicks)) 0 ≤ s.now - r.slot := foldl_max_le fun x hmem => by
    obtain ⟨hmem, hcell⟩ := List.mem_filter.1 hmem
    have := hx x hmem (beq_iff_eq.1 hcell)
    omega
  have came : r.slot + (p.windows.filter fun w => w.cell == c.toNat).foldl
      (fun (a : Nat) w => max a (w.start % (s.cell c.toNat).slotTicks)) 0 ≤ s.now := by omega
  simp only [execImpressionComplete, hp, if_pos hk, hrun, updPlate_of_plate hp]
  simp [hc, hi, he, came]

end Slots

section Clearings
variable {s : State} {kind : BitVec 2} {index : BitVec 11} {c : Clearing}

theorem execPartitionClearDone_unlisted
    (hc : s.plates.clearing.find? (fun c => c.kind == kind.toNat && c.index == index.toNat) = none) :
    execPartitionClearDone kind index s = .next s := by
  simp only [execPartitionClearDone, hc]

theorem execPartitionClearDone_working
    (hc : s.plates.clearing.find? (fun c => c.kind == kind.toNat && c.index == index.toNat) = some c) (hk : c.kind = 1)
    (hl : (s.coreAt c.index).live.isSome = true) : execPartitionClearDone kind index s = .next s := by
  simp only [execPartitionClearDone, hc, if_pos (And.intro hk hl)]

theorem execPartitionClearDone_free
    (hc : s.plates.clearing.find? (fun c => c.kind == kind.toNat && c.index == index.toNat) = some c)
    (hf : c.kind ≠ 1 ∨ (s.coreAt c.index).live = none) : execPartitionClearDone kind index s = .next (finishClearing c s) := by
  have free : ¬ (c.kind = 1 ∧ (s.coreAt c.index).live.isSome = true) := fun hw =>
    hf.elim (· hw.1) fun hl => by rw [hl] at hw; exact absurd hw.2 Bool.false_ne_true
  simp only [execPartitionClearDone, hc, if_neg free]

end Clearings

/-- Settles O21: each row is one of the laws above, at the state of the window, record, impression or clearing that it names. -/
theorem windowsAndImpressions : Obligations.WindowsAndImpressions := by
  refine ⟨fun s h w => ⟨fun hp => ⟨execWindowStart_no_plate hp, execWindowEnd_no_plate hp, execPlateCommandEnd_no_plate hp,
      fun c i => execImpressionComplete_no_plate hp⟩,
    fun p hp => ⟨execWindowStart_no_window hp,
      fun x rest hx => ⟨execWindowStart_not_due hp hx, fun hstart hgrid hseen hk u hu => ?due⟩,
      fun x hx => ⟨execWindowEnd_on_time hp hx, fun r => execWindowEnd_late hp hx⟩,
      execPlateCommandEnd_no_record hp,
      fun r hr => ⟨execPlateCommandEnd_working hp hr, fun he hl u hu => execPlateCommandEnd_ended hp hr he hl hu⟩,
      fun hk c i => ⟨execImpressionComplete_running hp hk, fun r hrun hi he hg hs hq ht hc => ?complete⟩,
      fun hk c i => ⟨execImpressionComplete_slot_running hp hk, fun r => execImpressionComplete_slot_ended hp hk⟩⟩⟩,
    fun s kind index => ⟨execPartitionClearDone_unlisted, fun c hc => ⟨execPartitionClearDone_working hc,
      execPartitionClearDone_free hc⟩⟩⟩
  case due =>
    subst hu
    have due : ¬ (s.now < x.start ∨ (s.now - x.start) % gridPeriod x.grid ≠ 0 ∨ Tab.get 0 p.seen w.toNat = s.now + 1) := by
      omega
    rw [exec_windowStart, execWindowStart_due hp hx due hk]
    refine ⟨fun he => congrArg Host.Outcome.next (startComputeWindow_early he), fun he hs hh hn ht hc hr hctx => ?_⟩
    have window : x.window = w.toNat := by
      have hmem : x ∈ p.windows.filter (·.window == w.toNat) := hx ▸ List.mem_cons_self ..
      exact beq_iff_eq.1 (List.mem_filter.1 hmem).2
    rw [startComputeWindow_runs (s := s.setPlate h.toNat _) he hs hh hn ht hc fun r hmem =>
        Running.waits_eq_false (hr r hmem) hctx, runOccurrence_of_running (setPlate_plate_eq _), ← window]
    · rfl
    · exact hs
  case complete =>
    rw [exec_impressionComplete, execImpressionComplete_ended hp hk hrun hi he, endImpression_good hp hrun hg hs hq ht hc]

end Sys2Proof.Machine
end

section
/-!
Settles the statement of the tensor arithmetic chapter about the rows of the tensor and signal engines: TENSOR_COMMAND, the nine
signal engine operations, BXOP and ENGINE_COMMAND_RETIRE (R71, R72, R81, R108, R141, R142, R149, R151, R450).
-/
namespace Sys2Proof.Machine
open Sys2Proof

/-! ### The opcode byte of a command block -/

theorem bitsAt_opcode (v : Nat) : bitsAt v 0 8 = v % 256 := rfl

theorem readSe_op (b : BitVec 512) : (readSe b).op = b.toNat % 256 :=
  Nat.mod_mod_of_dvd b.toNat (show 2 ^ 8 ∣ 2 ^ 32 by decide)

/-! ### The command that an engine executes next (R104, R450, R457) -/

section Queues
variable {s : State} {k : Nat} {e q : EngCmd} {l rest : List EngCmd}

theorem nextCmd_cons_waiting (hq : q.done = false) : nextCmd (q :: rest) = some q :=
  List.find?_cons_of_pos (by rw [hq]; rfl)

theorem not_done_of_nextCmd (hn : nextCmd l = some e) : (!e.done) = true :=
  List.find?_some (p := fun c : EngCmd => !c.done) hn

/-- The next command stands at the first place of its queue that has not executed. -/
theorem findIdx?_of_nextCmd (hn : nextCmd l = some e) : l.findIdx? (fun c => !c.done) = some (l.findIdx fun c => !c.done) :=
  List.findIdx?_eq_some_of_exists ⟨e, List.mem_of_find?_eq_some hn, not_done_of_nextCmd hn⟩

theorem cmdRuns_iff : cmdRuns s k e = true ↔ engineRuns s k = true ∨ (e.underWay = true ∧ e.pmark = false) := by
  simp only [cmdRuns, Bool.or_eq_true, Bool.and_eq_true, Bool.not_eq_true']

/-- Ending an SE command marks the next one of the queue and changes nothing else. -/
theorem endSe_of_nextCmd {st : Nat} {bexps : List (Nat × Int × Nat)} (hn : nextCmd (s.coreAt k).se = some e) :
    endSe k st bexps s = s.setCore k { s.coreAt k with
      se := (s.coreAt k).se.modify ((s.coreAt k).se.findIdx fun c => !c.done) fun c =>
        { c with done := true, status := st, bexps := bexps } } := by
  simp only [endSe, findIdx?_of_nextCmd hn]

end Queues

/-! ### The rows of the signal engine (R141, R142) -/

section SignalRows
variable {s : State} {core : BitVec 9} {op : Nat} {unknown : Bool} {f : Nat → EngCmd → SeCmd → State → State} {e : EngCmd}

theorem seCommand_idle (hn : nextCmd (s.coreAt core.toNat).se = none) : seCommand core op unknown f s = .next s := by
  simp only [seCommand, hn]

theorem seCommand_stopped (hn : nextCmd (s.coreAt core.toNat).se = some e) (hr : cmdRuns s core.toNat e = false) :
    seCommand core op unknown f s = .next s := by
  simp only [seCommand, hn]
  exact if_pos (by simp [hr])

/-- An opcode that Table 5.3 does not list ends in the row that takes such commands. -/
theorem seCommand_unlisted (hn : nextCmd (s.coreAt core.toNat).se = some e) (hr : cmdRuns s core.toNat e = true)
    (hl : seOps.contains (readSe e.block).op = false) :
    seCommand core op true f s = .next (endSe core.toNat stBadOpcode [] s) := by
  simp only [seCommand, hn]
  rw [if_neg (not_not_intro hr), if_pos ⟨trivial, by rw [hl]; exact Bool.false_ne_true⟩]

/-- A command of a listed opcode belongs to the row of that opcode alone, which refuses it or executes it. -/
theorem seCommand_listed (hn : nextCmd (s.coreAt core.toNat).se = some e) (hr : cmdRuns s core.toNat e = true)
    (hl : seOps.contains (readSe e.block).op = true) : seCommand core op unknown f s =
      if (readSe e.block).op ≠ op then .next s
      else if ¬ (readSe e.block).ok then .next (endSe core.toNat stBadParam [] s)
      else .next (f core.toNat e (readSe e.block) s) := by
  simp only [seCommand, hn]
  rw [if_neg (not_not_intro hr), if_neg fun h => h.2 hl]

theorem seCommand_other (hn : nextCmd (s.coreAt core.toNat).se = some e) (hr : cmdRuns s core.toNat e = true)
    (hop : (readSe e.block).op ≠ op) (hl : seOps.contains (readSe e.block).op = true) :
    seCommand core op unknown f s = .next s := by
  rw [seCommand_listed hn hr hl, if_pos hop]

theorem seCommand_refused (hn : nextCmd (s.coreAt core.toNat).se = some e) (hr : cmdRuns s core.toNat e = true)
    (hop : (readSe e.block).op = op) (hl : seOps.contains op = true) (hok : (readSe e.block).ok = false) :
    seCommand core op unknown f s = .next (endSe core.toNat stBadParam [] s) := by
  rw [seCommand_listed hn hr (hop ▸ hl), if_neg (not_not_intro hop), if_pos (by simp [hok])]

theorem seCommand_runs (hn : nextCmd (s.coreAt core.toNat).se = some e) (hr : cmdRuns s core.toNat e = true)
    (hop : (readSe e.block).op = op) (hl : seOps.contains op = true) (hok : (readSe e.block).ok = true) :
    seCommand core op unknown f s = .next (f core.toNat e (readSe e.block) s) := by
  rw [seCommand_listed hn hr (hop ▸ hl), if_neg (not_not_intro hop), if_neg (not_not_intro hok)]

/-- The nine operations that share `runSe`, by opcode (Table 5.3). -/
def seRows (core : BitVec 9) : List (Nat × Instr) :=
  [(0x40, .seCmul core), (0x41, .seCadd core), (0x42, .seCmac core), (0x43, .sePower core), (0x44, .seRad2 core),
    (0x45, .seRad4 core), (0x46, .seMmsew core), (0x47, .seDemap core), (0x48, .seScan core)]

/-- Each of the nine rows is `seCommand` at its own, listed, opcode; CMUL's also takes the unlisted ones. -/
theorem exec_of_mem_seRows {i : Instr} (hi : (op, i) ∈ seRows core) :
    seOps.contains op = true ∧ exec i s = seCommand core op (op == 0x40) runSe s := by
  simp only [seRows, List.mem_cons, List.not_mem_nil, or_false, Prod.mk.injEq] at hi
  rcases hi with ⟨rfl, rfl⟩ | ⟨rfl, rfl⟩ | ⟨rfl, rfl⟩ | ⟨rfl, rfl⟩ | ⟨rfl, rfl⟩ | ⟨rfl, rfl⟩ | ⟨rfl, rfl⟩ | ⟨rfl, rfl⟩ | ⟨rfl, rfl⟩ <;>
    exact ⟨rfl, rfl⟩

theorem exec_seRow_runs {i : Instr} (hi : (op, i) ∈ seRows core) (hn : nextCmd (s.coreAt core.toNat).se = some e)
    (hr : cmdRuns s core.toNat e = true) (hok : (readSe e.block).ok = true) (hop : (readSe e.block).op = op) :
    exec i s = .next (runSe core.toNat e (readSe e.block) s) := by
  obtain ⟨listed, row⟩ := exec_of_mem_seRows (s := s) hi
  rw [row, seCommand_runs hn hr hop listed hok]

end SignalRows

/-! ### BXOP (R149, R151) -/

section Bxop
variable {s : State} {core : BitVec 9} {e q : EngCmd} {rest : List EngCmd}

theorem bxopSub_of_nextCmd (hn : nextCmd (s.coreAt core.toNat).se = some e) (hop : (readSe e.block).op = 0x4F) :
    bxopSub s core = some (bitsAt (readSe e.block).param 0 2) := by
  simp only [bxopSub, hn, if_pos hop]

theorem seAlone_cons (hs : (s.coreAt core.toNat).se = q :: rest) : seAlone s core = !q.done := by
  rw [seAlone, hs]
  rfl

theorem execSeBxopSet_waits (ha : seAlone s core = false) : execSeBxopSet core s = .next s :=
  if_pos (.inr (by simp [ha]))

theorem execSeBxopSet_of_sub_one (hb : bxopSub s core = some 1) : execSeBxopSet core s = .next s :=
  if_pos (.inl hb)

theorem execSeBxopWriteOut_waits (ha : seAlone s core = false) : execSeBxopWriteOut core s = .next s :=
  if_pos (.inr (by simp [ha]))

theorem execSeBxopWriteOut_of_sub_ne_one (hb : bxopSub s core ≠ some 1) : execSeBxopWriteOut core s = .next s :=
  if_pos (.inl hb)

/-- BXOP with SUB 0 sets its exponent register to VALUE, with no headroom measured. -/
theorem execSeBxopSet_sets (hn : nextCmd (s.coreAt core.toNat).se = some e) (hr : cmdRuns s core.toNat e = true)
    (hop : (readSe e.block).op = 0x4F) (hok : (readSe e.block).ok = true) (ha : seAlone s core = true)
    (hb : bxopSub s core ≠ some 1) :
    execSeBxopSet core s = .next (endSe core.toNat stOk [] (s.setCore core.toNat { s.coreAt core.toNat with
      bexp := Tab.set Bexp.reset (s.coreAt core.toNat).bexp (readSe e.block).bexp
        { exp := BitVec.ofNat 16 (bitsAt (readSe e.block).param 16 16), headroom := 0x3F } })) :=
  (if_neg (not_or.2 ⟨hb, not_not_intro ha⟩)).trans (seCommand_runs hn hr hop rfl hok)

/-- BXOP with SUB 1 writes its exponent register's word at stream Z's base in the scratchpad. -/
theorem execSeBxopWriteOut_writes (hn : nextCmd (s.coreAt core.toNat).se = some e) (hr : cmdRuns s core.toNat e = true)
    (hop : (readSe e.block).op = 0x4F) (hok : (readSe e.block).ok = true) (ha : seAlone s core = true)
    (hb : bxopSub s core = some 1) :
    execSeBxopWriteOut core s = .next (endSe core.toNat stOk []
      (memWrite (scratchBase core.toNat + 16 * ((readSe e.block).stream 2).base)
        (leBytes 4 (Tab.get Bexp.reset (s.coreAt core.toNat).bexp (readSe e.block).bexp).word) s)) :=
  (if_neg (not_or.2 ⟨not_not_intro hb, not_not_intro ha⟩)).trans (seCommand_runs hn hr hop rfl hok)

end Bxop

/-! ### The tensor command (R71, R72, R81) -/

section Tensor
variable {s : State} {core : BitVec 9} {engine : BitVec 1} {q : EngCmd}

theorem execTensorCommand_idle (hn : nextCmd ((s.coreAt core.toNat).engine engine.toNat) = none) :
    execTensorCommand core engine s = .next s := by
  simp only [execTensorCommand, hn]

theorem execTensorCommand_stopped (hn : nextCmd ((s.coreAt core.toNat).engine engine.toNat) = some q)
    (hr : cmdRuns s core.toNat q = false) : execTensorCommand core engine s = .next s := by
  simp only [execTensorCommand, hn]
  exact if_pos (by simp [hr])

theorem execTensorCommand_badOpcode (hn : nextCmd ((s.coreAt core.toNat).engine engine.toNat) = some q)
    (hr : cmdRuns s core.toNat q = true) (hop : q.block.toNat % 256 ≠ 0x10) :
    execTensorCommand core engine s = .next (endCmd core.toNat engine.toNat stBadOpcode false false s) := by
  simp only [execTensorCommand, hn]
  rw [if_neg (not_not_intro hr), bitsAt_opcode, if_pos hop]

theorem execTensorCommand_badParam (hn : nextCmd ((s.coreAt core.toNat).engine engine.toNat) = some q)
    (hr : cmdRuns s core.toNat q = true) (hop : q.block.toNat % 256 = 0x10)
    (hbad : (readTe q.block).fieldsOk = false ∨ (readTe q.block).placesOk s core.toNat = false) :
    execTensorCommand core engine s = .next (endCmd core.toNat engine.toNat stBadParam false false s) := by
  simp only [execTensorCommand, hn]
  rw [if_neg (not_not_intro hr), bitsAt_opcode, if_neg (not_not_intro hop), if_pos (by simpa using hbad)]

/-- A valid command runs from the tile it had reached to its last one. -/
theorem execTensorCommand_runs (hn : nextCmd ((s.coreAt core.toNat).engine engine.toNat) = some q)
    (hr : cmdRuns s core.toNat q = true) (hop : q.block.toNat % 256 = 0x10) (hf : (readTe q.block).fieldsOk = true)
    (hp : (readTe q.block).placesOk s core.toNat = true) {r : Nat × Bool × Bool × State}
    (h : r = teRun core.toNat engine.toNat (readTe q.block) (q.pos / (readTe q.block).chunkCount)
      (teTiles (readTe q.block)).length (q.status, q.nan, q.ovf, s)) :
    execTensorCommand core engine s = .next (endCmd core.toNat engine.toNat r.1 r.2.1 r.2.2.1 r.2.2.2) := by
  subst h
  simp only [execTensorCommand, hn]
  rw [if_neg (not_not_intro hr), bitsAt_opcode, if_neg (not_not_intro hop),
    if_neg (not_or.2 ⟨not_not_intro hf, not_not_intro hp⟩)]

/-- The elements from i to n are those from i to j and then those from j to n. -/
theorem take_drop_split {α : Type} (l : List α) {i j n : Nat} (hij : i ≤ j) (hjn : j ≤ n) :
    (l.drop i).take (n - i) = (l.drop i).take (j - i) ++ (l.drop j).take (n - j) := by
  rw [show n - i = (j - i) + (n - j) by omega, List.take_add, List.drop_drop, Nat.add_sub_of_le hij]

/-- A run that stops at tile j and goes on from there is the run whole, where what the other commands in flight write is the
same at both starts. -/
theorem teRun_teRun {k e i j n : Nat} {c : TeCmd} {p : Nat × Bool × Bool × State} (hij : i ≤ j) (hjn : j ≤ n)
    (ho : otherWrites (teRun k e c i j p).2.2.2 k e = otherWrites p.2.2.2 k e) :
    teRun k e c j n (teRun k e c i j p) = teRun k e c i n p := by
  rw [teRun, ho]
  simp only [teRun]
  rw [take_drop_split (teTiles c) hij hjn, List.foldl_append]

end Tensor

/-! ### Retirement (R108) -/

theorem execEngineCommandRetire_waits {s : State} {core : BitVec 9} {engine : BitVec 2}
    (hq : (s.coreAt core.toNat).engine engine.toNat = [] ∨
      ∃ e rest, (s.coreAt core.toNat).engine engine.toNat = e :: rest ∧ e.done = false) :
    execEngineCommandRetire core engine s = .next s := by
  rcases hq with hq | ⟨e, rest, hq, hd⟩
  · simp only [execEngineCommandRetire, hq]
  · simp only [execEngineCommandRetire, hq]
    exact if_pos (.inl (by simp [hd]))

/-- Settles O30: each row is one of the laws above, at the next command of its engine. -/
theorem tensorAndSignalCommandsExecute : Obligations.TensorAndSignalCommandsExecute := by
  refine ⟨?runs, fun s core op i hi => ?rows, ?bxop,
    fun s core engine => ⟨execTensorCommand_idle, fun q hn => ⟨execTensorCommand_stopped hn, execTensorCommand_badOpcode hn,
      execTensorCommand_badParam hn⟩⟩,
    fun s core engine q c r hn hr hop hc hf hp h => ?tensor,
    fun k e c i j n p q hij hjn hq ho => ?goesOn,
    fun s k e => cmdRuns_iff,
    fun s core engine => execEngineCommandRetire_waits⟩
  case runs =>
    rintro s core e c hn hr rfl hok
    have row : ∀ op i, (op, i) ∈ seRows core → (readSe e.block).op = op →
        exec i s = .next (runSe core.toNat e (readSe e.block) s) := fun op i hi => exec_seRow_runs hi hn hr hok
    refine ⟨row _ _ ?_, row _ _ ?_, row _ _ ?_, row _ _ ?_, row _ _ ?_, row _ _ ?_, row _ _ ?_, row _ _ ?_, row _ _ ?_⟩ <;>
      simp [seRows]
  case rows =>
    obtain ⟨listed, row⟩ := exec_of_mem_seRows (s := s) hi
    rw [row]
    refine ⟨seCommand_idle, fun e hn => ⟨seCommand_stopped hn, fun hr hop hok => ?_, fun hr hop hl => ?_, fun hr hl => ?_⟩⟩
    · rw [seCommand_refused hn hr ((readSe_op _).trans hop) listed hok, endSe_of_nextCmd hn]
    · exact seCommand_other hn hr (by rwa [readSe_op]) (by rwa [readSe_op])
    · exact seCommand_unlisted hn hr (by rwa [readSe_op])
  case bxop =>
    rintro s core e c rfl hn hr hop hok
    have op : (readSe e.block).op = 0x4F := (readSe_op _).trans hop
    have sub := bxopSub_of_nextCmd hn op
    refine ⟨?_, ?_⟩
    · rintro ⟨q, rest, hs, hd⟩
      have wait : seAlone s core = false := by rw [seAlone_cons hs, hd]; rfl
      exact ⟨execSeBxopSet_waits wait, execSeBxopWriteOut_waits wait⟩
    · rintro ⟨q, rest, hs, hd⟩
      have alone : seAlone s core = true := by rw [seAlone_cons hs, hd]; rfl
      refine ⟨fun hsub => ?_, fun hsub => ?_⟩
      · have other : bxopSub s core ≠ some 1 := by rw [sub]; exact fun h => hsub (Option.some.inj h)
        exact ⟨execSeBxopSet_sets hn hr op hok alone other, execSeBxopWriteOut_of_sub_ne_one other⟩
      · have one : bxopSub s core = some 1 := by rw [sub, hsub]
        exact ⟨execSeBxopWriteOut_writes hn hr op hok alone one, execSeBxopSet_of_sub_one one⟩
  case tensor =>
    subst hc
    exact execTensorCommand_runs hn hr hop hf hp h
  case goesOn =>
    subst hq
    exact teRun_teRun hij hjn ho

end Sys2Proof.Machine
end

section
/-!
Settles the statement of the signal engine chapter about one narrowing (R138): what rounding half up answers, and how saturation
brings that into the range of the output format.
-/
namespace Sys2Proof.Machine

/-! ### Rounding half up -/

@[simp] theorem roundHalfUp_zero (v : Int) : roundHalfUp v 0 = v := if_pos rfl

theorem roundHalfUp_succ (v : Int) (k : Nat) : roundHalfUp v (k + 1) = (v + 2 ^ k) / 2 ^ (k + 1) := by
  rw [roundHalfUp, if_neg (Nat.succ_ne_zero k), Nat.add_sub_cancel, Int.shiftRight_eq_div_pow, Int.natCast_pow]
  rfl

theorem two_pow_int_pos (n : Nat) : (0 : Int) < 2 ^ n := Int.pow_pos (by decide)

/-- The rounded value, scaled back, is at most half a step above the exact one; a tie goes this way. -/
theorem roundHalfUp_above (v : Int) (n : Nat) : 2 * (2 ^ n * roundHalfUp v n - v) ≤ 2 ^ n := by
  cases n with
  | zero => rw [roundHalfUp_zero, Int.pow_zero]; omega
  | succ k =>
    have floor : (2 : Int) ^ (k + 1) * ((v + 2 ^ k) / 2 ^ (k + 1)) ≤ v + 2 ^ k :=
      Int.mul_ediv_self_le (Int.ne_of_gt (two_pow_int_pos (k + 1)))
    have step : (2 : Int) ^ (k + 1) = 2 ^ k * 2 := Int.pow_succ 2 k
    rw [roundHalfUp_succ]
    omega

/-- The rounded value, scaled back, is less than half a step below the exact one. -/
theorem roundHalfUp_below (v : Int) (n : Nat) : -(2 ^ n : Int) < 2 * (2 ^ n * roundHalfUp v n - v) := by
  cases n with
  | zero => rw [roundHalfUp_zero, Int.pow_zero]; omega
  | succ k =>
    have floor : v + 2 ^ k < (2 : Int) ^ (k + 1) * ((v + 2 ^ k) / 2 ^ (k + 1)) + 2 ^ (k + 1) :=
      Int.lt_mul_ediv_self_add (two_pow_int_pos (k + 1))
    have step : (2 : Int) ^ (k + 1) = 2 ^ k * 2 := Int.pow_succ 2 k
    rw [roundHalfUp_succ]
    omega

/-! ### Saturation -/

theorem saturate_low {lo hi v : Int} (h : v < lo) : saturate lo hi v = (lo, true) := if_pos h

theorem saturate_high {lo hi v : Int} (hlo : lo ≤ v) (h : hi < v) : saturate lo hi v = (hi, true) := by
  rw [saturate, if_neg (Int.not_lt.mpr hlo), if_pos h]

theorem saturate_inside {lo hi v : Int} (hlo : lo ≤ v) (hhi : v ≤ hi) : saturate lo hi v = (v, false) := by
  rw [saturate, if_neg (Int.not_lt.mpr hlo), if_neg (Int.not_lt.mpr hhi)]

theorem saturate_value {lo hi : Int} (hr : lo ≤ hi) (v : Int) : (saturate lo hi v).1 = max lo (min hi v) := by
  rcases Int.lt_or_le v lo with low | hlo
  · rw [saturate_low low]
    omega
  · rcases Int.lt_or_le hi v with high | hhi
    · rw [saturate_high hlo high]
      omega
    · rw [saturate_inside hlo hhi]
      omega

theorem saturate_reports_iff (lo hi v : Int) : (saturate lo hi v).2 = true ↔ v < lo ∨ hi < v := by
  rcases Int.lt_or_le v lo with low | hlo
  · rw [saturate_low low]
    exact iff_of_true rfl (.inl low)
  · rcases Int.lt_or_le hi v with high | hhi
    · rw [saturate_high hlo high]
      exact iff_of_true rfl (.inr high)
    · rw [saturate_inside hlo hhi]
      exact iff_of_false Bool.false_ne_true (not_or.mpr ⟨Int.not_lt.mpr hlo, Int.not_lt.mpr hhi⟩)

/-- Settles O31: the rounded value is `roundHalfUp v n`, and `narrowTo` saturates it. -/
theorem narrowingRoundsAndSaturates : Obligations.NarrowingRoundsAndSaturates := by
  intro n lo hi v hr
  have value : (narrowTo n lo hi v).1 = max lo (min hi (roundHalfUp v n)) := saturate_value hr _
  refine ⟨roundHalfUp v n, ?unshifted, ?shifted, roundHalfUp_above v n, roundHalfUp_below v n, value,
    saturate_reports_iff lo hi _, ?notBelow, ?notAbove⟩
  case unshifted =>
    rintro rfl
    exact roundHalfUp_zero v
  case shifted =>
    intro hn
    obtain ⟨k, rfl⟩ := Nat.exists_eq_succ_of_ne_zero hn
    exact roundHalfUp_succ v k
  case notBelow =>
    rw [value]
    omega
  case notAbove =>
    rw [value]
    omega

end Sys2Proof.Machine
end

section
/-!
Settles the statement of the baseband chapter about the cell commands and the change of a cell's state (R166 to R169, R193, R194).
-/
namespace Sys2Proof.Machine
open Sys2Proof

/-! ### When a cell slot takes a record (R166) -/

/-- A cell slot's record is closed to its commands while the cell processes slots or is about to change (R202). -/
theorem Cell.engaged_iff {c : Cell} : c.engaged = true ↔ c.state = 2 ∨ c.state = 3 ∨ c.change.isSome = true := by
  simp only [Cell.engaged, Cell.changing, Bool.or_eq_true, beq_iff_eq, or_assoc]

/-! ### What scheduling a change answers (R167, R168) -/

section Scheduling
variable {m : Mbx} {s : State} {from_ : List Nat} {to_ wrong : Nat} {windows : Bool} {also : Cell → Cell}

theorem scheduleChange_noSlot (hn : 384 ≤ mfld m 16 2) :
    scheduleChange m from_ to_ wrong windows also s = refuse stBadParam s := if_pos hn

theorem scheduleChange_pending (hn : mfld m 16 2 < 384) (hc : (s.cell (mfld m 16 2)).change.isSome = true) :
    scheduleChange m from_ to_ wrong windows also s = refuse stBusy s :=
  (if_neg (Nat.not_le.2 hn)).trans (if_pos hc)

/-- With no change pending, the cell's state and then the loan windows decide. -/
theorem scheduleChange_settled (hn : mfld m 16 2 < 384) (hc : (s.cell (mfld m 16 2)).change = none) :
    scheduleChange m from_ to_ wrong windows also s =
      let e := effectAt (s.cell (mfld m 16 2)) (mfld m 24 8) s.now
      if ¬ from_.contains (s.cell (mfld m 16 2)).state then refuse wrong s
      else if windows ∧ ¬ hasWindows s (mfld m 16 2) then refuse stNotReady s
      else (stOk, effectResult e, updCell (mfld m 16 2) (fun c => { also c with change := some (to_, e) }) s) :=
  (if_neg (Nat.not_le.2 hn)).trans (if_neg (by rw [Cell.changing, hc]; exact Bool.false_ne_true))

theorem scheduleChange_schedules (hn : mfld m 16 2 < 384) (hc : (s.cell (mfld m 16 2)).change = none)
    (hs : (s.cell (mfld m 16 2)).state ∈ from_) (hw : windows = true → hasWindows s (mfld m 16 2) = true) :
    scheduleChange m from_ to_ wrong windows also s =
      let e := effectAt (s.cell (mfld m 16 2)) (mfld m 24 8) s.now
      (stOk, effectResult e, updCell (mfld m 16 2) (fun c => { also c with change := some (to_, e) }) s) :=
  (scheduleChange_settled hn hc).trans
    ((if_neg (not_not_intro (List.contains_iff_mem.2 hs))).trans (if_neg fun h => h.2 (hw h.1)))

end Scheduling

/-! ### CELL_START, CELL_SHADOW and CELL_TAKEOVER: the changes that need a loan window of the cell (R168, R193, R194) -/

/-- What the three commands do to reach state `to_` from `from_`: a shadow (state 3) names its primary first. -/
def windowedChange (from_ to_ : Nat) (m : Mbx) (s : State) : Nat × Result × State :=
  if to_ = 3 ∧ 16384 ≤ mfld m 18 2 then refuse stBadParam s
  else scheduleChange m [from_] to_ stNotReady true
    (fun c => { c with primary := if to_ = 3 then mfld m 18 2 else c.primary }) s

theorem exec_cellStart_windowed (m : Mbx) (s : State) :
    exec (.cellStart m) s = runCmd m .pf [(16, 2), (24, 8)] (windowedChange 1 2 m) s := rfl

theorem exec_cellShadow_windowed (m : Mbx) (s : State) :
    exec (.cellShadow m) s = runCmd m .pf [(16, 4), (24, 8)] (windowedChange 1 3 m) s := by
  have shadow : windowedChange 1 3 m = fun s => if 16384 ≤ mfld m 18 2 then refuse stBadParam s
      else scheduleChange m [1] 3 stNotReady true (fun c => { c with primary := mfld m 18 2 }) s :=
    funext fun s => by simp only [windowedChange, true_and, if_true]
  rw [exec_cellShadow, execCellShadow, shadow]

theorem exec_cellTakeover_windowed (m : Mbx) (s : State) :
    exec (.cellTakeover m) s = runCmd m .pf [(16, 2), (24, 8)] (windowedChange 3 2 m) s := rfl

section Windowed
variable {m : Mbx} {s : State} {from_ to_ : Nat}

theorem windowedChange_named (hp : to_ = 3 → mfld m 18 2 < 16384) :
    windowedChange from_ to_ m s = scheduleChange m [from_] to_ stNotReady true
      (fun c => { c with primary := if to_ = 3 then mfld m 18 2 else c.primary }) s :=
  if_neg fun h => Nat.not_le.2 (hp h.1) h.2

theorem windowedChange_noSlot (hn : 384 ≤ mfld m 16 2) : windowedChange from_ to_ m s = refuse stBadParam s := by
  by_cases hp : to_ = 3 ∧ 16384 ≤ mfld m 18 2
  · exact if_pos hp
  · exact (if_neg hp).trans (scheduleChange_noSlot hn)

theorem windowedChange_notReady (hp : to_ = 3 → mfld m 18 2 < 16384) (hn : mfld m 16 2 < 384)
    (hc : (s.cell (mfld m 16 2)).change = none)
    (hr : (s.cell (mfld m 16 2)).state ≠ from_ ∨ hasWindows s (mfld m 16 2) = false) :
    windowedChange from_ to_ m s = refuse stNotReady s := by
  rw [windowedChange_named hp, scheduleChange_settled hn hc]
  by_cases hs : (s.cell (mfld m 16 2)).state = from_
  · have noWindow : ¬ hasWindows s (mfld m 16 2) = true := ne_true_of_eq_false (hr.resolve_left (not_not_intro hs))
    exact (if_neg (not_not_intro (List.contains_iff_mem.2 (List.mem_singleton.2 hs)))).trans (if_pos ⟨rfl, noWindow⟩)
  · exact if_pos fun h => hs (List.mem_singleton.1 (List.contains_iff_mem.1 h))

/-- The change is noted for the slot boundary that the command answers; the rest of the radio part and of the state stays. -/
theorem windowedChange_schedules (hp : to_ = 3 → mfld m 18 2 < 16384) (hn : mfld m 16 2 < 384)
    (hc : (s.cell (mfld m 16 2)).change = none) (hs : (s.cell (mfld m 16 2)).state = from_)
    (hw : hasWindows s (mfld m 16 2) = true) {e : Nat} (he : e = effectAt (s.cell (mfld m 16 2)) (mfld m 24 8) s.now) :
    ∃ x t, windowedChange from_ to_ m s = (stOk, x, t) ∧ x = effectResult e ∧
      t.cell (mfld m 16 2) = { s.cell (mfld m 16 2) with
        change := some (to_, e), primary := if to_ = 3 then mfld m 18 2 else (s.cell (mfld m 16 2)).primary } ∧
      (∀ k, k ≠ mfld m 16 2 → t.cell k = s.cell k) ∧ t = { s with rad := { s.rad with cells := t.rad.cells } } := by
  subst he
  rw [windowedChange_named hp, scheduleChange_schedules hn hc (List.mem_singleton.2 hs) fun _ => hw]
  exact ⟨_, _, rfl, rfl, updCell_cell_eq _, fun k hk => updCell_cell_ne _ hk, rfl⟩

/-- What the three commands decline, said once for their common meaning. -/
theorem windowedChange_declines {c : Mbx → Instr} {f : List (Nat × Nat)}
    (hc : ∀ m s, exec (c m) s = runCmd m .pf f (windowedChange from_ to_ m) s) :
    Declines c .pf f (fun m a => mfld m 16 2 < 384 ∧ (to_ = 3 → mfld m 18 2 < 16384) ∧
      (a.cell (mfld m 16 2)).change.isSome = true) stBusy ∧
    Declines c .pf f (fun m a => mfld m 16 2 < 384 ∧ (to_ = 3 → mfld m 18 2 < 16384) ∧ (a.cell (mfld m 16 2)).change = none ∧
      ((a.cell (mfld m 16 2)).state ≠ from_ ∨ hasWindows a (mfld m 16 2) = false)) stNotReady ∧
    Declines c .pf f (fun m _ => 384 ≤ mfld m 16 2) stBadParam := by
  refine ⟨declines_of hc fun m a hw => ?pending, declines_of hc fun m a hw => ?notReady,
    declines_of hc fun m a hw => windowedChange_noSlot hw⟩
  case pending =>
    obtain ⟨hn, hp, hpending⟩ := hw
    exact (windowedChange_named hp).trans (scheduleChange_pending hn hpending)
  case notReady =>
    obtain ⟨hn, hp, hnone, hr⟩ := hw
    exact windowedChange_notReady hp hn hnone hr

end Windowed

/-! ### CELL_STATE_CHANGE (R167) -/

section StateChange
variable {s : State} {n : BitVec 9} {st t : Nat}

theorem execCellStateChange_not_due
    (h : (s.cell n.toNat).change = none ∨ ∃ st t, (s.cell n.toNat).change = some (st, t) ∧ s.now < t) :
    execCellStateChange n s = .next s := by
  rcases h with hc | ⟨st, t, hc, ht⟩
  · simp only [execCellStateChange, hc]
  · simp only [execCellStateChange, hc, if_neg (Nat.not_le.2 ht)]

theorem execCellStateChange_due (hc : (s.cell n.toNat).change = some (st, t)) (ht : t ≤ s.now) :
    execCellStateChange n s = .next (changeCell n.toNat st t s) := by
  simp only [execCellStateChange, hc, if_pos ht]

end StateChange

/-- Settles O37: each command passes its guards one by one; what is left writes one cell slot. -/
theorem cellCommandsAndStateChanges : Obligations.CellCommandsAndStateChanges := by
  refine ⟨performs_of exec_cellConfig fun m a hv => ?config, declines_of exec_cellConfig fun m a hw => ?configBusy,
    declines_of exec_cellConfig fun m a hw => ?configBad,
    ⟨performs_of exec_cellStart_windowed fun m a hv => ?start, performs_of exec_cellShadow_windowed fun m a hv => ?shadow,
      performs_of exec_cellTakeover_windowed fun m a hv => ?takeover⟩, fun p hp => ?declined,
    performs_of exec_cellStop fun m a hv => ?stop, declines_of exec_cellStop fun m a hw => ?stopBusy,
    performs_of exec_cellQuery fun m a hn => ⟨_, _, if_neg (Nat.not_le.2 hn), rfl, rfl⟩,
    declines_of exec_cellQuery fun m a hn => if_pos hn,
    fun s n => ⟨execCellStateChange_not_due, fun st t hc ht => ⟨_, execCellStateChange_due hc ht, updCell_cell_eq _,
      fun k hk => updCell_cell_ne _ hk, rfl, rfl⟩⟩⟩
  case config =>
    obtain ⟨hn, hfree, hrecord, hran, hharq, hload⟩ := hv
    have accepted : ¬ (¬ cellRecordOk (sliceBytes (mdata m) 0 256) = true ∨ ¬ ranHolds a _ _ = true ∨ harqClash a _ _ = true) :=
      fun hbad => hbad.elim (· hrecord) fun hbad => hbad.elim (· hran) (ne_true_of_eq_false hharq)
    refine ⟨_, _, (if_neg (Nat.not_le.2 hn)).trans ((if_neg (ne_true_of_eq_false hfree)).trans ((if_neg accepted).trans
      (if_neg (Nat.not_lt.2 hload)))), rfl, updCell_cell_eq _, fun k hk => updCell_cell_ne _ hk, rfl⟩
  case configBusy =>
    obtain ⟨hn, hbusy⟩ := hw
    exact (if_neg (Nat.not_le.2 hn)).trans (if_pos (Cell.engaged_iff.2 hbusy))
  case configBad =>
    by_cases hn : 384 ≤ mfld m 16 2
    · exact if_pos hn
    · obtain ⟨hfree, hrecord⟩ := hw.resolve_left hn
      exact (if_neg hn).trans ((if_neg (ne_true_of_eq_false hfree)).trans (if_pos (.inl (ne_true_of_eq_false hrecord))))
  case start | takeover =>
    obtain ⟨hn, hc, hs, hw⟩ := hv
    exact windowedChange_schedules (absurd · (by decide)) hn hc hs hw rfl
  case shadow =>
    obtain ⟨⟨hn, hc, hs, hw⟩, hprimary⟩ := hv
    exact windowedChange_schedules (fun _ => hprimary) hn hc hs hw rfl
  case declined =>
    simp only [List.mem_cons, List.not_mem_nil, or_false] at hp
    obtain rfl | rfl | rfl := hp
    · exact windowedChange_declines exec_cellStart_windowed
    · exact windowedChange_declines exec_cellShadow_windowed
    · exact windowedChange_declines exec_cellTakeover_windowed
  case stop =>
    obtain ⟨hn, hto, hc, hs⟩ := hv
    have started : (a.cell (mfld m 16 2)).state ∈ [2, 3] := by simpa using hs
    refine ⟨_, _, (if_neg (Nat.not_le.2 hto)).trans (scheduleChange_schedules hn hc started nofun), rfl, updCell_cell_eq _,
      fun k hk => updCell_cell_ne _ hk, rfl⟩
  case stopBusy =>
    obtain ⟨hn, hto, hpending⟩ := hw
    exact (if_neg (Nat.not_le.2 hto)).trans (scheduleChange_pending hn hpending)

end Sys2Proof.Machine
end

section
/-!
Settles the statement of the baseband chapter about the fixed-function pools: the job rows, the decoders' and the units' ends, and how
blocks come to units (R174 to R190).
-/
namespace Sys2Proof.Machine
open Sys2Proof

/-! ### The job at a port's head -/

section Ports
variable {s : State} {p : Nat} {j : Job}

@[simp] theorem popJob_jobs (p : Nat) (s : State) :
    Tab.get [] (popJob p s).core.jobs p = (Tab.get [] s.core.jobs p).tail := Tab.get_set_eq

theorem jobs_of_headJob (hj : headJob p s = some j) :
    Tab.get [] s.core.jobs p = j :: Tab.get [] (popJob p s).core.jobs p := by
  obtain ⟨rest, jobs⟩ := List.head?_eq_some_iff.1 hj
  rw [popJob_jobs, jobs, List.tail_cons]

end Ports

/-! ### The decoder pool (R175 to R178, R181) -/

section Decoders
variable {s : State} {j : Job} {p : Pdu} {u : Cut}

theorem execLdpcDecodeJob_empty (hj : headJob 0 s = none) : execLdpcDecodeJob s = .next s := by
  simp only [execLdpcDecodeJob, hj]

theorem execLdpcDecodeJob_noPdu (hj : headJob 0 s = some j)
    (hp : pduOf s (readFxJob j).cell (readFxJob j).imp 2 (readFxJob j).pdu = none) :
    execLdpcDecodeJob s = .next (refuseJob j (readFxJob j) stBadParam (popJob 0 s)) := by
  simp only [execLdpcDecodeJob, hj, hp]

theorem execCodeBlockDecoded_idle {d : BitVec 6} (hd : decoderBlock s d.toNat = none) :
    execCodeBlockDecoded d s = .next s := by
  simp only [execCodeBlockDecoded, hd]

variable (hj : headJob 0 s = some j) (hp : pduOf s (readFxJob j).cell (readFxJob j).imp 2 (readFxJob j).pdu = some p)
include hj hp

theorem execLdpcDecodeJob_noLifting (hu : segment (bitAt (readFxJob j).flags 0) p.tbs = none) :
    execLdpcDecodeJob s = .next (refuseJob j (readFxJob j) stBadParam (popJob 0 s)) := by
  simp only [execLdpcDecodeJob, hj, hp, hu]

variable (hu : segment (bitAt (readFxJob j).flags 0) p.tbs = some u)
include hu

/-- A job whose PDU and cut exist is taken or refused by its other fields alone. -/
theorem execLdpcDecodeJob_cut : execLdpcDecodeJob s = .next (if decodeOk s (readFxJob j) p u
    then takeDecode j (readFxJob j) p u (popJob 0 s) else refuseJob j (readFxJob j) stBadParam (popJob 0 s)) := by
  simp only [execLdpcDecodeJob, hj, hp, hu]

theorem execLdpcDecodeJob_taken (ho : decodeOk s (readFxJob j) p u = true) :
    execLdpcDecodeJob s = .next (takeDecode j (readFxJob j) p u (popJob 0 s)) := by
  rw [execLdpcDecodeJob_cut hj hp hu, if_pos ho]

theorem execLdpcDecodeJob_badFields (ho : decodeOk s (readFxJob j) p u = false) :
    execLdpcDecodeJob s = .next (refuseJob j (readFxJob j) stBadParam (popJob 0 s)) := by
  rw [execLdpcDecodeJob_cut hj hp hu, if_neg (ne_true_of_eq_false ho)]

end Decoders

/-! ### The job rows of the other pools (R174, R183 to R190) -/

section UnitJobs
variable {s : State} {port pool : Nat} {mine : FxJob → Bool} {eff : FxJob → State → Nat × Nat × State} {j : Job}

theorem unitJob_empty (hj : headJob port s = none) : unitJob port pool mine eff s = .next s := by
  simp only [unitJob, hj]

theorem unitJob_other (hj : headJob port s = some j) (hm : mine (readFxJob j) = false) :
    unitJob port pool mine eff s = .next s := by
  simp only [unitJob, hj]
  exact if_pos (ne_true_of_eq_false hm)

/-- A row's own job leaves the port, has its effect and joins the pool with the blocks and the status of that effect. -/
theorem unitJob_mine (hj : headJob port s = some j) (hm : mine (readFxJob j) = true) : unitJob port pool mine eff s =
    let r := eff (readFxJob j) (popJob port s)
    .next (joinPool pool j (readFxJob j) r.1 r.2.1 (settleCell (readFxJob j).cell r.2.2)) := by
  simp only [unitJob, hj]
  exact if_neg (not_not_intro hm)

/-- Every OP but SIDE ends in the encoder's own row, and one that is not ENCODE is refused there. -/
theorem exec_ldpcEncodeJob_unitJob (s : State) : exec .ldpcEncodeJob s =
    unitJob 1 1 (fun f => f.op != 2) (fun f s => if f.op = 1 then encodeEffect f s else (1, stBadParam, s)) s := rfl

theorem exec_sideJob_unitJob (s : State) : exec .sideJob s = unitJob 1 1 (fun f => f.op == 2) sideEffect s := rfl

theorem exec_polarJob_unitJob (s : State) : exec .polarJob s = unitJob 2 2 (fun _ => true) polarEffect s := rfl

theorem exec_prachJob_unitJob (s : State) : exec .prachJob s = unitJob 3 3 (fun _ => true) prachEffect s := rfl

end UnitJobs

/-! ### Blocks and units (R177, R184) -/

section Units
variable {s : State} {pool n d id : Nat} {j : PoolJob}

theorem dispatchUnits_stops (h : nextPoolJob s pool = none ∨ idleUnit s pool = none) : ∀ n, dispatchUnits pool n s = s
  | 0 => rfl
  | n + 1 => by
    unfold dispatchUnits
    split
    next j d hj hd => simp [hj, hd] at h
    next => rfl

/-- A job with a waiting block and an idle unit: the unit takes the block, before the next one is looked for. -/
theorem dispatchUnits_issues (hj : nextPoolJob s pool = some j) (hd : idleUnit s pool = some d) :
    dispatchUnits pool (n + 1) s = dispatchUnits pool n (updRad (fun r => { r with units := Tab.set 0 r.units (64 * pool + d) j.id })
      (updPoolJob j.id (fun j => { j with waiting := j.waiting - 1, running := j.running + 1 }) s)) := by
  simp only [dispatchUnits, hj, hd]

theorem blockDone_last (hj : s.rad.poolJobs.find? (·.id == id) = some j) (hw : j.waiting = 0) (hr : j.running ≤ 1) :
    blockDone id s = retireFor j.who j.core j.cnt j.status
      (updRad (fun r => { r with poolJobs := r.poolJobs.filter (·.id != id) }) s) := by
  simp only [blockDone, hj, if_pos (And.intro hw hr)]

theorem blockDone_more (hj : s.rad.poolJobs.find? (·.id == id) = some j) (hm : 0 < j.waiting ∨ 1 < j.running) :
    blockDone id s = updPoolJob id (fun j => { j with running := j.running - 1 }) s := by
  have notLast : ¬ (j.waiting = 0 ∧ j.running ≤ 1) := by omega
  simp only [blockDone, hj, if_neg notLast]

theorem execFixedFunctionJobDone_idle {pool : BitVec 2} {unit : BitVec 6}
    (hu : Tab.get 0 s.rad.units (64 * pool.toNat + unit.toNat) = 0) : execFixedFunctionJobDone pool unit s = .next s := by
  simp only [execFixedFunctionJobDone, hu]

/-- A busy unit is freed, its job has one block fewer, and idle units look for more. (`simp` finds among the hypotheses that the unit's
job is not 0, which rules out the first case of the match.) -/
theorem execFixedFunctionJobDone_busy {pool : BitVec 2} {unit : BitVec 6}
    (hu : Tab.get 0 s.rad.units (64 * pool.toNat + unit.toNat) = id) (h0 : id ≠ 0) :
    execFixedFunctionJobDone pool unit s = .next (dispatchUnits pool.toNat 64 (blockDone id
      (updRad (fun r => { r with units := Tab.set 0 r.units (64 * pool.toNat + unit.toNat) 0 }) s))) := by
  simp only [execFixedFunctionJobDone, hu]

end Units

/-- Settles O38: each row is one of the laws above, at the job of its port's head or at its unit's block. -/
theorem basebandJobsRun : Obligations.BasebandJobsRun := by
  refine ⟨?taken, ?encoder, ?polar, ?prach, fun s => ?empty,
    fun s pool j f blocks st => ⟨_, rfl, rfl, rfl⟩,
    fun s pool n => ⟨fun h => dispatchUnits_stops h n, fun j d hj hd => ⟨_, dispatchUnits_issues hj hd, Tab.get_set_eq,
      fun k hk => Tab.get_set_ne hk, rfl, rfl⟩⟩,
    fun s => ⟨execLdpcDecodeJob_empty, fun j hj => ⟨execLdpcDecodeJob_noPdu hj, fun p hp => ⟨execLdpcDecodeJob_noLifting hj hp,
      fun u hu => ⟨execLdpcDecodeJob_taken hj hp hu, execLdpcDecodeJob_badFields hj hp hu⟩⟩⟩,
      fun j => ⟨popJob_jobs 0 s, jobs_of_headJob⟩⟩,
    fun s d => ⟨execCodeBlockDecoded_idle, fun j i hd => ?decoded⟩, ?unitDone⟩
  case taken =>
    rintro s j f p u hj rfl hp hu ho
    exact execLdpcDecodeJob_taken hj hp hu ho
  case encoder =>
    rintro s j f hj rfl
    rw [exec_ldpcEncodeJob_unitJob, exec_sideJob_unitJob]
    refine ⟨fun h1 => ?encode, fun h2 => ?side, fun h1 h2 => ?unknown, fun h2 => unitJob_other hj (by simp [h2]),
      fun h2 => unitJob_other hj (beq_eq_false_iff_ne.2 h2)⟩
    case encode =>
      rw [unitJob_mine hj (by simp [h1])]
      simp only [if_pos h1]
    case side => rw [unitJob_mine hj (by simp [h2])]
    case unknown =>
      rw [unitJob_mine hj (by simp [h2])]
      simp only [if_neg h1]
  case polar =>
    rintro s j f hj rfl
    rw [exec_polarJob_unitJob, unitJob_mine hj rfl]
  case prach =>
    rintro s j f hj rfl
    rw [exec_prachJob_unitJob, unitJob_mine hj rfl]
  case empty =>
    rw [exec_ldpcEncodeJob_unitJob, exec_sideJob_unitJob, exec_polarJob_unitJob, exec_prachJob_unitJob]
    exact ⟨fun hj => ⟨unitJob_empty hj, unitJob_empty hj⟩, unitJob_empty, unitJob_empty⟩
  case decoded =>
    simp only [exec_codeBlockDecoded, execCodeBlockDecoded, hd]
  case unitDone =>
    rintro s pool unit k rfl
    refine ⟨execFixedFunctionJobDone_idle, fun j hk hj => ?_⟩
    have named : j.id = Tab.get 0 s.rad.units (64 * pool.toNat + unit.toNat) :=
      beq_iff_eq.1 (List.find?_some (p := fun x : PoolJob => x.id == _) hj)
    rw [← named] at hk hj
    rw [exec_fixedFunctionJobDone, execFixedFunctionJobDone_busy named.symm hk]
    refine ⟨fun hw hr => ?last, fun hm => ?more⟩
    case last =>
      rw [blockDone_last ?found hw hr]
      case found => exact hj
      rfl
    case more =>
      rw [blockDone_more ?found hm]
      case found => exact hj
      rfl

end Sys2Proof.Machine
end

section
/-!
Settles the statement of the fronthaul chapter about its commands and the block lock (R198 to R203, R219, R223, R224, R240, R411).
-/
namespace Sys2Proof.Machine
open Sys2Proof

/-! ### What decides a command -/

/-- A port keeps its configuration while a stream of it belongs to a cell that is ACTIVE or SHADOW (R198). -/
theorem portCarriesCell_iff {s : State} {p : Nat} :
    (s.rad.streams.any fun e => e.2.record != [] && e.2.port == p &&
      ((s.cell e.2.cell).state == 2 || (s.cell e.2.cell).state == 3)) = true ↔
    ∃ e ∈ s.rad.streams, e.2.record ≠ [] ∧ e.2.port = p ∧ ((s.cell e.2.cell).state = 2 ∨ (s.cell e.2.cell).state = 3) := by
  simp only [List.any_eq_true, Bool.and_eq_true, Bool.or_eq_true, bne_iff_ne, beq_iff_eq, and_assoc]

/-- The fields that FH_PORT_CONFIG takes (R198, R199): the exception queue is not one that is bound to a VF. -/
theorem portFields_accepted {s : State} {p f h mc : Nat} (hp : p < 8) (hmin : 1518 ≤ f) (hmax : f ≤ 9216) (hq : h < 8192)
    (hmc : mc < 8) (hfn : (s.queue h).en = true → (s.queue h).fn = 0) :
    ¬ (8 ≤ p ∨ f < 1518 ∨ 9216 < f ∨ 8192 ≤ h ∨ 8 ≤ mc ∨ ((s.queue h).en = true ∧ (s.queue h).fn ≠ 0)) :=
  not_or.2 ⟨Nat.not_le.2 hp, not_or.2 ⟨Nat.not_lt.2 hmin, not_or.2 ⟨Nat.not_lt.2 hmax, not_or.2 ⟨Nat.not_le.2 hq,
    not_or.2 ⟨Nat.not_le.2 hmc, fun vf => vf.2 (hfn vf.1)⟩⟩⟩⟩⟩

theorem setPolicer_policers_eq {s : State} {k : Nat} {p : Policer} :
    Tab.get Policer.reset (s.setPolicer k p).traf.policers k = p := Tab.get_set_eq

theorem setPolicer_policers_ne {s : State} {j k : Nat} {p : Policer} (h : j ≠ k) :
    Tab.get Policer.reset (s.setPolicer k p).traf.policers j = Tab.get Policer.reset s.traf.policers j := Tab.get_set_ne h

/-! ### An echo of the lease is a packet: the radio part stays (R503) -/

section Echo
variable {s : State}

@[simp] theorem routePacket_rad (dst off : Nat) (p : Pkt) (avoid : Option Nat) :
    (routePacket dst off p avoid s).2.rad = s.rad := by
  unfold routePacket
  split <;> rfl

@[simp] theorem sendControl_rad (opc dst e x : Nat) : (sendControl opc dst e x s).rad = s.rad := routePacket_rad ..

@[simp] theorem sendEcho_rad (dst : Nat) : (sendEcho dst s).rad = s.rad := by
  unfold sendEcho
  split
  · exact sendControl_rad ..
  · rfl

theorem sendEcho_cell (dst k : Nat) : (sendEcho dst s).cell k = s.cell k := by
  unfold State.cell
  rw [sendEcho_rad]

end Echo

/-! ### Losing and regaining block lock (R223, R240) -/

section Lock
variable {s : State} {p : Nat} {fec : Bool}

/-- A port without its lock: its link is down, which is counted if it was up. -/
def withoutLock (p : Nat) (fec : Bool) (s : State) : State :=
  let s1 := updFhPort p (fun q => { q with link := false, fecLock := fec }) s
  if (s.fhPort p).link then portCount p 13 s1 else s1

theorem withoutLock_fhPort (k : Nat) : (withoutLock p fec s).fhPort k =
    (updFhPort p (fun q => { q with link := false, fecLock := fec }) s).fhPort k := by
  unfold withoutLock
  split <;> rfl

theorem withoutLock_portCnt : (withoutLock p fec s).rad.portCnt =
    if (s.fhPort p).link then (portCount p 13 s).rad.portCnt else s.rad.portCnt := by
  unfold withoutLock
  split <;> rfl

theorem withoutLock_time : (withoutLock p fec s).time = s.time := by
  unfold withoutLock
  split <;> rfl

@[simp] theorem squelch_rad : (squelch s).rad = s.rad := by
  unfold squelch
  split <;> rfl

theorem squelch_fhPort (k : Nat) : (squelch s).fhPort k = s.fhPort k := by
  unfold State.fhPort
  rw [squelch_rad]

theorem squelch_squelched : (squelch s).time.squelched = true := by
  unfold squelch
  split
  · assumption
  · rfl

theorem squelch_synceGood : (squelch s).time.synceGood = s.time.synceGood := by
  unfold squelch
  split <;> rfl

/-- Only a new squelch is counted. -/
theorem squelch_cnt : (squelch s).time.cnt = if s.time.squelched then s.time.cnt else bump s.time.cnt 11 := by
  unfold squelch
  split <;> rfl

/-- A port with its lock, from now on if it had none. -/
def withLock (p now : Nat) (s : State) : State :=
  updFhPort p (fun q => { q with link := true, fecLock := true, upAt := if q.link then q.upAt else now }) s

/-- A fold over frames none of which is due leaves the state alone, whatever it would do with a due one. -/
theorem foldl_due_of_none_due {f : State → TxFrame → State} {l : List TxFrame} (h : ∀ x ∈ l, s.now < x.rel) :
    l.foldl (fun s x => if x.rel ≤ s.now then f s x else s) s = s := by
  induction l with
  | nil => rfl
  | cons x l ih =>
    rw [List.foldl_cons, if_neg (Nat.not_le.2 (h x (List.mem_cons_self ..)))]
    exact ih fun y hy => h y (List.mem_cons_of_mem _ hy)

theorem dropMissed_of_none_due (h : ∀ x ∈ (s.fhPort p).frames, s.now < x.rel) : dropMissed p s = s :=
  foldl_due_of_none_due h

variable {port : BitVec 3}

theorem execFhBlockLockLoss_elsewhere (h : s.time.synceSource ≠ some port.toNat) :
    execFhBlockLockLoss port fec s = .next (withoutLock port.toNat fec s) := congrArg _ (if_neg h)

theorem execFhBlockLockLoss_source (h : s.time.synceSource = some port.toNat) : execFhBlockLockLoss port fec s =
    .next (squelch { withoutLock port.toNat fec s with time := { (withoutLock port.toNat fec s).time with synceGood := none } }) :=
  congrArg _ (if_pos h)

theorem execFhBlockLockRegain_source {v : State} (hv : v = if (s.fhPort port.toNat).link then s else dropMissed port.toNat s)
    (hs : s.time.synceSource = some port.toNat) (hg : s.time.synceGood = none) :
    execFhBlockLockRegain port s =
      .next { withLock port.toNat s.now v with time := { v.time with synceGood := some s.now } } := by
  subst hv
  exact congrArg _ (if_pos ⟨hs, hg⟩)

theorem execFhBlockLockRegain_elsewhere {v : State} (hv : v = if (s.fhPort port.toNat).link then s else dropMissed port.toNat s)
    (h : ¬ (s.time.synceSource = some port.toNat ∧ s.time.synceGood = none)) :
    execFhBlockLockRegain port s = .next (withLock port.toNat s.now v) := by
  subst hv
  exact congrArg _ (if_neg h)

end Lock

/-- Settles O39: each command passes its guards one by one and writes one port, stream or cell; an echo of the lease leaves the cells
alone. Block lock changes one port, its loss counter and the SyncE source. -/
theorem fronthaulCommandsAndLinks : Obligations.FronthaulCommandsAndLinks := by
  refine ⟨performs_of exec_fhPortConfig fun m a hv => ?port, declines_of exec_fhPortConfig fun m a hw => if_pos hw,
    declines_of exec_fhPortConfig fun m a hw => ?portBusy, performs_of exec_fhStreamConfig fun m a hv => ?stream,
    declines_of exec_fhStreamConfig fun m a hw => if_pos (hw.imp_right ne_true_of_eq_false),
    declines_of exec_fhStreamConfig fun m a hw => ?streamBusy, performs_of exec_fhCellTiming fun m a hv => ?timing,
    declines_of exec_fhCellTiming fun m a hw => if_pos (hw.imp_right ne_true_of_eq_false),
    performs_of exec_fhMirror fun m a hv => ?mirror, declines_of exec_fhMirror fun m a hw => ?mirrorBad,
    performs_of exec_fhQuery fun m a hv => ?query, declines_of exec_fhQuery fun m a hw => ?queryBad,
    fun s port fec => ?loss, fun s v port hv => ?regain, fun s p => dropMissed_of_none_due⟩
  case port =>
    obtain ⟨hp, hmin, hmax, hq, hmc, hfn, hfree⟩ := hv
    refine ⟨_, _, (if_neg (portFields_accepted hp hmin hmax hq hmc hfn)).trans (if_neg ?free), rfl, updFhPort_fhPort_eq _,
      fun k hk => updFhPort_fhPort_ne _ hk, rfl⟩
    case free =>
      rw [portCarriesCell_iff]
      rintro ⟨e, he, hr, hport, hstate⟩
      exact hstate.elim (hfree e he hr hport).1 (hfree e he hr hport).2
  case portBusy =>
    obtain ⟨hp, hmin, hmax, hq, hmc, hfn, hused⟩ := hw
    exact (if_neg (portFields_accepted hp hmin hmax hq hmc hfn)).trans (if_pos (portCarriesCell_iff.2 hused))
  case stream =>
    obtain ⟨hn, hok, hclaim, hfree, hold⟩ := hv
    refine ⟨_, _, (if_neg ?fields).trans ((if_neg (not_not_intro hclaim)).trans (if_neg ?free)), rfl, updStream_stream_eq _,
      fun k hk => updStream_stream_ne _ hk, setPolicer_policers_eq, fun k hk => setPolicer_policers_ne hk, rfl⟩
    case fields => exact not_or.2 ⟨Nat.not_le.2 hn, not_not_intro hok⟩
    case free => exact not_or.2 ⟨ne_true_of_eq_false hfree, fun h => ne_true_of_eq_false (hold h.1) h.2⟩
  case streamBusy =>
    obtain ⟨hn, hok, hclaim, hbusy⟩ := hw
    exact (if_neg (not_or.2 ⟨Nat.not_le.2 hn, not_not_intro hok⟩)).trans
      ((if_neg (not_not_intro hclaim)).trans (if_pos hbusy))
  case timing =>
    obtain ⟨hn, hok, hfree⟩ := hv
    exact ⟨_, _, (if_neg (not_or.2 ⟨Nat.not_le.2 hn, not_not_intro hok⟩)).trans (if_neg (ne_true_of_eq_false hfree)), rfl,
      updCell_cell_eq _, fun k hk => updCell_cell_ne _ hk, rfl⟩
  case mirror =>
    obtain ⟨hn, hrole, hring, hfree⟩ := hv
    have accepted : ¬ (384 ≤ mfld m 16 2 ∨ 3 ≤ mfld m 18 1 ∨
        (mfld m 18 1 ≠ 0 ∧ ¬ mirrorRingOk a (mfld m 18 1) (mfld m 19 1) (mfld m 24 8) = true)) :=
      not_or.2 ⟨Nat.not_le.2 hn, not_or.2 ⟨Nat.not_le.2 hrole, fun h => h.2 (hring h.1)⟩⟩
    refine ⟨_, _, (if_neg accepted).trans (if_neg (ne_true_of_eq_false hfree)), rfl, ?_⟩
    by_cases primary : mfld m 18 1 = 1
    · rw [if_pos primary]
      exact ⟨(sendEcho_cell ..).trans (updCell_cell_eq _), fun k hk => (sendEcho_cell ..).trans (updCell_cell_ne _ hk),
        absurd primary, fun _ => ⟨_, (sendEcho_cell ..).symm, rfl, rfl⟩⟩
    · rw [if_neg primary]
      exact ⟨updCell_cell_eq _, fun k hk => updCell_cell_ne _ hk, fun _ => rfl, (absurd · primary)⟩
  case mirrorBad => exact if_pos (hw.imp_right (Or.imp_right (And.imp_right ne_true_of_eq_false)))
  case query =>
    rcases hv with ⟨hkind, hn⟩ | ⟨hkind, hn⟩
    · exact ⟨_, _, if_pos ⟨hkind, hn⟩, rfl, fun _ => rfl, fun h => by omega⟩
    · exact ⟨_, _, (if_neg (by omega)).trans (if_pos ⟨hkind, hn⟩), rfl, fun h => by omega, fun _ => rfl⟩
  case queryBad => exact (if_neg (by omega)).trans (if_neg (by omega))
  case loss =>
    by_cases source : s.time.synceSource = some port.toNat
    · refine ⟨_, execFhBlockLockLoss_source source, (squelch_fhPort _).trans ((withoutLock_fhPort _).trans (updFhPort_fhPort_eq _)),
        fun k hk => (squelch_fhPort _).trans ((withoutLock_fhPort _).trans (updFhPort_fhPort_ne _ hk)), ?counted, absurd source,
        fun _ => ⟨squelch_synceGood, squelch_squelched, ?squelched⟩, ?frame⟩
      case counted => rw [squelch_rad]; exact withoutLock_portCnt
      case squelched => rw [squelch_cnt, withoutLock_time]
      case frame => unfold squelch withoutLock; split <;> split <;> rfl
    · exact ⟨_, execFhBlockLockLoss_elsewhere source, (withoutLock_fhPort _).trans (updFhPort_fhPort_eq _),
        fun k hk => (withoutLock_fhPort _).trans (updFhPort_fhPort_ne _ hk), withoutLock_portCnt, fun _ => withoutLock_time,
        (absurd · source), by unfold withoutLock; split <;> rfl⟩
  case regain =>
    by_cases source : s.time.synceSource = some port.toNat ∧ s.time.synceGood = none
    · obtain ⟨hs, hg⟩ := source
      refine ⟨_, execFhBlockLockRegain_source hv hs hg, updFhPort_fhPort_eq _, fun k hk => updFhPort_fhPort_ne _ hk,
        fun _ _ => rfl, fun h => ?_, rfl⟩
      exact absurd (h.resolve_left (not_not_intro hs)) (by simp [hg])
    · exact ⟨_, execFhBlockLockRegain_elsewhere hv source, updFhPort_fhPort_eq _, fun k hk => updFhPort_fhPort_ne _ hk,
        fun hs hg => absurd ⟨hs, hg⟩ source, fun _ => rfl, rfl⟩

end Sys2Proof.Machine
end

section
/-!
Settles the statement of the fronthaul chapter about frames, symbols and mirror records (R198 to R221, R229).
-/
namespace Sys2Proof.Machine
open Sys2Proof

/-! ### Writes of device memory leave the radio part alone (R265) -/

section Memory
variable {s : State}

theorem rad_foldl {β : Type} {f : State → β → State} (hf : ∀ s b, (f s b).rad = s.rad) (l : List β) (s : State) :
    (l.foldl f s).rad = s.rad := by
  induction l generalizing s with
  | nil => rfl
  | cons b l ih => rw [List.foldl_cons, ih, hf]

@[simp] theorem dryEvent_rad (e : Nat) : (dryEvent e s).rad = s.rad := by
  unfold dryEvent dryTriggerAt
  dsimp only
  split
  · rfl
  · split <;> rfl

@[simp] theorem sendLease_rad (fields : List (Nat × Nat × Nat)) : (sendLease fields s).rad = s.rad := by
  unfold sendLease tagFor
  dsimp only
  split <;> rfl

@[simp] theorem faultEvent_rad (code : Nat) (data : List Byte) : (faultEvent code data s).rad = s.rad := by
  unfold faultEvent
  dsimp only
  split
  · rw [sendEvent, sendLease_rad, dryEvent_rad]
  · rfl

@[simp] theorem logUncorrectable_rad (source a : Nat) : (logUncorrectable source a s).rad = s.rad := by
  unfold logUncorrectable
  dsimp only
  split
  · rfl
  · rw [faultEvent_rad, dryEvent_rad, healthCount_rad]

@[simp] theorem accountWord_rad (source w : Nat) (o : EccOutcome) : (accountWord source w o s).rad = s.rad := by
  unfold accountWord
  dsimp only
  split
  · split <;> rfl
  · split
    · rw [logUncorrectable_rad]; split <;> rfl
    · rfl

@[simp] theorem checkWord_rad (source w : Nat) : (checkWord source s w).rad = s.rad := by
  unfold checkWord
  dsimp only
  split <;> exact accountWord_rad ..

@[simp] theorem memWrite_rad (a : Nat) (bs : List Byte) : (memWrite a bs s).rad = s.rad :=
  rad_foldl (fun _ w => checkWord_rad _ w) _ s

@[simp] theorem clearSoft_rad (cn : Nat) : (clearSoft cn s).rad = s.rad := rad_foldl (fun _ _ => memWrite_rad ..) _ s

theorem clearSoft_cell (cn k : Nat) : (clearSoft cn s).cell k = s.cell k := by
  unfold State.cell
  rw [clearSoft_rad]

end Memory

/-! ### A received frame (R198, R199, R223) -/

section Receive
variable {s : State} {port : BitVec 3} {raw : BitVec 72} {frame : List Byte}

theorem execFhFrameRx_noLink (ok : Bool) (hl : (s.fhPort port.toNat).link = false) :
    execFhFrameRx port raw ok frame s = .next s := if_pos (ne_true_of_eq_false hl)

/-- Bytes of a frame before its payload: one VLAN tag may stand among them. -/
def headerLength (frame : List Byte) : Nat := if fldBE frame 12 2 = 0x8100 then 18 else 14

def vlanOf (frame : List Byte) : Nat := if fldBE frame 12 2 = 0x8100 then fldBE frame 14 2 % 4096 else 0

variable (hl : (s.fhPort port.toNat).link = true)
include hl

theorem execFhFrameRx_bad {ok : Bool} (h : ok = false ∨ frame.length < 60) :
    execFhFrameRx port raw ok frame s = .next (portCount port.toNat 1 (portCount port.toNat 0 s)) :=
  (if_neg (not_not_intro hl)).trans (if_pos (h.imp ne_true_of_eq_false fun hs => Nat.add_lt_add_right hs 4))

variable (hmin : 60 ≤ frame.length)
include hmin

theorem execFhFrameRx_tooLong (hmax : (s.fhPort port.toNat).maxFrame < frame.length + 4) :
    execFhFrameRx port raw true frame s = .next (portCount port.toNat 2 (portCount port.toNat 0 s)) :=
  (if_neg (not_not_intro hl)).trans ((if_neg (by simpa using hmin)).trans (if_pos hmax))

variable (hmax : frame.length + 4 ≤ (s.fhPort port.toNat).maxFrame)
include hmax

theorem execFhFrameRx_ecpri (ht : fldBE frame (headerLength frame - 2) 2 = 0xAEFE) :
    execFhFrameRx port raw true frame s = .next (ingress true port.toNat (vlanOf frame) (fldBE frame 6 6) (frame.length + 4) s.now
      frame (frame.drop (headerLength frame)) (portCount port.toNat 0 s)) := by
  have hs : ¬ frame.length + 4 < 64 := by omega
  unfold headerLength at ht
  simp [execFhFrameRx, hl, hs, Nat.not_lt.2 hmax, ht, headerLength, vlanOf]

theorem execFhFrameRx_ptp (ht : fldBE frame (headerLength frame - 2) 2 = 0x88F7) :
    execFhFrameRx port raw true frame s = .next (ptpReceive port.toNat 0 raw.toNat frame (portCount port.toNat 0 s)) := by
  have hs : ¬ frame.length + 4 < 64 := by omega
  unfold headerLength at ht
  simp [execFhFrameRx, hl, hs, Nat.not_lt.2 hmax, ht]

/-- Any other EtherType is decided by the destination address. (`simp` finds among the hypotheses that the type is neither of the two,
which rules out the first cases of the match.) -/
theorem execFhFrameRx_other (he : fldBE frame (headerLength frame - 2) 2 ≠ 0xAEFE)
    (hp : fldBE frame (headerLength frame - 2) 2 ≠ 0x88F7) :
    execFhFrameRx port raw true frame s = if exceptionAddress (s.fhPort port.toNat) (fldBE frame 0 6)
      then .next (exceptionFrame port.toNat frame (portCount port.toNat 0 s))
      else .next (portCount port.toNat 3 (portCount port.toNat 0 s)) := by
  have hs : ¬ frame.length + 4 < 64 := by omega
  unfold headerLength at he hp
  simp [execFhFrameRx, hl, hs, Nat.not_lt.2 hmax]

end Receive

/-! ### Egress jobs and frame boundaries (R205 to R210) -/

section Egress
variable {s : State} {port : BitVec 3}

theorem execFhEgressJob_empty (hj : headJob (0x10 + port.toNat) s = none) : execFhEgressJob port s = .next s := by
  simp only [execFhEgressJob, hj]

section Head
variable {j : Job} (hj : headJob (0x10 + port.toNat) s = some j)
include hj

theorem execFhEgressJob_refused (h : egressOk s (leBytes 64 j.block.toNat) = false ∨
      (s.stream (fld (leBytes 64 j.block.toNat) 0 2)).port ≠ port.toNat) :
    execFhEgressJob port s =
      let b := leBytes 64 j.block.toNat
      let x := s.stream (fld b 0 2)
      .next (retireFor 256 (if x.record = [] then j.core else x.core) (fld b 31 1 % 64) stBadParam
        (popJob (0x10 + port.toNat) s)) := by
  simp only [execFhEgressJob, hj]
  exact if_pos (h.imp_left ne_true_of_eq_false)

theorem execFhEgressJob_taken (ho : egressOk s (leBytes 64 j.block.toNat) = true)
    (hport : (s.stream (fld (leBytes 64 j.block.toNat) 0 2)).port = port.toNat) :
    execFhEgressJob port s =
      let b := leBytes 64 j.block.toNat
      let id := s.rad.nextJob
      let s2 := updRad (fun r => { r with nextJob := id + 1 }) (popJob (0x10 + port.toNat) s)
      let r := if fld b 2 1 = 0 then egressUser (fld b 0 2) (fld b 8 8) (fld b 16 8) (fld b 24 2) (fld b 26 2) id s2
        else egressControl (fld b 0 2) (fld b 3 1) (fld b 8 8) (fld b 16 8) (fld b 28 2) (fld b 30 1) id s2
      .next (closeJob id (s.stream (fld b 0 2)).core (fld b 31 1) j.who r.1 r.2) := by
  simp only [execFhEgressJob, hj]
  exact if_neg (not_or.2 ⟨not_not_intro ho, not_not_intro hport⟩)

end Head

theorem takeEntry_sent {h : Nat} {u : State} (hs : serveHead h s = (true, u)) :
    takeEntry h stOk s = chargeQueue h ((s.queue h).headL.getD 0) u := by
  simp only [takeEntry, if_true, hs]

theorem takeEntry_unsent {h : Nat} {u : State} (hs : serveHead h s = (false, u)) : takeEntry h stOk s = passQueue h u := by
  simp [takeEntry, hs]

/-- The ready frame that nothing forbids leaves. -/
theorem sendRadio_sends {p k : Nat} {f : TxFrame} (hf : readyFrame s p = some f) (hd : frameDrop s p f = none) :
    sendRadio p (k + 1) s =
      (true, frameGone f.job stOk (portCount p 8 (emit (.fhFrame p (wireFrame f.bytes)) (takeFrameOut p f s)))) := by
  simp only [sendRadio, hf, hd]

variable {raw : BitVec 72}

theorem execFhTxFrameBoundary_ptp (hp : ptpWaits s port.toNat = true) :
    execFhTxFrameBoundary port raw s = .next (ptpTransmit port.toNat 0 raw.toNat s) := if_pos hp

section NoPtp
variable (hp : ptpWaits s port.toNat = false)
include hp

theorem execFhTxFrameBoundary_radio (hr : (sendRadio port.toNat (s.fhPort port.toNat).frames.length s).1 = true) :
    execFhTxFrameBoundary port raw s = .next (sendRadio port.toNat (s.fhPort port.toNat).frames.length s).2 :=
  (if_neg (ne_true_of_eq_false hp)).trans (if_pos hr)

variable {v : State} (hr : (sendRadio port.toNat (s.fhPort port.toNat).frames.length s).1 = false)
  (hv : v = atDecision port.toNat (sendRadio port.toNat (s.fhPort port.toNat).frames.length s).2)
include hr hv

theorem execFhTxFrameBoundary_idle (hx : pickRival v (egressRivals v port.toNat) = none) :
    execFhTxFrameBoundary port raw s = .next v := by
  subst hv
  simp [execFhTxFrameBoundary, hp, hr, hx]

theorem execFhTxFrameBoundary_queue {x : Rival} (hx : pickRival v (egressRivals v port.toNat) = some x) :
    execFhTxFrameBoundary port raw s = .next (takeEntry x.hq stOk v) := by
  subst hv
  simp [execFhTxFrameBoundary, hp, hr, hx]

end NoPtp

end Egress

/-! ### Symbol windows (R215, R217) -/

section Symbols
variable {s : State}

theorem openSymbol_opened {n k : Nat} {prach : Bool} (h : ((s.stream n).symbol k prach).isSome = true) :
    openSymbol n k prach s = s := if_pos h

/-- A symbol begins at an air time, in a slot for which the cell of an uplink stream collects symbols. -/
def takesSymbol (s : State) (n k : Nat) : Prop :=
  (s.stream n).record ≠ [] ∧ (s.stream n).dir = 0 ∧ ((s.cell (s.stream n).cell).symbolAt k).isSome = true ∧
    collects (s.cell (s.stream n).cell) k = true

/-- Whether a stream's cell is a shadow for the slot of an air time. -/
def shadowAt (s : State) (n k : Nat) : Bool :=
  let c := s.cell (s.stream n).cell
  cellStateFor c (k / c.slotTicks * c.slotTicks) == 3

/-- The last arrival of a symbol's window (R217, R221). -/
def closeLimit (s : State) (n k : Nat) : Nat :=
  let c := s.cell (s.stream n).cell
  c.symbolEnd k + c.ulRxMax + if shadowAt s n k then c.mirrorDelay else 0

/-- A stream's open symbol after its close: marked, its missing PRBs counted, its landing retired. -/
def closeBuffer (n k : Nat) (b : SymbolBuf) (s : State) : State :=
  let x := s.stream n
  retireFor 256 x.core x.landCnt stOk (streamCountBy n 5 (b.missing (s.cell x.cell).nPrb)
    (updStream n (fun x => { x with
      symbols := x.symbols.map fun y => if y.air == k && !y.prach then { y with closed := true } else y }) (openSymbol n k false s)))

theorem notClosable_iff {n k : Nat} :
    ((s.stream n).record = [] ∨ (s.stream n).dir ≠ 0 ∨ ((s.cell (s.stream n).cell).symbolAt k).isNone = true ∨
      ¬ collects (s.cell (s.stream n).cell) k = true ∨ s.now ≤ closeLimit s n k) ↔
    ¬ (takesSymbol s n k ∧ closeLimit s n k < s.now) := by
  rw [takesSymbol, Option.isNone_iff_eq_none, Option.isSome_iff_ne_none, ← Nat.not_lt]
  simp only [Classical.not_and_iff_not_or_not, ne_eq, Classical.not_not, or_assoc]

variable {stream : BitVec 13} {air : BitVec 64}

theorem execSymbolWindowOpen_not_due (h : ¬ (takesSymbol s stream.toNat air.toNat ∧
      ((s.cell (s.stream stream.toNat).cell).symbolEnd air.toNat : Int) + (s.cell (s.stream stream.toNat).cell).ulRxMin ≤ s.now)) :
    execSymbolWindowOpen stream air s = .next s :=
  if_neg fun ⟨hr, hd, hk, hc, hdue⟩ => h ⟨⟨hr, hd, hk, hc⟩, hdue⟩

theorem execSymbolWindowOpen_due (ht : takesSymbol s stream.toNat air.toNat)
    (hdue : ((s.cell (s.stream stream.toNat).cell).symbolEnd air.toNat : Int) + (s.cell (s.stream stream.toNat).cell).ulRxMin ≤
      s.now) :
    execSymbolWindowOpen stream air s =
      let n := stream.toNat
      let k := air.toNat
      let c := s.cell (s.stream n).cell
      .next (if (s.stream n).flag 2 = true ∧ c.prachUses ((c.symbolAt k).getD 0) = true
        then openSymbol n k true (openSymbol n k false s) else openSymbol n k false s) := by
  obtain ⟨hr, hd, hk, hc⟩ := ht
  exact if_pos ⟨hr, hd, hk, hc, hdue⟩

theorem execSymbolClose_not_due (h : ¬ (takesSymbol s stream.toNat air.toNat ∧ closeLimit s stream.toNat air.toNat < s.now)) :
    execSymbolClose stream air s = .next s := if_pos (notClosable_iff.2 h)

section Due
variable (ht : takesSymbol s stream.toNat air.toNat) (hlate : closeLimit s stream.toNat air.toNat < s.now) {b : SymbolBuf}
  (hb : ((openSymbol stream.toNat air.toNat false s).stream stream.toNat).symbol air.toNat false = some b)
include ht hlate hb

theorem execSymbolClose_closed (hc : b.closed = true) :
    execSymbolClose stream air s = .next (openSymbol stream.toNat air.toNat false s) := by
  refine (if_neg fun h => notClosable_iff.1 h ⟨ht, hlate⟩).trans ?_
  simp only [hb, hc, if_true]

/-- The close of a primary's last mirrored symbol of a slot sends the slot's metadata (R220). -/
theorem execSymbolClose_closes (hc : b.closed = false) :
    execSymbolClose stream air s =
      let n := stream.toNat
      let k := air.toNat
      let cn := (s.stream n).cell
      .next (if ¬ shadowAt s n k = true ∧ (s.cell cn).symbolAt k = some 13 ∧ lastMirrored s cn = some n
        then sendMeta cn ((s.cell cn).impressionAt k) (closeBuffer n k b s) else closeBuffer n k b s) := by
  refine (if_neg fun h => notClosable_iff.1 h ⟨ht, hlate⟩).trans ?_
  simp only [hb, hc, Bool.false_eq_true, if_false]
  rfl

end Due

end Symbols

/-! ### Mirror records at a shadow (R193, R221) -/

section Shadow
variable {s : State} {cn imp : Nat}

theorem shadowGap_known (h : (s.cell cn).blind.contains imp = true) : shadowGap cn imp s = s := if_pos h

/-- A slot that its shadow was not yet blind for is counted as a gap. -/
theorem shadowGap_new (h : (s.cell cn).blind.contains imp = false) : (shadowGap cn imp s).cell cn =
    { s.cell cn with blind := imp :: (s.cell cn).blind, shadowGap := satInc16 (s.cell cn).shadowGap } := by
  unfold shadowGap
  rw [if_neg (ne_true_of_eq_false h), clearSoft_cell, updCell_cell_eq]

end Shadow

section Deadline
variable {s : State} {cell : BitVec 9} {imp : BitVec 64}

/-- A shadow's slot whose mirror records are not complete at its limit. -/
def gapDue (s : State) (cn imp : Nat) : Prop :=
  cellStateFor (s.cell cn) (imp * (s.cell cn).slotTicks) = 3 ∧ mirrorLimit (s.cell cn) imp ≤ s.now ∧
    mirrorComplete (s.cell cn) imp = false

theorem execMirrorDeadline_not_due (h : ¬ gapDue s cell.toNat imp.toNat) : execMirrorDeadline cell imp s = .next s :=
  congrArg _ (if_neg fun ⟨hs, hl, hm⟩ => h ⟨hs, hl, eq_false_of_ne_true hm⟩)

theorem execMirrorDeadline_due (h : gapDue s cell.toNat imp.toNat) :
    execMirrorDeadline cell imp s = .next (shadowGap cell.toNat imp.toNat s) := by
  obtain ⟨hs, hl, hm⟩ := h
  exact congrArg _ (if_pos ⟨hs, hl, ne_true_of_eq_false hm⟩)

end Deadline

/-- Settles O40: each row passes its guards one by one and is then one operation by name, or leaves the state alone; a shadow's gap
clears soft buffers, which leaves its count alone. -/
theorem fronthaulFramesSymbolsAndMirrors : Obligations.FronthaulFramesSymbolsAndMirrors := by
  refine ⟨fun s port raw frame => ⟨fun hl ok => execFhFrameRx_noLink ok hl, fun hl ok => execFhFrameRx_bad hl,
      execFhFrameRx_tooLong, fun hl hmin hmax => ⟨execFhFrameRx_ecpri hl hmin hmax, execFhFrameRx_ptp hl hmin hmax,
        fun he hp => ⟨fun ha => ?exceptional, fun ha => ?other⟩⟩⟩,
    fun s port => ⟨execFhEgressJob_empty, fun j hj => ⟨execFhEgressJob_refused hj, execFhEgressJob_taken hj⟩⟩,
    fun s port raw => ⟨execFhTxFrameBoundary_ptp, fun hp => ⟨execFhTxFrameBoundary_radio hp, fun hr =>
      ⟨execFhTxFrameBoundary_idle hp hr rfl, fun x u hx hs => ?queued, fun x u hx hs => ?passed⟩⟩⟩,
    fun s p k f => sendRadio_sends, ?symbols, fun s n k prach => openSymbol_opened,
    fun s source bytes => ⟨fun hmine => congrArg _ (if_pos hmine), fun hother => congrArg _ (if_neg hother)⟩, ?deadline⟩
  case exceptional => exact (execFhFrameRx_other hl hmin hmax he hp).trans (if_pos ha)
  case other => exact (execFhFrameRx_other hl hmin hmax he hp).trans (if_neg (ne_true_of_eq_false ha))
  case queued =>
    rw [exec_fhTxFrameBoundary, execFhTxFrameBoundary_queue hp hr rfl hx, takeEntry_sent hs]
  case passed =>
    rw [exec_fhTxFrameBoundary, execFhTxFrameBoundary_queue hp hr rfl hx, takeEntry_unsent hs]
  case symbols =>
    rintro s stream air x c rfl rfl
    refine ⟨execSymbolWindowOpen_not_due, execSymbolWindowOpen_due, execSymbolClose_not_due, fun ht hlate b hb =>
      ⟨execSymbolClose_closed ht hlate hb, fun hc => ⟨_, rfl, fun hs hk hm => ?primary, fun h => ?silent⟩⟩⟩
    case primary =>
      exact (execSymbolClose_closes ht hlate hb hc).trans (congrArg _ (if_pos ⟨ne_true_of_eq_false hs, hk, hm⟩))
    case silent =>
      refine (execSymbolClose_closes ht hlate hb hc).trans (congrArg _ (if_neg ?_))
      rintro ⟨hs, hk, hm⟩
      exact h.elim hs (Or.elim · (· hk) (· hm))
  case deadline =>
    rintro s cell imp c rfl
    refine ⟨execMirrorDeadline_not_due, fun hdue hb => ?known, fun hdue hb => ⟨_, execMirrorDeadline_due hdue, ?new⟩⟩
    case known => exact (execMirrorDeadline_due hdue).trans (congrArg _ (shadowGap_known hb))
    case new =>
      rw [shadowGap_new hb]
      exact ⟨rfl, List.mem_cons_self ..⟩

end Sys2Proof.Machine
end

section
/-!
Settles the statement of the memory chapter about the 144/128 code (R259 to R264): arithmetic of GF(16), the code's linearity, and the
quadric on which all 36 columns lie.
-/
namespace Sys2Proof.Machine
open Sys2Proof

/-! ### GF(16) (R259) -/

section Field
variable {a b : BitVec 4}

theorem gfMul_comm (a b : BitVec 4) : gfMul a b = gfMul b a := by revert a b; decide +kernel

theorem gfMul_gfDouble (a b : BitVec 4) : gfMul a (gfDouble b) = gfDouble (gfMul a b) := by revert a b; decide +kernel

theorem eq_zero_or_eq_zero_of_gfMul : gfMul a b = 0#4 → a = 0#4 ∨ b = 0#4 := by revert a b; decide +kernel

theorem gfMul_gfInv : a ≠ 0#4 → gfMul a (gfInv a) = 1#4 := by revert a; decide +kernel

/-- Squaring is additive in characteristic 2. -/
theorem gfMul_self_xor (a b : BitVec 4) : gfMul (a ^^^ b) (a ^^^ b) = gfMul a a ^^^ gfMul b b := by revert a b; decide +kernel

@[simp] theorem gfMul_zero (a : BitVec 4) : gfMul a 0#4 = 0#4 := by revert a; decide +kernel
@[simp] theorem zero_gfMul (a : BitVec 4) : gfMul 0#4 a = 0#4 := by rw [gfMul_comm, gfMul_zero]
@[simp] theorem gfMul_one (a : BitVec 4) : gfMul a 1#4 = a := by revert a; decide +kernel
@[simp] theorem one_gfMul (a : BitVec 4) : gfMul 1#4 a = a := by rw [gfMul_comm, gfMul_one]

theorem gfMul_ne_zero (ha : a ≠ 0#4) (hb : b ≠ 0#4) : gfMul a b ≠ 0#4 := fun h => (eq_zero_or_eq_zero_of_gfMul h).elim ha hb

/-- A product as the sum of the first factor's doublings that the bits of the second one name. -/
theorem gfMul_eq_bits (a b : BitVec 4) : gfMul a b =
    (if b.getLsbD 0 = true then a else 0#4) ^^^ (if b.getLsbD 1 = true then gfDouble a else 0#4) ^^^
    (if b.getLsbD 2 = true then gfDouble (gfDouble a) else 0#4) ^^^
    (if b.getLsbD 3 = true then gfDouble (gfDouble (gfDouble a)) else 0#4) := rfl

theorem ite_bit_xor (p q : Bool) (a : BitVec 4) :
    (if (p ^^ q) = true then a else 0#4) = (if p = true then a else 0#4) ^^^ (if q = true then a else 0#4) := by
  cases p <;> cases q <;> simp

theorem gfMul_ite (p : Bool) (a b : BitVec 4) :
    gfMul a (if p = true then b else 0#4) = if p = true then gfMul a b else 0#4 := by
  cases p <;> simp

theorem gfMul_xor (a b c : BitVec 4) : gfMul a (b ^^^ c) = gfMul a b ^^^ gfMul a c := by
  simp only [gfMul_eq_bits, BitVec.getLsbD_xor, ite_bit_xor]
  ac_rfl

theorem xor_gfMul (a b c : BitVec 4) : gfMul (a ^^^ b) c = gfMul a c ^^^ gfMul b c := by
  rw [gfMul_comm, gfMul_xor, gfMul_comm c a, gfMul_comm c b]

theorem gfMul_assoc (a b c : BitVec 4) : gfMul (gfMul a b) c = gfMul a (gfMul b c) := by
  rw [gfMul_eq_bits (gfMul a b) c, gfMul_eq_bits b c]
  simp only [gfMul_xor, gfMul_ite, gfMul_gfDouble]

theorem gfMul_left_comm (a b c : BitVec 4) : gfMul a (gfMul b c) = gfMul b (gfMul a c) := by
  rw [← gfMul_assoc, gfMul_comm a, gfMul_assoc]

theorem gfMul_gfMul_gfMul_comm (a b c d : BitVec 4) : gfMul (gfMul a b) (gfMul c d) = gfMul (gfMul a c) (gfMul b d) := by
  rw [gfMul_assoc, gfMul_left_comm b, ← gfMul_assoc]

theorem xor_xor_cancel_pair (a b c : BitVec 4) : a ^^^ b ^^^ c ^^^ b ^^^ c = a := by
  rw [BitVec.xor_assoc, BitVec.xor_assoc a b c, BitVec.xor_assoc, BitVec.xor_self, BitVec.xor_zero]

/-- A quotient times its divisor. -/
theorem gfMul_gfInv_cancel (ha : a ≠ 0#4) (b : BitVec 4) : gfMul a (gfMul b (gfInv a)) = b := by
  rw [gfMul_comm b, ← gfMul_assoc, gfMul_gfInv ha, one_gfMul]

end Field

/-! ### Vectors over GF(16) (R260) -/

section Vectors
variable {u v : Gf4}

theorem gf4Add_zero (u : Gf4) : gf4Add u (0, 0, 0, 0) = u := by simp [gf4Add]

theorem gf4Add_comm (u v : Gf4) : gf4Add u v = gf4Add v u := by simp only [gf4Add, BitVec.xor_comm]

theorem gf4Add_self (u : Gf4) : gf4Add u u = (0, 0, 0, 0) := by simp [gf4Add]

theorem xor_xor_cancel (a b : BitVec 4) : a ^^^ (a ^^^ b) = b := by
  rw [← BitVec.xor_assoc, BitVec.xor_self, BitVec.zero_xor]

theorem gf4Add_cancel (u v : Gf4) : gf4Add u (gf4Add u v) = v :=
  Prod.ext (xor_xor_cancel ..) (Prod.ext (xor_xor_cancel ..) (Prod.ext (xor_xor_cancel ..) (xor_xor_cancel ..)))

theorem gf4Add_add_add_comm (a b c d : Gf4) : gf4Add (gf4Add a b) (gf4Add c d) = gf4Add (gf4Add a c) (gf4Add b d) := by
  simp only [gf4Add, Prod.mk.injEq]
  refine ⟨?_, ?_, ?_, ?_⟩ <;> ac_rfl

theorem xor_gf4Scale (j k : BitVec 4) (u : Gf4) : gf4Scale (j ^^^ k) u = gf4Add (gf4Scale j u) (gf4Scale k u) := by
  simp only [gf4Scale, gf4Add, xor_gfMul]

theorem zero_gf4Scale (u : Gf4) : gf4Scale 0#4 u = (0, 0, 0, 0) := by simp [gf4Scale]

/-- The combination of the columns of the first n symbols, as `dataSyndrome` and `syndrome` take it. -/
def gf4Sum (k : Nat → BitVec 4) (col : Nat → Gf4) (n : Nat) : Gf4 :=
  (List.range n).foldl (fun s i => gf4Add s (gf4Scale (k i) (col i))) (0, 0, 0, 0)

theorem gf4Sum_succ (k : Nat → BitVec 4) (col : Nat → Gf4) (n : Nat) :
    gf4Sum k col (n + 1) = gf4Add (gf4Sum k col n) (gf4Scale (k n) (col n)) := by
  rw [gf4Sum, List.range_succ, List.foldl_append]
  rfl

theorem gf4Sum_xor (j k : Nat → BitVec 4) (col : Nat → Gf4) (n : Nat) :
    gf4Sum (fun i => j i ^^^ k i) col n = gf4Add (gf4Sum j col n) (gf4Sum k col n) := by
  induction n with
  | zero => exact (gf4Add_zero _).symm
  | succ n ih => rw [gf4Sum_succ, gf4Sum_succ, gf4Sum_succ, ih, xor_gf4Scale, gf4Add_add_add_comm]

/-- Where one symbol alone is not zero, the combination is a multiple of its column. -/
theorem gf4Sum_single (e : BitVec 4) (p : Nat) (col : Nat → Gf4) (n : Nat) :
    gf4Sum (fun i => if i = p then e else 0#4) col n = if p < n then gf4Scale e (col p) else (0, 0, 0, 0) := by
  induction n with
  | zero => rfl
  | succ n ih =>
    rw [gf4Sum_succ, ih]
    rcases Nat.lt_trichotomy p n with h | rfl | h
    · simp only [if_pos h, if_pos (Nat.lt_succ_of_lt h), if_neg (Nat.ne_of_gt h), zero_gf4Scale, gf4Add_zero]
    · simp [gf4Add]
    · simp only [if_neg (Nat.lt_asymm h), if_neg (by omega : ¬ p < n + 1), if_neg (Nat.ne_of_lt h), zero_gf4Scale, gf4Add_zero]

end Vectors

/-! ### The code is linear (R260 to R262) -/

section Linear

theorem dataSymbol_eq (w : BitVec 128) (i : Nat) : dataSymbol w i = w.extractLsb' (4 * i) 4 := rfl

theorem dataSyndrome_eq (w : BitVec 128) : dataSyndrome w = gf4Sum (dataSymbol w) dataColumn 32 := rfl

theorem syndrome_eq (x : BitVec 16) : syndrome x = gf4Sum (fun j => x.extractLsb' (4 * j) 4) checkColumn 4 := rfl

theorem dataSyndrome_xor (v w : BitVec 128) : dataSyndrome (v ^^^ w) = gf4Add (dataSyndrome v) (dataSyndrome w) := by
  simp only [dataSyndrome_eq, ← gf4Sum_xor, funext fun i => dataSymbol_eq (v ^^^ w) i, BitVec.extractLsb'_xor]
  rfl

theorem syndrome_xor (x y : BitVec 16) : syndrome (x ^^^ y) = gf4Add (syndrome x) (syndrome y) := by
  simp only [syndrome_eq, ← gf4Sum_xor, BitVec.extractLsb'_xor]

theorem extractLsb'_nibble0 (a b c d : BitVec 4) : (a ++ b ++ c ++ d).extractLsb' 0 4 = d := BitVec.extractLsb'_append_eq_right

theorem extractLsb'_nibble1 (a b c d : BitVec 4) : (a ++ b ++ c ++ d).extractLsb' 4 4 = c := by
  rw [BitVec.extractLsb'_append_eq_of_le (by decide)]
  exact BitVec.extractLsb'_append_eq_right

theorem extractLsb'_nibble2 (a b c d : BitVec 4) : (a ++ b ++ c ++ d).extractLsb' 8 4 = b := by
  rw [BitVec.extractLsb'_append_eq_of_le (by decide), BitVec.extractLsb'_append_eq_of_le (by decide)]
  exact BitVec.extractLsb'_append_eq_right

theorem extractLsb'_nibble3 (a b c d : BitVec 4) : (a ++ b ++ c ++ d).extractLsb' 12 4 = a := by
  rw [BitVec.extractLsb'_append_eq_of_le (by decide), BitVec.extractLsb'_append_eq_of_le (by decide)]
  exact BitVec.extractLsb'_append_eq_left

/-- The check bits that a sum of data symbols times their columns asks for (R261). -/
def checkOf (s : Gf4) : BitVec 16 :=
  s.2.2.1 ++ s.2.1 ++ (s.2.2.2 ^^^ s.2.1 ^^^ gfMul gfBeta s.2.2.1) ++ (s.1 ^^^ s.2.1 ^^^ s.2.2.1)

theorem checkBits_eq (w : BitVec 128) : checkBits w = checkOf (dataSyndrome w) := rfl

/-- The check symbols bring the sum over all 36 symbols to zero (R261). -/
theorem syndrome_checkBits (w : BitVec 128) : syndrome (checkBits w) = dataSyndrome w := by
  rw [checkBits_eq]
  generalize dataSyndrome w = s
  obtain ⟨s0, s1, s2, s3⟩ := s
  simp only [syndrome_eq, checkOf, gf4Sum, List.range, List.range.loop, List.foldl, checkColumn, gf4Scale, gf4Add, Nat.mul_zero,
    Nat.mul_one, Nat.reduceMul, extractLsb'_nibble0, extractLsb'_nibble1, extractLsb'_nibble2, extractLsb'_nibble3]
  simp [gfMul_comm _ gfBeta, xor_xor_cancel_pair]

/-- The syndrome that the decoder uses depends only on what changed (R262). -/
theorem syndrome_of_change (w δ : BitVec 128) (ε : BitVec 16) :
    syndrome (checkBits (w ^^^ δ) ^^^ (checkBits w ^^^ ε)) = gf4Add (dataSyndrome δ) (syndrome ε) := by
  simp only [syndrome_xor, syndrome_checkBits, dataSyndrome_xor]
  rw [gf4Add_add_add_comm, gf4Add_self, gf4Add_comm, gf4Add_zero]

/-- The symbols of a word whose symbol p alone is not zero. -/
theorem extractLsb'_symbol {n p : Nat} (hp : 4 * p + 4 ≤ n) (e : BitVec 4) (i : Nat) :
    (BitVec.ofNat n (e.toNat <<< (4 * p))).extractLsb' (4 * i) 4 = if i = p then e else 0#4 := by
  apply BitVec.eq_of_getLsbD_eq
  intro k hk
  rw [BitVec.getLsbD_extractLsb', BitVec.getLsbD_ofNat, Nat.testBit_shiftLeft, BitVec.testBit_toNat]
  rcases Nat.lt_trichotomy i p with h | rfl | h
  · rw [decide_eq_false (by omega : ¬ 4 * i + k ≥ 4 * p), if_neg (Nat.ne_of_lt h)]
    simp
  · simp [hk, (by omega : 4 * i + k < n)]
  · simp [Nat.ne_of_gt h, BitVec.getLsbD_of_ge e (4 * i + k - 4 * p) (by omega)]

theorem dataSyndrome_symbol {p : Nat} (hp : p < 32) (e : BitVec 4) :
    dataSyndrome (BitVec.ofNat 128 (e.toNat <<< (4 * p))) = gf4Scale e (dataColumn p) := by
  simp only [dataSyndrome_eq, funext fun i => dataSymbol_eq (BitVec.ofNat 128 (e.toNat <<< (4 * p))) i,
    extractLsb'_symbol (by omega : 4 * p + 4 ≤ 128), gf4Sum_single, if_pos hp]

theorem syndrome_symbol {q : Nat} (hq : q < 4) (e : BitVec 4) :
    syndrome (BitVec.ofNat 16 (e.toNat <<< (4 * q))) = gf4Scale e (checkColumn q) := by
  simp only [syndrome_eq, extractLsb'_symbol (by omega : 4 * q + 4 ≤ 16), gf4Sum_single, if_pos hq]

/-- The change that an error of value e in symbol p makes to the data, and to the stored check bits. -/
def dataError (p : Nat) (e : BitVec 4) : BitVec 128 := if p < 32 then BitVec.ofNat 128 (e.toNat <<< (4 * p)) else 0
def checkError (p : Nat) (e : BitVec 4) : BitVec 16 := if p < 32 then 0 else BitVec.ofNat 16 (e.toNat <<< (4 * (p - 32)))

/-- The column of any of the 36 symbols (R260). -/
def codeColumn (p : Nat) : Gf4 := if p < 32 then dataColumn p else checkColumn (p - 32)

theorem dataSyndrome_zero : dataSyndrome 0 = (0, 0, 0, 0) := by decide +kernel
theorem syndrome_zero : syndrome 0 = (0, 0, 0, 0) := by decide +kernel

theorem syndrome_of_error {p : Nat} (hp : p < 36) (e : BitVec 4) :
    gf4Add (dataSyndrome (dataError p e)) (syndrome (checkError p e)) = gf4Scale e (codeColumn p) := by
  unfold dataError checkError codeColumn
  split
  case isTrue h => rw [dataSyndrome_symbol h, syndrome_zero, gf4Add_zero]
  case isFalse h => rw [syndrome_symbol (by omega), dataSyndrome_zero, gf4Add_comm, gf4Add_zero]

end Linear

/-! ### Table 9.4 -/

section Decoding
variable {s : Gf4} {e x y z : BitVec 4}

/-- What the decoder finds at a syndrome. -/
def decodeSyndrome (s : Gf4) : EccOutcome :=
  if s = (0, 0, 0, 0) then .clean
  else if s = (0, 1, 1, 0) then .poison
  else if s.1 = 0 then (if s.2.1 = 0 ∧ s.2.2.1 = 0 then .checkSym else .uncorrectable)
  else
    let k := gfInv s.1
    let x := gfMul s.2.1 k
    let y := gfMul s.2.2.1 k
    if gfMul s.2.2.2 k ≠ quadric x y then .uncorrectable
    else if y = 2 then .dataSym x.toNat s.1
    else if y = 3 then .dataSym (16 + x.toNat) s.1
    else if (x = 0 ∧ y = 0) ∨ (x = 1 ∧ y = 0) ∨ (x = 0 ∧ y = 1) then .checkSym
    else .uncorrectable

theorem eccDecode_eq (d : BitVec 16) : eccDecode d = decodeSyndrome (syndrome d) := rfl

/-- What the decoder finds at e times the point (1, x, y, z): it looks the point up among the columns with first coordinate 1. -/
theorem decodeSyndrome_point (he : e ≠ 0#4) : decodeSyndrome (gf4Scale e (1#4, x, y, z)) =
    if z ≠ quadric x y then .uncorrectable
    else if y = 2 then .dataSym x.toNat e
    else if y = 3 then .dataSym (16 + x.toNat) e
    else if (x = 0 ∧ y = 0) ∨ (x = 1 ∧ y = 0) ∨ (x = 0 ∧ y = 1) then .checkSym
    else .uncorrectable := by
  have quotient : ∀ a, gfMul (gfMul e a) (gfInv e) = a := fun a => by rw [gfMul_assoc, gfMul_gfInv_cancel he]
  have first : ∀ t : BitVec 4 × BitVec 4 × BitVec 4, (e, t) ≠ (0, 0, 0, 0) ∧ (e, t) ≠ (0, 1, 1, 0) :=
    fun t => ⟨fun h => he (congrArg Prod.fst h), fun h => he (congrArg Prod.fst h)⟩
  simp only [decodeSyndrome, gf4Scale, gfMul_one, quotient, if_neg (first _).1, if_neg (first _).2]
  exact if_neg he

/-- A syndrome whose first coordinate is not zero is a multiple of a point. -/
theorem eq_gf4Scale_point (hs : s.1 ≠ 0#4) :
    s = gf4Scale s.1 (1#4, gfMul s.2.1 (gfInv s.1), gfMul s.2.2.1 (gfInv s.1), gfMul s.2.2.2 (gfInv s.1)) := by
  simp only [gf4Scale, gfMul_one, gfMul_gfInv_cancel hs]

theorem decodeSyndrome_zero : decodeSyndrome (0, 0, 0, 0) = .clean := if_pos rfl

theorem decodeSyndrome_poison : decodeSyndrome (0, 1, 1, 0) = .poison := by decide +kernel

/-- Among the syndromes with first coordinate 0 the decoder knows zero, poison and the multiples of the column of c_1. -/
theorem decodeSyndrome_at_infinity (hs : s.1 = 0) (hclean : s ≠ (0, 0, 0, 0)) (hpoison : s ≠ (0, 1, 1, 0)) :
    decodeSyndrome s = if s.2.1 = 0 ∧ s.2.2.1 = 0 then .checkSym else .uncorrectable := by
  rw [decodeSyndrome, if_neg hclean, if_neg hpoison, if_pos hs]

theorem decodeSyndrome_dataColumn (he : e ≠ 0#4) {p : Nat} (hp : p < 32) :
    decodeSyndrome (gf4Scale e (dataColumn p)) = .dataSym p e := by
  rw [dataColumn, decodeSyndrome_point he, if_neg (not_not_intro rfl), BitVec.toNat_ofNat]
  rcases Nat.lt_or_ge p 16 with low | high
  · rw [Nat.div_eq_of_lt low, if_pos (by decide), Nat.mod_mod, Nat.mod_eq_of_lt low]
  · rw [(by omega : p / 16 = 1), if_neg (by decide), if_pos (by decide), Nat.mod_mod, (by omega : 16 + p % 16 = p)]

theorem decodeSyndrome_checkColumn (he : e ≠ 0#4) {j : Nat} (hj : j < 4) :
    decodeSyndrome (gf4Scale e (checkColumn j)) = .checkSym := by
  revert e j
  decide +kernel

theorem dataColumn_low (x : BitVec 4) : dataColumn x.toNat = (1#4, x, 2#4, quadric x 2#4) := by revert x; decide +kernel

theorem dataColumn_high (x : BitVec 4) : dataColumn (16 + x.toNat) = (1#4, x, 3#4, quadric x 3#4) := by revert x; decide +kernel

/-- What each answer of the decoder says about the syndrome (Table 9.4). -/
def Explains (s : Gf4) : EccOutcome → Prop
  | .clean => s = (0, 0, 0, 0)
  | .poison => s = (0, 1, 1, 0)
  | .dataSym p e => e ≠ 0#4 ∧ p < 32 ∧ s = gf4Scale e (dataColumn p)
  | .checkSym => ∃ e j, e ≠ 0#4 ∧ j < 4 ∧ s = gf4Scale e (checkColumn j)
  | .uncorrectable => True

theorem explains_point (he : e ≠ 0#4) : Explains (gf4Scale e (1#4, x, y, z)) (decodeSyndrome (gf4Scale e (1#4, x, y, z))) := by
  rw [decodeSyndrome_point he]
  split
  · trivial
  next hz =>
    obtain rfl := Decidable.not_not.1 hz
    split
    next hy =>
      obtain rfl := hy
      exact ⟨he, by omega, by rw [dataColumn_low]; rfl⟩
    split
    next hy =>
      obtain rfl := hy
      exact ⟨he, by omega, by rw [dataColumn_high]; rfl⟩
    split
    next hxy =>
      rcases hxy with ⟨rfl, rfl⟩ | ⟨rfl, rfl⟩ | ⟨rfl, rfl⟩
      · exact ⟨e, 0, he, by decide, rfl⟩
      · exact ⟨e, 2, he, by decide, rfl⟩
      · exact ⟨e, 3, he, by decide, rfl⟩
    · trivial

theorem explains_decodeSyndrome (s : Gf4) : Explains s (decodeSyndrome s) := by
  by_cases hclean : s = (0, 0, 0, 0)
  · rw [hclean, decodeSyndrome_zero]; rfl
  by_cases hpoison : s = (0, 1, 1, 0)
  · rw [hpoison, decodeSyndrome_poison]; rfl
  by_cases hs : s.1 = 0
  · rw [decodeSyndrome_at_infinity hs hclean hpoison]
    split
    next h12 =>
      obtain ⟨s0, s1, s2, s3⟩ := s
      obtain ⟨rfl, rfl⟩ : s1 = 0#4 ∧ s2 = 0#4 := h12
      obtain rfl : s0 = 0#4 := hs
      exact ⟨s3, 1, fun h => hclean (by rw [h]; rfl), by decide, by simp [gf4Scale, checkColumn]⟩
    · trivial
  · rw [eq_gf4Scale_point hs]
    exact explains_point hs

theorem explains_of_decodeSyndrome {o : EccOutcome} (h : decodeSyndrome s = o) : Explains s o := h ▸ explains_decodeSyndrome s

end Decoding

/-! ### The quadric (R260): no two columns add up to a multiple of a third -/

section Quadric
variable {u v : Gf4}

/-- The quadratic form that is zero on every column, and its polar form. -/
def quadForm (u : Gf4) : BitVec 4 := gfMul u.1 u.2.2.2 ^^^ quadric u.2.1 u.2.2.1
def polarForm (u v : Gf4) : BitVec 4 :=
  gfMul u.1 v.2.2.2 ^^^ gfMul v.1 u.2.2.2 ^^^ gfMul u.2.1 v.2.2.1 ^^^ gfMul v.2.1 u.2.2.1

theorem quadric_xor (x y x' y' : BitVec 4) :
    quadric (x ^^^ x') (y ^^^ y') = quadric x y ^^^ quadric x' y' ^^^ gfMul x y' ^^^ gfMul x' y := by
  rw [quadric, gfMul_self_xor x, gfMul_self_xor y, quadric, quadric]
  simp only [gfMul_xor, xor_gfMul]
  ac_rfl

theorem quadric_gfMul (k x y : BitVec 4) : quadric (gfMul k x) (gfMul k y) = gfMul (gfMul k k) (quadric x y) := by
  simp only [quadric, gfMul_xor, gfMul_gfMul_gfMul_comm k _ k _, gfMul_left_comm gfBeta]

theorem quadForm_gf4Add (u v : Gf4) : quadForm (gf4Add u v) = quadForm u ^^^ quadForm v ^^^ polarForm u v := by
  simp only [quadForm, polarForm, gf4Add, quadric_xor, gfMul_xor, xor_gfMul]
  ac_rfl

theorem quadForm_gf4Scale (k : BitVec 4) (u : Gf4) : quadForm (gf4Scale k u) = gfMul (gfMul k k) (quadForm u) := by
  simp only [quadForm, gf4Scale, quadric_gfMul, gfMul_xor, gfMul_gfMul_gfMul_comm k _ k _]

theorem polarForm_gf4Scale (j k : BitVec 4) (u v : Gf4) :
    polarForm (gf4Scale j u) (gf4Scale k v) = gfMul (gfMul j k) (polarForm u v) := by
  simp only [polarForm, gf4Scale, gfMul_xor, gfMul_gfMul_gfMul_comm j _ k _, gfMul_gfMul_gfMul_comm k _ j _, gfMul_comm k j]

theorem quadForm_codeColumn : ∀ p < 36, quadForm (codeColumn p) = 0#4 := by decide +kernel

theorem polarForm_codeColumn : ∀ q < 36, ∀ p < q, polarForm (codeColumn p) (codeColumn q) ≠ 0#4 := by decide +kernel

/-- Errors in two symbols leave the quadric. -/
theorem quadForm_of_two_errors {p q : Nat} {e f : BitVec 4} (hpq : p < q) (hq : q < 36) (he : e ≠ 0#4) (hf : f ≠ 0#4) :
    quadForm (gf4Add (gf4Scale e (codeColumn p)) (gf4Scale f (codeColumn q))) ≠ 0#4 := by
  rw [quadForm_gf4Add, quadForm_gf4Scale, quadForm_gf4Scale, quadForm_codeColumn p (by omega), quadForm_codeColumn q hq, gfMul_zero,
    gfMul_zero, BitVec.xor_zero, BitVec.zero_xor, polarForm_gf4Scale]
  exact gfMul_ne_zero (gfMul_ne_zero he hf) (polarForm_codeColumn q hq p hpq)

/-- Off the quadric the decoder never names a symbol. -/
theorem decodeSyndrome_off_quadric {s : Gf4} (h : quadForm s ≠ 0#4) :
    decodeSyndrome s = .uncorrectable ∨ decodeSyndrome s = .poison := by
  have explained := explains_decodeSyndrome s
  cases ho : decodeSyndrome s with
  | uncorrectable => exact .inl rfl
  | poison => exact .inr rfl
  | clean =>
    rw [ho] at explained
    rw [show s = _ from explained] at h
    exact absurd (by decide +kernel) h
  | dataSym p e =>
    rw [ho] at explained
    obtain ⟨_, hp, rfl⟩ := explained
    have column : codeColumn p = dataColumn p := if_pos hp
    rw [quadForm_gf4Scale, ← column, quadForm_codeColumn p (by omega), gfMul_zero] at h
    exact absurd rfl h
  | checkSym =>
    rw [ho] at explained
    obtain ⟨e, j, _, hj, rfl⟩ := explained
    have column : codeColumn (32 + j) = checkColumn j := by rw [codeColumn, if_neg (by omega), Nat.add_sub_cancel_left]
    rw [quadForm_gf4Scale, ← column, quadForm_codeColumn (32 + j) (by omega), gfMul_zero] at h
    exact absurd rfl h

end Quadric

/-! ### The statement -/

theorem dataError_eq_zero {p : Nat} (hp : 32 ≤ p) (e : BitVec 4) : dataError p e = 0 := if_neg (Nat.not_lt.2 hp)

theorem fixSymbol_dataError {p : Nat} (hp : p < 32) (w : BitVec 128) (e : BitVec 4) : fixSymbol (w ^^^ dataError p e) p e = w := by
  rw [fixSymbol, dataError, if_pos hp, BitVec.xor_assoc, BitVec.xor_self, BitVec.xor_zero]

/-- Settles O41: the code is linear, so that the decoder sees the errors' columns alone; a multiple of one column it looks up, and the
sum of multiples of two columns lies off the quadric on which every column lies. -/
theorem symbolErrorsAreCorrectedOrDetected : Obligations.SymbolErrorsAreCorrectedOrDetected := by
  intro d hd c hc
  obtain rfl : d = dataError := funext fun p => funext (hd p)
  obtain rfl : c = checkError := funext fun j => funext (hc j)
  refine ⟨fun w x => ?linear, fun w p e hp he => ?single, fun w p q e f hpq hq he hf => ?double, fun x => ?table⟩
  case linear =>
    rw [syndrome_xor, syndrome_checkBits, gf4Add_cancel]
  case single =>
    dsimp only
    rw [eccDecode_eq, syndrome_of_change, syndrome_of_error hp, codeColumn]
    refine ⟨fun h => ⟨?_, fixSymbol_dataError h w e⟩, fun h => ⟨?_, ?_⟩⟩
    · rw [if_pos h, decodeSyndrome_dataColumn he h]
    · rw [if_neg (by omega), decodeSyndrome_checkColumn he (by omega)]
    · rw [dataError_eq_zero h]
      exact BitVec.xor_zero
  case double =>
    dsimp only
    rw [eccDecode_eq, BitVec.xor_assoc w, BitVec.xor_assoc (checkBits w), syndrome_of_change, dataSyndrome_xor, syndrome_xor,
      gf4Add_add_add_comm, syndrome_of_error (by omega), syndrome_of_error hq]
    exact decodeSyndrome_off_quadric (quadForm_of_two_errors hpq hq he hf)
  case table =>
    dsimp only
    rw [eccDecode_eq]
    refine ⟨⟨fun h => h ▸ decodeSyndrome_zero, explains_of_decodeSyndrome⟩,
      ⟨fun h => h ▸ decodeSyndrome_poison, explains_of_decodeSyndrome⟩, fun e p he hp => ⟨?_, ?_⟩,
      ⟨?_, explains_of_decodeSyndrome⟩⟩
    · intro h
      rw [h, decodeSyndrome_dataColumn he hp]
    · intro h
      obtain ⟨_, _, hs⟩ := explains_of_decodeSyndrome h
      exact hs
    · rintro ⟨e, j, he, hj, h⟩
      rw [h, decodeSyndrome_checkColumn he hj]

end Sys2Proof.Machine
end

section
/-!
What the decoder does to device memory when it meets a word (R263 to R265): accounts aside, it poisons the uncorrectable words, which
then decode as poison with the same data. Refutes the statement of the memory chapter about reads and writes, whose first clause
speaks of every table of check differences, in canonical form or not.
-/
namespace Sys2Proof.Machine
open Sys2Proof

/-! ### Accounts of errors leave memory alone (R263 to R265, R487) -/

section Accounts
variable {s : State}

/-- Memory and tiers without the counts and the log of what the decoders have met. -/
def MemTiers.unaccounted (t : MemTiers) : MemTiers :=
  { t with eccCnt := [], ueValid := false, ueSource := 0, ueAddr := 0, evCorrected := [], evStall := [] }

theorem mem_of_unaccounted {t u : MemTiers} (h : t.unaccounted = u.unaccounted) : t.mem = u.mem := by
  have stored := congrArg MemTiers.mem h
  exact stored

/-- In every part but memory itself and the accounts, `t` is as `u`; its memory is `m`. -/
def MemTiers.HasMem (t u : MemTiers) (m : Mem) : Prop := t.unaccounted = { u.unaccounted with mem := m }

theorem MemTiers.HasMem.mem {t u : MemTiers} {m : Mem} (h : t.HasMem u m) : t.mem = m := by
  have stored := congrArg MemTiers.mem h
  exact stored

theorem MemTiers.HasMem.trans {t u v : MemTiers} {m n : Mem} (h : t.HasMem u m) (k : u.HasMem v n) : t.HasMem v m := by
  unfold MemTiers.HasMem at *
  rw [h, k]

@[simp] theorem dryEvent_mem (e : Nat) : (dryEvent e s).mem = s.mem := by
  unfold dryEvent dryTriggerAt
  dsimp only
  split
  · rfl
  · split <;> rfl

@[simp] theorem sendLease_mem (fields : List (Nat × Nat × Nat)) : (sendLease fields s).mem = s.mem := by
  unfold sendLease tagFor
  dsimp only
  split <;> rfl

@[simp] theorem faultEvent_mem (code : Nat) (data : List Byte) : (faultEvent code data s).mem = s.mem := by
  unfold faultEvent
  dsimp only
  split
  · rw [sendEvent, sendLease_mem, dryEvent_mem]
  · rfl

theorem logUncorrectable_unaccounted (source a : Nat) :
    (logUncorrectable source a s).mem.unaccounted = s.mem.unaccounted := by
  unfold logUncorrectable
  dsimp only
  split
  · rfl
  · rw [faultEvent_mem, dryEvent_mem]
    rfl

theorem accountWord_unaccounted (source w : Nat) (o : EccOutcome) :
    (accountWord source w o s).mem.unaccounted = s.mem.unaccounted := by
  unfold accountWord
  dsimp only
  split
  · split <;> rfl
  · split
    · rw [logUncorrectable_unaccounted]
      split <;> rfl
    · rfl

theorem stall_unaccounted (who : Who) (a n : Nat) : (stall who a n s).mem.unaccounted = s.mem.unaccounted := by
  unfold stall
  dsimp only
  split <;> rfl

end Accounts

/-! ### The words that the decoder has met -/

section Met
variable {m : Mem} {s : State} {v w : Nat}

/-- Memory after the decoder has met word w: an uncorrectable word is poisoned. -/
def Mem.meet (m : Mem) (w : Nat) : Mem := if eccDecode (m.diffAt w) = .uncorrectable then m.poisonWord w else m

theorem checkWord_hasMem (source w : Nat) : (checkWord source s w).mem.HasMem s.mem (s.mem.mem.meet w) := by
  have kept := accountWord_unaccounted (s := s) source w (eccDecode (s.mem.mem.diffAt w))
  have stored := mem_of_unaccounted kept
  unfold checkWord Mem.meet
  dsimp only
  split
  · exact congr (congrArg (fun (t : MemTiers) (m : Mem) => { t with mem := m }) kept) (congrArg (Mem.poisonWord · w) stored)
  · exact kept

theorem checkWords_hasMem (source : Nat) (l : List Nat) (s : State) :
    (l.foldl (checkWord source) s).mem.HasMem s.mem (l.foldl Mem.meet s.mem.mem) := by
  induction l generalizing s with
  | nil => rfl
  | cons w l ih =>
    have one := checkWord_hasMem (s := s) source w
    have rest := ih (checkWord source s w)
    rw [one.mem] at rest
    exact rest.trans one

theorem memRead_hasMem (who : Who) (a n : Nat) (s : State) :
    (memRead who a n s).2.mem.HasMem s.mem ((wordsOf a n).foldl Mem.meet s.mem.mem) :=
  (stall_unaccounted who a n).trans (checkWords_hasMem ..)

/-- A write as memory sees it: the decoder meets the words at the edges first (R265). -/
theorem memWrite_mem (a : Nat) (bs : List Byte) (s : State) :
    (memWrite a bs s).mem.mem = (((edgeWords a bs.length).foldl Mem.meet s.mem.mem).write a bs).1 := by
  rw [← (checkWords_hasMem (readSource a) _ s).mem]
  exact MemTiers.markDirty_mem

end Met

/-! ### The refutation -/

/-- Two words in canonical order, poison, and before them in the table an uncorrectable one: no canonical form. -/
def unsortedMem : Mem := { bytes := [], diff := [(2, 0x00FF), (0, poisonDiff), (1, poisonDiff)] }

/-- Poisoning word 2 first sorts the table, so that word 1 is then entered behind word 0 and not before it. -/
theorem unsortedMem_write_order :
    (((edgeWords 24 16).foldl Mem.meet unsortedMem).write 24 (List.replicate 16 0)).1 ≠
      (unsortedMem.write 24 (List.replicate 16 0)).1 := by decide +kernel

/-- Refutes O42: a write of 16 bytes at address 24 covers words 1 and 2 in part, word 2 is uncorrectable and so poisoned before it is
merged. In a table of check differences that is not in canonical form this leaves the same differences in another order than the write
alone does, and the first clause asks for the same table. -/
theorem not_memoryReadsWhatWasWritten : ¬ Obligations.MemoryReadsWhatWasWritten := by
  rintro ⟨write, -⟩
  obtain ⟨same, -⟩ := write { State.reset with mem := { State.reset.mem with mem := unsortedMem } } 24 (List.replicate 16 0)
  rw [memWrite_mem, List.length_replicate] at same
  exact unsortedMem_write_order same

end Sys2Proof.Machine
end

section
/-!
Settles the statement of the memory chapter about its commands and the scrubbers (R256, R266 to R269, R439).
-/
namespace Sys2Proof.Machine
open Sys2Proof

/-! ### What a word decodes as (R262 to R264) -/

section Decode
variable {m n : Mem} {v w : Nat}

theorem EccOutcome.isPoison_iff {o : EccOutcome} : o.isPoison = true ↔ o = .poison ∨ o = .uncorrectable := by
  cases o <;> simp [EccOutcome.isPoison]

@[simp] theorem Mem.decode_snd : (m.decode w).2 = eccDecode (m.diffAt w) := by
  unfold Mem.decode
  split
  next h => exact h.symm
  next => rfl

/-- Where no data symbol is corrected, a word decodes to the data that it stores. -/
theorem Mem.decode_stored {o : EccOutcome} (h : eccDecode (m.diffAt w) = o) (ho : ∀ i e, o ≠ .dataSym i e) :
    m.decode w = (m.raw (16 * w) 16, o) := by
  unfold Mem.decode
  rw [h]
  split
  next i e => exact absurd rfl (ho i e)
  next => rfl

theorem Mem.decode_congr (hb : n.raw (16 * w) 16 = m.raw (16 * w) 16) (hd : n.diffAt w = m.diffAt w) : n.decode w = m.decode w := by
  simp only [Mem.decode, Mem.data, hb, hd]

theorem length_leBytes : ∀ n v : Nat, (leBytes n v).length = n
  | 0, _ => rfl
  | n + 1, v => congrArg Nat.succ (length_leBytes n (v / 256))

@[simp] theorem Mem.length_raw (a k : Nat) : (m.raw a k).length = k := by simp [Mem.raw]

theorem Mem.length_decode : (m.decode w).1.length = 16 := by
  unfold Mem.decode
  split
  · exact length_leBytes ..
  · exact Mem.length_raw ..

@[simp] theorem Mem.raw_setDiff (d : BitVec 16) (a k : Nat) : (m.setDiff w d).raw a k = m.raw a k := rfl

@[simp] theorem Mem.diffAt_setBytes {bs : List Byte} {a : Nat} : (m.setBytes a bs).diffAt w = m.diffAt w := by
  induction bs generalizing m a with
  | nil => rfl
  | cons b bs ih => exact ih

theorem Mem.raw_setBytes_same {bs : List Byte} {a : Nat} : (m.setBytes a bs).raw a bs.length = bs :=
  List.ext_getElem (by simp) fun i hi _ => by
    simp only [Mem.raw, List.getElem_map, List.getElem_range, Mem.byte_setBytes_eq (by simpa using hi)]

theorem Mem.raw_setBytes_other {bs : List Byte} {a b k : Nat} (h : b + k ≤ a ∨ a + bs.length ≤ b) :
    (m.setBytes a bs).raw b k = m.raw b k := by
  refine List.map_congr_left fun i hi => Mem.byte_setBytes_ne ?_
  have := List.mem_range.1 hi
  omega

theorem eccDecode_zero : eccDecode 0 = .clean := by decide +kernel

theorem eccDecode_poisonDiff : eccDecode poisonDiff = .poison := by decide +kernel

theorem Mem.decode_setDiff_ne (d : BitVec 16) (h : v ≠ w) : (m.setDiff w d).decode v = m.decode v :=
  Mem.decode_congr rfl (Mem.diffAt_setDiff_ne h)

/-- A poisoned word reads as poison with the stored data (R264). -/
theorem Mem.decode_poisonWord : (m.poisonWord w).decode w = (m.raw (16 * w) 16, .poison) := by
  have found : eccDecode ((m.poisonWord w).diffAt w) = .poison := by
    rw [Mem.poisonWord, Mem.diffAt_setDiff_eq, eccDecode_poisonDiff]
  exact Mem.decode_stored found nofun

theorem Mem.decode_meet_ne (h : v ≠ w) : (m.meet w).decode v = m.decode v := by
  unfold Mem.meet
  split
  · exact Mem.decode_setDiff_ne _ h
  · rfl

/-- An uncorrectable word that the decoder meets is poison with the same data from then on (R265). -/
theorem Mem.decode_meet_uncorrectable (h : (m.decode w).2 = .uncorrectable) : (m.meet w).decode w = ((m.decode w).1, .poison) := by
  rw [Mem.decode_snd] at h
  rw [Mem.meet, if_pos h, Mem.decode_poisonWord, Mem.decode_stored h nofun]

theorem Mem.meet_other (h : (m.decode w).2 ≠ .uncorrectable) : m.meet w = m := if_neg (Mem.decode_snd ▸ h)

end Decode

/-! ### Scrubbing (R266) -/

section Scrub
variable {m : Mem} {s : State} {v w : Nat}

/-- What a word decodes as once it has been scrubbed. -/
def scrubbed (d : List Byte × EccOutcome) : List Byte × EccOutcome :=
  (d.1, if d.2.isCorrected then .clean else if d.2 = .uncorrectable then .poison else d.2)

theorem scrubbed_scrubbed (d : List Byte × EccOutcome) : scrubbed (scrubbed d) = scrubbed d := by
  obtain ⟨bs, o⟩ := d
  cases o <;> rfl

theorem scrubbed_good {d : List Byte × EccOutcome} (h : d.2.isCorrected = true ∨ d.2 = .clean) : scrubbed d = (d.1, .clean) := by
  obtain ⟨bs, o⟩ := d
  cases o <;> simp [scrubbed, EccOutcome.isCorrected] at h ⊢

theorem scrubbed_poison {d : List Byte × EccOutcome} (h : d.2.isPoison = true) : (scrubbed d).2 = .poison := by
  obtain ⟨bs, o⟩ := d
  cases o <;> simp [scrubbed, EccOutcome.isCorrected, EccOutcome.isPoison] at h ⊢

/-- Memory after word w has been scrubbed. -/
def Mem.scrub (m : Mem) (w : Nat) : Mem :=
  if (m.decode w).2.isCorrected then (m.setBytes (16 * w) (m.decode w).1).setDiff w 0 else m.meet w

theorem Mem.decode_scrub_eq : (m.scrub w).decode w = scrubbed (m.decode w) := by
  unfold Mem.scrub scrubbed
  split
  case isTrue h =>
    have clean : eccDecode (((m.setBytes (16 * w) (m.decode w).1).setDiff w 0).diffAt w) = .clean := by
      rw [Mem.diffAt_setDiff_eq, eccDecode_zero]
    rw [Mem.decode_stored clean nofun, Mem.raw_setDiff, ← Mem.length_decode (m := m) (w := w), Mem.raw_setBytes_same]
  case isFalse h =>
    by_cases hu : (m.decode w).2 = .uncorrectable
    · rw [Mem.decode_meet_uncorrectable hu, if_pos hu]
    · rw [Mem.meet_other hu, if_neg hu]

theorem Mem.decode_scrub_ne (h : v ≠ w) : (m.scrub w).decode v = m.decode v := by
  unfold Mem.scrub
  split
  · rw [Mem.decode_setDiff_ne _ h]
    refine Mem.decode_congr (Mem.raw_setBytes_other ?_) Mem.diffAt_setBytes
    rw [Mem.length_decode]
    omega
  · exact Mem.decode_meet_ne h

theorem Mem.decode_foldl_scrub (l : List Nat) (m : Mem) (v : Nat) :
    (l.foldl Mem.scrub m).decode v = if v ∈ l then scrubbed (m.decode v) else m.decode v := by
  induction l generalizing m with
  | nil => rfl
  | cons w l ih =>
    rw [List.foldl_cons, ih]
    by_cases hw : v = w
    · subst hw
      simp only [Mem.decode_scrub_eq, scrubbed_scrubbed, ite_self, List.mem_cons_self, if_true]
    · simp only [Mem.decode_scrub_ne hw, List.mem_cons, hw, false_or]

theorem scrubWord_hasMem (source w : Nat) : (scrubWord source s w).mem.HasMem s.mem (s.mem.mem.scrub w) := by
  have met := checkWord_hasMem (s := s) source w
  unfold scrubWord Mem.scrub
  dsimp only
  split
  case isTrue h =>
    have stored : (checkWord source s w).mem.mem = s.mem.mem := by
      rw [met.mem, Mem.meet_other fun hu => by rw [hu] at h; cases h]
    rw [stored]
    exact congrArg (fun t : MemTiers => { t with mem := (s.mem.mem.setBytes (16 * w) (s.mem.mem.decode w).1).setDiff w 0 }) met
  case isFalse => exact met

theorem scrubWord_decode (source w v : Nat) :
    (scrubWord source s w).mem.mem.decode v = if v = w then scrubbed (s.mem.mem.decode w) else s.mem.mem.decode v := by
  rw [(scrubWord_hasMem source w).mem]
  split
  case isTrue h => rw [h, Mem.decode_scrub_eq]
  case isFalse h => exact Mem.decode_scrub_ne h

theorem scrubWords_hasMem (source : Nat) (l : List Nat) (s : State) :
    (l.foldl (scrubWord source) s).mem.HasMem s.mem (l.foldl Mem.scrub s.mem.mem) := by
  induction l generalizing s with
  | nil => rfl
  | cons w l ih =>
    have one := scrubWord_hasMem (s := s) source w
    have rest := ih (scrubWord source s w)
    rw [one.mem] at rest
    exact rest.trans one

end Scrub

/-! ### REFRESH_SLOT (R256, R266) -/

section Refresh
variable {s : State}

/-- The words of granule r of a pseudo-channel. -/
def granuleWords (c pc r : Nat) : List Nat := (List.range 16).map (granuleAddress c pc r / 16 + ·)

/-- A pseudo-channel scrubs its next granule. -/
def scrubGranule (c : Nat) (s : State) (pc : Nat) : State :=
  let r := Tab.get 0 s.mem.scrub (2 * c + pc)
  let t := (granuleWords c pc r).foldl (scrubWord 1) s
  { t with mem := { t.mem with scrub := Tab.set 0 t.mem.scrub (2 * c + pc) ((r + 1) % 1572864) } }

theorem execRefreshSlot_due {h : BitVec 10} (ht : s.now % battenTicks = 32 * (h.toNat % 16)) :
    execRefreshSlot h s = .next (scrubGranule h.toNat (scrubGranule h.toNat s 0) 1) := by
  simp only [execRefreshSlot, if_neg (not_not_intro ht), scrubGranule, granuleWords, List.foldl_map]
  rfl

theorem scrubGranule_mem (c pc : Nat) : (scrubGranule c s pc).mem.mem =
    (granuleWords c pc (Tab.get 0 s.mem.scrub (2 * c + pc))).foldl Mem.scrub s.mem.mem :=
  (scrubWords_hasMem 1 _ s).mem

theorem scrubGranule_scrub (c pc : Nat) : (scrubGranule c s pc).mem.scrub =
    Tab.set 0 s.mem.scrub (2 * c + pc) ((Tab.get 0 s.mem.scrub (2 * c + pc) + 1) % 1572864) := by
  have kept := congrArg MemTiers.scrub (scrubWords_hasMem 1 (granuleWords c pc (Tab.get 0 s.mem.scrub (2 * c + pc))) s)
  exact congrArg (Tab.set 0 · _ _) kept

/-- The words that both pseudo-channels of a channel scrub in one refresh slot. -/
def slotWords (s : State) (c : Nat) : List Nat :=
  granuleWords c 0 (Tab.get 0 s.mem.scrub (2 * c)) ++ granuleWords c 1 (Tab.get 0 s.mem.scrub (2 * c + 1))

theorem mem_slotWords {c w : Nat} : w ∈ slotWords s c ↔
    ∃ pc i, pc < 2 ∧ i < 16 ∧ granuleAddress c pc (Tab.get 0 s.mem.scrub (2 * c + pc)) / 16 + i = w := by
  simp only [slotWords, granuleWords, List.mem_append, List.mem_map, List.mem_range]
  constructor
  · rintro (⟨i, hi, rfl⟩ | ⟨i, hi, rfl⟩)
    · exact ⟨0, i, by decide, hi, rfl⟩
    · exact ⟨1, i, by decide, hi, rfl⟩
  · rintro ⟨pc, i, hpc, hi, rfl⟩
    obtain rfl | rfl : pc = 0 ∨ pc = 1 := by omega
    · exact .inl ⟨i, hi, rfl⟩
    · exact .inr ⟨i, hi, rfl⟩

theorem refreshSlot_decode (c v : Nat) : (scrubGranule c (scrubGranule c s 0) 1).mem.mem.decode v =
    if v ∈ slotWords s c then scrubbed (s.mem.mem.decode v) else s.mem.mem.decode v := by
  rw [scrubGranule_mem, scrubGranule_mem, scrubGranule_scrub, Tab.get_set_ne (by omega), ← List.foldl_append]
  exact Mem.decode_foldl_scrub ..

theorem refreshSlot_scrub_own (c : Nat) {pc : Nat} (hpc : pc < 2) :
    Tab.get 0 (scrubGranule c (scrubGranule c s 0) 1).mem.scrub (2 * c + pc) =
      (Tab.get 0 s.mem.scrub (2 * c + pc) + 1) % 1572864 := by
  rw [scrubGranule_scrub, scrubGranule_scrub]
  obtain rfl | rfl : pc = 0 ∨ pc = 1 := by omega
  · rw [Tab.get_set_ne (by omega), Tab.get_set_eq]
  · rw [Tab.get_set_eq, Tab.get_set_ne (by omega)]

theorem refreshSlot_scrub_other (c : Nat) {k : Nat} (h0 : k ≠ 2 * c) (h1 : k ≠ 2 * c + 1) :
    Tab.get 0 (scrubGranule c (scrubGranule c s 0) 1).mem.scrub k = Tab.get 0 s.mem.scrub k := by
  rw [scrubGranule_scrub, scrubGranule_scrub, Tab.get_set_ne h1]
  exact Tab.get_set_ne h0

end Refresh

/-! ### Owners of frames (R267, R439) -/

section Frames
variable {s : State}

/-- A write leaves every other key alone, whatever is read for an unlisted one. -/
theorem Tab.get_set_other {α : Type} [DecidableEq α] {d d' v : α} {t : Tab α} {j k : Nat} (h : j ≠ k) :
    Tab.get d' (Tab.set d t k v) j = Tab.get d' t j := by
  unfold Tab.set
  split
  · exact Tab.get_erase_ne h
  · rw [Tab.get_insert_ne h, Tab.get_erase_ne h]

/-- Gives the owner of one frame, unless it is scrub-pending. -/
def ownFrame (owner k : Nat) (s : State) : State :=
  if s.mem.scrubPending.contains k then s
  else { s with mem := s.mem.setFrame k { owner := owner, dirty := 0, track := false } }

theorem ownFrames_eq (owner f n : Nat) (s : State) :
    ownFrames owner f n s = (List.range n).foldl (fun s i => ownFrame owner (f + i) s) s := rfl

theorem ownFrame_pending {owner k : Nat} (h : k ∈ s.mem.scrubPending) : ownFrame owner k s = s :=
  if_pos (List.contains_iff_mem.2 h)

theorem ownFrame_given {owner k : Nat} (h : k ∉ s.mem.scrubPending) :
    ownFrame owner k s = { s with mem := s.mem.setFrame k { owner := owner, dirty := 0, track := false } } :=
  if_neg (mt List.contains_iff_mem.1 h)

theorem ownFrames_succ (owner f n : Nat) (s : State) :
    ownFrames owner f (n + 1) s = ownFrame owner (f + n) (ownFrames owner f n s) := by
  rw [ownFrames_eq, List.range_succ, List.foldl_append]
  rfl

/-- Giving owners writes the frame table and nothing else. -/
theorem ownFrames_writes_frames (owner f n : Nat) (s : State) :
    ∃ F, ownFrames owner f n s = { s with mem := { s.mem with frames := F } } := by
  induction n with
  | zero => exact ⟨_, rfl⟩
  | succ n ih =>
    obtain ⟨F, given⟩ := ih
    rw [ownFrames_succ, given]
    by_cases hp : f + n ∈ s.mem.scrubPending
    · exact ⟨F, ownFrame_pending hp⟩
    · exact ⟨_, ownFrame_given hp⟩

theorem ownFrames_frames_only (owner f n : Nat) (s : State) :
    ownFrames owner f n s = { s with mem := { s.mem with frames := (ownFrames owner f n s).mem.frames } } := by
  obtain ⟨F, given⟩ := ownFrames_writes_frames owner f n s
  rw [given]

theorem frame_setFrame_same {k : Nat} {e : Frame} (hset : s.mem.setRan.getLsbD (k / 0x60000) = false) :
    (s.mem.setFrame k e).frame k = e :=
  (if_neg (ne_true_of_eq_false hset)).trans Tab.get_set_eq

theorem frame_setFrame_other {j k : Nat} {e : Frame} (h : j ≠ k) : (s.mem.setFrame k e).frame j = s.mem.frame j :=
  congrArg (ite _ _) (Tab.get_set_other h)

theorem frame_ownFrames (owner f n k : Nat) (s : State) (hset : s.mem.setRan.getLsbD (k / 0x60000) = false) :
    (ownFrames owner f n s).mem.frame k =
      if f ≤ k ∧ k < f + n ∧ k ∉ s.mem.scrubPending then { owner := owner, dirty := 0, track := false } else s.mem.frame k := by
  induction n with
  | zero => exact (if_neg (by omega)).symm
  | succ n ih =>
    obtain ⟨F, given⟩ := ownFrames_writes_frames owner f n s
    rw [ownFrames_succ]
    by_cases hp : f + n ∈ s.mem.scrubPending
    · rw [ownFrame_pending (by rw [given]; exact hp), ih]
      exact ite_congr (propext ⟨fun ⟨lo, hi, hn⟩ => ⟨lo, by omega, hn⟩,
        fun ⟨lo, hi, hn⟩ => ⟨lo, by have : k ≠ f + n := (hn <| · ▸ hp); omega, hn⟩⟩) (fun _ => rfl) fun _ => rfl
    · rw [ownFrame_given (by rw [given]; exact hp)]
      by_cases hk : k = f + n
      · subst hk
        rw [if_pos ⟨Nat.le_add_right .., by omega, hp⟩]
        exact frame_setFrame_same (by rw [given]; exact hset)
      · refine (frame_setFrame_other hk).trans (ih.trans (ite_congr (propext ?_) (fun _ => rfl) fun _ => rfl))
        exact ⟨fun ⟨lo, hi, hn⟩ => ⟨lo, by omega, hn⟩, fun ⟨lo, hi, hn⟩ => ⟨lo, by omega, hn⟩⟩

end Frames

/-! ### Quotas (R269) -/

section Quotas
variable {s : State}

theorem setQuota_quota_same (c k : Nat) (q : Quota) : (s.setQuota c k q).quota c k = q := Tab.get_set_eq

theorem setQuota_quota_other {c k c' k' : Nat} (q : Quota) (hk : k < 3) (hk' : k' < 3) (h : (c', k') ≠ (c, k)) :
    (s.setQuota c k q).quota c' k' = s.quota c' k' :=
  Tab.get_set_ne fun e => h (by rw [Prod.mk.injEq]; omega)

end Quotas

/-! ### Allocation and lending (R267, R268) -/

/-- The set and size that MEM_ALLOC takes: whole frames of a compute set (R254, R268). -/
theorem allocFields_accepted {s : State} {set n : Nat} (hset : set < 32) (hran : s.mem.setRan.getLsbD set = false) (hn : n ≠ 0)
    (hmod : n % 65536 = 0) : ¬ (32 ≤ set ∨ s.mem.setRan.getLsbD set = true ∨ n = 0 ∨ n % 65536 ≠ 0) :=
  not_or.2 ⟨Nat.not_le.2 hset, not_or.2 ⟨ne_true_of_eq_false hran, not_or.2 ⟨hn, not_not_intro hmod⟩⟩⟩

/-- A context takes a range: its frames are given to it and charged, and the range is noted (R268, R269). -/
def tookRange (c f n : Nat) (s : State) : State :=
  let u := charge c 0 n (ownFrames c f (n / 65536) s)
  { u with mem := { u.mem with ranges := u.mem.ranges ++ [{ ctx := c, base := 65536 * f, len := n }] } }

/-- The range that MEM_LEND takes: whole frames of what a compute set can give (R253, R267). -/
theorem lendFields_accepted {s : State} {set base n : Nat} (hset : set < 32) (hran : s.mem.setRan.getLsbD set = false) (hn : n ≠ 0)
    (hmod : n % 65536 = 0) (hbase : base % 65536 = 0) (lo : (setFrames set).1 ≤ base / 65536)
    (hi : base + n ≤ 65536 * (setFrames set).2) :
    ¬ (32 ≤ set ∨ s.mem.setRan.getLsbD set = true ∨ n = 0 ∨ n % 65536 ≠ 0 ∨ base % 65536 ≠ 0 ∨ base / 65536 < (setFrames set).1 ∨
      65536 * (setFrames set).2 < base + n) :=
  not_or.2 ⟨Nat.not_le.2 hset, not_or.2 ⟨ne_true_of_eq_false hran, not_or.2 ⟨hn, not_or.2 ⟨not_not_intro hmod,
    not_or.2 ⟨not_not_intro hbase, not_or.2 ⟨Nat.not_lt.2 lo, Nat.not_lt.2 hi⟩⟩⟩⟩⟩⟩

theorem blocks_iff {l : List Nat} {lo hi : Nat} :
    (l.any fun f => decide (lo ≤ f ∧ f < hi)) = true ↔ ∃ f ∈ l, lo ≤ f ∧ f < hi := by
  simp only [List.any_eq_true, decide_eq_true_eq]

/-! ### SCRUB_FRAME_DONE (R439) -/

/-- Whose a frame is once it has been scrubbed: the first allocation's that waits for it, or nobody's. -/
def scrubOwner (s : State) (k : Nat) : Nat :=
  match s.mem.allocWaiting.find? (fun w => decide (w.base / 65536 ≤ k ∧ k < (w.base + w.len) / 65536)) with
  | some w => w.ctx
  | none => 259

theorem execScrubFrameDone_pending {s : State} {f : BitVec 24} (h : f.toNat ∈ s.mem.scrubPending) :
    execScrubFrameDone f s = .next (finishAllocs { memClear (65536 * f.toNat) 65536 s with mem := (
      ({ (memClear (65536 * f.toNat) 65536 s).mem with
          scrubPending := (memClear (65536 * f.toNat) 65536 s).mem.scrubPending.erase f.toNat } : MemTiers).setFrame f.toNat
        { owner := scrubOwner s f.toNat, dirty := 0, track := false }) }) :=
  if_neg (not_not_intro (List.contains_iff_mem.2 h))

/-- Settles O43: each command passes its guards one by one; a scrubber is a fold of `scrubWord`, which decodes as `scrubbed` says. -/
theorem memoryCommandsAndScrubbing : Obligations.MemoryCommandsAndScrubbing := by
  refine ⟨performs_of exec_memQuotaSet fun m a hv => ?quota, declines_of exec_memQuotaSet fun m a hw => ?quotaOver,
    performs_of_w exec_memAlloc fun m a hv => ?alloc, staysInFlight_of exec_memAlloc fun m a hv => ?allocWaits,
    declines_of_w exec_memAlloc fun m a hw => ?allocQuota, declines_of_w exec_memAlloc fun m a hw => ?allocFull,
    declines_of_w exec_memAlloc fun m a hw => ?allocBad, performs_of exec_memFree fun m a hv => ?free,
    declines_of exec_memFree fun m a hw => ?freeBusy, declines_of exec_memFree fun m a hw => ?freeBad,
    performs_of exec_memLend fun m a hv => ?lend, declines_of exec_memLend fun m a hw => ?lendFull,
    performs_of exec_memQuery fun m a hv => ?query, declines_of exec_memQuery fun m a hw => if_pos hw,
    fun s owner f n k hset => frame_ownFrames owner f n k s hset, fun s owner f n => ownFrames_frames_only owner f n s,
    fun s h => ?refresh, fun s word => ⟨fun h => if_pos h, fun h => if_neg h⟩, fun source w s => ?scrub, fun s f => ?frameDone⟩
  case quota =>
    obtain ⟨ht, hfits⟩ := hv
    exact ⟨_, _, (if_neg (Nat.not_le.2 ht)).trans (if_neg (Nat.not_lt.2 hfits)), rfl, setQuota_quota_same ..,
      fun c k hk hne => setQuota_quota_other _ ht hk hne, rfl⟩
  case quotaOver =>
    obtain ⟨ht, hover⟩ := hw
    exact (if_neg (Nat.not_le.2 ht)).trans (if_pos hover)
  case alloc =>
    obtain ⟨hset, hran, hn, hmod, hq, hfound⟩ := hv
    obtain ⟨f, hf⟩ := Option.isSome_iff_exists.1 hfound
    refine ⟨{ fields := [(8, 8, 65536 * f)], block := none }, tookRange (issuer m) f (mfld m 24 8) a,
      (if_neg (allocFields_accepted hset hran hn hmod)).trans ((if_neg (ne_true_of_eq_false hq)).trans (by rw [hf]; rfl)),
      fun f' hf' => ?_⟩
    obtain rfl := Option.some.inj (hf.symm.trans hf')
    exact ⟨rfl, rfl⟩
  case allocWaits =>
    obtain ⟨hset, hran, hn, hmod, hq, hnone, hfound⟩ := hv
    obtain ⟨f, hf⟩ := Option.isSome_iff_exists.1 hfound
    refine ⟨{ tookRange (issuer m) f (mfld m 24 8) a with mem := { (tookRange (issuer m) f (mfld m 24 8) a).mem with
        allocWaiting := (tookRange (issuer m) f (mfld m 24 8) a).mem.allocWaiting ++
          [{ input := m.input.toNat, slot := m.slot.toNat, ctx := issuer m, base := 65536 * f, len := mfld m 24 8 }] } },
      (if_neg (allocFields_accepted hset hran hn hmod)).trans ((if_neg (ne_true_of_eq_false hq)).trans (by rw [hnone, hf]; rfl)),
      fun f' hf' => ?_⟩
    obtain rfl := Option.some.inj (hf.symm.trans hf')
    rfl
  case allocQuota =>
    obtain ⟨hset, hran, hn, hmod, hq⟩ := hw
    exact (if_neg (allocFields_accepted hset hran hn hmod)).trans (if_pos hq)
  case allocFull =>
    obtain ⟨hset, hran, hn, hmod, hq, hnone, hpending⟩ := hw
    exact (if_neg (allocFields_accepted hset hran hn hmod)).trans ((if_neg (ne_true_of_eq_false hq)).trans (by rw [hnone, hpending]))
  case allocBad =>
    obtain hset | hn | hmod | hran := hw
    · exact if_pos (.inl hset)
    · exact if_pos (.inr (.inr (.inl hn)))
    · exact if_pos (.inr (.inr (.inr hmod)))
    · exact if_pos (.inr (.inl hran))
  case free =>
    obtain ⟨r, hr, huse⟩ := hv
    simp only [hr, huse]
    refine ⟨_, _, rfl, fun r' hr' => ?_⟩
    cases hr'
    obtain ⟨F, given⟩ := ownFrames_writes_frames 259 (r.base / 65536) (r.len / 65536) (memClear r.base r.len a)
    rw [freeRange, given]
    exact ⟨rfl, rfl, rfl, uncharge_usage ..⟩
  case freeBusy =>
    obtain ⟨r, hr, huse⟩ := hw
    simp only [hr, huse]
    rfl
  case freeBad =>
    have unknown : a.mem.ranges.find? (fun r => r.ctx == issuer m && r.base == mfld m 16 8) = none :=
      List.find?_eq_none.2 fun r hr => by simpa using hw r hr
    simp only [unknown, refuse]
  case lend =>
    obtain ⟨hset, hran, hn, hmod, hbase, lo, hi, hfits, hfree⟩ := hv
    refine ⟨_, _, (if_neg (lendFields_accepted hset hran hn hmod hbase lo hi)).trans (if_neg ?_), rfl, rfl⟩
    rw [blocks_iff]
    rintro (hover | ⟨f, hf, hlo, hhi⟩)
    · omega
    · have := hfree f hf
      omega
  case lendFull =>
    obtain ⟨hset, hran, hn, hmod, hbase, lo, hi, hfull⟩ := hw
    exact (if_neg (lendFields_accepted hset hran hn hmod hbase lo hi)).trans (if_pos (hfull.imp_right blocks_iff.2))
  case query => exact ⟨_, _, if_neg (by omega), rfl, rfl⟩
  case refresh =>
    refine ⟨fun ht => if_pos ht, fun ht => ⟨_, execRefreshSlot_due ht, fun pc hpc => refreshSlot_scrub_own _ hpc,
      fun k h0 h1 => refreshSlot_scrub_other _ h0 h1, fun pc i hpc hi => ?_, fun w hw => ?_⟩⟩
    · dsimp only
      rw [refreshSlot_decode, if_pos (mem_slotWords.2 ⟨pc, i, hpc, hi, rfl⟩)]
      exact ⟨scrubbed_good, scrubbed_poison⟩
    · rw [refreshSlot_decode, if_neg fun h => ?_]
      obtain ⟨pc, i, hpc, hi, e⟩ := mem_slotWords.1 h
      exact hw pc i hpc hi e.symm
  case scrub =>
    refine ⟨fun hd => ?_, fun hd => ?_, fun v hv => ?_⟩
    · rw [scrubWord_decode, if_pos rfl, scrubbed_good hd]
    · rw [scrubWord_decode, if_pos rfl, scrubbed_poison hd]
    · rw [scrubWord_decode, if_neg hv]
  case frameDone =>
    refine ⟨fun h => if_pos (mt List.contains_iff_mem.1 h), fun h => ⟨scrubOwner s f.toNat, _, fun w hw => ?_, fun hw => ?_, rfl,
      execScrubFrameDone_pending h⟩⟩
    · rw [scrubOwner, hw]
    · rw [scrubOwner, hw]

end Sys2Proof.Machine
end

section
/-!
Settles the statement of the memory chapter about the TIER commands, MEM_REMOTE_ATTACH and FLASH_FORMAT (R269 to R281, R500, R501).
-/
namespace Sys2Proof.Machine
open Sys2Proof

/-! ### Memory accesses and transfers leave the regions alone -/

section Regions
variable {s : State}

theorem MemTiers.HasMem.regions {t u : MemTiers} {m : Mem} (h : t.HasMem u m) : t.regions = u.regions := by
  have kept := congrArg MemTiers.regions h
  exact kept

theorem MemTiers.HasMem.jobs {t u : MemTiers} {m : Mem} (h : t.HasMem u m) : t.jobs = u.jobs := by
  have kept := congrArg MemTiers.jobs h
  exact kept

theorem regions_foldl {β : Type} {f : State → β → State} (hf : ∀ s b, (f s b).mem.regions = s.mem.regions) (l : List β)
    (s : State) :
    (l.foldl f s).mem.regions = s.mem.regions :=
  foldl_leaves (view := fun s => s.mem.regions) (fun s b _ => hf s b) s

@[simp] theorem checkRange_regions (source a n : Nat) : (checkRange source a n s).mem.regions = s.mem.regions :=
  (checkWords_hasMem ..).regions

@[simp] theorem memRead_regions (who : Who) (a n : Nat) : (memRead who a n s).2.mem.regions = s.mem.regions :=
  (memRead_hasMem ..).regions

@[simp] theorem stall_regions (who : Who) (a n : Nat) : (stall who a n s).mem.regions = s.mem.regions := by
  unfold stall
  dsimp only
  split <;> rfl

@[simp] theorem markDirty_regions (t : MemTiers) (a n : Nat) : (t.markDirty a n).regions = t.regions := by
  unfold MemTiers.markDirty
  split
  · rfl
  · refine List.foldlRecOn _ _ (motive := fun u => MemTiers.regions u = t.regions) rfl fun u hu i _ => ?_
    dsimp only
    split
    · exact hu
    · exact hu

@[simp] theorem memWrite_regions (a : Nat) (bs : List Byte) : (memWrite a bs s).mem.regions = s.mem.regions :=
  (markDirty_regions _ _ _).trans (checkWords_hasMem (readSource a) (edgeWords a bs.length) s).regions

@[simp] theorem memPoison_regions (a n : Nat) : (memPoison a n s).mem.regions = s.mem.regions := markDirty_regions ..

@[simp] theorem memWriteP_regions (a : Nat) (bs : List Byte) (poison : Bool) :
    (memWriteP a bs poison s).mem.regions = s.mem.regions := by
  unfold memWriteP
  dsimp only
  split <;> simp

@[simp] theorem homeWriteWord_regions (a be : Nat) (w : BitVec 144) : (homeWriteWord a be w s).2.mem.regions = s.mem.regions := by
  unfold homeWriteWord
  dsimp only
  split
  · exact memWriteP_regions ..
  · have bytes := regions_foldl (f := fun s i => if bitAt be i = true then
        memWrite (a + i) [(leBytes 16 (readWord w).1.toNat).getD i 0] s else s)
      (fun s i => by split <;> simp) (List.range 16) s
    split
    · rw [memPoison_regions, bytes]
    · exact bytes

@[simp] theorem homeWrite_regions (who : Who) (a n firstBe lastBe : Nat) (ws : List (BitVec 144)) :
    (homeWrite who a n firstBe lastBe ws s).2.mem.regions = s.mem.regions := by
  unfold homeWrite
  exact List.foldlRecOn _ _ (motive := fun p : Bool × State => p.2.mem.regions = s.mem.regions) (stall_regions ..) fun p hp i _ =>
    (homeWriteWord_regions ..).trans hp

@[simp] theorem storeRace_regions (mine : Nat → Bool) (a n : Nat) : (storeRace mine a n s).mem.regions = s.mem.regions := by
  unfold storeRace
  split <;> rfl

@[simp] theorem tierSpend_regions (ctx : Nat) (l : List Nat) : (tierSpend ctx l s).2.mem.regions = s.mem.regions := rfl
@[simp] theorem spendPage_regions (key : Nat) (l : List Nat) : (spendPage key l s).mem.regions = s.mem.regions := rfl
@[simp] theorem setXfer_regions (n : Nat) (x : Option Xfer) : (s.setXfer n x).mem.regions = s.mem.regions := rfl

@[simp] theorem spendPiece_regions (x : Xfer) : (spendPiece x s).mem.regions = s.mem.regions := by
  unfold spendPiece
  split
  · split <;> simp
  · rfl

@[simp] theorem stopXfer_regions (n st : Nat) : (stopXfer n st s).mem.regions = s.mem.regions := by
  unfold stopXfer
  split <;> rfl

@[simp] theorem landPiece_regions (n : Nat) (x : Xfer) (i : Nat) (ws : List (BitVec 144)) :
    (landPiece s n x i ws).mem.regions = s.mem.regions := by
  unfold landPiece
  dsimp only
  split
  · exact (regions_foldl (fun s w => memWriteP_regions ..) _ _).trans (spendPage_regions ..)
  · rfl

@[simp] theorem numberRequest_mem (owner : Nat) : (numberRequest owner s).mem = s.mem := by
  unfold numberRequest
  split
  · split <;> rfl
  · split <;> rfl

theorem routePacket_mem (dst off : Nat) (p : Pkt) (avoid : Option Nat) : (routePacket dst off p avoid s).2.mem = s.mem := by
  unfold routePacket
  split <;> rfl

theorem sendRequest_mem {req : Requester} {owner vc a len op loc atop size : Nat} {ret : Bool} {payload : List (BitVec 144)}
    {poison : Bool} {t : State} (h : sendRequest req owner vc a len op loc atop size ret payload poison s = some t) :
    t.mem = s.mem := by
  unfold sendRequest sendRequestVia at h
  dsimp only at h
  split at h
  · cases h
  split at h
  · cases h
  · cases h
    rw [fabCount_mem, numberRequest_mem, updFab_mem]
    split
    · rfl
    · exact routePacket_mem ..

theorem homeRead_regions (who : Who) (a n : Nat) : (homeRead who a n s).2.2.mem.regions = s.mem.regions := memRead_regions ..

/-- The state that a pair carries has the regions of `s`. -/
def KeepsRegions {α : Type} (s : State) (p : α × State) : Prop := p.2.mem.regions = s.mem.regions

theorem KeepsRegions.pair {α : Type} {a : α} {t : State} (h : t.mem.regions = s.mem.regions) : KeepsRegions s (a, t) := h

theorem KeepsRegions.ite {α : Type} {c : Prop} [Decidable c] {p q : α × State} (hp : KeepsRegions s p) (hq : KeepsRegions s q) :
    KeepsRegions s (if c then p else q) := by
  split
  · exact hp
  · exact hq

theorem pumpOne_regions (n : Nat) (s : State) : KeepsRegions s (pumpOne n s) := by
  unfold pumpOne
  split
  · exact .pair rfl
  refine .ite (.pair rfl) (.ite (.pair (stopXfer_regions ..)) (.ite (.ite (.pair (stopXfer_regions ..))
    (.ite (.pair ?read) (.pair ?write))) ?sent))
  case read => rw [landPiece_regions, setXfer_regions, homeRead_regions, spendPiece_regions]
  case write => rw [setXfer_regions, homeWrite_regions, storeRace_regions, spendPiece_regions]
  case sent =>
    split
    · exact .pair rfl
    next hs => exact .pair (by rw [setXfer_regions, spendPiece_regions, sendRequest_mem hs])

theorem pumpXfer_regions (k n : Nat) (s : State) : (pumpXfer k n s).mem.regions = s.mem.regions := by
  induction k generalizing s with
  | zero => rfl
  | succ k ih =>
    have one := pumpOne_regions n s
    unfold pumpXfer
    split
    next h =>
      rw [h] at one
      exact (ih _).trans one
    next h =>
      rw [h] at one
      exact one

/-- Starting a transfer leaves the regions alone. -/
@[simp] theorem startXfer_regions (x : Xfer) : (startXfer x s).mem.regions = s.mem.regions := pumpXfer_regions ..

end Regions

/-! ### A region that has been created (R269, R270) -/

section Create
variable {s u : State} {ctx pages home id : Nat} {step : Bool}

@[simp] theorem charge_regions (c t n : Nat) : (charge c t n s).mem.regions = s.mem.regions := rfl
@[simp] theorem setPage_regions (key : Nat) (p : Page) : (s.setPage key p).mem.regions = s.mem.regions := rfl
@[simp] theorem memClear_regions (a n : Nat) : (memClear a n s).mem.regions = s.mem.regions := rfl

@[simp] theorem ownFrames_regions (owner f n : Nat) : (ownFrames owner f n s).mem.regions = s.mem.regions := by
  rw [ownFrames_frames_only]

@[simp] theorem zeroArea_regions (id : Nat) : (zeroArea id s).mem.regions = s.mem.regions := by
  unfold zeroArea
  dsimp only
  split
  · exact startXfer_regions _
  · rfl

/-- What a creation answers: if it succeeds, the next identifier and a state where a region with the given owner, pages and home stands
under it. -/
def Created (s : State) (ctx pages home : Nat) (p : Nat × Nat × State) : Prop :=
  p.1 = stOk → p.2.1 = s.mem.nextRegion ∧ ∃ r : Region, p.2.2.mem.regions = Tab.set Region.none s.mem.regions p.2.1 r ∧
    r.ctx = ctx ∧ r.count = pages ∧ r.home = home

theorem Created.refused {st : Nat} (h : st ≠ stOk) : Created s ctx pages home (st, id, u) := fun hok => absurd hok h

theorem Created.ite {c : Prop} [Decidable c] {p q : Nat × Nat × State} (hp : Created s ctx pages home p)
    (hq : Created s ctx pages home q) : Created s ctx pages home (if c then p else q) := by
  split
  · exact hp
  · exact hq

theorem createRegion_created (tpn : Option Nat) : Created s ctx pages home (createRegion ctx pages home step tpn s) := by
  unfold createRegion
  split
  · exact .refused (by decide)
  refine .ite (.refused (by decide)) (.ite (.refused (by decide)) (.ite (.refused (by decide)) ?_))
  extract_lets area frames
  clear_value area frames
  split
  · exact .refused (by decide)
  refine .ite (.refused (by decide)) fun _ => ⟨rfl, ?region, ?entered, ?owner, ?count, ?home⟩
  case entered =>
    dsimp only
    rw [apply_ite State.mem, apply_ite MemTiers.regions, regions_foldl fun s i => setPage_regions .., ite_self,
      regions_foldl fun s f => by rw [setPage_regions, ownFrames_regions, memClear_regions], charge_regions]
    rfl
  all_goals rfl

end Create

/-! ### Jobs that are submitted (R278) -/

section Submit
variable {s u : State} {m n : Mem}

theorem Mem.bytesAt_congr (h : ∀ w, (n.decode w).1 = (m.decode w).1) (a k : Nat) : n.bytesAt a k = m.bytesAt a k := by
  simp only [Mem.bytesAt, h]

theorem Mem.decode_meet_fst (m : Mem) (w v : Nat) : ((m.meet w).decode v).1 = (m.decode v).1 := by
  by_cases hv : v = w
  · subst hv
    by_cases hu : (m.decode v).2 = .uncorrectable
    · rw [Mem.decode_meet_uncorrectable hu]
    · rw [Mem.meet_other hu]
  · rw [Mem.decode_meet_ne hv]

theorem Mem.bytesAt_foldl_meet (l : List Nat) (m : Mem) (a k : Nat) : (l.foldl Mem.meet m).bytesAt a k = m.bytesAt a k :=
  List.foldlRecOn l Mem.meet (motive := fun n => n.bytesAt a k = m.bytesAt a k) rfl fun n hn w _ =>
    (Mem.bytesAt_congr (Mem.decode_meet_fst n w) a k).trans hn

/-- A job of a context, with its waiter, has joined the queue; every byte of memory reads as before. -/
def JobQueued (ctx : Nat) (w : Option (Nat × Nat)) (s t : State) : Prop :=
  ∃ j : TierJob, j.ctx = ctx ∧ j.waiter = w ∧ t.mem.jobs = s.mem.jobs ++ [j] ∧
    ∀ y, t.mem.mem.bytesAt y 1 = s.mem.mem.bytesAt y 1

/-- A state whose queue and bytes are those of `s`, as submitting a job has it before the job is added. -/
def SameQueue (s u : State) : Prop := u.mem.jobs = s.mem.jobs ∧ ∀ y, u.mem.mem.bytesAt y 1 = s.mem.mem.bytesAt y 1

theorem JobQueued.add {ctx : Nat} {w : Option (Nat × Nat)} {j : TierJob} (hctx : j.ctx = ctx) (hw : j.waiter = w) (h : SameQueue s u) :
    JobQueued ctx w s (updMem (fun m => { m with jobs := m.jobs ++ [j] }) u) :=
  ⟨j, hctx, hw, congrArg (· ++ [j]) h.1, h.2⟩

theorem JobQueued.ite {ctx : Nat} {w : Option (Nat × Nat)} {c : Prop} [Decidable c] {t v : State} (ht : JobQueued ctx w s t)
    (hv : JobQueued ctx w s v) : JobQueued ctx w s (if c then t else v) := by
  split
  · exact ht
  · exact hv

theorem SameQueue.memRead (who : Who) (a n : Nat) (h : SameQueue s u) : SameQueue s (memRead who a n u).2 := by
  obtain ⟨jobs, bytes⟩ := h
  have read := memRead_hasMem who a n u
  exact ⟨read.jobs.trans jobs, fun y => by rw [read.mem, Mem.bytesAt_foldl_meet, bytes]⟩

theorem SameQueue.tierSpend (ctx : Nat) (l : List Nat) (h : SameQueue s u) : SameQueue s (tierSpend ctx l u).2 := h

theorem SameQueue.markBusy (k : Nat) (regs : List (Nat × Region)) (h : SameQueue s u) :
    SameQueue s (if k = 0 then u else regs.foldl (fun s e => updMem (fun m => { m with
      regions := Tab.set Region.none m.regions e.1 { e.2 with busy := k } }) s) u) := by
  split
  · exact h
  · exact List.foldlRecOn regs _ (motive := SameQueue s) h fun _ hv _ _ => hv

/-- Whatever a record says, a job of its context joins the queue. -/
theorem submitJob_queues (b : List Byte) (ctx : Nat) (w : Option (Nat × Nat)) (s : State) :
    JobQueued ctx w s (submitJob b ctx w s) := by
  have same : SameQueue s s := ⟨rfl, fun _ => rfl⟩
  have read : ∀ l a n, SameQueue s (memRead ctx a n (tierSpend ctx l s).2).2 := fun l a n => (same.tierSpend ctx l).memRead ctx a n
  unfold submitJob
  exact .ite (.add rfl rfl same) (.ite (.add rfl rfl (read ..)) (.ite (.add rfl rfl (read ..)) (.add rfl rfl ((read ..).markBusy ..))))

end Submit

/-! ### What the commands check -/

section Checks
variable {s : State} {m : Mbx}

/-- A page that keeps its region from being destroyed (R271, Table 9.8): pinned, being written back or being fetched. -/
theorem pageHeld_iff (p : Page) :
    (p.pin != 0 || p.state == 5 || p.state == 2) = true ↔ p.pin ≠ 0 ∨ p.state = 5 ∨ p.state = 2 := by
  simp only [Bool.or_eq_true, bne_iff_ne, beq_iff_eq, or_assoc]

theorem poolWithin_iff {l : List Range} {c base n : Nat} :
    (l.any fun r => r.ctx == c && decide (r.base ≤ base ∧ base + n ≤ r.base + r.len)) = true ↔
      ∃ r ∈ l, r.ctx = c ∧ r.base ≤ base ∧ base + n ≤ r.base + r.len := by
  simp only [List.any_eq_true, Bool.and_eq_true, beq_iff_eq, decide_eq_true_eq]

theorem regionFields_accepted {pages home flags : Nat} (hpages : pages ≠ 0) (hhome : home < 3) (hflags : flags < 2) :
    ¬ (pages = 0 ∨ 3 ≤ home ∨ 2 ≤ flags) := by omega

theorem flashUsed_iff :
    ((List.range 256).any fun c => decide ((s.quota c 2).usage ≠ 0)) = true ↔ ∃ c, c < 256 ∧ (s.quota c 2).usage ≠ 0 := by
  simp only [List.any_eq_true, List.mem_range, decide_eq_true_eq]

theorem attachFields_accepted {h win off n : Nat} (hh : h < 16384) (hhall : h / 64 = s.fab.hall / 64) (hwin : win < 4096)
    (hoff : off % 65536 = 0) (hn : n ≠ 0) (hmod : n % 65536 = 0) (hend : off + n ≤ hbmEnd) :
    ¬ (16384 ≤ h ∨ h / 64 ≠ s.fab.hall / 64 ∨ 4096 ≤ win ∨ off % 65536 ≠ 0 ∨ n = 0 ∨ n % 65536 ≠ 0 ∨ hbmEnd < off + n) :=
  not_or.2 ⟨Nat.not_le.2 hh, not_or.2 ⟨not_not_intro hhall, not_or.2 ⟨Nat.not_le.2 hwin, not_or.2 ⟨not_not_intro hoff,
    not_or.2 ⟨hn, not_or.2 ⟨not_not_intro hmod, Nat.not_lt.2 hend⟩⟩⟩⟩⟩⟩

theorem flash_unused (h : ∀ c, c < 256 → (s.quota c 2).usage = 0) :
    ¬ ((List.range 256).any fun c => decide ((s.quota c 2).usage ≠ 0)) = true :=
  mt flashUsed_iff.1 fun ⟨c, hc, hused⟩ => hused (h c hc)

/-- What FLASH_FORMAT refuses about the geometries (R279). -/
def GeomsBad (g : FlashGeom) (gs : List FlashGeom) : Prop :=
  (g :: gs).length ≠ 256 ∨ ((g :: gs).any (· != g)) = true ∨ ¬ geomOk g = true ∨ 64 * 10 ^ 12 < 256 * geomBytes g ∨
    8 * g.blocks.toNat * g.luns.toNat * g.pages.toNat = 0

theorem geoms_accepted {g : FlashGeom} {gs : List FlashGeom} (hlen : (g :: gs).length = 256) (halike : ∀ h ∈ gs, h = g)
    (hgeom : geomOk g = true) (hcap : 256 * geomBytes g ≤ 64 * 10 ^ 12)
    (hrows : 8 * g.blocks.toNat * g.luns.toNat * g.pages.toNat ≠ 0) : ¬ GeomsBad g gs := by
  rintro (h | h | h | h | h)
  · exact h hlen
  · obtain ⟨g', hg', differs⟩ := List.any_eq_true.1 h
    obtain rfl | hg' := List.mem_cons.1 hg'
    · exact bne_iff_ne.1 differs rfl
    · exact bne_iff_ne.1 differs (halike g' hg')
  · exact h hgeom
  · exact Nat.not_lt.2 hcap h
  · exact hrows h

theorem geoms_refused {g : FlashGeom} {gs : List FlashGeom}
    (h : (g :: gs).length ≠ 256 ∨ (∃ x ∈ g :: gs, geomOk x = false) ∨ ∃ x ∈ g :: gs, ∃ y ∈ g :: gs, x ≠ y) : GeomsBad g gs := by
  have differs : ∀ x ∈ g :: gs, x ≠ g → GeomsBad g gs := fun x hx hne =>
    .inr (.inl (List.any_eq_true.2 ⟨x, hx, bne_iff_ne.2 hne⟩))
  obtain hlen | ⟨x, hx, hgeom⟩ | ⟨x, hx, y, hy, hne⟩ := h
  · exact .inl hlen
  · by_cases he : x = g
    · exact .inr (.inr (.inl (he ▸ ne_true_of_eq_false hgeom)))
    · exact differs x hx he
  · by_cases he : x = g
    · exact differs y hy fun he' => hne (he.trans he'.symm)
    · exact differs x hx he

theorem bitAt_zero_iff {v : Nat} (h : v < 2) : bitAt v 0 = true ↔ v = 1 := by
  obtain rfl | rfl : v = 0 ∨ v = 1 := by omega
  · decide
  · decide

/-- The check of TIER_REGION_ADOPT that no region of the context has one of the TPNs passes when they are all apart (R501). -/
theorem tpns_free {c first pages : Nat}
    (h : ∀ g ∈ s.mem.regions, g.2.ctx = c → first + pages ≤ g.2.firstTpn ∨ g.2.firstTpn + g.2.count ≤ first) :
    ¬ (((s.mem.regions.filter fun e => e.2.ctx == c).map Prod.snd).any fun r =>
      decide (first < r.firstTpn + r.count ∧ r.firstTpn < first + pages)) = true := by
  simp only [List.any_eq_true, List.mem_map, List.mem_filter, beq_iff_eq, decide_eq_true_eq]
  rintro ⟨_, ⟨g, ⟨hg, hc⟩, rfl⟩, lo, hi⟩
  have := h g hg hc
  omega

end Checks

/-- Settles O44: each command passes its guards one by one; creation and submission are characterised by `createRegion_created` and
`submitJob_queues`. -/
theorem tierCommandsPerform : Obligations.TierCommandsPerform := by
  refine ⟨performs_of exec_tierRegionCreate fun m a hv => ?create, declines_of exec_tierRegionCreate fun m a hw => if_pos hw,
    fun st hst => declines_of exec_tierRegionCreate fun m a hw => ?createRefused,
    performs_of exec_tierRegionDestroy fun m a hv => ?destroy, declines_of exec_tierRegionDestroy fun m a hw => ?destroyBusy,
    declines_of exec_tierRegionDestroy fun m a hw => ?destroyBad,
    performs_of exec_tierPoolSet fun m a hv => ?pool, declines_of exec_tierPoolSet fun m a hw => ?poolBad,
    declines_of exec_tierPoolSet fun m a hw => ?poolBusy,
    staysInFlight_of exec_tierJob fun m a _ => ⟨_, rfl, rfl⟩, staysInFlight_of exec_tierCommit fun m a _ => ⟨_, rfl, rfl⟩,
    staysInFlight_of exec_tierDiscard fun m a _ => ⟨_, rfl, rfl⟩, submitJob_queues,
    performs_of exec_memRemoteAttach fun m a hv => ?attach, declines_of exec_memRemoteAttach fun m a hw => ?attachWindow,
    fun g gs hlen heq hgeom hcap hrows => ⟨performs_of (exec_flashFormat · (g :: gs)) fun m a hv => ?format,
      declines_of (exec_flashFormat · (g :: gs)) fun m a hw => ?formatBusy⟩,
    fun m gs s hok hfield hne husage hbad => ?formatBad,
    staysInFlight_of exec_tierRegionAdopt fun m a hv => ?adopt⟩
  case create =>
    obtain ⟨hpages, hhome, hflags, hok⟩ := hv
    obtain ⟨⟨st, id, u⟩, he⟩ : ∃ p, createRegion (issuer m) (mfld m 16 4) (mfld m 20 1) (bitAt (mfld m 21 1) 0) none a = p := ⟨_, rfl⟩
    obtain rfl : st = stOk := by rw [he] at hok; exact hok
    refine ⟨_, zeroArea id u, (if_neg (regionFields_accepted hpages hhome hflags)).trans (by rw [he]; rfl), fun id' u' he' => ?_⟩
    obtain ⟨rfl, rfl⟩ : id = id' ∧ u = u' := by simpa using he.symm.trans he'
    have created := createRegion_created (s := a) (ctx := issuer m) (pages := mfld m 16 4) (home := mfld m 20 1)
      (step := bitAt (mfld m 21 1) 0) none
    rw [he] at created
    obtain ⟨next, r, entered, hctx, hcount, hhome⟩ := created rfl
    rw [zeroArea_regions, entered, Tab.get_set_eq]
    exact ⟨rfl, next, rfl, hctx, hcount, hhome⟩
  case createRefused =>
    obtain ⟨hpages, hhome, hflags, hc⟩ := hw
    obtain ⟨p, he⟩ : ∃ p, createRegion (issuer m) (mfld m 16 4) (mfld m 20 1) (bitAt (mfld m 21 1) 0) none a = p := ⟨_, rfl⟩
    rw [he] at hc
    refine (if_neg (regionFields_accepted hpages hhome hflags)).trans ?_
    rw [he]
    exact (if_pos (hc ▸ hst)).trans (by rw [hc]; rfl)
  case destroy =>
    obtain ⟨r, hr, hbusy, hused, hkeys⟩ := hv
    have free : ¬ (((regionKeys r).any fun k => (a.page k).pin != 0 || (a.page k).state == 5 || (a.page k).state == 2) = true ∨
        r.busy ≠ 0 ∨ regionUsed a (mfld m 16 4) = true) := by
      rintro (h | h | h)
      · obtain ⟨k, hk, held⟩ := List.any_eq_true.1 h
        obtain ⟨hpin, hback, hfetch⟩ := hkeys k hk
        obtain h | h | h := (pageHeld_iff _).1 held
        · exact h hpin
        · exact hback h
        · exact hfetch h
      · exact h hbusy
      · exact ne_true_of_eq_false hused h
    refine ⟨Result.none, dropRegion (mfld m 16 4) a, ?_, rfl, rfl⟩
    simp only [hr]
    exact if_neg free
  case destroyBusy =>
    obtain ⟨r, hr, hheld⟩ := hw
    have held : ((regionKeys r).any fun k => (a.page k).pin != 0 || (a.page k).state == 5 || (a.page k).state == 2) = true ∨
        r.busy ≠ 0 ∨ regionUsed a (mfld m 16 4) = true := by
      obtain h | h | ⟨k, hk, h⟩ := hheld
      · exact .inr (.inl h)
      · exact .inr (.inr h)
      · exact .inl (List.any_eq_true.2 ⟨k, hk, (pageHeld_iff _).2 h⟩)
    simp only [hr]
    exact if_pos held
  case destroyBad => simp only [hw, refuse]
  case pool =>
    obtain ⟨hbase, hin, hfree⟩ := hv
    refine ⟨Result.none, _, (if_neg ?fields).trans (if_neg ?unused), rfl, Tab.get_set_eq, fun c hc => Tab.get_set_ne hc,
      Tab.get_set_eq (t := a.mem.paced) (v := []), fun c hc => Tab.get_set_ne (t := a.mem.paced) (v := []) hc, rfl⟩
    case fields => exact not_or.2 ⟨not_not_intro hbase, not_not_intro (poolWithin_iff.2 hin)⟩
    case unused =>
      rw [List.any_eq_true]
      rintro ⟨i, hi, h⟩
      exact ne_true_of_eq_false (hfree i (List.mem_range.1 hi)) h
  case poolBad =>
    refine if_pos (hw.imp_right fun hout hin => ?_)
    obtain ⟨r, hr, hin⟩ := poolWithin_iff.1 hin
    exact hout r hr hin
  case poolBusy =>
    obtain ⟨hbase, hin, i, hi, hused⟩ := hw
    exact (if_neg (not_or.2 ⟨not_not_intro hbase, not_not_intro (poolWithin_iff.2 hin)⟩)).trans
      (if_pos (List.any_eq_true.2 ⟨i, List.mem_range.2 hi, hused⟩))
  case attach =>
    obtain ⟨hh, hhall, hwin, hoff, hn, hmod, hend, hcovered⟩ := hv
    exact ⟨Result.none, _, (if_neg (attachFields_accepted hh hhall hwin hoff hn hmod hend)).trans
      (if_neg (not_not_intro hcovered)), rfl, rfl⟩
  case attachWindow =>
    obtain ⟨hh, hhall, hwin, hoff, hn, hmod, hend, hcovered⟩ := hw
    exact (if_neg (attachFields_accepted hh hhall hwin hoff hn hmod hend)).trans (if_pos hcovered)
  case format =>
    obtain ⟨hfield, hfree⟩ := hv
    exact ⟨_, _, (if_neg (Nat.not_le.2 hfield)).trans ((if_neg (flash_unused hfree)).trans
      (if_neg (geoms_accepted hlen heq hgeom hcap hrows))), rfl, by
      simp only [bitAt_zero_iff hfield]; rfl⟩
  case formatBusy =>
    obtain ⟨hfield, hused⟩ := hw
    exact (if_neg (Nat.not_le.2 hfield)).trans (if_pos (flashUsed_iff.2 hused))
  case formatBad =>
    obtain ⟨g, gs, rfl⟩ := List.exists_cons_of_ne_nil hne
    rw [exec_flashFormat]
    unfold execFlashFormat
    exact runCmd_ok hok ((if_neg (Nat.not_le.2 hfield)).trans ((if_neg (flash_unused husage)).trans
      (if_pos (geoms_refused hbad))))
  case adopt =>
    obtain ⟨pages, hpos, hlen, hhead, hh, hhall, hwin, hoff, hmod, htpns, hend, hfree, hquota, hcovered⟩ := hv
    obtain rfl : _ = pages := congrArg (Option.getD · 0) hhead
    refine ⟨_, (if_neg ?fields).trans ((if_neg (tpns_free hfree)).trans ((if_neg (ne_true_of_eq_false hquota)).trans
      (if_neg (not_not_intro hcovered)))), ?_⟩
    case fields =>
      exact not_or.2 ⟨Nat.not_le.2 hh, not_or.2 ⟨not_not_intro hhall, not_or.2 ⟨Nat.not_le.2 hwin, not_or.2 ⟨not_not_intro hoff,
        not_or.2 ⟨not_not_intro hmod, not_or.2 ⟨Nat.ne_of_gt hpos, not_or.2 ⟨Nat.not_lt.2 htpns, Nat.not_lt.2 hend⟩⟩⟩⟩⟩⟩⟩
    exact ⟨{
        number := a.mem.nextXfer, input := m.input.toNat, slot := m.slot.toNat, ctx := issuer m, lender := mfld m 16 2,
        offset := mfld m 24 8, pages := _, firstTpn := mfld m 20 4, expected := mfld m 40 8, generation := 0 },
      rfl, rfl, rfl, rfl, rfl, rfl, rfl, hlen, rfl⟩

end Sys2Proof.Machine
end

section
/-!
Settles the statement of the memory chapter about the tier manager's rows and the flash log (R271 to R283).
-/
namespace Sys2Proof.Machine
open Sys2Proof

/-! ### Rows of a job (R278) -/

section Jobs
variable {ctx : BitVec 8} {op : Nat} {f : TierJob → State → State} {s : State} {j : TierJob}

theorem startJob_idle (h : headTierJob (tierIntake s) ctx.toNat = none) : startJob ctx op f s = .next (tierIntake s) := by
  simp only [startJob, h]

theorem startJob_held (h : headTierJob (tierIntake s) ctx.toNat = some j)
    (hold : j.op ≠ op ∨ j.started = true ∨ pacePassed (tierIntake s) j.ctx j.due = false) :
    startJob ctx op f s = .next (tierIntake s) := by
  simp only [startJob, h]
  refine if_neg fun ⟨hop, hs, hp⟩ => ?_
  rcases hold with h | h | h
  · exact h hop
  · exact hs h
  · exact ne_true_of_eq_false h hp

theorem startJob_runs (h : headTierJob (tierIntake s) ctx.toNat = some j) (hop : j.op = op) (hs : j.started = false)
    (hp : pacePassed (tierIntake s) j.ctx j.due = true) : startJob ctx op f s = .next (f j (tierIntake s)) := by
  simp only [startJob, h]
  exact if_pos ⟨hop, ne_true_of_eq_false hs, hp⟩

/-- A row that has no job of its OP to begin takes the waiting records in and does nothing else. -/
theorem startJob_rests (ctx : BitVec 8) (op : Nat) (f : TierJob → State → State) (s : State) :
    (headTierJob (tierIntake s) ctx.toNat = none → startJob ctx op f s = .next (tierIntake s)) ∧
    (∀ j, headTierJob (tierIntake s) ctx.toNat = some j →
      (j.op ≠ op ∨ j.started = true ∨ pacePassed (tierIntake s) j.ctx j.due = false) →
      startJob ctx op f s = .next (tierIntake s)) :=
  ⟨startJob_idle, fun _ => startJob_held⟩

end Jobs

/-! ### TIER_WRITEBACK (R274, R275) -/

section Writeback
variable {c x : Nat} {l : List Nat} {p : List Nat × Nat × State}

/-- A page of a WRITEBACK list: one in no region gives a status, one on its way is waited for, a dirty one without STEP starts. -/
def writebackPage (c : Nat) (p : List Nat × Nat × State) (x : Nat) : List Nat × Nat × State :=
  if regionOf p.2.2 c x = none then (p.1, firstStatus p.2.1 stBadParam, p.2.2)
  else if (p.2.2.page (pageKey c x)).state = 5 then (p.1 ++ [x], p.2.1, p.2.2)
  else if pageState p.2.2 (p.2.2.page (pageKey c x)) = 4 ∧ (p.2.2.page (pageKey c x)).step = false then
    (p.1 ++ [x], p.2.1, startWriteback c x p.2.2)
  else (p.1, p.2.1, p.2.2)

theorem exec_tierWriteback_pages (ctx : BitVec 8) (s : State) : exec (.tierWriteback ctx) s = startJob ctx 3 (fun j s =>
    putHead j.ctx (some { j with started := true, todo := (j.list.foldl (writebackPage j.ctx) ([], stOk, s)).1,
                                 status := (j.list.foldl (writebackPage j.ctx) ([], stOk, s)).2.1 })
      (j.list.foldl (writebackPage j.ctx) ([], stOk, s)).2.2) s := by
  have page : ∀ c, writebackPage c = fun (p : List Nat × Nat × State) t =>
      if (regionOf p.2.2 c t).isNone then (p.1, firstStatus p.2.1 stBadParam, p.2.2)
      else if (p.2.2.page (pageKey c t)).state = 5 then (p.1 ++ [t], p.2.1, p.2.2)
      else if pageState p.2.2 (p.2.2.page (pageKey c t)) = 4 ∧ ¬ (p.2.2.page (pageKey c t)).step then
        (p.1 ++ [t], p.2.1, startWriteback c t p.2.2)
      else p := fun c => by
    funext p t
    simp only [writebackPage, Option.isNone_iff_eq_none, Bool.not_eq_true]
  simp only [page]
  rfl

/-- What a WRITEBACK job waits for is part of its list, in order. -/
theorem writebackPages_sublist (c : Nat) (l : List Nat) (p : List Nat × Nat × State) :
    ∃ waits, waits.Sublist l ∧ (l.foldl (writebackPage c) p).1 = p.1 ++ waits := by
  induction l generalizing p with
  | nil => exact ⟨[], .slnil, (List.append_nil _).symm⟩
  | cons x l ih =>
    obtain ⟨waits, sub, eq⟩ := ih (writebackPage c p x)
    have first : (writebackPage c p x).1 = p.1 ∨ (writebackPage c p x).1 = p.1 ++ [x] := by
      unfold writebackPage
      split
      · exact .inl rfl
      split
      · exact .inr rfl
      split
      · exact .inr rfl
      · exact .inl rfl
    rw [List.foldl_cons, eq]
    rcases first with h | h
    · exact ⟨waits, sub.cons x, by rw [h]⟩
    · exact ⟨x :: waits, sub.cons_cons x, by rw [h, List.append_assoc, List.singleton_append]⟩

theorem writebackPage_clean (hr : (regionOf p.2.2 c x).isSome = true) (hw : (p.2.2.page (pageKey c x)).state ≠ 5)
    (hd : pageState p.2.2 (p.2.2.page (pageKey c x)) ≠ 4) : writebackPage c p x = p :=
  (if_neg fun h => by rw [h] at hr; cases hr).trans ((if_neg hw).trans (if_neg fun h => hd h.1))

/-- A list without a dirty page, a page on its way or an unknown TPN changes nothing. -/
theorem writebackPages_clean (h : ∀ x ∈ l, (regionOf p.2.2 c x).isSome = true ∧ (p.2.2.page (pageKey c x)).state ≠ 5 ∧
    pageState p.2.2 (p.2.2.page (pageKey c x)) ≠ 4) : l.foldl (writebackPage c) p = p := by
  induction l with
  | nil => rfl
  | cons x l ih =>
    obtain ⟨hr, hw, hd⟩ := h x (List.mem_cons_self ..)
    rw [List.foldl_cons, writebackPage_clean hr hw hd]
    exact ih fun y hy => h y (List.mem_cons_of_mem _ hy)

end Writeback

/-! ### The end of a fetch (R271, R273) -/

section Fetch
variable {s : State} {c k : Nat}

theorem finishFetch_waits (h : (s.page (pageKey c k)).state ≠ 2 ∨ (xfersFor s c [0] k).any (fun e => !e.2.ended) = true ∨
    pageReady s (pageKey c k) = false ∨ regionOf s c k = none) : finishFetch c k s = none := by
  unfold finishFetch
  dsimp only
  split
  · rfl
  next hr =>
    refine if_pos ?_
    rcases h with h | h | h | h
    · exact .inl h
    · exact .inr (.inl h)
    · exact .inr (.inr (ne_true_of_eq_false h))
    · rw [h] at hr
      cases hr

theorem finishFetch_ends (hs : (s.page (pageKey c k)).state = 2) (hx : (xfersFor s c [0] k).any (fun e => !e.2.ended) = false)
    (hp : pageReady s (pageKey c k) = true) (hr : (regionOf s c k).isSome = true) : ∃ r, finishFetch c k s = some r := by
  obtain ⟨⟨id, g⟩, hr⟩ := Option.isSome_iff_exists.1 hr
  have ready : ¬ ((s.page (pageKey c k)).state ≠ 2 ∨ (xfersFor s c [0] k).any (fun e => !e.2.ended) = true ∨
      ¬ pageReady s (pageKey c k) = true) := by simp [hs, hx, hp]
  unfold finishFetch
  dsimp only
  rw [hr]
  dsimp only
  rw [if_neg ready]
  split
  · exact ⟨_, rfl⟩
  · exact ⟨_, rfl⟩

end Fetch

/-! ### SECTOR_WRITEBACK_DONE (R275) -/

section Sectors
variable {ctx : BitVec 8} {tpn : BitVec 32} {sector : BitVec 4} {s : State}

/-- The state with one sector of a page counted off. -/
def sectorDone (q : SectorCopy) (s : State) : State := { s with mem := { s.mem with copies := s.mem.copies.erase q } }

theorem execSectorWritebackDone_waits {s0 : State} (hs : s = pumpAll s0)
    (h : (⟨ctx.toNat, tpn.toNat, sector.toNat⟩ : SectorCopy) ∉ s.mem.copies ∨
      (xfersFor s ctx.toNat [1] tpn.toNat).any (fun e => !e.2.ended) = true ∨ pageReady s (pageKey ctx.toNat tpn.toNat) = false) :
    execSectorWritebackDone ctx tpn sector s0 = .next s := by
  subst hs
  refine if_pos ?_
  rcases h with h | h | h
  · exact .inl (mt List.contains_iff_mem.1 h)
  · exact .inr (.inl h)
  · exact .inr (.inr (ne_true_of_eq_false h))

theorem execSectorWritebackDone_counts {s0 : State} (hs : s = pumpAll s0)
    (hq : (⟨ctx.toNat, tpn.toNat, sector.toNat⟩ : SectorCopy) ∈ s.mem.copies)
    (hx : (xfersFor s ctx.toNat [1] tpn.toNat).any (fun e => !e.2.ended) = false)
    (hp : pageReady s (pageKey ctx.toNat tpn.toNat) = true) {t : State}
    (ht : t = sectorDone ⟨ctx.toNat, tpn.toNat, sector.toNat⟩ s) :
    execSectorWritebackDone ctx tpn sector s0 =
      if (t.mem.copies.any fun k => k.ctx == ctx.toNat && k.tpn == tpn.toNat) = true then .next t
      else .next (jobsDone ctx.toNat 3 tpn.toNat (finishWriteback ctx.toNat tpn.toNat t).1 (finishWriteback ctx.toNat tpn.toNat t).2) := by
  subst hs ht
  refine if_neg fun h => ?_
  rcases h with h | h | h
  · exact h (List.contains_iff_mem.2 hq)
  · exact ne_true_of_eq_false hx h
  · exact h hp

end Sectors

/-! ### FLASH_ROW_PROGRAM (R281, R282) -/

section Rows
variable {s : State} {w : Nat}

/-- A row is programmed with its parity; with padding, it is the open one at a commit. -/
def programRow (w : Nat) (pad : Bool) (s : State) : State :=
  weightProgress (flashCount 1 { s with mem := { s.mem with flash := { s.mem.flash with
    written := Tab.set false s.mem.flash.written w true,
    parity := Tab.set Stripe.blank (Tab.set Stripe.blank s.mem.flash.parity (2 * w) (parityStripe s.mem.flash w 0)) (2 * w + 1)
      (parityStripe s.mem.flash w 1),
    head := if pad then 30 * w else s.mem.flash.head, flush := if pad then false else s.mem.flash.flush } } })

theorem execFlashRowProgram_full (h : (openRows s.mem.flash).find? (fun w => decide (w ≠ s.mem.flash.head / 30)) = some w) :
    execFlashRowProgram s = .next (programRow w false s) := by
  have other : w ≠ s.mem.flash.head / 30 := of_decide_eq_true (List.find?_some (p := fun w => decide (w ≠ s.mem.flash.head / 30)) h)
  simp only [execFlashRowProgram, h, if_neg other]
  rfl

theorem execFlashRowProgram_flushed (h : (openRows s.mem.flash).find? (fun w => decide (w ≠ s.mem.flash.head / 30)) = none)
    (hf : s.mem.flash.flush = true) (hh : s.mem.flash.head % 30 ≠ 0) (ho : s.mem.flash.head / 30 ∈ openRows s.mem.flash) :
    execFlashRowProgram s = .next (programRow (s.mem.flash.head / 30) true s) := by
  simp only [execFlashRowProgram, h, if_pos (And.intro hf (And.intro hh (List.contains_iff_mem.2 ho)))]
  rfl

theorem execFlashRowProgram_none (h : (openRows s.mem.flash).find? (fun w => decide (w ≠ s.mem.flash.head / 30)) = none)
    (hn : ¬ (s.mem.flash.flush = true ∧ s.mem.flash.head % 30 ≠ 0 ∧ s.mem.flash.head / 30 ∈ openRows s.mem.flash)) :
    execFlashRowProgram s = .next { s with mem := { s.mem with flash := { s.mem.flash with flush := false } } } := by
  have nothing : ¬ (s.mem.flash.flush = true ∧ s.mem.flash.head % 30 ≠ 0 ∧
      (openRows s.mem.flash).contains (s.mem.flash.head / 30) = true) :=
    fun ⟨hf, hh, ho⟩ => hn ⟨hf, hh, List.contains_iff_mem.1 ho⟩
  simp only [execFlashRowProgram, h, if_neg nothing]
  rfl

end Rows

/-! ### FLASH_COMPACTION (R282) -/

section Compaction
variable {v : Nat → Nat} {b : Nat}

/-- The better of a block set and the best so far: the one of the lower value, the earlier one at equal values. -/
def fewest (v : Nat → Nat) (best : Option Nat) (b : Nat) : Option Nat :=
  match best with
  | none => some b
  | some a => if v b < v a then some b else best

theorem foldl_fewest_le {l : List Nat} (h : ∀ x ∈ l, v b ≤ v x) : l.foldl (fewest v) (some b) = some b := by
  induction l with
  | nil => rfl
  | cons x l ih =>
    have keeps : fewest v (some b) x = some b := if_neg (Nat.not_lt.2 (h x (List.mem_cons_self ..)))
    rw [List.foldl_cons, keeps]
    exact ih fun y hy => h y (List.mem_cons_of_mem _ hy)

theorem foldl_fewest_lt {l : List Nat} {best : Option Nat} (hbest : ∀ a, best = some a → v b < v a) (h : ∀ x ∈ l, v b < v x) :
    fewest v (l.foldl (fewest v) best) b = some b := by
  induction l generalizing best with
  | nil =>
    cases best with
    | none => rfl
    | some a => exact if_pos (hbest a rfl)
  | cons x l ih =>
    refine ih (fun a ha => ?_) fun y hy => h y (List.mem_cons_of_mem _ hy)
    unfold fewest at ha
    split at ha
    · cases ha
      exact h _ (List.mem_cons_self ..)
    · split at ha
      · cases ha
        exact h _ (List.mem_cons_self ..)
      · exact hbest a ha

/-- The first of the block sets that have the fewest live stripes. -/
theorem foldl_fewest {pre post : List Nat} (hpre : ∀ x ∈ pre, v b < v x) (hpost : ∀ x ∈ post, v b ≤ v x) :
    (pre ++ b :: post).foldl (fewest v) none = some b := by
  rw [List.foldl_append, List.foldl_cons, foldl_fewest_lt (fun a (h : none = some a) => nomatch h) hpre, foldl_fewest_le hpost]

/-- The full block sets: in use, and neither open nor at the head. -/
def fullSets (f : Flash) : List Nat := (usedSets f).filter fun b => !((f.head / 30 :: openRows f).map f.setOf).contains b

/-- The pages whose stripes begin in a block set or reach into it. -/
def pagesIn (s : State) (b : Nat) : List (Nat × Page) :=
  s.mem.pages.filter fun e => e.2.home == 2 && e.2.state != 0 && !e.2.wasEmpty &&
    ((List.range 4).any fun i => s.mem.flash.setOf ((e.2.homeLoc + i) / 30) == b)

/-- Below 2 % free block sets, the pages of the first full set with the fewest live stripes move. -/
def compacted (s : State) : State :=
  if 50 * (s.mem.flash.sets - (usedSets s.mem.flash).length) < s.mem.flash.sets then
    match (fullSets s.mem.flash).foldl (fewest (liveIn s.mem.flash)) none with
    | none => s
    | some b => (pagesIn s b).foldl (fun s e => movePage e.1 s) s
  else s

theorem execFlashCompaction_eq (s : State) : execFlashCompaction s =
    .next ((fullSets s.mem.flash).foldl (fun s b => if mayErase s.mem.flash b then eraseSet b s else s) (compacted s)) := rfl

theorem pagesIn_eq (s : State) (b : Nat) : pagesIn s b = s.mem.pages.filter fun e => decide (e.2.home = 2 ∧ e.2.state ≠ 0 ∧
    e.2.wasEmpty = false ∧ ∃ i < 4, s.mem.flash.setOf ((e.2.homeLoc + i) / 30) = b) :=
  List.filter_congr fun e _ => by
    rw [Bool.eq_iff_iff]
    simp [and_assoc]

end Compaction

/-- Settles O45: a row of a job is a step of the head job, or rests; each other row is one of the laws above, at the page, sector, row
or block set that it names. -/
theorem tierJobsPagesAndFlash : Obligations.TierJobsPagesAndFlash := by
  refine ⟨fun p hp ctx s => ?rests, fun ctx s j hj hs hp => ⟨fun hop => ?fetch, fun hop => ?unpin, fun hop => ?writeback,
    fun hop => ?commit, fun hop => ?discard⟩, fun ctx tpn s0 s hs => ?fetched, fun ctx s s0 hs0 => ?complete, fun ctx s => ?background,
    fun ctx tpn sector s0 s hs => ⟨execSectorWritebackDone_waits hs, fun hq hx hready => ⟨fun hmore => ?more, fun hlast => ?last⟩⟩,
    fun s => ⟨fun w => execFlashRowProgram_full, fun hnone => ⟨execFlashRowProgram_flushed hnone, execFlashRowProgram_none hnone⟩⟩,
    fun s => ⟨compacted s, fun henough => if_neg (Nat.not_lt.2 henough), fun hfull => ?noneFull,
      fun pre b post hlow hsets hpre hpost => ?moves,
      execFlashCompaction_eq s⟩⟩
  case rests =>
    simp only [List.mem_cons, List.not_mem_nil, or_false] at hp
    obtain rfl | rfl | rfl | rfl | rfl := hp
    · simp only [exec_tierFetch, execTierFetch]
      exact startJob_rests ..
    · simp only [exec_tierUnpin, execTierUnpin]
      exact startJob_rests ..
    · simp only [exec_tierWriteback, execTierWriteback]
      exact startJob_rests ..
    · simp only [exec_tierJobCommit, execTierJobCommit]
      exact startJob_rests ..
    · simp only [exec_tierJobDiscard, execTierJobDiscard]
      exact startJob_rests ..
  case fetch =>
    rw [exec_tierFetch, execTierFetch]
    exact startJob_runs hj hop hs hp
  case unpin =>
    rw [exec_tierUnpin, execTierUnpin]
    exact startJob_runs hj hop hs hp
  case writeback =>
    refine ⟨?_, (exec_tierWriteback_pages ctx s).trans (startJob_runs hj hop hs hp), fun hclean => writebackPages_clean hclean⟩
    obtain ⟨waits, sub, eq⟩ := writebackPages_sublist j.ctx j.list ([], stOk, tierIntake s)
    exact (eq.trans (List.nil_append waits)) ▸ sub
  case commit =>
    rw [exec_tierJobCommit, execTierJobCommit]
    refine ⟨fun hfetching => ?_, fun hfetched => ?_⟩
    · refine (startJob_runs hj hop hs hp).trans (congrArg _ (if_pos ?_))
      simpa only [List.any_eq_true, beq_iff_eq] using hfetching
    · refine (startJob_runs hj hop hs hp).trans (congrArg _ (if_neg ?_))
      simp only [List.any_eq_true, beq_iff_eq]
      rintro ⟨e, he, k, hk, hstate⟩
      exact hfetched e he k hk hstate
  case discard =>
    rw [exec_tierJobDiscard, execTierJobDiscard]
    exact startJob_runs hj hop hs hp
  case fetched =>
    subst hs
    refine ⟨fun hwait => ?_, fun hstate hx hready hr => ?_⟩
    · simp only [exec_tierFetchComplete, execTierFetchComplete, finishFetch_waits hwait]
    · obtain ⟨r, hr⟩ := finishFetch_ends hstate hx hready hr
      exact ⟨r, hr, by simp only [exec_tierFetchComplete, execTierFetchComplete, hr]⟩
  case complete =>
    subst hs0
    refine ⟨fun hnone => ?_, fun j hj => ⟨fun hwait => ?_, fun hdone hpassed => ⟨fun w hw => ?_, fun hw => ?_⟩⟩⟩
    · simp only [exec_tierJobComplete, execTierJobComplete, hnone]
    · simp only [exec_tierJobComplete, execTierJobComplete, hj]
      exact if_pos (hwait.imp ne_true_of_eq_false ne_true_of_eq_false)
    · simp only [exec_tierJobComplete, execTierJobComplete, hj, hw]
      exact if_neg fun h => h.elim (· hdone) (· hpassed)
    · simp only [exec_tierJobComplete, execTierJobComplete, hj, hw]
      exact if_neg fun h => h.elim (· hdone) (· hpassed)
  case background =>
    refine ⟨fun hrest => ?_, fun hlow k hk => ?_⟩
    · rcases hrest with henough | hnone
      · exact if_pos henough
      · simp only [exec_backgroundWriteback, execBackgroundWriteback, hnone, ite_self]
    · simp only [exec_backgroundWriteback, execBackgroundWriteback, hk]
      exact if_neg (Nat.not_le.2 hlow)
  case more =>
    obtain ⟨x, hx', hctx, htpn⟩ := hmore
    refine (execSectorWritebackDone_counts hs hq hx hready rfl).trans (if_pos (List.any_eq_true.2 ⟨x, hx', ?_⟩))
    simp only [hctx, htpn, beq_self_eq_true, Bool.and_self]
  case last =>
    refine (execSectorWritebackDone_counts hs hq hx hready rfl).trans (if_neg fun h => ?_)
    obtain ⟨x, hx', h⟩ := List.any_eq_true.1 h
    exact hlast x hx' (by simpa using h)
  case noneFull =>
    have full : fullSets s.mem.flash = [] := hfull
    simp only [compacted, full, List.foldl_nil, ite_self]
  case moves =>
    have full : fullSets s.mem.flash = pre ++ b :: post := hsets
    simp only [compacted, full, foldl_fewest hpre hpost, if_pos hlow, pagesIn_eq]

end Sys2Proof.Machine
end

section
/-!
Settles the statement of the weights chapter about the WEIGHT commands and the thatch engine's rows (R285 to R298).
-/
namespace Sys2Proof.Machine
open Sys2Proof

/-! ### Commands on a weight set (R285 to R291) -/

section WeightCommands
variable {m : Mbx} {s : State} {n : Nat} {w : WeightSet}

/-- A weight command waits for its blocks behind those accepted before it (R523). -/
def queueWait (q : WeightWait) (s : State) : State := updMem (fun t => { t with weightWaits := t.weightWaits ++ [q] }) s

theorem weight_of_ownWeight (h : ownWeight m s n = some w) : s.weight n = some w := by
  unfold ownWeight at h
  split at h
  next w' hw =>
    split at h
    · rw [hw, h]
    · cases h
  next => cases h

theorem dropWeight_weight (h : s.weight n = some w) : (dropWeight n s).weight n = none := by
  simp only [dropWeight, h, setWeight_weight_eq]

theorem installFields_accepted {len blocks kind home : Nat} {out src : Prop} (hlen : len ≠ 0) (hblocks : blocks ≤ 4194304)
    (hkind : kind = 0) (hhome : home < 3) (hout : out) :
    ¬ (len = 0 ∨ 4194304 < blocks ∨ 2 ≤ kind ∨ 3 ≤ home ∨ ¬ out ∨ (kind = 1 ∧ ¬ src)) := by
  rintro (h | h | h | h | h | ⟨h, -⟩)
  · exact hlen h
  · omega
  · omega
  · omega
  · exact h hout
  · omega

theorem installFields_refused {len blocks kind home : Nat} {out src : Prop} (h : len = 0 ∨ 2 ≤ kind ∨ 3 ≤ home ∨ ¬ out) :
    len = 0 ∨ 4194304 < blocks ∨ 2 ≤ kind ∨ 3 ≤ home ∨ ¬ out ∨ (kind = 1 ∧ ¬ src) := by
  obtain h | h | h | h := h
  · exact .inl h
  · exact .inr (.inr (.inl h))
  · exact .inr (.inr (.inr (.inl h)))
  · exact .inr (.inr (.inr (.inr (.inl h))))

theorem repairFields_accepted {kind count first blocks : Nat} {src : Prop} (hkind : kind < 2) (hcount : count ≠ 0)
    (hrange : first + count ≤ blocks) (hsrc : kind = 1 → src) :
    ¬ (2 ≤ kind ∨ count = 0 ∨ blocks < first + count ∨ (kind = 1 ∧ ¬ src)) := by
  rintro (h | h | h | ⟨h, h'⟩)
  · omega
  · exact hcount h
  · omega
  · exact h' (hsrc h)

theorem leavesDiffer_iff {α : Type} [BEq α] [LawfulBEq α] {f g : Nat → α} :
    ((List.range n).any fun i => f i != g i) = true ↔ ∃ i, i < n ∧ f i ≠ g i := by
  simp only [List.any_eq_true, List.mem_range, bne_iff_ne]

theorem weightWaits_iff : (s.mem.weightWaits.any fun q => q.set == n) = true ↔ ∃ q ∈ s.mem.weightWaits, q.set = n := by
  simp only [List.any_eq_true, beq_iff_eq]

/-- Whether a page of a set's region keeps the set from being removed (Table 10.7). -/
def setHeld (s : State) (w : WeightSet) : Prop :=
  ∃ k ∈ regionKeys (Tab.get Region.none s.mem.regions w.region), (s.page k).pin ≠ 0 ∨ (s.page k).state = 2 ∨ (s.page k).state = 5

theorem setHeld_iff : ((regionKeys (Tab.get Region.none s.mem.regions w.region)).any fun k =>
    (s.page k).pin != 0 || (s.page k).state == 2 || (s.page k).state == 5) = true ↔ setHeld s w := by
  simp only [setHeld, List.any_eq_true, Bool.or_eq_true, bne_iff_ne, beq_iff_eq, or_assoc]

theorem removeWeight_unused (hbusy : weightBusy s n = false) (hheld : ¬ setHeld s w) : removeWeight n w s = (stOk, dropWeight n s) :=
  if_neg (not_or.2 ⟨ne_true_of_eq_false hbusy, mt setHeld_iff.1 hheld⟩)

theorem removeWeight_used (h : weightBusy s n = true ∨ setHeld s w) : removeWeight n w s = (stBusy, s) :=
  if_pos (h.imp_right setHeld_iff.2)

/-- A verification of blocks that were read without a fault ends well or with poison, and poison that was met stays met (R288). -/
theorem finishVerify_status (w : WeightSet) (blocks : List (List Byte)) (poison : Bool) (s : State) :
    ((finishVerify w stOk blocks poison s).1 = stOk ∨ (finishVerify w stOk blocks poison s).1 = stPoison) ∧
      (poison = true → (finishVerify w stOk blocks poison s).1 = stPoison) := by
  unfold finishVerify
  rw [if_neg fun h => h.1 rfl]
  dsimp only
  refine ⟨(ite_eq_or_eq _ _ _).symm, fun hp => if_pos (.inl ?_)⟩
  exact List.foldlRecOn _ _ (motive := fun q : Bool × State => q.1 = true) hp fun q hq b _ => by rw [hq, Bool.true_or]

end WeightCommands

/-! ### THATCH_BEGIN (R292, R293) -/

section Begin
variable {die : Nat} {j : Job} {s : State} {l : Live}

/-- What a BEGIN record must say (Table 10.2). -/
def BeginOk (b : List Byte) : Prop :=
  fld b 0 1 = 1 ∧ onlyFields b [(0, 1), (2, 3), (8, 8)] = true ∧ fld b 2 2 < 512 ∧ fld b 4 1 < 64

theorem beginOk_iff (b : List Byte) :
    BeginOk b ↔ ¬ (fld b 0 1 ≠ 1 ∨ ¬ onlyFields b [(0, 1), (2, 3), (8, 8)] = true ∨ 512 ≤ fld b 2 2 ∨ 64 ≤ fld b 4 1) := by
  simp only [BeginOk, not_or, not_not, Nat.not_le]

/-- The active schedules of a die. -/
def activeOn (die : Nat) (s : State) : List Thatch := s.mem.thatch.filter fun x => x.dies.contains die

/-- A BEGIN once its schedule has been read: the schedule goes on with one more die, begins, or has nothing to do any more (R292). -/
def admitSchedule (die : Nat) (l : Live) (s : State) (r : Nat × Option Thatch × State) : Nat × State :=
  match r.2.1 with
  | none => (r.1, r.2.2)
  | some x =>
    match r.2.2.schedule l.plate l.start with
    | some y =>
      if y.dies.contains die then (stBadParam, r.2.2)
      else (stOk, thatchGo (updThatch l.plate l.start (fun x => { x with dies := x.dies ++ [die] }) r.2.2))
    | none =>
      if ¬ (((s.plate l.plate).map Plate.running).getD []).any (fun q => q.start == l.start && q.window == l.window) then (stOk, r.2.2)
      else (stOk, thatchGo (updMem (fun m => { m with thatch := m.thatch ++ [{ x with dies := [die] }] }) r.2.2))

theorem beginThatch_refused (h : ¬ BeginOk (leBytes 64 j.block.toNat)) : beginThatch die j s = (stBadParam, s) := by
  unfold beginThatch
  rw [if_pos (not_not.1 (mt (beginOk_iff _).2 h))]

theorem beginThatch_dead (h : j.live = none) : beginThatch die j s = (stBadParam, s) := by
  unfold beginThatch
  simp only [h, ite_self]

theorem beginThatch_bad (h : ¬ BeginOk (leBytes 64 j.block.toNat) ∨ j.live = none) : beginThatch die j s = (stBadParam, s) :=
  h.elim beginThatch_refused beginThatch_dead

theorem beginThatch_full (hb : BeginOk (leBytes 64 j.block.toNat)) (hl : j.live = some l) (h : 64 ≤ (activeOn die s).length) :
    beginThatch die j s = (stCapacity, s) := by
  unfold beginThatch
  unfold activeOn at h
  simp only [if_neg ((beginOk_iff _).1 hb), hl, if_pos h]

theorem beginThatch_reads (hb : BeginOk (leBytes 64 j.block.toNat)) (hl : j.live = some l) (h : (activeOn die s).length < 64) :
    beginThatch die j s = admitSchedule die l s (readSchedule s j.who l (fld (leBytes 64 j.block.toNat) 8 8)) := by
  unfold beginThatch
  unfold activeOn at h
  simp only [if_neg ((beginOk_iff _).1 hb), hl, if_neg (Nat.not_le.2 h)]
  generalize readSchedule s j.who l (fld (leBytes 64 j.block.toNat) 8 8) = r
  rfl

section Admit
variable {r : Nat × Option Thatch × State} {x y : Thatch}

theorem admitSchedule_unread (h : r.2.1 = none) : admitSchedule die l s r = (r.1, r.2.2) := by
  simp only [admitSchedule, h]

theorem admitSchedule_again (hx : r.2.1 = some x) (hy : r.2.2.schedule l.plate l.start = some y) (hd : die ∈ y.dies) :
    admitSchedule die l s r = (stBadParam, r.2.2) := by
  simp only [admitSchedule, hx, hy]
  exact if_pos (List.contains_iff_mem.2 hd)

theorem admitSchedule_joins (hx : r.2.1 = some x) (hy : r.2.2.schedule l.plate l.start = some y) (hd : die ∉ y.dies) :
    admitSchedule die l s r =
      (stOk, thatchGo (updThatch l.plate l.start (fun x => { x with dies := x.dies ++ [die] }) r.2.2)) := by
  simp only [admitSchedule, hx, hy]
  exact if_neg (mt List.contains_iff_mem.1 hd)

theorem impressionRuns_iff {runs : List Running} : runs.any (fun q => q.start == l.start && q.window == l.window) = true ↔
    ∃ e ∈ runs, e.start = l.start ∧ e.window = l.window := by
  simp only [List.any_eq_true, Bool.and_eq_true, beq_iff_eq]

theorem admitSchedule_over (hx : r.2.1 = some x) (hy : r.2.2.schedule l.plate l.start = none)
    (hr : ∀ e ∈ ((s.plate l.plate).map Plate.running).getD [], ¬ (e.start = l.start ∧ e.window = l.window)) :
    admitSchedule die l s r = (stOk, r.2.2) := by
  simp only [admitSchedule, hx, hy]
  refine if_pos fun h => ?_
  obtain ⟨e, he, hruns⟩ := impressionRuns_iff.1 h
  exact hr e he hruns

theorem admitSchedule_begins (hx : r.2.1 = some x) (hy : r.2.2.schedule l.plate l.start = none)
    (hr : ∃ e ∈ ((s.plate l.plate).map Plate.running).getD [], e.start = l.start ∧ e.window = l.window) :
    admitSchedule die l s r =
      (stOk, thatchGo (updMem (fun m => { m with thatch := m.thatch ++ [{ x with dies := [die] }] }) r.2.2)) := by
  simp only [admitSchedule, hx, hy]
  exact if_neg (not_not_intro (impressionRuns_iff.2 hr))

end Admit

theorem execThatchBegin_empty {die : BitVec 2} (h : headJob (0x30 + die.toNat) s = none) : execThatchBegin die s = .next s := by
  simp only [execThatchBegin, h]

theorem execThatchBegin_retires {die : BitVec 2} (h : headJob (0x30 + die.toNat) s = some j) :
    execThatchBegin die s = .next (retireFor j.who (fld (leBytes 64 j.block.toNat) 2 2) (fld (leBytes 64 j.block.toNat) 4 1)
      (beginThatch die.toNat j (popJob (0x30 + die.toNat) s)).1 (beginThatch die.toNat j (popJob (0x30 + die.toNat) s)).2) := by
  simp only [execThatchBegin, h]

end Begin

/-! ### THATCH_LATEST_EXPIRY (R297) -/

section Expiry
variable {plate : BitVec 16} {s : State} {p : Plate} {r : Running} {x : Thatch}

/-- Whether an impression of a plate is held by a gate past the gate's LATEST. -/
def latestPassed (s : State) (h : Nat) (r : Running) : Bool := !r.begun && !r.ended && r.hold == 1 &&
  (match s.schedule h r.start with
   | some x => decide (x.windowStart + gateLatest x r.record ≤ s.now)
   | none => false)

/-- The die of the entry that keeps an impression's gate closed. -/
def lateDie (x : Thatch) (r : Running) : Nat :=
  ((x.entries.find? fun e => decide (e.gate = r.record ∧ e.landed = false)).map ThatchEntry.die).getD 0

/-- The impression is suspended and counted, and the plate's resident cores are saved. -/
def suspendLate (h die : Nat) (p : Plate) (r : Running) (s : State) : State :=
  (claimed 1 p.claims).foldl (fun s k => if (s.coreAt k).resident = some p.owner ∧ (s.coreAt k).live.isNone then saveResident k s else s)
    (thatchCount die 2 (updPlate h (fun p => { p with running := p.running.map fun y => if y = r then { y with hold := 3 } else y }) s))

theorem execThatchLatestExpiry_no_plate (hp : s.plate plate.toNat = none) : execThatchLatestExpiry plate s = .next s := by
  simp only [execThatchLatestExpiry, hp]

theorem execThatchLatestExpiry_on_time (hp : s.plate plate.toNat = some p) (hr : p.running.find? (latestPassed s plate.toNat) = none) :
    execThatchLatestExpiry plate s = .next s := by
  simp only [execThatchLatestExpiry, hp]
  split
  next => rfl
  next h => cases hr.symm.trans h

theorem execThatchLatestExpiry_late (hp : s.plate plate.toNat = some p) (hr : p.running.find? (latestPassed s plate.toNat) = some r)
    (hx : s.schedule plate.toNat r.start = some x) :
    execThatchLatestExpiry plate s = .next (suspendLate plate.toNat (lateDie x r) p r s) := by
  have awaited : (fun e : ThatchEntry => e.gate == r.record && !e.landed) = fun e => decide (e.gate = r.record ∧ e.landed = false) := by
    funext e
    rw [Bool.decide_and, Bool.decide_eq_false]
    rfl
  simp only [execThatchLatestExpiry, hp]
  split
  next h => cases hr.symm.trans h
  next r' h =>
    obtain rfl : r = r' := Option.some.inj (hr.symm.trans h)
    simp only [hx, awaited]
    rfl

end Expiry

/-- Settles O46: each command passes its guards one by one, down to the operation that the statement names; a BEGIN is
`admitSchedule` of what it has read. -/
theorem weightSetsAndThatch : Obligations.WeightSetsAndThatch := by
  refine ⟨staysInFlight_of exec_weightInstall fun m a hv => ?install, declines_of_w exec_weightInstall fun m a hw => ?installBad,
    performs_of_w exec_weightQuery fun m a hv => ?query, declines_of_w exec_weightQuery fun m a hw => ?queryBad,
    staysInFlight_of exec_weightQuery fun m a hv => ?verifyRemote, fun m s w hok hflag hown hhome => ?verify,
    ⟨declines_of_w exec_weightRepair fun m a hw => ?repairBusy,
      fun m s a w hok hasked hfree hsrc hdiffers => ?repairDiffers, staysInFlight_of exec_weightRepair fun m a hv => ?repair⟩,
    declines_of_w exec_weightRepair fun m a hw => ?repairBad, performs_of_w exec_weightRemove fun m a hv => ?remove,
    staysInFlight_of exec_weightRemove fun m a hv => ?removeWaits, declines_of_w exec_weightRemove fun m a hw => ?removeBusy,
    fun die s => ⟨execThatchBegin_empty, fun j hj => ⟨execThatchBegin_retires hj, beginThatch_bad, fun hgood l hl =>
      ⟨beginThatch_full hgood hl, fun hroom => ?beginRow⟩⟩⟩,
    fun plate s => ⟨fun hrest => ?onTime, fun p r x hp hr hx => execThatchLatestExpiry_late hp hr hx⟩⟩
  case install =>
    obtain ⟨hlen, hn, hkind, hhome, hout, hroot, hheld, k, hk, id, u, hu, hquota, f, hf, hw⟩ := hv
    obtain ⟨v, hv⟩ := Option.isSome_iff_exists.1 hw
    refine ⟨weightProgress (queueWait {
        input := m.input.toNat, slot := m.slot.toNat, set := k, kind := 0, first := 0, count := ceilDiv (mfld m 24 8) 65536,
        expected := [], out := mfld m 48 8, xfer := if mfld m 33 1 = 1 then v.mem.nextXfer - 1 else 0 } v),
      (if_neg (installFields_accepted hlen hn hkind hhome hout)).trans ?_, fun k' id' u' f' hk' hu' hf' v' hv' => ?_⟩
    · simp only [hroot, if_true, hk, hu, hquota, hf, weightSource, hkind, hv, Nat.not_le.2 hheld, if_false, ne_eq, not_true_eq_false,
        Bool.false_eq_true]
      rfl
    · obtain rfl : k = k' := Option.some.inj (hk.symm.trans hk')
      obtain ⟨rfl, rfl⟩ : id = id' ∧ u = u' := by simpa using hu.symm.trans hu'
      obtain rfl : f = f' := Option.some.inj (hf.symm.trans hf')
      obtain rfl : v = v' := Option.some.inj (hv.symm.trans hv')
      rfl
  case installBad =>
    obtain ⟨-, hbad⟩ := hw
    exact if_pos (installFields_refused (hbad.imp_right (Or.imp_right (Or.imp_right ne_true_of_eq_false))))
  case query =>
    obtain ⟨hflag, hown⟩ := hv
    obtain ⟨w, hw⟩ := Option.isSome_iff_exists.1 hown
    refine ⟨{ fields := [], block := some (weightReport w a) }, a, ?_, rfl, fun w' hw' => ?_⟩
    · simp only [hw, hflag]
      rfl
    · obtain rfl : w = w' := Option.some.inj (hw.symm.trans hw')
      rfl
  case queryBad =>
    obtain hflag | hnone := hw
    · cases hw : ownWeight m a (mfld m 16 2) with
      | none => simp only [hw]
      | some w =>
        simp only [hw]
        exact if_pos hflag
    · simp only [hnone]
  case verifyRemote =>
    obtain ⟨hflag, w, hw, hhome⟩ := hv
    refine ⟨startXfer (newXfer 10 w.ctx w.region (Tab.get Region.none a.mem.regions w.region).lender
          (slotOffset (Tab.get Region.none a.mem.regions w.region) 0 0) 0 (256 * w.blocks))
        (queueWait { input := m.input.toNat, slot := m.slot.toNat, set := mfld m 16 2, kind := 2, first := 0, count := w.blocks,
                     expected := [], out := 0, xfer := a.mem.nextXfer } a), ?_, fun w' hw' => ?_⟩
    · simp only [hw, hflag, hhome]
      rfl
    · obtain rfl : w = w' := Option.some.inj (hw.symm.trans hw')
      rfl
  case verify =>
    refine ⟨?_, finishVerify_status ..⟩
    rw [exec_weightQuery]
    refine runCmdW_ok (r := (_, _)) hok ?_
    simp only [hown, hflag]
    exact if_neg hhome
  case repairBusy =>
    obtain ⟨w, ⟨hown, hkind, hcount, hrange, hsrc⟩, hbusy⟩ := hw
    simp only [hown]
    exact (if_neg (repairFields_accepted hkind hcount hrange hsrc)).trans (if_pos hbusy)
  case repairDiffers =>
    obtain ⟨hown, hkind, hcount, hrange, howns⟩ := hasked
    obtain ⟨img, u, hread⟩ : ∃ img u, weightSource m a (mfld m 18 1) (mfld m 32 8) (65536 * mfld m 24 4) = (stOk, img, u) :=
      ⟨_, _, Prod.ext hsrc rfl⟩
    simp only [hread] at hdiffers ⊢
    rw [exec_weightRepair]
    refine runCmdW_ok (r := (stPlateDigest, Result.none)) (congrArg Prod.fst hok) ?_
    simp only [hok, hown, hread]
    exact (if_neg (repairFields_accepted hkind hcount hrange howns)).trans ((if_neg (ne_true_of_eq_false hfree)).trans
      (if_pos (leavesDiffer_iff.2 hdiffers)))
  case repair =>
    obtain ⟨w, ⟨hown, hkind, hcount, hrange, howns⟩, hfree, hsrc, hsame, hwritten⟩ := hv
    obtain ⟨v, hv⟩ := Option.isSome_iff_exists.1 hwritten
    refine ⟨weightProgress (queueWait {
        input := m.input.toNat, slot := m.slot.toNat, set := mfld m 16 2, kind := 1, first := mfld m 20 4, count := mfld m 24 4,
        expected := [], out := 0, xfer := if w.home = 1 then v.mem.nextXfer - 1 else 0 } v), ?_, w, v, hown, hv, rfl⟩
    have same : ¬ (List.range (mfld m 24 4)).any _ = true := mt leavesDiffer_iff.1 fun ⟨i, hi, differs⟩ => hsame i hi differs
    simp only [hown]
    refine (if_neg (repairFields_accepted hkind hcount hrange howns)).trans ((if_neg (ne_true_of_eq_false hfree)).trans
      ((if_neg (not_not_intro hsrc)).trans ((if_neg same).trans ?_)))
    simp only [hv]
    rfl
  case repairBad =>
    obtain hnone | hfield := hw
    · simp only [hnone]
    · cases hw : ownWeight m a (mfld m 16 2) with
      | none => simp only [hw]
      | some w =>
        simp only [hw]
        exact if_pos (hfield.imp_right .inl)
  case remove =>
    obtain ⟨w, hown, hfirst, hfree, hpages⟩ := hv
    have unheld : ¬ setHeld a w := fun ⟨k, hk, held⟩ => by
      obtain ⟨hpin, hfetch, hback⟩ := hpages k hk
      obtain h | h | h := held
      · exact h hpin
      · exact hfetch h
      · exact hback h
    refine ⟨Result.none, dropWeight (mfld m 16 2) a, ?_, rfl, rfl, dropWeight_weight (weight_of_ownWeight hown)⟩
    simp only [hown]
    refine (if_neg (mt weightWaits_iff.1 fun ⟨q, hq, hset⟩ => hfirst q hq hset)).trans ?_
    rw [removeWeight_unused hfree unheld]
  case removeWaits =>
    obtain ⟨hown, hwaits⟩ := hv
    obtain ⟨w, hw⟩ := Option.isSome_iff_exists.1 hown
    refine ⟨_, ?_, rfl⟩
    simp only [hw]
    exact if_pos (weightWaits_iff.2 hwaits)
  case removeBusy =>
    obtain ⟨w, hown, hfirst, hused⟩ := hw
    simp only [hown]
    refine (if_neg (mt weightWaits_iff.1 fun ⟨q, hq, hset⟩ => hfirst q hq hset)).trans ?_
    rw [removeWeight_used hused]
  case beginRow =>
    rw [beginThatch_reads hgood hl hroom]
    exact ⟨admitSchedule_unread, fun x hx => ⟨fun y => admitSchedule_again hx, fun y => admitSchedule_joins hx,
      fun hnone => ⟨admitSchedule_over hx hnone, admitSchedule_begins hx hnone⟩⟩⟩
  case onTime =>
    obtain hnone | ⟨p, hp, hr⟩ := hrest
    · exact execThatchLatestExpiry_no_plate hnone
    · exact execThatchLatestExpiry_on_time hp hr

end Sys2Proof.Machine
end

section
/-!
Settles the statement of the weights chapter about the sequence commands and the retirement of a manifest (R300 to R314).
-/
namespace Sys2Proof.Machine
open Sys2Proof

/-! ### The sequence unit under its own operations and under memory writes -/

section SeqUnit
variable {s : State} {c n : Nat} {q : BatchQ} {f : BatchQ → BatchQ}

theorem MemTiers.HasMem.seqs {t u : MemTiers} {m : Mem} (h : t.HasMem u m) : t.seqs = u.seqs := by
  have kept := congrArg MemTiers.seqs h
  exact kept

@[simp] theorem markDirty_seqs (t : MemTiers) (a n : Nat) : (t.markDirty a n).seqs = t.seqs := by
  unfold MemTiers.markDirty
  split
  · rfl
  · refine List.foldlRecOn _ _ (motive := fun u => MemTiers.seqs u = t.seqs) rfl fun u hu i _ => ?_
    dsimp only
    split
    · exact hu
    · exact hu

@[simp] theorem memWrite_seqs (a : Nat) (bs : List Byte) : (memWrite a bs s).mem.seqs = s.mem.seqs :=
  (markDirty_seqs _ _ _).trans (checkWords_hasMem (readSource a) (edgeWords a bs.length) s).seqs

@[simp] theorem setSeq_seqs (k : Nat) (e : SeqEntry) : (s.setSeq k e).mem.seqs = s.mem.seqs := memWrite_seqs ..

theorem updQ_seqs (c n : Nat) (f : BatchQ → BatchQ) (s : State) : (updQ c n f s).mem.seqs =
    { s.mem.seqs with queues := Tab.upd none s.mem.seqs.queues (8 * c + n) (Option.map f) } := rfl

theorem updQ_mem_mem (c n : Nat) (f : BatchQ → BatchQ) (s : State) : (updQ c n f s).mem.mem = s.mem.mem := rfl

theorem updSeq_mem_mem (g : SeqUnit → SeqUnit) (s : State) : (updSeq g s).mem.mem = s.mem.mem := rfl

theorem batchQ_of_upd {t : State} (ht : t.mem.seqs.queues = Tab.upd none s.mem.seqs.queues (8 * c + n) (Option.map f))
    (h : s.batchQ c n = some q) : t.batchQ c n = some (f q) := by
  unfold State.batchQ at h ⊢
  rw [ht, Tab.upd, Tab.get_set_eq, h, Option.map_some]

end SeqUnit

/-! ### SEQ_QUEUE_CONFIG (R303) -/

section Config
variable {u : State} {c n h : Nat} {b : List Byte}

/-- Whether a plate is running. -/
def plateRuns (u : State) (h : Nat) : Bool :=
  match u.plate h with
  | some p => p.state == 2
  | none => false

theorem plateRuns_iff : plateRuns u h = true ↔ ∃ p, u.plate h = some p ∧ p.state = 2 := by
  unfold plateRuns
  cases u.plate h with
  | none => simp
  | some p => simp

/-- Whether the plate of a queue as it stands is running. -/
def queueRuns (u : State) (o : Option BatchQ) : Bool :=
  match o with
  | some o => plateRuns u o.plate
  | none => false

theorem queueRuns_iff {o : Option BatchQ} : queueRuns u o = true ↔ ∃ x, o = some x ∧ plateRuns u x.plate = true := by
  cases o with
  | none => simp [queueRuns]
  | some x => simp [queueRuns]

/-- The rows of a context's other queues. -/
def otherRows (u : State) (c n : Nat) : Nat :=
  ((List.range 8).map fun i => if i = n then 0 else ((u.batchQ c i).map BatchQ.maxRows).getD 0).sum

/-- What a queue keeps of the one it replaces: its sequences, its manifest and its blocks. -/
def keptQueue (q : BatchQ) : Option BatchQ → BatchQ
  | some o => { q with
      join := o.join, rows := o.rows, joiners := o.joiners, impression := o.impression, nodesUsed := o.nodesUsed, held := o.held }
  | none => q

/-- The state with queue n of a context set to a record. -/
def setQueueFrom (c n : Nat) (q : BatchQ) (u : State) : State :=
  updSeq (fun v => { v with queues := Tab.set none v.queues (8 * c + n) (some (keptQueue q (u.batchQ c n))) }) u

theorem setQueueFrom_batchQ_same (q : BatchQ) : (setQueueFrom c n q u).batchQ c n = some (keptQueue q (u.batchQ c n)) := by
  unfold State.batchQ setQueueFrom updSeq
  rw [updMem_mem, Tab.get_set_eq]
  rfl

theorem setQueueFrom_batchQ_other (q : BatchQ) {i : Nat} (hi : i ≠ n) : (setQueueFrom c n q u).batchQ c i = u.batchQ c i := by
  unfold State.batchQ setQueueFrom updSeq
  rw [updMem_mem, Tab.get_set_ne (by omega)]

/-- A configuration whose record has been read: its fields, the rows of the context, and the plates are checked in this order. -/
def configQueue (c n : Nat) (b : List Byte) (u : State) : Nat × Result × State :=
  if 8 ≤ n ∨ ¬ batchOk u c b (readBatchQ b) then refuse stBadParam u
  else if 8192 < otherRows u c n + (readBatchQ b).maxRows then refuse stCapacity u
  else if plateRuns u (readBatchQ b).plate ∨ queueRuns u (u.batchQ c n) then refuse stBusy u
  else done (setQueueFrom c n (readBatchQ b) u)

/-- What SEQ_QUEUE_CONFIG does with what it reads of device memory. -/
def configRead (c n : Nat) (r : Nat × List Byte × State) : Nat × Result × State :=
  if r.1 ≠ stOk then refuse r.1 r.2.2 else configQueue c n r.2.1 r.2.2

theorem configRead_unread {r : Nat × List Byte × State} (h : r.1 ≠ stOk) : configRead c n r = refuse r.1 r.2.2 := if_pos h

theorem configRead_read {r : Nat × List Byte × State} (h : r.1 = stOk) : configRead c n r = configQueue c n r.2.1 r.2.2 :=
  if_neg (not_not_intro h)

theorem exec_seqQueueConfig_reads (m : Mbx) (s : State) : exec (.seqQueueConfig m) s =
    runCmd m .own [(16, 1), (24, 8)] (fun a => configRead (issuer m) (mfld m 16 1) (deviceData a (issuer m) (mfld m 24 8) 128)) s := rfl

theorem configQueue_bad (hbad : 8 ≤ n ∨ batchOk u c b (readBatchQ b) = false) : configQueue c n b u = refuse stBadParam u :=
  if_pos (hbad.imp_right ne_true_of_eq_false)

theorem configFields_accepted (hn : n < 8) (hok : batchOk u c b (readBatchQ b) = true) :
    ¬ (8 ≤ n ∨ ¬ batchOk u c b (readBatchQ b) = true) :=
  not_or.2 ⟨Nat.not_le.2 hn, not_not_intro hok⟩

theorem configQueue_full (hn : n < 8) (hok : batchOk u c b (readBatchQ b) = true)
    (hrows : 8192 < otherRows u c n + (readBatchQ b).maxRows) : configQueue c n b u = refuse stCapacity u :=
  (if_neg (configFields_accepted hn hok)).trans (if_pos hrows)

theorem configQueue_busy (hn : n < 8) (hok : batchOk u c b (readBatchQ b) = true)
    (hrows : otherRows u c n + (readBatchQ b).maxRows ≤ 8192)
    (hruns : plateRuns u (readBatchQ b).plate = true ∨ queueRuns u (u.batchQ c n) = true) : configQueue c n b u = refuse stBusy u :=
  (if_neg (configFields_accepted hn hok)).trans ((if_neg (Nat.not_lt.2 hrows)).trans (if_pos hruns))

theorem configQueue_sets (hn : n < 8) (hok : batchOk u c b (readBatchQ b) = true)
    (hrows : otherRows u c n + (readBatchQ b).maxRows ≤ 8192)
    (hstill : ¬ (plateRuns u (readBatchQ b).plate = true ∨ queueRuns u (u.batchQ c n) = true)) :
    configQueue c n b u = done (setQueueFrom c n (readBatchQ b) u) :=
  (if_neg (configFields_accepted hn hok)).trans ((if_neg (Nat.not_lt.2 hrows)).trans (if_neg hstill))

end Config

/-! ### SEQ_SUBMIT (R302) -/

section Submit
variable {m : Mbx} {a : State} {q : BatchQ} {k : Nat}

/-- The entry of a sequence that is submitted (Table 10.3): QUEUED at position 0, with no blocks. -/
def submittedEntry (m : Mbx) : SeqEntry :=
  { state := 1, release := false, pause := false, ctx := issuer m, queue := mfld m 16 1, placement := mfld m 17 1,
    proof := bitAt (mfld m 18 1) 0, position := 0, head := 0xFFFFFFFF, blocks := 0, limit := mfld m 40 4, last := 0,
    seed := mfld m 32 8, chain := List.replicate 32 0 }

/-- Sequence k is submitted: its entry, its prompt, and its place at the end of the join order. -/
def submitSeq (m : Mbx) (k : Nat) (a : State) : State :=
  updQ (issuer m) (mfld m 16 1) (fun q => { q with join := q.join ++ [k] })
    (updSeq (fun u => { u with live := Tab.set 0xFFFF u.live k (8 * issuer m + mfld m 16 1),
                               prompts := Tab.set (0, 0) u.prompts k (mfld m 24 8, mfld m 20 4) })
      (a.setSeq k (submittedEntry m)))

theorem submitSeq_seqs (m : Mbx) (k : Nat) (a : State) : (submitSeq m k a).mem.seqs = { a.mem.seqs with
    live := Tab.set 0xFFFF a.mem.seqs.live k (8 * issuer m + mfld m 16 1),
    prompts := Tab.set (0, 0) a.mem.seqs.prompts k (mfld m 24 8, mfld m 20 4),
    queues := Tab.upd none a.mem.seqs.queues (8 * issuer m + mfld m 16 1) (Option.map fun q => { q with join := q.join ++ [k] }) } := by
  unfold submitSeq
  rw [updQ_seqs, updSeq, updMem_mem, setSeq_seqs]

theorem submitSeq_batchQ (h : a.batchQ (issuer m) (mfld m 16 1) = some q) :
    (submitSeq m k a).batchQ (issuer m) (mfld m 16 1) = some { q with join := q.join ++ [k] } :=
  batchQ_of_upd (f := fun q => { q with join := q.join ++ [k] }) (by rw [submitSeq_seqs]) h

theorem submitSeq_mem : (submitSeq m k a).mem.mem = (a.setSeq k (submittedEntry m)).mem.mem := by
  unfold submitSeq
  rw [updQ_mem_mem, updSeq_mem_mem]

/-- The fields of a submission to a queue are in range. -/
def SubmitOk (m : Mbx) (a : State) (q : BatchQ) : Prop :=
  mfld m 17 1 < 3 ∧ (q.pool (mfld m 17 1)).isSome = true ∧ mfld m 18 1 < 2 ∧ mfld m 20 4 ≠ 0 ∧ mfld m 20 4 ≤ q.budget ∧
    ctxOwns a (issuer m) (mfld m 24 8) (4 * mfld m 20 4) = true

theorem submitOk_iff : SubmitOk m a q ↔ ¬ (3 ≤ mfld m 17 1 ∨ (q.pool (mfld m 17 1)).isNone = true ∨ 2 ≤ mfld m 18 1 ∨ mfld m 20 4 = 0 ∨
    q.budget < mfld m 20 4 ∨ ¬ ctxOwns a (issuer m) (mfld m 24 8) (4 * mfld m 20 4) = true) := by
  simp only [SubmitOk, not_or, not_not, Nat.not_le, Nat.not_lt, Option.isNone_iff_eq_none, Option.isSome_iff_ne_none, ne_eq]

theorem submitFields_refused {owns : Prop} (h : 3 ≤ mfld m 17 1 ∨ 2 ≤ mfld m 18 1 ∨ mfld m 20 4 = 0) :
    3 ≤ mfld m 17 1 ∨ (q.pool (mfld m 17 1)).isNone = true ∨ 2 ≤ mfld m 18 1 ∨ mfld m 20 4 = 0 ∨ q.budget < mfld m 20 4 ∨ ¬ owns := by
  obtain h | h | h := h
  · exact .inl h
  · exact .inr (.inr (.inl h))
  · exact .inr (.inr (.inr (.inl h)))

/-- What the search for a FREE entry answers, as a name of its own: no proof has to run through a million entries. -/
theorem exists_freeSearch (a : State) :
    ∃ free, ((List.range 1048576).find? fun i => Tab.get 0xFFFF a.mem.seqs.live i == 0xFFFF) = free := ⟨_, rfl⟩

/-- A search for the lowest number with a value finds it when there is one. -/
theorem findFree {α : Type} [BEq α] [LawfulBEq α] {f : Nat → α} {d : α} {n : Nat} (h : ∃ k, k < n ∧ f k = d) :
    ∃ k, ((List.range n).find? fun i => f i == d) = some k ∧ k < n ∧ f k = d ∧ ∀ i, i < k → f i ≠ d := by
  obtain ⟨j, hj, free⟩ := h
  obtain ⟨k, hk⟩ := Option.isSome_iff_exists.1 (List.find?_isSome (p := fun i => f i == d).2
    ⟨j, List.mem_range.2 hj, beq_iff_eq.2 free⟩)
  obtain ⟨hfree, hmem, hlow⟩ := List.find?_range_eq_some.1 hk
  exact ⟨k, hk, List.mem_range.1 hmem, beq_iff_eq.1 hfree, fun i hi => by simpa using hlow i hi⟩

end Submit

/-! ### Commands on a sequence (R300, R301) -/

section Own
variable {m : Mbx} {a : State} {f : Nat → SeqEntry → State → Nat × Result × State}

/-- The command names a sequence in use of its issuer's context. -/
def OwnSeq (m : Mbx) (a : State) : Prop := Tab.get 0xFFFF a.mem.seqs.live (mfld m 16 4) ≠ 0xFFFF ∧
  Tab.get 0xFFFF a.mem.seqs.live (mfld m 16 4) / 8 = issuer m ∧ (a.seq (mfld m 16 4)).state ≠ 0

/-- What a command does with the sequence that it names. -/
def onSeq (f : Nat → SeqEntry → State → Nat × Result × State) (m : Mbx) (a : State) : Nat × Result × State :=
  if Tab.get 0xFFFF a.mem.seqs.live (mfld m 16 4) = 0xFFFF ∨ Tab.get 0xFFFF a.mem.seqs.live (mfld m 16 4) / 8 ≠ issuer m ∨
      (a.seq (mfld m 16 4)).state = 0 then refuse stBadParam a
  else f (mfld m 16 4) (a.seq (mfld m 16 4)) a

theorem onSeq_own (h : OwnSeq m a) : onSeq f m a = f (mfld m 16 4) (a.seq (mfld m 16 4)) a := by
  obtain ⟨hlive, hctx, hstate⟩ := h
  exact if_neg (not_or.2 ⟨hlive, not_or.2 ⟨not_not_intro hctx, hstate⟩⟩)

theorem onSeq_foreign (h : Tab.get 0xFFFF a.mem.seqs.live (mfld m 16 4) = 0xFFFF ∨
    Tab.get 0xFFFF a.mem.seqs.live (mfld m 16 4) / 8 ≠ issuer m ∨ (a.seq (mfld m 16 4)).state = 0) :
    onSeq f m a = (stBadParam, Result.none, a) := if_pos h

/-- The sequence's entry is changed and nothing else. -/
def setOwnSeq (g : SeqEntry → SeqEntry) (m : Mbx) (a : State) : State := a.setSeq (mfld m 16 4) (g (a.seq (mfld m 16 4)))

theorem setOwnSeq_mem (g : SeqEntry → SeqEntry) :
    (setOwnSeq g m a).mem.mem = (a.setSeq (mfld m 16 4) (g (a.seq (mfld m 16 4)))).mem.mem := by
  unfold setOwnSeq
  rfl

theorem setOwnSeq_seqs (g : SeqEntry → SeqEntry) : (setOwnSeq g m a).mem.seqs = a.mem.seqs := setSeq_seqs ..

/-- The sequence goes to the back of its queue's join order (R301). -/
def resumeSeq (m : Mbx) (a : State) : State :=
  updQ (issuer m) (a.seq (mfld m 16 4)).queue (fun q => { q with join := q.join ++ [mfld m 16 4] })
    (setOwnSeq (fun e => { e with state := 1, pause := false }) m a)

theorem resumeSeq_mem : (resumeSeq m a).mem.mem =
    (a.setSeq (mfld m 16 4) { a.seq (mfld m 16 4) with state := 1, pause := false }).mem.mem := by
  unfold resumeSeq
  rw [updQ_mem_mem, setOwnSeq_mem]

theorem resumeSeq_seqs : (resumeSeq m a).mem.seqs = { a.mem.seqs with
    queues := Tab.upd none a.mem.seqs.queues (8 * issuer m + (a.seq (mfld m 16 4)).queue)
      (Option.map fun q => { q with join := q.join ++ [mfld m 16 4] }) } := by
  unfold resumeSeq
  rw [updQ_seqs, setOwnSeq_seqs]

theorem resumeSeq_batchQ {q : BatchQ} (h : a.batchQ (issuer m) (a.seq (mfld m 16 4)).queue = some q) :
    (resumeSeq m a).batchQ (issuer m) (a.seq (mfld m 16 4)).queue = some { q with join := q.join ++ [mfld m 16 4] } :=
  batchQ_of_upd (f := fun q => { q with join := q.join ++ [mfld m 16 4] }) (by rw [resumeSeq_seqs]) h

theorem exec_seqRelease_on (m : Mbx) (s : State) : exec (.seqRelease m) s = runCmd m .own [(16, 4)]
    (onSeq (fun _ _ a => done (setOwnSeq (fun e => { e with release := true }) m a)) m) s := rfl

theorem exec_seqPause_on (m : Mbx) (s : State) : exec (.seqPause m) s = runCmd m .own [(16, 4)] (onSeq (fun _ e a =>
    if e.state = 1 ∨ e.state = 2 then done (setOwnSeq (fun e => { e with pause := true }) m a) else refuse stBadParam a) m) s := rfl

theorem exec_seqResume_on (m : Mbx) (s : State) : exec (.seqResume m) s = runCmd m .own [(16, 4)] (onSeq (fun _ e a =>
    if e.state ≠ 3 then refuse stBadParam a else done (resumeSeq m a)) m) s := rfl

theorem exec_seqQuery_on (m : Mbx) (s : State) : exec (.seqQuery m) s = runCmd m .own [(16, 4)]
    (onSeq (fun n _ a => (stOk, { fields := [], block := some (a.mem.mem.bytesAt (seqAddress n) 64) }, a)) m) s := rfl

end Own

/-! ### MANIFEST_RETIRE (R308) -/

section Retire
variable {ctx : BitVec 8} {q : BitVec 3} {s : State} {x : BatchQ}

theorem fetching_iff {l : List SeqWait} : (l.any fun w => w.status == 0xFFFF) = true ↔ ∃ w ∈ l, w.status = 0xFFFF := by
  simp only [List.any_eq_true, beq_iff_eq]

theorem execManifestRetire_no_queue (h : s.batchQ ctx.toNat q.toNat = none) : execManifestRetire ctx q s = .next s := by
  simp only [execManifestRetire, h]

theorem execManifestRetire_waits (h : s.batchQ ctx.toNat q.toNat = some x)
    (hwait : x.forming = false ∨ ∃ w ∈ x.waits, w.status = 0xFFFF) : execManifestRetire ctx q s = .next s := by
  simp only [execManifestRetire, h]
  exact if_pos (hwait.imp ne_true_of_eq_false fetching_iff.2)

theorem execManifestRetire_retires (h : s.batchQ ctx.toNat q.toNat = some x) (hforming : x.forming = true)
    (hdone : ∀ w ∈ x.waits, w.status ≠ 0xFFFF) : execManifestRetire ctx q s = .next (retireFor ctx.toNat x.core x.cnt stOk (thatchGo
      (updQ ctx.toNat q.toNat (fun q => { q with forming := false }) (settleFetches ctx.toNat q.toNat s)))) := by
  simp only [execManifestRetire, h]
  exact if_neg (not_or.2 ⟨not_not_intro hforming, mt fetching_iff.1 fun ⟨w, hw, waiting⟩ => hdone w hw waiting⟩)

end Retire

/-- Settles O47: a configuration is `configQueue` of what it reads, a submission is `submitSeq` of the lowest FREE entry, and the
commands on a sequence change its entry by `setOwnSeq`, which leaves the sequence unit alone. -/
theorem sequencesAndManifests : Obligations.SequencesAndManifests := by
  refine ⟨fun m s a u b st hok hread => ?configDeclines, performs_of exec_seqQueueConfig_reads fun m a hv => ?config,
    performs_of exec_seqSubmit fun m a hv => ?submit, declines_of exec_seqSubmit fun m a hw => ?submitQuota,
    declines_of exec_seqSubmit fun m a hw => ?submitBad,
    ⟨performs_of exec_seqRelease_on fun m a hv => ?release,
      performs_of exec_seqPause_on fun m a hv => ?pause, performs_of exec_seqResume_on fun m a hv => ?resume⟩, fun c hc => ?foreign,
    performs_of exec_seqResume_on fun m a hv => ?rejoin, performs_of exec_seqQuery_on fun m a hv => ⟨_, _, onSeq_own hv, rfl, rfl⟩,
    performs_of exec_seqAllot fun m a hv => ⟨Result.none, _, if_neg (Nat.not_lt.2 hv), rfl, ?allot, ?allotOthers, rfl⟩,
    declines_of exec_seqAllot fun m a hw => if_pos hw,
    fun ctx q s => ⟨fun hrest => ?rests, fun x hx => execManifestRetire_retires hx⟩⟩
  case configDeclines =>
    have reads : ∀ {status : Nat}, configRead (issuer m) (mfld m 16 1) (st, b, u) = refuse status u →
        exec (.seqQueueConfig m) s = .next (complete m status Result.none u) := fun h => by
      rw [exec_seqQueueConfig_reads]
      refine runCmd_ok (congrArg Prod.fst hok) ?_
      rw [hok, hread]
      exact h
    refine ⟨fun hst => reads (configRead_unread hst), fun hst hbad => reads ((configRead_read hst).trans (configQueue_bad hbad)),
      fun hst hn hb hrows => reads ((configRead_read hst).trans (configQueue_full hn hb hrows)),
      fun hst hn hb hrows hruns => reads ((configRead_read hst).trans (configQueue_busy hn hb hrows ?_))⟩
    exact hruns.imp plateRuns_iff.2 fun ⟨o, ho, h⟩ => queueRuns_iff.2 ⟨o, ho, plateRuns_iff.2 h⟩
  case config =>
    obtain ⟨⟨st, b, u⟩, hread⟩ : ∃ r, deviceData a (issuer m) (mfld m 24 8) 128 = r := ⟨_, rfl⟩
    simp only [hread] at hv ⊢
    obtain ⟨hst, hn, hb, hrows, hnew, hold⟩ := hv
    have still := not_or.2 ⟨mt plateRuns_iff.1 hnew, mt queueRuns_iff.1 fun ⟨o, ho, h⟩ => hold o ho (plateRuns_iff.1 h)⟩
    refine ⟨Result.none, setQueueFrom (issuer m) (mfld m 16 1) (readBatchQ b) u,
      (configRead_read hst).trans (configQueue_sets hn hb hrows still), rfl, fun hnone => ?_, fun o ho => ?_,
      fun i hi _ => setQueueFrom_batchQ_other _ hi, rfl⟩
    · rw [setQueueFrom_batchQ_same, hnone]
      rfl
    · rw [setQueueFrom_batchQ_same, ho]
      rfl
  case submit =>
    obtain ⟨hn, q, hq, hplace, hpool, hproof, htokens, hbudget, howns, hquota, hfree⟩ := hv
    obtain ⟨k, hk, hlt, hat, hlow⟩ := findFree hfree
    have ok : SubmitOk m a q := ⟨hplace, hpool, hproof, htokens, hbudget, howns⟩
    refine ⟨{ fields := [(8, 4, k)], block := none }, submitSeq m k a, ?_, k, hlt, hat, hlow, rfl, ?_, ?_, fun i hi => ?_,
      fun q' hq' => ?_, fun i hi => ?_, submittedEntry m, rfl, rfl, rfl, rfl, rfl, rfl, ?_, rfl, rfl, rfl, rfl, rfl, submitSeq_mem⟩
    · simp only [if_neg (Nat.not_le.2 hn), hq, hk]
      exact (if_neg (submitOk_iff.1 ok)).trans (if_neg (Nat.not_le.2 hquota))
    · rw [submitSeq_seqs]
      exact Tab.get_set_eq
    · rw [submitSeq_seqs]
      exact Tab.get_set_eq
    · rw [submitSeq_seqs]
      exact Tab.get_set_ne hi
    · exact submitSeq_batchQ hq'
    · rw [submitSeq_seqs]
      exact Tab.get_set_ne hi
    · rw [Bool.eq_iff_iff, beq_iff_eq]
      exact bitAt_zero_iff hproof
  case submitQuota =>
    obtain ⟨hn, q, hq, hplace, hpool, hproof, htokens, hbudget, howns, hquota⟩ := hw
    have ok : SubmitOk m a q := ⟨hplace, hpool, hproof, htokens, hbudget, howns⟩
    obtain ⟨free, hfree⟩ := exists_freeSearch a
    simp only [if_neg (Nat.not_le.2 hn), hq, hfree]
    exact (if_neg (submitOk_iff.1 ok)).trans (if_pos hquota)
  case submitBad =>
    obtain ⟨free, hfree⟩ := exists_freeSearch a
    by_cases hn : 8 ≤ mfld m 16 1
    · simp only [if_pos hn, refuse]
    cases hq : a.batchQ (issuer m) (mfld m 16 1) with
    | none => simp only [if_neg hn, hq, refuse]
    | some q =>
      simp only [if_neg hn, hq, hfree]
      refine if_pos (submitFields_refused ?_)
      obtain h | h | h := hw
      · exact absurd h hn
      · cases hq.symm.trans h
      · exact h
  case release =>
    refine ⟨Result.none, _, onSeq_own hv, rfl, ?_⟩
    dsimp only
    rw [setOwnSeq_mem, setOwnSeq_seqs]
    exact ⟨rfl, rfl, rfl, fun _ _ => rfl⟩
  case pause =>
    obtain ⟨hown, hstate⟩ := hv
    refine ⟨Result.none, _, (onSeq_own hown).trans (if_pos hstate), rfl, ?_⟩
    dsimp only
    rw [setOwnSeq_mem, setOwnSeq_seqs]
    exact ⟨rfl, rfl, rfl, fun _ _ => rfl⟩
  case resume =>
    obtain ⟨hown, hstate⟩ := hv
    refine ⟨Result.none, _, (onSeq_own hown).trans (if_neg (not_not_intro hstate)), rfl, ?_⟩
    rw [resumeSeq_mem, resumeSeq_seqs]
    dsimp only
    exact ⟨rfl, rfl, rfl, fun i hi => Tab.get_set_ne hi⟩
  case rejoin =>
    obtain ⟨hlive, hctx, hstate⟩ := hv
    have own : OwnSeq m a := ⟨hlive, hctx, by omega⟩
    exact ⟨Result.none, resumeSeq m a, (onSeq_own own).trans (if_neg (not_not_intro hstate)), fun q => resumeSeq_batchQ⟩
  case foreign =>
    simp only [List.mem_cons, List.not_mem_nil, or_false] at hc
    obtain rfl | rfl | rfl := hc
    · exact declines_of exec_seqRelease_on fun m a => onSeq_foreign
    · exact declines_of exec_seqPause_on fun m a => onSeq_foreign
    · exact declines_of exec_seqResume_on fun m a => onSeq_foreign
  case allot => exact Tab.get_set_eq
  case allotOthers => exact fun c hc => Tab.get_set_ne hc
  case rests =>
    obtain hnone | ⟨x, hx, hwait⟩ := hrest
    · exact execManifestRetire_no_queue hnone
    · exact execManifestRetire_waits hx hwait

end Sys2Proof.Machine
end
